-- ==== Sys2Proof/Word.lean ====
section
/-! DEFINITION. Bytes and byte strings: the words of every layout of the spec (00_scope R5). -/
namespace Sys2Proof

/-- One byte. -/
abbrev Byte := BitVec 8

/-- A byte string; the head is byte offset 0 (R5). -/
abbrev Bytes := List Byte

/-- 2^48, the span of a full stamp. -/
abbrev span48 : Nat := 281474976710656

end Sys2Proof
end

