-- ==== Sys2Proof/Machine/Assoc.lean ====
section
/-! DEFINITION. Sparse tables keyed by a number: lists of pairs with strictly rising keys. -/
namespace Sys2Proof.Machine

/-- A sparse table. -/
abbrev Assoc (α : Type) := List (Nat × α)

/-- The value held under `k`. -/
def kvGet {α : Type} : Assoc α → Nat → Option α
  | [], _ => none
  | (j, v) :: m, k => if k = j then some v else kvGet m k

/-- `m` without `k`. -/
def kvDel {α : Type} : Assoc α → Nat → Assoc α
  | [], _ => []
  | (j, v) :: m, k => if k = j then kvDel m k else (j, v) :: kvDel m k

/-- `m` with `v` under `k`, in key order. -/
def kvIns {α : Type} : Assoc α → Nat → α → Assoc α
  | [], k, v => [(k, v)]
  | (j, w) :: m, k, v => if k < j then (k, v) :: (j, w) :: m else (j, w) :: kvIns m k v

/-- `m` with `v` under `k` in place of whatever stood there. -/
def kvPut {α : Type} (m : Assoc α) (k : Nat) (v : α) : Assoc α := kvIns (kvDel m k) k v

/-- Keys strictly rise: the canonical form of a sparse table. -/
def kvSorted {α : Type} : Assoc α → Bool
  | [] => true
  | [_] => true
  | (j, _) :: (k, w) :: m => decide (j < k) && kvSorted ((k, w) :: m)

end Sys2Proof.Machine
end

