-- ==== Sys2Proof/Machine/Types.lean ====
section
/-! DEFINITION. The plain data that commands carry and State holds: carriers, frame headers, item records, log entries
and the device's outputs. -/
namespace Sys2Proof.Machine

/-- The identity of a session's carrier (04_dictionary Table 5, R97): a CAN controller and node, an IPv4 address and
UDP port, or a PCIe function. -/
inductive Carrier where
  | can (ctl node : Nat)
  | udp (ip port : Nat)
  | mailbox (fn : Nat)
  deriving DecidableEq, Repr

/-- An Ighovik frame as it arrives, but for its payload (04_dictionary Table 3). `ethPort` is the port a UDP datagram
came in by (0 A, 1 B); `fragmented` says that the datagram was fragmented (R109); `classical` that a CAN frame is not CAN
FD and `ident` is its 29-bit identifier (R107); `short` that the frame cannot hold a header (R111). -/
structure Hdr where
  carrier : Carrier
  ethPort : Nat := 0
  fragmented : Bool := false
  classical : Bool := false
  ident : Nat := 0
  short : Bool := false
  version : Nat := 1
  auth : Bool := true
  more : Bool := false
  resp : Bool := false
  opcode : Nat
  tag : Nat
  session : Nat
  seq : Nat
  len : Nat
  seg : Nat := 0
  mac : Bytes
  deriving DecidableEq, Repr

/-- An answer's head and data (04_dictionary section 4): status, version, detail, then bytes. -/
structure Ans where
  status : Nat
  ver : Nat := 0
  detail : Nat := 0
  data : Bytes := []
  deriving DecidableEq, Repr

/-- Names of the status codes of 04_dictionary Table 7. -/
abbrev Sc.ok : Nat := 0x0000
abbrev Sc.busyBooting : Nat := 0x0101
abbrev Sc.busy : Nat := 0x0102
abbrev Sc.quarantined : Nat := 0x0103
abbrev Sc.maintenance : Nat := 0x0104
abbrev Sc.authFailed : Nat := 0x0201
abbrev Sc.sessionUnknown : Nat := 0x0202
abbrev Sc.sessionLimit : Nat := 0x0203
abbrev Sc.seqStale : Nat := 0x0205
abbrev Sc.tagInUse : Nat := 0x0206
abbrev Sc.tooManyOutstanding : Nat := 0x0207
abbrev Sc.malformed : Nat := 0x0301
abbrev Sc.badOpcode : Nat := 0x0302
abbrev Sc.badLength : Nat := 0x0303
abbrev Sc.noObject : Nat := 0x0401
abbrev Sc.unsupported : Nat := 0x0402
abbrev Sc.unitAbsent : Nat := 0x0403
abbrev Sc.accessDenied : Nat := 0x0404
abbrev Sc.notOwner : Nat := 0x0405
abbrev Sc.typeMismatch : Nat := 0x0406
abbrev Sc.outOfRange : Nat := 0x0407
abbrev Sc.stateRefused : Nat := 0x0408
abbrev Sc.versionMismatch : Nat := 0x0409
abbrev Sc.pourOnly : Nat := 0x040A
abbrev Sc.objectLocked : Nat := 0x040B
abbrev Sc.notPourable : Nat := 0x040C
abbrev Sc.absent : Nat := 0x040D
abbrev Sc.segmentOrder : Nat := 0x0501
abbrev Sc.blockTimeout : Nat := 0x0502
abbrev Sc.blockCrc : Nat := 0x0503
abbrev Sc.blockSize : Nat := 0x0504
abbrev Sc.aborted : Nat := 0x0505
abbrev Sc.pourBacklog : Nat := 0x0601
abbrev Sc.subscriptionLimit : Nat := 0x0701

/-- Integrity of a data unit or item (18_integrity Table 2). -/
inductive Integ where
  | ok | cocOnly | bad | unproven
  deriving DecidableEq, Repr

/-- What a handover point found (18_integrity Table 2): whether the old check agrees with the data, whether the
check-of-check agrees with the old check (none at points 0-5), and any uncorrectable ECC word with its address. -/
structure Found where
  checkOk : Bool := true
  hasCoc : Bool := true
  cocOk : Bool := true
  eccCorrected : Nat := 0
  eccData : Bool := false
  eccCheck : Bool := false
  eccAddr : Nat := 0
  deriving DecidableEq, Repr

/-- A slot's table entry as its items take it when they are classified (06_pours R152): its source, the paths, the host queue
and the policies. -/
structure SlotCfg where
  kind : Nat := 0
  select : Nat := 0
  paths : Nat := 0
  hostQueue : Nat := 0
  badPolicy : Nat := 0
  unpPolicy : Nat := 0
  deriving DecidableEq, Repr

/-- A packet as it comes from a CSI-2 port: whether its header could be used (07_sensor_ingest R180), what was found of its
check, and its bytes. -/
structure CsiPacket where
  headerOk : Bool := true
  found : Found := {}
  data : Bytes
  deriving DecidableEq, Repr

/-- A 64-byte item record with its payload (15_hosts_queues Table 4). `data` is the payload of kinds 0 and 1; `addr`
the DRAM address of kind 2. `poses` are the poses attached to a camera frame (08_fusion_grid R198); `entry` is the entry of
its generation (06_pours R152), which routes it to the end. The record's own
checks are those of its bytes and are not held apart. -/
structure Item where
  subject : Nat := 0
  completion : Nat := 0
  aux : Nat := 0
  srcKind : Nat := 0
  srcNum : Nat := 0
  bad : Bool := false
  unproven : Bool := false
  late : Bool := false
  cut : Bool := false
  gen : Nat := 0
  genValid : Bool := false
  volatile : Bool := false
  ingest : Nat := 0
  prio : Nat := 3
  payKind : Nat := 0
  seq : Nat := 0
  len : Nat := 0
  data : Bytes := []
  addr : Nat := 0
  payCheck : Nat := 0
  hostTag : Nat := 0
  producer : Nat := 0
  poses : List (List Int) := []
  entry : SlotCfg := {}
  deriving DecidableEq, Repr

/-- A fault-log entry (18_integrity Table 3). -/
structure LogEntry where
  stamp : Nat
  island : Nat
  iface : Nat
  partner : Nat
  code : Nat
  d1 : Nat
  d2 : Nat
  d3 : Nat
  seq : Nat
  mirrored : Bool
  violation : Bool
  summary : Bool
  deriving DecidableEq, Repr

/-- Kinds of frame the device sends on an Ethernet port. -/
inductive FrameKind where
  | ptpSync | ptpFollowUp | ptpAnnounce | ptpDelayReq | ptpDelayResp | ptpPdelayReq | ptpPdelayResp
  | heartbeat | rtp | igmpJoin | arpReply | icmpEchoReply
  | virekConnectAck | virekDisconnect | virekReadData | virekAck | virekNak | virekPing
  deriving DecidableEq, Repr

/-- What the device sends. `frame` gives the port (0 A, 1 B), the kind, the addresses it is sent from (16_network_paths
R321) and its fields in the order its chapter names them, its payload, and whether it left with its FCS inverted (18_integrity R362); `canFrame` is a CAN FD frame with its 29-bit
identifier and padded data (04_dictionary R107), and `audio` a block of I32 samples that a port's output takes from its domain,
by channel (13_mix_engine R263); `biphase` gives the channel status and user bits that a biphase transmitter sends with 32
frames, and their validity bit (12_audio_ports R254). -/
inductive Output where
  | answer (c : Carrier) (sid seq tag op seg : Nat) (more : Bool) (a : Ans) (mac : Bytes)
  | notify (c : Carrier) (sid seq handle coalesced : Nat) (a : Ans) (stamp : Nat) (mac : Bytes)
  | canFrame (ctl ident : Nat) (data : Bytes)
  | msix (part vec : Nat)
  | hostWrite (part addr : Nat) (data : Bytes)
  | frame (port : Nat) (kind : FrameKind) (fields : List Int) (payload : Bytes) (stomped : Bool)
  | pulse (out : Nat) (level : Bool) (stamp : Nat)
  | barRead (fn : Nat) (value : Nat)
  | barBytes (fn : Nat) (data : Bytes)
  | i2cData (ack : Bool) (data : Bytes)
  | canAck (ctl : Nat)
  | analogCode (chan : Nat) (code : Int)
  | safePin (pin : Nat) (level : Bool)
  | audio (port : Nat) (samples : List (List Int))
  | biphase (port : Nat) (status user : Bytes) (validity : Bool)
  | spiRead (port mode divider : Nat) (command : Bytes) (length : Nat)
  deriving DecidableEq, Repr

/-- A fence (02_timeline section 8). -/
structure Fence where
  value : Nat := 0
  deadline : Nat := 0
  enabled : Bool := false
  deriving DecidableEq, Repr

/-- An armed wait (R50, R52): its handle, fence, target, delivery (0 item, 1 MSI-X, 2 mirror), destination and the
partition that armed it. -/
structure Wait where
  handle : Nat
  fence : Nat
  target : Nat
  delivery : Nat
  dest : Nat
  part : Nat
  deriving DecidableEq, Repr

/-- The timeline counter (02_timeline R29, R35, R38): integer and fraction, era, increment and the increment a manual
slew returns to (Q32.32), the amount still to absorb (2^-32 ns, signed), and whether root lock has started it. `skew` is by
how much the stamp replicas of islands differ from the counter (2^-32 ns; an island not listed agrees) and `ticks` the ticks
since the last reload (R31); `usDone` is the number of the microsecond after the last whose deadline completions were posted
(R53), and `signals` the completions' signals that wait for TMG (R54, log 143). -/
structure Timeline where
  now : Nat := 0
  frac : Nat := 0
  era : Nat := 0
  inc : Nat := 0x411AAAAAB
  base : Nat := 0x411AAAAAB
  slewRem : Int := 0
  running : Bool := false
  skew : Assoc Int := []
  ticks : Nat := 0
  usDone : Nat := 0
  signals : List (Nat × Nat) := []
  deriving DecidableEq, Repr

/-- A foreign master's data set as an Announce gives it (02_timeline R40), with the identities of its path trace TLV (R39,
Table 2) and the extended instant it came at. -/
structure Master where
  source : Nat
  gm : Nat
  prio1 : Nat
  clockClass : Nat
  accuracy : Nat
  variance : Nat
  prio2 : Nat
  steps : Nat
  utc : Int
  logAnnounce : Int
  stamp : Nat
  path : List Nat := []
  deriving DecidableEq, Repr

/-- A port's PTP bookkeeping: the foreign-master table (at most 8), the stamp since which valid Announces have come
without a timeout, and the sequence and send time (network time) of the delay request last sent. -/
structure PtpPort where
  masters : List Master := []
  goodSince : Option Nat := none
  delayReqSeq : Nat := 0
  delayReqAt : Option Int := none
  deriving DecidableEq, Repr

/-- What the next θ decides (Table 4 of 02_timeline): nothing, a master change, or the return of the lost master. -/
inductive ThetaCase where
  | plain | change | back
  deriving DecidableEq, Repr

/-- The servo's own state beside its registers (R40-R45). `lastRate` bookkeeping: `segs` are the increments in force in
TRACK and how long each held, newest first; `trackSince` is the instant from which the present one counts; `lastSync`
holds the origin and arrival times of the last valid Sync, `syncAt` the extended instant of it or of its master's selection
and `syncLog` its log interval; `ratio` is the frequency of the master against the timeline in ppb, from the last two Syncs
(03_timing_unit R60); `ignored` counts PTP messages outside the log intervals of Table 2. -/
structure Servo where
  portA : PtpPort := {}
  portB : PtpPort := {}
  master : Option Nat := none
  inWin : Nat := 0
  outWin : Nat := 0
  suspended : Bool := false
  next : ThetaCase := .plain
  segs : List (Nat × Nat) := []
  trackSince : Option Nat := none
  lastSync : Option (Int × Int) := none
  syncAt : Nat := 0
  syncLog : Int := 0
  ratio : Int := 0
  ignored : Nat := 0
  gmSyncSeq : Nat := 0
  gmAnnounceSeq : Nat := 0
  deriving DecidableEq, Repr

/-- An outstanding request of a session (R101); `at_` is the extended instant of its acceptance. -/
structure Outst where
  tag : Nat
  op : Nat
  payload : Bytes
  seq : Nat
  at_ : Nat := 0
  deriving DecidableEq, Repr

/-- A cached answer (R101). -/
structure Cached where
  tag : Nat
  op : Nat
  payload : Bytes
  seq : Nat
  ans : Ans
  stamp : Nat
  deriving DecidableEq, Repr

/-- A subscription (R105): changes merged so far by its NOTIFY commands, the instant of the last NOTIFY and the stamp of
the last change. The changes of the object itself are counted in `Books.watch`. -/
structure Subscr where
  handle : Nat
  key : Nat
  mode : Nat
  interval : Nat
  changes : Nat
  sentAt : Option Nat
  changedAt : Nat
  deriving DecidableEq, Repr

/-- A session (R96-R98, R101, R105). `accepted` lists the accepted sequences within 63 of `hi`; `ethPort` is the port its
last request over UDP came by (R109). -/
structure Session where
  id : Nat
  part : Nat
  carrier : Carrier
  key : Bytes
  confirmed : Bool
  hi : Nat
  accepted : List Nat
  devSeq : Nat
  opened : Nat
  lastReq : Nat
  outst : List Outst
  cache : List Cached
  subs : List Subscr
  ethPort : Nat := 0
  deriving DecidableEq, Repr

/-- A block write in progress (R103); for a segmented POUR `op` is 9 and `key` 0. -/
structure Block where
  sid : Nat
  part : Nat
  tag : Nat
  op : Nat
  key : Nat
  cond : Option Nat
  next : Nat
  total : Nat
  data : Bytes
  payload0 : Bytes
  seq0 : Nat
  lastSeg : Nat
  deriving DecidableEq, Repr

/-- A commit to embedded flash in progress (R87, R415): the values and byte objects it commits, and the request whose OK
waits for it (`sid` 0: none). -/
structure Commit where
  vals : List (Nat × Int) := []
  blobs : List (Nat × Bytes) := []
  sid : Nat := 0
  tag : Nat := 0
  op : Nat := 0
  payload : Bytes := []
  seq : Nat := 0
  ver : Nat := 0
  detail : Nat := 0
  deriving DecidableEq, Repr

/-- The dictionary service's own state. `lastBusy` is the instant of the last BUSY_BOOTING answer per UDP partner (R135);
`startReqs` are the requests accepted in the start window at its latest instant, by carrier (R136). Instants here and in
sessions are of the extended timeline (log 137). -/
structure Dict where
  sessions : List Session := []
  usedIds : List Nat := []
  blocks : List Block := []
  commits : List Commit := []
  window : List Nat := []
  restore : Bool := false
  nextHandle : Nat := 1
  lastBusy : List (Carrier × Nat) := []
  startReqs : List (Carrier × Nat) := []
  deriving DecidableEq, Repr

/-- One partition's mailbox rings and host latches in BAR0 (15_hosts_queues Table 1, R299, R303). -/
structure Mailbox where
  reqBase : Nat := 0
  ansBase : Nat := 0
  slots : Nat := 0
  reqProd : Nat := 0
  reqCons : Nat := 0
  ansProd : Nat := 0
  ansCons : Nat := 0
  held : List Output := []
  deriving DecidableEq, Repr

/-- The fault log (18_integrity R365, R366): ring newest first, next sequence, the flash mirror newest first, the stamps of
the mirror writes outside 0x7xxx within the last second, and the count of entries of each island, from which event items take
their sequence (15_hosts_queues Table 4, log 159). -/
structure FaultLog where
  ring : List LogEntry := []
  nextSeq : Nat := 0
  mirror : List LogEntry := []
  mirrorAt : List Nat := []
  made : List (Nat × Nat) := []
  deriving DecidableEq, Repr

/-- A partner's violation record (R367-R371). `viols` are the stamps of its latest violations. For kind 3 the peer's
address and the stamp of its last activity stand beside. -/
structure Partner where
  id : Nat
  addr : Nat := 0
  lastActive : Nat := 0
  viols : List Nat := []
  total : Nat := 0
  lastCode : Nat := 0
  until_ : Option Nat := none
  duringViols : Nat := 0
  drops : Nat := 0
  dropsThis : Nat := 0
  deriving DecidableEq, Repr

/-- Where a fence operation comes from: the dictionary, or a function's fence page in BAR0 (02_timeline Table 5). -/
inductive FenceSrc where
  | dict (hd : Hdr) (cond : Option Nat)
  | bar0 (fn fence : Nat)
  deriving DecidableEq, Repr

/-- What a queue holds beside its objects (15_hosts_queues R304-R317): the items oldest enqueued first, ring indices
(free-running, 32 bits), the start of the staleness count, whether this episode has raised its notice, and for events
0x0121 and 0x0123 the stamp last logged and the count since. -/
structure QueueRt where
  items : List Item := []
  prod : Nat := 0
  cons : Nat := 0
  peerIdx : Nat := 0
  since : Nat := 0
  stale : Bool := false
  dropAt : Option Nat := none
  dropN : Nat := 0
  exhAt : Option Nat := none
  exhN : Nat := 0
  deriving DecidableEq, Repr

/-- The supply, the pins and the boot flow (05_start_up, 20_electrical): VIN 0 below 3.0 V, 1 above, 2 valid; each VIO
output 0 off, 1 in regulation, 2 limited, 3 switched off; the levels SAFE_A and SAFE_B drive; PERST# released; the
VSEL straps as last read. -/
structure Pins where
  vin : Nat := 0
  vio18 : Nat := 0
  vio33 : Nat := 0
  safeA : Bool := false
  safeB : Bool := false
  perst : Bool := false
  safeApplied : Bool := false
  vsel : Nat := 0
  deriving DecidableEq, Repr

/-- The flash-map record and the boot in progress (05_start_up R120, R125, R131-R133): the current bank, the bank on trial,
whether it is the trial that runs and may be committed, the banks tried at this start with the checks that left them
(R124), the extended instant of the last update write, and the consent to a Provisional bundle; `patched` says that the boot
patch has been applied at this start (R125), `phaseAt` is the instant at which the present phase began (R120) and
`dramTested` the mask of the DRAM channels trained and tested (19_power_dies R391). -/
structure Boot where
  current : Nat := 0
  patched : Bool := false
  phaseAt : Nat := 0
  dramTested : Nat := 0
  trial : Option Nat := none
  trialRunning : Bool := false
  tried : List Nat := []
  leftCause : List (Nat × Nat) := []
  updateAt : Nat := 0
  consent : Bool := false
  deriving DecidableEq, Repr

/-- A reference's times (03_timing_unit R65, R67): the stamp of its entry to VALID. -/
structure RefRt where
  validSince : Nat := 0
  goodSince : Nat := 0
  outSince : Option Nat := none
  deriving DecidableEq, Repr

/-- A pulse train (R74-R78, R83). `start` is the instant from which edges count; once `laid`, `anchor` is the anchor of the
second in progress on the extended timeline, `len` that second's length L and `k` its next edge, Rate where the next second
comes; `left` counts the edges still to emit where Count is above 0; `last` is the instant at which an edge last left;
`active` says that a pulse is in progress, begun at the count `since` in 2^-32 ns, and `stopping` that it is the last. -/
structure Train where
  start : Int
  laid : Bool := false
  anchor : Int := 0
  len : Nat := 1000000000
  k : Nat := 0
  left : Option Nat
  emitted : Nat := 0
  last : Option Nat := none
  active : Bool := false
  since : Nat := 0
  stopping : Bool := false
  deriving DecidableEq, Repr

/-- A held command of 03_timing_unit Table 6: a pulse output, an audio output, a DAC channel, or a frame to send. -/
inductive HeldCmd where
  | pulse (out : Nat)
  | audio (port : Nat)
  | dac (ch : Nat)
  | frame (o : Output)
  deriving DecidableEq, Repr

/-- A held command with its synthesiser (subindex of 0x2150) and the extended instant of its acceptance (R80-R82). -/
structure Held where
  syn : Nat
  at_ : Nat
  cmd : HeldCmd
  deriving DecidableEq, Repr

/-- The timing unit beside its objects. `corrAt` is the instant from which RootFreqOffset moves toward `corrTo` (ppb) at
FreqSlopeLimit; `segs` are corrections held in LOCKED with their times, newest first; `locked` the instant since which
the correction in force counts; `compAt` that of the last comparison; `withinSince` the instant since which the phase error
is within RefLockWindow and `withinCount` the comparisons that found it so in a row (R69); `pps` the last accepted PPS_IN
edge and `anchors` the last four anchors predicted from its edges with their L, newest first; `trains` the running trains;
`held` the deferred commands; `recal` and `recalWait` the SerDes recalibrations. Instants are extended. -/
structure Tu where
  refs : Assoc RefRt := []
  corrAt : Nat := 0
  corrTo : Int := 0
  segs : List (Int × Nat) := []
  locked : Option Nat := none
  compAt : Option Nat := none
  withinSince : Option Nat := none
  withinCount : Nat := 0
  pps : Option Nat := none
  anchors : List (Nat × Nat) := []
  trains : Assoc Train := []
  held : List Held := []
  recal : Option Nat := none
  recalWait : List Nat := []
  deriving DecidableEq, Repr

/-- A CSI-2 frame in progress (07_sensor_ingest R168-R170). -/
structure CsiFrame where
  fs : Nat
  exposure : Nat
  exposed : Bool := false
  unmodelled : Bool := false
  lines : Nat := 0
  defect : Bool := false
  bad : Bool := false
  unproven : Bool := false
  data : Bytes := []
  cfg : SlotCfg
  deriving DecidableEq, Repr

/-- A slot's run-time state (R163-R176): the previous raw and unwrapped sensor time, the window in progress, the minima (ts, a)
of windows that are over and not yet fitted, the last 16 minima newest first, windows in a row beyond JumpLimit, the frame or
SPI read in progress, the exposure last read from a frame, staleness with the instant of the last item, that a cleared Enable
waits for the flip boundary (R159), and the unit generation. -/
structure SlotRt where
  prev : Option (Nat × Int) := none
  count : Nat := 0
  best : Option (Int × Int) := none
  ended : List (Int × Int) := []
  minima : List (Int × Int) := []
  badWin : Nat := 0
  frame : Option CsiFrame := none
  busyAt : Option Nat := none
  overrun : Bool := false
  exposure : Option Nat := none
  lastStamp : Option Nat := none
  lastAt : Nat := 0
  stale : Bool := false
  stopping : Bool := false
  gen : Nat := 0
  deriving DecidableEq, Repr

/-- What the device keeps beside its units: `watch` counts, for each subscription, the changes of its object since its last
NOTIFY, with the stamp of the last (04_dictionary R105); `copies` the copies of each item that hold its generation (06_pours
R153); `csiOther` the CSI-2 long packets of each port that no slot takes (07_sensor_ingest Table 4); `canErrors` each CAN
controller's receive error counter (R179). -/
structure Books where
  watch : Assoc (Nat × Nat) := []
  copies : Assoc Nat := []
  csiOther : Assoc Nat := []
  canErrors : Assoc Nat := []
  deriving DecidableEq, Repr

/-- An encoder channel (R177, R178); `last` is the extended stamp of its last edge. -/
structure EncCh where
  count : Nat := 0
  last : Option Nat := none
  edges : Nat := 0
  illegal : Bool := false
  z : Option Nat := none
  deriving DecidableEq, Repr

/-- A pose record of the track (08_fusion_grid Table 3): its stamp and its 48 bytes. -/
structure PoseRec where
  stamp : Nat
  raw : Bytes
  deriving DecidableEq, Repr

/-- A point stored for a grid's window (R190, R191): its stamp, its slot's mounting transform at that stamp, and its
24-byte record. -/
structure Point where
  stamp : Nat
  mount : List Int
  raw : Bytes
  deriving DecidableEq, Repr

/-- A grid's settings as its window closes under them. -/
structure GridCfg where
  frame : Nat
  width : Nat
  height : Nat
  cell : Nat
  bands : List Int
  decay : Nat
  queue : Nat
  deriving DecidableEq, Repr

/-- A closed window that waits for its points, its poses and its build (R195): close and window start, its settings, flags
(`fresh`: its cells start empty) and points, whether PointWait has ended, and the pose track that resolved its poses (R188, R189). -/
structure GridBuild where
  close : Nat
  start : Nat
  cfg : GridCfg
  extended : Bool
  cleared : Bool
  fresh : Bool := false
  lateFlag : Bool
  overflow : Nat
  late : Nat
  points : List Point
  pointsDone : Bool := false
  track : Option (List PoseRec) := none
  deriving DecidableEq, Repr

/-- A grid beside its objects: the window open, its points, the closes built or building, what the next header says, whether
the next close starts from empty cells (R197), the occupancy by cell (row-major over 1,024 columns) with the origin it stands
on, the builds in progress, and the input masks before each flip of them, with its tick, newest first (R197). -/
structure GridRt where
  start : Option Nat := none
  points : List Point := []
  closes : Nat := 0
  extended : Bool := false
  cleared : Bool := false
  fresh : Bool := false
  lateFlag : Bool := false
  late : Nat := 0
  overflow : Nat := 0
  occ : Assoc Nat := []
  ox : Int := 0
  oy : Int := 0
  builds : List GridBuild := []
  masks : List (Nat × Nat) := []
  deriving DecidableEq, Repr

/-- The FUS island beside its objects: the last tick, tick records due, their sequence, each encoder input's last counts
with their tick, the inputs in HELD or STALE, the pose track newest first, the mounting transforms before each flip of a
slot's with its tick, newest first, the grids, and whether the track's staleness and emptiness have been noted. -/
structure Fus where
  lastTick : Option Nat := none
  due : List Nat := []
  recSeq : Nat := 0
  prev : Assoc (Nat × List Int) := []
  held : List Nat := []
  track : List PoseRec := []
  mountOld : Assoc (List (Nat × List Int)) := []
  grids : Assoc GridRt := []
  emptyNoted : Bool := false
  deriving DecidableEq, Repr

/-- A running inference (09_tensor_engines R206-R211): model, the package it runs, sequence, trigger, its inputs, the flags of
Table 4 known at dispatch, dispatch stamp, first engine, span, and whether it is a canary, whose `seq` is the instant of its
request. -/
structure Infer where
  model : Nat
  pkg : Bytes := []
  seq : Nat
  trig : Item
  inputs : List (Option Item)
  flags : Nat
  at_ : Nat
  engine : Nat
  span : Nat
  canary : Bool
  deriving DecidableEq, Repr

/-- A model beside its objects: its package as resident with the EngineMask in force since its load (R204), the partition whose
Load is in progress, undispatched triggers oldest first, the next sequence, the last 16 run times in µs, dies to which its
weights are being copied, an unload in progress, a persisted Enable that waits for AutoLoad (R203); for the cupper (10_cupper_fallback R222, R223) that a canary is to be requested, the request stamp of a canary, whether it has been dispatched,
its last outcome since residency (0 none, 1 passed, 2 failed) with its stamp, records since the last request; the scan's
next block, the start of its pass, a failed block, an overdue pass; and events noted. -/
structure ModelRt where
  pkg : Bytes := []
  mask : Nat := 0
  loader : Nat := 0
  ready : List Item := []
  seq : Nat := 0
  times : List Nat := []
  copying : List Nat := []
  unloading : Bool := false
  enableWaits : Bool := false
  canaryDue : Bool := false
  canary : Option Nat := none
  canaryRun : Bool := false
  canaryLast : Nat := 0
  canaryAt : Nat := 0
  records : Nat := 0
  scanNext : Nat := 0
  scanStart : Nat := 0
  scanBad : Bool := false
  scanLate : Bool := false
  noEngine : Bool := false
  deriving DecidableEq, Repr

/-- A trigger whose inference was abandoned and is to be dispatched again, with its model and sequence (R213). -/
structure Again where
  model : Nat
  seq : Nat
  trig : Item
  deriving DecidableEq, Repr

/-- The tensor side: models, running inferences, abandoned ones to be dispatched again, loads in order of writing, items kept
for association with their sources (R206), newest arrival first, and engine runs within the last second (engine, start,
end). -/
structure Ten where
  models : Assoc ModelRt := []
  running : List Infer := []
  again : List Again := []
  loads : List Nat := []
  recent : List (Nat × Item) := []
  runs : List (Nat × Nat × Nat) := []
  deriving DecidableEq, Repr

/-- An output record at the cupper (10_cupper_fallback R221): subject and completion stamps, the flags of its head, and
its output tensors. -/
structure CupRec where
  model : Nat
  subject : Nat
  completion : Nat
  flags : Nat
  outs : List Bytes
  deriving DecidableEq, Repr

/-- A verdict (R221, Table 3): subject stamp, permit byte, distance, and the failed checks, bit n - 1 for check n. -/
structure Verdict where
  subject : Nat
  permit : Nat
  dist : Nat
  fails : Nat
  deriving DecidableEq, Repr

/-- What the fallback path found for a channel in a cycle (R217): cycle end, intruded, nearest. -/
structure FbkRes where
  cycle : Nat
  intruded : Bool
  nearest : Nat
  deriving DecidableEq, Repr

/-- A safety channel beside its objects: the governing verdict, subject and distance of the last verdict that passed check 2
(none: the next passes as the first), consecutive decisions other than stop and consecutive permit-accel decisions, the
last decision (0 stop, 1 permit-accel, 2 permit-fallback), and the results of past cycles newest first. -/
structure Chan where
  gov : Option Verdict := none
  prev : Option (Nat × Nat) := none
  clear : Nat := 0
  accel : Nat := 0
  last : Nat := 0
  past : List FbkRes := []
  deriving DecidableEq, Repr

/-- The safety function beside its objects: records the cupper holds, the channels, the last cycle evaluated, the newest good
item per slot, the newest grid delivered for the cross-check (08_fusion_grid R196), an injection miss, an injection in progress, feedback levels, the SAFE output in a test pulse, and the extended
instants of the last edges of outputs and feedbacks (0 SAFE_A, 1 SAFE_B, 2 SAFE_FB_A, 3 SAFE_FB_B). -/
structure Safe where
  recs : List CupRec := []
  chans : Assoc Chan := []
  cycle : Option Nat := none
  good : Assoc Nat := []
  grids : Assoc Item := []
  miss : Bool := false
  injecting : Bool := false
  fbA : Bool := false
  fbB : Bool := false
  pulse : Option Nat := none
  edges : Assoc Nat := []
  deriving DecidableEq, Repr

/-- A system of a structure (11_solver R235-R241): matrix, right-hand sides, solution and factor in their formats, row-major;
the row order of LU; that it must be factored; the factor's regularised pivots with the first column, its saturation and
singularity; that it has been solved, and that its last solve saturated; and that the request at hand clamped an entry. -/
structure SysRt where
  a : Assoc Int := []
  b : Assoc Int := []
  x : Assoc Int := []
  fac : List Int := []
  perm : List Nat := []
  factored : Bool := false
  reg : Nat := 0
  first : Nat := 0
  facSat : Bool := false
  sing : Bool := false
  solved : Bool := false
  solSat : Bool := false
  clamped : Bool := false
  deriving DecidableEq, Repr

/-- A structure's descriptor as loaded and its systems; one as loaded is not listed. -/
structure StructRt where
  desc : Bytes := []
  systems : Assoc SysRt := []
  deriving DecidableEq, Repr

/-- A batch in progress: structure, request item and payload, the values of the structure it runs under. -/
structure Batch where
  s : Nat
  req : Bytes
  owner : Option Nat
  floor : Int
  lambda : Int
  refine : Nat
  poseSys : Nat
  poseRow : Nat
  result : Nat
  at_ : Nat
  deriving DecidableEq, Repr

/-- The solver: structures, the batch in progress, systems finished of an abandoned batch, and batches within the last
second (start, end). -/
structure Sol where
  structs : Assoc StructRt := []
  batch : Option Batch := none
  runs : List (Nat × Nat) := []
  deriving DecidableEq, Repr

/-- One path to a partner (16_network_paths R323-R325): sequences counted on it with the instants of their arrival, newest first,
the length of the last unbroken run of arrivals and of missing sequences, and the last sequence judged missing. -/
structure PathRt where
  got : List (Nat × Nat) := []
  run : Nat := 0
  missRun : Nat := 0
  missed : Option Nat := none
  deriving DecidableEq, Repr

/-- A heartbeat partner beside its objects: the next sequence to send, its paths, the instant of its last heartbeat or of
its enabling, class frames received from it (by 2 × class + path) and those it reports. -/
structure NetPartner where
  txSeq : Nat := 0
  a : PathRt := {}
  b : PathRt := {}
  lastAt : Nat := 0
  rx : Assoc Nat := []
  told : Assoc Nat := []
  deriving DecidableEq, Repr

/-- A swap being verified (R331): its instant, the path left, the partner's counter for the new path at the swap, and class
frames sent since. -/
structure Swap where
  at_ : Nat
  left : Nat
  base : Nat
  sent : Nat
  deriving DecidableEq, Repr

/-- A traffic class beside its objects: the instant of its entry to SUSPECT, whether its consumers hold their last value
(R330), the swap being verified, and the last swap instant passed. -/
structure ClassRt where
  suspectAt : Nat := 0
  hold : Bool := false
  swap : Option Swap := none
  swapIdx : Nat := 0
  deriving DecidableEq, Repr

/-- A source of frames with a PRP trailer (R328): its address, the sequences seen with the instants of their coming, its last activity. -/
structure PrpSource where
  mac : Nat
  seen : List (Nat × Nat)
  last : Nat
  deriving DecidableEq, Repr

/-- The network paths beside their objects: partners, classes, the PRP sequence, its sources, and the last heartbeat
instant passed. -/
structure Net where
  partners : Assoc NetPartner := []
  classes : Assoc ClassRt := []
  prpSeq : Nat := 0
  sources : List PrpSource := []
  hbIdx : Nat := 0
  deriving DecidableEq, Repr

/-- A rate domain beside its objects (12_audio_ports R251, R252): the stamp of its last block since it began to run, the
time between its last two blocks where there were two, and the samples it has had, which number them. -/
structure DomRt where
  last : Option Nat := none
  span : Option Nat := none
  count : Nat := 0
  deriving DecidableEq, Repr

/-- Samples buffered from an AES67 packet (R256): media index of the first, how many per channel, and BAD. What the port's
converter makes of them comes with the block of its domain that takes them. -/
structure RtpBuf where
  first : Int
  count : Nat
  bad : Bool
  deriving DecidableEq, Repr

/-- An audio port beside its objects: the last block's stamp and the next block's sequence; what the block in progress is
flagged with; a serial port waiting to relock; the start that waits; an AES67 stream's sender, its next sequence received,
the next sent, the OffsetGeneration it is aligned with, and its buffer; whether samples since its domain's last block are
missing or BAD, and the last good sample of each channel (R257); which 32 of its 192 frames a biphase transmitter sends next
(R254), in units of 32. -/
structure PortRt where
  last : Option Nat := none
  seq : Nat := 0
  slip : Bool := false
  realigned : Bool := false
  missing : Bool := false
  bad : Bool := false
  slipped : Bool := false
  startAt : Option Nat := none
  ssrc : Option Nat := none
  rxSeq : Option Nat := none
  txSeq : Nat := 0
  offsetGen : Nat := 0
  buf : List RtpBuf := []
  gone : Bool := false
  spoilt : Bool := false
  good : Assoc Int := []
  bip : Nat := 0
  deriving DecidableEq, Repr

/-- Audio ports and rate domains beside their objects; `fam` is the rate family a synthesiser runs at (0 off, 44, 48). -/
structure Audio where
  doms : Assoc DomRt := []
  ports : Assoc PortRt := []
  fam : Assoc Nat := []
  deriving DecidableEq, Repr

/-- The RTP header of a packet (12_audio_ports R255): version, payload type, sequence, timestamp and source. -/
structure RtpHead where
  version : Nat := 2
  payloadType : Nat
  seq : Nat
  stamp : Nat
  ssrc : Nat
  deriving DecidableEq, Repr

/-- A host audio block taken up by a strip (13_mix_engine R266): the stamp its next sample waits for, and the samples left, in
I32. -/
structure HostBlk where
  start : Option Nat
  left : List Int
  deriving DecidableEq, Repr

/-- A voice generator beside its objects (R269): the stamp its clip starts at or waits for and the number of that sample, the
length, address and sample width it plays, the number of the last sample of the fade after Stop, and whether it has ended. -/
structure Voice where
  startAt : Option Nat := none
  first : Nat := 0
  len : Nat := 0
  addr : Nat := 0
  wide : Bool := false
  fade : Option Nat := none
  done : Bool := false
  deriving DecidableEq, Repr

/-- A tone's cadence (R268): on or off, and the stamp that phase began at; its last waves, newest first, each with the number
of its first sample and the phase of sample 0, in 2^-32 turns. -/
structure Tone where
  on : Bool
  at_ : Nat
  waves : List (Nat × Nat) := []
  deriving DecidableEq, Repr

/-- The values in force of a mix object, or of a group of them that change as one, from sample `first` of its domain on (06_pours R149): those it
leaves, each set with its weight, and those it takes, over `len` samples. -/
structure Env where
  key : Nat
  dom : Nat
  first : Nat
  len : Nat
  old : List (Int × Assoc Int)
  new : Assoc Int
  deriving DecidableEq, Repr

/-- The signal of a strip, bus, beamformer or route (13_mix_engine R262, R263), newest sample first, in units of 2^-149: after
the filter point, before the delay, after it, and at the end; the largest sample of the last block for PeakLevel; and a
limiter at work. -/
structure Sig where
  filtered : List Int := []
  line : List Int := []
  delayed : List Int := []
  out : List Int := []
  peak : Nat := 0
  hot : Bool := false
  deriving DecidableEq, Repr

/-- The samples a channel of an audio port gives its domain for a block, in I32. -/
structure Heard where
  port : Nat
  ch : Nat
  samples : List Int
  deriving DecidableEq, Repr

/-- A block of a domain as it comes (12_audio_ports R251): the stamp of its first sample, and what its ports give it. -/
structure DomIn where
  stamp : Nat
  ins : List Heard := []
  deriving DecidableEq, Repr

/-- A ramp or crossfade in progress (06_pours R149): the object, or the filter's first object; its first and last sample; the
pour it belongs to (0 none). -/
structure Ramp where
  key : Nat
  start : Nat
  stop : Nat
  pour : Nat
  deriving DecidableEq, Repr

/-- A filter change that waits for the crossfade of its filter to end (R150): the filter, its new values, domain, length,
the pour (0 none) or the control binding it comes from. -/
structure FilterWait where
  key : Nat
  vals : List (Nat × Int)
  dom : Nat
  len : Nat
  pour : Nat
  bind : Option Nat
  deriving DecidableEq, Repr

/-- The mix engine beside its objects: host blocks by strip and queue (4,096 × strip + queue), strips in an underrun, voices,
tones, the subject stamp last applied by each binding, ramps, filter changes that wait, for each target the last sample a
pour flipped it at and the last one a binding set it at, with the binding, values in force, and signals by index. -/
structure MixRt where
  play : Assoc (List HostBlk) := []
  under : List Nat := []
  voices : Assoc Voice := []
  tones : Assoc Tone := []
  applied : Assoc Nat := []
  ramps : List Ramp := []
  filters : List FilterWait := []
  poured : Assoc Nat := []
  bound : Assoc (Nat × Nat) := []
  envs : List Env := []
  sigs : Assoc Sig := []
  deriving DecidableEq, Repr

/-- The analog island beside its objects (14_analog_beacon): by channel (0-3 DAC, 4-11 PWM) the instant settling began and
failing windows in a row; by rail input windows in a row out of and within its range, and those held out; the last window
passed; each DAC's input rate, its start that waits for its next input sample, and its recent codes, newest first, with the
instants of their samples; each beacon receiver's last clean instant to count from, and its last resynchronisation. -/
structure Ana where
  settleAt : Assoc Nat := []
  fails : Assoc Nat := []
  railOut : Assoc Nat := []
  railIn : Assoc Nat := []
  railBad : List Nat := []
  winIdx : Nat := 0
  rates : Assoc Nat := []
  startAt : Assoc Nat := []
  codes : Assoc (List (Nat × Int)) := []
  cleanFrom : Assoc Nat := []
  resyncAt : Assoc Nat := []
  deriving DecidableEq, Repr

/-- A Virek packet as it arrives, but for its opcode and data (17_virek Table 1); its header CRC, version and opcode are
good. -/
structure VirekHdr where
  port : Nat
  srcIp : Nat
  srcPort : Nat
  conn : Nat := 0
  psn : Nat := 0
  ack : Nat := 0
  credit : Nat := 0
  key : Nat := 0
  offset : Nat := 0
  length : Nat := 0
  fence : Nat := 0
  value : Nat := 0
  status : Nat := 0
  last : Bool := false
  ackNow : Bool := false
  tag : Nat := 0
  deriving DecidableEq, Repr

/-- A READ_DATA packet not yet acknowledged (17_virek R347). `bad` says that its unit is poisoned. -/
structure VirekData where
  psn : Nat
  addr : Nat
  len : Nat
  off : Nat
  key : Nat
  tag : Nat
  last : Bool
  status : Nat := 0
  bad : Bool := false
  deriving DecidableEq, Repr

/-- What is still to be sent of a READ: `bad` lists the numbers of its packets that meet poisoned units. -/
structure VirekRead where
  addr : Nat
  left : Nat
  off : Nat
  key : Nat
  tag : Nat
  idx : Nat := 0
  bad : List Nat := []
  deriving DecidableEq, Repr

/-- Accepted WRITE data not yet in DRAM, with the fence to signal after them. -/
structure VirekWr where
  addr : Nat
  data : Bytes
  fence : Option (Nat × Nat) := none
  deriving DecidableEq, Repr

/-- A Virek connection (17_virek R338-R348): state 1 OPEN, 2 STALLED, 3 PEER_QUIESCED; partition, peer, limits and PSNs;
the value a NAK SEQ was sent for; accepted packets not acknowledged and since when; writes, reads and data in flight;
retransmission; the stamps its timers run from. -/
structure Conn where
  state : Nat := 1
  id : Nat
  part : Nat
  ip : Nat
  port : Nat
  granted : Nat
  credit : Nat
  txPsn : Nat := 0
  txAck : Nat := 0
  rxExp : Nat := 0
  nakFor : Option Nat := none
  ackCount : Nat := 0
  ackSince : Option Nat := none
  pend : List VirekWr := []
  jobs : List VirekRead := []
  sent : List VirekData := []
  rto : Nat
  rtoAt : Nat
  retries : Nat := 0
  lastRx : Nat
  opened : Nat
  retrans : Nat := 0
  bytesRead : Nat := 0
  bytesWritten : Nat := 0
  stallSince : Option Nat := none
  pingAt : Nat := 0
  until_ : Nat := 0
  deriving DecidableEq, Repr

/-- Virek beside its objects: connections and epochs by slot, and window keys revoked, each with the extended instant. -/
structure Virek where
  conns : Assoc Conn := []
  epochs : Assoc Nat := []
  grace : List (Nat × Nat) := []
  deriving DecidableEq, Repr

/-- An entry of a pour (06_pours Table 2): the object, its flip unit, STEP, and the value the object is to hold. -/
structure PourEntry where
  key : Nat
  uid : Nat
  step : Bool := false
  value : Int
  deriving DecidableEq, Repr

/-- A flip unit of a pour that has not flipped (06_pours R146): the unit's key in the model, its island and its number in
the report; `feeds` are the sources whose models flip together (09_tensor_engines R212). -/
structure PourPart where
  uid : Nat
  island : Nat
  unit : Nat
  feeds : List Nat := []
  deriving DecidableEq, Repr

/-- An entry of a pour report (06_pours Table 6), with the unit's key in the model. -/
structure PourRep where
  uid : Nat
  island : Nat
  unit : Nat
  flags : Nat := 0
  flip : Nat
  rampEnd : Nat
  deriving DecidableEq, Repr

/-- When an island was last closed and when it last returned, on the extended timeline (19_power_dies R393, R396). -/
structure IslTimes where
  closed : Nat
  back : Option Nat := none
  deriving DecidableEq, Repr

/-- A pour (06_pours section 2): state and cause as PourState and PourCause give them, its generation, the stamps of
acceptance, of its shadows' loading and of APPLIED, its entries, the units still to flip, the report in order of flips,
ramp length, backlog timeout in ms, the fence to signal, and whether its commits have been counted (R415). `shut` holds the
islands that were quiesced at its target and have returned, with the stamps of their returns (R147). -/
structure Pour where
  handle : Nat
  part : Nat
  target : Nat
  state : Nat
  cause : Nat := 0
  gen : Option Nat := none
  accepted : Nat
  loaded : Option Nat := none
  applied : Nat := 0
  entries : List PourEntry
  parts : List PourPart
  report : List PourRep := []
  ramp : Nat
  timeout : Nat
  signal : Option (Nat × Nat) := none
  counted : Bool := false
  shut : Assoc Nat := []
  deriving DecidableEq, Repr

/-- A commit of what a pour flipped at one unit (06_pours R415). -/
structure PourCommit where
  handle : Nat
  uid : Nat
  vals : List (Nat × Int)
  deriving DecidableEq, Repr

/-- The pours: those held in order of acceptance, the 256 that ended last with the newest first, the next handle, and
commits in progress. -/
structure Pours where
  live : List Pour := []
  ended : List Pour := []
  next : Nat := 1
  commits : List PourCommit := []
  deriving DecidableEq, Repr

/-- Power and heat beside their objects (19_power_dies): an exit in progress; the extended instant from which the present
state's residency counts, and the ns of each state; windows in a row under the cap and the stamp of the last 0x8051; the
I/O die hot, tripped; dies whose temperature has been measured; the islands a live activation has still to replace; the extended
instants up to which TEN and DCK, and the others that A4 stops, were not idle. -/
structure PowRt where
  exiting : Bool := false
  since : Nat := 0
  resid : Assoc Nat := []
  under : Nat := 0
  capAt : Option Nat := none
  hot : Bool := false
  tripped : Bool := false
  sampled : List Nat := []
  live : List Nat := []
  tenAt : Nat := 0
  restAt : Nat := 0
  deriving DecidableEq, Repr

end Sys2Proof.Machine
end

