-- ==== Sys2Proof/Syntax.lean ====
section
/-! DEFINITION. The commands: one constructor for each row of spec/opcode_table.json, in the table's order, with what
the command carries. -/
namespace Sys2Proof

open Machine

inductive Instr where
  /-- LINK_TRANSFER_ERROR (R12): A die-to-die link transfer fails its link CRC and is replayed, so it is delivered exactly once and in order. -/
  | linkTransferError (link : Fin 8) (replays : Nat) (retrained : Bool)
  /-- STAMP_REPLICA_RELOAD (R31): Every 65,536 ticks TMG reloads each stamp replica, corrects any replica that differs and logs a timing event. -/
  | stampReplicaReload (wrong : List (Nat × Int))
  /-- ERA_WRAP (R35): The timeline integer part passes 2^48 − 1 to 0, the era increments and event 0x1006 is logged. -/
  | eraWrap
  /-- TIMELINE_NOW_READ (R36): A read of TimelineNow latches TimelineFraction and Era for the same session. -/
  | timelineNowRead (hd : Hdr)
  /-- SLEW_BOUND_WRITE (R37): A write of SlewBound takes effect at the next tick and clamps the current increment to the new bound. -/
  | slewBoundWrite (hd : Hdr) (cond : Option Nat) (v : Bytes)
  /-- MANUAL_SLEW (R38): An Integrator writes a signed amount to ManualSlew in FREE or LISTEN, and the device absorbs it at the full bound. -/
  | manualSlew (hd : Hdr) (cond : Option Nat) (v : Bytes)
  /-- SLEW_ABSORBED (R38): When a manual slew amount has been absorbed, the increment returns to its value before the slew. -/
  | slewAbsorbed
  /-- PTP_SOURCE_WRITE (R45): A write of PtpSource selects the client port or none and moves the servo to FREE or LISTEN. -/
  | ptpSourceWrite (hd : Hdr) (cond : Option Nat) (v : Bytes)
  /-- PTP_SYNC_RECEIVED (R42): A valid Sync gives a measurement θ that the servo filters and slews toward under the Follow or Guard policy. -/
  | ptpSyncReceived (port : Fin 2) (source : Nat) (domain : Nat) (logInterval : Int) (t1 : Int)
  /-- PTP_ANNOUNCE_RECEIVED (R40): An Announce runs the BMCA, and a change of grandmasterIdentity is a master change. -/
  | ptpAnnounceReceived (port : Fin 2) (domain : Nat) (m : Master)
  /-- ANNOUNCE_TIMEOUT (R40): No Announce arrives within AnnounceTimeout intervals, so the master is lost and the servo holds the last rate. -/
  | announceTimeout (port : Fin 2)
  /-- SYNC_LOSS (R40): SyncLossCount consecutive Sync intervals pass without a valid Sync, so the master is lost. -/
  | syncLoss
  /-- AUTO_REVERT (R39): Once port A has received valid Announces for AutoRevertTime, the Auto client moves back to port A. -/
  | autoRevert
  /-- GUARD_RESPONSE_ACCEPT (R44): In REFUSED, ACCEPT adds RefusedOffset to PublishedOffset, increments OffsetGeneration and enters SLEW. -/
  | guardResponseAccept (hd : Hdr) (cond : Option Nat)
  /-- GUARD_RESPONSE_SLEW (R44): In REFUSED, SLEW enters SLEW toward RefusedOffset and suspends JumpThreshold until TRACK. -/
  | guardResponseSlew (hd : Hdr) (cond : Option Nat)
  /-- GM_PORT_WRITE (R47): A write of GmPort sets the grandmaster port and is refused if it equals the client's port. -/
  | gmPortWrite (hd : Hdr) (cond : Option Nat) (v : Bytes)
  /-- GM_SYNC_TRANSMIT (R47): At each grandmaster Sync interval, the device sends a two-step Sync serving E + PublishedOffset. -/
  | gmSyncTransmit
  /-- GM_ANNOUNCE_TRANSMIT (R47): At each grandmaster Announce interval, the device announces clockClass 248 with the timeSource that follows from the servo state. -/
  | gmAnnounceTransmit
  /-- FENCE_SIGNAL (R48): SIGNAL sets a fence value to max(value, v) and completes every wait whose target it reaches. -/
  | fenceSignal (src : FenceSrc) (v : Bytes)
  /-- FENCE_ADD (R48): ADD increments a fence value, saturating at 2^64 − 1 with a logged event, and completes satisfied waits. -/
  | fenceAdd (src : FenceSrc) (v : Bytes)
  /-- FENCE_RESET (R48): RESET sets the value to 0, disables the deadline and completes every pending wait with the RESET flag. -/
  | fenceReset (src : FenceSrc)
  /-- FENCE_SET_DEADLINE (R51): A write of a fence's deadline or its enable applies to pending waits and completes them at once if the deadline is already past. -/
  | fenceSetDeadline (src : FenceSrc) (which : Fin 3) (v : Bytes)
  /-- FENCE_SELECT_WRITE (R49): A write of FenceSelect or WaitFence is checked against the partition's fence rights and held per session. -/
  | fenceSelectWrite (hd : Hdr) (cond : Option Nat) (wait : Bool) (v : Bytes)
  /-- WAIT_ARM (R52): A wait is armed on the session's fence, target and delivery, and it completes at once if already satisfied. -/
  | waitArm (src : FenceSrc) (v : Bytes)
  /-- WAIT_CANCEL (R52): WaitCancel cancels a pending wait of the writing partition, or of any partition for an Integrator, and delivers nothing. -/
  | waitCancel (hd : Hdr) (cond : Option Nat) (v : Bytes)
  /-- FENCE_DEADLINE_TICK (R53): Each timeline microsecond, completions are posted for at most 64 fences whose deadlines are reached, lowest number first, and late ones are counted. -/
  | fenceDeadlineTick
  /-- XTAL_STABLE (R57): The amplitude detector is satisfied and 2^17 consecutive in-band cycles are counted, so the oscillator is stable. -/
  | xtalStable
  /-- ROOT_LOCK (R58): The root synthesiser's lock detector holds for 256 cycles, the timeline starts at 0, the dividers are released and the selector starts in FREERUN. -/
  | rootLock
  /-- CLOCK_MONITOR_WINDOW (R63): At the end of each 4,096-cycle window, each clock is checked and a stopped or deviating clock raises fault 0x102A. -/
  | clockMonitorWindow (counts : List (Nat × Nat))
  /-- CRYSTAL_LOSS (R64): The RC monitor detects loss of the crystal, drives the safe outputs, mirrors event 0x102B and restarts from SUPPLY. -/
  | crystalLoss
  /-- REF_ENABLE_WRITE (R65): A write of a reference's Enable moves it to DISABLED or FAILED, and the selection is re-evaluated. -/
  | refEnableWrite (hd : Hdr) (cond : Option Nat) (code : Fin 6) (v : Bytes)
  /-- REF_ACTIVITY_PRESENT (R65): A FAILED reference shows activity with an offset within AcceptWindow and enters QUALIFYING. -/
  | refActivityPresent (code : Fin 6) (offset : Int)
  /-- REF_QUALIFY_TIMEOUT (R65): A reference that has held its conditions for QualifyTime becomes VALID. -/
  | refQualifyTimeout (code : Fin 6)
  /-- REF_ACTIVITY_LOST (R65): A reference loses activity, or its offset stays outside AcceptWindow for 1 s, and it enters FAILED, which may change the selection. -/
  | refActivityLost (code : Fin 6)
  /-- PRIORITY_ENTRY_WRITE (R66): A write to the reference priority table takes effect at once and re-evaluates the selection. -/
  | priorityEntryWrite (hd : Hdr) (cond : Option Nat) (entry : Fin 6) (v : Bytes)
  /-- WAIT_TO_RESTORE_EXPIRY (R67): In revertive mode, a higher-priority reference VALID for WaitToRestore is selected. -/
  | waitToRestoreExpiry (code : Fin 6)
  /-- DPLL_LOCK (R69): The phase error stays within RefLockWindow for 4 s and 4 comparisons, so the selector enters LOCKED. -/
  | dpllLock
  /-- REF_PHASE_COMPARISON (R72): At each comparison, the phase detector updates PhaseError, PhaseStamp and PhaseSeq together. -/
  | refPhaseComparison (code : Fin 6) (error : Int)
  /-- LOOP_MODE_OPEN (R72): LoopMode written 1 opens the hardware loop, so the root follows FreqOffsetWord in SOFTWARE. -/
  | loopModeOpen (hd : Hdr) (cond : Option Nat)
  /-- LOOP_MODE_CLOSE (R73): LoopMode written 0 resumes the DPLL from the current correction without a step, into ACQUIRE, HOLDOVER or FREERUN. -/
  | loopModeClose (hd : Hdr) (cond : Option Nat)
  /-- FREQ_OFFSET_WORD_WRITE (R72): FreqOffsetWord is clamped and applied at FreqSlopeLimit while the loop is open, and it is refused otherwise. -/
  | freqOffsetWordWrite (hd : Hdr) (cond : Option Nat) (v : Bytes)
  /-- PHASE_ERROR_READ (R72): A read of PhaseError latches PhaseStamp and PhaseSeq for the same session. -/
  | phaseErrorRead (hd : Hdr)
  /-- PPS_IN_EDGE (R74): An edge on PPS_IN is accepted and updates L and the predicted anchor, or it is rejected and logged as 0x1025. -/
  | ppsInEdge (rising : Bool)
  /-- PULSE_CONFIG_WRITE (R76): A pulse-output configuration write is checked against the Offset, Rate and Width limits. -/
  | pulseConfigWrite (hd : Hdr) (cond : Option Nat) (out : Fin 13) (field : Fin 6) (v : Bytes)
  /-- PULSE_START (R77): Start schedules a pulse train from the later of StartStamp and the write, and it is deferred while SYN-PULSE settles. -/
  | pulseStart (hd : Hdr) (cond : Option Nat) (out : Fin 13)
  /-- PULSE_STOP (R77): Stop ends the train after the pulse in progress, or cancels a held Start. -/
  | pulseStop (hd : Hdr) (cond : Option Nat) (out : Fin 13)
  /-- PULSE_EDGE_DUE (R75): A scheduled pulse edge leaves on the first TMG tick at or after its stamp, and Count edges complete the train. -/
  | pulseEdgeDue (out : Fin 13)
  /-- PULSE_WIDTH_END (R75): After Width ns rounded up to ticks, the pulse returns to its inactive level. -/
  | pulseWidthEnd (out : Fin 13)
  /-- SYNTH_LOCK (R80): A synthesiser declares lock, and held commands start at the first aligned boundary in acceptance order. -/
  | synthLock (syn : Fin 6)
  /-- DEFER_TIMEOUT (R81): A held command whose synthesiser does not lock within DeferTimeout completes as DEFERRED_TIMEOUT and emits nothing. -/
  | deferTimeout (held : Nat)
  /-- SYNTH_LOCK_LOST (R83): SYN-PULSE loses lock, edges due before relock are suppressed and counted, and event 0x1029 is logged. -/
  | synthLockLost (syn : Fin 6)
  /-- SERDES_RECAL_DUE (R332): A SerDes recalibration begins between frames, or waits while the other port's SerDes is calibrating. -/
  | serdesRecalDue (port : Fin 2)
  /-- HELLO (R96): A HELLO opens a session, derives Ks from both nonces and is answered under Ks with sequence 1. -/
  | hello (hd : Hdr) (part : Nat) (nh : Bytes)
  /-- HELLO_CLOSE (R97): An authenticated HELLO with the close flag ends the session. -/
  | helloClose (hd : Hdr) (part : Nat) (nh : Bytes)
  /-- SESSION_CONFIRM_TIMEOUT (R96): A session not confirmed by a correctly authenticated request within 5 s ends. -/
  | sessionConfirmTimeout (sid : Nat)
  /-- SESSION_IDLE_TIMEOUT (R97): SessionIdleTimeout expires without an accepted request, and the session ends. -/
  | sessionIdleTimeout (sid : Nat)
  /-- READ (R90): READ returns an object's value at one point in the service order, or BLOCK_SIZE if it does not fit the frame. -/
  | read (hd : Hdr) (idx : Nat) (sub : Nat)
  /-- WRITE (R90): WRITE to an object without a row of its own is checked in order, executed in turn and, if conditional, only on a version match. -/
  | write (hd : Hdr) (idx : Nat) (sub : Nat) (cond : Option Nat) (v : Bytes)
  /-- RWP_COMMIT_DONE (R87): An RWP value, STORE or safe-value record is committed to embedded flash and answered OK. -/
  | rwpCommitDone
  /-- READ_BLOCK (R104): READ_BLOCK returns up to 65,536 B from one state of the object in segments with MORE set on all but the last. -/
  | readBlock (hd : Hdr) (idx sub : Nat) (offset length : Nat)
  /-- WRITE_BLOCK (R103): A WRITE_BLOCK segment is stored in order, and the last segment's count and CRC commit the whole block at once. -/
  | writeBlock (hd : Hdr) (payload : Bytes)
  /-- BLOCK_GAP_TIMEOUT (R103): No segment arrives for BlockGapTimeout, so the transfer ends as BLOCK_TIMEOUT and nothing is written. -/
  | blockGapTimeout (sid tag : Nat)
  /-- SUBSCRIBE (R105): SUBSCRIBE in mode 1 or 2 creates a subscription within the session and device limits and returns its handle. -/
  | subscribe (hd : Hdr) (idx sub : Nat) (mode interval : Nat)
  /-- SUBSCRIBE_CANCEL (R105): SUBSCRIBE in mode 0 cancels the named subscription. -/
  | subscribeCancel (hd : Hdr) (idx sub : Nat) (handle : Nat)
  /-- NOTIFY (R105): At a change or an interval, the device sends a NOTIFY carrying the latest value and the count of coalesced changes. -/
  | notify (sid handle : Nat) (changes : Nat) (changedAt : Nat)
  /-- ABORT (R106): ABORT ends a named outstanding request of the session with ABORTED, and a block write under it writes nothing. -/
  | abort (hd : Hdr) (tag : Nat)
  /-- RESULT_CACHE_EXPIRY (R101): A cached answer older than ResultCacheTime is dropped, and its tag becomes free. -/
  | resultCacheExpiry (sid : Nat)
  /-- RESTORE_DEFAULTS (R416): A write of 0xD5F1 records that writable persisted objects take their defaults at the next start. -/
  | restoreDefaults (hd : Hdr) (cond : Option Nat) (v : Bytes)
  /-- KEY_WRITE (R92): A write of a partition Key provisions it and ends the partition's sessions. -/
  | keyWrite (hd : Hdr) (payload : Bytes)
  /-- MAILBOX_DOORBELL (R303): The host advances REQ_PROD, and the device reads the request frames in index order and advances REQ_CONS. -/
  | mailboxDoorbell (fn : Fin 4) (off : Nat) (v : Nat)
  /-- ANS_CONS_WRITE (R303): The host advances ANS_CONS, which frees answer slots for held answers. -/
  | ansConsWrite (fn : Fin 4) (v : Nat)
  /-- CAN_BUS_OFF (R107): A CAN controller goes bus-off, ends its sessions and logs event 0x2008. -/
  | canBusOff (ctl : Fin 2)
  /-- CAN_RESTART (R107): A write of Restart applies the CAN settings and ends the controller's sessions. -/
  | canRestart (hd : Hdr) (cond : Option Nat) (ctl : Fin 2)
  /-- VIN_ABOVE_3V (R115): VIN exceeds 3.0 V, and the always-on domain holds SAFE_A and SAFE_B safe, with zero DAC current and PWM low. -/
  | vinAbove3v (mv : Nat)
  /-- VIN_VALID (R114): VIN stays above 8.7 V for 200 µs, and start-up leaves OFF for SUPPLY. -/
  | vinValid (mv : Nat)
  /-- BROWNOUT (R114): VIN falls below 8.4 V for 5 µs, and within 10 µs the safe outputs and analog safe values are held and the device enters full reset. -/
  | brownout (mv : Nat) (slow : Bool)
  /-- VIO_OVERCURRENT (R116): A VIO output exceeds 400 mA and is current-limited. -/
  | vioOvercurrent (out : Fin 2)
  /-- VIO_LIMIT_TIMEOUT (R116): A VIO output still in limit after 2 ms is switched off and event 0x8011 is logged. -/
  | vioLimitTimeout (out : Fin 2)
  /-- VIO_RETRY (R116): Every 100 ms, the device retries a VIO output that was switched off. -/
  | vioRetry (out : Fin 2)
  /-- SYS_RESET (R117): A low level of at least 10 µs on SYS_RESET_N gives a full reset that repeats start-up from SUPPLY. -/
  | sysReset
  /-- DEVICE_RESTART (R117): A write of 0xB007 to DeviceRestart gives a full reset. -/
  | deviceRestart (hd : Hdr) (cond : Option Nat) (v : Bytes)
  /-- SAFE_VALUES_APPLIED (R119): In SUPPLY, the safe-value record is read and applied, or it is found invalid and logged as 0x9010. -/
  | safeValuesApplied (straps : Nat) (crcOk : Bool)
  /-- BUNDLE_VERIFIED (R124): The boot ROM applies the boot patch and verifies a bank's bundle, or it leaves the bank for the other one or for MAINTENANCE. -/
  | bundleVerified
  /-- MANIFEST_CHECK (R126): In MANIFEST, the contract majors of pairs 1–7 are checked, and a mismatch falls back to the other bank. -/
  | manifestCheck
  /-- BOOT_WATCHDOG_EXPIRY (R120): A start-up phase exceeds its 1 s watchdog, a failed attempt is counted against the bank and a full reset follows. -/
  | bootWatchdogExpiry
  /-- DIE_LINK_TRAINED (R387): A compute die's link to the I/O die trains on all 32 lanes. -/
  | dieLinkTrained (die : Fin 4)
  /-- DIE_DESCRIPTOR_RECEIVED (R388): A compute die's descriptor arrives and is checked, and the pair-8 generation is checked against TEN. -/
  | dieDescriptorReceived (die : Fin 4) (desc : Bytes)
  /-- DIE_START_TEST_DONE (R388): A compute die completes its deck march and engine tests, and failing engines or the die are dropped. -/
  | dieStartTestDone (die : Fin 4) (deckOk : Bool) (failed : Nat)
  /-- DIE_DISCOVERY_TIMEOUT (R388): A die misses its link-training, descriptor or start-test time limit and is dropped with its cause. -/
  | dieDiscoveryTimeout (die : Fin 4)
  /-- DRAM_CHANNEL_TRAINED (R391): A DRAM channel finishes training and its start memory test, or it is dropped, removing 4 GiB. -/
  | dramChannelTrained (ch : Fin 8) (ok : Bool)
  /-- DISCOVERY_DONE (R128): At the end of DISCOVERY the outcome is fixed as Normal, Provisional or Maintenance. -/
  | discoveryDone
  /-- INJECTION_DONE (R231): Error injection into the 14 checkers completes, and any miss holds the cupper and every channel. -/
  | injectionDone (detected : Nat)
  /-- SERVICE_READY (R137): The dictionary accepts requests, and ServiceReady, READY and the CAN announcements change together. -/
  | serviceReady
  /-- START_WINDOW_END (R136): 1,000 ms after ServiceReady the start window ends, and the per-partner limit of 4 outstanding requests is lifted. -/
  | startWindowEnd
  /-- UPDATE_OFFSET_WRITE (R131): A write of UpdateOffset claims the update for the writing Integrator partition. -/
  | updateOffsetWrite (hd : Hdr) (cond : Option Nat) (v : Bytes)
  /-- UPDATE_LENGTH_WRITE (R132): A write of UpdateLength sets the bundle length for the update. -/
  | updateLengthWrite (hd : Hdr) (cond : Option Nat) (v : Bytes)
  /-- UPDATE_CHUNK (R132): A chunk is written to the inactive bank at UpdateOffset, and the chunk at offset 0 erases the bank first. -/
  | updateChunk (hd : Hdr) (payload : Bytes)
  /-- UPDATE_VERIFY (R132): UpdateVerify applies the bank checks to the inactive bank and predicts the outcome in UpdatePredicted. -/
  | updateVerify (hd : Hdr) (cond : Option Nat)
  /-- PROVISIONAL_CONSENT (R132): A write of ProvisionalConsent allows activation of a bundle predicted Provisional. -/
  | provisionalConsent (hd : Hdr) (cond : Option Nat)
  /-- UPDATE_ACTIVATE_NEXT_START (R133): Activation mode 1 marks the new bank as trial for the next start. -/
  | updateActivateNextStart (hd : Hdr) (cond : Option Nat)
  /-- UPDATE_ACTIVATE_NOW (R133): Activation mode 2 marks the new bank as trial and gives a full reset. -/
  | updateActivateNow (hd : Hdr) (cond : Option Nat)
  /-- UPDATE_ACTIVATE_LIVE (R132): Activation mode 3 replaces the MIX and TEN images island by island under quiesce fences. -/
  | updateActivateLive (hd : Hdr) (cond : Option Nat)
  /-- UPDATE_COMMIT (R133): A write of UpdateCommit within CommitTimeout commits the trial bank. -/
  | updateCommit (hd : Hdr) (cond : Option Nat)
  /-- UPDATE_ABORT (R131): UpdateAbort ends the claim and leaves the inactive bank invalid. -/
  | updateAbort (hd : Hdr) (cond : Option Nat)
  /-- UPDATE_CLAIM_TIMEOUT (R131): The update claim ends after 60 s without a write. -/
  | updateClaimTimeout
  /-- COMMIT_TIMEOUT (R133): CommitTimeout expires without a commit, so the next start boots the previous bank. -/
  | commitTimeout
  /-- REVOKE_KEY_SLOT (R134): RevokeKeySlot permanently revokes one OTP key slot unless that would revoke the running one or leave none. -/
  | revokeKeySlot (hd : Hdr) (cond : Option Nat) (v : Bytes)
  /-- ADVANCE_FLOOR (R134): AdvanceFloor raises the OTP security-version floor within the running bundle's version. -/
  | advanceFloor (hd : Hdr) (cond : Option Nat) (v : Bytes)
  /-- POUR (R139): A pour descriptor is checked entry by entry and accepted into ARMED or WAITING_GEN with a handle and an assigned generation. -/
  | pour (hd : Hdr) (payload : Bytes)
  /-- POUR_STORE (R154): A pour with STORE writes its entries, or captured values, into the named scene and arms nothing. -/
  | pourStore (hd : Hdr) (payload : Bytes)
  /-- POUR_RECALL (R156): A pour with RECALL pours a stored scene, omitting recall-safe elements, under the recaller's rights. -/
  | pourRecall (hd : Hdr) (payload : Bytes)
  /-- POUR_SHADOW_LOADED (R143): A pour's shadow banks finish loading, and a T already past makes the flips LATE. -/
  | pourShadowLoaded (handle : Nat)
  /-- POUR_GENERATION_RESERVED (R151): A pour's assigned generation becomes free, and the pour reserves it and moves from WAITING_GEN to ARMED. -/
  | pourGenerationReserved (handle : Nat)
  /-- POUR_BACKLOG_TIMEOUT (R142): A WAITING_GEN pour reaches its backlog timeout or T and fails with POUR_BACKLOG. -/
  | pourBacklogTimeout (handle : Nat)
  /-- POUR_CANCEL (R142): PourCancel from the owner or an Integrator cancels a pour before any flip and releases its generation. -/
  | pourCancel (hd : Hdr) (cond : Option Nat) (v : Bytes)
  /-- POUR_FLIP (R146): A flip unit flips from its shadow at its first natural boundary at or after T, opening a new generation where one is held. -/
  | pourFlip (uid : Nat) (engine : Option (Fin 8))
  /-- RAMP_END (R149): A gain ramp, route or filter crossfade reaches its last sample, and the last one ending applies the pour and signals its fence. -/
  | rampEnd (key : Nat)
  /-- POUR_COMMIT_DONE (R415): A flip unit's values of persisted objects are committed to embedded flash within 20 ms of its flip. -/
  | pourCommitDone (handle uid : Nat)
  /-- SCENE_ERASE (R155): SceneErase empties a scene owned by the writer, or by any partition for an Integrator. -/
  | sceneErase (hd : Hdr) (cond : Option Nat) (scene : Fin 64)
  /-- CSI_FRAME_START (R168): A CSI-2 frame start packet is stamped, closing any frame whose FE was missing, and a new frame opens. -/
  | csiFrameStart (port : Fin 6) (vc : Fin 4)
  /-- CSI_EMBEDDED_LINE (R168): The first embedded-data line gives the exposure, and the frame's entry stamp is set before classification. -/
  | csiEmbeddedLine (port : Fin 6) (vc : Fin 4) (line : CsiPacket)
  /-- CSI_LONG_PACKET (R170): An image line packet is checked by its CRC and ECC and assembled into carry-checked units, or it is discarded. -/
  | csiLongPacket (port : Fin 6) (vc : Fin 4) (dataType : Nat) (headerOk : Bool) (line : Bytes) (found : Found)
  /-- CSI_FRAME_END (R170): A frame end packet closes the frame, which is marked BAD and TRUNCATED if it has a defect, and the frame is classified. -/
  | csiFrameEnd (port : Fin 6) (vc : Fin 4)
  /-- CSI_LANE_ERROR (R171): Uncorrectable errors on one lane in 3 consecutive frames reduce the port's lane count, or take it down, at the next FS. -/
  | csiLaneError (port : Fin 6) (lane : Fin 4)
  /-- SCANNER_DATAGRAM (R173): A range-scanner datagram is classified, stamped and decoded into point records, or it is discarded as a violation. -/
  | scannerDatagram (port : Fin 2) (srcIp dstPort : Nat) (fragmented : Bool) (payload : Bytes) (found : Found)
  /-- IMU_DRDY_EDGE (R175): A DRDY edge starts an SPI read, or it is an overrun if a read is in progress. -/
  | imuDrdyEdge (port : Fin 4) (rising : Bool)
  /-- IMU_READ_DONE (R175): An SPI read ends, its CRC is checked and the sample item is stamped and classified. -/
  | imuReadDone (port : Fin 4) (data : Bytes)
  /-- ENCODER_TRANSITION (R177): A filtered quadrature transition is counted and stamped, or an illegal one sets ILLEGAL. -/
  | encoderTransition (ch : Fin 8) (step : Option Bool)
  /-- ENCODER_Z_EDGE (R177): The first Z rising edge in a period latches the count. -/
  | encoderZEdge (ch : Fin 8)
  /-- ENCODER_PERIOD_END (R178): At each multiple of PeriodNs, the group emits one item with a 16-byte record per channel. -/
  | encoderPeriodEnd (slot : Fin 32)
  /-- CAN_SENSOR_FRAME (R179): A CAN frame that matches a slot's identifier set is acknowledged, stamped and classified. -/
  | canSensorFrame (ctl : Fin 2) (id : Nat) (extended : Bool) (data : Bytes) (found : Found)
  /-- MODEL_WINDOW_END (R164): After ModelWindow items, a minimum is taken and the sensor clock fit is refreshed. -/
  | modelWindowEnd (slot : Fin 32)
  /-- SLOT_STALE_TIMEOUT (R181): No item arrives for StaleTimeout, so the slot reads stale and 0x3002 is logged. -/
  | slotStaleTimeout (slot : Fin 32)
  /-- GRID_TICK (R182): A grid tick falls at E = k × TickPeriod. -/
  | gridTick
  /-- RESAMPLE_TICK_RECORD (R186): When every input is resolved, or ResampleWait has passed, one tick record is emitted to ResampleQueue. -/
  | resampleTickRecord
  /-- POSE_RECORD (R187): A pose record is taken from PoseQueue into the track, or it is rejected if not newer. -/
  | poseRecord
  /-- POSE_WAIT_EXPIRY (R188): No later pose record arrives within PoseWait, so the pose is extrapolated or held stale. -/
  | poseWaitExpiry
  /-- GRID_POINT_ITEM (R190): A scanner item's points are de-skewed and stored for their window, or discarded if late or beyond the store limit. -/
  | gridPointItem
  /-- POINT_WAIT_EXPIRY (R195): PointWait ends after a close, and the build starts once the poses it needs are resolved. -/
  | pointWaitExpiry (grid : Fin 4)
  /-- GRID_BUILD_DONE (R196): A grid's build finishes, its buffer and header are written and the grid item is delivered. -/
  | gridBuildDone (grid : Fin 4)
  /-- MODEL_LOAD (R203): Load starts copying a model package from QSPI or DRAM into the model pool, waiting if 4 loads already run. -/
  | modelLoad (hd : Hdr) (cond : Option Nat) (m : Fin 32)
  /-- MODEL_LOAD_DONE (R201): A package copy ends and is checked, and its state becomes RESIDENT with placement, or FAILED with LoadError. -/
  | modelLoadDone (m : Fin 32) (readOk : Bool)
  /-- DECK_COPY_DONE (R204): A model's weights finish copying into a deck, and it stops running staged there. -/
  | deckCopyDone (m : Fin 32) (die : Fin 4)
  /-- MODEL_UNLOAD (R205): Unload of a disabled model is accepted and frees its space once its inferences end. -/
  | modelUnload (hd : Hdr) (cond : Option Nat) (m : Fin 32)
  /-- MODEL_UNLOAD_DONE (R205): The running inferences end, pool and deck room are freed and PackageState reads EMPTY. -/
  | modelUnloadDone (m : Fin 32)
  /-- INFERENCE_TRIGGER (R206): A trigger item on a model's feed makes an inference ready, or drops the oldest beyond InputDepth. -/
  | inferenceTrigger (src : Nat)
  /-- INFERENCE_DISPATCH (R208): A free engine takes the ready inference with the earliest deadline, or the inference is skipped under SkipLate. -/
  | inferenceDispatch (e : Fin 8)
  /-- INFERENCE_COMPLETE (R210): An inference completes, and its output record goes to OutputQueue and, for bound models, to the cupper. -/
  | inferenceComplete (e : Fin 8) (fault : Option (List Bytes))
  /-- CANARY_COMPLETE (R222): A canary inference completes, and its output CRCs are compared with the canary record. -/
  | canaryComplete (e : Fin 8) (fault : Option (List Bytes))
  /-- CANARY_TIMEOUT (R222): A canary does not complete within CanaryTimeout and fails. -/
  | canaryTimeout (m : Fin 32)
  /-- CANARY_REQUEST (R222): The cupper requests a canary after CanaryEvery records, at load, at arming of a binding pour, or at a retry interval. -/
  | canaryRequest (m : Fin 32)
  /-- WEIGHT_SCAN_BLOCK (R223): The cupper compares one 65,536-byte weight block with the package CRC table. -/
  | weightScanBlock (m : Fin 32) (found : Found)
  /-- WEIGHT_SCAN_OVERDUE (R223): A full weight scan pass does not end within WeightScanPeriod, so check 5 fails. -/
  | weightScanOverdue (m : Fin 32)
  /-- FALLBACK_EVALUATE (R217): At c + FbkPointWait, each enabled channel's field is evaluated against the cycle's points. -/
  | fallbackEvaluate
  /-- LOCKSTEP_MISMATCH (R220): The cupper comparator or the CUP clock monitor faults, the SAFE pair goes off, channels are HELD and CUP is reset. -/
  | lockstepMismatch (kind : Fin 2)
  /-- CUP_RESET_DONE (R220): CUP returns and checkers 1 and 2 are re-exercised, so the cupper reads READY or HOLD. -/
  | cupResetDone (detect1 detect2 : Bool)
  /-- CHANNEL_ENABLE (R226): A write of a safety channel's Enable moves it to OFF or HELD. -/
  | channelEnable (hd : Hdr) (cond : Option Nat) (k : Fin 8) (v : Bytes)
  /-- CHANNEL_RESTART (R226): ChannelRestart in WAIT_RESTART releases the channel to a RUN state by its last decision. -/
  | channelRestart (hd : Hdr) (cond : Option Nat) (k : Fin 8)
  /-- POLICY_WRITE (R232): A write of a channel's Policy is accepted only while Enable is 0 and not Provisional. -/
  | policyWrite (hd : Hdr) (cond : Option Nat) (k : Fin 8) (v : Bytes)
  /-- FIELD_SET_WRITE (R219): A field set write is checked and committed to flash, and it is refused while an enabled channel uses it. -/
  | fieldSetWrite (hd : Hdr) (payload : Bytes)
  /-- SAFE_TEST_PULSE (R228): Once per TestPulsePeriod, each SAFE output pulses low for TestPulseWidth, B half a period after A. -/
  | safeTestPulse (out : Fin 2) (begin_ : Bool)
  /-- SAFE_FEEDBACK_EDGE (R228): An edge on SAFE_FB_A or SAFE_FB_B is judged against its output, and a mismatch latches a SAFE fault. -/
  | safeFeedbackEdge (fb : Fin 2) (level : Bool)
  /-- FEEDBACK_DELAY_EXPIRY (R228): A feedback has not followed its output within FeedbackDelay, so a SAFE fault is latched and mirrored. -/
  | feedbackDelayExpiry (fb : Fin 2)
  /-- SAFE_RESET (R229): SafeReset from the Safety role clears a latched SAFE fault while both feedbacks read low. -/
  | safeReset (hd : Hdr) (cond : Option Nat)
  /-- INJECT_RERUN (R231): InjectRerun, with no channel enabled, re-exercises all 14 checkers with the SAFE pair off. -/
  | injectRerun (hd : Hdr) (cond : Option Nat)
  /-- STRUCTURE_DESCRIPTOR_WRITE (R235): A structure descriptor write is checked, derives the range plan and zeroes the state, or sets LoadError. -/
  | structureDescriptorWrite (hd : Hdr) (payload : Bytes)
  /-- SOLVER_BATCH_START (R245): SOL takes the earliest readable request, checks it and applies its deltas at batch start. -/
  | solverBatchStart
  /-- SOLVER_BATCH_END (R242): A batch ends, SolutionSeq becomes even, the result record and pose record are queued and the fence is signalled. -/
  | solverBatchEnd
  /-- DOMAIN_BLOCK (R251): An audio domain completes a block of 32 samples and stamps it at its first sample. -/
  | domainBlock (dom : Fin 3) (b : DomIn)
  /-- PORT_BLOCK_STAMP (R251): A Stamped port stamps each block of 32 port samples and emits a block stamp record. -/
  | portBlockStamp (port : Fin 32) (stamp : Nat) (ratio : Int)
  /-- PORT_ENABLE (R249): A port Enable write is checked against the domain's rate and starts the port's input. -/
  | portEnable (hd : Hdr) (cond : Option Nat) (port : Fin 32) (v : Bytes)
  /-- CONVERTER_SETTLED (R249): A converter's ratio settles within 100 ms, and it stops delivering silence. -/
  | converterSettled (port : Fin 32)
  /-- OUTPUT_START (R252): OutputStart starts an audio output at the first block boundary at or after OutputStartStamp, or defers it. -/
  | outputStart (hd : Hdr) (cond : Option Nat) (port : Fin 32)
  /-- OUTPUT_STOP (R252): OutputStop stops an audio output, or cancels a held start. -/
  | outputStop (hd : Hdr) (cond : Option Nat) (port : Fin 32)
  /-- SERIAL_WS_SLIP (R258): A target serial port sees a word-select edge at the wrong bit count, and the block is marked SLIP as a violation. -/
  | serialWsSlip (port : Fin 8)
  /-- SERIAL_RELOCK (R258): After 4 good frames, a slipped serial port relocks. -/
  | serialRelock (port : Fin 8)
  /-- SERIAL_CLOCK_ABSENT (R258): No bit clock or word select for 2 frame periods, so the port reads waiting with missing samples. -/
  | serialClockAbsent (port : Fin 8)
  /-- PORT_RATE_MISMATCH (R258): A port's measured rate is outside Rate ±1 %, so PortState reads 3 and its samples are missing. -/
  | portRateMismatch (port : Fin 32) (measured : Nat)
  /-- BIPHASE_FRAME (R258): A biphase frame is received and its parity checked, or it is discarded on a biphase-mark or preamble violation. -/
  | biphaseFrame (port : Fin 4) (coded parityOk validity : Bool)
  /-- CHANNEL_STATUS_BLOCK (R254): A complete 192-frame block updates RxChannelStatus and RxUserData unless its CRCC fails. -/
  | channelStatusBlock (port : Fin 4) (status user : Bytes)
  /-- BIPHASE_UNLOCK (R258): A biphase receiver loses lock, so the port reads waiting with missing samples. -/
  | biphaseUnlock (port : Fin 4)
  /-- RTP_PACKET_RECEIVED (R256): An AES67 packet is checked and buffered for delivery at media time plus LinkOffset, or discarded if late or invalid. -/
  | rtpPacketReceived (eth : Fin 2) (stream : Fin 16) (h : RtpHead) (payload : Bytes) (found : Found)
  /-- RTP_PACKET_TRANSMIT (R256): An AES67 transmit stream sends one RTP packet per PacketTime with timestamps from media time. -/
  | rtpPacketTransmit (stream : Fin 16) (first : Nat) (found : Found)
  /-- AES67_REALIGN (R256): After a PublishedOffset change, each stream realigns at its next block, flagged REALIGNED. -/
  | aes67Realign (stream : Fin 16)
  /-- HOST_AUDIO_BLOCK (R266): A host audio block item is scheduled at its stamp, or discarded whole if late or badly formatted. -/
  | hostAudioBlock (strip : Fin 384)
  /-- TONE_CADENCE_TRANSITION (R268): A tone's OnTime or OffTime elapses, and the tone ramps on or off. -/
  | toneCadenceTransition (tone : Fin 8)
  /-- VOICE_PLAY (R269): Play starts a voice clip at the later of PlayStamp and the write, or restarts a playing one. -/
  | voicePlay (hd : Hdr) (cond : Option Nat) (voice : Fin 4)
  /-- VOICE_STOP (R269): Stop ends a clip after a DefaultRamp fade. -/
  | voiceStop (hd : Hdr) (cond : Option Nat) (voice : Fin 4)
  /-- VOICE_CLIP_END (R269): A clip reaches its end and stops, or repeats without a gap when Loop is set. -/
  | voiceClipEnd (voice : Fin 4)
  /-- CONTROL_ITEM (R270): A control binding consumes an item and applies its scaled value at the next domain sample, or discards it. -/
  | controlItem (bind : Fin 16)
  /-- BF_BANK_WRITE (R264): A beamformer coefficient bank write is checked by its CRC and refused for the active bank. -/
  | bfBankWrite (hd : Hdr) (payload : Bytes)
  /-- MIX_LANE_DROP (R275): A mix lane faults, and its strips go absent without a ramp, with counts and event 0x4044. -/
  | mixLaneDrop (lane : Fin 4)
  /-- ANALOG_START (R280): Start moves a DAC channel or PWM output from SAFE to SETTLING, deferred for a DAC while SYN-DAC settles. -/
  | analogStart (hd : Hdr) (cond : Option Nat) (ch : Fin 12)
  /-- ANALOG_STOP (R280): Stop returns an analog channel to SAFE at its safe value. -/
  | analogStop (hd : Hdr) (cond : Option Nat) (ch : Fin 12)
  /-- SETTLE_TIME_EXPIRY (R280): SettleTime elapses, and the channel enters RUN. -/
  | settleTimeExpiry (ch : Fin 12)
  /-- READBACK_WINDOW_END (R285): At the end of each read-back window, the monitor means are compared, and FaultCount failures declare a read-back fault. -/
  | readbackWindowEnd (means devs : List Nat) (rails : List Bool)
  /-- FAULT_CLEAR (R285): FaultClear returns a FAULT analog channel to SAFE. -/
  | faultClear (hd : Hdr) (cond : Option Nat) (ch : Fin 12)
  /-- SAFE_VALUE_WRITE (R281): A SafeValue write rewrites and commits the whole safe-value record, and it applies to channels not in SETTLING or RUN. -/
  | safeValueWrite (hd : Hdr) (cond : Option Nat) (ch : Fin 12) (v : Bytes)
  /-- BEACON_FRAME (R289): A clean 32-bit beacon frame is delivered as an item, marked BAD if its CRC-8 fails. -/
  | beaconFrame (rcv : Fin 2) (start frame amplitude ambient : Nat)
  /-- BEACON_FLOOD (R290): Saturation or ambient above 150 µA abandons any frame, enters FLOODED and logs 0x30A0. -/
  | beaconFlood (rcv : Fin 2) (onset ambient : Nat) (inFrame : Bool)
  /-- BEACON_FLOOD_END (R291): A flood ends and 0x30A1 is logged. -/
  | beaconFloodEnd (rcv : Fin 2)
  /-- BEACON_VIOLATION (R291): A biphase-mark violation abandons a beacon frame and logs 0x30A2. -/
  | beaconViolation (rcv : Fin 2) (inFrame : Bool)
  /-- BEACON_RESYNC (R291): After 8 consecutive clean bit periods, the receiver hunts for sync again. -/
  | beaconResync (rcv : Fin 2)
  /-- ITEM_ENQUEUE (R307): An item enters a queue in priority order, or is handled under the overflow rule when the queue is full. -/
  | itemEnqueue (q : Fin 4096) (it : Item) (found : Found)
  /-- DELIVERY_SLOT_WRITE (R312): While the ring has room, the head item is written to slot PROD, PROD advances and NotifyVector may fire. -/
  | deliverySlotWrite (q : Fin 4096) (record payload dma : Found)
  /-- DELIVERY_CONS_WRITE (R300): The host advances CONS of a delivery ring, which frees slots, or the write is refused as a violation. -/
  | deliveryConsWrite (fn : Fin 4) (q : Fin 4096) (v : Nat)
  /-- SUBMISSION_DOORBELL (R300): The host advances PROD of a submission ring, or the write is refused as a violation. -/
  | submissionDoorbell (fn : Fin 4) (q : Fin 4096) (v : Nat)
  /-- SUBMISSION_FETCH (R314): The device fetches a submission slot, verifies its checks, enqueues the item or discards it, and advances CONS. -/
  | submissionFetch (q : Fin 4096) (slot : Bytes) (dram : Found)
  /-- BAR0_HIGH_LATCH_READ (R299): A 32-bit read of a 64-bit register's low half latches the high half for the next read. -/
  | bar0HighLatchRead (fn : Fin 4) (off : Nat) (wide : Bool)
  /-- BAR0_INVALID_ACCESS (R300): A BAR0 access of wrong width, or outside the partition's rights, reads 0, drops the write and counts a violation. -/
  | bar0InvalidAccess (fn : Fin 4) (off len : Nat) (write : Bool)
  /-- BAR2_ACCESS (R301): A BAR2 access to DRAM through the aperture is permitted, or it reads all ones and counts a violation. -/
  | bar2Access (fn : Fin 4) (off len : Nat) (w : Option Bytes) (poisoned : Bool)
  /-- VIREK_RING_POLL (R298): At least every 100 µs, the device reads the peer-advanced index of a DRAM-resident ring. -/
  | virekRingPoll (q : Fin 4096)
  /-- STALE_TIME_EXPIRY (R316): A queue holds items for StaleTime without a read, so a staleness notice is raised and posted. -/
  | staleTimeExpiry (q : Fin 4096)
  /-- QUEUE_ENABLE (R304): Enable 1 checks the ring placement and attachment, and it allocates a spill queue's rings. -/
  | queueEnable (hd : Hdr) (cond : Option Nat)
  /-- QUEUE_DISABLE (R308): Enable 0 discards the held items and returns the spill rings. -/
  | queueDisable (hd : Hdr) (cond : Option Nat)
  /-- HEARTBEAT_SEND (R323): Every 1 ms, one heartbeat goes to each enabled partner on each path. -/
  | heartbeatSend
  /-- HEARTBEAT_RECEIVED (R324): A heartbeat is validated and counted on its path, or discarded as a violation. -/
  | heartbeatReceived (port : Fin 2) (srcIp : Nat) (payload : Bytes) (found : Found)
  /-- HEARTBEAT_MISSING_CHECK (R325): 500 µs after a sequence arrives on one path, its absence on the other path is judged, which may SUSPECT, fail or switch. -/
  | heartbeatMissingCheck (partner : Fin 16) (path : Fin 2) (seq : Nat)
  /-- PARTNER_SILENCE_TIMEOUT (R326): No heartbeat on either path for 3.5 ms moves both paths to SILENT and the partner to LOST. -/
  | partnerSilenceTimeout (partner : Fin 16)
  /-- PORT_LINK_CHANGE (R325): An Ethernet port's link goes up or down, and a port down fails its paths. -/
  | portLinkChange (port : Fin 2) (up : Bool)
  /-- HOLD_TIME_EXPIRY (R330): HoldTime after entry to SUSPECT, the consumers' holds end and their missing-data rules apply. -/
  | holdTimeExpiry (k : Fin 8)
  /-- DUPLICATE_FRAME_RECEIVED (R328): A received frame with a PRP trailer passes duplicate discard, keeping the first copy. -/
  | duplicateFrameReceived (port : Fin 2) (mac : Nat) (trailer : Option (Nat × Nat)) (supervision : Bool)
  /-- SWAP_TEST (R331): At its scheduled instant, a Swap-test class makes its standby path active if that path is UP. -/
  | swapTest (k : Fin 8)
  /-- SWAP_VERIFY_EXPIRY (R331): After SwapVerifyTime, the swap is verified, reverted as a hidden fault, or counted unverified. -/
  | swapVerifyExpiry (k : Fin 8)
  /-- FORCE_SWITCH (R333): ForceSwitch moves a Standby class to the named path if that path is UP. -/
  | forceSwitch (hd : Hdr) (cond : Option Nat) (k : Fin 8) (v : Bytes)
  /-- VIREK_CONNECT (R338): CONNECT is authenticated and answered CONNECT_ACK with a connection ID, window and credit, or refused by NAK. -/
  | virekConnect (h : VirekHdr) (data : Bytes)
  /-- VIREK_DISCONNECT (R340): DISCONNECT closes the connection, frees the slot and increments its epoch. -/
  | virekDisconnect (h : VirekHdr)
  /-- VIREK_QUIESCE (R341): QUIESCE moves the connection to PEER_QUIESCED with a clamped hold and stops its timers. -/
  | virekQuiesce (h : VirekHdr)
  /-- VIREK_READ (R345): A READ is checked and answered by READ_DATA packets of SegmentSize with LAST on the last. -/
  | virekRead (h : VirekHdr) (bad : List Nat)
  /-- VIREK_WRITE (R345): A WRITE packet is checked and its data written to DRAM in atomic 64-byte units. -/
  | virekWrite (h : VirekHdr) (data : Bytes) (found : Found)
  /-- VIREK_WRITE_FENCE (R346): A WRITE_FENCE packet is written, and at LAST its fence is signalled once all earlier data are committed. -/
  | virekWriteFence (h : VirekHdr) (data : Bytes) (found : Found)
  /-- VIREK_FENCE_ADD (R345): FENCE_ADD adds to a fence in the window's fence range. -/
  | virekFenceAdd (h : VirekHdr)
  /-- VIREK_ACK (R347): An ACK from the peer advances the acknowledged PSN and resets RTO. -/
  | virekAck (h : VirekHdr)
  /-- VIREK_NAK (R347): A NAK SEQ makes the device retransmit from its ACK value at the next packet slot. -/
  | virekNak (h : VirekHdr)
  /-- VIREK_PING (R348): A PING carries the sender's current ACK and credit. -/
  | virekPing (h : VirekHdr)
  /-- VIREK_PACKET_INVALID (R337): A Virek packet with a bad CRC, version, opcode or length is discarded as a violation. -/
  | virekPacketInvalid (port : Fin 2) (srcIp srcPort opcode : Nat)
  /-- VIREK_WRITE_COMMITTED (R348): Accepted WRITE data reach DRAM, and the advertised credit rises. -/
  | virekWriteCommitted (slot : Fin 256)
  /-- VIREK_ACK_DELAY_EXPIRY (R347): AckDelay after the oldest unacknowledged packet, the device sends an ACK. -/
  | virekAckDelayExpiry (slot : Fin 256)
  /-- VIREK_RTO_EXPIRY (R347): No progress of ACK for RTO, so the device retransmits from ACK and doubles RTO. -/
  | virekRtoExpiry (slot : Fin 256)
  /-- VIREK_PEER_TIMEOUT (R340): RetryLimit retransmissions of one PSN, or PeerTimeout without a packet, close the connection. -/
  | virekPeerTimeout (slot : Fin 256)
  /-- VIREK_CREDIT_STALL (R340): The peer's credit is insufficient for CreditStallTime, and the connection enters STALLED. -/
  | virekCreditStall (slot : Fin 256)
  /-- VIREK_STALL_PING (R348): Every 1 ms while STALLED, the device sends PING to learn of new credit. -/
  | virekStallPing (slot : Fin 256)
  /-- VIREK_QUIESCE_HOLD_EXPIRY (R340): The QUIESCE hold expires, and the connection closes on timeout. -/
  | virekQuiesceHoldExpiry (slot : Fin 256)
  /-- CONNECTION_CLOSE (R340): Close sends DISCONNECT and closes the selected connection. -/
  | connectionClose (hd : Hdr) (cond : Option Nat)
  /-- WINDOW_REGISTER (R344): Register checks a Virek window and sets a fresh random key. -/
  | windowRegister (hd : Hdr) (cond : Option Nat) (w : Fin 64)
  /-- WINDOW_REVOKE (R344): Revoke makes a window's state REVOKED at once. -/
  | windowRevoke (hd : Hdr) (cond : Option Nat) (w : Fin 64)
  /-- QUARANTINE_EXPIRY (R369): QuarantineTime ends, and a 0x6011 SUMMARY entry is logged. -/
  | quarantineExpiry (id : Nat)
  /-- QUARANTINE_RELEASE (R371): An Integrator ends a quarantine at once, logging 0x6012 and the SUMMARY entry. -/
  | quarantineRelease (hd : Hdr) (cond : Option Nat) (v : Bytes)
  /-- LOG_CLEAR (R365): LogClear empties the fault-log ring without restarting its sequence. -/
  | logClear (hd : Hdr) (cond : Option Nat) (v : Bytes)
  /-- MIRROR_CLEAR (R366): MirrorClear empties the flash mirror and restarts its count. -/
  | mirrorClear (hd : Hdr) (cond : Option Nat) (v : Bytes)
  /-- POWER_STATE_ENTRY (R379): A deeper power state becomes eligible and admitted, so the device enters it: `st`,
  decided `taken` ns ago. -/
  | powerStateEntry (st : Fin 5) (taken : Nat)
  /-- DEMAND_WAKE (R376): A request to a stopped island is held, and an exit to A0 begins within 1 µs. -/
  | demandWake (island : Fin 25)
  /-- EARLY_WAKE (R381): At a known deadline minus the exit latency, an exit to A0 begins. -/
  | earlyWake
  /-- POWER_STATE_EXIT_DONE (R377): An exit ends with every island in A0, decks reloaded and held requests released. -/
  | powerStateExitDone
  /-- WAKE_TOLERANCE_WRITE (R382): A write of WakeTolerance or PowerStateLimit is answered OK and starts an exit within 10 µs if the state becomes ineligible. -/
  | wakeToleranceWrite (hd : Hdr) (cond : Option Nat) (part : Option (Fin 8)) (v : Bytes)
  /-- POWER_CAP_WINDOW (R383): At the end of each 10 ms window, EngineBudget is lowered or raised against PowerCap. -/
  | powerCapWindow (avg : Nat)
  /-- TEMPERATURE_SAMPLE (R384): Each 1 ms, die temperatures change throttle levels, the I/O die hold or a thermal trip. -/
  | temperatureSample (io : Int) (dies : List Int)
  /-- THERMAL_TRIP_COOLED (R386): The I/O die falls below 95 °C, and start-up repeats from SUPPLY with BootCause 7. -/
  | thermalTripCooled (io : Int)
  /-- ISLAND_RESET (R395): IslandControl 1 quiesces an island for reset, or releases a held island into reset. -/
  | islandReset (hd : Hdr) (cond : Option Nat) (island : Fin 25)
  /-- ISLAND_HOLD (R395): IslandControl 2 quiesces an island and holds it down. -/
  | islandHold (hd : Hdr) (cond : Option Nat) (island : Fin 25)
  /-- QUIESCE_BOUNDARY_EMPTY (R393): A quiescing island's boundary is empty, and it enters RESETTING, UPDATING or HELD. -/
  | quiesceBoundaryEmpty (island : Fin 25)
  /-- ISLAND_RETURN (R393): An island finishes its reset or update, its incarnation increments and its boundary reopens. -/
  | islandReturn (island : Fin 25)
  /-- ISLAND_WATCHDOG_EXPIRY (R396): An island watchdog expires, an island fault resets or holds it, and on FIO or PCI a full reset follows. -/
  | islandWatchdogExpiry (island : Fin 25)
  /-- STALE_REPLY_RECEIVED (R394): A reply carrying an old incarnation is discarded and counted. -/
  | staleReplyReceived (island : Fin 25) (incarnation : Nat)
  /-- I2C_READ (R409): After ServiceReady, an I2C read returns the target's status registers, low byte first. -/
  | i2cRead (reg len : Nat)
  /-- I2C_WRITE (R409): An I2C write is not acknowledged after the register byte. -/
  | i2cWrite (reg : Nat) (data : Bytes)
  /-- CAN_ERROR_FRAME (R179): A CAN frame fails its CRC or another bus check and is destroyed by an error frame. The controller's error counters change, and ErrorState may move between active and passive. -/
  | canErrorFrame (ctl : Fin 2) (passive : Bool)
  /-- CAN_BUS_OFF_RECOVERY (R107): With BusOffRecovery 0, a bus-off controller recovers under ISO 11898-1 and ErrorState returns to active. -/
  | canBusOffRecovery (ctl : Fin 2)
  /-- BIPHASE_RECEIVER_LOCK (R258): A biphase receiver gains lock on its input stream. The port leaves the waiting state, its converter starts settling, and BIP0 becomes valid as a reference. -/
  | biphaseReceiverLock (port : Fin 4) (offset : Int)
  /-- PTP_DELAY_RESP_RECEIVED (R39): A Delay_Resp or Pdelay_Resp reaches the PTP client and updates MeanPathDelay for the θ measurement. -/
  | ptpDelayRespReceived (port : Fin 2) (domain : Nat) (seq : Nat) (t4 : Int) (turn : Int × Int)
  /-- PTP_DELAY_REQ_RECEIVED (R47): A Delay_Req, or a Pdelay_Req in peer-to-peer, arrives at a port serving as grandmaster or running the client, and the device answers it. -/
  | ptpDelayReqReceived (port : Fin 2) (domain : Nat) (seq : Nat) (requester : Nat) (peer : Bool)
  /-- ARP_ICMP_ECHO_REQUEST (R320): An ARP request or ICMP echo request addressed to DeviceIp arrives on a port and is answered. -/
  | arpIcmpEchoRequest (port : Fin 2) (echo : Bool) (srcIp targetIp : Nat) (payload : Bytes)
  /-- PAUSE_OR_OVERSIZE_FRAME (R320): A pause frame, a priority-flow-control frame or a frame longer than MaxFrame arrives, and it is dropped and counted in FramesDropped. -/
  | pauseOrOversizeFrame (port : Fin 2) (len : Option Nat)
  /-- PERST_N_RELEASE (R122): PERST# is released, the PCIe endpoint trains its link, and its configuration space is served from then on. -/
  | perstNRelease
  deriving DecidableEq, Repr

end Sys2Proof
end

