-- ==== Sys2Proof/Decode.lean ====
section
/-! DEFINITION. The command that a word spells: the rows of spec/opcode_table.json give no bits, so no word spells one. -/
namespace Sys2Proof

/-- No row of the table has fields: every command comes with its operands, not as a word. -/
def decodeTableWord (_nbits _w : Nat) : Option Instr := none

end Sys2Proof
end

