-- ==== Sys2Proof/Config.lean ====
section
/-! DEFINITION. What the spec leaves to the implementation: free values, with no body, so that nothing in Lean can say
what they are. Each takes the counter of free values (log 4) or the operands it depends on. -/
namespace Sys2Proof

/-- A session ID or nonce the device chooses (04_dictionary R96, log 6). -/
opaque Config.freshId : Nat → Nat

/-- An 8-byte nonce Nd (04_dictionary R96, log 6). -/
opaque Config.nonce : Nat → Bytes

/-- The device's own PTP clockIdentity (02_timeline Table 2, path trace; the spec gives none, log 144). -/
opaque Config.clockIdentity : Nat

/-- The increment the PTP servo's filter steers to (02_timeline R42, log 7). -/
opaque Config.servoInc : Nat → Nat

/-- The filtered θ the servo reports in MasterOffset (02_timeline section 5, log 7). -/
opaque Config.servoTheta : Nat → Int

/-- The type code of a READ answer, by the place of the type in Table 3 of 00_scope (04_dictionary Table 4, log 8). -/
opaque Config.typeCode : Nat → Nat

/-- The estimated time to ServiceReady in ms (05_start_up R135, log 9). -/
opaque Config.readyEstimate : Nat → Nat

/-- The number that stands for the cause of a session's end in event 0x2002 (04_dictionary Table 11, log 11). -/
opaque Config.endCause : Nat → Nat

/-- The DPLL's filtered correction in ppb, before the limits of R59 (03_timing_unit R59, R69, log 16). -/
opaque Config.dpllCorrection : Nat → Int

/-- The hash in an OTP key slot (05_start_up R124, log 21). -/
opaque Config.otpKeyHash : Nat → Bytes

/-- What the factory left in a bank of the QSPI flash (05_start_up R123, log 21). -/
opaque Config.factoryBank : Nat → Bytes

/-- The code of the general event that R21 demands for a late item (log 106). -/
opaque Config.lateEvent : Nat

/-- The boot patch in embedded flash: its 128-byte manifest, then its image (05_start_up R125, log 21). -/
opaque Config.bootPatch : Bytes

/-- Where in DRAM the device puts a payload too long for carafe cells (15_hosts_queues Table 4, log 27). -/
opaque Config.payloadAddr : Nat → Nat

/-- Whether a quotient or root that the spec does not round goes up, by its operands (08_fusion_grid R188, 13_mix_engine, log
32). -/
opaque Config.roundUp : Int → Int → Bool

/-- BufferBase of a grid, which the device places in the published area (15_hosts_queues R301, log 33). -/
opaque Config.gridBase : Nat → Nat

/-- What a package computes: its bytes and its input tensors give output tensors and whether an accumulator saturated, the
same on every engine (09_tensor_engines R200; the arithmetic is the package's, log 34). -/
opaque Config.infer : Bytes → List Bytes → List Bytes × Bool

/-- A byte of the model area of the QSPI NOR (05_start_up Table 3, log 34). -/
opaque Config.modelArea : Nat → Byte

/-- The bytes of the model area: it runs to the end of the flash device fitted (05_start_up Table 3, log 34). -/
opaque Config.modelAreaSize : Nat

/-- LoadError of a package whose span is not 1 or 2, which is not 0: Table 3 of 09_tensor_engines names none (log 35). -/
opaque Config.spanError : Nat

/-- StateBase of a structure, which the device places in the published area (15_hosts_queues R301, log 33). -/
opaque Config.solutionBase : Nat → Nat

/-- A sample that a converter gives (12_audio_ports R249, R253) or a fade passes through (R257), by free-value counter, channel
and place: the spec gives neither law (log 37). -/
opaque Config.converted : Nat → Nat → Nat → Int

/-- A sample that a filter, a square tone, a limiter or a bridge gives in the mix engine, by free-value counter, unit and
place: 13_mix_engine gives none of their laws (log 37). -/
opaque Config.mixSample : Nat → Nat → Nat → Int

/-- The gain that a gate or a compressor applies to a sample, by free-value counter, unit and place (log 37). -/
opaque Config.mixGain : Nat → Nat → Nat → Int

/-- The phase at which a tone begins, by free-value counter (13_mix_engine R268 gives none, log 37). -/
opaque Config.tonePhase : Nat → Nat

/-- The point of a strip or bus at which PeakLevel is taken (13_mix_engine Table 3 names none, log 37). -/
opaque Config.peakPoint : Nat

/-- GainReduction of a strip or bus, by object and block (13_mix_engine Table 3, log 37). -/
opaque Config.mixLevel : Nat → Nat → Int

/-- The monitor means E1 and E2 expected of a DAC channel fed by a route over a window (14_analog_beacon R283): they come
from its samples (log 37). -/
opaque Config.dacExpect : Nat → Nat → Int × Int

/-- A word of the MSI-X table or pending bits as the host reads it (15_hosts_queues Table 1: per PCI Express, log 40). -/
opaque Config.msixWord : Nat → Nat

/-- The number that stands for the cause of a connection's end in event 0x5A02 (17_virek Table 7, log 11). -/
opaque Config.closeCause : Nat → Nat

/-- The stamps in the report entry of a part discarded because its unit became absent (06_pours R147 gives none). -/
opaque Config.absentStamp : Nat → Nat

/-- DropCause of a compute die dropped because its TEN or DCK island is held (19_power_dies R390; R388 lists none for it). -/
opaque Config.heldDropCause : Nat

end Sys2Proof
end

