-- ==== Sys2Proof/Machine/Operands.lean ====
section
/-! DEFINITION. Operand forms: little-endian values (04_dictionary Table 1), stamps and their comparison
(02_timeline R32, R33), wrapping and saturation, and the two integrity checks (18_integrity R353, R354). -/
namespace Sys2Proof.Machine

/-- The unsigned value of a little-endian byte string (R5). -/
def leNat : Bytes → Nat
  | [] => 0
  | b :: bs => b.toNat + 256 * leNat bs

/-- The `n` bytes of `v`, little-endian. -/
def leBytes : Nat → Nat → Bytes
  | 0, _ => []
  | n + 1, v => BitVec.ofNat 8 v :: leBytes n (v / 256)

/-- Two's complement reading of an unsigned `bits`-bit value. -/
def signed (bits v : Nat) : Int := if v < 2 ^ (bits - 1) then v else (v : Int) - 2 ^ bits

/-- The `bits`-bit pattern of an integer. -/
def unsigned (bits : Nat) (v : Int) : Nat := (v % (2 : Int) ^ bits).toNat

/-- `v` held between `lo` and `hi`. -/
def clampInt (lo hi v : Int) : Int := if v < lo then lo else if hi < v then hi else v

/-- Field `len` bytes at `off` of a byte string, read little-endian; bytes beyond the end read 0. -/
def leAt (bs : Bytes) (off len : Nat) : Nat := leNat ((bs.drop off).take len)

/-- Bits `hi`-`lo` of a number. -/
def bits (v hi lo : Nat) : Nat := v / 2 ^ lo % 2 ^ (hi - lo + 1)

/-- Bit `n` of a number. -/
def bit (v n : Nat) : Bool := v / 2 ^ n % 2 == 1

/-- The list of set bits of `v` below `n`, rising. -/
def setBits (v n : Nat) : List Nat := (List.range n).filter (bit v)

/-- Signed 48-bit difference `a - b` of two full stamps (R32): between -2^47 and 2^47 - 1. -/
def stampDiff (a b : Nat) : Int := signed 48 ((a + span48 - b % span48) % span48)

/-- `a` is at or after `b` (R32). -/
def atOrAfter (a b : Nat) : Bool := decide (0 ≤ stampDiff a b)

/-- `a` is after `b` (R32). -/
def after (a b : Nat) : Bool := decide (0 < stampDiff a b)

/-- Stamp `a` plus `n` ns, modulo 2^48. -/
def stampAdd (a : Nat) (n : Int) : Nat := (((a : Int) + n) % (span48 : Int)).toNat

/-- How far free-running 32-bit index `a` is ahead of `b` (15_hosts_queues R300). -/
def ring32 (a b : Nat) : Nat := (a + (4294967296 - b % 4294967296)) % 4294967296

/-- Division rounded up. -/
def ceilDiv (a b : Nat) : Nat := (a + b - 1) / b

/-- A quotient rounded to nearest, halves away from zero (07_sensor_ingest R164). -/
def roundDiv (a : Int) (b : Nat) : Int :=
  if a < 0 then -(((2 * a.natAbs + b) / (2 * b) : Nat) : Int) else ((2 * a.natAbs + b) / (2 * b) : Nat)

/-- A quotient of integers rounded to nearest, halves away from zero. -/
def roundDivInt (a b : Int) : Int := if b < 0 then roundDiv (-a) b.natAbs else roundDiv a b.natAbs

/-- Field of `len` bytes at `off`, big-endian or little-endian. -/
def fieldAt (bs : Bytes) (off len : Nat) (big : Bool) : Nat :=
  if big then leNat (((bs.drop off).take len).reverse) else leAt bs off len

/-- The integer square root, by the bits from 2^31 down. -/
def isqrt (n : Nat) : Nat :=
  (List.range 32).foldl (fun r i => if (r + 2 ^ (31 - i)) * (r + 2 ^ (31 - i)) ≤ n then r + 2 ^ (31 - i) else r) 0

/-- One bit of a reflected CRC-32C register (polynomial 0x1EDC_6F41 reflected, R353). -/
def crc32cBit (r : Nat) : Nat := if r % 2 = 1 then (r / 2) ^^^ 0x82F63B78 else r / 2

/-- One byte into the CRC-32C register. -/
def crc32cByte (r : Nat) (b : Byte) : Nat :=
  crc32cBit (crc32cBit (crc32cBit (crc32cBit (crc32cBit (crc32cBit (crc32cBit (crc32cBit (r ^^^ b.toNat))))))))

/-- The carry check of a byte string: CRC-32C (R353). -/
def crc32c (bs : Bytes) : Nat := bs.foldl crc32cByte 0xFFFFFFFF ^^^ 0xFFFFFFFF

/-- One bit of a CRC-8 register that is not reflected, polynomial `p`. -/
def crc8Bit (p r : Nat) : Nat := if r ≥ 128 then (r * 2) % 256 ^^^ p else r * 2

/-- One byte into a CRC-8 register. -/
def crc8Byte (p r : Nat) (b : Byte) : Nat :=
  crc8Bit p (crc8Bit p (crc8Bit p (crc8Bit p (crc8Bit p (crc8Bit p (crc8Bit p (crc8Bit p (r ^^^ b.toNat))))))))

/-- The check-of-check of a stored carry check: CRC-8, polynomial 0x2F, initial value and final XOR 0xFF (R354). -/
def checkOfCheck (crc : Nat) : Nat := (leBytes 4 crc).foldl (crc8Byte 0x2F) 0xFF ^^^ 0xFF

/-- One bit of a CRC-16 register that is not reflected, polynomial 0x1021. -/
def crc16Bit (r : Nat) : Nat := if r ≥ 32768 then (r * 2) % 65536 ^^^ 0x1021 else r * 2

/-- One byte into the CRC-16 register. -/
def crc16Byte (r : Nat) (b : Byte) : Nat :=
  crc16Bit (crc16Bit (crc16Bit (crc16Bit (crc16Bit (crc16Bit (crc16Bit (crc16Bit (r ^^^ (b.toNat * 256)))))))))

/-- Well-formed UTF-8 (RFC 3629): one-byte forms, then two, three and four bytes, shortest form, no surrogates. -/
def utf8Ok : Bytes → Bool
  | [] => true
  | a :: rest =>
    let n := a.toNat
    let cont (b : Byte) : Bool := decide (128 ≤ b.toNat) && decide (b.toNat < 192)
    if n < 128 then utf8Ok rest
    else match rest with
      | b :: rest2 =>
        if decide (0xC2 ≤ n) && decide (n < 0xE0) then cont b && utf8Ok rest2
        else match rest2 with
          | c :: rest3 =>
            if decide (0xE0 ≤ n) && decide (n < 0xF0) then
              cont b && cont c && (n != 0xE0 || decide (0xA0 ≤ b.toNat)) && (n != 0xED || decide (b.toNat < 0xA0))
                && utf8Ok rest3
            else match rest3 with
              | e :: rest4 =>
                decide (0xF0 ≤ n) && decide (n < 0xF5) && cont b && cont c && cont e
                  && (n != 0xF0 || decide (0x90 ≤ b.toNat)) && (n != 0xF4 || decide (b.toNat < 0x90)) && utf8Ok rest4
              | [] => false
          | [] => false
      | [] => false

/-- A list's first occurrences. -/
def firsts {α : Type} [BEq α] : List α → List α
  | [] => []
  | a :: l => a :: (firsts l).filter fun b => b != a

end Sys2Proof.Machine
end

