-- ==== Sys2Proof/Machine/Crypto.lean ====
section
/-! DEFINITION. The named algorithms of the spec, from the standards it names (log 5): AES-128 (FIPS 197) and AES-CMAC
(NIST SP 800-38B), SHA-256 (FIPS 180-4), ECDSA over P-256 (FIPS 186-5), and the CRCC of AES3 channel status. -/
namespace Sys2Proof.Machine

/-- The value of a byte string, most significant byte first. -/
def beNat (bs : Bytes) : Nat := bs.foldl (fun v b => v * 256 + b.toNat) 0

/-- The `n` bytes of `v`, most significant byte first. -/
def beBytes (n v : Nat) : Bytes := (leBytes n v).reverse

/-- The AES S-box as one number: the image of `b` at byte `b` (FIPS 197). -/
def aesSboxWord : Nat :=
  0x16bb54b00f2d99416842e6bf0d89a18cdf2855cee9871e9b948ed9691198f8e19e1dc186b95735610ef6034866b53e708a8bbd4b1f74dde8c6b4a61c2e2578ba08ae7a65eaf4566ca94ed58d6d37c8e779e4959162acd3c25c2406490a3a32e0db0b5ede14b8ee4688902a22dc4f816073195d643d7ea7c41744975fec130ccdd2f3ff1021dab6bcf5389d928f40a351a89f3c507f02f94585334d43fbaaefd0cf584c4a39becb6a5bb1fc20ed00d153842fe329b3d63b52a05a6e1b1a2c830975b227ebe28012079a059618c323c7041531d871f1e5a534ccf73f362693fdb7c072a49cafa2d4adf04759fa7dc982ca76abd7fe2b670130c56f6bf27b777c63

/-- The AES S-box. -/
def aesSub (b : Nat) : Nat := aesSboxWord / 2 ^ (8 * b) % 256

/-- Multiplication by x in the field of AES. -/
def aesX (b : Nat) : Nat := if b < 128 then 2 * b else (2 * b % 256) ^^^ 0x1B

/-- One column of MixColumns. -/
def aesMixCol (a b c e : Nat) : List Nat :=
  let t := a ^^^ b ^^^ c ^^^ e
  [a ^^^ t ^^^ aesX (a ^^^ b), b ^^^ t ^^^ aesX (b ^^^ c), c ^^^ t ^^^ aesX (c ^^^ e), e ^^^ t ^^^ aesX (e ^^^ a)]

/-- MixColumns over the 16 bytes of a state, column by column. -/
def aesMix : List Nat → List Nat
  | a :: b :: c :: e :: l => aesMixCol a b c e ++ aesMix l
  | l => l

/-- ShiftRows: row r of the state turns left by r. -/
def aesShift (s : List Nat) : List Nat := (List.range 16).map fun i => s.getD ((i + 4 * (i % 4)) % 16) 0

/-- The next round key after `k` with round constant `rc`. -/
def aesNextKey (k : List Nat) (rc : Nat) : List Nat :=
  let g (i : Nat) : Nat := k.getD i 0
  let w0 := [g 0 ^^^ aesSub (g 13) ^^^ rc, g 1 ^^^ aesSub (g 14), g 2 ^^^ aesSub (g 15), g 3 ^^^ aesSub (g 12)]
  let w1 := List.zipWith Nat.xor w0 ((k.drop 4).take 4)
  let w2 := List.zipWith Nat.xor w1 ((k.drop 8).take 4)
  w0 ++ w1 ++ w2 ++ List.zipWith Nat.xor w2 ((k.drop 12).take 4)

/-- A middle round on state and round key with round constant `rc`. -/
def aesRound (x : List Nat × List Nat) (rc : Nat) : List Nat × List Nat :=
  let k := aesNextKey x.2 rc
  (List.zipWith Nat.xor (aesMix (aesShift (x.1.map aesSub))) k, k)

/-- AES-128 of one block (FIPS 197). -/
def aes128 (key block : Bytes) : Bytes :=
  let k := key.map BitVec.toNat
  let x := [0x01, 0x02, 0x04, 0x08, 0x10, 0x20, 0x40, 0x80, 0x1B].foldl aesRound
    (List.zipWith Nat.xor (block.map BitVec.toNat) k, k)
  (List.zipWith Nat.xor (aesShift (x.1.map aesSub)) (aesNextKey x.2 0x36)).map (BitVec.ofNat 8)

/-- Two byte strings XORed. -/
def xorBytes (a b : Bytes) : Bytes := List.zipWith (fun x y => x ^^^ y) a b

/-- A subkey of CMAC doubled in GF(2^128). -/
def cmacDouble (b : Bytes) : Bytes :=
  let v := beNat b
  beBytes 16 ((2 * v % 2 ^ 128) ^^^ (if v < 2 ^ 127 then 0 else 0x87))

/-- The chaining of CMAC over the blocks of a message, the last one already masked. -/
def cmacChain (key : Bytes) : List Bytes → Bytes → Bytes
  | [], x => x
  | b :: l, x => cmacChain key l (aes128 key (xorBytes x b))

/-- The blocks of 16 bytes of a message but the last, `n` of them. -/
def cmacBlocks (n : Nat) (m : Bytes) : List Bytes := (List.range n).map fun i => (m.drop (16 * i)).take 16

/-- AES-CMAC (NIST SP 800-38B) of a message under a 16-byte key: the 16-byte tag, most significant byte first. -/
def aesCmac (key m : Bytes) : Bytes :=
  let k1 := cmacDouble (aes128 key (List.replicate 16 0))
  let n := (m.length - 1) / 16
  let tail := m.drop (16 * n)
  let last := if tail.length = 16 then xorBytes tail k1
    else xorBytes ((tail ++ 0x80 :: List.replicate 16 0).take 16) (cmacDouble k1)
  cmacChain key (cmacBlocks n m ++ [last]) (List.replicate 16 0)

/-- A 32-bit word turned right by `n`. -/
def rotr32 (n x : Nat) : Nat := x / 2 ^ n + x % 2 ^ n * 2 ^ (32 - n)

/-- The round constants of SHA-256 as one number, the first in the highest word. -/
def shaK : Nat :=
  0x428a2f9871374491b5c0fbcfe9b5dba53956c25b59f111f1923f82a4ab1c5ed5d807aa9812835b01243185be550c7dc372be5d7480deb1fe9bdc06a7c19bf174e49b69c1efbe47860fc19dc6240ca1cc2de92c6f4a7484aa5cb0a9dc76f988da983e5152a831c66db00327c8bf597fc7c6e00bf3d5a7914706ca63511429296727b70a852e1b21384d2c6dfc53380d13650a7354766a0abb81c2c92e92722c85a2bfe8a1a81a664bc24b8b70c76c51a3d192e819d6990624f40e3585106aa07019a4c1161e376c082748774c34b0bcb5391c0cb34ed8aa4a5b9cca4f682e6ff3748f82ee78a5636f84c878148cc7020890befffaa4506cebbef9a3f7c67178f2

/-- One step of the message schedule: the window of 16 words, the oldest first, moves by one. -/
def shaNext (w : List Nat) : List Nat :=
  let a := w.getD 1 0
  let b := w.getD 14 0
  let s0 := rotr32 7 a ^^^ rotr32 18 a ^^^ (a / 8)
  let s1 := rotr32 17 b ^^^ rotr32 19 b ^^^ (b / 1024)
  w.drop 1 ++ [(w.getD 0 0 + s0 + w.getD 9 0 + s1) % 2 ^ 32]

/-- One round of the compression on the eight working words and the schedule's window. -/
def shaRound (x : List Nat × List Nat) (t : Nat) : List Nat × List Nat :=
  let g (i : Nat) : Nat := x.1.getD i 0
  let s1 := rotr32 6 (g 4) ^^^ rotr32 11 (g 4) ^^^ rotr32 25 (g 4)
  let ch := (g 4 &&& g 5) ^^^ ((2 ^ 32 - 1 - g 4) &&& g 6)
  let t1 := g 7 + s1 + ch + shaK / 2 ^ (32 * (63 - t)) % 2 ^ 32 + x.2.getD 0 0
  let s0 := rotr32 2 (g 0) ^^^ rotr32 13 (g 0) ^^^ rotr32 22 (g 0)
  let maj := (g 0 &&& g 1) ^^^ (g 0 &&& g 2) ^^^ (g 1 &&& g 2)
  ([(t1 + s0 + maj) % 2 ^ 32, g 0, g 1, g 2, (g 3 + t1) % 2 ^ 32, g 4, g 5, g 6], shaNext x.2)

/-- The hash value after one block of 64 bytes. -/
def shaBlock (h : List Nat) (b : Bytes) : List Nat :=
  let w := (List.range 16).map fun i => beNat ((b.drop (4 * i)).take 4)
  List.zipWith (fun x y => (x + y) % 2 ^ 32) h ((List.range 64).foldl shaRound (h, w)).1

/-- SHA-256 (FIPS 180-4): 32 bytes, most significant byte first. -/
def sha256 (m : Bytes) : Bytes :=
  let p := m ++ 0x80 :: List.replicate ((119 - m.length % 64) % 64) 0 ++ beBytes 8 (8 * m.length)
  let h := (List.range (p.length / 64)).foldl (fun h i => shaBlock h ((p.drop (64 * i)).take 64))
    [0x6A09E667, 0xBB67AE85, 0x3C6EF372, 0xA54FF53A, 0x510E527F, 0x9B05688C, 0x1F83D9AB, 0x5BE0CD19]
  h.flatMap (beBytes 4)

/-- The prime of P-256 (FIPS 186-5, SP 800-186). -/
def p256P : Nat := 0xFFFFFFFF00000001000000000000000000000000FFFFFFFFFFFFFFFFFFFFFFFF

/-- The order of P-256's base point. -/
def p256N : Nat := 0xFFFFFFFF00000000FFFFFFFFFFFFFFFFBCE6FAADA7179E84F3B9CAC2FC632551

/-- The coefficient b of P-256. -/
def p256B : Nat := 0x5AC635D8AA3A93E7B3EBBD55769886BC651D06B0CC53B0F63BCE3C3E27D2604B

/-- P-256's base point. -/
def p256G : Nat × Nat :=
  (0x6B17D1F2E12C4247F8BCE6E563A440F277037D812DEB33A0F4A13945D898C296,
   0x4FE342E2FE1A7F9B8EE7EB4A7C0F9E162BCE33576B315ECECBB6406837BF51F5)

/-- `b` to the power `e` modulo `m`, by the 256 bits of `e`. -/
def powMod (m b e : Nat) : Nat :=
  (List.range 256).foldl (fun r i => if bit e (255 - i) then r * r % m * b % m else r * r % m) 1

/-- The inverse modulo a prime. -/
def invMod (m a : Nat) : Nat := powMod m a (m - 2)

/-- A difference modulo `m` of reduced values. -/
def subMod (m a b : Nat) : Nat := (a + m - b) % m

/-- The sum of two points of P-256 (none: the point at infinity). -/
def p256Add : Option (Nat × Nat) → Option (Nat × Nat) → Option (Nat × Nat)
  | none, q => q
  | p, none => p
  | some (x1, y1), some (x2, y2) =>
    if x1 = x2 && (y1 + y2) % p256P = 0 then none
    else
      let l := if x1 = x2 then (3 * x1 * x1 + p256P - 3) % p256P * invMod p256P (2 * y1 % p256P) % p256P
        else subMod p256P y2 y1 * invMod p256P (subMod p256P x2 x1) % p256P
      let x := subMod p256P (l * l % p256P) ((x1 + x2) % p256P)
      some (x, subMod p256P (l * subMod p256P x1 x % p256P) y1)

/-- A multiple of a point of P-256, by the 256 bits of `e`. -/
def p256Mul (e : Nat) (p : Option (Nat × Nat)) : Option (Nat × Nat) :=
  (List.range 256).foldl (fun r i => let q := p256Add r r; if bit e (255 - i) then p256Add q p else q) none

/-- A public key is a point of the curve with reduced coordinates. -/
def p256On (x y : Nat) : Bool :=
  decide (x < p256P) && decide (y < p256P)
    && decide (y * y % p256P = (x * x % p256P * x + (p256P - 3) * x + p256B) % p256P)

/-- ECDSA P-256 with SHA-256 (FIPS 186-5): public key X then Y, message, signature r then s, 32 bytes each, most
significant byte first. -/
def ecdsaOk (key m sig : Bytes) : Bool :=
  let x := beNat (key.take 32)
  let y := beNat ((key.drop 32).take 32)
  let r := beNat (sig.take 32)
  let s := beNat ((sig.drop 32).take 32)
  let w := invMod p256N s
  let e := beNat (sha256 m)
  p256On x y && decide (0 < r) && decide (r < p256N) && decide (0 < s) && decide (s < p256N)
    && (match p256Add (p256Mul (e * w % p256N) (some p256G)) (p256Mul (r * w % p256N) (some (x, y))) with
        | some q => decide (q.1 % p256N = r)
        | none => false)

/-- One bit of the CRCC register, shifted toward its low bit: G(x) = x^8 + x^4 + x^3 + x^2 + 1. -/
def crccBit (r : Nat) : Nat := if r % 2 = 1 then (r / 2) ^^^ 0xB8 else r / 2

/-- One byte into the CRCC register, its bit 0 first. -/
def crccByte (r : Nat) (b : Byte) : Nat :=
  crccBit (crccBit (crccBit (crccBit (crccBit (crccBit (crccBit (crccBit (r ^^^ b.toNat))))))))

/-- The CRCC of bytes 0-22 of an AES3 channel-status block: all ones at the start, byte 23 as it stands in the block. -/
def crcc (bs : Bytes) : Nat := bs.foldl crccByte 0xFF

end Sys2Proof.Machine
end

