-- ==== Sys2Proof/Machine/Objects.lean ====
section
/-! DEFINITION. The object tables of the dictionary: one `ObjRow` for each run of addresses that the chapters'
tables give the same type, access, default, range and pour note (R84). Written from the tables of spec/; a default
written there as a dash is the model's (log 2). -/
namespace Sys2Proof.Machine

/-- Value types of Table 1 of 04_dictionary. `q32` is QFIX of 32 bits. -/
inductive Ty where
  | bool | u8 | u16 | u32 | u64 | i8 | i16 | i32 | i64 | stamp48 | q32 | string | domain
  deriving DecidableEq, Repr

/-- Access codes of R7; `none` is the dash of R6. -/
inductive Acc where
  | none | ro | rw | wo | rwp
  deriving DecidableEq, Repr

/-- Access per role: Observer, Operator, Integrator, Safety. -/
structure Access where
  ob : Acc
  op : Acc
  inte : Acc
  sf : Acc
  deriving DecidableEq, Repr

/-- How the object's Notes let it take part in a pour. -/
inductive PourMark where
  | no | pourable | generation | kind
  deriving DecidableEq, Repr

/-- One row of the object tables: a block of indices `i0`-`i1` and subindices `s0`-`s1` with the same attributes.
`alts` are values permitted beside `lo`-`hi`; `keep`, where not 0, is the mask of bits that are not reserved (R4);
`pourOnly` says that the Notes let it change by pour alone; `per` that the Notes say Persisted. -/
structure ObjRow where
  i0 : Nat
  i1 : Nat
  s0 : Nat
  s1 : Nat
  ty : Ty
  acc : Access
  dflt : Int
  lo : Int
  hi : Int
  alts : List Int
  keep : Nat
  mark : PourMark
  pourOnly : Bool
  per : Bool
  deriving DecidableEq, Repr

/-- Positional constructor of a row. -/
abbrev row (i0 i1 s0 s1 : Nat) (ty : Ty) (acc : Access) (dflt lo hi : Int) (alts : List Int) (keep : Nat)
    (mark : PourMark) (pourOnly per : Bool) : ObjRow :=
  { i0, i1, s0, s1, ty, acc, dflt, lo, hi, alts, keep, mark, pourOnly, per }

/-- RO for every role. -/
abbrev aRo : Access := ⟨.ro, .ro, .ro, .ro⟩
/-- The tables' "In RWP". -/
abbrev aIn : Access := ⟨.ro, .ro, .rwp, .ro⟩
/-- The tables' "RWP". -/
abbrev aRwp : Access := ⟨.ro, .rwp, .rwp, .rwp⟩
/-- The tables' "Sf RWP". -/
abbrev aSf : Access := ⟨.ro, .ro, .rwp, .rwp⟩
/-- Access —/—/—/WO. -/
abbrev aNNNO : Access := ⟨.none, .none, .none, .wo⟩
/-- Access —/—/WO/—. -/
abbrev aNNON : Access := ⟨.none, .none, .wo, .none⟩
/-- Access —/—/WO/WO. -/
abbrev aNNOO : Access := ⟨.none, .none, .wo, .wo⟩
/-- Access —/—/RW/—. -/
abbrev aNNWN : Access := ⟨.none, .none, .rw, .none⟩
/-- Access —/WO/WO/—. -/
abbrev aNOON : Access := ⟨.none, .wo, .wo, .none⟩
/-- Access —/WO/WO/WO. -/
abbrev aNOOO : Access := ⟨.none, .wo, .wo, .wo⟩
/-- Access —/RO/RO/RO. -/
abbrev aNRRR : Access := ⟨.none, .ro, .ro, .ro⟩
/-- Access —/RW/RW/RW. -/
abbrev aNWWW : Access := ⟨.none, .rw, .rw, .rw⟩
/-- Access RO/WO/WO/WO. -/
abbrev aROOO : Access := ⟨.ro, .wo, .wo, .wo⟩
/-- Access RO/RO/WO/WO. -/
abbrev aRROO : Access := ⟨.ro, .ro, .wo, .wo⟩
/-- Access RO/RO/RW/RO. -/
abbrev aRRWR : Access := ⟨.ro, .ro, .rw, .ro⟩
/-- Access RO/RW/RW/RO. -/
abbrev aRWWR : Access := ⟨.ro, .rw, .rw, .ro⟩
/-- Access RO/RW/RW/RW. -/
abbrev aRWWW : Access := ⟨.ro, .rw, .rw, .rw⟩
/-- Access RW/RW/RW/RW. -/
abbrev aWWWW : Access := ⟨.rw, .rw, .rw, .rw⟩

/-- Objects 0x1000-0x10FF, part 1. -/
def objs10a : List ObjRow := [
  row 0x1000 0x1000 1 1 .u32 aRo 51936 0 4294967295 [] 0 .no false false,
  row 0x1000 0x1000 2 2 .u16 aRo 18482 0 65535 [] 0 .no false false,
  row 0x1000 0x1000 3 3 .string aRo 0 6 6 [] 0 .no false false,
  row 0x1000 0x1000 4 4 .string aRo 0 0 16 [] 0 .no false false,
  row 0x1000 0x1000 5 5 .u64 aRo 0 0 18446744073709551615 [] 0 .no false false,
  row 0x1000 0x1000 6 6 .u8 aRo 1 0 255 [] 0 .no false false,
  row 0x1000 0x1000 7 7 .u8 aRo 3 0 255 [] 0 .no false false,
  row 0x1000 0x1000 8 8 .u8 aRo 15 0 255 [] 0 .no false false,
  row 0x1000 0x1000 9 9 .u8 aRo 0 0 255 [] 0 .no false false,
  row 0x1000 0x1000 10 10 .u64 aRo 0 0 18446744073709551615 [] 0 .no false false,
  row 0x1000 0x1000 11 11 .u16 aRo 256 0 65535 [] 0 .no false false,
  row 0x1000 0x1000 12 12 .u8 aRo 1 0 255 [] 0 .no false false,
  row 0x1000 0x1000 13 13 .u8 aRo 0 0 255 [] 0 .no false false,
  row 0x1000 0x1000 14 14 .bool aRo 0 0 1 [] 0 .no false false,
  row 0x1001 0x1001 1 1 .u32 aNNON 0 54769 54769 [] 0 .no false false,
  row 0x1001 0x1001 2 2 .u32 aRo 0 0 4294967295 [] 0 .no false false,
  row 0x1001 0x1001 3 3 .u8 aRo 0 0 255 [] 0 .no false false ]

/-- Objects 0x1100-0x11FF, part 1. -/
def objs11a : List ObjRow := [
  row 0x1100 0x1100 1 1 .bool aRo 1 0 1 [] 0 .no false false,
  row 0x1100 0x1100 3 3 .u32 aIn 0 0 4294967295 [] 0 .no false false,
  row 0x1100 0x1100 4 4 .u8 aIn 4 0 255 [] 15 .no false false,
  row 0x1100 0x1100 15 15 .u16 aIn 64 0 2048 [] 0 .no false false,
  row 0x1100 0x1107 2 2 .u8 aIn 0 0 2 [] 0 .no false false,
  row 0x1100 0x1107 5 5 .domain aNNON 0 16 16 [] 0 .no false true,
  row 0x1100 0x1107 6 6 .u8 aRo 0 0 255 [] 0 .no false false,
  row 0x1100 0x1107 7 7 .u16 aIn 0 0 4095 [] 0 .no false false,
  row 0x1100 0x1107 8 8 .u16 aIn 0 0 4096 [] 0 .no false false,
  row 0x1100 0x1107 9 9 .u32 aIn 0 0 131071 [] 0 .no false false,
  row 0x1100 0x1107 10 10 .u32 aIn 0 0 131072 [] 0 .no false false,
  row 0x1100 0x1107 11 11 .u8 aRo 0 0 255 [] 0 .no false false,
  row 0x1100 0x1107 12 12 .u32 aRo 0 0 4294967295 [] 0 .no false false,
  row 0x1100 0x1107 13 13 .u16 aIn 65535 0 4095 [65535] 0 .no false false,
  row 0x1100 0x1107 14 14 .u16 aIn 0 0 65535 [] 0 .no false false,
  row 0x1100 0x1107 16 16 .u64 aIn 16642998272 0 18446744073709551615 [] 0 .no false false,
  row 0x1100 0x1107 20 20 .u8 aIn 0 0 255 [] 51 .no false false,
  row 0x1100 0x1107 21 21 .u64 aIn 0 0 18446744073709551615 [] 0 .no false false,
  row 0x1100 0x1107 22 22 .u64 aIn 0 4096 17179869184 [0] 0 .no false false,
  row 0x1100 0x1107 23 23 .u8 aIn 0 0 255 [] 51 .no false false,
  row 0x1100 0x1107 24 24 .u64 aIn 0 0 18446744073709551615 [] 0 .no false false,
  row 0x1100 0x1107 25 25 .u64 aIn 0 4096 17179869184 [0] 0 .no false false,
  row 0x1100 0x1107 26 26 .u8 aIn 0 0 255 [] 51 .no false false,
  row 0x1100 0x1107 27 27 .u64 aIn 0 0 18446744073709551615 [] 0 .no false false,
  row 0x1100 0x1107 28 28 .u64 aIn 0 4096 17179869184 [0] 0 .no false false,
  row 0x1100 0x1107 29 29 .u8 aIn 0 0 255 [] 51 .no false false,
  row 0x1100 0x1107 30 30 .u64 aIn 0 0 18446744073709551615 [] 0 .no false false,
  row 0x1100 0x1107 31 31 .u64 aIn 0 4096 17179869184 [0] 0 .no false false,
  row 0x1101 0x1107 1 1 .bool aIn 0 0 1 [] 0 .no false false,
  row 0x1101 0x1107 3 3 .u32 aIn 4294967295 0 4294967295 [] 0 .no false false,
  row 0x1101 0x1107 4 4 .u8 aIn 0 0 255 [] 15 .no false false,
  row 0x1101 0x1107 15 15 .u16 aIn 0 0 2048 [] 0 .no false false,
  row 0x1120 0x1120 1 32 .u8 aIn 255 0 7 [255] 0 .no false false,
  row 0x1121 0x1121 1 8 .u8 aIn 255 0 7 [255] 0 .no false false,
  row 0x1122 0x1122 1 32 .u8 aIn 255 0 7 [255] 0 .no false false,
  row 0x1123 0x1123 1 192 .u8 aIn 255 0 7 [255] 0 .no false false,
  row 0x1124 0x1124 1 192 .u8 aIn 255 0 7 [255] 0 .no false false,
  row 0x1125 0x1125 1 96 .u8 aIn 255 0 7 [255] 0 .no false false,
  row 0x1126 0x1126 1 64 .u8 aIn 255 0 7 [255] 0 .no false false,
  row 0x1127 0x1127 1 64 .u8 aIn 255 0 7 [255] 0 .no false false ]

/-- Objects 0x1100-0x11FF, part 2. -/
def objs11b : List ObjRow := [
  row 0x1128 0x1128 1 4 .u8 aIn 255 0 7 [255] 0 .no false false,
  row 0x1129 0x1129 1 12 .u8 aIn 255 0 7 [255] 0 .no false false,
  row 0x112a 0x112a 1 2 .u8 aIn 255 0 7 [255] 0 .no false false ]

/-- Objects 0x1200-0x12FF, part 1. -/
def objs12a : List ObjRow := [
  row 0x1200 0x1200 1 1 .bool aIn 1 0 1 [] 0 .no false false,
  row 0x1200 0x1200 2 2 .bool aIn 1 0 1 [] 0 .no false false,
  row 0x1200 0x1200 3 3 .u16 aRo 51728 0 65535 [] 0 .no false false,
  row 0x1200 0x1200 4 4 .u16 aIn 30 1 3600 [] 0 .no false false,
  row 0x1200 0x1200 5 5 .u16 aIn 500 50 10000 [] 0 .no false false,
  row 0x1200 0x1200 6 6 .u8 aIn 4 1 4 [] 0 .no false false,
  row 0x1200 0x1200 7 7 .u16 aIn 2000 100 10000 [] 0 .no false false,
  row 0x1210 0x1211 1 1 .bool aIn 1 0 1 [] 0 .no false false,
  row 0x1210 0x1211 2 2 .u8 aIn 16 1 254 [] 0 .no false false,
  row 0x1210 0x1211 3 3 .u32 aIn 500000 125000 1000000 [] 0 .no false false,
  row 0x1210 0x1211 4 4 .u32 aIn 2000000 1000000 8000000 [] 0 .no false false,
  row 0x1210 0x1211 5 5 .u16 aIn 199 0 511 [] 0 .no false false,
  row 0x1210 0x1211 6 6 .bool aIn 1 0 1 [] 0 .no false false,
  row 0x1210 0x1211 7 7 .bool aIn 1 0 1 [] 0 .no false false,
  row 0x1210 0x1211 8 8 .u8 aIn 0 0 1 [] 0 .no false false,
  row 0x1210 0x1211 9 9 .bool aNOON 0 1 1 [] 0 .no false false,
  row 0x1210 0x1211 10 10 .u8 aRo 0 0 255 [] 0 .no false false,
  row 0x1220 0x1220 1 1 .u8 aRo 0 0 255 [] 0 .no false false,
  row 0x1220 0x1220 2 2 .u32 aRo 0 0 4294967295 [] 0 .no false false,
  row 0x1220 0x1220 3 3 .u32 aRo 0 0 4294967295 [] 0 .no false false,
  row 0x1220 0x1220 4 4 .u32 aRo 0 0 4294967295 [] 0 .no false false,
  row 0x1220 0x1220 5 5 .u32 aRo 0 0 4294967295 [] 0 .no false false,
  row 0x1220 0x1220 6 6 .u32 aRo 0 0 4294967295 [] 0 .no false false,
  row 0x1220 0x1220 7 7 .u32 aRo 0 0 4294967295 [] 0 .no false false ]

/-- Objects 0x1400-0x14FF, part 1. -/
def objs14a : List ObjRow := [
  row 0x1400 0x1400 1 1 .u8 aRo 0 0 255 [] 0 .no false false,
  row 0x1400 0x1400 2 2 .u8 aIn 4 0 4 [] 0 .no false false,
  row 0x1400 0x1400 3 3 .u32 aRo 0 0 4294967295 [] 0 .no false false,
  row 0x1400 0x1400 4 4 .stamp48 aRo 0 0 281474976710655 [] 0 .no false false,
  row 0x1400 0x1400 5 5 .stamp48 aRo 0 0 281474976710655 [] 0 .no false false,
  row 0x1400 0x1400 6 6 .u32 aRo 0 0 4294967295 [] 0 .no false false,
  row 0x1400 0x1400 7 7 .u32 aRo 0 0 4294967295 [] 0 .no false false,
  row 0x1400 0x1400 8 12 .u64 aRo 0 0 18446744073709551615 [] 0 .no false false,
  row 0x1401 0x1401 1 1 .u32 aWWWW 0 0 4294967295 [] 0 .no false false,
  row 0x1402 0x1408 1 1 .u32 aWWWW 4294967295 0 4294967295 [] 0 .no false false,
  row 0x1410 0x1410 1 1 .u8 aRo 0 0 255 [] 0 .no false false,
  row 0x1410 0x1410 2 2 .u8 aRo 0 0 255 [] 0 .no false false,
  row 0x1410 0x1410 3 3 .u32 aRo 0 0 4294967295 [] 0 .no false false,
  row 0x1410 0x1410 4 4 .u8 aRo 255 0 255 [] 0 .no false false,
  row 0x1410 0x1410 5 5 .u64 aRo 34359738368 0 18446744073709551615 [] 0 .no false false,
  row 0x1410 0x1410 6 6 .u32 aRo 273064 0 4294967295 [] 0 .no false false,
  row 0x1410 0x1410 7 7 .u8 aRo 0 0 255 [] 0 .no false false,
  row 0x1420 0x1420 1 1 .u16 aIn 95 30 95 [] 0 .no false false,
  row 0x1420 0x1420 2 2 .u32 aRo 0 0 4294967295 [] 0 .no false false,
  row 0x1420 0x1420 3 3 .u16 aRo 0 0 65535 [] 0 .no false false,
  row 0x1420 0x1420 4 4 .u8 aRo 0 0 255 [] 0 .no false false,
  row 0x1430 0x1434 1 1 .i16 aRo 0 (-32768) 32767 [] 0 .no false false,
  row 0x1430 0x1434 2 2 .u8 aRo 0 0 255 [] 0 .no false false,
  row 0x1430 0x1434 3 3 .i16 aRo 0 (-32768) 32767 [] 0 .no false false ]

/-- Objects 0x2000-0x20FF, part 1. -/
def objs20a : List ObjRow := [
  row 0x2000 0x2000 1 1 .stamp48 aRo 0 0 281474976710655 [] 0 .no false false,
  row 0x2000 0x2000 2 2 .u32 aRo 0 0 4294967295 [] 0 .no false false,
  row 0x2000 0x2000 3 3 .u16 aRo 0 0 65535 [] 0 .no false false,
  row 0x2000 0x2000 4 4 .u64 aRo 17476266667 0 18446744073709551615 [] 0 .no false false,
  row 0x2000 0x2000 5 5 .u64 aRo 17476266667 0 18446744073709551615 [] 0 .no false false,
  row 0x2000 0x2000 6 6 .i32 aRo 0 (-2147483648) 2147483647 [] 0 .no false false,
  row 0x2001 0x2001 1 1 .u16 aIn 100 1 1000 [] 0 .no false false,
  row 0x2001 0x2001 2 2 .i64 aNNON 0 (-1000000000) 1000000000 [] 0 .no false false,
  row 0x2001 0x2001 3 3 .i64 aRo 0 (-9223372036854775808) 9223372036854775807 [] 0 .no false false,
  row 0x2010 0x2010 1 1 .u8 aIn 0 0 3 [] 0 .no false false,
  row 0x2010 0x2010 2 2 .u8 aIn 0 0 2 [] 0 .no false false,
  row 0x2010 0x2010 3 3 .u8 aIn 0 0 1 [] 0 .no false false,
  row 0x2010 0x2010 4 4 .u8 aIn 0 0 127 [] 0 .no false false,
  row 0x2010 0x2010 5 5 .u8 aIn 3 2 10 [] 0 .no false false,
  row 0x2010 0x2010 6 6 .u8 aIn 8 3 255 [] 0 .no false false,
  row 0x2010 0x2010 7 7 .u8 aIn 1 0 1 [] 0 .no false false,
  row 0x2010 0x2010 8 8 .u8 aIn 1 0 1 [] 0 .no false false,
  row 0x2010 0x2010 9 9 .u32 aIn 1000000 1000 1000000000 [] 0 .no false false,
  row 0x2010 0x2010 10 10 .u32 aIn 1000 50 100000 [] 0 .no false false,
  row 0x2010 0x2010 11 11 .u16 aIn 16 1 256 [] 0 .no false false,
  row 0x2010 0x2010 12 12 .u16 aIn 10 1 3600 [0] 0 .no false false,
  row 0x2011 0x2011 1 1 .u8 aRo 0 0 255 [] 0 .no false false,
  row 0x2011 0x2011 2 2 .u8 aRo 0 0 255 [] 0 .no false false,
  row 0x2011 0x2011 3 3 .u64 aRo 0 0 18446744073709551615 [] 0 .no false false,
  row 0x2011 0x2011 4 4 .i64 aRo 0 (-9223372036854775808) 9223372036854775807 [] 0 .no false false,
  row 0x2011 0x2011 5 5 .u32 aRo 0 0 4294967295 [] 0 .no false false,
  row 0x2011 0x2011 6 6 .i64 aRo 0 (-9223372036854775808) 9223372036854775807 [] 0 .no false false,
  row 0x2011 0x2011 7 7 .u16 aRo 0 0 65535 [] 0 .no false false,
  row 0x2011 0x2011 8 8 .i64 aRo 0 (-9223372036854775808) 9223372036854775807 [] 0 .no false false,
  row 0x2011 0x2011 9 9 .i16 aRo 0 (-32768) 32767 [] 0 .no false false,
  row 0x2011 0x2011 10 10 .u32 aRo 0 0 4294967295 [] 0 .no false false,
  row 0x2011 0x2011 11 11 .stamp48 aRo 0 0 281474976710655 [] 0 .no false false,
  row 0x2012 0x2012 1 1 .u8 aNOON 0 1 2 [] 0 .no false false,
  row 0x2018 0x2018 1 1 .u8 aIn 0 0 2 [] 0 .no false false,
  row 0x2018 0x2018 2 2 .u8 aIn 20 0 127 [] 0 .no false false,
  row 0x2018 0x2018 3 3 .u8 aIn 128 0 255 [] 0 .no false false,
  row 0x2018 0x2018 4 4 .u8 aIn 128 0 255 [] 0 .no false false,
  row 0x2018 0x2018 5 5 .u8 aIn 0 0 2 [] 0 .no false false,
  row 0x2018 0x2018 6 6 .i8 aIn (-3) (-7) 0 [] 0 .no false false,
  row 0x2018 0x2018 7 7 .i8 aIn 0 (-3) 3 [] 0 .no false false ]

/-- Objects 0x2000-0x20FF, part 2. -/
def objs20b : List ObjRow := [
  row 0x2018 0x2018 8 8 .u8 aRo 160 0 255 [] 0 .no false false,
  row 0x2040 0x2040 1 1 .u32 aWWWW 0 0 131071 [] 0 .no false false,
  row 0x2040 0x2040 2 2 .u64 aRo 0 0 18446744073709551615 [] 0 .no false false,
  row 0x2040 0x2040 3 3 .u64 aNOOO 0 0 18446744073709551615 [] 0 .no false false,
  row 0x2040 0x2040 4 4 .u64 aNOOO 0 1 18446744073709551615 [] 0 .no false false,
  row 0x2040 0x2040 5 5 .stamp48 aRWWW 0 0 281474976710655 [] 0 .no false false,
  row 0x2040 0x2040 6 6 .bool aRWWW 0 0 1 [] 0 .no false false,
  row 0x2040 0x2040 7 7 .bool aNOOO 0 1 1 [] 0 .no false false,
  row 0x2040 0x2040 8 8 .u16 aRo 0 0 65535 [] 0 .no false false,
  row 0x2041 0x2041 1 1 .u32 aNWWW 0 0 131071 [] 0 .no false false,
  row 0x2041 0x2041 2 2 .u64 aNWWW 0 0 18446744073709551615 [] 0 .no false false,
  row 0x2041 0x2041 3 3 .u8 aNWWW 0 0 2 [] 0 .no false false,
  row 0x2041 0x2041 4 4 .u64 aNWWW 0 0 18446744073709551615 [] 0 .no false false,
  row 0x2041 0x2041 5 5 .bool aNOOO 0 1 1 [] 0 .no false false,
  row 0x2041 0x2041 6 6 .u16 aNRRR 0 0 65535 [] 0 .no false false,
  row 0x2041 0x2041 7 7 .u16 aNOOO 0 0 16383 [] 0 .no false false,
  row 0x2042 0x2042 1 1 .u32 aRo 131072 0 4294967295 [] 0 .no false false,
  row 0x2042 0x2042 2 2 .u16 aRo 16384 0 65535 [] 0 .no false false,
  row 0x2042 0x2042 3 3 .u16 aRo 16384 0 65535 [] 0 .no false false,
  row 0x2042 0x2042 4 4 .u32 aRo 0 0 4294967295 [] 0 .no false false,
  row 0x2042 0x2042 5 5 .u32 aRo 0 0 4294967295 [] 0 .no false false ]

/-- Objects 0x2100-0x21FF, part 1. -/
def objs21a : List ObjRow := [
  row 0x2100 0x2100 1 1 .u8 aRo 0 0 255 [] 0 .no false false,
  row 0x2100 0x2100 2 2 .bool aRo 0 0 1 [] 0 .no false false,
  row 0x2100 0x2100 3 3 .u32 aRo 49152000 0 4294967295 [] 0 .no false false,
  row 0x2100 0x2100 4 4 .i32 aRo 0 (-2147483648) 2147483647 [] 0 .no false false,
  row 0x2101 0x2101 1 1 .u8 aRo 10 0 255 [] 0 .no false false,
  row 0x2101 0x2101 2 2 .u8 aRo 2 0 255 [] 0 .no false false,
  row 0x2101 0x2101 3 3 .u8 aRo 3 0 255 [] 0 .no false false,
  row 0x2101 0x2101 4 4 .u8 aRo 4 0 255 [] 0 .no false false,
  row 0x2101 0x2101 5 5 .u8 aRo 2 0 255 [] 0 .no false false,
  row 0x2101 0x2101 6 6 .u8 aRo 4 0 255 [] 0 .no false false,
  row 0x2101 0x2101 7 8 .u8 aRo 6 0 255 [] 0 .no false false,
  row 0x2101 0x2101 9 9 .u8 aRo 8 0 255 [] 0 .no false false,
  row 0x2101 0x2101 10 10 .u8 aRo 24 0 255 [] 0 .no false false,
  row 0x2101 0x2101 11 12 .u8 aRo 4 0 255 [] 0 .no false false,
  row 0x2101 0x2101 13 13 .u8 aRo 5 0 255 [] 0 .no false false,
  row 0x2101 0x2101 14 14 .u8 aRo 100 0 255 [] 0 .no false false,
  row 0x2101 0x2101 15 15 .u8 aRo 20 0 255 [] 0 .no false false,
  row 0x2101 0x2101 16 16 .u8 aRo 5 0 255 [] 0 .no false false,
  row 0x2101 0x2101 17 17 .u8 aRo 8 0 255 [] 0 .no false false,
  row 0x2101 0x2101 18 21 .u8 aRo 2 0 255 [] 0 .no false false,
  row 0x2101 0x2101 22 25 .u8 aRo 3 0 255 [] 0 .no false false,
  row 0x2102 0x2102 1 25 .u8 aRo 0 0 255 [] 0 .no false false,
  row 0x2110 0x2110 1 1 .u8 aIn 0 0 1 [] 0 .no false false,
  row 0x2110 0x2110 2 2 .u16 aIn 300 0 3600 [] 0 .no false false,
  row 0x2110 0x2110 3 3 .u8 aRo 0 0 255 [] 0 .no false false,
  row 0x2110 0x2110 4 4 .u8 aRo 0 0 255 [] 0 .no false false,
  row 0x2110 0x2110 5 5 .i32 aRo 0 (-2147483648) 2147483647 [] 0 .no false false,
  row 0x2110 0x2110 6 6 .u32 aIn 100 10 100000 [] 0 .no false false,
  row 0x2110 0x2110 7 7 .u16 aIn 100 1 10000 [] 0 .no false false,
  row 0x2110 0x2110 8 8 .u32 aIn 100 1 100000 [] 0 .no false false,
  row 0x2110 0x2110 9 9 .stamp48 aRo 0 0 281474976710655 [] 0 .no false false,
  row 0x2111 0x2111 1 1 .u8 aIn 2 0 5 [255] 0 .no false false,
  row 0x2111 0x2111 2 2 .u8 aIn 3 0 5 [255] 0 .no false false,
  row 0x2111 0x2111 3 3 .u8 aIn 1 0 5 [255] 0 .no false false,
  row 0x2111 0x2111 4 6 .u8 aIn 255 0 5 [255] 0 .no false false,
  row 0x2112 0x2112 1 1 .bool aIn 0 0 1 [] 0 .no false false,
  row 0x2112 0x2112 2 2 .u8 aRo 3 0 255 [] 0 .no false false,
  row 0x2112 0x2117 3 3 .u16 aIn 10 1 600 [] 0 .no false false,
  row 0x2112 0x2117 4 4 .u16 aIn 50 1 100 [] 0 .no false false,
  row 0x2112 0x2117 5 5 .i32 aRo 0 (-2147483648) 2147483647 [] 0 .no false false ]

/-- Objects 0x2100-0x21FF, part 2. -/
def objs21b : List ObjRow := [
  row 0x2112 0x2117 6 6 .u16 aRo 0 0 65535 [] 0 .no false false,
  row 0x2113 0x2115 1 1 .bool aIn 1 0 1 [] 0 .no false false,
  row 0x2113 0x2115 2 2 .u8 aRo 1 0 255 [] 0 .no false false,
  row 0x2116 0x2117 1 1 .bool aIn 0 0 1 [] 0 .no false false,
  row 0x2116 0x2117 2 2 .u8 aRo 0 0 255 [] 0 .no false false,
  row 0x2116 0x2117 7 7 .u32 aIn 48000 44100 96000 [] 0 .no false false,
  row 0x2120 0x2120 1 1 .u8 aRRWR 0 0 1 [] 0 .no false false,
  row 0x2120 0x2120 2 2 .i32 aNNWN 0 (-6553600) 6553600 [] 0 .no false false,
  row 0x2120 0x2120 3 3 .u8 aRRWR 2 1 5 [] 0 .no false false,
  row 0x2120 0x2120 4 4 .i64 aRo 0 (-9223372036854775808) 9223372036854775807 [] 0 .no false false,
  row 0x2120 0x2120 5 5 .stamp48 aRo 0 0 281474976710655 [] 0 .no false false,
  row 0x2120 0x2120 6 6 .u32 aRo 0 0 4294967295 [] 0 .no false false,
  row 0x2130 0x213b 3 3 .u32 aIn 1 1 1000000 [] 0 .pourable false false,
  row 0x2130 0x213c 1 1 .u8 aIn 0 0 1 [] 0 .pourable false false,
  row 0x2130 0x213c 2 2 .i32 aIn 0 (-500000000) 500000000 [] 0 .pourable false false,
  row 0x2130 0x213c 4 4 .u32 aIn 1000000 8 999000000 [] 0 .pourable false false,
  row 0x2130 0x213c 5 5 .u8 aIn 0 0 1 [] 0 .pourable false false,
  row 0x2130 0x213c 6 6 .u32 aIn 0 0 4294967295 [] 0 .pourable false false,
  row 0x2130 0x213c 7 7 .stamp48 aRWWR 0 0 281474976710655 [] 0 .no false false,
  row 0x2130 0x213c 8 8 .bool aNOON 0 1 1 [] 0 .no false false,
  row 0x2130 0x213c 9 9 .bool aNOON 0 1 1 [] 0 .no false false,
  row 0x2130 0x213c 10 10 .u8 aRo 0 0 255 [] 0 .no false false,
  row 0x2130 0x213c 11 11 .stamp48 aRo 0 0 281474976710655 [] 0 .no false false,
  row 0x2130 0x213c 12 12 .u32 aRo 0 0 4294967295 [] 0 .no false false,
  row 0x213c 0x213c 3 3 .u32 aRo 1 1 1000000 [] 0 .no false false,
  row 0x2140 0x2140 1 1 .stamp48 aRo 0 0 281474976710655 [] 0 .no false false,
  row 0x2140 0x2140 2 2 .u32 aRo 1000000000 0 4294967295 [] 0 .no false false,
  row 0x2140 0x2140 3 3 .u8 aIn 0 0 1 [] 0 .no false false,
  row 0x2140 0x2140 4 4 .u32 aRo 0 0 4294967295 [] 0 .no false false,
  row 0x2150 0x2150 1 6 .u8 aRo 0 0 255 [] 0 .no false false,
  row 0x2160 0x2160 1 1 .u16 aIn 50 1 1000 [] 0 .no false false,
  row 0x2160 0x2160 2 2 .u32 aRo 0 0 4294967295 [] 0 .no false false,
  row 0x2160 0x2160 3 3 .u32 aRo 0 0 4294967295 [] 0 .no false false ]

/-- Objects 0x2200-0x22FF, part 1. -/
def objs22a : List ObjRow := [
  row 0x2200 0x2200 1 1 .u16 aIn 64 1 1024 [] 0 .no false false,
  row 0x2200 0x2200 2 2 .u16 aIn 100 1 10000 [] 0 .no false false,
  row 0x2200 0x2200 3 3 .u8 aRo 0 0 255 [] 0 .no false false,
  row 0x2200 0x2200 4 4 .u32 aRo 0 0 4294967295 [] 0 .no false false,
  row 0x2200 0x2200 5 5 .u32 aRo 0 0 4294967295 [] 0 .no false false,
  row 0x2200 0x2200 6 6 .u32 aRo 0 0 4294967295 [] 0 .no false false,
  row 0x2200 0x2200 7 7 .u32 aRo 0 0 4294967295 [] 0 .no false false,
  row 0x2201 0x2201 1 1 .u8 aRo 0 0 255 [] 0 .no false false,
  row 0x2201 0x2201 2 2 .u8 aRo 1 0 255 [] 0 .no false false,
  row 0x2201 0x2201 3 6 .u32 aRo 0 0 4294967295 [] 0 .no false false,
  row 0x2201 0x2201 7 10 .u16 aRo 65535 0 65535 [] 0 .no false false,
  row 0x2202 0x2202 1 1 .u16 aWWWW 0 1 65535 [] 0 .no false false,
  row 0x2202 0x2202 2 2 .u8 aRo 0 0 255 [] 0 .no false false,
  row 0x2202 0x2202 3 3 .stamp48 aRo 0 0 281474976710655 [] 0 .no false false,
  row 0x2202 0x2202 4 4 .u8 aRo 255 0 255 [] 0 .no false false,
  row 0x2202 0x2202 5 5 .u8 aRo 255 0 255 [] 0 .no false false,
  row 0x2202 0x2202 6 6 .u16 aRo 0 0 65535 [] 0 .no false false,
  row 0x2202 0x2202 7 7 .stamp48 aRo 0 0 281474976710655 [] 0 .no false false,
  row 0x2202 0x2202 8 8 .domain aRo 0 0 2048 [] 0 .no false false,
  row 0x2202 0x2202 9 9 .u16 aNOOO 0 1 65535 [] 0 .no false false,
  row 0x2240 0x227f 1 1 .u8 aRo 0 0 255 [] 0 .no false false,
  row 0x2240 0x227f 2 2 .u8 aRo 255 0 255 [] 0 .no false false,
  row 0x2240 0x227f 3 3 .u16 aRo 0 0 65535 [] 0 .no false false,
  row 0x2240 0x227f 4 4 .stamp48 aRo 0 0 281474976710655 [] 0 .no false false,
  row 0x2240 0x227f 5 5 .domain aRo 0 0 16384 [] 0 .no false false,
  row 0x2240 0x227f 6 6 .bool aNOON 0 1 1 [] 0 .no false false ]

/-- Objects 0x3000-0x30FF, part 1. -/
def objs30a : List ObjRow := [
  row 0x3000 0x301f 1 1 .u8 aRwp 0 0 5 [] 0 .generation true false,
  row 0x3000 0x301f 2 2 .u16 aRwp 0 0 65535 [] 0 .generation true false,
  row 0x3000 0x301f 3 3 .bool aRwp 0 0 1 [] 0 .pourable false false,
  row 0x3000 0x301f 4 4 .u8 aRwp 0 0 255 [] 31 .generation true false,
  row 0x3000 0x301f 5 5 .u16 aRwp 0 0 4095 [] 0 .generation true false,
  row 0x3000 0x301f 6 6 .u8 aRwp 0 0 1 [] 0 .pourable false false,
  row 0x3000 0x301f 7 7 .u8 aRwp 0 0 1 [] 0 .pourable false false,
  row 0x3000 0x301f 8 8 .u32 aRwp 1000 1 100000 [] 0 .pourable false false,
  row 0x3000 0x301f 9 9 .u32 aRwp 100000 100 10000000 [] 0 .pourable false false,
  row 0x3000 0x301f 10 10 .u32 aRo 0 0 4294967295 [] 0 .no false false,
  row 0x3000 0x301f 11 11 .u8 aRo 0 0 255 [] 0 .no false false,
  row 0x3000 0x301f 16 16 .u8 aRwp 0 0 1 [] 0 .kind false false,
  row 0x3000 0x301f 17 17 .u8 aRwp 32 16 64 [] 0 .kind false false,
  row 0x3000 0x301f 18 18 .u32 aRwp 1000000 1 4000000000 [] 0 .kind false false,
  row 0x3000 0x301f 19 19 .u16 aRwp 16 4 1024 [] 0 .kind false false,
  row 0x3000 0x301f 20 20 .u32 aRwp 0 0 100000000 [] 0 .kind false false,
  row 0x3000 0x301f 21 21 .u32 aRwp 1000000 1000 1000000000 [] 0 .kind false false,
  row 0x3000 0x301f 22 22 .u8 aRo 0 0 255 [] 0 .no false false,
  row 0x3000 0x301f 23 23 .i64 aRo 0 (-9223372036854775808) 9223372036854775807 [] 0 .no false false,
  row 0x3000 0x301f 24 24 .i32 aRo 0 (-2147483648) 2147483647 [] 0 .no false false,
  row 0x3000 0x301f 25 25 .u64 aRo 0 0 18446744073709551615 [] 0 .no false false,
  row 0x3000 0x301f 26 26 .u32 aRo 0 0 4294967295 [] 0 .no false false,
  row 0x3000 0x301f 32 43 .u32 aRwp 0 0 4294967295 [] 0 .kind false false,
  row 0x3000 0x301f 48 48 .u64 aRo 0 0 18446744073709551615 [] 0 .no false false,
  row 0x3000 0x301f 49 49 .u32 aRo 0 0 4294967295 [] 0 .no false false,
  row 0x3000 0x301f 50 50 .u32 aRo 0 0 4294967295 [] 0 .no false false,
  row 0x3000 0x301f 51 51 .u32 aRo 0 0 4294967295 [] 0 .no false false,
  row 0x3000 0x301f 52 52 .u32 aRo 0 0 4294967295 [] 0 .no false false,
  row 0x3000 0x301f 53 53 .u32 aRo 0 0 4294967295 [] 0 .no false false,
  row 0x3000 0x301f 54 54 .u32 aRo 0 0 4294967295 [] 0 .no false false,
  row 0x3000 0x301f 55 55 .stamp48 aRo 0 0 281474976710655 [] 0 .no false false,
  row 0x3000 0x301f 56 56 .u32 aRo 0 0 4294967295 [] 0 .no false false,
  row 0x3000 0x301f 57 57 .u8 aRo 0 0 255 [] 0 .no false false ]

/-- Objects 0x3200-0x32FF, part 1. -/
def objs32a : List ObjRow := [
  row 0x3200 0x3200 1 1 .u32 aIn 1000000 250000 10000000 [] 0 .no false false,
  row 0x3200 0x3200 2 2 .u64 aRo 0 0 18446744073709551615 [] 0 .no false false,
  row 0x3200 0x3200 3 3 .u16 aIn 65535 0 4095 [65535] 0 .no false false,
  row 0x3200 0x3200 4 4 .u32 aIn 20000 100 1000000 [] 0 .no false false,
  row 0x3200 0x3200 5 5 .u32 aIn 1000 0 100000 [] 0 .no false false,
  row 0x3200 0x3200 6 6 .u32 aIn 20000 0 1000000 [] 0 .no false false,
  row 0x3200 0x3200 7 7 .u8 aRo 0 0 255 [] 0 .no false false,
  row 0x3200 0x3200 8 8 .stamp48 aRo 0 0 281474976710655 [] 0 .no false false,
  row 0x3200 0x3200 9 9 .u32 aRo 0 0 4294967295 [] 0 .no false false,
  row 0x3200 0x3200 10 10 .bool aIn 0 0 1 [] 0 .pourable false false,
  row 0x3200 0x3200 11 11 .u16 aIn 65535 0 4095 [65535] 0 .pourable false false,
  row 0x3200 0x3200 12 12 .u32 aIn 2000 0 100000 [] 0 .pourable false false,
  row 0x3200 0x3200 13 13 .u32 aIn 5000 100 1000000 [] 0 .pourable false false,
  row 0x3200 0x3200 14 14 .u16 aRo 0 0 65535 [] 0 .no false false,
  row 0x3201 0x3201 1 1 .u8 aIn 0 0 2 [] 0 .no false false,
  row 0x3210 0x3217 1 1 .u8 aIn 255 0 31 [255] 0 .pourable false false,
  row 0x3210 0x3217 2 2 .u32 aIn 0 0 4294967295 [] 262143 .pourable false false,
  row 0x3210 0x3217 3 3 .q32 aIn 0 (-2147483648) 2147483647 [] 0 .pourable false false,
  row 0x3210 0x3217 4 4 .q32 aIn 0 (-2147483648) 2147483647 [] 0 .pourable false false,
  row 0x3210 0x3217 5 5 .u8 aRo 0 0 255 [] 0 .no false false,
  row 0x3220 0x3223 1 1 .bool aIn 0 0 1 [] 0 .pourable false false,
  row 0x3220 0x3223 2 2 .u8 aIn 0 0 1 [] 0 .pourable false false,
  row 0x3220 0x3223 3 3 .u16 aIn 512 64 1024 [] 0 .pourable false false,
  row 0x3220 0x3223 4 4 .u16 aIn 512 64 1024 [] 0 .pourable false false,
  row 0x3220 0x3223 5 5 .u16 aIn 50 20 200 [] 0 .pourable false false,
  row 0x3220 0x3223 6 6 .u8 aIn 10 1 100 [] 0 .pourable false false,
  row 0x3220 0x3223 7 7 .u32 aIn 0 0 4294967295 [] 0 .pourable false false,
  row 0x3220 0x3223 8 8 .u8 aIn 224 0 255 [] 0 .pourable false false,
  row 0x3220 0x3223 9 9 .u32 aIn 2000 0 100000 [] 0 .pourable false false,
  row 0x3220 0x3223 10 10 .i16 aIn 0 (-32768) 32767 [] 0 .pourable false false,
  row 0x3220 0x3223 11 11 .i16 aIn 100 (-32768) 32767 [] 0 .pourable false false,
  row 0x3220 0x3223 12 12 .i16 aIn 200 (-32768) 32767 [] 0 .pourable false false,
  row 0x3220 0x3223 13 13 .i16 aIn 400 (-32768) 32767 [] 0 .pourable false false,
  row 0x3220 0x3223 14 14 .i16 aIn 800 (-32768) 32767 [] 0 .pourable false false,
  row 0x3220 0x3223 15 15 .i16 aIn 1200 (-32768) 32767 [] 0 .pourable false false,
  row 0x3220 0x3223 16 16 .i16 aIn 1600 (-32768) 32767 [] 0 .pourable false false,
  row 0x3220 0x3223 17 17 .i16 aIn 2000 (-32768) 32767 [] 0 .pourable false false,
  row 0x3220 0x3223 18 18 .i16 aIn 2400 (-32768) 32767 [] 0 .pourable false false,
  row 0x3220 0x3223 32 32 .u16 aIn 65535 0 4095 [65535] 0 .pourable false false,
  row 0x3220 0x3223 33 33 .u32 aRo 0 0 4294967295 [] 0 .no false false ]

/-- Objects 0x3200-0x32FF, part 2. -/
def objs32b : List ObjRow := [
  row 0x3220 0x3223 34 34 .u16 aRo 0 0 65535 [] 0 .no false false,
  row 0x3220 0x3223 35 35 .stamp48 aRo 0 0 281474976710655 [] 0 .no false false,
  row 0x3220 0x3223 36 36 .u64 aRo 0 0 18446744073709551615 [] 0 .no false false,
  row 0x3220 0x3223 37 37 .u64 aRo 0 0 18446744073709551615 [] 0 .no false false,
  row 0x3220 0x3223 38 38 .u32 aRo 0 0 4294967295 [] 0 .no false false,
  row 0x3220 0x3223 39 39 .u32 aRo 0 0 4294967295 [] 0 .no false false,
  row 0x3220 0x3223 40 40 .u32 aRo 0 0 4294967295 [] 0 .no false false,
  row 0x3220 0x3223 41 41 .u32 aRo 0 0 4294967295 [] 0 .no false false,
  row 0x3240 0x325f 1 3 .i32 aRwp 0 (-2147483648) 2147483647 [] 0 .pourable false false,
  row 0x3240 0x325f 4 4 .q32 aRwp 1073741824 (-2147483648) 2147483647 [] 0 .pourable false false,
  row 0x3240 0x325f 5 7 .q32 aRwp 0 (-2147483648) 2147483647 [] 0 .pourable false false ]

/-- Objects 0x3400-0x34FF, part 1. -/
def objs34a : List ObjRow := [
  row 0x3400 0x3400 1 1 .u8 aRo 0 0 255 [] 0 .no false false,
  row 0x3400 0x3400 2 2 .u8 aRo 0 0 255 [] 0 .no false false,
  row 0x3400 0x3400 3 3 .u64 aRo 8589934592 0 18446744073709551615 [] 0 .no false false,
  row 0x3400 0x3400 4 4 .u64 aRo 8589934592 0 18446744073709551615 [] 0 .no false false,
  row 0x3400 0x3400 5 8 .u32 aRo 41943040 0 4294967295 [] 0 .no false false,
  row 0x3400 0x3400 9 9 .u8 aRo 0 0 255 [] 0 .no false false,
  row 0x3408 0x340f 1 1 .u8 aRo 0 0 255 [] 0 .no false false,
  row 0x3408 0x340f 2 2 .u8 aRo 255 0 255 [] 0 .no false false,
  row 0x3408 0x340f 3 3 .u64 aRo 0 0 18446744073709551615 [] 0 .no false false,
  row 0x3408 0x340f 4 4 .u8 aRo 0 0 255 [] 0 .no false false,
  row 0x3408 0x340f 5 5 .u32 aRo 0 0 4294967295 [] 0 .no false false,
  row 0x3420 0x343f 1 1 .u8 aRo 0 0 255 [] 0 .no false false,
  row 0x3420 0x343f 2 2 .u32 aRo 0 0 4294967295 [] 0 .no false false,
  row 0x3420 0x343f 3 3 .u8 aRwp 0 0 1 [] 0 .no false false,
  row 0x3420 0x343f 4 4 .u64 aRwp 0 0 18446744073709551615 [] 0 .no false false,
  row 0x3420 0x343f 5 5 .bool aRwp 0 0 1 [] 0 .no false false,
  row 0x3420 0x343f 6 6 .bool aNOON 0 1 1 [] 0 .no false false,
  row 0x3420 0x343f 7 7 .bool aNOON 0 1 1 [] 0 .no false false,
  row 0x3420 0x343f 8 8 .u8 aRo 0 0 255 [] 0 .no false false,
  row 0x3420 0x343f 9 9 .u8 aRwp 255 0 255 [] 0 .no false false,
  row 0x3420 0x343f 10 10 .u8 aRo 0 0 255 [] 0 .no false false,
  row 0x3420 0x343f 16 16 .bool aRwp 0 0 1 [] 0 .pourable false false,
  row 0x3420 0x343f 17 20 .u16 aRwp 0 0 65535 [] 0 .pourable false false,
  row 0x3420 0x343f 21 21 .u16 aRwp 65535 0 4095 [65535] 0 .pourable false false,
  row 0x3420 0x343f 22 22 .u32 aRwp 100000 100 10000000 [] 0 .pourable false false,
  row 0x3420 0x343f 23 23 .u8 aRwp 0 0 7 [] 0 .pourable false false,
  row 0x3420 0x343f 24 24 .u8 aRwp 2 1 16 [] 0 .pourable false false,
  row 0x3420 0x343f 25 25 .bool aRwp 1 0 1 [] 0 .pourable false false,
  row 0x3420 0x343f 26 26 .u32 aRwp 50000 0 1000000 [] 0 .pourable false false,
  row 0x3420 0x343f 32 32 .u8 aRo 0 0 255 [] 0 .no false false,
  row 0x3420 0x343f 33 33 .u64 aRo 0 0 18446744073709551615 [] 0 .no false false,
  row 0x3420 0x343f 34 34 .u32 aRo 0 0 4294967295 [] 0 .no false false,
  row 0x3420 0x343f 35 35 .u32 aRo 0 0 4294967295 [] 0 .no false false,
  row 0x3420 0x343f 36 36 .u32 aRo 0 0 4294967295 [] 0 .no false false,
  row 0x3420 0x343f 37 37 .stamp48 aRo 0 0 281474976710655 [] 0 .no false false,
  row 0x3420 0x343f 38 38 .stamp48 aRo 0 0 281474976710655 [] 0 .no false false,
  row 0x3420 0x343f 39 39 .u32 aRo 0 0 4294967295 [] 0 .no false false ]

/-- Objects 0x3600-0x36FF, part 1. -/
def objs36a : List ObjRow := [
  row 0x3600 0x3600 1 1 .u8 aRo 0 0 255 [] 0 .no false false,
  row 0x3600 0x3600 2 2 .u16 aRo 0 0 65535 [] 0 .no false false,
  row 0x3600 0x3600 3 3 .stamp48 aRo 0 0 281474976710655 [] 0 .no false false,
  row 0x3600 0x3600 4 4 .bool aNNOO 0 1 1 [] 0 .no false false,
  row 0x3600 0x3600 5 5 .u32 aRo 0 0 4294967295 [] 0 .no false false,
  row 0x3600 0x3600 6 6 .u8 aRo 0 0 255 [] 0 .no false false,
  row 0x3600 0x3600 7 7 .bool aNNNO 0 1 1 [] 0 .no false false,
  row 0x3600 0x3600 8 8 .u16 aSf 200 50 500 [] 0 .no false false,
  row 0x3600 0x3600 9 9 .u16 aSf 100 10 1000 [] 0 .no false false,
  row 0x3600 0x3600 10 10 .u16 aSf 50 10 200 [] 0 .no false false,
  row 0x3600 0x3600 11 11 .u32 aSf 10000 2000 100000 [] 0 .no false false,
  row 0x3600 0x3600 12 12 .u32 aSf 2000 0 20000 [] 0 .no false false,
  row 0x3600 0x3600 13 13 .u32 aSf 50000 1000 200000 [] 0 .no false false,
  row 0x3600 0x3600 14 14 .u16 aSf 1000 100 10000 [] 0 .no false false,
  row 0x3600 0x3600 15 15 .u16 aSf 50 1 1000 [] 0 .no false false,
  row 0x3600 0x3600 16 16 .u32 aRo 0 0 4294967295 [] 0 .no false false,
  row 0x3600 0x3600 17 17 .u32 aRo 0 0 4294967295 [] 0 .no false false,
  row 0x3610 0x3617 1 1 .bool aSf 0 0 1 [] 0 .no false false,
  row 0x3610 0x3617 2 2 .u8 aSf 0 0 1 [] 0 .no false false,
  row 0x3610 0x3617 3 3 .u8 aRo 0 0 255 [] 0 .no false false,
  row 0x3610 0x3617 4 4 .u8 aRo 0 0 255 [] 0 .no false false,
  row 0x3610 0x3617 5 5 .bool aSf 1 0 1 [] 0 .no false false,
  row 0x3610 0x3617 6 6 .u8 aSf 1 0 1 [] 0 .no false false,
  row 0x3610 0x3617 7 7 .u8 aSf 3 1 100 [] 0 .no false false,
  row 0x3610 0x3617 8 8 .bool aNNOO 0 1 1 [] 0 .no false false,
  row 0x3610 0x3617 9 9 .u32 aSf 0 0 4294967295 [] 0 .no false false,
  row 0x3610 0x3617 10 10 .u8 aSf 0 0 15 [] 0 .pourable false false,
  row 0x3610 0x3617 11 11 .u8 aSf 255 0 31 [255] 0 .pourable false false,
  row 0x3610 0x3617 12 12 .u32 aSf 0 0 4294967295 [] 4294901763 .pourable false false,
  row 0x3610 0x3617 13 13 .u16 aSf 0 0 65535 [] 0 .pourable false false,
  row 0x3610 0x3617 14 14 .u8 aSf 255 0 3 [255] 0 .pourable false false,
  row 0x3610 0x3617 15 16 .i32 aSf 0 (-2147483648) 2147483647 [] 0 .pourable false false,
  row 0x3610 0x3617 17 17 .u16 aSf 4000 100 20000 [] 0 .pourable false false,
  row 0x3610 0x3617 18 18 .u16 aSf 100 0 1000 [] 0 .pourable false false,
  row 0x3610 0x3617 19 19 .u16 aSf 200 1 10000 [] 0 .pourable false false,
  row 0x3610 0x3617 20 20 .u32 aSf 100000 1000 1000000 [] 0 .pourable false false,
  row 0x3610 0x3617 21 21 .u16 aRo 0 0 65535 [] 0 .no false false,
  row 0x3610 0x3617 22 22 .bool aRo 0 0 1 [] 0 .no false false,
  row 0x3610 0x3617 23 23 .u16 aRo 65535 0 65535 [] 0 .no false false,
  row 0x3610 0x3617 24 24 .stamp48 aRo 0 0 281474976710655 [] 0 .no false false ]

/-- Objects 0x3600-0x36FF, part 2. -/
def objs36b : List ObjRow := [
  row 0x3610 0x3617 25 30 .u32 aRo 0 0 4294967295 [] 0 .no false false,
  row 0x3610 0x3617 31 31 .u32 aRo 0 0 4294967295 [] 0 .no false false,
  row 0x3640 0x364f 1 1 .domain aRROO 0 308 308 [] 0 .no false true,
  row 0x3640 0x364f 2 2 .bool aRo 0 0 1 [] 0 .no false false,
  row 0x3640 0x364f 3 3 .u32 aRo 0 0 4294967295 [] 0 .no false false,
  row 0x3660 0x367f 1 3 .i32 aSf 0 (-2147483648) 2147483647 [] 0 .no false false,
  row 0x3660 0x367f 4 4 .q32 aSf 1073741824 (-2147483648) 2147483647 [] 0 .no false false,
  row 0x3660 0x367f 5 7 .q32 aSf 0 (-2147483648) 2147483647 [] 0 .no false false ]

/-- Objects 0x3800-0x38FF, part 1. -/
def objs38a : List ObjRow := [
  row 0x3800 0x3800 1 1 .u8 aRo 0 0 255 [] 0 .no false false,
  row 0x3800 0x3800 2 2 .u64 aRo 2147483648 0 18446744073709551615 [] 0 .no false false,
  row 0x3800 0x3800 3 3 .u64 aRo 2147483648 0 18446744073709551615 [] 0 .no false false,
  row 0x3800 0x3800 4 4 .u64 aRo 0 0 18446744073709551615 [] 0 .no false false,
  row 0x3800 0x3800 5 5 .u64 aRo 0 0 18446744073709551615 [] 0 .no false false,
  row 0x3800 0x3800 6 6 .u8 aRo 0 0 255 [] 0 .no false false,
  row 0x3840 0x387f 1 1 .domain aRwp 0 328 1636 [] 0 .no false false,
  row 0x3840 0x387f 2 2 .u8 aRo 0 0 255 [] 0 .no false false,
  row 0x3840 0x387f 3 3 .u8 aRo 0 0 255 [] 0 .no false false,
  row 0x3840 0x387f 4 4 .bool aRwp 0 0 1 [] 0 .pourable false false,
  row 0x3840 0x387f 5 5 .u16 aRwp 65535 0 4095 [65535] 0 .pourable false false,
  row 0x3840 0x387f 6 6 .u16 aRwp 65535 0 4095 [65535] 0 .pourable false false,
  row 0x3840 0x387f 7 7 .u32 aRwp 256 0 2147483646 [] 0 .pourable false false,
  row 0x3840 0x387f 8 8 .u32 aRwp 65536 1 2147483647 [] 0 .pourable false false,
  row 0x3840 0x387f 9 9 .u8 aRwp 1 0 3 [] 0 .pourable false false,
  row 0x3840 0x387f 10 10 .u16 aRwp 65535 0 4095 [65535] 0 .pourable false false,
  row 0x3840 0x387f 11 11 .u8 aRwp 0 0 19 [] 0 .pourable false false,
  row 0x3840 0x387f 12 12 .u8 aRo 0 0 255 [] 0 .no false false,
  row 0x3840 0x387f 13 28 .u8 aRo 0 0 255 [] 0 .no false false,
  row 0x3840 0x387f 32 32 .u64 aRo 0 0 18446744073709551615 [] 0 .no false false,
  row 0x3840 0x387f 33 33 .u32 aRo 0 0 4294967295 [] 0 .no false false,
  row 0x3840 0x387f 34 34 .u32 aRo 0 0 4294967295 [] 0 .no false false,
  row 0x3840 0x387f 35 35 .u64 aRo 0 0 18446744073709551615 [] 0 .no false false,
  row 0x3840 0x387f 36 36 .u32 aRo 0 0 4294967295 [] 0 .no false false,
  row 0x3840 0x387f 37 37 .stamp48 aRo 0 0 281474976710655 [] 0 .no false false,
  row 0x3840 0x387f 38 38 .stamp48 aRo 0 0 281474976710655 [] 0 .no false false,
  row 0x3840 0x387f 39 39 .u32 aRo 0 0 4294967295 [] 0 .no false false,
  row 0x3840 0x387f 40 40 .u32 aRo 0 0 4294967295 [] 0 .no false false,
  row 0x3840 0x387f 41 41 .u32 aRo 0 0 4294967295 [] 0 .no false false ]

/-- Objects 0x4000-0x40FF, part 1. -/
def objs40a : List ObjRow := [
  row 0x4000 0x4000 1 1 .u8 aIn 0 0 1 [] 0 .no false false,
  row 0x4000 0x4000 2 2 .u8 aRo 1 0 255 [] 0 .no false false,
  row 0x4001 0x4001 1 1 .bool aRo 1 0 1 [] 0 .no false false,
  row 0x4001 0x4003 2 2 .u32 aIn 48000 16000 96000 [] 0 .no false false,
  row 0x4001 0x4003 3 3 .u8 aIn 0 0 2 [] 0 .no false false,
  row 0x4001 0x4003 4 4 .u16 aIn 65535 0 4095 [65535] 0 .pourable false false,
  row 0x4001 0x4003 5 5 .u8 aRo 0 0 255 [] 0 .no false false,
  row 0x4001 0x4003 6 6 .u32 aRo 0 0 4294967295 [] 0 .no false false,
  row 0x4002 0x4003 1 1 .bool aIn 0 0 1 [] 0 .no false false,
  row 0x4010 0x4017 32 32 .u8 aIn 0 0 1 [] 0 .no false false,
  row 0x4010 0x4017 33 33 .u8 aIn 0 0 2 [] 0 .no false false,
  row 0x4010 0x4017 34 34 .u8 aIn 24 16 32 [] 0 .no false false,
  row 0x4010 0x4017 35 35 .u8 aIn 32 16 32 [] 0 .no false false,
  row 0x4010 0x402f 1 1 .bool aIn 0 0 1 [] 0 .no false false,
  row 0x4010 0x402f 2 2 .u8 aIn 1 0 255 [] 3 .no false false,
  row 0x4010 0x402f 3 3 .u32 aIn 48000 16000 96000 [] 0 .no false false,
  row 0x4010 0x402f 4 4 .u8 aIn 0 0 2 [] 0 .no false false,
  row 0x4010 0x402f 5 5 .u8 aIn 0 0 1 [] 0 .no false false,
  row 0x4010 0x402f 6 6 .u8 aIn 0 0 1 [] 0 .pourable false false,
  row 0x4010 0x402f 7 7 .u8 aIn 0 0 1 [] 0 .pourable false false,
  row 0x4010 0x402f 8 8 .u16 aIn 65535 0 4095 [65535] 0 .pourable false false,
  row 0x4010 0x402f 9 9 .stamp48 aRWWR 0 0 281474976710655 [] 0 .no false false,
  row 0x4010 0x402f 10 10 .bool aNOON 0 1 1 [] 0 .no false false,
  row 0x4010 0x402f 11 11 .bool aNOON 0 1 1 [] 0 .no false false,
  row 0x4010 0x402f 12 12 .u8 aRo 0 0 255 [] 0 .no false false,
  row 0x4010 0x402f 13 13 .u8 aRo 0 0 255 [] 0 .no false false,
  row 0x4010 0x402f 14 14 .u8 aRo 0 0 255 [] 0 .no false false,
  row 0x4010 0x402f 15 16 .u16 aRo 0 0 65535 [] 0 .no false false,
  row 0x4010 0x402f 17 17 .u32 aRo 0 0 4294967295 [] 0 .no false false,
  row 0x4010 0x402f 18 18 .u32 aRo 0 0 4294967295 [] 0 .no false false,
  row 0x4010 0x402f 19 19 .u32 aRo 0 0 4294967295 [] 0 .no false false,
  row 0x4010 0x402f 20 20 .u32 aRo 0 0 4294967295 [] 0 .no false false,
  row 0x4018 0x401b 32 32 .u8 aIn 0 0 1 [] 0 .no false false,
  row 0x4018 0x401b 33 33 .domain aIn 0 24 24 [] 0 .no false false,
  row 0x4018 0x401b 34 34 .domain aIn 0 48 48 [] 0 .no false false,
  row 0x4018 0x401b 35 35 .domain aRo 0 24 24 [] 0 .no false false,
  row 0x4018 0x401b 36 36 .domain aRo 0 48 48 [] 0 .no false false,
  row 0x4018 0x401b 37 37 .u8 aIn 0 0 1 [] 0 .no false false,
  row 0x4018 0x401b 38 38 .u32 aRo 0 0 4294967295 [] 0 .no false false,
  row 0x401c 0x401f 32 32 .u8 aIn 0 0 1 [] 0 .no false false ]

/-- Objects 0x4000-0x40FF, part 2. -/
def objs40b : List ObjRow := [
  row 0x401c 0x401f 33 33 .u8 aIn 15 0 255 [] 15 .no false false,
  row 0x4020 0x402f 32 32 .u8 aIn 2 1 8 [] 0 .no false false,
  row 0x4020 0x402f 33 33 .u8 aIn 1 0 1 [] 0 .no false false,
  row 0x4020 0x402f 34 34 .u16 aIn 1000 125 1000 [] 0 .no false false,
  row 0x4020 0x402f 35 35 .u32 aIn 0 0 4294967295 [] 0 .no false false,
  row 0x4020 0x402f 36 36 .u16 aIn 5004 1 65535 [] 0 .no false false,
  row 0x4020 0x402f 37 37 .u8 aIn 98 96 127 [] 0 .no false false,
  row 0x4020 0x402f 38 38 .u16 aIn 48 1 4800 [] 0 .no false false,
  row 0x4020 0x402f 39 39 .u32 aIn 0 0 4294967295 [] 0 .no false false,
  row 0x4020 0x402f 40 40 .u32 aIn 0 0 4294967295 [] 0 .no false false,
  row 0x4020 0x402f 41 41 .u8 aIn 0 0 7 [] 0 .no false false,
  row 0x4020 0x402f 42 42 .u8 aIn 46 0 63 [] 0 .no false false,
  row 0x4020 0x402f 43 43 .u32 aRo 0 0 4294967295 [] 0 .no false false ]

/-- Objects 0x4400-0x44FF, part 1. -/
def objs44a : List ObjRow := [
  row 0x4400 0x457f 1 1 .u8 aRwp 0 0 5 [] 0 .pourable false false,
  row 0x4400 0x457f 2 2 .u16 aRwp 0 0 65535 [] 0 .pourable false false,
  row 0x4400 0x457f 3 3 .u8 aRwp 0 0 2 [] 0 .no false false,
  row 0x4400 0x457f 4 4 .bool aRwp 0 0 1 [] 0 .pourable false false,
  row 0x4400 0x457f 5 5 .i16 aRwp 0 (-2400) 2400 [] 0 .pourable false false,
  row 0x4400 0x457f 6 6 .bool aRwp 0 0 1 [] 0 .pourable false false,
  row 0x4400 0x457f 7 7 .u16 aRwp 0 20 2000 [0] 0 .pourable false false,
  row 0x4400 0x457f 8 8 .u16 aRwp 100 20 20000 [] 0 .pourable false false,
  row 0x4400 0x457f 9 9 .u16 aRwp 500 20 20000 [] 0 .pourable false false,
  row 0x4400 0x457f 10 10 .u16 aRwp 2000 20 20000 [] 0 .pourable false false,
  row 0x4400 0x457f 11 11 .u16 aRwp 8000 20 20000 [] 0 .pourable false false,
  row 0x4400 0x457f 12 15 .i16 aRwp 0 (-1800) 1800 [] 0 .pourable false false,
  row 0x4400 0x457f 16 19 .u16 aRwp 100 10 2000 [] 0 .pourable false false,
  row 0x4400 0x457f 20 20 .i16 aRwp (-14400) (-14400) 0 [] 0 .pourable false false,
  row 0x4400 0x457f 21 21 .i16 aRwp 0 (-6000) 0 [] 0 .pourable false false,
  row 0x4400 0x457f 22 22 .u8 aRwp 10 10 200 [] 0 .pourable false false,
  row 0x4400 0x457f 23 23 .u16 aRwp 5000 100 65535 [] 0 .pourable false false,
  row 0x4400 0x457f 24 24 .u16 aRwp 200 5 5000 [] 0 .pourable false false,
  row 0x4400 0x457f 25 25 .u16 aRwp 0 0 4800 [] 0 .pourable false false,
  row 0x4400 0x457f 26 26 .i16 aRwp (-14400) (-14400) 1000 [] 0 .pourable false false,
  row 0x4400 0x457f 27 27 .bool aRwp 0 0 1 [] 0 .pourable false false,
  row 0x4400 0x457f 28 28 .bool aRwp 0 0 1 [] 0 .no false false,
  row 0x4400 0x457f 32 47 .u8 aRwp 255 0 95 [255] 0 .pourable false false,
  row 0x4400 0x457f 48 63 .i16 aRwp (-14400) (-14400) 1000 [] 0 .pourable false false,
  row 0x4400 0x457f 64 64 .u16 aRwp 0 0 65535 [] 0 .pourable false false,
  row 0x4400 0x457f 96 96 .u8 aRo 0 0 255 [] 0 .no false false,
  row 0x4400 0x457f 97 97 .i16 aRo (-14400) (-32768) 32767 [] 0 .no false false,
  row 0x4400 0x457f 98 98 .i16 aRo 0 (-32768) 32767 [] 0 .no false false,
  row 0x4400 0x457f 99 99 .u16 aRo 0 0 65535 [] 0 .no false false,
  row 0x4400 0x457f 100 100 .u32 aRo 0 0 4294967295 [] 0 .no false false,
  row 0x4400 0x457f 101 101 .u32 aRo 0 0 4294967295 [] 0 .no false false ]

/-- Objects 0x4500-0x45FF, part 1. -/
def objs45a : List ObjRow := [
  row 0x4400 0x457f 1 1 .u8 aRwp 0 0 5 [] 0 .pourable false false,
  row 0x4400 0x457f 2 2 .u16 aRwp 0 0 65535 [] 0 .pourable false false,
  row 0x4400 0x457f 3 3 .u8 aRwp 0 0 2 [] 0 .no false false,
  row 0x4400 0x457f 4 4 .bool aRwp 0 0 1 [] 0 .pourable false false,
  row 0x4400 0x457f 5 5 .i16 aRwp 0 (-2400) 2400 [] 0 .pourable false false,
  row 0x4400 0x457f 6 6 .bool aRwp 0 0 1 [] 0 .pourable false false,
  row 0x4400 0x457f 7 7 .u16 aRwp 0 20 2000 [0] 0 .pourable false false,
  row 0x4400 0x457f 8 8 .u16 aRwp 100 20 20000 [] 0 .pourable false false,
  row 0x4400 0x457f 9 9 .u16 aRwp 500 20 20000 [] 0 .pourable false false,
  row 0x4400 0x457f 10 10 .u16 aRwp 2000 20 20000 [] 0 .pourable false false,
  row 0x4400 0x457f 11 11 .u16 aRwp 8000 20 20000 [] 0 .pourable false false,
  row 0x4400 0x457f 12 15 .i16 aRwp 0 (-1800) 1800 [] 0 .pourable false false,
  row 0x4400 0x457f 16 19 .u16 aRwp 100 10 2000 [] 0 .pourable false false,
  row 0x4400 0x457f 20 20 .i16 aRwp (-14400) (-14400) 0 [] 0 .pourable false false,
  row 0x4400 0x457f 21 21 .i16 aRwp 0 (-6000) 0 [] 0 .pourable false false,
  row 0x4400 0x457f 22 22 .u8 aRwp 10 10 200 [] 0 .pourable false false,
  row 0x4400 0x457f 23 23 .u16 aRwp 5000 100 65535 [] 0 .pourable false false,
  row 0x4400 0x457f 24 24 .u16 aRwp 200 5 5000 [] 0 .pourable false false,
  row 0x4400 0x457f 25 25 .u16 aRwp 0 0 4800 [] 0 .pourable false false,
  row 0x4400 0x457f 26 26 .i16 aRwp (-14400) (-14400) 1000 [] 0 .pourable false false,
  row 0x4400 0x457f 27 27 .bool aRwp 0 0 1 [] 0 .pourable false false,
  row 0x4400 0x457f 28 28 .bool aRwp 0 0 1 [] 0 .no false false,
  row 0x4400 0x457f 32 47 .u8 aRwp 255 0 95 [255] 0 .pourable false false,
  row 0x4400 0x457f 48 63 .i16 aRwp (-14400) (-14400) 1000 [] 0 .pourable false false,
  row 0x4400 0x457f 64 64 .u16 aRwp 0 0 65535 [] 0 .pourable false false,
  row 0x4400 0x457f 96 96 .u8 aRo 0 0 255 [] 0 .no false false,
  row 0x4400 0x457f 97 97 .i16 aRo (-14400) (-32768) 32767 [] 0 .no false false,
  row 0x4400 0x457f 98 98 .i16 aRo 0 (-32768) 32767 [] 0 .no false false,
  row 0x4400 0x457f 99 99 .u16 aRo 0 0 65535 [] 0 .no false false,
  row 0x4400 0x457f 100 100 .u32 aRo 0 0 4294967295 [] 0 .no false false,
  row 0x4400 0x457f 101 101 .u32 aRo 0 0 4294967295 [] 0 .no false false ]

/-- Objects 0x4600-0x46FF, part 1. -/
def objs46a : List ObjRow := [
  row 0x4600 0x465f 3 3 .u8 aRwp 0 0 2 [] 0 .no false false,
  row 0x4600 0x465f 4 4 .bool aRwp 0 0 1 [] 0 .pourable false false,
  row 0x4600 0x465f 7 7 .u16 aRwp 0 20 2000 [0] 0 .pourable false false,
  row 0x4600 0x465f 8 8 .u16 aRwp 100 20 20000 [] 0 .pourable false false,
  row 0x4600 0x465f 9 9 .u16 aRwp 500 20 20000 [] 0 .pourable false false,
  row 0x4600 0x465f 10 10 .u16 aRwp 2000 20 20000 [] 0 .pourable false false,
  row 0x4600 0x465f 11 11 .u16 aRwp 8000 20 20000 [] 0 .pourable false false,
  row 0x4600 0x465f 12 15 .i16 aRwp 0 (-1800) 1800 [] 0 .pourable false false,
  row 0x4600 0x465f 16 19 .u16 aRwp 100 10 2000 [] 0 .pourable false false,
  row 0x4600 0x465f 21 21 .i16 aRwp 0 (-6000) 0 [] 0 .pourable false false,
  row 0x4600 0x465f 22 22 .u8 aRwp 10 10 200 [] 0 .pourable false false,
  row 0x4600 0x465f 23 23 .u16 aRwp 5000 100 65535 [] 0 .pourable false false,
  row 0x4600 0x465f 24 24 .u16 aRwp 200 5 5000 [] 0 .pourable false false,
  row 0x4600 0x465f 25 25 .u16 aRwp 0 0 4800 [] 0 .pourable false false,
  row 0x4600 0x465f 26 26 .i16 aRwp (-14400) (-14400) 1000 [] 0 .pourable false false,
  row 0x4600 0x465f 27 27 .bool aRwp 0 0 1 [] 0 .pourable false false,
  row 0x4600 0x465f 28 28 .bool aRwp 0 0 1 [] 0 .no false false,
  row 0x4600 0x465f 96 96 .u8 aRo 0 0 255 [] 0 .no false false,
  row 0x4600 0x465f 97 97 .i16 aRo (-14400) (-32768) 32767 [] 0 .no false false,
  row 0x4600 0x465f 98 98 .i16 aRo 0 (-32768) 32767 [] 0 .no false false,
  row 0x4600 0x465f 99 99 .u16 aRo 0 0 65535 [] 0 .no false false ]

/-- Objects 0x4700-0x47FF, part 1. -/
def objs47a : List ObjRow := [
  row 0x4700 0x473f 1 1 .u8 aRwp 0 0 4 [] 0 .pourable false false,
  row 0x4700 0x473f 2 2 .u16 aRwp 0 0 383 [] 0 .pourable false false,
  row 0x4700 0x473f 3 10 .u8 aRwp 255 0 95 [255] 0 .pourable false false,
  row 0x4700 0x473f 11 18 .i16 aRwp (-14400) (-14400) 1000 [] 0 .pourable false false,
  row 0x4700 0x473f 19 19 .i16 aRwp 0 (-14400) 1000 [] 0 .pourable false false,
  row 0x4700 0x473f 20 20 .u16 aRwp 0 0 4800 [] 0 .pourable false false,
  row 0x4700 0x473f 21 21 .i16 aRwp 0 (-2400) 0 [] 0 .pourable false false,
  row 0x4700 0x473f 22 22 .u8 aRwp 0 0 4 [] 0 .pourable false false,
  row 0x4700 0x473f 23 23 .u16 aRwp 0 0 4095 [] 0 .pourable false false,
  row 0x4700 0x473f 24 24 .bool aRwp 0 0 1 [] 0 .pourable false false,
  row 0x4700 0x473f 25 25 .bool aRwp 0 0 1 [] 0 .no false false,
  row 0x4700 0x473f 96 96 .u8 aRo 0 0 255 [] 0 .no false false,
  row 0x4700 0x473f 97 97 .i16 aRo (-14400) (-32768) 32767 [] 0 .no false false,
  row 0x4700 0x473f 98 98 .u32 aRo 0 0 4294967295 [] 0 .no false false,
  row 0x4700 0x473f 99 99 .u16 aRo 0 0 65535 [] 0 .no false false,
  row 0x4740 0x4743 1 1 .bool aRwp 0 0 1 [] 0 .pourable false false,
  row 0x4740 0x4743 2 2 .u8 aRwp 0 0 2 [] 0 .no false false,
  row 0x4740 0x4743 3 3 .u8 aRwp 32 1 64 [] 0 .no false false,
  row 0x4740 0x4743 4 4 .u8 aRwp 0 0 15 [] 0 .pourable false false,
  row 0x4740 0x4743 5 5 .i16 aRwp 0 (-2400) 2400 [] 0 .pourable false false,
  row 0x4740 0x4743 6 6 .u8 aRo 0 0 255 [] 0 .no false false,
  row 0x4740 0x4743 16 47 .u16 aRwp 65535 0 383 [65535] 0 .no false false,
  row 0x4740 0x4743 48 63 .domain aROOO 0 8196 8196 [] 0 .no false false,
  row 0x4750 0x4757 1 1 .bool aRwp 0 0 1 [] 0 .pourable false false,
  row 0x4750 0x4757 2 2 .u8 aRwp 0 0 2 [] 0 .no false false,
  row 0x4750 0x4757 3 3 .u8 aRwp 0 0 1 [] 0 .pourable false false,
  row 0x4750 0x4757 4 4 .u32 aRwp 1000000 20000 48000000 [] 0 .pourable false false,
  row 0x4750 0x4757 5 5 .i16 aRwp (-2000) (-14400) 0 [] 0 .pourable false false,
  row 0x4750 0x4757 6 7 .u16 aRwp 0 0 60000 [] 0 .pourable false false,
  row 0x4758 0x475b 1 1 .u8 aRwp 0 0 2 [] 0 .no false false,
  row 0x4758 0x475b 2 2 .u64 aRwp 0 0 18446744073709551615 [] 0 .no false false,
  row 0x4758 0x475b 3 3 .u32 aRwp 0 1 268435456 [] 0 .no false false,
  row 0x4758 0x475b 4 4 .u8 aRwp 0 0 1 [] 0 .no false false,
  row 0x4758 0x475b 5 5 .i16 aRwp 0 (-14400) 0 [] 0 .pourable false false,
  row 0x4758 0x475b 6 6 .stamp48 aRWWW 0 0 281474976710655 [] 0 .no false false,
  row 0x4758 0x475b 7 7 .bool aNOOO 0 1 1 [] 0 .pourable false false,
  row 0x4758 0x475b 8 8 .bool aNOOO 0 1 1 [] 0 .no false false,
  row 0x4758 0x475b 9 9 .bool aRwp 0 0 1 [] 0 .no false false,
  row 0x4758 0x475b 10 10 .u8 aRo 0 0 255 [] 0 .no false false,
  row 0x4760 0x476f 1 1 .u16 aIn 65535 0 4095 [65535] 0 .pourable false false ]

/-- Objects 0x4700-0x47FF, part 2. -/
def objs47b : List ObjRow := [
  row 0x4760 0x476f 2 2 .u32 aIn 0 0 4294967295 [] 0 .pourable false false,
  row 0x4760 0x476f 3 3 .u16 aIn 0 0 65535 [] 0 .pourable false false,
  row 0x4760 0x476f 4 4 .u8 aIn 0 0 2 [] 0 .pourable false false,
  row 0x4760 0x476f 5 5 .i32 aIn 100 (-2147483648) 2147483647 [] 0 .pourable false false,
  row 0x4760 0x476f 6 6 .u16 aIn 64 1 1024 [] 0 .pourable false false,
  row 0x4760 0x476f 7 7 .u32 aIn 100000 1000 1000000 [] 0 .pourable false false,
  row 0x4760 0x476f 8 8 .u32 aRo 0 0 4294967295 [] 0 .no false false,
  row 0x4760 0x476f 9 9 .u32 aRo 0 0 4294967295 [] 0 .no false false,
  row 0x47f0 0x47f0 1 1 .u8 aRo 15 0 255 [] 0 .no false false,
  row 0x47f0 0x47f0 2 2 .u16 aRo 384 0 65535 [] 0 .no false false,
  row 0x47f0 0x47f0 3 3 .u8 aRo 0 0 255 [] 0 .no false false ]

/-- Objects 0x4800-0x48FF, part 1. -/
def objs48a : List ObjRow := [
  row 0x4800 0x4803 1 1 .u8 aRwp 0 0 1 [] 0 .no false false,
  row 0x4800 0x4803 2 2 .i16 aRwp 0 (-32768) 32767 [] 0 .pourable false false,
  row 0x4800 0x4803 3 4 .bool aNOOO 0 1 1 [] 0 .no false false,
  row 0x4800 0x4803 5 5 .u8 aRo 0 0 255 [] 0 .no false false,
  row 0x4800 0x4803 6 6 .i16 aSf 0 (-32768) 32767 [] 0 .no false false,
  row 0x4800 0x4803 7 7 .u16 aRwp 40 1 2048 [] 0 .no false false,
  row 0x4800 0x4803 8 8 .u16 aRo 24 0 65535 [] 0 .no false false,
  row 0x4800 0x4803 16 16 .u16 aRwp 20 1 10000 [] 0 .no false false,
  row 0x4800 0x4803 17 17 .u8 aRwp 3 1 100 [] 0 .no false false,
  row 0x4800 0x4803 18 18 .u8 aRo 0 0 255 [] 0 .no false false,
  row 0x4800 0x4803 19 19 .bool aNOOO 0 1 1 [] 0 .no false false,
  row 0x4800 0x4803 20 20 .u16 aRo 0 0 65535 [] 0 .no false false,
  row 0x4800 0x4803 21 21 .u32 aRo 0 0 4294967295 [] 0 .no false false,
  row 0x4810 0x4817 1 1 .u16 aRwp 0 0 65535 [] 0 .pourable false false,
  row 0x4810 0x4817 2 3 .bool aNOOO 0 1 1 [] 0 .no false false,
  row 0x4810 0x4817 4 4 .u16 aSf 0 0 65535 [] 0 .no false false,
  row 0x4810 0x4817 5 5 .u8 aRwp 255 0 7 [255] 0 .no false false,
  row 0x4810 0x4817 6 6 .u16 aRwp 0 0 4095 [] 0 .no false false,
  row 0x4810 0x4817 7 7 .i16 aRwp 0 (-4095) 4095 [] 0 .no false false,
  row 0x4810 0x4817 8 8 .u16 aRwp 40 1 2048 [] 0 .no false false,
  row 0x4810 0x4817 16 16 .u16 aRwp 20 1 10000 [] 0 .no false false,
  row 0x4810 0x4817 17 17 .u8 aRwp 3 1 100 [] 0 .no false false,
  row 0x4810 0x4817 18 18 .u8 aRo 0 0 255 [] 0 .no false false,
  row 0x4810 0x4817 19 19 .bool aNOOO 0 1 1 [] 0 .no false false,
  row 0x4810 0x4817 20 20 .u16 aRo 0 0 65535 [] 0 .no false false,
  row 0x4810 0x4817 21 21 .u32 aRo 0 0 4294967295 [] 0 .no false false,
  row 0x4880 0x4880 1 1 .u16 aIn 1000 250 10000 [] 0 .no false false,
  row 0x4880 0x4880 2 2 .bool aRo 0 0 1 [] 0 .no false false,
  row 0x4880 0x4880 3 18 .u16 aRo 0 0 65535 [] 0 .no false false ]

/-- Objects 0x4900-0x49FF, part 1. -/
def objs49a : List ObjRow := [
  row 0x4900 0x4901 1 1 .bool aRwp 0 0 1 [] 0 .no false false,
  row 0x4900 0x4901 2 2 .u16 aRwp 65535 0 4095 [65535] 0 .no false false,
  row 0x4900 0x4901 3 3 .u8 aRwp 0 0 1 [] 0 .no false false,
  row 0x4900 0x4901 4 4 .u8 aRo 0 0 255 [] 0 .no false false,
  row 0x4900 0x4901 5 5 .u16 aRo 0 0 65535 [] 0 .no false false,
  row 0x4900 0x4901 6 9 .u32 aRo 0 0 4294967295 [] 0 .no false false,
  row 0x4900 0x4901 10 10 .stamp48 aRo 0 0 281474976710655 [] 0 .no false false ]

/-- Objects 0x5000-0x50FF, part 1. -/
def objs50a : List ObjRow := [
  row 0x5000 0x5000 1 1 .u32 aRo 65536 0 4294967295 [] 0 .no false false,
  row 0x5000 0x5000 2 2 .u32 aRo 65536 0 4294967295 [] 0 .no false false,
  row 0x5000 0x5000 3 3 .u32 aRo 65536 0 4294967295 [] 0 .no false false,
  row 0x5000 0x5000 4 4 .u64 aRo 4294967296 0 18446744073709551615 [] 0 .no false false,
  row 0x5000 0x5000 5 5 .u64 aRo 4294967296 0 18446744073709551615 [] 0 .no false false,
  row 0x5000 0x5000 6 6 .u16 aRo 0 0 65535 [] 0 .no false false,
  row 0x5000 0x5000 7 7 .u32 aRo 0 0 4294967295 [] 0 .no false false,
  row 0x5000 0x5000 8 8 .u64 aRo 17179869184 0 18446744073709551615 [] 0 .no false false,
  row 0x5000 0x5000 9 9 .u64 aRo 17179869184 0 18446744073709551615 [] 0 .no false false,
  row 0x5000 0x5000 10 10 .u64 aRo 16642998272 0 18446744073709551615 [] 0 .no false false,
  row 0x5000 0x5000 11 11 .u64 aRo 536870912 0 18446744073709551615 [] 0 .no false false,
  row 0x5001 0x5001 1 1 .u16 aWWWW 0 0 4095 [] 0 .no false false,
  row 0x5002 0x5002 1 1 .u8 aRwp 0 0 1 [] 0 .no false false,
  row 0x5002 0x5002 2 2 .bool aRwp 0 0 1 [] 0 .no false false,
  row 0x5002 0x5002 3 3 .u8 aRwp 0 0 2 [] 0 .no false false,
  row 0x5002 0x5002 4 4 .u32 aRwp 64 1 65536 [] 0 .no false false,
  row 0x5002 0x5002 5 5 .u32 aRwp 1024 256 1048576 [] 0 .no false false,
  row 0x5002 0x5002 6 6 .u32 aRwp 1024 1 65536 [] 0 .no false false,
  row 0x5002 0x5002 7 7 .u8 aRwp 1 0 1 [] 0 .no false false,
  row 0x5002 0x5002 8 8 .u32 aRwp 0 1 1048575 [0] 0 .no false false,
  row 0x5002 0x5002 9 9 .u16 aRwp 65535 1 2047 [65535] 0 .no false false,
  row 0x5002 0x5002 10 10 .u8 aRwp 0 0 3 [] 0 .no false false,
  row 0x5002 0x5002 11 11 .u64 aRwp 0 0 18446744073709551615 [] 0 .no false false,
  row 0x5002 0x5002 12 12 .u32 aRwp 64 2 65536 [] 0 .no false false,
  row 0x5002 0x5002 13 13 .u32 aRwp 4096 128 131072 [] 0 .no false false,
  row 0x5002 0x5002 32 32 .u8 aRo 0 0 255 [] 0 .no false false,
  row 0x5002 0x5002 33 33 .u32 aRo 0 0 4294967295 [] 0 .no false false,
  row 0x5002 0x5002 34 34 .u32 aRo 0 0 4294967295 [] 0 .no false false,
  row 0x5002 0x5002 35 35 .u64 aRo 0 0 18446744073709551615 [] 0 .no false false,
  row 0x5002 0x5002 36 36 .u32 aRo 0 0 4294967295 [] 0 .no false false,
  row 0x5002 0x5002 37 37 .u32 aRo 0 0 4294967295 [] 0 .no false false,
  row 0x5002 0x5002 38 38 .stamp48 aRo 0 0 281474976710655 [] 0 .no false false ]

/-- Objects 0x5800-0x58FF, part 1. -/
def objs58a : List ObjRow := [
  row 0x5800 0x5801 1 1 .bool aIn 1 0 1 [] 0 .no false false,
  row 0x5800 0x5801 2 2 .u8 aIn 0 0 2 [] 0 .no false false,
  row 0x5800 0x5801 3 3 .u16 aIn 1518 1518 9216 [] 0 .no false false,
  row 0x5800 0x5801 4 4 .u8 aRo 0 0 255 [] 0 .no false false,
  row 0x5800 0x5801 5 6 .u64 aRo 0 0 18446744073709551615 [] 0 .no false false,
  row 0x5800 0x5801 7 7 .u32 aRo 0 0 4294967295 [] 0 .no false false,
  row 0x5800 0x5801 8 8 .u32 aRo 0 0 4294967295 [] 0 .no false false,
  row 0x5802 0x5802 1 1 .u64 aIn 0 0 18446744073709551615 [] 281474976710655 .no false false,
  row 0x5802 0x5802 2 2 .u32 aIn 0 0 4294967295 [] 0 .no false false,
  row 0x5802 0x5802 3 3 .u32 aIn 0 0 4294967295 [] 0 .no false false,
  row 0x5802 0x5802 4 4 .u32 aIn 0 0 4294967295 [] 0 .no false false,
  row 0x5802 0x5802 5 5 .u32 aRo 0 0 4294967295 [] 0 .no false false,
  row 0x5810 0x581f 1 1 .bool aIn 0 0 1 [] 0 .no false false,
  row 0x5810 0x581f 2 3 .u32 aIn 0 0 4294967295 [] 0 .no false false,
  row 0x5810 0x581f 4 4 .u64 aIn 0 0 18446744073709551615 [] 0 .no false false,
  row 0x5810 0x581f 5 5 .u16 aIn 100 3 10000 [] 0 .no false false,
  row 0x5810 0x581f 6 6 .u8 aRo 0 0 255 [] 0 .no false false,
  row 0x5810 0x581f 7 8 .u8 aRo 0 0 255 [] 0 .no false false,
  row 0x5810 0x581f 9 10 .u32 aRo 0 0 4294967295 [] 0 .no false false,
  row 0x5810 0x581f 11 11 .stamp48 aRo 0 0 281474976710655 [] 0 .no false false,
  row 0x5820 0x5827 1 1 .u8 aIn 0 0 1 [] 0 .no false false,
  row 0x5820 0x5827 2 2 .u8 aIn 0 0 1 [] 0 .no false false,
  row 0x5820 0x5827 3 3 .u8 aIn 0 0 15 [] 0 .no false false,
  row 0x5820 0x5827 4 4 .u8 aIn 1 1 2 [] 0 .no false false,
  row 0x5820 0x5827 5 5 .u16 aIn 60 1 3600 [] 0 .no false false,
  row 0x5820 0x5827 6 6 .u16 aIn 100 10 10000 [] 0 .no false false,
  row 0x5820 0x5827 7 7 .u16 aIn 10 1 1000 [] 0 .no false false,
  row 0x5820 0x5827 8 8 .u16 aIn 0 1 4094 [0] 0 .no false false,
  row 0x5820 0x5827 9 9 .u8 aIn 0 0 7 [] 0 .no false false,
  row 0x5820 0x5827 10 10 .u8 aRo 1 0 255 [] 0 .no false false,
  row 0x5820 0x5827 11 11 .u8 aRo 0 0 255 [] 0 .no false false,
  row 0x5820 0x5827 12 12 .u8 aNOON 0 1 2 [] 0 .no false false,
  row 0x5820 0x5827 13 13 .u32 aRo 0 0 4294967295 [] 0 .no false false,
  row 0x5820 0x5827 14 14 .u32 aRo 0 0 4294967295 [] 0 .no false false,
  row 0x5820 0x5827 15 15 .u32 aRo 0 0 4294967295 [] 0 .no false false,
  row 0x5820 0x5827 16 16 .stamp48 aRo 0 0 281474976710655 [] 0 .no false false,
  row 0x5830 0x5830 1 1 .u16 aIn 20 1 500 [] 0 .no false false,
  row 0x5830 0x5830 2 2 .u64 aRo 0 0 18446744073709551615 [] 0 .no false false,
  row 0x5830 0x5830 3 3 .u32 aRo 0 0 4294967295 [] 0 .no false false,
  row 0x5830 0x5830 4 4 .u32 aRo 0 0 4294967295 [] 0 .no false false ]

/-- Objects 0x5800-0x58FF, part 2. -/
def objs58b : List ObjRow := [
  row 0x5830 0x5830 5 5 .u32 aRo 0 0 4294967295 [] 0 .no false false ]

/-- Objects 0x5A00-0x5AFF, part 1. -/
def objs5aa : List ObjRow := [
  row 0x5a00 0x5a00 1 1 .bool aIn 1 0 1 [] 0 .no false false,
  row 0x5a00 0x5a00 2 2 .u16 aRo 51730 0 65535 [] 0 .no false false,
  row 0x5a00 0x5a00 3 3 .u16 aRo 0 0 65535 [] 0 .no false false,
  row 0x5a00 0x5a00 4 4 .u16 aRo 1280 0 65535 [] 0 .no false false,
  row 0x5a00 0x5a00 5 5 .u16 aIn 200 50 10000 [] 0 .no false false,
  row 0x5a00 0x5a00 6 6 .u16 aIn 10000 1000 60000 [] 0 .no false false,
  row 0x5a00 0x5a00 7 7 .u8 aIn 8 2 32 [] 0 .no false false,
  row 0x5a00 0x5a00 8 8 .u16 aIn 1000 10 60000 [] 0 .no false false,
  row 0x5a00 0x5a00 9 9 .u16 aIn 10 1 10000 [] 0 .no false false,
  row 0x5a00 0x5a00 10 10 .u8 aIn 8 1 64 [] 0 .no false false,
  row 0x5a00 0x5a00 11 11 .u16 aIn 20 5 1000 [] 0 .no false false,
  row 0x5a00 0x5a00 12 12 .u16 aIn 100 0 10000 [] 0 .no false false,
  row 0x5a00 0x5a00 13 13 .u16 aIn 5000 10 60000 [] 0 .no false false,
  row 0x5a00 0x5a00 14 14 .u32 aRo 0 0 4294967295 [] 0 .no false false,
  row 0x5a00 0x5a00 15 15 .u32 aRo 0 0 4294967295 [] 0 .no false false,
  row 0x5a10 0x5a17 1 1 .u32 aIn 1048576 65536 16777216 [] 0 .no false false,
  row 0x5a10 0x5a17 2 2 .u8 aIn 0 0 7 [] 0 .no false false,
  row 0x5a10 0x5a17 3 3 .u8 aIn 0 0 15 [] 0 .no false false,
  row 0x5a10 0x5a17 4 4 .u8 aIn 32 1 255 [] 0 .no false false,
  row 0x5a10 0x5a17 5 5 .u32 aIn 262144 65536 16777216 [] 0 .no false false,
  row 0x5a20 0x5a20 1 1 .u8 aWWWW 0 0 255 [] 0 .no false false,
  row 0x5a21 0x5a21 1 1 .u8 aRo 0 0 255 [] 0 .no false false,
  row 0x5a21 0x5a21 2 2 .u16 aRo 0 0 65535 [] 0 .no false false,
  row 0x5a21 0x5a21 3 3 .u8 aRo 255 0 255 [] 0 .no false false,
  row 0x5a21 0x5a21 4 4 .u32 aRo 0 0 4294967295 [] 0 .no false false,
  row 0x5a21 0x5a21 5 5 .u16 aRo 0 0 65535 [] 0 .no false false,
  row 0x5a21 0x5a21 6 6 .u32 aRo 0 0 4294967295 [] 0 .no false false,
  row 0x5a21 0x5a21 7 7 .u32 aRo 0 0 4294967295 [] 0 .no false false,
  row 0x5a21 0x5a21 8 8 .u32 aRo 0 0 4294967295 [] 0 .no false false,
  row 0x5a21 0x5a21 9 10 .u32 aRo 0 0 4294967295 [] 0 .no false false,
  row 0x5a21 0x5a21 11 11 .u32 aRo 0 0 4294967295 [] 0 .no false false,
  row 0x5a21 0x5a21 12 13 .u64 aRo 0 0 18446744073709551615 [] 0 .no false false,
  row 0x5a21 0x5a21 14 14 .stamp48 aRo 0 0 281474976710655 [] 0 .no false false,
  row 0x5a21 0x5a21 15 15 .bool aNOON 0 1 1 [] 0 .no false false,
  row 0x5a40 0x5a7f 1 1 .u8 aIn 255 0 7 [255] 0 .no false false,
  row 0x5a40 0x5a7f 2 2 .u8 aRwp 0 0 2 [] 0 .no false false,
  row 0x5a40 0x5a7f 3 3 .u64 aRwp 0 0 18446744073709551615 [] 0 .no false false,
  row 0x5a40 0x5a7f 4 4 .u64 aRwp 0 0 18446744073709551615 [] 0 .no false false,
  row 0x5a40 0x5a7f 5 5 .u8 aRwp 0 0 255 [] 7 .no false false,
  row 0x5a40 0x5a7f 6 7 .u32 aRwp 0 0 4294967295 [] 0 .no false false ]

/-- Objects 0x5A00-0x5AFF, part 2. -/
def objs5ab : List ObjRow := [
  row 0x5a40 0x5a7f 8 8 .bool aNOON 0 1 1 [] 0 .no false false,
  row 0x5a40 0x5a7f 9 9 .bool aNOON 0 1 1 [] 0 .no false false,
  row 0x5a40 0x5a7f 10 10 .u32 aNRRR 0 0 4294967295 [] 0 .no false false,
  row 0x5a40 0x5a7f 11 11 .u8 aRo 0 0 255 [] 0 .no false false,
  row 0x5a40 0x5a7f 12 12 .u64 aRo 0 0 18446744073709551615 [] 0 .no false false ]

/-- Objects 0x6000-0x60FF, part 1. -/
def objs60a : List ObjRow := [
  row 0x6000 0x6000 1 1 .u32 aRo 0 0 4294967295 [] 0 .no false false,
  row 0x6000 0x6000 2 2 .u16 aRo 0 0 65535 [] 0 .no false false,
  row 0x6000 0x6000 3 3 .u32 aRo 0 0 4294967295 [] 0 .no false false,
  row 0x6000 0x6000 4 4 .domain aRo 0 32768 32768 [] 0 .no false false,
  row 0x6000 0x6000 5 5 .u32 aNNOO 0 49642 49642 [] 0 .no false false,
  row 0x6001 0x6001 1 1 .u16 aRo 0 0 65535 [] 0 .no false true,
  row 0x6001 0x6001 2 2 .domain aRo 0 8192 8192 [] 0 .no false false,
  row 0x6001 0x6001 3 3 .u16 aSf 128 0 65535 [] 0 .no false false,
  row 0x6001 0x6001 4 4 .u32 aNNNO 0 49642 49642 [] 0 .no false false,
  row 0x6001 0x6001 5 5 .u32 aRo 0 0 4294967295 [] 0 .no false false,
  row 0x6001 0x6001 6 6 .u32 aRo 0 0 4294967295 [] 0 .no false true,
  row 0x6002 0x6002 1 1 .u8 aIn 16 4 255 [] 0 .no false false,
  row 0x6002 0x6002 2 2 .u16 aIn 1000 100 10000 [] 0 .no false false,
  row 0x6002 0x6002 3 3 .u16 aIn 1000 100 60000 [] 0 .no false false,
  row 0x6002 0x6002 4 4 .u16 aNNON 0 0 65535 [] 0 .no false false,
  row 0x6002 0x6002 5 5 .u16 aRo 0 0 65535 [] 0 .no false false,
  row 0x6002 0x6002 6 6 .u32 aRo 0 0 4294967295 [] 0 .no false false,
  row 0x6002 0x6002 7 7 .u32 aRo 0 0 4294967295 [] 0 .no false false,
  row 0x6002 0x6002 8 8 .u32 aRo 0 0 4294967295 [] 0 .no false false,
  row 0x6002 0x6002 9 9 .u32 aRo 0 0 4294967295 [] 0 .no false false,
  row 0x6004 0x6004 1 1 .u16 aWWWW 0 0 65535 [] 0 .no false false,
  row 0x6005 0x6005 1 1 .u32 aRo 0 0 4294967295 [] 0 .no false false,
  row 0x6005 0x6005 2 2 .bool aRo 0 0 1 [] 0 .no false false,
  row 0x6005 0x6005 3 3 .stamp48 aRo 0 0 281474976710655 [] 0 .no false false,
  row 0x6005 0x6005 4 4 .u16 aRo 0 0 65535 [] 0 .no false false,
  row 0x6005 0x6005 5 5 .u64 aRo 0 0 18446744073709551615 [] 0 .no false false,
  row 0x6005 0x6005 6 6 .u32 aRo 0 0 4294967295 [] 0 .no false false,
  row 0x6010 0x601b 1 1 .u32 aRo 0 0 4294967295 [] 0 .no false false,
  row 0x6010 0x601b 2 2 .u32 aRo 0 0 4294967295 [] 0 .no false false,
  row 0x6010 0x601b 3 3 .u32 aRo 0 0 4294967295 [] 0 .no false false,
  row 0x6010 0x601b 4 4 .u32 aRo 0 0 4294967295 [] 0 .no false false,
  row 0x6010 0x601b 5 5 .u32 aRo 0 0 4294967295 [] 0 .no false false ]

/-- Objects 0x7000-0x70FF, part 1. -/
def objs70a : List ObjRow := [
  row 0x7000 0x7000 1 1 .u8 aRo 0 0 255 [] 0 .no false false,
  row 0x7000 0x7000 2 2 .u8 aRo 255 0 255 [] 0 .no false false,
  row 0x7000 0x7000 3 3 .u8 aRo 0 0 255 [] 0 .no false false,
  row 0x7000 0x7000 4 4 .stamp48 aRo 0 0 281474976710655 [] 0 .no false false,
  row 0x7000 0x7000 5 5 .u8 aRo 0 0 255 [] 0 .no false false,
  row 0x7000 0x7000 6 6 .u8 aRo 0 0 255 [] 0 .no false false,
  row 0x7000 0x7000 7 7 .stamp48 aRo 0 0 281474976710655 [] 0 .no false false,
  row 0x7000 0x7000 8 8 .u32 aNNON 0 45063 45063 [] 0 .no false false,
  row 0x7000 0x7000 9 9 .u8 aRo 0 0 255 [] 0 .no false false,
  row 0x7001 0x7001 1 1 .bool aRo 0 0 1 [] 0 .no false false,
  row 0x7001 0x7001 2 2 .u32 aRo 0 0 4294967295 [] 0 .no false true,
  row 0x7001 0x7001 3 3 .u8 aRo 0 0 255 [] 0 .no false false,
  row 0x7001 0x7001 4 4 .u32 aRo 0 0 4294967295 [] 0 .no false true,
  row 0x7002 0x7003 1 1 .u8 aRo 0 0 255 [] 0 .no false false,
  row 0x7002 0x7003 2 2 .u32 aRo 0 0 4294967295 [] 0 .no false false,
  row 0x7002 0x7003 3 3 .u16 aRo 0 0 65535 [] 0 .no false false,
  row 0x7002 0x7003 4 8 .u32 aRo 0 0 4294967295 [] 0 .no false false,
  row 0x7002 0x7003 9 9 .u8 aRo 0 0 255 [] 0 .no false false,
  row 0x7004 0x7004 1 8 .u8 aRo 0 0 255 [] 0 .no false false,
  row 0x7010 0x7010 1 1 .u32 aNNWN 0 0 12517376 [] 0 .no false false,
  row 0x7010 0x7010 2 2 .domain aNNON 0 1 65536 [] 0 .no false false,
  row 0x7010 0x7010 3 3 .u32 aNNWN 0 256 12582912 [] 0 .no false false,
  row 0x7010 0x7010 4 4 .bool aNNON 0 1 1 [] 0 .no false false,
  row 0x7010 0x7010 5 5 .u8 aRo 0 0 255 [] 0 .no false false,
  row 0x7010 0x7010 6 6 .u8 aRo 255 0 255 [] 0 .no false false,
  row 0x7010 0x7010 7 7 .u8 aNNON 0 1 3 [] 0 .no false false,
  row 0x7010 0x7010 8 8 .bool aNNON 0 1 1 [] 0 .no false false,
  row 0x7010 0x7010 9 9 .bool aNNON 0 1 1 [] 0 .no false false,
  row 0x7010 0x7010 10 10 .u16 aIn 300 30 3600 [] 0 .no false false,
  row 0x7010 0x7010 11 11 .u16 aRo 0 0 65535 [] 0 .no false false,
  row 0x7010 0x7010 12 12 .bool aNNON 0 1 1 [] 0 .no false false,
  row 0x7010 0x7010 13 13 .u8 aRo 255 0 255 [] 0 .no false false,
  row 0x7011 0x7011 1 1 .u8 aIn 3 1 7 [] 0 .no false false,
  row 0x7020 0x7020 1 1 .u8 aRo 1 0 255 [] 0 .no false false,
  row 0x7020 0x7020 2 2 .u16 aRo 0 0 65535 [] 0 .no false false,
  row 0x7020 0x7020 3 3 .u8 aNNON 0 0 3 [] 0 .no false false,
  row 0x7020 0x7020 4 4 .u16 aNNON 0 0 65535 [] 0 .no false false,
  row 0x7030 0x7030 1 1 .u32 aRo 0 0 4294967295 [] 0 .no false false,
  row 0x7030 0x7030 2 2 .u32 aRo 0 0 4294967295 [] 0 .no false false,
  row 0x7030 0x7030 3 3 .u32 aRo 0 0 4294967295 [] 0 .no false false ]

/-- Objects 0x7000-0x70FF, part 2. -/
def objs70b : List ObjRow := [
  row 0x7030 0x7030 4 4 .u32 aRo 0 0 4294967295 [] 0 .no false false,
  row 0x7030 0x7030 5 5 .u32 aRo 0 0 4294967295 [] 0 .no false false ]

/-- Objects 0x7F00-0x7FFF, part 1. -/
def objs7fa : List ObjRow := [
  row 0x7f01 0x7f01 1 1 .u8 aNNON 0 1 2 [] 0 .no false false,
  row 0x7f01 0x7f19 2 2 .u8 aRo 0 0 255 [] 0 .no false false,
  row 0x7f01 0x7f19 3 3 .u8 aRo 0 0 255 [] 0 .no false false,
  row 0x7f01 0x7f19 4 4 .u32 aRo 0 0 4294967295 [] 0 .no false false,
  row 0x7f01 0x7f19 5 5 .u8 aRo 0 0 255 [] 0 .no false false,
  row 0x7f01 0x7f19 6 6 .u32 aRo 0 0 4294967295 [] 0 .no false false,
  row 0x7f01 0x7f19 7 7 .u32 aRo 0 0 4294967295 [] 0 .no false false,
  row 0x7f01 0x7f19 8 8 .stamp48 aRo 0 0 281474976710655 [] 0 .no false false,
  row 0x7f03 0x7f03 9 9 .u32 aRo 0 0 4294967295 [] 0 .no false false,
  row 0x7f03 0x7f05 1 1 .u8 aNNON 0 1 2 [] 0 .no false false,
  row 0x7f07 0x7f19 1 1 .u8 aNNON 0 1 2 [] 0 .no false false,
  row 0x7f20 0x7f24 1 1 .domain aRo 0 48 48 [] 0 .no false false,
  row 0x7f20 0x7f24 2 2 .u8 aRo 0 0 255 [] 0 .no false false,
  row 0x7f20 0x7f24 3 3 .u8 aRo 0 0 255 [] 0 .no false false,
  row 0x7f20 0x7f24 4 4 .u8 aRo 0 0 255 [] 0 .no false false,
  row 0x7f30 0x7f33 1 1 .u8 aRo 0 0 255 [] 0 .no false false,
  row 0x7f30 0x7f33 2 3 .u32 aRo 0 0 4294967295 [] 0 .no false false,
  row 0x7f34 0x7f37 1 1 .u8 aRo 0 0 255 [] 0 .no false false,
  row 0x7f40 0x7f47 1 1 .u8 aRo 0 0 255 [] 0 .no false false ]

/-- The rows whose block of indices can hold index `idx`, chosen by its high byte. -/
def objRows (idx : Nat) : List ObjRow :=
  match idx / 256 with
  | 0x10 => objs10a
  | 0x11 => objs11a ++ objs11b
  | 0x12 => objs12a
  | 0x14 => objs14a
  | 0x20 => objs20a ++ objs20b
  | 0x21 => objs21a ++ objs21b
  | 0x22 => objs22a
  | 0x30 => objs30a
  | 0x32 => objs32a ++ objs32b
  | 0x34 => objs34a
  | 0x36 => objs36a ++ objs36b
  | 0x38 => objs38a
  | 0x40 => objs40a ++ objs40b
  | 0x44 => objs44a
  | 0x45 => objs45a
  | 0x46 => objs46a
  | 0x47 => objs47a ++ objs47b
  | 0x48 => objs48a
  | 0x49 => objs49a
  | 0x50 => objs50a
  | 0x58 => objs58a ++ objs58b
  | 0x5a => objs5aa ++ objs5ab
  | 0x60 => objs60a
  | 0x70 => objs70a ++ objs70b
  | 0x7f => objs7fa
  | _ => []

/-- The row of an address, if the dictionary defines it. -/
def objRow (idx sub : Nat) : Option ObjRow :=
  (objRows idx).find? fun r => Nat.ble r.i0 idx && Nat.ble idx r.i1 && Nat.ble r.s0 sub && Nat.ble sub r.s1

/-! An object's key is a natural number: index × 256 + subindex, and above them (from 2^24) an instance number where one
address stands for several values (a selected queue, a session's own select object). -/

/-- The row of a key, whatever its instance. -/
def keyRow (k : Nat) : Option ObjRow := objRow (k / 256 % 65536) (k % 256)

/-- The default of an object (0 for an address the dictionary does not define). -/
def objDefault (k : Nat) : Int :=
  match keyRow k with
  | some r => r.dflt
  | none => 0

/-- Instance `i` of the object at `k`. -/
def inst (k : Nat) (i : Nat) : Nat := k + (i + 1) * 16777216

end Sys2Proof.Machine
end

