-- ==== Sys2Proof/Machine/Names.lean ====
section
/-! DEFINITION. The dictionary's objects by name: the key (index × 256 + subindex) of each, with the unit number `i`
(index from its block) and the place `n` within a run of subindices as arguments. -/
namespace Sys2Proof.Machine

/-- 0x1000.01 VendorId. -/
abbrev Ob.vendorId : Nat := 1048577
/-- 0x1000.02 ProductCode. -/
abbrev Ob.productCode : Nat := 1048578
/-- 0x1000.03 ProductName. -/
abbrev Ob.productName : Nat := 1048579
/-- 0x1000.04 SerialNumber. -/
abbrev Ob.serialNumber : Nat := 1048580
/-- 0x1000.05 DeviceUid. -/
abbrev Ob.deviceUid : Nat := 1048581
/-- 0x1000.06 IoDieGeneration. -/
abbrev Ob.ioDieGeneration : Nat := 1048582
/-- 0x1000.07 IoDieStepping. -/
abbrev Ob.ioDieStepping : Nat := 1048583
/-- 0x1000.08 ComputeDiesFitted. -/
abbrev Ob.computeDiesFitted : Nat := 1048584
/-- 0x1000.09 ComputeDiesInUse. -/
abbrev Ob.computeDiesInUse : Nat := 1048585
/-- 0x1000.0A CapabilityMask. -/
abbrev Ob.capabilityMask : Nat := 1048586
/-- 0x1000.0B DictionaryVersion. -/
abbrev Ob.dictionaryVersion : Nat := 1048587
/-- 0x1000.0C IghovikVersion. -/
abbrev Ob.ighovikVersion : Nat := 1048588
/-- 0x1000.0D Outcome. -/
abbrev Ob.outcome : Nat := 1048589
/-- 0x1000.0E ServiceReady. -/
abbrev Ob.serviceReady : Nat := 1048590
/-- 0x1001.01 RestoreDefaults. -/
abbrev Ob.restoreDefaults : Nat := 1048833
/-- 0x1001.02 PersistCommits. -/
abbrev Ob.persistCommits : Nat := 1048834
/-- 0x1001.03 PersistWear. -/
abbrev Ob.persistWear : Nat := 1048835
/-- 0x1100.01 Enable. -/
abbrev Ob.partEnable (i : Nat) : Nat := 1114113 + i * 256
/-- 0x1100.02 AttachKind. -/
abbrev Ob.partAttachKind (i : Nat) : Nat := 1114114 + i * 256
/-- 0x1100.03 AttachAddress. -/
abbrev Ob.partAttachAddress (i : Nat) : Nat := 1114115 + i * 256
/-- 0x1100.04 RoleMask. -/
abbrev Ob.partRoleMask (i : Nat) : Nat := 1114116 + i * 256
/-- 0x1100.05 Key. -/
abbrev Ob.partKey (i : Nat) : Nat := 1114117 + i * 256
/-- 0x1100.06 KeyState. -/
abbrev Ob.partKeyState (i : Nat) : Nat := 1114118 + i * 256
/-- 0x1100.07 QueueFirst. -/
abbrev Ob.partQueueFirst (i : Nat) : Nat := 1114119 + i * 256
/-- 0x1100.08 QueueCount. -/
abbrev Ob.partQueueCount (i : Nat) : Nat := 1114120 + i * 256
/-- 0x1100.09 FenceFirst. -/
abbrev Ob.partFenceFirst (i : Nat) : Nat := 1114121 + i * 256
/-- 0x1100.0A FenceCount. -/
abbrev Ob.partFenceCount (i : Nat) : Nat := 1114122 + i * 256
/-- 0x1100.0B ActiveSessions. -/
abbrev Ob.partActiveSessions (i : Nat) : Nat := 1114123 + i * 256
/-- 0x1100.0C Violations. -/
abbrev Ob.partViolations (i : Nat) : Nat := 1114124 + i * 256
/-- 0x1100.0D EventQueue. -/
abbrev Ob.partEventQueue (i : Nat) : Nat := 1114125 + i * 256
/-- 0x1100.0E EventRanges. -/
abbrev Ob.partEventRanges (i : Nat) : Nat := 1114126 + i * 256
/-- 0x1100.0F VectorCount. -/
abbrev Ob.partVectorCount (i : Nat) : Nat := 1114127 + i * 256
/-- 0x1100.10 ApertureBase. -/
abbrev Ob.partApertureBase (i : Nat) : Nat := 1114128 + i * 256
/-- 0x1100.14 WindowKind w. -/
abbrev Ob.partWindowKind (i : Nat) (n : Nat) : Nat := 1114132 + i * 256 + n * 3
/-- 0x1100.15 WindowBase w. -/
abbrev Ob.partWindowBase (i : Nat) (n : Nat) : Nat := 1114133 + i * 256 + n * 3
/-- 0x1100.16 WindowLength w. -/
abbrev Ob.partWindowLength (i : Nat) (n : Nat) : Nat := 1114134 + i * 256 + n * 3
/-- 0x1120.01 SlotOwner. -/
abbrev Ob.slotOwner (n : Nat) : Nat := 1122305 + n
/-- 0x1121.01 SafetyChannelOwner. -/
abbrev Ob.safetyChannelOwner (n : Nat) : Nat := 1122561 + n
/-- 0x1122.01 ModelOwner. -/
abbrev Ob.modelOwner (n : Nat) : Nat := 1122817 + n
/-- 0x1123.01 StripOwnerLow. -/
abbrev Ob.stripOwnerLow (n : Nat) : Nat := 1123073 + n
/-- 0x1124.01 StripOwnerHigh. -/
abbrev Ob.stripOwnerHigh (n : Nat) : Nat := 1123329 + n
/-- 0x1125.01 BusOwner. -/
abbrev Ob.busOwner (n : Nat) : Nat := 1123585 + n
/-- 0x1126.01 OutputOwner. -/
abbrev Ob.outputOwner (n : Nat) : Nat := 1123841 + n
/-- 0x1127.01 StructureOwner. -/
abbrev Ob.structureOwner (n : Nat) : Nat := 1124097 + n
/-- 0x1128.01 BeamformerOwner. -/
abbrev Ob.beamformerOwner (n : Nat) : Nat := 1124353 + n
/-- 0x1129.01 AnalogOwner. -/
abbrev Ob.analogOwner (n : Nat) : Nat := 1124609 + n
/-- 0x112A.01 BeaconOwner. -/
abbrev Ob.beaconOwner (n : Nat) : Nat := 1124865 + n
/-- 0x1200.01 UdpEnableA. -/
abbrev Ob.udpEnableA : Nat := 1179649
/-- 0x1200.02 UdpEnableB. -/
abbrev Ob.udpEnableB : Nat := 1179650
/-- 0x1200.03 UdpPort. -/
abbrev Ob.udpPort : Nat := 1179651
/-- 0x1200.04 SessionIdleTimeout. -/
abbrev Ob.sessionIdleTimeout : Nat := 1179652
/-- 0x1200.05 BlockGapTimeout. -/
abbrev Ob.blockGapTimeout : Nat := 1179653
/-- 0x1200.06 MaxSessionsPerPartition. -/
abbrev Ob.maxSessionsPerPartition : Nat := 1179654
/-- 0x1200.07 ResultCacheTime. -/
abbrev Ob.resultCacheTime : Nat := 1179655
/-- 0x1210.01 CanEnable. -/
abbrev Ob.canEnable (i : Nat) : Nat := 1183745 + i * 256
/-- 0x1210.02 DeviceNode. -/
abbrev Ob.canDeviceNode (i : Nat) : Nat := 1183746 + i * 256
/-- 0x1210.03 NominalBitRate. -/
abbrev Ob.canNominalBitRate (i : Nat) : Nat := 1183747 + i * 256
/-- 0x1210.04 DataBitRate. -/
abbrev Ob.canDataBitRate (i : Nat) : Nat := 1183748 + i * 256
/-- 0x1210.05 IdPrefix. -/
abbrev Ob.canIdPrefix (i : Nat) : Nat := 1183749 + i * 256
/-- 0x1210.06 AnnounceEnable. -/
abbrev Ob.canAnnounceEnable (i : Nat) : Nat := 1183750 + i * 256
/-- 0x1210.07 DelayCompensation. -/
abbrev Ob.canDelayCompensation (i : Nat) : Nat := 1183751 + i * 256
/-- 0x1210.08 BusOffRecovery. -/
abbrev Ob.canBusOffRecovery (i : Nat) : Nat := 1183752 + i * 256
/-- 0x1210.09 Restart. -/
abbrev Ob.canRestart (i : Nat) : Nat := 1183753 + i * 256
/-- 0x1210.0A ErrorState. -/
abbrev Ob.canErrorState (i : Nat) : Nat := 1183754 + i * 256
/-- 0x1220.01 SessionsOpen. -/
abbrev Ob.sessionsOpen : Nat := 1187841
/-- 0x1220.02 AuthFailures. -/
abbrev Ob.authFailures : Nat := 1187842
/-- 0x1220.03 StaleSequences. -/
abbrev Ob.staleSequences : Nat := 1187843
/-- 0x1220.04 MalformedFrames. -/
abbrev Ob.malformedFrames : Nat := 1187844
/-- 0x1220.05 NotifyCoalesced. -/
abbrev Ob.notifyCoalesced : Nat := 1187845
/-- 0x1220.06 BusyBootingSent. -/
abbrev Ob.busyBootingSent : Nat := 1187846
/-- 0x1220.07 UdpDropped. -/
abbrev Ob.udpDropped : Nat := 1187847
/-- 0x1400.01 PowerState. -/
abbrev Ob.powerState : Nat := 1310721
/-- 0x1400.02 PowerStateLimit. -/
abbrev Ob.powerStateLimit : Nat := 1310722
/-- 0x1400.03 MinTolerance. -/
abbrev Ob.minTolerance : Nat := 1310723
/-- 0x1400.04 NextKnownDeadline. -/
abbrev Ob.nextKnownDeadline : Nat := 1310724
/-- 0x1400.05 LastStateChange. -/
abbrev Ob.lastStateChange : Nat := 1310725
/-- 0x1400.06 EarlyWakes. -/
abbrev Ob.earlyWakes : Nat := 1310726
/-- 0x1400.07 DemandWakes. -/
abbrev Ob.demandWakes : Nat := 1310727
/-- 0x1400.08 Residency A0–A4. -/
abbrev Ob.residencyA0ToA4 (n : Nat) : Nat := 1310728 + n
/-- 0x1401.01 WakeTolerance. -/
abbrev Ob.wakeTolerance (i : Nat) : Nat := 1310977 + i * 256
/-- 0x1410.01 DiesInUseCount. -/
abbrev Ob.diesInUseCount : Nat := 1314817
/-- 0x1410.02 EnginesInUseCount. -/
abbrev Ob.enginesInUseCount : Nat := 1314818
/-- 0x1410.03 DeckTotal. -/
abbrev Ob.deckTotal : Nat := 1314819
/-- 0x1410.04 DramChannelsInUse. -/
abbrev Ob.dramChannelsInUse : Nat := 1314820
/-- 0x1410.05 DramCapacity. -/
abbrev Ob.dramCapacity : Nat := 1314821
/-- 0x1410.06 DramBandwidth. -/
abbrev Ob.dramBandwidth : Nat := 1314822
/-- 0x1410.07 EthernetPortsUp. -/
abbrev Ob.ethernetPortsUp : Nat := 1314823
/-- 0x1420.01 PowerCap. -/
abbrev Ob.powerCap : Nat := 1318913
/-- 0x1420.02 InputPower. -/
abbrev Ob.inputPower : Nat := 1318914
/-- 0x1420.03 VinNow. -/
abbrev Ob.vinNow : Nat := 1318915
/-- 0x1420.04 EngineBudget. -/
abbrev Ob.engineBudget : Nat := 1318916
/-- 0x1430.01 Temperature. -/
abbrev Ob.thermTemperature (i : Nat) : Nat := 1323009 + i * 256
/-- 0x1430.02 ThrottleLevel. -/
abbrev Ob.thermThrottleLevel (i : Nat) : Nat := 1323010 + i * 256
/-- 0x1430.03 PeakTemperature. -/
abbrev Ob.thermPeakTemperature (i : Nat) : Nat := 1323011 + i * 256
/-- 0x2000.01 TimelineNow. -/
abbrev Ob.timelineNow : Nat := 2097153
/-- 0x2000.02 TimelineFraction. -/
abbrev Ob.timelineFraction : Nat := 2097154
/-- 0x2000.03 Era. -/
abbrev Ob.era : Nat := 2097155
/-- 0x2000.04 IncrementNominal. -/
abbrev Ob.incrementNominal : Nat := 2097156
/-- 0x2000.05 IncrementNow. -/
abbrev Ob.incrementNow : Nat := 2097157
/-- 0x2000.06 RateOffset. -/
abbrev Ob.rateOffset : Nat := 2097158
/-- 0x2001.01 SlewBound. -/
abbrev Ob.slewBound : Nat := 2097409
/-- 0x2001.02 ManualSlew. -/
abbrev Ob.manualSlew : Nat := 2097410
/-- 0x2001.03 SlewRemaining. -/
abbrev Ob.slewRemaining : Nat := 2097411
/-- 0x2010.01 PtpSource. -/
abbrev Ob.ptpSource : Nat := 2101249
/-- 0x2010.02 PtpProfile. -/
abbrev Ob.ptpProfile : Nat := 2101250
/-- 0x2010.03 PtpTransport. -/
abbrev Ob.ptpTransport : Nat := 2101251
/-- 0x2010.04 PtpDomain. -/
abbrev Ob.ptpDomain : Nat := 2101252
/-- 0x2010.05 AnnounceTimeout. -/
abbrev Ob.announceTimeout : Nat := 2101253
/-- 0x2010.06 SyncLossCount. -/
abbrev Ob.syncLossCount : Nat := 2101254
/-- 0x2010.07 PolicyA. -/
abbrev Ob.policyA : Nat := 2101255
/-- 0x2010.08 PolicyB. -/
abbrev Ob.policyB : Nat := 2101256
/-- 0x2010.09 JumpThreshold. -/
abbrev Ob.jumpThreshold : Nat := 2101257
/-- 0x2010.0A LockWindow. -/
abbrev Ob.lockWindow : Nat := 2101258
/-- 0x2010.0B ServoTimeConstant. -/
abbrev Ob.servoTimeConstant : Nat := 2101259
/-- 0x2010.0C AutoRevertTime. -/
abbrev Ob.autoRevertTime : Nat := 2101260
/-- 0x2011.01 ServoState. -/
abbrev Ob.servoState : Nat := 2101505
/-- 0x2011.02 ActivePort. -/
abbrev Ob.activePort : Nat := 2101506
/-- 0x2011.03 GrandmasterIdentity. -/
abbrev Ob.grandmasterIdentity : Nat := 2101507
/-- 0x2011.04 MasterOffset. -/
abbrev Ob.masterOffset : Nat := 2101508
/-- 0x2011.05 MeanPathDelay. -/
abbrev Ob.meanPathDelay : Nat := 2101509
/-- 0x2011.06 PublishedOffset. -/
abbrev Ob.publishedOffset : Nat := 2101510
/-- 0x2011.07 OffsetGeneration. -/
abbrev Ob.offsetGeneration : Nat := 2101511
/-- 0x2011.08 RefusedOffset. -/
abbrev Ob.refusedOffset : Nat := 2101512
/-- 0x2011.09 CurrentUtcOffset. -/
abbrev Ob.currentUtcOffset : Nat := 2101513
/-- 0x2011.0A StepsRefused. -/
abbrev Ob.stepsRefused : Nat := 2101514
/-- 0x2011.0B LastMasterChange. -/
abbrev Ob.lastMasterChange : Nat := 2101515
/-- 0x2012.01 GuardResponse. -/
abbrev Ob.guardResponse : Nat := 2101761
/-- 0x2018.01 GmPort. -/
abbrev Ob.gmPort : Nat := 2103297
/-- 0x2018.02 GmDomain. -/
abbrev Ob.gmDomain : Nat := 2103298
/-- 0x2018.03 GmPriority1. -/
abbrev Ob.gmPriority1 : Nat := 2103299
/-- 0x2018.04 GmPriority2. -/
abbrev Ob.gmPriority2 : Nat := 2103300
/-- 0x2018.05 GmProfile. -/
abbrev Ob.gmProfile : Nat := 2103301
/-- 0x2018.06 GmLogSyncInterval. -/
abbrev Ob.gmLogSyncInterval : Nat := 2103302
/-- 0x2018.07 GmLogAnnounceInterval. -/
abbrev Ob.gmLogAnnounceInterval : Nat := 2103303
/-- 0x2018.08 GmTimeSource. -/
abbrev Ob.gmTimeSource : Nat := 2103304
/-- 0x2040.01 FenceSelect. -/
abbrev Ob.fenceSelect : Nat := 2113537
/-- 0x2040.02 FenceValue. -/
abbrev Ob.fenceValue : Nat := 2113538
/-- 0x2040.03 FenceSignal. -/
abbrev Ob.fenceSignal : Nat := 2113539
/-- 0x2040.04 FenceAdd. -/
abbrev Ob.fenceAdd : Nat := 2113540
/-- 0x2040.05 FenceDeadline. -/
abbrev Ob.fenceDeadline : Nat := 2113541
/-- 0x2040.06 FenceDeadlineEnable. -/
abbrev Ob.fenceDeadlineEnable : Nat := 2113542
/-- 0x2040.07 FenceReset. -/
abbrev Ob.fenceReset : Nat := 2113543
/-- 0x2040.08 FencePendingWaits. -/
abbrev Ob.fencePendingWaits : Nat := 2113544
/-- 0x2041.01 WaitFence. -/
abbrev Ob.waitFence : Nat := 2113793
/-- 0x2041.02 WaitTarget. -/
abbrev Ob.waitTarget : Nat := 2113794
/-- 0x2041.03 WaitDelivery. -/
abbrev Ob.waitDelivery : Nat := 2113795
/-- 0x2041.04 WaitDestination. -/
abbrev Ob.waitDestination : Nat := 2113796
/-- 0x2041.05 WaitArm. -/
abbrev Ob.waitArm : Nat := 2113797
/-- 0x2041.06 WaitHandle. -/
abbrev Ob.waitHandle : Nat := 2113798
/-- 0x2041.07 WaitCancel. -/
abbrev Ob.waitCancel : Nat := 2113799
/-- 0x2042.01 FenceCount. -/
abbrev Ob.fenceCount : Nat := 2114049
/-- 0x2042.02 WaitSlots. -/
abbrev Ob.waitSlots : Nat := 2114050
/-- 0x2042.03 WaitSlotsFree. -/
abbrev Ob.waitSlotsFree : Nat := 2114051
/-- 0x2042.04 DeadlineLateCount. -/
abbrev Ob.deadlineLateCount : Nat := 2114052
/-- 0x2042.05 AddSaturations. -/
abbrev Ob.addSaturations : Nat := 2114053
/-- 0x2100.01 XtalState. -/
abbrev Ob.xtalState : Nat := 2162689
/-- 0x2100.02 RootLocked. -/
abbrev Ob.rootLocked : Nat := 2162690
/-- 0x2100.03 XtalNominal. -/
abbrev Ob.xtalNominal : Nat := 2162691
/-- 0x2100.04 RootFreqOffset. -/
abbrev Ob.rootFreqOffset : Nat := 2162692
/-- 0x2101.01 IslandDivision n. -/
abbrev Ob.islandDivision (n : Nat) : Nat := 2162945 + n
/-- 0x2102.01 IslandClockStatus n. -/
abbrev Ob.islandClockStatus (n : Nat) : Nat := 2163201 + n
/-- 0x2110.01 SelectorMode. -/
abbrev Ob.selectorMode : Nat := 2166785
/-- 0x2110.02 WaitToRestore. -/
abbrev Ob.waitToRestore : Nat := 2166786
/-- 0x2110.03 SelectorState. -/
abbrev Ob.selectorState : Nat := 2166787
/-- 0x2110.04 SelectedRef. -/
abbrev Ob.selectedRef : Nat := 2166788
/-- 0x2110.05 HoldoverValue. -/
abbrev Ob.holdoverValue : Nat := 2166789
/-- 0x2110.06 RefLockWindow. -/
abbrev Ob.refLockWindow : Nat := 2166790
/-- 0x2110.07 DpllBandwidth. -/
abbrev Ob.dpllBandwidth : Nat := 2166791
/-- 0x2110.08 FreqSlopeLimit. -/
abbrev Ob.freqSlopeLimit : Nat := 2166792
/-- 0x2110.09 LastSwitchStamp. -/
abbrev Ob.lastSwitchStamp : Nat := 2166793
/-- 0x2111.01 PriorityEntry. -/
abbrev Ob.priorityEntry (n : Nat) : Nat := 2167041 + n
/-- 0x2112.01 Enable. -/
abbrev Ob.refEnable (i : Nat) : Nat := 2167297 + i * 256
/-- 0x2112.02 State. -/
abbrev Ob.refState (i : Nat) : Nat := 2167298 + i * 256
/-- 0x2112.03 QualifyTime. -/
abbrev Ob.refQualifyTime (i : Nat) : Nat := 2167299 + i * 256
/-- 0x2112.04 AcceptWindow. -/
abbrev Ob.refAcceptWindow (i : Nat) : Nat := 2167300 + i * 256
/-- 0x2112.05 MeasuredOffset. -/
abbrev Ob.refMeasuredOffset (i : Nat) : Nat := 2167301 + i * 256
/-- 0x2112.06 WtrRemaining. -/
abbrev Ob.refWtrRemaining (i : Nat) : Nat := 2167302 + i * 256
/-- 0x2112.07 NominalRate. -/
abbrev Ob.refNominalRate (i : Nat) : Nat := 2167303 + i * 256
/-- 0x2120.01 LoopMode. -/
abbrev Ob.loopMode : Nat := 2170881
/-- 0x2120.02 FreqOffsetWord. -/
abbrev Ob.freqOffsetWord : Nat := 2170882
/-- 0x2120.03 PhaseRef. -/
abbrev Ob.phaseRef : Nat := 2170883
/-- 0x2120.04 PhaseError. -/
abbrev Ob.phaseError : Nat := 2170884
/-- 0x2120.05 PhaseStamp. -/
abbrev Ob.phaseStamp : Nat := 2170885
/-- 0x2120.06 PhaseSeq. -/
abbrev Ob.phaseSeq : Nat := 2170886
/-- 0x2130.01 Base. -/
abbrev Ob.pulseBase (i : Nat) : Nat := 2174977 + i * 256
/-- 0x2130.02 Offset. -/
abbrev Ob.pulseOffset (i : Nat) : Nat := 2174978 + i * 256
/-- 0x2130.03 Rate. -/
abbrev Ob.pulseRate (i : Nat) : Nat := 2174979 + i * 256
/-- 0x2130.04 Width. -/
abbrev Ob.pulseWidth (i : Nat) : Nat := 2174980 + i * 256
/-- 0x2130.05 Polarity. -/
abbrev Ob.pulsePolarity (i : Nat) : Nat := 2174981 + i * 256
/-- 0x2130.06 Count. -/
abbrev Ob.pulseCount (i : Nat) : Nat := 2174982 + i * 256
/-- 0x2130.07 StartStamp. -/
abbrev Ob.pulseStartStamp (i : Nat) : Nat := 2174983 + i * 256
/-- 0x2130.08 Start. -/
abbrev Ob.pulseStart (i : Nat) : Nat := 2174984 + i * 256
/-- 0x2130.09 Stop. -/
abbrev Ob.pulseStop (i : Nat) : Nat := 2174985 + i * 256
/-- 0x2130.0A Status. -/
abbrev Ob.pulseStatus (i : Nat) : Nat := 2174986 + i * 256
/-- 0x2130.0B ActualStart. -/
abbrev Ob.pulseActualStart (i : Nat) : Nat := 2174987 + i * 256
/-- 0x2130.0C EdgesDropped. -/
abbrev Ob.pulseEdgesDropped (i : Nat) : Nat := 2174988 + i * 256
/-- 0x2140.01 PpsInLastEdge. -/
abbrev Ob.ppsInLastEdge : Nat := 2179073
/-- 0x2140.02 PpsInInterval. -/
abbrev Ob.ppsInInterval : Nat := 2179074
/-- 0x2140.03 PpsInPolarity. -/
abbrev Ob.ppsInPolarity : Nat := 2179075
/-- 0x2140.04 PpsInRejected. -/
abbrev Ob.ppsInRejected : Nat := 2179076
/-- 0x2150.01 SynthState. -/
abbrev Ob.synthState (n : Nat) : Nat := 2183169 + n
/-- 0x2160.01 DeferTimeout. -/
abbrev Ob.deferTimeout : Nat := 2187265
/-- 0x2160.02 DeferredCount. -/
abbrev Ob.deferredCount : Nat := 2187266
/-- 0x2160.03 DeferTimeoutCount. -/
abbrev Ob.deferTimeoutCount : Nat := 2187267
/-- 0x2200.01 DefaultRamp. -/
abbrev Ob.defaultRamp : Nat := 2228225
/-- 0x2200.02 DefaultBacklogTimeout. -/
abbrev Ob.defaultBacklogTimeout : Nat := 2228226
/-- 0x2200.03 PoursHeld. -/
abbrev Ob.poursHeld : Nat := 2228227
/-- 0x2200.04 PoursApplied. -/
abbrev Ob.poursApplied : Nat := 2228228
/-- 0x2200.05 PoursBacklogged. -/
abbrev Ob.poursBacklogged : Nat := 2228229
/-- 0x2200.06 PoursLate. -/
abbrev Ob.poursLate : Nat := 2228230
/-- 0x2200.07 PoursCancelled. -/
abbrev Ob.poursCancelled : Nat := 2228231
/-- 0x2201.01 CurrentGeneration. -/
abbrev Ob.currentGeneration : Nat := 2228481
/-- 0x2201.02 GenerationsAlive. -/
abbrev Ob.generationsAlive : Nat := 2228482
/-- 0x2201.03 GenOutstanding. -/
abbrev Ob.genOutstanding (n : Nat) : Nat := 2228483 + n
/-- 0x2201.07 GenOldestQueue. -/
abbrev Ob.genOldestQueue (n : Nat) : Nat := 2228487 + n
/-- 0x2202.01 PourSelect. -/
abbrev Ob.pourSelect : Nat := 2228737
/-- 0x2202.02 PourState. -/
abbrev Ob.pourState : Nat := 2228738
/-- 0x2202.03 PourTarget. -/
abbrev Ob.pourTarget : Nat := 2228739
/-- 0x2202.04 PourPartition. -/
abbrev Ob.pourPartition : Nat := 2228740
/-- 0x2202.05 PourGeneration. -/
abbrev Ob.pourGeneration : Nat := 2228741
/-- 0x2202.06 PourCause. -/
abbrev Ob.pourCause : Nat := 2228742
/-- 0x2202.07 PourAppliedStamp. -/
abbrev Ob.pourAppliedStamp : Nat := 2228743
/-- 0x2202.08 PourReport. -/
abbrev Ob.pourReport : Nat := 2228744
/-- 0x2202.09 PourCancel. -/
abbrev Ob.pourCancel : Nat := 2228745
/-- 0x2240.01 SceneState. -/
abbrev Ob.sceneState (i : Nat) : Nat := 2244609 + i * 256
/-- 0x2240.02 SceneOwner. -/
abbrev Ob.sceneOwner (i : Nat) : Nat := 2244610 + i * 256
/-- 0x2240.03 SceneEntries. -/
abbrev Ob.sceneEntries (i : Nat) : Nat := 2244611 + i * 256
/-- 0x2240.04 SceneStoredStamp. -/
abbrev Ob.sceneStoredStamp (i : Nat) : Nat := 2244612 + i * 256
/-- 0x2240.05 SceneContent. -/
abbrev Ob.sceneContent (i : Nat) : Nat := 2244613 + i * 256
/-- 0x2240.06 SceneErase. -/
abbrev Ob.sceneErase (i : Nat) : Nat := 2244614 + i * 256
/-- 0x3000.01 SourceKind. -/
abbrev Ob.slotSourceKind (i : Nat) : Nat := 3145729 + i * 256
/-- 0x3000.02 SourceSelect. -/
abbrev Ob.slotSourceSelect (i : Nat) : Nat := 3145730 + i * 256
/-- 0x3000.03 Enable. -/
abbrev Ob.slotEnable (i : Nat) : Nat := 3145731 + i * 256
/-- 0x3000.04 PathMask. -/
abbrev Ob.slotPathMask (i : Nat) : Nat := 3145732 + i * 256
/-- 0x3000.05 HostQueue. -/
abbrev Ob.slotHostQueue (i : Nat) : Nat := 3145733 + i * 256
/-- 0x3000.06 BadPolicy. -/
abbrev Ob.slotBadPolicy (i : Nat) : Nat := 3145734 + i * 256
/-- 0x3000.07 UnprovenPolicy. -/
abbrev Ob.slotUnprovenPolicy (i : Nat) : Nat := 3145735 + i * 256
/-- 0x3000.08 MaxItemRate. -/
abbrev Ob.slotMaxItemRate (i : Nat) : Nat := 3145736 + i * 256
/-- 0x3000.09 StaleTimeout. -/
abbrev Ob.slotStaleTimeout (i : Nat) : Nat := 3145737 + i * 256
/-- 0x3000.0A IngestLatency. -/
abbrev Ob.slotIngestLatency (i : Nat) : Nat := 3145738 + i * 256
/-- 0x3000.0B SlotState. -/
abbrev Ob.slotState (i : Nat) : Nat := 3145739 + i * 256
/-- 0x3000.10 ModelMode. -/
abbrev Ob.slotModelMode (i : Nat) : Nat := 3145744 + i * 256
/-- 0x3000.11 SensorTimeBits. -/
abbrev Ob.slotSensorTimeBits (i : Nat) : Nat := 3145745 + i * 256
/-- 0x3000.12 SensorTimeUnit. -/
abbrev Ob.slotSensorTimeUnit (i : Nat) : Nat := 3145746 + i * 256
/-- 0x3000.13 ModelWindow. -/
abbrev Ob.slotModelWindow (i : Nat) : Nat := 3145747 + i * 256
/-- 0x3000.14 TransitMin. -/
abbrev Ob.slotTransitMin (i : Nat) : Nat := 3145748 + i * 256
/-- 0x3000.15 JumpLimit. -/
abbrev Ob.slotJumpLimit (i : Nat) : Nat := 3145749 + i * 256
/-- 0x3000.16 ModelState. -/
abbrev Ob.slotModelState (i : Nat) : Nat := 3145750 + i * 256
/-- 0x3000.17 ModelOffset. -/
abbrev Ob.slotModelOffset (i : Nat) : Nat := 3145751 + i * 256
/-- 0x3000.18 ModelRate. -/
abbrev Ob.slotModelRate (i : Nat) : Nat := 3145752 + i * 256
/-- 0x3000.19 ModelTsRef. -/
abbrev Ob.slotModelTsRef (i : Nat) : Nat := 3145753 + i * 256
/-- 0x3000.1A ModelResidual. -/
abbrev Ob.slotModelResidual (i : Nat) : Nat := 3145754 + i * 256
/-- 0x3000.20 KindParam 0–11. -/
abbrev Ob.slotKindParam (i : Nat) (n : Nat) : Nat := 3145760 + i * 256 + n
/-- 0x3000.30 ItemsIn. -/
abbrev Ob.slotItemsIn (i : Nat) : Nat := 3145776 + i * 256
/-- 0x3000.31 ItemsBad. -/
abbrev Ob.slotItemsBad (i : Nat) : Nat := 3145777 + i * 256
/-- 0x3000.32 ItemsUnproven. -/
abbrev Ob.slotItemsUnproven (i : Nat) : Nat := 3145778 + i * 256
/-- 0x3000.33 ItemsDropped. -/
abbrev Ob.slotItemsDropped (i : Nat) : Nat := 3145779 + i * 256
/-- 0x3000.34 ItemsTruncated. -/
abbrev Ob.slotItemsTruncated (i : Nat) : Nat := 3145780 + i * 256
/-- 0x3000.35 Overruns. -/
abbrev Ob.slotOverruns (i : Nat) : Nat := 3145781 + i * 256
/-- 0x3000.36 Violations. -/
abbrev Ob.slotViolations (i : Nat) : Nat := 3145782 + i * 256
/-- 0x3000.37 LastEntryStamp. -/
abbrev Ob.slotLastEntryStamp (i : Nat) : Nat := 3145783 + i * 256
/-- 0x3000.38 ModelRestarts. -/
abbrev Ob.slotModelRestarts (i : Nat) : Nat := 3145784 + i * 256
/-- 0x3000.39 LanesInUse. -/
abbrev Ob.slotLanesInUse (i : Nat) : Nat := 3145785 + i * 256
/-- 0x3200.01 TickPeriod. -/
abbrev Ob.tickPeriod : Nat := 3276801
/-- 0x3200.02 TickCount. -/
abbrev Ob.tickCount : Nat := 3276802
/-- 0x3200.03 PoseQueue. -/
abbrev Ob.poseQueue : Nat := 3276803
/-- 0x3200.04 PoseMaxGap. -/
abbrev Ob.poseMaxGap : Nat := 3276804
/-- 0x3200.05 PoseWait. -/
abbrev Ob.poseWait : Nat := 3276805
/-- 0x3200.06 PoseExtrapLimit. -/
abbrev Ob.poseExtrapLimit : Nat := 3276806
/-- 0x3200.07 PoseState. -/
abbrev Ob.poseState : Nat := 3276807
/-- 0x3200.08 PoseNewest. -/
abbrev Ob.poseNewest : Nat := 3276808
/-- 0x3200.09 PoseRejected. -/
abbrev Ob.poseRejected : Nat := 3276809
/-- 0x3200.0A ResampleEnable. -/
abbrev Ob.resampleEnable : Nat := 3276810
/-- 0x3200.0B ResampleQueue. -/
abbrev Ob.resampleQueue : Nat := 3276811
/-- 0x3200.0C ResampleWait. -/
abbrev Ob.resampleWait : Nat := 3276812
/-- 0x3200.0D ResampleMaxGap. -/
abbrev Ob.resampleMaxGap : Nat := 3276813
/-- 0x3200.0E ResampleLatency. -/
abbrev Ob.resampleLatency : Nat := 3276814
/-- 0x3201.01 ExposurePose. -/
abbrev Ob.exposurePose : Nat := 3277057
/-- 0x3210.01 InputSlot. -/
abbrev Ob.rsInInputSlot (i : Nat) : Nat := 3280897 + i * 256
/-- 0x3210.02 ResampleLayout. -/
abbrev Ob.rsInResampleLayout (i : Nat) : Nat := 3280898 + i * 256
/-- 0x3210.03 ScaleA. -/
abbrev Ob.rsInScaleA (i : Nat) : Nat := 3280899 + i * 256
/-- 0x3210.04 ScaleB. -/
abbrev Ob.rsInScaleB (i : Nat) : Nat := 3280900 + i * 256
/-- 0x3210.05 InputState. -/
abbrev Ob.rsInInputState (i : Nat) : Nat := 3280901 + i * 256
/-- 0x3220.01 GridEnable. -/
abbrev Ob.gridEnable (i : Nat) : Nat := 3284993 + i * 256
/-- 0x3220.02 Frame. -/
abbrev Ob.gridFrame (i : Nat) : Nat := 3284994 + i * 256
/-- 0x3220.03 Width. -/
abbrev Ob.gridWidth (i : Nat) : Nat := 3284995 + i * 256
/-- 0x3220.04 Height. -/
abbrev Ob.gridHeight (i : Nat) : Nat := 3284996 + i * 256
/-- 0x3220.05 CellSize. -/
abbrev Ob.gridCellSize (i : Nat) : Nat := 3284997 + i * 256
/-- 0x3220.06 UpdateTicks. -/
abbrev Ob.gridUpdateTicks (i : Nat) : Nat := 3284998 + i * 256
/-- 0x3220.07 InputMask. -/
abbrev Ob.gridInputMask (i : Nat) : Nat := 3284999 + i * 256
/-- 0x3220.08 Decay. -/
abbrev Ob.gridDecay (i : Nat) : Nat := 3285000 + i * 256
/-- 0x3220.09 PointWait. -/
abbrev Ob.gridPointWait (i : Nat) : Nat := 3285001 + i * 256
/-- 0x3220.0A BandEdge 0–8. -/
abbrev Ob.gridBandEdge (i : Nat) (n : Nat) : Nat := 3285002 + i * 256 + n
/-- 0x3220.20 GridQueue. -/
abbrev Ob.gridQueue (i : Nat) : Nat := 3285024 + i * 256
/-- 0x3220.21 GridSeq. -/
abbrev Ob.gridSeq (i : Nat) : Nat := 3285025 + i * 256
/-- 0x3220.22 GridLatency. -/
abbrev Ob.gridLatency (i : Nat) : Nat := 3285026 + i * 256
/-- 0x3220.23 LastClose. -/
abbrev Ob.gridLastClose (i : Nat) : Nat := 3285027 + i * 256
/-- 0x3220.24 BufferBase. -/
abbrev Ob.gridBufferBase (i : Nat) : Nat := 3285028 + i * 256
/-- 0x3220.25 PointsBinned. -/
abbrev Ob.gridPointsBinned (i : Nat) : Nat := 3285029 + i * 256
/-- 0x3220.26 PointsLate. -/
abbrev Ob.gridPointsLate (i : Nat) : Nat := 3285030 + i * 256
/-- 0x3220.27 PointsOutside. -/
abbrev Ob.gridPointsOutside (i : Nat) : Nat := 3285031 + i * 256
/-- 0x3220.28 GridsSkipped. -/
abbrev Ob.gridGridsSkipped (i : Nat) : Nat := 3285032 + i * 256
/-- 0x3220.29 PointsOverflow. -/
abbrev Ob.gridPointsOverflow (i : Nat) : Nat := 3285033 + i * 256
/-- 0x3240.01 MountX, MountY, MountZ. -/
abbrev Ob.mountX (i : Nat) : Nat := 3293185 + i * 256
/-- 0x3240.02 MountX, MountY, MountZ. -/
abbrev Ob.mountY (i : Nat) : Nat := 3293186 + i * 256
/-- 0x3240.03 MountX, MountY, MountZ. -/
abbrev Ob.mountZ (i : Nat) : Nat := 3293187 + i * 256
/-- 0x3240.04 MountQw, Qx, Qy, Qz. -/
abbrev Ob.mountQw (i : Nat) : Nat := 3293188 + i * 256
/-- 0x3240.05 MountQw, Qx, Qy, Qz. -/
abbrev Ob.mountQx (i : Nat) : Nat := 3293189 + i * 256
/-- 0x3240.06 MountQw, Qx, Qy, Qz. -/
abbrev Ob.mountQy (i : Nat) : Nat := 3293190 + i * 256
/-- 0x3240.07 MountQw, Qx, Qy, Qz. -/
abbrev Ob.mountQz (i : Nat) : Nat := 3293191 + i * 256
/-- 0x3400.01 EnginesFitted. -/
abbrev Ob.enginesFitted : Nat := 3407873
/-- 0x3400.02 EnginesInUse. -/
abbrev Ob.enginesInUse : Nat := 3407874
/-- 0x3400.03 PoolSize. -/
abbrev Ob.poolSize : Nat := 3407875
/-- 0x3400.04 PoolFree. -/
abbrev Ob.poolFree : Nat := 3407876
/-- 0x3400.05 DeckWeightFree. -/
abbrev Ob.deckWeightFree (n : Nat) : Nat := 3407877 + n
/-- 0x3400.09 ModelsResident. -/
abbrev Ob.modelsResident : Nat := 3407881
/-- 0x3408.01 EngineState. -/
abbrev Ob.engineState (i : Nat) : Nat := 3409921 + i * 256
/-- 0x3408.02 CurrentModel. -/
abbrev Ob.engineCurrentModel (i : Nat) : Nat := 3409922 + i * 256
/-- 0x3408.03 InferencesRun. -/
abbrev Ob.engineInferencesRun (i : Nat) : Nat := 3409923 + i * 256
/-- 0x3408.04 Busy. -/
abbrev Ob.engineBusy (i : Nat) : Nat := 3409924 + i * 256
/-- 0x3408.05 SaturationCount. -/
abbrev Ob.engineSaturationCount (i : Nat) : Nat := 3409925 + i * 256
/-- 0x3420.01 PackageState. -/
abbrev Ob.modelPackageState (i : Nat) : Nat := 3416065 + i * 256
/-- 0x3420.02 PackageVersion. -/
abbrev Ob.modelPackageVersion (i : Nat) : Nat := 3416066 + i * 256
/-- 0x3420.03 LoadSource. -/
abbrev Ob.modelLoadSource (i : Nat) : Nat := 3416067 + i * 256
/-- 0x3420.04 LoadAddress. -/
abbrev Ob.modelLoadAddress (i : Nat) : Nat := 3416068 + i * 256
/-- 0x3420.05 AutoLoad. -/
abbrev Ob.modelAutoLoad (i : Nat) : Nat := 3416069 + i * 256
/-- 0x3420.06 Load. -/
abbrev Ob.modelLoad (i : Nat) : Nat := 3416070 + i * 256
/-- 0x3420.07 Unload. -/
abbrev Ob.modelUnload (i : Nat) : Nat := 3416071 + i * 256
/-- 0x3420.08 LoadError. -/
abbrev Ob.modelLoadError (i : Nat) : Nat := 3416072 + i * 256
/-- 0x3420.09 EngineMask. -/
abbrev Ob.modelEngineMask (i : Nat) : Nat := 3416073 + i * 256
/-- 0x3420.0A Placement. -/
abbrev Ob.modelPlacement (i : Nat) : Nat := 3416074 + i * 256
/-- 0x3420.10 Enable. -/
abbrev Ob.modelEnable (i : Nat) : Nat := 3416080 + i * 256
/-- 0x3420.11 Input 0–3. -/
abbrev Ob.modelInput (i : Nat) (n : Nat) : Nat := 3416081 + i * 256 + n
/-- 0x3420.15 OutputQueue. -/
abbrev Ob.modelOutputQueue (i : Nat) : Nat := 3416085 + i * 256
/-- 0x3420.16 Budget. -/
abbrev Ob.modelBudget (i : Nat) : Nat := 3416086 + i * 256
/-- 0x3420.17 Priority. -/
abbrev Ob.modelPriority (i : Nat) : Nat := 3416087 + i * 256
/-- 0x3420.18 InputDepth. -/
abbrev Ob.modelInputDepth (i : Nat) : Nat := 3416088 + i * 256
/-- 0x3420.19 SkipLate. -/
abbrev Ob.modelSkipLate (i : Nat) : Nat := 3416089 + i * 256
/-- 0x3420.1A AssocWindow. -/
abbrev Ob.modelAssocWindow (i : Nat) : Nat := 3416090 + i * 256
/-- 0x3420.20 RunState. -/
abbrev Ob.modelRunState (i : Nat) : Nat := 3416096 + i * 256
/-- 0x3420.21 Inferences. -/
abbrev Ob.modelInferences (i : Nat) : Nat := 3416097 + i * 256
/-- 0x3420.22 Skipped. -/
abbrev Ob.modelSkipped (i : Nat) : Nat := 3416098 + i * 256
/-- 0x3420.23 Late. -/
abbrev Ob.modelLate (i : Nat) : Nat := 3416099 + i * 256
/-- 0x3420.24 InputDropped. -/
abbrev Ob.modelInputDropped (i : Nat) : Nat := 3416100 + i * 256
/-- 0x3420.25 LastSubject. -/
abbrev Ob.modelLastSubject (i : Nat) : Nat := 3416101 + i * 256
/-- 0x3420.26 LastCompletion. -/
abbrev Ob.modelLastCompletion (i : Nat) : Nat := 3416102 + i * 256
/-- 0x3420.27 MeanRunTime. -/
abbrev Ob.modelMeanRunTime (i : Nat) : Nat := 3416103 + i * 256
/-- 0x3600.01 CupperState. -/
abbrev Ob.cupperState : Nat := 3538945
/-- 0x3600.02 InjectResult. -/
abbrev Ob.injectResult : Nat := 3538946
/-- 0x3600.03 InjectStamp. -/
abbrev Ob.injectStamp : Nat := 3538947
/-- 0x3600.04 InjectRerun. -/
abbrev Ob.injectRerun : Nat := 3538948
/-- 0x3600.05 LockstepFaults. -/
abbrev Ob.lockstepFaults : Nat := 3538949
/-- 0x3600.06 SafeOutputState. -/
abbrev Ob.safeOutputState : Nat := 3538950
/-- 0x3600.07 SafeReset. -/
abbrev Ob.safeReset : Nat := 3538951
/-- 0x3600.08 TestPulseWidth. -/
abbrev Ob.testPulseWidth : Nat := 3538952
/-- 0x3600.09 TestPulsePeriod. -/
abbrev Ob.testPulsePeriod : Nat := 3538953
/-- 0x3600.0A FeedbackDelay. -/
abbrev Ob.feedbackDelay : Nat := 3538954
/-- 0x3600.0B FbkCycle. -/
abbrev Ob.fbkCycle : Nat := 3538955
/-- 0x3600.0C FbkPointWait. -/
abbrev Ob.fbkPointWait : Nat := 3538956
/-- 0x3600.0D FbkMaxAge. -/
abbrev Ob.fbkMaxAge : Nat := 3538957
/-- 0x3600.0E WeightScanPeriod. -/
abbrev Ob.weightScanPeriod : Nat := 3538958
/-- 0x3600.0F CanaryTimeout. -/
abbrev Ob.canaryTimeout : Nat := 3538959
/-- 0x3600.10 FbkOverflows. -/
abbrev Ob.fbkOverflows : Nat := 3538960
/-- 0x3600.11 SafeFaults. -/
abbrev Ob.safeFaults : Nat := 3538961
/-- 0x3610.01 Enable. -/
abbrev Ob.chanEnable (i : Nat) : Nat := 3543041 + i * 256
/-- 0x3610.02 Policy. -/
abbrev Ob.chanPolicy (i : Nat) : Nat := 3543042 + i * 256
/-- 0x3610.03 PolicyEffective. -/
abbrev Ob.chanPolicyEffective (i : Nat) : Nat := 3543043 + i * 256
/-- 0x3610.04 ChannelState. -/
abbrev Ob.chanState (i : Nat) : Nat := 3543044 + i * 256
/-- 0x3610.05 SafeOutputBit. -/
abbrev Ob.chanSafeOutputBit (i : Nat) : Nat := 3543045 + i * 256
/-- 0x3610.06 RestartMode. -/
abbrev Ob.chanRestartMode (i : Nat) : Nat := 3543046 + i * 256
/-- 0x3610.07 ClearCycles. -/
abbrev Ob.chanClearCycles (i : Nat) : Nat := 3543047 + i * 256
/-- 0x3610.08 ChannelRestart. -/
abbrev Ob.chanRestart (i : Nat) : Nat := 3543048 + i * 256
/-- 0x3610.09 ScannerMask. -/
abbrev Ob.chanScannerMask (i : Nat) : Nat := 3543049 + i * 256
/-- 0x3610.0A FieldSetSelect. -/
abbrev Ob.chanFieldSetSelect (i : Nat) : Nat := 3543050 + i * 256
/-- 0x3610.0B Model. -/
abbrev Ob.chanModel (i : Nat) : Nat := 3543051 + i * 256
/-- 0x3610.0C PermitField. -/
abbrev Ob.chanPermitField (i : Nat) : Nat := 3543052 + i * 256
/-- 0x3610.0D DistanceOffset. -/
abbrev Ob.chanDistanceOffset (i : Nat) : Nat := 3543053 + i * 256
/-- 0x3610.0E RangeTensor. -/
abbrev Ob.chanRangeTensor (i : Nat) : Nat := 3543054 + i * 256
/-- 0x3610.0F RangeMin, RangeMax. -/
abbrev Ob.chanRangeMin (i : Nat) : Nat := 3543055 + i * 256
/-- 0x3610.10 RangeMin, RangeMax. -/
abbrev Ob.chanRangeMax (i : Nat) : Nat := 3543056 + i * 256
/-- 0x3610.11 MaxClosingRate. -/
abbrev Ob.chanMaxClosingRate (i : Nat) : Nat := 3543057 + i * 256
/-- 0x3610.12 DistTolerance. -/
abbrev Ob.chanDistTolerance (i : Nat) : Nat := 3543058 + i * 256
/-- 0x3610.13 CanaryEvery. -/
abbrev Ob.chanCanaryEvery (i : Nat) : Nat := 3543059 + i * 256
/-- 0x3610.14 SafetyBudget. -/
abbrev Ob.chanSafetyBudget (i : Nat) : Nat := 3543060 + i * 256
/-- 0x3610.15 DoubtCause. -/
abbrev Ob.chanDoubtCause (i : Nat) : Nat := 3543061 + i * 256
/-- 0x3610.16 FallbackIntrusion. -/
abbrev Ob.chanFallbackIntrusion (i : Nat) : Nat := 3543062 + i * 256
/-- 0x3610.17 FallbackNearest. -/
abbrev Ob.chanFallbackNearest (i : Nat) : Nat := 3543063 + i * 256
/-- 0x3610.18 LastDecision. -/
abbrev Ob.chanLastDecision (i : Nat) : Nat := 3543064 + i * 256
/-- 0x3610.19 CheckFailCount 1–6. -/
abbrev Ob.chanCheckFailCount (i : Nat) (n : Nat) : Nat := 3543065 + i * 256 + n
/-- 0x3610.1F Stops. -/
abbrev Ob.chanStops (i : Nat) : Nat := 3543071 + i * 256
/-- 0x3640.01 FieldSet. -/
abbrev Ob.fieldSet (i : Nat) : Nat := 3555329 + i * 256
/-- 0x3640.02 FieldSetValid. -/
abbrev Ob.fieldSetValid (i : Nat) : Nat := 3555330 + i * 256
/-- 0x3640.03 FieldSetCrc. -/
abbrev Ob.fieldSetCrc (i : Nat) : Nat := 3555331 + i * 256
/-- 0x3660.01 FbkMountX, Y, Z. -/
abbrev Ob.fbkMountX (i : Nat) : Nat := 3563521 + i * 256
/-- 0x3660.02 FbkMountX, Y, Z. -/
abbrev Ob.fbkMountY (i : Nat) : Nat := 3563522 + i * 256
/-- 0x3660.03 FbkMountX, Y, Z. -/
abbrev Ob.fbkMountZ (i : Nat) : Nat := 3563523 + i * 256
/-- 0x3660.04 FbkMountQw, Qx, Qy, Qz. -/
abbrev Ob.fbkMountQw (i : Nat) : Nat := 3563524 + i * 256
/-- 0x3660.05 FbkMountQw, Qx, Qy, Qz. -/
abbrev Ob.fbkMountQx (i : Nat) : Nat := 3563525 + i * 256
/-- 0x3660.06 FbkMountQw, Qx, Qy, Qz. -/
abbrev Ob.fbkMountQy (i : Nat) : Nat := 3563526 + i * 256
/-- 0x3660.07 FbkMountQw, Qx, Qy, Qz. -/
abbrev Ob.fbkMountQz (i : Nat) : Nat := 3563527 + i * 256
/-- 0x3800.01 StructuresLoaded. -/
abbrev Ob.structuresLoaded : Nat := 3670017
/-- 0x3800.02 SolverAreaSize. -/
abbrev Ob.solverAreaSize : Nat := 3670018
/-- 0x3800.03 SolverAreaFree. -/
abbrev Ob.solverAreaFree : Nat := 3670019
/-- 0x3800.04 BatchesRun. -/
abbrev Ob.batchesRun : Nat := 3670020
/-- 0x3800.05 SystemsSolved. -/
abbrev Ob.systemsSolved : Nat := 3670021
/-- 0x3800.06 Busy. -/
abbrev Ob.busy : Nat := 3670022
/-- 0x3840.01 Descriptor. -/
abbrev Ob.structDescriptor (i : Nat) : Nat := 3686401 + i * 256
/-- 0x3840.02 StructState. -/
abbrev Ob.structState (i : Nat) : Nat := 3686402 + i * 256
/-- 0x3840.03 LoadError. -/
abbrev Ob.structLoadError (i : Nat) : Nat := 3686403 + i * 256
/-- 0x3840.04 Enable. -/
abbrev Ob.structEnable (i : Nat) : Nat := 3686404 + i * 256
/-- 0x3840.05 RequestQueue. -/
abbrev Ob.structRequestQueue (i : Nat) : Nat := 3686405 + i * 256
/-- 0x3840.06 ResultQueue. -/
abbrev Ob.structResultQueue (i : Nat) : Nat := 3686406 + i * 256
/-- 0x3840.07 PivotFloor. -/
abbrev Ob.structPivotFloor (i : Nat) : Nat := 3686407 + i * 256
/-- 0x3840.08 Lambda. -/
abbrev Ob.structLambda (i : Nat) : Nat := 3686408 + i * 256
/-- 0x3840.09 RefineSteps. -/
abbrev Ob.structRefineSteps (i : Nat) : Nat := 3686409 + i * 256
/-- 0x3840.0A PoseSystem. -/
abbrev Ob.structPoseSystem (i : Nat) : Nat := 3686410 + i * 256
/-- 0x3840.0B PoseRow. -/
abbrev Ob.structPoseRow (i : Nat) : Nat := 3686411 + i * 256
/-- 0x3840.0C FactorFormat. -/
abbrev Ob.structFactorFormat (i : Nat) : Nat := 3686412 + i * 256
/-- 0x3840.0D ClassFormat 0–15. -/
abbrev Ob.structClassFormat (i : Nat) (n : Nat) : Nat := 3686413 + i * 256 + n
/-- 0x3840.20 StateBase. -/
abbrev Ob.structStateBase (i : Nat) : Nat := 3686432 + i * 256
/-- 0x3840.21 SolutionSeq. -/
abbrev Ob.structSolutionSeq (i : Nat) : Nat := 3686433 + i * 256
/-- 0x3840.22 SolveLatency. -/
abbrev Ob.structSolveLatency (i : Nat) : Nat := 3686434 + i * 256
/-- 0x3840.23 Requests. -/
abbrev Ob.structRequests (i : Nat) : Nat := 3686435 + i * 256
/-- 0x3840.24 RequestsRefused. -/
abbrev Ob.structRequestsRefused (i : Nat) : Nat := 3686436 + i * 256
/-- 0x3840.25 LastSubject. -/
abbrev Ob.structLastSubject (i : Nat) : Nat := 3686437 + i * 256
/-- 0x3840.26 LastCompletion. -/
abbrev Ob.structLastCompletion (i : Nat) : Nat := 3686438 + i * 256
/-- 0x3840.27 Regularised. -/
abbrev Ob.structRegularised (i : Nat) : Nat := 3686439 + i * 256
/-- 0x3840.28 Singular. -/
abbrev Ob.structSingular (i : Nat) : Nat := 3686440 + i * 256
/-- 0x3840.29 Saturations. -/
abbrev Ob.structSaturations (i : Nat) : Nat := 3686441 + i * 256
/-- 0x4000.01 RateMode. -/
abbrev Ob.rateMode : Nat := 4194305
/-- 0x4000.02 DomainsActive. -/
abbrev Ob.domainsActive : Nat := 4194306
/-- 0x4001.01 Enable. -/
abbrev Ob.domEnable (i : Nat) : Nat := 4194561 + i * 256
/-- 0x4001.02 Rate. -/
abbrev Ob.domRate (i : Nat) : Nat := 4194562 + i * 256
/-- 0x4001.03 ClockSource. -/
abbrev Ob.domClockSource (i : Nat) : Nat := 4194563 + i * 256
/-- 0x4001.04 StampQueue. -/
abbrev Ob.domStampQueue (i : Nat) : Nat := 4194564 + i * 256
/-- 0x4001.05 DomainState. -/
abbrev Ob.domState (i : Nat) : Nat := 4194565 + i * 256
/-- 0x4001.06 BlockSeq. -/
abbrev Ob.domBlockSeq (i : Nat) : Nat := 4194566 + i * 256
/-- 0x4010.01 Enable. -/
abbrev Ob.portEnable (i : Nat) : Nat := 4198401 + i * 256
/-- 0x4010.02 Direction. -/
abbrev Ob.portDirection (i : Nat) : Nat := 4198402 + i * 256
/-- 0x4010.03 Rate. -/
abbrev Ob.portRate (i : Nat) : Nat := 4198403 + i * 256
/-- 0x4010.04 Domain. -/
abbrev Ob.portDomain (i : Nat) : Nat := 4198404 + i * 256
/-- 0x4010.05 Alignment. -/
abbrev Ob.portAlignment (i : Nat) : Nat := 4198405 + i * 256
/-- 0x4010.06 MissingPolicy. -/
abbrev Ob.portMissingPolicy (i : Nat) : Nat := 4198406 + i * 256
/-- 0x4010.07 BadPolicy. -/
abbrev Ob.portBadPolicy (i : Nat) : Nat := 4198407 + i * 256
/-- 0x4010.08 StampQueue. -/
abbrev Ob.portStampQueue (i : Nat) : Nat := 4198408 + i * 256
/-- 0x4010.09 OutputStartStamp. -/
abbrev Ob.portOutputStartStamp (i : Nat) : Nat := 4198409 + i * 256
/-- 0x4010.0A OutputStart. -/
abbrev Ob.portOutputStart (i : Nat) : Nat := 4198410 + i * 256
/-- 0x4010.0B OutputStop. -/
abbrev Ob.portOutputStop (i : Nat) : Nat := 4198411 + i * 256
/-- 0x4010.0C OutputStatus. -/
abbrev Ob.portOutputStatus (i : Nat) : Nat := 4198412 + i * 256
/-- 0x4010.0D PortState. -/
abbrev Ob.portState (i : Nat) : Nat := 4198413 + i * 256
/-- 0x4010.0E ConverterState. -/
abbrev Ob.portConverterState (i : Nat) : Nat := 4198414 + i * 256
/-- 0x4010.0F InLatency, OutLatency. -/
abbrev Ob.portInLatency (i : Nat) : Nat := 4198415 + i * 256
/-- 0x4010.10 InLatency, OutLatency. -/
abbrev Ob.portOutLatency (i : Nat) : Nat := 4198416 + i * 256
/-- 0x4010.11 Violations. -/
abbrev Ob.portViolations (i : Nat) : Nat := 4198417 + i * 256
/-- 0x4010.12 BlocksBad. -/
abbrev Ob.portBlocksBad (i : Nat) : Nat := 4198418 + i * 256
/-- 0x4010.13 BlocksMissing. -/
abbrev Ob.portBlocksMissing (i : Nat) : Nat := 4198419 + i * 256
/-- 0x4010.14 MeasuredRate. -/
abbrev Ob.portMeasuredRate (i : Nat) : Nat := 4198420 + i * 256
/-- 0x4010.20 Channels. -/
abbrev Ob.portChannels (i : Nat) : Nat := 4198432 + i * 256
/-- 0x4010.20 PdmClock. -/
abbrev Ob.portPdmClock (i : Nat) : Nat := 4198432 + i * 256
/-- 0x4010.20 Role. -/
abbrev Ob.portRole (i : Nat) : Nat := 4198432 + i * 256
/-- 0x4010.20 Standard. -/
abbrev Ob.portStandard (i : Nat) : Nat := 4198432 + i * 256
/-- 0x4010.21 Encoding. -/
abbrev Ob.portEncoding (i : Nat) : Nat := 4198433 + i * 256
/-- 0x4010.21 Format. -/
abbrev Ob.portFormat (i : Nat) : Nat := 4198433 + i * 256
/-- 0x4010.21 LineMask. -/
abbrev Ob.portLineMask (i : Nat) : Nat := 4198433 + i * 256
/-- 0x4010.21 TxChannelStatus. -/
abbrev Ob.portTxChannelStatus (i : Nat) : Nat := 4198433 + i * 256
/-- 0x4010.22 PacketTime. -/
abbrev Ob.portPacketTime (i : Nat) : Nat := 4198434 + i * 256
/-- 0x4010.22 TxUserData. -/
abbrev Ob.portTxUserData (i : Nat) : Nat := 4198434 + i * 256
/-- 0x4010.22 WordLength. -/
abbrev Ob.portWordLength (i : Nat) : Nat := 4198434 + i * 256
/-- 0x4010.23 Address. -/
abbrev Ob.portAddress (i : Nat) : Nat := 4198435 + i * 256
/-- 0x4010.23 RxChannelStatus. -/
abbrev Ob.portRxChannelStatus (i : Nat) : Nat := 4198435 + i * 256
/-- 0x4010.23 SlotBits. -/
abbrev Ob.portSlotBits (i : Nat) : Nat := 4198435 + i * 256
/-- 0x4010.24 RxUserData. -/
abbrev Ob.portRxUserData (i : Nat) : Nat := 4198436 + i * 256
/-- 0x4010.24 UdpPort. -/
abbrev Ob.portUdpPort (i : Nat) : Nat := 4198436 + i * 256
/-- 0x4010.25 PayloadType. -/
abbrev Ob.portPayloadType (i : Nat) : Nat := 4198437 + i * 256
/-- 0x4010.25 ValidityPolicy. -/
abbrev Ob.portValidityPolicy (i : Nat) : Nat := 4198437 + i * 256
/-- 0x4010.26 CrccErrors. -/
abbrev Ob.portCrccErrors (i : Nat) : Nat := 4198438 + i * 256
/-- 0x4010.26 LinkOffset. -/
abbrev Ob.portLinkOffset (i : Nat) : Nat := 4198438 + i * 256
/-- 0x4010.27 RtpOffset. -/
abbrev Ob.portRtpOffset (i : Nat) : Nat := 4198439 + i * 256
/-- 0x4010.28 Ssrc. -/
abbrev Ob.portSsrc (i : Nat) : Nat := 4198440 + i * 256
/-- 0x4010.29 TrafficClass. -/
abbrev Ob.portTrafficClass (i : Nat) : Nat := 4198441 + i * 256
/-- 0x4010.2A Dscp. -/
abbrev Ob.portDscp (i : Nat) : Nat := 4198442 + i * 256
/-- 0x4010.2B LatePackets. -/
abbrev Ob.portLatePackets (i : Nat) : Nat := 4198443 + i * 256
/-- 0x4400.01 SourceKind. -/
abbrev Ob.stripSourceKind (i : Nat) : Nat := 4456449 + i * 256
/-- 0x4400.02 SourceSelect. -/
abbrev Ob.stripSourceSelect (i : Nat) : Nat := 4456450 + i * 256
/-- 0x4400.03 Domain. -/
abbrev Ob.stripDomain (i : Nat) : Nat := 4456451 + i * 256
/-- 0x4400.04 Enable. -/
abbrev Ob.stripEnable (i : Nat) : Nat := 4456452 + i * 256
/-- 0x4400.05 Trim. -/
abbrev Ob.stripTrim (i : Nat) : Nat := 4456453 + i * 256
/-- 0x4400.06 Polarity. -/
abbrev Ob.stripPolarity (i : Nat) : Nat := 4456454 + i * 256
/-- 0x4400.07 HpfFreq. -/
abbrev Ob.stripHpfFreq (i : Nat) : Nat := 4456455 + i * 256
/-- 0x4400.08 EqFreq 0–3. -/
abbrev Ob.stripEqFreq (i : Nat) (n : Nat) : Nat := 4456456 + i * 256 + n
/-- 0x4400.0C EqGain 0–3. -/
abbrev Ob.stripEqGain (i : Nat) (n : Nat) : Nat := 4456460 + i * 256 + n
/-- 0x4400.10 EqQ 0–3. -/
abbrev Ob.stripEqQ (i : Nat) (n : Nat) : Nat := 4456464 + i * 256 + n
/-- 0x4400.14 GateThreshold. -/
abbrev Ob.stripGateThreshold (i : Nat) : Nat := 4456468 + i * 256
/-- 0x4400.15 CompThreshold. -/
abbrev Ob.stripCompThreshold (i : Nat) : Nat := 4456469 + i * 256
/-- 0x4400.16 CompRatio. -/
abbrev Ob.stripCompRatio (i : Nat) : Nat := 4456470 + i * 256
/-- 0x4400.17 CompAttack. -/
abbrev Ob.stripCompAttack (i : Nat) : Nat := 4456471 + i * 256
/-- 0x4400.18 CompRelease. -/
abbrev Ob.stripCompRelease (i : Nat) : Nat := 4456472 + i * 256
/-- 0x4400.19 Delay. -/
abbrev Ob.stripDelay (i : Nat) : Nat := 4456473 + i * 256
/-- 0x4400.1A Fader. -/
abbrev Ob.stripFader (i : Nat) : Nat := 4456474 + i * 256
/-- 0x4400.1B Mute. -/
abbrev Ob.stripMute (i : Nat) : Nat := 4456475 + i * 256
/-- 0x4400.1C RecallSafe. -/
abbrev Ob.stripRecallSafe (i : Nat) : Nat := 4456476 + i * 256
/-- 0x4400.20 SendBus 0–15. -/
abbrev Ob.stripSendBus (i : Nat) (n : Nat) : Nat := 4456480 + i * 256 + n
/-- 0x4400.30 SendLevel 0–15. -/
abbrev Ob.stripSendLevel (i : Nat) (n : Nat) : Nat := 4456496 + i * 256 + n
/-- 0x4400.40 SendPreFader. -/
abbrev Ob.stripSendPreFader (i : Nat) : Nat := 4456512 + i * 256
/-- 0x4400.60 StripState. -/
abbrev Ob.stripState (i : Nat) : Nat := 4456544 + i * 256
/-- 0x4400.61 PeakLevel. -/
abbrev Ob.stripPeakLevel (i : Nat) : Nat := 4456545 + i * 256
/-- 0x4400.62 GainReduction. -/
abbrev Ob.stripGainReduction (i : Nat) : Nat := 4456546 + i * 256
/-- 0x4400.63 LatencyTo. -/
abbrev Ob.stripLatencyTo (i : Nat) : Nat := 4456547 + i * 256
/-- 0x4400.64 LateBlocks. -/
abbrev Ob.stripLateBlocks (i : Nat) : Nat := 4456548 + i * 256
/-- 0x4400.65 Underruns. -/
abbrev Ob.stripUnderruns (i : Nat) : Nat := 4456549 + i * 256
/-- 0x4600.03 Domain. -/
abbrev Ob.busDomain (i : Nat) : Nat := 4587523 + i * 256
/-- 0x4600.04 Enable. -/
abbrev Ob.busEnable (i : Nat) : Nat := 4587524 + i * 256
/-- 0x4600.07 HpfFreq. -/
abbrev Ob.busHpfFreq (i : Nat) : Nat := 4587527 + i * 256
/-- 0x4600.08 EqFreq 0–3. -/
abbrev Ob.busEqFreq (i : Nat) (n : Nat) : Nat := 4587528 + i * 256 + n
/-- 0x4600.0C EqGain 0–3. -/
abbrev Ob.busEqGain (i : Nat) (n : Nat) : Nat := 4587532 + i * 256 + n
/-- 0x4600.10 EqQ 0–3. -/
abbrev Ob.busEqQ (i : Nat) (n : Nat) : Nat := 4587536 + i * 256 + n
/-- 0x4600.15 CompThreshold. -/
abbrev Ob.busCompThreshold (i : Nat) : Nat := 4587541 + i * 256
/-- 0x4600.16 CompRatio. -/
abbrev Ob.busCompRatio (i : Nat) : Nat := 4587542 + i * 256
/-- 0x4600.17 CompAttack. -/
abbrev Ob.busCompAttack (i : Nat) : Nat := 4587543 + i * 256
/-- 0x4600.18 CompRelease. -/
abbrev Ob.busCompRelease (i : Nat) : Nat := 4587544 + i * 256
/-- 0x4600.19 Delay. -/
abbrev Ob.busDelay (i : Nat) : Nat := 4587545 + i * 256
/-- 0x4600.1A Fader. -/
abbrev Ob.busFader (i : Nat) : Nat := 4587546 + i * 256
/-- 0x4600.1B Mute. -/
abbrev Ob.busMute (i : Nat) : Nat := 4587547 + i * 256
/-- 0x4600.1C RecallSafe. -/
abbrev Ob.busRecallSafe (i : Nat) : Nat := 4587548 + i * 256
/-- 0x4600.60 StripState. -/
abbrev Ob.busState (i : Nat) : Nat := 4587616 + i * 256
/-- 0x4600.61 PeakLevel. -/
abbrev Ob.busPeakLevel (i : Nat) : Nat := 4587617 + i * 256
/-- 0x4600.62 GainReduction. -/
abbrev Ob.busGainReduction (i : Nat) : Nat := 4587618 + i * 256
/-- 0x4600.63 LatencyTo. -/
abbrev Ob.busLatencyTo (i : Nat) : Nat := 4587619 + i * 256
/-- 0x4700.01 RouteSourceKind. -/
abbrev Ob.routeSourceKind (i : Nat) : Nat := 4653057 + i * 256
/-- 0x4700.02 RouteSourceSelect. -/
abbrev Ob.routeSourceSelect (i : Nat) : Nat := 4653058 + i * 256
/-- 0x4700.03 MatrixBus 0–7. -/
abbrev Ob.routeMatrixBus (i : Nat) (n : Nat) : Nat := 4653059 + i * 256 + n
/-- 0x4700.0B MatrixLevel 0–7. -/
abbrev Ob.routeMatrixLevel (i : Nat) (n : Nat) : Nat := 4653067 + i * 256 + n
/-- 0x4700.13 RouteGain. -/
abbrev Ob.routeGain (i : Nat) : Nat := 4653075 + i * 256
/-- 0x4700.14 RouteDelay. -/
abbrev Ob.routeDelay (i : Nat) : Nat := 4653076 + i * 256
/-- 0x4700.15 LimitThreshold. -/
abbrev Ob.routeLimitThreshold (i : Nat) : Nat := 4653077 + i * 256
/-- 0x4700.16 DestKind. -/
abbrev Ob.routeDestKind (i : Nat) : Nat := 4653078 + i * 256
/-- 0x4700.17 DestSelect. -/
abbrev Ob.routeDestSelect (i : Nat) : Nat := 4653079 + i * 256
/-- 0x4700.18 RouteMute. -/
abbrev Ob.routeMute (i : Nat) : Nat := 4653080 + i * 256
/-- 0x4700.19 RecallSafe. -/
abbrev Ob.routeRecallSafe (i : Nat) : Nat := 4653081 + i * 256
/-- 0x4700.60 RouteState. -/
abbrev Ob.routeState (i : Nat) : Nat := 4653152 + i * 256
/-- 0x4700.61 RoutePeak. -/
abbrev Ob.routePeak (i : Nat) : Nat := 4653153 + i * 256
/-- 0x4700.62 Clips. -/
abbrev Ob.routeClips (i : Nat) : Nat := 4653154 + i * 256
/-- 0x4700.63 LatencyTo. -/
abbrev Ob.routeLatencyTo (i : Nat) : Nat := 4653155 + i * 256
/-- 0x4740.01 BfEnable. -/
abbrev Ob.bfEnable (i : Nat) : Nat := 4669441 + i * 256
/-- 0x4740.02 BfDomain. -/
abbrev Ob.bfDomain (i : Nat) : Nat := 4669442 + i * 256
/-- 0x4740.03 Taps. -/
abbrev Ob.bfTaps (i : Nat) : Nat := 4669443 + i * 256
/-- 0x4740.04 ActiveBank. -/
abbrev Ob.bfActiveBank (i : Nat) : Nat := 4669444 + i * 256
/-- 0x4740.05 BfGain. -/
abbrev Ob.bfGain (i : Nat) : Nat := 4669445 + i * 256
/-- 0x4740.06 BfState. -/
abbrev Ob.bfState (i : Nat) : Nat := 4669446 + i * 256
/-- 0x4740.10 Member 0–31. -/
abbrev Ob.bfMember (i : Nat) (n : Nat) : Nat := 4669456 + i * 256 + n
/-- 0x4740.30 Bank 0–15. -/
abbrev Ob.bfBank (i : Nat) (n : Nat) : Nat := 4669488 + i * 256 + n
/-- 0x4750.01 ToneEnable. -/
abbrev Ob.toneEnable (i : Nat) : Nat := 4673537 + i * 256
/-- 0x4750.02 ToneDomain. -/
abbrev Ob.toneDomain (i : Nat) : Nat := 4673538 + i * 256
/-- 0x4750.03 Waveform. -/
abbrev Ob.toneWaveform (i : Nat) : Nat := 4673539 + i * 256
/-- 0x4750.04 Frequency. -/
abbrev Ob.toneFrequency (i : Nat) : Nat := 4673540 + i * 256
/-- 0x4750.05 ToneLevel. -/
abbrev Ob.toneLevel (i : Nat) : Nat := 4673541 + i * 256
/-- 0x4750.06 OnTime, OffTime. -/
abbrev Ob.toneOnTime (i : Nat) : Nat := 4673542 + i * 256
/-- 0x4750.07 OnTime, OffTime. -/
abbrev Ob.toneOffTime (i : Nat) : Nat := 4673543 + i * 256
/-- 0x4758.01 VoiceDomain. -/
abbrev Ob.voiceDomain (i : Nat) : Nat := 4675585 + i * 256
/-- 0x4758.02 ClipAddress. -/
abbrev Ob.voiceClipAddress (i : Nat) : Nat := 4675586 + i * 256
/-- 0x4758.03 ClipLength. -/
abbrev Ob.voiceClipLength (i : Nat) : Nat := 4675587 + i * 256
/-- 0x4758.04 ClipFormat. -/
abbrev Ob.voiceClipFormat (i : Nat) : Nat := 4675588 + i * 256
/-- 0x4758.05 VoiceLevel. -/
abbrev Ob.voiceLevel (i : Nat) : Nat := 4675589 + i * 256
/-- 0x4758.06 PlayStamp. -/
abbrev Ob.voicePlayStamp (i : Nat) : Nat := 4675590 + i * 256
/-- 0x4758.07 Play. -/
abbrev Ob.voicePlay (i : Nat) : Nat := 4675591 + i * 256
/-- 0x4758.08 Stop. -/
abbrev Ob.voiceStop (i : Nat) : Nat := 4675592 + i * 256
/-- 0x4758.09 Loop. -/
abbrev Ob.voiceLoop (i : Nat) : Nat := 4675593 + i * 256
/-- 0x4758.0A VoiceState. -/
abbrev Ob.voiceState (i : Nat) : Nat := 4675594 + i * 256
/-- 0x4760.01 ControlQueue. -/
abbrev Ob.bindControlQueue (i : Nat) : Nat := 4677633 + i * 256
/-- 0x4760.02 Target. -/
abbrev Ob.bindTarget (i : Nat) : Nat := 4677634 + i * 256
/-- 0x4760.03 ValueOffset. -/
abbrev Ob.bindValueOffset (i : Nat) : Nat := 4677635 + i * 256
/-- 0x4760.04 ValueFormat. -/
abbrev Ob.bindValueFormat (i : Nat) : Nat := 4677636 + i * 256
/-- 0x4760.05 Scale. -/
abbrev Ob.bindScale (i : Nat) : Nat := 4677637 + i * 256
/-- 0x4760.06 ControlRamp. -/
abbrev Ob.bindControlRamp (i : Nat) : Nat := 4677638 + i * 256
/-- 0x4760.07 MaxAge. -/
abbrev Ob.bindMaxAge (i : Nat) : Nat := 4677639 + i * 256
/-- 0x4760.08 Applied. -/
abbrev Ob.bindApplied (i : Nat) : Nat := 4677640 + i * 256
/-- 0x4760.09 Discarded. -/
abbrev Ob.bindDiscarded (i : Nat) : Nat := 4677641 + i * 256
/-- 0x47F0.01 LanesInUse. -/
abbrev Ob.lanesInUse : Nat := 4714497
/-- 0x47F0.02 StripsInUse. -/
abbrev Ob.stripsInUse : Nat := 4714498
/-- 0x47F0.03 BridgeChannelsUsed. -/
abbrev Ob.bridgeChannelsUsed : Nat := 4714499
/-- 0x4800.01 Source. -/
abbrev Ob.dacSource (i : Nat) : Nat := 4718593 + i * 256
/-- 0x4800.02 Setpoint. -/
abbrev Ob.dacSetpoint (i : Nat) : Nat := 4718594 + i * 256
/-- 0x4800.03 Start / Stop. -/
abbrev Ob.dacStart (i : Nat) : Nat := 4718595 + i * 256
/-- 0x4800.04 Start / Stop. -/
abbrev Ob.dacStop (i : Nat) : Nat := 4718596 + i * 256
/-- 0x4800.05 Status. -/
abbrev Ob.dacStatus (i : Nat) : Nat := 4718597 + i * 256
/-- 0x4800.06 SafeValue. -/
abbrev Ob.dacSafeValue (i : Nat) : Nat := 4718598 + i * 256
/-- 0x4800.07 Tolerance. -/
abbrev Ob.dacTolerance (i : Nat) : Nat := 4718599 + i * 256
/-- 0x4800.08 OutLatency. -/
abbrev Ob.dacOutLatency (i : Nat) : Nat := 4718600 + i * 256
/-- 0x4800.10 SettleTime. -/
abbrev Ob.dacSettleTime (i : Nat) : Nat := 4718608 + i * 256
/-- 0x4800.11 FaultCount. -/
abbrev Ob.dacFaultCount (i : Nat) : Nat := 4718609 + i * 256
/-- 0x4800.12 ChannelState. -/
abbrev Ob.dacChannelState (i : Nat) : Nat := 4718610 + i * 256
/-- 0x4800.13 FaultClear. -/
abbrev Ob.dacFaultClear (i : Nat) : Nat := 4718611 + i * 256
/-- 0x4800.14 ReadbackMean. -/
abbrev Ob.dacReadbackMean (i : Nat) : Nat := 4718612 + i * 256
/-- 0x4800.15 Faults. -/
abbrev Ob.dacFaults (i : Nat) : Nat := 4718613 + i * 256
/-- 0x4810.01 Setpoint. -/
abbrev Ob.pwmSetpoint (i : Nat) : Nat := 4722689 + i * 256
/-- 0x4810.02 Start / Stop. -/
abbrev Ob.pwmStart (i : Nat) : Nat := 4722690 + i * 256
/-- 0x4810.03 Start / Stop. -/
abbrev Ob.pwmStop (i : Nat) : Nat := 4722691 + i * 256
/-- 0x4810.04 SafeValue. -/
abbrev Ob.pwmSafeValue (i : Nat) : Nat := 4722692 + i * 256
/-- 0x4810.05 MonInput. -/
abbrev Ob.pwmMonInput (i : Nat) : Nat := 4722693 + i * 256
/-- 0x4810.06 MonGain. -/
abbrev Ob.pwmMonGain (i : Nat) : Nat := 4722694 + i * 256
/-- 0x4810.07 MonOffset. -/
abbrev Ob.pwmMonOffset (i : Nat) : Nat := 4722695 + i * 256
/-- 0x4810.08 Tolerance. -/
abbrev Ob.pwmTolerance (i : Nat) : Nat := 4722696 + i * 256
/-- 0x4810.10 SettleTime. -/
abbrev Ob.pwmSettleTime (i : Nat) : Nat := 4722704 + i * 256
/-- 0x4810.11 FaultCount. -/
abbrev Ob.pwmFaultCount (i : Nat) : Nat := 4722705 + i * 256
/-- 0x4810.12 ChannelState. -/
abbrev Ob.pwmChannelState (i : Nat) : Nat := 4722706 + i * 256
/-- 0x4810.13 FaultClear. -/
abbrev Ob.pwmFaultClear (i : Nat) : Nat := 4722707 + i * 256
/-- 0x4810.14 ReadbackMean. -/
abbrev Ob.pwmReadbackMean (i : Nat) : Nat := 4722708 + i * 256
/-- 0x4810.15 Faults. -/
abbrev Ob.pwmFaults (i : Nat) : Nat := 4722709 + i * 256
/-- 0x4880.01 ReadbackWindow. -/
abbrev Ob.readbackWindow : Nat := 4751361
/-- 0x4880.02 SafeRecordValid. -/
abbrev Ob.safeRecordValid : Nat := 4751362
/-- 0x4880.03 AdcMean 0–15. -/
abbrev Ob.adcMean (n : Nat) : Nat := 4751363 + n
/-- 0x4900.01 Enable. -/
abbrev Ob.beaconEnable (i : Nat) : Nat := 4784129 + i * 256
/-- 0x4900.02 BeaconQueue. -/
abbrev Ob.beaconQueue (i : Nat) : Nat := 4784130 + i * 256
/-- 0x4900.03 BadPolicy. -/
abbrev Ob.beaconBadPolicy (i : Nat) : Nat := 4784131 + i * 256
/-- 0x4900.04 BeaconState. -/
abbrev Ob.beaconState (i : Nat) : Nat := 4784132 + i * 256
/-- 0x4900.05 AmbientNow. -/
abbrev Ob.beaconAmbientNow (i : Nat) : Nat := 4784133 + i * 256
/-- 0x4900.06 FramesGood, FramesBad, FloodAborts, ViolationAborts. -/
abbrev Ob.beaconFramesGood (i : Nat) : Nat := 4784134 + i * 256
/-- 0x4900.07 FramesGood, FramesBad, FloodAborts, ViolationAborts. -/
abbrev Ob.beaconFramesBad (i : Nat) : Nat := 4784135 + i * 256
/-- 0x4900.08 FramesGood, FramesBad, FloodAborts, ViolationAborts. -/
abbrev Ob.beaconFloodAborts (i : Nat) : Nat := 4784136 + i * 256
/-- 0x4900.09 FramesGood, FramesBad, FloodAborts, ViolationAborts. -/
abbrev Ob.beaconViolationAborts (i : Nat) : Nat := 4784137 + i * 256
/-- 0x4900.0A LastFrameStamp. -/
abbrev Ob.beaconLastFrameStamp (i : Nat) : Nat := 4784138 + i * 256
/-- 0x5000.01 CarafeCells. -/
abbrev Ob.carafeCells : Nat := 5242881
/-- 0x5000.02 CarafeFree. -/
abbrev Ob.carafeFree : Nat := 5242882
/-- 0x5000.03 CarafeLowWater. -/
abbrev Ob.carafeLowWater : Nat := 5242883
/-- 0x5000.04 SpillAreaSize. -/
abbrev Ob.spillAreaSize : Nat := 5242884
/-- 0x5000.05 SpillAreaFree. -/
abbrev Ob.spillAreaFree : Nat := 5242885
/-- 0x5000.06 QueuesEnabled. -/
abbrev Ob.queuesEnabled : Nat := 5242886
/-- 0x5000.07 EventsLost. -/
abbrev Ob.eventsLost : Nat := 5242887
/-- 0x5000.08 HostAreaBase. -/
abbrev Ob.hostAreaBase : Nat := 5242888
/-- 0x5000.09 HostAreaSize. -/
abbrev Ob.hostAreaSize : Nat := 5242889
/-- 0x5000.0A PublishedBase. -/
abbrev Ob.publishedBase : Nat := 5242890
/-- 0x5000.0B PublishedSize. -/
abbrev Ob.publishedSize : Nat := 5242891
/-- 0x5001.01 QueueSelect. -/
abbrev Ob.queueSelect : Nat := 5243137
/-- 0x5002.01 QueueKind. -/
abbrev Ob.qQueueKind : Nat := 5243393
/-- 0x5002.02 Enable. -/
abbrev Ob.qEnable : Nat := 5243394
/-- 0x5002.03 Role. -/
abbrev Ob.qRole : Nat := 5243395
/-- 0x5002.04 Capacity. -/
abbrev Ob.qCapacity : Nat := 5243396
/-- 0x5002.05 RingEntries. -/
abbrev Ob.qRingEntries : Nat := 5243397
/-- 0x5002.06 CellLimit. -/
abbrev Ob.qCellLimit : Nat := 5243398
/-- 0x5002.07 OverflowRule. -/
abbrev Ob.qOverflowRule : Nat := 5243399
/-- 0x5002.08 StaleTime. -/
abbrev Ob.qStaleTime : Nat := 5243400
/-- 0x5002.09 NotifyVector. -/
abbrev Ob.qNotifyVector : Nat := 5243401
/-- 0x5002.0A RingWindow. -/
abbrev Ob.qRingWindow : Nat := 5243402
/-- 0x5002.0B RingOffset. -/
abbrev Ob.qRingOffset : Nat := 5243403
/-- 0x5002.0C RingSlots. -/
abbrev Ob.qRingSlots : Nat := 5243404
/-- 0x5002.0D SlotSize. -/
abbrev Ob.qSlotSize : Nat := 5243405
/-- 0x5002.20 QueueState. -/
abbrev Ob.qQueueState : Nat := 5243424
/-- 0x5002.21 Depth. -/
abbrev Ob.qDepth : Nat := 5243425
/-- 0x5002.22 CellsHeld. -/
abbrev Ob.qCellsHeld : Nat := 5243426
/-- 0x5002.23 Enqueued. -/
abbrev Ob.qEnqueued : Nat := 5243427
/-- 0x5002.24 Dropped. -/
abbrev Ob.qDropped : Nat := 5243428
/-- 0x5002.25 StaleNotices. -/
abbrev Ob.qStaleNotices : Nat := 5243429
/-- 0x5002.26 OldestStamp. -/
abbrev Ob.qOldestStamp : Nat := 5243430
/-- 0x5800.01 Enable. -/
abbrev Ob.ethEnable (i : Nat) : Nat := 5767169 + i * 256
/-- 0x5800.02 FecMode. -/
abbrev Ob.ethFecMode (i : Nat) : Nat := 5767170 + i * 256
/-- 0x5800.03 MaxFrame. -/
abbrev Ob.ethMaxFrame (i : Nat) : Nat := 5767171 + i * 256
/-- 0x5800.04 LinkState. -/
abbrev Ob.ethLinkState (i : Nat) : Nat := 5767172 + i * 256
/-- 0x5800.05 FramesTx, FramesRx. -/
abbrev Ob.ethFramesTx (i : Nat) : Nat := 5767173 + i * 256
/-- 0x5800.06 FramesTx, FramesRx. -/
abbrev Ob.ethFramesRx (i : Nat) : Nat := 5767174 + i * 256
/-- 0x5800.07 FcsErrors. -/
abbrev Ob.ethFcsErrors (i : Nat) : Nat := 5767175 + i * 256
/-- 0x5800.08 FramesDropped. -/
abbrev Ob.ethFramesDropped (i : Nat) : Nat := 5767176 + i * 256
/-- 0x5802.01 DeviceMac. -/
abbrev Ob.deviceMac : Nat := 5767681
/-- 0x5802.02 DeviceIp. -/
abbrev Ob.deviceIp : Nat := 5767682
/-- 0x5802.03 Netmask. -/
abbrev Ob.netmask : Nat := 5767683
/-- 0x5802.04 Gateway. -/
abbrev Ob.gateway : Nat := 5767684
/-- 0x5802.05 HbUnknown. -/
abbrev Ob.hbUnknown : Nat := 5767685
/-- 0x5810.01 PartnerEnable. -/
abbrev Ob.peerEnable (i : Nat) : Nat := 5771265 + i * 256
/-- 0x5810.02 IpA, IpB. -/
abbrev Ob.peerIpA (i : Nat) : Nat := 5771266 + i * 256
/-- 0x5810.03 IpA, IpB. -/
abbrev Ob.peerIpB (i : Nat) : Nat := 5771267 + i * 256
/-- 0x5810.04 PartnerUid. -/
abbrev Ob.peerUid (i : Nat) : Nat := 5771268 + i * 256
/-- 0x5810.05 RestoreCount. -/
abbrev Ob.peerRestoreCount (i : Nat) : Nat := 5771269 + i * 256
/-- 0x5810.06 PartnerState. -/
abbrev Ob.peerState (i : Nat) : Nat := 5771270 + i * 256
/-- 0x5810.07 PathStateA, PathStateB. -/
abbrev Ob.peerPathStateA (i : Nat) : Nat := 5771271 + i * 256
/-- 0x5810.08 PathStateA, PathStateB. -/
abbrev Ob.peerPathStateB (i : Nat) : Nat := 5771272 + i * 256
/-- 0x5810.09 HbMissedA, HbMissedB. -/
abbrev Ob.peerHbMissedA (i : Nat) : Nat := 5771273 + i * 256
/-- 0x5810.0A HbMissedA, HbMissedB. -/
abbrev Ob.peerHbMissedB (i : Nat) : Nat := 5771274 + i * 256
/-- 0x5810.0B LastHbStamp. -/
abbrev Ob.peerLastHbStamp (i : Nat) : Nat := 5771275 + i * 256
/-- 0x5820.01 Mode. -/
abbrev Ob.clsMode (i : Nat) : Nat := 5775361 + i * 256
/-- 0x5820.02 StandbyHandling. -/
abbrev Ob.clsStandbyHandling (i : Nat) : Nat := 5775362 + i * 256
/-- 0x5820.03 Partner. -/
abbrev Ob.clsPartner (i : Nat) : Nat := 5775363 + i * 256
/-- 0x5820.04 PreferredPath. -/
abbrev Ob.clsPreferredPath (i : Nat) : Nat := 5775364 + i * 256
/-- 0x5820.05 SwapPeriod. -/
abbrev Ob.clsSwapPeriod (i : Nat) : Nat := 5775365 + i * 256
/-- 0x5820.06 SwapVerifyTime. -/
abbrev Ob.clsSwapVerifyTime (i : Nat) : Nat := 5775366 + i * 256
/-- 0x5820.07 HoldTime. -/
abbrev Ob.clsHoldTime (i : Nat) : Nat := 5775367 + i * 256
/-- 0x5820.08 VlanId. -/
abbrev Ob.clsVlanId (i : Nat) : Nat := 5775368 + i * 256
/-- 0x5820.09 Pcp. -/
abbrev Ob.clsPcp (i : Nat) : Nat := 5775369 + i * 256
/-- 0x5820.0A ActivePath. -/
abbrev Ob.clsActivePath (i : Nat) : Nat := 5775370 + i * 256
/-- 0x5820.0B ClassState. -/
abbrev Ob.clsState (i : Nat) : Nat := 5775371 + i * 256
/-- 0x5820.0C ForceSwitch. -/
abbrev Ob.clsForceSwitch (i : Nat) : Nat := 5775372 + i * 256
/-- 0x5820.0D SwitchOvers. -/
abbrev Ob.clsSwitchOvers (i : Nat) : Nat := 5775373 + i * 256
/-- 0x5820.0E HiddenFaults. -/
abbrev Ob.clsHiddenFaults (i : Nat) : Nat := 5775374 + i * 256
/-- 0x5820.0F SwapUnverified. -/
abbrev Ob.clsSwapUnverified (i : Nat) : Nat := 5775375 + i * 256
/-- 0x5820.10 LastSwitchStamp. -/
abbrev Ob.clsLastSwitchStamp (i : Nat) : Nat := 5775376 + i * 256
/-- 0x5830.01 DiscardWindow. -/
abbrev Ob.discardWindow : Nat := 5779457
/-- 0x5830.02 DuplicatesDiscarded. -/
abbrev Ob.duplicatesDiscarded : Nat := 5779458
/-- 0x5830.03 WrongLan. -/
abbrev Ob.wrongLan : Nat := 5779459
/-- 0x5830.04 NoTrailer. -/
abbrev Ob.noTrailer : Nat := 5779460
/-- 0x5830.05 DuplicateCopyLost. -/
abbrev Ob.duplicateCopyLost : Nat := 5779461
/-- 0x5A00.01 VirekEnable. -/
abbrev Ob.virekEnable : Nat := 5898241
/-- 0x5A00.02 UdpPort. -/
abbrev Ob.virekUdpPort : Nat := 5898242
/-- 0x5A00.03 ConnectionsOpen. -/
abbrev Ob.virekConnectionsOpen : Nat := 5898243
/-- 0x5A00.04 SegmentSize. -/
abbrev Ob.virekSegmentSize : Nat := 5898244
/-- 0x5A00.05 RtoInitial. -/
abbrev Ob.virekRtoInitial : Nat := 5898245
/-- 0x5A00.06 RtoMax. -/
abbrev Ob.virekRtoMax : Nat := 5898246
/-- 0x5A00.07 RetryLimit. -/
abbrev Ob.virekRetryLimit : Nat := 5898247
/-- 0x5A00.08 PeerTimeout. -/
abbrev Ob.virekPeerTimeout : Nat := 5898248
/-- 0x5A00.09 CreditStallTime. -/
abbrev Ob.virekCreditStallTime : Nat := 5898249
/-- 0x5A00.0A AckEvery. -/
abbrev Ob.virekAckEvery : Nat := 5898250
/-- 0x5A00.0B AckDelay. -/
abbrev Ob.virekAckDelay : Nat := 5898251
/-- 0x5A00.0C RevokeGrace. -/
abbrev Ob.virekRevokeGrace : Nat := 5898252
/-- 0x5A00.0D QuiesceHoldMax. -/
abbrev Ob.virekQuiesceHoldMax : Nat := 5898253
/-- 0x5A00.0E BadPackets. -/
abbrev Ob.virekBadPackets : Nat := 5898254
/-- 0x5A00.0F UnknownConnection. -/
abbrev Ob.virekUnknownConnection : Nat := 5898255
/-- 0x5A10.01 MaxWindow. -/
abbrev Ob.vpMaxWindow (i : Nat) : Nat := 5902337 + i * 256
/-- 0x5A10.02 VirekClass. -/
abbrev Ob.vpVirekClass (i : Nat) : Nat := 5902338 + i * 256
/-- 0x5A10.03 VirekPartner. -/
abbrev Ob.vpVirekPartner (i : Nat) : Nat := 5902339 + i * 256
/-- 0x5A10.04 MaxConnections. -/
abbrev Ob.vpMaxConnections (i : Nat) : Nat := 5902340 + i * 256
/-- 0x5A10.05 RxCredit. -/
abbrev Ob.vpRxCredit (i : Nat) : Nat := 5902341 + i * 256
/-- 0x5A20.01 ConnSelect. -/
abbrev Ob.connSelect : Nat := 5906433
/-- 0x5A21.01 ConnState. -/
abbrev Ob.connState : Nat := 5906689
/-- 0x5A21.02 ConnId. -/
abbrev Ob.connId : Nat := 5906690
/-- 0x5A21.03 ConnPartition. -/
abbrev Ob.connPartition : Nat := 5906691
/-- 0x5A21.04 PeerIp, PeerPort. -/
abbrev Ob.connPeerIp : Nat := 5906692
/-- 0x5A21.05 PeerIp, PeerPort. -/
abbrev Ob.connPeerPort : Nat := 5906693
/-- 0x5A21.06 GrantedWindow. -/
abbrev Ob.connGrantedWindow : Nat := 5906694
/-- 0x5A21.07 PeerCredit. -/
abbrev Ob.connPeerCredit : Nat := 5906695
/-- 0x5A21.08 Outstanding. -/
abbrev Ob.connOutstanding : Nat := 5906696
/-- 0x5A21.09 TxPsn, RxExpected. -/
abbrev Ob.connTxPsn : Nat := 5906697
/-- 0x5A21.0A TxPsn, RxExpected. -/
abbrev Ob.connRxExpected : Nat := 5906698
/-- 0x5A21.0B Retransmits. -/
abbrev Ob.connRetransmits : Nat := 5906699
/-- 0x5A21.0C BytesRead, BytesWritten. -/
abbrev Ob.connBytesRead : Nat := 5906700
/-- 0x5A21.0D BytesRead, BytesWritten. -/
abbrev Ob.connBytesWritten : Nat := 5906701
/-- 0x5A21.0E OpenedStamp. -/
abbrev Ob.connOpenedStamp : Nat := 5906702
/-- 0x5A21.0F Close. -/
abbrev Ob.connClose : Nat := 5906703
/-- 0x5A40.01 WinOwner. -/
abbrev Ob.winOwner (i : Nat) : Nat := 5914625 + i * 256
/-- 0x5A40.02 WinKind. -/
abbrev Ob.winKind (i : Nat) : Nat := 5914626 + i * 256
/-- 0x5A40.03 WinBase. -/
abbrev Ob.winBase (i : Nat) : Nat := 5914627 + i * 256
/-- 0x5A40.04 WinLength. -/
abbrev Ob.winLength (i : Nat) : Nat := 5914628 + i * 256
/-- 0x5A40.05 WinRights. -/
abbrev Ob.winRights (i : Nat) : Nat := 5914629 + i * 256
/-- 0x5A40.06 WinFenceFirst, WinFenceCount. -/
abbrev Ob.winFenceFirst (i : Nat) : Nat := 5914630 + i * 256
/-- 0x5A40.07 WinFenceFirst, WinFenceCount. -/
abbrev Ob.winFenceCount (i : Nat) : Nat := 5914631 + i * 256
/-- 0x5A40.08 Register. -/
abbrev Ob.winRegister (i : Nat) : Nat := 5914632 + i * 256
/-- 0x5A40.09 Revoke. -/
abbrev Ob.winRevoke (i : Nat) : Nat := 5914633 + i * 256
/-- 0x5A40.0A WinKey. -/
abbrev Ob.winKey (i : Nat) : Nat := 5914634 + i * 256
/-- 0x5A40.0B WinState. -/
abbrev Ob.winState (i : Nat) : Nat := 5914635 + i * 256
/-- 0x5A40.0C WinOps. -/
abbrev Ob.winOps (i : Nat) : Nat := 5914636 + i * 256
/-- 0x6000.01 LogNewestSeq. -/
abbrev Ob.logNewestSeq : Nat := 6291457
/-- 0x6000.02 LogEntries. -/
abbrev Ob.logEntries : Nat := 6291458
/-- 0x6000.03 LogOverwritten. -/
abbrev Ob.logOverwritten : Nat := 6291459
/-- 0x6000.04 LogRing. -/
abbrev Ob.logRing : Nat := 6291460
/-- 0x6000.05 LogClear. -/
abbrev Ob.logClear : Nat := 6291461
/-- 0x6001.01 MirrorEntries. -/
abbrev Ob.mirrorEntries : Nat := 6291713
/-- 0x6001.02 MirrorRing. -/
abbrev Ob.mirrorRing : Nat := 6291714
/-- 0x6001.03 MirrorRanges. -/
abbrev Ob.mirrorRanges : Nat := 6291715
/-- 0x6001.04 MirrorClear. -/
abbrev Ob.mirrorClear : Nat := 6291716
/-- 0x6001.05 MirrorDropped. -/
abbrev Ob.mirrorDropped : Nat := 6291717
/-- 0x6001.06 MirrorWritten. -/
abbrev Ob.mirrorWritten : Nat := 6291718
/-- 0x6002.01 QuarantineThreshold. -/
abbrev Ob.quarantineThreshold : Nat := 6291969
/-- 0x6002.02 QuarantineWindow. -/
abbrev Ob.quarantineWindow : Nat := 6291970
/-- 0x6002.03 QuarantineTime. -/
abbrev Ob.quarantineTime : Nat := 6291971
/-- 0x6002.04 QuarantineRelease. -/
abbrev Ob.quarantineRelease : Nat := 6291972
/-- 0x6002.05 PartnersQuarantined. -/
abbrev Ob.partnersQuarantined : Nat := 6291973
/-- 0x6002.06 Quarantines. -/
abbrev Ob.quarantines : Nat := 6291974
/-- 0x6002.07 RecordsDiscarded. -/
abbrev Ob.recordsDiscarded : Nat := 6291975
/-- 0x6002.08 EgressStomped. -/
abbrev Ob.egressStomped : Nat := 6291976
/-- 0x6002.09 PartnerTableFull. -/
abbrev Ob.partnerTableFull : Nat := 6291977
/-- 0x6004.01 PartnerSelect. -/
abbrev Ob.partnerSelect : Nat := 6292481
/-- 0x6005.01 PartnerViolations. -/
abbrev Ob.partnerViolations : Nat := 6292737
/-- 0x6005.02 PartnerQuarantined. -/
abbrev Ob.partnerQuarantined : Nat := 6292738
/-- 0x6005.03 QuarantineEnd. -/
abbrev Ob.quarantineEnd : Nat := 6292739
/-- 0x6005.04 LastViolationCode. -/
abbrev Ob.lastViolationCode : Nat := 6292740
/-- 0x6005.05 PartnerAddress. -/
abbrev Ob.partnerAddress : Nat := 6292741
/-- 0x6005.06 QuarantineDrops. -/
abbrev Ob.quarantineDrops : Nat := 6292742
/-- 0x6010.01 BadCount. -/
abbrev Ob.pointBadCount (i : Nat) : Nat := 6295553 + i * 256
/-- 0x6010.02 UnprovenCount. -/
abbrev Ob.pointUnprovenCount (i : Nat) : Nat := 6295554 + i * 256
/-- 0x6010.03 CocOnly. -/
abbrev Ob.pointCocOnly (i : Nat) : Nat := 6295555 + i * 256
/-- 0x6010.04 EccCorrected. -/
abbrev Ob.pointEccCorrected (i : Nat) : Nat := 6295556 + i * 256
/-- 0x6010.05 EccUncorrectable. -/
abbrev Ob.pointEccUncorrectable (i : Nat) : Nat := 6295557 + i * 256
/-- 0x7000.01 BootPhase. -/
abbrev Ob.bootPhase : Nat := 7340033
/-- 0x7000.02 ActiveBank. -/
abbrev Ob.activeBank : Nat := 7340034
/-- 0x7000.03 BootCause. -/
abbrev Ob.bootCause : Nat := 7340035
/-- 0x7000.04 ServiceReadyStamp. -/
abbrev Ob.serviceReadyStamp : Nat := 7340036
/-- 0x7000.05 BootAttempts. -/
abbrev Ob.bootAttempts : Nat := 7340037
/-- 0x7000.06 BankFallbackCause. -/
abbrev Ob.bankFallbackCause : Nat := 7340038
/-- 0x7000.07 StartWindowEnd. -/
abbrev Ob.startWindowEnd : Nat := 7340039
/-- 0x7000.08 DeviceRestart. -/
abbrev Ob.deviceRestart : Nat := 7340040
/-- 0x7000.09 MaintenanceCause. -/
abbrev Ob.maintenanceCause : Nat := 7340041
/-- 0x7001.01 ProvisionalActive. -/
abbrev Ob.provisionalActive : Nat := 7340289
/-- 0x7001.02 ProvisionalCount. -/
abbrev Ob.provisionalCount : Nat := 7340290
/-- 0x7001.03 UntestedPairs. -/
abbrev Ob.untestedPairs : Nat := 7340291
/-- 0x7001.04 BootCount. -/
abbrev Ob.bootCount : Nat := 7340292
/-- 0x7002.01 BankState. -/
abbrev Ob.bankState (i : Nat) : Nat := 7340545 + i * 256
/-- 0x7002.02 BundleVersion. -/
abbrev Ob.bankBundleVersion (i : Nat) : Nat := 7340546 + i * 256
/-- 0x7002.03 SecurityVersion. -/
abbrev Ob.bankSecurityVersion (i : Nat) : Nat := 7340547 + i * 256
/-- 0x7002.04 ImageVersion. -/
abbrev Ob.bankImageVersion (i : Nat) (n : Nat) : Nat := 7340548 + i * 256 + n
/-- 0x7002.09 TrialAttempts. -/
abbrev Ob.bankTrialAttempts (i : Nat) : Nat := 7340553 + i * 256
/-- 0x7004.01 PairStatus. -/
abbrev Ob.pairStatus (n : Nat) : Nat := 7341057 + n
/-- 0x7010.01 UpdateOffset. -/
abbrev Ob.updateOffset : Nat := 7344129
/-- 0x7010.02 UpdateChunk. -/
abbrev Ob.updateChunk : Nat := 7344130
/-- 0x7010.03 UpdateLength. -/
abbrev Ob.updateLength : Nat := 7344131
/-- 0x7010.04 UpdateVerify. -/
abbrev Ob.updateVerify : Nat := 7344132
/-- 0x7010.05 UpdateState. -/
abbrev Ob.updateState : Nat := 7344133
/-- 0x7010.06 UpdatePredicted. -/
abbrev Ob.updatePredicted : Nat := 7344134
/-- 0x7010.07 UpdateActivate. -/
abbrev Ob.updateActivate : Nat := 7344135
/-- 0x7010.08 ProvisionalConsent. -/
abbrev Ob.provisionalConsent : Nat := 7344136
/-- 0x7010.09 UpdateCommit. -/
abbrev Ob.updateCommit : Nat := 7344137
/-- 0x7010.0A CommitTimeout. -/
abbrev Ob.commitTimeout : Nat := 7344138
/-- 0x7010.0B UpdateError. -/
abbrev Ob.updateError : Nat := 7344139
/-- 0x7010.0C UpdateAbort. -/
abbrev Ob.updateAbort : Nat := 7344140
/-- 0x7010.0D UpdateOwner. -/
abbrev Ob.updateOwner : Nat := 7344141
/-- 0x7011.01 TrialBootLimit. -/
abbrev Ob.trialBootLimit : Nat := 7344385
/-- 0x7020.01 KeySlotState. -/
abbrev Ob.keySlotState : Nat := 7348225
/-- 0x7020.02 SecurityVersionFloor. -/
abbrev Ob.securityVersionFloor : Nat := 7348226
/-- 0x7020.03 RevokeKeySlot. -/
abbrev Ob.revokeKeySlot : Nat := 7348227
/-- 0x7020.04 AdvanceFloor. -/
abbrev Ob.advanceFloor : Nat := 7348228
/-- 0x7030.01 UdpBeforeReady. -/
abbrev Ob.udpBeforeReady : Nat := 7352321
/-- 0x7030.02 EthBeforeReady. -/
abbrev Ob.ethBeforeReady : Nat := 7352322
/-- 0x7030.03 CanBeforeReady. -/
abbrev Ob.canBeforeReady : Nat := 7352323
/-- 0x7030.04 Bar0BeforeReady. -/
abbrev Ob.bar0BeforeReady : Nat := 7352324
/-- 0x7030.05 StartWindowBusy. -/
abbrev Ob.startWindowBusy : Nat := 7352325
/-- 0x7F01.01 IslandControl. -/
abbrev Ob.islControl (i : Nat) : Nat := 8323329 + i * 256
/-- 0x7F01.02 IslandState. -/
abbrev Ob.islState (i : Nat) : Nat := 8323330 + i * 256
/-- 0x7F01.03 Incarnation. -/
abbrev Ob.islIncarnation (i : Nat) : Nat := 8323331 + i * 256
/-- 0x7F01.04 Resets. -/
abbrev Ob.islResets (i : Nat) : Nat := 8323332 + i * 256
/-- 0x7F01.05 LastResetCause. -/
abbrev Ob.islLastResetCause (i : Nat) : Nat := 8323333 + i * 256
/-- 0x7F01.06 AbsentReplies. -/
abbrev Ob.islAbsentReplies (i : Nat) : Nat := 8323334 + i * 256
/-- 0x7F01.07 StaleDiscarded. -/
abbrev Ob.islStaleDiscarded (i : Nat) : Nat := 8323335 + i * 256
/-- 0x7F01.08 LastReturnStamp. -/
abbrev Ob.islLastReturnStamp (i : Nat) : Nat := 8323336 + i * 256
/-- 0x7F01.09 CtlDropped. -/
abbrev Ob.islCtlDropped (i : Nat) : Nat := 8323337 + i * 256
/-- 0x7F20.01 DieDescriptor. -/
abbrev Ob.dieDescriptor (i : Nat) : Nat := 8331265 + i * 256
/-- 0x7F20.02 DieStatus. -/
abbrev Ob.dieStatus (i : Nat) : Nat := 8331266 + i * 256
/-- 0x7F20.03 DropCause. -/
abbrev Ob.dieDropCause (i : Nat) : Nat := 8331267 + i * 256
/-- 0x7F20.04 AbsentEngines. -/
abbrev Ob.dieAbsentEngines (i : Nat) : Nat := 8331268 + i * 256
/-- 0x7F30.01 LinkState. -/
abbrev Ob.dieLinkState (i : Nat) : Nat := 8335361 + i * 256
/-- 0x7F30.02 Replays, Retrains. -/
abbrev Ob.dieLinkReplays (i : Nat) : Nat := 8335362 + i * 256
/-- 0x7F30.03 Replays, Retrains. -/
abbrev Ob.dieLinkRetrains (i : Nat) : Nat := 8335363 + i * 256
/-- 0x7F34.01 RingLinkState. -/
abbrev Ob.ringLinkState (i : Nat) : Nat := 8336385 + i * 256
/-- 0x7F40.01 DramChannelState. -/
abbrev Ob.dramChannelState (i : Nat) : Nat := 8339457 + i * 256

end Sys2Proof.Machine
end

