-- ==== Sys2Proof/Machine/State.lean ====
section
/-! DEFINITION. The state of the block, its faults and refusals, and the state after reset. -/
namespace Sys2Proof.Machine

/-- Why the block stops with a fault. -/
inductive Fault where
  /-- Raised by the supply commands when VIN goes beyond its absolute maximum: R400 gives no behaviour there. Safe: the
  model stops where the device may do anything. -/
  | absoluteMaximum
  deriving DecidableEq, Repr

/-- Why a command has no outcome in the model. -/
inductive Refusal where
  /-- Raised by a command of the table that has no meaning yet. Safe. -/
  | notModelled (mnemonic : String)
  deriving DecidableEq, Repr

/-- The device: everything but the command queue. `regs` holds every numeric object by key, an unlisted one at its
table default; `blobs` the STRING and DOMAIN objects; `vers` the object versions (R86); `flash` and `flashBlobs` the
committed values of persisted objects (R87); `books` holds the tallies that belong to no chapter's unit alone. The other fields are what the chapters give the machine beside its
objects. -/
structure Dev where
  regs : Assoc Int := []
  blobs : Assoc Bytes := []
  vers : Assoc Nat := []
  flash : Assoc Int := []
  flashBlobs : Assoc Bytes := []
  mem : List Host.Cell := []
  out : List Output := []
  fresh : Nat := 0
  log : FaultLog := {}
  partners : List Partner := []
  tl : Timeline := {}
  servo : Servo := {}
  fences : Assoc Fence := []
  waits : List Wait := []
  dict : Dict := {}
  mbox : Assoc Mailbox := []
  queues : Assoc QueueRt := []
  genReserved : List Nat := []
  handAt : Assoc Nat := []
  startWindow : Bool := false
  latches : Assoc (Nat × Nat) := []
  phaseLatches : Assoc (Nat × Nat) := []
  seqs : Assoc Nat := []
  books : Books := {}
  barHandle : Assoc Nat := []
  barTarget : Assoc Nat := []
  barLatch : Assoc (Nat × Nat) := []
  barEra : Assoc Nat := []
  pins : Pins := {}
  boot : Boot := {}
  banks : Assoc Bytes := []
  tu : Tu := {}
  analogOut : Assoc Int := []
  slots : Assoc SlotRt := []
  encs : Assoc EncCh := []
  stage : Assoc (List Item) := []
  csiPend : Assoc Nat := []
  fus : Fus := {}
  ten : Ten := {}
  safe : Safe := {}
  sol : Sol := {}
  net : Net := {}
  aud : Audio := {}
  mix : MixRt := {}
  ana : Ana := {}
  virek : Virek := {}
  islCause : Assoc Nat := []
  islAt : Assoc IslTimes := []
  pours : Pours := {}
  pow : PowRt := {}
  deriving DecidableEq, Repr

/-- The block: the device and the queue of the commands that wait, first in, first out (log 1). -/
structure State where
  pending : List Instr
  dev : Dev
  deriving DecidableEq, Repr

/-- The block as it stands before VIN is first applied: phase OFF, every object at its default, no command waiting. -/
def State.reset : State := { pending := [], dev := {} }

end Sys2Proof.Machine
end

