-- ==== Sys2Proof/Machine/Ops.lean ====
section
/-! DEFINITION. The named operations over the device's registers, byte objects, memory, outputs and free values. -/
namespace Sys2Proof.Machine

/-- The value a numeric object holds: what was put there, or its table default (04_dictionary R84). -/
def Dev.reg (d : Dev) (k : Nat) : Int :=
  match kvGet d.regs k with
  | some v => v
  | none => objDefault k

/-- `Dev.reg` as a natural number (0 for a negative value). -/
def Dev.nat (d : Dev) (k : Nat) : Nat := (d.reg k).toNat

/-- The object at `k` holds `v`. A value equal to the default is not listed, so equal registers are equal data. -/
def Dev.set (d : Dev) (k : Nat) (v : Int) : Dev :=
  { d with regs := if v = objDefault k then kvDel d.regs k else kvPut d.regs k v }

/-- `Dev.set` of a natural number. -/
def Dev.setN (d : Dev) (k : Nat) (v : Nat) : Dev := d.set k (v : Int)

/-- `Dev.set` of a flag. -/
def Dev.setB (d : Dev) (k : Nat) (b : Bool) : Dev := d.set k (if b then 1 else 0)

/-- The flag an object holds. -/
def Dev.flag (d : Dev) (k : Nat) : Bool := decide (d.reg k ≠ 0)

/-- `v` reduced to the width of a numeric type. -/
def wrapTy : Ty → Int → Int
  | .bool, v => v % 2
  | .u8, v => v % 256
  | .u16, v => v % 65536
  | .u32, v => v % 4294967296
  | .u64, v => v % 18446744073709551616
  | .i8, v => signed 8 (unsigned 8 v)
  | .i16, v => signed 16 (unsigned 16 v)
  | .i32, v => signed 32 (unsigned 32 v)
  | .i64, v => signed 64 (unsigned 64 v)
  | .stamp48, v => v % 281474976710656
  | .q32, v => signed 32 (unsigned 32 v)
  | .string, v => v
  | .domain, v => v

/-- The type of the object at `k` (U64 where the dictionary defines none). -/
def keyTy (k : Nat) : Ty :=
  match keyRow k with
  | some r => r.ty
  | none => .u64

/-- A counter rises by `n`, wrapping at its type's width (log 10). -/
def Dev.bumpBy (d : Dev) (k : Nat) (n : Nat) : Dev := d.set k (wrapTy (keyTy k) (d.reg k + n))

/-- A counter rises by 1. -/
def Dev.bump (d : Dev) (k : Nat) : Dev := d.bumpBy k 1

/-- A count of things now held falls by 1, not below 0. -/
def Dev.drop (d : Dev) (k : Nat) : Dev := d.set k (if d.reg k ≤ 0 then 0 else d.reg k - 1)

/-- The bytes a STRING or DOMAIN object holds (none written: empty). -/
def Dev.blob (d : Dev) (k : Nat) : Bytes :=
  match kvGet d.blobs k with
  | some b => b
  | none => []

/-- The byte object at `k` holds `b`. -/
def Dev.setBlob (d : Dev) (k : Nat) (b : Bytes) : Dev :=
  { d with blobs := if b = [] then kvDel d.blobs k else kvPut d.blobs k b }

/-- An object's version (R86): 0 until something increments it. -/
def Dev.ver (d : Dev) (k : Nat) : Nat :=
  match kvGet d.vers k with
  | some v => v
  | none => 0

/-- The version increments, wrapping from 65,535 to 0 (R86). -/
def Dev.bumpVer (d : Dev) (k : Nat) : Dev :=
  { d with vers :=
      if (d.ver k + 1) % 65536 = 0 then kvDel d.vers k else kvPut d.vers k ((d.ver k + 1) % 65536) }

/-- The device sends `o`. `out` lists what was sent, newest first. -/
def Dev.send (d : Dev) (o : Output) : Dev := { d with out := o :: d.out }

/-- A free value has been taken: the next one differs (log 4). -/
def Dev.drawn (d : Dev) : Dev := { d with fresh := d.fresh + 1 }

/-- What a byte of DRAM that nothing has written reads as (log 3). -/
def memDefault : Byte := 0

/-- One byte of DRAM. -/
def memByte (m : List Host.Cell) (a : Nat) : Byte :=
  match kvGet m a with
  | some b => b
  | none => memDefault

/-- DRAM with one byte written; a byte equal to what an unlisted address reads as is not listed. -/
def memPut (m : List Host.Cell) (a : Nat) (b : Byte) : List Host.Cell :=
  if b = memDefault then kvDel m a else kvPut m a b

/-- DRAM with a byte string written from address `a` up. -/
def memWrite (m : List Host.Cell) (a : Nat) : Bytes → List Host.Cell
  | [] => m
  | b :: bs => memWrite (memPut m a b) (a + 1) bs

/-- `n` bytes of DRAM from address `a`. -/
def memRead (m : List Host.Cell) (a n : Nat) : Bytes := (List.range n).map fun i => memByte m (a + i)

/-- The canonical form of DRAM: addresses strictly rising, no entry equal to the default. -/
def Memory.wf (m : List Host.Cell) : Bool := kvSorted m && m.all fun c => decide (c.2 ≠ memDefault)

/-- The canonical form of the registers: keys strictly rising, no entry equal to its default. -/
def Regs.wf (m : Assoc Int) : Bool := kvSorted m && m.all fun c => decide (c.2 ≠ objDefault c.1)

/-- The device writes DRAM. -/
def Dev.memWrite (d : Dev) (a : Nat) (bs : Bytes) : Dev := { d with mem := Machine.memWrite d.mem a bs }

/-- The timeline's integer part: the stamp every capture takes now (02_timeline R29, R31). -/
def Dev.now (d : Dev) : Nat := d.tl.now

/-- The extended timeline E (R35). -/
def Dev.ext (d : Dev) : Nat := d.tl.era * span48 + d.tl.now

/-- Nanoseconds since an instant of the extended timeline: the time that the device's own timers measure (log 137). -/
def Dev.ago (d : Dev) (t : Nat) : Nat := d.ext - t

/-- The extended instant of a stamp near the present (R32): the one within 2^47 ns of it. -/
def Dev.extAt (d : Dev) (stamp : Nat) : Nat := ((d.ext : Int) + stampDiff stamp d.now).toNat

/-- The extended count with its fraction, in 2^-32 ns. -/
def Dev.fine (d : Dev) : Nat := d.ext * 4294967296 + d.tl.frac

/-- The extended instant that the stamp replica of island `i` shows (02_timeline R31). -/
def Dev.replica (d : Dev) (i : Nat) : Nat := ((d.fine : Int) + (kvGet d.tl.skew i).getD 0).toNat / 4294967296

/-- The stamp that island `i` captures now: the integer part of its replica (R31). -/
def Dev.stampIn (d : Dev) (i : Nat) : Nat := d.replica i % span48

/-- IslandState of island `n`, 1-25 (19_power_dies Table 7). -/
def Dev.isl (d : Dev) (n : Nat) : Int := d.reg (Ob.islState (n - 1))

/-- Island `n`'s boundary is closed: it is quiescing, resetting, updating, held or absent (R393). -/
def Dev.quiesced (d : Dev) (n : Nat) : Bool := decide (2 ≤ d.isl n)

/-- Island numbers of 01_console_model Table 2. -/
abbrev Isl.tmg : Nat := 1
abbrev Isl.fio : Nat := 2
abbrev Isl.ctl : Nat := 3
abbrev Isl.qmg : Nat := 4
abbrev Isl.drc : Nat := 5
abbrev Isl.pci : Nat := 6
abbrev Isl.eta : Nat := 7
abbrev Isl.etb : Nat := 8
abbrev Isl.csi : Nat := 9
abbrev Isl.sns : Nat := 10
abbrev Isl.fus : Nat := 11
abbrev Isl.sol : Nat := 12
abbrev Isl.mix : Nat := 13
abbrev Isl.apt : Nat := 14
abbrev Isl.ana : Nat := 15
abbrev Isl.cup : Nat := 16
abbrev Isl.fbk : Nat := 17
abbrev Isl.ten : Nat := 18
abbrev Isl.dck : Nat := 22

/-- The phase RUN or SERVICE has been reached: the dictionary accepts requests (05_start_up R137). -/
def Dev.ready (d : Dev) : Bool := d.flag Ob.serviceReady

/-- `f` applied to `d` once for each member of a list, in order. -/
def Dev.each {α : Type} (d : Dev) (l : List α) (f : Dev → α → Dev) : Dev := l.foldl f d

/-- `f d` when `b` holds, else `d`. -/
def Dev.when (d : Dev) (b : Bool) (f : Dev → Dev) : Dev := if b then f d else d

end Sys2Proof.Machine
end

