-- ==== Sys2Proof/Machine/SafePair.lean ====
section
/-! DEFINITION. The SAFE pair's own logic (10_cupper_fallback R227, R228), which follows the state at every instant, and what
every command does around its effect. -/
namespace Sys2Proof.Machine

/-- `f` applied to the pins. -/
def Dev.onPins (d : Dev) (f : Pins → Pins) : Dev := { d with pins := f d.pins }

/-- SAFE_A (0) or SAFE_B (1) is driven to a level. -/
def Dev.drivePin (d : Dev) (pin : Nat) (level : Bool) : Dev :=
  if (if pin = 0 then d.pins.safeA else d.pins.safeB) = level then d
  else (d.onPins fun p => if pin = 0 then { p with safeA := level } else { p with safeB := level }).send (.safePin pin level)

/-- Streams run: phase RUN (05_start_up Table 1, Table 7). -/
def Dev.running (d : Dev) : Bool := d.nat Ob.bootPhase == 8

/-- `f` applied to the safety function. -/
def Dev.onSafe (d : Dev) (f : Safe → Safe) : Dev := { d with safe := f d.safe }

/-- A SAFE fault is latched. -/
def Dev.latched (d : Dev) : Bool := d.reg Ob.safeOutputState == 2

/-- SAFE_A (0) or SAFE_B (1) is driven, and its edge is stamped. -/
def Dev.driveSafe (d : Dev) (pin : Nat) (level : Bool) : Dev :=
  if (if pin = 0 then d.pins.safeA else d.pins.safeB) = level then d
  else (d.drivePin pin level).onSafe fun s => { s with edges := kvPut s.edges pin d.ext }

/-- The condition of R227 for the pair to be on. -/
def Dev.pairOn (d : Dev) : Bool :=
  let bits_ := (List.range 8).filter fun k => d.flag (Ob.chanSafeOutputBit k)
  d.running && !d.safe.injecting && !bits_.isEmpty && !d.latched
    && bits_.all fun k => d.reg (Ob.chanState k) == 4 || d.reg (Ob.chanState k) == 5

/-- The pair and SafeOutputState follow the channels (R227); an output in its test pulse is low (R228). -/
def Dev.refreshSafe (d : Dev) : Dev :=
  let on := d.pairOn
  let d := if on then d else d.onSafe fun s => { s with pulse := none }
  let d := (d.driveSafe 0 (on && d.safe.pulse != some 0)).driveSafe 1 (on && d.safe.pulse != some 1)
  if d.latched then d else d.setB Ob.safeOutputState on

/-- The objects held per session, each session with its own value (0x2040.01, 0x2041.01-.06, 0x2202.01, 0x5001.01,
0x5A20.01, 0x6004.01). -/
def perSession (k : Nat) : Bool :=
  ([Ob.fenceSelect, Ob.waitFence, Ob.waitTarget, Ob.waitDelivery, Ob.waitDestination, Ob.waitHandle, Ob.pourSelect,
    Ob.queueSelect, Ob.connSelect, Ob.partnerSelect] : List Nat).contains k

/-- The queue a session has selected (15_hosts_queues section 3). -/
def Dev.selQueue (d : Dev) (sid : Nat) : Nat := d.nat (inst Ob.queueSelect sid)

/-- The register an address stands for in a session: its own copy of a per-session object, the selected queue's copy of
a queue object, else the object itself. -/
def Dev.resolve (d : Dev) (sid : Nat) (k : Nat) : Nat :=
  if perSession k then inst k sid
  else if k / 256 = 0x5002 then inst k (d.selQueue sid)
  else k

/-- The session of an ID. -/
def Dev.session (d : Dev) (sid : Nat) : Option Session := d.dict.sessions.find? fun s => s.id == sid

/-- An object as a subscriber sees it changed between two states of the device (R86, R105): its value, its bytes or its
version differs. -/
def Dev.differs (d0 d : Dev) (sid k : Nat) : Bool :=
  decide (d.reg (d.resolve sid k) ≠ d0.reg (d0.resolve sid k)) || decide (d.blob k ≠ d0.blob k) || d.ver k != d0.ver k

/-- The key of a subscription in `Books.watch`. -/
def watchKey (sid handle : Nat) : Nat := sid * 65536 + handle

/-- The changes of its object that a subscription has to tell of (R105), with the stamp of the newest. -/
def Dev.watched (d : Dev) (sid handle : Nat) : Nat × Nat := (kvGet d.books.watch (watchKey sid handle)).getD (0, 0)

/-- Every subscription that stands before and after a command counts one change where its object has changed (R105). -/
def Dev.observe (d0 d : Dev) : Dev :=
  let watch := d.dict.sessions.foldl (fun w se => se.subs.foldl (fun w x =>
    if d0.differs d se.id x.key && (d0.session se.id).isSome then
      kvPut w (watchKey se.id x.handle) ((d.watched se.id x.handle).1 + 1, d.now)
    else w) w) d.books.watch
  { d with books := { d.books with watch } }

/-- What follows every command: the SAFE pair follows the state it leaves (R227), for the pair's logic watches its conditions
all the time, and subscriptions count the changes of their objects (R105). -/
def Dev.settle (d0 d : Dev) : Dev := d0.observe d.refreshSafe

/-- A command whose effect is a change of the device. -/
def onDev (f : Dev → Dev) (s : State) : Host.Outcome State Fault Refusal := .next { s with dev := s.dev.settle (f s.dev) }

end Sys2Proof.Machine
end

