-- ==== Sys2Proof/Machine/Flags.lean ====
section
/-! DEFINITION. The status flags that items and handovers carry: the outcome of verifying an old check
(18_integrity Table 2) and how BAD and UNPROVEN stay with an item (R357). -/
namespace Sys2Proof.Machine

/-- The outcome (Table 2). A data word lost to ECC is BAD before a stored check is looked at. -/
def Found.outcome (f : Found) : Integ :=
  if f.eccData then .bad
  else if f.eccCheck then .unproven
  else if f.checkOk then (if f.hasCoc && !f.cocOk then .cocOnly else .ok)
  else if f.hasCoc && !f.cocOk then .unproven
  else .bad

/-- An item after a handover (R357): BAD takes precedence over UNPROVEN, and neither is ever taken away. -/
def Item.flag (it : Item) : Integ → Item
  | .bad => { it with bad := true, unproven := false }
  | .unproven => if it.bad then it else { it with unproven := true }
  | .cocOnly => it
  | .ok => it

/-- A safety consumer treats UNPROVEN as BAD (R364). -/
def Item.doubtful (it : Item) : Bool := it.bad || it.unproven

/-- The flags byte of a record (15_hosts_queues Table 4, byte 20). -/
def Item.flagsByte (it : Item) : Nat :=
  it.bad.toNat + 2 * it.unproven.toNat + 4 * it.late.toNat + 8 * it.cut.toNat + 16 * (it.gen % 4)
    + 64 * it.genValid.toNat + 128 * it.volatile.toNat

/-- Bytes 0-55 of an item's record (15_hosts_queues Table 4). -/
def Item.head (it : Item) : Bytes :=
  leBytes 6 it.subject ++ leBytes 6 it.completion ++ leBytes 6 it.aux ++ leBytes 1 it.srcKind ++ leBytes 1 it.srcNum
    ++ leBytes 1 it.flagsByte ++ leBytes 1 it.ingest ++ leBytes 1 (it.prio % 8) ++ leBytes 1 it.payKind
    ++ leBytes 4 it.seq ++ leBytes 4 it.len
    ++ (if it.payKind = 0 then (it.data ++ List.replicate 16 0).take 16
        else if it.payKind = 2 then leBytes 16 it.addr else leBytes 16 0)
    ++ leBytes 4 it.payCheck ++ leBytes 4 it.hostTag

/-- The 64 bytes of an item's record. -/
def Item.record (it : Item) : Bytes :=
  it.head ++ leBytes 4 (crc32c it.head) ++ leBytes 1 (checkOfCheck it.payCheck)
    ++ leBytes 1 (checkOfCheck (crc32c it.head)) ++ leBytes 1 it.producer ++ leBytes 1 0

end Sys2Proof.Machine
end

