-- ==== Sys2Proof/Machine/QueueCore.lean ====
section
/-! DEFINITION. Storing items in queues (15_hosts_queues R304-R309) and the counts of generations that items hold
(06_pours R152, R153). No entry is logged here: `Log.lean` adds that. -/
namespace Sys2Proof.Machine

/-- What queue `q` holds. -/
def Dev.q (d : Dev) (q : Nat) : QueueRt :=
  match kvGet d.queues q with
  | some r => r
  | none => {}

/-- Queue `q` holds `r`; an untouched queue is not listed. -/
def Dev.setQ (d : Dev) (q : Nat) (r : QueueRt) : Dev :=
  { d with queues := if r = {} then kvDel d.queues q else kvPut d.queues q r }

/-- An object of 0x5002 for queue `q`. -/
def Dev.qreg (d : Dev) (k : Nat) (q : Nat) : Nat := d.nat (inst k q)

/-- Queue `q` is a spill queue. -/
def Dev.isSpill (d : Dev) (q : Nat) : Bool := d.qreg Ob.qQueueKind q == 1

/-- Carafe cells an item holds (R306). -/
def Dev.cellsOf (d : Dev) (q : Nat) (it : Item) : Nat :=
  (if d.isSpill q then 0 else 1) + (if it.payKind = 1 then ceilDiv it.len 256 else 0)

/-- Generation `g` is in use: it is current, reserved, or items hold it (06_pours R151-R153). -/
def Dev.genAlive (d : Dev) (g : Nat) : Bool :=
  d.nat Ob.currentGeneration == g || d.genReserved.contains g || decide (0 < d.reg (Ob.genOutstanding g))

/-- GenerationsAlive counts the generations in use. -/
def Dev.refreshAlive (d : Dev) : Dev :=
  d.setN Ob.generationsAlive ((List.range 4).filter d.genAlive).length

/-- The number under which the copies of an item are counted: its source and sequence. -/
def Item.copyKey (it : Item) : Nat := (it.srcKind % 256 * 256 + it.srcNum % 256) * 4294967296 + it.seq % 4294967296

/-- The copies of an item that hold its generation. -/
def Dev.copies (d : Dev) (it : Item) : Nat := (kvGet d.books.copies it.copyKey).getD 0

/-- An item has `n` copies that hold its generation. -/
def Dev.setCopies (d : Dev) (it : Item) (n : Nat) : Dev :=
  { d with books := { d.books with
      copies := if n = 0 then kvDel d.books.copies it.copyKey else kvPut d.books.copies it.copyKey n } }

/-- A copy of an item holds its generation from here on; the first one counts the item (R153). -/
def Dev.genInc (d : Dev) (it : Item) : Dev :=
  if it.genValid then
    let d' := d.setCopies it (d.copies it + 1)
    if d.copies it = 0 then (d'.bump (Ob.genOutstanding (it.gen % 4))).refreshAlive else d'
  else d

/-- A copy of an item has been consumed or discarded; with the last one its generation's count falls (R153). -/
def Dev.genDec (d : Dev) (it : Item) : Dev :=
  if it.genValid then
    let d' := d.setCopies it (d.copies it - 1)
    if d.copies it ≤ 1 then (d'.drop (Ob.genOutstanding (it.gen % 4))).refreshAlive else d'
  else d

/-- A derived item takes the generation of the entry that routes it where it is made (06_pours R152): no pour names the routing
of a unit that is no slot, so that its generation is the current one. -/
def Dev.derived (d : Dev) (it : Item) : Item := { it with gen := d.nat Ob.currentGeneration % 4, genValid := true }

/-- An item in queue `q` holds its generation: not in a host queue (R153). -/
def Dev.holdsGen (d : Dev) (q : Nat) : Bool := d.qreg Ob.qRole q != 1

/-- Number of items of priority `p`. -/
def countPrio (items : List Item) (p : Nat) : Nat := (items.filter fun i => i.prio == p).length

/-- The items in read order: highest priority first, oldest enqueued first within one (R305). -/
def readOrder (items : List Item) : List Item :=
  ([7, 6, 5, 4, 3, 2, 1, 0] : List Nat).flatMap fun p => items.filter fun i => i.prio == p

/-- Spill records beyond the head stage of 16, by priority: what the rings and the tail stage hold (R306). -/
def beyondHead (items : List Item) : List Item := (readOrder items).drop 16

/-- The records of the shared tail stage: those past RingEntries of their priority. -/
def tailHeld (ring : Nat) (items : List Item) : Nat :=
  ((List.range 8).map fun p => countPrio (beyondHead items) p - ring).sum

/-- Carafe cells the items hold. -/
def Dev.cellsHeld (d : Dev) (q : Nat) (items : List Item) : Nat := (items.map (d.cellsOf q)).sum

/-- The carafe has too few free cells for the item. -/
def Dev.noCell (d : Dev) (q : Nat) (it : Item) : Bool := decide (d.nat Ob.carafeFree < d.cellsOf q it)

/-- The queue is full for an arriving item (R307). -/
def Dev.fullFor (d : Dev) (q : Nat) (items : List Item) (it : Item) : Bool :=
  (if d.isSpill q then
      decide (d.qreg Ob.qRingEntries q ≤ countPrio (beyondHead items) it.prio)
        && decide (16 ≤ tailHeld (d.qreg Ob.qRingEntries q) items)
    else decide (d.qreg Ob.qCapacity q ≤ items.length))
  || decide (d.qreg Ob.qCellLimit q < d.cellsHeld q items + d.cellsOf q it)
  || d.noCell q it

/-- The lowest priority held. -/
def lowestPrio (items : List Item) : Nat := items.foldl (fun m i => Nat.min m i.prio) 7

/-- The oldest item of priority `p`. -/
def oldestOf (items : List Item) (p : Nat) : Option Item := items.find? fun i => i.prio == p

/-- QueueState as 0x5002.20 gives it: disabled, empty, holding, stale, full. A submission queue is never full. -/
def Dev.queueState (d : Dev) (q : Nat) : Nat :=
  let r := d.q q
  if d.qreg Ob.qEnable q = 0 then 0
  else if d.qreg Ob.qRole q ≠ 2 && d.fullFor q r.items { prio := 0 } then 4
  else if r.items.isEmpty then 1
  else if r.stale then 3
  else 2

/-- The status objects of queue `q` follow what it holds. QueueState is formed where it is read (`Dev.queueState`): the carafe's
last cell can make a queue full that nothing has touched. -/
def Dev.refreshQ (d : Dev) (q : Nat) : Dev :=
  let r := d.q q
  let d := d.setN (inst Ob.qDepth q) r.items.length
  let d := d.setN (inst Ob.qCellsHeld q) (d.cellsHeld q r.items)
  d.setN (inst Ob.qOldestStamp q) (match r.items with | [] => 0 | i :: _ => i.completion)

/-- Carafe cells leave the pool, and the low-water mark follows. -/
def Dev.takeCells (d : Dev) (n : Nat) : Dev :=
  let left := d.nat Ob.carafeFree - n
  (d.setN Ob.carafeFree left).setN Ob.carafeLowWater (Nat.min left (d.nat Ob.carafeLowWater))

/-- Carafe cells return to the pool. -/
def Dev.giveCells (d : Dev) (n : Nat) : Dev := d.setN Ob.carafeFree (d.nat Ob.carafeFree + n)

/-- An item held in `q` leaves it: cells return, its place is freed. -/
def Dev.unqueue (d : Dev) (q : Nat) (it : Item) : Dev :=
  let r := d.q q
  let d := d.giveCells (d.cellsOf q it)
  d.setQ q { r with items := r.items.erase it }

/-- A dropped item is counted and consumed without a derived item (R307, R153). -/
def Dev.countDrop (d : Dev) (q : Nat) (it : Item) : Dev :=
  (d.bump (inst Ob.qDropped q)).when (d.holdsGen q) fun d => d.genDec it

/-- Places `it` at the tail of `q`. -/
def Dev.admitItem (d : Dev) (q : Nat) (it : Item) : Dev :=
  let r := d.q q
  let it := { it with completion := d.stampIn Isl.qmg }
  let since := if r.items.isEmpty then d.ext else r.since
  let d := d.takeCells (d.cellsOf q it)
  let d := d.setQ q { r with items := r.items ++ [it], since := since }
  d.bump (inst Ob.qEnqueued q)

/-- Rule 1 of R307: while the item does not fit and the lowest priority held is not above its own, the oldest item of
that priority is dropped. Answers the device, how many were dropped, and whether the item was admitted. -/
def Dev.makeRoom (d : Dev) (q : Nat) (it : Item) : Nat → Nat → Dev × Nat × Bool
  | 0, n => (d, n, false)
  | fuel + 1, n =>
    let items := (d.q q).items
    if d.fullFor q items it = false then (d.admitItem q it, n, true)
    else if d.qreg Ob.qOverflowRule q = 0 || items.isEmpty || decide (it.prio < lowestPrio items) then (d, n, false)
    else match oldestOf items (lowestPrio items) with
      | none => (d, n, false)
      | some old => ((d.unqueue q old).countDrop q old).makeRoom q it fuel (n + 1)

/-- What came of offering an item to a queue. -/
structure Enq where
  dev : Dev
  dropped : Nat
  exhausted : Bool
  admitted : Bool

/-- A neighbour's request was answered ABSENT by island `i` (19_power_dies R393). -/
def Dev.absentReply (d : Dev) (i : Nat) : Dev := if 1 ≤ i ∧ i ≤ 25 then d.bump (Ob.islAbsentReplies (i - 1)) else d

/-- While QMG is quiesced, a stream slot counts the item it sends as dropped (R318). -/
def Dev.absentDrop (d : Dev) (it : Item) : Dev :=
  d.when (d.quiesced Isl.qmg && it.srcKind == 1) fun d => d.bump (Ob.slotItemsDropped it.srcNum)

/-- Offers an item to queue `q` (R307, R308, R318). The item counts under its generation from here on. -/
def Dev.enqueueCore (d : Dev) (q : Nat) (it : Item) : Enq :=
  if d.quiesced Isl.qmg then { dev := d.absentReply Isl.qmg, dropped := 0, exhausted := false, admitted := false }
  else if d.qreg Ob.qEnable q = 0 then
    { dev := (d.bump (inst Ob.qDropped q)).refreshQ q, dropped := 0, exhausted := false, admitted := false }
  else
    let d := d.when (d.holdsGen q) fun d => d.genInc it
    let exh := d.noCell q it
    let (d, n, ok) := d.makeRoom q it ((d.q q).items.length + 1) 0
    let d := if ok then d else d.countDrop q it
    { dev := d.refreshQ q, dropped := if ok then n else n + 1, exhausted := exh, admitted := ok }

/-- The consumer takes the head in read order (R305): the read ends a staleness episode (R316). -/
def Dev.dequeue (d : Dev) (q : Nat) : Option (Item × Dev) :=
  match readOrder (d.q q).items with
  | [] => none
  | it :: _ =>
    let d := d.unqueue q it
    let r := d.q q
    let d := d.setQ q { r with since := d.ext, stale := false }
    some (it, d.refreshQ q)

/-- A device subsystem reads queue `q`: never one whose consumer is a host, a delivery queue (R296, R304). -/
def Dev.readQueue (d : Dev) (q : Nat) : Option (Item × Dev) := if d.qreg Ob.qRole q = 1 then none else d.dequeue q

end Sys2Proof.Machine
end

