-- ==== Sys2Proof/Machine/Log.lean ====
section
/-! DEFINITION. The fault log and its mirror (18_integrity R365, R366), event items (15_hosts_queues R317), enqueueing
with its log entries (R307), and partner violations with quarantine (18_integrity R367-R371). -/
namespace Sys2Proof.Machine

/-- What is to be logged; `at_` gives the entry's stamp where it is not now. -/
structure Ev where
  code : Nat
  island : Nat := 0
  iface : Nat := 0
  partner : Nat := 0
  d1 : Int := 0
  d2 : Int := 0
  d3 : Int := 0
  violation : Bool := false
  summary : Bool := false
  mirror : Bool := false
  at_ : Option Nat := none

/-- The entry is to be mirrored (R366): its range bit, kind 0x7xxx, or its chapter says so. -/
def Dev.mirrors (d : Dev) (ev : Ev) : Bool :=
  ev.mirror || decide (ev.code / 4096 = 7) || bit (d.nat Ob.mirrorRanges) (ev.code / 4096)

/-- Mirror writes outside 0x7xxx within the last second. -/
def Dev.mirrorRecent (d : Dev) : List Nat := d.log.mirrorAt.filter fun t => decide (d.ago t < 1000000000)

/-- The mirror takes this entry: 0x7xxx always, others at most 4 per second (R366). -/
def Dev.mirrorRoom (d : Dev) (ev : Ev) : Bool := decide (ev.code / 4096 = 7) || decide (d.mirrorRecent.length < 4)

/-- The stamp of an entry: the timeline, and 0 before root lock (R365). -/
def Dev.logStamp (d : Dev) : Nat := if d.tl.running then d.now else 0

/-- The entry as it is written. -/
def Dev.entryOf (d : Dev) (ev : Ev) : LogEntry :=
  { stamp := ev.at_.getD d.logStamp, island := ev.island, iface := ev.iface, partner := ev.partner, code := ev.code,
    d1 := unsigned 32 ev.d1, d2 := unsigned 32 ev.d2, d3 := unsigned 32 ev.d3, seq := d.log.nextSeq,
    mirrored := d.mirrors ev && d.mirrorRoom ev, violation := ev.violation, summary := ev.summary }

/-- Entries of an island since the start. -/
def Dev.madeBy (d : Dev) (island : Nat) : Nat := (kvGet d.log.made island).getD 0

/-- Writes an entry to the ring and, where it is mirrored, to the flash mirror. -/
def Dev.logRing (d : Dev) (ev : Ev) : Dev :=
  let e := d.entryOf ev
  let ring := (e :: d.log.ring).take 1024
  let past := decide (1024 ≤ d.log.ring.length)
  let want := d.mirrors ev
  let room := d.mirrorRoom ev
  let mirror := if want && room then (e :: d.log.mirror).take 256 else d.log.mirror
  let at_ := if want && room && decide (ev.code / 4096 ≠ 7) then d.ext :: d.mirrorRecent else d.mirrorRecent
  let d := { d with log := { ring := ring, nextSeq := (d.log.nextSeq + 1) % 16777216, mirror := mirror, mirrorAt := at_,
                               made := kvPut d.log.made ev.island (d.madeBy ev.island + 1) } }
  let d := (d.setN Ob.logNewestSeq e.seq).setN Ob.logEntries ring.length
  let d := d.when past fun d => d.bump Ob.logOverwritten
  let d := d.when (want && room) fun d => (d.bump Ob.mirrorWritten).setN Ob.mirrorEntries mirror.length
  d.when (want && !room) fun d => d.bump Ob.mirrorDropped

/-- The event item of an entry about to be logged (15_hosts_queues section 4): code and detail inline, priority 6, and the
number of the entry among its island's (log 159). -/
def eventItem (d : Dev) (ev : Ev) : Item :=
  { subject := ev.at_.getD d.logStamp, srcKind := 8, srcNum := ev.island, prio := 6, seq := d.madeBy ev.island % 4294967296, payKind := 0, len := 16,
    data := leBytes 2 ev.code ++ leBytes 2 0 ++ leBytes 4 (unsigned 32 ev.d1) ++ leBytes 4 (unsigned 32 ev.d2)
      ++ leBytes 4 (unsigned 32 ev.d3),
    producer := 3 }

/-- Offers an event item to partition `p`'s event queue, counting a loss (R317). -/
def Dev.postEvent (d : Dev) (p : Nat) (it : Item) : Dev :=
  let q := d.nat (Ob.partEventQueue p)
  if q = 0xFFFF then d
  else
    let e := d.enqueueCore q it
    e.dev.bumpBy Ob.eventsLost (e.dropped + (!e.admitted && e.dropped == 0).toNat)

/-- Logs an event: ring, mirror, and the event queue of every partition whose EventRanges names its range. -/
def Dev.event (d : Dev) (ev : Ev) : Dev :=
  let it := eventItem d ev
  (d.logRing ev).each (List.range 8) fun d p =>
    d.when (bit (d.nat (Ob.partEventRanges p)) (ev.code / 4096)) fun d => d.postEvent p it

/-- Puts an item into a queue (15_hosts_queues R307): drops are logged as 0x0121, and arrivals that found no free
carafe cell as 0x0123, at the first and then at most once per second with the count. -/
def Dev.enqueue (d : Dev) (q : Nat) (it : Item) : Dev :=
  let e := d.enqueueCore q it
  let d := e.dev
  let r := d.q q
  let n := r.dropN + e.dropped
  let due (t : Option Nat) : Bool := match t with
    | none => true
    | some t => decide (1000000000 ≤ d.ago t)
  let logD := decide (0 < e.dropped) && due r.dropAt
  let x := r.exhN + e.exhausted.toNat
  let logX := e.exhausted && due r.exhAt
  let d := d.setQ q { r with
    dropN := if logD then 0 else n, dropAt := if logD then some d.ext else r.dropAt,
    exhN := if logX then 0 else x, exhAt := if logX then some d.ext else r.exhAt }
  let d := d.when logD fun d => d.event { code := 0x0121, island := Isl.qmg, d1 := q, d2 := n }
  d.when logX fun d => d.event { code := 0x0123, island := Isl.qmg, d1 := q, d2 := x }

/-- An item that comes outside its path's latency is marked, with a general event that gives both stamps (01_console_model R21,
log 106). -/
def Dev.judgeLate (d : Dev) (it : Item) (late : Bool) : Item × Dev :=
  if late then
    ({ it with late := true }, d.event { code := Config.lateEvent % 65536, d1 := it.subject, d2 := d.now })
  else (it, d)

/-- The owner partition of a queue (R294): the enabled partition whose range holds it, else the lowest-numbered
disabled one, else none. -/
def Dev.queueOwner (d : Dev) (q : Nat) : Option Nat :=
  let holds (p : Nat) : Bool :=
    decide (d.nat (Ob.partQueueFirst p) ≤ q) && decide (q < d.nat (Ob.partQueueFirst p) + d.nat (Ob.partQueueCount p))
  match (List.range 8).find? fun p => d.flag (Ob.partEnable p) && holds p with
  | some p => some p
  | none => (List.range 8).find? holds

/-- Partner ID of kind `k` and number `n` (18_integrity R368). -/
def partnerId (k n : Nat) : Nat := k * 4096 + n

/-- The record of a partner. -/
def Dev.partner (d : Dev) (id : Nat) : Option Partner := d.partners.find? fun p => p.id == id

/-- Partner `id` is in quarantine. -/
def Dev.quarantinedId (d : Dev) (id : Nat) : Bool :=
  match d.partner id with
  | some p => p.until_.isSome
  | none => false

/-- The Partner ID of a network peer that has an entry. -/
def Dev.peerId (d : Dev) (ip port : Nat) : Option Nat :=
  match d.partners.find? fun p => decide (p.id / 4096 = 3) && p.addr == ip * 65536 + port with
  | some p => some p.id
  | none => none

/-- The network peers' entries. -/
def Dev.netPeers (d : Dev) : List Partner := d.partners.filter fun p => decide (p.id / 4096 = 3)

/-- The least recently active of the entries that are not quarantined. -/
def leastActive : List Partner → Option Partner
  | [] => none
  | p :: ps =>
    match leastActive ps with
    | none => if p.until_.isSome then none else some p
    | some b => if p.until_.isSome || b.lastActive < p.lastActive then some b else some p

/-- A network peer takes an entry at a violation (R368): its own, a free one, or that of the least recently active
peer not in quarantine. -/
def Dev.peerEntry (d : Dev) (ip port : Nat) : Option Nat × Dev :=
  match d.peerId ip port with
  | some i => (some i, d)
  | none =>
    let fresh (i : Nat) (ps : List Partner) : Dev :=
      { d with partners := { id := partnerId 3 i, addr := ip * 65536 + port, lastActive := d.ext } :: ps }
    match (List.range 256).find? fun i => d.netPeers.all fun p => p.id != partnerId 3 i with
    | some i => (some (partnerId 3 i), fresh i d.partners)
    | none =>
      match leastActive d.netPeers with
      | some old => (some old.id, fresh (old.id % 4096) (d.partners.filter fun p => p.id != old.id))
      | none => (none, d)

/-- Who broke a protocol: a partner with a fixed ID, or a network peer by address. -/
inductive Who where
  | fixed (id : Nat)
  | peer (ip port : Nat)

/-- The partner's ID and a device that has its record. -/
def Dev.whoId (d : Dev) : Who → Option Nat × Dev
  | .fixed id =>
    match d.partner id with
    | some _ => (some id, d)
    | none => (some id, { d with partners := { id := id } :: d.partners })
  | .peer ip port => d.peerEntry ip port

/-- `f` applied to the record of partner `id`. -/
def Dev.onPartner (d : Dev) (id : Nat) (f : Partner → Partner) : Dev :=
  { d with partners := d.partners.map fun p => if p.id = id then f p else p }

/-- The partitions' own violation counter, for kind 1 (04_dictionary R111 counts in 0x1100 + p .0C). -/
def Dev.partViol (d : Dev) (id : Nat) : Dev :=
  if id / 4096 = 1 then d.bump (Ob.partViolations (id % 8)) else d

/-- A violation (R367, R369): logged with VIOLATION set and counted against its partner; the threshold within the
window starts a quarantine with 0x6010. During quarantine it is counted and not logged. `mk` gives the event from the
Partner ID. -/
def Dev.violate (d : Dev) (who : Who) (mk : Nat → Ev) : Dev :=
  match d.whoId who with
  | (none, d) => (d.event { mk 0x3FFF with violation := true, partner := 0x3FFF }).bump Ob.partnerTableFull
  | (some id, d) =>
    let ev := mk id
    let d := d.partViol id
    if d.quarantinedId id then
      d.onPartner id fun p => { p with duringViols := p.duringViols + 1, total := p.total + 1, lastCode := ev.code }
    else
      let th := d.nat Ob.quarantineThreshold
      let ps := (match d.partner id with | some p => p.viols | none => [])
      let viols := (d.ext :: ps).take 255
      let d := d.event { ev with violation := true, partner := id }
      let d := d.onPartner id fun p =>
        { p with viols := viols, total := p.total + 1, lastCode := ev.code, lastActive := d.ext }
      let full := match viols[th - 1]? with
        | some t => decide (d.ago t ≤ d.nat Ob.quarantineWindow * 1000000)
        | none => false
      if full then
        let d := d.onPartner id fun p =>
          { p with until_ := some (d.ext + d.nat Ob.quarantineTime * 1000000), duringViols := 0, dropsThis := 0 }
        let d := (d.bump Ob.partnersQuarantined).bump Ob.quarantines
        d.event { code := 0x6010, island := ev.island, iface := ev.iface, partner := id, d1 := th,
                  d2 := d.nat Ob.quarantineTime }
      else d

/-- A frame or item of a quarantined partner is dropped uncounted as a violation (R369). -/
def Dev.quarantineDrop (d : Dev) (id : Nat) : Dev :=
  d.onPartner id fun p => { p with drops := p.drops + 1, dropsThis := p.dropsThis + 1 }

/-- A quarantine ends: 0x6011 with SUMMARY, and the partner's window restarts empty (R369). -/
def Dev.quarantineEnd (d : Dev) (id : Nat) : Dev :=
  match d.partner id with
  | none => d
  | some p =>
    if p.until_.isNone then d
    else
      let d := d.onPartner id fun p => { p with until_ := none, viols := [], duringViols := 0, dropsThis := 0 }
      let d := d.drop Ob.partnersQuarantined
      d.event { code := 0x6011, island := Isl.ctl, partner := id, d1 := p.duringViols, d2 := p.dropsThis, summary := true }

/-- An event of a handover point is logged: the first of its outcome in any 100 ms (R357). -/
def Dev.pointEvent (d : Dev) (point slot : Nat) (ev : Ev) : Dev :=
  let due := match kvGet d.handAt (point * 4 + slot) with
    | some t => decide (100000000 ≤ d.ago t)
    | none => true
  if due then ({ d with handAt := kvPut d.handAt (point * 4 + slot) d.ext }).event ev else d

/-- The outcome of a handover at `point` is counted, and the first of each kind in any 100 ms is logged (R356, R357):
0x6006 in place of 0x6001 and 0x6002 where ECC found it. `src` and `num` are the source kind and number, `iface` the
interface of R417. The entries name no island (log 157). -/
def Dev.handover (d : Dev) (point iface src num : Nat) (f : Found) : Dev :=
  let d := d.when (decide (0 < f.eccCorrected)) fun d => d.bumpBy (Ob.pointEccCorrected point) f.eccCorrected
  let d := d.when (f.eccData || f.eccCheck) fun d => d.bump (Ob.pointEccUncorrectable point)
  let ev (code : Nat) : Ev :=
    if f.eccData || f.eccCheck then { code := 0x6006, iface := iface, d1 := point, d2 := f.eccAddr }
    else { code := code, iface := iface, d1 := point, d2 := src, d3 := num }
  match f.outcome with
  | .ok => d
  | .cocOnly => (d.bump (Ob.pointCocOnly point)).pointEvent point 3 (ev 0x6003)
  | .bad => (d.bump (Ob.pointBadCount point)).pointEvent point 1 (ev 0x6001)
  | .unproven => (d.bump (Ob.pointUnprovenCount point)).pointEvent point 2 (ev 0x6002)

/-- A frame that came in by an Ethernet port fails its check at point 1: FcsErrors. -/
def Dev.countFcs (d : Dev) (port : Nat) (f : Found) : Dev := d.when (!f.checkOk) fun d => d.bump (Ob.ethFcsErrors (port % 2))

/-- The record of an item of queue `q` is verified at a point (R358): a corrupt record is discarded, counted and logged as
0x6004 under the limit of R357; with a corrupt check-of-check too the item is UNPROVEN. Answers the item where it
goes on. -/
def Dev.recordCheck (d : Dev) (point q : Nat) (it : Item) (f : Found) : Option Item × Dev :=
  match f.outcome with
  | .ok => (some it, d.handover point 15 it.srcKind it.srcNum f)
  | .cocOnly => (some it, d.handover point 15 it.srcKind it.srcNum f)
  | .unproven => (some (it.flag .unproven), d.handover point 15 it.srcKind it.srcNum f)
  | .bad =>
    let d := d.when (decide (0 < f.eccCorrected)) fun d => d.bumpBy (Ob.pointEccCorrected point) f.eccCorrected
    let d := d.when f.eccData fun d => d.bump (Ob.pointEccUncorrectable point)
    (none, ((d.bump (Ob.pointBadCount point)).bump Ob.recordsDiscarded).pointEvent point 1
      { code := 0x6004, iface := 15, d1 := q, d2 := it.gen })

end Sys2Proof.Machine
end

