-- ==== Sys2Proof/Machine/Frames.lean ====
section
/-! DEFINITION. Commands held while a synthesiser settles (03_timing_unit R80), and frames leaving an Ethernet port
(16_network_paths R325, R332). -/
namespace Sys2Proof.Machine

/-- `f` applied to the timing unit. -/
def Dev.onTu (d : Dev) (f : Tu → Tu) : Dev := { d with tu := f d.tu }

/-- A command is held until its synthesiser locks (R80). -/
def Dev.hold (d : Dev) (syn : Nat) (cmd : HeldCmd) : Dev :=
  ((d.onTu fun t => { t with held := t.held ++ [{ syn := syn, at_ := d.ext, cmd := cmd }] }).bump Ob.deferredCount).event
    { code := 0x1027, island := Isl.tmg, d1 := syn }

/-- The synthesiser at a subindex of 0x2150 reads LOCKING/CALIBRATING or FAULT. -/
def Dev.synBusy (d : Dev) (syn : Nat) : Bool :=
  d.reg (Ob.synthState (syn - 1)) == 1 || d.reg (Ob.synthState (syn - 1)) == 3

/-- A held command waits. -/
def Dev.isHeld (d : Dev) (c : HeldCmd) : Bool := d.tu.held.any fun h => decide (h.cmd = c)

/-- A held command leaves the list. -/
def Dev.unhold (d : Dev) (c : HeldCmd) : Dev := d.onTu fun t => { t with held := t.held.filter fun h => decide (h.cmd ≠ c) }

/-- Port 0 (A) or 1 (B) is up: its link is up, its Enable 1 and its island not quiesced (R325). -/
def Dev.portUp (d : Dev) (port : Nat) : Bool :=
  d.reg (Ob.ethLinkState port) == 1 && d.flag (Ob.ethEnable port) && !d.quiesced (Isl.eta + port)

/-- A frame leaves by a port: held while its SerDes settles, not sent while the port is down. -/
def Dev.ethOut (d : Dev) (port : Nat) (o : Output) : Dev :=
  if !d.portUp port then d
  else if d.synBusy (port + 5) then d.hold (port + 5) (.frame o)
  else (d.send o).bump (Ob.ethFramesTx (port % 2))

/-- A frame's fields behind the addresses it is sent from, the same on both ports (16_network_paths R321). -/
def Dev.addressed (d : Dev) (fields : List Int) : List Int := d.reg Ob.deviceMac :: d.reg Ob.deviceIp :: fields

/-- A frame of a kind with its fields leaves by a port. -/
def Dev.ethSend (d : Dev) (port : Nat) (kind : FrameKind) (fields : List Int) (payload : Bytes) : Dev :=
  d.ethOut port (.frame port kind (d.addressed fields) payload false)

end Sys2Proof.Machine
end

