-- ==== Sys2Proof/Machine/Conns.lean ====
section
/-! DEFINITION. The slots of Virek connections and how a connection ends (17_virek R340), for the chapters that end one. -/
namespace Sys2Proof.Machine

/-- `f` applied to Virek. -/
def Dev.onVirek (d : Dev) (f : Virek → Virek) : Dev := { d with virek := f d.virek }

/-- The connection in a slot. -/
def Dev.conn (d : Dev) (slot : Nat) : Option Conn := kvGet d.virek.conns slot

/-- `f` applied to the connection in a slot. -/
def Dev.onConn (d : Dev) (slot : Nat) (f : Conn → Conn) : Dev :=
  match d.conn slot with
  | none => d
  | some c => d.onVirek fun v => { v with conns := kvPut v.conns slot (f c) }

/-- The epoch of a slot. -/
def Dev.epoch (d : Dev) (slot : Nat) : Nat := (kvGet d.virek.epochs slot).getD 0

/-- A Virek event is logged and posted to the event queue of its connection's partition (R352). -/
def Dev.virekEvent (d : Dev) (p : Nat) (ev : Ev) : Dev :=
  let it := eventItem d ev
  let d := d.event ev
  d.when (!bit (d.nat (Ob.partEventRanges p)) 5) fun d => d.postEvent p it

/-- Why a connection closes (R340). -/
inductive CloseCause where
  | disconnect | close | timeout | partition | disabled
  deriving DecidableEq, Repr

/-- The place of a cause, from which event 0x5A02 takes its number. -/
def CloseCause.index : CloseCause → Nat
  | .disconnect => 0
  | .close => 1
  | .timeout => 2
  | .partition => 3
  | .disabled => 4

/-- A connection enters CLOSED (R340): its slot is free, the slot's epoch rises, 0x5A02. -/
def Dev.closeConn (d : Dev) (slot : Nat) (cause : CloseCause) : Dev :=
  match d.conn slot with
  | none => d
  | some c =>
    let d := d.onVirek fun v =>
      { v with conns := kvDel v.conns slot, epochs := kvPut v.epochs slot ((d.epoch slot + 1) % 256) }
    (d.drop Ob.virekConnectionsOpen).virekEvent c.part
      { code := 0x5A02, island := Isl.eta, iface := 13, d1 := c.id, d2 := Config.closeCause cause.index }

/-- Every connection that meets a test closes. -/
def Dev.closeConns (d : Dev) (cause : CloseCause) (f : Conn → Bool) : Dev :=
  d.each (d.virek.conns.filter fun e => f e.2) fun d e => d.closeConn e.1 cause

/-- A notice to every connection of a traffic class (R350). -/
def Dev.connNotice (d : Dev) (k code : Nat) (d2 : Int) : Dev :=
  d.each (d.virek.conns.filter fun e => d.nat (Ob.vpVirekClass e.2.part) == k) fun d e =>
    d.virekEvent e.2.part { code := code, island := Isl.eta, iface := 13, d1 := e.2.id, d2 := d2 }

end Sys2Proof.Machine
end

