-- ==== Sys2Proof/Machine/Service.lean ====
section
/-! DEFINITION. The dictionary service: frames and answers, the check order of 04_dictionary Table 2, and what every
accepted request does around its own effect (R85-R103, R135, R136). -/
namespace Sys2Proof.Machine

/-- Operation codes (04_dictionary Table 4). -/
abbrev Op.hello : Nat := 1
abbrev Op.read : Nat := 2
abbrev Op.write : Nat := 3
abbrev Op.readBlock : Nat := 4
abbrev Op.writeBlock : Nat := 5
abbrev Op.subscribe : Nat := 6
abbrev Op.notify : Nat := 7
abbrev Op.abort : Nat := 8
abbrev Op.pour : Nat := 9

/-- Byte 0 of a frame (04_dictionary Table 3). -/
def frameByte0 (version : Nat) (auth more resp : Bool) : Nat :=
  version * 16 + 4 * auth.toNat + 2 * more.toNat + resp.toNat

/-- Bytes 0 to 15 + L of a frame (Table 3). -/
def frameBytes (version : Nat) (auth more resp : Bool) (op tag session seq len seg : Nat) (payload : Bytes) : Bytes :=
  leBytes 1 (frameByte0 version auth more resp) ++ leBytes 1 op ++ leBytes 2 tag ++ leBytes 4 session ++ leBytes 4 seq
    ++ leBytes 2 len ++ leBytes 2 seg ++ payload

/-- The MAC of a frame: the 8 leading bytes of the AES-CMAC tag (R95). -/
def macOf (key frame : Bytes) : Bytes := (aesCmac key frame).take 8

/-- The bytes of a request that its MAC covers. -/
def Hdr.bytes (hd : Hdr) (payload : Bytes) : Bytes :=
  frameBytes hd.version hd.auth hd.more hd.resp hd.opcode hd.tag hd.session hd.seq hd.len hd.seg payload

/-- A request's MAC is present and correct under the session's key (R95). -/
def macOk (se : Session) (hd : Hdr) (payload : Bytes) : Bool :=
  hd.auth && decide (hd.mac = macOf se.key (hd.bytes payload))

/-- Address bytes of an object. -/
def addrBytes (idx sub : Nat) : Bytes := leBytes 2 idx ++ leBytes 1 sub

/-- The payload of a WRITE (Table 4). -/
def writePayload (idx sub : Nat) (cond : Option Nat) (v : Bytes) : Bytes :=
  addrBytes idx sub ++ leBytes 1 (if cond.isSome then 1 else 0) ++ leBytes 2 (cond.getD 0) ++ leBytes 2 0 ++ v

/-- The payload of a READ (Table 4). -/
def readPayload (idx sub : Nat) : Bytes := addrBytes idx sub ++ leBytes 1 0

/-- The carrier's payload limit (Table 5). -/
def Carrier.limit : Carrier → Nat
  | .can _ _ => 40
  | .udp _ _ => 1024
  | .mailbox _ => 1024

/-- Interface code of the carrier (18_integrity Table 4). -/
def Carrier.iface : Carrier → Nat
  | .can _ _ => 1
  | .udp _ _ => 2
  | .mailbox _ => 3

/-- The attachment of partition `p` is this carrier's (04_dictionary Table 10, AttachKind and AttachAddress). -/
def Dev.attachedTo (d : Dev) (p : Nat) : Carrier → Bool
  | .mailbox fn => d.nat (Ob.partAttachKind p) == 0 && d.nat (Ob.partAttachAddress p) == fn
  | .udp ip _ => d.nat (Ob.partAttachKind p) == 1 && d.nat (Ob.partAttachAddress p) == ip
  | .can ctl node => d.nat (Ob.partAttachKind p) == 2 && d.nat (Ob.partAttachAddress p) == ctl * 256 + node

/-- The enabled partition attached to a carrier. -/
def Dev.partOf (d : Dev) (c : Carrier) : Option Nat :=
  (List.range 8).find? fun p => d.flag (Ob.partEnable p) && d.attachedTo p c

/-- The partner a carrier's violations count against (R111). -/
def Dev.whoOf (d : Dev) : Carrier → Who
  | .mailbox fn => .fixed (partnerId 1 ((d.partOf (.mailbox fn)).getD fn))
  | .can ctl node => .fixed (partnerId 2 (ctl * 256 + node))
  | .udp ip port => .peer ip port

/-- The Partner ID of a carrier that has a record. -/
def Dev.carrierId (d : Dev) : Carrier → Option Nat
  | .mailbox fn => some (partnerId 1 ((d.partOf (.mailbox fn)).getD fn))
  | .can ctl node => some (partnerId 2 (ctl * 256 + node))
  | .udp ip port => d.peerId ip port

/-- The roles of partition `p`: its RoleMask, with Integrator always for partition 0 (R92). -/
def Dev.roles (d : Dev) (p : Nat) : Nat :=
  let m := d.nat (Ob.partRoleMask p)
  if p = 0 && !bit m 2 then m + 4 else m

/-- Partition `p` holds Integrator. -/
def Dev.isInt (d : Dev) (p : Nat) : Bool := bit (d.roles p) 2

/-- An access code lets its role read. -/
def Acc.reads : Acc → Bool
  | .ro => true
  | .rw => true
  | .rwp => true
  | _ => false

/-- An access code lets its role write. -/
def Acc.writes : Acc → Bool
  | .wo => true
  | .rw => true
  | .rwp => true
  | _ => false

/-- The widest access that a set of roles grants (R6). -/
def Access.grants (a : Access) (roles : Nat) (f : Acc → Bool) : Bool :=
  bit roles 0 && f a.ob || bit roles 1 && f a.op || bit roles 2 && f a.inte || bit roles 3 && f a.sf

/-- The object is persisted: RWP for some role, or its Notes say so (R7). -/
def ObjRow.persisted (r : ObjRow) : Bool :=
  r.per || decide (r.acc.ob = .rwp) || decide (r.acc.op = .rwp) || decide (r.acc.inte = .rwp) || decide (r.acc.sf = .rwp)

/-- A write of the object is an RWP write (R7, R87). -/
def ObjRow.rwp (r : ObjRow) : Bool :=
  decide (r.acc.ob = .rwp) || decide (r.acc.op = .rwp) || decide (r.acc.inte = .rwp) || decide (r.acc.sf = .rwp)

/-- `f` applied to a session. -/
def Dev.onSession (d : Dev) (sid : Nat) (f : Session → Session) : Dev :=
  { d with dict := { d.dict with sessions := d.dict.sessions.map fun s => if s.id = sid then f s else s } }

/-- The settings of a CAN controller that Restart or a start applies (0x1210 .02-.08), as they are in force. -/
def canInForce (k : Nat) : Nat := inst k 0

/-- A CAN identifier of the device (Table 6): kind 0 request, 1 answer, 2 NOTIFY, 3 announcement. -/
def Dev.canIdent (d : Dev) (ctl kind node : Nat) : Nat :=
  d.nat (canInForce (Ob.canIdPrefix ctl)) * 1048576 + kind * 65536 + d.nat (canInForce (Ob.canDeviceNode ctl)) * 256 + node

/-- The data of a CAN FD frame: in the smallest data length that holds it, padded with 0 (R107). -/
def canPad (b : Bytes) : Bytes :=
  b ++ List.replicate ((([0, 1, 2, 3, 4, 5, 6, 7, 8, 12, 16, 20, 24, 32, 48, 64] : List Nat).find? fun n =>
    decide (b.length ≤ n)).getD b.length - b.length) 0

/-- The body of a NOTIFY (Table 4). -/
def notifyBody (handle coalesced ver stamp : Nat) (v : Bytes) : Bytes :=
  leBytes 2 handle ++ leBytes 2 coalesced ++ leBytes 2 ver ++ leBytes 2 0 ++ leBytes 6 stamp ++ leBytes 2 0 ++ v

/-- An answer's payload: the 8-byte head, then its data (section 4). -/
def Ans.payload (a : Ans) : Bytes := leBytes 2 a.status ++ leBytes 2 a.ver ++ leBytes 4 a.detail ++ a.data

/-- An answer or NOTIFY on CAN: its kind and its frame's bytes, MAC included (Tables 3 and 6). -/
def Output.onCan : Output → Nat × Bytes
  | .answer _ sid seq tag op seg more a mac =>
    (1, frameBytes 1 (mac != []) more true op tag sid seq a.payload.length seg a.payload ++ mac)
  | .notify _ sid seq handle coalesced a stamp mac =>
    let body := notifyBody handle coalesced a.ver stamp a.data
    (2, frameBytes 1 (mac != []) false true Op.notify 0 sid seq body.length 0 body ++ mac)
  | _ => (3, [])

/-- An output on a carrier: on CAN a frame of its own identifier (R107); on the mailbox it takes an answer slot and fires vector 0, or is held while the answer ring
is full (15_hosts_queues R303); over UDP it leaves by `port` (R109). -/
def Dev.post (d : Dev) (c : Carrier) (port : Nat) (o : Output) : Dev :=
  match c with
  | .udp _ _ => d.ethOut port o
  | .mailbox fn =>
    let p := (d.partOf c).getD fn
    let m := (kvGet d.mbox p).getD {}
    if decide (m.slots ≠ 0) && decide (m.slots ≤ ring32 m.ansProd m.ansCons) then
      { d with mbox := kvPut d.mbox p { m with held := m.held ++ [o] } }
    else (({ d with mbox := kvPut d.mbox p { m with ansProd := (m.ansProd + 1) % 4294967296 } }).send o).send (.msix p 0)
  | .can ctl node => d.send (.canFrame ctl (d.canIdent ctl o.onCan.1 node) (canPad o.onCan.2))

/-- An answer without a MAC (R99). -/
def Dev.plainAnswer (d : Dev) (hd : Hdr) (a : Ans) : Dev :=
  d.post hd.carrier hd.ethPort (.answer hd.carrier 0 0 hd.tag hd.opcode 0 false a [])

/-- What ended a session (R97). -/
inductive EndCause where
  | close | idle | unconfirmed | sequence | ctl | config | key | canBusOff | canRestart
  deriving DecidableEq, Repr

/-- The place of a cause in the list of R97, from which event 0x2002 takes its number. -/
def EndCause.index : EndCause → Nat
  | .close => 0
  | .idle => 1
  | .sequence => 2
  | .ctl => 3
  | .config => 4
  | .key => 5
  | .unconfirmed => 6
  | .canBusOff => 7
  | .canRestart => 8

/-- A session ends (R97): its subscriptions go with it, its block writes are discarded (0x2006), requests executing
finish without answer, and 0x2002 is logged. -/
def Dev.endSession (d : Dev) (sid : Nat) (cause : EndCause) : Dev :=
  match d.session sid with
  | none => d
  | some se =>
    let gone := d.dict.blocks.filter fun b => b.sid == sid
    let d := { d with dict := { d.dict with
      sessions := d.dict.sessions.filter (fun s => s.id != sid),
      blocks := d.dict.blocks.filter (fun b => b.sid != sid) } }
    let d := (d.drop Ob.sessionsOpen).drop (Ob.partActiveSessions (se.part % 8))
    let d := d.each gone fun d b =>
      d.event { code := 0x2006, island := Isl.ctl, iface := se.carrier.iface, d1 := b.key, d2 := Sc.sessionUnknown }
    d.event { code := 0x2002, island := Isl.ctl, iface := se.carrier.iface, d1 := sid,
              d2 := Config.endCause cause.index }

/-- An answer under a session: the next device sequence and a MAC (R95, R98); the session ends when that sequence reaches
2^32 - 1 (R97). `seg` and `more` are those of a segmented answer. -/
def Dev.sessionAnswer (d : Dev) (se : Session) (tag op seg : Nat) (more : Bool) (a : Ans) : Dev :=
  match d.session se.id with
  | none => d
  | some now =>
    let n := now.devSeq + 1
    let frame := frameBytes 1 true more true op tag se.id n a.payload.length seg a.payload
    let d := (d.onSession se.id fun s => { s with devSeq := n }).post se.carrier se.ethPort
      (.answer se.carrier se.id n tag op seg more a (macOf se.key frame))
    if 4294967295 ≤ n then d.endSession se.id .sequence else d

/-- The pieces of at most `n` bytes that a byte string is sent in, at least one. -/
def cut (n : Nat) : Nat → Bytes → List Bytes
  | 0, _ => []
  | fuel + 1, b => if b.length ≤ n then [b] else b.take n :: cut n fuel (b.drop n)

/-- Segments `i` onward of an answer, MORE set on all but the last (R104). -/
def Dev.sendSegments (d : Dev) (se : Session) (tag op : Nat) (a : Ans) : Nat → List Bytes → Dev
  | _, [] => d
  | i, b :: l => (d.sessionAnswer se tag op i (!l.isEmpty) { a with data := b }).sendSegments se tag op a (i + 1) l

/-- The answer to a request: a READ_BLOCK's in as many segments as it needs (R104), any other in one. -/
def Dev.answerAll (d : Dev) (se : Session) (tag op : Nat) (a : Ans) : Dev :=
  if op = Op.readBlock then d.sendSegments se tag op a 0 (cut (se.carrier.limit - 8) 65537 a.data)
  else d.sessionAnswer se tag op 0 false a

/-- Every session that meets a test ends. -/
def Dev.endSessions (d : Dev) (cause : EndCause) (f : Session → Bool) : Dev :=
  d.each ((d.dict.sessions.filter f).map fun s => s.id) fun d sid => d.endSession sid cause

/-- Answers still within ResultCacheTime (R101). -/
def Dev.freshCache (d : Dev) (cs : List Cached) : List Cached :=
  cs.filter fun c => decide (d.ago c.stamp < d.nat Ob.resultCacheTime * 1000000)

/-- A request completes: its tag leaves the outstanding ones, its answer is kept among the last 16 (R101; a BUSY answer
asks for a retry and is not kept), and the answer goes out. An island's ABSENT counts there (19_power_dies R393). A session that has ended is not answered (R97). -/
def Dev.complete (d : Dev) (sid tag op : Nat) (payload : Bytes) (seq : Nat) (a : Ans) : Dev :=
  match d.session sid with
  | none => d
  | some se =>
    let keep := decide (a.status ≠ Sc.busy)
    let d := (d.when (a.status == Sc.absent) fun d => d.absentReply a.detail).onSession sid fun s => { s with
      outst := s.outst.filter (fun o => o.tag != tag),
      cache := if keep then ({ tag, op, payload, seq, ans := a, stamp := d.ext } :: d.freshCache s.cache).take 16
               else d.freshCache s.cache }
    d.answerAll se tag op a

/-- A violation of the Ighovik protocol: counted, logged with its code (R111, Table 11). -/
def Dev.ighViolation (d : Dev) (hd : Hdr) (status : Nat) : Dev :=
  let d :=
    if status = Sc.authFailed then d.bump Ob.authFailures
    else if status = Sc.seqStale then d.bump Ob.staleSequences
    else if status = Sc.malformed || status = Sc.badLength || status = Sc.badOpcode then d.bump Ob.malformedFrames
    else d
  let code := if status = Sc.authFailed then 0x2003 else if status = Sc.seqStale then 0x2004 else 0x2005
  d.violate (d.whoOf hd.carrier) fun id =>
    { code, island := Isl.ctl, iface := hd.carrier.iface, d1 := id,
      d2 := if status = Sc.authFailed then 0 else if status = Sc.seqStale then hd.seq else status }

/-- The partner protocol violations among the answers (R111). -/
def isViolation (status : Nat) : Bool :=
  ([Sc.malformed, Sc.badLength, Sc.badOpcode, Sc.authFailed, Sc.seqStale, Sc.tagInUse, Sc.tooManyOutstanding,
    Sc.segmentOrder] : List Nat).contains status

/-- A frame's failure of step 1 of Table 2: version, then lengths. -/
def stepOne (hd : Hdr) (payload : Bytes) : Option Nat :=
  if hd.version ≠ 1 then some Sc.malformed
  else if hd.len ≠ payload.length || decide (hd.carrier.limit < hd.len) then some Sc.badLength
  else none

/-- Steps 1 and 2 of Table 2 for a frame whose row's operation is `op`: the failing status, if one fails. -/
def frameFault (hd : Hdr) (op : Nat) (payload : Bytes) : Option Nat :=
  match stepOne hd payload with
  | some st => some st
  | none => if hd.resp || hd.opcode ≠ op then some Sc.badOpcode else none

/-- ms from now to an extended instant, rounded up. -/
def Dev.msTo (d : Dev) (t : Nat) : Nat := ceilDiv (t - d.ext) 1000000

/-- What came of a frame before its own operation. -/
inductive Adm where
  | stop (d : Dev)
  | go (d : Dev) (se : Session)

/-- The dictionary serves requests: ServiceReady, or MAINTENANCE's recovery service (05_start_up R130, R137). -/
def Dev.serving (d : Dev) : Bool := d.ready || d.nat Ob.bootPhase == 9

/-- Before ServiceReady (05_start_up Table 7, R89): a UDP frame that came by a port that is up is answered BUSY_BOOTING, or
the code of step 1 where it fails that, at most once per 50 ms and partner; CAN requests are discarded and counted from
ROM on; doorbells are ignored; a frame too short for a header is counted and dropped (R111). -/
def Dev.beforeReady (d : Dev) (hd : Hdr) (fault : Option Nat) : Dev :=
  match hd.carrier with
  | .can _ _ => d.when (decide (3 ≤ d.nat Ob.bootPhase)) fun d => d.bump Ob.canBeforeReady
  | .mailbox _ => d
  | .udp ip port =>
    let last := (d.dict.lastBusy.find? fun e => decide (e.1 = Carrier.udp ip port)).map fun e => e.2
    let paced := match last with
      | some t => decide (d.ago t < 50000000)
      | none => false
    if hd.short then d.bump Ob.malformedFrames
    else if paced then d.bump Ob.udpBeforeReady
    else
      let d := { d with dict := { d.dict with
        lastBusy := (Carrier.udp ip port, d.ext) :: d.dict.lastBusy.filter (fun e => decide (e.1 ≠ Carrier.udp ip port)) } }
      match fault with
      | some st => d.plainAnswer hd { status := st }
      | none => (d.plainAnswer hd
          { status := Sc.busyBooting, detail := Nat.max 50 (Config.readyEstimate d.now) }).bump Ob.busyBootingSent

/-- A CAN frame is Ighovik's (R107, Table 6): CAN FD, on a request's identifier for this device from the node. -/
def Dev.canPattern (d : Dev) (hd : Hdr) (ctl node : Nat) : Bool := !hd.classical && hd.ident == d.canIdent ctl 0 node

/-- A frame the carrier lets through at all (R107, R109, R130; 05_start_up R135). `none`: it goes on. -/
def Dev.carrierStop (d : Dev) (hd : Hdr) : Option Dev :=
  match hd.carrier with
  | .udp ip port =>
    if d.nat Ob.bootPhase == 9 || !d.portUp hd.ethPort then some d
    else if hd.fragmented || (d.serving && (d.partOf (.udp ip port)).isNone) then some (d.bump Ob.udpDropped)
    else if !d.flag (if hd.ethPort = 0 then Ob.udpEnableA else Ob.udpEnableB) then some d
    else none
  | .can ctl node =>
    if !d.canPattern hd ctl node || !d.flag (Ob.canEnable ctl) || d.nat (Ob.canErrorState ctl) == 2 then some d else none
  | .mailbox fn =>
    if (d.partOf (.mailbox fn)).isNone || (d.nat Ob.bootPhase == 9 && fn != 0) then some d else none

/-- What precedes Table 2 and its steps 1 and 2 for any operation: the carrier, a quiesced CTL (19_power_dies R397),
quarantine (18_integrity Table 6), the time before ServiceReady, where only step 1 is made (R89), and a frame too short
for a header. `none`: the frame goes on to step 3. -/
def Dev.preCheck (d : Dev) (hd : Hdr) (op : Nat) (payload : Bytes) : Option Dev :=
  match d.carrierStop hd with
  | some d => some d
  | none =>
    if d.quiesced Isl.ctl then some (d.bump (Ob.islCtlDropped 2))
    else if (match d.carrierId hd.carrier with | some id => d.quarantinedId id | none => false) then
      let id := (d.carrierId hd.carrier).getD 0
      if op = Op.hello && !hd.short then
        some (d.plainAnswer hd { status := Sc.quarantined, detail := d.msTo (((d.partner id).bind fun p => p.until_).getD 0) })
      else some (d.quarantineDrop id)
    else if !d.serving then some (d.beforeReady hd (stepOne hd payload))
    else if hd.short then some (d.ighViolation hd Sc.malformed)
    else match frameFault hd op payload with
      | some st => some ((d.ighViolation hd st).plainAnswer hd { status := st })
      | none => none

/-- The sequence is fresh (R98). -/
def Session.freshSeq (se : Session) (s : Nat) : Bool :=
  if se.confirmed then
    decide (se.hi < s) || (decide (se.hi ≤ s + 63) && decide (s < se.hi) && !se.accepted.contains s)
  else s == 1

/-- The sequence was accepted before and lies within the window (R98). -/
def Session.replayed (se : Session) (s : Nat) : Bool :=
  se.confirmed && decide (se.hi ≤ s + 63) && decide (s ≤ se.hi) && se.accepted.contains s

/-- The session after accepting sequence `s`: the window moves, the idle timer restarts, and the first request confirms
it (R96-R98). -/
def Session.accept (se : Session) (now s : Nat) : Session :=
  let hi := Nat.max se.hi s
  { se with hi := hi, accepted := (s :: se.accepted).filter (fun a => decide (hi ≤ a + 63)), confirmed := true,
            lastReq := now }

/-- Outstanding requests of a session carrier identity in the start window (05_start_up R136): those that wait for a commit,
and those accepted at the present instant of the timeline, which are taken as outstanding together (log 138). -/
def Dev.partnerOutst (d : Dev) (c : Carrier) : Nat :=
  ((d.dict.sessions.filter fun s => decide (s.carrier = c)).map fun s => (s.outst.filter fun o => o.at_ != d.ext).length).sum
    + (d.dict.startReqs.filter fun e => decide (e.1 = c) && e.2 == d.ext).length

/-- In the start window, a request of a carrier is counted among those of this instant (R136). -/
def Dev.countStart (d : Dev) (c : Carrier) : Dev :=
  if d.startWindow then
    { d with dict := { d.dict with startReqs := (c, d.ext) :: d.dict.startReqs.filter fun e => e.2 == d.ext } }
  else d

/-- A network peer that has an entry is active (18_integrity R368). -/
def Dev.peerActive (d : Dev) (c : Carrier) : Dev := match c with
  | .udp ip port => match d.peerId ip port with
    | some id => d.onPartner id fun p => { p with lastActive := d.ext }
    | none => d
  | _ => d

/-- The start window is open (05_start_up R136). -/
def Dev.inStartWindow (d : Dev) : Bool := d.startWindow

/-- A cached answer goes out again, not executed again (R98, R101). -/
def Dev.replay (d : Dev) (se : Session) (c : Cached) : Dev := d.answerAll se c.tag c.op c.ans

/-- Steps 1 to 5 of Table 2 for a request of a session. `multi` says that the frame is a segment of a transfer open under
its tag, to which step 5 does not apply. DESIGN CHOICE (log 139): the request whose own sequence is 2^32 - 1 is accepted
and ends its session (R97), so it is neither executed nor answered; a request identical to one still outstanding is
accepted by its sequence and dropped, for the answer of the first will come (R101 speaks of cached answers only). -/
def Dev.admission (d : Dev) (hd : Hdr) (op : Nat) (payload : Bytes) (multi : Bool) : Adm :=
  match d.preCheck hd op payload with
  | some d => .stop d
  | none =>
    match d.session hd.session with
    | none => .stop (d.plainAnswer hd { status := Sc.sessionUnknown })
    | some se =>
      if se.carrier ≠ hd.carrier then .stop (d.plainAnswer hd { status := Sc.sessionUnknown })
      else if !macOk se hd payload then .stop ((d.ighViolation hd Sc.authFailed).plainAnswer hd { status := Sc.authFailed })
      else
        let d := (d.peerActive hd.carrier).onSession se.id fun s => { s with ethPort := hd.ethPort }
        let se := { se with ethPort := hd.ethPort }
        let same (c : Cached) : Bool := c.tag == hd.tag && c.op == op && decide (c.payload = payload)
        let cache := d.freshCache se.cache
        if !se.freshSeq hd.seq then
          match (if se.replayed hd.seq then cache.find? same else none) with
          | some c => .stop (d.replay se c)
          | none => .stop ((d.ighViolation hd Sc.seqStale).sessionAnswer se hd.tag op 0 false
              { status := Sc.seqStale, detail := se.hi })
        else
          let d := d.onSession se.id fun s => s.accept d.ext hd.seq
          if hd.seq ≥ 4294967295 then .stop (d.endSession se.id .sequence)
          else if multi then .go d se
          else match cache.find? fun c => c.tag == hd.tag with
            | some c =>
              if same c then .stop (d.replay se c)
              else .stop ((d.ighViolation hd Sc.tagInUse).sessionAnswer se hd.tag op 0 false { status := Sc.tagInUse })
            | none =>
              match se.outst.find? fun o => o.tag == hd.tag with
              | some o =>
                if o.op == op && decide (o.payload = payload) then .stop d
                else .stop ((d.ighViolation hd Sc.tagInUse).sessionAnswer se hd.tag op 0 false { status := Sc.tagInUse })
              | none =>
                if se.outst.length ≥ 16 || (d.inStartWindow && decide (16 ≤ d.partnerOutst se.carrier)) then
                  .stop ((d.ighViolation hd Sc.tooManyOutstanding).sessionAnswer se hd.tag op 0 false
                    { status := Sc.tooManyOutstanding, detail := 16 })
                else if d.inStartWindow && decide (4 ≤ d.partnerOutst se.carrier) then
                  .stop (((d.countStart se.carrier).bump Ob.startWindowBusy).sessionAnswer se hd.tag op 0 false
                    { status := Sc.busy, detail := 50 })
                else .go (d.countStart se.carrier) se

/-- A refusal with its code, detail and the object's current version. -/
structure Refuse where
  status : Nat
  detail : Nat := 0

/-- The object is served in MAINTENANCE (05_start_up R130); 0x6000-0x60FF is read only there. -/
def servedInMaintenance (idx : Nat) (write : Bool) : Bool :=
  decide (0x1000 ≤ idx ∧ idx ≤ 0x12FF) || (!write && decide (0x6000 ≤ idx ∧ idx ≤ 0x60FF))
    || decide (0x7000 ≤ idx ∧ idx ≤ 0x70FF)

/-- An owner object's partition; 0xFF is none. -/
def Dev.ownerVal (d : Dev) (k : Nat) : Option Nat := if d.nat k = 0xFF then none else some (d.nat k)

/-- The owner of the resource an object belongs to (R88): `none` for a device-wide object, `some none` for an unowned
resource. `q` is the queue, and for 0x5A21 the connection, that the session has selected. -/
def Dev.ownerOf (d : Dev) (idx q : Nat) : Option (Option Nat) :=
  if 0x3000 ≤ idx ∧ idx ≤ 0x301F then some (d.ownerVal (Ob.slotOwner (idx - 0x3000)))
  else if 0x3240 ≤ idx ∧ idx ≤ 0x325F then some (d.ownerVal (Ob.slotOwner (idx - 0x3240)))
  else if 0x3420 ≤ idx ∧ idx ≤ 0x343F then some (d.ownerVal (Ob.modelOwner (idx - 0x3420)))
  else if 0x3610 ≤ idx ∧ idx ≤ 0x3617 then some (d.ownerVal (Ob.safetyChannelOwner (idx - 0x3610)))
  else if 0x3840 ≤ idx ∧ idx ≤ 0x387F then some (d.ownerVal (Ob.structureOwner (idx - 0x3840)))
  else if 0x4400 ≤ idx ∧ idx ≤ 0x44BF then some (d.ownerVal (Ob.stripOwnerLow (idx - 0x4400)))
  else if 0x44C0 ≤ idx ∧ idx ≤ 0x457F then some (d.ownerVal (Ob.stripOwnerHigh (idx - 0x44C0)))
  else if 0x4600 ≤ idx ∧ idx ≤ 0x465F then some (d.ownerVal (Ob.busOwner (idx - 0x4600)))
  else if 0x4700 ≤ idx ∧ idx ≤ 0x473F then some (d.ownerVal (Ob.outputOwner (idx - 0x4700)))
  else if 0x4740 ≤ idx ∧ idx ≤ 0x4743 then some (d.ownerVal (Ob.beamformerOwner (idx - 0x4740)))
  else if 0x4800 ≤ idx ∧ idx ≤ 0x4803 then some (d.ownerVal (Ob.analogOwner (idx - 0x4800)))
  else if 0x4810 ≤ idx ∧ idx ≤ 0x4817 then some (d.ownerVal (Ob.analogOwner (idx - 0x4810 + 4)))
  else if 0x4900 ≤ idx ∧ idx ≤ 0x4901 then some (d.ownerVal (Ob.beaconOwner (idx - 0x4900)))
  else if 0x1401 ≤ idx ∧ idx ≤ 0x1408 then some (some (idx - 0x1401))
  else if idx = 0x5002 then some (d.queueOwner q)
  else if idx = 0x5A21 then some ((d.conn q).map fun c => c.part)
  else if 0x5A40 ≤ idx ∧ idx ≤ 0x5A7F then some (d.ownerVal (Ob.winOwner (idx - 0x5A40)))
  else if 0x2240 ≤ idx ∧ idx ≤ 0x227F then some (d.ownerVal (Ob.sceneOwner (idx - 0x2240)))
  else none

/-- The island whose quiesce makes an object answer ABSENT (Table 2, step 18; log 12). -/
def islandOf (idx : Nat) : Option Nat :=
  if 0x2000 ≤ idx ∧ idx ≤ 0x21FF then some Isl.tmg
  else if 0x3200 ≤ idx ∧ idx ≤ 0x32FF then some Isl.fus
  else if 0x3640 ≤ idx ∧ idx ≤ 0x367F then some Isl.fbk
  else if 0x3600 ≤ idx ∧ idx ≤ 0x363F then some Isl.cup
  else if 0x3800 ≤ idx ∧ idx ≤ 0x38FF then some Isl.sol
  else if 0x4000 ≤ idx ∧ idx ≤ 0x40FF then some Isl.apt
  else if 0x4400 ≤ idx ∧ idx ≤ 0x47FF then some Isl.mix
  else if 0x4800 ≤ idx ∧ idx ≤ 0x49FF then some Isl.ana
  else if 0x5000 ≤ idx ∧ idx ≤ 0x50FF then some Isl.qmg
  else if idx = 0x5801 then some Isl.etb
  else if 0x5800 ≤ idx ∧ idx ≤ 0x5AFF then some Isl.eta
  else none

/-- The unit an object belongs to is absent, and the object is neither identity nor status (R2): the counters of an engine
that is not in use, the temperatures of a compute die that is not (01_console_model R11), the island control and counters
of its TEN or DCK (19_power_dies R395), or a strip of a dropped mix lane (13_mix_engine R275). -/
def Dev.unitAbsent (d : Dev) (idx sub : Nat) : Bool :=
  (decide (0x3408 ≤ idx ∧ idx ≤ 0x340F) && (sub == 3 || sub == 5) && !bit (d.nat Ob.enginesInUse) (idx - 0x3408))
    || (decide (0x1431 ≤ idx ∧ idx ≤ 0x1434) && !bit (d.nat Ob.computeDiesInUse) (idx - 0x1431))
    || (decide (0x7F12 ≤ idx ∧ idx ≤ 0x7F19) && ([1, 4, 6, 7] : List Nat).contains sub && decide (d.isl (idx - 0x7F00) = 6))
    || (decide (0x4400 ≤ idx ∧ idx ≤ 0x457F) && !bit (d.nat Ob.lanesInUse) ((idx - 0x4400) / 96))

/-- A value's bytes read as the type gives them (Table 1). -/
def decodeTy : Ty → Bytes → Int
  | .i8, b => signed 8 (leNat b)
  | .i16, b => signed 16 (leNat b)
  | .i32, b => signed 32 (leNat b)
  | .i64, b => signed 64 (leNat b)
  | .q32, b => signed 32 (leNat b)
  | _, b => leNat b

/-- Bytes of a value of the type (Table 1); STRING and DOMAIN have no fixed length. -/
def tySize : Ty → Nat
  | .bool => 1
  | .u8 => 1
  | .i8 => 1
  | .u16 => 2
  | .i16 => 2
  | .u32 => 4
  | .i32 => 4
  | .q32 => 4
  | .u64 => 8
  | .i64 => 8
  | .stamp48 => 6
  | .string => 0
  | .domain => 0

/-- The bytes of a numeric value (Table 1). -/
def encodeTy (t : Ty) (v : Int) : Bytes := leBytes (tySize t) (unsigned (8 * tySize t) v)

/-- The value within the row's range, its alternatives included. -/
def ObjRow.inRange (r : ObjRow) (v : Int) : Bool :=
  (decide (r.lo ≤ v) && decide (v ≤ r.hi)) || r.alts.contains v

/-- Reserved bits read 0 and ignore writes (R4). -/
def ObjRow.masked (r : ObjRow) (v : Int) : Int := if r.keep = 0 then v else (v.toNat &&& r.keep : Nat)

/-- Range conditions that a table states beside an interval: powers of two, multiples and listed values. -/
def extraRange (k : Nat) (v : Int) : Bool :=
  let pow2 : Bool := decide (0 < v) && (v.toNat &&& (v.toNat - 1)) == 0
  let idx := k / 256 % 65536
  let sub := k % 256
  if idx = 0x5002 ∧ (sub = 5 ∨ sub = 12 ∨ sub = 13) then pow2
  else if k = Ob.tickPeriod then ([250000, 500000, 1000000, 2000000, 5000000, 10000000] : List Int).contains v
  else if idx = 0x7010 ∧ sub = 1 then v % 65536 == 0
  else if k = Ob.fbkCycle then v % 1000 == 0
  else if k = Ob.readbackWindow then v % 250 == 0
  else if 0x1100 ≤ idx ∧ idx ≤ 0x1107 ∧ sub = 16 then v % 2097152 == 0
  else if 0x1100 ≤ idx ∧ idx ≤ 0x1107 ∧ ([0x15, 0x16, 0x18, 0x19, 0x1B, 0x1C, 0x1E, 0x1F] : List Nat).contains sub then
    v % 4096 == 0
  else if 0x1100 ≤ idx ∧ idx ≤ 0x1107 ∧ ([0x14, 0x17, 0x1A, 0x1D] : List Nat).contains sub then decide (v % 4 ≤ 2)
  else if (idx = 0x2116 ∨ idx = 0x2117) ∧ sub = 7 then ([44100, 48000, 88200, 96000] : List Int).contains v
  else if 0x3220 ≤ idx ∧ idx ≤ 0x3223 ∧ (sub = 3 ∨ sub = 4) then v % 64 == 0
  else if 0x3420 ≤ idx ∧ idx ≤ 0x343F ∧ 0x11 ≤ sub ∧ sub ≤ 0x14 then decide (v / 4096 ≤ 3)
  else if 0x4010 ≤ idx ∧ idx ≤ 0x4017 ∧ sub = 0x22 then ([16, 24, 32] : List Int).contains v
  else if 0x4010 ≤ idx ∧ idx ≤ 0x4017 ∧ sub = 0x23 then ([16, 32] : List Int).contains v
  else if 0x4020 ≤ idx ∧ idx ≤ 0x402F ∧ sub = 0x22 then ([125, 250, 1000] : List Int).contains v
  else true

/-- The partition that holds a block write on an object, if another session's (R103). -/
def Dev.lockedBy (d : Dev) (sid : Nat) (k : Nat) : Option Nat :=
  (d.dict.blocks.find? fun b => b.sid != sid && b.op == Op.writeBlock && b.key == k).map fun b => b.part

/-- Partition 0's key is unprovisioned, and the object is not that key (R92). -/
def Dev.unprovisioned (d : Dev) (k : Nat) : Bool := !d.flag (Ob.partKeyState 0) && k != Ob.partKey 0

/-- A SafeValue object, written whatever the channel's owner (14_analog_beacon R281). -/
def safeValueObj (idx sub : Nat) : Bool :=
  (decide (0x4800 ≤ idx ∧ idx ≤ 0x4803) && sub == 6) || (decide (0x4810 ≤ idx ∧ idx ≤ 0x4817) && sub == 4)

/-- An object belongs to a feature outside the capability intersection (R15; 19_power_dies Table 5): the states of the ring
links, where bit [4] is clear (log 136). -/
def Dev.unsupported (d : Dev) (idx : Nat) : Bool :=
  decide (0x7F34 ≤ idx ∧ idx ≤ 0x7F37) && !bit (d.nat Ob.capabilityMask) 4

/-- Steps 6 to 11 of Table 2: MAINTENANCE, the object, its feature, its unit, the role's access and the owner. `fence` is the fence
whose rights the request needs, if it needs any (R49). -/
def Dev.objFault (d : Dev) (se : Session) (idx sub : Nat) (write : Bool) (fence : Option Nat) : Option Refuse :=
  if d.nat Ob.bootPhase = 9 && !servedInMaintenance idx write then some { status := Sc.maintenance }
  else match objRow idx sub with
    | none => some { status := Sc.noObject }
    | some r =>
      if d.unsupported idx then some { status := Sc.unsupported }
      else if write && d.unitAbsent idx sub then some { status := Sc.unitAbsent }
      else if !r.acc.grants (d.roles se.part) (if write then Acc.writes else Acc.reads) then
        some { status := Sc.accessDenied }
      else match fence with
        | some f =>
          if d.isInt se.part || (decide (d.nat (Ob.partFenceFirst se.part) ≤ f)
              && decide (f < d.nat (Ob.partFenceFirst se.part) + d.nat (Ob.partFenceCount se.part))) then none
          else some { status := Sc.accessDenied, detail := f }
        | none =>
          if !write || d.isInt se.part || safeValueObj idx sub then none
          else match d.ownerOf idx (if idx = 0x5A21 then d.nat (inst Ob.connSelect se.id) else d.selQueue se.id) with
            | none => none
            | some none => some { status := Sc.notOwner, detail := 0xFF }
            | some (some p) => if p = se.part then none else some { status := Sc.notOwner, detail := p }

/-- Steps 14 to 16 and 18 of Table 2: POUR_ONLY, a block write of another session, the update's claim (05_start_up
R131), the expected version, the quiesced island. -/
def Dev.lateFault (d : Dev) (se : Session) (r : ObjRow) (k : Nat) (cond : Option Nat) : Option Refuse :=
  if r.pourOnly then some { status := Sc.pourOnly }
  else match d.lockedBy se.id k with
    | some p => some { status := Sc.objectLocked, detail := p }
    | none =>
      if k / 256 = 0x7010 ∧ d.nat Ob.updateOwner ≠ 0xFF ∧ d.nat Ob.updateOwner ≠ se.part then
        some { status := Sc.objectLocked, detail := d.nat Ob.updateOwner }
      else match cond with
        | some v => if v = d.ver k then none else some { status := Sc.versionMismatch }
        | none => none

/-- Step 18: the owning island is quiesced. -/
def Dev.islandFault (d : Dev) (idx : Nat) : Option Refuse :=
  match islandOf idx with
  | some i => if d.quiesced i then some { status := Sc.absent, detail := i } else none
  | none => none

/-- The commits within the second before now (R87). -/
def Dev.commitWindow (d : Dev) : List Nat := d.dict.window.filter fun t => decide (d.ago t < 1000000000)

/-- The rate of commits is spent (R87): 64 in the window. The detail is the time until the oldest is 1 s old. -/
def Dev.commitFault (d : Dev) : Option Refuse :=
  if 64 ≤ d.commitWindow.length then
    let oldest := d.commitWindow.getLast?.getD d.ext
    some { status := Sc.busy, detail := Nat.max 1 (d.msTo (oldest + 1000000000)) }
  else none

/-- A commit enters the window. -/
def Dev.countCommit (d : Dev) : Dev := { d with dict := { d.dict with window := d.ext :: d.commitWindow } }

/-- Object conditions of one write: range conditions that depend on state (step 13) and state conditions (step 17). -/
structure Conds where
  range : Dev → Session → Int → Option Refuse := fun _ _ _ => none
  state : Dev → Session → Int → Option Refuse := fun _ _ _ => none
  fence : Dev → Session → Option Nat := fun _ _ => none

/-- The first refusal among several checks. -/
def firstFault : List (Option Refuse) → Option Refuse
  | [] => none
  | some r :: _ => some r
  | none :: l => firstFault l

/-- Steps 12 and 13: length and range of a numeric value. -/
def valueFault (r : ObjRow) (k : Nat) (v : Bytes) : Option Refuse :=
  if r.ty = .string ∨ r.ty = .domain ∨ v.length ≠ tySize r.ty then some { status := Sc.typeMismatch }
  else if r.ty = .bool ∧ 1 < leNat v then some { status := Sc.outOfRange }
  else if !(r.inRange (r.masked (decodeTy r.ty v)) && extraRange k (r.masked (decodeTy r.ty v))) then
    some { status := Sc.outOfRange }
  else none

/-- What came of the checks of a write. -/
inductive Gate where
  | stop (d : Dev)
  | pass (d : Dev) (se : Session) (v : Int)

/-- The checks of a WRITE to the object at `idx`.`sub` in the order of Table 2, with the object's own conditions `c`.
The value passed on has its reserved bits cleared (R4). -/
def Dev.writeGate (d : Dev) (c : Conds) (hd : Hdr) (cond : Option Nat) (idx sub : Nat) (v : Bytes) : Gate :=
  let payload := writePayload idx sub cond v
  match d.admission hd Op.write payload false with
  | .stop d => .stop d
  | .go d se =>
    let k := idx * 256 + sub
    let refuse (r : Refuse) : Gate :=
      .stop (d.complete se.id hd.tag Op.write payload hd.seq { status := r.status, ver := d.ver k, detail := r.detail })
    match d.objFault se idx sub true (c.fence d se) with
    | some r => refuse r
    | none =>
      match objRow idx sub with
      | none => refuse { status := Sc.noObject }
      | some r =>
        let n := r.masked (decodeTy r.ty v)
        match firstFault [valueFault r k v, c.range d se n, d.lateFault se r k cond,
            (if d.unprovisioned k then some { status := Sc.stateRefused } else none), c.state d se n,
            d.islandFault idx, (if r.rwp then d.commitFault else none)] with
        | some f => refuse f
        | none => .pass d se n

/-- What follows a write's effect: the version increments, and the answer is OK, at once or, for a persisted object,
after its commit (R86, R87). -/
def Dev.finishWrite (d : Dev) (hd : Hdr) (cond : Option Nat) (idx sub : Nat) (v : Bytes) (se : Session) : Dev :=
  let k := idx * 256 + sub
  let payload := writePayload idx sub cond v
  let d := d.bumpVer k
  if (match objRow idx sub with | some r => r.rwp | none => false) then
    let d := d.countCommit
    let d := d.onSession se.id fun s =>
      { s with outst := { tag := hd.tag, op := Op.write, payload, seq := hd.seq, at_ := d.ext } :: s.outst }
    { d with dict := { d.dict with commits := d.dict.commits ++
      [{ vals := [(d.resolve se.id k, d.reg (d.resolve se.id k))], sid := se.id, tag := hd.tag, op := Op.write, payload, seq := hd.seq,
         ver := d.ver k }] } }
  else d.complete se.id hd.tag Op.write payload hd.seq { status := Sc.ok, ver := d.ver k }

/-- A WRITE: its checks, then `eff` with the session and the value, then the version and the answer. -/
def Dev.writeReq (d : Dev) (c : Conds) (hd : Hdr) (cond : Option Nat) (idx sub : Nat) (v : Bytes)
    (eff : Session → Int → Dev → Dev) : Dev :=
  match d.writeGate c hd cond idx sub v with
  | .stop d => d
  | .pass d se n => (eff se n d).finishWrite hd cond idx sub v se

/-- A WRITE that stores its value in the register its address stands for, and then does `eff`. -/
def Dev.writeStore (d : Dev) (c : Conds) (hd : Hdr) (cond : Option Nat) (idx sub : Nat) (v : Bytes)
    (eff : Session → Int → Dev → Dev) : Dev :=
  d.writeReq c hd cond idx sub v fun se n d => eff se n (d.set (d.resolve se.id (idx * 256 + sub)) n)

end Sys2Proof.Machine
end

