-- ==== Sys2Proof/Machine/References.lean ====
section
/-! DEFINITION. The root's correction, the references' states and the selector (03_timing_unit R59, R65-R71): what other
parts of the device set off when a reference gains or loses what it needs. -/
namespace Sys2Proof.Machine

/-- `v` moved toward `to_` by at most `step`. -/
def toward (v to_ step : Int) : Int := if v < to_ then min to_ (v + step) else max to_ (v - step)

/-- The largest change of the correction over `ns` of the timeline (R59). -/
def Dev.slopeOver (d : Dev) (ns : Nat) : Int := (d.nat Ob.freqSlopeLimit * ns / 1000000000 : Nat)

/-- The correction in force now, ppb: it moves toward its target at FreqSlopeLimit (R59). -/
def Dev.corrNow (d : Dev) : Int :=
  toward (d.reg Ob.rootFreqOffset) d.tu.corrTo (d.slopeOver (d.ago d.tu.corrAt))

/-- The correction heads for a new target from where it stands (R59, R73). -/
def Dev.steer (d : Dev) (to_ : Int) : Dev :=
  let v := d.corrNow
  (d.set Ob.rootFreqOffset v).onTu fun t => { t with corrAt := d.ext, corrTo := clampInt (-100000) 100000 to_ }

/-- FreqSlopeLimit has changed: the correction goes on from where it stood, `v` (R59). -/
def Dev.rebase (d : Dev) (v : Int) : Dev :=
  (d.set Ob.rootFreqOffset v).onTu fun t => { t with corrAt := d.ext }

/-- The time in LOCKED at the correction in force joins the record (R70). -/
def Dev.closeLocked (d : Dev) : Dev :=
  match d.tu.locked with
  | none => d
  | some t => d.onTu fun u =>
      { u with segs := (d.reg Ob.rootFreqOffset, d.ago t) :: u.segs, locked := none }

/-- The sum of correction × time, and of time, over the most recent `span` ns of the record. -/
def corrSums : List (Int × Nat) → Nat → Int × Nat
  | [], _ => (0, 0)
  | (c, t) :: l, span =>
    let u := Nat.min t span
    let r := corrSums l (span - u)
    (c * u + r.1, u + r.2)

/-- The holdover correction (R70): the mean over the most recent 16 s in LOCKED, or over all of it if less; the
correction in force if LOCKED was never reached. -/
def Dev.holdoverValue (d : Dev) : Int :=
  let r := corrSums d.closeLocked.tu.segs 16000000000
  if r.2 = 0 then d.corrNow else r.1 / r.2

/-- The codes the priority table lists before XTAL, highest first, and whether XTAL ends it (R66). -/
def Dev.listed (d : Dev) : List Nat × Bool :=
  let es := (List.range 6).map fun n => d.nat (Ob.priorityEntry n)
  ((es.takeWhile fun c => c != 0).filter fun c => c != 0xFF, es.contains 0)

/-- Reference `c` is VALID. -/
def Dev.refValid (d : Dev) (c : Nat) : Bool := c == 0 || d.reg (Ob.refState c) == 3

/-- The highest-priority listed reference that is VALID. -/
def Dev.bestRef (d : Dev) : Option Nat := d.listed.1.find? d.refValid

/-- The selector enters a state with a selected code: 0x1021, and LastSwitchStamp at a change of reference (R71). -/
def Dev.toSelector (d : Dev) (st : Int) (code : Nat) : Dev :=
  let moved := decide (d.nat Ob.selectedRef ≠ code)
  let d := d.closeLocked
  let d := (d.set Ob.selectorState st).setN Ob.selectedRef code
  let d := d.onTu fun t => { t with
    locked := if st = 2 then some d.ext else none, compAt := none,
    withinSince := if st = 1 then some d.ext else none, withinCount := 0 }
  let d := d.when moved fun d => d.setN Ob.lastSwitchStamp d.now
  d.event { code := 0x1021, island := Isl.tmg, d1 := st, d2 := code }

/-- HOLDOVER (R70): 0x1023 with its value. -/
def Dev.toHoldover (d : Dev) : Dev :=
  let h := d.holdoverValue
  let d := ((d.set Ob.holdoverValue h).steer h).toSelector 3 (d.nat Ob.selectedRef)
  d.event { code := 0x1023, island := Isl.tmg, d1 := h }

/-- FREERUN: the correction ramps to 0. -/
def Dev.toFreerun (d : Dev) : Dev := (d.steer 0).toSelector 0 0

/-- ACQUIRE on a reference: frequency alone moves, from the correction in force (R68). -/
def Dev.acquire (d : Dev) (code : Nat) : Dev := (d.steer d.corrNow).toSelector 1 code

/-- A reference beside its objects. -/
def Dev.refRt (d : Dev) (c : Nat) : RefRt := (kvGet d.tu.refs c).getD {}

/-- `f` applied to a reference. -/
def Dev.onRef (d : Dev) (c : Nat) (f : RefRt → RefRt) : Dev :=
  d.onTu fun t => { t with refs := kvPut t.refs c (f ((kvGet t.refs c).getD {})) }

/-- WaitToRestore has passed since reference `c` became VALID (R67). -/
def Dev.restored (d : Dev) (c : Nat) : Bool :=
  decide (d.nat Ob.waitToRestore * 1000000000 ≤ d.ago (d.refRt c).validSince)

/-- The references listed above the selected one. -/
def Dev.above (d : Dev) : List Nat := d.listed.1.takeWhile fun c => c != d.nat Ob.selectedRef

/-- The highest reference above the selected one that has stayed VALID for WaitToRestore, in revertive mode (R67). -/
def Dev.higher (d : Dev) : Option Nat :=
  if d.reg Ob.selectorMode = 0 then d.above.find? fun c => d.refValid c && d.restored c else none

/-- Selection is evaluated again (R66, R67, Table 5). -/
def Dev.reselect (d : Dev) : Dev :=
  let st := d.reg Ob.selectorState
  let sel := d.nat Ob.selectedRef
  let (codes, xtal) := d.listed
  if st = 0 ∨ st = 3 then
    match d.bestRef with
    | some c => d.acquire c
    | none => if st = 3 && xtal then d.toFreerun else d
  else if st = 1 ∨ st = 2 then
    if codes.contains sel && d.refValid sel then
      match d.higher with
      | some c => d.acquire c
      | none => d
    else match d.bestRef with
      | some c => d.acquire c
      | none => if xtal then d.toFreerun else d.toHoldover
  else d

/-- A reference enters a state (Table 3): 0x1020. -/
def Dev.toRef (d : Dev) (code : Nat) (st : Int) : Dev :=
  let d := d.set (Ob.refState code) st
  let d := d.when (decide (2 ≤ st)) fun d => d.onRef code fun r =>
    { r with outSince := none, goodSince := if st = 2 then d.ext else r.goodSince, validSince := d.ext }
  d.event { code := 0x1020, island := Isl.tmg, d1 := code, d2 := st }

/-- Servo states (02_timeline Table 3). -/
abbrev Sv.free : Int := 0
abbrev Sv.listen : Int := 1
abbrev Sv.slew : Int := 2
abbrev Sv.track : Int := 3
abbrev Sv.hold : Int := 4
abbrev Sv.refused : Int := 5

/-- The servo's state. -/
def Dev.sv (d : Dev) : Int := d.reg Ob.servoState

/-- The activity Table 2 of 03_timing_unit asks of a reference, as far as the device's own state decides it: an accepted
edge for PPS_IN, the client on its port in TRACK for PTP, biphase receiver 0 locked for BIP0. -/
def Dev.refActive (d : Dev) (code : Nat) : Bool :=
  if code = 1 then (match d.tu.pps with
    | some t => decide (d.ago t ≤ 1500000000)
    | none => false)
  else if code = 2 then d.reg Ob.activePort == 1 && d.sv == Sv.track
  else if code = 3 then d.reg Ob.activePort == 2 && d.sv == Sv.track
  else if code = 5 then d.reg (Ob.portState 8) == 2
  else true

/-- PTP-A and PTP-B fail as references as soon as the client is no longer on their port in TRACK (R65, Table 2). -/
def Dev.ptpRefs (d : Dev) : Dev :=
  let lost := ([2, 3] : List Nat).filter fun c => decide (2 ≤ d.reg (Ob.refState c)) && !d.refActive c
  if lost = [] then d else (d.each lost fun d c => d.toRef c 1).reselect

end Sys2Proof.Machine
end

