-- ==== Sys2Proof/Machine/Timeline.lean ====
section
/-! DEFINITION. The timeline counter, slewing, the PTP servo and the grandmaster (02_timeline R29-R47). -/
namespace Sys2Proof.Machine

/-- The nominal increment (R30). -/
abbrev nominalInc : Nat := 0x411AAAAAB

/-- The largest departure from the nominal increment under the bound in force (R37). -/
def Dev.slewEdge (d : Dev) : Nat := nominalInc * d.nat Ob.slewBound / 1000000

/-- An increment held within the bound (R37). -/
def Dev.clampInc (d : Dev) (inc : Nat) : Nat :=
  Nat.max (nominalInc - d.slewEdge) (Nat.min inc (nominalInc + d.slewEdge))

/-- `f` applied to the timeline. -/
def Dev.onTl (d : Dev) (f : Timeline → Timeline) : Dev := { d with tl := f d.tl }

/-- `f` applied to the servo's state. -/
def Dev.onServo (d : Dev) (f : Servo → Servo) : Dev := { d with servo := f d.servo }

/-- The integer part passes to 0: the era increments and 0x1006 is logged (R35). -/
def Dev.wrapEra (d : Dev) : Dev :=
  let e := (d.tl.era + 1) % 65536
  (d.onTl fun t => { t with era := e }).event { code := 0x1006, island := Isl.tmg, d1 := e }

/-- The amount of a manual slew has been absorbed: the increment returns to its value before the slew (R38). DESIGN CHOICE
(log 142): a manual slew still running when the servo leaves FREE or LISTEN goes on, so its end, or a change of bound,
then sets the increment in place of the servo's or the last rate. -/
def Dev.endSlew (d : Dev) : Dev := d.onTl fun t => { t with inc := d.clampInc t.base, slewRem := 0 }

/-- What is left of a manual slew after one tick at increment `inc`: zero once it changes sign, and where none is under way. -/
def slewAfter (rem : Int) (inc : Nat) : Int :=
  let r := rem - ((inc : Int) - nominalInc)
  if rem = 0 ∨ (0 < rem ∧ r ≤ 0) ∨ (rem < 0 ∧ 0 ≤ r) then 0 else r

/-- What the counter, its fraction included, comes to at the next tick (R29), in 2^-32 ns. -/
def Dev.nextCount (d : Dev) : Nat := d.tl.now * 4294967296 + d.tl.frac + d.tl.inc

/-- The interval in TRACK that ends now joins the rate record (R42). -/
def Dev.closeTrack (d : Dev) : Dev :=
  match d.servo.trackSince with
  | none => d
  | some t => d.onServo fun v => { v with segs := (d.tl.inc, d.ago t) :: v.segs, trackSince := none }

/-- In TRACK, the rate record goes on from now under another increment (R42). -/
def Dev.markTrack (d : Dev) : Dev :=
  if d.servo.trackSince.isSome then d.closeTrack.onServo fun v => { v with trackSince := some d.ext } else d

/-- One TMG tick: the counter adds the current increment (R29), the era follows a wrap (R35) and a manual slew is
absorbed (R38). -/
def Dev.tick (d : Dev) : Dev :=
  if !d.tl.running then d
  else
    let total := d.nextCount
    let whole := total / 4294967296
    let left := slewAfter d.tl.slewRem d.tl.inc
    let ended := decide (d.tl.slewRem ≠ 0) && decide (left = 0)
    let d := d.onTl fun t =>
      { t with now := whole % span48, frac := total % 4294967296, slewRem := left, ticks := t.ticks + 1 }
    let d := d.when (decide (span48 ≤ whole)) Dev.wrapEra
    d.when ended fun d => d.markTrack.endSlew

/-- STAMP_REPLICA_RELOAD (R31): every 65,536 ticks TMG reloads every replica; one that differs is corrected, with 0x1007 for
its island. `wrong` are the differences that upsets give to replicas from this reload to the next (log 145). -/
def execStampReplicaReload (wrong : List (Nat × Int)) (s : State) : Host.Outcome State Fault Refusal :=
  onDev (fun d =>
    if !d.tl.running || decide (d.tl.ticks < 65536) then d
    else
      let d := d.each (d.tl.skew.filter fun e => decide (e.2 ≠ 0)) fun d e =>
        d.event { code := 0x1007, island := Isl.tmg, d1 := e.1 }
      d.onTl fun t => { t with ticks := 0, skew := wrong.foldl (fun l e => kvPut l e.1 e.2) [] }) s

/-- ERA_WRAP (R35): the tick at which the integer part passes from 2^48 - 1 to 0. -/
def execEraWrap (s : State) : Host.Outcome State Fault Refusal :=
  onDev (fun d => if d.tl.running && decide (span48 ≤ d.nextCount / 4294967296) then d.tick else d) s

/-- The increment after a change of bound (R37, R38): at the full new bound while an amount remains, else clamped. -/
def Dev.rebound (d : Dev) : Dev :=
  d.markTrack.onTl fun t =>
    let inc := if 0 < t.slewRem then nominalInc + d.slewEdge
      else if t.slewRem < 0 then nominalInc - d.slewEdge
      else d.clampInc t.inc
    { t with inc := inc }

/-- SLEW_BOUND_WRITE (R37). -/
def execSlewBoundWrite (hd : Hdr) (cond : Option Nat) (v : Bytes) (s : State) : Host.Outcome State Fault Refusal :=
  onDev (fun d => d.writeStore {} hd cond 0x2001 1 v fun _ _ d => d.rebound) s

/-- A state condition: the write is refused with STATE_REFUSED unless `b`. -/
def needState (b : Bool) : Option Refuse := if b then none else some { status := Sc.stateRefused }

/-- A range condition: the write is refused with OUT_OF_RANGE unless `b`. -/
def needRange (b : Bool) : Option Refuse := if b then none else some { status := Sc.outOfRange }

/-- A manual slew by `n` ns begins, or replaces what remains of one (R38). -/
def Dev.beginSlew (d : Dev) (n : Int) : Dev :=
  let base := if d.tl.slewRem = 0 then d.tl.inc else d.tl.base
  if n = 0 then (d.onTl fun t => { t with base := base }).endSlew
  else (d.onTl fun t => { t with base := base, slewRem := n * 4294967296 }).rebound

/-- MANUAL_SLEW (R38): in FREE and LISTEN alone. -/
def execManualSlew (hd : Hdr) (cond : Option Nat) (v : Bytes) (s : State) : Host.Outcome State Fault Refusal :=
  onDev (fun d => d.writeReq
    { state := fun d _ _ => needState (d.sv = Sv.free || d.sv = Sv.listen) }
    hd cond 0x2001 2 v fun _ n d => d.beginSlew n) s

/-- SLEW_ABSORBED (R38): the tick that absorbs the last of the amount. -/
def execSlewAbsorbed (s : State) : Host.Outcome State Fault Refusal :=
  onDev (fun d => if d.tl.running && decide (d.tl.slewRem ≠ 0) && decide (slewAfter d.tl.slewRem d.tl.inc = 0) then d.tick
    else d) s

/-- The sum of increment × time, and of time, over the most recent `span` ns of the record. -/
def rateSums : List (Nat × Nat) → Nat → Nat × Nat
  | [], _ => (0, 0)
  | (inc, t) :: l, span =>
    let u := Nat.min t span
    let r := rateSums l (span - u)
    (inc * u + r.1, u + r.2)

/-- The last rate (R42): the mean increment over the most recent 16 s in TRACK, or over all of it if less; the current
increment if TRACK was never reached. -/
def Dev.lastRate (d : Dev) : Nat :=
  let r := rateSums d.closeTrack.servo.segs 16000000000
  if r.2 = 0 then d.tl.inc else r.1 / r.2

/-- The increment takes the last rate, within the bound. -/
def Dev.holdRate (d : Dev) : Dev :=
  let r := d.lastRate
  d.closeTrack.onTl fun t => { t with inc := d.clampInc r }

/-- The servo enters a state, and the time source it announces follows (R47); PTP-A and PTP-B may fail as references
(03_timing_unit R65). Counts of consecutive Syncs restart. -/
def Dev.toServo (d : Dev) (st : Int) : Dev :=
  let d := if d.sv = Sv.track && st ≠ Sv.track then d.closeTrack else d
  let d := d.onServo fun v => { v with
    inWin := 0, outWin := 0, next := .plain,
    trackSince := if st = Sv.track then some d.ext else v.trackSince,
    suspended := if st = Sv.track then false else v.suspended }
  ((d.set Ob.servoState st).set Ob.gmTimeSource
    (if st = Sv.slew || st = Sv.track || st = Sv.hold then 0x40 else 0xA0)).ptpRefs

/-- A port's PTP bookkeeping, 0 A and 1 B. -/
def Dev.ptpPort (d : Dev) (port : Nat) : PtpPort := if port = 0 then d.servo.portA else d.servo.portB

/-- `f` applied to a port's bookkeeping. -/
def Dev.onPtpPort (d : Dev) (port : Nat) (f : PtpPort → PtpPort) : Dev :=
  d.onServo fun v => if port = 0 then { v with portA := f v.portA } else { v with portB := f v.portB }

/-- The better of two foreign masters by the default data set comparison of IEEE 1588-2019: priority 1, class, accuracy,
variance, priority 2, identity, then steps removed (log 13). -/
def Master.better (a b : Master) : Bool :=
  let key (m : Master) : List Nat := [m.prio1, m.clockClass, m.accuracy, m.variance, m.prio2, m.gm, m.steps, m.source]
  decide (key a < key b)

/-- The best master a port has heard (R40). -/
def PtpPort.best (p : PtpPort) : Option Master :=
  p.masters.foldl (fun b m => match b with
    | none => some m
    | some x => if m.better x then some m else some x) none

/-- The active port's policy is Guard (R42, R43). -/
def Dev.guarded (d : Dev) : Bool :=
  d.reg (if d.reg Ob.activePort = 2 then Ob.policyB else Ob.policyA) == 1

/-- |θ| exceeds JumpThreshold. -/
def Dev.jumps (d : Dev) (θ : Int) : Bool := decide (d.reg Ob.jumpThreshold < (θ.natAbs : Int))

/-- Guard refuses a jump (R43). -/
def Dev.refuseJump (d : Dev) (θ : Int) : Dev :=
  let d := (d.set Ob.refusedOffset θ).bump Ob.stepsRefused
  let d := d.event { code := 0x1003, island := Isl.tmg, d1 := clampInt (-2147483648) 2147483647 θ }
  d.holdRate.toServo Sv.refused

/-- A master becomes the current one; its identity and UTC offset are reported. Its Sync intervals count from here where it
is newly selected (R40). -/
def Dev.setMaster (d : Dev) (m : Master) : Dev :=
  let new := decide (d.servo.master ≠ some m.source)
  ((d.onServo fun v => { v with
    master := some m.source, syncAt := if new then d.ext else v.syncAt,
    lastSync := if new then none else v.lastSync }).set Ob.grandmasterIdentity m.gm).set Ob.currentUtcOffset m.utc

/-- A master change (R40, R45): 0x1001; under Follow the servo slews at once, under Guard the first θ from the new
master decides (log 14). -/
def Dev.masterChange (d : Dev) (m : Master) : Dev :=
  let d := (d.setMaster m).setN Ob.lastMasterChange d.now
  let d := d.event { code := 0x1001, island := Isl.tmg, d1 := m.gm % 4294967296 }
  if d.sv = Sv.refused then d.onServo fun v => { v with next := .change }
  else if d.sv = Sv.slew || d.sv = Sv.track || d.sv = Sv.hold then
    if d.guarded then d.onServo fun v => { v with next := .change } else d.toServo Sv.slew
  else d

/-- The lost master has come back (Table 4): under Follow the servo slews at once, under Guard its first θ decides. -/
def Dev.masterBack (d : Dev) (m : Master) : Dev :=
  let d := d.setMaster m
  if d.guarded then d.onServo fun v => { v with next := .back }
  else (d.event { code := 0x1008, island := Isl.tmg, d1 := d.reg Ob.activePort }).toServo Sv.slew

/-- The master is lost (R40, R42, R44): HOLD at the last rate, and a refused θ is discarded. -/
def Dev.masterLost (d : Dev) : Dev :=
  let d := d.onServo fun v => { v with master := none }
  if d.sv = Sv.slew || d.sv = Sv.track || d.sv = Sv.refused then
    let d := if d.sv = Sv.refused then d.set Ob.refusedOffset 0 else d
    (d.holdRate.toServo Sv.hold).event { code := 0x1002, island := Isl.tmg, d1 := d.reg Ob.activePort }
  else d

/-- The master a port's table selects takes its place: the first one, the same, the one that was lost, or a change. DESIGN
CHOICE (log 146): after the loss of its Syncs (R40) a master still heard returns with its next Announce. -/
def Dev.selectMaster (d : Dev) (m : Master) : Dev :=
  if (m.gm : Int) = d.reg Ob.grandmasterIdentity then
    if d.sv = Sv.hold && d.servo.master.isNone then d.masterBack m else d.setMaster m
  else if d.reg Ob.grandmasterIdentity = 0 then d.setMaster m
  else d.masterChange m

/-- The client runs on another port (R39); a best master there that differs is a master change, and a port with no
master loses it: DESIGN CHOICE (log 146), 0x1002 then names the port moved to. `port` is 1 A or 2 B. -/
def Dev.movePort (d : Dev) (port : Nat) : Dev :=
  let d := (d.setN Ob.activePort port).ptpRefs
  match (d.ptpPort (port - 1)).best with
  | some m => d.selectMaster m
  | none => d.masterLost

/-- Under Auto the client may leave port A for port B: B is not the grandmaster's (R39, R47). -/
def Dev.mayFailover (d : Dev) : Bool := d.reg Ob.ptpSource = 3 && d.reg Ob.activePort = 1 && d.reg Ob.gmPort ≠ 2

/-- A port is found down (R39): its Announces count anew toward the move back, and an Auto client leaves port A. -/
def Dev.ptpPortCheck (d : Dev) (port : Nat) : Dev :=
  if d.portUp port then d
  else
    let d := d.onPtpPort port fun p => { p with goodSince := none }
    d.when (port == 0 && d.mayFailover) fun d => d.movePort 2

/-- The port a source selection runs on first (R39, R47). -/
def Dev.sourcePort (d : Dev) (src : Int) : Nat :=
  if src = 1 then 1 else if src = 2 then 2
  else if src = 3 then (if d.reg Ob.gmPort = 1 || (!d.portUp 0 && d.reg Ob.gmPort ≠ 2) then 2 else 1)
  else 0

/-- PtpSource takes effect (R39, Table 4). -/
def Dev.setSource (d : Dev) (src : Int) : Dev :=
  if src = 0 then
    ((d.onServo fun v => { v with master := none }).toServo Sv.free).setN Ob.activePort 0
  else
    let port := d.sourcePort src
    if d.sv = Sv.free then (d.toServo Sv.listen).setN Ob.activePort port
    else if d.nat Ob.activePort = port then d
    else d.movePort port

/-- PTP_SOURCE_WRITE (R39, R45, R47): refused where it would fix the client to GmPort. -/
def execPtpSourceWrite (hd : Hdr) (cond : Option Nat) (v : Bytes) (s : State) : Host.Outcome State Fault Refusal :=
  onDev (fun d => d.writeStore
    { state := fun d _ n => needState (!(decide (n = 1 ∨ n = 2) && decide (n = d.reg Ob.gmPort))) }
    hd cond 0x2010 1 v fun _ n d => d.setSource n) s

/-- An increment toward θ within the bound (R42, log 7): while θ lies outside LockWindow, not slower than nominal for a master
ahead and not faster for one behind. -/
def Dev.toward (d : Dev) (θ : Int) (inc : Nat) : Nat :=
  let inc := d.clampInc inc
  if (θ.natAbs : Int) ≤ d.reg Ob.lockWindow then inc
  else if 0 < θ then Nat.max inc nominalInc else Nat.min inc nominalInc

/-- The servo steers toward a θ (R42): the filtered θ and the increment are the servo's own (free values, log 7). -/
def Dev.steerTheta (d : Dev) (θ : Int) : Dev :=
  let d := d.closeTrack
  ((d.set Ob.masterOffset (Config.servoTheta d.fresh)).onTl fun t =>
    { t with inc := d.toward θ (Config.servoInc d.fresh) }).drawn

/-- The servo follows a θ in SLEW or TRACK (R42), and Table 4's counts decide the state. -/
def Dev.followTheta (d : Dev) (θ : Int) : Dev :=
  let d := d.steerTheta θ
  let within := decide ((θ.natAbs : Int) ≤ d.reg Ob.lockWindow)
  if d.sv = Sv.slew then
    if within then
      if 3 ≤ d.servo.inWin then
        (d.toServo Sv.track).event { code := 0x1005, island := Isl.tmg, d1 := d.reg Ob.activePort }
      else d.onServo fun v => { v with inWin := v.inWin + 1 }
    else d.onServo fun v => { v with inWin := 0 }
  else
    let d := d.onServo fun v => { v with trackSince := some d.ext }
    if within then d.onServo fun v => { v with outWin := 0 }
    else if 1 ≤ d.servo.outWin then d.toServo Sv.slew
    else d.onServo fun v => { v with outWin := v.outWin + 1 }

/-- The published offset moves by `θ`, with a new generation (R41, R44, R46). -/
def Dev.acceptOffset (d : Dev) (θ : Int) : Dev :=
  let d := (d.set Ob.publishedOffset (d.reg Ob.publishedOffset + θ)).bump Ob.offsetGeneration
  d.event { code := 0x1004, island := Isl.tmg, d1 := d.reg Ob.offsetGeneration }

/-- A valid θ meets the servo (Table 4). -/
def Dev.theta (d : Dev) (θ : Int) : Dev :=
  if d.sv = Sv.listen then (d.acceptOffset θ).toServo Sv.slew
  else if d.sv = Sv.refused then
    (d.set Ob.refusedOffset θ).onServo fun v => { v with next := .plain }
  else match d.servo.next with
    | .change => if d.guarded && d.jumps θ then d.refuseJump θ else (d.toServo Sv.slew).steerTheta θ
    | .back =>
      if d.guarded && d.jumps θ then d.refuseJump θ
      else ((d.event { code := 0x1008, island := Isl.tmg, d1 := d.reg Ob.activePort }).toServo Sv.slew).steerTheta θ
    | .plain =>
      if d.sv = Sv.slew || d.sv = Sv.track then
        if d.guarded && d.jumps θ && !d.servo.suspended then d.refuseJump θ else d.followTheta θ
      else d

/-- Network time now: E + PublishedOffset (R46). -/
def Dev.netTime (d : Dev) : Int := d.ext + d.reg Ob.publishedOffset

/-- The client takes messages of `port` (0 A, 1 B) in this domain (R39). -/
def Dev.onClient (d : Dev) (port domain : Nat) : Bool :=
  decide (d.nat Ob.activePort = port + 1) && decide (d.nat Ob.ptpDomain = domain) && d.tl.running

/-- A delay request goes out (R39, Table 2): end-to-end for profile 0, peer-to-peer for the others. -/
def Dev.sendDelayReq (d : Dev) (port : Nat) : Dev :=
  let n := (d.ptpPort port).delayReqSeq
  let kind := if d.reg Ob.ptpProfile = 0 then FrameKind.ptpDelayReq else FrameKind.ptpPdelayReq
  (d.onPtpPort port fun p => { p with delayReqSeq := (n + 1) % 65536, delayReqAt := some d.netTime }).ethSend
    port kind [d.reg Ob.ptpDomain, n] []

/-- A PTP message outside the log intervals of Table 2 is ignored and counted (R39). -/
def Dev.ptpIgnored (d : Dev) : Dev := d.onServo fun v => { v with ignored := v.ignored + 1 }

/-- The frequency of the master against the timeline in ppb, from two Syncs' origin and arrival times (03_timing_unit R60). -/
def syncRatio (old : Option (Int × Int)) (t1 t2 : Int) (before : Int) : Int := match old with
  | some (a, b) => if b < t2 then roundDivInt (((t1 - a) - (t2 - b)) * 1000000000) (t2 - b) else before
  | none => before

/-- PTP_SYNC_RECEIVED (R42): a Sync of the current master in the client's domain, within the log intervals of Table 2,
gives θ = t1 + MeanPathDelay - (E + PublishedOffset). `t1` is its origin time with corrections, in ns. -/
def execPtpSyncReceived (port : Fin 2) (source domain : Nat) (logInterval t1 : Int) (s : State) :
    Host.Outcome State Fault Refusal :=
  onDev (fun d =>
    if !(d.onClient port domain && decide (d.servo.master = some source)) then d
    else if !decide (-7 ≤ logInterval ∧ logInterval ≤ 1) then d.ptpIgnored
    else
      let θ := t1 + d.reg Ob.meanPathDelay - d.netTime
      let d := d.onServo fun v => { v with
        lastSync := some (t1, d.netTime), syncAt := d.ext, syncLog := logInterval,
        ratio := syncRatio v.lastSync t1 d.netTime v.ratio }
      (d.theta θ).sendDelayReq port) s

/-- A foreign master joins its port's table of 8 entries, in place of its own older one (R39, R40). -/
def PtpPort.learn (p : PtpPort) (m : Master) : PtpPort :=
  { p with masters := (m :: p.masters.filter fun x => x.source != m.source).take 8 }

/-- PTP_ANNOUNCE_RECEIVED (R40): the BMCA runs on the port the client is on; on port A under Auto with the client on B it
only counts toward the move back (R39). Under gPTP an Announce whose path trace names this device is not valid (log 144). -/
def execPtpAnnounceReceived (port : Fin 2) (domain : Nat) (m : Master) (s : State) : Host.Outcome State Fault Refusal :=
  onDev (fun d =>
    if d.reg Ob.ptpSource = 0 || d.nat Ob.ptpDomain ≠ domain
        || (d.reg Ob.ptpProfile == 2 && m.path.contains Config.clockIdentity) then d
    else if !decide (-3 ≤ m.logAnnounce ∧ m.logAnnounce ≤ 4) then d.ptpIgnored
    else
      let d := d.onPtpPort port fun p =>
        { p.learn { m with stamp := d.ext } with goodSince := some (p.goodSince.getD d.ext) }
      if d.onClient port domain then
        match (d.ptpPort port).best with
        | some b => d.selectMaster b
        | none => d
      else d) s

/-- The interval of 2^log s in ns. -/
def logNs (log : Int) : Nat := if log < 0 then 1000000000 / 2 ^ log.natAbs else 1000000000 * 2 ^ log.natAbs

/-- No Announce of a master has come for AnnounceTimeout of its intervals (R40). -/
def Dev.silent (d : Dev) (m : Master) : Bool := decide (d.nat Ob.announceTimeout * logNs m.logAnnounce ≤ d.ago m.stamp)

/-- The master whose Announces a port waits for: the current one on the client's port, else the best it has heard. -/
def Dev.awaited (d : Dev) (port : Nat) : Option Master :=
  let p := d.ptpPort port
  if d.nat Ob.activePort = port + 1 && d.servo.master.isSome then
    p.masters.find? fun m => decide (d.servo.master = some m.source)
  else p.best

/-- ANNOUNCE_TIMEOUT (R39, R40): no Announce of a port's master for AnnounceTimeout intervals; with none heard, the command
itself says so. Masters that are silent leave the table. Under Auto the client moves from port A to port B; otherwise the
master is lost, and another of the table takes its place by the BMCA. -/
def execAnnounceTimeout (port : Fin 2) (s : State) : Host.Outcome State Fault Refusal :=
  onDev (fun d =>
    if d.reg Ob.ptpSource = 0 || (match d.awaited port with | some m => !d.silent m | none => false) then d
    else
      let d := d.onPtpPort port fun p => { p with
        goodSince := none, masters := p.masters.filter fun m => !d.silent m }
      if d.nat Ob.activePort ≠ (port : Nat) + 1 then d
      else if d.mayFailover then d.movePort 2
      else match (d.ptpPort port).best with
        | some b => d.masterLost.selectMaster b
        | none => d.masterLost) s

/-- SYNC_LOSS (R40): SyncLossCount Sync intervals without a valid Sync lose the master. -/
def execSyncLoss (s : State) : Host.Outcome State Fault Refusal :=
  onDev (fun d =>
    if d.servo.master.isNone || decide (d.ago d.servo.syncAt < d.nat Ob.syncLossCount * logNs d.servo.syncLog) then d
    else d.masterLost) s

/-- AUTO_REVERT (R39): the client moves back to port A once it has been up with valid Announces for AutoRevertTime. -/
def execAutoRevert (s : State) : Host.Outcome State Fault Refusal :=
  onDev (fun d =>
    let due := match d.servo.portA.goodSince with
      | some t => decide (d.nat Ob.autoRevertTime * 1000000000 ≤ d.ago t)
      | none => false
    if d.reg Ob.ptpSource = 3 && d.reg Ob.activePort = 2 && d.reg Ob.autoRevertTime ≠ 0 && d.reg Ob.gmPort ≠ 1
        && d.portUp 0 && due then d.movePort 1 else d) s

/-- GUARD_RESPONSE_ACCEPT (R44): in REFUSED alone. -/
def execGuardResponseAccept (hd : Hdr) (cond : Option Nat) (s : State) : Host.Outcome State Fault Refusal :=
  onDev (fun d => d.writeReq { state := fun d _ _ => needState (d.sv = Sv.refused) } hd cond 0x2012 1 [1] fun _ _ d =>
    (d.acceptOffset (d.reg Ob.refusedOffset)).toServo Sv.slew) s

/-- GUARD_RESPONSE_SLEW (R44): in REFUSED alone; the servo slews toward RefusedOffset, and JumpThreshold is suspended until
TRACK. -/
def execGuardResponseSlew (hd : Hdr) (cond : Option Nat) (s : State) : Host.Outcome State Fault Refusal :=
  onDev (fun d => d.writeReq { state := fun d _ _ => needState (d.sv = Sv.refused) } hd cond 0x2012 1 [2] fun _ _ d =>
    ((d.toServo Sv.slew).steerTheta (d.reg Ob.refusedOffset)).onServo fun v => { v with suspended := true }) s

/-- GM_PORT_WRITE (R47): refused where it equals the client's port. -/
def execGmPortWrite (hd : Hdr) (cond : Option Nat) (v : Bytes) (s : State) : Host.Outcome State Fault Refusal :=
  onDev (fun d => d.writeStore
    { state := fun d _ n => needState (!(decide (n ≠ 0) && decide (d.reg Ob.ptpSource ≠ 0)
        && decide (n = d.reg Ob.activePort))) }
    hd cond 0x2018 1 v fun _ _ d => d) s

/-- GM_SYNC_TRANSMIT (R47): a two-step Sync, then the Follow_Up that carries E + PublishedOffset. -/
def execGmSyncTransmit (s : State) : Host.Outcome State Fault Refusal :=
  onDev (fun d =>
    if d.reg Ob.gmPort = 0 || !d.portUp (d.nat Ob.gmPort - 1) || !d.ready then d
    else
      let p := d.nat Ob.gmPort - 1
      let n := d.servo.gmSyncSeq
      let d := (d.ethSend p .ptpSync [d.reg Ob.gmDomain, n] []).ethSend p .ptpFollowUp [d.reg Ob.gmDomain, n, d.netTime] []
      d.onServo fun v => { v with gmSyncSeq := (n + 1) % 65536 }) s

/-- GM_ANNOUNCE_TRANSMIT (R47): clockClass 248, the configured priorities and the time source of the servo's state; under gPTP
with the path trace TLV that names this device (R39). -/
def execGmAnnounceTransmit (s : State) : Host.Outcome State Fault Refusal :=
  onDev (fun d =>
    if d.reg Ob.gmPort = 0 || !d.portUp (d.nat Ob.gmPort - 1) || !d.ready then d
    else
      let n := d.servo.gmAnnounceSeq
      let d := d.ethSend (d.nat Ob.gmPort - 1) .ptpAnnounce
        ([d.reg Ob.gmDomain, n, 248, d.reg Ob.gmPriority1, d.reg Ob.gmPriority2, d.reg Ob.gmTimeSource]
          ++ (if d.reg Ob.gmProfile = 2 then [(Config.clockIdentity : Int)] else [])) []
      d.onServo fun v => { v with gmAnnounceSeq := (n + 1) % 65536 }) s

/-- PTP_DELAY_RESP_RECEIVED (R39, R42): the answer to the client's own delay request gives MeanPathDelay, half the sum of
the two one-way times. `t4` is when the master received the request, `turn` the peer's turnaround for peer-to-peer and the
answer's log interval, which Table 2 holds to -7 to 4. -/
def execPtpDelayRespReceived (port : Fin 2) (domain seq : Nat) (t4 : Int) (turn : Int × Int) (s : State) :
    Host.Outcome State Fault Refusal :=
  onDev (fun d =>
    let p := d.ptpPort port
    let put (mean : Int) : Dev :=
      (d.set Ob.meanPathDelay (clampInt 0 4294967295 mean)).onPtpPort port fun p => { p with delayReqAt := none }
    if !(d.onClient port domain && decide (p.delayReqSeq = (seq + 1) % 65536)) then d
    else if !decide (-7 ≤ turn.2 ∧ turn.2 ≤ 4) then d.ptpIgnored
    else match p.delayReqAt with
      | none => d
      | some t3 =>
        if d.reg Ob.ptpProfile ≠ 0 then put ((d.netTime - t3 - turn.1) / 2)
        else match d.servo.lastSync with
          | some (t1, t2) => put (((t2 - t1) + (t4 - t3)) / 2)
          | none => d) s

/-- PTP_DELAY_REQ_RECEIVED (R47): the grandmaster answers with the time it received the request. -/
def execPtpDelayReqReceived (port : Fin 2) (domain seq : Nat) (requester : Nat) (peer : Bool) (s : State) :
    Host.Outcome State Fault Refusal :=
  onDev (fun d =>
    if d.nat Ob.gmPort = (port : Nat) + 1 && d.nat Ob.gmDomain = domain && d.ready then
      d.ethSend port (if peer then .ptpPdelayResp else .ptpDelayResp) [domain, seq, requester, d.netTime] []
    else d) s

end Sys2Proof.Machine
end

