-- ==== Sys2Proof/Machine/Fences.lean ====
section
/-! DEFINITION. Fences and waits (02_timeline R48-R54), through the dictionary and through BAR0's fence pages
(15_hosts_queues Table 3). -/
namespace Sys2Proof.Machine

/-- What fence `f` holds. -/
def Dev.fence (d : Dev) (f : Nat) : Fence :=
  match kvGet d.fences f with
  | some x => x
  | none => {}

/-- Fence `f` holds `x`; a fence as at reset is not listed. -/
def Dev.setFence (d : Dev) (f : Nat) (x : Fence) : Dev :=
  { d with fences := if x = {} then kvDel d.fences f else kvPut d.fences f x }

/-- The next number of a per-source sequence (15_hosts_queues Table 4, bytes 24-27). -/
def Dev.seqOf (d : Dev) (kind num : Nat) : Nat := (kvGet d.seqs (kind * 65536 + num)).getD 0

/-- A per-source sequence advances. -/
def Dev.nextSeq (d : Dev) (kind num : Nat) : Dev :=
  { d with seqs := kvPut d.seqs (kind * 65536 + num) ((d.seqOf kind num + 1) % 4294967296) }

/-- The fence's value has reached the wait's target (R50). -/
def Fence.valueMet (x : Fence) (w : Wait) : Bool := decide (w.target ≤ x.value)

/-- The fence's deadline is enabled and the timeline is at or after it (R50). -/
def Fence.deadlineMet (x : Fence) (now : Nat) : Bool := x.enabled && atOrAfter now x.deadline

/-- The completion record (Table 6). -/
def waitRecord (x : Fence) (w : Wait) (now : Nat) (reset : Bool) : Bytes :=
  leBytes 8 x.value ++ leBytes 6 now
    ++ leBytes 2 (if reset then 4 else (x.valueMet w).toNat + 2 * (x.deadlineMet now).toNat)

/-- A completion record at a byte offset lies in window 0 of a partition that suits its attachment (R52): host memory for
PCIe, DRAM for a Virek peer. -/
def Dev.mirrorOk (d : Dev) (p dest : Nat) : Bool :=
  let kind := d.nat (Ob.partAttachKind p)
  dest % 16 == 0 && decide (kind ≠ 2) && decide (d.nat (Ob.partWindowKind p 0) % 4 = (if kind = 0 then 1 else 2))
    && decide (dest + 16 ≤ d.nat (Ob.partWindowLength p 0))

/-- A wait's completion is delivered (R52): an item of priority 5, an MSI-X vector, or a mirror write into window 0, while it
still holds the place. -/
def Dev.deliverWait (d : Dev) (w : Wait) (reset : Bool) : Dev :=
  let rec_ := waitRecord (d.fence w.fence) w d.now reset
  if w.delivery = 0 then
    let it : Item := { subject := d.now, srcKind := 9, srcNum := w.part, prio := 5, payKind := 0, len := 16, data := rec_,
                       hostTag := w.fence, producer := 1, seq := d.seqOf 9 w.part }
    (d.nextSeq 9 w.part).enqueue w.dest it
  else if w.delivery = 1 then d.when (d.flag (Ob.partEnable w.part)) fun d => d.send (.msix w.part w.dest)
  else
    let addr := d.nat (Ob.partWindowBase w.part 0) + w.dest
    if !d.mirrorOk w.part w.dest then d
    else if d.nat (Ob.partAttachKind w.part) = 0 then d.send (.hostWrite w.part addr rec_) else d.memWrite addr rec_

/-- Completes the waits on fence `f` that meet a test; each frees its slot (R52). -/
def Dev.completeWaits (d : Dev) (f : Nat) (reset : Bool) (met : Wait → Bool) : Dev :=
  let done := d.waits.filter fun w => w.fence == f && met w
  let d := { d with waits := d.waits.filter fun w => !(w.fence == f && met w) }
  d.each done fun d w => d.deliverWait w reset

/-- After a change of a fence, both conditions are tested for its waits (R50). -/
def Dev.testWaits (d : Dev) (f : Nat) : Dev :=
  d.completeWaits f false fun w => (d.fence f).valueMet w || (d.fence f).deadlineMet d.now

/-- A fence whose deadline passed more than 1 µs ago completes waits now: it counts once as late, with 0x1012 (R53). -/
def Dev.noteLate (d : Dev) (f : Nat) : Dev :=
  let x := d.fence f
  d.when (x.deadlineMet d.now && (d.waits.any fun w => w.fence == f) && decide (1000 < stampDiff d.now x.deadline)) fun d =>
    (d.bump Ob.deadlineLateCount).event { code := 0x1012, island := Isl.tmg, d1 := f }

/-- SIGNAL (Table 5). A wait left pending past its deadline completes here late (R53). -/
def Dev.fenceSignal (d : Dev) (f v : Nat) : Dev :=
  ((d.noteLate f).setFence f { d.fence f with value := Nat.max (d.fence f).value v }).testWaits f

/-- The SIGNAL of a subsystem's completion: a pour applied, a solver batch (Table 5). While TMG is quiesced it waits for
TMG's return (R54, log 143). DESIGN CHOICE (log 143): Table 5 lists the completions of inferences and of DMA as sources
too, but no request of theirs names a fence, so they signal none. -/
def Dev.signalFence (d : Dev) (f v : Nat) : Dev :=
  if d.quiesced Isl.tmg then { d with tl := { d.tl with signals := d.tl.signals ++ [(f, v)] } } else d.fenceSignal f v

/-- TMG returns: the signals that waited for it are made, in order (R54). -/
def Dev.tmgReturns (d : Dev) : Dev :=
  let l := d.tl.signals
  ({ d with tl := { d.tl with signals := [] } } : Dev).each l fun d e => d.fenceSignal e.1 e.2

/-- ADD (Table 5): saturating at 2^64 - 1, with 0x1010 and a count. -/
def Dev.fenceAdd (d : Dev) (f n : Nat) : Dev :=
  let v := (d.fence f).value + n
  let past := decide (18446744073709551615 < v)
  let d := (d.noteLate f).setFence f { d.fence f with value := Nat.min v 18446744073709551615 }
  let d := d.when past fun d => (d.bump Ob.addSaturations).event { code := 0x1010, island := Isl.tmg, d1 := f }
  d.testWaits f

/-- RESET (Table 5): value 0, deadline disabled, every pending wait completes with RESET. -/
def Dev.fenceReset (d : Dev) (f : Nat) : Dev :=
  let pend := d.waits.any fun w => w.fence == f
  let d := d.setFence f { d.fence f with value := 0, enabled := false }
  let d := d.when pend fun d => d.event { code := 0x1011, island := Isl.tmg, d1 := f }
  d.completeWaits f true fun _ => true

/-- The deadline and its enable are written (R51). -/
def Dev.fenceDeadline (d : Dev) (f : Nat) (deadline : Nat) (enabled : Bool) : Dev :=
  (d.setFence f { d.fence f with deadline := deadline % span48, enabled := enabled }).testWaits f

/-- The fence a session has selected. -/
def Dev.selFence (d : Dev) (sid : Nat) : Nat := d.nat (inst Ob.fenceSelect sid)

/-- The rights check of a fence operation through the dictionary (R49). -/
def fenceConds : Conds := { fence := fun d se => some (d.selFence se.id) }

/-- The partition's rights over a fence (R49). -/
def Dev.fenceRight (d : Dev) (p f : Nat) : Bool :=
  d.isInt p || (decide (d.nat (Ob.partFenceFirst p) ≤ f)
    && decide (f < d.nat (Ob.partFenceFirst p) + d.nat (Ob.partFenceCount p)))

/-- A BAR0 or BAR2 access outside rights (15_hosts_queues R300): a violation with 0x0124. -/
def Dev.barViolation (d : Dev) (fn p off : Nat) : Dev :=
  d.violate (.fixed (partnerId 1 p)) fun _ => { code := 0x0124, island := Isl.pci, iface := 4, d1 := fn, d2 := off }

/-- What a BAR0 write at an offset meets before its own target: nothing answers before PERST# is released (05_start_up
R122); before ServiceReady it is dropped and, outside the READY block, counted (Table 7); a function no enabled partition is
attached to ignores it (15_hosts_queues R293), and a quarantined partition's is dropped (18_integrity Table 6). Answers the
partition where the write goes on. -/
def Dev.barWrite (d : Dev) (fn off : Nat) : Dev × Option Nat :=
  if !d.pins.perst then (d, none)
  else if !d.serving then (d.when (decide (4096 ≤ off)) fun d => d.bump Ob.bar0BeforeReady, none)
  else match d.partOf (.mailbox fn) with
  | none => (d, none)
  | some p =>
    if d.quarantinedId (partnerId 1 p) then (d.quarantineDrop (partnerId 1 p), none)
    else (d, some p)

/-- A fence operation through BAR0: outside rights a violation, dropped without one while TMG is quiesced (R54). -/
def Dev.barFence (d : Dev) (fn f off : Nat) (op : Nat → Dev → Dev) : Dev :=
  match d.barWrite fn (0x800000 + 64 * f + off) with
  | (d, none) => d
  | (d, some p) =>
    if d.quiesced Isl.tmg then d
    else if !d.fenceRight p f then d.barViolation fn p (0x800000 + 64 * f + off)
    else op p d

/-- FENCE_SIGNAL (R48). -/
def execFenceSignal (src : FenceSrc) (v : Bytes) (s : State) : Host.Outcome State Fault Refusal :=
  onDev (fun d => match src with
    | .dict hd cond => d.writeReq fenceConds hd cond 0x2040 3 v fun se n d => d.fenceSignal (d.selFence se.id) n.toNat
    | .bar0 fn f => d.barFence fn f 0 fun _ d => d.fenceSignal f (leNat v)) s

/-- FENCE_ADD (R48). -/
def execFenceAdd (src : FenceSrc) (v : Bytes) (s : State) : Host.Outcome State Fault Refusal :=
  onDev (fun d => match src with
    | .dict hd cond => d.writeReq fenceConds hd cond 0x2040 4 v fun se n d => d.fenceAdd (d.selFence se.id) n.toNat
    | .bar0 fn f => d.barFence fn f 8 fun _ d => d.fenceAdd f (leNat v)) s

/-- FENCE_RESET (R48). -/
def execFenceReset (src : FenceSrc) (s : State) : Host.Outcome State Fault Refusal :=
  onDev (fun d => match src with
    | .dict hd cond => d.writeReq fenceConds hd cond 0x2040 7 [1] fun se _ d => d.fenceReset (d.selFence se.id)
    | .bar0 fn f => d.barFence fn f 0x18 fun _ d => d.fenceReset f) s

/-- FENCE_SET_DEADLINE (R51): object .05 (`which` 0), object .06 (`which` 1), or the DEADLINE register of BAR0. -/
def execFenceSetDeadline (src : FenceSrc) (which : Fin 3) (v : Bytes) (s : State) : Host.Outcome State Fault Refusal :=
  onDev (fun d => match src with
    | .dict hd cond =>
      if which = 0 then d.writeReq fenceConds hd cond 0x2040 5 v fun se n d =>
        d.fenceDeadline (d.selFence se.id) n.toNat (d.fence (d.selFence se.id)).enabled
      else d.writeReq fenceConds hd cond 0x2040 6 v fun se n d =>
        d.fenceDeadline (d.selFence se.id) (d.fence (d.selFence se.id)).deadline (n != 0)
    | .bar0 fn f => d.barFence fn f 0x10 fun _ d => d.fenceDeadline f (leNat v % span48) (bit (leNat v) 63)) s

/-- FENCE_SELECT_WRITE (R49): FenceSelect, or WaitFence where `wait`; the fence named is checked against the rights. -/
def execFenceSelectWrite (hd : Hdr) (cond : Option Nat) (wait : Bool) (v : Bytes) (s : State) :
    Host.Outcome State Fault Refusal :=
  onDev (fun d => d.writeStore { fence := fun _ _ => if v.length = 4 ∧ leNat v < 131072 then some (leNat v) else none } hd cond
    (if wait then 0x2041 else 0x2040) 1 v fun _ _ d => d) s

/-- The MSI-X vectors in force for a partition: those of the last start (15_hosts_queues R302). -/
def Dev.vectors (d : Dev) (p : Nat) : Nat := d.nat (inst (Ob.partVectorCount p) 0)

/-- The partition's attachment can receive the delivery (R52), and the destination is in range. -/
def Dev.deliveryOk (d : Dev) (p delivery dest : Nat) : Bool :=
  if delivery = 0 then decide (dest < 4096) && d.qreg Ob.qRole dest == 1 && decide (d.queueOwner dest = some p)
  else if delivery = 1 then d.nat (Ob.partAttachKind p) == 0 && decide (dest < d.vectors p)
  else if delivery = 2 then d.mirrorOk p dest
  else false

/-- A free wait slot (log 15): the device's own choice where that is free, else the lowest free one. -/
def Dev.freeSlot (d : Dev) : Option Nat :=
  let free (h : Nat) : Bool := d.waits.all fun w => w.handle != h
  let h := Config.freshId d.fresh % 16384
  if free h then some h else (List.range 16384).find? free

/-- Arms a wait in a slot; it completes at once if already satisfied (R50). -/
def Dev.armWait (d : Dev) (w : Wait) : Dev := ({ d with waits := d.waits ++ [w] }).drawn.testWaits w.fence

/-- WAIT_ARM (R52): with the session's .01-.04, or with BAR0's WAIT_TARGET (first 8 bytes of `v`) and WAIT_ARM word. No
free slot answers BUSY with detail 1 and logs 0x1013. -/
def execWaitArm (src : FenceSrc) (v : Bytes) (s : State) : Host.Outcome State Fault Refusal :=
  onDev (fun d => match src with
    | .dict hd cond =>
      let own (d : Dev) (se : Session) (k : Nat) : Nat := d.nat (inst k se.id)
      match d.writeGate
          { fence := fun d se => some (own d se Ob.waitFence),
            range := fun d se _ => needRange (d.deliveryOk se.part (own d se Ob.waitDelivery) (own d se Ob.waitDestination)) }
          hd cond 0x2041 5 v with
      | .stop d => d
      | .pass d se _ =>
        match (if 16384 ≤ d.waits.length then none else d.freeSlot) with
        | none =>
          (d.event { code := 0x1013, island := Isl.tmg, d1 := se.part }).complete se.id hd.tag Op.write
            (writePayload 0x2041 5 cond v) hd.seq { status := Sc.busy, ver := d.ver Ob.waitArm, detail := 1 }
        | some h =>
          let d := d.setN (inst Ob.waitHandle se.id) h
          (d.armWait { handle := h, fence := own d se Ob.waitFence, target := own d se Ob.waitTarget,
                       delivery := own d se Ob.waitDelivery, dest := own d se Ob.waitDestination,
                       part := se.part }).finishWrite hd cond 0x2041 5 v se
    | .bar0 fn f => d.barFence fn f 0x28 fun p d =>
      let word := leAt v 8 8
      let d := { d with barTarget := kvPut d.barTarget fn (leAt v 0 8) }
      match (if d.deliveryOk p (word % 4) (word / 65536) && decide (d.waits.length < 16384) then d.freeSlot else none) with
      | none =>
        let d := { d with barHandle := kvPut d.barHandle fn (2147483648 + (kvGet d.barHandle fn).getD 0 % 65536) }
        d.when (decide (16384 ≤ d.waits.length)) fun d => d.event { code := 0x1013, island := Isl.tmg, d1 := p }
      | some h =>
        ({ d with barHandle := kvPut d.barHandle fn h }).armWait
          { handle := h, fence := f, target := leAt v 0 8, delivery := word % 4, dest := word / 65536, part := p }) s

/-- WAIT_CANCEL (R52). -/
def execWaitCancel (hd : Hdr) (cond : Option Nat) (v : Bytes) (s : State) : Host.Outcome State Fault Refusal :=
  onDev (fun d => d.writeReq
    { state := fun d se n => match d.waits.find? fun w => (w.handle : Int) == n with
        | none => some { status := Sc.stateRefused }
        | some w => if w.part = se.part || d.isInt se.part then none else some { status := Sc.notOwner, detail := w.part } }
    hd cond 0x2041 7 v fun _ n d => { d with waits := d.waits.filter fun w => (w.handle : Int) != n }) s

/-- Fences with pending waits whose deadlines have been reached, in ascending number (R53). -/
def Dev.dueFences (d : Dev) : List Nat :=
  (d.fences.filter fun e => e.2.deadlineMet d.now && d.waits.any fun w => w.fence == e.1).map fun e => e.1

/-- FENCE_DEADLINE_TICK (R53): in each microsecond of the timeline once, the completions of at most 64 due fences; one posted
more than 1 µs after its deadline counts as late and logs 0x1012. Nothing while TMG is quiesced (R54). -/
def execFenceDeadlineTick (s : State) : Host.Outcome State Fault Refusal :=
  onDev (fun d =>
    if d.quiesced Isl.tmg || !d.tl.running || decide (d.ext / 1000 < d.tl.usDone) then d
    else
      let l := d.dueFences.take 64
      (d.onTl fun t => { t with usDone := d.ext / 1000 + 1 }).each l fun d f => (d.noteLate f).testWaits f) s

end Sys2Proof.Machine
end

