-- ==== Sys2Proof/Machine/Reset.lean ====
section
/-! DEFINITION. The SAFE pins and the analog pins, and the full reset that every restart shares (05_start_up R114-R119,
03_timing_unit R64, 19_power_dies R386, R396). -/
namespace Sys2Proof.Machine

/-- The SAFE pair goes off. -/
def Dev.safeOff (d : Dev) : Dev := (d.drivePin 0 false).drivePin 1 false

/-- The code an analog pin is driven with: DAC 0-3, PWM 4-11. Nothing driven yet is code 0, zero differential current or
low (R115). -/
def Dev.analogCode (d : Dev) (ch : Nat) : Int := (kvGet d.analogOut ch).getD 0

/-- An analog pin is driven with a code. -/
def Dev.driveAnalog (d : Dev) (ch : Nat) (code : Int) : Dev :=
  if d.analogCode ch = code then d
  else { d with analogOut := if code = 0 then kvDel d.analogOut ch else kvPut d.analogOut ch code }.send (.analogCode ch code)

/-- The SafeValue object of an analog channel. -/
def safeKey (ch : Nat) : Nat := if ch < 4 then Ob.dacSafeValue ch else Ob.pwmSafeValue (ch - 4)

/-- A committed value in embedded flash. -/
def Dev.flashVal (d : Dev) (k : Nat) : Int :=
  match kvGet d.flash k with
  | some v => v
  | none => objDefault k

/-- An analog pin goes to its flash safe value, or to zero current or low while the record is not valid (R115, R119). -/
def Dev.analogSafe (d : Dev) (ch : Nat) : Dev :=
  d.driveAnalog ch (if d.flag Ob.safeRecordValid then d.flashVal (safeKey ch) else 0)

/-- Every analog pin goes to its flash safe value. -/
def Dev.allAnalogSafe (d : Dev) : Dev := d.each (List.range 12) Dev.analogSafe

/-- Every analog pin goes to zero current or low. -/
def Dev.allAnalogZero (d : Dev) : Dev := d.each (List.range 12) fun d ch => d.driveAnalog ch 0

/-- Objects that live in OTP, embedded flash, QSPI NOR or the board rather than in an island, so that a full reset
leaves them: fitted dies, the flash mirror's counts, persisted counters, key states, banks, OTP, the safe-value record,
measured VIN. -/
def survivesReset (k : Nat) : Bool :=
  ([Ob.computeDiesFitted, Ob.persistCommits, Ob.persistWear, Ob.mirrorEntries, Ob.mirrorWritten, Ob.provisionalCount,
    Ob.bootCount, Ob.keySlotState, Ob.securityVersionFloor, Ob.safeRecordValid, Ob.vinNow] : List Nat).contains k
    || decide (0x7002 ≤ k / 256 ∧ k / 256 ≤ 0x7003) || (decide (0x1100 ≤ k / 256 ∧ k / 256 ≤ 0x1107) && k % 256 == 6)

/-- A full reset (R117, R118): start-up repeats from `phase` with its cause. What lies in flash, OTP and NOR, the mirror and the
levels that others drive stay; DRAM reads as memory that nothing has written (log 3). -/
def Dev.fullReset (d : Dev) (phase cause : Nat) : Dev :=
  let n : Dev := { regs := d.regs.filter fun c => survivesReset c.1, flash := d.flash, flashBlobs := d.flashBlobs,
                   out := d.out, fresh := d.fresh, log := { mirror := d.log.mirror, mirrorAt := [] },
                   dict := { restore := d.dict.restore }, pins := { d.pins with safeApplied := false },
                   boot := { current := d.boot.current, trial := d.boot.trial }, banks := d.banks,
                   analogOut := d.analogOut, safe := { fbA := d.safe.fbA, fbB := d.safe.fbB } }
  (n.setN Ob.bootPhase phase).setN Ob.bootCause cause

/-- A restart that drives the outputs to their flash safe values first and logs an entry to the mirror (crystal loss,
thermal trip, a fault on FIO or PCI). -/
def Dev.safeRestart (d : Dev) (ev : Ev) (cause : Nat) : Dev :=
  ((d.safeOff.allAnalogSafe).event { ev with mirror := true }).fullReset 1 cause

/-- A restart by SYS_RESET_N, DeviceRestart, watchdog or activation: the outputs behave as in R115 (R117). -/
def Dev.plainRestart (d : Dev) (cause : Nat) : Dev := (d.safeOff.allAnalogZero).fullReset 1 cause

end Sys2Proof.Machine
end

