-- ==== Sys2Proof/Machine/TimingUnit.lean ====
section
/-! DEFINITION. The crystal, root lock, the references and their selector, the loop through software, PPS_IN and the
pulse outputs (03_timing_unit R56-R83). Held commands of Table 6 start and time out in `Deferred.lean`; the clock monitor
is in `Power.lean`. -/
namespace Sys2Proof.Machine

/-- XTAL_STABLE (R57). -/
def execXtalStable (s : State) : Host.Outcome State Fault Refusal :=
  onDev (fun d => if d.nat Ob.bootPhase = 0 then d else d.setN Ob.xtalState 1) s

/-- ROOT_LOCK (R58, R29): with the crystal stable the timeline starts at 0, the dividers are released, the selector
starts in FREERUN, start-up leaves OSC, and SYN-PULSE and SYN-DAC, which settle at start (Table 6), are locking. -/
def execRootLock (s : State) : Host.Outcome State Fault Refusal :=
  onDev (fun d =>
    if d.reg Ob.xtalState = 1 && !d.tl.running && d.nat Ob.bootPhase == 2 then
      let d := (d.setB Ob.rootLocked true).onTl fun _ => { running := true }
      let d := d.each (List.range 25) fun d n => d.set (Ob.islandClockStatus n) 0
      let d := (d.set Ob.selectorState 0).set Ob.selectedRef 0
      let d := (d.set (Ob.synthState 0) 1).set (Ob.synthState 3) 1
      d.setN Ob.bootPhase 3
    else d) s

/-- CRYSTAL_LOSS (R64): the safe outputs and the analog safe values at once, 0x102B in the mirror, then start-up from
SUPPLY with BootCause 3. -/
def execCrystalLoss (s : State) : Host.Outcome State Fault Refusal :=
  onDev (fun d =>
    if d.reg Ob.xtalState = 1 then d.safeRestart { code := 0x102B, island := Isl.tmg } 3 else d) s

/-- Enable of a reference takes effect (Table 3). XTAL is always valid (R65). -/
def Dev.refEnabled (d : Dev) (code : Nat) (on : Bool) : Dev :=
  if code = 0 then d
  else if !on then (if d.reg (Ob.refState code) = 0 then d else d.toRef code 0).reselect
  else if d.reg (Ob.refState code) = 0 then (d.toRef code 1).reselect
  else d

/-- REF_ENABLE_WRITE (R65). -/
def execRefEnableWrite (hd : Hdr) (cond : Option Nat) (code : Fin 6) (v : Bytes) (s : State) :
    Host.Outcome State Fault Refusal :=
  onDev (fun d => d.writeStore {} hd cond (0x2112 + code) 1 v fun _ n d => d.refEnabled code (n != 0)) s

/-- REF_ACTIVITY_PRESENT (R65): `offset`, in ppb, is what is measured against the crystal. A FAILED reference within its
AcceptWindow enters QUALIFYING; one in QUALIFYING or VALID keeps the instant at which its offset left the window. -/
def execRefActivityPresent (code : Fin 6) (offset : Int) (s : State) : Host.Outcome State Fault Refusal :=
  onDev (fun d =>
    let st := d.reg (Ob.refState code)
    let inside := decide (offset.natAbs ≤ d.nat (Ob.refAcceptWindow code) * 1000)
    if (code : Nat) = 0 || st == 0 || !d.refActive code then d
    else
      let d := d.set (Ob.refMeasuredOffset code) offset
      if st = 1 then (if inside then d.toRef code 2 else d)
      else d.onRef code fun r =>
        if !inside then { r with outSince := some (r.outSince.getD d.ext) }
        else if r.outSince.isSome then { r with outSince := none, goodSince := d.ext }
        else r) s

/-- REF_QUALIFY_TIMEOUT (R65): the conditions have held for QualifyTime. -/
def execRefQualifyTimeout (code : Fin 6) (s : State) : Host.Outcome State Fault Refusal :=
  onDev (fun d =>
    if (code : Nat) ≠ 0 && d.reg (Ob.refState code) == 2 && d.refActive code && (d.refRt code).outSince.isNone
        && decide (d.nat (Ob.refQualifyTime code) * 1000000000 ≤ d.ago (d.refRt code).goodSince) then
      (d.toRef code 3).reselect
    else d) s

/-- A reference is lost (Table 2, Table 3): its offset has been outside AcceptWindow for 1 s, or its activity is. What
WCLK_IN and BIP0 show of activity is the event itself; of the others the device's own state decides. -/
def Dev.refLost (d : Dev) (code : Nat) : Bool :=
  (match (d.refRt code).outSince with
    | some t => decide (1000000000 ≤ d.ago t)
    | none => false) || code == 4 || code == 5 || !d.refActive code

/-- REF_ACTIVITY_LOST (R65): XTAL never loses activity (Table 2). -/
def execRefActivityLost (code : Fin 6) (s : State) : Host.Outcome State Fault Refusal :=
  onDev (fun d =>
    if (code : Nat) ≠ 0 && (d.reg (Ob.refState code) == 2 || d.reg (Ob.refState code) == 3) && d.refLost code then
      (d.toRef code 1).reselect
    else d) s

/-- No code but 0xFF stands in another entry too (R66). -/
def Dev.entryUnique (d : Dev) (entry : Nat) (n : Int) : Bool :=
  n == 0xFF || (List.range 6).all fun e => e == entry || d.reg (Ob.priorityEntry e) != n

/-- PRIORITY_ENTRY_WRITE (R66): takes effect at once. -/
def execPriorityEntryWrite (hd : Hdr) (cond : Option Nat) (entry : Fin 6) (v : Bytes) (s : State) :
    Host.Outcome State Fault Refusal :=
  onDev (fun d => d.writeStore { state := fun d _ n => needState (d.entryUnique entry n) }
    hd cond 0x2111 (entry + 1) v fun _ _ d => d.reselect) s

/-- WAIT_TO_RESTORE_EXPIRY (R67): in revertive mode the highest-priority reference above the selected one that has stayed
VALID for WaitToRestore is selected. -/
def execWaitToRestoreExpiry (code : Fin 6) (s : State) : Host.Outcome State Fault Refusal :=
  onDev (fun d =>
    let st := d.reg Ob.selectorState
    if (decide (st = 1) || decide (st = 2)) && d.listed.1.contains (d.nat Ob.selectedRef)
        && decide (d.higher = some (code : Nat)) then d.acquire code
    else d) s

/-- The phase error against the selected reference has stayed within RefLockWindow for 4 s and over at least 4 consecutive
comparisons (R69); the time counts from the acquisition, or from the first comparison within after one outside (log 147). -/
def Dev.phaseHeld (d : Dev) : Bool :=
  decide (4 ≤ d.tu.withinCount) && (match d.tu.withinSince with
    | some t => decide (4000000000 ≤ d.ago t)
    | none => false)

/-- DPLL_LOCK (R69). -/
def execDpllLock (s : State) : Host.Outcome State Fault Refusal :=
  onDev (fun d =>
    if d.reg Ob.selectorState = 1 && d.phaseHeld then
      let c := d.nat Ob.selectedRef
      (d.toSelector 2 c).event { code := 0x1022, island := Isl.tmg, d1 := c }
    else d) s

/-- Where a comparison would move the correction: with PTP selected, by the frequency ratio that the client measures (R60);
else where the DPLL's own filter says (free value, log 16). -/
def Dev.dpllTarget (d : Dev) : Int :=
  if d.reg Ob.selectedRef = 2 || d.reg Ob.selectedRef = 3 then d.corrNow + d.servo.ratio else Config.dpllCorrection d.fresh

/-- At a comparison of the selected reference the DPLL moves the correction, within ±100 ppm and the slope since the last
comparison (R59). -/
def Dev.dpllStep (d : Dev) : Dev :=
  let st := d.reg Ob.selectorState
  let nv := clampInt (-100000) 100000 (Machine.toward d.corrNow d.dpllTarget (d.slopeOver (d.ago (d.tu.compAt.getD d.tu.corrAt))))
  let d := d.drawn.closeLocked.set Ob.rootFreqOffset nv
  d.onTu fun t => { t with corrAt := d.ext, corrTo := nv, compAt := some d.ext,
                           locked := if st = 2 then some d.ext else none }

/-- The comparison's phase error, 2^-8 ns, joins the record that R69 asks for. -/
def Dev.phaseSeen (d : Dev) (error : Int) : Dev :=
  d.onTu fun t =>
    if error.natAbs ≤ d.nat Ob.refLockWindow * 256 then
      { t with withinSince := some (t.withinSince.getD d.ext), withinCount := t.withinCount + 1 }
    else { t with withinSince := none, withinCount := 0 }

/-- REF_PHASE_COMPARISON (R72, R69): `error` is in 2^-8 ns. The detector measures the reference named in PhaseRef,
whatever its state. -/
def execRefPhaseComparison (code : Fin 6) (error : Int) (s : State) : Host.Outcome State Fault Refusal :=
  onDev (fun d =>
    let d := d.when (decide (d.nat Ob.phaseRef = code)) fun d =>
      ((d.set Ob.phaseError (wrapTy .i64 error)).setN Ob.phaseStamp d.now).bump Ob.phaseSeq
    let st := d.reg Ob.selectorState
    d.when (decide (d.nat Ob.selectedRef = code) && (st == 1 || st == 2)) fun d => (d.phaseSeen error).dpllStep) s

/-- LoopMode 1 takes effect (R72, Table 5): the correction is held, DESIGN CHOICE (log 148): it stays until FreqOffsetWord is
next written, whatever word is stored. -/
def Dev.openLoop (d : Dev) : Dev :=
  if d.reg Ob.selectorState = 4 then d
  else ((d.steer d.corrNow).toSelector 4 (d.nat Ob.selectedRef)).event { code := 0x1024, island := Isl.tmg, d1 := 1 }

/-- The reference that closing the loop takes (R67, R73): the one selected before while it is VALID and listed, or in
revertive mode the highest above it that has stayed VALID for WaitToRestore; else the highest that is VALID. That the one
selected before counts is DESIGN CHOICE (log 148). -/
def Dev.resumed (d : Dev) : Option Nat :=
  let sel := d.nat Ob.selectedRef
  if d.listed.1.contains sel && d.refValid sel then some (d.higher.getD sel) else d.bestRef

/-- LoopMode 0 takes effect (R73, Table 5): ACQUIRE, HOLDOVER or FREERUN from the current correction. -/
def Dev.closeLoop (d : Dev) : Dev :=
  if d.reg Ob.selectorState = 4 then
    let d := d.event { code := 0x1024, island := Isl.tmg, d1 := 0 }
    match d.resumed with
    | some c => d.acquire c
    | none => if d.listed.2 then d.toFreerun else d.toHoldover
  else d

/-- LoopMode is written. -/
def Dev.loopWritten (d : Dev) (n : Int) : Dev := if n = 1 then d.openLoop else d.closeLoop

/-- LOOP_MODE_OPEN (R72). -/
def execLoopModeOpen (hd : Hdr) (cond : Option Nat) (s : State) : Host.Outcome State Fault Refusal :=
  onDev (fun d => d.writeStore {} hd cond 0x2120 1 [1] fun _ _ d => d.openLoop) s

/-- LOOP_MODE_CLOSE (R73). -/
def execLoopModeClose (hd : Hdr) (cond : Option Nat) (s : State) : Host.Outcome State Fault Refusal :=
  onDev (fun d => d.writeStore {} hd cond 0x2120 1 [0] fun _ _ d => d.closeLoop) s

/-- FreqOffsetWord is applied: 2^-16 ppm to ppb (R72), rounded down: DESIGN CHOICE (log 148). -/
def Dev.offsetWord (d : Dev) (n : Int) : Dev := d.steer (n * 1000 / 65536)

/-- The condition of FreqOffsetWord (R73). -/
def offsetWordConds : Conds := { state := fun d _ _ => needState (d.reg Ob.loopMode = 1) }

/-- FREQ_OFFSET_WORD_WRITE (R72, R73). -/
def execFreqOffsetWordWrite (hd : Hdr) (cond : Option Nat) (v : Bytes) (s : State) : Host.Outcome State Fault Refusal :=
  onDev (fun d => d.writeStore offsetWordConds hd cond 0x2120 2 v fun _ n d => d.offsetWord n) s

/-- An edge on PPS_IN in its active direction at the extended instant `e` (R74): accepted with its L, it predicts the next
anchor as itself plus L. -/
def Dev.ppsEdge (d : Dev) (e : Nat) : Dev :=
  let take (l : Nat) : Dev :=
    ((d.onTu fun t => { t with pps := some e, anchors := ((e + l, l) :: t.anchors).take 4 }).setN Ob.ppsInLastEdge (e % span48)).setN
      Ob.ppsInInterval l
  match d.tu.pps with
  | none => take 1000000000
  | some p =>
    let n := e - p
    if 1500000000 < n then take 1000000000
    else if 999000000 ≤ n ∧ n ≤ 1001000000 then take n
    else (d.bump Ob.ppsInRejected).event { code := 0x1025, island := Isl.tmg, d1 := Nat.min n 4294967295 }

/-- PPS_IN_EDGE (R74): PpsInPolarity names the edge that counts. -/
def execPpsInEdge (rising : Bool) (s : State) : Host.Outcome State Fault Refusal :=
  onDev (fun d =>
    if d.tl.running && decide (rising = (d.reg Ob.ppsInPolarity == 0)) then d.ppsEdge d.ext else d) s

/-- The train of a pulse output. -/
def Dev.train (d : Dev) (i : Nat) : Option Train := kvGet d.tu.trains i

/-- A pulse output has this train, or none. -/
def Dev.setTrain (d : Dev) (i : Nat) (t : Option Train) : Dev :=
  d.onTu fun u => { u with trains := match t with
    | some t => kvPut u.trains i t
    | none => kvDel u.trains i }

/-- The anchor after `a` for an output's Base, and its second's length (R74, R78). For PPS_IN it is the earliest prediction
that lies more than half a second beyond `a`; where the edges have not given one, anchors continue at the last L. -/
def Dev.nextAnchor (d : Dev) (i : Nat) (a : Int) : Int × Nat :=
  if d.reg (Ob.pulseBase i) = 0 then (a + 1000000000, 1000000000)
  else
    let l := d.nat Ob.ppsInInterval
    match (d.tu.anchors.filter fun x => decide (a + (l / 2 : Nat) < (x.1 : Int))).getLast? with
    | some x => (x.1, x.2)
    | none => (a + l, l)

/-- The last anchor at or before `e` for an output's Base, and its second's length (R74). Beyond the last prediction
anchors continue at its L. Before any edge of PPS_IN has been accepted there is none: DESIGN CHOICE (log 149). -/
def Dev.anchorAt (d : Dev) (i : Nat) (e : Int) : Option (Int × Nat) :=
  if d.reg (Ob.pulseBase i) = 0 then some (e / 1000000000 * 1000000000, 1000000000)
  else match d.tu.anchors.find? fun x => decide ((x.1 : Int) ≤ e), d.tu.anchors.head?, d.tu.anchors.getLast? with
    | some x, some y, _ =>
      if x = y then
        let l := d.nat Ob.ppsInInterval
        some (if (x.1 : Int) + l ≤ e then (x.1 + (e - x.1) / (l : Int) * l, l) else (x.1, x.2))
      else some (x.1, x.2)
    | none, _, some z => some (z.1 + (e - z.1) / (z.2 : Int) * z.2, z.2)
    | _, _, _ => none

/-- When edge `k` of a second is scheduled (R75). -/
def Dev.edgeAt (d : Dev) (i : Nat) (t : Train) : Int :=
  t.anchor + d.reg (Ob.pulseOffset i) + (t.k * t.len / d.nat (Ob.pulseRate i) : Nat)

/-- The first scheduled edge at or after the extended instant `e` (R75, R77): its anchor, that second's length and its
number. -/
def Dev.firstEdge (d : Dev) (i : Nat) (e : Int) : Option (Int × Nat × Nat) :=
  let off := d.reg (Ob.pulseOffset i)
  let m := Nat.max 1 (d.nat (Ob.pulseRate i))
  (d.anchorAt i (e - off)).map fun (a, l) =>
    let k := ceilDiv ((e - off - a).toNat * m) (Nat.max 1 l)
    let na := d.nextAnchor i a
    if k < m ∧ a + (k * l / m : Nat) < na.1 then (a, l, k) else (na.1, na.2, 0)

/-- The extended instant a stamp stands for, seen from now (R32, R35). -/
def Dev.extOf (d : Dev) (stamp : Nat) : Int := d.ext + stampDiff stamp d.now

/-- A train starts at the later of StartStamp and now (R77). -/
def Dev.startOf (d : Dev) (i : Nat) : Int :=
  let st := d.nat (Ob.pulseStartStamp i)
  if st = 0 then d.ext else max (d.ext : Int) (d.extOf st)

/-- A train starts: Status STARTED. Its first edge is laid when it is due, on the anchors then known (R77). -/
def Dev.startTrain (d : Dev) (i : Nat) : Dev :=
  let c := d.nat (Ob.pulseCount i)
  (d.setTrain i (some { start := d.startOf i, left := if c = 0 then none else some c })).set (Ob.pulseStatus i) 2

/-- The Width limit of R76 for a Rate. -/
def widthOk (w m : Int) : Bool := decide (8 ≤ w ∧ 0 < m ∧ w ≤ 999000000 / m - 8)

/-- A running train is laid again under the settings now in force, from the extended instant `e`: its next edge is the first
scheduled at or after `e`, its start and the instant after its last edge. -/
def Dev.retrain (d : Dev) (i : Nat) (e : Int) : Dev :=
  match d.train i with
  | none => d
  | some t =>
    let past : Int := match t.last with
      | some x => (x : Int) + 1
      | none => t.start
    d.setTrain i (some { t with start := max (max e t.start) past, laid := false })

/-- The range conditions of pulse output `i` beside the table's intervals (R76): Width against Rate. -/
def pulseConds (i field : Nat) : Conds :=
  { range := fun d _ n => needRange (
      if field = 2 then widthOk (d.reg (Ob.pulseWidth i)) n
      else if field = 3 then widthOk n (d.reg (Ob.pulseRate i))
      else true) }

/-- PULSE_CONFIG_WRITE (R76): `field` is Base, Offset, Rate, Width, Polarity, Count. A running train takes a plain write from
the present instant on: DESIGN CHOICE (log 149). -/
def execPulseConfigWrite (hd : Hdr) (cond : Option Nat) (out : Fin 13) (field : Fin 6) (v : Bytes) (s : State) :
    Host.Outcome State Fault Refusal :=
  onDev (fun d => d.writeStore (pulseConds out field) hd cond (0x2130 + out) (field + 1) v fun _ _ d => d.retrain out d.ext) s

/-- A Start is refused while a train runs or is scheduled (R77). -/
def pulseStartConds (i : Nat) : Conds :=
  { state := fun d _ _ => needState ((d.train i).isNone && !d.isHeld (.pulse i)) }

/-- Start takes effect, or is held while SYN-PULSE settles (R77, R80). -/
def Dev.pulseStarts (d : Dev) (i : Nat) : Dev :=
  let d := d.setN (Ob.pulseActualStart i) 0
  if d.synBusy 1 then (d.set (Ob.pulseStatus i) 1).hold 1 (.pulse i) else d.startTrain i

/-- PULSE_START (R77). -/
def execPulseStart (hd : Hdr) (cond : Option Nat) (out : Fin 13) (s : State) : Host.Outcome State Fault Refusal :=
  onDev (fun d => d.writeReq (pulseStartConds out) hd cond (0x2130 + out) 8 [1] fun _ _ d => d.pulseStarts out) s

/-- Stop (R77, R82): a held Start is CANCELLED; a train ends after the pulse in progress and Status reads IDLE
(log 17). -/
def Dev.pulseStops (d : Dev) (i : Nat) : Dev :=
  if d.isHeld (.pulse i) then (d.unhold (.pulse i)).set (Ob.pulseStatus i) 4
  else match d.train i with
    | none => d
    | some t =>
      if t.active then d.setTrain i (some { t with stopping := true })
      else (d.setTrain i none).set (Ob.pulseStatus i) 0

/-- PULSE_STOP (R77). -/
def execPulseStop (hd : Hdr) (cond : Option Nat) (out : Fin 13) (s : State) : Host.Outcome State Fault Refusal :=
  onDev (fun d => d.writeReq {} hd cond (0x2130 + out) 9 [1] fun _ _ d => d.pulseStops out) s

/-- The train as its next edge stands now (R74, R75, R77): laid where it has not been, and in the next second once its own
is over. None where there is no anchor. -/
def Dev.coming (d : Dev) (i : Nat) (t : Train) : Option Train :=
  if !t.laid then (d.firstEdge i t.start).map fun (a, l, k) => { t with anchor := a, len := l, k := k, laid := true }
  else if t.k < d.nat (Ob.pulseRate i) then some t
  else
    let (a, l) := d.nextAnchor i t.anchor
    some { t with anchor := a, len := l, k := 0 }

/-- Edges are dropped: counted, with 0x1026 (R78). -/
def Dev.dropEdges (d : Dev) (i n : Nat) : Dev :=
  (d.bumpBy (Ob.pulseEdgesDropped i) n).event { code := 0x1026, island := Isl.tmg, d1 := i, d2 := n }

/-- The active level of an output (Polarity). -/
def Dev.activeLevel (d : Dev) (i : Nat) : Bool := d.reg (Ob.pulsePolarity i) == 0

/-- The edge of a train at hand leaves, or is suppressed while SYN-PULSE locks again (R75, R77, R83). A suppressed edge, like a
dropped one, does not count toward Count: DESIGN CHOICE (log 149). -/
def Dev.edgeLeaves (d : Dev) (i : Nat) (t : Train) : Dev :=
  if d.reg (Ob.synthState 0) ≠ 2 && d.reg (Ob.synthState 0) ≠ 0 then
    (d.setTrain i (some { t with k := t.k + 1, last := some d.ext })).bump (Ob.pulseEdgesDropped i)
  else
    let d := d.send (.pulse i (d.activeLevel i) d.now)
    let d := d.when (t.emitted == 0) fun d => d.setN (Ob.pulseActualStart i) d.now
    let t := { t with k := t.k + 1, emitted := t.emitted + 1, active := true, since := d.fine, last := some d.ext }
    match t.left with
    | none => d.setTrain i (some t)
    | some n =>
      if n ≤ 1 then (d.setTrain i (some { t with left := some 0, stopping := true })).set (Ob.pulseStatus i) 5
      else d.setTrain i (some { t with left := some (n - 1) })

/-- A loaded pour has its anchor for output `i` at or before `e` and has not flipped it (R79): edges from that anchor on wait
for the flip. -/
def Dev.flipAhead (d : Dev) (i : Nat) (e : Int) : Bool :=
  d.pours.live.any fun p => p.state != 1 && (p.parts.any fun x => x.uid == 0x2130 + i) && (match p.loaded with
    | some l =>
      let b := d.extOf (if after l p.target then l else p.target)
      (match d.anchorAt i (b - 1) with
        | some (a, _) => decide ((d.nextAnchor i a).1 ≤ e)
        | none => false)
    | none => false)

/-- An edge of a train is due (R75, R77): nothing before its stamp. Where the next anchor's first edge comes before the
edges left of a second of PPS_IN, these are dropped (R78). -/
def Dev.pulseDue (d : Dev) (i : Nat) (t : Train) : Dev :=
  match d.coming i t with
  | none => d
  | some t =>
    let e := d.edgeAt i t
    let m := d.nat (Ob.pulseRate i)
    let na := d.nextAnchor i t.anchor
    let ahead := na.1 + d.reg (Ob.pulseOffset i)
    if d.flipAhead i (min e ahead) then d
    else if d.reg (Ob.pulseBase i) = 1 && decide (ahead ≤ e ∧ ahead ≤ d.ext) then
      (d.dropEdges i (m - t.k)).edgeLeaves i { t with anchor := na.1, len := na.2, k := 0 }
    else if (d.ext : Int) < e then d
    else d.edgeLeaves i t

/-- PULSE_EDGE_DUE (R75): nothing before the edge's stamp, and nothing once Count edges have left. -/
def execPulseEdgeDue (out : Fin 13) (s : State) : Host.Outcome State Fault Refusal :=
  onDev (fun d => match d.train out with
    | some t => if t.stopping then d else d.pulseDue out t
    | none => d) s

/-- The pulse in progress has been active for Width, rounded up to whole ticks (R75). -/
def Dev.widthOver (d : Dev) (i : Nat) (t : Train) : Bool :=
  decide (t.since + d.nat (Ob.pulseWidth i) * 4294967296 ≤ d.fine)

/-- PULSE_WIDTH_END (R75, R77): the pulse returns to its inactive level; a train that was to stop ends. -/
def execPulseWidthEnd (out : Fin 13) (s : State) : Host.Outcome State Fault Refusal :=
  onDev (fun d => match d.train out with
    | none => d
    | some t =>
      if t.active && d.widthOver out t then
        let d := d.send (.pulse out (!d.activeLevel out) d.now)
        if t.stopping then
          (d.setTrain out none).when (t.left != some 0) fun d => d.set (Ob.pulseStatus out) 0
        else d.setTrain out (some { t with active := false })
      else d) s

/-- SYNTH_LOCK_LOST (R83): the synthesiser locks again from LOCKING; edges due before relock are suppressed by
PULSE_EDGE_DUE. -/
def execSynthLockLost (syn : Fin 6) (s : State) : Host.Outcome State Fault Refusal :=
  onDev (fun d =>
    if d.reg (Ob.synthState syn) = 2 then
      (d.set (Ob.synthState syn) 1).event { code := 0x1029, island := Isl.tmg, d1 := (syn : Nat) + 1 }
    else d) s

end Sys2Proof.Machine
end

