-- ==== Sys2Proof/Machine/Dictionary.lean ====
section
/-! DEFINITION. Sessions, block writes, subscriptions, commits, keys and the CAN controllers (04_dictionary R84-R111,
R416). -/
namespace Sys2Proof.Machine

/-- The payload of a HELLO (Table 4). -/
def helloPayload (part flags : Nat) (nh : Bytes) : Bytes := leBytes 1 part ++ leBytes 1 flags ++ leBytes 2 0 ++ nh

/-- The key of a partition: 16 bytes, all zero until provisioned (R92). -/
def Dev.keyOf (d : Dev) (p : Nat) : Bytes := (d.blob (Ob.partKey p) ++ List.replicate 16 0).take 16

/-- A HELLO's partition may open a session on its carrier (R96, R92): it is the enabled partition attached there, and
while partition 0's key is unprovisioned only partition 0 does, over function 0's mailbox. -/
def Dev.mayOpen (d : Dev) (c : Carrier) (part : Nat) : Bool :=
  decide (d.partOf c = some part) &&
    (d.flag (Ob.partKeyState 0) || (part == 0 && decide (c = Carrier.mailbox 0)))

/-- The session's derived key (R96). -/
def sessionKey (kp nh nd : Bytes) : Bytes := aesCmac kp ([0x49, 0x47, 0x53, 0x4B] ++ nh ++ nd)

/-- A session ID that is not zero and unused since start (R96, log 6): the device's own choice where that is free. -/
def Dev.newSid (d : Dev) : Nat :=
  let h := Config.freshId d.fresh % 4294967296
  if h ≠ 0 ∧ d.dict.usedIds.contains h = false then h
  else ((List.range (d.dict.usedIds.length + 2)).find? fun n => n != 0 && !d.dict.usedIds.contains n).getD 1

/-- The nonce Nd (R96, log 6). -/
def Dev.newNonce (d : Dev) : Bytes := (Config.nonce d.fresh ++ List.replicate 8 0).take 8

/-- What a HELLO answer carries (Table 4). -/
def Dev.helloData (d : Dev) (part : Nat) (nd : Bytes) : Bytes :=
  nd ++ leBytes 1 (d.roles part) ++ leBytes 1 (d.nat Ob.outcome) ++ leBytes 1 (if d.inStartWindow then 4 else 16)
    ++ leBytes 1 0 ++ leBytes 6 d.now ++ leBytes 2 0

/-- A session opens (R96): its key from both nonces, and the answer under that key with sequence 1. -/
def Dev.openSession (d : Dev) (hd : Hdr) (part : Nat) (nh : Bytes) : Dev :=
  let nd := d.newNonce
  let se : Session := { id := d.newSid, part := part, carrier := hd.carrier, key := sessionKey (d.keyOf part) nh nd,
                        confirmed := false, hi := 0, accepted := [], devSeq := 0, opened := d.ext, lastReq := d.ext,
                        outst := [], cache := [], subs := [], ethPort := hd.ethPort }
  let data := d.helloData part nd
  let d := { d.drawn with dict := { d.dict with sessions := d.dict.sessions ++ [se], usedIds := se.id :: d.dict.usedIds } }
  let d := (d.bump Ob.sessionsOpen).bump (Ob.partActiveSessions (part % 8))
  let d := d.sessionAnswer se hd.tag Op.hello 0 false { status := Sc.ok, data := data }
  d.event { code := 0x2001, island := Isl.ctl, iface := hd.carrier.iface, d1 := part, d2 := se.id }

/-- The session limits (R97). -/
def Dev.atLimit (d : Dev) (part : Nat) : Bool :=
  decide (32 ≤ d.dict.sessions.length)
    || decide (d.nat Ob.maxSessionsPerPartition ≤ (d.dict.sessions.filter fun s => s.part == part).length)

/-- HELLO (R96, R97). -/
def execHello (hd : Hdr) (part : Nat) (nh : Bytes) (s : State) : Host.Outcome State Fault Refusal :=
  onDev (fun d =>
    match d.preCheck hd Op.hello (helloPayload part 0 nh) with
    | some d => d
    | none =>
      if nh.length ≠ 8 then (d.ighViolation hd Sc.badLength).plainAnswer hd { status := Sc.badLength }
      else if !d.mayOpen hd.carrier part then
        (d.ighViolation hd Sc.authFailed).plainAnswer hd { status := Sc.authFailed }
      else if d.atLimit part then d.plainAnswer hd { status := Sc.sessionLimit }
      else d.openSession hd part nh) s

/-- HELLO_CLOSE (R97): an authenticated HELLO with the close flag is answered OK, and the session ends. -/
def execHelloClose (hd : Hdr) (part : Nat) (nh : Bytes) (s : State) : Host.Outcome State Fault Refusal :=
  onDev (fun d =>
    let payload := helloPayload part 1 nh
    match d.admission hd Op.hello payload false with
    | .stop d => d
    | .go d se => (d.complete se.id hd.tag Op.hello payload hd.seq { status := Sc.ok }).endSession se.id .close) s

/-- SESSION_CONFIRM_TIMEOUT (R96): 5 s without a confirming request. -/
def execSessionConfirmTimeout (sid : Nat) (s : State) : Host.Outcome State Fault Refusal :=
  onDev (fun d => match d.session sid with
    | some se => if se.confirmed || decide (d.ago se.opened < 5000000000) then d else d.endSession sid .unconfirmed
    | none => d) s

/-- SESSION_IDLE_TIMEOUT (R97): SessionIdleTimeout since the last accepted request. -/
def execSessionIdleTimeout (sid : Nat) (s : State) : Host.Outcome State Fault Refusal :=
  onDev (fun d => match d.session sid with
    | some se => if se.confirmed && decide (d.nat Ob.sessionIdleTimeout * 1000000000 ≤ d.ago se.lastReq) then d.endSession sid .idle else d
    | none => d) s

/-- A committed value enters embedded flash; the table default is not listed. -/
def Dev.toFlash (d : Dev) (kv : Nat × Int) : Dev :=
  { d with flash := if kv.2 = objDefault kv.1 then kvDel d.flash kv.1 else kvPut d.flash kv.1 kv.2 }

/-- Committed bytes enter embedded flash. -/
def Dev.blobToFlash (d : Dev) (kv : Nat × Bytes) : Dev :=
  { d with flashBlobs := if kv.2 = [] then kvDel d.flashBlobs kv.1 else kvPut d.flashBlobs kv.1 kv.2 }

/-- The analog channel whose SafeValue an object is. -/
def safeChannel (k : Nat) : Option Nat := (List.range 12).find? fun ch => safeKey ch == k

/-- ChannelState of analog channel `ch`, DAC 0-3, PWM 4-11. -/
def anaState (ch : Nat) : Nat := if ch < 4 then Ob.dacChannelState ch else Ob.pwmChannelState (ch - 4)

/-- An analog channel in SETTLING or RUN goes to SAFE, with a DAC's Status (14_analog_beacon Table 1). -/
def Dev.anaRest (d : Dev) (ch : Nat) (status : Int) : Dev :=
  if d.reg (anaState ch) = 1 ∨ d.reg (anaState ch) = 2 then
    let d := (d.set (anaState ch) 0).analogSafe ch
    if ch < 4 then d.set (Ob.dacStatus ch) status else d
  else d

/-- A completed write of the safe-value record (14_analog_beacon R281): the record is valid, and the new values apply to
channels not in SETTLING or RUN. -/
def Dev.safeCommitted (d : Dev) (vals : List (Nat × Int)) : Dev :=
  if vals.all fun kv => (safeChannel kv.1).isNone then d
  else
    let d := d.setB Ob.safeRecordValid true
    d.each (List.range 12) fun d ch => if d.reg (anaState ch) = 1 ∨ d.reg (anaState ch) = 2 then d else d.analogSafe ch

/-- A commit is done (R87): embedded flash holds it, PersistCommits counts it, and the request that waits is answered. -/
def Dev.commitDone (d : Dev) (c : Commit) : Dev :=
  let d := (d.each c.vals Dev.toFlash).each c.blobs Dev.blobToFlash
  let d := (d.bump Ob.persistCommits).safeCommitted c.vals
  if c.sid = 0 then d
  else d.complete c.sid c.tag c.op c.payload c.seq { status := Sc.ok, ver := c.ver, detail := c.detail }

/-- RWP_COMMIT_DONE (R87): the oldest commit in progress. -/
def execRwpCommitDone (s : State) : Host.Outcome State Fault Refusal :=
  onDev (fun d => match d.dict.commits with
    | [] => d
    | c :: cs => ({ d with dict := { d.dict with commits := cs } }).commitDone c) s

/-- What a block write of an object does (R103): conditions on the whole block and on the state, its effect, and whether
OK waits for its commit to embedded flash; `refused` is what a refusal by these conditions does beside its answer. -/
structure BlockObj where
  range : Dev → Session → Bytes → Option Refuse := fun _ _ _ => none
  state : Dev → Session → Bytes → Option Refuse := fun _ _ _ => none
  eff : Session → Bytes → Dev → Dev
  defer : Bool := false
  refused : Session → Refuse → Dev → Dev := fun _ _ d => d

/-- The block write of a session under a tag. -/
def Dev.block (d : Dev) (sid tag : Nat) : Option Block := d.dict.blocks.find? fun b => b.sid == sid && b.tag == tag

/-- The block write of operation `op` under a tag. -/
def Dev.blockOp (d : Dev) (sid tag op : Nat) : Option Block := (d.block sid tag).filter fun b => b.op == op

/-- The block writes but this one. -/
def Dev.dropBlock (d : Dev) (sid tag : Nat) : Dev :=
  { d with dict := { d.dict with blocks := d.dict.blocks.filter fun b => !(b.sid == sid && b.tag == tag) } }

/-- A block write ends without writing: 0x2006, and its request is answered. -/
def Dev.failBlock (d : Dev) (b : Block) (a : Ans) : Dev :=
  let d := (d.dropBlock b.sid b.tag).event { code := 0x2006, island := Isl.ctl, d1 := b.key, d2 := a.status }
  d.complete b.sid b.tag b.op b.payload0 b.seq0 a

/-- The checks of segment 0 on the total length (R85, R103). -/
def totalFault (r : ObjRow) (total : Nat) : Option Refuse :=
  let max_ := if r.ty = .domain ∨ r.ty = .string then r.hi.toNat else tySize r.ty
  if max_ < total then some { status := Sc.blockSize, detail := max_ }
  else if r.ty = .domain ∨ r.ty = .string then (if r.inRange total then none else some { status := Sc.typeMismatch })
  else if total = tySize r.ty then none else some { status := Sc.typeMismatch }

/-- Conditions checked again when the block commits: content, version, state, island. -/
def Dev.blockFault (d : Dev) (o : BlockObj) (se : Session) (b : Block) (data : Bytes) : Option Refuse :=
  let idx := b.key / 256
  firstFault [o.range d se data,
    (match b.cond with
     | some v => if v = d.ver b.key then none else some { status := Sc.versionMismatch }
     | none => none),
    (if d.unprovisioned b.key then some { status := Sc.stateRefused } else none), o.state d se data, d.islandFault idx]

/-- The whole block is written at once: the version increments once (R103), and OK follows. -/
def Dev.writeBlock (d : Dev) (o : BlockObj) (se : Session) (b : Block) (data : Bytes) : Dev :=
  let d := (o.eff se data (d.dropBlock b.sid b.tag)).bumpVer b.key
  let text : Bool := match objRow (b.key / 256) (b.key % 256) with
    | some r => decide (r.ty = .string ∨ r.ty = .domain)
    | none => false
  let k := d.resolve se.id b.key
  let vals : List (Nat × Int) := cond text [] [(k, d.reg k)]
  let blobs : List (Nat × Bytes) := cond text [(b.key, data)] []
  if o.defer then
    { d with dict := { d.dict with commits := d.dict.commits ++
      [{ vals := vals, blobs := blobs, sid := b.sid, tag := b.tag, op := b.op, payload := b.payload0, seq := b.seq0,
         ver := d.ver b.key, detail := b.next }] } }
  else d.complete b.sid b.tag b.op b.payload0 b.seq0 { status := Sc.ok, ver := d.ver b.key, detail := b.next }

/-- The last segment has come (R103): count, CRC-32C, then the block's own conditions. -/
def Dev.lastSegment (d : Dev) (o : BlockObj) (hd : Hdr) (se : Session) (b : Block) : Dev :=
  let n := b.data.length - 4
  let data := b.data.take n
  let ver := d.ver b.key
  if b.data.length < 4 ∨ n ≠ b.total then
    (d.ighViolation hd Sc.badLength).failBlock b { status := Sc.badLength, ver := ver }
  else if leNat (b.data.drop n) ≠ crc32c data then d.failBlock b { status := Sc.blockCrc, ver := ver }
  else match d.blockFault o se b data with
    | some r => (o.refused se r d).failBlock b { status := r.status, ver := ver, detail := r.detail }
    | none => d.writeBlock o se b data

/-- A segment is stored: the last one commits the block, any other is answered with the next expected index. -/
def Dev.takeSegment (d : Dev) (o : Nat → BlockObj) (hd : Hdr) (se : Session) (b : Block) : Dev :=
  let d := { d.dropBlock b.sid b.tag with
    dict := { d.dict with blocks := b :: (d.dropBlock b.sid b.tag).dict.blocks } }
  if hd.more then
    d.sessionAnswer se hd.tag b.op 0 false { status := Sc.ok, ver := d.ver b.key, detail := b.next }
  else d.lastSegment (o b.key) hd se b

/-- Segment 0 of a block write: the payload is that of a WRITE, then the total length, then data (Table 4). -/
def Dev.firstSegment (d : Dev) (o : Nat → BlockObj) (hd : Hdr) (se : Session) (payload : Bytes) : Dev :=
  let idx := leAt payload 0 2
  let sub := leAt payload 2 1
  let k := idx * 256 + sub
  let cond := if bit (leAt payload 3 1) 0 then some (leAt payload 4 2) else none
  let refuse (r : Refuse) : Dev :=
    d.complete se.id hd.tag Op.writeBlock payload hd.seq { status := r.status, ver := d.ver k, detail := r.detail }
  if payload.length < 12 then
    ((d.ighViolation hd Sc.badLength).complete se.id hd.tag Op.writeBlock payload hd.seq { status := Sc.badLength })
  else match d.objFault se idx sub true none with
    | some r => refuse r
    | none =>
      match objRow idx sub with
      | none => refuse { status := Sc.noObject }
      | some r =>
        match firstFault [totalFault r (leAt payload 8 4), d.lateFault se r k cond,
            (if d.unprovisioned k then some { status := Sc.stateRefused } else none), d.islandFault idx,
            (if r.rwp then d.commitFault else none)] with
        | some f => refuse f
        | none =>
          let d := d.onSession se.id fun s =>
            { s with outst := { tag := hd.tag, op := Op.writeBlock, payload, seq := hd.seq, at_ := d.ext } :: s.outst }
          d.takeSegment o hd se { sid := se.id, part := se.part, tag := hd.tag, op := Op.writeBlock, key := k, cond := cond,
                                  next := 1, total := leAt payload 8 4, data := payload.drop 12, payload0 := payload,
                                  seq0 := hd.seq, lastSeg := d.ext }

/-- A WRITE_BLOCK frame (R103): segment 0 opens the transfer, others continue it in order; any other index, a repeated
segment 0 too, is answered SEGMENT_ORDER. `o` gives each object's own
conditions and effect. -/
def Dev.blockFrame (d : Dev) (o : Nat → BlockObj) (hd : Hdr) (payload : Bytes) : Dev :=
  let open_ := (d.blockOp hd.session hd.tag Op.writeBlock).isSome
  match d.admission hd Op.writeBlock payload open_ with
  | .stop d => d
  | .go d se =>
    match d.blockOp se.id hd.tag Op.writeBlock with
    | some b =>
      if hd.seg = b.next then
        d.takeSegment o hd se { b with next := b.next + 1, data := b.data ++ payload, lastSeg := d.ext }
      else (d.ighViolation hd Sc.segmentOrder).sessionAnswer se hd.tag Op.writeBlock 0 false
        { status := Sc.segmentOrder, ver := d.ver b.key, detail := b.next }
    | none =>
      if hd.seg = 0 then d.firstSegment o hd se payload
      else (d.ighViolation hd Sc.segmentOrder).complete se.id hd.tag Op.writeBlock payload hd.seq
        { status := Sc.segmentOrder, detail := 0 }

/-- BLOCK_GAP_TIMEOUT (R103): BlockGapTimeout without a segment. -/
def execBlockGapTimeout (sid tag : Nat) (s : State) : Host.Outcome State Fault Refusal :=
  onDev (fun d => match d.block sid tag with
    | some b => if d.ago b.lastSeg < d.nat Ob.blockGapTimeout * 1000000 then d
      else d.failBlock b { status := Sc.blockTimeout, ver := d.ver b.key }
    | none => d) s

/-- The block write of a partition key (R92): in force at once, provisioned, committed, and the partition's sessions
end after their answers (log 18). -/
def keyObj (k : Nat) : BlockObj :=
  { eff := fun _ data d =>
      let p := k / 256 - 0x1100
      let d := (d.setBlob k data).set (Ob.partKeyState p) 1
      { d with dict := { d.dict with commits := d.dict.commits ++ [{ blobs := [(k, data)] }] } } }

/-- The sessions of a partition whose key was written end (R97), and its Virek connections close (17_virek R340). -/
def Dev.endKeyed (d0 d : Dev) : Dev :=
  d.each (List.range 8) fun d p =>
    if d0.blob (Ob.partKey p) = d.blob (Ob.partKey p) && d0.ver (Ob.partKey p) = d.ver (Ob.partKey p) then d
    else (d.endSessions .key fun s => s.part == p).closeConns .partition fun c => c.part == p

/-- A block write of a key, with the end of sessions that follows. -/
def Dev.keyFrame (d : Dev) (hd : Hdr) (payload : Bytes) : Dev := d.endKeyed (d.blockFrame keyObj hd payload)

/-- KEY_WRITE (R92, R97). -/
def execKeyWrite (hd : Hdr) (payload : Bytes) (s : State) : Host.Outcome State Fault Refusal :=
  onDev (fun d => d.keyFrame hd payload) s

/-- What came of the checks of a READ, READ_BLOCK or SUBSCRIBE. -/
inductive ReadGate where
  | stop (d : Dev)
  | pass (d : Dev) (se : Session) (r : ObjRow)

/-- The fence whose rights a read of an object needs (R49): the selected one, for its value, deadline and waits. -/
def Dev.readFence (d : Dev) (sid idx sub : Nat) : Option Nat :=
  if idx = 0x2040 ∧ ([2, 5, 6, 8] : List Nat).contains sub then some (d.selFence sid) else none

/-- The checks of an operation that reads an object (Table 2); `range` is its own step 13. -/
def Dev.readGate (d : Dev) (hd : Hdr) (op : Nat) (payload : Bytes) (idx sub : Nat) (range : Option Refuse := none) :
    ReadGate :=
  match d.admission hd op payload false with
  | .stop d => .stop d
  | .go d se =>
    let k := idx * 256 + sub
    let refuse (r : Refuse) : ReadGate :=
      .stop (d.complete se.id hd.tag op payload hd.seq { status := r.status, ver := d.ver k, detail := r.detail })
    match firstFault [d.objFault se idx sub false (d.readFence se.id idx sub), range, d.islandFault idx] with
    | some r => refuse r
    | none =>
      match objRow idx sub with
      | none => refuse { status := Sc.noObject }
      | some r => .pass d se r

/-- The payload of a SUBSCRIBE (Table 4). -/
def subscribePayload (idx sub mode interval : Nat) : Bytes := addrBytes idx sub ++ leBytes 1 mode ++ leBytes 2 interval

/-- Subscriptions of all sessions. -/
def Dev.subsCount (d : Dev) : Nat := (d.dict.sessions.map fun s => s.subs.length).sum

/-- SUBSCRIBE (R105): in mode 1 or 2, within 64 per session and 512 in all. -/
def execSubscribe (hd : Hdr) (idx sub : Nat) (mode interval : Nat) (s : State) : Host.Outcome State Fault Refusal :=
  onDev (fun d =>
    let payload := subscribePayload idx sub mode interval
    let bad := !(mode == 1 || mode == 2) || interval == 0 || decide (60000 < interval)
    match d.readGate hd Op.subscribe payload idx sub (if bad then some { status := Sc.outOfRange } else none) with
    | .stop d => d
    | .pass d se _ =>
      let k := idx * 256 + sub
      let answer (d : Dev) (st detail : Nat) : Dev :=
        d.complete se.id hd.tag Op.subscribe payload hd.seq { status := st, ver := d.ver k, detail := detail }
      if 64 ≤ se.subs.length then answer d Sc.subscriptionLimit 64
      else if 512 ≤ d.subsCount then answer d Sc.subscriptionLimit 512
      else
        let h := d.dict.nextHandle
        let d : Dev := { d with books := { d.books with watch := kvDel d.books.watch (watchKey se.id h) } }
        let d := d.onSession se.id fun s => { s with subs := s.subs ++
          [{ handle := h, key := k, mode := mode, interval := interval, changes := 0, sentAt := none, changedAt := d.now }] }
        answer { d with dict := { d.dict with nextHandle := h % 65535 + 1 } } Sc.ok h) s

/-- SUBSCRIBE_CANCEL (R105): mode 0 names the handle; one that names no subscription is refused (log 19). -/
def execSubscribeCancel (hd : Hdr) (idx sub : Nat) (handle : Nat) (s : State) : Host.Outcome State Fault Refusal :=
  onDev (fun d =>
    let payload := subscribePayload idx sub 0 0 ++ leBytes 2 handle
    match d.readGate hd Op.subscribe payload idx sub with
    | .stop d => d
    | .pass d se _ =>
      let k := idx * 256 + sub
      if se.subs.any fun x => x.handle == handle then
        let d := d.onSession se.id fun s => { s with subs := s.subs.filter fun x => x.handle != handle }
        d.complete se.id hd.tag Op.subscribe payload hd.seq { status := Sc.ok, ver := d.ver k, detail := handle }
      else d.complete se.id hd.tag Op.subscribe payload hd.seq { status := Sc.stateRefused, ver := d.ver k, detail := handle }) s

/-- The commit that an outstanding request of a session waits for. -/
def Dev.commitOf (d : Dev) (sid tag : Nat) : Option Commit := d.dict.commits.find? fun c => c.sid == sid && c.tag == tag

/-- A request that waits for its commit ends (R106): it is answered ABORTED, and its commit goes on unanswered, for what it
has written stands (log 20). -/
def Dev.abortCommit (d : Dev) (c : Commit) : Dev :=
  let cut (x : Commit) : Commit := if x.sid = c.sid ∧ x.tag = c.tag then { x with sid := 0 } else x
  ({ d with dict := { d.dict with commits := d.dict.commits.map cut } }).complete c.sid c.tag c.op c.payload c.seq
    { status := Sc.aborted, ver := c.ver }

/-- ABORT (R106): the outstanding request under the tag is answered ABORTED; a block write writes nothing. -/
def execAbort (hd : Hdr) (tag : Nat) (s : State) : Host.Outcome State Fault Refusal :=
  onDev (fun d =>
    let payload := leBytes 2 tag ++ leBytes 2 0
    match d.admission hd Op.abort payload false with
    | .stop d => d
    | .go d se =>
      let done (d : Dev) (n : Nat) : Dev := d.complete se.id hd.tag Op.abort payload hd.seq { status := Sc.ok, detail := n }
      match d.block se.id tag with
      | some b => done (d.failBlock b { status := Sc.aborted, ver := d.ver b.key }) 1
      | none => match d.commitOf se.id tag with
        | some c => done (d.abortCommit c) 1
        | none => done d 0) s

/-- RESULT_CACHE_EXPIRY (R101). -/
def execResultCacheExpiry (sid : Nat) (s : State) : Host.Outcome State Fault Refusal :=
  onDev (fun d => d.onSession sid fun s => { s with cache := d.freshCache s.cache }) s

/-- RESTORE_DEFAULTS (R416): recorded, and nothing changes until the next start. -/
def execRestoreDefaults (hd : Hdr) (cond : Option Nat) (v : Bytes) (s : State) : Host.Outcome State Fault Refusal :=
  onDev (fun d => d.writeReq {} hd cond 0x1001 1 v fun _ _ d => { d with dict := { d.dict with restore := true } }) s

/-- The CAN settings take effect (Table 10 of 04_dictionary). -/
def Dev.applyCan (d : Dev) (ctl : Nat) : Dev :=
  d.each ([Ob.canDeviceNode ctl, Ob.canNominalBitRate ctl, Ob.canDataBitRate ctl, Ob.canIdPrefix ctl,
    Ob.canAnnounceEnable ctl, Ob.canDelayCompensation ctl, Ob.canBusOffRecovery ctl] : List Nat)
    fun d k => d.set (canInForce k) (d.reg k)

/-- The session is on a CAN controller. -/
def Session.onCan (se : Session) (ctl : Nat) : Bool :=
  match se.carrier with
  | .can c _ => c == ctl
  | _ => false

/-- CAN_BUS_OFF (R107). -/
def execCanBusOff (ctl : Fin 2) (s : State) : Host.Outcome State Fault Refusal :=
  onDev (fun d =>
    if d.reg (Ob.canErrorState ctl) = 2 then d
    else ((d.set (Ob.canErrorState ctl) 2).endSessions .canBusOff fun se => se.onCan ctl).event
      { code := 0x2008, island := Isl.ctl, iface := 1, d1 := (ctl : Nat) }) s

/-- Restart of a CAN controller (R107, Table 10): its settings apply and its sessions end. -/
def Dev.restartCan (d : Dev) (ctl : Nat) : Dev := (d.applyCan ctl).set (Ob.canErrorState ctl) 0

/-- CAN_RESTART (R107): the writer is answered before its session ends. -/
def execCanRestart (hd : Hdr) (cond : Option Nat) (ctl : Fin 2) (s : State) : Host.Outcome State Fault Refusal :=
  onDev (fun d => match d.writeGate {} hd cond (0x1210 + ctl) 9 [1] with
    | .stop d => d
    | .pass d se _ => ((d.restartCan ctl).finishWrite hd cond (0x1210 + ctl) 9 [1] se).endSessions .canRestart
        fun se => se.onCan ctl) s

/-- CAN_BUS_OFF_RECOVERY (R107). -/
def execCanBusOffRecovery (ctl : Fin 2) (s : State) : Host.Outcome State Fault Refusal :=
  onDev (fun d =>
    if d.reg (Ob.canErrorState ctl) = 2 && d.reg (canInForce (Ob.canBusOffRecovery ctl)) == 0 then
      d.set (Ob.canErrorState ctl) 0
    else d) s

end Sys2Proof.Machine
end

