-- ==== Sys2Proof/Machine/Startup.lean ====
section
/-! DEFINITION. Supply, start-up phases, the firmware banks, contracts and outcome, discovery and update (05_start_up
R113-R134, 19_power_dies R387-R391). SERVICE_READY is in `Streams.lean`, the live update in `Power.lean`. -/
namespace Sys2Proof.Machine

/-- VIN beyond its absolute maximum of 20 V (20_electrical R400): the spec says that it may damage the device and implies
no operation there. -/
def overstress (mv : Nat) : Bool := decide (20000 < mv)

/-- A command at a supply voltage. -/
def onSupply (mv : Nat) (f : Dev → Dev) (s : State) : Host.Outcome State Fault Refusal :=
  if overstress mv then .fault .absoluteMaximum else onDev f s

/-- VIN_ABOVE_3V (R115): SAFE_A and SAFE_B safe, DACs at zero current, PWM low. -/
def execVinAbove3v (mv : Nat) (s : State) : Host.Outcome State Fault Refusal :=
  onSupply mv (fun d =>
    if d.pins.vin = 0 then ((d.onPins fun p => { p with vin := 1 }).safeOff.allAnalogZero).setN Ob.vinNow (Nat.min mv 65535)
    else d) s

/-- VIN_VALID (R114, R116): start-up leaves OFF for SUPPLY, and the VIO outputs come up. BootCause is 4 after a brownout,
else 0. While a thermal trip holds the device, start-up waits for it (19_power_dies R386). -/
def execVinValid (mv : Nat) (s : State) : Host.Outcome State Fault Refusal :=
  onSupply mv (fun d =>
    if d.nat Ob.bootPhase = 0 && d.pins.vin != 2 then
      let d := (d.onPins fun p => { p with vin := 2, vio18 := 1, vio33 := 1 }).setN Ob.vinNow (Nat.min mv 65535)
      let d := d.set Ob.bootCause (if d.reg Ob.bootCause = 4 then 4 else 0)
      if d.pow.tripped then d else d.set Ob.bootPhase 1
    else d) s

/-- BROWNOUT (R114, R118): from any phase, once VIN was valid, the safe outputs and analog safe values, then OFF. `mv` is the
lowest VIN; `slow` says that VIN stays above 7.0 V for 400 µs, so that 0x8010 reaches the mirror. A thermal trip holds on. -/
def execBrownout (mv : Nat) (slow : Bool) (s : State) : Host.Outcome State Fault Refusal :=
  onDev (fun d =>
    if d.pins.vin ≠ 2 then d
    else
      let d := d.safeOff.allAnalogSafe
      let d := d.when slow fun d => d.event { code := 0x8010, d1 := mv, mirror := true }
      let tripped := d.pow.tripped
      let d := (d.fullReset 0 4).setN Ob.vinNow (Nat.min mv 65535)
      let d := d.onPins fun p => { p with vin := if 3000 < mv then 1 else 0, vio18 := 0, vio33 := 0, perst := false }
      { d with pow := { d.pow with tripped := tripped } }) s

/-- The state of a VIO output, 0 VIO18_OUT, 1 VIO33_OUT. -/
def Pins.vio (p : Pins) (out : Nat) : Nat := if out = 0 then p.vio18 else p.vio33

/-- A VIO output enters a state. -/
def Dev.setVio (d : Dev) (out v : Nat) : Dev := d.onPins fun p => if out = 0 then { p with vio18 := v } else { p with vio33 := v }

/-- VIO_OVERCURRENT (R116). -/
def execVioOvercurrent (out : Fin 2) (s : State) : Host.Outcome State Fault Refusal :=
  onDev (fun d => if d.pins.vio out = 1 then d.setVio out 2 else d) s

/-- VIO_LIMIT_TIMEOUT (R116). -/
def execVioLimitTimeout (out : Fin 2) (s : State) : Host.Outcome State Fault Refusal :=
  onDev (fun d => if d.pins.vio out = 2 then (d.setVio out 3).event { code := 0x8011, d1 := (out : Nat) } else d) s

/-- VIO_RETRY (R116). -/
def execVioRetry (out : Fin 2) (s : State) : Host.Outcome State Fault Refusal :=
  onDev (fun d => if d.pins.vio out = 3 then d.setVio out 1 else d) s

/-- SYS_RESET (R117). -/
def execSysReset (s : State) : Host.Outcome State Fault Refusal :=
  onDev (fun d => if d.nat Ob.bootPhase = 0 then d else d.plainRestart 1) s

/-- DEVICE_RESTART (R117): answered, then a full reset. -/
def execDeviceRestart (hd : Hdr) (cond : Option Nat) (v : Bytes) (s : State) : Host.Outcome State Fault Refusal :=
  onDev (fun d => match d.writeGate {} hd cond 0x7000 8 v with
    | .stop d => d
    | .pass d se _ => (d.finishWrite hd cond 0x7000 8 v se).plainRestart 2) s

/-- The safe-value record at its defaults (R416). -/
def Dev.defaultSafeRecord (d : Dev) : Dev :=
  { d with flash := d.flash.filter fun c => (safeChannel c.1).isNone }

/-- SAFE_VALUES_APPLIED (R119, R405): the straps are read and the record is applied, or found invalid with 0x9010
and the pins at zero current and low. A recorded RestoreDefaults rewrites the record first. BootCount counts this start (log 22). -/
def execSafeValuesApplied (straps : Nat) (crcOk : Bool) (s : State) : Host.Outcome State Fault Refusal :=
  onDev (fun d =>
    if d.nat Ob.bootPhase = 1 then
      let ok := crcOk || d.dict.restore
      let d := d.when d.dict.restore Dev.defaultSafeRecord
      let d := (d.onPins fun p => { p with vsel := straps % 16, safeApplied := true }).setB Ob.safeRecordValid ok
      let d := (d.bump Ob.bootCount).set Ob.bootPhase 2
      if ok then d.allAnalogSafe else d.allAnalogZero.event { code := 0x9010 }
    else d) s

/-- `len` bytes at `off`. -/
def slice (bs : Bytes) (off len : Nat) : Bytes := (bs.drop off).take len

/-- What a bank holds: what an update wrote, or what the factory left (log 21). -/
def Dev.bank (d : Dev) (b : Nat) : Bytes :=
  match kvGet d.banks b with
  | some bs => bs
  | none => Config.factoryBank b

/-- Manifest `i` of a bundle (Tables 4 and 5). -/
def manifest (bk : Bytes) (i : Nat) : Bytes := slice bk (leAt bk 24 4 + 128 * i) 128

/-- The manifest of an image kind. -/
def manifestOf (bk : Bytes) (kind : Nat) : Option Bytes :=
  ((List.range 5).map (manifest bk)).find? fun m => leAt m 5 1 == kind

/-- The tested-pairs table. -/
def pairsTable (bk : Bytes) : Bytes := slice bk (leAt bk 20 4) (16 * leAt bk 18 2)

/-- The signed message (R124): the header with its signature zeroed, the tested-pairs table, the manifests. -/
def signedMessage (bk : Bytes) : Bytes :=
  slice bk 0 92 ++ List.replicate 64 0 ++ slice bk 156 100 ++ pairsTable bk ++ slice bk (leAt bk 24 4) 640

/-- A manifest's magic, version and CRC are correct. -/
def manifestOk (m : Bytes) : Bool :=
  leAt m 0 4 == 0x4D464E55 && leAt m 4 1 == 1 && leAt m 124 4 == crc32c (m.take 124)

/-- An image's SHA-256 equals its manifest's. -/
def imageOk (bk m : Bytes) : Bool :=
  decide (sha256 (slice bk (leAt m 12 4) (leAt m 16 4)) = slice m 20 32)

/-- The first check of R124 that a bank fails, as its BankFallbackCause code; 0 where it passes. -/
def Dev.bankFault (d : Dev) (bk : Bytes) : Nat :=
  let slot := leAt bk 5 1
  if bk = [] ∨ leAt bk 0 4 = 0xFFFFFFFF then 8
  else if !(leAt bk 0 4 == 0x4C424E55 && leAt bk 4 1 == 1 && leAt bk 252 4 == crc32c (bk.take 252)) then 7
  else if !(decide (slot < 4) && bit (d.nat Ob.keySlotState) slot && !bit (d.nat Ob.keySlotState) (slot + 4)
      && decide (sha256 (slice bk 28 64) = Config.otpKeyHash slot)) then 2
  else if !ecdsaOk (slice bk 28 64) (signedMessage bk) (slice bk 92 64) then 1
  else if leAt bk 6 2 < d.nat Ob.securityVersionFloor then 3
  else if !((List.range 5).all fun i => manifestOk (manifest bk i)) then 9
  else if !((List.range 5).all fun i => imageOk bk (manifest bk i)) then 4
  else 0

/-- The boot patch in embedded flash, its manifest and image, where its manifest and hash verify (R125). -/
def patchOk : Bool :=
  let m := Config.bootPatch.take 128
  manifestOk m && leAt m 5 1 == 1 && decide (sha256 ((Config.bootPatch.drop 128).take (leAt m 16 4)) = slice m 20 32)

/-- The major an image lists for a partner kind. -/
def majorFor (m : Bytes) (partner : Nat) : Option Nat :=
  ((List.range (Nat.min 8 (leAt m 58 1))).find? fun j => leAt m (60 + 4 * j) 1 == partner).map fun j => leAt m (61 + 4 * j) 1

/-- The two partners of a pair (Table 6): image kinds, or 0x10 for the I/O die and 0x11 for a compute die. -/
def pairKinds (n : Nat) : Nat × Nat :=
  if n ≤ 4 then (n, 0x10) else if n = 5 then (2, 3) else if n = 6 then (2, 4) else if n = 7 then (2, 5) else (5, 0x11)

/-- The majors of an image pair agree (R126). -/
def imagesAgree (bk : Bytes) (a b : Nat) : Bool :=
  match manifestOf bk a, manifestOf bk b with
  | some ma, some mb => (majorFor ma b).isSome && decide (majorFor ma b = majorFor mb a)
  | _, _ => false

/-- An image's major for a die kind is the die's generation (R126). -/
def dieAgrees (bk : Bytes) (kind dieKind gen : Nat) : Bool :=
  match manifestOf bk kind with
  | some m => decide (majorFor m dieKind = some gen)
  | none => false

/-- The majors of pair 1-7 agree. -/
def Dev.pairAgrees (d : Dev) (bk : Bytes) (n : Nat) : Bool :=
  if n ≤ 4 then dieAgrees bk n 0x10 (d.nat Ob.ioDieGeneration) else imagesAgree bk (pairKinds n).1 (pairKinds n).2

/-- Generation and stepping of a compute die, from its descriptor (19_power_dies Table 4). -/
def Dev.dieGen (d : Dev) (die : Nat) : Nat := leAt (d.blob (Ob.dieDescriptor (die + 1))) 6 1 / 16

/-- The stepping code of a compute die. -/
def Dev.dieStep (d : Dev) (die : Nat) : Nat := leAt (d.blob (Ob.dieDescriptor (die + 1))) 6 1 % 16

/-- The compute dies in use. -/
def Dev.dies (d : Dev) : List Nat := setBits (d.nat Ob.computeDiesInUse) 4

/-- The pairs whose majors differ, of 1-7 and, with the dies in use, of pair 8 (R126). -/
def Dev.majorsFault (d : Dev) (bk : Bytes) (with8 : Bool) : List Nat :=
  (((List.range 7).map fun n => n + 1).filter fun n => !d.pairAgrees bk n)
    ++ (if with8 && !(d.dies.all fun die => dieAgrees bk 5 0x11 (d.dieGen die)) then [8] else [])

/-- The version of an image (R127). -/
def imageVersion (bk : Bytes) (kind : Nat) : Nat := ((manifestOf bk kind).map fun m => leAt m 8 4).getD 0

/-- An entry of the tested-pairs table names the two partners at these versions, in either order (R127). -/
def testedEntry (bk : Bytes) (ka va kb vb : Nat) : Bool :=
  (List.range (leAt bk 18 2)).any fun i =>
    let e := slice bk (leAt bk 20 4 + 16 * i) 16
    let x := (leAt e 0 1, leAt e 4 4, leAt e 1 1, leAt e 8 4)
    decide (x = (ka, va, kb, vb)) || decide (x = (kb, vb, ka, va))

/-- Pair `n` is tested (R127). -/
def Dev.pairTested (d : Dev) (bk : Bytes) (n : Nat) : Bool :=
  let (a, b) := pairKinds n
  if n ≤ 4 then testedEntry bk a (imageVersion bk a) b (d.nat Ob.ioDieStepping)
  else if n ≤ 7 then testedEntry bk a (imageVersion bk a) b (imageVersion bk b)
  else d.dies.all fun die => testedEntry bk a (imageVersion bk a) b (d.dieStep die)

/-- The untested pairs, bit n - 1 for pair n. -/
def Dev.untested (d : Dev) (bk : Bytes) : Nat :=
  ((List.range 8).map fun i => if d.pairTested bk (i + 1) then 0 else 2 ^ i).sum

/-- An object is kept by RestoreDefaults (R416): owners, queue ranges, window and scene owners. -/
def keptByRestore (k : Nat) : Bool :=
  let idx := k / 256 % 65536
  let sub := k % 256
  decide (0x1120 ≤ idx ∧ idx ≤ 0x112A) || (decide (0x1100 ≤ idx ∧ idx ≤ 0x1107) && (sub == 7 || sub == 8))
    || (decide (0x5A40 ≤ idx ∧ idx ≤ 0x5A7F) && sub == Ob.winOwner 0 % 256)
    || (decide (0x2240 ≤ idx ∧ idx ≤ 0x227F))

/-- A recorded RestoreDefaults takes effect on the stored values (R416). -/
def Dev.applyRestore (d : Dev) : Dev :=
  if d.dict.restore then
    { d with flash := d.flash.filter (fun c => keptByRestore c.1),
             flashBlobs := d.flashBlobs.filter (fun c => decide (0x1100 ≤ c.1 / 256 ∧ c.1 / 256 ≤ 0x1107) || keptByRestore c.1),
             dict := { d.dict with restore := false } }
  else d

/-- A DRAM window that lies outside the host area is disabled for this start (19_power_dies R391). -/
def Dev.checkWindow (d : Dev) (p w : Nat) : Dev :=
  let k := Ob.partWindowKind p w
  let base := d.nat (Ob.partWindowBase p w)
  let lo := d.nat Ob.hostAreaBase
  if d.nat k % 4 = 2 ∧ ¬ (lo ≤ base ∧ base + d.nat (Ob.partWindowLength p w) ≤ lo + d.nat Ob.hostAreaSize) then
    (d.setN k (d.nat k / 4 * 4)).event { code := 0x8033, d1 := p, d2 := w }
  else d

/-- Persisted objects take their committed values (R118, phase SERVICE; in MAINTENANCE too, log 23). -/
def Dev.restorePersisted (d : Dev) : Dev :=
  let d := d.applyRestore
  let d := d.each d.flash fun d c => d.set c.1 c.2
  let d := d.each d.flashBlobs fun d c => d.setBlob c.1 c.2
  d.each (List.range 8) fun d p => d.each (List.range 4) fun d w => d.checkWindow p w

/-- BankFallbackCause of a bank at this start, 0 where it was not left. -/
def Dev.leftFor (d : Dev) (b : Nat) : Nat := ((d.boot.leftCause.find? fun e => e.1 == b).map fun e => e.2).getD 0

/-- `f` applied to the boot. -/
def Dev.onBoot (d : Dev) (f : Boot → Boot) : Dev := { d with boot := f d.boot }

/-- Start-up enters a phase (R118, R120). -/
def Dev.toPhase (d : Dev) (ph : Int) : Dev := (d.onBoot fun b => { b with phaseAt := d.ext }).set Ob.bootPhase ph

/-- MAINTENANCE (R128, R130): Ethernet ports stay down, and the CAN controllers serve with their stored settings. -/
def Dev.toMaintenance (d : Dev) (cause : Nat) : Dev :=
  let d := ((d.toPhase 9).setN Ob.maintenanceCause cause).set Ob.outcome 2
  let d := (d.set Ob.activeBank 0xFF).when (cause == 3) fun d => d.set Ob.bankFallbackCause 0
  let d := d.safeOff.allAnalogSafe.restorePersisted
  let d := (((d.set (Ob.ethLinkState 0) 0).set (Ob.ethLinkState 1) 0).applyCan 0).applyCan 1
  d.event { code := 0x9005, d1 := cause, d2 := d.leftFor 0, d3 := d.leftFor 1 }

/-- TrialBootLimit as flash holds it. -/
def Dev.trialLimit (d : Dev) : Nat := (d.flashVal Ob.trialBootLimit).toNat

/-- A bank is left for a check (R125): 0x9001, and MAINTENANCE once both are. A trial that reached the limit of attempts
is reverted (R133). -/
def Dev.leaveBank (d : Dev) (b cause : Nat) : Dev :=
  let d := d.onBoot fun x => { x with tried := b :: x.tried, leftCause := (b, cause) :: x.leftCause }
  let d := (d.setN Ob.bankFallbackCause cause).event { code := 0x9001, d1 := b, d2 := cause }
  let d := d.set (Ob.bankState b) (if cause = 8 then 0 else if cause = 6 then 1 else 2)
  let d := d.when (cause == 6 && decide (d.boot.trial = some b)) fun d =>
    (d.onBoot fun x => { x with trial := none }).event { code := 0x9006, d1 := b }
  if d.boot.tried.contains 0 && d.boot.tried.contains 1 then
    d.toMaintenance (if d.leftFor 0 = 6 ∧ d.leftFor 1 = 6 then 2 else 1)
  else d.toPhase 3

/-- The bank the ROM tries next (R125): the one on trial or the current one first, then the other. -/
def Dev.nextBank (d : Dev) : Nat :=
  let first := d.boot.trial.getD d.boot.current
  if d.boot.tried.contains first then 1 - first else first

/-- What a bank's header and manifests say goes into its objects. -/
def Dev.showBank (d : Dev) (b : Nat) : Dev :=
  let bk := d.bank b
  let d := (d.setN (Ob.bankBundleVersion b) (leAt bk 8 4)).setN (Ob.bankSecurityVersion b) (leAt bk 6 2)
  d.each (List.range 5) fun d i => d.setN (Ob.bankImageVersion b i) (imageVersion bk (i + 1))

/-- The bank that is not tried is judged too (R124): what its checks say of it at this start goes into its objects. -/
def Dev.judgeOther (d : Dev) (b : Nat) : Dev :=
  if d.boot.tried.contains b then d
  else
    let c := d.bankFault (d.bank b)
    (d.when (c != 8 && c != 7) fun d => d.showBank b).set (Ob.bankState b) (if c = 0 then 1 else if c = 8 then 0 else 2)

/-- BUNDLE_VERIFIED (R120, R124, R125): the boot patch is applied where its hash verifies; then the next bank is verified, or
left. -/
def execBundleVerified (s : State) : Host.Outcome State Fault Refusal :=
  onDev (fun d =>
    if d.nat Ob.bootPhase = 3 then
      let d := d.onBoot fun x => { x with patched := patchOk }
      let b := d.nextBank
      if d.trialLimit ≤ d.nat (Ob.bankTrialAttempts b) then d.leaveBank b 6
      else
        let c := d.bankFault (d.bank b)
        if c ≠ 0 then d.leaveBank b c
        else
          let d := (d.showBank b).setN Ob.activeBank b
          let d := d.set (Ob.bankState b) (if d.boot.trial = some b then 3 else 4)
          ((d.judgeOther (1 - b)).setN Ob.bootAttempts (d.nat (Ob.bankTrialAttempts b))).toPhase 4
    else d) s

/-- MANIFEST_CHECK (R126): pairs 1-7 of the chosen bank. -/
def execManifestCheck (s : State) : Host.Outcome State Fault Refusal :=
  onDev (fun d =>
    if d.nat Ob.bootPhase = 4 then
      let b := d.nat Ob.activeBank
      match d.majorsFault (d.bank b) false with
      | [] => d.toPhase 5
      | bad => (d.each bad fun d n => (d.set (Ob.pairStatus (n - 1)) 2).event { code := 0x9003, d1 := n }).leaveBank b 5
    else d) s

/-- BOOT_WATCHDOG_EXPIRY (R120): 1 s into a phase, a failed attempt against the bank in use, then a full reset. -/
def execBootWatchdogExpiry (s : State) : Host.Outcome State Fault Refusal :=
  onDev (fun d =>
    let ph := d.nat Ob.bootPhase
    if 3 ≤ ph ∧ ph ≤ 7 ∧ 1000000000 ≤ d.ago d.boot.phaseAt then
      let b := if ph = 3 then d.nextBank else d.nat Ob.activeBank
      let d := d.event { code := 0x9002, d1 := ph }
      (d.setN (Ob.bankTrialAttempts b) (Nat.min 7 (d.nat (Ob.bankTrialAttempts b) + 1))).plainRestart 5
    else d) s

/-- The I/O die's own capability mask: every feature of Table 5 (log 24). -/
def ioMask : Nat := 0xFF

/-- The capability mask in a die's descriptor. -/
def Dev.dieMask (d : Dev) (die : Nat) : Nat := leAt (d.blob (Ob.dieDescriptor (die + 1))) 16 8

/-- CapabilityMask is the intersection over the dies in use (R389). -/
def Dev.refreshMask (d : Dev) : Dev := d.setN Ob.capabilityMask (d.dies.foldl (fun m die => m &&& d.dieMask die) ioMask)

/-- The engines of a die that are present: not fused off and not failing. -/
def Dev.dieEngines (d : Dev) (die : Nat) : List Nat :=
  ((List.range 2).filter fun e => !bit (d.nat (Ob.dieAbsentEngines (die + 1))) e).map fun e => 2 * die + e

/-- The effective counts follow the dies in use (19_power_dies R389, R390, R392). EngineBudget stays within them. -/
def Dev.refreshDies (d : Dev) : Dev :=
  let es := d.dies.flatMap d.dieEngines
  let d := (d.setN Ob.diesInUseCount d.dies.length).setN Ob.enginesInUseCount es.length
  let d := d.setN Ob.enginesInUse ((es.map fun e => 2 ^ e).sum)
  let d := d.setN Ob.deckTotal (48 * d.dies.length)
  d.setN Ob.engineBudget (Nat.min (d.nat Ob.engineBudget) es.length)

/-- The fitted compute die that ring link `j` joins to die `j`: the next one fitted, in cyclic order (01_console_model Table 1,
log 150). None where the link is not fitted. -/
def Dev.ringEnd (d : Dev) (j : Nat) : Option Nat :=
  let m := d.nat Ob.computeDiesFitted
  if !bit m j then none
  else match ((List.range 3).map fun i => (j + 1 + i) % 4).find? fun k => bit m k with
    | some k => if (setBits m 4).length = 2 ∧ k < j then none else some k
    | none => none

/-- Ring link `j` goes up or down (R13). -/
def Dev.setRing (d : Dev) (j : Nat) (up : Bool) : Dev :=
  d.set (Ob.ringLinkState j) (if (d.ringEnd j).isNone then 2 else if up then 1 else 0)

/-- The ring links of a die. -/
def Dev.ringsOf (d : Dev) (die : Nat) : List Nat :=
  (List.range 4).filter fun j => (d.ringEnd j).isSome && (j == die || d.ringEnd j == some die)

/-- The ring links of a die whose both ends are in use are trained, and up (19_power_dies R387). -/
def Dev.trainRings (d : Dev) (die : Nat) : Dev :=
  d.each ((d.ringsOf die).filter fun j => d.dies.contains j && d.dies.contains ((d.ringEnd j).getD 4)) fun d j => d.setRing j true

/-- A compute die leaves use (R388, R390): its islands read ABSENT, its links are down, with 0x8030. -/
def Dev.loseDie (d : Dev) (die cause : Nat) : Dev :=
  let m := d.nat Ob.computeDiesInUse
  let d := (d.setN Ob.computeDiesInUse (if bit m die then m - 2 ^ die else m)).setN (Ob.dieDropCause (die + 1)) cause
  let d := (d.set (Ob.dieStatus (die + 1)) 2).set (Ob.dieLinkState die) 0
  let d := (d.set (Ob.islState (17 + die)) 6).set (Ob.islState (21 + die)) 6
  let d := d.each (d.ringsOf die) fun d j => d.setRing j false
  d.refreshDies.event { code := 0x8030, d1 := die, d2 := cause }

/-- A die is being discovered: phase DISCOVERY, fitted and not yet decided. -/
def Dev.discovering (d : Dev) (die : Nat) : Bool :=
  d.nat Ob.bootPhase == 5 && bit (d.nat Ob.computeDiesFitted) die && d.reg (Ob.dieStatus (die + 1)) == 0

/-- DIE_LINK_TRAINED (R387). -/
def execDieLinkTrained (die : Fin 4) (s : State) : Host.Outcome State Fault Refusal :=
  onDev (fun d => if d.discovering die then d.set (Ob.dieLinkState die) 1 else d) s

/-- The check a compute die's descriptor fails (R388), as its DropCause; 0 where it passes. -/
def Dev.descFault (d : Dev) (desc : Bytes) : Nat :=
  if !(desc.length == 48 && leAt desc 0 4 == 0x53444E55 && leAt desc 4 1 == 1 && leAt desc 44 4 == crc32c (desc.take 44)) then 2
  else if !(leAt desc 5 1 == 2 && leAt desc 12 4 == 49152) then 3
  else if !dieAgrees (d.bank (d.nat Ob.activeBank)) 5 0x11 (leAt desc 6 1 / 16) then 4
  else if !bit (leAt desc 16 8) 3 then 5
  else 0

/-- DIE_DESCRIPTOR_RECEIVED (R388): the die's link is up; a descriptor that fails a check drops it. -/
def execDieDescriptorReceived (die : Fin 4) (desc : Bytes) (s : State) : Host.Outcome State Fault Refusal :=
  onDev (fun d =>
    if d.discovering die && d.reg (Ob.dieLinkState die) == 1 then
      let c := d.descFault desc
      if c ≠ 0 then d.loseDie die c
      else (d.setBlob (Ob.dieDescriptor ((die : Nat) + 1)) desc).setN (Ob.dieAbsentEngines ((die : Nat) + 1)) (leAt desc 9 1 % 4)
    else d) s

/-- DIE_START_TEST_DONE (R388): `failed` is the mask of engines that fail; a deck that fails, or no engine left, drops the
die. -/
def execDieStartTestDone (die : Fin 4) (deckOk : Bool) (failed : Nat) (s : State) : Host.Outcome State Fault Refusal :=
  onDev (fun d =>
    if d.discovering die && decide (d.blob (Ob.dieDescriptor ((die : Nat) + 1)) ≠ []) then
      let gone := (d.nat (Ob.dieAbsentEngines ((die : Nat) + 1)) ||| (failed % 4))
      let d := d.setN (Ob.dieAbsentEngines ((die : Nat) + 1)) gone
      if !deckOk then d.loseDie die 6
      else if gone = 3 then d.loseDie die 7
      else
        let d := (d.set (Ob.dieStatus ((die : Nat) + 1)) 1).setN Ob.computeDiesInUse
          (d.nat Ob.computeDiesInUse ||| 2 ^ (die : Nat))
        let n := d.nat Ob.engineBudget + (d.dieEngines die).length
        ((d.setN Ob.engineBudget n).refreshDies).trainRings die
    else d) s

/-- DIE_DISCOVERY_TIMEOUT (R388): the step the die missed gives the cause: its link, its descriptor, its start test
(log 25). -/
def execDieDiscoveryTimeout (die : Fin 4) (s : State) : Host.Outcome State Fault Refusal :=
  onDev (fun d =>
    if d.discovering die then
      d.loseDie die (if d.reg (Ob.dieLinkState die) = 0 then 1
        else if d.blob (Ob.dieDescriptor ((die : Nat) + 1)) = [] then 2 else 6)
    else d) s

/-- DRAM_CHANNEL_TRAINED (R391): each is trained and tested once; one that fails takes 4 GiB, its bandwidth and 4 GiB of the host area with it. -/
def execDramChannelTrained (ch : Fin 8) (ok : Bool) (s : State) : Host.Outcome State Fault Refusal :=
  onDev (fun d =>
    if d.nat Ob.bootPhase ≠ 5 || bit d.boot.dramTested ch then d
    else
      let d := d.onBoot fun b => { b with dramTested := b.dramTested ||| 2 ^ (ch : Nat) }
      if ok then d else
      let d := (d.set (Ob.dramChannelState ch) 1).setN Ob.dramChannelsInUse (d.nat Ob.dramChannelsInUse - 2 ^ (ch : Nat))
      let d := (d.setN Ob.dramCapacity (d.nat Ob.dramCapacity - 4294967296)).setN Ob.dramBandwidth (d.nat Ob.dramBandwidth - 34133)
      let d := d.setN Ob.hostAreaSize (d.nat Ob.hostAreaSize - 4294967296)
      d.event { code := 0x8031, d1 := (ch : Nat) }) s

/-- Dropped DRAM channels. -/
def Dev.droppedChannels (d : Dev) : Nat := ((List.range 8).filter fun c => d.reg (Ob.dramChannelState c) == 1).length

/-- Provisional (R129): the safety channels run Fallback, 0x9004 in the mirror, ProvisionalCount. -/
def Dev.provisional (d : Dev) : Dev :=
  let d := (d.setB Ob.provisionalActive true).bump Ob.provisionalCount
  d.event { code := 0x9004, d1 := d.reg Ob.untestedPairs, mirror := true }

/-- DISCOVERY_DONE (R128, R391): the outcome is fixed. It waits for every fitted die to be in use or dropped,
and for every DRAM channel to be trained and tested. -/
def execDiscoveryDone (s : State) : Host.Outcome State Fault Refusal :=
  onDev (fun d =>
    if d.nat Ob.bootPhase ≠ 5 || (List.range 4).any d.discovering || d.boot.dramTested != 0xFF then d
    else
      let bk := d.bank (d.nat Ob.activeBank)
      let d := d.each (List.range 4) fun d die =>
        let d := d.when (d.ringEnd die).isNone fun d => d.set (Ob.ringLinkState die) 2
        if d.dies.contains die then d else (d.set (Ob.islState (17 + die)) 6).set (Ob.islState (21 + die)) 6
      let d := d.refreshMask
      let d := d.each (List.range 8) fun d i =>
        d.set (Ob.pairStatus i) (if i = 7 ∧ d.dies = [] then 3 else if d.pairTested bk (i + 1) then 0 else 1)
      let d := d.refreshDies.setN Ob.untestedPairs (d.untested bk)
      if 4 ≤ d.droppedChannels then d.toMaintenance 3
      else if d.nat Ob.untestedPairs = 0 then (d.set Ob.outcome 0).toPhase 6
      else ((d.set Ob.outcome 1).toPhase 6).provisional) s

/-- START_WINDOW_END (R136): 1,000 ms after ServiceReady. -/
def execStartWindowEnd (s : State) : Host.Outcome State Fault Refusal :=
  onDev (fun d =>
    if d.startWindow && decide (1000000000 ≤ d.ago (d.extAt (d.nat Ob.serviceReadyStamp))) then { d with startWindow := false }
    else d) s

/-- The bank an update writes (R131): the one not in use; from the ROM service the one not current (log 26). -/
def Dev.inactiveBank (d : Dev) : Nat :=
  if d.nat Ob.activeBank = 0 then 1 else if d.nat Ob.activeBank = 1 then 0 else 1 - d.boot.current

/-- A write of the update by a partition restarts the 60 s of its claim (R131). -/
def Dev.updateWrite (d : Dev) : Dev := d.onBoot fun b => { b with updateAt := d.ext }

/-- The claim ends. -/
def Dev.endClaim (d : Dev) : Dev := d.set Ob.updateOwner 0xFF

/-- UpdateOffset claims the update for the writing partition (R131). -/
def Dev.offsetWritten (d : Dev) (part : Nat) : Dev :=
  d.updateWrite.when (d.nat Ob.updateOwner == 0xFF) fun d => d.setN Ob.updateOwner part

/-- UPDATE_OFFSET_WRITE (R131). -/
def execUpdateOffsetWrite (hd : Hdr) (cond : Option Nat) (v : Bytes) (s : State) : Host.Outcome State Fault Refusal :=
  onDev (fun d => d.writeStore {} hd cond 0x7010 1 v fun se _ d => d.offsetWritten se.part) s

/-- UPDATE_LENGTH_WRITE (R132). -/
def execUpdateLengthWrite (hd : Hdr) (cond : Option Nat) (v : Bytes) (s : State) : Host.Outcome State Fault Refusal :=
  onDev (fun d => d.writeStore {} hd cond 0x7010 3 v fun _ _ d => d.updateWrite) s

/-- Bytes written over a bank from an offset; what lies between reads as erased flash. -/
def bankWrite (bk : Bytes) (off : Nat) (data : Bytes) : Bytes :=
  (bk ++ List.replicate (off - bk.length) 0xFF).take off ++ data ++ bk.drop (off + data.length)

/-- The block write of UpdateChunk (R131, R132). -/
def chunkObj : BlockObj :=
  { range := fun d _ data => needRange (decide (d.nat Ob.updateOffset + data.length ≤ d.nat Ob.updateLength)),
    state := fun d _ _ => needState d.boot.trial.isNone,
    eff := fun _ data d =>
      let b := d.inactiveBank
      let off := d.nat Ob.updateOffset
      let bk := if off = 0 then [] else d.bank b
      let d := { d.updateWrite with banks := kvPut d.banks b (bankWrite bk off data) }
      (d.set Ob.updateState 1).set (Ob.bankState b) 2 }

/-- UPDATE_CHUNK (R132). -/
def execUpdateChunk (hd : Hdr) (payload : Bytes) (s : State) : Host.Outcome State Fault Refusal :=
  onDev (fun d => d.blockFrame (fun _ => chunkObj) hd payload) s

/-- UpdateVerify (R132): R124 and R126 on the inactive bank, then R127's prediction. -/
def Dev.verifyUpdate (d : Dev) : Dev :=
  let d := (d.updateWrite).onBoot fun b => { b with consent := false }
  let bk := d.bank d.inactiveBank
  let c := d.bankFault bk
  let c := if c = 0 ∧ d.majorsFault bk true ≠ [] then 5 else c
  let pred : Int := if c ≠ 0 then 2 else if d.untested bk = 0 then 0 else 1
  let d := ((d.setN Ob.updateError c).set Ob.updatePredicted pred).set Ob.updateState (if c = 0 then 3 else 4)
  let d := d.set (Ob.bankState d.inactiveBank) (if c = 0 then 1 else if c = 8 then 0 else 2)
  (d.when (c == 0) fun d => d.showBank d.inactiveBank).event { code := 0x9007, d1 := pred }

/-- UPDATE_VERIFY (R132). -/
def execUpdateVerify (hd : Hdr) (cond : Option Nat) (s : State) : Host.Outcome State Fault Refusal :=
  onDev (fun d => d.writeReq {} hd cond 0x7010 4 [1] fun _ _ d => d.verifyUpdate) s

/-- PROVISIONAL_CONSENT (R132). -/
def execProvisionalConsent (hd : Hdr) (cond : Option Nat) (s : State) : Host.Outcome State Fault Refusal :=
  onDev (fun d => d.writeReq {} hd cond 0x7010 8 [1] fun _ _ d => d.updateWrite.onBoot fun b => { b with consent := true }) s

/-- The images of both banks other than MIX and TEN are the same. -/
def Dev.sameCore (d : Dev) : Bool :=
  ([1, 2, 3] : List Nat).all fun k =>
    decide ((manifestOf (d.bank 0) k).map (fun m => slice m 20 32) = (manifestOf (d.bank 1) k).map fun m => slice m 20 32)

/-- Activation is admitted (R132; 19_power_dies Table 5 for mode 3). -/
def activateConds : Conds :=
  { state := fun d _ n => needState (
      d.reg Ob.updateState == 3 && d.reg Ob.updatePredicted != 2 && (d.reg Ob.updatePredicted != 1 || d.boot.consent)
        && (n != 3 || (d.sameCore && d.reg Ob.updatePredicted == 0 && bit (d.nat Ob.capabilityMask) 5))) }

/-- The verified bank becomes the trial bank, and the claim ends (R133). -/
def Dev.markTrial (d : Dev) : Dev :=
  let b := d.inactiveBank
  let d := (d.onBoot fun x => { x with trial := some b }).set (Ob.bankState b) 3
  ((d.set (Ob.bankTrialAttempts b) 0).set Ob.updateState 5).endClaim

/-- UPDATE_ACTIVATE_NEXT_START (R133). -/
def execUpdateActivateNextStart (hd : Hdr) (cond : Option Nat) (s : State) : Host.Outcome State Fault Refusal :=
  onDev (fun d => d.writeReq activateConds hd cond 0x7010 7 [1] fun _ _ d => d.markTrial) s

/-- UPDATE_ACTIVATE_NOW (R133): answered, then a full reset. -/
def execUpdateActivateNow (hd : Hdr) (cond : Option Nat) (s : State) : Host.Outcome State Fault Refusal :=
  onDev (fun d => match d.writeGate activateConds hd cond 0x7010 7 [2] with
    | .stop d => d
    | .pass d se _ => (d.markTrial.finishWrite hd cond 0x7010 7 [2] se).plainRestart 6) s

/-- The trial that runs is committed (R133). -/
def Dev.commitTrial (d : Dev) : Dev :=
  let b := d.nat Ob.activeBank
  let d := d.onBoot fun x => { x with current := b, trial := none, trialRunning := false }
  ((d.set (Ob.bankState b) 4).set (Ob.bankState (1 - b)) 1).event { code := 0x9008, d1 := b }

/-- CommitTimeout has passed since ServiceReady (R133). -/
def Dev.commitLate (d : Dev) : Bool :=
  decide (d.nat Ob.commitTimeout * 1000000000 ≤ d.ago (d.extAt (d.nat Ob.serviceReadyStamp)))

/-- The condition of UpdateCommit (R133): a trial runs, within its CommitTimeout. -/
def commitConds : Conds := { state := fun d _ _ => needState (d.ready && d.boot.trialRunning && !d.commitLate) }

/-- UPDATE_COMMIT (R133). -/
def execUpdateCommit (hd : Hdr) (cond : Option Nat) (s : State) : Host.Outcome State Fault Refusal :=
  onDev (fun d => d.writeReq commitConds hd cond 0x7010 9 [1] fun _ _ d => d.commitTrial) s

/-- UpdateAbort (R131): the claim ends and the inactive bank is left invalid, its magic overwritten (log 26). -/
def Dev.abortUpdate (d : Dev) : Dev :=
  if d.nat Ob.updateOwner = 0xFF then d
  else
    let b := d.inactiveBank
    let d := { d with banks := kvPut d.banks b (bankWrite (d.bank b) 0 [0, 0, 0, 0]) }
    ((d.set (Ob.bankState b) 2).set Ob.updateState 0).endClaim

/-- The condition of UpdateAbort (R131): no write reaches the inactive bank during a trial. -/
def abortConds : Conds := { state := fun d _ _ => needState (d.nat Ob.updateOwner == 0xFF || d.boot.trial.isNone) }

/-- UPDATE_ABORT (R131). -/
def execUpdateAbort (hd : Hdr) (cond : Option Nat) (s : State) : Host.Outcome State Fault Refusal :=
  onDev (fun d => d.writeReq abortConds hd cond 0x7010 12 [1] fun _ _ d => d.abortUpdate) s

/-- UPDATE_CLAIM_TIMEOUT (R131): 60 s without a write. -/
def execUpdateClaimTimeout (s : State) : Host.Outcome State Fault Refusal :=
  onDev (fun d =>
    if d.nat Ob.updateOwner = 0xFF || decide (d.ago d.boot.updateAt < 60000000000) then d
    else d.endClaim.set Ob.updateState 0) s

/-- COMMIT_TIMEOUT (R133): the trial ends uncommitted, and the next start boots the previous bank. -/
def execCommitTimeout (s : State) : Host.Outcome State Fault Refusal :=
  onDev (fun d =>
    if d.boot.trialRunning && d.commitLate then
      (d.onBoot fun b => { b with trial := none, trialRunning := false }).set (Ob.bankState (d.nat Ob.activeBank)) 1
    else d) s

/-- The key slot of the running bundle. -/
def Dev.runningSlot (d : Dev) : Option Nat :=
  if d.nat Ob.activeBank ≤ 1 then some (leAt (d.bank (d.nat Ob.activeBank)) 5 1) else none

/-- The conditions of RevokeKeySlot (R134): not the running bundle's slot, and one provisioned slot stays unrevoked. -/
def revokeConds : Conds :=
  { state := fun d _ n => needState (decide (d.runningSlot ≠ some n.toNat) &&
      (List.range 4).any fun i => (i : Int) != n && bit (d.nat Ob.keySlotState) i && !bit (d.nat Ob.keySlotState) (i + 4)) }

/-- A key slot is revoked. -/
def Dev.revokeSlot (d : Dev) (n : Nat) : Dev := d.setN Ob.keySlotState (d.nat Ob.keySlotState ||| 2 ^ (4 + n))

/-- REVOKE_KEY_SLOT (R134). -/
def execRevokeKeySlot (hd : Hdr) (cond : Option Nat) (v : Bytes) (s : State) : Host.Outcome State Fault Refusal :=
  onDev (fun d => d.writeReq revokeConds hd cond 0x7020 3 v fun _ n d => d.revokeSlot n.toNat) s

/-- The running bundle's security version. -/
def Dev.runningSecurity (d : Dev) : Nat :=
  if d.nat Ob.activeBank ≤ 1 then leAt (d.bank (d.nat Ob.activeBank)) 6 2 else 0

/-- The conditions of AdvanceFloor (R134). -/
def floorConds : Conds :=
  { range := fun d _ n => needRange (decide (d.reg Ob.securityVersionFloor ≤ n) && decide (n ≤ d.runningSecurity)) }

/-- ADVANCE_FLOOR (R134). -/
def execAdvanceFloor (hd : Hdr) (cond : Option Nat) (v : Bytes) (s : State) : Host.Outcome State Fault Refusal :=
  onDev (fun d => d.writeReq floorConds hd cond 0x7020 4 v fun _ n d => d.set Ob.securityVersionFloor n) s

/-- PERST_N_RELEASE (R122): the endpoint trains its link, and its configuration space is served from then on. -/
def execPerstNRelease (s : State) : Host.Outcome State Fault Refusal :=
  onDev (fun d => if d.nat Ob.bootPhase = 0 then d else d.onPins fun p => { p with perst := true }) s

end Sys2Proof.Machine
end

