-- ==== Sys2Proof/Machine/Ingest.lean ====
section
/-! DEFINITION. Stream slots: binding, stamping, the sensor clock model, CSI-2, scanners, SPI, encoders and CAN sensor
frames (07_sensor_ingest R157-R181). -/
namespace Sys2Proof.Machine

/-- A slot's run-time state. -/
def Dev.slot (d : Dev) (s : Nat) : SlotRt := (kvGet d.slots s).getD {}

/-- A slot has this run-time state; an untouched one is not listed. -/
def Dev.setSlot (d : Dev) (s : Nat) (r : SlotRt) : Dev :=
  { d with slots := if r = {} then kvDel d.slots s else kvPut d.slots s r }

/-- `f` applied to a slot's run-time state. -/
def Dev.onSlot (d : Dev) (s : Nat) (f : SlotRt → SlotRt) : Dev := d.setSlot s (f (d.slot s))

/-- A kind parameter of a slot (Table 6). -/
def Dev.kp (d : Dev) (s n : Nat) : Nat := d.nat (Ob.slotKindParam s n)

/-- A slot works: its Enable is 1, or was cleared and its flip boundary has not come (R159). -/
def Dev.slotOn (d : Dev) (s : Nat) : Bool := d.flag (Ob.slotEnable s) || (d.slot s).stopping

/-- The table entry of a slot in force. -/
def Dev.slotCfg (d : Dev) (s : Nat) : SlotCfg :=
  { kind := d.nat (Ob.slotSourceKind s), select := d.nat (Ob.slotSourceSelect s),
    paths := d.nat (Ob.slotPathMask s), hostQueue := d.nat (Ob.slotHostQueue s),
    badPolicy := d.nat (Ob.slotBadPolicy s), unpPolicy := d.nat (Ob.slotUnprovenPolicy s) }

/-- The working slot of a kind that meets a test. -/
def Dev.slotFor (d : Dev) (kind : Nat) (f : Nat → Bool) : Option Nat :=
  (List.range 32).find? fun s => d.nat (Ob.slotSourceKind s) == kind && d.slotOn s && f s

/-- The island that classifies a slot's items (06_pours Table 5). -/
def slotIsland (kind sel : Nat) : Nat :=
  if kind = 1 then Isl.csi else if kind = 2 then (if sel % 2 = 0 then Isl.eta else Isl.etb) else Isl.sns

/-- The island of slot `s`. -/
def Dev.slotIsl (d : Dev) (s : Nat) : Nat := slotIsland (d.nat (Ob.slotSourceKind s)) (d.nat (Ob.slotSourceSelect s))

/-- Interface code of a slot's kind (18_integrity Table 4). -/
def slotIface (kind : Nat) : Nat :=
  if kind = 1 then 5 else if kind = 2 then 6 else if kind = 3 then 7 else if kind = 4 then 8 else 9

/-- A slot is in quarantine (R181). -/
def Dev.slotQuarantined (d : Dev) (s : Nat) : Bool := d.quarantinedId (partnerId 4 s)

/-- SlotState follows binding, enable, quarantine, the island and staleness (Table 5). -/
def Dev.refreshSlot (d : Dev) (s : Nat) : Dev :=
  d.set (Ob.slotState s) (
    if d.reg (Ob.slotSourceKind s) = 0 then 0
    else if d.quiesced (d.slotIsl s) then 5
    else if d.slotQuarantined s then 4
    else if !d.slotOn s then 1
    else if (d.slot s).stale then 3 else 2)

/-- A sensor-side violation (R181, Table 4); in quarantine nothing of the slot is checked (18_integrity R369). -/
def Dev.slotViolation (d : Dev) (s code : Nat) : Dev :=
  if d.slotQuarantined s then d else
  let k := d.nat (Ob.slotSourceKind s)
  ((d.bump (Ob.slotViolations s)).violate (.fixed (partnerId 4 s)) fun _ =>
    { code := code, island := d.slotIsl s, iface := slotIface k, d1 := s }).refreshSlot s

/-- An event of a slot that is no violation. -/
def Dev.slotEvent (d : Dev) (s code : Nat) : Dev :=
  d.event { code := code, island := d.slotIsl s, iface := slotIface (d.nat (Ob.slotSourceKind s)), d1 := s }

/-- The clock model restarts (R165). -/
def Dev.restartModel (d : Dev) (s : Nat) : Dev :=
  let d := d.onSlot s fun r => { r with prev := none, count := 0, best := none, ended := [], minima := [], badWin := 0 }
  ((d.set (Ob.slotModelState s) 1).bump (Ob.slotModelRestarts s)).slotEvent s 0x3010

/-- The mapping of R164, without TransitMin. -/
def Dev.mapped (d : Dev) (s : Nat) (ts : Int) : Int :=
  ts + d.reg (Ob.slotModelOffset s)
    + roundDiv ((ts - d.reg (Ob.slotModelTsRef s)) * d.reg (Ob.slotModelRate s)) 1000000000

/-- A raw sensor time unwrapped against the slot's previous one (R163). -/
def unwrap (bits : Nat) (prev : Option (Nat × Int)) (raw : Nat) : Int :=
  match prev with
  | none => raw
  | some (p, u) => u + signed bits ((raw + 2 ^ bits - p % 2 ^ bits) % 2 ^ bits)

/-- A pair (ts, a) joins the window in progress; ModelWindow pairs end it with their minimum (R164). -/
def Dev.addPair (d : Dev) (s : Nat) (ts a : Int) : Dev :=
  d.onSlot s fun r =>
    let best := match r.best with
      | none => (ts, a)
      | some b => if a - ts < b.2 - b.1 then (ts, a) else b
    if d.nat (Ob.slotModelWindow s) ≤ r.count + 1 then { r with count := 0, best := none, ended := r.ended ++ [best] }
    else { r with count := r.count + 1, best := some best }

/-- An item's stamp on the extended timeline, whether it is unmodelled, and the device after its pair is taken
(R162-R166). `a` is the arrival stamp of the mode-0 rule without TransitMin. With ModelMode 1 an item without a sensor time is
stamped by arrival and flagged UNMODELLED, in LEARNING as R165 says and in FITTED by DESIGN CHOICE (log 152). -/
def Dev.stampItem (d : Dev) (s : Nat) (raw : Option Nat) (a : Int) : Int × Bool × Dev :=
  let transit := d.reg (Ob.slotTransitMin s)
  let base := a - (if d.nat (Ob.slotSourceKind s) = 2 then transit else 0)
  match raw with
  | none => (base, d.reg (Ob.slotModelMode s) == 1, d)
  | some raw =>
    if d.reg (Ob.slotModelMode s) = 0 then (base, false, d)
    else
      let width := d.nat (Ob.slotSensorTimeBits s)
      let toNs (u : Int) : Int := roundDiv (u * d.reg (Ob.slotSensorTimeUnit s)) 1000
      let u := unwrap width (d.slot s).prev raw
      let ts := toNs u
      let keep (d : Dev) (u : Int) : Dev := d.onSlot s fun r => { r with prev := some (raw, u) }
      if d.reg (Ob.slotModelState s) = 2 then
        let m := d.mapped s ts
        if a - m < - d.reg (Ob.slotJumpLimit s) then
          (base, true, ((keep (d.restartModel s) raw).addPair s (toNs raw) a))
        else (m - transit, false, (keep d u).addPair s ts a)
      else (base, true, (keep d u).addPair s ts a)

/-- The least-squares line through the minima (R164): its reference, offset and rate in ppb. The reference is the mean
ts (log 28). -/
def fitLine (ps : List (Int × Int)) : Int × Int × Int :=
  let n : Int := ps.length
  let sx := (ps.map fun p => p.1).sum
  let sy := (ps.map fun p => p.2 - p.1).sum
  let num := (ps.map fun p => (n * p.1 - sx) * (n * (p.2 - p.1) - sy)).sum
  let den := (ps.map fun p => (n * p.1 - sx) * (n * p.1 - sx)).sum
  let ref := roundDivInt sx n
  if den = 0 then (ref, roundDivInt sy n, 0)
  else (ref, roundDivInt (sy * den + num * (n * ref - sx)) (n * den), roundDivInt (num * 1000000000) den)

/-- The fit is refreshed from the last minima, once 4 exist (R164, R165). -/
def Dev.refit (d : Dev) (s : Nat) : Dev :=
  let ps := (d.slot s).minima
  if ps.length < 4 then d
  else
    let (ref, off, rate) := fitLine ps
    if 1000000 < rate.natAbs then d.restartModel s
    else
      let d := ((d.set (Ob.slotModelTsRef s) (ref.toNat)).set (Ob.slotModelOffset s) off).set (Ob.slotModelRate s) rate
      let d := d.set (Ob.slotModelState s) 2
      let sq := (ps.map fun p => (p.2 - d.mapped s p.1).natAbs ^ 2).sum
      d.setN (Ob.slotModelResidual s) (isqrt (sq / ps.length))

/-- MODEL_WINDOW_END (R164, R165). -/
def execModelWindowEnd (slot : Fin 32) (s : State) : Host.Outcome State Fault Refusal :=
  onDev (fun d =>
    let r := d.slot slot
    match r.ended with
    | [] => d
    | b :: rest =>
      let far := d.reg (Ob.slotModelState slot) == 2
        && decide (d.reg (Ob.slotJumpLimit slot) < b.2 - d.mapped slot b.1)
      let bad := if far then r.badWin + 1 else 0
      let d := d.onSlot slot fun r => { r with ended := rest, badWin := bad, minima := (b :: r.minima).take 16 }
      if 3 ≤ bad then d.restartModel slot else d.refit slot) s

/-- Items waiting at an internal stage: 0 grid builder, 1 fallback, 2 tensor engines, 3 resampler, 4 camera frames that
wait for their poses (08_fusion_grid R198). -/
def Dev.stageItems (d : Dev) (k : Nat) : List Item := (kvGet d.stage k).getD []

/-- A stage holds these items. -/
def Dev.setStage (d : Dev) (k : Nat) (l : List Item) : Dev :=
  { d with stage := if l = [] then kvDel d.stage k else kvPut d.stage k l }

/-- The island whose work a stage is: FUS, but for the tensor engines' own. -/
def stageFus (k : Nat) : Bool := k != 2

/-- A copy of an item waits at a stage, stamped with its arrival, and holds its generation there (06_pours R153). A stage of FUS answers ABSENT while the
island is quiesced (19_power_dies R393), the fallback stage too, and the item goes on without it. -/
def Dev.toStage (d : Dev) (k : Nat) (it : Item) : Dev :=
  if stageFus k && d.quiesced Isl.fus then d.absentReply Isl.fus
  else (d.genInc it).setStage k (d.stageItems k ++ [{ it with completion := d.stampIn Isl.fus }])

/-- The stage's consumer takes the kind (07_sensor_ingest R161): scanners for the grid builder and the fallback stage,
IMUs and encoders for the resampler. -/
def stageTakes (k kind : Nat) : Bool :=
  if k ≤ 1 then kind == 2 else if k = 3 then kind == 3 || kind == 4 else true

/-- The record of an item whose payload is `data`: inline to 16 bytes, in cells to 65,536, else in DRAM. -/
def Dev.withPayload (d : Dev) (it : Item) (data : Bytes) : Item × Dev :=
  let it := { it with data := data, len := data.length }
  if data.length ≤ 16 then ({ it with payKind := 0, payCheck := 0 }, d)
  else if data.length ≤ 65536 then ({ it with payKind := 1, payCheck := crc32c data }, d)
  else ({ it with payKind := 2, payCheck := crc32c data, volatile := true, addr := Config.payloadAddr d.fresh }, d.drawn)

/-- A unit that is no slot sends an item with a payload to a host queue (15_hosts_queues section 2): its generation (R152), its
record, its lateness (01_console_model R21), and the next number of its source. -/
def Dev.emitItem (d : Dev) (q : Nat) (it : Item) (data : Bytes) (late : Bool) : Dev :=
  let p := d.withPayload (d.derived it) data
  let j := p.2.judgeLate p.1 late
  (j.2.nextSeq it.srcKind it.srcNum).enqueue q j.1

/-- The bound on a slot's ingest in ns (R162): lines for kind 1, µs for the others. -/
def Dev.ingestBound (d : Dev) (s : Nat) : Nat :=
  d.nat (Ob.slotIngestLatency s) * (if d.nat (Ob.slotSourceKind s) = 1 then d.kp s 3 else 1000)

/-- The slot's policy drops an item: BAD or UNPROVEN with the policy drop (R180). -/
def SlotCfg.drops (c : SlotCfg) (it : Item) : Bool := (it.bad && c.badPolicy == 0) || (it.unproven && c.unpPolicy == 0)

/-- An item of a slot, flagged on its way by a later handover, meets the policy of its entry (R180): it is dropped and counted,
or goes on. -/
def Dev.slotPolicy (d : Dev) (it : Item) : Option Item × Dev :=
  if it.srcKind = 1 && it.genValid && it.entry.drops it then (none, d.bump (Ob.slotItemsDropped it.srcNum)) else (some it, d)

/-- A slot in quarantine discards an item: counted, and nothing of it is checked (R181). -/
def Dev.slotDiscard (d : Dev) (s : Nat) : Dev :=
  ((d.quarantineDrop (partnerId 4 s)).bump (Ob.slotItemsDropped s)).refreshSlot s

/-- An item of a slot is counted and goes to each of its paths (R161), unless the slot's policy drops it (R180). -/
def Dev.routeItem (d : Dev) (s : Nat) (cfg : SlotCfg) (it : Item) : Dev :=
  let d := ((d.nextSeq 1 s).bump (Ob.slotItemsIn s)).setN (Ob.slotLastEntryStamp s) it.subject
  let d := (d.when it.bad fun d => d.bump (Ob.slotItemsBad s)).when it.unproven fun d => d.bump (Ob.slotItemsUnproven s)
  let d := (d.onSlot s fun r => { r with stale := false, lastAt := d.ext }).refreshSlot s
  if cfg.drops it then d.bump (Ob.slotItemsDropped s)
  else
    let d := d.each (List.range 4) fun d k => d.when (bit cfg.paths k && stageTakes k cfg.kind) fun d =>
      d.toStage (if k = 2 ∧ cfg.kind = 1 ∧ d.reg Ob.exposurePose ≠ 0 then 4 else k) it
    d.when (bit cfg.paths 4) fun d => (d.absentDrop it).enqueue cfg.hostQueue it

/-- A slot's item is classified: quarantine (R181), its record, lateness (01_console_model R21), then counts, policy and
paths. -/
def Dev.classify (d : Dev) (s : Nat) (cfg : SlotCfg) (it : Item) (data : Bytes) : Dev :=
  if d.slotQuarantined s then d.slotDiscard s
  else
    let p := d.withPayload { it with srcKind := 1, srcNum := s, prio := 3, seq := d.seqOf 1 s, gen := (d.slot s).gen,
                                     genValid := true, producer := d.slotIsl s, entry := cfg } data
    let j := p.2.judgeLate p.1 (decide ((d.ingestBound s : Int) < stampDiff d.now it.subject))
    j.2.routeItem s cfg j.1

/-- A slot stops: its run-time state but its generation is gone (R159, R165, R171). -/
def Dev.slotStops (d : Dev) (s : Nat) : Dev :=
  let d := d.setSlot s { gen := (d.slot s).gen }
  ((d.set (Ob.slotModelState s) 0).setN (Ob.slotLanesInUse s) 0).refreshSlot s

/-- A slot whose Enable was cleared stops at its flip boundary (R159). -/
def Dev.slotBoundary (d : Dev) (s : Nat) : Dev := if (d.slot s).stopping then d.slotStops s else d

/-- The slot bound to a CSI-2 virtual channel (Table 1). -/
def Dev.csiSlot (d : Dev) (port vc : Nat) : Option Nat :=
  d.slotFor 1 fun s => d.nat (Ob.slotSourceSelect s) == port + 16 * vc

/-- The lanes a slot's parameters state. -/
def Dev.statedLanes (d : Dev) (s : Nat) : Nat := bits (d.kp s 0) 10 8

/-- Ingest flags common to a CSI-2 frame. -/
def Dev.csiFlags (d : Dev) (s : Nat) (f : CsiFrame) (defect : Bool) : Nat :=
  f.unmodelled.toNat + 2 * defect.toNat + 4 * (decide (d.nat (Ob.slotLanesInUse s) < d.statedLanes s)).toNat

/-- A frame that should have carried its exposure and did not (R169). -/
def Dev.missExposure (d : Dev) (s : Nat) (f : CsiFrame) : CsiFrame × Dev :=
  if d.kp s 5 = 1 && !f.exposed && !f.unmodelled then ({ f with unmodelled := true }, d.slotEvent s 0x3021) else (f, d)

/-- A frame is closed (R168, R170) and classified; in quarantine it is discarded. -/
def Dev.closeFrame (d : Dev) (s : Nat) : Dev :=
  match (d.slot s).frame with
  | none => d
  | some f =>
    if d.slotQuarantined s then (d.onSlot s fun r => { r with frame := none }).slotDiscard s else
    let (f, d) := d.missExposure s f
    let defect := f.defect || f.lines != bits (d.kp s 2) 31 16
    let d := d.onSlot s fun r => { r with frame := none }
    let d := d.when defect fun d => (d.bump (Ob.slotItemsTruncated s)).slotViolation s 0x3020
    let bad := f.bad || defect
    d.classify s f.cfg { subject := stampAdd f.fs (-((d.kp s 4 + f.exposure : Nat) : Int)), aux := f.fs, bad := bad,
                         unproven := f.unproven && !bad, ingest := d.csiFlags s f defect } f.data

/-- A working slot is bound to a CSI-2 port. -/
def Dev.onPortCsi (d : Dev) (s port : Nat) : Bool :=
  d.nat (Ob.slotSourceKind s) == 1 && d.nat (Ob.slotSourceSelect s) % 8 == port && d.slotOn s

/-- A pending change of a port's lanes applies at the next FS (R171). -/
def Dev.applyLanes (d : Dev) (port : Nat) : Dev :=
  match kvGet d.csiPend port with
  | none => d
  | some n =>
    let d := { d with csiPend := kvDel d.csiPend port }
    d.each ((List.range 32).filter fun s => d.onPortCsi s port) fun d s => (d.setN (Ob.slotLanesInUse s) n).slotEvent s 0x3022

/-- A frame start on a virtual channel closes a frame still open (R168); answers whether there was one. -/
def Dev.csiCut (d : Dev) (port vc : Nat) : Bool × Dev :=
  match d.csiSlot port vc with
  | none => (false, d)
  | some i => ((d.slot i).frame.isSome, (d.closeFrame i).slotBoundary i)

/-- A frame begins on a virtual channel (R168, R170, R171): FS is stamped by CSI's replica. A frame whose FS came before the FE of
the previous (`cut`) has the defect. A port whose lane 0 failed is down. -/
def Dev.csiFrameStart (d : Dev) (port vc : Nat) (cut : Bool) : Dev :=
  let d := d.applyLanes port
  match d.csiSlot port vc with
  | none => d
  | some i =>
    if d.nat (Ob.slotLanesInUse i) = 0 || !d.slotOn i then d
    else
      let f : CsiFrame := { fs := d.stampIn Isl.csi, exposure := d.kp i 6, defect := cut, cfg := d.slotCfg i }
      d.onSlot i fun r => { r with frame := some f }

/-- Time of an SPI read, in 1/1024 ns (R176): command and read bytes and 4 SCLK periods of select time. -/
def spiReadTime (g : Nat → Int) (s : Nat) : Nat :=
  let kp (n : Nat) : Nat := (g (Ob.slotKindParam s n)).toNat
  (8 * (kp 3 % 16 + bits (kp 3) 14 8) + 4) * (kp 0 % 65536) * 10000

/-- IngestLatency of a slot's settings (R162): lines for kind 1, µs for the others (log 31). `exposure` is what the frames
carry, where they do. -/
def ingestLatency (g : Nat → Int) (exposure : Option Nat) (s : Nat) : Nat :=
  let kp (n : Nat) : Nat := (g (Ob.slotKindParam s n)).toNat
  let kind := g (Ob.slotSourceKind s)
  if kind = 1 then
    let e := if kp 5 = 1 then exposure.getD (kp 6) else kp 6
    ceilDiv (kp 4 + e) (Nat.max 1 (kp 3)) + bits (kp 2) 31 16 + 2
  else if kind = 2 then ceilDiv (g (Ob.slotTransitMin s)).toNat 1000 + 20
  else if kind = 3 then ceilDiv (kp 4 * 1024 + spiReadTime g s) 1024000 + 5
  else if kind = 4 then 5
  else if kind = 5 then 10
  else 0

/-- The slot's IngestLatency follows its settings (R162). -/
def Dev.refreshLatency (d : Dev) (s : Nat) : Dev :=
  d.setN (Ob.slotIngestLatency s) (ingestLatency d.reg (d.slot s).exposure s)

/-- A line's packet passes its handover and may flag its frame (R180): with a header that cannot be used it is discarded as a
violation; a check that fails marks the frame BAD. -/
def Dev.csiPacket (d : Dev) (i : Nat) (f : CsiFrame) (p : CsiPacket) : CsiFrame × Dev :=
  let fd := { p.found with hasCoc := false }
  let o := fd.outcome
  ({ f with bad := f.bad || decide (o = .bad), unproven := f.unproven || decide (o = .unproven) }, d.handover 0 5 1 i fd)

/-- CSI_EMBEDDED_LINE (R168, R169, R180): the first one gives the exposure where the field lies inside it. -/
def execCsiEmbeddedLine (port : Fin 6) (vc : Fin 4) (line : CsiPacket) (s : State) : Host.Outcome State Fault Refusal :=
  onDev (fun d =>
    if d.quiesced Isl.csi then d
    else match d.csiSlot port vc with
      | none => d
      | some i =>
        if !line.headerOk then d.slotViolation i 0x3023
        else match (d.slot i).frame with
        | none => d
        | some f =>
          let (f, d) := d.csiPacket i f line
          if d.kp i 5 ≠ 1 || f.exposed || f.unmodelled || f.lines != 0 then d.onSlot i fun r => { r with frame := some f }
          else
            let off := d.kp i 7 % 65536
            let len := bits (d.kp i 7) 18 16
            if off + len ≤ line.data.length then
              let x := fieldAt line.data off len (!bit (d.kp i 7) 20)
              let e := (roundDiv (x * d.kp i 8 : Nat) 256).toNat
              (d.onSlot i fun r =>
                { r with exposure := some e, frame := some { f with exposed := true, exposure := e } }).refreshLatency i
            else
              let (f, d) := d.missExposure i f
              d.onSlot i fun r => { r with frame := some f }) s

/-- Bytes of an image line of `w` pixels in a data type's packing; `none` for a type that is not supported (R167). -/
def lineBytes (dt w : Nat) : Option Nat :=
  if dt = 0x2A then some w
  else if dt = 0x2B then some (w * 10 / 8)
  else if dt = 0x2C then some (w * 12 / 8)
  else if dt = 0x2E ∨ dt = 0x1E then some (2 * w)
  else none

/-- A long packet that no slot takes is discarded and counted for its port (Table 4). -/
def Dev.csiUntaken (d : Dev) (port : Nat) : Dev :=
  { d with books := { d.books with csiOther := kvPut d.books.csiOther port ((kvGet d.books.csiOther port).getD 0 + 1) } }

/-- CSI_LONG_PACKET (R169, R170, R180): an uncorrectable header discards the packet as a violation; a type no slot takes
is discarded; else the line joins the frame through handover point 0. -/
def execCsiLongPacket (port : Fin 6) (vc : Fin 4) (dataType : Nat) (headerOk : Bool) (line : Bytes) (found : Found)
    (s : State) : Host.Outcome State Fault Refusal :=
  onDev (fun d =>
    if d.quiesced Isl.csi then d
    else match d.csiSlot port vc with
      | none => d.csiUntaken port
      | some i =>
        if !headerOk then d.slotViolation i 0x3023
        else if dataType ≠ d.kp i 0 % 64 then d.csiUntaken port
        else match (d.slot i).frame with
          | none => d
          | some f =>
            let (f, d) := d.missExposure i f
            let (f, d) := d.csiPacket i f { found, data := line }
            let wrong := decide (lineBytes dataType (d.kp i 2 % 65536) ≠ some line.length)
            let keep := decide (f.lines < bits (d.kp i 2) 31 16)
            d.onSlot i fun r => { r with frame := some { f with
              lines := f.lines + 1, defect := f.defect || wrong, data := if keep then f.data ++ line else f.data } }) s

/-- CSI_FRAME_END (R170). -/
def execCsiFrameEnd (port : Fin 6) (vc : Fin 4) (s : State) : Host.Outcome State Fault Refusal :=
  onDev (fun d =>
    if d.quiesced Isl.csi then d
    else match d.csiSlot port vc with
      | none => d
      | some i => (d.closeFrame i).slotBoundary i) s

/-- CSI_LANE_ERROR (R171): the third consecutive frame with errors on a lane, on a port with LaneFallback set. -/
def execCsiLaneError (port : Fin 6) (lane : Fin 4) (s : State) : Host.Outcome State Fault Refusal :=
  onDev (fun d =>
    let on (i : Nat) : Bool := d.nat (Ob.slotSourceSelect i) % 8 == port && bit (d.kp i 0) 16
    match d.slotFor 1 on with
    | none => d
    | some i =>
      let n := if (lane : Nat) ≥ 2 then 2 else if (lane : Nat) = 1 then 1 else 0
      if n < Nat.min (d.nat (Ob.slotLanesInUse i)) ((kvGet d.csiPend port).getD 4) then { d with csiPend := kvPut d.csiPend port n } else d) s

/-- A field of a scanner datagram scaled and held to its record's width; 0 where the offset is 0xFFFF. -/
def satU32 (v : Nat) : Nat × Bool := if 4294967295 < v then (4294967295, true) else (v, false)

/-- A signed angle field scaled to 10^-6 degree and held to I32. -/
def satAngle (raw lsb : Nat) : Int × Bool :=
  let v := signed 16 raw * lsb
  (clampInt (-2147483648) 2147483647 v, decide (v < -2147483648 ∨ 2147483647 < v))

/-- One 24-byte point record from a point of a datagram (R173, Table 3, Table 6). -/
def Dev.pointRecord (d : Dev) (s : Nat) (p : Bytes) : Bytes :=
  let big := bit (d.kp s 1) 31
  let at_ (off len : Nat) : Nat := if off = 0xFFFF then 0 else fieldAt p off len big
  let rangeRaw := at_ (d.kp s 3 % 65536) (bits (d.kp s 3) 18 16)
  let (range, s1) := satU32 (rangeRaw * d.kp s 4)
  let (az, s2) := satAngle (at_ (d.kp s 5 % 65536) 2) (d.kp s 6)
  let (el, s3) := satAngle (at_ (d.kp s 5 / 65536) 2) (d.kp s 6)
  let inten := at_ (d.kp s 7 % 65536) (bits (d.kp s 7) 17 16)
  let (t, s4) := satU32 (at_ (d.kp s 8 % 65536) 4 * d.kp s 9)
  leBytes 4 range ++ leBytes 4 (unsigned 32 az) ++ leBytes 4 (unsigned 32 el) ++ leBytes 2 inten
    ++ leBytes 2 ((decide (rangeRaw = 0)).toNat + 2 * (s1 || s2 || s3 || s4).toNat) ++ leBytes 4 t ++ leBytes 4 0

/-- The points of a datagram, every PointStride bytes until fewer remain (R173). -/
def Dev.pointRecords (d : Dev) (s : Nat) (stride : Nat) : Nat → Bytes → Bytes
  | 0, _ => []
  | n + 1, bs => if stride = 0 ∨ bs.length < stride then [] else
      d.pointRecord s (bs.take stride) ++ d.pointRecords s stride n (bs.drop stride)

/-- A datagram reaches the slot that its flow is bound to (R172-R174); its SFD arrives now. -/
def Dev.scannerDatagram (d : Dev) (port srcIp dstPort : Nat) (fragmented : Bool) (payload : Bytes) (found : Found) : Dev :=
  match d.slotFor 2 fun i => d.nat (Ob.slotSourceSelect i) % 2 == port && d.kp i 0 == srcIp && d.kp i 1 % 65536 == dstPort with
  | none => d
  | some i =>
    let hdr := d.kp i 2 % 65536
    let stride := d.kp i 2 / 65536
    if d.slotQuarantined i then d.slotDiscard i
    else if fragmented || decide (payload.length < hdr + stride) then d.slotViolation i 0x3030
    else
      let fd := { found with hasCoc := false }
      let d := (d.countFcs port fd).handover 1 6 1 i fd
      let raw := fieldAt payload (d.kp i 10 % 65536) (bits (d.kp i 10) 19 16) (bit (d.kp i 1) 31)
      let (st, unm, d) := d.stampItem i (some raw) (d.replica (Isl.eta + port))
      let subject := (st % (span48 : Int)).toNat
      let gap := match (d.slot i).lastStamp with
        | some p => decide (stampDiff subject p < -2147483648)
        | none => false
      let d := d.onSlot i fun r => { r with lastStamp := some subject }
      let d := d.when gap fun d => d.slotViolation i 0x3031
      let o := fd.outcome
      d.classify i (d.slotCfg i)
        { subject := subject, bad := decide (o = .bad), unproven := decide (o = .unproven), ingest := unm.toNat + 16 * gap.toNat }
        (d.pointRecords i stride (payload.length + 1) (payload.drop hdr))

/-- The SPI slot of a port. -/
def Dev.spiSlot (d : Dev) (port : Nat) : Option Nat := d.slotFor 3 fun i => d.nat (Ob.slotSourceSelect i) % 4 == port

/-- The SPI read of a slot begins (R175): SPI mode, divider, command bytes with byte 0 first, and ReadLength. Byte 0 of a
parameter is its least significant (log 152). -/
def Dev.spiSelect (d : Dev) (port i : Nat) : Dev :=
  d.send (.spiRead port (bits (d.kp i 0) 17 16) (d.kp i 0 % 65536)
    ((leBytes 4 (d.kp i 1) ++ leBytes 4 (d.kp i 2)).take (d.kp i 3 % 16)) (bits (d.kp i 3) 14 8))

/-- The active edge of DRDY (R175, R176) starts a read, or is an overrun. -/
def Dev.imuDrdy (d : Dev) (port : Nat) (rising : Bool) : Dev :=
  match d.spiSlot port with
  | none => d
  | some i =>
    if rising = bit (d.kp i 0) 18 then d
    else match (d.slot i).busyAt with
      | some _ =>
        if d.slotQuarantined i then d.slotDiscard i
        else ((d.bump (Ob.slotOverruns i)).onSlot i fun r => { r with overrun := true }).slotViolation i 0x3040
      | none => (d.onSlot i fun r => { r with busyAt := some (d.replica Isl.sns) }).spiSelect port i

/-- The CRC of R175 over read bytes: 1 CRC-8, 2 CRC-16; 0 none. -/
def spiCrcOk (kind off : Nat) (data : Bytes) : Bool :=
  let past := data.take off
  if kind = 1 then past.foldl (crc8Byte 0x07) 0xFF == leAt data off 1
  else if kind = 2 then past.foldl crc16Byte 0xFFFF == fieldAt data off 2 true
  else true

/-- IMU_READ_DONE (R175): `data` is what was clocked in, cut to ReadLength. The sensor time is little-endian, of the
bytes its bits need (log 30). -/
def execImuReadDone (port : Fin 4) (data : Bytes) (s : State) : Host.Outcome State Fault Refusal :=
  onDev (fun d =>
    if d.quiesced Isl.sns then d
    else match d.spiSlot port with
      | none => d
      | some i =>
        match (d.slot i).busyAt with
        | none => d
        | some e =>
          if d.slotQuarantined i then
            ((d.onSlot i fun r => { r with busyAt := none, overrun := false }).slotDiscard i).slotBoundary i
          else
          let p := d.kp i 3
          let data := data.take (bits p 14 8)
          let kind := bits p 17 16
          let ok := spiCrcOk kind (bits p 31 24) data
          let d := d.handover (if kind = 0 then 5 else 4) 7 1 i { checkOk := ok, hasCoc := false }
          let d := d.when (!ok) fun d => d.slotViolation i 0x3041
          let a : Int := (e : Int) - d.kp i 4
          let off := d.kp i 5 % 65536
          let raw := if off = 0xFFFF then none else some (leAt data off (ceilDiv (d.nat (Ob.slotSensorTimeBits i)) 8))
          let (st, unm, d) := d.stampItem i raw a
          let past := (d.slot i).overrun
          let subject := (st % (span48 : Int)).toNat
          let d := d.onSlot i fun r => { r with busyAt := none, overrun := false, lastStamp := some subject }
          (d.classify i (d.slotCfg i) { subject := subject, bad := !ok, ingest := unm.toNat + 8 * past.toNat } data).slotBoundary i) s

/-- An encoder channel. -/
def Dev.enc (d : Dev) (c : Nat) : EncCh := (kvGet d.encs c).getD {}

/-- An encoder channel holds `e`. -/
def Dev.setEnc (d : Dev) (c : Nat) (e : EncCh) : Dev := { d with encs := if e = {} then kvDel d.encs c else kvPut d.encs c e }

/-- The group of an encoder channel. -/
def Dev.encSlot (d : Dev) (c : Nat) : Option Nat := d.slotFor 4 fun i => bit (d.nat (Ob.slotSourceSelect i)) c

/-- An encoder channel steps up or down after the glitch filter, or changes both lines at once (`none`), which is illegal
(R177). -/
def Dev.encoderStep (d : Dev) (ch : Nat) (step : Option Bool) : Dev :=
  match d.encSlot ch with
  | none => d
  | some i =>
    let e := d.enc ch
    match step with
    | none => (d.setEnc ch { e with illegal := true }).slotViolation i 0x3050
    | some up =>
      let up := up != bit (d.kp i 2) ch
      d.setEnc ch { e with count := (if up then e.count + 1 else e.count + 4294967295) % 4294967296,
                           last := some (d.replica Isl.sns), edges := (e.edges + 1) % 65536 }

/-- ENCODER_Z_EDGE (R177). -/
def execEncoderZEdge (ch : Fin 8) (s : State) : Host.Outcome State Fault Refusal :=
  onDev (fun d =>
    if !d.running || d.quiesced Isl.sns then d
    else match d.encSlot ch with
      | none => d
      | some i =>
        let e := d.enc ch
        if bit (d.kp i 2) (8 + ch) && e.z.isNone then d.setEnc ch { e with z := some e.count } else d) s

/-- The 16-byte record of a channel for a period that ends at `t` (R178); stamps compare by R32. -/
def encRecord (e : EncCh) (t : Nat) : Bytes :=
  let near := match e.last with
    | some l => decide (stampDiff (t % span48) (l % span48) ≤ 2147483648)
    | none => false
  leBytes 4 e.count ++ leBytes 4 (if near then (e.last.getD 0) % 4294967296 else 0) ++ leBytes 2 e.edges
    ++ leBytes 2 (e.z.isSome.toNat + 2 * e.illegal.toNat + 4 * (!near).toNat) ++ leBytes 4 (e.z.getD 0)

/-- A period of an encoder group ends (R178), at the last multiple of PeriodNs. -/
def Dev.encoderPeriod (d : Dev) (slot : Nat) : Dev :=
  let d := d.slotBoundary slot
  let per := d.kp slot 0
  if d.nat (Ob.slotSourceKind slot) != 4 || !d.slotOn slot || per == 0 then d
  else
    let t := d.replica Isl.sns / per * per
    let chs := setBits (d.nat (Ob.slotSourceSelect slot)) 8
    let data := chs.flatMap fun c => encRecord (d.enc c) t
    let d := d.each chs fun d c => d.setEnc c { d.enc c with edges := 0, illegal := false, z := none }
    if d.slotQuarantined slot then d.slotDiscard slot
    else (d.handover 5 8 1 slot { hasCoc := false }).classify slot (d.slotCfg slot) { subject := t % span48 } data

/-- A CAN identifier matches a set (R179). -/
def canMatch (param0 mask id : Nat) (ext : Bool) : Bool :=
  bit param0 31 == ext && (((param0 % 536870912) ^^^ id) &&& mask) % 536870912 == 0

/-- A CAN controller's receive error counter after a destroyed frame or a good one (R179; ISO 11898-1: up by 1, down by 1,
log 152). -/
def Dev.countCan (d : Dev) (ctl : Nat) (bad : Bool) : Dev :=
  let n := (kvGet d.books.canErrors ctl).getD 0
  let m := if bad then n + 1 else n - 1
  { d with books := { d.books with canErrors := if m = 0 then kvDel d.books.canErrors ctl else kvPut d.books.canErrors ctl m } }

/-- A CAN frame reaches the set it matches (R179); its start-of-frame edge is now. -/
def Dev.canSensor (d : Dev) (ctl id : Nat) (extended : Bool) (data : Bytes) (found : Found) : Dev :=
  match d.slotFor 5 fun i => d.nat (Ob.slotSourceSelect i) % 2 == ctl && canMatch (d.kp i 0) (d.kp i 1) id extended with
  | none => d
  | some i =>
    if d.slotQuarantined i then d.slotDiscard i
    else
      let fd := { found with hasCoc := false }
      let d := d.handover 2 9 1 i fd
      let off := d.kp i 2 % 65536
      let raw := if off = 0xFFFF then none else some (leAt data off (ceilDiv (d.nat (Ob.slotSensorTimeBits i)) 8))
      let (st, unm, d) := d.stampItem i raw (d.replica Isl.sns)
      let o := fd.outcome
      let subject := (st % (span48 : Int)).toNat
      let d := d.onSlot i fun r => { r with lastStamp := some subject }
      d.classify i (d.slotCfg i)
        { subject := subject, bad := decide (o = .bad), unproven := decide (o = .unproven), ingest := unm.toNat } data

/-- CAN_ERROR_FRAME (R179, R107): the frame never becomes an item; it counts in the controller's error counter, and ErrorState
may move between active and passive. -/
def execCanErrorFrame (ctl : Fin 2) (passive : Bool) (s : State) : Host.Outcome State Fault Refusal :=
  onDev (fun d =>
    if d.reg (Ob.canErrorState ctl) = 2 then d else (d.countCan ctl true).setB (Ob.canErrorState ctl) passive) s

/-- SLOT_STALE_TIMEOUT (R181): no item for StaleTimeout. -/
def execSlotStaleTimeout (slot : Fin 32) (s : State) : Host.Outcome State Fault Refusal :=
  onDev (fun d =>
    if !d.running || d.nat (Ob.slotSourceKind slot) == 0 || !d.flag (Ob.slotEnable slot) || (d.slot slot).stale
        || decide (d.ago (d.slot slot).lastAt < d.nat (Ob.slotStaleTimeout slot) * 1000) then d
    else ((d.onSlot slot fun r => { r with stale := true }).refreshSlot slot).slotEvent slot 0x3002) s

/-- The bits that a kind parameter lists (Table 6); the others are reserved (R4). An unused parameter lists all of them, for it
must read 0. -/
def kindMask (kind n : Nat) : Nat :=
  match kind, n with
  | 1, 0 => 0x1073F
  | 1, 7 => 0x17FFFF
  | 2, 1 => 0x8000FFFF
  | 2, 3 => 0x7FFFF
  | 2, 7 => 0x3FFFF
  | 2, 8 => 0xFFFF
  | 2, 10 => 0xFFFFF
  | 3, 0 => 0x7FFFF
  | 3, 3 => 0xFF037F0F
  | 3, 5 => 0xFFFF
  | 4, 2 => 0xFFFF
  | 5, 0 => 0x9FFFFFFF
  | 5, 1 => 0x1FFFFFFF
  | 5, 2 => 0xFFFF
  | _, _ => 0xFFFFFFFF

/-- Ranges of the kind parameters (Table 6), reserved bits aside. -/
def kindParamOk (kind n v : Nat) : Bool :=
  let v := v &&& kindMask kind n
  match kind, n with
  | 1, 0 => ([0x2A, 0x2B, 0x2C, 0x2E, 0x1E] : List Nat).contains (v % 64) && ([1, 2, 4] : List Nat).contains (bits v 10 8)
  | 1, 1 => decide (80 ≤ v ∧ v ≤ 2500)
  | 1, 5 => decide (v ≤ 1)
  | 1, 7 => decide (1 ≤ bits v 18 16 ∧ bits v 18 16 ≤ 4)
  | 1, k => decide (k ≤ 8) || v == 0
  | 2, 3 => decide (2 ≤ bits v 18 16 ∧ bits v 18 16 ≤ 4)
  | 2, 7 => decide (1 ≤ bits v 17 16 ∧ bits v 17 16 ≤ 2)
  | 2, 10 => decide (2 ≤ bits v 19 16 ∧ bits v 19 16 ≤ 8)
  | 2, k => decide (k ≤ 10) || v == 0
  | 3, 0 => decide (4 ≤ v % 65536 ∧ v % 65536 ≤ 1024)
  | 3, 3 => decide (v % 16 ≤ 8) && decide (1 ≤ bits v 14 8 ∧ bits v 14 8 ≤ 64) && decide (bits v 17 16 ≤ 2)
  | 3, k => decide (k ≤ 5) || v == 0
  | 4, 0 => decide (100000 ≤ v ∧ v ≤ 10000000)
  | 4, 1 => decide (v ≤ 10000)
  | 4, k => decide (k ≤ 2) || v == 0
  | 5, k => decide (k ≤ 2) || v == 0
  | _, _ => v == 0

/-- Two slots of kind 1 on one port state the same lanes and rate (R160). -/
def sameLanes (g : Nat → Int) (a b : Nat) : Bool :=
  let on (s : Nat) : Bool := g (Ob.slotSourceKind s) == 1
  !(on a && on b && g (Ob.slotSourceSelect a) % 8 == g (Ob.slotSourceSelect b) % 8)
    || ((g (Ob.slotKindParam a 0)).toNat / 256 % 8 == (g (Ob.slotKindParam b 0)).toNat / 256 % 8
        && g (Ob.slotKindParam a 1) == g (Ob.slotKindParam b 1))

/-- The range conditions of slot `s` over the values `g` (R160, R176): lanes, rates, and the SPI read within its period.
They hold of a slot that states its parameters. -/
def slotRange (g : Nat → Int) (s : Nat) : Bool :=
  (List.range 32).all (fun b => b == s || sameLanes g s b)
    && !(g (Ob.slotSourceKind s) == 3 && decide (0 < g (Ob.slotKindParam s 3))
          && decide (1024000000000 < spiReadTime g s * (g (Ob.slotMaxItemRate s)).toNat))

/-- The bits of SourceSelect that a kind lists (Table 1); the others are reserved (R4). -/
def selectMask (kind : Nat) : Nat := ([0xFFFF, 0x37, 1, 3, 0xFF, 1] : List Nat).getD kind 0xFFFF

/-- SourceSelect's range for a kind (Table 1), reserved bits aside. -/
def sourceSelectOk (kind v : Nat) : Bool :=
  let v := v &&& selectMask kind
  if kind = 0 then v == 0
  else if kind = 1 then decide (v % 8 ≤ 5)
  else if kind = 4 then v != 0
  else decide (kind ≤ 5)

/-- The bindings of two slots do not conflict (R158). -/
def bindingsOk (g : Nat → Int) (a b : Nat) : Bool :=
  let n (k : Nat) : Nat := (g k).toNat
  let ka := n (Ob.slotSourceKind a)
  let sa := n (Ob.slotSourceSelect a) &&& selectMask ka
  let sb := n (Ob.slotSourceSelect b) &&& selectMask ka
  let kp (s i : Nat) : Nat := n (Ob.slotKindParam s i)
  if ka ≠ n (Ob.slotSourceKind b) then true
  else if ka = 1 then sa != sb
  else if ka = 2 then !(sa == sb && kp a 0 == kp b 0 && kp a 1 % 65536 == kp b 1 % 65536)
  else if ka = 3 then sa != sb
  else if ka = 4 then (sa &&& sb) == 0
  else if ka = 5 then !(sa == sb && (((kp a 0 ^^^ kp b 0) &&& kp a 1) &&& kp b 1) % 536870912 == 0)
  else true

/-- A CAN set overlaps the Ighovik identifiers of its controller: extended, the prefix in force, kinds 0-3, the device
node in force (04_dictionary Table 6). -/
def overlapsIghovik (g : Nat → Int) (s : Nat) : Bool :=
  let n (k : Nat) : Nat := (g k).toNat
  let ctl := n (Ob.slotSourceSelect s) % 2
  let own := n (canInForce (Ob.canIdPrefix ctl)) * 1048576 + n (canInForce (Ob.canDeviceNode ctl)) * 256
  let m := n (Ob.slotKindParam s 0)
  n (Ob.slotSourceKind s) == 5 && bit m 31 && ((m ^^^ own) &&& n (Ob.slotKindParam s 1) &&& 0x1FFCFF00) == 0

/-- Whether an object of slot `s`, by its subindex, takes part in what R158 forbids there: its source and, for flows and CAN sets,
the parameters that tell them apart; for the fallback stage SourceKind and PathMask. -/
def bindingPart (kind sub : Nat) : Bool := sub == 1 || sub == 2 || ((kind == 2 || kind == 5) && (sub == 0x20 || sub == 0x21))

/-- The bindings of slot `s` meet R158, of its source alone. -/
def sourceOk (g : Nat → Int) (s : Nat) : Bool :=
  (List.range 32).all (fun b => b == s || bindingsOk g s b) && !overlapsIghovik g s
    && sourceSelectOk (g (Ob.slotSourceKind s)).toNat (g (Ob.slotSourceSelect s)).toNat

/-- The fallback stage is a path of scanners alone (R158). -/
def fallbackPathOk (g : Nat → Int) (s : Nat) : Bool :=
  !(bit (g (Ob.slotPathMask s)).toNat 1 && g (Ob.slotSourceKind s) != 2)

/-- The object at subindex `sub` of slot `s` is involved in a binding that R158 forbids. -/
def bindingFault (g : Nat → Int) (s sub : Nat) : Bool :=
  (bindingPart (g (Ob.slotSourceKind s)).toNat sub && !sourceOk g s) || ((sub == 1 || sub == 4) && !fallbackPathOk g s)

/-- A slot starts, or stops at its flip boundary: at once where no frame, read or period of it is in progress (R159, R163, R165).
A CSI-2 port returns to its stated lanes (R171). -/
def Dev.slotEnabled (d : Dev) (s : Nat) (on : Bool) : Dev :=
  let r := d.slot s
  let kind := d.nat (Ob.slotSourceKind s)
  let port := d.nat (Ob.slotSourceSelect s) % 8
  if on then
    let d := d.setSlot s { gen := r.gen, frame := r.frame, busyAt := r.busyAt, lastAt := d.ext }
    let d := d.set (Ob.slotModelState s) (if d.reg (Ob.slotModelMode s) = 1 then 1 else 0)
    let d := d.setN (Ob.slotLanesInUse s) (if kind = 1 then d.statedLanes s else 0)
    let d := d.when (kind == 1) fun d =>
      { d with csiPend := kvDel d.csiPend port }.each ((List.range 32).filter fun x => d.onPortCsi x port) fun d x =>
        d.setN (Ob.slotLanesInUse x) (d.statedLanes x)
    d.refreshSlot s
  else if (kind = 1 && r.frame.isSome) || (kind = 3 && r.busyAt.isSome) || kind = 4 then
    (d.onSlot s fun r => { r with stopping := true }).refreshSlot s
  else d.slotStops s

/-- The reserved bits of a slot's SourceSelect read 0 (R4). -/
def Dev.maskSelect (d : Dev) (s : Nat) : Dev :=
  d.setN (Ob.slotSourceSelect s) (d.nat (Ob.slotSourceSelect s) &&& selectMask (d.nat (Ob.slotSourceKind s)))

/-- The reserved bits of a slot's kind parameters read 0 (R4). -/
def Dev.maskParams (d : Dev) (s : Nat) (ns : List Nat) : Dev :=
  d.each ns fun d n => d.setN (Ob.slotKindParam s n) (d.kp s n &&& kindMask (d.nat (Ob.slotSourceKind s)) n)

/-- What follows a change of a slot object (R159, R162, R165). -/
def Dev.slotWritten (d : Dev) (s sub : Nat) : Dev :=
  let d := if sub = 1 then (d.maskSelect s).maskParams s (List.range 12) else if sub = 2 then d.maskSelect s else if 0x20 ≤ sub ∧ sub ≤ 0x2B then d.maskParams s [sub - 0x20] else d
  let d := d.refreshLatency s
  let d := if sub = 3 then d.slotEnabled s (d.flag (Ob.slotEnable s)) else d
  let d := if sub = 0x10 ∧ d.flag (Ob.slotEnable s) then
      (d.onSlot s fun r => { r with prev := none, count := 0, best := none, ended := [], minima := [], badWin := 0 }).set
        (Ob.slotModelState s) (if d.reg (Ob.slotModelMode s) = 1 then 1 else 0)
    else d
  d.refreshSlot s

end Sys2Proof.Machine
end

