-- ==== Sys2Proof/Machine/Reals.lean ====
section
/-! DEFINITION. Real arithmetic where the spec gives a real formula (06_pours R149, 08_fusion_grid R188-R192,
10_cupper_fallback R216, 13_mix_engine): fixed point of 64 fraction bits, sines, roots, rotations, and the rounding that
the spec leaves open (log 32). -/
namespace Sys2Proof.Machine

/-- One in fixed point: 64 fraction bits. -/
def fxOne : Int := 18446744073709551616

/-- A quotient whose rounding the spec leaves open: exact where it is whole, else the whole number below or above it, by a
free value (log 32). -/
def openDiv (num den : Int) : Int :=
  if num % den = 0 then num / den else num / den + (Config.roundUp num den).toNat

/-- A fixed-point value as a whole number, its rounding open; within 2^-40 of a whole number it is that number. -/
def openFx (x : Int) : Int :=
  let n := (x + fxOne / 2) / fxOne
  if (x - n * fxOne).natAbs < 16777216 then n else openDiv x fxOne

/-- The integer square root of any number, by its bits from the highest. -/
def rootBits (n : Nat) : Nat → Nat → Nat
  | 0, r => r
  | k + 1, r => rootBits n k (if (r + 2 ^ k) * (r + 2 ^ k) ≤ n then r + 2 ^ k else r)

/-- The integer square root. -/
def root (n : Nat) : Nat := rootBits n (n.log2 / 2 + 1) 0

/-- A square root whose rounding the spec leaves open. -/
def openRoot (n : Nat) : Nat := if root n * root n = n then root n else root n + (Config.roundUp n 0).toNat

/-- A series of sine or cosine: `n` terms from the term `t` of degree `k`, for the square `x2` of the angle. -/
def angleSeries (x2 : Int) : Nat → Nat → Int → Int
  | 0, _, _ => 0
  | n + 1, k, t => t + angleSeries x2 n (k + 2) (-(t * x2 / fxOne) / (((k + 1) * (k + 2) : Nat) : Int))

/-- Cosine and sine of an angle of the first quadrant in fixed-point radians. -/
def cosSinFx (x : Int) : Int × Int :=
  (angleSeries (x * x / fxOne) 20 0 fxOne, angleSeries (x * x / fxOne) 20 1 x)

/-- Pi in fixed point. -/
def piFx : Int := 57952155664616982739

/-- Cosine and sine of `a` parts of which `quarter` make a right angle. -/
def cosSin (a : Int) (quarter : Nat) : Int × Int :=
  let (c, s) := cosSinFx ((a % quarter) * piFx / (2 * quarter))
  let q := a / quarter % 4
  if q = 0 then (c, s) else if q = 1 then (-s, c) else if q = 2 then (-c, -s) else (s, -c)

/-- The place of a range, azimuth and elevation (µm, 10^-6 degree) in the scanner frame, fixed point (08_fusion_grid R190). -/
def polar (r : Nat) (az el : Int) : List Int :=
  let (ca, sa) := cosSin az 90000000
  let (ce, se) := cosSin el 90000000
  [r * (ce * ca / fxOne), r * (ce * sa / fxOne), r * se]

/-- The product of two quaternions (w, x, y, z). -/
def quatMul (a b : List Int) : List Int :=
  match a, b with
  | [a0, a1, a2, a3], [b0, b1, b2, b3] =>
    [a0 * b0 - a1 * b1 - a2 * b2 - a3 * b3, a0 * b1 + a1 * b0 + a2 * b3 - a3 * b2,
     a0 * b2 - a1 * b3 + a2 * b0 + a3 * b1, a0 * b3 + a1 * b2 - a2 * b1 + a3 * b0]
  | _, _ => []

/-- The conjugate of a quaternion. -/
def quatConj : List Int → List Int
  | w :: v => w :: v.map fun x => -x
  | [] => []

/-- The squared norm of a quaternion. -/
def quatNorm2 (q : List Int) : Int := (q.map fun x => x * x).sum

/-- A vector rotated by the direction of a quaternion of any norm but 0. -/
def rotate (q v : List Int) : List Int :=
  if quatNorm2 q = 0 then v
  else (quatMul (quatMul q (0 :: v)) (quatConj q)).tail.map fun x => x / quatNorm2 q

/-- Two vectors added, subtracted. -/
def vecAdd (a b : List Int) : List Int := List.zipWith (fun x y => x + y) a b
def vecSub (a b : List Int) : List Int := List.zipWith (fun x y => x - y) a b

/-- A component of a quaternion normalised to Q2.30: `c` over the root of the squared norm `n`, its rounding open. -/
def unitPart (c : Int) (n : Nat) : Int :=
  let sq := c.natAbs * c.natAbs * 1152921504606846976
  let m := root (sq / n)
  let m := if m * m * n = sq then m else m + (Config.roundUp c n).toNat
  if c < 0 then -(m : Int) else m

/-- A quaternion normalised to Q2.30, the identity where it is 0. -/
def quatUnit (q : List Int) : List Int :=
  if quatNorm2 q = 0 then [1073741824, 0, 0, 0] else q.map fun c => unitPart c (quatNorm2 q).toNat

/-- A point placed by a mounting transform: translation and quaternion in one list, the translation in µm, the point in fixed
point. -/
def mounted (m v : List Int) : List Int := vecAdd ((m.take 3).map fun x => x * fxOne) (rotate (m.drop 3) v)

/-- The natural logarithm of 10 in fixed point. -/
def ln10Fx : Int := 42475197918399869019

/-- The exponential series: `n` terms from the term `t` of degree `k`. -/
def expSeries (x : Int) : Nat → Nat → Int → Int
  | 0, _, _ => 0
  | n + 1, k, t => t + expSeries x n (k + 1) (t * x / fxOne / ((k + 1 : Nat) : Int))

/-- The linear gain of a level in 0.01 dB, 10^(v / 2000), in fixed point; -14,400 is off (13_mix_engine Table 3). -/
def gainFx (v : Int) : Int :=
  if v ≤ -14400 then 0
  else
    let m := expSeries (v % 2000 * ln10Fx / 2000) 48 0 fxOne
    if 0 ≤ v then m * 10 ^ (v / 2000).toNat else m / 10 ^ (-(v / 2000)).toNat

/-- A sample of the mix engine (13_mix_engine R259): a binary32 as its multiple of 2^-149. The value `num / den`, rounded to one
of the two binary32 values about it (log 37). -/
def toF32 (num : Int) (den : Nat) : Int :=
  let ulp : Nat := 2 ^ ((num.natAbs / den).log2 - 23)
  openDiv num (den * ulp) * ulp

/-- An I32 sample as the engine takes it: divided by 2^31 (13_mix_engine R259). -/
def ofI32 (v : Int) : Int := toF32 (v * 2 ^ 118) 1

/-- A sample times 2^31, rounded to nearest with ties to even (13_mix_engine R259), before saturation. -/
def toI32 (x : Int) : Int :=
  let u : Int := 2 ^ 118
  let q := x / u
  let r := x % u
  if 2 * r > u ∨ (2 * r = u ∧ q % 2 = 1) then q + 1 else q

/-- The value of a binary32 word; `open_` stands for an infinity or a NaN, whose effect 13_mix_engine does not give. -/
def ofWord32 (w : Nat) (open_ : Int) : Int :=
  let e := w / 8388608 % 256
  let m := w % 8388608
  let v : Int := if e = 255 then open_ else if e = 0 then m else (8388608 + m : Nat) * 2 ^ (e - 1)
  if 2147483648 ≤ w then -v else v

/-- The highest level of a range of `2 ^ n` from `lo` whose gain does not exceed a sample's size. -/
def levelBits (x : Nat) : Nat → Int → Int
  | 0, lo => lo
  | n + 1, lo => levelBits x n (if gainFx (lo + 2 ^ n) * 2 ^ 149 ≤ x * fxOne then lo + 2 ^ n else lo)

/-- A sample's size in 0.01 dBFS, its rounding open, held to -14,400 and 32,767 (13_mix_engine Table 3). -/
def levelOf (x : Nat) : Int :=
  let v := levelBits x 16 (-14400)
  clampInt (-14400) 32767
    (if v = -14400 ∨ gainFx v * 2 ^ 149 = x * fxOne then v else v + (Config.roundUp x v).toNat)

end Sys2Proof.Machine
end

