-- ==== Sys2Proof/Machine/Fusion.lean ====
section
/-! DEFINITION. The FUS island: grid ticks, the resampler, the pose track, points and grids, and poses at camera exposure
(08_fusion_grid R182-R198). -/
namespace Sys2Proof.Machine

/-- `f` applied to the FUS island. -/
def Dev.onFus (d : Dev) (f : Fus → Fus) : Dev := { d with fus := f d.fus }

/-- A grid beside its objects. -/
def Dev.grid (d : Dev) (g : Nat) : GridRt := (kvGet d.fus.grids g).getD {}

/-- `f` applied to a grid; a grid as at reset is not listed. -/
def Dev.onGrid (d : Dev) (g : Nat) (f : GridRt → GridRt) : Dev :=
  let r := f (d.grid g)
  d.onFus fun u => { u with grids := if r = {} then kvDel u.grids g else kvPut u.grids g r }

/-- The first item of a list that meets a test is taken out. -/
def takeFirst {α : Type} (f : α → Bool) : List α → Option (α × List α)
  | [] => none
  | a :: l => if f a then some (a, l) else (takeFirst f l).map fun r => (r.1, a :: r.2)

/-- An item leaves a stage and is consumed without a derived item (06_pours R153). -/
def Dev.consume (d : Dev) (k : Nat) (it : Item) : Dev := (d.setStage k ((d.stageItems k).erase it)).genDec it

/-- A signed field of a byte string. -/
def sAt (b : Bytes) (off len : Nat) : Int := signed (8 * len) (leAt b off len)

/-- Position, orientation, velocity and body rate of a pose record (Table 3). -/
def PoseRec.pos (p : PoseRec) : List Int := [sAt p.raw 8 4, sAt p.raw 12 4, sAt p.raw 16 4]
def PoseRec.quat (p : PoseRec) : List Int := [sAt p.raw 20 4, sAt p.raw 24 4, sAt p.raw 28 4, sAt p.raw 32 4]
def PoseRec.vel (p : PoseRec) : List Int := [sAt p.raw 36 2, sAt p.raw 38 2, sAt p.raw 40 2]
def PoseRec.rate (p : PoseRec) : List Int := [sAt p.raw 42 2, sAt p.raw 44 2, sAt p.raw 46 2]

/-- A resolved pose (R188): 0 interpolated, 1 extrapolated, 2 stale, 3 missing; the position in µm over `den`, and a
quaternion of the orientation's direction, of any norm: nothing is rounded. -/
structure Pose where
  case : Nat
  den : Int
  pos : List Int
  quat : List Int

/-- The identity, which stands for a missing pose (R191). -/
def Pose.missing : Pose := { case := 3, den := 1, pos := [0, 0, 0], quat := [1073741824, 0, 0, 0] }

/-- A pose as a record holds it: case, position in whole µm, orientation normalised to Q2.30, with the roundings the spec
leaves open (log 32). -/
def Pose.toList (p : Pose) : List Int := (p.case : Int) :: (p.pos.map (openDiv · p.den) ++ quatUnit p.quat)

/-- The position of a pose in fixed point. -/
def Pose.at_ (p : Pose) : List Int := p.pos.map fun x => x * fxOne / p.den

/-- Both records' values mixed at `num`/`den` (R188): linearly, the second quaternion negated where their dot product is below
0. -/
def Pose.between (a b : PoseRec) (num den : Int) : Pose :=
  let near := (List.zipWith (fun x y => x * y) a.quat b.quat).sum
  let q2 := if near < 0 then b.quat.map fun x => -x else b.quat
  let mix (x y : List Int) : List Int := List.zipWith (fun x y => x * (den - num) + y * num) x y
  { case := 0, den := den, pos := mix a.pos b.pos, quat := mix a.quat q2 }

/-- A record carried forward by its velocity (mm/s) and body rate (mrad/s) over `t` ns (R188): newest + v t, and newest times
(1, w t / 2). -/
def Pose.forward (a : PoseRec) (t : Int) : Pose :=
  { case := 1, den := 1000000, pos := List.zipWith (fun x v => x * 1000000 + v * t) a.pos a.vel,
    quat := quatMul a.quat (2000000000000 :: a.rate.map fun w => w * t) }

/-- A record held. -/
def Pose.hold (a : PoseRec) : Pose := { case := 2, den := 1, pos := a.pos, quat := a.quat }

/-- The pose at stamp `s` from a track, newest first (R188); `none` waits for a later record. `over` says that PoseWait
has ended; gaps and limits are in ns. -/
def resolvePose (maxGap limit : Int) (past : Bool) (s : Nat) : List PoseRec → Option Pose
  | [] => some Pose.missing
  | n :: older =>
    if after s n.stamp then
      if !past then none
      else if stampDiff s n.stamp ≤ limit then some (Pose.forward n (stampDiff s n.stamp)) else some (Pose.hold n)
    else if s = n.stamp then some (Pose.between n n 0 1)
    else
      let rec look (b : PoseRec) : List PoseRec → Pose
        | [] => Pose.missing
        | a :: l =>
          if atOrAfter s a.stamp then
            (if stampDiff b.stamp a.stamp ≤ maxGap then Pose.between a b (stampDiff s a.stamp) (stampDiff b.stamp a.stamp)
             else Pose.hold a)
          else look a l
      some (look n older)

/-- `resolvePose` over a track with the limits in force. -/
def Dev.poseIn (d : Dev) (track : List PoseRec) (past : Bool) (s : Nat) : Option Pose :=
  resolvePose (d.reg Ob.poseMaxGap * 1000) (d.reg Ob.poseExtrapLimit * 1000) past s track

/-- PoseState and its events follow a resolution (Table 6, Table 7). -/
def Dev.notePose (d : Dev) (case : Nat) : Dev :=
  let newest := (d.fus.track.head?.map fun p => p.stamp).getD 0
  if case = 1 then d.set Ob.poseState 2
  else if case = 2 then
    if d.reg Ob.poseState = 3 then d
    else (d.set Ob.poseState 3).event { code := 0x3061, island := Isl.fus, d1 := newest % 4294967296 }
  else if case = 3 ∧ d.fus.track = [] ∧ !d.fus.emptyNoted then
    (d.onFus fun u => { u with emptyNoted := true }).event { code := 0x3062, island := Isl.fus }
  else d

/-- The stamps of the poses a camera frame takes (R198). -/
def Dev.frameStamps (d : Dev) (it : Item) : List Nat :=
  let last := stampAdd it.subject (d.kp it.srcNum 3 * (bits (d.kp it.srcNum 2) 31 16 - 1) : Nat)
  if d.reg Ob.exposurePose = 2 then [it.subject, last] else [it.subject]

/-- The poses of a frame, where each is resolved. -/
def Dev.framePoses (d : Dev) (it : Item) : Option (List Pose) :=
  let l := d.frameStamps it
  let past := atOrAfter d.now (stampAdd (l.getLast?.getD it.subject) (d.reg Ob.poseWait * 1000))
  l.mapM fun s => d.poseIn d.fus.track past s

/-- Frames whose poses are resolved go on to the tensor engines (R198). -/
def Dev.releaseFrames (d : Dev) : Dev :=
  d.each (d.stageItems 4) fun d it =>
    match d.framePoses it with
    | none => d
    | some ps =>
      let d := d.each ps fun d p => d.notePose p.case
      let d := d.setStage 4 ((d.stageItems 4).erase it)
      d.setStage 2 (d.stageItems 2 ++ [{ it with poses := ps.map Pose.toList }])

/-- Builds whose poses are all resolved keep the track that resolved them (R189). -/
def Dev.resolveBuilds (d : Dev) : Dev :=
  d.each (List.range 4) fun d g =>
    d.each (d.grid g).builds fun d b =>
      if b.track.isSome then d
      else
        let past := atOrAfter d.now (stampAdd b.close (d.reg Ob.poseWait * 1000))
        match d.poseIn d.fus.track past b.close with
        | none => d
        | some p => (d.notePose p.case).onGrid g fun r =>
            { r with builds := r.builds.map fun x => if x = b then { x with track := some d.fus.track } else x }

/-- POSE_RECORD (R187): FUS takes the head of PoseQueue. -/
def execPoseRecord (s : State) : Host.Outcome State Fault Refusal :=
  onDev (fun d =>
    let q := d.nat Ob.poseQueue
    if q = 0xFFFF || d.quiesced Isl.fus then d
    else match d.readQueue q with
      | none => d
      | some (it, d) =>
        let d := d.when (d.holdsGen q) fun d => d.genDec it
        let st := leAt it.data 0 6
        let fresh := match d.fus.track with
          | [] => true
          | p :: _ => after st p.stamp
        if it.data.length = 48 && fresh then
          let d := d.onFus fun u => { u with track := ({ stamp := st, raw := it.data } :: u.track).take 256, emptyNoted := false }
          ((d.setN Ob.poseNewest st).set Ob.poseState 1).resolveBuilds.releaseFrames
        else
          let d := d.bump Ob.poseRejected
          let ev : Ev := { code := 0x3060, island := Isl.fus, d1 := st % 4294967296 }
          match d.queueOwner q with
          | some p => d.violate (.fixed (partnerId 1 p)) fun _ => ev
          | none => d.event ev) s

/-- POSE_WAIT_EXPIRY (R188): closes and frames whose PoseWait has ended are resolved with what the track holds. -/
def execPoseWaitExpiry (s : State) : Host.Outcome State Fault Refusal :=
  onDev (fun d => if d.quiesced Isl.fus then d else d.resolveBuilds.releaseFrames) s

/-- TickPeriod in ns. -/
def Dev.tickNs (d : Dev) : Nat := d.nat Ob.tickPeriod

/-- Usable samples of a slot at the resampler (R185), oldest first. -/
def Dev.samples (d : Dev) (slot : Nat) : List Item :=
  (d.stageItems 3).filter fun it => it.srcNum == slot && !it.doubtful

/-- GridLatency and ResampleLatency (R186, R195), in ticks. -/
def Dev.gridLatency (d : Dev) (g : Nat) : Nat :=
  ceilDiv ((Nat.max (d.nat (Ob.gridPointWait g)) (d.nat Ob.poseWait) + 400) * 1000) (Nat.max 1 d.tickNs)
def Dev.resampleLatency (d : Dev) : Nat := ceilDiv (d.nat Ob.resampleWait * 1000) (Nat.max 1 d.tickNs) + 1

/-- A resample input delivers (R184): its slot is of kind 3 or 4 with PathMask bit 3, or items that the slot's earlier entry
routed here are still to be taken (06_pours R152). -/
def Dev.inputSlot (d : Dev) (i : Nat) : Option Nat :=
  let s := d.nat (Ob.rsInInputSlot i)
  if s < 32 && ((stageTakes 3 (d.nat (Ob.slotSourceKind s)) && bit (d.nat (Ob.slotPathMask s)) 3) || d.samples s != [])
  then some s else none

/-- The kind of an input's samples: their own, where one waits (06_pours R152), else the slot's. -/
def Dev.inputKind (d : Dev) (slot : Nat) : Nat :=
  match d.samples slot with
  | it :: _ => it.entry.kind
  | [] => d.nat (Ob.slotSourceKind slot)

/-- InputState (Table 6). -/
def Dev.inputState (d : Dev) (i : Nat) : Nat :=
  if !d.flag Ob.resampleEnable || d.nat (Ob.rsInInputSlot i) = 0xFF then 0
  else
    let s := d.nat (Ob.rsInInputSlot i)
    if stageTakes 3 (d.nat (Ob.slotSourceKind s)) && bit (d.nat (Ob.slotPathMask s)) 3 then 1 else 2

/-- The settings a grid's window closes under. -/
def Dev.gridCfg (d : Dev) (g : Nat) : GridCfg :=
  { frame := d.nat (Ob.gridFrame g), width := d.nat (Ob.gridWidth g), height := d.nat (Ob.gridHeight g),
    cell := d.nat (Ob.gridCellSize g), bands := (List.range 9).map fun i => d.reg (Ob.gridBandEdge g i),
    decay := d.nat (Ob.gridDecay g), queue := d.nat (Ob.gridQueue g) }

/-- Bytes of a grid buffer. -/
def GridCfg.size (c : GridCfg) : Nat := 64 + 8 * c.width * c.height

/-- Where a close's buffer lies (R196): three buffers in turn, contiguous, each the size of the grid in force. -/
def gridBuf (g : Nat) (c : GridCfg) (close : Nat) : Nat := Config.gridBase g + close % 3 * c.size

/-- The item of a source at the tensor engines' stage. -/
def ofSource (src : Nat) (it : Item) : Bool := it.srcKind == src / 4096 && it.srcNum == src % 4096

/-- The newest item of a source within AssocWindow of a trigger (09_tensor_engines R206). -/
def Dev.assoc (d : Dev) (m src : Nat) (subject : Nat) : Option Item :=
  let w := d.reg (Ob.modelAssocWindow m) * 1000
  ((d.ten.recent.filter fun x =>
      x.1 == src && atOrAfter subject x.2.subject && decide (stampDiff subject x.2.subject ≤ w)).map Prod.snd).foldl
    (fun b x => match b with
      | none => some x
      | some y => if after x.subject y.subject then some x else b) none

/-- Items the tensor engines hold: triggers not dispatched, the inputs of inferences that run or are to be dispatched again,
the newest item of each source kept for association and those that a waiting trigger would take (log 153). -/
def Dev.tenHolds (d : Dev) : List Item :=
  let ready := d.ten.models.flatMap fun m => m.2.ready.map fun it => (m.1, it)
  let again := d.ten.again.map fun a => (a.model, a.trig)
  let newest := (d.ten.recent.zipIdx.filter fun x => (d.ten.recent.take x.2).all fun y => y.1 != x.1.1).map fun x => x.1.2
  (ready ++ again).flatMap (fun x => x.2 :: (List.range 3).filterMap fun i => d.assoc x.1 (d.nat (Ob.modelInput x.1 (i + 1))) x.2.subject)
    ++ d.ten.running.flatMap (fun i => i.trig :: i.inputs.filterMap fun x => x) ++ newest

/-- An item of a grid whose cells lie at DRAM address `a`. -/
def gridItemAt (a : Nat) (it : Item) : Bool := it.payKind == 2 && it.srcKind == 2 && it.addr == a

/-- A device-internal item references DRAM address `a`: at a stage, in a queue whose consumer is in the device, at the tensor
engines or at the cupper. -/
def Dev.referenced (d : Dev) (a : Nat) : Bool :=
  d.stage.any (fun e => e.2.any (gridItemAt a))
    || d.queues.any (fun e => d.holdsGen e.1 && e.2.items.any (gridItemAt a))
    || d.tenHolds.any (gridItemAt a) || d.safe.grids.any fun e => gridItemAt a e.2

/-- A grid's window in ns (R194). -/
def Dev.gridWindow (d : Dev) (g : Nat) : Nat := Nat.max 1 (d.nat (Ob.gridUpdateTicks g)) * Nat.max 1 d.tickNs

/-- The last instant at or before a stamp at which a grid's window opens (R183, R194). -/
def Dev.windowAt (d : Dev) (g t : Nat) : Nat := (d.extOf t / d.gridWindow g * d.gridWindow g % (span48 : Int)).toNat

/-- The start of a grid's open window. -/
def Dev.gridStart (d : Dev) (g : Nat) : Nat := (d.grid g).start.getD (d.windowAt g d.now)

/-- A grid closes at tick stamp `t` (R194-R196): its window's points go to a build, or, where the buffer due is still
referenced, the window continues and the close is skipped. -/
def Dev.closeGrid (d : Dev) (g t : Nat) : Dev :=
  let r := d.grid g
  let c := d.gridCfg g
  let start := r.start.getD (stampAdd t (-(d.gridWindow g : Int)))
  if start = t then d
  else if d.referenced (gridBuf g c r.closes) then
    let d := d.onGrid g fun r => { r with start := some start, extended := true }
    (d.bump (Ob.gridGridsSkipped g)).event { code := 0x3063, island := Isl.fus, d1 := g }
  else
    let b : GridBuild := { close := t, start := start, cfg := c, extended := r.extended, cleared := r.cleared, fresh := r.fresh,
                           lateFlag := r.lateFlag, overflow := r.overflow, late := r.late,
                           points := r.points.filter fun p => after t p.stamp && atOrAfter p.stamp start }
    d.onGrid g fun r => { r with start := some t, closes := r.closes + 1, extended := false, cleared := false, fresh := false,
                                 lateFlag := false, late := 0, overflow := 0,
                                 points := r.points.filter (fun p => !after t p.stamp), builds := r.builds ++ [b] }

/-- GRID_TICK (R182, R194): the tick at the last multiple of TickPeriod, once. -/
def execGridTick (s : State) : Host.Outcome State Fault Refusal :=
  onDev (fun d =>
    let k := d.ext / d.tickNs
    if !d.tl.running || d.quiesced Isl.fus || d.fus.lastTick == some k then d
    else
      let t := k * d.tickNs % span48
      let d := (d.onFus fun u => { u with lastTick := some k }).bump Ob.tickCount
      let d := d.when (d.flag Ob.resampleEnable) fun d => d.onFus fun u => { u with due := u.due ++ [t] }
      let d := d.each (d.stageItems 3) fun d it =>
        d.when (!d.flag Ob.resampleEnable || (List.range 8).all fun i => d.nat (Ob.rsInInputSlot i) != it.srcNum) fun d => d.consume 3 it
      (d.each (List.range 4) fun d g =>
        d.when (d.flag (Ob.gridEnable g) && k % Nat.max 1 (d.nat (Ob.gridUpdateTicks g)) == 0) fun d => d.closeGrid g t).resolveBuilds) s

/-- The newest sample with stamp at or before `t`. -/
def sampleBefore (t : Nat) (l : List Item) : Option Item :=
  l.foldl (fun b it => if atOrAfter t it.subject && (match b with | none => true | some x => atOrAfter it.subject x.subject)
    then some it else b) none

/-- The oldest sample with stamp after `t`. -/
def sampleAfter (t : Nat) (l : List Item) : Option Item :=
  l.foldl (fun b it => if after it.subject t && (match b with | none => true | some x => after x.subject it.subject)
    then some it else b) none

/-- Input channels of a sample (R184): the six scaled fields of an IMU item, or the first four counts of a group. -/
def Dev.channels (d : Dev) (i : Nat) (it : Item) : List Int :=
  let lay := d.nat (Ob.rsInResampleLayout i)
  if it.entry.kind = 3 then
    let w := if bit lay 16 then 4 else 2
    (List.range 6).map fun j =>
      let raw := signed (8 * w) (fieldAt it.data (lay % 65536 + j * w) w (bit lay 17))
      roundDiv (raw * d.reg (if j < 3 then Ob.rsInScaleA i else Ob.rsInScaleB i)) 65536
  else
    let n := Nat.min 4 (it.data.length / 16)
    (List.range n).map fun j => (leAt it.data (16 * j) 4 : Int)

/-- What an input gives at tick `t` (R185): the values, HELD, STALE and NONE. Encoder counts are unwrapped from the
earlier sample. -/
def Dev.inputAt (d : Dev) (i slot t : Nat) : List Int × Bool × Bool × Bool :=
  let l := d.samples slot
  let gap := d.reg Ob.resampleMaxGap * 1000
  let enc := d.inputKind slot == 4
  match sampleBefore t l with
  | none => ([], false, false, true)
  | some a =>
    let va := d.channels i a
    let old := decide (gap < stampDiff t a.subject)
    match sampleAfter t l with
    | none => (va, true, old, false)
    | some b =>
      if gap < stampDiff b.subject a.subject then (va, !old, old, false)
      else
        let vb := d.channels i b
        let step (x y : Int) : Int := if enc then signed 32 (unsigned 32 (y - x)) else y - x
        (List.zipWith (fun x y => x + roundDivInt (step x y * stampDiff t a.subject) (stampDiff b.subject a.subject)) va vb,
          false, false, false)

/-- One 40-byte block of a tick record (Table 2), with its flags and the device that remembers encoder counts. -/
def Dev.resampleBlock (d : Dev) (i slot t : Nat) : Bytes × Bool × Dev :=
  let (v, held, stale, no) := d.inputAt i slot t
  let used := ((d.samples slot).filter fun it => after t it.subject
    && decide (stampDiff t it.subject ≤ d.tickNs)).length
  let tail := leBytes 2 (held.toNat + 2 * stale.toNat + 4 * no.toNat) ++ leBytes 2 used ++ leBytes 4 0
  let u32 (x : Int) : Bytes := leBytes 4 (unsigned 32 x)
  let put (n : Nat) (l : List Int) : Bytes := ((l ++ List.replicate n 0).take n).flatMap u32
  if d.inputKind slot = 3 then (put 6 v ++ leBytes 8 0 ++ tail, held || stale, d)
  else
    let before := stampAdd t (-(d.tickNs : Int))
    let p := match kvGet d.fus.prev i with
      | some (s, l) => if s = before then l else (d.inputAt i slot before).1
      | none => (d.inputAt i slot before).1
    let rates := List.zipWith (fun x y => roundDiv (signed 32 (unsigned 32 (x - y)) * 1000000000) d.tickNs) v p
    (put 4 v ++ put 4 rates ++ tail, held || stale, d.onFus fun u => { u with prev := kvPut u.prev i (t, v) })

/-- The record of tick `t` may be emitted (R186): each delivering input has its later sample, or ResampleWait has
passed. -/
def Dev.recordDue (d : Dev) (t : Nat) : Bool :=
  atOrAfter d.now (stampAdd t (d.reg Ob.resampleWait * 1000))
    || (List.range 8).all fun i => match d.inputSlot i with
        | none => true
        | some s => (sampleAfter t (d.samples s)).isSome

/-- Samples no later tick needs are consumed: all of a slot before the newest usable one at or before `t`. -/
def Dev.dropSamples (d : Dev) (t : Nat) : Dev :=
  d.each (d.stageItems 3) fun d it =>
    let keep := match sampleBefore t (d.samples it.srcNum) with
      | none => after it.subject t
      | some a => atOrAfter it.subject a.subject && !it.doubtful
    d.when (!keep) fun d => d.consume 3 it

/-- The block of input `i` at tick `t`, zero where the input is not in use; a start of doubt is reported (R186). -/
def Dev.inputBlock (d : Dev) (t i : Nat) : Bytes × Dev :=
  match d.inputSlot i with
  | none => (List.replicate 40 0, d)
  | some slot =>
    let (b, doubt, d) := d.resampleBlock i slot t
    let d := d.when (doubt && !d.fus.held.contains i) fun d => d.event { code := 0x3065, island := Isl.fus, d1 := i }
    (b, d.onFus fun u => { u with held := if doubt then i :: u.held.erase i else u.held.erase i })

/-- The blocks of some inputs, in order. -/
def Dev.recordBlocks (d : Dev) (t : Nat) : List Nat → Bytes × Dev
  | [] => ([], d)
  | i :: l => ((d.inputBlock t i).1 ++ ((d.inputBlock t i).2.recordBlocks t l).1, ((d.inputBlock t i).2.recordBlocks t l).2)

/-- RESAMPLE_TICK_RECORD (R185, R186): the earliest record due is emitted to ResampleQueue. -/
def execResampleTickRecord (s : State) : Host.Outcome State Fault Refusal :=
  onDev (fun d =>
    if d.quiesced Isl.fus then d
    else match d.fus.due with
      | [] => d
      | t :: rest =>
        if !d.recordDue t then d
        else
          let ins := (List.range 8).filter fun i => (d.inputSlot i).isSome
          let mask := (ins.map fun i => 2 ^ i).sum
          let (blocks, d) := d.recordBlocks t (List.range 8)
          let data := leBytes 6 t ++ leBytes 1 mask ++ leBytes 1 0 ++ leBytes 4 d.fus.recSeq ++ leBytes 4 0 ++ blocks
          let d := (d.onFus fun u => { u with due := rest, recSeq := (u.recSeq + 1) % 4294967296 }).dropSamples t
          let q := d.nat Ob.resampleQueue
          if q = 0xFFFF then d
          else
            d.emitItem q { subject := t, srcKind := 7, seq := d.seqOf 7 0, producer := Isl.fus } data
              (decide (d.resampleLatency * d.tickNs < d.ago t))) s

/-- A slot's mounting transform: position and quaternion. -/
def Dev.mount (d : Dev) (s : Nat) : List Int :=
  [d.reg (Ob.mountX s), d.reg (Ob.mountY s), d.reg (Ob.mountZ s), d.reg (Ob.mountQw s), d.reg (Ob.mountQx s),
   d.reg (Ob.mountQy s), d.reg (Ob.mountQz s)]

/-- The value that held at a stamp, of one that is `cur` now and whose earlier values stand with the ticks at which each was
left, newest first (R197). -/
def heldAt {α : Type} (cur : α) (l : List (Nat × α)) (stamp : Nat) : α :=
  l.foldl (fun v c => if after c.1 stamp then c.2 else v) cur

/-- An earlier value joins those kept, none of them left more than 2 s before. -/
def keepOld {α : Type} (t : Nat) (v : α) (l : List (Nat × α)) : List (Nat × α) :=
  (t, v) :: l.filter fun c => decide (stampDiff t c.1 ≤ 2000000000)

/-- The mounting transform that holds for a point's stamp (R197). -/
def Dev.mountAt (d : Dev) (s stamp : Nat) : List Int := heldAt (d.mount s) ((kvGet d.fus.mountOld s).getD []) stamp

/-- InputMask of a grid, 0 while it is disabled. -/
def Dev.gridMask (d : Dev) (g : Nat) : Nat := if d.flag (Ob.gridEnable g) then d.nat (Ob.gridInputMask g) else 0

/-- A grid takes a slot's point of a stamp (R190, R197). -/
def Dev.gridTakes (d : Dev) (g slot stamp : Nat) : Bool := bit (heldAt (d.gridMask g) (d.grid g).masks stamp) slot

/-- The points of a scanner item (R190): its records but those flagged NO_RETURN, with their stamps. -/
def Dev.itemPoints (d : Dev) (it : Item) : List Point :=
  ((List.range (it.data.length / 24)).map fun i => (it.data.drop (24 * i)).take 24).filterMap fun r =>
    if bit (leAt r 14 2) 0 then none
    else
      let s := stampAdd it.subject (leAt r 16 4)
      some { stamp := s, mount := d.mountAt it.srcNum s, raw := r }

/-- A point is stored for the window it belongs to (R183, R195), or counted late or beyond the store. -/
def Dev.storePoint (d : Dev) (g : Nat) (p : Point) : Dev :=
  let r := d.grid g
  let full (n : Nat) : Bool := decide (262144 ≤ n)
  if atOrAfter p.stamp (d.gridStart g) then
    if full r.points.length then (d.bump (Ob.gridPointsOverflow g)).onGrid g fun r => { r with overflow := r.overflow + 1 }
    else d.onGrid g fun r => { r with points := r.points ++ [p] }
  else match r.builds.find? fun b => atOrAfter p.stamp b.start && after b.close p.stamp && !b.pointsDone with
    | some b =>
      let past := full b.points.length
      let b' := if past then { b with overflow := b.overflow + 1 } else { b with points := b.points ++ [p] }
      (d.when past fun d => d.bump (Ob.gridPointsOverflow g)).onGrid g fun r =>
        { r with builds := r.builds.map fun x => if x = b then b' else x }
    | none => (d.bump (Ob.gridPointsLate g)).onGrid g fun r => { r with late := r.late + 1, lateFlag := true }

/-- GRID_POINT_ITEM (R190, R195): the oldest scanner item at the builder is stored for every grid that takes its slot.
Late points of the item log 0x3064 with their count. -/
def execGridPointItem (s : State) : Host.Outcome State Fault Refusal :=
  onDev (fun d =>
    if d.quiesced Isl.fus then d
    else match d.stageItems 0 with
      | [] => d
      | it :: _ =>
        let d := d.consume 0 it
        if it.doubtful then d
        else
          let ps := d.itemPoints it
          d.each (List.range 4) fun d g =>
            let ps := ps.filter fun p => d.gridTakes g it.srcNum p.stamp
            if ps = [] then d
            else
              let was := (d.grid g).late
              let d := d.each ps fun d p => d.storePoint g p
              d.when (decide (was < (d.grid g).late)) fun d =>
                d.event { code := 0x3064, island := Isl.fus, d1 := g, d2 := (d.grid g).late - was }) s

/-- POINT_WAIT_EXPIRY (R195): PointWait after a close, its points are complete. -/
def execPointWaitExpiry (grid : Fin 4) (s : State) : Host.Outcome State Fault Refusal :=
  onDev (fun d =>
    if d.quiesced Isl.fus then d
    else
      let past (b : GridBuild) : Bool := atOrAfter d.now (stampAdd b.close (d.reg (Ob.gridPointWait grid) * 1000))
      d.onGrid grid fun r =>
        { r with builds := r.builds.map fun b => if past b then { b with pointsDone := true } else b }) s

/-- What the points of a window do to one cell (R194). -/
structure CellHits where
  hits : Nat := 0
  bands : Nat := 0
  intensity : Nat := 0
  zmin : Int := 0x7FFF
  zmax : Int := -0x8000

/-- A binned point (R193): its cell, its height band, height in mm and intensity. -/
structure Binned where
  cell : Nat
  band : Nat
  z : Int
  intensity : Nat

/-- A point in the grid's frame, in fixed-point µm (R191): with the pose at its stamp missing, the body-frame point. -/
def deskew (frame : Nat) (pt ps : Pose) (body : List Int) : List Int :=
  if ps.case = 3 then body
  else
    let world := vecAdd ps.at_ (rotate ps.quat body)
    if frame = 1 then world else rotate (quatConj pt.quat) (vecSub world pt.at_)

/-- A fixed-point value within 2^-40 of a whole number is that number. -/
def snapFx (x : Int) : Int :=
  let n := (x + fxOne / 2) / fxOne
  if (x - n * fxOne).natAbs < 16777216 then n * fxOne else x

/-- Bins a de-skewed point over a grid whose cell (0, 0) has its lower corner at `ox`, `oy` µm; `none` is outside. -/
def binPoint (c : GridCfg) (ox oy : Int) (p : List Int) (intensity : Nat) : Option Binned :=
  let size : Int := c.cell * 1000
  let at_ (i : Nat) : Int := snapFx (p.getD i 0)
  let ix := (at_ 0 - ox * fxOne) / (size * fxOne)
  let iy := (at_ 1 - oy * fxOne) / (size * fxOne)
  let inBand (i : Nat) : Bool :=
    decide (c.bands.getD i 0 * 1000 * fxOne ≤ at_ 2) && decide (at_ 2 < c.bands.getD (i + 1) 0 * 1000 * fxOne)
  match (List.range 8).find? inBand with
  | none => none
  | some b =>
    if ix < 0 ∨ iy < 0 ∨ c.width ≤ ix ∨ c.height ≤ iy then none
    else some { cell := (iy * 1024 + ix).toNat, band := b, z := openDiv (at_ 2) (1000 * fxOne), intensity := intensity }

/-- A point joins its cell. -/
def CellHits.add (h : CellHits) (b : Binned) : CellHits :=
  { hits := h.hits + 1, bands := h.bands ||| 2 ^ b.band, intensity := Nat.max h.intensity b.intensity,
    zmin := if b.z < h.zmin then b.z else h.zmin, zmax := if h.zmax < b.z then b.z else h.zmax }

/-- The eight bytes of a cell (Table 4). -/
def cellBytes (occ : Nat) (h : CellHits) : Bytes :=
  leBytes 1 occ ++ leBytes 1 h.bands ++ leBytes 2 h.intensity ++ leBytes 2 (unsigned 16 h.zmin) ++ leBytes 2 (unsigned 16 h.zmax)

/-- Occupancy moved to a new origin (R192): cells that leave the grid are dropped. -/
def shiftOcc (c : GridCfg) (dx dy : Int) (m : Assoc Nat) : Assoc Nat :=
  m.foldl (fun acc e =>
    let x := (e.1 % 1024 : Nat) - dx
    let y := (e.1 / 1024 : Nat) - dy
    if x < 0 ∨ y < 0 ∨ c.width ≤ x ∨ c.height ≤ y then acc else kvPut acc (y * 1024 + x).toNat e.2) []

/-- Lower corner of cell (0, 0) on one axis (R192): centred in the robot frame; in the world frame the pose position
`pos`/`den` less half the extent, snapped down to whole cells. -/
def gridOrigin (c : GridCfg) (cells : Nat) (pos den : Int) : Int :=
  let size : Int := c.cell * 1000
  let half := cells * size / 2
  if c.frame = 0 then -half else (pos - half * den) / (size * den) * size

/-- What a build comes to: the buffer's bytes after the header, the new occupancy, the origin, points binned and outside,
and the pose cases used. -/
structure GridOut where
  cells : Bytes
  occ : Assoc Nat
  ox : Int
  oy : Int
  binned : Nat
  outside : Nat
  cases : List Nat

/-- The build of a closed window (R191-R194). -/
def Dev.buildGrid (d : Dev) (r : GridRt) (b : GridBuild) : GridOut :=
  let c := b.cfg
  let track := b.track.getD []
  let pose (s : Nat) : Pose := (d.poseIn track true s).getD Pose.missing
  let pt := pose b.close
  let ox := gridOrigin c c.width (pt.pos.getD 0 0) pt.den
  let oy := gridOrigin c c.height (pt.pos.getD 1 0) pt.den
  let size : Int := c.cell * 1000
  let uses := b.points.map fun p => (p, pose p.stamp)
  let moved := (uses.filter fun u => !(u.2.case == 3 && c.frame == 1)).map fun u =>
    (deskew c.frame pt u.2 (mounted u.1.mount (polar (leAt u.1.raw 0 4) (sAt u.1.raw 4 4) (sAt u.1.raw 8 4))),
      leAt u.1.raw 12 2)
  let bins := moved.filterMap fun m => binPoint c ox oy m.1 m.2
  let hits := bins.foldl (fun (m : Assoc CellHits) x => kvPut m x.cell (((kvGet m x.cell).getD {}).add x)) []
  let old := if b.fresh then [] else if c.frame = 0 then r.occ else shiftOcc c ((ox - r.ox) / size) ((oy - r.oy) / size) r.occ
  let occAt (i : Nat) : Nat :=
    Nat.min 255 ((kvGet old i).getD 0 * c.decay / 256 + ((kvGet hits i).getD {}).hits)
  let idx := (List.range c.height).flatMap fun y => (List.range c.width).map fun x => y * 1024 + x
  { cells := idx.flatMap fun i => cellBytes (occAt i) ((kvGet hits i).getD {}),
    occ := (idx.filter fun i => occAt i != 0).map fun i => (i, occAt i), ox := ox, oy := oy,
    binned := bins.length, outside := moved.length - bins.length, cases := pt.case :: uses.map fun u => u.2.case }

/-- The grid header (Table 5). -/
def gridHeader (g : Nat) (b : GridBuild) (o : GridOut) (seq : Nat) : Bytes :=
  let flags := b.extended.toNat + 2 * (o.cases.any fun c => c == 1 || c == 2).toNat + 4 * (o.cases.contains 3).toNat
    + 8 * b.lateFlag.toNat + 16 * b.cleared.toNat + 32 * (decide (0 < b.overflow)).toNat
  let h := leBytes 4 0x44474E55 ++ leBytes 1 g ++ leBytes 1 flags ++ leBytes 2 0 ++ leBytes 4 seq ++ leBytes 6 b.close
    ++ leBytes 6 b.start ++ leBytes 2 b.cfg.cell ++ leBytes 2 b.cfg.width ++ leBytes 2 b.cfg.height ++ leBytes 2 0
    ++ leBytes 4 (unsigned 32 o.ox) ++ leBytes 4 (unsigned 32 o.oy) ++ leBytes 4 o.binned ++ leBytes 4 b.late
    ++ leBytes 4 o.outside ++ leBytes 8 0
  h ++ leBytes 4 (crc32c h)

/-- GRID_BUILD_DONE (R194-R196): the oldest close whose points and poses are complete is written to its buffer and
delivered to the tensor engines, to the cupper's cross-check and to GridQueue. An item kept for association alone is let go
where its buffer is written again (log 153). -/
def execGridBuildDone (grid : Fin 4) (s : State) : Host.Outcome State Fault Refusal :=
  onDev (fun d =>
    let r := d.grid grid
    match r.builds with
    | [] => d
    | b :: rest =>
      if d.quiesced Isl.fus || !b.pointsDone || b.track.isNone then d
      else
        let o := d.buildGrid r b
        let seq := (d.nat (Ob.gridSeq grid) + 1) % 4294967296
        let buf := gridHeader grid b o seq ++ o.cells
        let a := gridBuf grid b.cfg (r.closes - r.builds.length)
        let d := { d with ten := { d.ten with recent := d.ten.recent.filter fun x => !gridItemAt a x.2 } }
        let d := (d.memWrite a buf).onGrid grid fun r => { r with builds := rest, occ := o.occ, ox := o.ox, oy := o.oy }
        let d := (d.setN (Ob.gridSeq grid) seq).setN (Ob.gridLastClose grid) b.close
        let d := (d.bumpBy (Ob.gridPointsBinned grid) o.binned).bumpBy (Ob.gridPointsOutside grid) o.outside
        let d := d.when (decide (0 < b.overflow)) fun d =>
          d.event { code := 0x3066, island := Isl.fus, d1 := (grid : Nat), d2 := b.overflow }
        let it : Item := { subject := b.close, completion := d.stampIn Isl.fus, srcKind := 2, srcNum := grid, volatile := true, payKind := 2,
                           len := buf.length, addr := a, payCheck := crc32c buf, producer := Isl.fus, seq := d.seqOf 2 grid }
        let j := d.judgeLate (d.derived it) (decide (d.gridLatency grid * d.tickNs < d.ago b.close))
        let d := (j.2.nextSeq 2 grid).toStage 2 j.1
        let d := { d with safe := { d.safe with grids := kvPut d.safe.grids grid j.1 } }
        d.when (b.cfg.queue != 0xFFFF) fun d => d.enqueue b.cfg.queue j.1) s

/-- A grid starts anew from the tick stamp `t` (R197): its cells are empty at the next close, which `cleared` marks. Windows
closed before are still built. -/
def Dev.clearGrid (d : Dev) (g t : Nat) (cleared : Bool) : Dev :=
  d.onGrid g fun r => { start := some t, closes := r.closes, cleared := cleared, fresh := true, builds := r.builds,
                        occ := r.occ, ox := r.ox, oy := r.oy, masks := r.masks,
                        points := r.points.filter fun p => atOrAfter p.stamp t }

/-- What follows a change of a grid object at tick stamp `t`, of values that `d0` holds (R197): an input mask and an enable
apply by the points' stamps. -/
def Dev.gridWritten (d0 d : Dev) (g sub t : Nat) : Dev :=
  let d := d.when (sub == 1 || sub == 7) fun d => d.onGrid g fun r => { r with masks := keepOld t (d0.gridMask g) r.masks }
  if sub = 1 then
    if d.flag (Ob.gridEnable g) then d.clearGrid g (d.windowAt g t) false
    else d.onGrid g fun r => { closes := r.closes, fresh := true, builds := r.builds, occ := r.occ, ox := r.ox, oy := r.oy, masks := r.masks }
  else if (2 ≤ sub ∧ sub ≤ 5) ∨ (0x0A ≤ sub ∧ sub ≤ 0x12) then d.clearGrid g t true
  else d

/-- What follows a change of a slot's mounting transform at tick stamp `t`: points before it keep the one `d0` held
(R197). -/
def Dev.mountChanged (d0 d : Dev) (s t : Nat) : Dev :=
  d.onFus fun u => { u with mountOld := kvPut u.mountOld s (keepOld t (d0.mount s) ((kvGet u.mountOld s).getD [])) }

/-- What follows a change of a resampler object: a disabled resampler owes no records. -/
def Dev.resamplerWritten (d : Dev) : Dev :=
  if d.flag Ob.resampleEnable then d else d.onFus fun u => { u with due := [], prev := [], held := [] }

/-- What follows a change of PoseQueue (R187): the track is empty. -/
def Dev.poseQueueWritten (d : Dev) : Dev :=
  (d.onFus fun u => { u with track := [], emptyNoted := false }).set Ob.poseState 0

/-- Range conditions of the fusion objects over the values `g` (R193, Table 6): ascending band edges, and a mount
quaternion whose norm is within 2^-10 of 1. -/
def bandsOk (g : Nat → Int) (i : Nat) : Bool :=
  (List.range 8).all fun n => decide (g (Ob.gridBandEdge i n) < g (Ob.gridBandEdge i (n + 1)))

/-- The norm of a Q2.30 quaternion differs from 1 by at most 2^-10. -/
def quatOk (q : List Int) : Bool :=
  let n := (q.map fun x => x * x).sum
  decide ((1073741824 - 1048576) * (1073741824 - 1048576) ≤ n) && decide (n ≤ (1073741824 + 1048576) * (1073741824 + 1048576))

/-- A slot's mount quaternion is near unit norm. -/
def mountOk (g : Nat → Int) (s : Nat) : Bool :=
  quatOk [g (Ob.mountQw s), g (Ob.mountQx s), g (Ob.mountQy s), g (Ob.mountQz s)]

/-- TickPeriod may not change while the resampler or any grid is enabled (R182). -/
def Dev.tickFree (d : Dev) : Bool := !d.flag Ob.resampleEnable && (List.range 4).all fun g => !d.flag (Ob.gridEnable g)

end Sys2Proof.Machine
end

