-- ==== Sys2Proof/Machine/Islands.lean ====
section
/-! DEFINITION. Island states and incarnations (19_power_dies R393-R397), and a partition's DRAM windows
(15_hosts_queues R295). What a quiesce does to each island's own work is in `Power.lean`. -/
namespace Sys2Proof.Machine

/-- The boundary of island `i` closes for a cause (Table 7): 1 control, 2 fault, 3 update, 4 hold, 5 a repeated
fault. -/
def Dev.closeIsland (d : Dev) (i cause : Nat) : Dev :=
  let d := { d with islCause := kvPut d.islCause i cause, islAt := kvPut d.islAt i { closed := d.ext } }
  (d.set (Ob.islState (i - 1)) 2).event { code := 0x8040, island := i, d1 := i, d2 := cause }

/-- The boundary is empty (R393 step 3): the island resets, updates or is held. -/
def Dev.emptyIsland (d : Dev) (i : Nat) : Dev :=
  let c := (kvGet d.islCause i).getD 1
  let d := d.set (Ob.islState (i - 1)) (if c = 3 then 4 else if 4 ≤ c then 5 else 3)
  d.when (decide (c < 4)) fun d => (d.bump (Ob.islResets (i - 1))).setN (Ob.islLastResetCause (i - 1)) c

/-- Island `i` was closed at the extended instant `t`, at its last closing (06_pours R147). -/
def Dev.closedAt (d : Dev) (i : Nat) (t : Int) : Bool :=
  match kvGet d.islAt i with
  | none => false
  | some x => decide ((x.closed : Int) ≤ t) && (match x.back with
    | some b => decide (t ≤ b)
    | none => true)

/-- The return of island `i` is noted: the pours whose target fell while it was closed keep it (06_pours R147). -/
def Dev.noteReturn (d : Dev) (i : Nat) : Dev :=
  let mark (p : Pour) : Pour :=
    if (kvGet p.shut i).isNone && d.closedAt i (d.extAt p.target) && atOrAfter d.now p.target then
      { p with shut := kvPut p.shut i d.now } else p
  { d with pours := { d.pours with live := d.pours.live.map mark },
           islAt := match kvGet d.islAt i with
             | some x => kvPut d.islAt i { x with back := some d.ext }
             | none => d.islAt }

/-- The island returns (R393 step 4): a new incarnation, the boundary open, 0x8041. -/
def Dev.returnIsland (d : Dev) (i : Nat) : Dev :=
  let n := (d.nat (Ob.islIncarnation (i - 1)) + 1) % 256
  let d := (d.setN (Ob.islIncarnation (i - 1)) n).set (Ob.islState (i - 1)) 0
  let d := { d with islCause := kvDel d.islCause i }.noteReturn i
  (d.setN (Ob.islLastReturnStamp (i - 1)) d.now).event { code := 0x8041, island := i, d1 := i, d2 := n }

/-- Bytes `a` to `a + len - 1` lie in a DRAM window of partition `p` with every right bit of `rights` (R295): [4] read,
[5] write. -/
def Dev.inDramWindow (d : Dev) (p a len : Nat) (rights : List Nat) : Bool :=
  (List.range 4).any fun w =>
    let k := d.nat (Ob.partWindowKind p w)
    let b := d.nat (Ob.partWindowBase p w)
    k % 4 == 2 && decide (b ≤ a) && decide (a + len ≤ b + d.nat (Ob.partWindowLength p w)) && rights.all fun r => bit k r

end Sys2Proof.Machine
end

