-- ==== Sys2Proof/Machine/PowerCore.lean ====
section
/-! DEFINITION. What a power state needs and the exit from it (19_power_dies R379-R382), for every chapter whose objects
decide it. -/
namespace Sys2Proof.Machine

/-- `f` applied to power and heat. -/
def Dev.onPow (d : Dev) (f : PowRt → PowRt) : Dev := { d with pow := f d.pow }

/-- Exit latency of a power state in ns (Table 1). -/
def exitNs (st : Nat) : Nat := ([0, 2000, 60000, 3500000, 12000000] : List Nat).getD st 0

/-- The smallest WakeTolerance over the enabled partitions, µs (R379). -/
def Dev.minTolerance (d : Dev) : Nat :=
  (List.range 8).foldl (fun m p => if d.flag (Ob.partEnable p) then Nat.min m (d.nat (Ob.wakeTolerance p)) else m) 0xFFFFFFFF

/-- R379 and R380 let a state be entered, its deadline apart. -/
def Dev.admits (d : Dev) (st : Nat) : Bool :=
  st == 0 || (decide (exitNs st ≤ 1000 * d.minTolerance) && decide (st ≤ d.nat Ob.powerStateLimit) && d.pow.live == []
    && (st == 1 || !((List.range 8).any fun k => d.flag (Ob.chanEnable k) && decide (d.nat (Ob.chanModel k) < 32)))
    && (st != 2 || bit (d.nat Ob.capabilityMask) 6) && (decide (st < 3) || bit (d.nat Ob.capabilityMask) 7))

/-- The state whose residency counts: A0 from the start of an exit. -/
def Dev.residing (d : Dev) : Nat := if d.pow.exiting then 0 else d.nat Ob.powerState

/-- ns a state has been resided in. -/
def Dev.residence (d : Dev) (st : Nat) : Nat :=
  (kvGet d.pow.resid st).getD 0 + (if d.residing = st then d.ext - d.pow.since else 0)

/-- The residency of the present state is taken up to now. -/
def Dev.closeResidency (d : Dev) : Dev :=
  let st := d.residing
  d.onPow fun p => { p with resid := kvPut p.resid st (d.residence st), since := d.ext }

/-- An exit to A0 begins (Table 2). -/
def Dev.beginExit (d : Dev) : Dev :=
  if d.nat Ob.powerState = 0 || d.pow.exiting then d else d.closeResidency.onPow fun p => { p with exiting := true }

/-- The present state is no longer admitted: an exit begins (Table 2). -/
def Dev.powerCheck (d : Dev) : Dev := if d.admits (d.nat Ob.powerState) then d else d.beginExit

end Sys2Proof.Machine
end

