-- ==== Sys2Proof/Machine/Tensor.lean ====
section
/-! DEFINITION. Model packages, residency, feeds, scheduling and inferences (09_tensor_engines R199-R213). -/
namespace Sys2Proof.Machine

/-- `f` applied to the tensor side. -/
def Dev.onTen (d : Dev) (f : Ten → Ten) : Dev := { d with ten := f d.ten }

/-- A model beside its objects. -/
def Dev.model (d : Dev) (m : Nat) : ModelRt := (kvGet d.ten.models m).getD {}

/-- `f` applied to a model; one as at reset is not listed. -/
def Dev.onModel (d : Dev) (m : Nat) (f : ModelRt → ModelRt) : Dev :=
  let r := f (d.model m)
  d.onTen fun t => { t with models := if r = {} then kvDel t.models m else kvPut t.models m r }

/-- Fields of a package header (Table 2). -/
def pkgSpan (p : Bytes) : Nat := leAt p 6 1
def pkgInputs (p : Bytes) : Nat := leAt p 7 1 % 16
def pkgOutputs (p : Bytes) : Nat := leAt p 7 1 / 16
def pkgLength (p : Bytes) : Nat := leAt p 24 4
def pkgDeck (p : Bytes) : Nat := leAt p 28 4
def pkgNominal (p : Bytes) : Nat := leAt p 60 4
def pkgDesc (p : Bytes) (i : Nat) : Bytes := slice p (128 + 16 * i) 16
def pkgInLen (p : Bytes) (i : Nat) : Nat := leAt (pkgDesc p i) 12 4
def pkgOutLen (p : Bytes) (j : Nat) : Nat := leAt (pkgDesc p (pkgInputs p + j)) 12 4
def pkgWeights (p : Bytes) : Bytes := slice p (leAt p 44 4) (leAt p 48 4)

/-- Input or output descriptor `i` is well formed (R201): its kind fits its place, its format exists, and a descriptor
not used is zero. -/
def descOk (p : Bytes) (i : Nat) : Bool :=
  let e := pkgDesc p i
  let kind := leAt e 0 1
  if i < pkgInputs p then decide (1 ≤ kind ∧ kind ≤ 3) && decide (leAt e 1 1 ≤ 4)
  else if i < pkgInputs p + pkgOutputs p then kind == 4 && decide (leAt e 1 1 ≤ 4)
  else leNat e == 0

/-- The canary record of a package meets R202. -/
def canaryOk (p : Bytes) : Bool :=
  let c := p.drop (leAt p 52 4)
  leAt c 0 4 == 0x59434E55 && leAt c 4 1 == 1
    && leAt c 8 4 == ((List.range (pkgInputs p)).map (pkgInLen p)).sum
    && (List.range 4).all fun j => (leAt c (16 + 4 * j) 4 == 0) == decide (pkgOutputs p ≤ j)

/-- A package's first failure as its LoadError (R201, Table 3); 0 where it passes. -/
def Dev.loadFault (d : Dev) (p : Bytes) : Nat :=
  let span := pkgSpan p
  if !(leAt p 0 4 == 0x504D4E55 && leAt p 4 1 == 1) then 1
  else if leAt p 316 4 != crc32c (p.take 316) then 2
  else if decide (sha256 (slice p (leAt p 36 4) (leAt p 40 4)) ≠ slice p 64 32) then 3
  else if decide (sha256 (pkgWeights p) ≠ slice p 96 32) then 4
  else if (leAt p 16 8 &&& d.nat Ob.capabilityMask) != leAt p 16 8 then 5
  else if span != 1 && span != 2 then 1 + Config.spanError % 255
  else if !(decide (1 ≤ pkgInputs p ∧ pkgInputs p ≤ 4 ∧ 1 ≤ pkgOutputs p ∧ pkgOutputs p ≤ 4) && (List.range 8).all (descOk p)) then 7
  else if 4194304 * span < leAt p 32 4 then 8
  else if !canaryOk p then 9
  else 0

/-- The engines of a die that are in use (R213). -/
def Dev.engineUp (d : Dev) (e : Nat) : Bool :=
  bit (d.nat Ob.enginesInUse) e && d.reg (Ob.thermThrottleLevel (1 + e / 2)) != 3 && !d.quiesced (Isl.ten + e / 2)

/-- A model is bound to the safety function: an enabled channel names it. -/
def Dev.bound (d : Dev) (m : Nat) : Bool :=
  (List.range 8).any fun k => d.flag (Ob.chanEnable k) && d.nat (Ob.chanModel k) == m

/-- An engine is running an inference, the second of a span too. -/
def Dev.engineBusy (d : Dev) (e : Nat) : Bool := d.ten.running.any fun i => decide (i.engine ≤ e ∧ e < i.engine + i.span)

/-- EngineState (Table 6). -/
def Dev.engineState (d : Dev) (e : Nat) : Nat :=
  if !bit (d.nat Ob.enginesInUse) e then 0
  else if d.quiesced (Isl.ten + e / 2) then 4
  else if d.reg (Ob.thermThrottleLevel (1 + e / 2)) = 3 then 3
  else if d.engineBusy e then 2 else 1

/-- The usable engines of the mask that a model was loaded with (R204); a span of 2 needs both engines of a die. -/
def Dev.usable (d : Dev) (m : Nat) : List Nat :=
  let up (e : Nat) : Bool := bit (d.model m).mask e && d.engineUp e
  if pkgSpan (d.model m).pkg = 2 then (([0, 2, 4, 6] : List Nat).filter fun e => up e && up (e + 1))
  else (List.range 8).filter up

/-- A model's package is resident. -/
def Dev.resident (d : Dev) (m : Nat) : Bool := d.reg (Ob.modelPackageState m) == 2

/-- RunState (Table 6). -/
def Dev.runState (d : Dev) (m : Nat) : Nat :=
  if !d.flag (Ob.modelEnable m) then 0
  else if d.reg (Ob.modelPackageState m) ≠ 2 then 3
  else if d.usable m = [] then 4
  else if d.ten.running.any (fun i => i.model == m && !i.canary) then 2 else 1

/-- MeanRunTime of the last 16 runs, µs. -/
def Dev.meanRun (d : Dev) (m : Nat) : Nat :=
  let ts := (d.model m).times
  if ts = [] then 0 else ts.sum / ts.length

/-- Busy of an engine over the last second, in percent (Table 6). -/
def Dev.busy (d : Dev) (e : Nat) : Nat :=
  let from_ := stampAdd d.now (-1000000000)
  let part (s t : Nat) : Nat := (stampDiff t (if after from_ s then from_ else s)).toNat
  let done := (d.ten.runs.filter fun r => r.1 == e && after r.2.2 from_).map fun r => part r.2.1 r.2.2
  let live := (d.ten.running.filter fun i => decide (i.engine ≤ e ∧ e < i.engine + i.span)).map fun i => part i.at_ d.now
  Nat.min 100 ((done.sum + live.sum) / 10000000)

/-- The two bits of Placement of a die: 0 none, 1 deck, 2 staged. -/
def Dev.placed (d : Dev) (m die : Nat) : Nat := d.nat (Ob.modelPlacement m) / 4 ^ die % 4

/-- A model's placement on a die. -/
def Dev.setPlaced (d : Dev) (m die v : Nat) : Dev :=
  let p := d.nat (Ob.modelPlacement m)
  d.setN (Ob.modelPlacement m) (p - d.placed m die * 4 ^ die + v * 4 ^ die)

/-- A die's deck takes a model's weights where its free area holds them (R204). -/
def Dev.placeOn (d : Dev) (m die : Nat) : Dev :=
  let n := pkgDeck (d.model m).pkg
  if n ≤ d.nat (Ob.deckWeightFree die) then
    (d.setN (Ob.deckWeightFree die) (d.nat (Ob.deckWeightFree die) - n)).setPlaced m die 1
  else d.setPlaced m die 2

/-- Deck room freed on a die goes to its staged models in number order; each runs staged until its copy is complete
(R204). -/
def Dev.refillDeck (d : Dev) (die : Nat) : Dev :=
  d.each (List.range 32) fun d m =>
    let n := pkgDeck (d.model m).pkg
    if d.placed m die = 2 && !(d.model m).copying.contains die && decide (n ≤ d.nat (Ob.deckWeightFree die)) then
      (d.setN (Ob.deckWeightFree die) (d.nat (Ob.deckWeightFree die) - n)).onModel m fun r =>
        { r with copying := r.copying ++ [die] }
    else d

/-- A model's room is freed: pool and decks. -/
def Dev.freeModel (d : Dev) (m : Nat) : Dev :=
  let r := d.model m
  let n := pkgDeck r.pkg
  let held := (List.range 4).filter fun die => d.placed m die == 1 || r.copying.contains die
  let d := d.each held fun d die => d.setN (Ob.deckWeightFree die) (d.nat (Ob.deckWeightFree die) + n)
  let d := d.setN Ob.poolFree (d.nat Ob.poolFree + pkgLength r.pkg)
  let d := (d.set (Ob.modelPlacement m) 0).onModel m fun r => { seq := r.seq, times := r.times, ready := r.ready, enableWaits := r.enableWaits }
  d.each held Dev.refillDeck

/-- ModelsResident counts the resident packages. -/
def Dev.countResident (d : Dev) : Dev :=
  d.setN Ob.modelsResident ((List.range 32).filter fun m => d.reg (Ob.modelPackageState m) == 2).length

/-- The head of an output record (Table 4). -/
def outHead (m : Nat) (engine flags count seq subject completion dispatch : Nat) (lens : List Nat) : Bytes :=
  leBytes 4 0x544F4E55 ++ leBytes 1 m ++ leBytes 1 engine ++ leBytes 1 flags ++ leBytes 1 count ++ leBytes 4 seq
    ++ leBytes 6 subject ++ leBytes 6 completion ++ leBytes 6 dispatch ++ leBytes 2 0
    ++ ((lens ++ [0, 0, 0, 0]).take 4).flatMap (leBytes 4)

/-- A canary of a model is due (10_cupper_fallback R222): CANARY_REQUEST makes the request. -/
def Dev.canaryDue (d : Dev) (m : Nat) : Dev := d.onModel m fun r => { r with canaryDue := true }

/-- An output record of an island goes to OutputQueue and, for a bound model, to the cupper (R210). -/
def Dev.emitRecord (d : Dev) (m island subject completion flags : Nat) (late : Bool) (head : Bytes) (outs : List Bytes) : Dev :=
  let q := d.nat (Ob.modelOutputQueue m)
  let d := d.when (q != 0xFFFF) fun d =>
    d.emitItem q { subject := subject, srcKind := 3, srcNum := m, prio := d.nat (Ob.modelPriority m), late := late,
                   seq := d.seqOf 3 m, producer := island } (head ++ outs.flatten) false
  if d.bound m then
    let r : CupRec := { model := m, subject := subject, completion := completion, flags := flags, outs := outs }
    let d := { d with safe := { d.safe with recs := d.safe.recs ++ [r] } }
    let n := (d.model m).records + 1
    let due := (List.range 8).any fun k => d.flag (Ob.chanEnable k) && d.nat (Ob.chanModel k) == m && decide (d.nat (Ob.chanCanaryEvery k) ≤ n)
    let d := d.onModel m fun r => { r with records := n }
    d.when due fun d => d.canaryDue m
  else d

/-- UNVERIFIED under Provisional (05_start_up R129). -/
def Dev.unverified (d : Dev) : Nat := (d.flag Ob.provisionalActive).toNat

/-- The next inference sequence of a model, and the device that has used it. -/
def Dev.inferSeq (d : Dev) (m : Nat) : Nat × Dev :=
  ((d.model m).seq, d.onModel m fun r => { r with seq := (r.seq + 1) % 4294967296 })

/-- The TEN island of the lowest engine in a model's EngineMask. -/
def Dev.lowestTen (d : Dev) (m : Nat) : Nat :=
  Isl.ten + (((List.range 8).find? fun e => bit (d.nat (Ob.modelEngineMask m)) e).getD 0) / 2

/-- An inference is skipped under its sequence: a head-only record and 0x3072 (R209, R210). -/
def Dev.skipAs (d : Dev) (m seq : Nat) (it : Item) (flags : Nat) : Dev :=
  let flags := flags + 4 + d.unverified
  let head := outHead m 0xFF flags (pkgOutputs (d.model m).pkg) seq it.subject d.now d.now []
  let d := ((d.bump (Ob.modelSkipped m)).emitRecord m (d.lowestTen m) it.subject d.now flags false head []).genDec it
  d.event { code := 0x3072, d1 := m, d2 := seq }

/-- A trigger's inference is skipped. -/
def Dev.skipInference (d : Dev) (m : Nat) (it : Item) (flags : Nat) : Dev :=
  let (seq, d) := d.inferSeq m
  d.skipAs m seq it flags

/-- Abandoned inferences of a model that no engine can take again are skipped (R213). -/
def Dev.dropAgain (d : Dev) (m : Nat) : Dev :=
  let l := d.ten.again.filter fun a => a.model == m
  (d.onTen fun t => { t with again := t.again.filter fun a => a.model != m }).each l fun d a => d.skipAs m a.seq a.trig 0

/-- A model without a usable engine: 0x3075 once, and each trigger a skipped record (R213). -/
def Dev.noEngine (d : Dev) (m : Nat) : Dev :=
  let d := d.when (!(d.model m).noEngine) fun d =>
    (d.onModel m fun r => { r with noEngine := true }).event { code := 0x3075, d1 := m }
  let l := (d.model m).ready
  ((d.dropAgain m).onModel m fun r => { r with ready := [] }).each l fun d it => d.skipInference m it 0

/-- An enabled model that is resident has a usable engine, or its triggers are skipped (R213). -/
def Dev.checkEngine (d : Dev) (m : Nat) : Dev :=
  if !d.flag (Ob.modelEnable m) || !d.resident m then d
  else if d.usable m = [] then d.noEngine m
  else d.onModel m fun r => { r with noEngine := false }

/-- A load is asked for (R203): it waits in order of writing. What the model held is freed. -/
def Dev.startLoad (d : Dev) (m part : Nat) : Dev :=
  let d := (d.dropAgain m).when (d.resident m) fun d => d.freeModel m
  let d := (d.set (Ob.modelPackageState m) 1).onModel m fun r => { r with loader := part }
  (d.onTen fun t => { t with loads := t.loads ++ [m] }).countResident

/-- State condition of Load (R203). -/
def Dev.loadFree (d : Dev) (m : Nat) : Bool := d.reg (Ob.modelPackageState m) != 1 && !d.flag (Ob.modelEnable m)

/-- MODEL_LOAD (R203). -/
def execModelLoad (hd : Hdr) (cond : Option Nat) (m : Fin 32) (s : State) : Host.Outcome State Fault Refusal :=
  onDev (fun d => d.writeReq { state := fun d _ _ => needState (d.loadFree m) } hd cond (0x3420 + m) 6 [1]
    fun se _ d => d.startLoad m se.part) s

/-- What a load reads: `n` bytes from its source; `none` outside the model area of the QSPI NOR or the writer's DRAM windows. -/
def Dev.loadBytes (d : Dev) (m n : Nat) : Option Bytes :=
  let a := d.nat (Ob.modelLoadAddress m)
  if d.reg (Ob.modelLoadSource m) = 0 then
    (if a + n ≤ Config.modelAreaSize then some ((List.range n).map fun i => Config.modelArea (a + i)) else none)
  else if d.inDramWindow (d.model m).loader a n [] then some (memRead d.mem a n)
  else none

/-- A load fails (Table 7). -/
def Dev.loadFailed (d : Dev) (m code : Nat) : Dev :=
  ((d.set (Ob.modelPackageState m) 3).setN (Ob.modelLoadError m) code).event { code := 0x3070, d1 := m, d2 := code }

/-- A package becomes resident with its placement (R204). -/
def Dev.becomeResident (d : Dev) (m : Nat) (p : Bytes) : Dev :=
  let d := (d.setN Ob.poolFree (d.nat Ob.poolFree - pkgLength p)).onModel m fun r =>
    { r with pkg := p, mask := d.nat (Ob.modelEngineMask m), canaryLast := 0, canary := none, scanBad := false, scanLate := false, scanNext := 0, scanStart := d.ext }
  let d := (d.set (Ob.modelPackageState m) 2).setN (Ob.modelPackageVersion m) (leAt p 8 4)
  let d := (d.set (Ob.modelLoadError m) 0).set (Ob.modelPlacement m) 0
  let mine := d.dies.filter fun die => bits (d.nat (Ob.modelEngineMask m)) (2 * die + 1) (2 * die) != 0
  let d := d.each mine fun d die => d.placeOn m die
  let d := d.countResident.event { code := 0x3071, d1 := m, d2 := d.nat (Ob.modelPlacement m) }
  (d.when (d.bound m) fun d => d.canaryDue m).checkEngine m

/-- The enabled models that a source triggers. -/
def Dev.triggered (d : Dev) (src : Nat) : List Nat :=
  (List.range 32).filter fun m => d.flag (Ob.modelEnable m) && d.nat (Ob.modelInput m 0) == src

/-- What follows a change of a model's Enable or Input 0 (R212): a model no longer triggered drops its triggers; one newly
triggered starts at its feed's newest undispatched item, or at `from_` where the same pour hands over a read position. -/
def Dev.feedChanged (d : Dev) (m : Nat) (from_ : Option (List Item)) : Dev :=
  let src := d.nat (Ob.modelInput m 0)
  let d := d.each (d.model m).ready fun d it => d.genDec it
  if !d.flag (Ob.modelEnable m) then d.onModel m fun r => { r with ready := [] }
  else
    let others := (d.triggered src).filter fun x => x != m
    let start := match from_ with
      | some l => l
      | none => match others.findSome? fun x => (d.model x).ready.getLast? with
        | some it => [it]
        | none => []
    let d := (d.onModel m fun r => { r with ready := start }).each start fun d it => d.genInc it
    (d.when (!d.resident m) fun d => d.event { code := 0x3074, d1 := m }).checkEngine m

/-- A load at the start has ended: the model's persisted Enable applies (R203). -/
def Dev.applyEnable (d : Dev) (m : Nat) : Dev :=
  if !(d.model m).enableWaits then d
  else
    let d := d.onModel m fun r => { r with enableWaits := false }
    if kvGet d.flash (Ob.modelEnable m) = some 1 then (d.set (Ob.modelEnable m) 1).feedChanged m none else d

/-- A load ends (R201, R203): the package is resident, or the load has failed. -/
def Dev.loadEnds (d : Dev) (m : Nat) (readOk : Bool) : Dev :=
  match (if readOk then d.loadBytes m 320 else none) with
  | none => d.loadFailed m 10
  | some h =>
    let n := pkgLength h
    let hf := d.loadFault h
    if hf = 1 ∨ hf = 2 then d.loadFailed m hf
    else if n < 320 ∨ 536870912 < n then d.loadFailed m 7
    else match d.loadBytes m n with
      | none => d.loadFailed m 10
      | some p =>
        let f := d.loadFault p
        if d.nat Ob.poolFree < n then d.loadFailed m 6
        else if f ≠ 0 then d.loadFailed m f
        else d.becomeResident m p

/-- MODEL_LOAD_DONE (R201, R203): one of the four loads that run ends. -/
def execModelLoadDone (m : Fin 32) (readOk : Bool) (s : State) : Host.Outcome State Fault Refusal :=
  onDev (fun d =>
    if !(d.ten.loads.take 4).contains (m : Nat) then d
    else
      let d := d.onTen fun t => { t with loads := t.loads.erase (m : Nat) }
      (d.loadEnds m readOk).applyEnable m) s

/-- DECK_COPY_DONE (R204). -/
def execDeckCopyDone (m : Fin 32) (die : Fin 4) (s : State) : Host.Outcome State Fault Refusal :=
  onDev (fun d =>
    if (d.model m).copying.contains (die : Nat) then
      (d.onModel m fun r => { r with copying := r.copying.erase (die : Nat) }).setPlaced m die 1
    else d) s

/-- MODEL_UNLOAD (R205). -/
def execModelUnload (hd : Hdr) (cond : Option Nat) (m : Fin 32) (s : State) : Host.Outcome State Fault Refusal :=
  onDev (fun d => d.writeReq { state := fun d _ _ => needState (!d.flag (Ob.modelEnable m)) } hd cond (0x3420 + m) 7 [1]
    fun _ _ d => d.onModel m fun r => { r with unloading := true }) s

/-- MODEL_UNLOAD_DONE (R205): once no inference of the model runs, its room is freed. -/
def execModelUnloadDone (m : Fin 32) (s : State) : Host.Outcome State Fault Refusal :=
  onDev (fun d =>
    if !(d.model m).unloading || d.ten.running.any (fun i => i.model == m) then d
    else
      let d := (d.onTen fun t => { t with loads := t.loads.erase (m : Nat) })
      let d := if d.resident m then (d.dropAgain m).freeModel m else d.onModel m fun r => { seq := r.seq, times := r.times }
      ((d.set (Ob.modelPackageState m) 0).set (Ob.modelPackageVersion m) 0).countResident) s

/-- Some enabled model takes a source for association. -/
def Dev.associated (d : Dev) (src : Nat) : Bool :=
  (List.range 32).any fun m => d.flag (Ob.modelEnable m) && (List.range 3).any fun i => d.nat (Ob.modelInput m (i + 1)) == src

/-- Oldest undispatched triggers beyond InputDepth are dropped (R207). -/
def Dev.trimReady (d : Dev) (m : Nat) : Dev :=
  let r := d.model m
  let n := r.ready.length - d.nat (Ob.modelInputDepth m)
  let d := d.each (r.ready.take n) fun d it => (d.genDec it).bump (Ob.modelInputDropped m)
  d.onModel m fun r => { r with ready := r.ready.drop n }

/-- Stamps of the triggers that wait for a dispatch. -/
def Dev.waitingAt (d : Dev) : List Nat :=
  d.ten.models.flatMap (fun m => m.2.ready.map fun it => it.subject) ++ d.ten.again.map fun a => a.trig.subject

/-- An item is kept for association (R206): it lies within 2 s of the newest, or within 1 s, which no AssocWindow exceeds, of a
trigger that waits (log 153). -/
def Dev.keepRecent (d : Dev) (src : Nat) (it : Item) : Dev :=
  let ts := d.waitingAt
  let keep (x : Nat × Item) : Bool := decide (stampDiff it.subject x.2.subject ≤ 2000000000)
    || ts.any fun t => decide (0 ≤ stampDiff t x.2.subject) && decide (stampDiff t x.2.subject ≤ 1000000000)
  d.onTen fun t => { t with recent := ((src, it) :: t.recent).filter keep }

/-- A trigger item reaches the models of its feed (R206, R207, R212), those that are not resident yet too; one without a usable
engine skips it. -/
def Dev.trigger (d : Dev) (src : Nat) (it : Item) : Dev :=
  let d := d.when (d.associated src) fun d => d.keepRecent src it
  d.each (d.triggered src) fun d m =>
    (((d.genInc it).onModel m fun r => { r with ready := r.ready ++ [it] }).trimReady m).checkEngine m

/-- The oldest waiting item of source `src` (R206's code) reaches its models (R206, R207). Frames whose poses are resolved come
first (08_fusion_grid R198). -/
def Dev.feedItem (d : Dev) (src : Nat) : Dev :=
  let d := d.releaseFrames
  if src / 4096 = 3 then
    match d.readQueue (src % 4096) with
    | none => d
    | some (it, d) =>
      let d := d.trigger src it
      d.when (d.holdsGen (src % 4096)) fun d => d.genDec it
  else match takeFirst (ofSource src) (d.stageItems 2) with
    | none => d
    | some (it, rest) => ((d.setStage 2 rest).trigger src it).genDec it

/-- An item of source `src` waits to reach its models. -/
def Dev.feedWaits (d : Dev) (src : Nat) : Bool :=
  if src / 4096 = 3 then !(d.q (src % 4096)).items.isEmpty else (d.stageItems 2).any (ofSource src)

/-- An item as its consumer in the device reads it: a payload in DRAM is read at point 7, and bytes that have changed since its
check was made leave the item BAD (15_hosts_queues R314). -/
def Dev.readItem (d : Dev) (it : Item) : Item × Dev :=
  if it.payKind = 2 ∧ it.data = [] then
    let b := memRead d.mem it.addr it.len
    let f : Found := { checkOk := crc32c b == it.payCheck }
    (({ it with data := b } : Item).flag f.outcome, d.handover 7 15 it.srcKind it.srcNum f)
  else (it, d)

/-- The inputs of an inference as the engine reads them. -/
def Dev.readInputs (d : Dev) : List (Option Item) → List (Option Item) × Dev
  | [] => ([], d)
  | none :: l => (none :: (d.readInputs l).1, (d.readInputs l).2)
  | some it :: l => (some (d.readItem it).1 :: ((d.readItem it).2.readInputs l).1, ((d.readItem it).2.readInputs l).2)

/-- The inputs of an inference, its flags INPUT_MISSING, INPUT_FLAGGED and INPUT_MISMATCH (R206), and the device that has read
them. -/
def Dev.gather (d : Dev) (m : Nat) (it : Item) : List (Option Item) × Nat × Dev :=
  let p := (d.model m).pkg
  let (ins, d) := d.readInputs ((List.range (pkgInputs p)).map fun i =>
    if i = 0 then some it else d.assoc m (d.nat (Ob.modelInput m i)) it.subject)
  let missing := ins.any fun x => x.isNone
  let flagged := ins.any fun x => match x with | some i => i.doubtful | none => false
  let mismatch := (List.range ins.length).any fun i => match ins.getD i none with
    | some x => x.len != pkgInLen p i
    | none => false
  (ins, 16 * missing.toNat + 32 * flagged.toNat + 64 * mismatch.toNat, d)

/-- Estimated run time on a die in ns (R209). -/
def Dev.estimate (d : Dev) (m die : Nat) : Nat :=
  let p := (d.model m).pkg
  Nat.max (pkgNominal p) (d.nat (Ob.modelMeanRunTime m)) * 1000 + (if d.placed m die = 2 then leAt p 48 4 / 64 else 0)

/-- The deadline of a trigger (R208). -/
def Dev.deadline (d : Dev) (m : Nat) (it : Item) : Nat := stampAdd it.subject (d.reg (Ob.modelBudget m) * 1000)

/-- Engines running inferences now, against EngineBudget (19_power_dies R383). -/
def Dev.enginesRunning (d : Dev) : Nat := (d.ten.running.map fun i => i.span).sum

/-- Model `m`, resident, may start on engine `e` now: usable, free, within EngineBudget, the tensor islands awake. -/
def Dev.canStart (d : Dev) (m e : Nat) : Bool :=
  let span := pkgSpan (d.model m).pkg
  d.nat Ob.powerState == 0 && d.resident m && (d.usable m).contains e && !d.engineBusy e && !(span == 2 && d.engineBusy (e + 1))
    && decide (d.enginesRunning + span ≤ d.nat Ob.engineBudget)

/-- A ready inference: its trigger, and its sequence where it was abandoned and is to be dispatched again (R213). -/
structure Ready where
  model : Nat
  trig : Item
  seq : Option Nat := none
  deriving DecidableEq, Repr

/-- `a` goes before `b` among ready inferences (R208): the earlier deadline, then the higher Priority, then the lower
model number. -/
def Dev.before (d : Dev) (a b : Ready) : Bool :=
  let da := d.deadline a.model a.trig
  let db := d.deadline b.model b.trig
  if da ≠ db then after db da
  else if d.reg (Ob.modelPriority a.model) ≠ d.reg (Ob.modelPriority b.model) then
    decide (d.reg (Ob.modelPriority b.model) < d.reg (Ob.modelPriority a.model))
  else decide (a.model < b.model)

/-- The ready inferences (R208): the triggers of the enabled models, and the abandoned ones. -/
def Dev.readyAll (d : Dev) : List Ready :=
  (List.range 32).flatMap fun m =>
    (d.ten.again.filter fun a => a.model == m).map (fun a => { model := m, trig := a.trig, seq := some a.seq })
      ++ (if d.flag (Ob.modelEnable m) then (d.model m).ready.map fun it => { model := m, trig := it } else [])

/-- The ready inference that the scheduler dispatches next: the first of those whose model may use a free engine. -/
def Dev.earliest (d : Dev) : Option Ready :=
  (d.readyAll.filter fun r => (List.range 8).any (d.canStart r.model)).foldl
    (fun b x => match b with
      | none => some x
      | some y => if d.before x y then some x else b) none

/-- The ready inference that engine `e` takes: the scheduler's next, where its model may use the engine. -/
def Dev.chosen (d : Dev) (e : Nat) : Option Ready :=
  match d.earliest with
  | some r => if d.canStart r.model e then some r else none
  | none => none

/-- A ready inference leaves its list. -/
def Dev.takeReady (d : Dev) (r : Ready) : Dev :=
  match r.seq with
  | some n => d.onTen fun t => { t with again := t.again.filter fun a => !(a.model == r.model && a.seq == n) }
  | none => d.onModel r.model fun x => { x with ready := x.ready.erase r.trig }

/-- The model whose canary engine `e` runs ahead of every inference (R211). -/
def Dev.canaryFor (d : Dev) (e : Nat) : Option Nat :=
  (List.range 32).find? fun m => (d.model m).canary.isSome && !(d.model m).canaryRun
    && d.reg (Ob.modelPackageState m) == 2 && d.canStart m e

/-- Free engine `e` takes a canary, or the ready inference with the earliest deadline, which a length mismatch or SkipLate skips
(R208, R209, R211). -/
def Dev.dispatch (d : Dev) (e : Nat) : Dev :=
  match d.canaryFor e with
  | some m =>
    let p := (d.model m).pkg
    let i : Infer := { model := m, pkg := p, seq := (d.model m).canary.getD 0, trig := {}, inputs := [], flags := 0, at_ := d.now, engine := e,
                       span := pkgSpan p, canary := true }
    (d.onModel m fun r => { r with canaryRun := true }).onTen fun t => { t with running := t.running ++ [i] }
  | none =>
    match d.chosen e with
    | none => d
    | some r =>
      let m := r.model
      let it := r.trig
      let (ins, flags, d) := d.gather m it
      let late := after (stampAdd d.now (d.estimate m (e / 2))) (d.deadline m it)
      let d := d.takeReady r
      let (seq, d) := match r.seq with
        | some n => (n, d)
        | none => d.inferSeq m
      if bit flags 6 || (d.flag (Ob.modelSkipLate m) && late) then d.skipAs m seq it flags
      else
        let p := (d.model m).pkg
        let i : Infer := { model := m, pkg := p, seq := seq, trig := it, inputs := ins, at_ := d.now, engine := e,
                           flags := flags + 128 * (decide (d.placed m (e / 2) = 2)).toNat, span := pkgSpan p, canary := false }
        d.onTen fun t => { t with running := t.running ++ [i] }

/-- What an inference computes: what the package gives (R200), or what a faulty engine gave instead, each output cut or
filled to its descriptor's length. -/
def Dev.outputsOf (p : Bytes) (ins : List Bytes) (fault : Option (List Bytes)) : List Bytes × Bool :=
  let (outs, sat) := Config.infer p ins
  let outs := fault.getD outs
  ((List.range (pkgOutputs p)).map fun j =>
    ((outs.getD j []) ++ List.replicate (pkgOutLen p j) 0).take (pkgOutLen p j), sat)

/-- An engine's run has ended. -/
def Dev.endRun (d : Dev) (i : Infer) : Dev :=
  let ended := (List.range i.span).map fun j => (i.engine + j, i.at_, d.now)
  let recent (r : Nat × Nat × Nat) : Bool := decide (stampDiff d.now r.2.2 < 1000000000)
  let d := d.onTen fun t => { t with running := t.running.erase i, runs := (ended ++ t.runs).filter recent }
  d.each (List.range i.span) fun d j => d.bump (Ob.engineInferencesRun (i.engine + j))

/-- INFERENCE_COMPLETE (R200, R209, R210). -/
def execInferenceComplete (e : Fin 8) (fault : Option (List Bytes)) (s : State) : Host.Outcome State Fault Refusal :=
  onDev (fun d =>
    match d.ten.running.find? fun i => i.engine == (e : Nat) && !i.canary with
    | none => d
    | some i =>
      let m := i.model
      let p := i.pkg
      let ins := (List.range i.inputs.length).map fun k => match i.inputs.getD k none with
        | some it => it.data
        | none => List.replicate (pkgInLen p k) 0
      let (outs, sat) := Dev.outputsOf p ins fault
      let d := d.endRun i
      let dl := d.deadline m i.trig
      let late := after d.now dl
      let flags := i.flags + d.unverified + 2 * late.toNat + 8 * sat.toNat
      let head := outHead m i.engine flags outs.length i.seq i.trig.subject (d.stampIn (Isl.ten + i.engine / 2)) i.at_ (outs.map fun o => o.length)
      let us := (stampDiff d.now i.at_).toNat / 1000
      let d := d.onModel m fun r => { r with times := (us :: r.times).take 16 }
      let d := (d.bump (Ob.modelInferences m)).when sat fun d => d.bump (Ob.engineSaturationCount e)
      let d := (d.setN (Ob.modelLastSubject m) i.trig.subject).setN (Ob.modelLastCompletion m) d.now
      let d := (d.setN (Ob.modelMeanRunTime m) (d.meanRun m)).when late fun d =>
        (d.bump (Ob.modelLate m)).event { code := 0x3073, d1 := m, d2 := (stampDiff d.now dl).toNat / 1000 }
      (d.emitRecord m (Isl.ten + i.engine / 2) i.trig.subject d.now flags late head outs).genDec i.trig) s

/-- The engines of a die stop (R213, 19_power_dies R385): its inferences are abandoned, to be dispatched again under their
sequences, whether their models are still enabled or not, or skipped where no engine of the mask is left. A canary is asked
for again. -/
def Dev.abandonDie (d : Dev) (die : Nat) : Dev :=
  let gone := d.ten.running.filter fun i => i.engine / 2 == die
  let d := d.onTen fun t => { t with running := t.running.filter fun i => i.engine / 2 != die }
  let d := d.each gone fun d i =>
    if i.canary then d.onModel i.model fun r => { r with canaryRun := false }
    else d.onTen fun t => { t with again := t.again ++ [{ model := i.model, seq := i.seq, trig := i.trig }] }
  d.each (List.range 32) fun d m =>
    (d.when (!d.resident m || d.usable m == []) fun d => d.dropAgain m).checkEngine m

/-- EngineMask names a present engine (R213). -/
def Dev.maskPresent (d : Dev) (mask : Nat) : Bool := (List.range 8).any fun e => bit mask e && bit (d.nat Ob.enginesInUse) e

/-- EngineMask may be written (R204). -/
def Dev.maskFree (d : Dev) (m : Nat) : Bool := !d.flag (Ob.modelEnable m) && d.reg (Ob.modelPackageState m) != 1

end Sys2Proof.Machine
end

