-- ==== Sys2Proof/Machine/Safety.lean ====
section
/-! DEFINITION. The cupper, the fallback path, the safety channels, the SAFE pair and error injection
(10_cupper_fallback R214-R234). -/
namespace Sys2Proof.Machine

/-- A channel beside its objects. -/
def Dev.chan (d : Dev) (k : Nat) : Chan := (kvGet d.safe.chans k).getD {}

/-- `f` applied to a channel; one as at reset is not listed. -/
def Dev.onChan (d : Dev) (k : Nat) (f : Chan → Chan) : Dev :=
  let r := f (d.chan k)
  d.onSafe fun s => { s with chans := if r = {} then kvDel s.chans k else kvPut s.chans k r }

/-- PolicyEffective (R232). -/
def Dev.policyEff (d : Dev) (k : Nat) : Nat := if d.flag Ob.provisionalActive then 1 else d.nat (Ob.chanPolicy k)

/-- A slot of ScannerMask cannot feed the fallback stage (R226). -/
def Dev.badScanner (d : Dev) (s : Nat) : Bool := d.reg (Ob.slotSourceKind s) != 2 || !bit (d.nat (Ob.slotPathMask s)) 1

/-- A hold cause of R226 is present for a channel. -/
def Dev.holdCause (d : Dev) (k : Nat) : Bool :=
  let mask := d.nat (Ob.chanScannerMask k)
  d.safe.miss || (d.latched && d.flag (Ob.chanSafeOutputBit k)) || d.reg Ob.cupperState != 1
    || d.quiesced Isl.cup || d.quiesced Isl.fbk || !d.flag (Ob.fieldSetValid (d.nat (Ob.chanFieldSetSelect k)))
    || mask == 0 || (setBits mask 32).any d.badScanner

/-- A channel enters a state of Table 4, with its events. -/
def Dev.chanTo (d : Dev) (k st : Nat) : Dev :=
  if d.nat (Ob.chanState k) = st then d
  else
    let d := d.setN (Ob.chanState k) st
    let d := d.onChan k fun c => { c with clear := 0, accel := 0, prev := if st ≤ 1 then none else c.prev }
    if st = 2 then (d.bump (Ob.chanStops k)).event { code := 0x7008, island := Isl.cup, d1 := k, d2 := d.reg (Ob.chanDoubtCause k) }
    else if 4 ≤ st then d.event { code := 0x7009, island := Isl.cup, d1 := k, d2 := st }
    else d

/-- Channels enter HELD when a hold cause arises and STOP when none is left (Table 4), and the pair follows; the power state
follows what the channels permit (19_power_dies R380). -/
def Dev.refreshChannels (d : Dev) : Dev :=
  ((d.each (List.range 8) fun d k =>
    if d.nat (Ob.chanState k) = 0 then d
    else if d.holdCause k then d.chanTo k 1
    else if d.nat (Ob.chanState k) = 1 then d.chanTo k 2 else d).refreshSafe).powerCheck

/-- CANARY_REQUEST (R222): a bound model's canary is due or has never run since the load; after a failure, 100 ms later. -/
def execCanaryRequest (m : Fin 32) (s : State) : Host.Outcome State Fault Refusal :=
  onDev (fun d =>
    let r := d.model m
    let due := if r.canaryLast = 2 then (r.canaryDue || d.bound m) && decide (r.canaryAt + 100000000 ≤ d.ext)
      else r.canaryDue || (d.bound m && r.canaryLast == 0)
    if due && r.canary.isNone && d.resident m then
      d.onModel m fun r => { r with canary := some d.ext, canaryRun := false, canaryDue := false, records := 0 }
    else d) s

/-- A canary ends as passed or failed (R222, Table 8). -/
def Dev.endCanary (d : Dev) (m : Nat) (ok : Bool) : Dev :=
  let d := d.onModel m fun r => { r with canary := none, canaryRun := false, canaryLast := if ok then 1 else 2, canaryAt := d.ext }
  if ok then d else d.event { code := 0x7004, island := Isl.cup, d1 := m }

/-- The canary's input tensors, one after the other from the record (R202). -/
def canaryInputs (p : Bytes) : List Bytes :=
  (List.range (pkgInputs p)).map fun i =>
    slice p (leAt p 52 4 + 32 + ((List.range i).map (pkgInLen p)).sum) (pkgInLen p i)

/-- CANARY_COMPLETE (R222): passed within CanaryTimeout with every output's CRC-32C as the record has it. A run whose request
has timed out, or whose package has left, tells nothing; its saturation counts all the same (09_tensor_engines R200). -/
def execCanaryComplete (e : Fin 8) (fault : Option (List Bytes)) (s : State) : Host.Outcome State Fault Refusal :=
  onDev (fun d => match d.ten.running.find? fun i => i.engine == (e : Nat) && i.canary with
    | none => d
    | some i =>
      let p := i.pkg
      let (outs, sat) := Dev.outputsOf p (canaryInputs p) fault
      let d := (d.endRun i).when sat fun d => d.bump (Ob.engineSaturationCount e)
      if (d.model i.model).canary = some i.seq ∧ (d.model i.model).canaryRun then
        let want (j : Nat) : Nat := leAt p (leAt p 52 4 + 16 + 4 * j) 4
        let ok := (List.range (pkgOutputs p)).all fun j => crc32c (outs.getD j []) == want j
        d.endCanary i.model (ok && decide (d.ext ≤ i.seq + d.nat Ob.canaryTimeout * 1000000))
      else d) s

/-- CANARY_TIMEOUT (R222). -/
def execCanaryTimeout (m : Fin 32) (s : State) : Host.Outcome State Fault Refusal :=
  onDev (fun d => match (d.model m).canary with
    | none => d
    | some t => if t + d.nat Ob.canaryTimeout * 1000000 ≤ d.ext then d.endCanary m false else d) s

/-- WEIGHT_SCAN_BLOCK (R223): the next block is read through the deck (point 9) or, staged, DRAM (point 7), and compared
with the package's CRC table. -/
def execWeightScanBlock (m : Fin 32) (found : Found) (s : State) : Host.Outcome State Fault Refusal :=
  onDev (fun d =>
    let r := d.model m
    if !d.bound m || !d.resident m || d.quiesced Isl.cup then d
    else
      let w := pkgWeights r.pkg
      let i := r.scanNext
      let d := d.handover (if (List.range 4).any (fun die => d.placed m die == 1) then 9 else 7) 15 3 m found
      let bad := decide (found.outcome = .bad) || decide (found.outcome = .unproven)
        || crc32c (slice w (65536 * i) 65536) != leAt r.pkg (leAt r.pkg 56 4 + 4 * i) 4
      let d := d.when bad fun d =>
        (d.onModel m fun r => { r with scanBad := true }).event
          { code := 0x7005, island := Isl.cup, d1 := (m : Nat), d2 := i, mirror := true }
      if (i + 1) * 65536 < w.length then d.onModel m fun r => { r with scanNext := i + 1 }
      else d.onModel m fun r => { r with scanNext := 0, scanStart := d.ext, scanLate := false }) s

/-- WEIGHT_SCAN_OVERDUE (R223). -/
def execWeightScanOverdue (m : Fin 32) (s : State) : Host.Outcome State Fault Refusal :=
  onDev (fun d =>
    if d.bound m && decide ((d.model m).scanStart + d.nat Ob.weightScanPeriod * 1000000 ≤ d.ext) then
      d.onModel m fun r => { r with scanLate := true }
    else d) s

/-- Fields of a field set (Table 2). -/
def fsZmin (b : Bytes) (f : Nat) : Int := sAt b (18 + 72 * f) 2
def fsZmax (b : Bytes) (f : Nat) : Int := sAt b (20 + 72 * f) 2
def fsVertex (b : Bytes) (f i : Nat) : Int × Int := (sAt b (24 + 72 * f + 4 * i) 2, sAt b (26 + 72 * f + 4 * i) 2)

/-- Field `f` of a set is in range, or zero where it is not used (Table 2). -/
def fieldOk (b : Bytes) (f : Nat) : Bool :=
  let n := leAt b (16 + 72 * f) 1
  if f < leAt b 5 1 then
    decide (3 ≤ n ∧ n ≤ 16) && decide (fsZmin b f < fsZmax b f) && leNat (slice b (24 + 72 * f + 4 * n) (64 - 4 * n)) == 0
  else n == 0 && leNat (slice b (24 + 72 * f) 64) == 0

/-- A field set meets Table 2 (R219). -/
def fieldSetOk (b : Bytes) : Bool :=
  b.length == 308 && leAt b 0 4 == 0x44464E55 && leAt b 4 1 == 1 && decide (1 ≤ leAt b 5 1 ∧ leAt b 5 1 ≤ 4)
    && decide (1 ≤ leAt b 6 1 ∧ leAt b 6 1 ≤ 16) && leAt b 304 4 == crc32c (b.take 304) && (List.range 4).all (fieldOk b)

/-- A point lies on the segment from `a` to `b`. -/
def onSegment (a b p : Int × Int) : Bool :=
  let cross := (b.1 - a.1) * (p.2 - a.2) - (b.2 - a.2) * (p.1 - a.1)
  let dot := (p.1 - a.1) * (p.1 - b.1) + (p.2 - a.2) * (p.2 - b.2)
  decide (cross = 0) && decide (dot ≤ 0)

/-- The ray from a point to greater x crosses the edge from `a` to `b`. -/
def crosses (a b p : Int × Int) : Bool :=
  let up := decide (p.2 < b.2)
  let side := (b.1 - a.1) * (p.2 - a.2) - (p.1 - a.1) * (b.2 - a.2)
  (decide (p.2 < a.2) != up) && (if up then decide (0 < side) else decide (side < 0))

/-- Even-odd rule, with points on an edge or vertex inside (R217). -/
def inPolygon (vs : List (Int × Int)) (p : Int × Int) : Bool :=
  let edges := vs.zip (vs.drop 1 ++ vs.take 1)
  edges.any (fun e => onSegment e.1 e.2 p) || (edges.filter fun e => crosses e.1 e.2 p).length % 2 == 1

/-- A body-frame point lies inside a field of a set (R217). -/
def intrudes (b : Bytes) (p : Int × Int × Int) : Bool :=
  (List.range (leAt b 5 1)).any fun f =>
    decide (fsZmin b f ≤ p.2.2) && decide (p.2.2 < fsZmax b f)
      && inPolygon ((List.range (leAt b (16 + 72 * f) 1)).map (fsVertex b f)) (p.1, p.2.1)

/-- A slot's FbkMount. -/
def Dev.fbkMount (d : Dev) (s : Nat) : List Int :=
  [d.reg (Ob.fbkMountX s), d.reg (Ob.fbkMountY s), d.reg (Ob.fbkMountZ s), d.reg (Ob.fbkMountQw s), d.reg (Ob.fbkMountQx s),
   d.reg (Ob.fbkMountQy s), d.reg (Ob.fbkMountQz s)]

/-- FbkCycle in ns. -/
def Dev.fbkNs (d : Dev) : Nat := d.nat Ob.fbkCycle * 1000

/-- A range point in the body frame under FbkMount, in whole mm (R216). -/
def bodyPoint (m : List Int) (r : Bytes) : Int × Int × Int :=
  let p := (mounted m (polar (leAt r 0 4) (sAt r 4 4) (sAt r 8 4))).map fun x => roundDivInt (snapFx x) (1000 * fxOne)
  (p.getD 0 0, p.getD 1 0, p.getD 2 0)

/-- The stamps and body-frame points of an item at the fallback stage (R216): none flagged NO_RETURN, none of a BAD or
UNPROVEN item. -/
def Dev.fbkPoints (d : Dev) (it : Item) : List (Nat × (Int × Int × Int)) :=
  if it.doubtful then []
  else ((List.range (it.data.length / 24)).map fun i => slice it.data (24 * i) 24).filterMap fun r =>
    if bit (leAt r 14 2) 0 then none
    else some (stampAdd it.subject (leAt r 16 4), bodyPoint (d.fbkMount it.srcNum) r)

/-- The items readable by c + FbkPointWait (R217, R218). -/
def Dev.readable (d : Dev) (c : Nat) : List Item :=
  (d.stageItems 1).filter fun it => !after it.completion (stampAdd c (d.nat Ob.fbkPointWait * 1000 : Nat))

/-- The points of the window that ends at `c` (§2), in order of arrival. -/
def Dev.windowPoints (d : Dev) (c : Nat) : List (Int × Int × Int) :=
  ((d.readable c).flatMap d.fbkPoints).filterMap fun p =>
    if after c p.1 && decide (stampDiff c p.1 ≤ d.fbkNs) then some p.2 else none

/-- What a channel's field set makes of a window (R217). -/
def Dev.evaluate (d : Dev) (k c : Nat) (pts : List (Int × Int × Int)) : FbkRes :=
  let b := d.blob (Ob.fieldSet (d.nat (Ob.chanFieldSetSelect k)))
  let hit := pts.filter (intrudes b)
  let near := hit.foldl (fun m p => Nat.min m (openRoot (p.1 * p.1 + p.2.1 * p.2.1).toNat)) 0xFFFF
  let on := decide (leAt b 6 1 ≤ hit.length) && !hit.isEmpty
  { cycle := c, intruded := on, nearest := if hit.isEmpty then 0xFFFF else near }

/-- The slot that makes the fallback path unavailable to a channel (R218), if one does. -/
def Dev.fbkMissing (d : Dev) (k c : Nat) : Option Nat :=
  (setBits (d.nat (Ob.chanScannerMask k)) 32).find? fun s => match kvGet d.safe.good s with
    | none => true
    | some t => decide (d.reg Ob.fbkMaxAge * 1000 < stampDiff c t)

/-- An element of RangeTensor lies outside RangeMin-RangeMax (Table 3, check 1). -/
def Dev.rangeBad (d : Dev) (k : Nat) (p : Bytes) (outs : List Bytes) : Bool :=
  let t := d.nat (Ob.chanRangeTensor k)
  if t = 0xFF then false
  else
    let b := outs.getD t []
    let fmt := leAt (pkgDesc p (pkgInputs p + t)) 1 1
    let w := if fmt = 0 then 1 else if fmt = 3 then 4 else 2
    (List.range (b.length / w)).any fun i =>
      let v : Int := if fmt = 4 then leAt b (w * i) w else sAt b (w * i) w
      decide (v < d.reg (Ob.chanRangeMin k)) || decide (d.reg (Ob.chanRangeMax k) < v)

/-- Check 4 fails for a model: no canary has passed since it became resident, or the latest failed. -/
def Dev.check4 (d : Dev) (m : Nat) : Bool := (d.model m).canaryLast != 1

/-- Check 5 fails for a model. -/
def Dev.check5 (d : Dev) (m : Nat) : Bool := (d.model m).scanBad || (d.model m).scanLate

/-- Check 3 on a verdict's permit and distance against a cycle's result. -/
def Dev.check3 (d : Dev) (k permit dist : Nat) (r : FbkRes) : Bool :=
  (r.intruded && permit == 0xA5) || decide (r.nearest + d.nat (Ob.chanDistTolerance k) < dist)

/-- The sum of the bits whose flag is set. -/
def mask6 (l : List Bool) : Nat := ((List.range l.length).map fun i => if l.getD i false then 2 ^ i else 0).sum

/-- The verdict on a record for a channel (R221, Table 3). A covering cycle whose result is no longer held fails check 3. -/
def Dev.verdict (d : Dev) (k : Nat) (r : CupRec) (cover : Nat) : Verdict :=
  let p := (d.model r.model).pkg
  let c := d.chan k
  let f := d.nat (Ob.chanPermitField k)
  let t := r.outs.getD (f % 4) []
  let off := f / 65536
  let doff := d.nat (Ob.chanDistanceOffset k)
  let permit := leAt t off 1
  let dist := leAt t doff 2
  let short := decide (t.length < off + 1) || decide (t.length < doff + 2)
  let flagged := ([2, 3, 4, 5, 6] : List Nat).any (bit r.flags)
  let c1 := flagged || short || !(permit == 0xA5 || permit == 0x5A) || d.rangeBad k p r.outs
  let mm (x : Nat) : Int := if x = 0xFFFF then 65534 else x
  let c2 := match c.prev with
    | none => false
    | some (s, x) => !after r.subject s
        || decide (d.reg (Ob.chanMaxClosingRate k) * stampDiff r.subject s + d.reg (Ob.chanDistTolerance k) * 1000000000
            < ((mm dist - mm x).natAbs : Int) * 1000000000)
  let c3 := match c.past.find? fun x => x.cycle == cover with
    | some x => d.check3 k permit dist x
    | none => true
  let c6 := decide (d.reg (Ob.chanSafetyBudget k) * 1000 < stampDiff r.completion r.subject)
  { subject := r.subject, permit := permit, dist := dist,
    fails := mask6 [c1, c2, c3, d.check4 r.model, d.check5 r.model, c6] }

/-- Failed checks are counted and logged (Table 7, Table 8). -/
def Dev.countFails (d : Dev) (k fails : Nat) : Dev :=
  d.each (setBits fails 6) fun d n =>
    (d.bump (Ob.chanCheckFailCount k n)).event { code := 0x7003, island := Isl.cup, d1 := k, d2 := n + 1 }

/-- The cycle end that covers a stamp, for a cycle end `c` and a stamp before or after it. -/
def Dev.coverOf (d : Dev) (c stamp : Nat) : Nat :=
  stampAdd c (-(((stampDiff c stamp) - 1) / (d.fbkNs : Int) * d.fbkNs))

/-- A record yields its verdict for a channel; the newest subject stamp governs (R221). -/
def Dev.judge (d : Dev) (k c : Nat) (r : CupRec) : Dev :=
  let v := d.verdict k r (d.coverOf c r.subject)
  let d := d.countFails k v.fails
  d.onChan k fun ch =>
    let newer := match ch.gov with
      | none => true
      | some g => after v.subject g.subject
    { ch with gov := if newer then some v else ch.gov,
              prev := if v.fails = 0 then some (v.subject, v.dist) else ch.prev }

/-- The checks the governing verdict fails at a decision on cycle `c` (Table 3, checks 3 to 6 applied now). -/
def Dev.govFails (d : Dev) (k c : Nat) (res : FbkRes) : Nat :=
  let m := d.nat (Ob.chanModel k)
  match (d.chan k).gov with
  | none => mask6 [false, false, false, d.check4 m, d.check5 m, true]
  | some v =>
    let old := decide (d.reg (Ob.chanSafetyBudget k) * 1000 < stampDiff c v.subject)
    mask6 [bit v.fails 0, bit v.fails 1, bit v.fails 2 || d.check3 k v.permit v.dist res, d.check4 m, d.check5 m,
           bit v.fails 5 || old]

/-- The state machine of a channel takes decision `dec` (Table 4). -/
def Dev.takeDecision (d : Dev) (k dec : Nat) : Dev :=
  let st := d.nat (Ob.chanState k)
  let d := d.onChan k fun c => { c with last := dec, clear := if dec = 0 then 0 else c.clear + 1,
                                        accel := if dec = 1 then c.accel + 1 else 0 }
  let c := d.chan k
  let n := d.nat (Ob.chanClearCycles k)
  let run := if dec = 1 then 4 else 5
  if st ≤ 1 then d
  else if dec = 0 then d.chanTo k 2
  else if st = 2 then
    (if n ≤ c.clear then d.chanTo k (if d.reg (Ob.chanRestartMode k) = 0 then run else 3) else d)
  else if st = 4 ∧ dec = 2 then d.chanTo k 5
  else if st = 5 ∧ dec = 1 ∧ n ≤ c.accel then d.chanTo k 4
  else d

/-- One channel's decision on cycle `c` (R221, R225). `past` says that the points exceeded the store. A check that fails at a
decision without a new record, for want of a verdict (01_console_model R26) or by the age of the governing one, puts the
channel in doubt and shows in DoubtCause; that it is neither counted in CheckFailCount nor logged as 0x7003, which are for
records judged, is a DESIGN CHOICE (log 154). -/
def Dev.decideChannel (d : Dev) (k c : Nat) (past : Bool) (pts : List (Int × Int × Int)) : Dev :=
  let m := d.nat (Ob.chanModel k)
  let res := d.evaluate k c pts
  let d := d.onChan k fun ch => { ch with past := (res :: ch.past).take 1024 }
  let ready := d.safe.recs.filter fun r => r.model == m && after c r.subject
  let d := d.each ready fun d r => d.judge k c r
  let miss := d.fbkMissing k c
  let unavail := past || miss.isSome || d.quiesced Isl.fus
  let fails := d.govFails k c res
  let noEng := decide (d.nat Ob.enginesInUse = 0)
  let notReady := d.reg Ob.cupperState != 1
  let was := d.nat (Ob.chanDoubtCause k)
  let doubt := fails != 0 || noEng || notReady
  let d := d.setN (Ob.chanDoubtCause k) (fails + 64 * unavail.toNat + 128 * noEng.toNat + 256 * notReady.toNat)
  let d := d.when (unavail && !bit was 6) fun d =>
    d.event { code := 0x7006, island := Isl.fbk, d1 := k, d2 := if past then 0xFF else miss.getD 0 }
  let d := ((d.setB (Ob.chanFallbackIntrusion k) res.intruded).setN (Ob.chanFallbackNearest k) res.nearest).setN
    (Ob.chanLastDecision k) c
  let permit := match (d.chan k).gov with
    | some v => v.permit == 0xA5
    | none => false
  let dec := if unavail || d.reg (Ob.chanState k) == 1 then 0
    else if !doubt then (if permit then 1 else 0)
    else if d.policyEff k = 0 then 0
    else if res.intruded then 0 else 2
  d.takeDecision k dec

/-- FALLBACK_EVALUATE (R216-R218, R221, R225): the last cycle whose FbkPointWait has ended, once. While FUS, whose fallback
stage it depends on (01_console_model R25), is quiesced, the fallback path is unavailable. -/
def execFallbackEvaluate (s : State) : Host.Outcome State Fault Refusal :=
  onDev (fun d =>
    let wait := d.nat Ob.fbkPointWait * 1000
    let k := (d.ext - wait) / d.fbkNs
    if !d.running || d.quiesced Isl.fbk || d.safe.cycle == some k then d
    else
      let c := k * d.fbkNs % span48
      let d := (d.onSafe fun x => { x with cycle := some k }).refreshChannels
      let d := d.each ((d.readable c).filter fun it => !it.doubtful) fun d it =>
        let newer := match kvGet d.safe.good it.srcNum with
          | none => true
          | some t => after it.subject t
        d.when newer fun d => d.onSafe fun x => { x with good := kvPut x.good it.srcNum it.subject }
      let past := decide (65536 < (d.windowPoints c).length)
      let pts := (d.windowPoints c).take 65536
      let d := d.when past fun d => d.bump Ob.fbkOverflows
      let d := d.each ((List.range 8).filter fun n => d.reg (Ob.chanState n) != 0) fun d n => d.decideChannel n c past pts
      let d := d.onSafe fun x => { x with recs := x.recs.filter fun r => !after c r.subject }
      let d := d.each (d.stageItems 1) fun d it =>
        d.when ((d.fbkPoints it).all fun p => after c p.1) fun d => d.consume 1 it
      d.refreshSafe) s

/-- A mismatch or a fault of CUP's clock monitor (R220): the pair off, channels HELD, 0x7001, and CUP resets. -/
def Dev.lockstepFault (d : Dev) (kind : Nat) : Dev :=
  let d := d.event { code := 0x7001, island := Isl.cup, d1 := kind, mirror := true }
  let d := ((d.bump Ob.lockstepFaults).set Ob.cupperState 2)
  ((d.closeIsland Isl.cup 2).emptyIsland Isl.cup).refreshChannels

/-- LOCKSTEP_MISMATCH (R220): kind 0 the comparator, 1 CUP's clock monitor. -/
def execLockstepMismatch (kind : Fin 2) (s : State) : Host.Outcome State Fault Refusal :=
  onDev (fun d => d.lockstepFault kind) s

/-- CUP_RESET_DONE (R220): the island returns, and checkers 1 and 2 have been exercised again; a miss holds until the next start
or a successful InjectRerun. -/
def execCupResetDone (detect1 detect2 : Bool) (s : State) : Host.Outcome State Fault Refusal :=
  onDev (fun d =>
    if d.reg Ob.cupperState ≠ 2 then d
    else
      let d := d.returnIsland Isl.cup
      let ok := detect1 && detect2 && !d.safe.miss
      let d := (d.set Ob.cupperState (if ok then 1 else 3)).onSafe fun x => { x with miss := !ok }
      (d.when ok fun d => d.event { code := 0x7002, island := Isl.cup, d1 := d.reg (Ob.islIncarnation (Isl.cup - 1)) }).refreshChannels) s

/-- A channel's model is bound from now on: its weight scan pass starts, and its canary is due at once where none has
passed. -/
def Dev.bindModel (d : Dev) (m : Nat) : Dev :=
  if m < 32 then d.onModel m fun r => { r with scanStart := d.ext, scanNext := 0, scanLate := false } else d

/-- Enable of a channel has been written (Table 4). -/
def Dev.channelEnabled (d : Dev) (k : Nat) (on : Bool) : Dev :=
  if on then
    if d.reg (Ob.chanState k) = 0 then
      let d := d.onChan k fun _ => {}
      (d.bindModel (d.nat (Ob.chanModel k))).chanTo k 1
    else d
  else (d.onChan k fun _ => {}).set (Ob.chanState k) 0

/-- CHANNEL_ENABLE (R226). -/
def execChannelEnable (hd : Hdr) (cond : Option Nat) (k : Fin 8) (v : Bytes) (s : State) : Host.Outcome State Fault Refusal :=
  onDev (fun d => d.writeStore {} hd cond (0x3610 + k) 1 v fun _ n d => (d.channelEnabled k (n != 0)).refreshChannels) s

/-- CHANNEL_RESTART (R226, Table 4). -/
def execChannelRestart (hd : Hdr) (cond : Option Nat) (k : Fin 8) (s : State) : Host.Outcome State Fault Refusal :=
  onDev (fun d => d.writeReq { state := fun d _ _ => needState (d.reg (Ob.chanState k) == 3) } hd cond (0x3610 + k) 8 [1]
    fun _ _ d => (d.chanTo k (if (d.chan k).last = 1 then 4 else 5)).refreshSafe) s

/-- Every channel's Enable is 0. -/
def Dev.noChannel (d : Dev) : Bool := (List.range 8).all fun k => !d.flag (Ob.chanEnable k)

/-- POLICY_WRITE (R232). -/
def execPolicyWrite (hd : Hdr) (cond : Option Nat) (k : Fin 8) (v : Bytes) (s : State) : Host.Outcome State Fault Refusal :=
  onDev (fun d => d.writeStore
    { state := fun d _ _ => needState (!d.flag (Ob.chanEnable k) && !d.flag Ob.provisionalActive) }
    hd cond (0x3610 + k) 2 v fun _ _ d => d) s

/-- An enabled channel uses a field set. -/
def Dev.setInUse (d : Dev) (n : Nat) : Bool :=
  (List.range 8).any fun k => d.flag (Ob.chanEnable k) && d.nat (Ob.chanFieldSetSelect k) == n

/-- The objects of a field set follow its bytes (R219). -/
def Dev.refreshFieldSet (d : Dev) (n : Nat) : Dev :=
  let b := d.blob (Ob.fieldSet n)
  (d.setB (Ob.fieldSetValid n) (fieldSetOk b)).setN (Ob.fieldSetCrc n) (leAt b 304 4)

/-- The block write of field set `n` (R219). -/
def fieldSetObj (n : Nat) : BlockObj :=
  { range := fun _ _ b => needRange (fieldSetOk b),
    state := fun d _ _ => firstFault [needState (!d.setInUse n), d.commitFault],
    eff := fun _ b d => ((d.setBlob (Ob.fieldSet n) b).refreshFieldSet n).countCommit.refreshChannels,
    defer := true }

/-- FIELD_SET_WRITE (R219). -/
def execFieldSetWrite (hd : Hdr) (payload : Bytes) (s : State) : Host.Outcome State Fault Refusal :=
  onDev (fun d => d.blockFrame (fun k => fieldSetObj (k / 256 % 16)) hd payload) s

/-- SAFE_TEST_PULSE (R228): a pulse of SAFE_A (0) or SAFE_B (1) begins or ends; the two never overlap. -/
def execSafeTestPulse (out : Fin 2) (begin_ : Bool) (s : State) : Host.Outcome State Fault Refusal :=
  onDev (fun d =>
    if begin_ then (if d.pairOn && d.safe.pulse.isNone then (d.onSafe fun x => { x with pulse := some (out : Nat) }).refreshSafe else d)
    else if d.safe.pulse = some (out : Nat) then (d.onSafe fun x => { x with pulse := none }).refreshSafe else d) s

/-- A SAFE fault is latched (R228): 0x7020, the pair off, its channels HELD. Kinds: 0 a feedback fails to follow, 1 it
reads high while its output is low, 2 it falls during the other output's pulse. -/
def Dev.latchSafe (d : Dev) (out kind : Nat) : Dev :=
  if d.latched then d
  else
    let d := (d.set Ob.safeOutputState 2).bump Ob.safeFaults
    (d.event { code := 0x7020, island := Isl.fio, d1 := out, d2 := kind, mirror := true }).refreshChannels

/-- The level of an output and of its feedback. -/
def Dev.outLevel (d : Dev) (n : Nat) : Bool := if n = 0 then d.pins.safeA else d.pins.safeB
def Dev.fbLevel (d : Dev) (n : Nat) : Bool := if n = 0 then d.safe.fbA else d.safe.fbB

/-- Output (0, 1) or feedback (2, 3) `n` has had no edge within `lim` ns. -/
def Dev.edgeOld (d : Dev) (n : Nat) (lim : Nat) : Bool :=
  match kvGet d.safe.edges n with
  | some t => decide (t + lim ≤ d.ext)
  | none => true

/-- SAFE_FEEDBACK_EDGE (R228): a feedback that falls while its own output is high and settled latches a fault, of kind 2
during the other output's pulse. -/
def execSafeFeedbackEdge (fb : Fin 2) (level : Bool) (s : State) : Host.Outcome State Fault Refusal :=
  onDev (fun d =>
    let n : Nat := fb
    let d := d.onSafe fun x =>
      let x := { x with edges := kvPut x.edges (2 + n) d.ext }
      if n = 0 then { x with fbA := level } else { x with fbB := level }
    if !level && d.outLevel n then
      if d.safe.pulse = some (1 - n) then d.latchSafe n 2
      else d.when (d.edgeOld n (d.nat Ob.feedbackDelay * 1000 + 1)) fun d => d.latchSafe n 0
    else d) s

/-- FEEDBACK_DELAY_EXPIRY (R228): a feedback has differed from its output for FeedbackDelay. The pair is watched, off too, from
the moment the islands run; error injection, which forces such errors (R230), latches nothing. -/
def execFeedbackDelayExpiry (fb : Fin 2) (s : State) : Host.Outcome State Fault Refusal :=
  onDev (fun d =>
    let n : Nat := fb
    let lim := d.nat Ob.feedbackDelay * 1000
    if d.tl.running && d.nat Ob.bootPhase != 6 && !d.safe.injecting && d.fbLevel n != d.outLevel n
        && d.edgeOld n lim && d.edgeOld (2 + n) lim then
      d.latchSafe n (if d.fbLevel n then 1 else 0)
    else d) s

/-- SAFE_RESET (R229). -/
def execSafeReset (hd : Hdr) (cond : Option Nat) (s : State) : Host.Outcome State Fault Refusal :=
  onDev (fun d => d.writeReq { state := fun d _ _ => needState (d.latched && !d.safe.fbA && !d.safe.fbB) } hd cond 0x3600 7 [1]
    fun _ _ d => ((d.set Ob.safeOutputState 0).event { code := 0x7021, island := Isl.fio }).refreshChannels) s

/-- The results of error injection (R230, R231): bit n - 1 of `detected` for checker n. Checker 3 without a present deck reads as
detected. -/
def Dev.injected (d : Dev) (detected : Nat) : Dev :=
  let r := detected % 16384 ||| (if d.dies = [] then 4 else 0)
  let d := ((d.setN Ob.injectResult r).setN Ob.injectStamp d.logStamp).onSafe fun x => { x with injecting := false, miss := r != 16383 }
  if r = 16383 then (d.set Ob.cupperState 1).event { code := 0x7011, island := Isl.cup }
  else (d.set Ob.cupperState 3).event { code := 0x7010, island := Isl.cup, d1 := r, mirror := true }

/-- The injection begins again: the pair off, the analog outputs at their safe values (R230, R231). -/
def Dev.beginInjection (d : Dev) : Dev :=
  (((d.onSafe fun x => { x with injecting := true }).set Ob.cupperState 0).each (List.range 12) fun d ch => d.anaRest ch 0).refreshChannels

/-- INJECT_RERUN (R230, R231). -/
def execInjectRerun (hd : Hdr) (cond : Option Nat) (s : State) : Host.Outcome State Fault Refusal :=
  onDev (fun d => d.writeReq { state := fun d _ _ => needState d.noChannel } hd cond 0x3600 4 [1]
    fun _ _ d => d.beginInjection) s

/-- A channel's objects have flipped (R233): verdicts come from the newly bound model alone. -/
def Dev.channelFlipped (d : Dev) (k : Nat) (rebound : Bool) : Dev :=
  if rebound then ((d.onChan k fun c => { c with gov := none, prev := none }).bindModel (d.nat (Ob.chanModel k))) else d

/-- Range conditions of a channel's object `sub` over the values `g` (Table 7): a valid field set, no RangeTensor in int4
or bf16 (Table 3), RangeMin not above RangeMax. -/
def Dev.chanRange (d : Dev) (g : Nat → Int) (k sub : Nat) : Bool :=
  let t := (g (Ob.chanRangeTensor k)).toNat
  let m := (g (Ob.chanModel k)).toNat
  let p := (d.model m).pkg
  let fmt := leAt (pkgDesc p (pkgInputs p + t)) 1 1
  if sub = 0x0A then d.flag (Ob.fieldSetValid (g (Ob.chanFieldSetSelect k)).toNat)
  else if sub = 0x0B ∨ sub = 0x0E then !(t != 0xFF && decide (p ≠ []) && (fmt == 1 || fmt == 2))
  else if sub = 0x0F ∨ sub = 0x10 then decide (g (Ob.chanRangeMin k) ≤ g (Ob.chanRangeMax k))
  else true

/-- FbkMount of a slot is used by an enabled channel (R219). -/
def Dev.fbkMountInUse (d : Dev) (s : Nat) : Bool :=
  (List.range 8).any fun k => d.flag (Ob.chanEnable k) && bit (d.nat (Ob.chanScannerMask k)) s

/-- FbkMount's quaternion is near unit norm (Table 7). -/
def fbkMountOk (g : Nat → Int) (s : Nat) : Bool :=
  quatOk [g (Ob.fbkMountQw s), g (Ob.fbkMountQx s), g (Ob.fbkMountQy s), g (Ob.fbkMountQz s)]

end Sys2Proof.Machine
end

