-- ==== Sys2Proof/Machine/Solver.lean ====
section
/-! DEFINITION. The batched fixed-point solver (11_solver R235-R246): structures and their formats, requests and deltas,
factorisation, warm start and refinement, results, solutions and poses. -/
namespace Sys2Proof.Machine

/-- Fields of a structure descriptor (Table 1). -/
def sdKind (b : Bytes) : Nat := leAt b 5 1
def sdN (b : Bytes) : Nat := leAt b 6 1
def sdM (b : Bytes) : Nat := leAt b 7 1
def sdB (b : Bytes) : Nat := leAt b 8 2
def sdClasses (b : Bytes) : Nat := leAt b 10 1
def sdMax (b : Bytes) (k : Nat) : Nat := leAt b (64 + 16 * k) 8
def sdRole (b : Bytes) (k : Nat) : Nat := leAt b (72 + 16 * k) 1
def sdMap (b : Bytes) (i j : Nat) : Nat := leAt b (320 + i * sdN b + j) 1
def sdRhs (b : Bytes) (i k : Nat) : Nat := leAt b (320 + sdN b * sdN b + i * sdM b + k) 1
def sdSol (b : Bytes) (i : Nat) : Nat := leAt b (320 + sdN b * sdN b + sdN b * sdM b + i) 1

/-- The length of a descriptor. -/
def sdLength (b : Bytes) : Nat := ceilDiv (320 + sdN b * sdN b + sdN b * sdM b + sdN b) 4 * 4 + 4

/-- The class format a of a class (R236): the smallest a of at least 1 with 2^(a-1) above MaxAbs. -/
def classFmt (b : Bytes) (k : Nat) : Nat :=
  if sdClasses b ≤ k then 0
  else (((List.range 31).map (fun i => i + 1)).find? fun a => decide (sdMax b k < 2 ^ (a - 1) * 4294967296)).getD 31

/-- The factor format f (R236). -/
def facFmt (b : Bytes) : Nat :=
  let top := (((List.range (sdClasses b)).filter fun k => sdRole b k == 0).map (classFmt b)).foldl Nat.max 1
  Nat.min 31 (top + leAt b 11 1)

/-- Fraction bits of the formats: matrix entry, right-hand side, solution row, factor, residual. -/
def frA (b : Bytes) (i j : Nat) : Nat := 32 - classFmt b (sdMap b i j)
def frB (b : Bytes) (i k : Nat) : Nat := 32 - classFmt b (sdRhs b i k)
def frX (b : Bytes) (i : Nat) : Nat := 32 - classFmt b (sdSol b i)
def frF (b : Bytes) : Nat := 32 - facFmt b
def frR (b : Bytes) (i k : Nat) : Nat := 32 - Nat.max 1 (classFmt b (sdRhs b i k) - leAt b 12 1)

/-- The maps of a descriptor name classes of their roles (R236). -/
def mapsOk (b : Bytes) : Bool :=
  let n := sdN b
  let is (k role : Nat) : Bool := decide (k < sdClasses b) && sdRole b k == role
  (List.range n).all fun i =>
    is (sdMap b i i) 0 && is (sdSol b i) 2
      && (List.range n).all (fun j =>
          (sdMap b i j == 0xFF || is (sdMap b i j) 0) && (sdKind b == 2 || decide (j ≤ i) || sdMap b i j == 0xFF))
      && (List.range (sdM b)).all fun k => is (sdRhs b i k) 1

/-- Every class's MaxAbs and role are in range (Table 1). -/
def classesOk (b : Bytes) : Bool :=
  (List.range 16).all fun k =>
    if k < sdClasses b then decide (65536 ≤ sdMax b k) && decide (sdMax b k < 2 ^ 62) && decide (sdRole b k ≤ 2)
    else sdMax b k == 0

/-- The first check a descriptor fails, as its LoadError (Table 5) but for the solver area. -/
def sdFault (b : Bytes) : Nat :=
  if !(leAt b 0 4 == 0x44534E55 && leAt b 4 1 == 1 && b.length == sdLength b) then 1
  else if leAt b (b.length - 4) 4 != crc32c (b.take (b.length - 4)) then 2
  else if !(decide (sdKind b ≤ 2) && decide (1 ≤ sdN b ∧ sdN b ≤ 32) && decide (1 ≤ sdM b ∧ sdM b ≤ 8)
      && decide (1 ≤ sdB b ∧ sdB b ≤ 4096) && decide (1 ≤ sdClasses b ∧ sdClasses b ≤ 16) && decide (leAt b 11 1 ≤ 12)
      && decide (leAt b 12 1 ≤ 16)) then 3
  else if !classesOk b then 4
  else if !mapsOk b then 5
  else 0

/-- Working state of a structure in the solver area (Table 9). -/
def sdWork (b : Bytes) : Nat := 4 * sdB b * (2 * sdN b * sdN b + sdN b * sdM b)

/-- `f` applied to the solver. -/
def Dev.onSol (d : Dev) (f : Sol → Sol) : Dev := { d with sol := f d.sol }

/-- A structure as loaded. -/
def Dev.struct (d : Dev) (s : Nat) : StructRt := (kvGet d.sol.structs s).getD {}

/-- A structure holds `r`; an empty one is not listed. -/
def Dev.setStruct (d : Dev) (s : Nat) (r : StructRt) : Dev :=
  d.onSol fun x => { x with structs := if r = {} then kvDel x.structs s else kvPut x.structs s r }

/-- System `j` of a structure. -/
def Dev.sys (d : Dev) (s j : Nat) : SysRt := (kvGet (d.struct s).systems j).getD {}

/-- System `j` holds `y`; one as loaded is not listed. -/
def Dev.setSys (d : Dev) (s j : Nat) (y : SysRt) : Dev :=
  let r := d.struct s
  d.setStruct s { r with systems := if y = {} then kvDel r.systems j else kvPut r.systems j y }

/-- SolveLatency of a structure in µs (R246). -/
def solveCycles (kind n m refine : Nat) (refactored : Bool) : Nat :=
  let f := if !refactored then 0
    else if kind = 2 then n * (n - 1) * (2 * n - 1) / 6 + n * (n - 1) / 2 + 16 * n
    else n * (n + 1) * (n + 2) / 6 + 16 * n
  ceilDiv (f + 2 * n * n * m * (1 + refine)) 16 + 64

/-- SolveLatency as it reads. -/
def Dev.solveLatency (d : Dev) (s : Nat) : Nat :=
  let b := (d.struct s).desc
  if b = [] then 0
  else 12 + ceilDiv (ceilDiv (sdB b) 4 * solveCycles (sdKind b) (sdN b) (sdM b) (d.nat (Ob.structRefineSteps s)) true * 10) 6144

/-- StructuresLoaded. -/
def Dev.countStructs (d : Dev) : Dev := d.setN Ob.structuresLoaded d.sol.structs.length

/-- SolutionSeq as the solution area shows it, with the last completion stamp (R243). -/
def Dev.showSeq (d : Dev) (s : Nat) : Dev :=
  d.memWrite (d.nat (Ob.structStateBase s)) (leBytes 4 (d.nat (Ob.structSolutionSeq s)) ++ leBytes 4 0
    ++ leBytes 6 (d.nat (Ob.structLastCompletion s)) ++ leBytes 2 0)

/-- A structure is loaded from its descriptor (R235), or FAILED with its LoadError. What it held before is freed. -/
def Dev.loadStruct (d : Dev) (s : Nat) (b : Bytes) : Dev :=
  let old := (d.struct s).desc
  let d := if old = [] then d else (d.setN Ob.solverAreaFree (d.nat Ob.solverAreaFree + sdWork old)).setStruct s {}
  let f := sdFault b
  let f := if f = 0 ∧ d.nat Ob.solverAreaFree < sdWork b then 6 else f
  let d := d.setN (Ob.structLoadError s) f
  if f ≠ 0 then ((d.set (Ob.structState s) 3).countStructs).event { code := 0x3080, island := Isl.sol, d1 := s, d2 := f }
  else
    let d := (d.setN Ob.solverAreaFree (d.nat Ob.solverAreaFree - sdWork b)).setStruct s { desc := b }
    let d := (d.setN (Ob.structFactorFormat s) (facFmt b)).each (List.range 16) fun d k =>
      d.setN (Ob.structClassFormat s k) (classFmt b k)
    let d := (d.set (Ob.structState s) 1).setN (Ob.structStateBase s) (Config.solutionBase s)
    let d := d.memWrite (Config.solutionBase s) (List.replicate (16 + 4 * sdN b * sdM b * sdB b) 0)
    (d.showSeq s).countStructs.event { code := 0x3081, island := Isl.sol, d1 := s }

/-- The block write of a structure descriptor (R235). -/
def structObj (s : Nat) : BlockObj :=
  { state := fun d _ _ => firstFault [needState (!d.flag (Ob.structEnable s)), d.commitFault],
    eff := fun _ b d => ((d.setBlob (Ob.structDescriptor s) b).loadStruct s b).countCommit,
    defer := true }

/-- STRUCTURE_DESCRIPTOR_WRITE (R235, R236). -/
def execStructureDescriptorWrite (hd : Hdr) (payload : Bytes) (s : State) : Host.Outcome State Fault Refusal :=
  onDev (fun d => d.blockFrame (fun k => structObj (k / 256 - 0x3840)) hd payload) s

/-- Fields of a request (Table 2, Table 3). -/
def rqFlag (q : Bytes) (n : Nat) : Bool := bit (leAt q 5 1) n
def rqSubject (q : Bytes) : Nat := leAt q 8 6
def rqFirst (q : Bytes) : Nat := leAt q 14 2
def rqCount (q : Bytes) : Nat := leAt q 16 2
def rqEntries (q : Bytes) : List Bytes := (List.range (leAt q 20 4)).map fun j => slice q (48 + 8 * j) 8

/-- A delta names an entry of the structure that is no structural zero (Table 4). -/
def deltaOk (b e : Bytes) : Bool :=
  let row := leAt e 2 1
  let col := leAt e 3 1 % 128
  decide (leAt e 0 2 < sdB b) && decide (row < sdN b)
    && (if bit (leAt e 3 1) 7 then decide (col < sdM b)
        else decide (col < sdN b) && sdMap b (if sdKind b = 2 then row else Nat.max row col)
          (if sdKind b = 2 then col else Nat.min row col) != 0xFF)

/-- RequestStatus of a request for structure `s` (Table 4, in its order). -/
def Dev.requestStatus (d : Dev) (s : Nat) (it : Item) (q : Bytes) : Nat :=
  let b := (d.struct s).desc
  if !(leAt q 0 4 == 0x51534E55 && leAt q 4 1 == 1 && leAt q 44 4 == crc32c (q.take 44) && leAt q 6 1 == s
      && q.length == 48 + 8 * leAt q 20 4 && decide (1 ≤ rqCount q ∧ rqCount q ≤ 4096)) then 2
  else if !((rqEntries q).all (deltaOk b)) then 3
  else if !d.flag (Ob.structEnable s) then 4
  else if sdB b < rqFirst q + rqCount q then 5
  else if it.doubtful then 6
  else 0

/-- A value of an entry, clamped to its class's MaxAbs (R238), and whether it was. -/
def clampEntry (maxAbs fr : Nat) (v : Int) : Int × Bool :=
  if maxAbs * 2 ^ fr < v.natAbs * 4294967296 then
    let top : Int := (maxAbs * 2 ^ fr / 4294967296 : Nat)
    (if v < 0 then -top else top, true)
  else (v, false)

/-- Sparse entries: 0 where not listed. -/
def entry (m : Assoc Int) (k : Nat) : Int := (kvGet m k).getD 0

/-- An entry takes a value. -/
def setEntry (m : Assoc Int) (k : Nat) (v : Int) : Assoc Int := if v = 0 then kvDel m k else kvPut m k v

/-- A system's entries after one delta (R238). -/
def deltaOn (b : Bytes) (y : SysRt) (e : Bytes) : SysRt :=
  let row := leAt e 2 1
  let col := leAt e 3 1 % 128
  let v := sAt e 4 4
  if bit (leAt e 3 1) 7 then
    let r := clampEntry (sdMax b (sdRhs b row col)) (frB b row col) v
    { y with b := setEntry y.b (row * sdM b + col) r.1, clamped := y.clamped || r.2 }
  else
    let i := if sdKind b = 2 then row else Nat.max row col
    let k := if sdKind b = 2 then col else Nat.min row col
    let r := clampEntry (sdMax b (sdMap b i k)) (frA b i k) v
    let same := decide (entry y.a (i * sdN b + k) = r.1)
    { y with a := setEntry y.a (i * sdN b + k) r.1, clamped := y.clamped || r.2, factored := y.factored && same }

/-- One delta is applied to the system it names. -/
def Dev.applyDelta (d : Dev) (s : Nat) (e : Bytes) : Dev :=
  d.setSys s (leAt e 0 2) (deltaOn (d.struct s).desc (d.sys s (leAt e 0 2)) e)

/-- A sum in the signed 64-bit accumulator (R239): it saturates, and ACC_SAT stays. -/
def accAdd (s : Int × Bool) (v : Int) : Int × Bool :=
  let t := s.1 + v
  if 9223372036854775807 < t then (9223372036854775807, true)
  else if t < -9223372036854775808 then (-9223372036854775808, true)
  else (t, s.2)

/-- A start value less a list of products. -/
def accSub (start : Int) (ps : List Int) : Int × Bool := ps.foldl (fun s p => accAdd s (-p)) (accAdd (0, false) start)

/-- A value moved from `fr` fraction bits to `want` (rounded where bits are lost). -/
def align (fr want : Nat) (v : Int) : Int := if fr ≤ want then v * 2 ^ (want - fr) else roundDiv v (2 ^ (fr - want))

/-- A stored 32-bit result: the quotient rounded, saturated to the format, and whether it was (R239). -/
def store32 (num den : Int) : Int × Bool :=
  let v := roundDivInt num den
  (clampInt (-2147483648) 2147483647 v, decide (v < -2147483648 ∨ 2147483647 < v))

/-- The square root rounded to nearest. -/
def sqrtNear (n : Nat) : Nat := if isqrt n < n - isqrt n * isqrt n then isqrt n + 1 else isqrt n

/-- A factorisation under way: the factor, row order, ACC_SAT, FACTOR_SAT, replaced pivots with the first, singular. -/
structure Fac where
  f : List Int
  perm : List Nat
  acc : Bool := false
  sat : Bool := false
  reg : Nat := 0
  first : Nat := 0
  sing : Bool := false

/-- Entry (i, k) of an order-n factor. -/
def Fac.at' (w : Fac) (n i k : Nat) : Int := w.f.getD (i * n + k) 0

/-- Entry (i, k) takes a stored result. -/
def Fac.put (w : Fac) (n i k : Nat) (v : Int × Bool) (acc : Bool) : Fac :=
  { w with f := w.f.set (i * n + k) v.1, sat := w.sat || v.2, acc := w.acc || acc }

/-- A pivot after R240; column `j`. -/
def Fac.pivot (w : Fac) (kind j : Nat) (floor lambda p : Int) : Int × Fac :=
  let count (w : Fac) : Fac := { w with reg := w.reg + 1, first := if w.reg = 0 then j else w.first }
  if kind = 0 then
    if p ≤ floor then (p + lambda, { count w with sing := w.sing || decide (p + lambda ≤ floor) }) else (p, w)
  else if (p.natAbs : Int) ≤ floor then (if 0 ≤ p then p + lambda else p - lambda, count w)
  else (p, w)

/-- Column `j` of Cholesky (R239): the accumulator holds twice the factor's fraction bits. -/
def cholColumn (b : Bytes) (a : Assoc Int) (floor lambda : Int) (w : Fac) (j : Nat) : Fac :=
  if w.sing then w
  else
    let n := sdN b
    let ff := frF b
    let (s, o) := accSub (align (frA b j j) (2 * ff) (entry a (j * n + j))) ((List.range j).map fun k => w.at' n j k * w.at' n j k)
    let (p, ps) := store32 s (2 ^ ff)
    let (p, w) := ({ w with acc := w.acc || o, sat := w.sat || ps } : Fac).pivot 0 j floor lambda p
    if w.sing then w
    else
      let r := store32 (sqrtNear (p.toNat * 2 ^ ff)) 1
      let l := r.1
      let w := w.put n j j r false
      ((List.range n).drop (j + 1)).foldl (fun w i =>
        let (s, o) := accSub (if sdMap b i j = 0xFF then 0 else align (frA b i j) (2 * ff) (entry a (i * n + j)))
          ((List.range j).map fun k => w.at' n i k * w.at' n j k)
        w.put n i j (store32 s l) o) w

/-- Column `j` of LDLᵀ without pivoting (R239): L_jk d_k is stored in the factor format. -/
def ldlColumn (b : Bytes) (a : Assoc Int) (floor lambda : Int) (w : Fac) (j : Nat) : Fac :=
  let n := sdN b
  let ff := frF b
  let us := (List.range j).map fun k => store32 (w.at' n j k * w.at' n k k) (2 ^ ff)
  let u (k : Nat) : Int := (us.getD k (0, false)).1
  let (s, o) := accSub (align (frA b j j) (2 * ff) (entry a (j * n + j))) ((List.range j).map fun k => w.at' n j k * u k)
  let (p, ps) := store32 s (2 ^ ff)
  let w : Fac := { w with acc := w.acc || o, sat := w.sat || ps || us.any fun x => x.2 }
  let (p, w) := w.pivot 1 j floor lambda p
  let r := store32 p 1
  let p := r.1
  let w := w.put n j j r false
  ((List.range n).drop (j + 1)).foldl (fun w i =>
    let (s, o) := accSub (if sdMap b i j = 0xFF then 0 else align (frA b i j) (2 * ff) (entry a (i * n + j)))
      ((List.range j).map fun k => w.at' n i k * u k)
    w.put n i j (store32 s p) o) w

/-- Column `j` of LU with partial pivoting (R239): ties go to the lowest row. A multiplier is the column's accumulator over
the pivot, rounded once. -/
def luColumn (b : Bytes) (a : Assoc Int) (floor lambda : Int) (w : Fac) (j : Nat) : Fac :=
  let n := sdN b
  let ff := frF b
  let start (w : Fac) (i : Nat) : Int :=
    let r := w.perm.getD i i
    if sdMap b r j = 0xFF then 0 else align (frA b r j) (2 * ff) (entry a (r * n + j))
  let step (acc : Fac × List Int) (i : Nat) : Fac × List Int :=
    let (s, o) := accSub (start acc.1 i) ((List.range (Nat.min i j)).map fun k => acc.1.at' n i k * acc.1.at' n k j)
    (acc.1.put n i j (store32 s (2 ^ ff)) o, acc.2 ++ [s])
  let (w, sums) := (List.range n).foldl step (w, [])
  let best := ((List.range n).drop (j + 1)).foldl (fun m i => if (w.at' n m j).natAbs < (w.at' n i j).natAbs then i else m) j
  let other (i : Nat) : Nat := if i = j then best else if i = best then j else i
  let w := { w with f := (List.range (n * n)).map (fun x => w.f.getD (other (x / n) * n + x % n) 0),
                    perm := (List.range n).map fun i => w.perm.getD (other i) i }
  let (p, w) := w.pivot 2 j floor lambda (w.at' n j j)
  let r := store32 p 1
  let p := r.1
  let w := w.put n j j r false
  ((List.range n).drop (j + 1)).foldl (fun w i => w.put n i j (store32 (sums.getD (other i) 0) p) false) w

/-- The factorisation of a system (R239, R240). -/
def factor (b : Bytes) (a : Assoc Int) (floor lambda : Int) : Fac :=
  let n := sdN b
  let w : Fac := { f := List.replicate (n * n) 0, perm := List.range n }
  let col := if sdKind b = 0 then cholColumn b a floor lambda else if sdKind b = 1 then ldlColumn b a floor lambda
    else luColumn b a floor lambda
  (List.range n).foldl col w

/-- Flags a solve raises. -/
structure SolveFlags where
  acc : Bool := false
  sol : Bool := false
  res : Bool := false

/-- Both sets of flags. -/
def SolveFlags.or (x y : SolveFlags) : SolveFlags := { acc := x.acc || y.acc, sol := x.sol || y.sol, res := x.res || y.res }

/-- Matrix entry (i, j) of a system: below the diagonal for a symmetric kind. -/
def matAt (b : Bytes) (a : Assoc Int) (i j : Nat) : Int × Nat :=
  let (r, c) := if sdKind b = 2 ∨ j ≤ i then (i, j) else (j, i)
  if sdMap b r c = 0xFF then (0, 0) else (entry a (r * sdN b + c), frA b r c)

/-- The residual of column `k` against solution `x`, in the residual format (R241). -/
def residual (b : Bytes) (y : SysRt) (x : List Int) (k : Nat) : List Int × SolveFlags :=
  let n := sdN b
  let m := sdM b
  (List.range n).foldl (fun (acc : List Int × SolveFlags) i =>
    let cells := (List.range n).map fun j => (matAt b y.a i j, j)
    let fr := cells.foldl (fun f c => Nat.max f (c.1.2 + frX b c.2)) (frB b i k)
    let (s, o) := accSub (align (frB b i k) fr (entry y.b (i * m + k)))
      (cells.map fun c => c.1.1 * x.getD (c.2 * m + k) 0 * 2 ^ (fr - (c.1.2 + frX b c.2)))
    let (r, sat) := if frR b i k ≤ fr then store32 s (2 ^ (fr - frR b i k)) else store32 (s * 2 ^ (frR b i k - fr)) 1
    (acc.1 ++ [r], acc.2.or { acc := o, res := sat })) ([], {})

/-- A fraction in lowest terms, its denominator above 0. -/
def lowest (n d : Int) : Int × Int :=
  let g : Int := Int.gcd n d
  if d < 0 then (-n / g, -d / g) else (n / g, d / g)

/-- A sum of exact values in the 64-bit accumulator at `fr` fraction bits: it saturates, and ACC_SAT stays (R239). -/
def accRat (fr : Nat) (s : (Int × Int) × Bool) (v : Int × Int) : (Int × Int) × Bool :=
  let t := lowest (s.1.1 * v.2 + v.1 * s.1.2) (s.1.2 * v.2)
  if 9223372036854775807 * t.2 < t.1 * 2 ^ fr then ((9223372036854775807, 2 ^ fr), true)
  else if t.1 * 2 ^ fr < -9223372036854775808 * t.2 then ((-9223372036854775808, 2 ^ fr), true)
  else (t, s.2)

/-- A row of a triangular solve: its right-hand side less the coefficients times the values found before, over the diagonal;
coefficients and diagonal in units of 1/`one`. -/
def triRow (fr : Nat) (one diag : Int) (rhs : Int × Int) (cv : List (Int × (Int × Int))) : (Int × Int) × Bool :=
  let s := cv.foldl (fun s c => accRat fr s (-c.1 * c.2.1, one * c.2.2)) (accRat fr ((0, 1), false) rhs)
  (lowest (s.1.1 * one) (s.1.2 * diag), s.2)

/-- The correction of column `k` from its residual with the factor (R241), in real units, and ACC_SAT: the sums accumulate at the
fraction bits of the factor and the row's solution, and nothing is rounded before it is added to the solution (log 36). -/
def correct (b : Bytes) (y : SysRt) (r : List Int) (k : Nat) : List (Int × Int) × Bool :=
  let n := sdN b
  let kind := sdKind b
  let one : Int := 2 ^ frF b
  let l (i j : Nat) : Int := y.fac.getD (i * n + j) 0
  let fr (i : Nat) : Nat := frF b + frX b i
  let forward := (List.range n).foldl (fun (acc : List (Int × Int) × Bool) i =>
    let row := if kind = 2 then y.perm.getD i i else i
    let v := triRow (fr i) one (if kind = 0 then l i i else one) (r.getD row 0, 2 ^ frR b row k)
      (acc.1.zipIdx.map fun c => (l i c.2, c.1))
    (acc.1 ++ [v.1], acc.2 || v.2)) ([], false)
  let mid (i : Nat) : Int × Int :=
    let v := forward.1.getD i (0, 1)
    if kind = 1 then lowest (v.1 * one) (v.2 * l i i) else v
  (List.range n).foldl (fun (acc : List (Int × Int) × Bool) t =>
    let i := n - 1 - t
    let v := triRow (fr i) one (if kind = 1 then one else l i i) (mid i)
      (acc.1.zipIdx.map fun c => (if kind = 2 then l i (i + 1 + c.2) else l (i + 1 + c.2) i, c.1))
    (v.1 :: acc.1, acc.2 || v.2)) ([], forward.2)

/-- One refinement step over every column (R241): the correction is added in the solution formats. -/
def refineStep (b : Bytes) (y : SysRt) (x : List Int) : List Int × SolveFlags :=
  let n := sdN b
  let m := sdM b
  let res := (List.range m).map fun k => residual b y x k
  let cols := (List.range m).map fun k => correct b y (res.getD k ([], {})).1 k
  let sums := (List.range (n * m)).map fun e =>
    let v := (cols.getD (e % m) ([], false)).1.getD (e / m) (0, 1)
    store32 (x.getD e 0 * v.2 + v.1 * 2 ^ frX b (e / m)) v.2
  let flags := res.foldl (fun (f : SolveFlags) c => f.or c.2) {}
  (sums.map fun s => s.1, { flags with sol := flags.sol || sums.any fun s => s.2, acc := flags.acc || cols.any fun c => c.2 })

/-- The refinement from a start value: `steps` steps (R241). -/
def refine (b : Bytes) (y : SysRt) : Nat → List Int → SolveFlags → List Int × SolveFlags
  | 0, x, f => (x, f)
  | k + 1, x, f =>
    let (x, g) := refineStep b y x
    refine b y k x (f.or g)

/-- A system's status word (Table 7). -/
def statusWord (outcome : Nat) (y : SysRt) (f : SolveFlags) (facAcc cold refac : Bool) : Nat :=
  outcome + 4 * y.clamped.toNat + 8 * y.facSat.toNat + 16 * (f.acc || facAcc).toNat + 32 * f.sol.toNat + 64 * f.res.toNat
    + 128 * cold.toNat + 256 * refac.toNat + 65536 * y.first + 2097152 * y.reg

/-- One system is solved (R239-R241): its new state and its status word. -/
def solveSystem (b : Bytes) (t : Batch) (y : SysRt) : SysRt × Nat :=
  let refac := !y.factored || y.sing
  let (y1, facAcc) :=
    if refac then
      let w := factor b y.a t.floor t.lambda
      ({ y with fac := w.f, perm := w.perm, factored := true, reg := w.reg, first := w.first, facSat := w.sat, sing := w.sing }, w.acc)
    else (y, false)
  let cold := rqFlag t.req 0 || !y.solved || y.sing || y.solSat
  if y1.sing then ({ y1 with clamped := false }, statusWord 2 y1 {} facAcc cold refac)
  else
    let size := sdN b * sdM b
    let zero := List.replicate size (0 : Int)
    let x0 := if cold then zero else (List.range size).map fun e => entry y.x e
    let (x, f) := refine b y1 (1 + t.refine) x0 {}
    let restart := f.res && x0 != zero
    let (x, f) := if restart then (let (x, g) := refine b y1 (1 + t.refine) zero {}; (x, { g with res := true })) else (x, f)
    let y2 := { y1 with x := (List.range size).foldl (fun m e => setEntry m e (x.getD e 0)) [], solved := true, solSat := f.sol,
                        clamped := false }
    (y2, statusWord (if y1.reg = 0 then 0 else 1) y1 f facAcc (cold || restart) refac)

/-- A status word's outcome. -/
def outcomeOf (w : Nat) : Nat := w % 4

/-- A solved system's solution is written to its area (R243). -/
def Dev.showSolution (d : Dev) (s j : Nat) : Dev :=
  let b := (d.struct s).desc
  let size := sdN b * sdM b
  let y := d.sys s j
  d.memWrite (d.nat (Ob.structStateBase s) + 16 + 4 * size * j)
    ((List.range size).flatMap fun e => leBytes 4 (unsigned 32 (entry y.x e)))

/-- System `i` of a batch, of which the first `k` are solved: the rest read NOT_RUN. A factor under a PivotFloor or Lambda that has
changed since the batch began is not kept (R239). -/
def Dev.runSystem (d : Dev) (t : Batch) (k i : Nat) : Dev × Nat :=
  let j := rqFirst t.req + i
  let y := d.sys t.s j
  if k ≤ i then (d.setSys t.s j { y with clamped := false }, 3 + 4 * y.clamped.toNat)
  else
    let r := solveSystem (d.struct t.s).desc t y
    let kept := decide (d.reg (Ob.structPivotFloor t.s) = t.floor ∧ d.reg (Ob.structLambda t.s) = t.lambda)
    ((d.setSys t.s j { r.1 with factored := r.1.factored && kept }).showSolution t.s j, r.2)

/-- Systems of a batch in order: the device after them and their result words. -/
def Dev.runSystems (d : Dev) (t : Batch) (k : Nat) : List Nat → Dev × List Nat
  | [] => (d, [])
  | i :: l =>
    let r := d.runSystem t k i
    ((r.1.runSystems t k l).1, r.2 :: (r.1.runSystems t k l).2)

/-- A batch of which the first `k` systems are solved; a request that solves nothing reads NOT_RUN throughout. -/
def Dev.runBatch (d : Dev) (t : Batch) (k : Nat) : Dev × List Nat :=
  d.runSystems t (if rqFlag t.req 1 then 0 else k) (List.range (rqCount t.req))

/-- The result record (Table 6) goes to ResultQueue, LATE where its batch took longer than SolveLatency (01_console_model R21), and
SIGNAL is served (R242). -/
def Dev.sendResult (d : Dev) (s q flags : Nat) (req : Bytes) (status : Nat) (owner : Option Nat) (words : List Nat) (late : Bool) : Dev :=
  let head := leBytes 4 0x52534E55 ++ leBytes 1 s ++ leBytes 1 status ++ leBytes 1 flags ++ leBytes 1 0 ++ leBytes 4 (leAt req 24 4)
    ++ leBytes 4 (d.nat (Ob.structSolutionSeq s)) ++ leBytes 6 (rqSubject req) ++ leBytes 6 (d.stampIn Isl.sol) ++ leBytes 2 (rqFirst req)
    ++ leBytes 2 (rqCount req)
  let d := d.when (q != 0xFFFF) fun d =>
    d.emitItem q { subject := rqSubject req, srcKind := 4, srcNum := s, seq := d.seqOf 4 s, producer := Isl.sol }
      (head ++ words.flatMap (leBytes 4)) late
  d.when (rqFlag req 2 && (match owner with | some p => d.fenceRight p (leAt req 28 4) | none => false)) fun d =>
    d.signalFence (leAt req 28 4) (leAt req 32 8)

/-- A request refused: its result, counts and 0x3082, as a violation for statuses 2, 3 and 5 (R237). -/
def Dev.refuseRequest (d : Dev) (s : Nat) (req : Bytes) (status : Nat) (owner : Option Nat) : Dev :=
  let d := (d.bump (Ob.structRequestsRefused s)).sendResult s (d.nat (Ob.structResultQueue s)) 0 req status owner [] false
  let ev : Ev := { code := 0x3082, island := Isl.sol, d1 := s, d2 := status }
  match owner with
  | some p => if status = 2 ∨ status = 3 ∨ status = 5 then d.violate (.fixed (partnerId 1 p)) fun _ => ev else d.event ev
  | none => d.event ev

/-- The structure whose request is read next (R245): the head that became readable first, then the lower number. -/
def Dev.nextRequest (d : Dev) : Option Nat :=
  ((List.range 64).filterMap fun s =>
    let q := d.nat (Ob.structRequestQueue s)
    if q = 0xFFFF then none else ((readOrder (d.q q).items).head?).map fun it => (s, it.completion)).foldl
    (fun b x => match b with
      | none => some x
      | some y => if after y.2 x.2 then some x else b) none |>.map fun x => x.1

/-- SOL may start a batch. -/
def Dev.solFree (d : Dev) : Bool := !d.quiesced Isl.sol && d.nat Ob.powerState != 4 && d.sol.batch.isNone

/-- SOL takes the next request, checks it and applies its deltas at batch start (R237, R238, R245). -/
def Dev.startBatch (d : Dev) : Dev :=
  if !d.solFree then d
  else match d.nextRequest with
    | none => d
    | some n =>
      let q := d.nat (Ob.structRequestQueue n)
      match d.readQueue q with
      | none => d
      | some (it, d) =>
        let d := (d.when (d.holdsGen q) fun d => d.genDec it).bump (Ob.structRequests n)
        let (it, d) := d.readItem it
        let req := it.data
        let d := d.setN (Ob.structLastSubject n) (rqSubject req)
        let owner := d.queueOwner q
        let st := d.requestStatus n it req
        if st ≠ 0 then d.refuseRequest n req st owner
        else
          let d := d.each (rqEntries req) fun d e => d.applyDelta n e
          let d := (d.setN (Ob.structSolutionSeq n) ((d.nat (Ob.structSolutionSeq n) + 1) % 4294967296)).showSeq n
          let t : Batch := { s := n, req := req, owner := owner, floor := d.reg (Ob.structPivotFloor n),
                             lambda := d.reg (Ob.structLambda n), refine := d.nat (Ob.structRefineSteps n),
                             poseSys := d.nat (Ob.structPoseSystem n), poseRow := d.nat (Ob.structPoseRow n),
                             result := d.nat (Ob.structResultQueue n), at_ := d.now }
          d.onSol fun x => { x with batch := some t }

/-- The pose record of a solved system (R244): `none` where the quaternion's norm is below 2^-10. -/
def poseOf (b : Bytes) (y : SysRt) (row stamp : Nat) : Option Bytes :=
  let m := sdM b
  let raw (i : Nat) : Int := entry y.x ((row + i) * m)
  let fr (i : Nat) : Nat := frX b (row + i)
  let scaled (i : Nat) (u : Int) : Int := roundDiv (raw i * u) (2 ^ fr i)
  let quat := (List.range 4).map fun i => raw (3 + i) * 2 ^ (31 - fr (3 + i))
  if (quat.map fun x => x * x).sum < 2097152 * 2097152 then none
  else
    let pos := (List.range 3).flatMap fun i => leBytes 4 (unsigned 32 (clampInt (-2147483648) 2147483647 (scaled i 1000000)))
    let q := (List.range 4).flatMap fun i => leBytes 4 (unsigned 32 ((quatUnit quat).getD i 0))
    let rest := (List.range 6).flatMap fun i => leBytes 2 (unsigned 16 (clampInt (-32768) 32767 (scaled (7 + i) 1000)))
    some (leBytes 6 stamp ++ leBytes 2 0 ++ pos ++ q ++ rest)

/-- The pose of a batch (R244): the device and the flags of the result's head. Rows that a structure loaded since does not have are
withheld (log 155). -/
def Dev.batchPose (d : Dev) (t : Batch) (words : List Nat) : Dev × Nat :=
  let j := t.poseSys
  if t.poseSys = 0xFFFF || rqFlag t.req 1 || j < rqFirst t.req || rqFirst t.req + rqCount t.req ≤ j then (d, 0)
  else
    let b := (d.struct t.s).desc
    let q := d.nat Ob.poseQueue
    let ran := decide (outcomeOf (words.getD (j - rqFirst t.req) 3) ≤ 1)
    match (if ran && q != 0xFFFF && decide (t.poseRow + 13 ≤ sdN b) then poseOf b (d.sys t.s j) t.poseRow (rqSubject t.req) else none) with
    | none => (d.event { code := 0x3087, island := Isl.sol, d1 := t.s, d2 := j }, 2)
    | some rec_ =>
      (d.emitItem q { subject := rqSubject t.req, srcKind := 4, srcNum := t.s, seq := d.seqOf 4 t.s, producer := Isl.sol } rec_ false,
        1)

/-- A batch ends with its first `k` systems run (R242, R243): SolutionSeq even, counts, pose, result, signal. -/
def Dev.endBatch (d : Dev) (t : Batch) (k status : Nat) : Dev :=
  let (d, words) := d.runBatch t k
  let n := t.s
  let d := (d.setN (Ob.structLastCompletion n) d.now).setN (Ob.structSolutionSeq n) ((d.nat (Ob.structSolutionSeq n) + 1) % 4294967296)
  let d := (d.showSeq n).onSol fun x => { x with batch := none }
  let runs := ((t.at_, d.now) :: d.sol.runs).filter fun r => decide (stampDiff d.now r.2 < 1000000000)
  let d := (d.onSol fun x => { x with runs := runs }).bump Ob.batchesRun
  let count (f : Nat → Bool) : Nat := (words.filter f).length
  let reg := count fun w => outcomeOf w == 1
  let sing := count fun w => outcomeOf w == 2
  let sats := count fun w => bit w 3 || bit w 4 || bit w 5 || bit w 6
  let d := d.bumpBy Ob.systemsSolved (count fun w => outcomeOf w != 3)
  let d := ((d.bumpBy (Ob.structRegularised n) reg).bumpBy (Ob.structSingular n) sing).bumpBy (Ob.structSaturations n) sats
  let note (d : Dev) (code c : Nat) : Dev := d.when (decide (0 < c)) fun d => d.event { code := code, island := Isl.sol, d1 := n, d2 := c }
  let d := note (note (note d 0x3083 reg) 0x3084 sing) 0x3085 sats
  let (d, flags) := d.batchPose t words
  d.sendResult n t.result flags t.req status t.owner words (decide (d.solveLatency n * 1000 < d.ago t.at_))

/-- SOLVER_BATCH_END (R242). -/
def execSolverBatchEnd (s : State) : Host.Outcome State Fault Refusal :=
  onDev (fun d => match d.sol.batch with
    | none => d
    | some t => if d.quiesced Isl.sol then d else d.endBatch t (rqCount t.req) 0) s

/-- SOL returned with a batch abandoned (R243): what had run is a free value of the count (log 4). -/
def Dev.abandonBatch (d : Dev) : Dev :=
  match d.sol.batch with
  | none => d
  | some t =>
    let k := Config.freshId d.fresh % (rqCount t.req + 1)
    (d.drawn.endBatch t k 1).event { code := 0x3086, island := Isl.sol, d1 := t.s }

/-- Busy of the solver over the last second, percent (Table 9). -/
def Dev.solBusy (d : Dev) : Nat :=
  let from_ := stampAdd d.now (-1000000000)
  let part (s t : Nat) : Nat := (stampDiff t (if after from_ s then from_ else s)).toNat
  let live := match d.sol.batch with | some t => part t.at_ d.now | none => 0
  Nat.min 100 ((((d.sol.runs.filter fun r => after r.2 from_).map fun r => part r.1 r.2).sum + live) / 10000000)

/-- PivotFloor or Lambda of a structure changed: every system is factored again (R239). -/
def Dev.refactorAll (d : Dev) (s : Nat) : Dev :=
  let r := d.struct s
  d.setStruct s { r with systems := r.systems.map fun e => (e.1, { e.2 with factored := false }) }

/-- StructState (Table 9). -/
def Dev.structStateNow (d : Dev) (s : Nat) : Int :=
  if d.reg (Ob.structState s) = 1 ∧ d.flag (Ob.structEnable s) then 2 else d.reg (Ob.structState s)

/-- Range conditions of a structure's object `sub` over the values `g` (Table 9): Lambda above PivotFloor; PoseRow within n - 13,
which no row is without a structure; PoseSystem below B, with its rows (R244). -/
def Dev.structRange (d : Dev) (g : Nat → Int) (s sub : Nat) : Bool :=
  let b := (d.struct s).desc
  let rows := decide (g (Ob.structPoseRow s) + 13 ≤ (sdN b : Int))
  if sub = 7 ∨ sub = 8 then decide (g (Ob.structPivotFloor s) < g (Ob.structLambda s))
  else if sub = 0x0A then g (Ob.structPoseSystem s) == 0xFFFF || (decide (g (Ob.structPoseSystem s) < (sdB b : Int)) && rows)
  else if sub = 0x0B then rows
  else true

/-- RequestQueue and ResultQueue lie in the owner's queue range (Table 9). -/
def Dev.queueInOwner (d : Dev) (owner q : Int) : Bool :=
  q == 0xFFFF || decide (d.queueOwner q.toNat = some owner.toNat)

end Sys2Proof.Machine
end

