-- ==== Sys2Proof/Machine/Network.lean ====
section
/-! DEFINITION. Network ports and path redundancy (16_network_paths R320-R334) and frames that leave with their integrity
checked (18_integrity R362). -/
namespace Sys2Proof.Machine

/-- `f` applied to the network paths. -/
def Dev.onNet (d : Dev) (f : Net → Net) : Dev := { d with net := f d.net }

/-- Partner `n`'s bookkeeping. -/
def Dev.peer (d : Dev) (n : Nat) : NetPartner := (kvGet d.net.partners n).getD {}

/-- Partner `n`'s bookkeeping is `p`. -/
def Dev.setPeer (d : Dev) (n : Nat) (p : NetPartner) : Dev :=
  d.onNet fun t => { t with partners := if p = {} then kvDel t.partners n else kvPut t.partners n p }

/-- Class `k`'s bookkeeping. -/
def Dev.cls (d : Dev) (k : Nat) : ClassRt := (kvGet d.net.classes k).getD {}

/-- `f` applied to class `k`'s bookkeeping. -/
def Dev.onCls (d : Dev) (k : Nat) (f : ClassRt → ClassRt) : Dev :=
  d.onNet fun t => { t with classes := if f (d.cls k) = {} then kvDel t.classes k else kvPut t.classes k (f (d.cls k)) }

/-- The state of a path (0 A, 1 B) to partner `n`. -/
def pathKey (n path : Nat) : Nat := if path = 0 then Ob.peerPathStateA n else Ob.peerPathStateB n

/-- The path of a partner's bookkeeping. -/
def NetPartner.path (p : NetPartner) (path : Nat) : PathRt := if path = 0 then p.a else p.b

/-- A path of a partner's bookkeeping changes. -/
def NetPartner.setPath (p : NetPartner) (path : Nat) (r : PathRt) : NetPartner :=
  if path = 0 then { p with a := r } else { p with b := r }

/-- A class works in Standby mode. -/
def Dev.standby (d : Dev) (k : Nat) : Bool := d.reg (Ob.clsMode k) == 0

/-- PartnerState follows the paths (R326): PRESENT while either is WAIT or UP, LOST while both are SILENT. -/
def Dev.judgePeer (d : Dev) (n : Nat) : Dev :=
  let st (p : Nat) : Int := d.reg (pathKey n p)
  let live (p : Nat) : Bool := st p == 1 || st p == 2
  if (live 0 || live 1) && d.reg (Ob.peerState n) ≠ 1 then
    (d.set (Ob.peerState n) 1).event { code := 0x5005, island := Isl.eta, iface := 12, d1 := n }
  else if st 0 = 4 && st 1 = 4 && d.reg (Ob.peerState n) ≠ 2 then
    (d.set (Ob.peerState n) 2).event { code := 0x5004, island := Isl.eta, iface := 12, d1 := n }
  else d

/-- The Standby classes whose active path is this path to partner `n`. -/
def Dev.classesOn (d : Dev) (n path : Nat) : List Nat :=
  (List.range 8).filter fun k =>
    d.standby k && d.nat (Ob.clsPartner k) == n && d.nat (Ob.clsActivePath k) == path + 1

/-- Class `k` moves to a path (0 A, 1 B). -/
def Dev.moveClass (d : Dev) (k path : Nat) : Dev :=
  ((d.setN (Ob.clsActivePath k) (path + 1)).setN (Ob.clsLastSwitchStamp k) (d.stampIn (Isl.eta + path))).set (Ob.clsState k) 0

/-- A Standby class whose active path has entered FAILED (R329): it switches where the other path is UP, else it reads
NO_PATH. A swap under way is judged no further. -/
def Dev.classFailed (d : Dev) (k n path : Nat) : Dev :=
  let d := d.onCls k fun c => { c with swap := none }
  if d.reg (pathKey n (1 - path)) = 2 then
    (((d.moveClass k (1 - path)).bump (Ob.clsSwitchOvers k)).event
      { code := 0x5006, island := Isl.eta, iface := 12, d1 := k, d2 := (2 - path : Nat) }).connNotice k 0x5A04 (2 - path : Nat)
  else (d.set (Ob.clsState k) 3).connNotice k 0x5A03 k

/-- A path enters FAILED (Table 2): 0x5002, and its Standby classes switch. -/
def Dev.pathFailed (d : Dev) (n path : Nat) : Dev :=
  if d.reg (pathKey n path) = 3 then d
  else
    let d := (d.set (pathKey n path) 3).event
      { code := 0x5002, island := Isl.eta, iface := 12, d1 := n, d2 := (path + 1 : Nat) }
    (d.each (d.classesOn n path) fun d k => d.classFailed k n path).judgePeer n

/-- A path enters UP: 0x5003 from FAILED; a class that stayed on it leaves NO_PATH. -/
def Dev.pathUp (d : Dev) (n path : Nat) : Dev :=
  let was := d.reg (pathKey n path)
  let d := d.set (pathKey n path) 2
  let d := d.when (was == 3) fun d =>
    d.event { code := 0x5003, island := Isl.eta, iface := 12, d1 := n, d2 := (path + 1 : Nat) }
  (d.each (d.classesOn n path) fun d k => d.when (d.reg (Ob.clsState k) == 3) fun d => d.set (Ob.clsState k) 0).judgePeer n

/-- Every path over a port that is down fails (Table 2); the sequences that count for its restoring begin anew. -/
def Dev.portDown (d : Dev) (port : Nat) : Dev :=
  d.each (List.range 16) fun d n => d.when (d.reg (pathKey n port) != 0) fun d =>
    (d.setPeer n ((d.peer n).setPath port { (d.peer n).path port with run := 0 })).pathFailed n port

/-- PartnerEnable is written (Table 2). -/
def Dev.peerEnabled (d : Dev) (n : Nat) : Dev :=
  if d.flag (Ob.peerEnable n) then
    if d.ready && d.reg (Ob.peerPathStateA n) = 0 then
      let d := (d.set (Ob.peerPathStateA n) 1).set (Ob.peerPathStateB n) 1
      let d := (d.setPeer n { d.peer n with lastAt := d.ext }).judgePeer n
      d.each [0, 1] fun d p => d.when (!d.portUp p) fun d => d.pathFailed n p
    else d
  else
    ((((d.set (Ob.peerPathStateA n) 0).set (Ob.peerPathStateB n) 0).set (Ob.peerState n) 0).setPeer n
      { txSeq := (d.peer n).txSeq })

/-- The 72 bytes of a heartbeat to partner `n` on a path (Table 1). -/
def Dev.heartbeat (d : Dev) (n path : Nat) : Bytes :=
  let p := d.peer n
  let top (x : Nat) : Nat := match (p.path x).got with | [] => 0 | g :: _ => g.1
  let body := leBytes 4 0x42484E55 ++ leBytes 1 1 ++ leBytes 1 path ++ leBytes 2 0 ++ leBytes 8 (d.nat Ob.deviceUid)
    ++ leBytes 4 p.txSeq ++ leBytes 6 d.now ++ leBytes 2 0 ++ leBytes 4 (top 0) ++ leBytes 4 (top 1)
    ++ (List.range 16).flatMap fun i => leBytes 2 ((kvGet p.rx i).getD 0)
  body ++ leBytes 4 (crc32c body)

/-- HEARTBEAT_SEND (R323): once for each millisecond of E that has come. -/
def execHeartbeatSend (s : State) : Host.Outcome State Fault Refusal :=
  onDev (fun d =>
    if !d.ready || decide (d.ext / 1000000 ≤ d.net.hbIdx) then d
    else
      let d := d.onNet fun t => { t with hbIdx := d.ext / 1000000 }
      d.each ((List.range 16).filter fun n => d.flag (Ob.peerEnable n)) fun d n =>
        let send (d : Dev) (p : Nat) : Dev :=
          d.ethSend p .heartbeat [n, d.reg (if p = 0 then Ob.peerIpA n else Ob.peerIpB n), 51732] (d.heartbeat n p)
        let d := send (send d 0) 1
        d.setPeer n { d.peer n with txSeq := ((d.peer n).txSeq + 1) % 4294967296 }) s

/-- The partner an address belongs to, on either path. -/
def Dev.peerOf (d : Dev) (ip : Nat) : Option Nat :=
  (List.range 16).find? fun n =>
    d.flag (Ob.peerEnable n) && (d.nat (Ob.peerIpA n) == ip || d.nat (Ob.peerIpB n) == ip)

/-- A heartbeat is valid (R324). -/
def Dev.heartbeatOk (d : Dev) (n path ip : Nat) (b : Bytes) : Bool :=
  decide (b.length = 72) && leAt b 0 4 == 0x42484E55 && leAt b 4 1 == 1 && leAt b 68 4 == crc32c (b.take 68)
    && d.nat (if path = 0 then Ob.peerIpA n else Ob.peerIpB n) == ip
    && (d.nat (Ob.peerUid n) == 0 || d.nat (Ob.peerUid n) == leAt b 8 8)

/-- The next sequence has come on a path: its classes leave SUSPECT, and their consumers' holds end (R330). -/
def Dev.unsuspect (d : Dev) (n path : Nat) : Dev :=
  d.each (d.classesOn n path) fun d k =>
    d.when (d.reg (Ob.clsState k) == 1) fun d => (d.set (Ob.clsState k) 0).onCls k fun c => { c with hold := false }

/-- A valid heartbeat counts on its path (R324, Table 2). -/
def Dev.heartbeatCounts (d : Dev) (n path : Nat) (b : Bytes) : Dev :=
  let p := d.peer n
  let r := p.path path
  let seq := leAt b 16 4
  let last := match r.got with | [] => none | g :: _ => some g.1
  if (match last with | some l => decide (seq ≤ l) | none => false) then d
  else
    let run := if last = some (seq - 1) ∧ 0 < seq then r.run + 1 else 1
    let told := (List.range 16).foldl (fun m i => kvPut m i (leAt b (36 + 2 * i) 2)) p.told
    let p := { p.setPath path { r with got := ((seq, d.ext) :: r.got).take 64, run := run, missRun := 0 } with
      lastAt := d.ext, told := told }
    let d := ((d.setPeer n p).setN (Ob.peerLastHbStamp n) (d.stampIn (Isl.eta + path))).unsuspect n path
    let st := d.reg (pathKey n path)
    let d := if st = 4 then (d.set (pathKey n path) 1).judgePeer n else d
    let st := d.reg (pathKey n path)
    if (st == 1 || st == 3) && decide (d.nat (Ob.peerRestoreCount n) ≤ run) && d.portUp path then d.pathUp n path else d

/-- HEARTBEAT_RECEIVED (R324): the partner's address is judged first, then the frame. -/
def execHeartbeatReceived (port : Fin 2) (srcIp : Nat) (payload : Bytes) (found : Found) (s : State) :
    Host.Outcome State Fault Refusal :=
  onDev (fun d =>
    if !d.ready then d.bump Ob.ethBeforeReady
    else if !d.portUp port then d
    else
      let d := ((d.bump (Ob.ethFramesRx port)).countFcs port found).handover 1 12 0 port found
      match d.peerOf srcIp with
      | none => d.bump Ob.hbUnknown
      | some n =>
        if found.outcome = .bad || !d.heartbeatOk n port srcIp payload then
          d.violate (.peer srcIp 0) fun _ =>
            { code := 0x5009, island := Isl.eta + (port : Nat), iface := 12, d1 := n, d2 := (port : Nat) + 1 }
        else d.heartbeatCounts n port payload) s

/-- A class enters SUSPECT (R330). -/
def Dev.suspect (d : Dev) (k : Nat) : Dev :=
  if d.reg (Ob.clsState k) = 0 then
    (d.set (Ob.clsState k) 1).onCls k fun c => { c with suspectAt := d.ext, hold := true }
  else d

/-- HEARTBEAT_MISSING_CHECK (R325): `seq` came on the other path 500,000 ns ago or more, and not on `path`; each sequence
is judged once. A later sequence that came first has begun its own run. -/
def execHeartbeatMissingCheck (partner : Fin 16) (path : Fin 2) (seq : Nat) (s : State) :
    Host.Outcome State Fault Refusal :=
  onDev (fun d =>
    let n : Nat := partner
    let p := d.peer n
    let r := p.path path
    let due := (p.path (1 - path)).got.any fun g => g.1 == seq && decide (500000 ≤ d.ago g.2)
    let st := d.reg (pathKey n path)
    if !due || r.got.any (fun g => g.1 == seq) || st == 0 || st == 4
        || (match r.missed with | some m => decide (seq ≤ m) | none => false) then d
    else
      let run := if r.missed = some (seq - 1) ∧ 0 < seq then r.missRun + 1 else 1
      let d := d.setPeer n (p.setPath path { r with
        missed := some seq, missRun := run, run := if r.got.any (fun g => decide (seq < g.1)) then r.run else 0 })
      let d := d.bump (if (path : Nat) = 0 then Ob.peerHbMissedA n else Ob.peerHbMissedB n)
      let d := d.each (d.classesOn n path) Dev.suspect
      if decide (3 ≤ run) && (st == 1 || st == 2) then d.pathFailed n path else d) s

/-- PARTNER_SILENCE_TIMEOUT (R325, R326): no heartbeat on either path for 3.5 ms with both ports up. -/
def execPartnerSilenceTimeout (partner : Fin 16) (s : State) : Host.Outcome State Fault Refusal :=
  onDev (fun d =>
    let n : Nat := partner
    if d.portUp 0 && d.portUp 1 && decide (3500000 ≤ d.ago (d.peer n).lastAt) then
      (d.each [0, 1] fun d p =>
        let st := d.reg (pathKey n p)
        d.when (st == 1 || st == 2 || st == 3) fun d =>
          (d.set (pathKey n p) 4).setPeer n ((d.peer n).setPath p { (d.peer n).path p with run := 0, missRun := 0 })).judgePeer n
    else d) s

/-- PORT_LINK_CHANGE (R325): 0x5001; a port that goes down fails its paths, and an Auto client leaves it (02_timeline
R39). In MAINTENANCE the ports stay down (05_start_up R130). -/
def execPortLinkChange (port : Fin 2) (up : Bool) (s : State) : Host.Outcome State Fault Refusal :=
  onDev (fun d =>
    let st : Int := if up then 1 else 0
    if d.reg (Ob.ethLinkState port) = st || d.quiesced (Isl.eta + (port : Nat)) || d.nat Ob.bootPhase == 9 then d
    else
      let d := (d.set (Ob.ethLinkState port) st).event
        { code := 0x5001, island := Isl.eta + (port : Nat), d1 := (port : Nat), d2 := st }
      if up then d else (d.portDown port).ptpPortCheck port) s

/-- HOLD_TIME_EXPIRY (R330): the consumers' holds end. -/
def execHoldTimeExpiry (k : Fin 8) (s : State) : Host.Outcome State Fault Refusal :=
  onDev (fun d =>
    let c := d.cls k
    if c.hold && decide (d.nat (Ob.clsHoldTime k) * 1000000 ≤ d.ago c.suspectAt) then
      d.onCls k fun c => { c with hold := false }
    else d) s

/-- Where among the PRP sources a new one goes (R328): the one idle longest leaves when 128 are kept. -/
def prpRoom (now : Nat) (l : List PrpSource) : List PrpSource :=
  if l.length < 128 then l
  else
    let oldest := l.foldl (fun m x => Nat.min m x.last) now
    match l.find? fun x => x.last == oldest with
    | some x => l.erase x
    | none => l

/-- Duplicate discard (R328): `true` where the frame passes. -/
def Dev.duplicateDiscard (d : Dev) (mac seq : Nat) : Dev × Bool :=
  let src := (d.net.sources.find? fun x => x.mac == mac)
  let seen := ((src.map fun x => x.seen).getD []).filter fun e =>
    decide (d.ago e.2 ≤ d.nat Ob.discardWindow * 1000000)
  let dup := seen.any fun e => e.1 == seq
  let rest := d.net.sources.filter fun x => x.mac != mac
  let rest := if src.isSome then rest else prpRoom d.ext rest
  let d := d.onNet fun t => { t with
    sources := { mac := mac, seen := if dup then seen else (seq, d.ext) :: seen, last := d.ext } :: rest }
  if dup then (d.bump Ob.duplicatesDiscarded, false) else (d, true)

/-- DUPLICATE_FRAME_RECEIVED (R328): a frame's PRP trailer, with its sequence and LAN identifier, or none; a supervision
frame is dropped. What a frame that passes carries is the command of its own protocol, which counts the frame in FramesRx. -/
def execDuplicateFrameReceived (port : Fin 2) (mac : Nat) (trailer : Option (Nat × Nat)) (supervision : Bool)
    (s : State) : Host.Outcome State Fault Refusal :=
  onDev (fun d =>
    if !d.portUp port then d
    else if !d.ready then d.bump Ob.ethBeforeReady
    else
      if supervision then (d.bump (Ob.ethFramesRx port)).bump (Ob.ethFramesDropped port)
      else match trailer with
        | none => d.bump Ob.noTrailer
        | some (seq, lan) =>
          let d := d.when (lan != 10 + (port : Nat)) fun d => d.bump Ob.wrongLan
          let p := d.duplicateDiscard mac seq
          p.1.when (!p.2) fun d => d.bump (Ob.ethFramesRx port)) s

/-- The index of the last swap instant of class `k` at or before now (R331). -/
def Dev.swapIndex (d : Dev) (k : Nat) : Nat := (d.ext - k * 125000000) / (d.nat (Ob.clsSwapPeriod k) * 1000000000)

/-- SWAP_TEST (R331): once for each instant; skipped while the standby path is not UP. -/
def execSwapTest (k : Fin 8) (s : State) : Host.Outcome State Fault Refusal :=
  onDev (fun d =>
    let idx := d.swapIndex k
    if !d.ready || d.reg (Ob.clsStandbyHandling k) ≠ 1 || !d.standby k || decide (idx ≤ (d.cls k).swapIdx)
        || decide (d.ext < (k : Nat) * 125000000) then d
    else
      let d := d.onCls k fun c => { c with swapIdx := idx }
      let n := d.nat (Ob.clsPartner k)
      let cur := d.nat (Ob.clsActivePath k) - 1
      let new := 1 - cur
      if d.reg (pathKey n new) ≠ 2 then d
      else
        let base := (kvGet (d.peer n).told (2 * (k : Nat) + new)).getD 0
        let d := (d.moveClass k new).set (Ob.clsState k) 2
        d.onCls k fun c => { c with swap := some { at_ := d.ext, left := cur, base := base, sent := 0 } }) s

/-- SWAP_VERIFY_EXPIRY (R331). -/
def execSwapVerifyExpiry (k : Fin 8) (s : State) : Host.Outcome State Fault Refusal :=
  onDev (fun d => match (d.cls k).swap with
    | none => d
    | some w =>
      if d.ago w.at_ < d.nat (Ob.clsSwapVerifyTime k) * 1000000 then d
      else
        let n := d.nat (Ob.clsPartner k)
        let new := 1 - w.left
        let d := (d.onCls k fun c => { c with swap := none }).when (d.reg (Ob.clsState k) == 2) fun d => d.set (Ob.clsState k) 0
        if w.sent = 0 then d.bump (Ob.clsSwapUnverified k)
        else if (kvGet (d.peer n).told (2 * (k : Nat) + new)).getD 0 ≠ w.base then d
        else ((d.moveClass k w.left).bump (Ob.clsHiddenFaults k)).event
          { code := 0x5007, island := Isl.eta, iface := 12, d1 := (k : Nat), d2 := (new + 1 : Nat) }) s

/-- FORCE_SWITCH (R333). -/
def execForceSwitch (hd : Hdr) (cond : Option Nat) (k : Fin 8) (v : Bytes) (s : State) :
    Host.Outcome State Fault Refusal :=
  onDev (fun d => d.writeReq
    { state := fun d _ n => needState (d.standby k && d.reg (pathKey (d.nat (Ob.clsPartner k)) (n.toNat - 1)) == 2) }
    hd cond (0x5820 + k) 12 v fun _ n d =>
      if d.reg (Ob.clsActivePath k) = n then d
      else (d.moveClass k (n.toNat - 1)).onCls k fun c => { c with swap := none }) s

/-- A class frame of an enabled partner's class has been received by a port (Table 1, bytes 36-67). A consumer's hold ends
with its first item from the new path (R330). -/
def Dev.classReceived (d : Dev) (k port : Nat) : Dev :=
  let n := d.nat (Ob.clsPartner k)
  let p := d.peer n
  let i := 2 * k + port
  let d := d.setPeer n { p with rx := kvPut p.rx i (((kvGet p.rx i).getD 0 + 1) % 65536) }
  d.when (d.reg (Ob.clsState k) != 1 && d.nat (Ob.clsActivePath k) == port + 1) fun d =>
    d.onCls k fun c => { c with hold := false }

/-- One copy of a frame leaves by a port with its payload's check verified in the same pass (18_integrity R362): stomped,
counted and logged where it fails or, said by `found`'s ECC fields, where a poisoned unit is read. -/
def Dev.egress (d : Dev) (port cls iface : Nat) (kind : FrameKind) (fields : List Int) (payload : Bytes) (found : Found) :
    Dev :=
  let bad := found.outcome = .bad || found.outcome = .unproven
  let d := d.when (!found.eccData && !found.eccCheck) fun d => d.handover 10 iface 0 cls found
  let d := d.when bad fun d => (d.bump Ob.egressStomped).event
    { code := 0x6007, island := Isl.eta + port, iface := iface, d1 := port, d2 := cls }
  d.ethOut port (.frame port kind (d.addressed fields) payload bad)

/-- A frame of class `k` goes out with the class's VLAN and priority first among its fields (R320, R322, R327, R329): on the
active path, or on both with the PRP trailer's sequence, LAN identifier, size and suffix last. -/
def Dev.classSend (d : Dev) (k iface : Nat) (kind : FrameKind) (fields : List Int) (payload : Bytes) (found : Found) :
    Dev :=
  let fields := d.reg (Ob.clsVlanId k) :: d.reg (Ob.clsPcp k) :: fields
  if d.standby k then
    let port := d.nat (Ob.clsActivePath k) - 1
    let d := d.when (d.portUp port) fun d => d.onCls k fun c =>
      { c with swap := c.swap.map fun w => { w with sent := w.sent + 1 } }
    d.egress port k iface kind fields payload found
  else
    let n := d.net.prpSeq
    let d := d.onNet fun t => { t with prpSeq := (n + 1) % 65536 }
    d.each [0, 1] fun d port =>
      if d.portUp port then
        d.egress port k iface kind (fields ++ [(n : Int), (10 + port : Nat), (payload.length : Nat), 0x88FB]) payload found
      else d.bump Ob.duplicateCopyLost

/-- A class's ActivePath follows its Mode and PreferredPath (R329): 3 in Duplicate mode. -/
def Dev.classWritten (d : Dev) (k : Nat) : Dev :=
  let d := d.set (Ob.clsActivePath k) (if d.standby k then d.reg (Ob.clsPreferredPath k) else 3)
  (d.set (Ob.clsState k) 0).onCls k fun c => { c with swap := none, hold := false, swapIdx := d.swapIndex k }

/-- SERDES_RECAL_DUE (R332): it waits while the other port's SerDes reads LOCKING/CALIBRATING. -/
def execSerdesRecalDue (port : Fin 2) (s : State) : Host.Outcome State Fault Refusal :=
  onDev (fun d =>
    if d.reg (Ob.synthState (5 - port)) = 1 then
      d.onTu fun t => { t with recalWait := if t.recalWait.contains port then t.recalWait else t.recalWait ++ [(port : Nat)] }
    else d.set (Ob.synthState (4 + port)) 1) s

/-- ARP_ICMP_ECHO_REQUEST (R320): an ARP request (`echo` false) or an ICMP echo request for DeviceIp is answered on its
port. -/
def execArpIcmpEchoRequest (port : Fin 2) (echo : Bool) (srcIp targetIp : Nat) (payload : Bytes) (s : State) :
    Host.Outcome State Fault Refusal :=
  onDev (fun d =>
    if !d.portUp port then d
    else if !d.ready then d.bump Ob.ethBeforeReady
    else
      let d := d.bump (Ob.ethFramesRx port)
      if targetIp ≠ d.nat Ob.deviceIp then d
      else d.ethSend port (if echo then .icmpEchoReply else .arpReply)
        [srcIp, d.reg Ob.deviceIp, d.reg Ob.deviceMac] (if echo then payload else [])) s

/-- PAUSE_OR_OVERSIZE_FRAME (R320): a pause or priority-flow-control frame (`len` none) or a frame of a length. -/
def execPauseOrOversizeFrame (port : Fin 2) (len : Option Nat) (s : State) : Host.Outcome State Fault Refusal :=
  onDev (fun d =>
    if !d.portUp port then d
    else match len with
      | none => d.bump (Ob.ethFramesDropped port)
      | some n => if d.nat (Ob.ethMaxFrame port) < n then d.bump (Ob.ethFramesDropped port) else d) s

end Sys2Proof.Machine
end

