-- ==== Sys2Proof/Machine/Audio.lean ====
section
/-! DEFINITION. Audio ports, rate domains and their stamps (12_audio_ports R247-R258). Port p is at 0x4010 + p: 0-7
serial, 8-11 biphase, 12-15 PDM, 16-31 AES67. -/
namespace Sys2Proof.Machine

/-- `f` applied to the audio side. -/
def Dev.onAudio (d : Dev) (f : Audio → Audio) : Dev := { d with aud := f d.aud }

/-- Port `p` beside its objects. -/
def Dev.port (d : Dev) (p : Nat) : PortRt := (kvGet d.aud.ports p).getD {}

/-- `f` applied to port `p`. -/
def Dev.onPort (d : Dev) (p : Nat) (f : PortRt → PortRt) : Dev :=
  d.onAudio fun a => { a with ports := if f (d.port p) = {} then kvDel a.ports p else kvPut a.ports p (f (d.port p)) }

/-- Domain `m` beside its objects. -/
def Dev.dom (d : Dev) (m : Nat) : DomRt := (kvGet d.aud.doms m).getD {}

/-- Mode D is selected (R248). -/
def Dev.modeD (d : Dev) : Bool := d.flag Ob.rateMode

/-- Domain `m` is enabled: domain 0 always, the others by Enable in Mode D (R248). -/
def Dev.domOn (d : Dev) (m : Nat) : Bool := m == 0 || (d.modeD && d.flag (Ob.domEnable m))

/-- The synthesiser that clocks domain `m` (1 SYN-AUD0, 2 SYN-AUD1), 0 for the root. -/
def Dev.domSynth (d : Dev) (m : Nat) : Nat := if d.modeD then d.nat (Ob.domClockSource m) else 0

/-- The state of a domain (0x4001.05): off, waiting for its synthesiser, running. -/
def Dev.domStateNow (d : Dev) (m : Nat) : Nat :=
  if !d.domOn m then 0
  else if d.domSynth m ≠ 0 && d.synBusy (d.domSynth m + 1) then 1 else 2

/-- The rate family of a rate: 48 kHz or 44.1 kHz (03_timing_unit Table 6). -/
def rateFamily (rate : Nat) : Nat := if rate % 11025 = 0 then 44 else 48

/-- The port's input is enabled. -/
def Dev.hasInput (d : Dev) (p : Nat) : Bool := bit (d.nat (Ob.portDirection p)) 0

/-- The port's output is enabled. -/
def Dev.hasOutput (d : Dev) (p : Nat) : Bool := bit (d.nat (Ob.portDirection p)) 1

/-- A target-role serial port. -/
def Dev.isTarget (d : Dev) (p : Nat) : Bool := decide (p < 8) && d.reg (Ob.portRole p) == 1

/-- The port is clocked from its domain in some direction, so that Rate must be the domain's (R249). -/
def Dev.domainClocked (d : Dev) (p : Nat) : Bool :=
  if p < 8 then !d.isTarget p else if p < 12 then d.hasOutput p else decide (p < 16)

/-- The port passes through a converter (R249). -/
def Dev.converted (d : Dev) (p : Nat) : Bool :=
  if p < 8 then d.isTarget p else if p < 12 then d.hasInput p else decide (16 ≤ p)

/-- The port waits for a stream from outside before it runs. -/
def Dev.awaitsStream (d : Dev) (p : Nat) : Bool := d.converted p && d.hasInput p

/-- Port `p` is in quarantine (R257). -/
def Dev.portQuarantined (d : Dev) (p : Nat) : Bool := d.quarantinedId (partnerId 5 p)

/-- PortState as it reads (R257): 4 while quarantined. -/
def Dev.portStateNow (d : Dev) (p : Nat) : Int :=
  if d.flag (Ob.portEnable p) && d.portQuarantined p then 4 else d.reg (Ob.portState p)

/-- Samples per packet of an AES67 stream. -/
def Dev.packetSamples (d : Dev) (p : Nat) : Nat := d.nat (Ob.portRate p) * d.nat (Ob.portPacketTime p) / 1000000

/-- Bytes per sample of an AES67 stream: L16 or L24. -/
def Dev.rtpWidth (d : Dev) (p : Nat) : Nat := if d.reg (Ob.portEncoding p) = 0 then 2 else 3

/-- Bytes of an AES67 payload. -/
def Dev.packetBytes (d : Dev) (p : Nat) : Nat := d.packetSamples p * d.nat (Ob.portChannels p) * d.rtpWidth p

/-- InLatency for the current settings (Table 3). -/
def Dev.inLatency (d : Dev) (p : Nat) : Nat :=
  if !d.hasInput p then 0
  else if p < 8 then (if d.isTarget p then 34 else 2)
  else if p < 12 then 35
  else if p < 16 then (if d.reg (Ob.portRate p) = 16000 then 8 else 18)
  else d.nat (Ob.portLinkOffset p) + 32

/-- OutLatency for the current settings (Table 3). -/
def Dev.outLatency (d : Dev) (p : Nat) : Nat :=
  if !d.hasOutput p then 0
  else if p < 8 then (if d.isTarget p then 34 else 2)
  else if p < 12 then 3
  else d.packetSamples p + 33

/-- The domains, their synthesisers and the ports clocked from them follow the settings (R248, 03_timing_unit Table 6): a
synthesiser newly used or moved to another family than 48 kHz settles, and DomainState and DomainsActive follow. A domain
that does not run begins anew with its next block. -/
def Dev.refreshDomains (d : Dev) : Dev :=
  let d := d.each [1, 2] fun d y =>
    let fam := match (List.range 3).find? fun m => d.domOn m && d.domSynth m == y with
      | some m => rateFamily (d.nat (Ob.domRate m))
      | none => 0
    if (kvGet d.aud.fam y).getD 0 = fam then d
    else (d.onAudio fun a => { a with fam := if fam = 0 then kvDel a.fam y else kvPut a.fam y fam }).set (Ob.synthState y)
      (if fam = 0 then 0 else if fam = 48 then 2 else 1)
  let d := d.each (List.range 3) fun d m => d.setN (Ob.domState m) (d.domStateNow m)
  let d := d.setN Ob.domainsActive
    ((List.range 3).foldl (fun n m => if d.domStateNow m = 2 then n + 2 ^ m else n) 0)
  let d := d.each ((List.range 3).filter fun m => d.domStateNow m != 2 && (d.dom m).last.isSome) fun d m =>
    d.onAudio fun a => { a with doms := kvPut a.doms m { count := (d.dom m).count } }
  d.each (List.range 32) fun d p =>
    if d.flag (Ob.portEnable p) && !d.awaitsStream p then
      d.set (Ob.portState p) (if d.reg (Ob.domState (d.nat (Ob.portDomain p))) = 2 then 2 else 1)
    else d

/-- The nominal time of `n` samples of domain `m`, or of 1/32 of its last block each once two have come (R252): numerator
and denominator in ns. -/
def Dev.domSpan (d : Dev) (m n : Nat) : Nat × Nat :=
  match (d.dom m).span with
  | some x => (x * n, 32)
  | none => (1000000000 * n, Nat.max 1 (d.nat (Ob.domRate m)))

/-- The stamp of sample `j` counted from the last block's first (R252). -/
def Dev.sampleStamp (d : Dev) (m j : Nat) : Nat :=
  stampAdd ((d.dom m).last.getD d.now) (roundDiv (d.domSpan m j).1 (d.domSpan m j).2)

/-- The first sample of domain `m` at or after stamp `t`, counted from its last block's first. -/
def Dev.sampleAt (d : Dev) (m t : Nat) : Nat :=
  let x := stampDiff t ((d.dom m).last.getD d.now)
  if x ≤ 0 then 0
  else
    let (num, den) := d.domSpan m 1
    let j := x.toNat * den / Nat.max 1 num
    if atOrAfter (d.sampleStamp m j) t then j
    else if atOrAfter (d.sampleStamp m (j + 1)) t then j + 1 else j + 2

/-- The number of sample `j` counted from the last block's first. -/
def Dev.sampleNo (d : Dev) (m j : Nat) : Nat :=
  (if (d.dom m).last.isSome then (d.dom m).count - 32 else (d.dom m).count) + j

/-- MeasuredPeriod in Q16.16 ns (R252, Table 2): the nominal period for a first block. -/
def periodQ16 (rate : Nat) (span : Option Nat) : Nat :=
  match span with
  | some x => x * 65536 / 32
  | none => 1000000000 * 65536 / Nat.max 1 rate

/-- A block stamp record (Table 2). -/
def blockRecord (src num flags dom seq stamp rate period : Nat) (ratio : Int) : Bytes :=
  let body := leBytes 1 src ++ leBytes 1 num ++ leBytes 1 flags ++ leBytes 1 dom ++ leBytes 4 seq ++ leBytes 6 stamp
    ++ leBytes 2 32 ++ leBytes 4 rate ++ leBytes 4 period ++ leBytes 4 (unsigned 32 ratio)
  body ++ leBytes 4 (crc32c body)

/-- A block stamp record goes to its StampQueue, where there is one (R251). -/
def Dev.emitStamp (d : Dev) (q src num stamp : Nat) (rec_ : Bytes) : Dev :=
  if q = 0xFFFF then d
  else
    let key := 256 * src + num
    let it : Item := { subject := stamp, srcKind := 10, srcNum := num, seq := d.seqOf 10 key, producer := Isl.apt }
    let p := d.withPayload (d.derived it) rec_
    (p.2.nextSeq 10 key).enqueue q p.1

/-- An output whose start waits starts (R252): at a block boundary of its domain, or within the block where it is a
converted Independent one. -/
def Dev.startOutputs (d : Dev) (m stamp : Nat) : Dev :=
  d.each (List.range 32) fun d p =>
    match (d.port p).startAt with
    | some t =>
      if d.nat (Ob.portDomain p) = m && !d.isHeld (.audio p)
          && atOrAfter (if d.converted p && d.reg (Ob.portAlignment p) == 1 then d.sampleStamp m 31 else stamp) t then
        (d.onPort p fun r => { r with startAt := none, bip := 0 }).set (Ob.portOutputStatus p) 2
      else d
    | none => d

/-- A domain stamps a block (R251): its record, BlockSeq, and the outputs that start at it. -/
def Dev.domainBlock (d : Dev) (m stamp : Nat) : Dev :=
  let span := (d.dom m).last.map fun t => (stampDiff stamp t).toNat
  let d := d.onAudio fun a => { a with doms := kvPut a.doms m { last := some stamp, span, count := (d.dom m).count + 32 } }
  let seq := d.nat (Ob.domBlockSeq m)
  let rate := d.nat (Ob.domRate m)
  let d := d.emitStamp (d.nat (Ob.domStampQueue m)) 0 m stamp
    (blockRecord 0 m 1 m seq stamp rate (periodQ16 rate span) 0)
  (d.bump (Ob.domBlockSeq m)).startOutputs m stamp

/-- The media index of a stamp (R256): samples of network time, to the nearest. -/
def Dev.mediaOf (d : Dev) (p stamp : Nat) : Int :=
  roundDiv ((d.extOf stamp + d.reg Ob.publishedOffset) * d.nat (Ob.portRate p)) 1000000000

/-- The buffered packets cover each of the `n` samples from a media index. -/
def PortRt.covers (r : PortRt) (m : Int) (n : Nat) : Bool :=
  (List.range n).all fun j => r.buf.any fun b => decide (b.first ≤ m + (j : Int)) && decide (m + (j : Int) < b.first + (b.count : Int))

/-- A packet with samples of a block of `n` is BAD. -/
def PortRt.badIn (r : PortRt) (m : Int) (n : Nat) : Bool :=
  r.buf.any fun b => b.bad && decide (b.first < m + n) && decide (m < b.first + (b.count : Int))

/-- PORT_BLOCK_STAMP (R251-R253, R257): 32 port samples, the first at `stamp`; `ratio` is the converter's ratio error in
ppb. A block is MISSING where its samples are, or the port is not running. An Independent port has no block stamps. -/
def execPortBlockStamp (port : Fin 32) (stamp : Nat) (ratio : Int) (s : State) : Host.Outcome State Fault Refusal :=
  onDev (fun d =>
    let p : Nat := port
    if !d.flag (Ob.portEnable p) || d.quiesced Isl.apt then d
    else
      let r := d.port p
      let stream := decide (16 ≤ p) && d.hasInput p
      let missing := d.hasInput p && (r.missing || d.portStateNow p ≠ 2 || (stream && !r.covers (d.mediaOf p stamp) 32))
      let bad := r.bad || (stream && r.badIn (d.mediaOf p stamp) 32)
      let conv := d.converted p
      let flags := 1 + 2 * conv.toNat + 4 * missing.toNat + 8 * bad.toNat + 16 * r.slip.toNat + 32 * r.realigned.toNat
      let span := r.last.map fun t => (stampDiff stamp t).toNat
      let rate := d.nat (Ob.portRate p)
      let d := d.when missing fun d => d.bump (Ob.portBlocksMissing p)
      let d := d.when bad fun d => d.bump (Ob.portBlocksBad p)
      let d := match span with
        | some x => d.setN (Ob.portMeasuredRate p) (32000000000000 / Nat.max 1 x)
        | none => d
      let d := d.onPort p fun r => { r with
        last := some stamp, seq := (r.seq + 1) % 4294967296, slip := false, realigned := false, missing := false,
        bad := false }
      if d.reg (Ob.portAlignment p) == 1 then d
      else d.emitStamp (d.nat (Ob.portStampQueue p)) 1 p stamp
        (blockRecord 1 p flags (d.nat (Ob.portDomain p)) r.seq stamp rate (periodQ16 rate span) (if conv then ratio else 0))) s

/-- The conditions on an Enable write (R249, R255). -/
def portConds (p : Nat) : Conds :=
  { range := fun d _ n => needRange (n == 0
      || ((!d.domainClocked p || d.reg (Ob.portRate p) == d.reg (Ob.domRate (d.nat (Ob.portDomain p))))
        && (decide (p < 16) || decide (d.packetBytes p ≤ 1440)))) }

/-- A port is enabled (R249): it runs, or waits for its domain or its stream; its converter settles. -/
def Dev.portOn (d : Dev) (p : Nat) : Dev :=
  let run := !d.awaitsStream p && d.reg (Ob.domState (d.nat (Ob.portDomain p))) == 2
  let d := d.set (Ob.portState p) (if run then 2 else 1)
  let d := d.set (Ob.portConverterState p) (if d.converted p then 1 else 0)
  let d := d.onPort p fun r => { seq := r.seq, txSeq := r.txSeq, offsetGen := d.nat Ob.offsetGeneration }
  let a := d.nat (Ob.portAddress p)
  if 16 ≤ p && d.hasInput p && a / 268435456 == 14 then
    let k := d.nat (Ob.portTrafficClass p)
    let join (d : Dev) (e : Nat) : Dev := d.ethSend e .igmpJoin [a] []
    if d.standby k then join d (d.nat (Ob.clsActivePath k) - 1) else join (join d 0) 1
  else d

/-- The status an output is left in by a stop (03_timing_unit R82): CANCELLED where its start was held, even once its
synthesiser has locked, as long as it has not begun; else idle. -/
def Dev.stoppedStatus (d : Dev) (p : Nat) : Int := if d.reg (Ob.portOutputStatus p) = 1 then 4 else 0

/-- A port is disabled: its output ends, a held start is cancelled (03_timing_unit R82). -/
def Dev.portOff (d : Dev) (p : Nat) : Dev :=
  let d := (d.unhold (.audio p)).set (Ob.portOutputStatus p) (d.stoppedStatus p)
  let d := (d.set (Ob.portState p) 0).set (Ob.portConverterState p) 0
  d.onPort p fun r => { seq := r.seq, txSeq := r.txSeq }

/-- Enable of a port has been written. -/
def Dev.portEnabled (d : Dev) (p : Nat) : Dev := if d.flag (Ob.portEnable p) then d.portOn p else d.portOff p

/-- PORT_ENABLE (R247, R249, R255). A write of the value held changes nothing. -/
def execPortEnable (hd : Hdr) (cond : Option Nat) (port : Fin 32) (v : Bytes) (s : State) :
    Host.Outcome State Fault Refusal :=
  onDev (fun d0 => d0.writeStore (portConds port) hd cond (0x4010 + port) 1 v fun _ n d =>
    if d0.reg (Ob.portEnable port) = n then d else d.portEnabled port) s

/-- CONVERTER_SETTLED (R249): the ratio has settled while the port's samples come. -/
def execConverterSettled (port : Fin 32) (s : State) : Host.Outcome State Fault Refusal :=
  onDev (fun d =>
    if d.reg (Ob.portConverterState port) = 1 && d.reg (Ob.portState port) = 2 then d.set (Ob.portConverterState port) 2
    else d) s

/-- The condition of OutputStart: an enabled port with an output (log 38). -/
def outputConds (p : Nat) : Conds :=
  { state := fun d _ _ => needState (d.flag (Ob.portEnable p) && d.hasOutput p) }

/-- OutputStart (R252, R80): held while the synthesiser of the port's domain settles; else it starts at its boundary. -/
def Dev.outputStarts (d : Dev) (p : Nat) : Dev :=
  let m := d.nat (Ob.portDomain p)
  let t := d.nat (Ob.portOutputStartStamp p)
  let at_ := if t ≠ 0 && after t d.now then t else d.now
  let d := d.onPort p fun r => { r with startAt := some at_ }
  let y := d.domSynth m
  if d.isHeld (.audio p) || d.reg (Ob.portOutputStatus p) = 2 then d
  else if y ≠ 0 && d.synBusy (y + 1) then (d.hold (y + 1) (.audio p)).set (Ob.portOutputStatus p) 1
  else d

/-- OUTPUT_START (R252). -/
def execOutputStart (hd : Hdr) (cond : Option Nat) (port : Fin 32) (s : State) : Host.Outcome State Fault Refusal :=
  onDev (fun d => d.writeReq (outputConds port) hd cond (0x4010 + port) 10 [1] fun _ _ d => d.outputStarts port) s

/-- OutputStop (R252, R82). -/
def Dev.outputStops (d : Dev) (p : Nat) : Dev :=
  ((d.unhold (.audio p)).onPort p fun r => { r with startAt := none }).set (Ob.portOutputStatus p) (d.stoppedStatus p)

/-- OUTPUT_STOP (R252). -/
def execOutputStop (hd : Hdr) (cond : Option Nat) (port : Fin 32) (s : State) : Host.Outcome State Fault Refusal :=
  onDev (fun d => d.writeReq {} hd cond (0x4010 + port) 11 [1] fun _ _ d => d.outputStops port) s

/-- An audio-port event (Table 7). -/
def portEvent (p code : Nat) (count : Int) : Ev :=
  { code := code, island := Isl.apt, iface := if p < 16 then 10 else 11, d1 := p, d2 := count }

/-- A port-side violation (R258): counted in the port and against its partner. -/
def Dev.portViolation (d : Dev) (p code : Nat) (count : Int) : Dev :=
  (d.bump (Ob.portViolations p)).violate (.fixed (partnerId 5 p)) fun _ => portEvent p code count

/-- Port `p`'s input is enabled and APT not quiesced: what arrives there counts. -/
def Dev.listening (d : Dev) (p : Nat) : Bool :=
  d.flag (Ob.portEnable p) && d.hasInput p && !d.quiesced Isl.apt && d.ready

/-- The samples of the block in progress are missing. -/
def Dev.portMissing (d : Dev) (p : Nat) : Dev := d.onPort p fun r => { r with missing := true, gone := true }

/-- The port's stream is back: it runs, and its converter settles again (R249). -/
def Dev.portRuns (d : Dev) (p : Nat) : Dev := (d.set (Ob.portState p) 2).set (Ob.portConverterState p) 1

/-- SERIAL_WS_SLIP (R258). -/
def execSerialWsSlip (port : Fin 8) (s : State) : Host.Outcome State Fault Refusal :=
  onDev (fun d =>
    if d.listening port && d.isTarget port then
      (d.onPort port fun r => { r with slip := true, slipped := true }).portViolation port 0x4001 0
    else d) s

/-- SERIAL_RELOCK (R258): four good frames in a row, after a slip, or with the clock back. -/
def execSerialRelock (port : Fin 8) (s : State) : Host.Outcome State Fault Refusal :=
  onDev (fun d =>
    if d.listening port && d.isTarget port && ((d.port port).slipped || d.reg (Ob.portState port) == 1) then
      (d.onPort port fun r => { r with slipped := false }).portRuns port
    else d) s

/-- SERIAL_CLOCK_ABSENT (R258). -/
def execSerialClockAbsent (port : Fin 8) (s : State) : Host.Outcome State Fault Refusal :=
  onDev (fun d =>
    if d.listening port && d.isTarget port && d.reg (Ob.portState port) != 1 then
      ((d.portMissing port).set (Ob.portState port) 1).event (portEvent port 0x4002 0)
    else d) s

/-- PORT_RATE_MISMATCH (R258): the measured rate in mHz lies outside Rate ± 1 %, or matches it again. -/
def execPortRateMismatch (port : Fin 32) (measured : Nat) (s : State) : Host.Outcome State Fault Refusal :=
  onDev (fun d =>
    let p : Nat := port
    if !d.listening p || !d.converted p then d
    else
      let d := d.setN (Ob.portMeasuredRate p) measured
      let rate := d.nat (Ob.portRate p)
      if decide (measured < rate * 990) || decide (rate * 1010 < measured) then
        if d.reg (Ob.portState p) = 3 then d
        else ((d.portMissing p).set (Ob.portState p) 3).event (portEvent p 0x4003 0)
      else d.when (d.reg (Ob.portState p) == 3) fun d => d.portRuns p) s

/-- BIPHASE_FRAME (R257, R258): a coding or preamble violation discards the frame; a parity error marks the block BAD; a
set validity bit counts as missing under ValidityPolicy 1 (R254). -/
def execBiphaseFrame (port : Fin 4) (coded parityOk validity : Bool) (s : State) : Host.Outcome State Fault Refusal :=
  onDev (fun d =>
    let p := 8 + (port : Nat)
    if !d.listening p || d.reg (Ob.portState p) = 1 then d
    else if !coded then (d.portMissing p).portViolation p 0x4010 0
    else
      let d := d.handover 3 10 0 p { checkOk := parityOk, hasCoc := false }
      let d := d.when (validity && d.reg (Ob.portValidityPolicy p) == 1) fun d => d.portMissing p
      d.when (!parityOk) fun d => (d.onPort p fun r => { r with bad := true, spoilt := true }).event
        (portEvent p 0x4011 0)) s

/-- CHANNEL_STATUS_BLOCK (R254): a professional block whose CRCC fails leaves RxChannelStatus as it was. -/
def execChannelStatusBlock (port : Fin 4) (status user : Bytes) (s : State) : Host.Outcome State Fault Refusal :=
  onDev (fun d =>
    let p := 8 + (port : Nat)
    if !d.listening p || d.reg (Ob.portState p) = 1 || status.length ≠ 24 || user.length ≠ 48 then d
    else
      let d := d.setBlob (Ob.portRxUserData p) user
      if bit (leAt status 0 1) 0 && leAt status 23 1 != crcc (status.take 23) % 256 then
        (d.bump (Ob.portCrccErrors p)).event (portEvent p 0x4012 0)
      else d.setBlob (Ob.portRxChannelStatus p) status) s

/-- BIPHASE_UNLOCK (R258): BIP0 loses activity with biphase receiver 0 (03_timing_unit Table 2). -/
def execBiphaseUnlock (port : Fin 4) (s : State) : Host.Outcome State Fault Refusal :=
  onDev (fun d =>
    let p := 8 + (port : Nat)
    if !d.listening p || d.reg (Ob.portState p) = 1 then d
    else
      let d := ((d.portMissing p).set (Ob.portState p) 1).event (portEvent p 0x4013 0)
      if p = 8 && (d.reg (Ob.refState 5) == 2 || d.reg (Ob.refState 5) == 3) then (d.toRef 5 1).reselect else d) s

/-- BIPHASE_RECEIVER_LOCK (R258): the port leaves waiting and its converter settles; receiver 0 gives BIP0 its activity,
whose offset against the crystal is `offset` ppb (03_timing_unit R65). -/
def execBiphaseReceiverLock (port : Fin 4) (offset : Int) (s : State) : Host.Outcome State Fault Refusal :=
  onDev (fun d =>
    let p := 8 + (port : Nat)
    if !d.listening p || d.reg (Ob.portState p) ≠ 1 then d
    else
      let d := d.portRuns p
      if p = 8 && d.reg (Ob.refState 5) == 1 && decide (offset.natAbs ≤ d.nat (Ob.refAcceptWindow 5) * 1000) then
        (d.set (Ob.refMeasuredOffset 5) offset).toRef 5 2
      else d) s

/-- The sample count now, RtpOffset included (R256). -/
def Dev.rtpNow (d : Dev) (p : Nat) : Int :=
  d.netTime * d.nat (Ob.portRate p) / 1000000000 + d.reg (Ob.portRtpOffset p)

/-- A received timestamp as a full media index: the count nearest to now, less RtpOffset (R256). -/
def Dev.rtpMedia (d : Dev) (p stamp : Nat) : Int :=
  let n := d.rtpNow p
  n + signed 32 (unsigned 32 (stamp - n)) - d.reg (Ob.portRtpOffset p)

/-- The packet's delivery instant, LinkOffset samples after its media time, has passed (R256). -/
def Dev.rtpLate (d : Dev) (p : Nat) (media : Int) : Bool :=
  decide ((media + d.nat (Ob.portLinkOffset p)) * 1000000000 < d.netTime * d.nat (Ob.portRate p))

/-- A valid packet on its stream: source and sequence (R258), lateness (R256), and then its place in the buffer. -/
def Dev.rtpTake (d : Dev) (p : Nat) (h : RtpHead) (payload : Bytes) (bad : Bool) : Dev :=
  let r := d.port p
  let moved := match r.ssrc with | some x => x != h.ssrc | none => false
  let d := d.when moved fun d => (d.onPort p fun r => { r with realigned := true }).event (portEvent p 0x4023 1)
  let gap := match r.rxSeq with | some n => if moved then 0 else (h.seq + 65536 - n) % 65536 | none => 0
  let d := d.when (decide (0 < gap) && decide (gap < 32768)) fun d => d.event (portEvent p 0x4021 gap)
  let d := d.when (moved || decide (gap < 32768)) fun d => d.onPort p fun r =>
    { r with ssrc := some h.ssrc, rxSeq := some ((h.seq + 1) % 65536) }
  let media := d.rtpMedia p h.stamp
  if d.rtpLate p media then (d.bump (Ob.portLatePackets p)).event (portEvent p 0x4022 (d.nat (Ob.portLatePackets p) + 1))
  else
    let d := d.when (d.reg (Ob.portState p) == 1) fun d => d.portRuns p
    let keep := r.buf.filter fun b => decide (d.rtpNow p - d.reg (Ob.portRtpOffset p) < b.first + b.count + 9600)
    d.onPort p fun r => { r with buf := { first := media, count := d.packetSamples p, bad := bad } :: keep }

/-- RTP_PACKET_RECEIVED (R255-R258): by an Ethernet port, for the AES67 stream it is addressed to. -/
def execRtpPacketReceived (eth : Fin 2) (stream : Fin 16) (h : RtpHead) (payload : Bytes) (found : Found) (s : State) :
    Host.Outcome State Fault Refusal :=
  onDev (fun d =>
    let p := 16 + (stream : Nat)
    if !d.ready then d.bump Ob.ethBeforeReady
    else if !d.portUp eth || !d.listening p then d
    else
      let d := ((d.bump (Ob.ethFramesRx eth)).countFcs eth found).handover 1 11 0 p { found with hasCoc := false }
      let d := d.classReceived (d.nat (Ob.portTrafficClass p)) eth
      if d.portQuarantined p then d.quarantineDrop (partnerId 5 p)
      else if h.version ≠ 2 || h.payloadType ≠ d.nat (Ob.portPayloadType p) || payload.length ≠ d.packetBytes p then
        d.portViolation p 0x4020 1
      else d.rtpTake p h payload (found.outcome = .bad)) s

/-- A sample saturated to I32 (13_mix_engine R259). -/
def sat32 (v : Int) : Int := clampInt (-2147483648) 2147483647 v

/-- The channels of port `p` over values `g` (Table 1): two of a serial or biphase port, two for each line of a PDM group's
LineMask, line by line (log 37), and Channels of an AES67 stream. -/
def portHas (g : Nat → Int) (p c : Nat) : Bool :=
  if p < 12 then decide (c < 2)
  else if p < 16 then decide (c < 8) && bit (g (Ob.portLineMask p)).toNat (c / 2)
  else decide (c < (g (Ob.portChannels p)).toNat)

/-- The samples of a converted port that domain `m`'s last block takes come from packets that have not come, or from BAD ones:
an AES67 stream's at media time plus LinkOffset and 32 samples of the domain (R256, Table 3). -/
def Dev.streamLacks (d : Dev) (m p : Nat) : Bool × Bool :=
  let (num, den) := d.domSpan m (d.nat (Ob.portLinkOffset p) + 32)
  let t := stampAdd ((d.dom m).last.getD d.now) (-(roundDiv num den))
  let n := ceilDiv (32 * d.nat (Ob.portRate p)) (Nat.max 1 (d.nat (Ob.domRate m)))
  let media := d.mediaOf p t
  (!(d.port p).covers media n, (d.port p).badIn media n)

/-- What port `p` gives its domain `m` for a block: the samples as they came, silence while its converter settles (R249), or
none where they are missing or BAD and replaced (R257). -/
def Dev.portGives (d : Dev) (m p : Nat) (came : List Int) : Option (List Int) :=
  let r := d.port p
  let (lacks, bad) := if 16 ≤ p then d.streamLacks m p else (false, false)
  if !d.flag (Ob.portEnable p) || !d.hasInput p || d.portStateNow p ≠ 2 || r.gone || lacks
      || ((r.spoilt || bad) && d.reg (Ob.portBadPolicy p) == 0) then none
  else if d.reg (Ob.portConverterState p) = 1 then some (List.replicate 32 0)
  else
    let low : Int := if p < 8 && !d.isTarget p then 2 ^ (32 - d.nat (Ob.portWordLength p)) else 1
    some ((came.map fun v => sat32 v / low * low) ++ List.replicate 32 0 |>.take 32)

/-- What stands for 32 missing samples after the last good one (R257): zeros, a fade to zero whose course is a free value (log
37), or the last good sample while the stream's class holds it (16_network_paths R330). -/
def Dev.missingBlock (d : Dev) (p c : Nat) : List Int :=
  let last := (kvGet (d.port p).good c).getD 0
  let k := d.nat (Ob.portTrafficClass p)
  if 16 ≤ p && d.standby k && (d.cls k).hold then List.replicate 32 last
  else if d.reg (Ob.portMissingPolicy p) = 0 then List.replicate 32 0
  else (List.range 31).map (fun i => clampInt (min 0 last) (max 0 last) (Config.converted d.fresh (256 * p + c) i)) ++ [0]

/-- A channel of a port that a block is taken from: 32 samples in I32, and the port's last good sample follows. -/
def Dev.hearChannel (d : Dev) (m p c : Nat) (came : List Int) : List Int × Dev :=
  let l := (d.portGives m p came).getD (d.missingBlock p c)
  let last := l.getLast?.getD 0
  (l, d.onPort p fun r => { r with good := if last = 0 then kvDel r.good c else kvPut r.good c last })

/-- The route that feeds a channel of a port, of destination kind 1, or 4 for an AES67 stream (R263). -/
def Dev.routeTo (d : Dev) (p ch : Nat) : Option Nat :=
  (List.range 64).find? fun r =>
    (d.reg (Ob.routeDestKind r) == 1 || (decide (16 ≤ p) && d.reg (Ob.routeDestKind r) == 4))
      && d.nat (Ob.routeDestSelect r) == p + 32 * ch

/-- The samples of a channel of an output in a packet: zero where no route feeds it or MIX is quiesced (13_mix_engine
R263, R276), else what its converter makes of the route's samples (R249), a free value (log 37). -/
def Dev.channelSamples (d : Dev) (p ch n : Nat) : List Int :=
  match (if d.quiesced Isl.mix then none else d.routeTo p ch) with
  | some r => (List.range n).map fun i => sat32 (Config.converted d.fresh (64 * ch + r) i)
  | none => List.replicate n 0

/-- An I32 sample as L16 or L24: its most significant bytes, big-endian (R255). -/
def linearBytes (width : Nat) (v : Int) : Bytes := ((leBytes 4 (unsigned 32 v)).reverse).take width

/-- The payload of a packet: samples in order, channels interleaved. -/
def Dev.rtpPayload (d : Dev) (p : Nat) : Bytes :=
  let n := d.packetSamples p
  let chans := (List.range (d.nat (Ob.portChannels p))).map fun c => d.channelSamples p c n
  (List.range n).flatMap fun i => chans.flatMap fun c => linearBytes (d.rtpWidth p) (c.getD i 0)

/-- RTP_PACKET_TRANSMIT (R256): the packet whose first sample has stamp `first`. -/
def execRtpPacketTransmit (stream : Fin 16) (first : Nat) (found : Found) (s : State) :
    Host.Outcome State Fault Refusal :=
  onDev (fun d =>
    let p := 16 + (stream : Nat)
    if !d.flag (Ob.portEnable p) || !d.hasOutput p || d.reg (Ob.portOutputStatus p) ≠ 2 || d.quiesced Isl.apt then d
    else
      let n := (d.extOf first + d.reg Ob.publishedOffset) * d.nat (Ob.portRate p) / 1000000000
      let seq := (d.port p).txSeq
      let d := d.classSend (d.nat (Ob.portTrafficClass p)) 11 .rtp
        [d.reg (Ob.portAddress p), d.reg (Ob.portUdpPort p), d.reg (Ob.portDscp p), d.reg (Ob.portPayloadType p), seq,
         unsigned 32 (n + d.reg (Ob.portRtpOffset p)), d.reg (Ob.portSsrc p)] (d.rtpPayload p) found
      d.drawn.onPort p fun r => { r with txSeq := (seq + 1) % 65536 }) s

/-- AES67_REALIGN (R256): at its next block after a change of PublishedOffset. -/
def execAes67Realign (stream : Fin 16) (s : State) : Host.Outcome State Fault Refusal :=
  onDev (fun d =>
    let p := 16 + (stream : Nat)
    if d.flag (Ob.portEnable p) && (d.port p).offsetGen != d.nat Ob.offsetGeneration then
      (d.onPort p fun r => { r with realigned := true, offsetGen := d.nat Ob.offsetGeneration }).event (portEvent p 0x4024 1)
    else d) s

/-- The domain of a strip's source over values `g`, where it has one of its own (13_mix_engine R261). -/
def stripSourceDom (g : Nat → Int) (s : Nat) : Option Nat :=
  let sel := (g (Ob.stripSourceSelect s)).toNat
  if g (Ob.stripSourceKind s) = 1 then some (g (Ob.portDomain (sel % 32))).toNat
  else if g (Ob.stripSourceKind s) = 3 then some (g (Ob.toneDomain (sel % 8))).toNat
  else if g (Ob.stripSourceKind s) = 4 then some (g (Ob.voiceDomain (sel % 4))).toNat
  else if g (Ob.stripSourceKind s) = 5 then some (g (Ob.bfDomain (sel % 4))).toNat
  else none

/-- The domain of a route: its source's (13_mix_engine R261, R274); the first bus's for a matrix. -/
def routeDom (g : Nat → Int) (r : Nat) : Option Nat :=
  let sel := (g (Ob.routeSourceSelect r)).toNat
  if g (Ob.routeSourceKind r) = 1 then some (g (Ob.busDomain (sel % 96))).toNat
  else if g (Ob.routeSourceKind r) = 2 then some (g (Ob.stripDomain (sel % 384))).toNat
  else if g (Ob.routeSourceKind r) = 3 then some (g (Ob.bfDomain (sel % 4))).toNat
  else if g (Ob.routeSourceKind r) = 4 then
    match (List.range 8).find? fun n => g (Ob.routeMatrixBus r n) != 0xFF with
    | some n => some (g (Ob.busDomain ((g (Ob.routeMatrixBus r n)).toNat % 96))).toNat
    | none => none
  else none

/-- The domain of a route's destination: that of a port; a DAC and a host queue take the route's own. -/
def routeDestDom (g : Nat → Int) (r : Nat) : Option Nat :=
  if g (Ob.routeDestKind r) = 1 ∨ g (Ob.routeDestKind r) = 4 then
    some (g (Ob.portDomain ((g (Ob.routeDestSelect r)).toNat % 32))).toNat
  else none

/-- The bridges crossed, each as 4 × source + destination domain (13_mix_engine R261). -/
def bridgeUses (g : Nat → Int) : List Nat :=
  ((List.range 384).filterMap fun s =>
    match stripSourceDom g s with
    | some a => if a = (g (Ob.stripDomain s)).toNat then none else some (4 * a + (g (Ob.stripDomain s)).toNat)
    | none => none)
  ++ (List.range 64).filterMap fun r =>
    match routeDom g r, routeDestDom g r with
    | some a, some b => if a = b then none else some (4 * a + b)
    | _, _ => none

/-- Channels on the busiest bridge. -/
def bridgeMost (g : Nat → Int) : Nat :=
  let l := bridgeUses g
  (List.range 12).foldl (fun n b => Nat.max n (l.filter fun x => x == b).length) 0

/-- Every mix element stands in domain 0, as Mode U demands (13_mix_engine R261). -/
def mixInDomain0 (g : Nat → Int) : Bool :=
  ((List.range 384).all fun s => g (Ob.stripDomain s) == 0) && ((List.range 96).all fun b => g (Ob.busDomain b) == 0)
    && ((List.range 4).all fun k => g (Ob.bfDomain k) == 0 && g (Ob.voiceDomain k) == 0)
    && (List.range 8).all fun k => g (Ob.toneDomain k) == 0

/-- Range conditions of 0x4000-0x402F, over the values `g` as the write or pour would leave them (R247, R248, Tables 1
and 6). -/
def audioRange (g : Nat → Int) (k : Nat) : Bool :=
  let idx := k / 256
  let sub := k % 256
  let listed (r : Int) : Bool := ([16000, 32000, 44100, 48000, 88200, 96000] : List Int).contains r
  let domOk (m : Nat) : Bool :=
    let r := g (Ob.domRate m)
    let c := g (Ob.domClockSource m)
    if g Ob.rateMode = 0 && m = 0 then (r == 48000 || r == 96000) && c == 0
    else listed r && (c != 0 || (r != 44100 && r != 88200))
      && (c == 0 || (List.range 3).all fun x => x == m || g (Ob.domClockSource x) != c)
  if k = Ob.rateMode then domOk 0 && (g k != 0 || mixInDomain0 g)
  else if 0x4001 ≤ idx ∧ idx ≤ 0x4003 ∧ (sub = 2 ∨ sub = 3) then domOk (idx - 0x4001)
  else if 0x4010 ≤ idx ∧ idx ≤ 0x402F then
    let p := idx - 0x4010
    if sub = 2 then
      let n := g k
      if p < 12 then n != 0 else if p < 16 then n == 1 else n == 1 || n == 2
    else if sub = 3 then
      let r := g k
      if p < 8 then true
      else if p < 12 then ([32000, 44100, 48000, 88200, 96000] : List Int).contains r
      else if p < 16 then r == 48000 || r == 16000
      else r == 48000 || r == 96000
    else if sub = 4 then decide (bridgeMost g ≤ 64)
    else if p < 8 && (sub = 0x22 || sub = 0x23) then decide (g (Ob.portWordLength p) ≤ g (Ob.portSlotBits p))
    else true
  else true

/-- State conditions of plain writes to 0x4000-0x402F (R247, R248): configuration only while Enable is 0, a domain's rate
and clock only while none of its ports is enabled, RateMode only while none is. -/
def Dev.audioWritable (d : Dev) (k : Nat) : Bool :=
  let idx := k / 256
  let sub := k % 256
  let ports := (List.range 32).filter fun p => d.flag (Ob.portEnable p)
  if k = Ob.rateMode then ports.isEmpty
  else if 0x4001 ≤ idx ∧ idx ≤ 0x4003 ∧ (sub = 2 ∨ sub = 3) then
    ports.all fun p => d.nat (Ob.portDomain p) != idx - 0x4001
  else if 0x4010 ≤ idx ∧ idx ≤ 0x402F then
    ([1, 6, 7, 8, 9, 10, 11] : List Nat).contains sub || !d.flag (Ob.portEnable (idx - 0x4010))
  else true

end Sys2Proof.Machine
end

