-- ==== Sys2Proof/Machine/Mix.lean ====
section
/-! DEFINITION. The mix engine (13_mix_engine R259-R276): its settings, their ramps and values in force (06_pours R149, R150),
generators, control bindings and refusals. What it does with samples is in Signals. Strip s is at 0x4400 + s, bus b at
0x4600 + b, route r at 0x4700 + r. -/
namespace Sys2Proof.Machine

/-- `f` applied to the mix engine. -/
def Dev.onMix (d : Dev) (f : MixRt → MixRt) : Dev := { d with mix := f d.mix }

/-- The lane of strip `s` is in use (R275). -/
def Dev.laneUp (d : Dev) (s : Nat) : Bool := bit (d.nat Ob.lanesInUse) (s / 96)

/-- The source of a strip delivers (R260). -/
def Dev.sourceThere (d : Dev) (s : Nat) : Bool :=
  let sel := d.nat (Ob.stripSourceSelect s)
  let kind := d.reg (Ob.stripSourceKind s)
  if kind = 1 then
    d.flag (Ob.portEnable (sel % 32)) && d.hasInput (sel % 32) && d.portStateNow (sel % 32) == 2 && portHas d.reg (sel % 32) (sel / 32)
  else if kind = 2 then d.qreg Ob.qEnable sel == 1
  else if kind = 3 then d.flag (Ob.toneEnable (sel % 8))
  else if kind = 4 then d.reg (Ob.voiceState (sel % 4)) == 1
  else if kind = 5 then d.flag (Ob.bfEnable (sel % 4))
  else false

/-- StripState of a strip (R260, R275). -/
def Dev.stripStateNow (d : Dev) (s : Nat) : Nat :=
  if !d.laneUp s then 2 else if !d.flag (Ob.stripEnable s) then 0 else if d.sourceThere s then 1 else 3

/-- StripState of a bus. -/
def Dev.busStateNow (d : Dev) (b : Nat) : Nat := if d.flag (Ob.busEnable b) then 1 else 0

/-- A beamformer's members that are absent. -/
def Dev.bfAbsent (d : Dev) (k : Nat) : List Nat :=
  (List.range 32).filter fun n => d.reg (Ob.bfMember k n) != 0xFFFF && !d.laneUp (d.nat (Ob.bfMember k n))

/-- BfState (R265). -/
def Dev.bfStateNow (d : Dev) (k : Nat) : Nat :=
  if !d.flag (Ob.bfEnable k) then 0 else if (d.bfAbsent k).isEmpty then 1 else 2

/-- The destination of a route exists. -/
def Dev.destThere (d : Dev) (r : Nat) : Bool :=
  let sel := d.nat (Ob.routeDestSelect r)
  let kind := d.reg (Ob.routeDestKind r)
  if kind = 1 ∨ kind = 4 then
    d.flag (Ob.portEnable (sel % 32)) && d.hasOutput (sel % 32) && portHas d.reg (sel % 32) (sel / 32)
  else if kind = 2 then !d.quiesced Isl.ana
  else d.qreg Ob.qEnable sel == 1

/-- RouteState. -/
def Dev.routeStateNow (d : Dev) (r : Nat) : Nat :=
  if d.reg (Ob.routeSourceKind r) = 0 ∨ d.reg (Ob.routeDestKind r) = 0 then 0 else if d.destThere r then 1 else 2

/-- LatencyTo of a strip (R274). -/
def Dev.stripLatency (d : Dev) (s : Nat) : Nat :=
  34 + d.nat (Ob.stripDelay s)
    + (match stripSourceDom d.reg s with | some a => if a = d.nat (Ob.stripDomain s) then 0 else 64 | none => 0)

/-- LatencyTo of a route (R274, Table 2), its bridge and a host queue included. -/
def Dev.routeLatency (d : Dev) (r : Nat) : Nat :=
  let sel := d.nat (Ob.routeSourceSelect r)
  let kind := d.reg (Ob.routeSourceKind r)
  let buses := (List.range 8).filter fun n => d.reg (Ob.routeMatrixBus r n) != 0xFF
  let base :=
    if kind = 1 then 36 + d.nat (Ob.busDelay (sel % 96))
    else if kind = 2 then 34 + d.nat (Ob.stripDelay (sel % 384))
    else if kind = 3 then 33
    else if kind = 4 then 36 + buses.foldl (fun m n => Nat.max m (d.nat (Ob.busDelay (d.nat (Ob.routeMatrixBus r n) % 96)))) 0
    else 0
  let bridge := match routeDom d.reg r, routeDestDom d.reg r with
    | some a, some b => if a = b then 0 else 64
    | _, _ => 0
  base + d.nat (Ob.routeDelay r) + bridge + (if d.reg (Ob.routeDestKind r) = 3 then 33 else 0)

/-- The signal of the unit at an index. -/
def Dev.sig (d : Dev) (idx : Nat) : Sig := (kvGet d.mix.sigs idx).getD {}

/-- The peak level of the last block of the unit at an index (Table 3). -/
def Dev.levelNow (d : Dev) (idx : Nat) : Int := levelOf (d.sig idx).peak

/-- The pour kind of a mix object (R272): 0 gain, 1 route, 2 filter, 3 switch. -/
def mixKind (k : Nat) : Option Nat :=
  let idx := k / 256
  let sub := k % 256
  if 0x4400 ≤ idx ∧ idx ≤ 0x465F then
    if sub = 1 ∨ sub = 2 ∨ sub = 6 ∨ sub = 0x19 ∨ sub = 0x40 ∨ (0x20 ≤ sub ∧ sub ≤ 0x2F) then some 1
    else if sub = 4 ∨ sub = 5 ∨ sub = 0x1A ∨ sub = 0x1B ∨ (0x30 ≤ sub ∧ sub ≤ 0x3F) then some 0
    else if 7 ≤ sub ∧ sub ≤ 0x13 then some 2
    else if 0x14 ≤ sub ∧ sub ≤ 0x18 then some 3
    else none
  else if 0x4700 ≤ idx ∧ idx ≤ 0x473F then
    if sub ≤ 0x0A ∨ sub = 0x14 ∨ sub = 0x16 ∨ sub = 0x17 then some 1
    else if sub ≤ 0x13 ∨ sub = 0x18 then some 0
    else if sub = 0x15 then some 3
    else none
  else if 0x4740 ≤ idx ∧ idx ≤ 0x4743 then
    if sub = 1 ∨ sub = 5 then some 0 else if sub = 4 then some 2 else none
  else if 0x4750 ≤ idx ∧ idx ≤ 0x4757 then
    if sub = 1 ∨ sub = 5 then some 0 else if sub = 2 then none else some 3
  else if 0x4758 ≤ idx ∧ idx ≤ 0x475B then
    if sub = 5 then some 0 else if sub = 7 then some 3 else none
  else none

/-- A binding's target (R271): a gain-kind object of a strip, bus or route, or a beamformer's ActiveBank. -/
def bindTargetOk (k : Nat) : Bool :=
  let idx := k / 256
  (((0x4400 ≤ idx ∧ idx ≤ 0x457F) ∨ (0x4600 ≤ idx ∧ idx ≤ 0x465F) ∨ (0x4700 ≤ idx ∧ idx ≤ 0x473F)) && mixKind k == some 0
      && (objRow idx (k % 256)).isSome)
    || (decide (0x4740 ≤ idx ∧ idx ≤ 0x4743) && k % 256 == 4)

/-- The rate domain of the unit a mix object belongs to. -/
def unitDom (g : Nat → Int) (k : Nat) : Nat :=
  let idx := k / 256
  if 0x4400 ≤ idx ∧ idx ≤ 0x457F then (g (Ob.stripDomain (idx - 0x4400))).toNat
  else if 0x4600 ≤ idx ∧ idx ≤ 0x465F then (g (Ob.busDomain (idx - 0x4600))).toNat
  else if 0x4700 ≤ idx ∧ idx ≤ 0x473F then (routeDom g (idx - 0x4700)).getD 0
  else if 0x4740 ≤ idx ∧ idx ≤ 0x4743 then (g (Ob.bfDomain (idx - 0x4740))).toNat
  else if 0x4750 ≤ idx ∧ idx ≤ 0x4757 then (g (Ob.toneDomain (idx - 0x4750))).toNat
  else if 0x4758 ≤ idx ∧ idx ≤ 0x475B then (g (Ob.voiceDomain (idx - 0x4758))).toNat
  else if 0x4010 ≤ idx ∧ idx ≤ 0x402F then (g (Ob.portDomain (idx - 0x4010))).toNat
  else if 0x4001 ≤ idx ∧ idx ≤ 0x4003 then idx - 0x4001
  else 0

/-- The object that stands for those that change as one: a filter point's first for its high-pass and bands (R272), a source's
or a destination's kind for its number, else its own. -/
def rampKey (k : Nat) : Nat :=
  let idx := k / 256
  if mixKind k = some 2 ∧ idx < 0x4700 then idx * 256 + 7
  else if k % 256 = 2 ∧ ((0x4400 ≤ idx ∧ idx ≤ 0x457F) ∨ (0x4700 ≤ idx ∧ idx ≤ 0x473F)) then k - 1
  else if k % 256 = 0x17 ∧ 0x4700 ≤ idx ∧ idx ≤ 0x473F then k - 1
  else k

/-- The objects that change as one with the object `key` that stands for them. -/
def groupKeys (key : Nat) : List Nat :=
  (List.range 256).filterMap fun sub => if rampKey (key / 256 * 256 + sub) = key then some (key / 256 * 256 + sub) else none

/-- How far a change has gone at sample `n`, from 0 to `fxOne` (06_pours R149): w(k) = (1 - cos(π (k + 1) / N)) / 2. -/
def Env.weight (e : Env) (n : Nat) : Int :=
  if n < e.first then 0
  else if e.len ≤ n - e.first + 1 then fxOne
  else (fxOne - (cosSin (2 * (n - e.first + 1) : Nat) e.len).1) / 2

/-- The sets of values in force at sample `n`, each with its weight. -/
def Env.blend (e : Env) (n : Nat) : List (Int × Assoc Int) :=
  let w := e.weight n
  if w = fxOne then [(fxOne, e.new)] else e.old.map (fun x => (x.1 * (fxOne - w) / fxOne, x.2)) ++ [(w, e.new)]

/-- The sets of values of the objects of `key` in force at sample `n` of their domain: those of the last change that has begun,
before the first change those it leaves, and without any what the registers hold. -/
def Dev.force (d : Dev) (key n : Nat) : List (Int × Assoc Int) :=
  let mine := d.mix.envs.filter fun e => e.key == key
  match (mine.filter fun e => decide (e.first ≤ n)).getLast?, mine.head? with
  | some e, _ => e.blend n
  | none, some e => e.old
  | none, none => [(fxOne, [])]

/-- The objects of `key` take the values `new` from sample `n` of domain `m` on, over `len` samples, from those in force there
(R149, R150); `was` is what they hold where nothing else is in force. -/
def Dev.pushEnv (d : Dev) (key m n len : Nat) (was : Nat → Int) (new : Assoc Int) : Dev :=
  let old := (d.force key n).map fun x => (x.1, (groupKeys key).map fun k => (k, (kvGet x.2 k).getD (was k)))
  d.onMix fun x => { x with envs := x.envs ++ [{ key, dom := m, first := n, len, old, new }] }

/-- The values that the objects of `key` hold. -/
def Dev.groupVals (d : Dev) (key : Nat) : Assoc Int := (groupKeys key).map fun k => (k, d.reg k)

/-- A ramp of `len` samples starts at sample `j` of a domain (R149). -/
def Dev.startRamp (d : Dev) (k : Nat) (m j len pour : Nat) : Dev :=
  d.onMix fun x => { x with ramps :=
    x.ramps ++ [{ key := rampKey k, start := d.sampleStamp m j, stop := d.sampleStamp m (j + len - 1), pour := pour }] }

/-- The objects of `k` go at sample `j` of a domain from what the device `d0` held to what they hold now, over `len` samples. -/
def Dev.shift (d0 d : Dev) (k : Nat) (m j len : Nat) : Dev :=
  d.pushEnv (rampKey k) m (d.sampleNo m j) len d0.reg (d.groupVals (rampKey k))

/-- A mix object has changed without a ramp of a pour's length (01_console_model R27): its value stands from the next sample of
its unit's domain at or after stamp `t`; a strip's Enable ramps from or to silence whatever changes it (R272, log 156). -/
def Dev.stepped (d0 d : Dev) (k : Nat) (t : Nat) : Dev :=
  let ramp := decide (0x4400 ≤ k / 256 ∧ k / 256 ≤ 0x457F) && k % 256 == 4
  if (mixKind k).isNone || d0.reg k == d.reg k then d
  else d0.shift d k (unitDom d.reg k) (d.sampleAt (unitDom d.reg k) t) (if ramp then d.nat Ob.defaultRamp else 1)

/-- A crossfade of the filter that object `k` belongs to runs at a stamp. -/
def Dev.fading (d : Dev) (k : Nat) (t : Nat) : Bool :=
  d.mix.ramps.any fun r => r.key == rampKey k && atOrAfter r.stop t

/-- A strip's blocks over `n` samples of a block from sample `j` (R266): what is left, the samples they give, and those for
which there was nothing. -/
def playBlock (stamp : Nat → Nat) : Nat → Nat → List HostBlk → List HostBlk × List Int × Nat
  | 0, _, l => (l, [], 0)
  | n + 1, j, l =>
    match l with
    | b :: rest =>
      match b.left with
      | v :: more =>
        if (match b.start with | some t => atOrAfter (stamp j) t | none => true) then
          let r := playBlock stamp n (j + 1) (if more = [] then rest else { start := none, left := more } :: rest)
          (r.1, v :: r.2.1, r.2.2)
        else let r := playBlock stamp n (j + 1) l; (r.1, 0 :: r.2.1, r.2.2 + 1)
      | [] => let r := playBlock stamp n (j + 1) rest; (r.1, 0 :: r.2.1, r.2.2 + 1)
    | [] => let r := playBlock stamp n (j + 1) []; (r.1, 0 :: r.2.1, r.2.2 + 1)

/-- Voice `k` beside its objects. -/
def Dev.voice (d : Dev) (k : Nat) : Voice := (kvGet d.mix.voices k).getD {}

/-- Voice `k`'s bookkeeping is `v`. -/
def Dev.setVoice (d : Dev) (k : Nat) (v : Voice) : Dev :=
  d.onMix fun x => { x with voices := if v = {} then kvDel x.voices k else kvPut x.voices k v }

/-- Voices of a domain whose start lies within its block begin to play (R269). -/
def Dev.startVoices (d : Dev) (m : Nat) : Dev :=
  d.each (List.range 4) fun d k =>
    match (if (d.voice k).done then none else (d.voice k).startAt) with
    | some t => if d.nat (Ob.voiceDomain k) = m && atOrAfter (d.sampleStamp m 31) t then d.set (Ob.voiceState k) 1 else d
    | none => d

/-- The key of the blocks a strip has taken from a queue. -/
def playKey (strip q : Nat) : Nat := 4096 * strip + q

/-- HOST_AUDIO_BLOCK (R266): the strip takes the head of its queue; a bad format is a violation of the queue's owner, a late
block is discarded whole. -/
def execHostAudioBlock (strip : Fin 384) (s : State) : Host.Outcome State Fault Refusal :=
  onDev (fun d =>
    let x : Nat := strip
    let q := d.nat (Ob.stripSourceSelect x)
    if d.reg (Ob.stripSourceKind x) ≠ 2 || !d.flag (Ob.stripEnable x) || !d.laneUp x || d.quiesced Isl.mix
        || d.quiesced Isl.qmg then d
    else match d.readQueue q with
      | none => d
      | some (it, d) =>
        let d := d.when (d.holdsGen q) fun d => d.genDec it
        let (it, d) := d.readItem it
        let b := it.data
        let start := leAt b 0 6
        let count := leAt b 6 2
        let fmt := leAt b 8 1
        if fmt > 1 || count = 0 || 1024 < count || b.length ≠ 16 + count * (2 + 2 * fmt) then
          match d.queueOwner q with
          | some p => d.violate (.fixed (partnerId 1 p)) fun _ => { code := 0x4041, island := Isl.mix, iface := 4, d1 := x, d2 := 0 }
          | none => d
        else
          let (num, den) := d.domSpan (d.nat (Ob.stripDomain x)) 34
          if start ≠ 0 && decide (stampDiff start it.completion * den < num) then
            (d.bump (Ob.stripLateBlocks x)).event
              { code := 0x4041, island := Isl.mix, d1 := x, d2 := d.nat (Ob.stripLateBlocks x) + 1 }
          else
            let sample (i : Nat) : Int :=
              if fmt = 0 then signed 16 (leAt b (16 + 2 * i) 2) * 65536 else signed 32 (leAt b (16 + 4 * i) 4)
            let blk : HostBlk := { start := if start = 0 then none else some start, left := (List.range count).map sample }
            d.onMix fun r => { r with play := kvPut r.play (playKey x q) ((kvGet r.play (playKey x q)).getD [] ++ [blk]) }) s

/-- A tone's Enable, waveform or frequency has changed: with Enable its cadence starts on, from the next sample (R268); a wave
begins at a phase that is a free value (log 37). -/
def Dev.toneWritten (d : Dev) (k : Nat) (sub t : Nat) : Dev :=
  let m := d.nat (Ob.toneDomain k)
  let j := d.sampleAt m t
  let wave (x : Tone) : Tone :=
    { x with waves := ((d.sampleNo m j, Config.tonePhase d.fresh % 4294967296) :: x.waves).take 4 }
  if sub = 1 then
    if d.flag (Ob.toneEnable k) then
      (d.onMix fun x => { x with tones := kvPut x.tones k (wave { on := true, at_ := d.sampleStamp m j }) }).drawn
    else d
  else match kvGet d.mix.tones k with
    | some x => (d.onMix fun y => { y with tones := kvPut y.tones k (wave x) }).drawn
    | none => d

/-- The object that stands for a tone's cadence among the values in force. -/
def cadenceKey (k : Nat) : Nat := Ob.toneOnTime k

/-- TONE_CADENCE_TRANSITION (R268): OnTime or OffTime has elapsed; the tone ramps over DefaultRamp samples. -/
def execToneCadenceTransition (tone : Fin 8) (s : State) : Host.Outcome State Fault Refusal :=
  onDev (fun d =>
    let k : Nat := tone
    match kvGet d.mix.tones k with
    | none => d
    | some t =>
      let ms := if t.on then d.nat (Ob.toneOnTime k) else d.nat (Ob.toneOffTime k)
      let m := d.nat (Ob.toneDomain k)
      let at_ := stampAdd t.at_ (ms * 1000000 : Nat)
      if d.nat (Ob.toneOnTime k) = 0 || !d.flag (Ob.toneEnable k) || d.quiesced Isl.mix || !atOrAfter d.now at_ then d
      else
        let j := d.sampleAt m at_
        let n := d.nat Ob.defaultRamp
        let d := d.onMix fun x => { x with tones := kvPut x.tones k { t with on := !t.on, at_ := at_ } }
        (d.startRamp (cadenceKey k) m j n 0).pushEnv (cadenceKey k) m (d.sampleNo m j) n (fun _ => t.on.toNat)
          [(cadenceKey k, (!t.on).toNat)]) s

/-- A sample of a clip takes 2 or 4 bytes. -/
def Dev.clipBytes (d : Dev) (k : Nat) : Nat :=
  d.nat (Ob.voiceClipLength k) * (if d.reg (Ob.voiceClipFormat k) = 0 then 2 else 4)

/-- Play's condition (R269): the clip lies within a memory window of the partition. -/
def playConds (k : Nat) : Conds :=
  { range := fun d se _ => needRange (decide (0 < d.nat (Ob.voiceClipLength k))
      && d.inDramWindow se.part (d.nat (Ob.voiceClipAddress k)) (d.clipBytes k) []) }

/-- Play takes effect (R269): at the later of PlayStamp and now, or at the next sample where the voice plays. -/
def Dev.play (d : Dev) (k : Nat) : Dev :=
  let m := d.nat (Ob.voiceDomain k)
  let p := d.nat (Ob.voicePlayStamp k)
  let t := if d.reg (Ob.voiceState k) = 0 && p ≠ 0 && after p d.now then p else d.now
  let j := d.sampleAt m t
  let d := (d.setVoice k { startAt := some (d.sampleStamp m j), first := d.sampleNo m j, len := d.nat (Ob.voiceClipLength k),
                           addr := d.nat (Ob.voiceClipAddress k), wide := d.flag (Ob.voiceClipFormat k) }).onMix
    fun x => { x with envs := x.envs.filter fun e => e.key != Ob.voiceStop k }
  if t = d.now then d.set (Ob.voiceState k) 1 else d

/-- VOICE_PLAY (R269). -/
def execVoicePlay (hd : Hdr) (cond : Option Nat) (voice : Fin 4) (s : State) : Host.Outcome State Fault Refusal :=
  onDev (fun d => d.writeReq (playConds voice) hd cond (0x4758 + voice) 7 [1] fun _ _ d => d.play voice) s

/-- Stop of a voice (R269): a DefaultRamp fade, after which the clip ends (RAMP_END). A start that waits is dropped. -/
def Dev.stopVoice (d : Dev) (k : Nat) : Dev :=
  if d.reg (Ob.voiceState k) = 0 then d.setVoice k {}
  else
    let m := d.nat (Ob.voiceDomain k)
    let j := d.sampleAt m d.now
    let n := d.nat Ob.defaultRamp
    ((d.setVoice k { d.voice k with fade := some (d.sampleNo m (j + n - 1)) }).startRamp (Ob.voiceStop k) m j n 0).pushEnv
      (Ob.voiceStop k) m (d.sampleNo m j) n (fun _ => 1) [(Ob.voiceStop k, 0)]

/-- VOICE_STOP (R269). -/
def execVoiceStop (hd : Hdr) (cond : Option Nat) (voice : Fin 4) (s : State) : Host.Outcome State Fault Refusal :=
  onDev (fun d => d.writeReq {} hd cond (0x4758 + voice) 8 [1] fun _ _ d => d.stopVoice voice) s

/-- VOICE_CLIP_END (R269): the clip's last sample has played: with Loop it repeats without a gap. -/
def execVoiceClipEnd (voice : Fin 4) (s : State) : Host.Outcome State Fault Refusal :=
  onDev (fun d =>
    let k : Nat := voice
    let v := d.voice k
    match (if v.done then none else v.startAt) with
    | none => d
    | some t =>
      let (num, den) := d.domSpan (d.nat (Ob.voiceDomain k)) v.len
      let end_ := stampAdd t (roundDiv num den)
      if d.reg (Ob.voiceState k) ≠ 1 || !atOrAfter d.now end_ then d
      else if d.flag (Ob.voiceLoop k) then d.setVoice k { v with startAt := some end_, first := v.first + v.len }
      else (d.setVoice k { v with done := true }).set (Ob.voiceState k) 0) s

/-- A control value is discarded: counted, with 0x4043 (R270). -/
def Dev.discardControl (d : Dev) (c : Nat) : Dev :=
  (d.bump (Ob.bindDiscarded c)).event { code := 0x4043, island := Isl.mix, d1 := c }

/-- The value at ValueOffset in its format (Table 4), where the payload holds it. -/
def Dev.controlValue (d : Dev) (c : Nat) (b : Bytes) : Option Int :=
  let off := d.nat (Ob.bindValueOffset c)
  let n := if d.reg (Ob.bindValueFormat c) = 0 then 1 else if d.reg (Ob.bindValueFormat c) = 1 then 2 else 4
  if b.length < off + n then none
  else some (if n = 1 then (leAt b off 1 : Nat) else signed (8 * n) (leAt b off n))

/-- The value a binding applies to its target (R270): scaled, rounded and held to the range, or a bank as it is. -/
def Dev.controlApplies (d : Dev) (c : Nat) (k : Nat) (v : Int) : Option Int :=
  if mixKind k = some 2 then (if 0 ≤ v ∧ v ≤ 15 then some v else none)
  else match objRow (k / 256) (k % 256) with
    | some r => some (clampInt r.lo r.hi (roundDiv (v * d.reg (Ob.bindScale c)) 100))
    | none => none

/-- A control value takes effect on its target at sample `j` (R270): as a write does, over `len` samples. -/
def Dev.applyControl (d : Dev) (c : Nat) (k : Nat) (v : Int) (m j len : Nat) : Dev :=
  let d := (d.shift (((d.set k v).bumpVer k).bump (Ob.bindApplied c)) k m j len).startRamp k m j len 0
  d.onMix fun x => { x with bound := kvPut x.bound k (d.sampleStamp m j, c) }

/-- A control value that has come in time (R270, R271, R150). -/
def Dev.steerControl (d : Dev) (c : Nat) (k : Nat) (v : Int) : Dev :=
  let m := unitDom d.reg k
  let j := d.sampleAt m d.now
  let len := d.nat (Ob.bindControlRamp c)
  if kvGet d.mix.poured k = some (d.sampleStamp m j) then d.discardControl c
  else if mixKind k = some 2 && d.fading k (d.sampleStamp m j) then
    d.onMix fun x => { x with filters :=
      x.filters ++ [{ key := rampKey k, vals := [(k, v)], dom := m, len := len, pour := 0, bind := some c }] }
  else d.applyControl c k v m j len

/-- CONTROL_ITEM (R270, R271). -/
def execControlItem (bind : Fin 16) (s : State) : Host.Outcome State Fault Refusal :=
  onDev (fun d =>
    let c : Nat := bind
    let q := d.nat (Ob.bindControlQueue c)
    if q = 0xFFFF || d.quiesced Isl.mix || d.quiesced Isl.qmg then d
    else match d.readQueue q with
      | none => d
      | some (it, d) =>
        let d := d.when (d.holdsGen q) fun d => d.genDec it
        let k := d.nat (Ob.bindTarget c)
        let old := decide ((d.nat (Ob.bindMaxAge c) * 1000 : Nat) < stampDiff it.completion it.subject)
          || (match kvGet d.mix.applied c with | some t => after t it.subject | none => false)
        if old || !bindTargetOk k || d.unitAbsent (k / 256) (k % 256) then d.discardControl c
        else
          let (it, d) := d.readItem it
          match (d.controlValue c it.data).bind (d.controlApplies c k) with
          | none => d.discardControl c
          | some v => (d.onMix fun x => { x with applied := kvPut x.applied c it.subject }).steerControl c k v) s

/-- A coefficient bank's block write (R264): 32 × 64 coefficients and their CRC-32C, not into the active bank. -/
def bankObj (k : Nat) : BlockObj :=
  { range := fun _ _ b => needRange (leNat (b.drop 8192) == crc32c (b.take 8192)),
    state := fun d _ _ => needState (d.nat (Ob.bfActiveBank (k / 256 - 0x4740)) != k % 256 - 0x30),
    eff := fun _ b d => d.setBlob k b }

/-- BF_BANK_WRITE (R264). -/
def execBfBankWrite (hd : Hdr) (payload : Bytes) (s : State) : Host.Outcome State Fault Refusal :=
  onDev (fun d => d.blockFrame bankObj hd payload) s

/-- A mix lane drops (R275): its strips are absent at once, and beamformers with members there are degraded (R265). -/
def Dev.dropLane (d : Dev) (lane : Nat) : Dev :=
  if !bit (d.nat Ob.lanesInUse) lane then d
  else
    let d := (d.setN Ob.lanesInUse (d.nat Ob.lanesInUse - 2 ^ lane)).setN Ob.stripsInUse (d.nat Ob.stripsInUse - 96)
    let d := d.event { code := 0x4044, island := Isl.mix, d1 := lane }
    let d := d.onMix fun x => { x with play := x.play.filter fun e => e.1 / 4096 / 96 != lane,
                                       sigs := x.sigs.filter fun e => e.1 < 0x4400 || 0x4580 ≤ e.1 || (e.1 - 0x4400) / 96 != lane,
                                       under := x.under.filter fun y => y / 96 != lane }
    d.each (List.range 4) fun d k =>
      if d.flag (Ob.bfEnable k) then
        d.each ((d.bfAbsent k).filter fun n => d.nat (Ob.bfMember k n) / 96 == lane) fun d n =>
          d.event { code := 0x4045, island := Isl.mix, d1 := k, d2 := n }
      else d

/-- MIX returns (R276): every route's output ramps up from silence over DefaultRamp samples; ramps that ran have
ended at their targets, and no signal from before is left. -/
def Dev.mixReturns (d : Dev) : Dev :=
  (d.onMix fun x => { x with envs := [], sigs := [] }).each ((List.range 64).filter fun r => d.routeStateNow r == 1) fun d r =>
    let m := (routeDom d.reg r).getD 0
    let j := d.sampleAt m d.now
    let n := d.nat Ob.defaultRamp
    (d.startRamp (Ob.routeState r) m j n 0).pushEnv (Ob.routeState r) m (d.sampleNo m j) n (fun _ => 0) [(Ob.routeState r, 1)]

/-- A source number within its kind's (Table 1). -/
def sourceSelOk (kind sel : Int) : Bool :=
  if kind = 0 then sel == 0 else if kind = 1 then decide (sel ≤ 255) else if kind = 2 then decide (sel ≤ 4095)
  else if kind = 3 then decide (sel ≤ 7) else decide (sel ≤ 3)

/-- A route's source number within its kind's. -/
def routeSelOk (kind sel : Int) : Bool :=
  if kind = 1 then decide (sel ≤ 95) else if kind = 2 then decide (sel ≤ 383) else if kind = 3 then decide (sel ≤ 3) else true

/-- A route's destination number within its kind's. -/
def destSelOk (kind sel : Int) : Bool :=
  if kind = 2 then decide (sel ≤ 3) else if kind = 3 then decide (sel ≤ 4095) else decide (sel ≤ 255)

/-- Another route feeds the destination of route `r` (R263). -/
def destTaken (g : Nat → Int) (r : Nat) : Bool :=
  let port (k : Int) : Int := if k = 4 then 1 else k
  g (Ob.routeDestKind r) != 0 && (List.range 64).any fun x =>
    x != r && port (g (Ob.routeDestKind x)) == port (g (Ob.routeDestKind r))
      && g (Ob.routeDestSelect x) == g (Ob.routeDestSelect r)

/-- A beamformer may be enabled (R264): each member is a strip of its domain fed by a Stamped port's input. -/
def membersOk (g : Nat → Int) (k : Nat) : Bool :=
  (List.range 32).all fun n =>
    g (Ob.bfMember k n) == 0xFFFF ||
      (let s := (g (Ob.bfMember k n)).toNat
       g (Ob.stripDomain s) == g (Ob.bfDomain k) && g (Ob.stripSourceKind s) == 1
         && g (Ob.portAlignment ((g (Ob.stripSourceSelect s)).toNat % 32)) == 0)

/-- The rate of domain `m` over values `g`. -/
def rateOf (g : Nat → Int) (m : Int) : Int := g (Ob.domRate m.toNat)

/-- Range conditions of the mix objects, over the values `g` as the write or pour would leave them (R260-R264, R268,
R271). -/
def mixRange (g : Nat → Int) (k : Nat) : Bool :=
  let idx := k / 256
  let sub := k % 256
  let modeOk := g Ob.rateMode != 0 || g k == 0
  let bridge := decide (bridgeMost g ≤ 64)
  if 0x4400 ≤ idx ∧ idx ≤ 0x457F then
    let s := idx - 0x4400
    if sub = 1 then bridge
    else if sub = 2 then sourceSelOk (g (Ob.stripSourceKind s)) (g k) && bridge
    else if sub = 3 then modeOk && bridge && (List.range 16).all fun n =>
      g (Ob.stripSendBus s n) == 0xFF || g (Ob.busDomain (g (Ob.stripSendBus s n)).toNat) == g k
    else if 8 ≤ sub ∧ sub ≤ 0xB then decide (2 * g k < rateOf g (g (Ob.stripDomain s)))
    else if 0x20 ≤ sub ∧ sub ≤ 0x2F then g k == 0xFF || g (Ob.busDomain (g k).toNat) == g (Ob.stripDomain s)
    else true
  else if 0x4600 ≤ idx ∧ idx ≤ 0x465F then
    let b := idx - 0x4600
    if sub = 3 then modeOk && bridge && (List.range 384).all fun s => (List.range 16).all fun n =>
      g (Ob.stripSendBus s n) != b || g (Ob.stripDomain s) == g k
    else if 8 ≤ sub ∧ sub ≤ 0xB then decide (2 * g k < rateOf g (g (Ob.busDomain b)))
    else true
  else if 0x4700 ≤ idx ∧ idx ≤ 0x473F then
    let r := idx - 0x4700
    if sub = 1 then bridge
    else if sub = 2 then routeSelOk (g (Ob.routeSourceKind r)) (g k) && bridge
    else if 3 ≤ sub ∧ sub ≤ 0xA then bridge
    else if sub = 0x16 ∨ sub = 0x17 then
      destSelOk (g (Ob.routeDestKind r)) (g (Ob.routeDestSelect r)) && !destTaken g r && bridge
    else true
  else if 0x4740 ≤ idx ∧ idx ≤ 0x4743 then
    if sub = 1 then g k == 0 || membersOk g (idx - 0x4740) else if sub = 2 then modeOk && bridge else true
  else if 0x4750 ≤ idx ∧ idx ≤ 0x4757 then
    if sub = 2 then modeOk && bridge
    else if sub = 4 then decide (g k ≤ 500 * rateOf g (g (Ob.toneDomain (idx - 0x4750))))
    else true
  else if 0x4758 ≤ idx ∧ idx ≤ 0x475B then (if sub = 1 then modeOk && bridge else true)
  else if 0x4760 ≤ idx ∧ idx ≤ 0x476F then (if sub = 2 then bindTargetOk (g k).toNat else true)
  else true

/-- State conditions of plain writes to the mix objects (R261, Table 4). -/
def Dev.mixWritable (d : Dev) (k : Nat) : Bool :=
  let idx := k / 256
  let sub := k % 256
  if 0x4400 ≤ idx ∧ idx ≤ 0x457F then sub != 3 || !d.flag (Ob.stripEnable (idx - 0x4400))
  else if 0x4600 ≤ idx ∧ idx ≤ 0x465F then sub != 3 || !d.flag (Ob.busEnable (idx - 0x4600))
  else if 0x4740 ≤ idx ∧ idx ≤ 0x4743 then
    !(sub == 2 || sub == 3 || decide (0x10 ≤ sub ∧ sub ≤ 0x2F)) || !d.flag (Ob.bfEnable (idx - 0x4740))
  else if 0x4750 ≤ idx ∧ idx ≤ 0x4757 then sub != 2 || !d.flag (Ob.toneEnable (idx - 0x4750))
  else true

end Sys2Proof.Machine
end

