-- ==== Sys2Proof/Machine/Signals.lean ====
section
/-! DEFINITION. What the mix engine does with samples (13_mix_engine R259, R262-R269, 06_pours R149): a block of a domain from
the sources of its strips to the destinations of its routes. Strips, buses, beamformers and routes keep their signals newest
first, by index. Laws the chapter does not give (filters, gates, compressors, limiters, square tones, bridges) are free values
(log 37). -/
namespace Sys2Proof.Machine

/-- Samples with their weights, as one sample. -/
def mixSum : List (Int × Int) → Int
  | [(w, x)] => if w = fxOne then x else toF32 (w * x) fxOne.toNat
  | l => toF32 ((l.map fun x => x.1 * x.2).sum) fxOne.toNat

/-- What the settings in force of the objects of `key` give at sample `n`: each set's sample by its weight (06_pours R149). -/
def Dev.blendAt (d : Dev) (key n : Nat) (f : (Nat → Int) → Int) : Int :=
  mixSum ((d.force key n).map fun x => (x.1, f fun k => (kvGet x.2 k).getD (d.reg k)))

/-- The linear value in force of a gain object at sample `n`, where `f` gives that of one setting; `was` is its setting where
no change of it is known. -/
def Dev.gainFrom (d : Dev) (k n : Nat) (was : Int) (f : Int → Int) : Int :=
  ((d.force (rampKey k) n).map fun x => x.1 * f ((kvGet x.2 k).getD was) / fxOne).sum

/-- The linear value in force of the gain object `k`. -/
def Dev.gainAt (d : Dev) (k n : Nat) (f : Int → Int) : Int := d.gainFrom k n (d.reg k) f

/-- The value in force of a switch object. -/
def Dev.valueAt (d : Dev) (k n : Nat) : Int :=
  match (d.force (rampKey k) n).getLast? with
  | some x => (kvGet x.2 k).getD (d.reg k)
  | none => d.reg k

/-- A sample by a gain. -/
def amp (x g : Int) : Int := if g = fxOne then x else toF32 (x * g) fxOne.toNat

/-- The gain of a switch that passes at 1, and of one that mutes at 1. -/
def passes (v : Int) : Int := if v = 0 then 0 else fxOne
def mutes (v : Int) : Int := if v = 0 then fxOne else 0

/-- A sample that a law the chapter does not give makes. -/
def Dev.openSample (d : Dev) (unit place : Nat) : Int := toF32 (Config.mixSample d.fresh unit place) 1

/-- A gain between 0 and 1 that a law the chapter does not give makes. -/
def Dev.openGain (d : Dev) (unit place : Nat) : Int := Config.mixGain d.fresh unit place % (fxOne + 1)

/-- The filter point of a strip or bus (R262): as it came with the high-pass off and no band raised or lowered. -/
def Dev.filterAt (d : Dev) (idx n i : Nat) (x : Int) : Int :=
  d.blendAt (idx * 256 + 7) n fun g =>
    if g (idx * 256 + 7) = 0 && (List.range 4).all fun b => g (idx * 256 + 0x0C + b) == 0 then x
    else d.openSample idx ((List.range 13).foldl (fun a s => a * 65536 + (g (idx * 256 + 7 + s)).toNat) i)

/-- The gate of a strip (R262), and the compressor of a strip or bus. -/
def Dev.gateAt (d : Dev) (idx n i : Nat) (x : Int) : Int :=
  if d.valueAt (idx * 256 + 0x14) n ≤ -14400 then x else amp x (d.openGain idx (2 * i))
def Dev.compAt (d : Dev) (idx n i : Nat) (x : Int) : Int :=
  if d.valueAt (idx * 256 + 0x16) n = 10 then x else amp x (d.openGain idx (2 * i + 1))

/-- Stages 5 to 8 of a strip or bus for a sample, with what came before it (R262): compressor, delay, fader and mute, and the
weight of Enable on all that is taken from the element. `points` are the samples of the stages before. -/
def Dev.lastStages (d : Dev) (idx n i : Nat) (filtered x : Int) (points : List Int) (s : Sig) : Sig :=
  let x5 := d.compAt idx n i x
  let line := (x5 :: s.line).take 4801
  let x6 := d.blendAt (idx * 256 + 0x19) n fun g => line.getD (g (idx * 256 + 0x19)).toNat 0
  let x8 := amp (amp x6 (d.gainAt (idx * 256 + 0x1A) n gainFx)) (d.gainAt (idx * 256 + 0x1B) n mutes)
  let en := d.gainAt (idx * 256 + 4) n passes
  let points := points ++ [x5, x6, x8]
  { s with
    filtered := (amp filtered en :: s.filtered).take 128, line, delayed := (amp x6 en :: s.delayed).take 66,
    out := (amp x8 en :: s.out).take 66, peak := Nat.max s.peak (points.getD (Config.peakPoint % points.length) 0).natAbs }

/-- A sample of a strip through its stages in their fixed order (R262). -/
def Dev.stripStep (d : Dev) (idx n i : Nat) (x : Int) (s : Sig) : Sig :=
  let x2 := amp (amp x (d.gainAt (idx * 256 + 5) n gainFx))
    (d.gainAt (idx * 256 + 6) n fun v => if v = 0 then fxOne else -fxOne)
  let x3 := d.filterAt idx n i x2
  d.lastStages idx n i x3 (d.gateAt idx n i x3) [x, x2, x3] s

/-- A sample of a bus: its sum through stages 3, 5, 6, 7 and 8 (R262). -/
def Dev.busStep (d : Dev) (idx n i : Nat) (x : Int) (s : Sig) : Sig :=
  let x3 := d.filterAt idx n i x
  d.lastStages idx n i x3 x3 [x, x3] s

/-- The signal of a unit through the 32 samples of a block that begins at sample `n0`. -/
def overBlock (n0 : Nat) (s : Sig) (step : Nat → Nat → Sig → Sig) : Sig :=
  (List.range 32).foldl (fun s i => step (n0 + i) i s) { s with peak := 0 }

/-- The signal of the unit at an index is `s`. -/
def Dev.setSig (d : Dev) (idx : Nat) (s : Sig) : Dev := d.onMix fun x => { x with sigs := kvPut x.sigs idx s }

/-- A change of the object `k` is under way. -/
def Dev.changing (d : Dev) (k : Nat) : Bool := d.mix.envs.any fun e => e.key == rampKey k

/-- The strips, and the buses, of domain `m` that work on a block: enabled, or their Enable still under way. -/
def Dev.stripsIn (d : Dev) (m : Nat) : List Nat :=
  (List.range 384).filter fun s => d.nat (Ob.stripDomain s) == m && d.laneUp s
    && (d.flag (Ob.stripEnable s) || d.changing (Ob.stripEnable s))
def Dev.busesIn (d : Dev) (m : Nat) : List Nat :=
  (List.range 96).filter fun b => d.nat (Ob.busDomain b) == m && (d.flag (Ob.busEnable b) || d.changing (Ob.busEnable b))

/-- A coefficient of a bank (R264): 64 to a member, of which the first Taps are its taps. -/
def Dev.coefficient (d : Dev) (k bank member tap : Nat) : Int :=
  ofWord32 (leAt (d.blob (Ob.bfBank k bank)) (4 * (64 * member + tap)) 4) (d.openSample (0x4740 + k) (64 * member + tap))

/-- Two samples added. -/
def addF32 (a b : Int) : Int := toF32 (a + b) 1

/-- The output of beamformer `k` at sample `i` of a block whose strips have not worked yet (R264, R265, Table 2): each member
through its filter of the active bank, summed; an absent member is zero. -/
def Dev.bfAt (d : Dev) (k n i : Nat) : Int :=
  let taps := d.nat (Ob.bfTaps k)
  let sum := d.blendAt (Ob.bfActiveBank k) n fun g =>
    (List.range 32).foldl (fun a x =>
      if d.reg (Ob.bfMember k x) = 0xFFFF ∨ !d.laneUp (d.nat (Ob.bfMember k x)) then a
      else
        let l := (d.sig (0x4400 + d.nat (Ob.bfMember k x))).filtered
        (List.range taps).foldl (fun a t =>
          addF32 a (toF32 (d.coefficient k (g (Ob.bfActiveBank k)).toNat x t * l.getD (32 + (taps - 1 - t) - i) 0) (2 ^ 149))) a) 0
  amp (amp sum (d.gainAt (Ob.bfGain k) n gainFx)) (d.gainAt (Ob.bfEnable k) n passes)

/-- The beamformers of domain `m` work on a block; the sample after it is known too. -/
def Dev.bfBlock (d : Dev) (m n0 : Nat) : Dev :=
  d.each (List.range 4) fun d k =>
    if d.nat (Ob.bfDomain k) = m && (d.flag (Ob.bfEnable k) || d.changing (Ob.bfEnable k)) then
      d.setSig (0x4740 + k) { out := ((List.range 32).map fun i => d.bfAt k (n0 + i) i).reverse, line := [d.bfAt k (n0 + 32) 32] }
    else if d.nat (Ob.bfDomain k) = m then d.onMix fun x => { x with sigs := kvDel x.sigs (0x4740 + k) }
    else d

/-- A sample of tone `k` (R268): a sine, or a band-limited square that is a free value, by its level, cadence and Enable. -/
def Dev.toneAt (d : Dev) (k n i : Nat) : Int :=
  match kvGet d.mix.tones k with
  | none => 0
  | some t =>
    let rate := Nat.max 1 (d.nat (Ob.domRate (d.nat (Ob.toneDomain k))))
    let phase := ((t.waves.find? fun w => decide (w.1 ≤ n)).map fun w => w.2).getD 0
    let turn := d.valueAt (Ob.toneFrequency k) n * n * 4294967296 + phase * (1000 * rate)
    let raw := if d.valueAt (Ob.toneWaveform k) n = 0 then toF32 ((cosSin turn (250 * rate * 4294967296)).2 * 2 ^ 85) 1
      else d.openSample (0x4750 + k) i
    let on : Int := if d.nat (Ob.toneOnTime k) = 0 ∨ t.on then 1 else 0
    amp (amp (amp raw (d.gainFrom (cadenceKey k) n on passes)) (d.gainAt (Ob.toneLevel k) n gainFx))
      (d.gainAt (Ob.toneEnable k) n passes)

/-- A sample of voice `k` (R269), read from DRAM as it plays: zero before its start, after its fade or its end; with Loop the clip
goes on without a gap. -/
def Dev.voiceAt (d : Dev) (k n : Nat) : Int :=
  let v := d.voice k
  let at_ : Option Nat :=
    if v.startAt.isNone || v.len = 0 || (match v.fade with | some e => decide (e < n) | none => false) then none
    else if n < v.first then (if v.first ≤ n + v.len && d.flag (Ob.voiceLoop k) then some (n + v.len - v.first) else none)
    else if n - v.first < v.len || (d.flag (Ob.voiceLoop k) && !v.done) then some ((n - v.first) % v.len)
    else none
  match at_ with
  | none => 0
  | some j =>
    let x : Int := if v.wide then signed 32 (leNat (memRead d.mem (v.addr + 4 * j) 4))
      else signed 16 (leNat (memRead d.mem (v.addr + 2 * j) 2)) * 65536
    amp (amp (ofI32 x) (d.gainAt (Ob.voiceLevel k) n gainFx)) (d.gainFrom (Ob.voiceStop k) n 1 passes)

/-- What stands for a source of another domain behind the bridge (R261): free values while it runs, else silence. -/
def Dev.bridged (d : Dev) (runs : Bool) (unit : Nat) : List Int :=
  (List.range 32).map fun i => if runs then d.openSample (0x10000 + unit) i else 0

/-- The 32 samples that a source gives domain `m` for a block (R260, Table 1), a host queue apart, with the device that has
heard them. -/
def Dev.sourceBlock (d : Dev) (m n0 : Nat) (b : DomIn) (kind sel : Nat) : List Int × Dev :=
  let unit := kind * 65536 + sel
  let each (f : Nat → Int) : List Int := (List.range 32).map f
  if kind = 1 then
    let p := sel % 32
    let c := sel / 32
    if !portHas d.reg p c then (each fun _ => 0, d)
    else if d.nat (Ob.portDomain p) ≠ m then
      (d.bridged (d.flag (Ob.portEnable p) && d.hasInput p && d.portStateNow p == 2) unit, d)
    else
      let came := ((b.ins.find? fun h => h.port == p && h.ch == c).map fun h => h.samples).getD []
      let (l, d) := d.hearChannel m p c came
      (l.map ofI32, d)
  else if kind = 3 then
    let k := sel % 8
    (if d.nat (Ob.toneDomain k) = m then each fun i => d.toneAt k (n0 + i) i
     else d.bridged (d.flag (Ob.toneEnable k)) unit, d)
  else if kind = 4 then
    let k := sel % 4
    (if d.nat (Ob.voiceDomain k) = m then each fun i => d.voiceAt k (n0 + i)
     else d.bridged (d.reg (Ob.voiceState k) == 1) unit, d)
  else if kind = 5 then
    let k := sel % 4
    (if d.nat (Ob.bfDomain k) = m then (d.sig (0x4740 + k)).out.take 32 |>.reverse
     else d.bridged (d.flag (Ob.bfEnable k)) unit, d)
  else (each fun _ => 0, d)

/-- The sources a strip takes during a block: kind and number, of each set of values in force. -/
def Dev.sourcesOf (d : Dev) (s : Nat) : List (Nat × Nat) :=
  let one (ov : Assoc Int) : Nat × Nat :=
    (((kvGet ov (Ob.stripSourceKind s)).getD (d.reg (Ob.stripSourceKind s))).toNat,
     ((kvGet ov (Ob.stripSourceSelect s)).getD (d.reg (Ob.stripSourceSelect s))).toNat)
  let envs := d.mix.envs.filter fun e => e.key == Ob.stripSourceKind s
  firsts (one [] :: envs.flatMap fun e => one e.new :: e.old.map fun x => one x.2)

/-- A strip fed by a host queue plays a block (R266): Underruns counts, and 0x4040 marks where an underrun begins, of the queue
it is now fed by. -/
def Dev.playQueue (d : Dev) (m s q : Nat) : List Int × Dev :=
  let (left, l, gone) := playBlock (d.sampleStamp m) 32 0 ((kvGet d.mix.play (playKey s q)).getD [])
  let d := d.onMix fun x => { x with
    play := if left = [] then kvDel x.play (playKey s q) else kvPut x.play (playKey s q) left }
  if d.reg (Ob.stripSourceKind s) ≠ 2 ∨ d.nat (Ob.stripSourceSelect s) ≠ q then (l.map ofI32, d)
  else
    let was := d.mix.under.contains s
    let d := d.onMix fun x => { x with
      under := if gone = 0 then (x.under.filter fun y => y != s) else if was then x.under else s :: x.under }
    let d := d.when (decide (0 < gone)) fun d => d.bumpBy (Ob.stripUnderruns s) gone
    (l.map ofI32, d.when (decide (0 < gone) && !was) fun d => d.event { code := 0x4040, island := Isl.mix, d1 := s })

/-- A strip takes a block of each of its sources: by kind and number, 32 samples each. -/
def Dev.takeSources (d : Dev) (m n0 : Nat) (b : DomIn) (s : Nat) (got : Assoc (List Int)) : Assoc (List Int) × Dev :=
  (d.sourcesOf s).foldl (fun r x =>
    let key := x.1 * 65536 + x.2
    if (kvGet r.1 key).isSome then r
    else
      let (l, d) := if x.1 = 2 then r.2.playQueue m s x.2 else r.2.sourceBlock m n0 b x.1 x.2
      (kvPut r.1 key l, d)) (got, d)

/-- A strip works on a block (R262), the sources crossfaded where they change (R149). -/
def Dev.stripBlock (d : Dev) (m n0 : Nat) (b : DomIn) (s : Nat) : Dev :=
  let (got, d) := d.takeSources m n0 b s []
  let k := Ob.stripSourceKind s
  let src (n i : Nat) : Int := d.blendAt k n fun g =>
    ((kvGet got ((g k).toNat * 65536 + (g (Ob.stripSourceSelect s)).toNat)).getD []).getD i 0
  d.setSig (0x4400 + s) (overBlock n0 (d.sig (0x4400 + s)) fun n i => d.stripStep (0x4400 + s) n i (src n i))

/-- What a strip sends to bus `b` at sample `i` (R262, Table 2): each send that names it, before or after the fader, by its
level. -/
def Dev.sendsTo (d : Dev) (b n i s : Nat) : List Int :=
  ((List.range 16).filter fun j => d.nat (Ob.stripSendBus s j) == b || d.changing (Ob.stripSendBus s j)).map fun j =>
    let x := d.sig (0x4400 + s)
    let tap := d.blendAt (Ob.stripSendPreFader s) n fun g =>
      (if bit (g (Ob.stripSendPreFader s)).toNat j then x.delayed else x.out).getD (65 - i) 0
    amp (d.blendAt (Ob.stripSendBus s j) n fun g => if (g (Ob.stripSendBus s j)).toNat = b then tap else 0)
      (d.gainAt (Ob.stripSendLevel s j) n gainFx)

/-- A bus works on a block (R262): it sums its sends. -/
def Dev.busBlock (d : Dev) (m n0 b : Nat) : Dev :=
  let strips := d.stripsIn m
  let sum (n i : Nat) : Int := (strips.flatMap fun s => d.sendsTo b n i s).foldl addF32 0
  d.setSig (0x4600 + b) (overBlock n0 (d.sig (0x4600 + b)) fun n i => d.busStep (0x4600 + b) n i (sum n i))

/-- The source of a route at sample `i` of a block, or at the one after it (R263, Table 2). -/
def Dev.routeSource (d : Dev) (r n i : Nat) : Int :=
  let bus (b : Nat) : Int := (d.sig (0x4600 + b)).out.getD (33 - i) 0
  d.blendAt (Ob.routeSourceKind r) n fun g =>
    let sel := (g (Ob.routeSourceSelect r)).toNat
    if g (Ob.routeSourceKind r) = 1 then bus sel
    else if g (Ob.routeSourceKind r) = 2 then (d.sig (0x4400 + sel)).out.getD (65 - i) 0
    else if g (Ob.routeSourceKind r) = 3 then
      (if i = 32 then (d.sig (0x4740 + sel)).line.getD 0 0 else (d.sig (0x4740 + sel)).out.getD (31 - i) 0)
    else if g (Ob.routeSourceKind r) = 4 then
      ((List.range 8).map fun j =>
        amp (d.blendAt (Ob.routeMatrixBus r j) n fun g =>
            if g (Ob.routeMatrixBus r j) = 0xFF then 0 else bus (g (Ob.routeMatrixBus r j)).toNat)
          (d.gainAt (Ob.routeMatrixLevel r j) n gainFx)).foldl addF32 0
    else 0

/-- A sample through a route's limiter, with the next one in view (R263): it passes while neither goes beyond the threshold and
the limiter is at rest; else it is a free value within the threshold, until the limiter, by a free value, is at rest again. -/
def Dev.limitStep (d : Dev) (r n i : Nat) (x next : Int) (hot : Bool) : Int × Bool :=
  let top : Int := gainFx (d.valueAt (Ob.routeLimitThreshold r) n) * 2 ^ 85
  let beyond (v : Int) : Bool := decide (top < v.natAbs)
  if beyond x || beyond next || (hot && Config.mixGain d.fresh (0x4700 + r) i % 2 == 0) then
    (clampInt (-top) top (d.openSample (0x4700 + r) i), true)
  else (x, false)

/-- A route works on a block (R263): gain, delay, limiter and mute, and the ramp after MIX's return (R276). -/
def Dev.routeSignal (d : Dev) (r n0 : Nat) : Sig :=
  let s := d.sig (0x4700 + r)
  let z := (List.range 33).map fun i => amp (d.routeSource r (n0 + i) i) (d.gainAt (Ob.routeGain r) (n0 + i) gainFx)
  let line := z.reverse ++ s.line
  let delayed (i : Nat) : Int := d.blendAt (Ob.routeDelay r) (n0 + i) fun g => line.getD (32 - i + (g (Ob.routeDelay r)).toNat) 0
  let end_ := (List.range 32).foldl (fun (a : List Int × Bool) i =>
    let (x, hot) := d.limitStep r (n0 + i) i (delayed i) (delayed (i + 1)) a.2
    (amp (amp x (d.gainAt (Ob.routeMute r) (n0 + i) mutes)) (d.gainFrom (Ob.routeState r) (n0 + i) 1 passes) :: a.1, hot))
    ([], s.hot)
  { line := (line.drop 1).take 4801, out := end_.1, hot := end_.2, peak := end_.1.foldl (fun m x => Nat.max m x.natAbs) 0 }

/-- The head and samples of a block a host-queue route emits (R267). -/
def hostBlock (stamp : Nat) (samples : List Int) : Bytes :=
  leBytes 6 stamp ++ leBytes 2 32 ++ leBytes 1 1 ++ leBytes 7 0 ++ samples.flatMap fun v => leBytes 4 (unsigned 32 v)

/-- The I32 samples of a route's last block, oldest first, before saturation (R259). -/
def Dev.routeRaw (d : Dev) (r : Nat) : List Int := (d.sig (0x4700 + r)).out.reverse.map toI32

/-- An output route gives a block (R259, R263, R267): samples that saturate count in Clips, and a host-queue route emits
its item. -/
def Dev.routeBlock (d : Dev) (m n0 r stamp : Nat) : Dev :=
  let d := d.setSig (0x4700 + r) (d.routeSignal r n0)
  let raw := d.routeRaw r
  let clips := (raw.filter fun v => sat32 v != v).length
  let d := d.when (decide (0 < clips)) fun d => (d.bumpBy (Ob.routeClips r) clips).event
    { code := 0x4042, island := Isl.mix, d1 := r, d2 := clips }
  if d.reg (Ob.routeDestKind r) = 3 then
    let span := d.domSpan m 33
    d.emitItem (d.nat (Ob.routeDestSelect r)) { subject := stamp, srcKind := 5, srcNum := r, seq := d.seqOf 5 r, producer := Isl.mix }
      (hostBlock stamp (raw.map sat32)) (decide (span.1 < stampDiff d.now stamp * span.2))
  else d

/-- The routes of domain `m` that run. -/
def Dev.routesIn (d : Dev) (m : Nat) : List Nat :=
  (List.range 64).filter fun r => d.routeStateNow r == 1 && (routeDom d.reg r).getD 0 == m

/-- The channel status a biphase transmitter sends (R254): TxChannelStatus, byte 23 of AES3 computed as CRCC. -/
def Dev.txStatus (d : Dev) (p : Nat) : Bytes :=
  let status := (d.blob (Ob.portTxChannelStatus p) ++ List.replicate 24 0).take 24
  if d.reg (Ob.portStandard p) = 0 then status.take 23 ++ leBytes 1 (crcc (status.take 23)) else status

/-- The channel status and user bits a biphase transmitter sends with 32 frames (R254): the part of TxChannelStatus, on both
subframes, and of TxUserData that these frames of the block of 192 carry (log 160), the validity bit clear. -/
def Dev.sendBiphase (d : Dev) (p : Nat) : Dev :=
  let part := (d.port p).bip % 6
  (d.send (.biphase p (((d.txStatus p).drop (4 * part)).take 4)
    (((d.blob (Ob.portTxUserData p) ++ List.replicate 48 0).drop (8 * part)).take 8) false)).onPort p fun r => { r with bip := (part + 1) % 6 }

/-- What a running output of a serial or biphase port takes from domain `m` (R263, R276): zero where no route feeds a channel or
MIX does not run; behind a bridge a free value. A biphase port sends its channel status and user bits with them. -/
def Dev.sendAudio (d : Dev) (m : Nat) : Dev :=
  let ports := (List.range 12).filter fun p =>
    d.flag (Ob.portEnable p) && d.hasOutput p && d.nat (Ob.portDomain p) == m && d.reg (Ob.portOutputStatus p) == 2
  let chan (d : Dev) (p c : Nat) : List Int :=
    match (if d.isl Isl.mix = 0 then d.routeTo p c else none) with
    | some r => if (routeDom d.reg r).getD 0 = m then (d.routeRaw r).map sat32
        else (d.bridged (d.routeStateNow r == 1) (0x50000 + r)).map fun x => sat32 (toI32 x)
    | none => List.replicate 32 0
  d.each ports fun d p => (d.send (.audio p [chan d p 0, chan d p 1])).when (decide (8 ≤ p)) fun d => d.sendBiphase p

/-- The port samples of a block have been used: what the next block finds missing or BAD comes after. -/
def Dev.portsHeard (d : Dev) (m : Nat) : Dev :=
  d.each ((List.range 32).filter fun p => d.nat (Ob.portDomain p) == m && ((d.port p).gone || (d.port p).spoilt)) fun d p =>
    d.onPort p fun r => { r with gone := false, spoilt := false }

/-- What the block has used up is left out: changes that are complete, generators that have ended, and signals of units that
no longer work in the domain. -/
def Dev.mixTidy (d : Dev) (m n0 : Nat) : Dev :=
  let d := d.each (List.range 4) fun d k =>
    if d.nat (Ob.voiceDomain k) = m && (d.voice k).done then d.setVoice k {} else d
  let tone (k : Nat) : Bool := d.nat (Ob.toneDomain k) == m && !d.flag (Ob.toneEnable k) && !d.changing (Ob.toneEnable k)
  let idle (idx : Nat) : Bool :=
    (decide (0x4400 ≤ idx ∧ idx ≤ 0x457F) && d.nat (Ob.stripDomain (idx - 0x4400)) == m && !(d.stripsIn m).contains (idx - 0x4400))
    || (decide (0x4600 ≤ idx ∧ idx ≤ 0x465F) && d.nat (Ob.busDomain (idx - 0x4600)) == m && !(d.busesIn m).contains (idx - 0x4600))
    || (decide (0x4700 ≤ idx ∧ idx ≤ 0x473F) && d.routeStateNow (idx - 0x4700) != 1)
  d.onMix fun x => { x with
    tones := x.tones.filter fun e => !tone e.1,
    sigs := x.sigs.filter fun e => !idle e.1,
    envs := x.envs.filter fun e => e.dom != m || decide (n0 + 32 < e.first + e.len) }

/-- The mix of a block of domain `m` (R262-R267). -/
def Dev.mixBlock (d : Dev) (m : Nat) (b : DomIn) : Dev :=
  let n0 := d.sampleNo m 0
  let d := (d.startVoices m).bfBlock m n0
  let d := d.each (d.stripsIn m) fun d s => d.stripBlock m n0 b s
  let d := d.each (d.busesIn m) fun d x => d.busBlock m n0 x
  let d := d.each (d.routesIn m) fun d r => d.routeBlock m n0 r b.stamp
  (d.portsHeard m).drawn

end Sys2Proof.Machine
end

