-- ==== Sys2Proof/Machine/Analog.lean ====
section
/-! DEFINITION. Analog outputs, read-back and beacon receivers (14_analog_beacon R277-R292). Channels 0-3 are the DACs at
0x4800 + d, 4-11 the PWM outputs at 0x4810 + w. -/
namespace Sys2Proof.Machine

/-- `f` applied to the analog island. -/
def Dev.onAna (d : Dev) (f : Ana → Ana) : Dev := { d with ana := f d.ana }

/-- The index of channel `ch`'s objects. -/
def anaIndex (ch : Nat) : Nat := if ch < 4 then 0x4800 + ch else 0x4810 + (ch - 4)

/-- An object of both kinds of channel, by subindex (Table 3). -/
def anaKey (ch sub : Nat) : Nat := anaIndex ch * 256 + sub

/-- The route that feeds DAC `ch` (R263). -/
def Dev.dacRoute (d : Dev) (ch : Nat) : Option Nat :=
  (List.range 64).find? fun r => d.reg (Ob.routeDestKind r) == 2 && d.nat (Ob.routeDestSelect r) == ch

/-- The domain that feeds DAC `ch` (R278): its route's, domain 0 for a setpoint. -/
def Dev.dacDom (d : Dev) (ch : Nat) : Nat :=
  if d.reg (Ob.dacSource ch) = 1 then 0
  else match d.dacRoute ch with
    | some r => (routeDom d.reg r).getD 0
    | none => 0

/-- The input rate of DAC `ch` (R278). -/
def Dev.dacRate (d : Dev) (ch : Nat) : Nat := d.nat (Ob.domRate (d.dacDom ch))

/-- The currents of DAC_P and DAC_N for a code (R277), in 20 mA / 65,536. -/
def dacCurrents (c : Int) : Int × Int := (32768 + c, 32768 - c)

/-- The high time of carrier period `n` of a PWM output for a setpoint, in ANA cycles (R279): e(n) is what n periods leave of
65,536. -/
def pwmHigh (setpoint n : Nat) : Nat := (setpoint * 10240 + n * (setpoint * 10240) % 65536) / 65536

/-- SYN-DAC recalibrates when a factor or the family changes (R278): each listed rate has its own. -/
def Dev.refreshDac (d : Dev) : Dev :=
  d.each (List.range 4) fun d ch =>
    if (kvGet d.ana.rates ch).getD 48000 = d.dacRate ch then d
    else
      let r := d.dacRate ch
      (d.onAna fun a => { a with rates := if r = 48000 then kvDel a.rates ch else kvPut a.rates ch r }).set (Ob.synthState 3) 1

/-- I32 to 16 bits: to nearest, ties to even, saturated (R277). -/
def code16 (v : Int) : Int :=
  let q := v / 65536
  let r := v % 65536
  clampInt (-32768) 32767 (if r > 32768 ∨ (r = 32768 ∧ q % 2 = 1) then q + 1 else q)

/-- What a channel's pin follows in SETTLING and RUN: the setpoint, or the route's sample, code 0 while none feeds it or MIX
does not run (R277, R287). -/
def Dev.drivenCode (d : Dev) (ch : Nat) : Int :=
  if 4 ≤ ch then d.reg (Ob.pwmSetpoint (ch - 4))
  else if d.reg (Ob.dacSource ch) = 1 then d.reg (Ob.dacSetpoint ch)
  else if d.quiesced Isl.mix || d.reg Ob.powerState == 4 then 0
  else match d.dacRoute ch with
    | some r => code16 (sat32 ((d.routeRaw r).getLast?.getD 0))
    | none => 0

/-- A channel is released: in SETTLING or RUN. -/
def Dev.released (d : Dev) (ch : Nat) : Bool := d.reg (anaState ch) == 1 || d.reg (anaState ch) == 2

/-- The pin of a released channel is driven, but while the checkers are exercised it holds its safe value (R280,
10_cupper_fallback R230). -/
def Dev.driveReleased (d : Dev) (ch : Nat) (code : Int) : Dev :=
  if d.released ch && !d.safe.injecting then d.driveAnalog ch code else d

/-- The pin of a released channel follows its command; others keep their safe value (R280). -/
def Dev.followCode (d : Dev) (ch : Nat) : Dev := d.driveReleased ch (d.drivenCode ch)

/-- The next carrier period start (R279), 12 kHz aligned to the timeline. -/
def Dev.carrierStart (d : Dev) : Nat := ceilDiv ((ceilDiv (d.ext * 12000) 1000000000) * 1000000000) 12000

/-- A channel enters SETTLING at an instant. -/
def Dev.beginSettling (d : Dev) (ch at_ : Nat) : Dev :=
  let d := d.onAna fun a => { a with settleAt := kvPut a.settleAt ch at_, fails := kvDel a.fails ch }
  (d.set (anaState ch) 1).followCode ch

/-- A Start takes effect (R280). -/
def Dev.anaStarts (d : Dev) (ch : Nat) : Dev :=
  if ch < 4 then (d.beginSettling ch d.ext).set (Ob.dacStatus ch) 2 else d.beginSettling ch d.carrierStart

/-- A DAC's start that was held takes effect at the next sample of its mix-rate input (03_timing_unit Table 6). -/
def Dev.dacLocked (d : Dev) (ch : Nat) : Dev :=
  d.onAna fun a => { a with startAt := kvPut a.startAt ch (d.sampleStamp (d.dacDom ch) (d.sampleAt (d.dacDom ch) d.now)) }

/-- A DAC's start waits: for its synthesiser or, that locked, for its next input sample. -/
def Dev.dacWaits (d : Dev) (ch : Nat) : Bool := d.isHeld (.dac ch) || (kvGet d.ana.startAt ch).isSome

/-- A DAC's start that waits is CANCELLED (03_timing_unit R82). -/
def Dev.dacCancel (d : Dev) (ch : Nat) : Dev :=
  ((d.unhold (.dac ch)).onAna fun a => { a with startAt := kvDel a.startAt ch }).set (Ob.dacStatus ch) 4

/-- The codes of a DAC fed by a route, for a block (R277, R287): code 0 while MIX does not run. -/
def Dev.routeCodes (d : Dev) (r : Nat) : List Int :=
  if d.isl Isl.mix = 0 then (d.routeRaw r).map fun v => code16 (sat32 v) else List.replicate 32 0

/-- The DACs take a block of domain `m`: starts that wait for a sample within it begin, those fed by a route follow its codes,
which the read-back windows of the last 12 ms are judged by (R278, R283). -/
def Dev.dacBlock (d : Dev) (m : Nat) : Dev :=
  d.each (List.range 4) fun d ch =>
    if d.dacDom ch ≠ m then d
    else
      let d := match kvGet d.ana.startAt ch with
        | some t =>
          if atOrAfter (d.sampleStamp m 31) t then
            ((d.onAna fun a => { a with startAt := kvDel a.startAt ch }).beginSettling ch (d.extAt t)).set (Ob.dacStatus ch) 2
          else d
        | none => d
      match (if d.reg (Ob.dacSource ch) = 0 then d.dacRoute ch else none) with
      | none => d
      | some r =>
        let codes := d.routeCodes r
        let d := d.each codes fun d c => d.driveReleased ch c
        let new := ((List.range 32).map fun i => (d.extAt (d.sampleStamp m i), codes.getD i 0)).reverse
        let kept := ((kvGet d.ana.codes ch).getD []).filter fun e => decide (d.ago e.1 ≤ 12000000)
        d.onAna fun a => { a with codes := kvPut a.codes ch (new ++ kept) }

/-- DOMAIN_BLOCK (R251, R259-R267): a running domain's block, the mix of it unless MIX does not run (R276), and what its ports
and DACs take of it. -/
def execDomainBlock (dom : Fin 3) (b : DomIn) (s : State) : Host.Outcome State Fault Refusal :=
  onDev (fun d =>
    let m : Nat := dom
    if d.domStateNow m ≠ 2 || d.isl Isl.apt != 0 || !d.ready then d
    else
      let d := d.domainBlock m b.stamp
      let d := d.when (d.isl Isl.mix == 0) fun d => d.mixBlock m b
      let d := (d.sendAudio m).dacBlock m
      d.when (d.isl Isl.mix == 0) fun d => d.mixTidy m (d.sampleNo m 0)) s

/-- The conditions of Start (R280, R286). -/
def anaStartConds (ch : Nat) : Conds :=
  { state := fun d _ _ => needState (d.flag Ob.safeRecordValid && d.reg (anaState ch) == 0 && d.ana.railBad.isEmpty) }

/-- Start (R280): a DAC's is held while SYN-DAC settles (R80). -/
def Dev.startChannel (d : Dev) (ch : Nat) : Dev :=
  if ch < 4 && d.dacWaits ch then d
  else if ch < 4 && d.synBusy 4 then (d.hold 4 (.dac ch)).set (Ob.dacStatus ch) 1
  else d.anaStarts ch

/-- ANALOG_START (R280). -/
def execAnalogStart (hd : Hdr) (cond : Option Nat) (ch : Fin 12) (s : State) : Host.Outcome State Fault Refusal :=
  onDev (fun d => d.writeReq (anaStartConds ch) hd cond (anaIndex ch) (if (ch : Nat) < 4 then 3 else 2) [1]
    fun _ _ d => d.startChannel ch) s

/-- Stop (R280, R82): a held Start is CANCELLED; a released channel goes to SAFE. -/
def Dev.anaStops (d : Dev) (ch : Nat) : Dev :=
  if d.dacWaits ch then d.dacCancel ch else d.anaRest ch 0

/-- ANALOG_STOP (R280). -/
def execAnalogStop (hd : Hdr) (cond : Option Nat) (ch : Fin 12) (s : State) : Host.Outcome State Fault Refusal :=
  onDev (fun d => d.writeReq {} hd cond (anaIndex ch) (if (ch : Nat) < 4 then 4 else 3) [1] fun _ _ d => d.anaStops ch) s

/-- SETTLE_TIME_EXPIRY (R280). -/
def execSettleTimeExpiry (ch : Fin 12) (s : State) : Host.Outcome State Fault Refusal :=
  onDev (fun d =>
    let at_ := (kvGet d.ana.settleAt ch).getD 0
    if d.reg (anaState ch) = 1 && decide (d.nat (anaKey ch 0x10) * 1000000 ≤ d.ago at_) then
      (d.set (anaState ch) 2).onAna fun a => { a with settleAt := kvDel a.settleAt ch, fails := kvDel a.fails ch }
    else d) s

/-- What a DAC tap reads for a settled code (R283). -/
def tapReading (c : Int) : Int := 2048 + roundDiv (c * 2000) 32768

/-- The readings of a DAC fed by a route over the last window, from the codes of the same window 24 input samples earlier (R278,
R283). -/
def Dev.windowReadings (d : Dev) (ch : Nat) : List Int :=
  let w := d.nat Ob.readbackWindow * 1000
  let late := 24000000000 / Nat.max 1 (d.dacRate ch)
  ((kvGet d.ana.codes ch).getD []).filterMap fun e =>
    if (d.ana.winIdx - 1) * w ≤ e.1 + late ∧ e.1 + late < d.ana.winIdx * w then some (tapReading e.2) else none

/-- A mean of numbers whose weights over the window the spec leaves open (log 37): a free value between the least and the
greatest, and any at all of none. -/
def openMean (x : Int) (l : List Int) : Int :=
  match l with
  | [] => x
  | a :: l => clampInt (l.foldl min a) (l.foldl max a) x

/-- The means a window should show on channel `ch` (R283, R284), where it is read back: E1, and E2 for a DAC. -/
def Dev.expected (d : Dev) (ch : Nat) : Option (Int × Option Int) :=
  if ch < 4 then
    if d.reg (Ob.dacSource ch) = 1 then
      let e := tapReading (d.reg (Ob.dacSetpoint ch))
      some (e, some ((e - 2048).natAbs : Int))
    else if d.quiesced Isl.mix || d.reg Ob.powerState == 4 then none
    else
      let e := Config.dacExpect ch d.fresh
      let l := d.windowReadings ch
      some (openMean e.1 l, some (openMean e.2 (l.map fun x => ((x - 2048).natAbs : Int))))
  else
    let w := ch - 4
    if d.reg (Ob.pwmMonInput w) = 0xFF then none
    else some (d.reg (Ob.pwmMonOffset w) + roundDiv (d.reg (Ob.pwmSetpoint w) * d.reg (Ob.pwmMonGain w)) 65536, none)

/-- The monitor input of channel `ch` (R282). -/
def Dev.monInput (d : Dev) (ch : Nat) : Nat := if ch < 4 then ch else 4 + d.nat (Ob.pwmMonInput (ch - 4))

/-- Tolerance of a channel. -/
def Dev.tolerance (d : Dev) (ch : Nat) : Nat := if ch < 4 then d.nat (Ob.dacTolerance ch) else d.nat (Ob.pwmTolerance (ch - 4))

/-- A read-back fault (R285). -/
def Dev.readbackFault (d : Dev) (ch m1 : Nat) : Dev :=
  let d := ((d.analogSafe ch).set (anaState ch) 3).bump (anaKey ch 0x15)
  d.event { code := 0x4050, island := Isl.ana, d1 := ch, d2 := m1 }

/-- A window is judged for a channel in RUN (R283-R285). -/
def Dev.judgeWindow (d : Dev) (means devs : List Nat) (ch : Nat) : Dev :=
  let m1 := means.getD (d.monInput ch) 0
  let m2 := devs.getD (d.monInput ch) 0
  match d.expected ch with
  | none => d
  | some (e1, e2) =>
    let d := d.setN (anaKey ch 0x14) m1
    let far (x e : Int) : Bool := decide ((d.tolerance ch : Int) < ((x - e).natAbs : Int))
    if d.reg (anaState ch) ≠ 2 || d.safe.injecting then d
    else if far m1 e1 || (match e2 with | some e => far m2 e | none => false) then
      let n := (kvGet d.ana.fails ch).getD 0 + 1
      if d.nat (anaKey ch 0x11) ≤ n then (d.onAna fun a => { a with fails := kvDel a.fails ch }).readbackFault ch m1
      else d.onAna fun a => { a with fails := kvPut a.fails ch n }
    else d.onAna fun a => { a with fails := kvDel a.fails ch }

/-- A window of rail input `i` (R286): three out in a row are a rail fault, three within clear it. -/
def Dev.judgeRail (d : Dev) (i : Nat) (ok : Bool) : Dev :=
  let n := (kvGet (if ok then d.ana.railIn else d.ana.railOut) i).getD 0 + 1
  let d := d.onAna fun a => { a with
    railIn := if ok then kvPut a.railIn i (Nat.min n 3) else kvDel a.railIn i,
    railOut := if ok then kvDel a.railOut i else kvPut a.railOut i (Nat.min n 3) }
  if n < 3 then d
  else if ok then d.onAna fun a => { a with railBad := a.railBad.filter fun x => x != i }
  else if d.ana.railBad.contains i then d
  else
    let d := d.onAna fun a => { a with railBad := i :: a.railBad }
    (d.each (List.range 12) fun d ch => d.anaRest ch 0).event { code := 0x4051, island := Isl.ana, d1 := i }

/-- READBACK_WINDOW_END (R282-R286): once for each window of the timeline that has ended. `means` and `devs` are M1 and M2 of
the 16 inputs, `rails` whether each rail, inputs 12-15, lay within ±5 %. -/
def execReadbackWindowEnd (means devs : List Nat) (rails : List Bool) (s : State) : Host.Outcome State Fault Refusal :=
  onDev (fun d =>
    let idx := d.ext / (Nat.max 1 (d.nat Ob.readbackWindow) * 1000)
    if d.quiesced Isl.ana || !d.ready || decide (idx ≤ d.ana.winIdx) then d
    else
      let d := d.onAna fun a => { a with winIdx := idx }
      let d := d.each (List.range 16) fun d i => d.setN (Ob.adcMean i) (means.getD i 0)
      let d := d.each (List.range 12) fun d ch => d.judgeWindow means devs ch
      let d := d.each (List.range 4) fun d i => d.judgeRail (12 + i) (rails.getD i true)
      d.drawn) s

/-- FAULT_CLEAR (R285). -/
def execFaultClear (hd : Hdr) (cond : Option Nat) (ch : Fin 12) (s : State) : Host.Outcome State Fault Refusal :=
  onDev (fun d => d.writeReq { state := fun d _ _ => needState (d.reg (anaState ch) == 3) } hd cond (anaIndex ch) 0x13 [1]
    fun _ _ d => d.set (anaState ch) 0) s

/-- SAFE_VALUE_WRITE (R281): its commit rewrites the record, and RWP_COMMIT_DONE applies it. -/
def execSafeValueWrite (hd : Hdr) (cond : Option Nat) (ch : Fin 12) (v : Bytes) (s : State) :
    Host.Outcome State Fault Refusal :=
  onDev (fun d => d.writeStore {} hd cond (anaIndex ch) (if (ch : Nat) < 4 then 6 else 4) v fun _ _ d => d) s

/-- INJECTION_DONE (10_cupper_fallback R230, R231): in phase INJECT start goes on to SERVICE, where the count of attempts on the
bank returns to 0 (05_start_up R120); after InjectRerun the pair follows the channels again, and so do the pins of analog
channels started meanwhile. -/
def execInjectionDone (detected : Nat) (s : State) : Host.Outcome State Fault Refusal :=
  onDev (fun d =>
    if d.nat Ob.bootPhase = 6 then
      let d := (d.injected detected).toPhase 7
      (d.set (Ob.bankTrialAttempts (d.nat Ob.activeBank)) 0).set Ob.bootAttempts 0
    else if d.safe.injecting then ((d.injected detected).refreshChannels).each (List.range 12) Dev.followCode
    else d) s

/-- A setpoint or the source of its route has changed (Table 1): a channel in RUN that follows it settles again. -/
def Dev.codeChanged (d : Dev) (ch : Nat) : Dev :=
  if d.reg (anaState ch) = 2 then d.beginSettling ch d.ext else d.followCode ch

/-- A channel's Setpoint has changed: a DAC with Source 0 does not follow it. -/
def Dev.setpointChanged (d : Dev) (ch : Nat) : Dev :=
  if ch < 4 && d.reg (Ob.dacSource ch) == 0 then d else d.codeChanged ch

/-- The source of a route has changed: the DAC it feeds settles again. -/
def Dev.routeSourceChanged (d : Dev) (r : Nat) : Dev :=
  let ch := d.nat (Ob.routeDestSelect r)
  if d.reg (Ob.routeDestKind r) = 2 && decide (ch < 4) && d.reg (Ob.dacSource ch) == 0 then d.codeChanged ch else d

/-- ANA is quiesced (R287, R292): channels in SAFE with Status CANCELLED, held starts cancelled, frames in progress
abandoned. -/
def Dev.anaQuiesced (d : Dev) : Dev :=
  let d := d.each (List.range 12) fun d ch => d.anaRest ch 4
  d.each (List.range 4) fun d ch =>
    d.when (d.dacWaits ch) fun d => d.dacCancel ch

/-- Receiver `b`'s CRC-8 over the payload's two bytes (R288). -/
def beaconCrc (payload : Nat) : Nat := ((leBytes 2 payload).reverse).foldl (crc8Byte 0x07) 0

/-- Receiver `b` listens: enabled, ANA not quiesced, service ready. -/
def Dev.beaconOn (d : Dev) (b : Nat) : Bool := d.flag (Ob.beaconEnable b) && !d.quiesced Isl.ana && d.ready

/-- The item of a beacon frame joins the receiver's queue (R289). -/
def Dev.beaconItem (d : Dev) (b start : Nat) (bad : Bool) (data : Bytes) : Dev :=
  d.emitItem (d.nat (Ob.beaconQueue b))
    { subject := start, srcKind := 6, srcNum := b, bad := bad, seq := d.seqOf 6 b, producer := Isl.ana } data false

/-- BEACON_FRAME (R288, R289): 32 bits of a clean frame whose first sync bit began at `start`; carrier amplitude in nA and
ambient in µA. -/
def execBeaconFrame (rcv : Fin 2) (start frame amplitude ambient : Nat) (s : State) : Host.Outcome State Fault Refusal :=
  onDev (fun d =>
    let b : Nat := rcv
    let st := d.reg (Ob.beaconState b)
    let early := match kvGet d.ana.resyncAt b with | some t => decide (d.extAt start < t) | none => false
    if !d.beaconOn b || !(st == 1 || st == 2) || early || bits frame 31 24 ≠ 0xD4 then d
    else
      let payload := bits frame 23 8
      let ok := beaconCrc payload == bits frame 7 0
      let d := (d.setN (Ob.beaconAmbientNow b) (ambient % 65536)).setN (Ob.beaconLastFrameStamp b) start
      let d := (d.set (Ob.beaconState b) 1).handover 5 14 6 b { checkOk := ok, hasCoc := false }
      let d := d.bump (if ok then Ob.beaconFramesGood b else Ob.beaconFramesBad b)
      let d := d.when (!ok) fun d => d.event { code := 0x30A3, island := Isl.ana, iface := 14, d1 := b }
      if d.reg (Ob.beaconQueue b) = 0xFFFF || (!ok && d.reg (Ob.beaconBadPolicy b) == 0) then d
      else d.beaconItem b start (!ok) (leBytes 6 start ++ leBytes 1 b ++ leBytes 1 (!ok).toNat
        ++ (leBytes 2 payload).reverse ++ leBytes 1 (bits frame 7 0) ++ leBytes 1 0 ++ leBytes 2 amplitude ++ leBytes 2 ambient)) s

/-- BEACON_FLOOD (R290): its onset, and whether a frame was in progress. -/
def execBeaconFlood (rcv : Fin 2) (onset ambient : Nat) (inFrame : Bool) (s : State) : Host.Outcome State Fault Refusal :=
  onDev (fun d =>
    let b : Nat := rcv
    let st := d.reg (Ob.beaconState b)
    if !d.beaconOn b || st == 3 then d
    else
      let cut := inFrame && (st == 1 || st == 2)
      let d := (d.setN (Ob.beaconAmbientNow b) (ambient % 65536)).set (Ob.beaconState b) 3
      let d := d.when cut fun d => d.bump (Ob.beaconFloodAborts b)
      d.event { code := 0x30A0, island := Isl.ana, iface := 14, d1 := b, d2 := cut.toNat, at_ := some onset }) s

/-- Receiver `b` counts clean bit periods from now, in RESYNC (R291). -/
def Dev.beaconClean (d : Dev) (b : Nat) : Dev :=
  (d.set (Ob.beaconState b) 4).onAna fun a => { a with cleanFrom := kvPut a.cleanFrom b d.ext }

/-- BEACON_FLOOD_END (R291): the receiver resynchronises. -/
def execBeaconFloodEnd (rcv : Fin 2) (s : State) : Host.Outcome State Fault Refusal :=
  onDev (fun d =>
    let b : Nat := rcv
    if d.beaconOn b && d.reg (Ob.beaconState b) == 3 then
      (d.beaconClean b).event { code := 0x30A1, island := Isl.ana, iface := 14, d1 := b }
    else d) s

/-- BEACON_VIOLATION (R291): in a frame it abandons the frame; outside one it asks for resynchronisation alone, whose count of
clean bit periods it begins again. -/
def execBeaconViolation (rcv : Fin 2) (inFrame : Bool) (s : State) : Host.Outcome State Fault Refusal :=
  onDev (fun d =>
    let b : Nat := rcv
    let st := d.reg (Ob.beaconState b)
    if !d.beaconOn b || !(st == 1 || st == 2 || st == 4) then d
    else
      let d := d.beaconClean b
      d.when (inFrame && st != 4) fun d => (d.bump (Ob.beaconViolationAborts b)).event
        { code := 0x30A2, island := Isl.ana, iface := 14, d1 := b }) s

/-- BEACON_RESYNC (R291): eight clean bit periods of 250 µs have passed. -/
def execBeaconResync (rcv : Fin 2) (s : State) : Host.Outcome State Fault Refusal :=
  onDev (fun d =>
    let b : Nat := rcv
    if d.beaconOn b && d.reg (Ob.beaconState b) == 4
        && decide (2000000 ≤ d.ago ((kvGet d.ana.cleanFrom b).getD 0)) then
      (d.set (Ob.beaconState b) 1).onAna fun a => { a with resyncAt := kvPut a.resyncAt b d.ext }
    else d) s

/-- Enable of a beacon receiver has changed, or ANA or service has come up: enabled, it hunts for a sync byte that begins from now
on (R292). -/
def Dev.beaconWritten (d : Dev) (b : Nat) : Dev :=
  (d.set (Ob.beaconState b) (if d.flag (Ob.beaconEnable b) then 1 else 0)).onAna fun a => { a with resyncAt := kvPut a.resyncAt b d.ext }

/-- State conditions of plain writes to 0x4800-0x49FF (R292, Table 3). -/
def Dev.anaWritable (d : Dev) (k : Nat) : Bool :=
  let idx := k / 256
  let sub := k % 256
  if 0x4800 ≤ idx ∧ idx ≤ 0x4803 then sub != 1 || d.reg (anaState (idx - 0x4800)) == 0
  else if k = Ob.readbackWindow then (List.range 12).all fun ch => d.reg (anaState ch) == 0
  else if 0x4900 ≤ idx ∧ idx ≤ 0x4901 then sub == 1 || !d.flag (Ob.beaconEnable (idx - 0x4900))
  else true

end Sys2Proof.Machine
end

