-- ==== Sys2Proof/Machine/Queues.lean ====
section
/-! DEFINITION. Queues, their rings and BAR0 and BAR2 (15_hosts_queues). -/
namespace Sys2Proof.Machine

/-- The handover point a queue's record crosses (R306): a DRAM ring for a spill queue, a carafe cell otherwise. -/
def Dev.recordPoint (d : Dev) (q : Nat) : Nat := if d.isSpill q then 7 else 8

/-- ITEM_ENQUEUE (R307): an item arrives at queue `q`; `found` is what the write of its cells found. A slot's item that this
marks BAD or UNPROVEN meets its slot's policy (07_sensor_ingest R180). -/
def execItemEnqueue (q : Fin 4096) (it : Item) (found : Found) (s : State) : Host.Outcome State Fault Refusal :=
  onDev (fun d =>
    let point := if it.payKind = 1 then 8 else d.recordPoint q
    match (d.handover point 15 it.srcKind it.srcNum found).slotPolicy (it.flag found.outcome) with
    | (none, d) => d
    | (some it, d) => (d.absentDrop it).enqueue q it) s

/-- Base of the ring of queue `q` in its window (section 5; R298 for a Virek peer). -/
def Dev.ringBase (d : Dev) (p q : Nat) : Nat :=
  d.nat (Ob.partWindowBase p (d.qreg Ob.qRingWindow q)) + d.qreg Ob.qRingOffset q

/-- Address of slot `i`: after the index block in a Virek peer's ring (R298). -/
def Dev.slotAddr (d : Dev) (p q i : Nat) : Nat :=
  d.ringBase p q
    + (i % d.qreg Ob.qRingSlots q + (decide (d.nat (Ob.partAttachKind p) = 1)).toNat) * d.qreg Ob.qSlotSize q

/-- The partition a queue's ring serves: its owner, enabled, attached by PCIe or as a Virek peer (R297, R304). -/
def Dev.ringOwner (d : Dev) (q role : Nat) : Option Nat :=
  if d.quiesced Isl.qmg || d.qreg Ob.qEnable q = 0 || d.qreg Ob.qRole q ≠ role then none
  else match d.queueOwner q with
    | none => none
    | some p =>
      if !d.flag (Ob.partEnable p) || d.nat (Ob.partAttachKind p) = 2 then none
      else if d.nat (Ob.partAttachKind p) = 0 && d.quiesced Isl.pci then none
      else some p

/-- The device writes what it advances into a Virek peer's index block, with DEPTH and STATE (R298): `off` is 0 for PROD, 4
for CONS. -/
def Dev.indexBlock (d : Dev) (p q off v : Nat) : Dev :=
  if d.nat (Ob.partAttachKind p) ≠ 1 then d
  else (d.memWrite (d.ringBase p q + off) (leBytes 4 v)).memWrite (d.ringBase p q + 8)
    (leBytes 4 (d.qreg Ob.qDepth q) ++ leBytes 4 (d.queueState q))

/-- NotifyVector of queue `q` fires (R313): not for a disabled owner (R297). -/
def Dev.notifyVector (d : Dev) (q : Nat) : Dev :=
  match d.queueOwner q with
  | none => d
  | some p =>
    let v := d.qreg Ob.qNotifyVector q
    d.when (d.flag (Ob.partEnable p) && d.nat (Ob.partAttachKind p) == 0 && decide (v < d.vectors p)) fun d => d.send (.msix p v)

/-- The item as it stands in a slot of `room` bytes for payload (R312, R361). -/
def Item.delivered (it : Item) (room : Nat) : Item :=
  let it := { it with volatile := it.volatile || it.payKind == 2 }
  if it.payKind = 1 && decide (room < it.len) then
    { it with data := it.data.take room, len := room, cut := true, payCheck := crc32c (it.data.take room) }
  else it

/-- The device writes an item into a slot of the ring of `q` and advances PROD (R312, R313). -/
def Dev.toSlot (d : Dev) (p q : Nat) (it : Item) : Dev :=
  let r := d.q q
  let bytes := it.record ++ (if it.payKind = 1 then it.data else [])
  let d := if d.nat (Ob.partAttachKind p) = 0 then d.send (.hostWrite p (d.slotAddr p q r.prod) bytes)
    else d.memWrite (d.slotAddr p q r.prod) bytes
  let d := (d.setQ q { r with prod := (r.prod + 1) % 4294967296 }).indexBlock p q 0 ((r.prod + 1) % 4294967296)
  d.when (r.cons == r.prod) fun d => d.notifyVector q

/-- DELIVERY_SLOT_WRITE (R312, R361): the head item moves to slot PROD while the ring has room. `record` and `payload` are
what the reads of its cells found, `dma` what the host DMA found. -/
def execDeliverySlotWrite (q : Fin 4096) (record payload dma : Found) (s : State) : Host.Outcome State Fault Refusal :=
  onDev (fun d =>
    match d.ringOwner q 1 with
    | none => d
    | some p =>
      if d.qreg Ob.qRingSlots q ≤ ring32 (d.q q).prod (d.q q).cons then d
      else match d.dequeue q with
        | none => d
        | some (it, d) =>
          match d.recordCheck (d.recordPoint q) q it record with
          | (none, d) => d
          | (some it, d) =>
            let d := d.when (it.payKind = 1) fun d => d.handover 8 15 it.srcKind it.srcNum payload
            let it := if it.payKind = 1 then it.flag payload.outcome else it
            let d := d.handover 11 4 it.srcKind it.srcNum dma
            d.toSlot p q ((it.flag dma.outcome).delivered (d.qreg Ob.qSlotSize q - 64))) s

/-- The partition whose function writes a queue page, where the write is to be judged (R300, R318). -/
def Dev.barQueue (d : Dev) (fn q off : Nat) (role : Nat) (op : QueueRt → Nat → Dev → Dev) : Dev :=
  match d.barWrite fn (0x100000 + 256 * q + off) with
  | (d, none) => d
  | (d, some p) =>
    if d.quiesced Isl.qmg then d
    else if !(decide (d.nat (Ob.partQueueFirst p) ≤ q) && decide (q < d.nat (Ob.partQueueFirst p) + d.nat (Ob.partQueueCount p)))
    then d.barViolation fn p (0x100000 + 256 * q + off)
    else if d.qreg Ob.qRole q ≠ role then d
    else op (d.q q) p d

/-- A host index write may stand (R300): CONS not past PROD and neither backwards; PROD not more than the ring ahead. -/
def consOk (r : QueueRt) (v : Nat) : Bool := decide (ring32 v r.cons ≤ ring32 r.prod r.cons)

/-- As `consOk`, for PROD of a submission ring of `slots` slots. -/
def prodOk (r : QueueRt) (slots v : Nat) : Bool :=
  decide (ring32 v r.cons ≤ slots) && decide (ring32 r.prod r.cons ≤ ring32 v r.cons)

/-- DELIVERY_CONS_WRITE (R300, R312): function `fn` writes CONS of queue `q`. -/
def execDeliveryConsWrite (fn : Fin 4) (q : Fin 4096) (v : Nat) (s : State) : Host.Outcome State Fault Refusal :=
  onDev (fun d => d.barQueue fn q 4 1 fun r p d =>
    if consOk r (v % 4294967296) then d.setQ q { r with cons := v % 4294967296 }
    else d.barViolation fn p (0x100000 + 256 * q + 4)) s

/-- SUBMISSION_DOORBELL (R300, R314): function `fn` writes PROD of queue `q`. -/
def execSubmissionDoorbell (fn : Fin 4) (q : Fin 4096) (v : Nat) (s : State) : Host.Outcome State Fault Refusal :=
  onDev (fun d => d.barQueue fn q 0 2 fun r p d =>
    if prodOk r (d.qreg Ob.qRingSlots q) (v % 4294967296) then d.setQ q { r with prod := v % 4294967296 }
    else d.barViolation fn p (0x100000 + 256 * q)) s

/-- The item a submission slot spells (Table 4, R310, R314): the host's fields, and those the device sets. -/
def slotItem (slot : Bytes) (p now : Nat) : Item :=
  let kind := leAt slot 23 1
  let len := leAt slot 28 4
  { subject := if leAt slot 0 6 = 0 then now else leAt slot 0 6, aux := leAt slot 12 6, srcKind := 0, srcNum := p,
    prio := leAt slot 22 1 % 8, payKind := kind, seq := leAt slot 24 4, len := len,
    data := if kind = 0 then (slot.drop 32).take len else if kind = 1 then (slot.drop 64).take len else [],
    addr := leAt slot 32 8, payCheck := if kind = 0 then 0 else leAt slot 48 4, hostTag := leAt slot 52 4,
    producer := 0x80 + p }

/-- What verifying a check of a slot over `data` finds: the stored check at `at_` and its check-of-check at `coc`. -/
def slotCheck (slot data : Bytes) (at_ coc : Nat) : Found :=
  { checkOk := crc32c data == leAt slot at_ 4, cocOk := checkOfCheck (leAt slot at_ 4) == leAt slot coc 1 }

/-- A slot that R315 discards. -/
def Dev.slotBad (d : Dev) (p q : Nat) (slot : Bytes) : Bool :=
  let kind := leAt slot 23 1
  let len := leAt slot 28 4
  decide (3 ≤ kind) || (kind == 0 && decide (16 < len)) || (kind == 1 && decide (d.qreg Ob.qSlotSize q - 64 < len))
    || (kind == 2 && !d.inDramWindow p (leAt slot 32 8) len [4])

/-- SUBMISSION_FETCH (R314, R315): slot CONS of queue `q` is fetched. `slot` is what stands in a PCIe host's slot; a Virek
peer's is read from DRAM. `dram` is what the DRAM reads found. Not fetched for a quarantined partition (18_integrity
Table 6) or while the queue has no room for the item (R307). -/
def execSubmissionFetch (q : Fin 4096) (slot : Bytes) (dram : Found) (s : State) : Host.Outcome State Fault Refusal :=
  onDev (fun d =>
    match d.ringOwner q 2 with
    | none => d
    | some p =>
      let r := d.q q
      if r.prod = r.cons || d.quarantinedId (partnerId 1 p) then d
      else
        let viaDram := decide (d.nat (Ob.partAttachKind p) = 1)
        let slot := (if viaDram then memRead d.mem (d.slotAddr p q r.cons) (d.qreg Ob.qSlotSize q) else slot)
        let it := slotItem slot p (d.stampIn Isl.qmg)
        if !d.slotBad p q slot && d.fullFor q r.items it then d
        else
          let cons := (r.cons + 1) % 4294967296
          let d := d.setQ q { r with cons := cons }
          if d.slotBad p q slot then
            (d.violate (.fixed (partnerId 1 p)) fun _ =>
              { code := 0x0122, island := Isl.qmg, iface := 4, d1 := q, d2 := r.cons }).indexBlock p q 4 cons
          else
            let point := if viaDram then 7 else 11
            let iface := if viaDram then 15 else 4
            let rec_ := slotCheck slot (slot.take 56) 56 61
            let pay := (if it.payKind = 1 then slotCheck slot it.data 48 60
              else if it.payKind = 2 then slotCheck slot (memRead d.mem it.addr it.len) 48 60 else {})
            let d := d.handover point iface 0 p rec_
            let d := d.when (decide (it.payKind ≠ 0)) fun d => d.handover point iface 0 p pay
            let it := (it.flag rec_.outcome).flag pay.outcome
            let reads := viaDram || it.payKind == 2
            let d := d.when reads fun d => d.handover 7 15 0 p dram
            let it := if reads then it.flag dram.outcome else it
            let it := if it.payKind = 0 then it else
              { it with payCheck := crc32c (if it.payKind = 1 then it.data else memRead d.mem it.addr it.len) }
            (d.enqueue q it).indexBlock p q 4 cons) s

/-- A peer's address: where its connection comes from, else its attachment (R298). -/
def Dev.peerOfPart (d : Dev) (p : Nat) : Who := .peer (d.nat (Ob.partAttachAddress p)) 51730

/-- The device reads the index that a Virek peer advances (R298). A value R300 would refuse is ignored, and counts once as
a violation of the peer. -/
def Dev.pollRing (d : Dev) (q : Nat) : Dev :=
  let role := d.qreg Ob.qRole q
  match d.ringOwner q role with
  | none => d
  | some p =>
    if d.nat (Ob.partAttachKind p) ≠ 1 || role = 0 then d
    else
      let r := d.q q
      let v := leNat (memRead d.mem (d.ringBase p q + (if role = 1 then 4 else 0)) 4)
      let ok := if role = 1 then consOk r v else prodOk r (d.qreg Ob.qRingSlots q) v
      if ok then d.setQ q (if role = 1 then { r with cons := v, peerIdx := v } else { r with prod := v, peerIdx := v })
      else if v = r.peerIdx then d
      else (d.setQ q { r with peerIdx := v }).violate (d.peerOfPart p) fun _ =>
        { code := 0x0124, island := Isl.qmg, iface := 4, d1 := p, d2 := d.ringBase p q }

/-- VIREK_RING_POLL (R298). -/
def execVirekRingPoll (q : Fin 4096) (s : State) : Host.Outcome State Fault Refusal := onDev (fun d => d.pollRing q) s

/-- STALE_TIME_EXPIRY (R316, R317, R313): the queue has held items for StaleTime without a read. -/
def execStaleTimeExpiry (q : Fin 4096) (s : State) : Host.Outcome State Fault Refusal :=
  onDev (fun d =>
    let r := d.q q
    let t := d.qreg Ob.qStaleTime q
    if d.quiesced Isl.qmg || t = 0 || r.items.isEmpty || r.stale || decide (d.ago r.since < t * 1000) then d
    else
      let d := (d.setQ q { r with stale := true }).bump (inst Ob.qStaleNotices q)
      let d := d.refreshQ q
      let ev : Ev := { code := 0x0120, island := Isl.qmg, d1 := (q : Nat), d2 := r.items.length }
      let it := eventItem d ev
      let d := d.event ev
      let d := match d.queueOwner q with
        | some p => d.when (!bit (d.nat (Ob.partEventRanges p)) 0) fun d => d.postEvent p it
        | none => d
      d.notifyVector q) s

/-- Bytes a spill queue's rings take (R306). -/
def Dev.spillBytes (d : Dev) (q : Nat) : Nat := 8 * d.qreg Ob.qRingEntries q * 64

/-- The ring of queue `q` of partition `p` lies where R304 and R298 ask. -/
def Dev.ringPlaced (d : Dev) (p q : Nat) : Bool :=
  let kind := d.nat (Ob.partAttachKind p)
  let w := d.qreg Ob.qRingWindow q
  let size := d.qreg Ob.qSlotSize q
  let slots := d.qreg Ob.qRingSlots q + (decide (kind = 1)).toNat
  decide (kind ≠ 2) && decide (d.nat (Ob.partWindowKind p w) % 4 = (if kind = 0 then 1 else 2))
    && d.qreg Ob.qRingOffset q % size == 0
    && decide (d.qreg Ob.qRingOffset q + slots * size ≤ d.nat (Ob.partWindowLength p w))

/-- Enable 1 may be written (R304, R306, R298). -/
def Dev.enableOk (d : Dev) (q : Nat) : Bool :=
  let role := d.qreg Ob.qRole q
  let ring := (match d.queueOwner q with
    | none => decide (role = 0)
    | some p => decide (role = 0)
        || (d.ringPlaced p q && (d.reg (Ob.partAttachKind p) == 0 || d.qreg Ob.qNotifyVector q == 0xFFFF)))
  ring && (!d.isSpill q || decide (d.spillBytes q ≤ d.nat Ob.spillAreaFree))

/-- Conditions of a write of Enable (R304): 1 on a disabled queue is checked. -/
def queueEnableConds : Conds :=
  { range := fun d se n =>
      let q := d.selQueue se.id
      needRange (n == 0 || d.qreg Ob.qEnable q == 1 || d.enableOk q) }

/-- Queue `q` becomes enabled: a spill queue takes its rings (R306). -/
def Dev.queueOn (d : Dev) (q : Nat) : Dev :=
  if d.qreg Ob.qEnable q = 1 then d
  else
    let d := (d.set (inst Ob.qEnable q) 1).bump Ob.queuesEnabled
    (d.when (d.isSpill q) fun d => d.setN Ob.spillAreaFree (d.nat Ob.spillAreaFree - d.spillBytes q)).refreshQ q

/-- Every item queue `q` holds is discarded and counted in Dropped (R308, R318); answers how many. -/
def Dev.discardItems (d : Dev) (q : Nat) : Nat × Dev :=
  let items := (d.q q).items
  (items.length, (d.each items fun d it => (d.unqueue q it).countDrop q it).refreshQ q)

/-- Queue `q` becomes disabled (R308). -/
def Dev.queueOff (d : Dev) (q : Nat) : Dev :=
  if d.qreg Ob.qEnable q = 0 then d
  else
    let d := (d.discardItems q).2
    let d := (d.set (inst Ob.qEnable q) 0).drop Ob.queuesEnabled
    let d := d.when (d.isSpill q) fun d => d.setN Ob.spillAreaFree (d.nat Ob.spillAreaFree + d.spillBytes q)
    (d.setQ q { d.q q with stale := false }).refreshQ q

/-- QUEUE_ENABLE (R304, R306): Enable 1 on the session's selected queue. -/
def execQueueEnable (hd : Hdr) (cond : Option Nat) (s : State) : Host.Outcome State Fault Refusal :=
  onDev (fun d => d.writeReq queueEnableConds hd cond 0x5002 2 [1] fun se _ d => d.queueOn (d.selQueue se.id)) s

/-- QUEUE_DISABLE (R308): Enable 0 on the session's selected queue. -/
def execQueueDisable (hd : Hdr) (cond : Option Nat) (s : State) : Host.Outcome State Fault Refusal :=
  onDev (fun d => d.writeReq queueEnableConds hd cond 0x5002 2 [0] fun se _ d => d.queueOff (d.selQueue se.id)) s

/-- Every item of some queues is discarded: the total, and the device after it. -/
def Dev.discardAll (d : Dev) : List Nat → Nat × Dev
  | [] => (0, d)
  | q :: l => ((d.discardItems q).1 + ((d.discardItems q).2.discardAll l).1, ((d.discardItems q).2.discardAll l).2)

/-- QMG returns (R318): every held item is discarded, counted, and logged once with the total. -/
def Dev.qmgReturns (d : Dev) : Dev :=
  let r := d.discardAll (d.queues.map Prod.fst)
  r.2.event { code := 0x0125, island := Isl.qmg, d1 := r.1 }

/-- The mailbox of a partition. -/
def Dev.mailbox (d : Dev) (p : Nat) : Mailbox := (kvGet d.mbox p).getD {}

/-- Answers held for a full ring go out while slots are free (R303). -/
def Dev.releaseAnswers (d : Dev) (p : Nat) : Dev :=
  let m := d.mailbox p
  let n := m.slots - ring32 m.ansProd m.ansCons
  let go := m.held.take n
  let m := { m with held := m.held.drop n, ansProd := (m.ansProd + go.length) % 4294967296 }
  let d := { d with mbox := kvPut d.mbox p m }
  d.each go fun d o => (d.send o).send (.msix p 0)

/-- A write of the mailbox page at offset `off` (Table 1): the ring bases, the slot count, REQ_PROD and ANS_CONS. The
request frames that REQ_PROD uncovers follow as commands (log 39). -/
def Dev.mailboxWrite (d : Dev) (p off v : Nat) : Dev :=
  let m := d.mailbox p
  let put (m : Mailbox) : Dev := { d with mbox := kvPut d.mbox p m }
  if off = 0 then put { m with reqBase := v }
  else if off = 8 then put { m with ansBase := v }
  else if off = 0x10 then
    if decide (4 ≤ v) && decide (v ≤ 256) && (v &&& (v - 1)) == 0 then put { m with slots := v } else d
  else if off = 0x18 then
    if ring32 v m.reqCons ≤ m.slots && decide (ring32 m.reqProd m.reqCons ≤ ring32 v m.reqCons) then
      put { m with reqProd := v, reqCons := v }
    else d
  else d

/-- MAILBOX_DOORBELL (R303): function `fn` writes a register of the mailbox page; REQ_PROD at 0x018 is the doorbell. -/
def execMailboxDoorbell (fn : Fin 4) (off : Nat) (v : Nat) (s : State) : Host.Outcome State Fault Refusal :=
  onDev (fun d => match d.barWrite fn (0x1000 + off) with
    | (d, none) => d
    | (d, some p) =>
      let m := d.mailbox p
      let bad := decide (off = 0x18) && !(decide (ring32 v m.reqCons ≤ m.slots)
        && decide (ring32 m.reqProd m.reqCons ≤ ring32 v m.reqCons))
      if bad then d.barViolation fn p (0x1000 + off) else d.mailboxWrite p off v) s

/-- ANS_CONS_WRITE (R303): the host frees answer slots. -/
def execAnsConsWrite (fn : Fin 4) (v : Nat) (s : State) : Host.Outcome State Fault Refusal :=
  onDev (fun d => match d.barWrite fn 0x1024 with
    | (d, none) => d
    | (d, some p) =>
      let m := d.mailbox p
      if ring32 v m.ansCons ≤ ring32 m.ansProd m.ansCons then
        let m := { m with ansCons := v % 4294967296 }
        ({ d with mbox := kvPut d.mbox p m } : Dev).releaseAnswers p
      else d.barViolation fn p 0x1024) s

/-- A queue of partition `p`'s own range. -/
def Dev.ownPage (d : Dev) (p q : Nat) : Bool :=
  decide (d.nat (Ob.partQueueFirst p) ≤ q) && decide (q < d.nat (Ob.partQueueFirst p) + d.nat (Ob.partQueueCount p))

/-- Registers of 64 bits in BAR0 (Tables 1 and 3), by offset of their low half. -/
def wideReg (off : Nat) : Bool :=
  off = 0x1000 || off = 0x1008 || off = 0x2000
    || (decide (0x800000 ≤ off) && ([0, 8, 0x10, 0x20, 0x28] : List Nat).contains (off % 64))

/-- The access is outside the partition's rights (R300). -/
def Dev.barOutside (d : Dev) (p off : Nat) : Bool :=
  if 0x100000 ≤ off ∧ off < 0x200000 then !d.quiesced Isl.qmg && !d.ownPage p ((off - 0x100000) / 256)
  else if 0x800000 ≤ off then !d.quiesced Isl.tmg && !d.fenceRight p ((off - 0x800000) / 64)
  else false

/-- What a read at `off` gives (Tables 1 to 3): a 64-bit register whole. -/
def Dev.barValue (d : Dev) (fn p off : Nat) : Nat :=
  let m := d.mailbox p
  if off = 0 then d.ready.toNat
  else if off = 4 then d.nat Ob.productCode
  else if off = 8 then p
  else if off = 0xC then d.nat Ob.outcome
  else if off = 0x10 then d.nat Ob.bootPhase
  else if off = 0x1000 then m.reqBase
  else if off = 0x1008 then m.ansBase
  else if off = 0x1010 then m.slots
  else if off = 0x1018 then m.reqProd
  else if off = 0x101C then m.reqCons
  else if off = 0x1020 then m.ansProd
  else if off = 0x1024 then m.ansCons
  else if off = 0x2000 then d.now
  else if off = 0x2008 then (kvGet d.barEra fn).getD 0
  else if 0x10000 ≤ off ∧ off < 0x18100 then Config.msixWord d.fresh
  else if 0x100000 ≤ off ∧ off < 0x200000 then
    let q := (off - 0x100000) / 256
    if d.quiesced Isl.qmg then 4294967295
    else if off % 256 = 0 then (d.q q).prod
    else if off % 256 = 4 then (d.q q).cons
    else if off % 256 = 8 then d.qreg Ob.qDepth q
    else if off % 256 = 0xC then d.queueState q % 8
    else 0
  else if 0x800000 ≤ off ∧ off < 0x1000000 then
    let f := (off - 0x800000) / 64
    let x := d.fence f
    if d.quiesced Isl.tmg then 18446744073709551615
    else if off % 64 = 0 then x.value
    else if off % 64 = 0x10 then x.deadline + x.enabled.toNat * 2 ^ 63
    else if off % 64 = 0x20 then (kvGet d.barTarget fn).getD 0
    else if off % 64 = 0x30 then (kvGet d.barHandle fn).getD 0
    else 0
  else 0

/-- The access has a width or alignment that R299 does not allow: `len` bytes at `off`. -/
def barShape (off len : Nat) : Bool :=
  off % 4 == 0 && (len == 4 || (len == 8 && wideReg off))

/-- BAR0_HIGH_LATCH_READ (R299, R300): function `fn` reads 32 bits of BAR0, or with `wide` a 64-bit register at once. The
read of a low half latches the high half for the next read; the read of TimelineNow latches Era. Nothing answers before
PERST# is released (05_start_up R122). -/
def execBar0HighLatchRead (fn : Fin 4) (off : Nat) (wide : Bool) (s : State) : Host.Outcome State Fault Refusal :=
  onDev (fun d =>
    if !d.pins.perst then d
    else match d.partOf (.mailbox fn) with
    | none => d.send (.barRead fn 0)
    | some p =>
      if !d.serving then d.send (.barRead fn 0)
      else if !barShape off (if wide then 8 else 4) || d.barOutside p off then (d.barViolation fn p off).send (.barRead fn 0)
      else
        let v := d.barValue fn p off
        let d := d.when (decide (off = 0x2000)) fun d => { d with barEra := kvPut d.barEra fn d.tl.era }
        if wide then (d.send (.barRead fn v)).drawn
        else if wideReg off then
          ({ d with barLatch := kvPut d.barLatch fn (off, v / 4294967296) }.send (.barRead fn (v % 4294967296))).drawn
        else
          let high := (match kvGet d.barLatch fn with
            | some (lo, h) => if off = lo + 4 && wideReg lo then some h else none
            | none => none)
          ({ d with barLatch := kvDel d.barLatch fn }.send (.barRead fn (high.getD (v % 4294967296)))).drawn) s

/-- BAR0_INVALID_ACCESS (R299, R300): an access of `len` bytes at `off` of a wrong width or alignment, or outside the
partition's rights, is dropped or reads 0, and counts as a violation. -/
def execBar0InvalidAccess (fn : Fin 4) (off len : Nat) (write : Bool) (s : State) : Host.Outcome State Fault Refusal :=
  onDev (fun d =>
    if write then
      match d.barWrite fn off with
      | (d, none) => d
      | (d, some p) => if barShape off len && !d.barOutside p off then d else d.barViolation fn p off
    else if !d.pins.perst then d
    else match d.partOf (.mailbox fn) with
      | none => d.send (.barRead fn 0)
      | some p =>
        if !d.serving then d.send (.barRead fn 0)
        else if barShape off len && !d.barOutside p off then d
        else (d.barViolation fn p off).send (.barRead fn 0)) s

/-- Bytes `a` to `a + len - 1` lie in a grid's buffers or in the solution area of a structure that `p` owns (R301). -/
def Dev.published (d : Dev) (p a len : Nat) : Bool :=
  ((List.range 4).any fun g =>
    let b := Config.gridBase g
    decide (b ≤ a) && decide (a + len ≤ b + 3 * (d.gridCfg g).size))
  || ((List.range 64).any fun s =>
    let b := Config.solutionBase s
    let desc := (d.struct s).desc
    d.nat (Ob.structureOwner s) == p && desc != [] && decide (b ≤ a)
      && decide (a + len ≤ b + 16 + 4 * sdN desc * sdM desc * sdB desc))

/-- BAR2_ACCESS (R301, R360): a read of `len` bytes at `off`, or a write of `w`; `poisoned` says that the read meets a
poisoned unit. -/
def execBar2Access (fn : Fin 4) (off len : Nat) (w : Option Bytes) (poisoned : Bool) (s : State) :
    Host.Outcome State Fault Refusal :=
  onDev (fun d =>
    let ones := List.replicate len (255 : Byte)
    match w with
    | some data =>
      match d.barWrite fn 0 with
      | (d, none) => d
      | (d, some p) =>
        let a := d.nat (Ob.partApertureBase p) + off
        if d.inDramWindow p a data.length [5] then d.memWrite a data else d.barViolation fn p off
    | none =>
      if !d.pins.perst then d
      else match d.partOf (.mailbox fn) with
      | none => d.send (.barBytes fn (List.replicate len 0))
      | some p =>
        if !d.serving then d.send (.barBytes fn (List.replicate len 0))
        else
          let a := d.nat (Ob.partApertureBase p) + off
          if !(d.inDramWindow p a len [4] || d.published p a len) then (d.barViolation fn p off).send (.barBytes fn ones)
          else if poisoned then
            (d.event { code := 0x6008, island := Isl.pci, iface := 4, d1 := 4, d2 := a }).send (.barBytes fn ones)
          else d.send (.barBytes fn (memRead d.mem a len))) s

end Sys2Proof.Machine
end

