-- ==== Sys2Proof/Machine/Virek.lean ====
section
/-! DEFINITION. Virek remote memory access (17_virek). -/
namespace Sys2Proof.Machine

/-- SegmentSize (R336). -/
def Dev.segmentSize (d : Dev) : Nat :=
  (Nat.min (d.nat (Ob.ethMaxFrame 0)) (d.nat (Ob.ethMaxFrame 1)) - 108) / 256 * 256

/-- Signed 32-bit difference of sequence numbers (R346). -/
def psnDiff (a b : Nat) : Int := signed 32 (ring32 a b)

/-- The credit the device advertises (R348). -/
def Dev.rxCredit (d : Dev) (c : Conn) : Nat :=
  d.nat (Ob.vpRxCredit c.part) - (c.pend.map fun w => w.data.length).sum

/-- Payload bytes sent beyond the peer's ACK (R348). -/
def Conn.outstanding (c : Conn) : Nat := (c.sent.map fun s => s.len).sum

/-- Bytes 0 to 47 of a packet (Table 1). -/
def VirekHdr.bytes (h : VirekHdr) (op : Nat) : Bytes :=
  leBytes 1 0x10 ++ leBytes 1 op ++ leBytes 2 h.conn ++ leBytes 4 h.psn ++ leBytes 4 h.ack ++ leBytes 4 h.credit
    ++ leBytes 4 h.key ++ leBytes 8 h.offset ++ leBytes 4 h.length ++ leBytes 4 h.fence ++ leBytes 8 h.value
    ++ leBytes 1 h.status ++ leBytes 1 (h.last.toNat + 2 * h.ackNow.toNat) ++ leBytes 2 h.tag

/-- The fields of a header the device sends on a connection, in the order of Table 1 from byte 1, with the CRC of its bytes
0 to 47 (R335), after the peer's address and port. ACK and credit are
the connection's, and nothing then waits to be acknowledged (R347). -/
def Dev.virekOut (d : Dev) (slot : Nat) (kind : FrameKind) (op : Nat) (s : VirekData) (fence value : Nat) (payload : Bytes)
    (found : Found) : Dev :=
  match d.conn slot with
  | none => d
  | some c =>
    let d := d.onConn slot fun c => { c with ackCount := 0, ackSince := none }
    let h : VirekHdr := { port := 0, srcIp := c.ip, srcPort := c.port, conn := c.id, psn := s.psn, ack := c.rxExp,
                          credit := d.rxCredit c, key := s.key, offset := s.off, length := s.len, fence := fence, value := value, status := s.status, last := s.last, tag := s.tag }
    d.classSend (d.nat (Ob.vpVirekClass c.part)) 13 kind
      [c.ip, c.port, op, c.id, s.psn, c.rxExp, d.rxCredit c, s.key, s.off, s.len, fence, value, s.status, s.last.toNat, s.tag,
       crc32c (h.bytes op)]
      payload found

/-- A packet without PSN or data. -/
def bareData : VirekData := { psn := 0, addr := 0, len := 0, off := 0, key := 0, tag := 0, last := false }

/-- The device sends ACK (R347). -/
def Dev.virekAck (d : Dev) (slot : Nat) : Dev := d.virekOut slot .virekAck 0x20 bareData 0 0 [] {}

/-- The device sends NAK on a connection with a status, the fence field, and the operation's tag (R345). -/
def Dev.virekNak (d : Dev) (slot status fence tag : Nat) : Dev :=
  d.virekOut slot .virekNak 0x21 { bareData with status := status, tag := tag } fence 0 [] {}

/-- A NAK to a sender without a connection leaves by the port its packet came by. -/
def Dev.nakBare (d : Dev) (h : VirekHdr) (status fence : Nat) : Dev :=
  let out : VirekHdr := { port := h.port, srcIp := h.srcIp, srcPort := h.srcPort, conn := h.conn, fence := fence,
                          status := status, tag := h.tag }
  d.ethSend h.port .virekNak
    [h.srcIp, h.srcPort, 0x21, h.conn, 0, 0, 0, 0, 0, 0, fence, 0, status, 0, h.tag, crc32c (out.bytes 0x21)] []

/-- A READ_DATA packet goes out, read from DRAM anew (R347, R360, R362). -/
def Dev.sendData (d : Dev) (slot : Nat) (s : VirekData) : Dev :=
  let d := d.when s.bad fun d => d.event { code := 0x6008, island := Isl.drc, iface := 13, d1 := 13, d2 := s.addr }
  d.virekOut slot .virekReadData 0x11 s 0 0 (memRead d.mem s.addr s.len) { eccData := s.bad }

/-- The next READ_DATA packet of a connection, where one is due. -/
def Dev.nextData (d : Dev) (c : Conn) : Option (VirekData × List VirekRead) :=
  match c.jobs with
  | [] => none
  | j :: js =>
    let n := Nat.min j.left d.segmentSize
    let s : VirekData := { psn := c.txPsn, addr := j.addr, len := n, off := j.off, key := j.key, tag := j.tag,
                           last := decide (j.left ≤ n), bad := j.bad.contains j.idx }
    some (s, if j.left ≤ n then js
      else { j with addr := j.addr + n, off := j.off + n, left := j.left - n, idx := j.idx + 1 } :: js)

/-- A data packet enters the sequence and goes out; the RTO runs from the first outstanding one. To a PEER_QUIESCED peer
nothing but ACKs go out, and the packet follows once it sends again (R341). -/
def Dev.sendNext (d : Dev) (slot : Nat) (s : VirekData) (jobs : List VirekRead) : Dev :=
  let d := d.onConn slot fun c =>
    { c with jobs := jobs, sent := c.sent ++ [s], txPsn := (c.txPsn + 1) % 4294967296, bytesRead := c.bytesRead + s.len,
             rtoAt := if c.sent.isEmpty then d.ext else c.rtoAt }
  match d.conn slot with
  | none => d
  | some c => if c.state = 3 then d else d.sendData slot s

/-- Sends what the granted window and the peer's credit allow (R348). -/
def Dev.pumpData (d : Dev) (slot : Nat) : Nat → Dev
  | 0 => d
  | fuel + 1 =>
    match d.conn slot with
    | none => d
    | some c =>
      if c.state ≠ 1 then d
      else match d.nextData c with
        | none => d
        | some (s, js) =>
          if c.outstanding + s.len ≤ Nat.min c.granted c.credit then (d.sendNext slot s js).pumpData slot fuel else d

/-- The peer's credit is 0 or below the next packet (Table 4). -/
def Dev.creditShort (d : Dev) (c : Conn) : Bool :=
  c.credit == 0 || (match d.nextData c with | none => false | some (s, _) => decide (c.credit < s.len))

/-- After any change: data go out while they may, and the time of insufficient credit starts or ends (Table 4). -/
def Dev.pump (d : Dev) (slot : Nat) : Dev :=
  match d.conn slot with
  | none => d
  | some c =>
    let d := if c.state = 2 && !d.creditShort c then
        (d.onConn slot fun c => { c with state := 1, stallSince := none }).virekEvent c.part
          { code := 0x5A09, island := Isl.eta, iface := 13, d1 := c.id }
      else d
    let d := d.pumpData slot (c.jobs.map fun j => j.left / 256 + 2).sum
    d.onConn slot fun c =>
      if d.creditShort c then { c with stallSince := some (c.stallSince.getD d.ext) } else { c with stallSince := none }

/-- Data not acknowledged go out again from ACK (R347). -/
def Dev.resend (d : Dev) (slot : Nat) : Dev :=
  match d.conn slot with
  | none => d
  | some c =>
    if c.sent.isEmpty then d
    else
      let d := d.onConn slot fun c =>
        { c with retries := c.retries + 1, retrans := (c.retrans + c.sent.length) % 4294967296, rtoAt := d.ext }
      d.each c.sent fun d s => d.sendData slot s

/-- A Virek violation of a peer (R337, Table 3). -/
def Dev.virekViolation (d : Dev) (h : VirekHdr) (op : Nat) : Dev :=
  d.violate (.peer h.srcIp h.srcPort) fun id => { code := 0x5A0A, island := Isl.eta + h.port, iface := 13, d1 := id, d2 := op }

/-- What every packet meets first: a port that is up, ServiceReady (R351), VirekEnable, quarantine (18_integrity Table 6).
The second part says whether it goes on. -/
def Dev.virekIntake (d : Dev) (port srcIp srcPort : Nat) : Dev × Bool :=
  if !d.portUp port then (d, false)
  else if !d.ready then (d.bump Ob.ethBeforeReady, false)
  else
    let d := d.bump (Ob.ethFramesRx port)
    if !d.flag Ob.virekEnable then (d, false)
    else match d.peerId srcIp srcPort with
      | none => (d, true)
      | some id =>
        if d.quarantinedId id then (d.quarantineDrop id, false)
        else (d.onPartner id fun p => { p with lastActive := d.ext }, true)

/-- A packet of a partition's class has arrived (16_network_paths R323). -/
def Dev.virekClassRx (d : Dev) (c : Conn) (port : Nat) : Dev := d.classReceived (d.nat (Ob.vpVirekClass c.part)) port

/-- ACK and credit that every packet carries (R346-R348): acknowledged data are kept no longer, and RTO returns to RtoInitial
when ACK advances. -/
def Dev.takeAck (d : Dev) (slot : Nat) (h : VirekHdr) : Dev :=
  d.onConn slot fun c =>
    let moves := decide (0 < psnDiff h.ack c.txAck) && decide (psnDiff h.ack c.txPsn ≤ 0)
    let c := { c with credit := h.credit, lastRx := d.ext }
    if moves then
      { c with txAck := h.ack, sent := c.sent.filter fun s => decide (0 ≤ psnDiff s.psn h.ack), rto := d.nat Ob.virekRtoInitial,
               rtoAt := d.ext, retries := 0 }
    else c

/-- A packet of opcode `op` reaches its connection (R337, R339): `f` takes it there, after its ACK and credit. A packet from
a PEER_QUIESCED peer other than QUIESCE reopens the connection, and unacknowledged data go out again (R341). -/
def Dev.onVirekPacket (d : Dev) (h : VirekHdr) (op : Nat) (f : Nat → Conn → Dev → Dev) : Dev :=
  match d.virekIntake h.port h.srcIp h.srcPort with
  | (d, false) => d
  | (d, true) =>
    let slot := h.conn % 256
    match d.conn slot with
    | none => (d.bump Ob.virekUnknownConnection).nakBare h 8 0
    | some c =>
      if c.id ≠ h.conn || c.ip ≠ h.srcIp || c.port ≠ h.srcPort then (d.bump Ob.virekUnknownConnection).nakBare h 8 0
      else
        let d := (d.virekClassRx c h.port).takeAck slot h
        let d := if c.state = 3 && op != 4 then (d.onConn slot fun c => { c with state := 1 }).resend slot else d
        let d := match d.conn slot with
          | none => d
          | some c => f slot c d
        let d := d.when h.ackNow fun d => match d.conn slot with
          | some c => d.when (c.ackCount != 0 || decide (0x20 ≤ op)) fun d => d.virekAck slot
          | none => d
        d.pump slot

/-- A packet with a PSN (R346): a duplicate is answered ACK, a later one NAK SEQ once per expected value, the expected one
goes to `f` and is acknowledged at the latest with the AckEvery-th (R347). -/
def Dev.onSequenced (d : Dev) (h : VirekHdr) (op : Nat) (f : Nat → Conn → Dev → Dev) : Dev :=
  d.onVirekPacket h op fun slot c d =>
    let diff := psnDiff h.psn c.rxExp
    if diff < 0 then d.virekAck slot
    else if 0 < diff then
      if c.nakFor = some c.rxExp || c.state = 3 then d
      else (d.onConn slot fun c => { c with nakFor := some c.rxExp }).virekNak slot 1 0 0
    else
      let d := d.onConn slot fun c =>
        { c with rxExp := (c.rxExp + 1) % 4294967296, nakFor := none, ackCount := c.ackCount + 1,
                 ackSince := some (c.ackSince.getD d.ext) }
      let d := f slot c d
      match d.conn slot with
      | some c => d.when (decide (d.nat Ob.virekAckEvery ≤ c.ackCount)) fun d => d.virekAck slot
      | none => d

/-- Base and length of a window (R343). -/
def Dev.winSpan (d : Dev) (w : Nat) : Nat × Nat :=
  let b := d.nat (Ob.winBase w)
  if d.nat (Ob.winKind w) = 0 then (b, d.nat (Ob.winLength w))
  else if d.nat (Ob.winKind w) = 1 then (Config.gridBase b, 3 * (d.gridCfg b).size)
  else (Config.solutionBase b, 16 + 4 * sdN (d.struct b).desc * sdM (d.struct b).desc * sdB (d.struct b).desc)

/-- The registered window of a partition that a key names. -/
def Dev.winOf (d : Dev) (p key : Nat) : Option Nat :=
  (List.range 64).find? fun w =>
    d.reg (Ob.winState w) == 1 && d.nat (Ob.winKey w) == key && d.nat (Ob.winOwner w) == p

/-- A key revoked less than RevokeGrace ago (Table 3). -/
def Dev.inGrace (d : Dev) (key : Nat) : Bool :=
  d.virek.grace.any fun g => g.1 == key && decide (d.ago g.2 < d.nat Ob.virekRevokeGrace * 1000000)

/-- The islands an operation needs, in the order FIO, DRC, TMG (R351). -/
def opIslands (op : Nat) : List Nat :=
  [Isl.fio] ++ (if op = 0x14 then [] else [Isl.drc]) ++ (if op = 0x13 || op = 0x14 then [Isl.tmg] else [])

/-- The rights an operation needs (Table 3 step 2): read, write, or fence, WRITE_FENCE both of the last two. -/
def opRights (op : Nat) : List Nat :=
  if op = 0x10 then [0] else if op = 0x12 then [1] else if op = 0x13 then [1, 2] else [2]

/-- Table 3: the first check that fails is answered, and counted as it says; else the operation runs in its window. -/
def Dev.virekOp (d : Dev) (slot : Nat) (c : Conn) (h : VirekHdr) (op : Nat) (run : Nat → Dev → Dev) : Dev :=
  match d.winOf c.part h.key with
  | none =>
    let ev : Ev := { code := 0x5A07, island := Isl.eta + h.port, iface := 13, d1 := c.id, d2 := h.key }
    let it := eventItem d ev
    (d.when (!d.inGrace h.key) fun d => (d.violate (.peer h.srcIp h.srcPort) fun _ => ev).when
      (!bit (d.nat (Ob.partEventRanges c.part)) 5) fun d => d.postEvent c.part it).virekNak slot 2 0 h.tag
  | some w =>
    let fences := op = 0x13 || op = 0x14
    if !((opRights op).all fun r => bit (d.nat (Ob.winRights w)) r) then (d.virekViolation h op).virekNak slot 4 0 h.tag
    else if (d.winSpan w).2 < h.offset + h.length then (d.virekViolation h op).virekNak slot 3 0 h.tag
    else if fences && !(decide (d.nat (Ob.winFenceFirst w) ≤ h.fence)
        && decide (h.fence < d.nat (Ob.winFenceFirst w) + d.nat (Ob.winFenceCount w))) then
      (d.virekViolation h op).virekNak slot 6 0 h.tag
    else match (opIslands op).find? fun i => d.quiesced i with
      | some i => (d.absentReply i).virekNak slot 5 i h.tag
      | none => run w d

/-- The queues of a partition whose index block a write touches are read (R298 of 15_hosts_queues). -/
def Dev.pollTouched (d : Dev) (p a len : Nat) : Dev :=
  let first := d.nat (Ob.partQueueFirst p)
  d.each (List.range (d.nat (Ob.partQueueCount p))) fun d i =>
    let q := first + i
    d.when (d.qreg Ob.qEnable q == 1 && decide (d.ringBase p q < a + len) && decide (a < d.ringBase p q + 16)) fun d => d.pollRing q

/-- The oldest accepted write of a connection reaches DRAM, and its fence is signalled (R346, R348, R349). -/
def Dev.virekCommit (d : Dev) (slot : Nat) : Dev :=
  match d.conn slot with
  | none => d
  | some c =>
    match c.pend with
    | [] => d
    | w :: ws =>
      if d.quiesced Isl.drc || (w.fence.isSome && d.quiesced Isl.tmg) then d
      else
        let d := (d.onConn slot fun c => { c with pend := ws }).memWrite w.addr w.data
        let d := d.pollTouched c.part w.addr w.data.length
        match w.fence with
        | some (f, v) => d.fenceSignal f v
        | none => d

/-- Every accepted write of a connection reaches DRAM: operations run in PSN order (R346). -/
def Dev.commitAll (d : Dev) (slot : Nat) : Dev :=
  match d.conn slot with
  | none => d
  | some c => d.each c.pend fun d _ => d.virekCommit slot

/-- AES-CMAC over header bytes 0 to 47 and data bytes 0 to 19 of a CONNECT or CONNECT_ACK, its 32 most significant bits
(R338). -/
def connectMac (key : Bytes) (op : Nat) (h : VirekHdr) (data : Bytes) : Bytes :=
  (aesCmac key (h.bytes op ++ data.take 20)).take 4

/-- A CONNECT's partition, source and MAC are good (R338). -/
def Dev.connectAuth (d : Dev) (h : VirekHdr) (data : Bytes) : Bool :=
  let p := leAt data 0 1
  let n := d.nat (Ob.vpVirekPartner p)
  decide (p < 8) && d.flag (Ob.partEnable p) && d.nat (Ob.partAttachKind p) == 1
    && (d.nat (Ob.partAttachAddress p) == h.srcIp || d.nat (Ob.peerIpA n) == h.srcIp || d.nat (Ob.peerIpB n) == h.srcIp)
    && connectMac (d.keyOf p) 1 h data == slice data 20 4

/-- VIREK_CONNECT (R338, R342): the lowest free slot is taken (log 41). -/
def execVirekConnect (h : VirekHdr) (data : Bytes) (s : State) : Host.Outcome State Fault Refusal :=
  onDev (fun d =>
    match d.virekIntake h.port h.srcIp h.srcPort with
    | (d, false) => d
    | (d, true) =>
      if data.length ≠ 24 || h.length ≠ 24 then (d.bump Ob.virekBadPackets).virekViolation h 1
      else if d.quiesced Isl.ctl then (d.absentReply Isl.ctl).nakBare h 5 Isl.ctl
      else if !d.connectAuth h data then (d.virekViolation h 1).nakBare h 7 0
      else
        let p := leAt data 0 1
        let mine := (d.virek.conns.filter fun e => e.2.part == p).length
        match (if mine < d.nat (Ob.vpMaxConnections p) then (List.range 256).find? fun i => (d.conn i).isNone else none) with
        | none => d.nakBare h 9 0
        | some slot =>
          let id := slot + 256 * d.epoch slot
          let granted := Nat.max 65536 (Nat.min (leAt data 4 4) (d.nat (Ob.vpMaxWindow p)))
          let c : Conn := { id := id, part := p, ip := h.srcIp, port := h.srcPort, granted := granted, credit := leAt data 8 4,
                            rto := d.nat Ob.virekRtoInitial, rtoAt := d.ext, lastRx := d.ext, opened := d.now }
          let credit := d.nat (Ob.vpRxCredit p)
          let nd := d.newNonce
          let body := leBytes 2 id ++ leBytes 2 0 ++ leBytes 4 granted ++ leBytes 4 credit ++ nd
          let mac := connectMac (d.keyOf p) 2
            { port := h.port, srcIp := h.srcIp, srcPort := h.srcPort, conn := id, credit := credit, length := 24, tag := h.tag } body
          let d := (d.drawn.onVirek fun v => { v with conns := kvPut v.conns slot c }).bump Ob.virekConnectionsOpen
          let d := d.virekClassRx c h.port
          let d := d.virekOut slot .virekConnectAck 2 { bareData with len := 24, tag := h.tag } 0 0 (body ++ mac) {}
          (d.virekEvent p { code := 0x5A01, island := Isl.ctl, iface := 13, d1 := id, d2 := p }).pump slot) s

/-- The device sends DISCONNECT, which takes a PSN (Table 2). -/
def Dev.sendDisconnect (d : Dev) (slot : Nat) : Dev :=
  match d.conn slot with
  | none => d
  | some c => d.virekOut slot .virekDisconnect 3 { bareData with psn := c.txPsn } 0 0 [] {}

/-- VIREK_DISCONNECT (R340): answered by the device's own, and the connection closes. -/
def execVirekDisconnect (h : VirekHdr) (s : State) : Host.Outcome State Fault Refusal :=
  onDev (fun d => d.onSequenced h 3 fun slot _ d => (d.sendDisconnect slot).closeConn slot .disconnect) s

/-- VIREK_QUIESCE (R341): the hold, in ms in Length, is clamped to QuiesceHoldMax; a further one renews the hold (log 112). -/
def execVirekQuiesce (h : VirekHdr) (s : State) : Host.Outcome State Fault Refusal :=
  onDev (fun d => d.onSequenced h 4 fun slot c d =>
    let hold := Nat.min h.length (d.nat Ob.virekQuiesceHoldMax)
    let d := d.onConn slot fun c => { c with state := 3, until_ := d.ext + hold * 1000000, stallSince := none }
    d.when (c.state != 3) fun d =>
      d.virekEvent c.part { code := 0x5A06, island := Isl.eta + h.port, iface := 13, d1 := c.id, d2 := hold }) s

/-- VIREK_READ (R336, R345): its READ_DATA packets go out as window and credit allow; `bad` lists those that meet poisoned
units (18_integrity R360). -/
def execVirekRead (h : VirekHdr) (bad : List Nat) (s : State) : Host.Outcome State Fault Refusal :=
  onDev (fun d => d.onSequenced h 0x10 fun slot c d => d.virekOp slot c h 0x10 fun w d =>
    ((d.commitAll slot).bump (Ob.winOps w)).onConn slot fun c => { c with jobs := c.jobs ++
      [{ addr := (d.winSpan w).1 + h.offset, left := h.length, off := h.offset, key := h.key, tag := h.tag, bad := bad }] }) s

/-- A WRITE or WRITE_FENCE packet (R337, R345, R346): one whose payload fails the FCS is BAD, and is neither written nor taken
(log 42); one whose data disagree with its length, or are longer than a segment (log 158), is invalid. -/
def Dev.virekWrite (d : Dev) (h : VirekHdr) (op : Nat) (data : Bytes) (found : Found) : Dev :=
  if data.length ≠ h.length || decide (d.segmentSize < data.length) then
    match d.virekIntake h.port h.srcIp h.srcPort with
    | (d, false) => d
    | (d, true) => (d.bump Ob.virekBadPackets).virekViolation h op
  else if found.outcome = .bad || found.outcome = .unproven then
    match d.virekIntake h.port h.srcIp h.srcPort with
    | (d, false) => d
    | (d, true) => (d.countFcs h.port found).handover 1 13 0 h.port found
  else d.onSequenced h op fun slot c d => d.virekOp slot c h op fun w d =>
    let addr := (d.winSpan w).1 + h.offset
    let f := if op = 0x13 && h.last then some (h.fence, h.value) else none
    (d.when h.last fun d => d.bump (Ob.winOps w)).onConn slot fun c =>
      { c with pend := c.pend ++ [{ addr := addr, data := data, fence := f }], bytesWritten := c.bytesWritten + data.length }

/-- VIREK_WRITE (R345, R349). -/
def execVirekWrite (h : VirekHdr) (data : Bytes) (found : Found) (s : State) : Host.Outcome State Fault Refusal :=
  onDev (fun d => d.virekWrite h 0x12 data found) s

/-- VIREK_WRITE_FENCE (R346). -/
def execVirekWriteFence (h : VirekHdr) (data : Bytes) (found : Found) (s : State) : Host.Outcome State Fault Refusal :=
  onDev (fun d => d.virekWrite h 0x13 data found) s

/-- VIREK_FENCE_ADD (R345, 02_timeline R48). -/
def execVirekFenceAdd (h : VirekHdr) (s : State) : Host.Outcome State Fault Refusal :=
  onDev (fun d => d.onSequenced h 0x14 fun slot c d => d.virekOp slot c h 0x14 fun w d =>
    ((d.commitAll slot).fenceAdd h.fence h.value).bump (Ob.winOps w)) s

/-- VIREK_ACK (R347). -/
def execVirekAck (h : VirekHdr) (s : State) : Host.Outcome State Fault Refusal :=
  onDev (fun d => d.onVirekPacket h 0x20 fun _ _ d => d) s

/-- VIREK_NAK (R347): NAK SEQ makes the device retransmit from its ACK. -/
def execVirekNak (h : VirekHdr) (s : State) : Host.Outcome State Fault Refusal :=
  onDev (fun d =>
    let quiet := (match d.conn (h.conn % 256) with | some c => c.state == 3 | none => false)
    d.onVirekPacket h 0x21 fun slot _ d => if h.status = 1 && !quiet then d.resend slot else d) s

/-- VIREK_PING (R348). -/
def execVirekPing (h : VirekHdr) (s : State) : Host.Outcome State Fault Refusal :=
  onDev (fun d => d.onVirekPacket h 0x22 fun _ _ d => d) s

/-- VIREK_PACKET_INVALID (R337): a wrong header CRC, version, opcode or length. -/
def execVirekPacketInvalid (port : Fin 2) (srcIp srcPort opcode : Nat) (s : State) : Host.Outcome State Fault Refusal :=
  onDev (fun d => match d.virekIntake port srcIp srcPort with
    | (d, false) => d
    | (d, true) =>
      (d.bump Ob.virekBadPackets).virekViolation { port := port, srcIp := srcIp, srcPort := srcPort } opcode) s

/-- VIREK_WRITE_COMMITTED (R346, R348). -/
def execVirekWriteCommitted (slot : Fin 256) (s : State) : Host.Outcome State Fault Refusal :=
  onDev (fun d => d.virekCommit slot) s

/-- VIREK_ACK_DELAY_EXPIRY (R347). -/
def execVirekAckDelayExpiry (slot : Fin 256) (s : State) : Host.Outcome State Fault Refusal :=
  onDev (fun d => match (d.conn slot).bind fun c => c.ackSince with
    | none => d
    | some t => d.when (decide (d.nat Ob.virekAckDelay * 1000 ≤ d.ago t)) fun d => d.virekAck slot) s

/-- A connection ends on timeout (Table 4): 0x5A05 with its oldest PSN, then 0x5A02. -/
def Dev.timeoutConn (d : Dev) (slot : Nat) (c : Conn) : Dev :=
  (d.virekEvent c.part { code := 0x5A05, island := Isl.eta, iface := 13, d1 := c.id, d2 := c.txAck }).closeConn slot .timeout

/-- VIREK_RTO_EXPIRY (R347): retransmission from ACK, and RTO doubles; after RetryLimit of them the connection closes. -/
def execVirekRtoExpiry (slot : Fin 256) (s : State) : Host.Outcome State Fault Refusal :=
  onDev (fun d => match d.conn slot with
    | none => d
    | some c =>
      if c.state = 3 || c.sent.isEmpty || decide (d.ago c.rtoAt < c.rto * 1000) then d
      else if d.nat Ob.virekRetryLimit ≤ c.retries then d.timeoutConn slot c
      else (d.resend slot).onConn slot fun c => { c with rto := Nat.min (2 * c.rto) (d.nat Ob.virekRtoMax) }) s

/-- VIREK_PEER_TIMEOUT (Table 4). -/
def execVirekPeerTimeout (slot : Fin 256) (s : State) : Host.Outcome State Fault Refusal :=
  onDev (fun d => match d.conn slot with
    | none => d
    | some c =>
      if c.state = 3 then d
      else if decide (d.nat Ob.virekRetryLimit ≤ c.retries)
          || decide (d.nat Ob.virekPeerTimeout * 1000000 ≤ d.ago c.lastRx) then d.timeoutConn slot c
      else d) s

/-- VIREK_CREDIT_STALL (Table 4). -/
def execVirekCreditStall (slot : Fin 256) (s : State) : Host.Outcome State Fault Refusal :=
  onDev (fun d => match d.conn slot with
    | none => d
    | some c => match c.stallSince with
      | none => d
      | some t =>
        if c.state ≠ 1 || decide (d.ago t < d.nat Ob.virekCreditStallTime * 1000000) then d
        else (d.onConn slot fun c => { c with state := 2, pingAt := d.ext }).virekEvent c.part
          { code := 0x5A08, island := Isl.eta, iface := 13, d1 := c.id }) s

/-- VIREK_STALL_PING (R348). -/
def execVirekStallPing (slot : Fin 256) (s : State) : Host.Outcome State Fault Refusal :=
  onDev (fun d => match d.conn slot with
    | none => d
    | some c =>
      if c.state ≠ 2 || decide (d.ago c.pingAt < 1000000) then d
      else (d.onConn slot fun c => { c with pingAt := d.ext }).virekOut slot .virekPing 0x22 bareData 0 0 [] {}) s

/-- VIREK_QUIESCE_HOLD_EXPIRY (Table 4). -/
def execVirekQuiesceHoldExpiry (slot : Fin 256) (s : State) : Host.Outcome State Fault Refusal :=
  onDev (fun d => match d.conn slot with
    | none => d
    | some c => if c.state = 3 && decide (c.until_ ≤ d.ext) then d.closeConn slot .timeout else d) s

/-- The connection a session has selected. -/
def Dev.selConn (d : Dev) (sid : Nat) : Nat := d.nat (inst Ob.connSelect sid)

/-- Close of an open connection (R340). -/
def connCloseConds : Conds := { state := fun d se _ => needState (d.conn (d.selConn se.id)).isSome }

/-- The selected connection closes: DISCONNECT sent, then CLOSED. -/
def Dev.connClosed (d : Dev) (se : Session) : Dev :=
  (d.sendDisconnect (d.selConn se.id)).closeConn (d.selConn se.id) .close

/-- CONNECTION_CLOSE (R340). -/
def execConnectionClose (hd : Hdr) (cond : Option Nat) (s : State) : Host.Outcome State Fault Refusal :=
  onDev (fun d => d.writeReq connCloseConds hd cond 0x5A21 15 [1] fun se _ d => d.connClosed se) s

/-- A window meets R343. -/
def Dev.windowOk (d : Dev) (w : Nat) : Bool :=
  let p := d.nat (Ob.winOwner w)
  let kind := d.nat (Ob.winKind w)
  let rights := d.nat (Ob.winRights w)
  let b := d.nat (Ob.winBase w)
  let n := d.nat (Ob.winFenceCount w)
  let place :=
    if kind = 0 then
      d.inDramWindow p b (d.nat (Ob.winLength w)) ((if bit rights 0 then [4] else []) ++ (if bit rights 1 then [5] else []))
    else if kind = 1 then decide (b < 4) && !bit rights 1
    else decide (b < 64) && d.nat (Ob.structureOwner b) == p && !bit rights 1
  decide (p < 8) && place
    && (n == 0 || (decide (d.nat (Ob.partFenceFirst p) ≤ d.nat (Ob.winFenceFirst w))
      && decide (d.nat (Ob.winFenceFirst w) + n ≤ d.nat (Ob.partFenceFirst p) + d.nat (Ob.partFenceCount p))))

/-- A fresh window key (R344): random, never 0, unlike every registered and grace-period key. -/
def Dev.newWinKey (d : Dev) : Nat :=
  let free (k : Nat) : Bool := k != 0 && !d.inGrace k
    && ((List.range 64).all fun w => d.reg (Ob.winState w) != 1 || d.nat (Ob.winKey w) != k)
  let k := Config.freshId d.fresh % 4294967296
  if free k then k else ((List.range (130 + d.virek.grace.length)).find? free).getD 1

/-- Register's checks are answered OUT_OF_RANGE (R344). -/
def registerConds (w : Nat) : Conds := { range := fun d _ _ => needRange (d.windowOk w) }

/-- A window becomes registered under a fresh key. -/
def Dev.windowRegistered (d : Dev) (w : Nat) : Dev := ((d.setN (Ob.winKey w) d.newWinKey).set (Ob.winState w) 1).drawn

/-- WINDOW_REGISTER (R344). -/
def execWindowRegister (hd : Hdr) (cond : Option Nat) (w : Fin 64) (s : State) : Host.Outcome State Fault Refusal :=
  onDev (fun d => d.writeReq (registerConds w) hd cond (0x5A40 + w) 8 [1] fun _ _ d => d.windowRegistered w) s

/-- A window becomes revoked: a registered key enters its grace (R344, Table 3). -/
def Dev.windowRevoked (d : Dev) (w : Nat) : Dev :=
  let d := if d.reg (Ob.winState w) = 1 then
      let live := d.virek.grace.filter fun g => decide (d.ago g.2 < d.nat Ob.virekRevokeGrace * 1000000)
      d.onVirek fun v => { v with grace := (d.nat (Ob.winKey w), d.ext) :: live }
    else d
  d.set (Ob.winState w) 2

/-- WINDOW_REVOKE (R344). -/
def execWindowRevoke (hd : Hdr) (cond : Option Nat) (w : Fin 64) (s : State) : Host.Outcome State Fault Refusal :=
  onDev (fun d => d.writeReq {} hd cond (0x5A40 + w) 9 [1] fun _ _ d => d.windowRevoked w) s

/-- FIO or DRC quiesces (R351): each READ in progress ends with an empty READ_DATA, LAST, status ABSENT. -/
def Dev.virekCut (d : Dev) : Dev :=
  d.each d.virek.conns fun d e => d.each e.2.jobs fun d j => match d.conn e.1 with
    | none => d
    | some c => d.sendNext e.1 { psn := c.txPsn, addr := j.addr, len := 0, off := j.off, key := j.key, tag := j.tag,
                                 last := true, status := 5 } (c.jobs.drop 1)

end Sys2Proof.Machine
end

