-- ==== Sys2Proof/Machine/Integrity.lean ====
section
/-! DEFINITION. The end of quarantines, the clearing of the logs (18_integrity R365-R371), and the I2C target
(20_electrical R409). -/
namespace Sys2Proof.Machine

/-- QUARANTINE_EXPIRY (R369): QuarantineTime of a partner has run out. -/
def execQuarantineExpiry (id : Nat) (s : State) : Host.Outcome State Fault Refusal :=
  onDev (fun d => match (d.partner id).bind fun p => p.until_ with
    | none => d
    | some t => if t ≤ d.ext then d.quarantineEnd id else d) s

/-- A release names a partner in quarantine (R371). -/
def releaseConds : Conds := { state := fun d _ n => needState (d.quarantinedId n.toNat) }

/-- A quarantine is released (R371): 0x6012, then its summary. -/
def Dev.release (d : Dev) (p id : Nat) : Dev :=
  (d.event { code := 0x6012, island := Isl.ctl, partner := id, d1 := p }).quarantineEnd id

/-- QUARANTINE_RELEASE (R371). -/
def execQuarantineRelease (hd : Hdr) (cond : Option Nat) (v : Bytes) (s : State) : Host.Outcome State Fault Refusal :=
  onDev (fun d => d.writeReq releaseConds hd cond 0x6002 4 v fun se n d => d.release se.part n.toNat) s

/-- LogClear empties the ring and leaves the sequence (R365). -/
def Dev.logCleared (d : Dev) : Dev := { d with log := { d.log with ring := [] } }.set Ob.logEntries 0

/-- LOG_CLEAR (R365). -/
def execLogClear (hd : Hdr) (cond : Option Nat) (v : Bytes) (s : State) : Host.Outcome State Fault Refusal :=
  onDev (fun d => d.writeReq {} hd cond 0x6000 5 v fun _ _ d => d.logCleared) s

/-- MirrorClear empties the mirror; the count restarts (R366). -/
def Dev.mirrorCleared (d : Dev) : Dev :=
  ({ d with log := { d.log with mirror := [] } }.set Ob.mirrorEntries 0).set Ob.mirrorWritten 0

/-- MIRROR_CLEAR (R366). -/
def execMirrorClear (hd : Hdr) (cond : Option Nat) (v : Bytes) (s : State) : Host.Outcome State Fault Refusal :=
  onDev (fun d => d.writeReq {} hd cond 0x6001 4 v fun _ _ d => d.mirrorCleared) s

/-- The I2C target's registers (20_electrical Table 7): bytes from register 0 up. -/
def Dev.i2cBytes (d : Dev) : Bytes :=
  leBytes 2 (d.nat Ob.productCode) ++ leBytes 1 (d.nat Ob.bootPhase) ++ leBytes 1 (d.nat Ob.outcome)
    ++ leBytes 2 (unsigned 16 (d.reg (Ob.thermTemperature 0))) ++ leBytes 2 (d.nat Ob.vinNow) ++ leBytes 1 (d.nat Ob.powerState)
    ++ leBytes 1 (d.nat Ob.safeOutputState)

/-- The JTAG IDCODE (20_electrical R414): [31:28] the I/O die's stepping, [27:12] the ProductCode, [11:0] 0x58F. -/
def Dev.idcode (d : Dev) : BitVec 32 :=
  BitVec.ofNat 4 (d.nat Ob.ioDieStepping) ++ BitVec.ofNat 16 (d.nat Ob.productCode) ++ (0x58F : BitVec 12)

/-- I2C_READ (R409): `len` bytes from a register on, not acknowledged before ServiceReady. Registers past the last read 0
(log 43). -/
def execI2cRead (reg len : Nat) (s : State) : Host.Outcome State Fault Refusal :=
  onDev (fun d => if !d.ready then d.send (.i2cData false [])
    else d.send (.i2cData true ((d.i2cBytes.drop reg ++ List.replicate len 0).take len))) s

/-- I2C_WRITE (R409): not acknowledged after the register byte, and without effect; `data` are the bytes after it. -/
def execI2cWrite (reg : Nat) (data : Bytes) (s : State) : Host.Outcome State Fault Refusal :=
  onDev (fun d => d.send (.i2cData (d.ready && decide (reg < 256) && data.isEmpty) [])) s

end Sys2Proof.Machine
end

