-- ==== Sys2Proof/Machine/Effects.lean ====
section
/-! DEFINITION. What a change of an object that has no row of its own needs and does: the range conditions that depend on
other objects, the state conditions of plain writes, and what follows the change. Plain writes and pours share them
(04_dictionary R89, 06_pours R139). -/
namespace Sys2Proof.Machine

/-- An object's index, whatever its instance. -/
def idxOf (k : Nat) : Nat := k / 256 % 65536

/-- The instance of a key: the queue of a queue object. -/
def instOf (k : Nat) : Nat := k / 16777216 - 1

/-- Partition `p` shares its attachment with no enabled partition, itself apart (04_dictionary Table 10). -/
def Dev.attachFree (d : Dev) (p : Nat) : Bool :=
  let a := d.nat (Ob.partAttachAddress p)
  a == 0xFFFFFFFF || (List.range 8).all fun x => x == p || !d.flag (Ob.partEnable x)
    || d.nat (Ob.partAttachKind x) != d.nat (Ob.partAttachKind p) || d.nat (Ob.partAttachAddress x) != a

/-- An AttachAddress within its kind's range (04_dictionary Table 10). -/
def attachOk (kind a : Nat) : Bool :=
  a == 0xFFFFFFFF || (if kind = 0 then decide (a ≤ 3) else if kind = 1 then true
    else decide (a / 256 ≤ 1) && decide (1 ≤ a % 256) && decide (a % 256 ≤ 254))

/-- The MSI-X counts of enabled partitions meet R302. -/
def Dev.vectorsOk (d : Dev) (p : Nat) : Bool :=
  let on := (List.range 8).filter fun x => d.flag (Ob.partEnable x)
  let pcie := on.filter fun x => d.nat (Ob.partAttachKind x) == 0
  let n := d.nat (Ob.partVectorCount p)
  (!on.contains p || (if pcie.contains p then decide (1 ≤ n) && decide (n ≤ 2048) else n == 0))
    && decide ((pcie.map fun x => d.nat (Ob.partVectorCount x)).sum ≤ 2048)

/-- Two spans of numbers share one. -/
def spansMeet (a n b m : Nat) : Bool := decide (0 < n ∧ 0 < m ∧ a < b + m ∧ b < a + n)

/-- Partition `p`, where enabled, shares no queue with another enabled partition (R294). -/
def Dev.rangesFree (d : Dev) (p : Nat) : Bool :=
  !d.flag (Ob.partEnable p) || (List.range 8).all fun x => x == p || !d.flag (Ob.partEnable x)
    || !spansMeet (d.nat (Ob.partQueueFirst p)) (d.nat (Ob.partQueueCount p))
        (d.nat (Ob.partQueueFirst x)) (d.nat (Ob.partQueueCount x))

/-- Window `w` of partition `p` is one that R295 permits. -/
def Dev.windowPermitted (d : Dev) (p w : Nat) : Bool :=
  let kind := d.nat (Ob.partWindowKind p w) % 4
  let attach := d.nat (Ob.partAttachKind p)
  let b := d.nat (Ob.partWindowBase p w)
  let n := d.nat (Ob.partWindowLength p w)
  let area := d.nat Ob.hostAreaBase
  if kind = 1 then attach == 0
  else if kind = 2 then
    attach != 2 && decide (area ≤ b) && decide (b + n ≤ area + d.nat Ob.hostAreaSize)
      && (List.range 8).all fun x => x == p || !d.flag (Ob.partEnable x) || (List.range 4).all fun y =>
        d.nat (Ob.partWindowKind x y) % 4 != 2
          || !spansMeet b n (d.nat (Ob.partWindowBase x y)) (d.nat (Ob.partWindowLength x y))
  else true

/-- Range conditions of a partition object (04_dictionary Table 10, R92; 15_hosts_queues R294, R295, R301, R302). -/
def Dev.partRange (d : Dev) (p sub : Nat) : Bool :=
  if sub = 1 then
    !d.flag (Ob.partEnable p) || (d.nat (Ob.partAttachAddress p) != 0xFFFFFFFF && d.attachFree p && d.rangesFree p && d.vectorsOk p)
  else if sub = 2 then d.attachFree p && d.vectorsOk p
  else if sub = 3 then attachOk (d.nat (Ob.partAttachKind p)) (d.nat (Ob.partAttachAddress p)) && d.attachFree p
  else if sub = 4 then p != 0 || bit (d.nat (Ob.partRoleMask p)) 2
  else if sub = 7 ∨ sub = 8 then
    decide (d.nat (Ob.partQueueFirst p) + d.nat (Ob.partQueueCount p) ≤ 4096) && d.rangesFree p
  else if sub = 9 ∨ sub = 10 then decide (d.nat (Ob.partFenceFirst p) + d.nat (Ob.partFenceCount p) ≤ 131072)
  else if sub = 13 then
    d.nat (Ob.partEventQueue p) == 0xFFFF || decide (d.queueOwner (d.nat (Ob.partEventQueue p)) = some p)
  else if sub = 15 then d.vectorsOk p
  else if sub = 16 then
    decide (d.nat Ob.publishedBase ≤ d.nat (Ob.partApertureBase p))
      && decide (d.nat (Ob.partApertureBase p) + 1073741824 ≤ d.nat Ob.dramCapacity)
  else if 20 ≤ sub ∧ sub ≤ 31 then d.windowPermitted p ((sub - 20) / 3)
  else true

/-- The range conditions of the object at `k` that depend on other objects, where `d` holds the values as the write or
pour would leave them. `pour` says that a pour makes the change. -/
def Dev.rangeOk (d : Dev) (pour : Bool) (k : Nat) : Bool :=
  let idx := idxOf k
  let sub := k % 256
  let n := d.nat k
  if 0x1100 ≤ idx ∧ idx ≤ 0x1107 then d.partRange (idx - 0x1100) sub
  else if 0x2130 ≤ idx ∧ idx ≤ 0x213C then
    (sub != 3 && sub != 4) || widthOk (d.reg (Ob.pulseWidth (idx - 0x2130))) (d.reg (Ob.pulseRate (idx - 0x2130)))
  else if 0x3000 ≤ idx ∧ idx ≤ 0x301F then
    let s := idx - 0x3000
    (decide (sub < 0x20) || kindParamOk (d.nat (Ob.slotSourceKind s)) (sub - 0x20) n)
      && (!(sub == 1 || sub == 2 || sub == 8 || decide (0x20 ≤ sub)) || slotRange d.reg s)
  else if 0x3220 ≤ idx ∧ idx ≤ 0x3223 then !(decide (0x0A ≤ sub) && decide (sub ≤ 0x12)) || bandsOk d.reg (idx - 0x3220)
  else if 0x3240 ≤ idx ∧ idx ≤ 0x325F then !(pour && decide (4 ≤ sub)) || mountOk d.reg (idx - 0x3240)
  else if 0x3610 ≤ idx ∧ idx ≤ 0x3617 then d.chanRange d.reg (idx - 0x3610) sub
  else if 0x3660 ≤ idx ∧ idx ≤ 0x367F then decide (sub < 4) || fbkMountOk d.reg (idx - 0x3660)
  else if 0x3840 ≤ idx ∧ idx ≤ 0x387F then d.structRange d.reg (idx - 0x3840) sub
  else if 0x4000 ≤ idx ∧ idx ≤ 0x402F then audioRange d.reg k
  else if 0x4400 ≤ idx ∧ idx ≤ 0x476F then mixRange d.reg k
  else if idx = 0x5002 then
    let owner := d.queueOwner (instOf k)
    if sub = 3 then n == 0 || owner.isSome
    else if sub = 9 then n == 0xFFFF || (match owner with | some p => decide (n < d.vectors p) | none => false)
    else true
  else true

/-- Conditions of rank 9 and 13 on a request of a session: `rangeOk`, an EngineMask with a present engine (09_tensor R213),
a structure's queues in its owner's range (11_solver), and a clip within a window of the partition (13_mix R269). -/
def Dev.rangeFault (d : Dev) (pour : Bool) (se : Session) (k : Nat) : Option Refuse :=
  let idx := idxOf k
  let sub := k % 256
  if 0x3420 ≤ idx ∧ idx ≤ 0x343F ∧ sub = 9 ∧ !d.maskPresent (d.nat k) then some { status := Sc.unitAbsent }
  else if 0x3840 ≤ idx ∧ idx ≤ 0x387F ∧ (sub = 5 ∨ sub = 6) ∧ !d.isInt se.part then
    needRange (d.queueInOwner (d.reg (Ob.structureOwner (idx - 0x3840))) (d.reg k))
  else if 0x4758 ≤ idx ∧ idx ≤ 0x475B ∧ sub = 7 then (playConds (idx - 0x4758)).range d se 1
  else needRange (d.rangeOk pour k)

/-- The kind parameters of an enabled slot change only by pour (07_sensor_ingest R159). -/
def Dev.kindHeld (d : Dev) (k : Nat) : Bool :=
  let idx := idxOf k
  decide (0x3000 ≤ idx ∧ idx ≤ 0x301F) && decide (0x10 ≤ k % 256) && d.flag (Ob.slotEnable (idx - 0x3000))

/-- Queues that are enabled. -/
def Dev.enabledQueues (d : Dev) : List Nat :=
  (d.regs.filter fun e => e.1 % 16777216 == Ob.qEnable && e.2 == 1).map fun e => instOf e.1

/-- An enabled queue leaves its owner (R294); `d` is the device as the write would leave it. -/
def Dev.movesQueue (d0 d : Dev) : Bool :=
  d0.enabledQueues.any fun q => (d0.queueOwner q).isSome && decide (d0.queueOwner q ≠ d.queueOwner q)

/-- The mailbox rings of partition `p` lie in its host window 0 (R303). -/
def Dev.mailboxPlaced (d : Dev) (p : Nat) : Bool :=
  let m := d.mailbox p
  let b := d.nat (Ob.partWindowBase p 0)
  let end_ := b + d.nat (Ob.partWindowLength p 0)
  let fits (a : Nat) : Bool := decide (b ≤ a) && decide (a + 2048 * m.slots ≤ end_)
  m.slots == 0 || (d.nat (Ob.partWindowKind p 0) % 4 == 1 && fits m.reqBase && fits m.ansBase)

/-- A change of partition `p` leaves a ring, a mailbox ring or a registered Virek window outside its window (R295,
17_virek R344), which lay inside before. -/
def Dev.strandsRing (d0 d : Dev) (p : Nat) : Bool :=
  (d0.enabledQueues.any fun q => d0.qreg Ob.qRole q != 0 && decide (d0.queueOwner q = some p)
      && d0.ringPlaced p q && !d.ringPlaced p q)
    || (d0.mailboxPlaced p && !d.mailboxPlaced p)
    || (List.range 64).any fun w => d0.reg (Ob.winState w) == 1 && d0.reg (Ob.winKind w) == 0
        && d0.nat (Ob.winOwner w) == p && d0.windowOk w && !d.windowOk w

/-- The windows of partition `p` suit a written AttachKind (R295). -/
def Dev.kindSuits (d : Dev) (p kind : Nat) : Bool :=
  (List.range 4).all fun w =>
    !((kind != 0 && d.nat (Ob.partWindowKind p w) % 4 == 1) || (kind == 2 && d.nat (Ob.partWindowKind p w) % 4 != 0))

/-- A traffic class is named by an enabled AES67 stream or a Virek connection (16_network_paths R334). -/
def Dev.classInUse (d : Dev) (k : Nat) : Bool :=
  ((List.range 16).any fun i => d.flag (Ob.portEnable (16 + i)) && d.nat (Ob.portTrafficClass (16 + i)) == k)
    || d.virek.conns.any fun e => d.nat (Ob.vpVirekClass e.2.part) == k

/-- State conditions of a plain write (Table 2, step 17) of an object without a row of its own: `d0` before it, `d` as
it would leave the device. -/
def Dev.stateOk (d0 d : Dev) (k : Nat) : Bool :=
  let idx := idxOf k
  let sub := k % 256
  if 0x1100 ≤ idx ∧ idx ≤ 0x1107 then
    let p := idx - 0x1100
    (sub != 2 || d0.kindSuits p (d.nat k)) && !((sub == 1 || sub == 7 || sub == 8) && d0.movesQueue d)
      && !(decide (20 ≤ sub) && d0.strandsRing d p)
  else if k = Ob.tickPeriod then d0.tickFree
  else if 0x3420 ≤ idx ∧ idx ≤ 0x343F then sub != 9 || d0.maskFree (idx - 0x3420)
  else if idx = 0x3600 then d0.noChannel
  else if 0x3610 ≤ idx ∧ idx ≤ 0x3617 then
    !([5, 6, 7, 9] : List Nat).contains sub || !d0.flag (Ob.chanEnable (idx - 0x3610))
  else if 0x3660 ≤ idx ∧ idx ≤ 0x367F then !d0.fbkMountInUse (idx - 0x3660)
  else if 0x4000 ≤ idx ∧ idx ≤ 0x402F then d0.audioWritable k
  else if 0x4400 ≤ idx ∧ idx ≤ 0x476F then d0.mixWritable k
  else if 0x4800 ≤ idx ∧ idx ≤ 0x49FF then d0.anaWritable k
  else if idx = 0x5002 then sub == 8 || sub == 9 || d0.qreg Ob.qEnable (instOf k) == 0
  else if idx = 0x5800 ∨ idx = 0x5801 then sub == 1 || !d0.flag (Ob.ethEnable (idx - 0x5800))
  else if 0x5820 ≤ idx ∧ idx ≤ 0x5827 then decide (4 < sub) || !d0.classInUse (idx - 0x5820)
  else if 0x5A40 ≤ idx ∧ idx ≤ 0x5A7F then decide (7 < sub) || d0.reg (Ob.winState (idx - 0x5A40)) != 1
  else true

/-- A change of a partition's Enable, roles or attachment ends its sessions (04_dictionary R97), and closes its Virek
connections where 17_virek R340 says so. -/
def Dev.partWritten (d : Dev) (p sub : Nat) : Dev :=
  if 1 ≤ sub ∧ sub ≤ 4 then
    let d := d.endSessions .config fun s => s.part == p
    d.when (sub == 3 || (sub == 1 && !d.flag (Ob.partEnable p))) fun d => d.closeConns .partition fun c => c.part == p
  else d

/-- What follows a change of the object at `k` at stamp `t`; `d0` is the device before it. -/
def Dev.changed (d0 d : Dev) (k : Nat) (t : Nat) : Dev :=
  let idx := idxOf k
  let sub := k % 256
  if 0x1100 ≤ idx ∧ idx ≤ 0x1107 then d.partWritten (idx - 0x1100) sub
  else if 0x2130 ≤ idx ∧ idx ≤ 0x213C then d.retrain (idx - 0x2130) (d.extOf t)
  else if k = Ob.freqSlopeLimit then d.rebase d0.corrNow
  else if k = Ob.selectorMode then d.reselect
  else if 0x3000 ≤ idx ∧ idx ≤ 0x301F then (d.slotWritten (idx - 0x3000) sub).refreshChannels
  else if k = Ob.poseQueue then d.poseQueueWritten
  else if k = Ob.resampleEnable then d.resamplerWritten
  else if 0x3210 ≤ idx ∧ idx ≤ 0x3217 then d.onFus fun u => { u with prev := kvDel u.prev (idx - 0x3210) }
  else if 0x3220 ≤ idx ∧ idx ≤ 0x3223 then d0.gridWritten d (idx - 0x3220) sub t
  else if 0x3240 ≤ idx ∧ idx ≤ 0x325F then d0.mountChanged d (idx - 0x3240) t
  else if 0x3420 ≤ idx ∧ idx ≤ 0x343F then
    let m := idx - 0x3420
    if sub = 0x10 ∨ sub = 0x11 then d.feedChanged m none else d.when (sub == 0x18) fun d => d.trimReady m
  else if 0x3610 ≤ idx ∧ idx ≤ 0x3617 then (d.channelFlipped (idx - 0x3610) (sub == 0x0B)).refreshChannels
  else if 0x3840 ≤ idx ∧ idx ≤ 0x387F then
    d.when (sub == 7 || sub == 8) fun d => d.refactorAll (idx - 0x3840)
  else if 0x4000 ≤ idx ∧ idx ≤ 0x4003 then d.refreshDomains.refreshDac
  else if 0x4700 ≤ idx ∧ idx ≤ 0x473F then
    if sub ≤ 0x0A then d.refreshDac.routeSourceChanged (idx - 0x4700)
    else if sub = 0x16 ∨ sub = 0x17 then d.refreshDac.routeSourceChanged (idx - 0x4700)
    else d
  else if 0x4750 ≤ idx ∧ idx ≤ 0x4757 then d.when (sub == 1 || sub == 3 || sub == 4) fun d => d.toneWritten (idx - 0x4750) sub t
  else if 0x4800 ≤ idx ∧ idx ≤ 0x4803 then d.when (sub == 1) fun d => d.refreshDac
  else if 0x4900 ≤ idx ∧ idx ≤ 0x4901 then d.when (sub == 1) fun d => d.beaconWritten (idx - 0x4900)
  else if idx = 0x5800 ∨ idx = 0x5801 then
    d.when (sub == 1 && !d.portUp (idx - 0x5800)) fun d => (d.portDown (idx - 0x5800)).ptpPortCheck (idx - 0x5800)
  else if 0x5810 ≤ idx ∧ idx ≤ 0x581F then d.when (sub == 1) fun d => d.peerEnabled (idx - 0x5810)
  else if 0x5820 ≤ idx ∧ idx ≤ 0x5827 then
    let k := idx - 0x5820
    if sub = 1 ∨ sub = 4 then d.classWritten k
    else d.when (sub == 5) fun d => d.onCls k fun c => { c with swapIdx := d.swapIndex k }
  else if k = Ob.virekEnable then d.when (!d.flag k) fun d => d.closeConns .disabled fun _ => true
  else if 0x5A10 ≤ idx ∧ idx ≤ 0x5A17 then
    d.when (sub == 3) fun d => d.closeConns .partition fun c => c.part == idx - 0x5A10
  else if k = Ob.mirrorRanges then d.setN k (d.nat k ||| 128)
  else d

/-- What follows a write or flip of the object at `k`: a setpoint acts even where its value stays (14_analog Table 1). -/
def Dev.written (d0 d : Dev) (k : Nat) (t : Nat) : Dev :=
  let idx := idxOf k
  if 0x4800 ≤ idx ∧ idx ≤ 0x4803 ∧ k % 256 = 2 then d.setpointChanged (idx - 0x4800)
  else if 0x4810 ≤ idx ∧ idx ≤ 0x4817 ∧ k % 256 = 1 then d.setpointChanged (4 + (idx - 0x4810))
  else if k = Ob.mirrorRanges then d0.changed d k t
  else if d0.reg k = d.reg k then d
  else d0.changed d k t

end Sys2Proof.Machine
end

