-- ==== Sys2Proof/Machine/Pours.lean ====
section
/-! DEFINITION. Pours and scenes (06_pours R138-R156, R415; 13_mix_engine R272, R273, R275): submission, arming, flips,
ramps, generations and the report. A flip unit is named by the index of its objects, a model feed by 0x10000 plus its
source. -/
namespace Sys2Proof.Machine

/-- `f` applied to the pours. -/
def Dev.onPours (d : Dev) (f : Pours → Pours) : Dev := { d with pours := f d.pours }

/-- The pour held under a handle. -/
def Dev.pour (d : Dev) (h : Nat) : Option Pour := d.pours.live.find? fun p => p.handle == h

/-- The pour a handle names: held, or ended and still readable. -/
def Dev.pourAny (d : Dev) (h : Nat) : Option Pour := (d.pours.live ++ d.pours.ended).find? fun p => p.handle == h

/-- `f` applied to a pour. -/
def Dev.onPour (d : Dev) (h : Nat) (f : Pour → Pour) : Dev :=
  d.onPours fun x => { x with live := x.live.map fun p => if p.handle = h then f p else p }

/-- PoursHeld, and the generations reserved by pours in ARMED or FLIPPING (R143, R151). -/
def Dev.refreshHeld (d : Dev) : Dev :=
  let d := { d with genReserved := d.pours.live.filterMap fun (p : Pour) => if p.state = 1 then none else p.gen }
  (d.setN Ob.poursHeld d.pours.live.length).refreshAlive

/-- A pour ends in a state with a cause; 256 later ones leave it readable. -/
def Dev.endPour (d : Dev) (h st cause : Nat) : Dev :=
  match d.pour h with
  | none => d
  | some p =>
    (d.onPours fun x => { x with live := x.live.filter fun q => q.handle != h,
                                 ended := ({ p with state := st, cause := cause } :: x.ended).take 256 }).refreshHeld

/-- The next handle that names no pour held or readable (section 6 of 06_pours). -/
def Dev.newHandle (d : Dev) : Nat :=
  (((List.range 300).map fun i => (d.pours.next + 65534 + i) % 65535 + 1).find? fun h => (d.pourAny h).isNone).getD 1

/-- The later of two stamps. -/
def laterStamp (a b : Nat) : Nat := if after b a then b else a

/-- A pour put in its place by T, then acceptance (R145). -/
def insertPour (p : Pour) : List Pour → List Pour
  | [] => [p]
  | q :: l => if after p.target q.target then q :: insertPour p l else p :: q :: l

/-- Pours in the order in which they apply at one boundary (R145). -/
def pourOrder (l : List Pour) : List Pour := l.foldr insertPour []

/-- Entries of which a later one of the same object stands are left out (R140). -/
def lastStand : List PourEntry → List PourEntry
  | [] => []
  | e :: l => if l.any fun x => x.key == e.key then lastStand l else e :: lastStand l

/-- The device as it would hold the entries' values. -/
def Dev.overlay (d : Dev) (es : List PourEntry) : Dev := d.each es fun d e => d.set e.key e.value

/-- The header of a pour descriptor (Table 1). -/
structure PourHead where
  flags : Nat
  scene : Nat
  target : Nat
  ramp : Nat
  timeout : Nat
  count : Nat
  fence : Nat
  value : Nat
  area : Nat
  deriving DecidableEq, Repr

/-- The header's fields. -/
def pourHead (b : Bytes) : PourHead :=
  { flags := leAt b 5 1, scene := leAt b 6 1, target := leAt b 8 6, ramp := leAt b 14 2, timeout := leAt b 16 2,
    count := leAt b 18 2, fence := leAt b 20 4, value := leAt b 24 8, area := leAt b 32 4 }

/-- RECALL. -/
def PourHead.recall (h : PourHead) : Bool := bit h.flags 0

/-- STORE. -/
def PourHead.store (h : PourHead) : Bool := bit h.flags 1

/-- The header fails its CRC-32C, magic or version (R138). -/
def headBad (b : Bytes) : Bool :=
  decide (b.length < 48) || leAt b 44 4 != crc32c (b.take 44) || leAt b 0 4 != 0x52504E55 || leAt b 4 1 != 1

/-- Every header field is in its range (R138). -/
def PourHead.ok (h : PourHead) : Bool :=
  !(h.recall && h.store) && decide (h.scene ≤ 63) && (h.scene == 0 || h.recall || h.store) && decide (h.ramp ≤ 1024)
    && decide (h.timeout ≤ 10000) && decide (h.count ≤ 1024) && (!h.recall || h.count == 0)

/-- An entry as the descriptor gives it (Table 2). -/
structure RawEntry where
  idx : Nat
  sub : Nat
  flags : Nat
  len : Nat
  value : Bytes
  deriving DecidableEq, Repr

/-- The entry's key. -/
def RawEntry.key (e : RawEntry) : Nat := e.idx * 256 + e.sub

/-- `n` entries that fill an entry area exactly; none where it disagrees with them. -/
def rawEntries : Nat → Bytes → Option (List RawEntry)
  | 0, b => if b = [] then some [] else none
  | n + 1, b =>
    let len := leAt b 4 2
    let next := 8 + ceilDiv len 4 * 4
    if b.length < next then none
    else (rawEntries n (b.drop next)).map fun l =>
      { idx := leAt b 0 2, sub := leAt b 2 1, flags := leAt b 3 1, len := len, value := (b.drop 8).take len } :: l

/-- An entry's bytes in a scene (R154, Table 2 layout): CAPTURE is resolved. -/
def sceneEntry (e : RawEntry) (v : Bytes) : Bytes :=
  leBytes 2 e.idx ++ leBytes 1 e.sub ++ leBytes 1 (e.flags % 2) ++ leBytes 2 v.length ++ leBytes 2 0 ++ v
    ++ List.replicate (ceilDiv v.length 4 * 4 - v.length) 0

/-- The sources that a model's Input 0 names, old and new (09_tensor_engines R212); `d1` holds the values as the pour would leave
them. -/
def feedLink (d d1 : Dev) (m : Nat) : List Nat :=
  let l := ([d.nat (Ob.modelInput m 0), d1.nat (Ob.modelInput m 0)]).filter fun s => s != 0
  if l = [] then [0] else l

/-- The models whose objects a pour names. -/
def pourModels (ks : List Nat) : List Nat :=
  firsts ((ks.filter fun k => decide (0x3420 ≤ k / 256 ∧ k / 256 ≤ 0x343F)).map fun k => k / 256 - 0x3420)

/-- Sources joined by models that name two of them. -/
def joinFeeds (links : List (List Nat)) : Nat → List Nat → List Nat
  | 0, l => l
  | n + 1, l => joinFeeds links n (firsts (l ++ (links.filter fun x => x.any fun s => l.contains s).flatten))

/-- A number put in its place among rising ones. -/
def insertNat (n : Nat) : List Nat → List Nat
  | [] => [n]
  | m :: l => if m < n then m :: insertNat n l else n :: m :: l

/-- The feeds whose models flip together with those of source `s` (R212), in rising order. -/
def feedGroup (d d1 : Dev) (ks : List Nat) (s : Nat) : List Nat :=
  (joinFeeds ((pourModels ks).map (feedLink d d1)) 32 [s]).foldr insertNat []

/-- The flip unit of an object of a pour that names `ks` (R146, Table 5). A model's is the feeds that flip with its own, named by
the lowest (09_tensor_engines R212). -/
def uidOf (d d1 : Dev) (ks : List Nat) (k : Nat) : Nat :=
  let idx := k / 256
  if idx = 0x3200 ∨ (0x3210 ≤ idx ∧ idx ≤ 0x3217) then 0x3200
  else if 0x3420 ≤ idx ∧ idx ≤ 0x343F then
    0x10000 + ((feedGroup d d1 ks (((feedLink d d1 (idx - 0x3420)).head?).getD 0)).head?).getD 0
  else idx

/-- A flip unit's island and number in the report (Table 5). -/
def pourPart (d d1 : Dev) (ks : List Nat) (uid : Nat) : PourPart :=
  let at_ (island unit : Nat) : PourPart := { uid, island, unit }
  if 0x10000 ≤ uid then { at_ Isl.ten (uid - 0x10000) with feeds := feedGroup d d1 ks (uid - 0x10000) }
  else if 0x2130 ≤ uid ∧ uid ≤ 0x213C then at_ Isl.tmg (uid - 0x2130)
  else if 0x3000 ≤ uid ∧ uid ≤ 0x301F then
    let s := uid - 0x3000
    at_ (if d.reg (Ob.slotSourceKind s) = 0 then d1.slotIsl s else d.slotIsl s) s
  else if uid = 0x3200 then at_ Isl.fus 0xFFFF
  else if 0x3220 ≤ uid ∧ uid ≤ 0x3223 then at_ Isl.fus (uid - 0x3220)
  else if 0x3240 ≤ uid ∧ uid ≤ 0x325F then at_ Isl.fus (uid - 0x3240)
  else if 0x3610 ≤ uid ∧ uid ≤ 0x3617 then at_ Isl.cup (uid - 0x3610)
  else if 0x3840 ≤ uid ∧ uid ≤ 0x387F then at_ Isl.sol (uid - 0x3840)
  else if 0x4001 ≤ uid ∧ uid ≤ 0x4003 then at_ Isl.apt (uid - 0x4001)
  else if 0x4010 ≤ uid ∧ uid ≤ 0x402F then at_ Isl.apt (uid - 0x4010)
  else if 0x4400 ≤ uid ∧ uid ≤ 0x457F then at_ Isl.mix (uid - 0x4400)
  else if 0x4600 ≤ uid ∧ uid ≤ 0x465F then at_ Isl.mix (uid - 0x4600)
  else if 0x4700 ≤ uid ∧ uid ≤ 0x473F then at_ Isl.mix (uid - 0x4700)
  else if 0x4740 ≤ uid ∧ uid ≤ 0x4743 then at_ Isl.mix (uid - 0x4740)
  else if 0x4750 ≤ uid ∧ uid ≤ 0x4757 then at_ Isl.mix (uid - 0x4750)
  else if 0x4758 ≤ uid ∧ uid ≤ 0x475B then at_ Isl.mix (uid - 0x4758)
  else if 0x4760 ≤ uid ∧ uid ≤ 0x476F then at_ Isl.mix (uid - 0x4760)
  else if 0x4800 ≤ uid ∧ uid ≤ 0x4803 then at_ Isl.ana (uid - 0x4800)
  else at_ Isl.ana (4 + (uid - 0x4810))

/-- What an entry sets: its value, or with CAPTURE the value in force (R154). -/
def Dev.entryValue (d : Dev) (e : RawEntry) : Int :=
  match objRow e.idx e.sub with
  | some r => if bit e.flags 1 then d.reg e.key else r.masked (decodeTy r.ty e.value)
  | none => 0

/-- The bindings after a pour with target `t` and entries `es` (07_sensor_ingest R158): the pours held are taken as applied,
in the order of R145. -/
def Dev.bindingsAfter (d : Dev) (t : Nat) (es : List PourEntry) : Dev :=
  let rest (p : Pour) : List PourEntry := p.entries.filter fun e => p.parts.any fun x => x.uid == e.uid
  let l := pourOrder d.pours.live
  let d := d.each (l.filter fun p => !after p.target t) fun d p => d.overlay (rest p)
  (d.overlay es).each (l.filter fun p => after p.target t) fun d p => d.overlay (rest p)

/-- The checks of one entry (R139): steps 7 to 13 of the dictionary's order, then pourability. `d1` holds the values as the
pour would leave them, `d2` the bindings of R158. -/
def Dev.entryFault (d d1 d2 : Dev) (se : Session) (store : Bool) (e : RawEntry) : Option Refuse :=
  let slot := decide (0x3000 ≤ e.idx ∧ e.idx ≤ 0x301F)
  match objRow e.idx e.sub with
  | none => some { status := Sc.noObject }
  | some r => firstFault [d.objFault se e.idx e.sub true none,
      (if bit e.flags 1 then (if store && e.len == 0 then none else some { status := Sc.outOfRange })
       else if r.ty = .domain then none
       else valueFault r e.key e.value),
      (if slot then d2 else d1).rangeFault true se e.key,
      (if r.mark = .no then some { status := Sc.notPourable } else none),
      (if slot && bindingFault d2.reg (e.idx - 0x3000) e.sub then some { status := Sc.outOfRange } else none)]

/-- The first entry that fails refuses the pour with its number (R139). -/
def firstEntry (f : RawEntry → Option Refuse) : Nat → List RawEntry → Option Refuse
  | _, [] => none
  | n, e :: l =>
    match f e with
    | some r => some { status := r.status, detail := n }
    | none => firstEntry f (n + 1) l

/-- The header's fence, where SIGNAL is set (R139, R49). -/
def Dev.headFence (d : Dev) (se : Session) (h : PourHead) : Option Refuse :=
  if !bit h.flags 2 then none
  else if h.fence < 131072 ∧ d.fenceRight se.part h.fence then none
  else some { status := Sc.accessDenied, detail := 0xFFFFFFFF }

/-- The request a pour came in: an answer goes to its session under its tag. -/
structure PourReq where
  sid : Nat
  tag : Nat
  seq : Nat
  payload : Bytes
  deriving DecidableEq, Repr

/-- The pour's answer. -/
def Dev.pourAnswer (d : Dev) (rq : PourReq) (status detail : Nat) : Dev :=
  d.complete rq.sid rq.tag Op.pour rq.payload rq.seq { status := status, detail := detail }

/-- The element an object belongs to is recall-safe (13_mix_engine R273). -/
def Dev.recallSafe (d : Dev) (idx : Nat) : Bool :=
  if 0x4400 ≤ idx ∧ idx ≤ 0x457F then d.flag (Ob.stripRecallSafe (idx - 0x4400))
  else if 0x4600 ≤ idx ∧ idx ≤ 0x465F then d.flag (Ob.busRecallSafe (idx - 0x4600))
  else if 0x4700 ≤ idx ∧ idx ≤ 0x473F then d.flag (Ob.routeRecallSafe (idx - 0x4700))
  else false

/-- The objects a scene holds beside its content, with what they read while it is empty or as given. -/
def sceneVals (n : Nat) (state owner entries stamp : Nat) : List (Nat × Int) :=
  [(Ob.sceneState n, state), (Ob.sceneOwner n, owner), (Ob.sceneEntries n, entries), (Ob.sceneStoredStamp n, stamp)]

/-- A STORE that has passed its checks (R154, R155): the scene holds the entries, and OK waits for the commit. -/
def Dev.storeScene (d : Dev) (rq : PourReq) (part n : Nat) (l : List RawEntry) (area : Bytes) : Dev :=
  let vals := sceneVals n 1 part l.length d.now
  let d := (d.each vals fun d kv => d.set kv.1 kv.2).setBlob (Ob.sceneContent n) area
  let d := d.countCommit.onSession rq.sid fun s =>
    { s with outst := { tag := rq.tag, op := Op.pour, payload := rq.payload, seq := rq.seq, at_ := d.ext } ::
        s.outst.filter fun o => o.tag != rq.tag }
  { d with dict := { d.dict with commits := d.dict.commits ++
    [{ vals := vals, blobs := [(Ob.sceneContent n, area)], sid := rq.sid, tag := rq.tag, op := Op.pour,
       payload := rq.payload, seq := rq.seq }] } }

/-- The bytes an entry stores. -/
def Dev.storedValue (d : Dev) (e : RawEntry) : Bytes :=
  match objRow e.idx e.sub with
  | some r => encodeTy r.ty (d.entryValue e)
  | none => []

/-- The bytes of a scene's content that the entries make. -/
def Dev.sceneArea (d : Dev) (l : List RawEntry) : Bytes := l.flatMap fun e => sceneEntry e (d.storedValue e)

/-- What refuses a STORE (R154, R155): the checks as though it were applied, then the scene's owner, its limits and the
commit rate. -/
def Dev.storeFault (d : Dev) (se : Session) (h : PourHead) (l : List RawEntry) : Option Refuse :=
  let owner := d.nat (Ob.sceneOwner h.scene)
  let es : List PourEntry := l.map fun e => { key := e.key, uid := 0, value := d.entryValue e }
  firstFault [d.headFence se h,
    (if owner = 0xFF || owner = se.part || d.isInt se.part then none else some { status := Sc.notOwner, detail := owner }),
    (if 512 < l.length || 16384 < (d.sceneArea l).length then some { status := Sc.outOfRange, detail := 0xFFFFFFFF } else none),
    firstEntry (d.entryFault (d.overlay es) (d.bindingsAfter d.now es) se true) 0 l, d.commitFault]

/-- STORE (R154, R155). -/
def Dev.pourStore (d : Dev) (se : Session) (rq : PourReq) (h : PourHead) (l : List RawEntry) : Dev :=
  match d.storeFault se h l with
  | some r => d.pourAnswer rq r.status r.detail
  | none => d.storeScene rq se.part h.scene l (d.sceneArea l)

/-- The generation assigned to a generation pour (R151). -/
def Dev.nextGeneration (d : Dev) : Nat :=
  match (d.pours.live.filterMap fun p => p.gen).getLast? with
  | some g => (g + 1) % 4
  | none => (d.nat Ob.currentGeneration + 1) % 4

/-- A generation is free to reserve (R151). -/
def Dev.genFree (d : Dev) (g : Nat) : Bool :=
  d.nat Ob.currentGeneration != g && !d.genReserved.contains g && decide (d.reg (Ob.genOutstanding g) ≤ 0)

/-- A pour is armed: a model it binds to a safety channel is due a canary (10_cupper_fallback R222). -/
def Dev.armed (d : Dev) (es : List PourEntry) : Dev :=
  d.each es fun d e =>
    d.when (decide (0x3610 ≤ e.key / 256 ∧ e.key / 256 ≤ 0x3617) && e.key % 256 == 0x0B && decide (0 ≤ e.value ∧ e.value < 32))
      fun d => d.canaryDue e.value.toNat

/-- The object is marked Generation. -/
def isGeneration (k : Nat) : Bool :=
  match keyRow k with
  | some r => decide (r.mark = .generation)
  | none => false

/-- A pour is accepted (Table 4, R151): it takes a handle, and is ARMED or waits for its generation. -/
def Dev.acceptPour (d : Dev) (se : Session) (rq : PourReq) (h : PourHead) (l : List (Nat × Bool × Int)) : Dev :=
  let plain : List PourEntry := l.map fun e => { key := e.1, uid := 0, step := e.2.1, value := e.2.2 }
  let d1 := d.overlay plain
  let ks := plain.map fun e => e.key
  let es := plain.map fun e => { e with uid := uidOf d d1 ks e.key }
  let gen := if es.any fun e => isGeneration e.key then some d.nextGeneration else none
  let wait := match gen with
    | some g => !d.genFree g
    | none => false
  let hn := d.newHandle
  let p : Pour :=
    { handle := hn, part := se.part, target := h.target, state := if wait then 1 else 2, gen := gen, accepted := d.now,
      entries := es, parts := (firsts (es.map fun e => e.uid)).map (pourPart d d1 ks),
      ramp := if h.ramp = 0 then d.nat Ob.defaultRamp else h.ramp,
      timeout := if h.timeout = 0 then d.nat Ob.defaultBacklogTimeout else h.timeout,
      signal := if bit h.flags 2 then some (h.fence, h.value) else none }
  let d := (d.onPours fun x => { x with live := x.live ++ [p], next := hn % 65535 + 1 }).refreshHeld
  (d.when (!wait) fun d => d.armed es).pourAnswer rq Sc.ok hn

/-- The raw entries of a recall that its recall-safe objects leave out, and of a pour none (13_mix_engine R273). -/
def Dev.skipped (d : Dev) (h : PourHead) (e : RawEntry) : Bool := h.recall && d.recallSafe e.idx

/-- What refuses a pour or a recall (R139-R143, R156, 13_mix_engine R273). The number of a failing entry of a recall is its
place in the scene. -/
def Dev.pourFault (d : Dev) (se : Session) (h : PourHead) (all : List RawEntry) : Option Refuse :=
  let es : List PourEntry := (all.filter fun e => !d.skipped h e).map fun e => { key := e.key, uid := 0, value := d.entryValue e }
  let d1 := d.overlay es
  let d2 := d.bindingsAfter h.target es
  let far := stampDiff h.target d.now
  firstFault [(if far < -1000000000 ∨ 86400000000000 < far then some { status := Sc.outOfRange } else none),
    d.headFence se h,
    (if h.recall && d.reg (Ob.sceneState h.scene) == 0 then some { status := Sc.stateRefused } else none),
    firstEntry (fun e => if d.skipped h e then none else d.entryFault d1 d2 se false e) 0 all,
    (if 32 ≤ d.pours.live.length || 8 ≤ (d.pours.live.filter fun p => p.part == se.part).length then
      some { status := Sc.busy, detail := 10 } else none)]

/-- The end of a pour's check: refused, or accepted with the entries it keeps. -/
def Dev.pourDecided (d : Dev) (se : Session) (rq : PourReq) (h : PourHead) (all : List RawEntry) (f : Option Refuse) : Dev :=
  match f with
  | some r => d.pourAnswer rq r.status r.detail
  | none => d.acceptPour se rq h ((all.filter fun e => !d.skipped h e).map fun e => (e.key, bit e.flags 0, d.entryValue e))

/-- A pour or a recall. -/
def Dev.pourEntries (d : Dev) (se : Session) (rq : PourReq) (h : PourHead) (all : List RawEntry) : Dev :=
  d.pourDecided se rq h all (d.pourFault se h all)

/-- A whole descriptor (R138): its form, its header, then what it asks for. -/
def Dev.pourDescriptor (d : Dev) (hd : Hdr) (se : Session) (rq : PourReq) (b : Bytes) : Dev :=
  let h := pourHead b
  if 65536 < b.length then d.pourAnswer rq Sc.blockSize 65536
  else if headBad b then (d.ighViolation hd Sc.malformed).pourAnswer rq Sc.malformed 0
  else match (if b.length = 48 + h.area then rawEntries h.count (b.drop 48) else none) with
    | none => (d.ighViolation hd Sc.badLength).pourAnswer rq Sc.badLength 0
    | some l =>
      if !h.ok then d.pourAnswer rq Sc.outOfRange 0xFFFFFFFF
      else if d.unprovisioned 0 then d.pourAnswer rq Sc.stateRefused 0
      else if h.store then d.pourStore se rq h l
      else if h.recall then
        d.pourEntries se rq h ((rawEntries (d.nat (Ob.sceneEntries h.scene)) (d.blob (Ob.sceneContent h.scene))).getD [])
      else d.pourEntries se rq h l

/-- A segment of a segmented POUR joins what has come; the last carries the CRC-32C of the whole (04_dictionary Table 4,
R103). -/
def Dev.pourSegment (d : Dev) (hd : Hdr) (se : Session) (b : Block) : Dev :=
  if hd.more then
    let d := d.dropBlock b.sid b.tag
    ({ d with dict := { d.dict with blocks := b :: d.dict.blocks } }).sessionAnswer se hd.tag Op.pour 0 false
      { status := Sc.ok, detail := b.next }
  else
    let n := b.data.length - 4
    let data := b.data.take n
    if b.data.length < 4 ∨ n ≠ b.total then (d.ighViolation hd Sc.badLength).failBlock b { status := Sc.badLength }
    else if leNat (b.data.drop n) ≠ crc32c data then d.failBlock b { status := Sc.blockCrc }
    else (d.dropBlock b.sid b.tag).pourDescriptor hd se { sid := b.sid, tag := b.tag, seq := b.seq0, payload := b.payload0 } data

/-- A POUR frame (04_dictionary Table 4): a whole descriptor, or a segment, as a block write's, whose first begins with the
total length. In MAINTENANCE it is answered so. -/
def Dev.pourFrame (d : Dev) (hd : Hdr) (payload : Bytes) : Dev :=
  match d.admission hd Op.pour payload (d.blockOp hd.session hd.tag Op.pour).isSome with
  | .stop d => d
  | .go d se =>
    let rq : PourReq := { sid := se.id, tag := hd.tag, seq := hd.seq, payload := payload }
    if d.nat Ob.bootPhase = 9 then d.pourAnswer rq Sc.maintenance 0
    else match d.blockOp se.id hd.tag Op.pour with
      | some b =>
        if hd.seg = b.next then
          d.pourSegment hd se { b with next := b.next + 1, data := b.data ++ payload, lastSeg := d.ext }
        else (d.ighViolation hd Sc.segmentOrder).sessionAnswer se hd.tag Op.pour 0 false
          { status := Sc.segmentOrder, detail := b.next }
      | none =>
        if hd.seg ≠ 0 then (d.ighViolation hd Sc.segmentOrder).pourAnswer rq Sc.segmentOrder 0
        else if !hd.more then d.pourDescriptor hd se rq payload
        else if payload.length < 4 then (d.ighViolation hd Sc.badLength).pourAnswer rq Sc.badLength 0
        else if 65536 < leAt payload 0 4 then d.pourAnswer rq Sc.blockSize 65536
        else
          let d := d.onSession se.id fun s =>
            { s with outst := { tag := hd.tag, op := Op.pour, payload, seq := hd.seq, at_ := d.ext } :: s.outst }
          d.pourSegment hd se { sid := se.id, part := se.part, tag := hd.tag, op := Op.pour, key := 0, cond := none,
                                next := 1, total := leAt payload 0 4, data := payload.drop 4, payload0 := payload,
                                seq0 := hd.seq, lastSeg := d.ext }

/-- POUR (R138-R143, R151). -/
def execPour (hd : Hdr) (payload : Bytes) (s : State) : Host.Outcome State Fault Refusal :=
  onDev (fun d => d.pourFrame hd payload) s

/-- POUR_STORE (R154, R155). -/
def execPourStore (hd : Hdr) (payload : Bytes) (s : State) : Host.Outcome State Fault Refusal :=
  onDev (fun d => d.pourFrame hd payload) s

/-- POUR_RECALL (R156, R273). -/
def execPourRecall (hd : Hdr) (payload : Bytes) (s : State) : Host.Outcome State Fault Refusal :=
  onDev (fun d => d.pourFrame hd payload) s

/-- No ramp or crossfade of a pour runs or waits. -/
def Dev.settled (d : Dev) (h : Nat) : Bool :=
  !(d.mix.ramps.any fun r => r.pour == h) && !(d.mix.filters.any fun w => w.pour == h)

/-- A flip of the pour came after a T already past when its shadows were loaded (R141). -/
def Pour.late (p : Pour) : Bool :=
  match p.loaded with
  | some t => after t p.target
  | none => false

/-- A pour is APPLIED (Table 4, R148): its fence is signalled, and 0x0101 where a flip was LATE. -/
def Dev.applyPour (d : Dev) (p : Pour) : Dev :=
  let ends := (p.report.filter fun r => !bit r.flags 2).map fun r => r.rampEnd
  let at_ := match ends with
    | [] => d.now
    | t :: l => l.foldl laterStamp t
  let d := (d.onPour p.handle fun p => { p with applied := at_ }).endPour p.handle 4 0
  let d := match p.signal with
    | some (f, v) => d.signalFence f v
    | none => d
  let d := d.bump Ob.poursApplied
  d.when (p.report.any fun r => bit r.flags 0) fun d =>
    (d.bump Ob.poursLate).event { code := 0x0101, island := Isl.ctl, d1 := p.handle }

/-- Pours whose last flip is done and whose last ramp has ended are APPLIED (Table 4). -/
def Dev.completePours (d : Dev) : Dev :=
  d.each (d.pours.live.map fun p => p.handle) fun d h =>
    match d.pour h with
    | none => d
    | some p =>
      if p.state ≠ 1 && p.loaded.isSome && p.parts == [] && atOrAfter d.now p.target && d.settled h then d.applyPour p else d

/-- POUR_SHADOW_LOADED (R143, R141). -/
def execPourShadowLoaded (handle : Nat) (s : State) : Host.Outcome State Fault Refusal :=
  onDev (fun d => match d.pour handle with
    | some p =>
      if p.state = 2 && p.loaded.isNone then (d.onPour handle fun p => { p with loaded := some d.now }).completePours else d
    | none => d) s

/-- POUR_GENERATION_RESERVED (R151, Table 4). -/
def execPourGenerationReserved (handle : Nat) (s : State) : Host.Outcome State Fault Refusal :=
  onDev (fun d => match d.pour handle with
    | some p => match p.gen with
      | some g =>
        if p.state = 1 && d.genFree g then ((d.onPour handle fun p => { p with state := 2 }).refreshHeld).armed p.entries else d
      | none => d
    | none => d) s

/-- POUR_BACKLOG_TIMEOUT (Table 4): the timeout has expired, or T is reached. -/
def execPourBacklogTimeout (handle : Nat) (s : State) : Host.Outcome State Fault Refusal :=
  onDev (fun d => match d.pour handle with
    | some p =>
      if p.state = 1 && (atOrAfter d.now (stampAdd p.accepted (p.timeout * 1000000 : Nat)) || atOrAfter d.now p.target) then
        ((d.endPour handle 5 Sc.pourBacklog).bump Ob.poursBacklogged).event
          { code := 0x0102, island := Isl.ctl, d1 := handle, d2 := (p.gen.getD 0 : Nat) }
      else d
    | none => d) s

/-- The conditions of PourCancel (R142). -/
def cancelConds : Conds :=
  { state := fun d se n => match d.pour n.toNat with
      | none => some { status := Sc.stateRefused }
      | some p =>
        if p.state = 3 then some { status := Sc.stateRefused }
        else if p.part = se.part || d.isInt se.part then none else some { status := Sc.notOwner, detail := p.part } }

/-- POUR_CANCEL (R142). -/
def execPourCancel (hd : Hdr) (cond : Option Nat) (v : Bytes) (s : State) : Host.Outcome State Fault Refusal :=
  onDev (fun d => d.writeReq cancelConds hd cond 0x2202 9 v fun _ n d =>
    (d.endPour n.toNat 6 0).bump Ob.poursCancelled) s

/-- Pours whose submitter has lost ownership of an object they name, before any flip (Table 4). `d0` is the device before
the ownership changed. -/
def Dev.cancelLost (d0 d : Dev) : Dev :=
  let own (d : Dev) (p : Pour) (e : PourEntry) : Bool := decide (d.ownerOf (e.key / 256) 0 = some (some p.part))
  d.each (d.pours.live.filter fun p => decide (p.state ≤ 2) && p.entries.any fun e => own d0 p e && !own d p e) fun d p =>
    ((d.endPour p.handle 6 Sc.notOwner).bump Ob.poursCancelled).event { code := 0x0103, island := Isl.ctl, d1 := p.handle }

/-- The first multiple of `n` at or after an extended instant, as a stamp. -/
def gridStamp (e : Int) (n : Nat) : Nat := ((-((-e) / (n : Int)) * n) % (span48 : Int)).toNat

/-- The domain whose samples a mix or audio unit flips at. -/
def Dev.flipDom (d : Dev) (uid : Nat) : Nat :=
  if 0x4760 ≤ uid ∧ uid ≤ 0x476F then unitDom d.reg (d.nat (Ob.bindTarget (uid - 0x4760))) else unitDom d.reg (uid * 256)

/-- The unit flips at a sample of a domain. -/
def sampled (uid : Nat) : Bool := decide (0x4001 ≤ uid ∧ uid ≤ 0x402F) || decide (0x4400 ≤ uid ∧ uid ≤ 0x476F)

/-- A unit's first natural boundary at or after a stamp (Table 5, 08_fusion_grid R197, 10_cupper_fallback R233); none where
what arrives or starts sets it. -/
def Dev.boundary (d : Dev) (uid base : Nat) : Option Nat :=
  let e := d.extOf base
  if 0x2130 ≤ uid ∧ uid ≤ 0x213C then
    let i := uid - 0x2130
    (d.anchorAt i (e - 1)).map fun (a, _) => ((d.nextAnchor i a).1 % (span48 : Int)).toNat
  else if 0x3200 ≤ uid ∧ uid ≤ 0x325F then some (gridStamp e d.tickNs)
  else if 0x3610 ≤ uid ∧ uid ≤ 0x3617 then
    some (stampAdd (gridStamp e (1000 * d.nat Ob.fbkCycle)) (1000 * d.nat Ob.fbkPointWait : Nat))
  else if sampled uid then
    let m := d.flipDom uid
    some (d.sampleStamp m (d.sampleAt m base))
  else if 0x4800 ≤ uid ∧ uid ≤ 0x4803 then
    let m := d.dacDom (uid - 0x4800)
    some (d.sampleStamp m (d.sampleAt m base))
  else if 0x4810 ≤ uid ∧ uid ≤ 0x4817 then
    some ((ceilDiv (ceilDiv (e.toNat * 12000) 1000000000 * 1000000000) 12000) % span48)
  else none

/-- A pulse output on a Base that has no anchor yet at a stamp (03_timing_unit R74, R79): nothing flips it. -/
def Dev.unanchored (d : Dev) (uid base : Nat) : Bool :=
  decide (0x2130 ≤ uid ∧ uid ≤ 0x213C) && (d.anchorAt (uid - 0x2130) (d.extOf base - 1)).isNone

/-- The stamp at which an island returned that was quiesced at the pour's T (R147). -/
def Dev.returnedFor (d : Dev) (p : Pour) (i : Nat) : Option Nat :=
  match kvGet p.shut i with
  | some t => some t
  | none => if d.closedAt i (d.extAt p.target) then some (d.nat (Ob.islLastReturnStamp (i - 1))) else none

/-- The stamp a unit of a pour flips at, where the flip is due now (R146, R147): its island open, its boundary reached, and
no batch of SOL in progress for a structure. A feed for which no engine was selected depends on no island. -/
def Dev.flipAt (d : Dev) (p : Pour) (x : PourPart) (island : Option Nat) : Option Nat :=
  match p.loaded with
  | none => none
  | some t =>
    let base := laterStamp p.target t
    let base := match island with
      | some i => (match d.returnedFor p i with
        | some t => laterStamp base t
        | none => base)
      | none => base
    let shut := match island with
      | some i => d.quiesced i
      | none => false
    if shut || !atOrAfter d.now base || (x.island == Isl.sol && d.sol.batch.isSome) || d.unanchored x.uid base then none
    else match d.boundary x.uid base with
      | some b => if atOrAfter d.now b then some b else none
      | none => some d.now

/-- The values of persisted objects that a unit of a pour flips are committed (R415); all of a pour count once. -/
def Dev.commitFlip (d : Dev) (h uid : Nat) (vals : List (Nat × Int)) : Dev :=
  let keep := vals.filter fun kv => match keyRow kv.1 with
    | some r => r.persisted
    | none => false
  if keep = [] then d
  else
    let d := match d.pour h with
      | some p => if p.counted then d else d.countCommit.onPour h fun p => { p with counted := true }
      | none => d
    d.onPours fun x => { x with commits := x.commits ++ [{ handle := h, uid := uid, vals := keep }] }

/-- The models that a flip of feeds has moved (09_tensor_engines R212): one newly triggered takes over the read position of a
model that the flip removes from its feed, the lowest of several. -/
def Dev.feedFlipped (d0 d : Dev) (es : List PourEntry) : Dev :=
  let ms := (List.range 32).filter fun m => es.any fun e =>
    (e.key == Ob.modelEnable m || e.key == Ob.modelInput m 0) && d0.reg e.key != d.reg e.key
  d.each ms fun d m =>
    let s := d.nat (Ob.modelInput m 0)
    let come (m : Nat) : Bool := (d.triggered s).contains m && !(d0.triggered s).contains m
    let gone := ms.filter fun g => (d0.triggered s).contains g && !(d.triggered s).contains g
    d.feedChanged m (if come m then (gone.head?).map fun g => (d0.model g).ready else none)

/-- The engine island of a feed's report entry (R212): that of the engine selected, else of the lowest engine in the mask of
the model newly triggered. -/
def Dev.feedIsland (d0 d : Dev) (src : Nat) (engine : Option (Fin 8)) : Nat :=
  match engine with
  | some e => Isl.ten + (e : Nat) / 2
  | none => d.lowestTen (((d.triggered src).find? fun m => !(d0.triggered src).contains m).getD (((d.triggered src).head?).getD 0))

/-- The entry ramps or crossfades (R149, R272): not with STEP, but a strip's Enable that changes always. -/
def rampsAt (d0 : Dev) (e : PourEntry) : Bool :=
  match mixKind e.key with
  | some 3 => false
  | some _ => !e.step || (decide (0x4400 ≤ e.key / 256 ∧ e.key / 256 ≤ 0x457F) && e.key % 256 == 4 && d0.reg e.key != e.value)
  | none => false

/-- The entry's filter is in a crossfade at a stamp, and waits (R150). -/
def Dev.filterWaits (d : Dev) (t : Nat) (e : PourEntry) : Bool :=
  mixKind e.key == some 2 && !e.step && d.fading e.key t

/-- Filter changes of a pour that wait, one for each filter. -/
def Dev.waitFilters (d : Dev) (h m len : Nat) (es : List PourEntry) : Dev :=
  d.each (firsts (es.map fun e => rampKey e.key)) fun d k => d.onMix fun x => { x with filters := x.filters ++
    [{ key := k, vals := (es.filter fun e => rampKey e.key == k).map fun e => (e.key, e.value), dom := m, len := len,
       pour := h, bind := none }] }

/-- A pour's flip of a mix object at a stamp discards what a binding set at the same sample (13_mix_engine R271). -/
def Dev.pouredAt (d : Dev) (k : Nat) (t : Nat) : Dev :=
  let d := d.onMix fun x => { x with poured := kvPut x.poured k t }
  match kvGet d.mix.bound k with
  | some (b, c) => if b = t then (d.onMix fun x => { x with bound := kvDel x.bound k }).discardControl c else d
  | none => d

/-- The unit's objects take their values (R140, R146), with what follows each change: a voice plays, a feed's models take
their places, a ramp starts. -/
def Dev.takeValues (d0 d : Dev) (p : Pour) (uid t m : Nat) (es : List PourEntry) : Dev :=
  let play (k : Nat) : Bool := decide (0x4758 ≤ k / 256 ∧ k / 256 ≤ 0x475B) && k % 256 == 7
  let d := d.each es fun d e => (if play e.key then d else d.set e.key e.value).bumpVer e.key
  let d := d.each es fun d e =>
    if play e.key then (if e.value = 1 then d.play (e.key / 256 - 0x4758) else d)
    else if 0x10000 ≤ uid then d
    else d0.written d e.key t
  let d := d.when (decide (0x10000 ≤ uid)) fun d => d0.feedFlipped d es
  let d := d.each (firsts ((es.filter (rampsAt d0)).map fun e => rampKey e.key)) fun d k =>
    (d0.shift d k m (d0.sampleAt m t) p.ramp).startRamp k m (d0.sampleAt m t) p.ramp p.handle
  let d := d.each (es.filter fun e => (mixKind e.key).isSome && !rampsAt d0 e) fun d e => d0.stepped d e.key t
  d.each (es.filter fun e => (mixKind e.key).isSome) fun d e => d.pouredAt e.key t

/-- A generation pour's flips (R151): at its first, G and every slot it does not name take its generation; a slot it names
does at its own. -/
def Dev.flipGeneration (d : Dev) (p : Pour) (uid : Nat) : Dev :=
  match p.gen with
  | none => d
  | some g =>
    let named (s : Nat) : Bool := p.entries.any fun e => e.key / 256 == 0x3000 + s
    let d := if p.state = 2 then
        (d.setN Ob.currentGeneration g).each ((List.range 32).filter fun s => !named s) fun d s =>
          d.onSlot s fun r => { r with gen := g }
      else d
    d.when (decide (0x3000 ≤ uid ∧ uid ≤ 0x301F)) fun d => d.onSlot (uid - 0x3000) fun r => { r with gen := g }

/-- A unit of a pour flips at stamp `t` (R146-R150); of feeds, the report has an entry for each (09_tensor_engines R212). -/
def Dev.flipUnit (d : Dev) (p : Pour) (x : PourPart) (t : Nat) (engine : Option (Fin 8)) : Dev :=
  let es := lastStand (p.entries.filter fun e => e.uid == x.uid)
  let m := d.flipDom x.uid
  let later := es.filter (d.filterWaits t)
  let go := es.filter fun e => !d.filterWaits t e
  let d1 := d.takeValues (d.flipGeneration p x.uid) p x.uid t m go
  let d1 := d1.waitFilters p.handle m p.ramp later
  let ramped := go.any (rampsAt d)
  let rep (island unit : Nat) : PourRep :=
    { uid := x.uid, island := island, unit := unit, flip := t,
      flags := p.late.toNat + 2 * (d.returnedFor p island).isSome.toNat + 8 * (!later.isEmpty).toNat,
      rampEnd := if ramped then d.sampleStamp m (d.sampleAt m t + p.ramp - 1) else t }
  let reps := if 0x10000 ≤ x.uid then x.feeds.map fun s => rep (d.feedIsland d1 s engine) s else [rep x.island x.unit]
  let d1 := d1.onPour p.handle fun p => { p with
    state := 3, parts := p.parts.filter fun y => y.uid != x.uid, report := (p.report ++ reps).take 128 }
  (d1.refreshHeld).commitFlip p.handle x.uid (go.map fun e => (e.key, d1.reg e.key))

/-- A part of a pour is the unit that `uid` names: a feed's by any of the feeds that flip together. -/
def PourPart.at (x : PourPart) (uid : Nat) : Bool := x.uid == uid || (decide (0x10000 ≤ uid) && x.feeds.contains (uid - 0x10000))

/-- Every pour due on a unit flips there, in order (R145, R146); `engine` is the engine selected for a dispatch on the feed. -/
def Dev.flipUid (d : Dev) (uid : Nat) (engine : Option (Fin 8)) : Dev :=
  let due := (pourOrder d.pours.live).filter fun p => p.state != 1 && p.parts.any fun x => x.at uid
  d.each due fun d p =>
    match d.pour p.handle, p.parts.find? fun x => x.at uid with
    | some p, some x =>
      let island := if 0x10000 ≤ uid then engine.map fun e => Isl.ten + (e : Nat) / 2 else some x.island
      match d.flipAt p x island with
      | some t => d.flipUnit p x t engine
      | none => d
    | _, _ => d

/-- Every pour due on some units flips there. -/
def Dev.flipAll (d : Dev) (uids : List Nat) (engine : Option (Fin 8)) : Dev :=
  (d.each uids fun d u => d.flipUid u engine).completePours

/-- An inference of a feed would find no engine: each of the models it triggers is resident and has none usable (R212, R213). -/
def Dev.noTaker (d : Dev) (src : Nat) : Bool := (d.triggered src).all fun m => d.resident m && d.usable m == []

/-- Slot `s` is bound to a source, or a pour held will bind it. -/
def Dev.slotBinds (d : Dev) (s : Nat) : Bool :=
  d.reg (Ob.slotSourceKind s) != 0
    || d.pours.live.any fun p => p.entries.any fun e => e.key == Ob.slotSourceKind s && e.value != 0

/-- The natural boundary of a unit may be now (R146, Table 5). A slot flips with its next item, but one bound to no source now or
then; a feed with the dispatch of an inference it triggers, on the engine named, or with an item that finds no engine (R212);
a structure with its next batch, but one without a RequestQueue (11_solver R245). -/
def Dev.flipNow (d : Dev) (uid : Nat) (engine : Option (Fin 8)) : Bool :=
  if 0x10000 ≤ uid then
    match engine with
    | none => d.noTaker (uid - 0x10000) && d.feedWaits (uid - 0x10000)
    | some e => (d.canaryFor e).isNone && (match d.chosen e with
      | some r => d.nat (Ob.modelInput r.model 0) == uid - 0x10000
      | none => false)
  else if 0x3000 ≤ uid ∧ uid ≤ 0x301F then !d.slotBinds (uid - 0x3000)
  else if 0x3840 ≤ uid ∧ uid ≤ 0x387F then
    d.solFree && (d.nextRequest == some (uid - 0x3840) || d.nat (Ob.structRequestQueue (uid - 0x3840)) == 0xFFFF)
  else true

/-- POUR_FLIP (R145, R146): every pour due on a unit flips there at its natural boundary, in order; `engine` is the engine
selected for a dispatch on the feed. -/
def execPourFlip (uid : Nat) (engine : Option (Fin 8)) (s : State) : Host.Outcome State Fault Refusal :=
  onDev (fun d => if d.flipNow uid engine then d.flipAll [uid] engine else d) s

/-- A filter change that waited takes effect at sample `j` (R150); a pour's report entry takes its crossfade's end. -/
def Dev.startFilter (d : Dev) (w : FilterWait) (j : Nat) : Dev :=
  let stop := d.sampleStamp w.dom (j + w.len - 1)
  match w.bind, w.vals with
  | some c, (k, v) :: _ => d.applyControl c k v w.dom j w.len
  | _, _ =>
    let d := d.shift (d.each w.vals fun d kv => (d.set kv.1 kv.2).bumpVer kv.1) w.key w.dom j w.len
    let d := d.startRamp w.key w.dom j w.len w.pour
    let d := d.each w.vals fun d kv => d.pouredAt kv.1 (d.sampleStamp w.dom j)
    let d := d.onPour w.pour fun p => { p with report := p.report.map fun r =>
      if r.uid = w.key / 256 then { r with rampEnd := laterStamp r.rampEnd stop } else r }
    d.commitFlip w.pour (w.key / 256) w.vals

/-- Whether an end of ramp of `key` at stamp `t` is a voice's fade after Stop (13_mix_engine R269). -/
def Dev.endFade (d : Dev) (key : Nat) : Dev :=
  d.each ((List.range 4).filter fun k => key == Ob.voiceStop k && (d.voice k).fade.isSome) fun d k =>
    (d.setVoice k { d.voice k with fade := none, done := true }).set (Ob.voiceState k) 0

/-- RAMP_END (R149, R150): ramps and crossfades of `key` whose last sample has passed end; the next change that waits for
the filter starts at the sample after. -/
def execRampEnd (key : Nat) (s : State) : Host.Outcome State Fault Refusal :=
  onDev (fun d =>
    let past (r : Ramp) : Bool := r.key == key && atOrAfter d.now r.stop
    match d.mix.ramps.filter past with
    | [] => d
    | r :: l =>
      let last := l.foldl (fun t x => laterStamp t x.stop) r.stop
      let d := (d.onMix fun x => { x with ramps := x.ramps.filter fun y => !past y }).endFade key
      let d := match d.mix.filters.find? fun w => w.key == key with
        | some w =>
          if d.fading key d.now then d
          else (d.onMix fun x => { x with filters := x.filters.erase w }).startFilter w (d.sampleAt w.dom (stampAdd last 1))
        | none => d
      d.completePours) s

/-- POUR_COMMIT_DONE (R415): the commit of what a pour flipped at a unit is done. -/
def execPourCommitDone (handle uid : Nat) (s : State) : Host.Outcome State Fault Refusal :=
  onDev (fun d => match d.pours.commits.find? fun c => c.handle == handle && c.uid == uid with
    | none => d
    | some c => ((d.onPours fun x => { x with commits := x.commits.erase c }).each c.vals Dev.toFlash).bump Ob.persistCommits) s

/-- A scene is empty, in embedded flash too (R155). -/
def Dev.eraseScene (d : Dev) (n : Nat) : Dev :=
  let vals := sceneVals n 0 0xFF 0 0
  let d := ((d.each vals fun d kv => d.set kv.1 kv.2).setBlob (Ob.sceneContent n) []).each vals Dev.toFlash
  d.blobToFlash (Ob.sceneContent n, [])

/-- SCENE_ERASE (R155). -/
def execSceneErase (hd : Hdr) (cond : Option Nat) (scene : Fin 64) (s : State) : Host.Outcome State Fault Refusal :=
  onDev (fun d => d.writeReq {} hd cond (0x2240 + scene) 6 [1] fun _ _ d => d.eraseScene scene) s

/-- A flip unit of a pour is absent (R147): a strip of a dropped lane, or a feed none of whose models has a present engine
in its mask. -/
def Dev.unitGone (d : Dev) (p : Pour) (x : PourPart) : Bool :=
  if 0x4400 ≤ x.uid ∧ x.uid ≤ 0x457F then !d.laneUp (x.uid - 0x4400)
  else if 0x10000 ≤ x.uid then
    let d1 := d.overlay p.entries
    let ms := (firsts ((p.entries.filter fun e => e.uid == x.uid).map fun e => e.key / 256 - 0x3420)).filter fun m =>
      d1.flag (Ob.modelEnable m)
    !ms.isEmpty && ms.all fun m => !d.maskPresent (d.nat (Ob.modelEngineMask m))
  else false

/-- Parts of pours whose unit has become absent are discarded (R147), with 0x0104. The report gives them no flip: their
stamps are free values. -/
def Dev.refreshPours (d : Dev) : Dev :=
  let d := d.each d.pours.live fun d p =>
    d.each (p.parts.filter (d.unitGone p)) fun d x =>
      let t := Config.absentStamp d.fresh % span48
      let reps := (if x.feeds = [] then [x.unit] else x.feeds).map fun u =>
        ({ uid := x.uid, island := x.island, unit := u, flags := 4, flip := t, rampEnd := t } : PourRep)
      (d.drawn.onPour p.handle fun p => { p with
        parts := p.parts.filter fun y => y.uid != x.uid, report := (p.report ++ reps).take 128 }).event
        { code := 0x0104, island := Isl.ctl, d1 := p.handle, d2 := x.island }
  d.completePours

/-- MIX_LANE_DROP (R275). -/
def execMixLaneDrop (lane : Fin 4) (s : State) : Host.Outcome State Fault Refusal :=
  onDev (fun d => (d.dropLane lane).refreshPours) s

/-- A pour's report (Table 6). -/
def Pour.reportBytes (p : Pour) : Bytes :=
  p.report.flatMap fun r =>
    leBytes 1 r.island ++ leBytes 1 r.flags ++ leBytes 2 r.unit ++ leBytes 6 r.flip ++ leBytes 6 r.rampEnd

end Sys2Proof.Machine
end

