-- ==== Sys2Proof/Machine/Boundaries.lean ====
section
/-! DEFINITION. Events that are a flip unit's natural boundary (06_pours Table 5): a slot's next item, a feed's next inference
and a structure's next batch. Each first flips the pours due there, so that it goes on under the new values (R146). -/
namespace Sys2Proof.Machine

/-- The slots that a pour changes and that an event meets (`hit`), under their settings in force or under those of the pour. -/
def Dev.slotUnits (d : Dev) (hit : (Nat → Int) → Nat → Bool) : List Nat :=
  ((List.range 32).filter fun s => d.pours.live.any fun p => p.parts.any (fun x => x.uid == 0x3000 + s)
    && (hit d.reg s || hit (d.overlay (p.entries.filter fun e => e.uid == 0x3000 + s)).reg s)).map fun s => 0x3000 + s

/-- The pours due on the slots that an event meets flip there (R146, 07_sensor_ingest R159): not in the middle of an item. -/
def Dev.flipSlots (d : Dev) (hit : (Nat → Int) → Nat → Bool) : Dev :=
  d.flipAll (d.slotUnits fun g s => hit g s && (d.slot s).frame.isNone && (d.slot s).busyAt.isNone) none

/-- A slot's settings take source `kind`, and its parameters meet a test. -/
def slotHit (kind : Int) (f : (Nat → Nat) → Nat → Bool) (g : Nat → Int) (s : Nat) : Bool :=
  g (Ob.slotSourceKind s) == kind
    && f (fun n => (g (Ob.slotKindParam s n)).toNat) (g (Ob.slotSourceSelect s)).toNat

/-- CSI_FRAME_START (07_sensor_ingest R168, R170, R171): a frame still open is closed, the slots of the virtual channel flip, and
the new frame begins. -/
def execCsiFrameStart (port : Fin 6) (vc : Fin 4) (s : State) : Host.Outcome State Fault Refusal :=
  onDev (fun d =>
    if !d.running || d.quiesced Isl.csi then d
    else
      let (cut, d) := d.csiCut port vc
      (d.flipSlots (slotHit 1 fun _ sel => sel == (port : Nat) + 16 * vc)).csiFrameStart port vc cut) s

/-- SCANNER_DATAGRAM (07_sensor_ingest R172-R174): the SFD arrives now. A frame before ServiceReady is dropped and counted
(05_start_up Table 7). -/
def execScannerDatagram (port : Fin 2) (srcIp dstPort : Nat) (fragmented : Bool) (payload : Bytes) (found : Found)
    (s : State) : Host.Outcome State Fault Refusal :=
  onDev (fun d =>
    if !d.ready then d.bump Ob.ethBeforeReady
    else if d.quiesced (Isl.eta + port) then d
    else
      let d := d.flipSlots (slotHit 2 fun kp sel => sel % 2 == (port : Nat) && kp 0 == srcIp && kp 1 % 65536 == dstPort)
      d.scannerDatagram port srcIp dstPort fragmented payload found) s

/-- IMU_DRDY_EDGE (07_sensor_ingest R175, R176): the active edge starts a read, or is an overrun. -/
def execImuDrdyEdge (port : Fin 4) (rising : Bool) (s : State) : Host.Outcome State Fault Refusal :=
  onDev (fun d =>
    if !d.running || d.quiesced Isl.sns then d
    else (d.flipSlots (slotHit 3 fun kp sel => sel % 4 == (port : Nat) && rising != bit (kp 0) 18)).imuDrdy port rising) s

/-- ENCODER_TRANSITION (07_sensor_ingest R177): the slot of the channel flips at the edge (log 155). -/
def execEncoderTransition (ch : Fin 8) (step : Option Bool) (s : State) : Host.Outcome State Fault Refusal :=
  onDev (fun d =>
    if !d.running || d.quiesced Isl.sns then d
    else (d.flipSlots (slotHit 4 fun _ sel => bit sel ch)).encoderStep ch step) s

/-- ENCODER_PERIOD_END (07_sensor_ingest R178). -/
def execEncoderPeriodEnd (slot : Fin 32) (s : State) : Host.Outcome State Fault Refusal :=
  onDev (fun d =>
    if !d.running || d.quiesced Isl.sns then d
    else (d.flipSlots fun g i => i == (slot : Nat) && g (Ob.slotSourceKind i) == 4).encoderPeriod slot) s

/-- CAN_SENSOR_FRAME (07_sensor_ingest R179): acknowledged as by an ordinary node (not before ServiceReady, 05_start_up Table 7);
its start-of-frame edge is now. A frame that fails its check becomes no item. -/
def execCanSensorFrame (ctl : Fin 2) (id : Nat) (extended : Bool) (data : Bytes) (found : Found) (s : State) :
    Host.Outcome State Fault Refusal :=
  onDev (fun d =>
    if !d.running || !d.flag (Ob.canEnable ctl) || d.reg (Ob.canErrorState ctl) == 2 then d
    else if !found.checkOk then d.countCan ctl true
    else
      let d := (d.countCan ctl false).send (.canAck ctl)
      if d.quiesced Isl.sns then d
      else (d.flipSlots (slotHit 5 fun kp sel => sel % 2 == (ctl : Nat) && canMatch (kp 0) (kp 1) id extended)).canSensor
        ctl id extended data found) s

/-- INFERENCE_TRIGGER (09_tensor_engines R206, R207): the oldest waiting item of source `src` reaches its models. Where it finds
no engine, the feed flips first (R212). -/
def execInferenceTrigger (src : Nat) (s : State) : Host.Outcome State Fault Refusal :=
  onDev (fun d => (d.when (d.flipNow (0x10000 + src) none) fun d => d.flipAll [0x10000 + src] none).feedItem src) s

/-- INFERENCE_DISPATCH (09_tensor_engines R208, R209, R211): free engine `e` takes a canary, or the ready inference with the
earliest deadline, at which its feed flips (R212). -/
def execInferenceDispatch (e : Fin 8) (s : State) : Host.Outcome State Fault Refusal :=
  onDev (fun d =>
    let d := if (d.canaryFor e).isSome then d else match d.chosen e with
      | some r => d.flipAll [0x10000 + d.nat (Ob.modelInput r.model 0)] (some e)
      | none => d
    d.dispatch e) s

/-- SOLVER_BATCH_START (11_solver R237, R238, R245): the structure whose batch starts flips first, and those that have no
RequestQueue (log 155). -/
def execSolverBatchStart (s : State) : Host.Outcome State Fault Refusal :=
  onDev (fun d =>
    if !d.solFree then d
    else
      let l := ((List.range 64).filter fun n => d.flipNow (0x3840 + n) none).map fun n => 0x3840 + n
      (d.flipAll l none).startBatch) s

end Sys2Proof.Machine
end

