-- ==== Sys2Proof/Machine/Power.lean ====
section
/-! DEFINITION. Power states, the power cap and heat (19_power_dies R373-R386), dies lost at run time (R390, 01_console_model
R12, R14), quiesce fences, island faults and island control (R393-R397, 03_timing_unit R63), and the live update
(05_start_up R132). -/
namespace Sys2Proof.Machine

/-- Entry time of a power state in ns (Table 1). -/
def entryNs (st : Nat) : Nat := ([0, 1000, 20000, 400000, 2000000] : List Nat).getD st 0

/-- The idle time a power state requires in ns (Table 1). -/
def idleNs (st : Nat) : Nat := ([0, 10000, 1000000, 20000000, 100000000] : List Nat).getD st 0

/-- The islands a power state stops (Table 1). -/
def stops (st : Nat) : List Nat :=
  (if 1 ≤ st then [18, 19, 20, 21] else []) ++ (if 3 ≤ st then [22, 23, 24, 25] else [])
    ++ (if st = 4 then [Isl.drc, Isl.csi, Isl.sol, Isl.mix, Isl.apt] else [])

/-- TEN0-3 and DCK0-3 are idle (R375). -/
def Dev.tensorIdle (d : Dev) : Bool :=
  d.ten.running.isEmpty && d.ten.again.isEmpty && d.ten.models.all fun e =>
    e.2.ready.isEmpty && !e.2.canaryDue && e.2.canary.isNone && !e.2.canaryRun && e.2.copying.isEmpty && e.2.scanNext == 0

/-- The islands that only A4 stops, and the stages of FUS, are idle (R375). -/
def Dev.restIdle (d : Dev) : Bool :=
  d.ten.loads.isEmpty && d.virek.conns.isEmpty
    && d.queues.all (fun e => !d.isSpill e.1 || (beyondHead e.2.items).isEmpty)
    && (List.range 32).all (fun s => !(d.flag (Ob.slotEnable s) && d.nat (Ob.slotSourceKind s) == 1))
    && (List.range 64).all (fun s => !d.flag (Ob.structEnable s))
    && (List.range 32).all (fun p => !d.flag (Ob.portEnable p)) && (List.range 384).all (fun s => !d.flag (Ob.stripEnable s))
    && (List.range 64).all (fun r => d.routeStateNow r == 0) && (List.range 4).all (fun k => !d.flag (Ob.bfEnable k))
    && (List.range 8).all (fun k => !d.flag (Ob.toneEnable k)) && (List.range 4).all (fun k => d.reg (Ob.voiceState k) == 0)
    && (List.range 4).all (fun g => !d.flag (Ob.gridEnable g)) && !d.flag Ob.resampleEnable

/-- The islands that are not idle are noted: TEN and DCK, and the others that A4 stops, at the present instant. -/
def Dev.noteBusy (d : Dev) : Dev :=
  if !d.ready then d
  else d.onPow fun p => { p with
    tenAt := if d.tensorIdle then p.tenAt else d.ext, restAt := if d.restIdle then p.restAt else d.ext }

/-- One tick of the timeline: what is not idle then was not idle up to then (R375). -/
def Dev.clock (d : Dev) : Dev := d.tick.noteBusy

/-- A state was eligible `taken` ns ago (R375): every island it stops is idle and had been for its time. -/
def Dev.eligible (d : Dev) (st taken : Nat) : Bool :=
  d.tensorIdle && decide (idleNs st + taken ≤ d.ago d.pow.tenAt)
    && (st != 4 || (d.restIdle && decide (idleNs st + taken ≤ d.ago d.pow.restAt)))

/-- The known deadlines (R381), those still ahead. -/
def Dev.knownDeadlines (d : Dev) : List Nat :=
  let fences := (d.fences.filter fun e => e.2.enabled && d.waits.any fun w => w.fence == e.1).map fun e => e.2.deadline
  let pours := (d.pours.live.filter fun p => decide (p.state ≤ 2)).map fun p => p.target
  let trains := (d.tu.trains.filter fun e => decide ((d.ext : Int) < e.2.start)).map fun e => (e.2.start % (span48 : Int)).toNat
  let held := d.tu.held.filterMap fun h => match h.cmd with
    | .pulse i => some (d.nat (Ob.pulseStartStamp i))
    | _ => none
  let audio := d.aud.ports.filterMap fun e => e.2.startAt
  let dacs := d.ana.startAt.map fun e => e.2
  let voices := (d.mix.voices.filter fun e => d.reg (Ob.voiceState e.1) == 0).filterMap fun e => e.2.startAt
  (fences ++ pours ++ trains ++ held ++ audio ++ dacs ++ voices).filter fun t => after t d.now

/-- NextKnownDeadline. -/
def Dev.nextDeadline (d : Dev) : Option Nat :=
  d.knownDeadlines.foldl (fun b t => match b with
    | none => some t
    | some x => some (if after x t then t else x)) none

/-- A DAC fed by a route gives code 0 while MIX does not run (14_analog_beacon R287). -/
def Dev.routesSilent (d : Dev) : Dev :=
  d.each ((List.range 4).filter fun ch => d.reg (Ob.dacSource ch) == 0) fun d ch => d.driveReleased ch 0

/-- The islands of a state stop (Table 7). -/
def Dev.stopIslands (d : Dev) (st : Nat) : Dev :=
  let d := d.each (stops st) fun d i => d.when (d.isl i == 0) fun d => d.set (Ob.islState (i - 1)) 1
  d.when (st == 4) Dev.routesSilent

/-- Entry and exit of a state, decided `taken` ns ago, end before the next known deadline (R379, R381). -/
def Dev.roomFor (d : Dev) (st taken : Nat) : Bool :=
  d.nextDeadline.all fun t => decide (((entryNs st + exitNs st : Nat) : Int) ≤ stampDiff t d.now + taken)

/-- The deepest state that meets the conditions of R379, for a decision `taken` ns ago. -/
def Dev.deepest (d : Dev) (taken : Nat) : Nat :=
  (([4, 3, 2, 1] : List Nat).find? fun st => d.admits st && d.eligible st taken && d.roomFor st taken).getD 0

/-- POWER_STATE_ENTRY (R373, R379, R380): the entry to state `st`, decided `taken` ns ago, ends. The state holds where it still
is the deepest one that meets the conditions (log 113). -/
def execPowerStateEntry (st : Fin 5) (taken : Nat) (s : State) : Host.Outcome State Fault Refusal :=
  onDev (fun d =>
    let old := d.nat Ob.powerState
    let busy := (List.range 25).any fun i => decide (2 ≤ d.isl (i + 1) ∧ d.isl (i + 1) ≤ 4)
    if !d.ready || busy || d.pow.exiting || (st : Nat) ≤ old || entryNs st < taken || d.deepest taken ≠ st then d
    else
      let d := ((d.closeResidency.setN Ob.powerState (st : Nat)).setN Ob.lastStateChange d.now).stopIslands st
      d.event { code := 0x8001, d1 := old, d2 := st }) s

/-- DEMAND_WAKE (R376): a request needs island `island` + 1, which a power state has stopped. -/
def execDemandWake (island : Fin 25) (s : State) : Host.Outcome State Fault Refusal :=
  onDev (fun d =>
    if d.isl ((island : Nat) + 1) = 1 && !d.pow.exiting then (d.bump Ob.demandWakes).beginExit else d) s

/-- EARLY_WAKE (R381). -/
def execEarlyWake (s : State) : Host.Outcome State Fault Refusal :=
  onDev (fun d =>
    match d.nextDeadline with
    | none => d
    | some t =>
      if d.nat Ob.powerState = 0 || d.pow.exiting || decide ((exitNs (d.nat Ob.powerState) : Int) < stampDiff t d.now) then d
      else ((d.bump Ob.earlyWakes).event { code := 0x8002, d1 := t }).beginExit) s

/-- POWER_STATE_EXIT_DONE (R377): the islands the state stopped run again; those held or absent stay so. -/
def execPowerStateExitDone (s : State) : Host.Outcome State Fault Refusal :=
  onDev (fun d =>
    if !d.pow.exiting then d
    else
      let old := d.nat Ob.powerState
      let d := d.each (List.range 25) fun d i => d.when (d.isl (i + 1) == 1) fun d => d.set (Ob.islState i) 0
      let d := ((d.closeResidency.setN Ob.powerState 0).setN Ob.lastStateChange d.now).onPow fun p => { p with exiting := false }
      d.event { code := 0x8001, d1 := old, d2 := 0 }) s

/-- WAKE_TOLERANCE_WRITE (R382): a partition's WakeTolerance, or PowerStateLimit. -/
def execWakeToleranceWrite (hd : Hdr) (cond : Option Nat) (part : Option (Fin 8)) (v : Bytes) (s : State) :
    Host.Outcome State Fault Refusal :=
  onDev (fun d => match part with
    | some p => d.writeStore {} hd cond (0x1401 + p) 1 v fun _ _ d => d.powerCheck
    | none => d.writeStore {} hd cond 0x1400 2 v fun _ _ d => d.powerCheck) s

/-- POWER_CAP_WINDOW (R383): the average input power of the 10 ms window, mW. While the I/O die is hot the budget stays at
2 or lower (R386). -/
def execPowerCapWindow (avg : Nat) (s : State) : Host.Outcome State Fault Refusal :=
  onDev (fun d =>
    let d := d.setN Ob.inputPower (Nat.min avg 4294967295)
    let cap := 1000 * d.nat Ob.powerCap
    let b := d.nat Ob.engineBudget
    if cap < avg then
      let d := d.onPow fun p => { p with under := 0 }
      if 1 < b then d.setN Ob.engineBudget (b - 1)
      else if b = 0 then d
      else
        let due := match d.pow.capAt with
          | some t => decide (1000000000 ≤ d.ago t)
          | none => true
        d.when due fun d => (d.onPow fun p => { p with capAt := some d.ext }).event { code := 0x8051, d1 := avg }
    else if avg + 2000 ≤ cap then
      let n := d.pow.under + 1
      if n < 10 then d.onPow fun p => { p with under := n }
      else
        let most := if d.pow.hot then Nat.min 2 (d.nat Ob.enginesInUseCount) else d.nat Ob.enginesInUseCount
        (d.onPow fun p => { p with under := 0 }).setN Ob.engineBudget (if b < most then b + 1 else b)
    else d.onPow fun p => { p with under := 0 }) s

/-- A temperature is recorded, in 0.1 °C, for die 0 (I/O) or 1 + d, with its peak since start. -/
def Dev.recordTemp (d : Dev) (i : Nat) (t : Int) : Dev :=
  let first := !d.pow.sampled.contains i
  let d := d.set (Ob.thermTemperature i) t
  let d := if first || decide (d.reg (Ob.thermPeakTemperature i) < t) then d.set (Ob.thermPeakTemperature i) t else d
  d.when first fun d => d.onPow fun p => { p with sampled := i :: p.sampled }

/-- The throttle level after a temperature (Table 3), `level` before it. -/
def throttle (level : Nat) (t : Int) : Nat :=
  let reach (less : Int) : Nat := if 1050 - less ≤ t then 3 else if 1000 - less ≤ t then 2 else if 950 - less ≤ t then 1 else 0
  Nat.max (reach 0) (Nat.min level (reach 30))

/-- A compute die's temperature sets its deck's throttle level (R384, R385). -/
def Dev.dieTemp (d : Dev) (die : Nat) (t : Int) : Dev :=
  let d := d.recordTemp (1 + die) t
  let old := d.nat (Ob.thermThrottleLevel (1 + die))
  let l := throttle old t
  if l = old then d
  else
    let d := (d.setN (Ob.thermThrottleLevel (1 + die)) l).event { code := 0x8020, d1 := die, d2 := l }
    d.when (l == 3) fun d => (d.event { code := 0x8021, d1 := die }).abandonDie die

/-- The I/O die is hot or has cooled (R386). -/
def Dev.ioTemp (d : Dev) (t : Int) : Dev :=
  if !d.pow.hot && decide (1050 ≤ t) then
    let d := (d.onPow fun p => { p with hot := true }).setN Ob.engineBudget (Nat.min 2 (d.nat Ob.engineBudget))
    d.event { code := 0x8022, d1 := t }
  else if d.pow.hot && decide (t < 1020) then d.onPow fun p => { p with hot := false }
  else d

/-- The thermal trip (R386): the safe outputs, 0x8023, and full reset until the I/O die has cooled. -/
def Dev.thermalTrip (d : Dev) (t : Int) : Dev :=
  let d := d.safeRestart { code := 0x8023, d1 := t } 7
  (d.set Ob.bootPhase 0).onPow fun p => { p with tripped := true }

/-- TEMPERATURE_SAMPLE (R384-R386): junction temperatures in 0.1 °C of the I/O die and of compute dies 0-3; a die not in use
is not measured. -/
def execTemperatureSample (io : Int) (dies : List Int) (s : State) : Host.Outcome State Fault Refusal :=
  onDev (fun d =>
    if d.nat Ob.bootPhase = 0 then d
    else if 1150 ≤ io then (d.recordTemp 0 io).thermalTrip io
    else
      let d := (d.recordTemp 0 io).ioTemp io
      d.each d.dies fun d die => match dies[die]? with
        | some t => d.dieTemp die t
        | none => d) s

/-- THERMAL_TRIP_COOLED (R386): below 95 °C start-up repeats from SUPPLY with BootCause 7, or waits for VIN
after a brownout meanwhile. -/
def execThermalTripCooled (io : Int) (s : State) : Host.Outcome State Fault Refusal :=
  onDev (fun d =>
    if d.pow.tripped && decide (io < 950) then
      let d := d.onPow fun p => { p with tripped := false }
      if d.pins.vin = 2 then (d.set Ob.bootPhase 1).setN Ob.bootCause 7 else d
    else d) s

/-- A compute die is lost at run time (R390, R14): counts first, then its engines, its placements and the parts of pours
that need them. -/
def Dev.dropDie (d : Dev) (die cause : Nat) : Dev :=
  if !d.dies.contains die then d
  else
    let d := (d.loseDie die cause).refreshMask.abandonDie die
    (d.each (List.range 32) fun d m => d.setPlaced m die 0).refreshPours.powerCheck

/-- The link of a die to the I/O die is down (R14): in use it is dropped at run time; found so in DISCOVERY, it fails there. -/
def Dev.linkDown (d : Dev) (die : Nat) : Dev :=
  if d.dies.contains die then d.dropDie die 1
  else if d.discovering die then d.loseDie die 1
  else d.set (Ob.dieLinkState die) 0

/-- LINK_TRANSFER_ERROR (R12-R14): a transfer on a link was replayed `replays` times; after eight in a row the link retrains
once, and if that fails it is down. Links 0-3 reach compute dies 0-3, links 4-7 are ring links 0-3 (log 150). -/
def execLinkTransferError (link : Fin 8) (replays : Nat) (retrained : Bool) (s : State) : Host.Outcome State Fault Refusal :=
  onDev (fun d =>
    let n : Nat := link
    if n < 4 then
      if d.reg (Ob.dieLinkState n) ≠ 1 then d
      else
        let d := d.bumpBy (Ob.dieLinkReplays n) replays
        if replays < 8 then d
        else
          let d := d.bump (Ob.dieLinkRetrains n)
          if retrained then d.event { code := 0x8032, d1 := n } else d.linkDown n
    else if d.reg (Ob.ringLinkState (n - 4)) ≠ 1 || replays < 8 then d
    else if retrained then d.event { code := 0x8032, d1 := n }
    else d.setRing (n - 4) false) s

/-- MIX stops: its ramps are at their targets, filter changes that waited have taken effect (13_mix_engine R276), and the DACs it
feeds give code 0 (14_analog_beacon R287). -/
def Dev.mixStops (d : Dev) : Dev :=
  let l := d.mix.filters
  let d := (d.onMix fun x => { x with filters := [] }).each l fun d w => d.startFilter w (d.sampleAt w.dom d.now)
  let fades := (d.mix.ramps.map fun r => r.key)
  let d := (d.onMix fun x => { x with ramps := [] }).each fades Dev.endFade
  d.completePours.routesSilent

/-- The slots of an island follow its state. -/
def Dev.refreshSlots (d : Dev) (i : Nat) : Dev :=
  d.each ((List.range 32).filter fun s => d.slotIsl s == i) fun d s => d.refreshSlot s

/-- What the closing of an island's boundary does to its own work. -/
def Dev.islandStops (d : Dev) (i : Nat) : Dev :=
  if i = Isl.ctl then d.endSessions .ctl fun _ => true
  else if Isl.ten ≤ i ∧ i < Isl.dck then d.abandonDie (i - Isl.ten)
  else if i = Isl.mix then d.mixStops
  else if i = Isl.ana then d.anaQuiesced
  else if i = Isl.eta ∨ i = Isl.etb then (((d.set (Ob.ethLinkState (i - Isl.eta)) 2).portDown (i - Isl.eta)).ptpPortCheck (i - Isl.eta)).refreshSlots i
  else if i = Isl.drc then d.virekCut
  else if i = Isl.csi ∨ i = Isl.sns then d.refreshSlots i
  else if i = Isl.fus ∨ i = Isl.fbk ∨ i = Isl.cup then d.refreshChannels
  else d

/-- ANA returns: SYN-DAC calibrates (03_timing_unit Table 6), and the beacon receivers hunt for a sync byte that begins from now on
(14_analog_beacon R292). -/
def Dev.anaReturns (d : Dev) : Dev :=
  (d.set (Ob.synthState 3) 1).each (List.range 2) Dev.beaconWritten

/-- What an island's return does to its own work. -/
def Dev.islandStarts (d : Dev) (i : Nat) : Dev :=
  if i = Isl.tmg then d.tmgReturns
  else if i = Isl.ana then d.anaReturns
  else if i = Isl.sol then d.abandonBatch
  else if i = Isl.mix then d.mixReturns
  else if i = Isl.qmg then d.qmgReturns
  else if i = Isl.apt then
    d.each [1, 2] fun d y => d.when ((kvGet d.aud.fam y).getD 0 == 44) fun d => d.set (Ob.synthState y) 1
  else if i = Isl.eta ∨ i = Isl.etb then (d.set (Ob.ethLinkState (i - Isl.eta)) 0).refreshSlots i
  else if i = Isl.csi ∨ i = Isl.sns then d.refreshSlots i
  else if i = Isl.fus ∨ i = Isl.fbk ∨ i = Isl.cup then d.refreshChannels
  else d

/-- A quiesce fence closes around island `i` (R393). -/
def Dev.quiesce (d : Dev) (i cause : Nat) : Dev := (d.closeIsland i cause).islandStops i

/-- An island that faulted has returned from a fault within the last second (R396). -/
def Dev.faultedAgain (d : Dev) (i : Nat) : Bool :=
  d.nat (Ob.islLastResetCause (i - 1)) == 2 && (match (kvGet d.islAt i).bind fun x => x.back with
    | some t => decide (d.ago t < 1000000000)
    | none => false)

/-- An island fault (R396): FIO and PCI take the device with them; another island resets once, and is held at the second
fault. CUP's is also that of 10_cupper_fallback R220. -/
def Dev.faultIsland (d : Dev) (i : Nat) : Dev :=
  if i = Isl.fio ∨ i = Isl.pci then d.safeRestart { code := 0x8043, d1 := i } 8
  else if d.quiesced i then d
  else if d.faultedAgain i then
    let d := (d.event { code := 0x8042, island := i, d1 := i, mirror := true }).quiesce i 5
    d.when (i == Isl.cup) fun d => (((d.event { code := 0x7001, island := Isl.cup, d1 := 1, mirror := true }).bump
      Ob.lockstepFaults).set Ob.cupperState 2).refreshChannels
  else if i = Isl.cup then d.lockstepFault 1
  else d.quiesce i 2

/-- The count a clock should show in a window of 4,096 crystal cycles (R58, R61): 0 is the root, 1-25 the islands, 26 CUP by
its second monitor, on the RC oscillator. -/
def expectedCount (clock : Nat) : Nat :=
  let i := if clock = 26 then Isl.cup else clock
  if i = 0 then 204800 else 204800 / (Nat.max 1 (objDefault (Ob.islandDivision (i - 1))).toNat)

/-- A clock has stopped or deviates by more than 1 % from its expected count (R63). -/
def deviates (c : Nat × Nat) : Bool := decide (expectedCount c.1 < 100 * ((c.2 : Int) - expectedCount c.1).natAbs)

/-- CLOCK_MONITOR_WINDOW (R63): `counts` are clocks with what was counted of them in the window. An island that a power state
or a quiesce has stopped is not to run. A fault of the root, which clocks every island, is handled as one on FIO
(log 151). -/
def execClockMonitorWindow (counts : List (Nat × Nat)) (s : State) : Host.Outcome State Fault Refusal :=
  onDev (fun d =>
    d.each ((counts.filter fun c => decide (c.1 ≤ 26) && deviates c).map fun c => if c.1 = 26 then Isl.cup else c.1) fun d i =>
      if d.nat Ob.bootPhase < 2 || !d.flag Ob.rootLocked then d
      else if i = 0 then (d.event { code := 0x102A, island := Isl.tmg }).faultIsland Isl.fio
      else if d.isl i != 0 then d
      else ((d.set (Ob.islandClockStatus (i - 1)) 2).event { code := 0x102A, island := Isl.tmg, d1 := i }).faultIsland i) s

/-- ISLAND_WATCHDOG_EXPIRY (R396). -/
def execIslandWatchdogExpiry (island : Fin 25) (s : State) : Host.Outcome State Fault Refusal :=
  onDev (fun d => if d.nat Ob.bootPhase < 2 then d else d.faultIsland ((island : Nat) + 1)) s

/-- Control write 1 (R395): the quiesce begins; a held island goes into reset. -/
def Dev.resetIsland (d : Dev) (i : Nat) : Dev :=
  if d.isl i = 5 then { d with islCause := kvPut d.islCause i 1 }.emptyIsland i
  else if d.isl i ≤ 1 then d.quiesce i 1
  else d

/-- Control write 2 (R395). -/
def Dev.holdIsland (d : Dev) (i : Nat) : Dev := if d.isl i ≤ 1 then d.quiesce i 4 else d

/-- ISLAND_RESET (R395): answered, then the quiesce begins. -/
def execIslandReset (hd : Hdr) (cond : Option Nat) (island : Fin 25) (s : State) : Host.Outcome State Fault Refusal :=
  onDev (fun d => match d.writeGate {} hd cond (0x7F01 + island) 1 [1] with
    | .stop d => d
    | .pass d se _ => (d.finishWrite hd cond (0x7F01 + island) 1 [1] se).resetIsland ((island : Nat) + 1)) s

/-- ISLAND_HOLD (R395). -/
def execIslandHold (hd : Hdr) (cond : Option Nat) (island : Fin 25) (s : State) : Host.Outcome State Fault Refusal :=
  onDev (fun d => match d.writeGate {} hd cond (0x7F01 + island) 1 [2] with
    | .stop d => d
    | .pass d se _ => (d.finishWrite hd cond (0x7F01 + island) 1 [2] se).holdIsland ((island : Nat) + 1)) s

/-- QUIESCE_BOUNDARY_EMPTY (R393): a TEN or DCK held after a repeated fault takes its die with it (R390). -/
def execQuiesceBoundaryEmpty (island : Fin 25) (s : State) : Host.Outcome State Fault Refusal :=
  onDev (fun d =>
    let i := (island : Nat) + 1
    if d.isl i ≠ 2 then d
    else
      let again := (kvGet d.islCause i).getD 1 == 5
      (d.emptyIsland i).when (again && decide (Isl.ten ≤ i)) fun d => d.dropDie ((i - Isl.ten) % 4) (Config.heldDropCause % 256)) s

/-- The next island of a live activation is replaced; one held or absent is left out. -/
def Dev.nextLive (d : Dev) : Dev :=
  let l := d.pow.live.filter fun i => decide (d.isl i ≤ 1)
  let d := d.onPow fun p => { p with live := l }
  match l with
  | [] => d
  | i :: _ => d.quiesce i 3

/-- ISLAND_RETURN (R393): CUP after its own fault returns with CUP_RESET_DONE. -/
def execIslandReturn (island : Fin 25) (s : State) : Host.Outcome State Fault Refusal :=
  onDev (fun d =>
    let i := (island : Nat) + 1
    if (d.isl i ≠ 3 ∧ d.isl i ≠ 4) ∨ (i = Isl.cup ∧ d.reg Ob.cupperState = 2) then d
    else
      let update := d.isl i == 4
      let d := ((d.returnIsland i).set (Ob.islandClockStatus (i - 1)) 0).islandStarts i
      d.when update fun d => (d.onPow fun p => { p with live := p.live.filter fun x => x != i }).nextLive) s

/-- STALE_REPLY_RECEIVED (R394). -/
def execStaleReplyReceived (island : Fin 25) (incarnation : Nat) (s : State) : Host.Outcome State Fault Refusal :=
  onDev (fun d =>
    if d.nat (Ob.islIncarnation island) = incarnation then d else d.bump (Ob.islStaleDiscarded island)) s

/-- The verified bank is current at once, and MIX and the TENs in use are replaced island by island (R132). -/
def Dev.activateLive (d : Dev) : Dev :=
  let b := d.inactiveBank
  let d := d.onBoot fun x => { x with current := b, trial := none, trialRunning := false }
  let d := ((d.set (Ob.bankState b) 4).set (Ob.bankState (1 - b)) 1).setN Ob.activeBank b
  let d := (d.set Ob.updateState 5).endClaim
  (d.onPow fun p => { p with live := Isl.mix :: d.dies.map fun die => Isl.ten + die }).nextLive.powerCheck

/-- UPDATE_ACTIVATE_LIVE (R132). -/
def execUpdateActivateLive (hd : Hdr) (cond : Option Nat) (s : State) : Host.Outcome State Fault Refusal :=
  onDev (fun d => d.writeReq activateConds hd cond 0x7010 7 [3] fun _ _ d => d.activateLive) s

end Sys2Proof.Machine
end

