-- ==== Sys2Proof/Machine/Read.lean ====
section
/-! DEFINITION. What an object reads as where its value follows from the rest of the state, and READ, READ_BLOCK and
NOTIFY (04_dictionary R90, R100, R104, R105; 02_timeline R36; 03_timing_unit R72). -/
namespace Sys2Proof.Machine

/-- Whole seconds of wait-to-restore left for reference `c` (03_timing_unit R67): it is VALID, listed above the selected one,
and the selector is revertive. -/
def Dev.wtrLeft (d : Dev) (c : Nat) : Nat :=
  let st := d.reg Ob.selectorState
  if d.reg Ob.selectorMode = 0 && (st == 1 || st == 2) && d.above.contains c && d.refValid c then
    ceilDiv (d.nat Ob.waitToRestore * 1000000000 - d.ago (d.refRt c).validSince) 1000000000
  else 0

/-- GenOldestQueue (06_pours section 4): of the items that hold generation `g` in a queue, the one with the oldest completion
stamp names its queue. -/
def Dev.oldestOfGen (d : Dev) (g : Nat) : Nat :=
  let held := d.queues.filter fun e => d.holdsGen e.1
  let mine := held.map fun e => (e.2.items.filter fun it => it.genValid && it.gen == g).map fun it => (e.1, it.completion)
  match mine.flatten.foldl (fun (b : Option (Nat × Nat)) x => match b with
    | none => some x
    | some y => some (if after y.2 x.2 then x else y)) none with
  | some x => x.1
  | none => 0xFFFF

/-- Timeline and fence objects (0x2000-0x2042) that follow from the state. -/
def Dev.liveTimeline (d : Dev) (sid idx sub : Nat) : Option Int :=
  let latch := kvGet d.latches sid
  let f := d.selFence sid
  if idx = 0x2000 then
    if sub = 1 then some d.now
    else if sub = 2 then some ((latch.map fun l => l.1).getD d.tl.frac : Nat)
    else if sub = 3 then some ((latch.map fun l => l.2).getD d.tl.era : Nat)
    else if sub = 5 then some d.tl.inc
    else if sub = 6 then some (roundDiv (((d.tl.inc : Int) - nominalInc) * 1000000000) nominalInc)
    else none
  else if idx = 0x2001 ∧ sub = 3 then some (Int.tdiv d.tl.slewRem 4294967296)
  else if idx = 0x2040 then
    if sub = 2 then some (d.fence f).value
    else if sub = 5 then some (d.fence f).deadline
    else if sub = 6 then some (d.fence f).enabled.toNat
    else if sub = 8 then some (d.waits.filter fun w => w.fence == f).length
    else none
  else if idx = 0x2042 ∧ sub = 3 then some (16384 - d.waits.length : Nat)
  else none

/-- Timing unit objects (0x2100-0x2120) that follow from the state. A clock reads stopped in a power state that stops it
(19_power_dies Table 7). -/
def Dev.liveTiming (d : Dev) (sid idx sub : Nat) : Option Int :=
  let latch := kvGet d.phaseLatches sid
  if idx = 0x2100 ∧ sub = 4 then some d.corrNow
  else if idx = 0x2102 then (if d.isl sub = 1 then some 1 else none)
  else if 0x2112 ≤ idx ∧ idx ≤ 0x2117 ∧ sub = 6 then some (d.wtrLeft (idx - 0x2112))
  else if idx = 0x2120 ∧ sub = 5 then latch.map fun l => (l.1 : Int)
  else if idx = 0x2120 ∧ sub = 6 then latch.map fun l => (l.2 : Int)
  else none

/-- The pour a session has selected (06_pours section 6). -/
def Dev.selPour (d : Dev) (sid : Nat) : Option Pour := d.pourAny (d.nat (inst Ob.pourSelect sid))

/-- Pour objects (0x2201, 0x2202) that follow from the state. -/
def Dev.livePour (d : Dev) (sid idx sub : Nat) : Option Int :=
  if idx = 0x2201 ∧ 7 ≤ sub ∧ sub ≤ 10 then some (d.oldestOfGen (sub - 7))
  else if idx = 0x2202 then (d.selPour sid).bind fun p =>
    if sub = 2 then some (p.state : Int) else if sub = 3 then some p.target else if sub = 4 then some p.part
    else if sub = 5 then some (p.gen.getD 0xFF : Nat) else if sub = 6 then some p.cause
    else if sub = 7 then some p.applied else none
  else none

/-- The model an engine runs. -/
def Dev.currentModel (d : Dev) (e : Nat) : Nat :=
  ((d.ten.running.find? fun i => decide (i.engine ≤ e ∧ e < i.engine + i.span)).map fun i => i.model).getD 0xFF

/-- Engines of the fitted dies (09_tensor_engines Table 6). -/
def Dev.enginesFitted (d : Dev) : Nat :=
  ((List.range 8).map fun e => if bit (d.nat Ob.computeDiesFitted) (e / 2) then 2 ^ e else 0).sum

/-- Resampler, grid, engine, model, safety and solver objects (0x3200-0x387F) that follow from the state. -/
def Dev.liveEngines (d : Dev) (idx sub : Nat) : Option Int :=
  if idx = 0x3200 ∧ sub = 0x0E then some d.resampleLatency
  else if 0x3210 ≤ idx ∧ idx ≤ 0x3217 ∧ sub = 5 then some (d.inputState (idx - 0x3210))
  else if 0x3220 ≤ idx ∧ idx ≤ 0x3223 ∧ sub = 0x22 then some (d.gridLatency (idx - 0x3220))
  else if 0x3220 ≤ idx ∧ idx ≤ 0x3223 ∧ sub = 0x24 then some (Config.gridBase (idx - 0x3220))
  else if idx = 0x3400 ∧ sub = 1 then some d.enginesFitted
  else if 0x3408 ≤ idx ∧ idx ≤ 0x340F then
    let e := idx - 0x3408
    if sub = 1 then some (d.engineState e) else if sub = 2 then some (d.currentModel e)
    else if sub = 4 then some (d.busy e) else none
  else if 0x3420 ≤ idx ∧ idx ≤ 0x343F ∧ sub = 0x20 then some (d.runState (idx - 0x3420))
  else if 0x3610 ≤ idx ∧ idx ≤ 0x3617 ∧ sub = 3 then some (d.policyEff (idx - 0x3610))
  else if idx = 0x3800 ∧ sub = 6 then some d.solBusy
  else if 0x3840 ≤ idx ∧ idx ≤ 0x387F ∧ sub = 2 then some (d.structStateNow (idx - 0x3840))
  else if 0x3840 ≤ idx ∧ idx ≤ 0x387F ∧ sub = 0x22 then some (d.solveLatency (idx - 0x3840))
  else none

/-- The gain reduction of a strip or bus (13_mix_engine Table 3): 0 while it does not run or neither a gate nor a compressor
works, else that of the last block (log 37). -/
def Dev.reductionNow (d : Dev) (k : Nat) (runs : Bool) (m : Nat) : Int :=
  let idx := k / 256
  let works := d.reg (idx * 256 + 0x16) != 10 || (decide (idx ≤ 0x457F) && decide (-14400 < d.reg (idx * 256 + 0x14)))
  if runs && works then clampInt 0 32767 (Config.mixLevel k (d.nat (Ob.domBlockSeq m))) else 0

/-- Audio and mix objects (0x4010-0x47F0) that follow from the state. A bus's own latency is from its sum to its output. -/
def Dev.liveMix (d : Dev) (idx sub : Nat) : Option Int :=
  let k := idx * 256 + sub
  if 0x4010 ≤ idx ∧ idx ≤ 0x402F then
    let p := idx - 0x4010
    if sub = 0x0D then some (d.portStateNow p) else if sub = 0x0F then some (d.inLatency p)
    else if sub = 0x10 then some (d.outLatency p) else none
  else if 0x4400 ≤ idx ∧ idx ≤ 0x457F then
    let s := idx - 0x4400
    let runs := d.stripStateNow s == 1
    if sub = 0x60 then some (d.stripStateNow s) else if sub = 0x61 then some (d.levelNow idx)
    else if sub = 0x62 then some (d.reductionNow k runs (d.nat (Ob.stripDomain s)))
    else if sub = 0x63 then some (d.stripLatency s) else none
  else if 0x4600 ≤ idx ∧ idx ≤ 0x465F then
    let b := idx - 0x4600
    let runs := d.busStateNow b == 1
    if sub = 0x60 then some (d.busStateNow b) else if sub = 0x61 then some (d.levelNow idx)
    else if sub = 0x62 then some (d.reductionNow k runs (d.nat (Ob.busDomain b)))
    else if sub = 0x63 then some (2 + d.nat (Ob.busDelay b) : Nat) else none
  else if 0x4700 ≤ idx ∧ idx ≤ 0x473F then
    let r := idx - 0x4700
    if sub = 0x60 then some (d.routeStateNow r)
    else if sub = 0x61 then some (d.levelNow idx)
    else if sub = 0x63 then some (d.routeLatency r) else none
  else if 0x4740 ≤ idx ∧ idx ≤ 0x4743 ∧ sub = 6 then some (d.bfStateNow (idx - 0x4740))
  else if idx = 0x47F0 ∧ sub = 3 then some (bridgeMost d.reg)
  else none

/-- The objects of the selected connection (17_virek section 8). -/
def Dev.liveConn (d : Dev) (sid sub : Nat) : Option Int :=
  (d.conn (d.selConn sid)).bind fun c =>
    if sub = 1 then some (c.state : Int) else if sub = 2 then some c.id else if sub = 3 then some c.part
    else if sub = 4 then some c.ip else if sub = 5 then some c.port else if sub = 6 then some c.granted
    else if sub = 7 then some c.credit else if sub = 8 then some c.outstanding else if sub = 9 then some c.txPsn
    else if sub = 10 then some c.rxExp else if sub = 11 then some c.retrans else if sub = 12 then some c.bytesRead
    else if sub = 13 then some c.bytesWritten else if sub = 14 then some c.opened else none

/-- The objects of the selected partner (18_integrity Table 8). -/
def Dev.livePartner (d : Dev) (sid sub : Nat) : Option Int :=
  (d.partner (d.nat (inst Ob.partnerSelect sid))).bind fun p =>
    if sub = 1 then some (p.total : Int) else if sub = 2 then some p.until_.isSome.toNat
    else if sub = 3 then some (p.until_.getD 0 % span48 : Nat) else if sub = 4 then some p.lastCode
    else if sub = 5 then some p.addr else if sub = 6 then some p.drops else none

/-- Power objects (0x1400-0x1410) that follow from the state. -/
def Dev.livePower (d : Dev) (idx sub : Nat) : Option Int :=
  if idx = 0x1400 then
    if sub = 3 then some d.minTolerance else if sub = 4 then some (d.nextDeadline.getD 0 : Nat)
    else if 8 ≤ sub ∧ sub ≤ 12 then some (d.residence (sub - 8) / 1000000 : Nat) else none
  else if idx = 0x1410 ∧ sub = 7 then some ((d.portUp 0).toNat + 2 * (d.portUp 1).toNat : Nat)
  else none

/-- The value a numeric object reads as in a session, where it follows from the rest of the state. -/
def Dev.live (d : Dev) (sid idx sub : Nat) : Option Int :=
  if idx < 0x2000 then d.livePower idx sub
  else if idx < 0x2100 then d.liveTimeline sid idx sub
  else if idx < 0x2200 then d.liveTiming sid idx sub
  else if idx < 0x3000 then d.livePour sid idx sub
  else if idx < 0x4000 then d.liveEngines idx sub
  else if idx < 0x5000 then d.liveMix idx sub
  else if idx = 0x5002 ∧ sub = 0x20 then some (d.queueState (d.selQueue sid) : Nat)
  else if idx = 0x5A00 ∧ sub = 4 then some d.segmentSize
  else if idx = 0x5A21 then d.liveConn sid sub
  else if idx = 0x6005 then d.livePartner sid sub
  else if idx = 0x7000 ∧ sub = 7 then
    some (if d.ready then stampAdd (d.nat Ob.serviceReadyStamp) 1000000000 else 0 : Nat)
  else none

/-- The value of a numeric object in a session. -/
def Dev.value (d : Dev) (sid idx sub : Nat) : Int := (d.live sid idx sub).getD (d.reg (d.resolve sid (idx * 256 + sub)))

/-- The bytes of a log entry (18_integrity Table 3). -/
def LogEntry.bytes (e : LogEntry) : Bytes :=
  let body := leBytes 6 e.stamp ++ leBytes 1 e.island ++ leBytes 1 e.iface ++ leBytes 2 e.partner ++ leBytes 2 e.code
    ++ leBytes 4 e.d1 ++ leBytes 4 e.d2 ++ leBytes 4 e.d3 ++ leBytes 3 e.seq
    ++ leBytes 1 (e.mirrored.toNat + 2 * e.violation.toNat + 4 * e.summary.toNat)
  body ++ leBytes 4 (crc32c body)

/-- A ring of entries as bytes: each at its place, 32 zero bytes where none stands. -/
def ringBytes (n : Nat) (entries : List (Nat × LogEntry)) : Bytes :=
  ((List.range n).map fun i => match entries.find? fun e => e.1 % n == i with
    | some e => e.2.bytes
    | none => List.replicate 32 0).flatten

/-- LogRing (18_integrity R365). -/
def Dev.logBytes (d : Dev) : Bytes := ringBytes 1024 (d.log.ring.map fun e => (e.seq, e))

/-- MirrorRing (R366): the newest entry is number MirrorWritten - 1. -/
def Dev.mirrorBytes (d : Dev) : Bytes :=
  ringBytes 256 ((List.range d.log.mirror.length).zip d.log.mirror |>.map fun e => (d.nat Ob.mirrorWritten + 255 - e.1, e.2))

/-- The bytes of a pour report (06_pours Table 6). -/
def Dev.reportOf (d : Dev) (sid : Nat) : Bytes := match d.selPour sid with
  | some p => p.reportBytes
  | none => []

/-- The I/O die's descriptor (19_power_dies Table 4), from its identity (log 24). -/
def Dev.ioDescriptor (d : Dev) : Bytes :=
  let body := leBytes 4 0x53444E55 ++ leBytes 1 1 ++ leBytes 1 1
    ++ leBytes 1 (d.nat Ob.ioDieGeneration * 16 + d.nat Ob.ioDieStepping) ++ leBytes 1 0xFF ++ leBytes 8 0
    ++ leBytes 8 ioMask ++ leBytes 8 (d.nat Ob.deviceUid) ++ leBytes 12 0
  body ++ leBytes 4 (crc32c body)

/-- ProductName: the variant's name (00_scope Table 1), from its code. -/
def Dev.productName (d : Dev) : Bytes :=
  let c := d.nat Ob.productCode
  [0x55, 0x54] ++ ([3, 2, 1, 0] : List Nat).map fun i => BitVec.ofNat 8 (0x30 + c / 16 ^ i % 16)

/-- The length of a byte object whose table default is "zero": it reads as that many zeros until written. -/
def zeroLength (idx sub : Nat) : Nat :=
  if 0x4018 ≤ idx ∧ idx ≤ 0x401B then (if sub = 0x21 ∨ sub = 0x23 then 24 else 48)
  else if 0x4740 ≤ idx ∧ idx ≤ 0x4743 then 8196
  else 0

/-- The bytes a STRING or DOMAIN object reads as in a session. -/
def Dev.bytesOf (d : Dev) (sid idx sub : Nat) : Bytes :=
  if idx = 0x1000 ∧ sub = 3 then d.productName
  else if idx = 0x2202 then d.reportOf sid
  else if idx = 0x6000 then d.logBytes
  else if idx = 0x6001 then d.mirrorBytes
  else if idx = 0x7F20 then d.ioDescriptor
  else if d.blob (idx * 256 + sub) = [] then List.replicate (zeroLength idx sub) 0
  else d.blob (idx * 256 + sub)

/-- The bytes of an object's value (Table 1). -/
def Dev.valueBytes (d : Dev) (sid : Nat) (r : ObjRow) (idx sub : Nat) : Bytes :=
  if r.ty = .string ∨ r.ty = .domain then d.bytesOf sid idx sub else encodeTy r.ty (d.value sid idx sub)

/-- The place of a type in the list of types, for its code in a READ answer (log 8). -/
def tyIndex : Ty → Nat
  | .bool => 0
  | .u8 => 1
  | .u16 => 2
  | .u32 => 3
  | .u64 => 4
  | .i8 => 5
  | .i16 => 6
  | .i32 => 7
  | .i64 => 8
  | .q32 => 9
  | .stamp48 => 10
  | .string => 11
  | .domain => 12

/-- What a READ answer carries after the head (Table 4). -/
def readData (r : ObjRow) (v : Bytes) : Bytes :=
  leBytes 1 (Config.typeCode (tyIndex r.ty)) ++ leBytes 1 0 ++ leBytes 2 v.length ++ v

/-- The value does not fit a READ answer on the carrier, or the object is a DOMAIN (R100). -/
def readTooLong (c : Carrier) (r : ObjRow) (v : Bytes) : Bool := decide (r.ty = .domain) || decide (c.limit < 12 + v.length)

/-- A READ: its checks, then the value at this point of the service order; `latch` is what the read latches (R90, R100). -/
def Dev.readReq (d : Dev) (hd : Hdr) (idx sub : Nat) (latch : Session → Dev → Dev) : Dev :=
  let payload := readPayload idx sub
  match d.readGate hd Op.read payload idx sub with
  | .stop d => d
  | .pass d se r =>
    let ver := d.ver (idx * 256 + sub)
    let v := d.valueBytes se.id r idx sub
    let answer (a : Ans) : Dev := (latch se d).complete se.id hd.tag Op.read payload hd.seq a
    if readTooLong se.carrier r v then answer { status := Sc.blockSize, ver := ver, detail := v.length }
    else answer { status := Sc.ok, ver := ver, data := readData r v }

/-- TimelineNow is read: the fraction and the era of this tick are latched for the session (02_timeline R36). -/
def Dev.latchNow (se : Session) (d : Dev) : Dev := { d with latches := kvPut d.latches se.id (d.tl.frac, d.tl.era) }

/-- PhaseError is read: PhaseStamp and PhaseSeq are latched for the session (03_timing_unit R72). -/
def Dev.latchPhase (se : Session) (d : Dev) : Dev :=
  { d with phaseLatches := kvPut d.phaseLatches se.id (d.nat Ob.phaseStamp, d.nat Ob.phaseSeq) }

/-- TIMELINE_NOW_READ (R36). -/
def execTimelineNowRead (hd : Hdr) (s : State) : Host.Outcome State Fault Refusal :=
  onDev (fun d => d.readReq hd 0x2000 1 Dev.latchNow) s

/-- PHASE_ERROR_READ (R72). -/
def execPhaseErrorRead (hd : Hdr) (s : State) : Host.Outcome State Fault Refusal :=
  onDev (fun d => d.readReq hd 0x2120 4 Dev.latchPhase) s

/-- What a read of an object latches for the session (02_timeline R36, 03_timing_unit R72). -/
def Dev.latchRead (idx sub : Nat) (se : Session) (d : Dev) : Dev :=
  if idx = 0x2000 ∧ sub = 1 then d.latchNow se else if idx = 0x2120 ∧ sub = 4 then d.latchPhase se else d

/-- READ (R90, R100), of any object. -/
def execRead (hd : Hdr) (idx sub : Nat) (s : State) : Host.Outcome State Fault Refusal :=
  onDev (fun d => d.readReq hd idx sub (Dev.latchRead idx sub)) s

/-- The payload of a READ_BLOCK (Table 4). -/
def readBlockPayload (idx sub offset length : Nat) : Bytes :=
  addrBytes idx sub ++ leBytes 1 0 ++ leBytes 4 offset ++ leBytes 4 length

/-- READ_BLOCK (R104): up to 65,536 bytes from one state of the object, latching what a READ of it latches (R36); a longer request is refused with that size, and
bytes past the object's end are not sent (log 45). -/
def execReadBlock (hd : Hdr) (idx sub : Nat) (offset length : Nat) (s : State) : Host.Outcome State Fault Refusal :=
  onDev (fun d =>
    let payload := readBlockPayload idx sub offset length
    match d.readGate hd Op.readBlock payload idx sub with
    | .stop d => d
    | .pass d se r =>
      let ver := d.ver (idx * 256 + sub)
      let v := d.valueBytes se.id r idx sub
      if 65536 < length then
        d.complete se.id hd.tag Op.readBlock payload hd.seq { status := Sc.blockSize, ver := ver, detail := 65536 }
      else if v.length < offset then
        d.complete se.id hd.tag Op.readBlock payload hd.seq { status := Sc.blockSize, ver := ver, detail := v.length }
      else
        (Dev.latchRead idx sub se d).complete se.id hd.tag Op.readBlock payload hd.seq
          { status := Sc.ok, ver := ver, data := (v.drop offset).take length }) s

/-- A NOTIFY goes out with the next device sequence (R98, R105): the latest value, or length 0 where it is too long. The
count of changes restarts. -/
def Dev.sendNotify (d : Dev) (se : Session) (x : Subscr) (coalesced changedAt : Nat) : Dev :=
  let idx := x.key / 256
  let sub := x.key % 256
  let v := match objRow idx sub with
    | some r => d.valueBytes se.id r idx sub
    | none => []
  let v := if se.carrier.limit < 16 + v.length then [] else v
  let n := se.devSeq + 1
  let a : Ans := { status := Sc.ok, ver := d.ver x.key, data := v }
  let body := notifyBody x.handle coalesced a.ver changedAt v
  let frame := frameBytes 1 true false true Op.notify 0 se.id n body.length 0 body
  let told (y : Subscr) : Subscr := if y.handle = x.handle then { y with changes := 0, sentAt := some d.ext } else y
  let d := ({ d with books := { d.books with watch := kvDel d.books.watch (watchKey se.id x.handle) } }).onSession se.id fun s =>
    { s with devSeq := n, subs := s.subs.map told }
  let d := d.post se.carrier se.ethPort (.notify se.carrier se.id n x.handle coalesced a changedAt (macOf se.key frame))
  if n ≥ 4294967295 then d.endSession se.id .sequence else d

/-- The interval of a subscription has passed since its last NOTIFY (R105). -/
def Dev.intervalOver (d : Dev) (x : Subscr) : Bool := match x.sentAt with
  | none => true
  | some t => decide (x.interval * 1000000 ≤ d.ago t)

/-- The changes a subscription has to tell of, with the stamp of the newest (R105): those counted as the object's register,
bytes or version changed; and for an object whose value follows from the rest of the state, the `changes` that the command
names, the newest at `changedAt` (log 140). -/
def Dev.changesOf (d : Dev) (se : Session) (x : Subscr) (changes changedAt : Nat) : Nat × Nat :=
  let w := d.watched se.id x.handle
  let follows := (d.live se.id (x.key / 256) (x.key % 256)).isSome || ([0x2202, 0x6000, 0x6001] : List Nat).contains (x.key / 256)
  let more := if follows then changes else 0
  (x.changes + w.1 + more, if 0 < more then changedAt % span48 else if 0 < w.1 then w.2 else x.changedAt)

/-- NOTIFY (R105): in mode 1 it goes out once the interval has passed and something changed, in mode 2 once the interval has
passed. Until then the changes are merged. A session quiesced with CTL gets none. -/
def execNotify (sid handle : Nat) (changes : Nat) (changedAt : Nat) (s : State) : Host.Outcome State Fault Refusal :=
  onDev (fun d => match d.session sid with
    | none => d
    | some se => match se.subs.find? fun x => x.handle == handle with
      | none => d
      | some x =>
        let n := d.changesOf se x changes changedAt
        if d.quiesced Isl.ctl || !d.intervalOver x || (x.mode == 1 && n.1 == 0) then
          let d := { d with books := { d.books with watch := kvDel d.books.watch (watchKey sid handle) } }
          let merge (y : Subscr) : Subscr := if y.handle = handle then { y with changes := n.1, changedAt := n.2 } else y
          d.onSession sid fun s => { s with subs := s.subs.map merge }
        else (d.bumpBy Ob.notifyCoalesced (n.1 - 1)).sendNotify se x n.1 n.2) s

end Sys2Proof.Machine
end

