-- ==== Sys2Proof/Machine/Deferred.lean ====
section
/-! DEFINITION. Held commands of 03_timing_unit Table 6: what the lock of a synthesiser releases, and DEFERRED_TIMEOUT
(R80-R83; 16_network_paths R332). -/
namespace Sys2Proof.Machine

/-- A held frame as it leaves: the Follow_Up of a held Sync carries the time of the actual transmission (R80), and a heartbeat
the timeline at its send (16_network_paths Table 1, R332). -/
def Dev.restamped (d : Dev) : Output → Output
  | .frame port .ptpFollowUp [mac, ip, domain, seq, _] payload bad =>
    .frame port .ptpFollowUp [mac, ip, domain, seq, d.netTime] payload bad
  | .frame port .heartbeat fields payload bad =>
    let body := payload.take 20 ++ leBytes 6 d.now ++ (payload.take 68).drop 26
    .frame port .heartbeat fields (body ++ leBytes 4 (crc32c body)) bad
  | o => o

/-- A delay request that was held is sent now: the servo counts from this transmission (R80). -/
def Dev.delayReqSent (d : Dev) (port : Nat) : Output → Dev
  | .frame _ .ptpDelayReq _ _ _ => d.onPtpPort port fun p => { p with delayReqAt := some d.netTime }
  | .frame _ .ptpPdelayReq _ _ _ => d.onPtpPort port fun p => { p with delayReqAt := some d.netTime }
  | _ => d

/-- A held frame is not sent: a copy of a Duplicate class, known by its PRP suffix, is lost (16_network_paths R327). -/
def Dev.copyLost (d : Dev) : Output → Dev
  | .frame _ _ fields _ _ => d.when (fields.getLast? == some 0x88FB) fun d => d.bump Ob.duplicateCopyLost
  | _ => d

/-- A held command starts (R80, Table 6): a train at its first scheduled edge at or after lock, an audio output at its next
boundary and a DAC channel at its next input sample (DOMAIN_BLOCK), or a frame at once. -/
def Dev.startHeld (d : Dev) (h : Held) : Dev :=
  match h.cmd with
  | .pulse i => d.startTrain i
  | .audio _ => d
  | .dac ch => d.dacLocked ch
  | .frame o =>
    let port := h.syn - 5
    if !d.portUp port then d.copyLost o else ((d.delayReqSent port o).send (d.restamped o)).bump (Ob.ethFramesTx port)

/-- The held commands of synthesiser `syn` (subindex of 0x2150) start in the order of their acceptance (R82). -/
def Dev.releaseHeld (d : Dev) (syn : Nat) : Dev :=
  let mine := d.tu.held.filter fun h => h.syn == syn
  (d.onTu fun t => { t with held := t.held.filter fun h => h.syn != syn }).each mine Dev.startHeld

/-- A recalibration of port `port` that waited for the other port's lock begins (16_network_paths R332). -/
def Dev.nextRecal (d : Dev) (port : Nat) : Dev :=
  if d.tu.recalWait.contains port then
    (d.onTu fun t => { t with recalWait := t.recalWait.filter fun p => p != port }).set (Ob.synthState (4 + port)) 1
  else d

/-- SYNTH_LOCK (R80, R82, R83): `syn` is the subindex of 0x2150 less 1. -/
def execSynthLock (syn : Fin 6) (s : State) : Host.Outcome State Fault Refusal :=
  onDev (fun d =>
    let n : Nat := syn
    if d.reg (Ob.synthState n) = 1 ∨ d.reg (Ob.synthState n) = 3 then
      let d := (d.set (Ob.synthState n) 2).releaseHeld (n + 1)
      let d := d.when (n == 1 || n == 2) Dev.refreshDomains
      d.when (decide (4 ≤ n)) fun d => d.nextRecal (5 - n)
    else d) s

/-- A held command completes with a status of Table 7; a frame is discarded and counted (R81). -/
def Dev.timeOutHeld (d : Dev) (h : Held) : Dev :=
  match h.cmd with
  | .pulse i => d.set (Ob.pulseStatus i) 3
  | .audio p => (d.onPort p fun r => { r with startAt := none }).set (Ob.portOutputStatus p) 3
  | .dac ch => d.set (Ob.dacStatus ch) 3
  | .frame o => (d.bump (Ob.ethFramesDropped (h.syn - 5))).copyLost o

/-- DEFER_TIMEOUT (R81): of the held command at place `held` in order of acceptance, DeferTimeout after it. -/
def execDeferTimeout (held : Nat) (s : State) : Host.Outcome State Fault Refusal :=
  onDev (fun d => match d.tu.held[held]? with
    | none => d
    | some h =>
      if decide (d.nat Ob.deferTimeout * 1000000 ≤ d.ago h.at_) then
        let d := d.onTu fun t => { t with held := t.held.eraseIdx held }
        ((d.timeOutHeld h).bump Ob.deferTimeoutCount).event { code := 0x1028, island := Isl.tmg, d1 := h.syn }
      else d) s

end Sys2Proof.Machine
end

