-- ==== Sys2Proof/Machine/Write.lean ====
section
/-! DEFINITION. WRITE and WRITE_BLOCK of any object (04_dictionary R86, R88-R92, R103): for each address the conditions its
chapter gives, the effect of a new value, and what follows the answer. -/
namespace Sys2Proof.Machine

/-- What a write of an object needs and does: `eff` on the value written, `post` after the answer, and `refused` beside a
refusal. -/
structure Act where
  conds : Conds := {}
  eff : Session → Int → Dev → Dev
  post : Int → Dev → Dev := fun _ d => d
  refused : Session → Refuse → Dev → Dev := fun _ _ d => d

/-- The value is stored in the register its address stands for, and then `eff` follows. -/
def Act.store (k : Nat) (conds : Conds) (eff : Session → Int → Dev → Dev) : Act :=
  { conds := conds, eff := fun se n d => eff se n (d.set (d.resolve se.id k) n) }

/-- The value is acted on and not stored. -/
def Act.act (conds : Conds) (eff : Session → Int → Dev → Dev) : Act := { conds := conds, eff := eff }

/-- Conditions on the state alone. -/
def onState (f : Dev → Session → Int → Bool) : Conds := { state := fun d se n => needState (f d se n) }

/-- Timeline, servo and grandmaster objects (0x2001-0x2018) with effects of their own. -/
def actTimeline (idx sub : Nat) : Option Act :=
  let k := idx * 256 + sub
  if idx = 0x2001 ∧ sub = 1 then some (.store k {} fun _ _ d => d.rebound)
  else if idx = 0x2001 ∧ sub = 2 then
    some (.act (onState fun d _ _ => d.sv = Sv.free || d.sv = Sv.listen) fun _ n d => d.beginSlew n)
  else if idx = 0x2010 ∧ sub = 1 then
    some (.store k (onState fun d _ n => !(decide (n = 1 ∨ n = 2) && decide (n = d.reg Ob.gmPort))) fun _ n d => d.setSource n)
  else if idx = 0x2012 ∧ sub = 1 then
    some (.act (onState fun d _ _ => d.sv = Sv.refused) fun _ n d =>
      if n = 1 then (d.acceptOffset (d.reg Ob.refusedOffset)).toServo Sv.slew
      else (d.toServo Sv.slew).onServo fun v => { v with suspended := true })
  else if idx = 0x2018 ∧ sub = 1 then
    some (.store k (onState fun d _ n =>
      !(decide (n ≠ 0) && decide (d.reg Ob.ptpSource ≠ 0) && decide (n = d.reg Ob.activePort))) fun _ _ d => d)
  else none

/-- The wait a session's objects describe (02_timeline R52). -/
def Dev.waitOf (d : Dev) (se : Session) (handle : Nat) : Wait :=
  let own (k : Nat) : Nat := d.nat (inst k se.id)
  { handle := handle, fence := own Ob.waitFence, target := own Ob.waitTarget, delivery := own Ob.waitDelivery,
    dest := own Ob.waitDestination, part := se.part }

/-- Fence and wait objects (0x2040, 0x2041) with effects of their own. -/
def actFence (idx sub : Nat) (v : Bytes) : Option Act :=
  let k := idx * 256 + sub
  let named : Conds := { fence := fun _ _ => if v.length = 4 ∧ leNat v < 131072 then some (leNat v) else none }
  if (idx = 0x2040 ∨ idx = 0x2041) ∧ sub = 1 then some (.store k named fun _ _ d => d)
  else if idx = 0x2040 then
    if sub = 3 then some (.act fenceConds fun se n d => d.fenceSignal (d.selFence se.id) n.toNat)
    else if sub = 4 then some (.act fenceConds fun se n d => d.fenceAdd (d.selFence se.id) n.toNat)
    else if sub = 5 then
      some (.act fenceConds fun se n d => d.fenceDeadline (d.selFence se.id) n.toNat (d.fence (d.selFence se.id)).enabled)
    else if sub = 6 then
      some (.act fenceConds fun se n d => d.fenceDeadline (d.selFence se.id) (d.fence (d.selFence se.id)).deadline (n != 0))
    else if sub = 7 then some (.act fenceConds fun se _ d => d.fenceReset (d.selFence se.id))
    else none
  else if idx = 0x2041 ∧ sub = 5 then
    some { conds :=
             { fence := fun d se => some (d.waitOf se 0).fence,
               range := fun d se _ => needRange (d.deliveryOk se.part (d.waitOf se 0).delivery (d.waitOf se 0).dest),
               state := fun d _ _ =>
                 if decide (16384 ≤ d.waits.length) || d.freeSlot.isNone then some { status := Sc.busy, detail := 1 } else none },
           eff := fun se _ d =>
             let h := d.freeSlot.getD 0
             (d.setN (inst Ob.waitHandle se.id) h).armWait (d.waitOf se h),
           refused := fun se r d => d.when (r.status == Sc.busy) fun d =>
             d.event { code := 0x1013, island := Isl.tmg, d1 := se.part } }
  else if idx = 0x2041 ∧ sub = 7 then
    some (.act { state := fun d se n => match d.waits.find? fun w => (w.handle : Int) == n with
        | none => some { status := Sc.stateRefused }
        | some w => if w.part = se.part || d.isInt se.part then none else some { status := Sc.notOwner, detail := w.part } }
      fun _ n d => { d with waits := d.waits.filter fun w => (w.handle : Int) != n })
  else none

/-- Reference, loop and pulse objects (0x2111-0x213C) with effects of their own. -/
def actTiming (idx sub : Nat) : Option Act :=
  let k := idx * 256 + sub
  if idx = 0x2111 then some (.store k (onState fun d _ n => d.entryUnique (sub - 1) n) fun _ _ d => d.reselect)
  else if 0x2112 ≤ idx ∧ idx ≤ 0x2117 ∧ sub = 1 then some (.store k {} fun _ n d => d.refEnabled (idx - 0x2112) (n != 0))
  else if idx = 0x2120 ∧ sub = 1 then some (.store k {} fun _ n d => d.loopWritten n)
  else if idx = 0x2120 ∧ sub = 2 then some (.store k offsetWordConds fun _ n d => d.offsetWord n)
  else if 0x2130 ≤ idx ∧ idx ≤ 0x213C then
    let i := idx - 0x2130
    if sub ≤ 6 then some (.store k (pulseConds i (sub - 1)) fun _ _ d => d.retrain i d.ext)
    else if sub = 8 then some (.act (pulseStartConds i) fun _ _ d => d.pulseStarts i)
    else if sub = 9 then some (.act {} fun _ _ d => d.pulseStops i)
    else none
  else none

/-- Pour and scene objects with effects of their own. -/
def actPour (idx sub : Nat) : Option Act :=
  if idx = 0x2202 ∧ sub = 9 then some (.act cancelConds fun _ n d => (d.endPour n.toNat 6 0).bump Ob.poursCancelled)
  else if 0x2240 ≤ idx ∧ idx ≤ 0x227F ∧ sub = 6 then some (.act {} fun _ _ d => d.eraseScene (idx - 0x2240))
  else none

/-- Model, safety and network-class objects with effects of their own. -/
def actUnits (idx sub : Nat) : Option Act :=
  let k := idx * 256 + sub
  if 0x3420 ≤ idx ∧ idx ≤ 0x343F ∧ sub = 6 then
    some (.act (onState fun d _ _ => d.loadFree (idx - 0x3420)) fun se _ d => d.startLoad (idx - 0x3420) se.part)
  else if 0x3420 ≤ idx ∧ idx ≤ 0x343F ∧ sub = 7 then
    some (.act (onState fun d _ _ => !d.flag (Ob.modelEnable (idx - 0x3420))) fun _ _ d =>
      d.onModel (idx - 0x3420) fun r => { r with unloading := true })
  else if idx = 0x3600 ∧ sub = 4 then some (.act (onState fun d _ _ => d.noChannel) fun _ _ d => d.beginInjection)
  else if idx = 0x3600 ∧ sub = 7 then
    some (.act (onState fun d _ _ => d.latched && !d.safe.fbA && !d.safe.fbB) fun _ _ d =>
      ((d.set Ob.safeOutputState 0).event { code := 0x7021, island := Isl.fio }).refreshChannels)
  else if 0x3610 ≤ idx ∧ idx ≤ 0x3617 then
    let c := idx - 0x3610
    if sub = 1 then some (.store k {} fun _ n d => (d.channelEnabled c (n != 0)).refreshChannels)
    else if sub = 2 then
      some (.store k (onState fun d _ _ => !d.flag (Ob.chanEnable c) && !d.flag Ob.provisionalActive) fun _ _ d => d)
    else if sub = 8 then
      some (.act (onState fun d _ _ => d.reg (Ob.chanState c) == 3) fun _ _ d =>
        (d.chanTo c (if (d.chan c).last = 1 then 4 else 5)).refreshSafe)
    else none
  else if 0x5820 ≤ idx ∧ idx ≤ 0x5827 ∧ sub = 12 then
    let c := idx - 0x5820
    some (.act (onState fun d _ n => d.standby c && d.reg (pathKey (d.nat (Ob.clsPartner c)) (n.toNat - 1)) == 2) fun _ n d =>
      if d.reg (Ob.clsActivePath c) = n then d
      else (d.moveClass c (n.toNat - 1)).onCls c fun x => { x with swap := none })
  else none

/-- Audio, voice and analog objects with effects of their own. -/
def actOutputs (idx sub : Nat) : Option Act :=
  let k := idx * 256 + sub
  if 0x4010 ≤ idx ∧ idx ≤ 0x402F then
    let p := idx - 0x4010
    if sub = 1 then
      some { conds := portConds p, eff := fun _ n d => if d.reg k = n then d else (d.set k n).portEnabled p }
    else if sub = 10 then some (.act (outputConds p) fun _ _ d => d.outputStarts p)
    else if sub = 11 then some (.act {} fun _ _ d => d.outputStops p)
    else none
  else if 0x4758 ≤ idx ∧ idx ≤ 0x475B then
    if sub = 7 then some (.act (playConds (idx - 0x4758)) fun _ _ d => d.play (idx - 0x4758))
    else if sub = 8 then some (.act {} fun _ _ d => d.stopVoice (idx - 0x4758))
    else none
  else if (0x4800 ≤ idx ∧ idx ≤ 0x4803) ∨ (0x4810 ≤ idx ∧ idx ≤ 0x4817) then
    let dac := decide (idx ≤ 0x4803)
    let ch := if dac then idx - 0x4800 else idx - 0x4810 + 4
    if sub = (if dac then 3 else 2) then some (.act (anaStartConds ch) fun _ _ d => d.startChannel ch)
    else if sub = (if dac then 4 else 3) then some (.act {} fun _ _ d => d.anaStops ch)
    else if sub = 0x13 then some (.act (onState fun d _ _ => d.reg (anaState ch) == 3) fun _ _ d => d.set (anaState ch) 0)
    else if sub = (if dac then 6 else 4) then some (.store k {} fun _ _ d => d)
    else none
  else none

/-- Queue, connection, window and log objects with effects of their own. -/
def actHosts (idx sub : Nat) : Option Act :=
  if idx = 0x5002 ∧ sub = 2 then
    some (.act queueEnableConds fun se n d => if n = 0 then d.queueOff (d.selQueue se.id) else d.queueOn (d.selQueue se.id))
  else if idx = 0x5A21 ∧ sub = 15 then some (.act connCloseConds fun se _ d => d.connClosed se)
  else if 0x5A40 ≤ idx ∧ idx ≤ 0x5A7F ∧ sub = 8 then
    some (.act (registerConds (idx - 0x5A40)) fun _ _ d => d.windowRegistered (idx - 0x5A40))
  else if 0x5A40 ≤ idx ∧ idx ≤ 0x5A7F ∧ sub = 9 then some (.act {} fun _ _ d => d.windowRevoked (idx - 0x5A40))
  else if idx = 0x6000 ∧ sub = 5 then some (.act {} fun _ _ d => d.logCleared)
  else if idx = 0x6001 ∧ sub = 4 then some (.act {} fun _ _ d => d.mirrorCleared)
  else if idx = 0x6002 ∧ sub = 4 then some (.act releaseConds fun se n d => d.release se.part n.toNat)
  else none

/-- Start, update, power and island objects, and those of the dictionary itself, with effects of their own. -/
def actDevice (idx sub : Nat) : Option Act :=
  let k := idx * 256 + sub
  if idx = 0x1001 ∧ sub = 1 then some (.act {} fun _ _ d => { d with dict := { d.dict with restore := true } })
  else if (idx = 0x1210 ∨ idx = 0x1211) ∧ sub = 9 then
    let ctl := idx - 0x1210
    some { eff := fun _ _ d => d.restartCan ctl, post := fun _ d => d.endSessions .canRestart fun se => se.onCan ctl }
  else if (idx = 0x1400 ∧ sub = 2) ∨ (0x1401 ≤ idx ∧ idx ≤ 0x1408 ∧ sub = 1) then some (.store k {} fun _ _ d => d.powerCheck)
  else if idx = 0x7000 ∧ sub = 8 then some { eff := fun _ _ d => d, post := fun _ d => d.plainRestart 2 }
  else if idx = 0x7010 then
    if sub = 1 then some (.store k {} fun se _ d => d.offsetWritten se.part)
    else if sub = 3 then some (.store k {} fun _ _ d => d.updateWrite)
    else if sub = 4 then some (.act {} fun _ _ d => d.verifyUpdate)
    else if sub = 7 then
      some { conds := activateConds, eff := fun _ n d => if n = 3 then d.activateLive else d.markTrial,
             post := fun n d => if n = 2 then d.plainRestart 6 else d }
    else if sub = 8 then some (.act {} fun _ _ d => d.updateWrite.onBoot fun b => { b with consent := true })
    else if sub = 9 then some (.act commitConds fun _ _ d => d.commitTrial)
    else if sub = 12 then some (.act abortConds fun _ _ d => d.abortUpdate)
    else none
  else if idx = 0x7020 ∧ sub = 3 then some (.act revokeConds fun _ n d => d.revokeSlot n.toNat)
  else if idx = 0x7020 ∧ sub = 4 then some (.act floorConds fun _ n d => d.set Ob.securityVersionFloor n)
  else if 0x7F01 ≤ idx ∧ idx ≤ 0x7F19 ∧ sub = 1 then
    some { eff := fun _ _ d => d, post := fun n d => if n = 1 then d.resetIsland (idx - 0x7F00) else d.holdIsland (idx - 0x7F00) }
  else none

/-- A write of an object without an effect of its own (Table 2, steps 9, 13, 14 and 17): the conditions that depend on other
objects are tested as the write would leave them, what follows a change follows, pours whose submitter lost ownership are
cancelled, and the power state follows. -/
def actPlain (idx sub : Nat) : Act :=
  let k0 := idx * 256 + sub
  let after (d : Dev) (se : Session) (n : Int) : Dev := d.set (d.resolve se.id k0) n
  { conds :=
      { range := fun d se n =>
          let k := d.resolve se.id k0
          firstFault [(after d se n).rangeFault false se k, if d.kindHeld k then some { status := Sc.pourOnly } else none],
        state := fun d se n => needState (d.stateOk (after d se n) (d.resolve se.id k0)) },
    eff := fun se n d =>
      let d1 := d.stepped (d.written (after d se n) (d.resolve se.id k0) d.now) (d.resolve se.id k0) d.now
      (d.cancelLost d1).powerCheck }

/-- What a write of an address needs and does; `v` is the value's bytes as they came. -/
def actOf (idx sub : Nat) (v : Bytes) : Act :=
  (actTimeline idx sub <|> actFence idx sub v <|> actTiming idx sub <|> actPour idx sub <|> actUnits idx sub
    <|> actOutputs idx sub <|> actHosts idx sub <|> actDevice idx sub).getD (actPlain idx sub)

/-- WRITE (R90): of any object, by the checks of Table 2 and its own. -/
def execWrite (hd : Hdr) (idx sub : Nat) (cond : Option Nat) (v : Bytes) (s : State) : Host.Outcome State Fault Refusal :=
  onDev (fun d =>
    let a := actOf idx sub v
    match d.writeGate a.conds hd cond idx sub v with
    | .stop d => d
    | .pass d se n => a.post n ((a.eff se n d).finishWrite hd cond idx sub v se)) s

/-- A numeric object reached by WRITE_BLOCK (R103): the conditions and the effect of a WRITE. -/
def numericObj (k : Nat) : BlockObj :=
  let idx := k / 256
  let sub := k % 256
  let row := objRow idx sub
  let num (v : Bytes) : Int := match row with
    | some r => r.masked (decodeTy r.ty v)
    | none => 0
  let rwp := match row with
    | some r => r.rwp
    | none => false
  { range := fun d se v =>
      let a := actOf idx sub v
      firstFault [match row with
        | some r => valueFault r k v
        | none => some { status := Sc.noObject },
        match a.conds.fence d se with
        | some f => if d.fenceRight se.part f then none else some { status := Sc.accessDenied, detail := f }
        | none => none,
        a.conds.range d se (num v)],
    state := fun d se v => firstFault [(actOf idx sub v).conds.state d se (num v), if rwp then d.commitFault else none],
    eff := fun se v d =>
      let d := (actOf idx sub v).eff se (num v) d
      if rwp then d.countCommit else d,
    defer := rwp,
    refused := fun se r d => (actOf idx sub []).refused se r d }

/-- Channel status or user data an IEC 60958 port sends (12_audio_ports R254): only while the port is disabled. -/
def channelObj (k : Nat) : BlockObj :=
  { state := fun d _ _ => firstFault [needState (!d.flag (Ob.portEnable (k / 256 - 0x4010))), d.commitFault],
    eff := fun _ b d => (d.setBlob k b).countCommit,
    defer := true }

/-- What a block write of any object needs and does. -/
def blockObjOf (k : Nat) : BlockObj :=
  let idx := k / 256
  let sub := k % 256
  if 0x1100 ≤ idx ∧ idx ≤ 0x1107 ∧ sub = 5 then keyObj k
  else if idx = 0x7010 ∧ sub = 2 then chunkObj
  else if 0x3640 ≤ idx ∧ idx ≤ 0x364F then fieldSetObj (idx - 0x3640)
  else if 0x3840 ≤ idx ∧ idx ≤ 0x387F ∧ sub = 1 then structObj (idx - 0x3840)
  else if 0x4740 ≤ idx ∧ idx ≤ 0x4743 ∧ 0x30 ≤ sub then bankObj k
  else if 0x4018 ≤ idx ∧ idx ≤ 0x401B ∧ (sub = 0x21 ∨ sub = 0x22) then channelObj k
  else numericObj k

/-- The address and the value's first bytes of the block write a frame belongs to. -/
def Dev.blockAddress (d : Dev) (hd : Hdr) (payload : Bytes) : Nat × Bytes :=
  match d.blockOp hd.session hd.tag Op.writeBlock with
  | some b => (b.key, b.data ++ payload)
  | none => (leAt payload 0 2 * 256 + leAt payload 2 1, payload.drop 12)

/-- WRITE_BLOCK (R103), of any object: its segment, and where it completed the write what follows the answer. -/
def execWriteBlock (hd : Hdr) (payload : Bytes) (s : State) : Host.Outcome State Fault Refusal :=
  onDev (fun d0 =>
    let (k, data) := d0.blockAddress hd payload
    let d := d0.blockFrame blockObjOf hd payload
    let d := d0.endKeyed d
    if d.ver k = d0.ver k then d
    else (actOf (k / 256) (k % 256) []).post (leNat (data.take 1)) d) s

end Sys2Proof.Machine
end

