-- ==== Sys2Proof/Machine/Streams.lean ====
section
/-! DEFINITION. SERVICE_READY (05_start_up R118, R137): persisted objects are restored, what they configure takes effect, and
the dictionary begins to serve. -/
namespace Sys2Proof.Machine

/-- The counts of MSI-X vectors in force, and the persisted values that this start restores otherwise: a NotifyVector at or
above its count as none (R302), an ApertureBase above its limit as PublishedBase (R301). -/
def Dev.restoreHosts (d : Dev) : Dev :=
  let d := d.each (List.range 8) fun d p =>
    let d := d.setN (inst (Ob.partVectorCount p) 0) (d.nat (Ob.partVectorCount p))
    d.when (decide (d.nat Ob.dramCapacity < d.nat (Ob.partApertureBase p) + 1073741824)) fun d =>
      d.setN (Ob.partApertureBase p) (d.nat Ob.publishedBase)
  d.each (d.regs.filter fun e => e.1 % 16777216 == Ob.qNotifyVector) fun d e =>
    let n := match d.queueOwner (instOf e.1) with
      | some p => d.vectors p
      | none => 0
    d.when (decide ((n : Int) ≤ e.2)) fun d => d.set e.1 0xFFFF

/-- The queues whose persisted Enable is 1 are enabled in number order; a spill queue whose rings do not fit in the free spill
area stays disabled for this start, with 0x0126, and so does one whose ring lay in a DRAM window that this start disables
(19_power_dies R391); flash keeps its Enable (R306). -/
def Dev.restoreQueues (d : Dev) : Dev :=
  d.each d.enabledQueues fun d q =>
    let d := d.set (inst Ob.qEnable q) 0
    if d.qreg Ob.qRole q != 0 && (match d.queueOwner q with
        | some p => !d.ringPlaced p q
        | none => false) then d.refreshQ q
    else if d.isSpill q && decide (d.nat Ob.spillAreaFree < d.spillBytes q) then
      (d.refreshQ q).event { code := 0x0126, island := Isl.qmg, d1 := q }
    else d.queueOn q

/-- The timeline's bound, the references and the PTP source follow their objects (02_timeline R37, R39; 03_timing_unit
R65, R66). -/
def Dev.startTiming (d : Dev) : Dev :=
  let d := d.rebound
  let d := d.each [1, 2, 3, 4, 5] fun d c => d.refEnabled c (d.flag (Ob.refEnable c))
  (d.setSource (d.reg Ob.ptpSource)).reselect

/-- The sensor slots, the fusion stages and the grids start (07_sensor_ingest R159, R162; 08_fusion_grid R187, R197). -/
def Dev.startSensors (d : Dev) : Dev :=
  let d := d.each (List.range 32) fun d s => d.slotWritten s 3
  let d := d.poseQueueWritten.resamplerWritten
  d.each ((List.range 4).filter fun g => d.flag (Ob.gridEnable g)) fun d g => d.gridWritten d g 1 d.now

/-- Structures are loaded from their stored descriptors with zeroed state (11_solver R235), and the load of every model with
AutoLoad and LoadSource 0 begins; its persisted Enable applies once that load has ended (09_tensor_engines R203). -/
def Dev.startUnits (d : Dev) : Dev :=
  let d := d.each (List.range 64) fun d s =>
    let b := d.blob (Ob.structDescriptor s)
    d.when (decide (b ≠ [])) fun d => d.loadStruct s b
  d.each ((List.range 32).filter fun m => d.flag (Ob.modelAutoLoad m) && d.reg (Ob.modelLoadSource m) == 0) fun d m =>
    ((d.set (Ob.modelEnable m) 0).onModel m fun r => { r with enableWaits := true }).startLoad m 0xFF

/-- Each stored field set is checked again, and the enabled safety channels leave OFF (10_cupper_fallback R219, R226). -/
def Dev.startSafety (d : Dev) : Dev :=
  let d := d.each (List.range 16) Dev.refreshFieldSet
  let d := d.each ((List.range 8).filter fun k => d.flag (Ob.chanEnable k)) fun d k => d.channelEnabled k true
  d.refreshChannels

/-- The paths to the enabled partners are judged, and the classes take their paths (16_network_paths R322-R331). -/
def Dev.startNetwork (d : Dev) : Dev :=
  let d := d.onNet fun t => { t with hbIdx := d.ext / 1000000 }
  let d := d.each ((List.range 16).filter fun n => d.flag (Ob.peerEnable n)) Dev.peerEnabled
  d.each (List.range 8) Dev.classWritten

/-- A port's Ssrc is random at start unless persisted (12_audio_ports Table 9): a free value (log 4). -/
def Dev.startSsrc (d : Dev) (p : Nat) : Dev :=
  if (kvGet d.flash (Ob.portSsrc p)).isSome then d
  else (d.setN (Ob.portSsrc p) (Config.freshId d.fresh % 4294967296)).drawn

/-- Domains, audio ports, tones, DAC clocks and beacon receivers start (12_audio_ports R248, R249; 13_mix_engine R268;
14_analog_beacon R278). -/
def Dev.startAudio (d : Dev) : Dev :=
  let d := d.refreshDomains
  let d := d.each ((List.range 16).map (16 + ·)) Dev.startSsrc
  let d := d.each ((List.range 32).filter fun p => d.flag (Ob.portEnable p)) Dev.portOn
  let d := d.each (List.range 8) fun d k => d.toneWritten k 1 d.now
  let d := d.onAna fun a => { a with winIdx := d.ext / (Nat.max 1 (d.nat Ob.readbackWindow) * 1000) }
  d.refreshDac.each (List.range 2) Dev.beaconWritten

/-- The announcement of a CAN controller (04_dictionary R108): an unauthenticated HELLO answer to partner 0xFF with product
code, outcome and device node as its payload (log 141). -/
def Dev.announce (d : Dev) (ctl : Nat) : Dev :=
  let d := d.applyCan ctl
  d.when (d.flag (Ob.canEnable ctl) && d.flag (canInForce (Ob.canAnnounceEnable ctl))) fun d =>
    let body := leBytes 2 (d.nat Ob.productCode) ++ leBytes 1 (d.nat Ob.outcome)
      ++ leBytes 1 (d.nat (canInForce (Ob.canDeviceNode ctl)))
    d.send (.canFrame ctl (d.canIdent ctl 3 0xFF) (canPad (frameBytes 1 false false true Op.hello 0 0 0 4 0 body)))

/-- ServiceReady, its stamp and the start window; a trial bank runs its trial from here (R133, R136, R137). -/
def Dev.declareReady (d : Dev) : Dev :=
  let d := (d.setB Ob.serviceReady true).setN Ob.serviceReadyStamp d.now
  let d := { d with startWindow := true }
  d.onBoot fun b => { b with trialRunning := decide (b.trial = some (d.nat Ob.activeBank)) }

/-- SERVICE_READY (R118, R137): phase SERVICE ends, with the announcements and 0x9009, and streams start in RUN. -/
def execServiceReady (s : State) : Host.Outcome State Fault Refusal :=
  onDev (fun d =>
    if d.nat Ob.bootPhase = 7 then
      let d := d.restorePersisted.restoreHosts.restoreQueues
      let d := (d.declareReady.toPhase 8).startTiming.startSensors.startUnits.startNetwork.startAudio.startSafety
      ((d.announce 0).announce 1).event { code := 0x9009, d1 := d.reg Ob.outcome }
    else d) s

end Sys2Proof.Machine
end

