-- ==== Sys2Proof/Machine/Dispatch.lean ====
section
/-! DEFINITION. One arm for each command. -/
namespace Sys2Proof.Machine

open Sys2Proof

def exec (i : Instr) (s : State) : Host.Outcome State Fault Refusal :=
  match i with
  | .linkTransferError link replays retrained => Sys2Proof.Machine.execLinkTransferError link replays retrained s
  | .stampReplicaReload wrong => Sys2Proof.Machine.execStampReplicaReload wrong s
  | .eraWrap => Sys2Proof.Machine.execEraWrap s
  | .timelineNowRead hd => Sys2Proof.Machine.execTimelineNowRead hd s
  | .slewBoundWrite hd cond v => Sys2Proof.Machine.execSlewBoundWrite hd cond v s
  | .manualSlew hd cond v => Sys2Proof.Machine.execManualSlew hd cond v s
  | .slewAbsorbed => Sys2Proof.Machine.execSlewAbsorbed s
  | .ptpSourceWrite hd cond v => Sys2Proof.Machine.execPtpSourceWrite hd cond v s
  | .ptpSyncReceived port source domain logInterval t1 => Sys2Proof.Machine.execPtpSyncReceived port source domain logInterval t1 s
  | .ptpAnnounceReceived port domain m => Sys2Proof.Machine.execPtpAnnounceReceived port domain m s
  | .announceTimeout port => Sys2Proof.Machine.execAnnounceTimeout port s
  | .syncLoss => Sys2Proof.Machine.execSyncLoss s
  | .autoRevert => Sys2Proof.Machine.execAutoRevert s
  | .guardResponseAccept hd cond => Sys2Proof.Machine.execGuardResponseAccept hd cond s
  | .guardResponseSlew hd cond => Sys2Proof.Machine.execGuardResponseSlew hd cond s
  | .gmPortWrite hd cond v => Sys2Proof.Machine.execGmPortWrite hd cond v s
  | .gmSyncTransmit => Sys2Proof.Machine.execGmSyncTransmit s
  | .gmAnnounceTransmit => Sys2Proof.Machine.execGmAnnounceTransmit s
  | .fenceSignal src v => Sys2Proof.Machine.execFenceSignal src v s
  | .fenceAdd src v => Sys2Proof.Machine.execFenceAdd src v s
  | .fenceReset src => Sys2Proof.Machine.execFenceReset src s
  | .fenceSetDeadline src which v => Sys2Proof.Machine.execFenceSetDeadline src which v s
  | .fenceSelectWrite hd cond wait v => Sys2Proof.Machine.execFenceSelectWrite hd cond wait v s
  | .waitArm src v => Sys2Proof.Machine.execWaitArm src v s
  | .waitCancel hd cond v => Sys2Proof.Machine.execWaitCancel hd cond v s
  | .fenceDeadlineTick => Sys2Proof.Machine.execFenceDeadlineTick s
  | .xtalStable => Sys2Proof.Machine.execXtalStable s
  | .rootLock => Sys2Proof.Machine.execRootLock s
  | .clockMonitorWindow counts => Sys2Proof.Machine.execClockMonitorWindow counts s
  | .crystalLoss => Sys2Proof.Machine.execCrystalLoss s
  | .refEnableWrite hd cond code v => Sys2Proof.Machine.execRefEnableWrite hd cond code v s
  | .refActivityPresent code offset => Sys2Proof.Machine.execRefActivityPresent code offset s
  | .refQualifyTimeout code => Sys2Proof.Machine.execRefQualifyTimeout code s
  | .refActivityLost code => Sys2Proof.Machine.execRefActivityLost code s
  | .priorityEntryWrite hd cond entry v => Sys2Proof.Machine.execPriorityEntryWrite hd cond entry v s
  | .waitToRestoreExpiry code => Sys2Proof.Machine.execWaitToRestoreExpiry code s
  | .dpllLock => Sys2Proof.Machine.execDpllLock s
  | .refPhaseComparison code error => Sys2Proof.Machine.execRefPhaseComparison code error s
  | .loopModeOpen hd cond => Sys2Proof.Machine.execLoopModeOpen hd cond s
  | .loopModeClose hd cond => Sys2Proof.Machine.execLoopModeClose hd cond s
  | .freqOffsetWordWrite hd cond v => Sys2Proof.Machine.execFreqOffsetWordWrite hd cond v s
  | .phaseErrorRead hd => Sys2Proof.Machine.execPhaseErrorRead hd s
  | .ppsInEdge rising => Sys2Proof.Machine.execPpsInEdge rising s
  | .pulseConfigWrite hd cond out field v => Sys2Proof.Machine.execPulseConfigWrite hd cond out field v s
  | .pulseStart hd cond out => Sys2Proof.Machine.execPulseStart hd cond out s
  | .pulseStop hd cond out => Sys2Proof.Machine.execPulseStop hd cond out s
  | .pulseEdgeDue out => Sys2Proof.Machine.execPulseEdgeDue out s
  | .pulseWidthEnd out => Sys2Proof.Machine.execPulseWidthEnd out s
  | .synthLock syn => Sys2Proof.Machine.execSynthLock syn s
  | .deferTimeout held => Sys2Proof.Machine.execDeferTimeout held s
  | .synthLockLost syn => Sys2Proof.Machine.execSynthLockLost syn s
  | .serdesRecalDue port => Sys2Proof.Machine.execSerdesRecalDue port s
  | .hello hd part nh => Sys2Proof.Machine.execHello hd part nh s
  | .helloClose hd part nh => Sys2Proof.Machine.execHelloClose hd part nh s
  | .sessionConfirmTimeout sid => Sys2Proof.Machine.execSessionConfirmTimeout sid s
  | .sessionIdleTimeout sid => Sys2Proof.Machine.execSessionIdleTimeout sid s
  | .read hd idx sub => Sys2Proof.Machine.execRead hd idx sub s
  | .write hd idx sub cond v => Sys2Proof.Machine.execWrite hd idx sub cond v s
  | .rwpCommitDone => Sys2Proof.Machine.execRwpCommitDone s
  | .readBlock hd idx sub offset length => Sys2Proof.Machine.execReadBlock hd idx sub offset length s
  | .writeBlock hd payload => Sys2Proof.Machine.execWriteBlock hd payload s
  | .blockGapTimeout sid tag => Sys2Proof.Machine.execBlockGapTimeout sid tag s
  | .subscribe hd idx sub mode interval => Sys2Proof.Machine.execSubscribe hd idx sub mode interval s
  | .subscribeCancel hd idx sub handle => Sys2Proof.Machine.execSubscribeCancel hd idx sub handle s
  | .notify sid handle changes changedAt => Sys2Proof.Machine.execNotify sid handle changes changedAt s
  | .abort hd tag => Sys2Proof.Machine.execAbort hd tag s
  | .resultCacheExpiry sid => Sys2Proof.Machine.execResultCacheExpiry sid s
  | .restoreDefaults hd cond v => Sys2Proof.Machine.execRestoreDefaults hd cond v s
  | .keyWrite hd payload => Sys2Proof.Machine.execKeyWrite hd payload s
  | .mailboxDoorbell fn off v => Sys2Proof.Machine.execMailboxDoorbell fn off v s
  | .ansConsWrite fn v => Sys2Proof.Machine.execAnsConsWrite fn v s
  | .canBusOff ctl => Sys2Proof.Machine.execCanBusOff ctl s
  | .canRestart hd cond ctl => Sys2Proof.Machine.execCanRestart hd cond ctl s
  | .vinAbove3v mv => Sys2Proof.Machine.execVinAbove3v mv s
  | .vinValid mv => Sys2Proof.Machine.execVinValid mv s
  | .brownout mv slow => Sys2Proof.Machine.execBrownout mv slow s
  | .vioOvercurrent out => Sys2Proof.Machine.execVioOvercurrent out s
  | .vioLimitTimeout out => Sys2Proof.Machine.execVioLimitTimeout out s
  | .vioRetry out => Sys2Proof.Machine.execVioRetry out s
  | .sysReset => Sys2Proof.Machine.execSysReset s
  | .deviceRestart hd cond v => Sys2Proof.Machine.execDeviceRestart hd cond v s
  | .safeValuesApplied straps crcOk => Sys2Proof.Machine.execSafeValuesApplied straps crcOk s
  | .bundleVerified => Sys2Proof.Machine.execBundleVerified s
  | .manifestCheck => Sys2Proof.Machine.execManifestCheck s
  | .bootWatchdogExpiry => Sys2Proof.Machine.execBootWatchdogExpiry s
  | .dieLinkTrained die => Sys2Proof.Machine.execDieLinkTrained die s
  | .dieDescriptorReceived die desc => Sys2Proof.Machine.execDieDescriptorReceived die desc s
  | .dieStartTestDone die deckOk failed => Sys2Proof.Machine.execDieStartTestDone die deckOk failed s
  | .dieDiscoveryTimeout die => Sys2Proof.Machine.execDieDiscoveryTimeout die s
  | .dramChannelTrained ch ok => Sys2Proof.Machine.execDramChannelTrained ch ok s
  | .discoveryDone => Sys2Proof.Machine.execDiscoveryDone s
  | .injectionDone detected => Sys2Proof.Machine.execInjectionDone detected s
  | .serviceReady => Sys2Proof.Machine.execServiceReady s
  | .startWindowEnd => Sys2Proof.Machine.execStartWindowEnd s
  | .updateOffsetWrite hd cond v => Sys2Proof.Machine.execUpdateOffsetWrite hd cond v s
  | .updateLengthWrite hd cond v => Sys2Proof.Machine.execUpdateLengthWrite hd cond v s
  | .updateChunk hd payload => Sys2Proof.Machine.execUpdateChunk hd payload s
  | .updateVerify hd cond => Sys2Proof.Machine.execUpdateVerify hd cond s
  | .provisionalConsent hd cond => Sys2Proof.Machine.execProvisionalConsent hd cond s
  | .updateActivateNextStart hd cond => Sys2Proof.Machine.execUpdateActivateNextStart hd cond s
  | .updateActivateNow hd cond => Sys2Proof.Machine.execUpdateActivateNow hd cond s
  | .updateActivateLive hd cond => Sys2Proof.Machine.execUpdateActivateLive hd cond s
  | .updateCommit hd cond => Sys2Proof.Machine.execUpdateCommit hd cond s
  | .updateAbort hd cond => Sys2Proof.Machine.execUpdateAbort hd cond s
  | .updateClaimTimeout => Sys2Proof.Machine.execUpdateClaimTimeout s
  | .commitTimeout => Sys2Proof.Machine.execCommitTimeout s
  | .revokeKeySlot hd cond v => Sys2Proof.Machine.execRevokeKeySlot hd cond v s
  | .advanceFloor hd cond v => Sys2Proof.Machine.execAdvanceFloor hd cond v s
  | .pour hd payload => Sys2Proof.Machine.execPour hd payload s
  | .pourStore hd payload => Sys2Proof.Machine.execPourStore hd payload s
  | .pourRecall hd payload => Sys2Proof.Machine.execPourRecall hd payload s
  | .pourShadowLoaded handle => Sys2Proof.Machine.execPourShadowLoaded handle s
  | .pourGenerationReserved handle => Sys2Proof.Machine.execPourGenerationReserved handle s
  | .pourBacklogTimeout handle => Sys2Proof.Machine.execPourBacklogTimeout handle s
  | .pourCancel hd cond v => Sys2Proof.Machine.execPourCancel hd cond v s
  | .pourFlip uid engine => Sys2Proof.Machine.execPourFlip uid engine s
  | .rampEnd key => Sys2Proof.Machine.execRampEnd key s
  | .pourCommitDone handle uid => Sys2Proof.Machine.execPourCommitDone handle uid s
  | .sceneErase hd cond scene => Sys2Proof.Machine.execSceneErase hd cond scene s
  | .csiFrameStart port vc => Sys2Proof.Machine.execCsiFrameStart port vc s
  | .csiEmbeddedLine port vc line => Sys2Proof.Machine.execCsiEmbeddedLine port vc line s
  | .csiLongPacket port vc dataType headerOk line found => Sys2Proof.Machine.execCsiLongPacket port vc dataType headerOk line found s
  | .csiFrameEnd port vc => Sys2Proof.Machine.execCsiFrameEnd port vc s
  | .csiLaneError port lane => Sys2Proof.Machine.execCsiLaneError port lane s
  | .scannerDatagram port srcIp dstPort fragmented payload found => Sys2Proof.Machine.execScannerDatagram port srcIp dstPort fragmented payload found s
  | .imuDrdyEdge port rising => Sys2Proof.Machine.execImuDrdyEdge port rising s
  | .imuReadDone port data => Sys2Proof.Machine.execImuReadDone port data s
  | .encoderTransition ch step => Sys2Proof.Machine.execEncoderTransition ch step s
  | .encoderZEdge ch => Sys2Proof.Machine.execEncoderZEdge ch s
  | .encoderPeriodEnd slot => Sys2Proof.Machine.execEncoderPeriodEnd slot s
  | .canSensorFrame ctl id extended data found => Sys2Proof.Machine.execCanSensorFrame ctl id extended data found s
  | .modelWindowEnd slot => Sys2Proof.Machine.execModelWindowEnd slot s
  | .slotStaleTimeout slot => Sys2Proof.Machine.execSlotStaleTimeout slot s
  | .gridTick => Sys2Proof.Machine.execGridTick s
  | .resampleTickRecord => Sys2Proof.Machine.execResampleTickRecord s
  | .poseRecord => Sys2Proof.Machine.execPoseRecord s
  | .poseWaitExpiry => Sys2Proof.Machine.execPoseWaitExpiry s
  | .gridPointItem => Sys2Proof.Machine.execGridPointItem s
  | .pointWaitExpiry grid => Sys2Proof.Machine.execPointWaitExpiry grid s
  | .gridBuildDone grid => Sys2Proof.Machine.execGridBuildDone grid s
  | .modelLoad hd cond m => Sys2Proof.Machine.execModelLoad hd cond m s
  | .modelLoadDone m readOk => Sys2Proof.Machine.execModelLoadDone m readOk s
  | .deckCopyDone m die => Sys2Proof.Machine.execDeckCopyDone m die s
  | .modelUnload hd cond m => Sys2Proof.Machine.execModelUnload hd cond m s
  | .modelUnloadDone m => Sys2Proof.Machine.execModelUnloadDone m s
  | .inferenceTrigger src => Sys2Proof.Machine.execInferenceTrigger src s
  | .inferenceDispatch e => Sys2Proof.Machine.execInferenceDispatch e s
  | .inferenceComplete e fault => Sys2Proof.Machine.execInferenceComplete e fault s
  | .canaryComplete e fault => Sys2Proof.Machine.execCanaryComplete e fault s
  | .canaryTimeout m => Sys2Proof.Machine.execCanaryTimeout m s
  | .canaryRequest m => Sys2Proof.Machine.execCanaryRequest m s
  | .weightScanBlock m found => Sys2Proof.Machine.execWeightScanBlock m found s
  | .weightScanOverdue m => Sys2Proof.Machine.execWeightScanOverdue m s
  | .fallbackEvaluate => Sys2Proof.Machine.execFallbackEvaluate s
  | .lockstepMismatch kind => Sys2Proof.Machine.execLockstepMismatch kind s
  | .cupResetDone detect1 detect2 => Sys2Proof.Machine.execCupResetDone detect1 detect2 s
  | .channelEnable hd cond k v => Sys2Proof.Machine.execChannelEnable hd cond k v s
  | .channelRestart hd cond k => Sys2Proof.Machine.execChannelRestart hd cond k s
  | .policyWrite hd cond k v => Sys2Proof.Machine.execPolicyWrite hd cond k v s
  | .fieldSetWrite hd payload => Sys2Proof.Machine.execFieldSetWrite hd payload s
  | .safeTestPulse out begin_ => Sys2Proof.Machine.execSafeTestPulse out begin_ s
  | .safeFeedbackEdge fb level => Sys2Proof.Machine.execSafeFeedbackEdge fb level s
  | .feedbackDelayExpiry fb => Sys2Proof.Machine.execFeedbackDelayExpiry fb s
  | .safeReset hd cond => Sys2Proof.Machine.execSafeReset hd cond s
  | .injectRerun hd cond => Sys2Proof.Machine.execInjectRerun hd cond s
  | .structureDescriptorWrite hd payload => Sys2Proof.Machine.execStructureDescriptorWrite hd payload s
  | .solverBatchStart => Sys2Proof.Machine.execSolverBatchStart s
  | .solverBatchEnd => Sys2Proof.Machine.execSolverBatchEnd s
  | .domainBlock dom stamp => Sys2Proof.Machine.execDomainBlock dom stamp s
  | .portBlockStamp port stamp ratio => Sys2Proof.Machine.execPortBlockStamp port stamp ratio s
  | .portEnable hd cond port v => Sys2Proof.Machine.execPortEnable hd cond port v s
  | .converterSettled port => Sys2Proof.Machine.execConverterSettled port s
  | .outputStart hd cond port => Sys2Proof.Machine.execOutputStart hd cond port s
  | .outputStop hd cond port => Sys2Proof.Machine.execOutputStop hd cond port s
  | .serialWsSlip port => Sys2Proof.Machine.execSerialWsSlip port s
  | .serialRelock port => Sys2Proof.Machine.execSerialRelock port s
  | .serialClockAbsent port => Sys2Proof.Machine.execSerialClockAbsent port s
  | .portRateMismatch port measured => Sys2Proof.Machine.execPortRateMismatch port measured s
  | .biphaseFrame port coded parityOk validity => Sys2Proof.Machine.execBiphaseFrame port coded parityOk validity s
  | .channelStatusBlock port status user => Sys2Proof.Machine.execChannelStatusBlock port status user s
  | .biphaseUnlock port => Sys2Proof.Machine.execBiphaseUnlock port s
  | .rtpPacketReceived eth stream h payload found => Sys2Proof.Machine.execRtpPacketReceived eth stream h payload found s
  | .rtpPacketTransmit stream first found => Sys2Proof.Machine.execRtpPacketTransmit stream first found s
  | .aes67Realign stream => Sys2Proof.Machine.execAes67Realign stream s
  | .hostAudioBlock strip => Sys2Proof.Machine.execHostAudioBlock strip s
  | .toneCadenceTransition tone => Sys2Proof.Machine.execToneCadenceTransition tone s
  | .voicePlay hd cond voice => Sys2Proof.Machine.execVoicePlay hd cond voice s
  | .voiceStop hd cond voice => Sys2Proof.Machine.execVoiceStop hd cond voice s
  | .voiceClipEnd voice => Sys2Proof.Machine.execVoiceClipEnd voice s
  | .controlItem bind => Sys2Proof.Machine.execControlItem bind s
  | .bfBankWrite hd payload => Sys2Proof.Machine.execBfBankWrite hd payload s
  | .mixLaneDrop lane => Sys2Proof.Machine.execMixLaneDrop lane s
  | .analogStart hd cond ch => Sys2Proof.Machine.execAnalogStart hd cond ch s
  | .analogStop hd cond ch => Sys2Proof.Machine.execAnalogStop hd cond ch s
  | .settleTimeExpiry ch => Sys2Proof.Machine.execSettleTimeExpiry ch s
  | .readbackWindowEnd means devs rails => Sys2Proof.Machine.execReadbackWindowEnd means devs rails s
  | .faultClear hd cond ch => Sys2Proof.Machine.execFaultClear hd cond ch s
  | .safeValueWrite hd cond ch v => Sys2Proof.Machine.execSafeValueWrite hd cond ch v s
  | .beaconFrame rcv start frame amplitude ambient => Sys2Proof.Machine.execBeaconFrame rcv start frame amplitude ambient s
  | .beaconFlood rcv onset ambient inFrame => Sys2Proof.Machine.execBeaconFlood rcv onset ambient inFrame s
  | .beaconFloodEnd rcv => Sys2Proof.Machine.execBeaconFloodEnd rcv s
  | .beaconViolation rcv inFrame => Sys2Proof.Machine.execBeaconViolation rcv inFrame s
  | .beaconResync rcv => Sys2Proof.Machine.execBeaconResync rcv s
  | .itemEnqueue q it found => Sys2Proof.Machine.execItemEnqueue q it found s
  | .deliverySlotWrite q record payload dma => Sys2Proof.Machine.execDeliverySlotWrite q record payload dma s
  | .deliveryConsWrite fn q v => Sys2Proof.Machine.execDeliveryConsWrite fn q v s
  | .submissionDoorbell fn q v => Sys2Proof.Machine.execSubmissionDoorbell fn q v s
  | .submissionFetch q slot dram => Sys2Proof.Machine.execSubmissionFetch q slot dram s
  | .bar0HighLatchRead fn off wide => Sys2Proof.Machine.execBar0HighLatchRead fn off wide s
  | .bar0InvalidAccess fn off len write => Sys2Proof.Machine.execBar0InvalidAccess fn off len write s
  | .bar2Access fn off len w poisoned => Sys2Proof.Machine.execBar2Access fn off len w poisoned s
  | .virekRingPoll q => Sys2Proof.Machine.execVirekRingPoll q s
  | .staleTimeExpiry q => Sys2Proof.Machine.execStaleTimeExpiry q s
  | .queueEnable hd cond => Sys2Proof.Machine.execQueueEnable hd cond s
  | .queueDisable hd cond => Sys2Proof.Machine.execQueueDisable hd cond s
  | .heartbeatSend => Sys2Proof.Machine.execHeartbeatSend s
  | .heartbeatReceived port srcIp payload found => Sys2Proof.Machine.execHeartbeatReceived port srcIp payload found s
  | .heartbeatMissingCheck partner path seq => Sys2Proof.Machine.execHeartbeatMissingCheck partner path seq s
  | .partnerSilenceTimeout partner => Sys2Proof.Machine.execPartnerSilenceTimeout partner s
  | .portLinkChange port up => Sys2Proof.Machine.execPortLinkChange port up s
  | .holdTimeExpiry k => Sys2Proof.Machine.execHoldTimeExpiry k s
  | .duplicateFrameReceived port mac trailer supervision => Sys2Proof.Machine.execDuplicateFrameReceived port mac trailer supervision s
  | .swapTest k => Sys2Proof.Machine.execSwapTest k s
  | .swapVerifyExpiry k => Sys2Proof.Machine.execSwapVerifyExpiry k s
  | .forceSwitch hd cond k v => Sys2Proof.Machine.execForceSwitch hd cond k v s
  | .virekConnect h data => Sys2Proof.Machine.execVirekConnect h data s
  | .virekDisconnect h => Sys2Proof.Machine.execVirekDisconnect h s
  | .virekQuiesce h => Sys2Proof.Machine.execVirekQuiesce h s
  | .virekRead h bad => Sys2Proof.Machine.execVirekRead h bad s
  | .virekWrite h data found => Sys2Proof.Machine.execVirekWrite h data found s
  | .virekWriteFence h data found => Sys2Proof.Machine.execVirekWriteFence h data found s
  | .virekFenceAdd h => Sys2Proof.Machine.execVirekFenceAdd h s
  | .virekAck h => Sys2Proof.Machine.execVirekAck h s
  | .virekNak h => Sys2Proof.Machine.execVirekNak h s
  | .virekPing h => Sys2Proof.Machine.execVirekPing h s
  | .virekPacketInvalid port srcIp srcPort opcode => Sys2Proof.Machine.execVirekPacketInvalid port srcIp srcPort opcode s
  | .virekWriteCommitted slot => Sys2Proof.Machine.execVirekWriteCommitted slot s
  | .virekAckDelayExpiry slot => Sys2Proof.Machine.execVirekAckDelayExpiry slot s
  | .virekRtoExpiry slot => Sys2Proof.Machine.execVirekRtoExpiry slot s
  | .virekPeerTimeout slot => Sys2Proof.Machine.execVirekPeerTimeout slot s
  | .virekCreditStall slot => Sys2Proof.Machine.execVirekCreditStall slot s
  | .virekStallPing slot => Sys2Proof.Machine.execVirekStallPing slot s
  | .virekQuiesceHoldExpiry slot => Sys2Proof.Machine.execVirekQuiesceHoldExpiry slot s
  | .connectionClose hd cond => Sys2Proof.Machine.execConnectionClose hd cond s
  | .windowRegister hd cond w => Sys2Proof.Machine.execWindowRegister hd cond w s
  | .windowRevoke hd cond w => Sys2Proof.Machine.execWindowRevoke hd cond w s
  | .quarantineExpiry id => Sys2Proof.Machine.execQuarantineExpiry id s
  | .quarantineRelease hd cond v => Sys2Proof.Machine.execQuarantineRelease hd cond v s
  | .logClear hd cond v => Sys2Proof.Machine.execLogClear hd cond v s
  | .mirrorClear hd cond v => Sys2Proof.Machine.execMirrorClear hd cond v s
  | .powerStateEntry st taken => Sys2Proof.Machine.execPowerStateEntry st taken s
  | .demandWake island => Sys2Proof.Machine.execDemandWake island s
  | .earlyWake => Sys2Proof.Machine.execEarlyWake s
  | .powerStateExitDone => Sys2Proof.Machine.execPowerStateExitDone s
  | .wakeToleranceWrite hd cond part v => Sys2Proof.Machine.execWakeToleranceWrite hd cond part v s
  | .powerCapWindow avg => Sys2Proof.Machine.execPowerCapWindow avg s
  | .temperatureSample io dies => Sys2Proof.Machine.execTemperatureSample io dies s
  | .thermalTripCooled io => Sys2Proof.Machine.execThermalTripCooled io s
  | .islandReset hd cond island => Sys2Proof.Machine.execIslandReset hd cond island s
  | .islandHold hd cond island => Sys2Proof.Machine.execIslandHold hd cond island s
  | .quiesceBoundaryEmpty island => Sys2Proof.Machine.execQuiesceBoundaryEmpty island s
  | .islandReturn island => Sys2Proof.Machine.execIslandReturn island s
  | .islandWatchdogExpiry island => Sys2Proof.Machine.execIslandWatchdogExpiry island s
  | .staleReplyReceived island incarnation => Sys2Proof.Machine.execStaleReplyReceived island incarnation s
  | .i2cRead reg len => Sys2Proof.Machine.execI2cRead reg len s
  | .i2cWrite reg data => Sys2Proof.Machine.execI2cWrite reg data s
  | .canErrorFrame ctl passive => Sys2Proof.Machine.execCanErrorFrame ctl passive s
  | .canBusOffRecovery ctl => Sys2Proof.Machine.execCanBusOffRecovery ctl s
  | .biphaseReceiverLock port offset => Sys2Proof.Machine.execBiphaseReceiverLock port offset s
  | .ptpDelayRespReceived port domain seq t4 turn => Sys2Proof.Machine.execPtpDelayRespReceived port domain seq t4 turn s
  | .ptpDelayReqReceived port domain seq requester peer => Sys2Proof.Machine.execPtpDelayReqReceived port domain seq requester peer s
  | .arpIcmpEchoRequest port echo srcIp targetIp payload => Sys2Proof.Machine.execArpIcmpEchoRequest port echo srcIp targetIp payload s
  | .pauseOrOversizeFrame port len => Sys2Proof.Machine.execPauseOrOversizeFrame port len s
  | .perstNRelease => Sys2Proof.Machine.execPerstNRelease s

end Sys2Proof.Machine
end

