-- ==== Sys2Proof/Safety.lean ====
section
/-! DEFINITION. The words claims use: the SAFE pair and the conditions that let it be on (10_cupper_fallback R227), the
bookkeeping objects, and a command that runs. -/
namespace Sys2Proof.Machine

/-- A safety channel is in RUN_ACCEL or RUN_FALLBACK (10_cupper_fallback Table 4). -/
def Dev.channelRuns (d : Dev) (k : Nat) : Prop := d.reg (Ob.chanState k) = 4 ∨ d.reg (Ob.chanState k) = 5

/-- The conditions of R227: some channel has SafeOutputBit, every such channel runs, no SAFE fault is latched, and streams
run with no injection under way. -/
def Dev.PairConditions (d : Dev) : Prop :=
  (∃ k, k < 8 ∧ d.flag (Ob.chanSafeOutputBit k) = true)
    ∧ (∀ k, k < 8 → d.flag (Ob.chanSafeOutputBit k) = true → d.channelRuns k)
    ∧ d.reg Ob.safeOutputState ≠ 2 ∧ d.nat Ob.bootPhase = 8 ∧ d.safe.injecting = false

/-- The SAFE pair is lawful: an output is high only under the conditions of R227; under them at least one is high, since the
test pulses of R228 never overlap; and SafeOutputState reads 1 exactly then. -/
def Dev.PairLawful (d : Dev) : Prop :=
  ((d.pins.safeA = true ∨ d.pins.safeB = true) ↔ d.PairConditions) ∧ (d.reg Ob.safeOutputState = 1 ↔ d.PairConditions)

/-- The bookkeeping objects: those that logging, queueing, counting at a handover, answering and holding a command move
(sessions and violations of a partition, service counters, generation counts, deferral counts, the carafe and the event
counts, queue objects, frame counts of the ports, open connections, the log, the mirror, quarantine and point counters,
counts of requests before ServiceReady, of ABSENT answers and of requests at a quiesced CTL). -/
abbrev BookKey (k : Nat) : Prop :=
  (0x1100 ≤ k / 256 % 65536 ∧ k / 256 % 65536 ≤ 0x1107 ∧ 11 ≤ k % 256 ∧ k % 256 ≤ 12)
    ∨ k / 256 % 65536 = 0x1220
    ∨ (k / 256 % 65536 = 0x2160 ∧ k % 256 = 2)
    ∨ (k / 256 % 65536 = 0x2201 ∧ 2 ≤ k % 256 ∧ k % 256 ≤ 6)
    ∨ k / 256 % 65536 = 0x5000 ∨ k / 256 % 65536 = 0x5002
    ∨ (0x5800 ≤ k / 256 % 65536 ∧ k / 256 % 65536 ≤ 0x5801 ∧ 5 ≤ k % 256 ∧ k % 256 ≤ 8)
    ∨ (k / 256 % 65536 = 0x5A00 ∧ k % 256 = 3)
    ∨ (0x6000 ≤ k / 256 % 65536 ∧ k / 256 % 65536 ≤ 0x6002)
    ∨ (0x6010 ≤ k / 256 % 65536 ∧ k / 256 % 65536 ≤ 0x601F)
    ∨ k / 256 % 65536 = 0x7030
    ∨ (0x7F01 ≤ k / 256 % 65536 ∧ k / 256 % 65536 ≤ 0x7F19 ∧ (k % 256 = 6 ∨ k % 256 = 9))

/-- The command answers a next state, with the commands that wait as they were, and the device it leaves has `P`. -/
def Runs (i : Instr) (s : State) (P : Dev → Prop) : Prop :=
  ∃ t, exec i s = .next t ∧ t.pending = s.pending ∧ P t.dev

/-- A write command of object `idx`.`sub` with the value bytes `v`: whatever the state and the request header, once the
write passes the checks of 04_dictionary Table 2 and its own (`c`), with the session `se` and the value `n`, the command runs
and the device before it, the session, the value and the device after it have `P`. -/
def SetRuns (mk : Hdr → Option Nat → Instr) (c : Conds) (idx sub : Nat) (v : Bytes)
    (P : Dev → Session → Int → Dev → Prop) : Prop :=
  ∀ (s : State) (hd : Hdr) (cond : Option Nat) (e : Dev) (se : Session) (n : Int),
    s.dev.writeGate c hd cond idx sub v = .pass e se n → Runs (mk hd cond) s (P s.dev se n)

/-- Every register but those of `ks`, the bookkeeping objects and SafeOutputState is as it was. -/
def Dev.KeepsRegs (d d' : Dev) (ks : List Nat) : Prop :=
  ∀ k, ¬ BookKey k → k ≠ Ob.safeOutputState → k ∉ ks → d'.reg k = d.reg k

/-- A read command of object `idx`.`sub`: whatever the state and the request header, once the read passes the checks of
04_dictionary Table 2, with the device `e` that has admitted the request, the session and the object's row, the command runs
and these and the device after it have `P`. -/
def ReadRuns (mk : Hdr → Instr) (op : Nat) (payload : Bytes) (idx sub : Nat)
    (P : Dev → Session → ObjRow → Dev → Prop) : Prop :=
  ∀ (s : State) (hd : Hdr) (e : Dev) (se : Session) (r : ObjRow),
    s.dev.readGate hd op payload idx sub = .pass e se r → Runs (mk hd) s (P e se r)

/-- The answer a session's last request got, kept for its repetition (04_dictionary R101). -/
def Dev.lastAnswer (d : Dev) (sid : Nat) : Option Ans := (d.session sid).bind fun s => s.cache.head?.map fun c => c.ans

/-- The device with block write `b` in the place of the one of its session and tag (04_dictionary R103). -/
def Dev.withBlock (d : Dev) (b : Block) : Dev :=
  { d.dropBlock b.sid b.tag with dict := { d.dict with blocks := b :: (d.dropBlock b.sid b.tag).dict.blocks } }

/-- A command that is the segment of a block write: whatever the state and the frame, once it is admitted (`e`, `se`), is the
next and last segment of the block write `b`, brings it to its total length and its CRC-32C, and the object's conditions `o`
hold, the command runs, and these, the block's data and the device after it have `P`. -/
def BlockRuns (mk : Hdr → Bytes → Instr) (o : Nat → BlockObj) (P : Dev → Session → Block → Bytes → Dev → Prop) : Prop :=
  ∀ (s : State) (hd : Hdr) (payload : Bytes) (e : Dev) (se : Session) (b : Block),
    s.dev.admission hd Op.writeBlock payload (s.dev.blockOp hd.session hd.tag Op.writeBlock).isSome = .go e se →
    e.blockOp se.id hd.tag Op.writeBlock = some b → hd.seg = b.next → hd.more = false →
    (b.data ++ payload).length = b.total + 4 →
    leNat ((b.data ++ payload).drop b.total) = crc32c ((b.data ++ payload).take b.total) →
    (e.withBlock { b with next := b.next + 1, data := b.data ++ payload, lastSeg := e.ext }).blockFault (o b.key) se
      { b with next := b.next + 1, data := b.data ++ payload, lastSeg := e.ext } ((b.data ++ payload).take b.total) = none →
    Runs (mk hd payload) s (P e se b ((b.data ++ payload).take b.total))

/-- An address whose write has no effect of its own (06_pours R139: what follows a change is all it does). -/
def plainObj (idx sub : Nat) (v : Bytes) : Bool :=
  (actTimeline idx sub <|> actFence idx sub v <|> actTiming idx sub <|> actPour idx sub <|> actUnits idx sub
    <|> actOutputs idx sub <|> actHosts idx sub <|> actDevice idx sub).isNone

/-- A POUR frame in one piece arrives (06_pours R138): it is admitted (`e`, `se`), its descriptor is sound, and its entries
are `l`. -/
def PourArrives (d : Dev) (hd : Hdr) (payload : Bytes) (e : Dev) (se : Session) (l : List RawEntry) : Prop :=
  d.admission hd Op.pour payload false = .go e se ∧ hd.seg = 0 ∧ hd.more = false ∧ e.blockOp se.id hd.tag Op.pour = none
    ∧ e.nat Ob.bootPhase ≠ 9 ∧ payload.length = 48 + (pourHead payload).area ∧ payload.length ≤ 65536 ∧ headBad payload = false
    ∧ rawEntries (pourHead payload).count (payload.drop 48) = some l ∧ (pourHead payload).ok = true
    ∧ e.unprovisioned 0 = false

/-- A BAR0 fence operation of function `fn` on fence `f` reaches its fence: PERST# is released, the function's partition is
`p`, requests are served, and neither quarantine, a quiesced TMG nor the rights stand against it. -/
abbrev BarFenceMay (d : Dev) (fn p f : Nat) : Prop :=
  d.pins.perst = true ∧ d.partOf (.mailbox fn) = some p ∧ d.serving = true ∧ d.quarantinedId (partnerId 1 p) = false
    ∧ d.quiesced Isl.tmg = false ∧ d.fenceRight p f = true

/-- A BAR0 or BAR2 write of function `fn` goes on for partition `p` (15_hosts_queues R300): PERST# is released, the function's
partition is enabled, requests are served, and the partition is not quarantined. -/
def Dev.BarMay (d : Dev) (fn p : Nat) : Prop :=
  d.pins.perst = true ∧ d.partOf (.mailbox fn) = some p ∧ d.serving = true ∧ d.quarantinedId (partnerId 1 p) = false

/-- A Virek packet from a peer is looked at (17_virek R337, R351): its port is up, ServiceReady is 1, VirekEnable is 1, and the
peer is not quarantined. -/
def Dev.VirekMay (d : Dev) (port ip srcPort : Nat) : Prop :=
  d.portUp port = true ∧ d.ready = true ∧ d.flag Ob.virekEnable = true
    ∧ ∀ id ∈ d.peerId ip srcPort, d.quarantinedId id = false

/-- A read-back window has ended and is not yet judged (14_analog_beacon R282). -/
def Dev.windowDue (d : Dev) : Bool :=
  !d.quiesced Isl.ana && d.ready && decide (d.ana.winIdx < d.ext / (Nat.max 1 (d.nat Ob.readbackWindow) * 1000))

/-- A Virek packet reaches its connection (17_virek R337, R339): `c`, at the place that Connection names, has its ID and its
sender. -/
def Dev.VirekArrives (d : Dev) (h : VirekHdr) (c : Conn) : Prop :=
  d.VirekMay h.port h.srcIp h.srcPort ∧ d.conn (h.conn % 256) = some c ∧ c.id = h.conn ∧ c.ip = h.srcIp ∧ c.port = h.srcPort

/-- A Virek operation passes the checks of 17_virek Table 3 in window `w`. -/
def Dev.VirekPasses (d : Dev) (h : VirekHdr) (c : Conn) (op w : Nat) : Prop :=
  d.winOf c.part h.key = some w ∧ (∀ r ∈ opRights op, bit (d.nat (Ob.winRights w)) r = true)
    ∧ h.offset + h.length ≤ (d.winSpan w).2
    ∧ (op = 0x13 ∨ op = 0x14 → d.nat (Ob.winFenceFirst w) ≤ h.fence
        ∧ h.fence < d.nat (Ob.winFenceFirst w) + d.nat (Ob.winFenceCount w))
    ∧ ∀ i ∈ opIslands op, d.quiesced i = false

/-- What a fault of island `i` leaves (19_power_dies R396, 10_cupper_fallback R220): FIO and PCI restart the device; another
island quiesces, to be held at the second fault within a second; CUP's first fault resets it at once. -/
def Dev.IslandFaults (d : Dev) (i : Nat) (d' : Dev) : Prop :=
  if i = Isl.fio ∨ i = Isl.pci then
    d'.reg Ob.bootPhase = 1 ∧ d'.reg Ob.bootCause = 8 ∧ d'.pins.safeA = false ∧ d'.pins.safeB = false
  else if d.quiesced i = true then d.KeepsRegs d' []
  else
    kvGet d'.islCause i = some (if d.faultedAgain i = true then 5 else 2)
      ∧ ((i = Isl.mix → d.mix.filters = []) → d'.isl i = if i = Isl.cup ∧ d.faultedAgain i = false then 3 else 2)
      ∧ (i = Isl.cup → d'.reg Ob.cupperState = 2)

/-- Wait `w` is completed by a record of 16 bytes in DRAM that covers address `a` (02_timeline R52, Table 6). -/
def Dev.Mirrors (d : Dev) (w : Wait) (a : Nat) : Prop :=
  w.delivery ≠ 0 ∧ w.delivery ≠ 1 ∧ d.nat (Ob.partAttachKind w.part) ≠ 0
    ∧ d.nat (Ob.partWindowBase w.part 0) + w.dest ≤ a ∧ a < d.nat (Ob.partWindowBase w.part 0) + w.dest + 16

/-- The parts of the device that few commands reach: the DRAM, the timeline and its servo, the fences and the waits on them,
the firmware banks, what embedded flash holds, the boot record, the codes at the analog pins, and what each unit holds beside
its registers. -/
inductive Part
  | dram | timeline | servo | fences | waits | banks | flash | boot | analogOut | slots | encoders | fusion | tensor
  | solver | network | audio | mix | analog | virek | pours | power
  deriving DecidableEq, Repr

/-- A part reads the same in two devices: each byte of DRAM, and the rest whole. -/
def Part.same (p : Part) (d d' : Dev) : Prop :=
  match p with
  | .dram => ∀ a, memByte d'.mem a = memByte d.mem a
  | .timeline => d'.tl = d.tl
  | .servo => d'.servo = d.servo
  | .fences => d'.fences = d.fences
  | .waits => d'.waits = d.waits
  | .banks => d'.banks = d.banks
  | .flash => d'.flash = d.flash ∧ d'.flashBlobs = d.flashBlobs
  | .boot => d'.boot = d.boot
  | .analogOut => d'.analogOut = d.analogOut
  | .slots => d'.slots = d.slots
  | .encoders => d'.encs = d.encs
  | .fusion => d'.fus = d.fus
  | .tensor => d'.ten = d.ten
  | .solver => d'.sol = d.sol
  | .network => d'.net = d.net
  | .audio => d'.aud = d.aud
  | .mix => d'.mix = d.mix
  | .analog => d'.ana = d.ana
  | .virek => d'.virek = d.virek
  | .pours => d'.pours = d.pours
  | .power => d'.pow = d.pow

/-- The commands that may restart the device, or write any object with what its write sets off. -/
def farReaching : Sys2Proof.Instr → Bool
  | .clockMonitorWindow .. | .crystalLoss | .write .. | .writeBlock .. | .brownout .. | .sysReset
  | .deviceRestart .. | .bootWatchdogExpiry | .updateActivateNow .. | .temperatureSample ..
  | .islandWatchdogExpiry .. => true
  | _ => false

/-- The other commands that may store to DRAM. -/
def setsDram : Sys2Proof.Instr → Bool
  | .linkTransferError .. | .fenceSignal .. | .fenceAdd .. | .fenceReset .. | .fenceSetDeadline .. | .waitArm ..
  | .fenceDeadlineTick | .serviceReady | .updateActivateLive .. | .pourShadowLoaded .. | .pourFlip ..
  | .rampEnd .. | .gridBuildDone .. | .structureDescriptorWrite .. | .solverBatchStart | .solverBatchEnd
  | .mixLaneDrop .. | .deliverySlotWrite .. | .submissionFetch .. | .bar2Access .. | .virekRead ..
  | .virekFenceAdd .. | .virekWriteCommitted .. | .islandReset .. | .islandHold .. | .quiesceBoundaryEmpty ..
  | .islandReturn .. => true
  | _ => false

/-- The other commands that may move the timeline. -/
def setsTimeline : Sys2Proof.Instr → Bool
  | .linkTransferError .. | .stampReplicaReload .. | .eraWrap | .slewBoundWrite .. | .manualSlew ..
  | .slewAbsorbed | .ptpSourceWrite .. | .ptpSyncReceived .. | .announceTimeout .. | .syncLoss | .autoRevert
  | .guardResponseSlew .. | .fenceDeadlineTick | .rootLock | .serviceReady | .updateActivateLive ..
  | .pourShadowLoaded .. | .pourFlip .. | .rampEnd .. | .solverBatchStart | .solverBatchEnd | .mixLaneDrop ..
  | .portLinkChange .. | .islandReset .. | .islandHold .. | .quiesceBoundaryEmpty .. | .islandReturn .. => true
  | _ => false

/-- The other commands that may move the servo. -/
def setsServo : Sys2Proof.Instr → Bool
  | .eraWrap | .slewBoundWrite .. | .manualSlew .. | .slewAbsorbed | .ptpSourceWrite .. | .ptpSyncReceived ..
  | .ptpAnnounceReceived .. | .announceTimeout .. | .syncLoss | .autoRevert | .guardResponseAccept ..
  | .guardResponseSlew .. | .gmSyncTransmit | .gmAnnounceTransmit | .synthLock .. | .serviceReady
  | .updateActivateLive .. | .pourFlip .. | .portLinkChange .. | .islandReset .. | .islandHold ..
  | .islandReturn .. | .ptpDelayRespReceived .. => true
  | _ => false

/-- The other commands that may change a fence. -/
def setsFences : Sys2Proof.Instr → Bool
  | .linkTransferError .. | .fenceSignal .. | .fenceAdd .. | .fenceReset .. | .fenceSetDeadline ..
  | .updateActivateLive .. | .pourShadowLoaded .. | .pourFlip .. | .rampEnd .. | .solverBatchStart
  | .solverBatchEnd | .mixLaneDrop .. | .virekRead .. | .virekFenceAdd .. | .virekWriteCommitted ..
  | .islandReset .. | .islandHold .. | .quiesceBoundaryEmpty .. | .islandReturn .. => true
  | _ => false

/-- The other commands that may arm or end a wait. -/
def setsWaits : Sys2Proof.Instr → Bool
  | .linkTransferError .. | .fenceSignal .. | .fenceAdd .. | .fenceReset .. | .fenceSetDeadline .. | .waitArm ..
  | .waitCancel .. | .fenceDeadlineTick | .updateActivateLive .. | .pourShadowLoaded .. | .pourFlip ..
  | .rampEnd .. | .solverBatchStart | .solverBatchEnd | .mixLaneDrop .. | .virekRead .. | .virekFenceAdd ..
  | .virekWriteCommitted .. | .islandReset .. | .islandHold .. | .quiesceBoundaryEmpty .. | .islandReturn .. => true
  | _ => false

/-- The other commands that may write a firmware bank. -/
def setsBanks : Sys2Proof.Instr → Bool
  | .updateChunk .. | .updateAbort .. => true
  | _ => false

/-- The other commands that may write embedded flash. -/
def setsFlash : Sys2Proof.Instr → Bool
  | .rwpCommitDone | .safeValuesApplied .. | .bundleVerified | .manifestCheck | .discoveryDone | .serviceReady
  | .pourCommitDone .. | .sceneErase .. => true
  | _ => false

/-- The other commands that may change the boot record. -/
def setsBoot : Sys2Proof.Instr → Bool
  | .bundleVerified | .manifestCheck | .dramChannelTrained .. | .discoveryDone | .injectionDone .. | .serviceReady
  | .updateOffsetWrite .. | .updateLengthWrite .. | .updateChunk .. | .updateVerify .. | .provisionalConsent ..
  | .updateActivateNextStart .. | .updateActivateLive .. | .updateCommit .. | .commitTimeout => true
  | _ => false

/-- The other commands that may change a code at an analog pin. -/
def setsAnalogOut : Sys2Proof.Instr → Bool
  | .rwpCommitDone | .vinAbove3v .. | .safeValuesApplied .. | .bundleVerified | .manifestCheck | .discoveryDone
  | .injectionDone .. | .updateActivateLive .. | .pourFlip .. | .injectRerun .. | .domainBlock ..
  | .analogStart .. | .analogStop .. | .readbackWindowEnd .. | .powerStateEntry .. | .islandReset .. | .islandHold ..
  | .islandReturn .. => true
  | _ => false

/-- The other commands that may change what slots holds beside its registers. -/
def setsSlots : Sys2Proof.Instr → Bool
  | .serviceReady | .pourFlip .. | .csiFrameStart .. | .csiEmbeddedLine .. | .csiLongPacket .. | .csiFrameEnd ..
  | .scannerDatagram .. | .imuDrdyEdge .. | .imuReadDone .. | .encoderPeriodEnd .. | .canSensorFrame ..
  | .modelWindowEnd .. | .slotStaleTimeout .. => true
  | _ => false

/-- The other commands that may change what encoders holds beside its registers. -/
def setsEncoders : Sys2Proof.Instr → Bool
  | .encoderTransition .. | .encoderZEdge .. | .encoderPeriodEnd .. => true
  | _ => false

/-- The other commands that may change what fusion holds beside its registers. -/
def setsFusion : Sys2Proof.Instr → Bool
  | .serviceReady | .pourFlip .. | .gridTick | .resampleTickRecord | .poseRecord | .poseWaitExpiry
  | .gridPointItem | .pointWaitExpiry .. | .gridBuildDone .. | .inferenceTrigger .. => true
  | _ => false

/-- The other commands that may change what tensor holds beside its registers. -/
def setsTensor : Sys2Proof.Instr → Bool
  | .linkTransferError .. | .serviceReady | .updateActivateLive .. | .pour .. | .pourStore .. | .pourRecall ..
  | .pourGenerationReserved .. | .pourFlip .. | .gridBuildDone .. | .modelLoad .. | .modelLoadDone ..
  | .deckCopyDone .. | .modelUnload .. | .modelUnloadDone .. | .inferenceTrigger .. | .inferenceDispatch ..
  | .inferenceComplete .. | .canaryComplete .. | .canaryTimeout .. | .canaryRequest .. | .weightScanBlock ..
  | .weightScanOverdue .. | .channelEnable .. | .islandReset .. | .islandHold .. | .quiesceBoundaryEmpty ..
  | .islandReturn .. => true
  | _ => false

/-- The other commands that may change what solver holds beside its registers. -/
def setsSolver : Sys2Proof.Instr → Bool
  | .serviceReady | .pourFlip .. | .structureDescriptorWrite .. | .solverBatchStart | .solverBatchEnd
  | .islandReturn .. => true
  | _ => false

/-- The other commands that may change what network holds beside its registers. -/
def setsNetwork : Sys2Proof.Instr → Bool
  | .serviceReady | .updateActivateLive .. | .pourFlip .. | .rtpPacketReceived .. | .rtpPacketTransmit ..
  | .heartbeatSend | .heartbeatReceived .. | .heartbeatMissingCheck .. | .partnerSilenceTimeout ..
  | .portLinkChange .. | .holdTimeExpiry .. | .duplicateFrameReceived .. | .swapTest .. | .swapVerifyExpiry ..
  | .forceSwitch .. | .virekConnect .. | .virekDisconnect .. | .virekQuiesce .. | .virekRead .. | .virekWrite ..
  | .virekWriteFence .. | .virekFenceAdd .. | .virekAck .. | .virekNak .. | .virekPing ..
  | .virekAckDelayExpiry .. | .virekRtoExpiry .. | .virekStallPing .. | .connectionClose .. | .islandReset ..
  | .islandHold .. | .islandReturn .. => true
  | _ => false

/-- The other commands that may change what audio holds beside its registers. -/
def setsAudio : Sys2Proof.Instr → Bool
  | .synthLock .. | .deferTimeout .. | .serviceReady | .pourFlip .. | .domainBlock .. | .portBlockStamp ..
  | .portEnable .. | .outputStart .. | .outputStop .. | .serialWsSlip .. | .serialRelock ..
  | .serialClockAbsent .. | .portRateMismatch .. | .biphaseFrame .. | .biphaseUnlock .. | .rtpPacketReceived ..
  | .rtpPacketTransmit .. | .aes67Realign .. => true
  | _ => false

/-- The other commands that may change what mix holds beside its registers. -/
def setsMix : Sys2Proof.Instr → Bool
  | .serviceReady | .updateActivateLive .. | .pourFlip .. | .rampEnd .. | .domainBlock .. | .hostAudioBlock ..
  | .toneCadenceTransition .. | .voicePlay .. | .voiceStop .. | .voiceClipEnd .. | .controlItem ..
  | .mixLaneDrop .. | .islandReset .. | .islandHold .. | .islandReturn .. => true
  | _ => false

/-- The other commands that may change what analog holds beside its registers. -/
def setsAnalog : Sys2Proof.Instr → Bool
  | .synthLock .. | .serviceReady | .updateActivateLive .. | .pourFlip .. | .domainBlock .. | .analogStart ..
  | .analogStop .. | .settleTimeExpiry .. | .readbackWindowEnd .. | .beaconFloodEnd .. | .beaconViolation ..
  | .beaconResync .. | .islandReset .. | .islandHold .. | .islandReturn .. => true
  | _ => false

/-- The other commands that may change what virek holds beside its registers. -/
def setsVirek : Sys2Proof.Instr → Bool
  | .keyWrite .. | .updateActivateLive .. | .pourFlip .. | .virekConnect .. | .virekDisconnect ..
  | .virekQuiesce .. | .virekRead .. | .virekWrite .. | .virekWriteFence .. | .virekFenceAdd .. | .virekAck ..
  | .virekNak .. | .virekPing .. | .virekWriteCommitted .. | .virekAckDelayExpiry .. | .virekRtoExpiry ..
  | .virekPeerTimeout .. | .virekCreditStall .. | .virekStallPing .. | .virekQuiesceHoldExpiry ..
  | .connectionClose .. | .windowRevoke .. | .islandReset .. | .islandHold .. | .islandReturn .. => true
  | _ => false

/-- The other commands that may change what pours holds beside its registers. -/
def setsPours : Sys2Proof.Instr → Bool
  | .linkTransferError .. | .updateActivateLive .. | .pour .. | .pourStore .. | .pourRecall ..
  | .pourShadowLoaded .. | .pourGenerationReserved .. | .pourBacklogTimeout .. | .pourCancel .. | .pourFlip ..
  | .rampEnd .. | .pourCommitDone .. | .cupResetDone .. | .mixLaneDrop .. | .islandReset .. | .islandHold ..
  | .quiesceBoundaryEmpty .. | .islandReturn .. => true
  | _ => false

/-- The other commands that may change what power holds beside its registers. -/
def setsPower : Sys2Proof.Instr → Bool
  | .linkTransferError .. | .injectionDone .. | .serviceReady | .updateActivateLive .. | .pourFlip ..
  | .fallbackEvaluate | .lockstepMismatch .. | .cupResetDone .. | .channelEnable .. | .fieldSetWrite ..
  | .safeFeedbackEdge .. | .feedbackDelayExpiry .. | .safeReset .. | .injectRerun .. | .powerStateEntry ..
  | .demandWake .. | .earlyWake | .powerStateExitDone | .wakeToleranceWrite .. | .powerCapWindow ..
  | .thermalTripCooled .. | .islandReset .. | .islandHold .. | .quiesceBoundaryEmpty .. | .islandReturn .. => true
  | _ => false

/-- A command may change a part. -/
def Part.reachedBy (p : Part) (i : Instr) : Bool :=
  farReaching i || match p with
  | .dram => setsDram i
  | .timeline => setsTimeline i
  | .servo => setsServo i
  | .fences => setsFences i
  | .waits => setsWaits i
  | .banks => setsBanks i
  | .flash => setsFlash i
  | .boot => setsBoot i
  | .analogOut => setsAnalogOut i
  | .slots => setsSlots i
  | .encoders => setsEncoders i
  | .fusion => setsFusion i
  | .tensor => setsTensor i
  | .solver => setsSolver i
  | .network => setsNetwork i
  | .audio => setsAudio i
  | .mix => setsMix i
  | .analog => setsAnalog i
  | .virek => setsVirek i
  | .pours => setsPours i
  | .power => setsPower i

/-- The commands that are a slot's, a feed's or a structure's boundary: the pours due there flip first, and the command does its
own under the new values (06_pours R146). -/
def flipsFirst : Sys2Proof.Instr → Bool
  | .csiFrameStart .. | .scannerDatagram .. | .imuDrdyEdge .. | .encoderTransition .. | .encoderPeriodEnd .. | .canSensorFrame ..
  | .inferenceTrigger .. | .inferenceDispatch .. | .solverBatchStart .. => true
  | _ => false

/-- A command may change a part of a device: by what it does itself, or by a flip of the pours held that comes first. -/
def Dev.mayReach (d : Dev) (i : Instr) (p : Part) : Bool :=
  p.reachedBy i || (flipsFirst i && !d.pours.live.isEmpty && p.reachedBy (.pourFlip 0 none))

/-- A fence operation, or the tick that tests the fence deadlines. -/
inductive FenceCommand : Sys2Proof.Instr → Prop
  | signal (src : FenceSrc) (v : Bytes) : FenceCommand (.fenceSignal src v)
  | add (src : FenceSrc) (v : Bytes) : FenceCommand (.fenceAdd src v)
  | reset (src : FenceSrc) : FenceCommand (.fenceReset src)
  | deadline (src : FenceSrc) (which : Fin 3) (v : Bytes) : FenceCommand (.fenceSetDeadline src which v)
  | tick : FenceCommand .fenceDeadlineTick

end Sys2Proof.Machine
end

