-- ==== Sys2Proof/Certificates/Slice0/Obligations.lean ====
section
/-! DEFINITION. The statements for the provers: rules of the whole block first, then what each family's commands do. -/

open Sys2Proof Sys2Proof.Machine

/-- One step takes the command at the front of the queue and runs it with the queue's rest; on an empty queue the timeline
ticks (log 1). -/
def Obligations.StepRunsFrontCommand : Prop :=
  (∀ (s : State) (c : Instr) (rest : List Instr), s.pending = c :: rest → step s = exec c { s with pending := rest })
  ∧ (∀ s : State, s.pending = [] → ∃ t, step s = .next t ∧ t.pending = [] ∧ (s.dev.tl.running = false → t.dev.tl = s.dev.tl))

/-- R35: the tick of a running timeline carries from its integer part into the era, and E is both together. That a
step on an empty queue is a tick is the model's choice (log 1). -/
def Obligations.TickCarriesIntoEra : Prop :=
  ∀ (s : State) (whole : Nat), s.pending = [] → s.dev.tl.running = true → s.dev.tl.now < 281474976710656 →
    whole = (s.dev.tl.now * 4294967296 + s.dev.tl.frac + s.dev.tl.inc) / 4294967296 → whole < 2 * 281474976710656 →
    ∃ t, step s = .next t
      ∧ (whole < 281474976710656 → t.dev.tl.now = whole ∧ t.dev.tl.era = s.dev.tl.era)
      ∧ (281474976710656 ≤ whole → t.dev.tl.now = whole - 281474976710656 ∧ t.dev.tl.era = (s.dev.tl.era + 1) % 65536)
      ∧ t.dev.ext = t.dev.tl.era * 281474976710656 + t.dev.tl.now

/-- R400: every command answers a next state, but a supply voltage above its absolute maximum. -/
def Obligations.OnlyOvervoltageStops : Prop :=
  ∀ (i : Instr) (s : State),
    (∃ t, exec i s = .next t ∧ t.pending = s.pending)
    ∨ (exec i s = .fault .absoluteMaximum ∧ ∃ mv, 20000 < mv ∧ (i = .vinAbove3v mv ∨ i = .vinValid mv))

/-- What a command is not given to reach, by itself or by the flips that come first, it leaves as it was. -/
def Obligations.CommandsLeavePartsAlone : Prop :=
  ∀ (i : Instr) (s t : State) (p : Part), exec i s = .next t → s.dev.mayReach i p = false → p.same s.dev t.dev

/-- Bytes of DRAM outside those a fence command or a ring of a PCIe host stores to are as they were. -/
def Obligations.StoresStayInside : Prop :=
  (∀ (i : Instr) (s t : State) (a : Nat), FenceCommand i → exec i s = .next t → (∀ w ∈ s.dev.waits, ¬ s.dev.Mirrors w a) →
    memByte t.dev.mem a = memByte s.dev.mem a)
  ∧ (∀ (q : Fin 4096) (p : Nat) (s t : State) (record payload dma : Found) (a : Nat), s.dev.ringOwner q 1 = some p →
    s.dev.nat (Ob.partAttachKind p) = 0 → exec (.deliverySlotWrite q record payload dma) s = .next t →
    memByte t.dev.mem a = memByte s.dev.mem a)
  ∧ (∀ (q : Fin 4096) (p : Nat) (s t : State) (slot : Bytes) (dram : Found) (a : Nat), s.dev.ringOwner q 2 = some p →
    s.dev.nat (Ob.partAttachKind p) = 0 → exec (.submissionFetch q slot dram) s = .next t →
    memByte t.dev.mem a = memByte s.dev.mem a)

/-- An invariant: every step keeps the registers and the DRAM in their canonical forms. -/
def Obligations.StepKeepsCanonicalForms : Prop :=
  ∀ s t : State, step s = .next t →
    (Regs.wf s.dev.regs = true → Regs.wf t.dev.regs = true) ∧ (Memory.wf s.dev.mem = true → Memory.wf t.dev.mem = true)

/-- The registers and the DRAM are canonical at reset. -/
def Obligations.ResetCanonical : Prop :=
  Regs.wf State.reset.dev.regs = true ∧ Memory.wf State.reset.dev.mem = true ∧ State.reset.pending = []
    ∧ State.reset.dev.nat Ob.bootPhase = 0

/-- R55: no object of the timeline takes part in a pour, and a pour or a recall that names one is refused whole. -/
def Obligations.TimelineObjectsTakeNoPour : Prop :=
  (∀ (idx sub : Nat) (r : ObjRow), 0x2000 ≤ idx → idx ≤ 0x20FF → objRow idx sub = some r → r.mark = .no)
  ∧ (∀ (s : State) (hd : Hdr) (payload : Bytes) (e : Dev) (se : Session) (l : List RawEntry) (x : RawEntry),
    PourArrives s.dev hd payload e se l → 0x2000 ≤ x.idx → x.idx ≤ 0x20FF →
    ((pourHead payload).recall = false → (pourHead payload).store = false → x ∈ l →
      Runs (.pour hd payload) s fun d => d.pours = s.dev.pours)
    ∧ ((pourHead payload).recall = true →
      x ∈ (rawEntries (e.nat (Ob.sceneEntries (pourHead payload).scene)) (e.blob (Ob.sceneContent (pourHead payload).scene))).getD [] →
      Runs (.pourRecall hd payload) s fun d => d.pours = s.dev.pours))

/-- R308: a queue that is disabled gives up what it holds, and drops what is sent to it. -/
def Obligations.DisabledQueueHoldsNothing : Prop :=
  SetRuns .queueDisable queueEnableConds 0x5002 2 [0] (fun d se _ d' =>
    let q := d.selQueue se.id
    d.qreg Ob.qEnable q ≠ 0 →
      (d'.q q).items = [] ∧ d'.reg (inst Ob.qDepth q) = 0 ∧ d'.reg (inst Ob.qEnable q) = 0
        ∧ ((d.q q).items ≠ [] → d'.reg (inst Ob.qDropped q)
          = wrapTy (keyTy (inst Ob.qDropped q)) (d.reg (inst Ob.qDropped q) + (d.q q).items.length))
        ∧ (d.isSpill q = true → d'.reg Ob.spillAreaFree = (d.nat Ob.spillAreaFree + d.spillBytes q : Nat)))
  ∧ (∀ (s : State) (q : Fin 4096) (it : Item) (found : Found) (e : Dev), s.dev.quiesced Isl.qmg = false →
    s.dev.qreg Ob.qEnable q = 0 →
    e = s.dev.handover (if it.payKind = 1 then 8 else s.dev.recordPoint q) 15 it.srcKind it.srcNum found →
    (e.slotPolicy (it.flag found.outcome)).1.isSome = true →
    Runs (.itemEnqueue q it found) s fun d => (d.q q).items = (e.q q).items
      ∧ d.reg (inst Ob.qDropped q) = wrapTy (keyTy (inst Ob.qDropped q)) (e.reg (inst Ob.qDropped q) + 1))

/-- R354: the check-of-check is the CRC-8 of the four bytes of a carry check, least significant first, here worked bit by
bit on an 8-bit register. -/
def Obligations.CheckOfCheckIsCrc8 : Prop :=
  let shift (r : BitVec 8) : BitVec 8 := if r.msb then (r <<< 1) ^^^ 0x2F#8 else r <<< 1
  let byte (r b : BitVec 8) : BitVec 8 := shift (shift (shift (shift (shift (shift (shift (shift (r ^^^ b))))))))
  (∀ crc : Nat, checkOfCheck crc = (([crc, crc / 256, crc / 65536, crc / 16777216].map (BitVec.ofNat 8)).foldl byte 0xFF#8 ^^^ 0xFF#8).toNat)
  ∧ (∀ bs : Bytes, bs.foldl (crc8Byte 0x2F) 0xFF ^^^ 0xFF = (bs.foldl byte 0xFF#8 ^^^ 0xFF#8).toNat)
  ∧ ([0x31, 0x32, 0x33, 0x34, 0x35, 0x36, 0x37, 0x38, 0x39] : Bytes).foldl (crc8Byte 0x2F) 0xFF ^^^ 0xFF = 0xDF

/-- R227, an invariant: every step keeps the SAFE pair lawful. -/
def Obligations.StepKeepsPairLawful : Prop :=
  ∀ s t : State, s.dev.PairLawful → step s = .next t → t.dev.PairLawful

/-- The SAFE pair is lawful at reset. -/
def Obligations.ResetPairLawful : Prop := State.reset.dev.PairLawful

/-- R29, R31, R35, R37, R38: what the timeline's own commands leave. -/
def Obligations.TimelineCommandsRun : Prop :=
  (∀ (s : State) (wrong : List (Nat × Int)), s.dev.tl.running = true → 65536 ≤ s.dev.tl.ticks →
    Runs (.stampReplicaReload wrong) s fun d =>
      d.tl = { s.dev.tl with ticks := 0, skew := wrong.foldl (fun l e => kvPut l e.1 e.2) [] }
      ∧ ∀ i e, (s.dev.tl.skew.filter fun e => decide (e.2 ≠ 0)) = [(i, e)] →
        d.log.ring.head? = some (s.dev.entryOf { code := 0x1007, island := Isl.tmg, d1 := i }))
  ∧ (∀ s : State, s.dev.tl.running = true → 281474976710656 ≤ s.dev.nextCount / 4294967296 → s.dev.tl.slewRem = 0 →
    Runs .eraWrap s fun d => d.tl = { s.dev.tl with
      now := s.dev.nextCount / 4294967296 % 281474976710656, frac := s.dev.nextCount % 4294967296,
      ticks := s.dev.tl.ticks + 1, era := (s.dev.tl.era + 1) % 65536 })
  ∧ (∀ s : State, s.dev.tl.running = true → s.dev.nextCount / 4294967296 < 281474976710656 →
    Runs .eraWrap s fun d => d.tl = s.dev.tl)
  ∧ (∀ s : State, s.dev.tl.running = true → s.dev.tl.slewRem ≠ 0 → slewAfter s.dev.tl.slewRem s.dev.tl.inc = 0 →
    Runs .slewAbsorbed s fun d => d.tl.inc = s.dev.clampInc s.dev.tl.base ∧ d.tl.slewRem = 0
      ∧ d.tl.now = s.dev.nextCount / 4294967296 % 281474976710656 ∧ d.tl.frac = s.dev.nextCount % 4294967296)
  ∧ (∀ s : State, slewAfter s.dev.tl.slewRem s.dev.tl.inc ≠ 0 → Runs .slewAbsorbed s fun d => d.tl = s.dev.tl)
  ∧ (∀ v, SetRuns (fun hd cond => .slewBoundWrite hd cond v) {} 0x2001 1 v fun d _ n d' =>
    d'.reg Ob.slewBound = n ∧ d'.tl.inc = (
      let edge := nominalInc * n.toNat / 1000000
      if 0 < d.tl.slewRem then nominalInc + edge
      else if d.tl.slewRem < 0 then nominalInc - edge
      else Nat.max (nominalInc - edge) (Nat.min d.tl.inc (nominalInc + edge))))
  ∧ (∀ v, SetRuns (fun hd cond => .manualSlew hd cond v)
      { state := fun d _ _ => needState (d.sv = Sv.free || d.sv = Sv.listen) } 0x2001 2 v fun d _ n d' => n ≠ 0 →
    d'.tl.slewRem = n * 4294967296
      ∧ d'.tl.inc = if 0 < n then nominalInc + d.slewEdge else nominalInc - d.slewEdge)

/-- R39, R43, R44, R47: writes of the PTP client and grandmaster objects. -/
def Obligations.PtpWritesRun : Prop :=
  (∀ v, SetRuns (fun hd cond => .ptpSourceWrite hd cond v)
      { state := fun d _ n => needState (!(decide (n = 1 ∨ n = 2) && decide (n = d.reg Ob.gmPort))) } 0x2010 1 v fun d _ n d' =>
    (n = 0 → d'.reg Ob.ptpSource = 0 ∧ d'.reg Ob.servoState = 0 ∧ d'.reg Ob.activePort = 0)
    ∧ (n ≠ 0 → d.reg Ob.servoState = 0 → d'.reg Ob.ptpSource = n ∧ d'.reg Ob.servoState = 1))
  ∧ SetRuns (fun hd cond => .guardResponseAccept hd cond)
      { state := fun d _ _ => needState (d.sv = Sv.refused) } 0x2012 1 [1] (fun d _ _ d' =>
    d'.reg Ob.publishedOffset = d.reg Ob.publishedOffset + d.reg Ob.refusedOffset ∧ d'.reg Ob.servoState = 2)
  ∧ SetRuns (fun hd cond => .guardResponseSlew hd cond)
      { state := fun d _ _ => needState (d.sv = Sv.refused) } 0x2012 1 [2] (fun d _ _ d' =>
    d'.reg Ob.publishedOffset = d.reg Ob.publishedOffset ∧ d'.reg Ob.servoState = 2 ∧ d'.servo.suspended = true
      ∧ nominalInc - d.slewEdge ≤ d'.tl.inc ∧ d'.tl.inc ≤ nominalInc + d.slewEdge
      ∧ (d.reg Ob.lockWindow < (d.reg Ob.refusedOffset).natAbs →
        (0 < d.reg Ob.refusedOffset → nominalInc ≤ d'.tl.inc) ∧ (d.reg Ob.refusedOffset < 0 → d'.tl.inc ≤ nominalInc)))
  ∧ (∀ v, SetRuns (fun hd cond => .gmPortWrite hd cond v)
      { state := fun d _ n => needState (!(decide (n ≠ 0) && decide (d.reg Ob.ptpSource ≠ 0)
        && decide (n = d.reg Ob.activePort))) } 0x2018 1 v fun _ _ n d' => d'.reg Ob.gmPort = n)

/-- R39, R40, R42, R47: what the PTP client and grandmaster do with frames and instants. -/
def Obligations.PtpEventsRun : Prop :=
  (∀ (s : State) (port : Fin 2) (source domain : Nat) (logInterval t1 : Int),
    s.dev.onClient port domain = true → s.dev.servo.master = some source → -7 ≤ logInterval → logInterval ≤ 1 →
    Runs (.ptpSyncReceived port source domain logInterval t1) s fun d =>
      d.servo.lastSync = some (t1, s.dev.netTime))
  ∧ (∀ (s : State) (port : Fin 2) (domain : Nat) (m : Master), s.dev.reg Ob.ptpSource ≠ 0 → s.dev.nat Ob.ptpDomain = domain →
    -3 ≤ m.logAnnounce → m.logAnnounce ≤ 4 → (s.dev.reg Ob.ptpProfile = 2 → Config.clockIdentity ∉ m.path) →
    Runs (.ptpAnnounceReceived port domain m) s fun d =>
      (d.ptpPort port).goodSince = some ((s.dev.ptpPort port).goodSince.getD s.dev.ext))
  ∧ (∀ (s : State) (port : Fin 2), s.dev.reg Ob.ptpSource ≠ 0 → (∀ m ∈ s.dev.awaited port, s.dev.silent m = true) →
    Runs (.announceTimeout port) s fun d => (d.ptpPort port).goodSince = none
      ∧ ∀ m ∈ (d.ptpPort port).masters, s.dev.silent m = false)
  ∧ (∀ s : State, s.dev.servo.master.isSome = true →
    s.dev.nat Ob.syncLossCount * logNs s.dev.servo.syncLog ≤ s.dev.ago s.dev.servo.syncAt →
    Runs .syncLoss s fun d => d.servo.master = none
      ∧ (s.dev.sv = Sv.slew ∨ s.dev.sv = Sv.track ∨ s.dev.sv = Sv.refused → d.sv = Sv.hold))
  ∧ (∀ (s : State) (t : Nat), s.dev.reg Ob.ptpSource = 3 → s.dev.reg Ob.activePort = 2 → s.dev.reg Ob.autoRevertTime ≠ 0 →
    s.dev.reg Ob.gmPort ≠ 1 → s.dev.portUp 0 = true → s.dev.servo.portA.goodSince = some t →
    s.dev.nat Ob.autoRevertTime * 1000000000 ≤ s.dev.ago t →
    Runs .autoRevert s fun d => d.reg Ob.activePort = 1)
  ∧ (∀ s : State, s.dev.reg Ob.gmPort ≠ 0 → s.dev.portUp (s.dev.nat Ob.gmPort - 1) = true → s.dev.ready = true →
    Runs .gmSyncTransmit s (fun d => d.servo.gmSyncSeq = (s.dev.servo.gmSyncSeq + 1) % 65536)
    ∧ Runs .gmAnnounceTransmit s fun d => d.servo.gmAnnounceSeq = (s.dev.servo.gmAnnounceSeq + 1) % 65536)
  ∧ (∀ (s : State) (port : Fin 2) (domain seq : Nat) (turn : Int × Int) (t4 t3 t1 t2 : Int), s.dev.onClient port domain = true →
    -7 ≤ turn.2 → turn.2 ≤ 4 →
    (s.dev.ptpPort port).delayReqSeq = (seq + 1) % 65536 → (s.dev.ptpPort port).delayReqAt = some t3 →
    s.dev.servo.lastSync = some (t1, t2) → s.dev.reg Ob.ptpProfile = 0 →
    Runs (.ptpDelayRespReceived port domain seq t4 turn) s fun d =>
      d.reg Ob.meanPathDelay = clampInt 0 4294967295 (((t2 - t1) + (t4 - t3)) / 2))
  ∧ (∀ (s : State) (port : Fin 2) (domain seq requester : Nat) (peer : Bool), s.dev.nat Ob.gmPort = (port : Nat) + 1 →
    s.dev.nat Ob.gmDomain = domain → s.dev.ready = true → s.dev.portUp port = true → s.dev.synBusy (port + 5) = false →
    Runs (.ptpDelayReqReceived port domain seq requester peer) s fun d =>
      .frame port (if peer then .ptpPdelayResp else .ptpDelayResp) (s.dev.addressed [domain, seq, requester, s.dev.netTime]) []
        false ∈ d.out)

/-- R48, R50, R51: fence operations through BAR0. -/
def Obligations.FenceBarCommandsRun : Prop :=
  ∀ (s : State) (fn p f : Nat) (v : Bytes), BarFenceMay s.dev fn p f →
    Runs (.fenceSignal (.bar0 fn f) v) s (fun d =>
      d.fence f = { s.dev.fence f with value := Nat.max (s.dev.fence f).value (leNat v) })
    ∧ Runs (.fenceAdd (.bar0 fn f) v) s (fun d =>
      d.fence f = { s.dev.fence f with value := Nat.min ((s.dev.fence f).value + leNat v) 18446744073709551615 })
    ∧ Runs (.fenceReset (.bar0 fn f)) s (fun d =>
      d.fence f = { s.dev.fence f with value := 0, enabled := false } ∧ ∀ w ∈ d.waits, w.fence ≠ f)
    ∧ Runs (.fenceSetDeadline (.bar0 fn f) 2 v) s (fun d =>
      d.fence f = { s.dev.fence f with deadline := leNat v % 281474976710656, enabled := bit (leNat v) 63 })
    ∧ (∀ h, s.dev.deliveryOk p (leAt v 8 8 % 4) (leAt v 8 8 / 65536) = true → s.dev.waits.length < 16384 →
      s.dev.freeSlot = some h →
      (s.dev.fence f).value < leAt v 0 8 → (s.dev.fence f).deadlineMet s.dev.now = false →
      Runs (.waitArm (.bar0 fn f) v) s fun d =>
        { handle := h, fence := f, target := leAt v 0 8, delivery := leAt v 8 8 % 4, dest := leAt v 8 8 / 65536, part := p }
          ∈ d.waits ∧ kvGet d.barHandle fn = some h)

/-- R48, R49, R51, R52: fence operations and waits through the dictionary, on the fence the session has selected. -/
def Obligations.FenceDictionaryCommandsRun : Prop :=
  (∀ v, SetRuns (fun hd cond => .fenceSignal (.dict hd cond) v) fenceConds 0x2040 3 v fun d se n d' =>
    d'.fence (d.selFence se.id) = { d.fence (d.selFence se.id) with value := Nat.max (d.fence (d.selFence se.id)).value n.toNat })
  ∧ (∀ v, SetRuns (fun hd cond => .fenceAdd (.dict hd cond) v) fenceConds 0x2040 4 v fun d se n d' =>
    d'.fence (d.selFence se.id) = { d.fence (d.selFence se.id) with
      value := Nat.min ((d.fence (d.selFence se.id)).value + n.toNat) 18446744073709551615 })
  ∧ SetRuns (fun hd cond => .fenceReset (.dict hd cond)) fenceConds 0x2040 7 [1] (fun d se _ d' =>
    d'.fence (d.selFence se.id) = { d.fence (d.selFence se.id) with value := 0, enabled := false })
  ∧ (∀ v, SetRuns (fun hd cond => .fenceSetDeadline (.dict hd cond) 0 v) fenceConds 0x2040 5 v fun d se n d' =>
    d'.fence (d.selFence se.id) = { d.fence (d.selFence se.id) with deadline := n.toNat % 281474976710656 })
  ∧ (∀ v, SetRuns (fun hd cond => .fenceSelectWrite hd cond false v)
      { fence := fun _ _ => if v.length = 4 ∧ leNat v < 131072 then some (leNat v) else none } 0x2040 1 v
      fun _ se n d' => d'.reg (inst Ob.fenceSelect se.id) = n)
  ∧ (∀ v, SetRuns (fun hd cond => .waitCancel hd cond v)
      { state := fun d se n => match d.waits.find? fun w => (w.handle : Int) == n with
        | none => some { status := Sc.stateRefused }
        | some w => if w.part = se.part || d.isInt se.part then none else some { status := Sc.notOwner, detail := w.part } }
      0x2041 7 v fun d _ n d' => d'.waits = d.waits.filter fun w => (w.handle : Int) != n)
  ∧ (∀ (s : State) (f : Nat), s.dev.quiesced Isl.tmg = false → s.dev.tl.running = true → s.dev.tl.usDone ≤ s.dev.ext / 1000 →
    s.dev.dueFences = [f] →
    Runs .fenceDeadlineTick s fun d => d.fences = s.dev.fences ∧ d.tl.usDone = s.dev.ext / 1000 + 1
      ∧ ∀ w ∈ d.waits, w.fence = f → (s.dev.fence f).valueMet w = false ∧ (s.dev.fence f).deadlineMet s.dev.now = false)

/-- R57, R58, R64, R80-R83: the crystal, root lock and the synthesisers. -/
def Obligations.ClockCommandsRun : Prop :=
  (∀ s : State, s.dev.nat Ob.bootPhase ≠ 0 →
    Runs .xtalStable s fun d => d.reg Ob.xtalState = 1 ∧ s.dev.KeepsRegs d [Ob.xtalState])
  ∧ (∀ s : State, s.dev.reg Ob.xtalState = 1 → s.dev.tl.running = false → s.dev.nat Ob.bootPhase = 2 →
    Runs .rootLock s fun d => d.tl = { running := true } ∧ d.reg Ob.rootLocked = 1 ∧ d.reg Ob.bootPhase = 3
      ∧ d.reg Ob.selectorState = 0 ∧ d.reg Ob.selectedRef = 0 ∧ d.reg (Ob.synthState 0) = 1 ∧ d.reg (Ob.synthState 3) = 1
      ∧ ∀ n, n < 25 → d.reg (Ob.islandClockStatus n) = 0)
  ∧ (∀ s : State, s.dev.reg Ob.xtalState = 1 →
    Runs .crystalLoss s fun d => d.tl = {} ∧ d.reg Ob.bootPhase = 1 ∧ d.reg Ob.bootCause = 3
      ∧ d.pins.safeA = false ∧ d.pins.safeB = false
      ∧ ∀ ch, ch < 12 → d.analogCode ch = if s.dev.flag Ob.safeRecordValid then s.dev.flashVal (safeKey ch) else 0)
  ∧ (∀ (s : State) (syn : Fin 6), s.dev.reg (Ob.synthState syn) = 1 ∨ s.dev.reg (Ob.synthState syn) = 3 →
    Runs (.synthLock syn) s fun d => d.reg (Ob.synthState syn) = 2 ∧ ∀ h ∈ d.tu.held, h.syn ≠ (syn : Nat) + 1)
  ∧ (∀ (s : State) (syn : Fin 6), s.dev.reg (Ob.synthState syn) = 2 →
    Runs (.synthLockLost syn) s fun d => d.reg (Ob.synthState syn) = 1 ∧ s.dev.KeepsRegs d [Ob.synthState syn])
  ∧ (∀ (s : State) (i : Nat) (h : Held), s.dev.tu.held[i]? = some h →
    s.dev.nat Ob.deferTimeout * 1000000 ≤ s.dev.ago h.at_ →
    Runs (.deferTimeout i) s fun d => d.tu.held = s.dev.tu.held.eraseIdx i
      ∧ d.reg Ob.deferTimeoutCount = wrapTy (keyTy Ob.deferTimeoutCount) (s.dev.reg Ob.deferTimeoutCount + 1)
      ∧ (∀ p, h.cmd = .pulse p → d.reg (Ob.pulseStatus p) = 3))

/-- R65: the states of a reference (03_timing_unit Table 3). -/
def Obligations.ReferenceCommandsRun : Prop :=
  ∀ code : Fin 6,
    (∀ v, SetRuns (fun hd cond => .refEnableWrite hd cond code v) {} (0x2112 + code) 1 v fun d _ n d' =>
      d'.reg (Ob.refEnable code) = n
        ∧ ((code : Nat) ≠ 0 → n = 0 → d'.reg (Ob.refState code) = 0)
        ∧ ((code : Nat) ≠ 0 → n ≠ 0 → d.reg (Ob.refState code) = 0 → d'.reg (Ob.refState code) = 1)
        ∧ ((code : Nat) ≠ 0 → n ≠ 0 → d.reg (Ob.refState code) ≠ 0 → d'.reg (Ob.refState code) = d.reg (Ob.refState code)))
    ∧ (∀ (s : State) (offset : Int), (code : Nat) ≠ 0 → s.dev.reg (Ob.refState code) = 1 → s.dev.refActive code = true →
      offset.natAbs ≤ s.dev.nat (Ob.refAcceptWindow code) * 1000 →
      Runs (.refActivityPresent code offset) s fun d => d.reg (Ob.refState code) = 2 ∧ d.reg (Ob.refMeasuredOffset code) = offset
        ∧ s.dev.KeepsRegs d [Ob.refState code, Ob.refMeasuredOffset code])
    ∧ (∀ s : State, (code : Nat) ≠ 0 → s.dev.reg (Ob.refState code) = 2 → s.dev.refActive code = true →
      (s.dev.refRt code).outSince = none →
      s.dev.nat (Ob.refQualifyTime code) * 1000000000 ≤ s.dev.ago (s.dev.refRt code).goodSince →
      Runs (.refQualifyTimeout code) s fun d => d.reg (Ob.refState code) = 3)
    ∧ (∀ s : State, (code : Nat) ≠ 0 → s.dev.reg (Ob.refState code) = 2 ∨ s.dev.reg (Ob.refState code) = 3 →
      s.dev.refLost code = true →
      Runs (.refActivityLost code) s fun d => d.reg (Ob.refState code) = 1)

/-- R66-R69, R72, R73: the selector and the loop (03_timing_unit Table 5). -/
def Obligations.SelectorCommandsRun : Prop :=
  (∀ (entry : Fin 6) (v : Bytes), SetRuns (fun hd cond => .priorityEntryWrite hd cond entry v)
      { state := fun d _ n => needState (d.entryUnique entry n) } 0x2111 (entry + 1) v fun _ _ n d' =>
    d'.reg (Ob.priorityEntry entry) = n)
  ∧ (∀ (s : State) (code : Fin 6), 
    s.dev.reg Ob.selectorState = 1 ∨ s.dev.reg Ob.selectorState = 2 → s.dev.nat Ob.selectedRef ∈ s.dev.listed.1 →
    s.dev.higher = some (code : Nat) →
    Runs (.waitToRestoreExpiry code) s fun d => d.reg Ob.selectorState = 1 ∧ d.reg Ob.selectedRef = (code : Nat))
  ∧ (∀ s : State, s.dev.reg Ob.selectorState = 1 → s.dev.phaseHeld = true → 0 ≤ s.dev.reg Ob.selectedRef →
    Runs .dpllLock s fun d => d.reg Ob.selectorState = 2 ∧ d.reg Ob.selectedRef = s.dev.reg Ob.selectedRef
      ∧ s.dev.KeepsRegs d [Ob.selectorState, Ob.selectedRef])
  ∧ (∀ (s : State) (code : Fin 6) (error : Int), s.dev.nat Ob.phaseRef = code →
    Runs (.refPhaseComparison code error) s fun d => d.reg Ob.phaseError = wrapTy .i64 error
      ∧ d.reg Ob.phaseStamp = (s.dev.now : Nat)
      ∧ s.dev.KeepsRegs d [Ob.phaseError, Ob.phaseStamp, Ob.phaseSeq, Ob.rootFreqOffset])
  ∧ SetRuns (fun hd cond => .loopModeOpen hd cond) {} 0x2120 1 [1] (fun d _ _ d' =>
    d'.reg Ob.loopMode = 1 ∧ d'.reg Ob.selectorState = 4
      ∧ (d.reg Ob.selectorState ≠ 4 → d'.reg Ob.rootFreqOffset = d.corrNow ∧ d'.tu.corrTo = clampInt (-100000) 100000 d.corrNow))
  ∧ SetRuns (fun hd cond => .loopModeClose hd cond) {} 0x2120 1 [0] (fun d _ _ d' =>
    d'.reg Ob.loopMode = 0
      ∧ (d.reg Ob.selectorState = 4 → ∀ c, d.resumed = some c → d'.reg Ob.selectorState = 1 ∧ d'.reg Ob.selectedRef = (c : Nat))
      ∧ (d.reg Ob.selectorState = 4 → d.resumed = none →
        d'.reg Ob.selectorState = if d.listed.2 then 0 else 3))
  ∧ (∀ v, SetRuns (fun hd cond => .freqOffsetWordWrite hd cond v) offsetWordConds 0x2120 2 v fun _ _ n d' =>
    d'.reg Ob.freqOffsetWord = n ∧ d'.tu.corrTo = clampInt (-100000) 100000 (n * 1000 / 65536))

/-- R74-R78: PPS_IN and the pulse outputs. -/
def Obligations.PulseCommandsRun : Prop :=
  (∀ (s : State) (rising : Bool), s.dev.tl.running = true → rising = (s.dev.reg Ob.ppsInPolarity == 0) →
    Runs (.ppsInEdge rising) s fun d =>
      (s.dev.tu.pps = none → d.tu.pps = some s.dev.ext ∧ d.reg Ob.ppsInLastEdge = (s.dev.ext % span48 : Nat)
        ∧ d.reg Ob.ppsInInterval = 1000000000)
      ∧ (∀ p, s.dev.tu.pps = some p → 999000000 ≤ s.dev.ext - p → s.dev.ext - p ≤ 1001000000 →
        d.tu.pps = some s.dev.ext ∧ d.reg Ob.ppsInInterval = (s.dev.ext - p : Nat))
      ∧ (∀ p, s.dev.tu.pps = some p → s.dev.ext - p < 999000000 ∨ 1001000000 < s.dev.ext - p ∧ s.dev.ext - p ≤ 1500000000 →
        d.tu.pps = some p ∧ d.reg Ob.ppsInRejected = wrapTy (keyTy Ob.ppsInRejected) (s.dev.reg Ob.ppsInRejected + 1)))
  ∧ ∀ out : Fin 13,
    (∀ (field : Fin 6) (v : Bytes), SetRuns (fun hd cond => .pulseConfigWrite hd cond out field v) (pulseConds out field)
        (0x2130 + out) (field + 1) v fun d _ n d' => d'.reg (Ob.pulseBase out + field) = n
      ∧ d.KeepsRegs d' [Ob.pulseBase out + field])
    ∧ SetRuns (fun hd cond => .pulseStart hd cond out) (pulseStartConds out) (0x2130 + out) 8 [1] (fun d _ _ d' =>
      d'.reg (Ob.pulseActualStart out) = 0
        ∧ if d.synBusy 1 then d'.reg (Ob.pulseStatus out) = 1 ∧ d'.isHeld (.pulse out) = true
          else d'.reg (Ob.pulseStatus out) = 2 ∧ (d'.train out).isSome = true)
    ∧ SetRuns (fun hd cond => .pulseStop hd cond out) {} (0x2130 + out) 9 [1] (fun d _ _ d' =>
      if d.isHeld (.pulse out) then d'.reg (Ob.pulseStatus out) = 4 ∧ d'.isHeld (.pulse out) = false
      else ∀ t, d.train out = some t →
        if t.active then d'.train out = some { t with stopping := true }
        else d'.train out = none ∧ d'.reg (Ob.pulseStatus out) = 0)
    ∧ (∀ (s : State) (t x : Train) (e ahead : Int), s.dev.train out = some t → t.stopping = false →
      s.dev.coming out t = some x → e = s.dev.edgeAt out x →
      ahead = (s.dev.nextAnchor out x.anchor).1 + s.dev.reg (Ob.pulseOffset out) → s.dev.flipAhead out (min e ahead) = false →
      s.dev.reg (Ob.synthState 0) = 2 →
      (e ≤ s.dev.ext → s.dev.reg (Ob.pulseBase out) = 0 ∨ e < ahead →
        Runs (.pulseEdgeDue out) s fun d => .pulse out (s.dev.activeLevel out) s.dev.now ∈ d.out
          ∧ (x.left = none → d.train out = some { x with
            k := x.k + 1, emitted := x.emitted + 1, active := true, since := s.dev.fine, last := some s.dev.ext })
          ∧ (∀ n, x.left = some n → n ≤ 1 → d.reg (Ob.pulseStatus out) = 5))
      ∧ (s.dev.reg (Ob.pulseBase out) = 1 → ahead ≤ e → ahead ≤ s.dev.ext →
        Runs (.pulseEdgeDue out) s fun d => .pulse out (s.dev.activeLevel out) s.dev.now ∈ d.out
          ∧ d.reg (Ob.pulseEdgesDropped out) = wrapTy (keyTy (Ob.pulseEdgesDropped out))
            (s.dev.reg (Ob.pulseEdgesDropped out) + (s.dev.nat (Ob.pulseRate out) - x.k : Nat))))
    ∧ (∀ (s : State) (t : Train), s.dev.train out = some t → t.active = true → s.dev.widthOver out t = true →
      Runs (.pulseWidthEnd out) s fun d => .pulse out (!s.dev.activeLevel out) s.dev.now ∈ d.out
        ∧ d.train out = if t.stopping then none else some { t with active := false })

/-- R36, R72, R90, R100, R104, R105: reads and NOTIFY. -/
def Obligations.ReadCommandsRun : Prop :=
  ReadRuns (fun hd => .timelineNowRead hd) Op.read (readPayload 0x2000 1) 0x2000 1 (fun e se _ d' =>
    kvGet d'.latches se.id = some (e.tl.frac, e.tl.era))
  ∧ ReadRuns (fun hd => .phaseErrorRead hd) Op.read (readPayload 0x2120 4) 0x2120 4 (fun e se _ d' =>
    kvGet d'.phaseLatches se.id = some (e.nat Ob.phaseStamp, e.nat Ob.phaseSeq))
  ∧ (∀ idx sub, ReadRuns (fun hd => .read hd idx sub) Op.read (readPayload idx sub) idx sub fun e se r d' =>
    readTooLong se.carrier r (e.valueBytes se.id r idx sub) = false → (d'.session se.id).isSome = true →
      d'.lastAnswer se.id = some { status := Sc.ok, ver := e.ver (idx * 256 + sub),
                                   data := readData r (e.valueBytes se.id r idx sub) })
  ∧ (∀ idx sub offset length, ReadRuns (fun hd => .readBlock hd idx sub offset length) Op.readBlock
      (readBlockPayload idx sub offset length) idx sub fun e se r d' => (d'.session se.id).isSome = true →
    (65536 < length → d'.lastAnswer se.id = some { status := Sc.blockSize, ver := e.ver (idx * 256 + sub), detail := 65536 })
    ∧ (length ≤ 65536 → offset ≤ (e.valueBytes se.id r idx sub).length →
      d'.lastAnswer se.id = some { status := Sc.ok, ver := e.ver (idx * 256 + sub),
                                   data := ((e.valueBytes se.id r idx sub).drop offset).take length }))
  ∧ (∀ (s : State) (sid handle changes changedAt : Nat) (se : Session) (x : Subscr), s.dev.session sid = some se →
    (se.subs.find? fun y => y.handle == handle) = some x →
    Runs (.notify sid handle changes changedAt) s fun d =>
      (s.dev.intervalOver x = false → ∀ t, d.session sid = some t → t.devSeq = se.devSeq
        ∧ ∀ y ∈ t.subs, y.handle = handle → y.changes = (s.dev.changesOf se x changes changedAt).1)
      ∧ (s.dev.intervalOver x = true → s.dev.quiesced Isl.ctl = false → 0 < (s.dev.changesOf se x changes changedAt).1 →
        ∀ t, d.session sid = some t → t.devSeq = se.devSeq + 1
          ∧ ∀ y ∈ t.subs, y.handle = handle → y.changes = 0 ∧ y.sentAt = some s.dev.ext))

/-- R86, R87, R90: a WRITE of an object without an effect of its own: its version, its value (of objects below 0x3000), and
the answer, at once or after the commit. -/
def Obligations.PlainWriteRuns : Prop :=
  ∀ idx sub v, plainObj idx sub v = true →
    SetRuns (fun hd cond => .write hd idx sub cond v) (actPlain idx sub).conds idx sub v fun d se n d' =>
      d'.ver (idx * 256 + sub) = (d.ver (idx * 256 + sub) + 1) % 65536
      ∧ (idx < 0x3000 → ¬ BookKey (d.resolve se.id (idx * 256 + sub)) → d'.reg (d.resolve se.id (idx * 256 + sub)) = n)
      ∧ ((∃ r, objRow idx sub = some r ∧ r.rwp = false) → (d'.session se.id).isSome = true →
        d'.lastAnswer se.id = some { status := Sc.ok, ver := (d.ver (idx * 256 + sub) + 1) % 65536 })
      ∧ ((∃ r, objRow idx sub = some r ∧ r.rwp = true) → ∃ c, c ∈ d'.dict.commits ∧ c.sid = se.id
        ∧ c.vals.map (fun x => x.1) = [d.resolve se.id (idx * 256 + sub)] ∧ c.ver = (d.ver (idx * 256 + sub) + 1) % 65536)

/-- R90: a WRITE of an object that has a row of its own does what that row does. -/
def Obligations.WriteIsTheObjectsCommand : Prop :=
  ∀ (s : State) (hd : Hdr) (cond : Option Nat) (v : Bytes),
    exec (.write hd 0x2001 1 cond v) s = exec (.slewBoundWrite hd cond v) s
    ∧ exec (.write hd 0x2010 1 cond v) s = exec (.ptpSourceWrite hd cond v) s
    ∧ exec (.write hd 0x2018 1 cond v) s = exec (.gmPortWrite hd cond v) s
    ∧ exec (.write hd 0x2040 3 cond v) s = exec (.fenceSignal (.dict hd cond) v) s
    ∧ exec (.write hd 0x2040 4 cond v) s = exec (.fenceAdd (.dict hd cond) v) s
    ∧ exec (.write hd 0x2041 7 cond v) s = exec (.waitCancel hd cond v) s
    ∧ (∀ entry : Fin 6, exec (.write hd 0x2111 (entry + 1) cond v) s = exec (.priorityEntryWrite hd cond entry v) s)
    ∧ (∀ code : Fin 6, exec (.write hd (0x2112 + code) 1 cond v) s = exec (.refEnableWrite hd cond code v) s)
    ∧ exec (.write hd 0x2120 2 cond v) s = exec (.freqOffsetWordWrite hd cond v) s
    ∧ (∀ (out : Fin 13) (field : Fin 6),
        exec (.write hd (0x2130 + out) (field + 1) cond v) s = exec (.pulseConfigWrite hd cond out field v) s)
    ∧ exec (.write hd 0x6000 5 cond v) s = exec (.logClear hd cond v) s
    ∧ exec (.write hd 0x6001 4 cond v) s = exec (.mirrorClear hd cond v) s
    ∧ exec (.write hd 0x6002 4 cond v) s = exec (.quarantineRelease hd cond v) s
    ∧ exec (.write hd 0x1001 1 cond v) s = exec (.restoreDefaults hd cond v) s

/-- R92, R97, R103: the last segment of a block write. -/
def Obligations.BlockWritesRun : Prop :=
  BlockRuns (fun hd payload => .writeBlock hd payload) blockObjOf (fun _ _ b _ d' => d'.block b.sid b.tag = none)
  ∧ BlockRuns (fun hd payload => .keyWrite hd payload) keyObj fun e _ b data d' => ∀ p, p < 8 → b.key = Ob.partKey p →
    d'.blob (Ob.partKey p) = data ∧ d'.reg (Ob.partKeyState p) = 1 ∧ d'.ver (Ob.partKey p) = (e.ver (Ob.partKey p) + 1) % 65536
      ∧ d'.block b.sid b.tag = none ∧ ∀ x ∈ d'.dict.sessions, x.part ≠ p

/-- R96, R97, R101: sessions. -/
def Obligations.SessionCommandsRun : Prop :=
  (∀ (s : State) (hd : Hdr) (part : Nat) (nh : Bytes), s.dev.preCheck hd Op.hello (helloPayload part 0 nh) = none →
    nh.length = 8 → s.dev.mayOpen hd.carrier part = true → s.dev.atLimit part = false → s.dev.session s.dev.newSid = none →
    Runs (.hello hd part nh) s fun d => s.dev.newSid ≠ 0 ∧ s.dev.newSid ∈ d.dict.usedIds
      ∧ ∃ x, d.session s.dev.newSid = some x ∧ x.part = part ∧ x.carrier = hd.carrier ∧ x.confirmed = false ∧ x.devSeq = 1
        ∧ x.key = sessionKey (s.dev.keyOf part) nh s.dev.newNonce)
  ∧ (∀ (s : State) (hd : Hdr) (part : Nat) (nh : Bytes) (e : Dev) (se : Session),
    s.dev.admission hd Op.hello (helloPayload part 1 nh) false = .go e se →
    Runs (.helloClose hd part nh) s fun d => d.session se.id = none)
  ∧ (∀ (s : State) (sid : Nat) (se : Session), s.dev.session sid = some se → se.confirmed = false →
    5000000000 ≤ s.dev.ago se.opened →
    Runs (.sessionConfirmTimeout sid) s fun d => d.session sid = none)
  ∧ (∀ (s : State) (sid : Nat) (se : Session), s.dev.session sid = some se → se.confirmed = true →
    s.dev.nat Ob.sessionIdleTimeout * 1000000000 ≤ s.dev.ago se.lastReq →
    Runs (.sessionIdleTimeout sid) s fun d => d.session sid = none)
  ∧ (∀ (s : State) (sid : Nat) (se : Session), s.dev.session sid = some se →
    Runs (.resultCacheExpiry sid) s fun d => ∀ x, d.session sid = some x →
      x.cache = s.dev.freshCache se.cache ∧ x.outst = se.outst ∧ x.subs = se.subs)

/-- R87, R103, R105, R106, R416: commits, block timeouts, subscriptions, ABORT and RestoreDefaults. -/
def Obligations.RequestCommandsRun : Prop :=
  (∀ (s : State) (c : Commit) (cs : List Commit), s.dev.dict.commits = c :: cs →
    Runs .rwpCommitDone s fun d => d.dict.commits = cs
      ∧ d.reg Ob.persistCommits = wrapTy (keyTy Ob.persistCommits) (s.dev.reg Ob.persistCommits + 1)
      ∧ (∀ k v, c.vals = [(k, v)] → d.flashVal k = v)
      ∧ ((d.session c.sid).isSome = true → c.sid ≠ 0 →
        d.lastAnswer c.sid = some { status := Sc.ok, ver := c.ver, detail := c.detail }))
  ∧ (∀ (s : State) (sid tag : Nat) (b : Block), s.dev.block sid tag = some b →
    s.dev.nat Ob.blockGapTimeout * 1000000 ≤ s.dev.ago b.lastSeg →
    Runs (.blockGapTimeout sid tag) s fun d => d.block sid tag = none
      ∧ ((d.session sid).isSome = true →
        d.lastAnswer sid = some { status := Sc.blockTimeout, ver := s.dev.ver b.key }))
  ∧ (∀ idx sub mode interval, mode = 1 ∨ mode = 2 → 1 ≤ interval → interval ≤ 60000 →
    ReadRuns (fun hd => .subscribe hd idx sub mode interval) Op.subscribe (subscribePayload idx sub mode interval) idx sub
      fun e se _ d' => se.subs.length < 64 → e.subsCount < 512 → ∀ x, d'.session se.id = some x →
        (∃ y ∈ x.subs, y.handle = e.dict.nextHandle ∧ y.key = idx * 256 + sub ∧ y.mode = mode ∧ y.interval = interval)
        ∧ d'.lastAnswer se.id = some { status := Sc.ok, ver := e.ver (idx * 256 + sub), detail := e.dict.nextHandle })
  ∧ (∀ idx sub handle, ReadRuns (fun hd => .subscribeCancel hd idx sub handle) Op.subscribe
      (subscribePayload idx sub 0 0 ++ leBytes 2 handle) idx sub
      fun _ se _ d' => (se.subs.any fun x => x.handle == handle) = true → ∀ x, d'.session se.id = some x →
        ∀ y ∈ x.subs, y.handle ≠ handle)
  ∧ (∀ (s : State) (hd : Hdr) (tag : Nat) (e : Dev) (se : Session),
    s.dev.admission hd Op.abort (leBytes 2 tag ++ leBytes 2 0) false = .go e se →
    Runs (.abort hd tag) s fun d => d.block se.id tag = none
      ∧ ((d.session se.id).isSome = true → d.lastAnswer se.id = some
          { status := Sc.ok, detail := if (e.block se.id tag).isSome || (e.commitOf se.id tag).isSome then 1 else 0 }))
  ∧ (∀ v, SetRuns (fun hd cond => .restoreDefaults hd cond v) {} 0x1001 1 v fun d _ _ d' =>
    d'.dict.restore = true ∧ d.KeepsRegs d' [])

/-- R107: the CAN controllers. -/
def Obligations.CanCommandsRun : Prop :=
  ∀ ctl : Fin 2,
    (∀ s : State, s.dev.reg (Ob.canErrorState ctl) ≠ 2 →
      Runs (.canBusOff ctl) s fun d => d.reg (Ob.canErrorState ctl) = 2 ∧ (∀ x ∈ d.dict.sessions, x.onCan ctl = false)
        ∧ s.dev.KeepsRegs d [Ob.canErrorState ctl])
    ∧ SetRuns (fun hd cond => .canRestart hd cond ctl) {} (0x1210 + ctl) 9 [1] (fun d _ _ d' =>
      d'.reg (Ob.canErrorState ctl) = 0 ∧ (∀ x ∈ d'.dict.sessions, x.onCan ctl = false)
        ∧ (∀ k ∈ [Ob.canNominalBitRate ctl, Ob.canDataBitRate ctl, Ob.canBusOffRecovery ctl], d'.reg (canInForce k) = d.reg k))
    ∧ (∀ s : State, s.dev.reg (Ob.canErrorState ctl) = 2 → s.dev.reg (canInForce (Ob.canBusOffRecovery ctl)) = 0 →
      Runs (.canBusOffRecovery ctl) s fun d => d.reg (Ob.canErrorState ctl) = 0 ∧ s.dev.KeepsRegs d [Ob.canErrorState ctl])

/-- R365, R366, R369, R371, R409: quarantines, the logs and the I2C target. What answering a log clear may log itself (a held answer, the session's end at
its last sequence) stays in the cleared log. -/
def Obligations.IntegrityCommandsRun : Prop :=
  (∀ (s : State) (id t : Nat) (p : Partner), s.dev.partner id = some p → p.until_ = some t → t ≤ s.dev.ext →
    Runs (.quarantineExpiry id) s fun d => d.quarantinedId id = false)
  ∧ (∀ v, SetRuns (fun hd cond => .quarantineRelease hd cond v) releaseConds 0x6002 4 v fun _ _ n d' =>
    d'.quarantinedId n.toNat = false)
  ∧ (∀ v, SetRuns (fun hd cond => .logClear hd cond v) {} 0x6000 5 v fun _ _ _ d' =>
    (∀ x ∈ d'.log.ring, x.code = 0x1027 ∨ x.code = 0x2002 ∨ x.code = 0x2006) ∧ d'.reg Ob.logEntries = (d'.log.ring.length : Nat))
  ∧ (∀ v, SetRuns (fun hd cond => .mirrorClear hd cond v) {} 0x6001 4 v fun _ _ _ d' =>
    (∀ x ∈ d'.log.mirror, x.code = 0x1027 ∨ x.code = 0x2002 ∨ x.code = 0x2006)
      ∧ d'.reg Ob.mirrorEntries = (d'.log.mirror.length : Nat))
  ∧ (∀ (s : State) (reg len : Nat), s.dev.ready = true →
    Runs (.i2cRead reg len) s fun d =>
      .i2cData true ((s.dev.i2cBytes.drop reg ++ List.replicate len 0).take len) ∈ d.out ∧ s.dev.KeepsRegs d [])
  ∧ (∀ (s : State) (reg : Nat) (data : Bytes), Runs (.i2cWrite reg data) s fun d => ∃ ack, .i2cData ack [] ∈ d.out
      ∧ s.dev.KeepsRegs d [])

/-- R114-R119, R122, R400: supply, the resets and the safe-value record. -/
def Obligations.SupplyCommandsRun : Prop :=
  (∀ (s : State) (mv : Nat), mv ≤ 20000 → s.dev.pins.vin = 0 → s.dev.nat Ob.bootPhase = 0 →
    Runs (.vinAbove3v mv) s fun d => d.pins.vin = 1 ∧ d.pins.safeA = false ∧ d.pins.safeB = false ∧ d.reg Ob.vinNow = mv
      ∧ ∀ ch, ch < 12 → d.analogCode ch = 0)
  ∧ (∀ (s : State) (mv : Nat), mv ≤ 20000 → s.dev.nat Ob.bootPhase = 0 → s.dev.pins.vin ≠ 2 → s.dev.pow.tripped = false →
    Runs (.vinValid mv) s fun d => d.reg Ob.bootPhase = 1 ∧ d.reg Ob.bootCause = (if s.dev.reg Ob.bootCause = 4 then 4 else 0)
      ∧ d.pins.vin = 2 ∧ d.pins.vio18 = 1 ∧ d.pins.vio33 = 1)
  ∧ (∀ (s : State) (mv : Nat), 20000 < mv →
    exec (.vinAbove3v mv) s = .fault .absoluteMaximum ∧ exec (.vinValid mv) s = .fault .absoluteMaximum)
  ∧ (∀ (s : State) (mv : Nat) (slow : Bool), s.dev.pins.vin = 2 →
    Runs (.brownout mv slow) s fun d => d.reg Ob.bootPhase = 0 ∧ d.reg Ob.bootCause = 4 ∧ d.pins.safeA = false ∧ d.pins.safeB = false
      ∧ d.pins.vio18 = 0 ∧ d.pins.vio33 = 0
      ∧ ∀ ch, ch < 12 → d.analogCode ch = if s.dev.flag Ob.safeRecordValid then s.dev.flashVal (safeKey ch) else 0)
  ∧ (∀ (s : State) (out : Fin 2),
    (s.dev.pins.vio out = 1 → Runs (.vioOvercurrent out) s fun d => d.pins.vio out = 2 ∧ s.dev.KeepsRegs d [])
    ∧ (s.dev.pins.vio out = 2 → Runs (.vioLimitTimeout out) s fun d => d.pins.vio out = 3
      ∧ d.log.ring.head? = some (s.dev.entryOf { code := 0x8011, d1 := (out : Nat) }))
    ∧ (s.dev.pins.vio out = 3 → Runs (.vioRetry out) s fun d => d.pins.vio out = 1 ∧ s.dev.KeepsRegs d []))
  ∧ (∀ s : State, s.dev.nat Ob.bootPhase ≠ 0 →
    Runs .sysReset s fun d => d.reg Ob.bootPhase = 1 ∧ d.reg Ob.bootCause = 1 ∧ d.tl = {} ∧ ∀ ch, ch < 12 → d.analogCode ch = 0)
  ∧ (∀ v, SetRuns (fun hd cond => .deviceRestart hd cond v) {} 0x7000 8 v fun _ _ _ d' =>
    d'.reg Ob.bootPhase = 1 ∧ d'.reg Ob.bootCause = 2 ∧ d'.tl = {} ∧ d'.pins.safeA = false ∧ d'.pins.safeB = false)
  ∧ (∀ (s : State) (straps : Nat) (crcOk : Bool), s.dev.nat Ob.bootPhase = 1 →
    Runs (.safeValuesApplied straps crcOk) s fun d => d.reg Ob.bootPhase = 2 ∧ d.pins.vsel = straps % 16
      ∧ d.flag Ob.safeRecordValid = (crcOk || s.dev.dict.restore)
      ∧ (crcOk = true → s.dev.dict.restore = false → ∀ ch, ch < 12 → d.analogCode ch = s.dev.flashVal (safeKey ch))
      ∧ (crcOk = false → s.dev.dict.restore = false → ∀ ch, ch < 12 → d.analogCode ch = 0))
  ∧ (∀ s : State, s.dev.nat Ob.bootPhase ≠ 0 → Runs .perstNRelease s fun d => d.pins.perst = true ∧ s.dev.KeepsRegs d [])

/-- R120, R125, R126, R128, R136: the phases of start-up. -/
def Obligations.BootCommandsRun : Prop :=
  (∀ s : State, s.dev.nat Ob.bootPhase = 3 → s.dev.nextBank < 2 → s.dev.nat (Ob.bankTrialAttempts s.dev.nextBank) < s.dev.trialLimit →
    Runs .bundleVerified s fun d =>
      if s.dev.bankFault (s.dev.bank s.dev.nextBank) = 0 then
        d.reg Ob.activeBank = (s.dev.nextBank : Nat) ∧ d.reg Ob.bootPhase = 4
          ∧ d.reg (Ob.bankState s.dev.nextBank) = if s.dev.boot.trial = some s.dev.nextBank then 3 else 4
      else d.boot.tried = s.dev.nextBank :: s.dev.boot.tried)
  ∧ (∀ s : State, s.dev.nat Ob.bootPhase = 4 →
    Runs .manifestCheck s fun d =>
      match s.dev.majorsFault (s.dev.bank (s.dev.nat Ob.activeBank)) false with
      | [] => d.reg Ob.bootPhase = 5 ∧ s.dev.KeepsRegs d [Ob.bootPhase]
      | bad => d.boot.tried = s.dev.nat Ob.activeBank :: s.dev.boot.tried
        ∧ (s.dev.boot.tried = [] → ∀ n ∈ bad, d.reg (Ob.pairStatus (n - 1)) = 2))
  ∧ (∀ s : State, 3 ≤ s.dev.nat Ob.bootPhase → s.dev.nat Ob.bootPhase ≤ 7 →
    1000000000 ≤ s.dev.ago s.dev.boot.phaseAt →
    Runs .bootWatchdogExpiry s fun d => d.reg Ob.bootPhase = 1 ∧ d.reg Ob.bootCause = 5
      ∧ (4 ≤ s.dev.nat Ob.bootPhase → s.dev.nat Ob.activeBank < 2 → d.reg (Ob.bankTrialAttempts (s.dev.nat Ob.activeBank))
          = (Nat.min 7 (s.dev.nat (Ob.bankTrialAttempts (s.dev.nat Ob.activeBank)) + 1) : Nat)))
  ∧ (∀ s : State, s.dev.nat Ob.bootPhase = 5 → (List.range 4).any s.dev.discovering = false →
    s.dev.boot.dramTested = 0xFF →
    Runs .discoveryDone s fun d => s.dev.droppedChannels < 4 →
      d.reg Ob.bootPhase = 6 ∧ d.reg Ob.untestedPairs = (s.dev.untested (s.dev.bank (s.dev.nat Ob.activeBank)) : Nat)
        ∧ d.reg Ob.outcome = if s.dev.untested (s.dev.bank (s.dev.nat Ob.activeBank)) = 0 then 0 else 1)
  ∧ (∀ s : State, s.dev.nat Ob.bootPhase = 7 →
    Runs .serviceReady s fun d => d.reg Ob.bootPhase = 8 ∧ d.reg Ob.serviceReady = 1)
  ∧ (∀ s : State, 1000000000 ≤ s.dev.ago (s.dev.extAt (s.dev.nat Ob.serviceReadyStamp)) →
    Runs .startWindowEnd s fun d => d.startWindow = false ∧ s.dev.KeepsRegs d [])

/-- R387, R388, R391: the compute dies and the DRAM channels at discovery. -/
def Obligations.DieCommandsRun : Prop :=
  (∀ (s : State) (die : Fin 4), s.dev.discovering die = true →
    Runs (.dieLinkTrained die) s (fun d => d.reg (Ob.dieLinkState die) = 1 ∧ s.dev.KeepsRegs d [Ob.dieLinkState die])
    ∧ Runs (.dieDiscoveryTimeout die) s (fun d => d.reg (Ob.dieStatus ((die : Nat) + 1)) = 2
      ∧ d.reg (Ob.dieDropCause ((die : Nat) + 1)) = if s.dev.reg (Ob.dieLinkState die) = 0 then 1
          else if s.dev.blob (Ob.dieDescriptor ((die : Nat) + 1)) = [] then 2 else 6)
    ∧ (∀ desc, s.dev.reg (Ob.dieLinkState die) = 1 → Runs (.dieDescriptorReceived die desc) s fun d =>
      if s.dev.descFault desc = 0 then
        d.blob (Ob.dieDescriptor ((die : Nat) + 1)) = desc
          ∧ d.reg (Ob.dieAbsentEngines ((die : Nat) + 1)) = (leAt desc 9 1 % 4 : Nat)
      else d.reg (Ob.dieStatus ((die : Nat) + 1)) = 2
        ∧ d.reg (Ob.dieDropCause ((die : Nat) + 1)) = (s.dev.descFault desc : Nat))
    ∧ (∀ deckOk failed, s.dev.blob (Ob.dieDescriptor ((die : Nat) + 1)) ≠ [] → Runs (.dieStartTestDone die deckOk failed) s fun d =>
      let gone := s.dev.nat (Ob.dieAbsentEngines ((die : Nat) + 1)) ||| (failed % 4)
      d.reg (Ob.dieStatus ((die : Nat) + 1)) = (if deckOk = true ∧ gone ≠ 3 then 1 else 2)
        ∧ (deckOk = false → d.reg (Ob.dieDropCause ((die : Nat) + 1)) = 6)
        ∧ (deckOk = true → gone = 3 → d.reg (Ob.dieDropCause ((die : Nat) + 1)) = 7)))
  ∧ (∀ (s : State) (ch : Fin 8), s.dev.nat Ob.bootPhase = 5 → bit s.dev.boot.dramTested ch = false →
    Runs (.dramChannelTrained ch false) s (fun d => d.reg (Ob.dramChannelState ch) = 1
      ∧ d.boot = { s.dev.boot with dramTested := s.dev.boot.dramTested ||| 2 ^ (ch : Nat) }
      ∧ d.nat Ob.dramCapacity = s.dev.nat Ob.dramCapacity - 4294967296
      ∧ d.nat Ob.hostAreaSize = s.dev.nat Ob.hostAreaSize - 4294967296
      ∧ s.dev.KeepsRegs d [Ob.dramChannelState ch, Ob.dramChannelsInUse, Ob.dramCapacity, Ob.dramBandwidth, Ob.hostAreaSize])
    ∧ Runs (.dramChannelTrained ch true) s fun d => s.dev.KeepsRegs d []
      ∧ d.boot = { s.dev.boot with dramTested := s.dev.boot.dramTested ||| 2 ^ (ch : Nat) })

/-- R131-R134: update, activation and the key slots. -/
def Obligations.UpdateCommandsRun : Prop :=
  (∀ v, SetRuns (fun hd cond => .updateOffsetWrite hd cond v) {} 0x7010 1 v fun d se n d' =>
    d'.reg Ob.updateOffset = n ∧ d'.reg Ob.updateOwner = (if d.nat Ob.updateOwner = 0xFF then (se.part : Int) else d.reg Ob.updateOwner)
      ∧ d'.boot.updateAt = d.ext)
  ∧ (∀ v, SetRuns (fun hd cond => .updateLengthWrite hd cond v) {} 0x7010 3 v fun d _ n d' =>
    d'.reg Ob.updateLength = n ∧ d'.boot.updateAt = d.ext ∧ d.KeepsRegs d' [Ob.updateLength])
  ∧ BlockRuns (fun hd payload => .updateChunk hd payload) (fun _ => chunkObj) (fun e _ _ data d' =>
    kvGet d'.banks e.inactiveBank = some (bankWrite (if e.nat Ob.updateOffset = 0 then [] else e.bank e.inactiveBank)
        (e.nat Ob.updateOffset) data)
      ∧ d'.reg Ob.updateState = 1 ∧ d'.reg (Ob.bankState e.inactiveBank) = 2)
  ∧ SetRuns (fun hd cond => .updateVerify hd cond) {} 0x7010 4 [1] (fun d _ _ d' =>
    let bk := d.bank d.inactiveBank
    (d.bankFault bk ≠ 0 → d'.reg Ob.updateState = 4 ∧ d'.reg Ob.updateError = (d.bankFault bk : Nat) ∧ d'.reg Ob.updatePredicted = 2)
      ∧ (d.bankFault bk = 0 → d.majorsFault bk true ≠ [] →
        d'.reg Ob.updateState = 4 ∧ d'.reg Ob.updateError = 5 ∧ d'.reg Ob.updatePredicted = 2)
      ∧ (d.bankFault bk = 0 → d.majorsFault bk true = [] → d'.reg Ob.updateState = 3 ∧ d'.reg Ob.updateError = 0
        ∧ d'.reg Ob.updatePredicted = if d.untested bk = 0 then 0 else 1))
  ∧ SetRuns (fun hd cond => .provisionalConsent hd cond) {} 0x7010 8 [1] (fun d _ _ d' =>
    d'.boot = { d.boot with consent := true, updateAt := d.ext })
  ∧ SetRuns (fun hd cond => .updateActivateNextStart hd cond) activateConds 0x7010 7 [1] (fun d _ _ d' =>
    d'.boot = { d.boot with trial := some d.inactiveBank } ∧ d'.reg (Ob.bankState d.inactiveBank) = 3 ∧ d'.reg Ob.updateState = 5
      ∧ d'.reg Ob.updateOwner = 0xFF)
  ∧ SetRuns (fun hd cond => .updateActivateNow hd cond) activateConds 0x7010 7 [2] (fun d _ _ d' =>
    d'.boot.trial = some d.inactiveBank ∧ d'.reg Ob.bootPhase = 1 ∧ d'.reg Ob.bootCause = 6)
  ∧ SetRuns (fun hd cond => .updateCommit hd cond) commitConds 0x7010 9 [1] (fun d _ _ d' =>
    d'.boot = { d.boot with current := d.nat Ob.activeBank, trial := none, trialRunning := false }
      ∧ (d.nat Ob.activeBank < 2 →
        d'.reg (Ob.bankState (d.nat Ob.activeBank)) = 4 ∧ d'.reg (Ob.bankState (1 - d.nat Ob.activeBank)) = 1))
  ∧ SetRuns (fun hd cond => .updateAbort hd cond) abortConds 0x7010 12 [1] (fun d _ _ d' => d.nat Ob.updateOwner ≠ 0xFF →
    d'.reg Ob.updateOwner = 0xFF ∧ d'.reg Ob.updateState = 0 ∧ d'.reg (Ob.bankState d.inactiveBank) = 2
      ∧ kvGet d'.banks d.inactiveBank = some (bankWrite (d.bank d.inactiveBank) 0 [0, 0, 0, 0]))
  ∧ (∀ s : State, s.dev.nat Ob.updateOwner ≠ 0xFF → 60000000000 ≤ s.dev.ago s.dev.boot.updateAt →
    Runs .updateClaimTimeout s fun d => d.reg Ob.updateOwner = 0xFF
    ∧ d.reg Ob.updateState = 0 ∧ s.dev.KeepsRegs d [Ob.updateOwner, Ob.updateState])
  ∧ (∀ s : State, s.dev.boot.trialRunning = true → s.dev.commitLate = true → Runs .commitTimeout s fun d =>
    d.boot = { s.dev.boot with trial := none, trialRunning := false } ∧ d.reg (Ob.bankState (s.dev.nat Ob.activeBank)) = 1)
  ∧ (∀ v, SetRuns (fun hd cond => .revokeKeySlot hd cond v) revokeConds 0x7020 3 v fun d _ n d' =>
    d'.reg Ob.keySlotState = (d.nat Ob.keySlotState ||| 2 ^ (4 + n.toNat) : Nat) ∧ d.KeepsRegs d' [Ob.keySlotState])
  ∧ (∀ v, SetRuns (fun hd cond => .advanceFloor hd cond v) floorConds 0x7020 4 v fun d _ n d' =>
    d'.reg Ob.securityVersionFloor = n ∧ d.KeepsRegs d' [Ob.securityVersionFloor])

/-- R138-R143, R151, R154-R156: a pour, a STORE and a recall that arrive whole. -/
def Obligations.PourSubmissionsRun : Prop :=
  ∀ (s : State) (hd : Hdr) (payload : Bytes) (e : Dev) (se : Session) (l : List RawEntry), PourArrives s.dev hd payload e se l →
    ((pourHead payload).recall = false → (pourHead payload).store = false →
      Runs (.pour hd payload) s fun d =>
        (∀ r, e.pourFault se (pourHead payload) l = some r → d.pours.live = s.dev.pours.live
          ∧ ((d.session se.id).isSome = true → r.status ≠ Sc.busy →
            d.lastAnswer se.id = some { status := r.status, detail := r.detail }))
        ∧ (e.pourFault se (pourHead payload) l = none → ∃ p, d.pours.live = s.dev.pours.live ++ [p] ∧ p.handle = e.newHandle
          ∧ p.part = se.part ∧ p.target = (pourHead payload).target ∧ (p.state = 1 ∨ p.state = 2)
          ∧ p.entries.map (fun x => (x.key, x.value)) = l.map (fun x => (x.key, e.entryValue x))
          ∧ ((d.session se.id).isSome = true → d.lastAnswer se.id = some { status := Sc.ok, detail := e.newHandle })))
    ∧ ((pourHead payload).store = true → (pourHead payload).scene ≤ 63 →
      Runs (.pourStore hd payload) s fun d => e.storeFault se (pourHead payload) l = none →
        d.reg (Ob.sceneState (pourHead payload).scene) = 1 ∧ d.reg (Ob.sceneOwner (pourHead payload).scene) = (se.part : Nat)
          ∧ d.reg (Ob.sceneEntries (pourHead payload).scene) = (l.length : Nat)
          ∧ d.reg (Ob.sceneStoredStamp (pourHead payload).scene) = (s.dev.now : Nat)
          ∧ d.blob (Ob.sceneContent (pourHead payload).scene) = e.sceneArea l ∧ d.pours = s.dev.pours)
    ∧ ((pourHead payload).recall = true →
      Runs (.pourRecall hd payload) s fun d =>
        let all := (rawEntries (e.nat (Ob.sceneEntries (pourHead payload).scene)) (e.blob (Ob.sceneContent (pourHead payload).scene))).getD []
        e.pourFault se (pourHead payload) all = none → ∃ p, d.pours.live = s.dev.pours.live ++ [p] ∧ p.handle = e.newHandle
          ∧ p.entries.map (fun x => (x.key, x.value))
            = (all.filter fun x => !e.skipped (pourHead payload) x).map (fun x => (x.key, e.entryValue x)))

/-- R141-R143, R151, R155, R415: what moves a held pour on or ends it before its flips, its commits, and SceneErase. -/
def Obligations.PourProgressRuns : Prop :=
  (∀ (s : State) (h : Nat) (p : Pour), s.dev.pour h = some p → p.state = 2 → p.loaded = none →
    Runs (.pourShadowLoaded h) s fun d => ∀ q, d.pour h = some q → q = { p with loaded := some s.dev.now })
  ∧ (∀ (s : State) (h g : Nat) (p : Pour), s.dev.pour h = some p → p.state = 1 → p.gen = some g → s.dev.genFree g = true →
    Runs (.pourGenerationReserved h) s fun d => d.pour h = some { p with state := 2 } ∧ g ∈ d.genReserved)
  ∧ (∀ (s : State) (h : Nat) (p : Pour), s.dev.pour h = some p → p.state = 1 →
    atOrAfter s.dev.now (stampAdd p.accepted (p.timeout * 1000000 : Nat)) = true ∨ atOrAfter s.dev.now p.target = true →
    Runs (.pourBacklogTimeout h) s fun d => d.pour h = none
      ∧ d.pours.ended.head? = some { p with state := 5, cause := Sc.pourBacklog })
  ∧ (∀ v, SetRuns (fun hd cond => .pourCancel hd cond v) cancelConds 0x2202 9 v fun d _ n d' => ∀ p, d.pour n.toNat = some p →
    d'.pour n.toNat = none ∧ d'.pours.ended.head? = some { p with state := 6, cause := 0 })
  ∧ (∀ (s : State) (h uid : Nat) (c : PourCommit),
    (s.dev.pours.commits.find? fun c => c.handle == h && c.uid == uid) = some c →
    Runs (.pourCommitDone h uid) s fun d => d.pours.commits = s.dev.pours.commits.erase c
      ∧ d.reg Ob.persistCommits = wrapTy (keyTy Ob.persistCommits) (s.dev.reg Ob.persistCommits + 1)
      ∧ ∀ k v, c.vals = [(k, v)] → d.flashVal k = v)
  ∧ (∀ scene : Fin 64, SetRuns (fun hd cond => .sceneErase hd cond scene) {} (0x2240 + scene) 6 [1] fun d _ _ d' =>
    d'.reg (Ob.sceneState scene) = 0 ∧ d'.reg (Ob.sceneOwner scene) = 0xFF ∧ d'.reg (Ob.sceneEntries scene) = 0
      ∧ d'.blob (Ob.sceneContent scene) = [] ∧ d'.pours = d.pours)

/-- R146-R150, R275: a flip of a pulse output, ends of ramps, and the drop of a mix lane. -/
def Obligations.PourFlipsRun : Prop :=
  (∀ (s : State) (p : Pour) (x : PourPart) (en : PourEntry) (t : Nat), s.dev.pours.live = [p] → p.parts = [x] →
    p.entries = [en] → 0x2130 ≤ x.uid → x.uid ≤ 0x213C → en.uid = x.uid → en.key / 256 = x.uid → p.state = 2 → p.gen = none →
    p.report = [] → s.dev.flipAt p x (some x.island) = some t →
    Runs (.pourFlip x.uid none) s fun d => d.reg en.key = en.value ∧ d.ver en.key = (s.dev.ver en.key + 1) % 65536
      ∧ ∃ q, d.pourAny p.handle = some q ∧ q.parts = [] ∧ q.report.map (fun r => (r.uid, r.island, r.unit, r.flip))
        = [(x.uid, x.island, x.unit, t)])
  ∧ (∀ (s : State) (key : Nat), (s.dev.mix.filters.find? fun w => w.key == key) = none →
    Runs (.rampEnd key) s fun d =>
      d.mix.ramps = s.dev.mix.ramps.filter fun y => !(y.key == key && atOrAfter s.dev.now y.stop))
  ∧ (∀ (s : State) (lane : Fin 4), bit (s.dev.nat Ob.lanesInUse) lane = true →
    Runs (.mixLaneDrop lane) s fun d => bit (d.nat Ob.lanesInUse) lane = false
      ∧ d.nat Ob.stripsInUse = s.dev.nat Ob.stripsInUse - 96)

/-- R168-R171, R180, R181: camera frames and staleness; of a frame start, `c` says whether it cuts a frame still open and `e` is
the device once the pours due at it have flipped. -/
def Obligations.CameraCommandsRun : Prop :=
  (∀ (s : State) (port : Fin 6) (vc : Fin 4) (c : Bool × Dev) (e : Dev) (i : Nat), s.dev.running = true →
    s.dev.quiesced Isl.csi = false → c = s.dev.csiCut port vc →
    e = c.2.flipSlots (slotHit 1 fun _ sel => sel == (port : Nat) + 16 * vc) → kvGet e.csiPend port = none →
    e.csiSlot port vc = some i → e.nat (Ob.slotLanesInUse i) ≠ 0 →
    Runs (.csiFrameStart port vc) s fun d =>
      (d.slot i).frame = some { fs := e.stampIn Isl.csi, exposure := e.kp i 6, defect := c.1, cfg := e.slotCfg i }
        ∧ ∀ j, s.dev.csiSlot port vc = some j → c.1 = (s.dev.slot j).frame.isSome)
  ∧ (∀ (s : State) (port : Fin 6) (vc : Fin 4) (i : Nat) (f : CsiFrame), s.dev.quiesced Isl.csi = false →
    s.dev.csiSlot port vc = some i → (s.dev.slot i).frame = some f →
    (∀ line : CsiPacket, line.headerOk = true → s.dev.kp i 5 = 1 → f.exposed = false → f.unmodelled = false → f.lines = 0 →
      s.dev.kp i 7 % 65536 + bits (s.dev.kp i 7) 18 16 ≤ line.data.length →
      Runs (.csiEmbeddedLine port vc line) s fun d =>
        let x := fieldAt line.data (s.dev.kp i 7 % 65536) (bits (s.dev.kp i 7) 18 16) (!bit (s.dev.kp i 7) 20)
        let r : Found := { line.found with hasCoc := false }
        (d.slot i).frame = some { f with exposed := true, exposure := (roundDiv (x * s.dev.kp i 8 : Nat) 256).toNat,
                                         bad := f.bad || decide (r.outcome = .bad),
                                         unproven := f.unproven || decide (r.outcome = .unproven) })
    ∧ (∀ line found, Runs (.csiLongPacket port vc (s.dev.kp i 0 % 64) true line found) s fun d =>
      ∃ g, (d.slot i).frame = some g ∧ g.fs = f.fs ∧ g.lines = f.lines + 1
        ∧ g.data = if f.lines < bits (s.dev.kp i 2) 31 16 then f.data ++ line else f.data)
    ∧ Runs (.csiFrameEnd port vc) s (fun d => (d.slot i).frame = none))
  ∧ (∀ (s : State) (port : Fin 6) (lane : Fin 4) (i n : Nat), n = (if (lane : Nat) ≥ 2 then 2 else if (lane : Nat) = 1 then 1 else 0) →
    (s.dev.slotFor 1 fun j => s.dev.nat (Ob.slotSourceSelect j) % 8 == port && bit (s.dev.kp j 0) 16) = some i →
    n < Nat.min (s.dev.nat (Ob.slotLanesInUse i)) ((kvGet s.dev.csiPend port).getD 4) →
    Runs (.csiLaneError port lane) s fun d => kvGet d.csiPend port = some n ∧ s.dev.KeepsRegs d [])
  ∧ (∀ (s : State) (slot : Fin 32), s.dev.running = true → s.dev.nat (Ob.slotSourceKind slot) ≠ 0 →
    s.dev.flag (Ob.slotEnable slot) = true → (s.dev.slot slot).stale = false → s.dev.quiesced (s.dev.slotIsl slot) = false →
    s.dev.slotQuarantined slot = false → s.dev.nat (Ob.slotStaleTimeout slot) * 1000 ≤ s.dev.ago (s.dev.slot slot).lastAt →
    Runs (.slotStaleTimeout slot) s fun d => (d.slot slot).stale = true ∧ d.reg (Ob.slotState slot) = 3
      ∧ s.dev.KeepsRegs d [Ob.slotState slot])

/-- R162, R172, R175-R179: scanners, SPI sensors, encoders and CAN sensors; `e` is the device once the pours due at the event
have flipped. -/
def Obligations.SensorCommandsRun : Prop :=
  (∀ (s : State) (port : Fin 2) (ip dst : Nat) (payload : Bytes) (found : Found) (e : Dev) (i : Nat), s.dev.ready = true →
    s.dev.quiesced (Isl.eta + port) = false →
    e = s.dev.flipSlots (slotHit 2 fun kp sel => sel % 2 == (port : Nat) && kp 0 == ip && kp 1 % 65536 == dst) →
    (e.slotFor 2 fun j => e.nat (Ob.slotSourceSelect j) % 2 == port && e.kp j 0 == ip && e.kp j 1 % 65536 == dst) = some i →
    e.slotQuarantined i = false → e.kp i 2 % 65536 + e.kp i 2 / 65536 ≤ payload.length →
    Runs (.scannerDatagram port ip dst false payload found) s fun d =>
      e.reg (Ob.slotModelMode i) = 0 → (d.slot i).lastStamp
        = some (((e.replica (Isl.eta + port) : Int) - e.reg (Ob.slotTransitMin i)) % 281474976710656).toNat)
  ∧ (∀ (s : State) (port : Fin 4) (rising : Bool) (e : Dev) (i : Nat), s.dev.running = true → s.dev.quiesced Isl.sns = false →
    e = s.dev.flipSlots (slotHit 3 fun kp sel => sel % 4 == (port : Nat) && rising != bit (kp 0) 18) →
    e.spiSlot port = some i → rising = !bit (e.kp i 0) 18 →
    Runs (.imuDrdyEdge port rising) s fun d =>
      ((e.slot i).busyAt = none → (d.slot i).busyAt = some (e.replica Isl.sns)
        ∧ .spiRead port (bits (e.kp i 0) 17 16) (e.kp i 0 % 65536)
          ((leBytes 4 (e.kp i 1) ++ leBytes 4 (e.kp i 2)).take (e.kp i 3 % 16)) (bits (e.kp i 3) 14 8) ∈ d.out)
      ∧ (∀ b, (e.slot i).busyAt = some b → e.slotQuarantined i = false → (d.slot i).busyAt = some b ∧ (d.slot i).overrun = true
        ∧ d.reg (Ob.slotOverruns i) = wrapTy (keyTy (Ob.slotOverruns i)) (e.reg (Ob.slotOverruns i) + 1)))
  ∧ (∀ (s : State) (port : Fin 4) (data : Bytes) (b i : Nat), s.dev.quiesced Isl.sns = false → s.dev.spiSlot port = some i →
    (s.dev.slot i).busyAt = some b →
    Runs (.imuReadDone port data) s fun d => (d.slot i).busyAt = none ∧ (d.slot i).overrun = false
      ∧ (s.dev.reg (Ob.slotModelMode i) = 0 → (s.dev.slot i).stopping = false → s.dev.slotQuarantined i = false →
        (d.slot i).lastStamp = some (((b : Int) - s.dev.kp i 4) % 281474976710656).toNat))
  ∧ (∀ (s : State) (ch : Fin 8) (e : Dev) (i : Nat), s.dev.running = true → s.dev.quiesced Isl.sns = false →
    e = s.dev.flipSlots (slotHit 4 fun _ sel => bit sel ch) → e.encSlot ch = some i →
    (∀ up, Runs (.encoderTransition ch (some up)) s fun d =>
      let x := e.enc ch
      let n := (if up != bit (e.kp i 2) ch then x.count + 1 else x.count + 4294967295) % 4294967296
      d.enc ch = { x with count := n, last := some (e.replica Isl.sns), edges := (x.edges + 1) % 65536 })
    ∧ Runs (.encoderTransition ch none) s (fun d => d.enc ch = { e.enc ch with illegal := true }))
  ∧ (∀ (s : State) (ch : Fin 8) (i : Nat), s.dev.running = true → s.dev.quiesced Isl.sns = false → s.dev.encSlot ch = some i →
    bit (s.dev.kp i 2) (8 + ch) = true → (s.dev.enc ch).z = none →
    Runs (.encoderZEdge ch) s fun d => d.enc ch = { s.dev.enc ch with z := some (s.dev.enc ch).count })
  ∧ (∀ (s : State) (slot : Fin 32) (e : Dev), s.dev.running = true → s.dev.quiesced Isl.sns = false →
    e = s.dev.flipSlots (fun g i => i == (slot : Nat) && g (Ob.slotSourceKind i) == 4) →
    e.nat (Ob.slotSourceKind slot) = 4 → e.flag (Ob.slotEnable slot) = true → (e.slot slot).stopping = false → e.kp slot 0 ≠ 0 →
    Runs (.encoderPeriodEnd slot) s fun d => ∀ c ∈ setBits (e.nat (Ob.slotSourceSelect slot)) 8,
      d.enc c = { e.enc c with edges := 0, illegal := false, z := none })
  ∧ (∀ (s : State) (ctl : Fin 2) (id : Nat) (ext : Bool) (data : Bytes) (found : Found),
    (s.dev.running = true → s.dev.flag (Ob.canEnable ctl) = true → s.dev.reg (Ob.canErrorState ctl) ≠ 2 → found.checkOk = true →
      Runs (.canSensorFrame ctl id ext data found) s fun d => .canAck ctl ∈ d.out
        ∧ ∀ e i, s.dev.quiesced Isl.sns = false →
          e = ((s.dev.countCan ctl false).send (.canAck ctl)).flipSlots
            (slotHit 5 fun kp sel => sel % 2 == (ctl : Nat) && canMatch (kp 0) (kp 1) id ext) →
          (e.slotFor 5 fun j => e.nat (Ob.slotSourceSelect j) % 2 == ctl && canMatch (e.kp j 0) (e.kp j 1) id ext) = some i →
          e.slotQuarantined i = false → e.reg (Ob.slotModelMode i) = 0 →
          (d.slot i).lastStamp = some (e.replica Isl.sns % 281474976710656))
    ∧ (found.checkOk = false →
      Runs (.canSensorFrame ctl id ext data found) s fun d => d.slots = s.dev.slots ∧ s.dev.KeepsRegs d []))
  ∧ (∀ (s : State) (ctl : Fin 2) (passive : Bool), s.dev.reg (Ob.canErrorState ctl) ≠ 2 →
    Runs (.canErrorFrame ctl passive) s fun d => d.reg (Ob.canErrorState ctl) = (if passive then 1 else 0)
      ∧ s.dev.KeepsRegs d [Ob.canErrorState ctl])
  ∧ (∀ (s : State) (slot : Fin 32) (b : Int × Int) (rest : List (Int × Int)), (s.dev.slot slot).ended = b :: rest →
    Runs (.modelWindowEnd slot) s fun d =>
      ((d.slot slot).ended = rest ∧ (d.slot slot).minima = (b :: (s.dev.slot slot).minima).take 16)
      ∨ ((d.slot slot).ended = [] ∧ (d.slot slot).minima = []))

/-- R182, R185-R190, R194-R196: ticks, poses, the resampler and the grids. -/
def Obligations.FusionCommandsRun : Prop :=
  ∀ s : State, s.dev.quiesced Isl.fus = false →
    (∀ it e, s.dev.nat Ob.poseQueue ≠ 0xFFFF → s.dev.readQueue (s.dev.nat Ob.poseQueue) = some (it, e) → it.data.length = 48 →
      (∀ p, s.dev.fus.track.head? = some p → after (leAt it.data 0 6) p.stamp = true) →
      Runs .poseRecord s fun d => d.fus.track = ({ stamp := leAt it.data 0 6, raw := it.data } :: s.dev.fus.track).take 256
        ∧ d.reg Ob.poseNewest = (leAt it.data 0 6 : Nat))
    ∧ Runs .poseWaitExpiry s (fun d => ∀ g, g < 4 → ∀ b ∈ (d.grid g).builds,
      atOrAfter s.dev.now (stampAdd b.close (s.dev.reg Ob.poseWait * 1000)) = true → b.track.isSome = true)
    ∧ (s.dev.tl.running = true → s.dev.fus.lastTick ≠ some (s.dev.ext / s.dev.tickNs) →
      Runs .gridTick s fun d => d.fus.lastTick = some (s.dev.ext / s.dev.tickNs)
        ∧ d.reg Ob.tickCount = wrapTy (keyTy Ob.tickCount) (s.dev.reg Ob.tickCount + 1)
        ∧ d.fus.due = if s.dev.flag Ob.resampleEnable
            then s.dev.fus.due ++ [s.dev.ext / s.dev.tickNs * s.dev.tickNs % span48] else s.dev.fus.due)
    ∧ (∀ t rest, s.dev.fus.due = t :: rest → s.dev.recordDue t = true →
      Runs .resampleTickRecord s fun d => d.fus.due = rest ∧ d.fus.recSeq = (s.dev.fus.recSeq + 1) % 4294967296)
    ∧ (∀ it l, s.dev.stageItems 0 = it :: l → Runs .gridPointItem s fun d => d.stageItems 0 = l)
    ∧ ∀ g : Fin 4,
      Runs (.pointWaitExpiry g) s (fun d => (d.grid g).builds = (s.dev.grid g).builds.map fun b =>
        if atOrAfter s.dev.now (stampAdd b.close (s.dev.reg (Ob.gridPointWait g) * 1000)) then { b with pointsDone := true } else b)
      ∧ (∀ b rest, (s.dev.grid g).builds = b :: rest → b.pointsDone = true → b.track.isSome = true →
        Runs (.gridBuildDone g) s fun d => (d.grid g).builds = rest ∧ d.reg (Ob.gridLastClose g) = (b.close : Nat)
          ∧ d.reg (Ob.gridSeq g) = ((s.dev.nat (Ob.gridSeq g) + 1) % 4294967296 : Nat)
          ∧ d.mem = memWrite s.dev.mem (gridBuf g b.cfg ((s.dev.grid g).closes - (s.dev.grid g).builds.length))
            (gridHeader g b (s.dev.buildGrid (s.dev.grid g) b) ((s.dev.nat (Ob.gridSeq g) + 1) % 4294967296)
              ++ (s.dev.buildGrid (s.dev.grid g) b).cells))

/-- R200-R212: loads, residency, triggers, dispatch and results of the tensor engines. -/
def Obligations.TensorCommandsRun : Prop :=
  (∀ m : Fin 32,
    SetRuns (fun hd cond => .modelLoad hd cond m) { state := fun d _ _ => needState (d.loadFree m) } (0x3420 + m) 6 [1]
      (fun d se _ d' => d'.reg (Ob.modelPackageState m) = 1 ∧ d'.ten.loads = d.ten.loads ++ [(m : Nat)] ∧ (d'.model m).loader = se.part)
    ∧ SetRuns (fun hd cond => .modelUnload hd cond m) { state := fun d _ _ => needState (!d.flag (Ob.modelEnable m)) } (0x3420 + m) 7 [1]
      (fun d _ _ d' => (d'.model m).unloading = true ∧ d'.ten.loads = d.ten.loads ∧ d'.ten.running = d.ten.running
        ∧ d.KeepsRegs d' []))
  ∧ (∀ (s : State) (m : Fin 32),
    ((s.dev.ten.loads.take 4).contains (m : Nat) = true → ∀ readOk,
      Runs (.modelLoadDone m readOk) s fun d => d.ten.loads = s.dev.ten.loads.erase (m : Nat)
        ∧ (readOk = false → d.reg (Ob.modelPackageState m) = 3 ∧ d.reg (Ob.modelLoadError m) = 10)
        ∧ (d.reg (Ob.modelPackageState m) = 3
          ∨ (d.reg (Ob.modelPackageState m) = 2 ∧ d.reg (Ob.modelLoadError m) = 0 ∧ s.dev.loadFault (d.model m).pkg = 0
              ∧ d.reg (Ob.modelPackageVersion m) = (leAt (d.model m).pkg 8 4 : Nat))))
    ∧ (∀ die : Fin 4, (s.dev.model m).copying.contains (die : Nat) = true →
      Runs (.deckCopyDone m die) s fun d => (d.model m).copying = (s.dev.model m).copying.erase (die : Nat) ∧ d.placed m die = 1
        ∧ s.dev.KeepsRegs d [Ob.modelPlacement m])
    ∧ ((s.dev.model m).unloading = true → s.dev.ten.running.any (fun i => i.model == (m : Nat)) = false →
      Runs (.modelUnloadDone m) s fun d => d.reg (Ob.modelPackageState m) = 0 ∧ d.reg (Ob.modelPackageVersion m) = 0
        ∧ d.ten.loads = s.dev.ten.loads.erase (m : Nat) ∧ (d.model m).pkg = [] ∧ (d.model m).unloading = false))
  ∧ (∀ (s : State) (src : Nat) (it : Item) (x : Dev),
    x = (s.dev.when (s.dev.flipNow (0x10000 + src) none) fun d => d.flipAll [0x10000 + src] none) →
    ((src / 4096 ≠ 3 ∧ ∃ rest, takeFirst (ofSource src) (x.releaseFrames.stageItems 2) = some (it, rest))
      ∨ (src / 4096 = 3 ∧ ∃ e, x.releaseFrames.readQueue (src % 4096) = some (it, e))) →
    Runs (.inferenceTrigger src) s fun d => ∀ m, m < 32 → x.flag (Ob.modelEnable m) = true →
      x.nat (Ob.modelInput m 0) = src → (x.resident m = true → x.usable m ≠ []) →
      (d.model m).ready = ((x.model m).ready ++ [it]).drop ((x.model m).ready.length + 1 - x.nat (Ob.modelInputDepth m)))
  ∧ (∀ (s : State) (e : Fin 8),
    (∀ m, s.dev.canaryFor e = some m →
      Runs (.inferenceDispatch e) s fun d => (d.model m).canaryRun = true
        ∧ ∃ i, d.ten.running = s.dev.ten.running ++ [i] ∧ i.model = m ∧ i.engine = (e : Nat) ∧ i.canary = true ∧ i.at_ = s.dev.now)
    ∧ (∀ (x : Dev) (y r : Ready), s.dev.canaryFor e = none → s.dev.chosen e = some y →
      x = s.dev.flipAll [0x10000 + s.dev.nat (Ob.modelInput y.model 0)] (some e) → x.canaryFor e = none → x.chosen e = some r →
      Runs (.inferenceDispatch e) s fun d => (r.seq = none → (d.model r.model).ready = (x.model r.model).ready.erase r.trig)
        ∧ if bit (x.gather r.model r.trig).2.1 6 || (x.flag (Ob.modelSkipLate r.model)
              && after (stampAdd x.now (x.estimate r.model ((e : Nat) / 2))) (x.deadline r.model r.trig))
          then d.ten.running = x.ten.running
            ∧ d.reg (Ob.modelSkipped r.model) = wrapTy (keyTy (Ob.modelSkipped r.model)) (x.reg (Ob.modelSkipped r.model) + 1)
          else ∃ i, d.ten.running = x.ten.running ++ [i] ∧ i.model = r.model ∧ i.trig = r.trig
            ∧ i.inputs = (x.gather r.model r.trig).1 ∧ i.engine = (e : Nat) ∧ i.canary = false
            ∧ i.seq = r.seq.getD (x.model r.model).seq)
    ∧ (∀ i, (s.dev.ten.running.find? fun i => i.engine == (e : Nat) && !i.canary) = some i → i.model < 32 → i.span ≤ 2 → ∀ fault,
      Runs (.inferenceComplete e fault) s fun d => d.ten.running = s.dev.ten.running.erase i
        ∧ d.reg (Ob.modelLastSubject i.model) = (i.trig.subject : Nat) ∧ d.reg (Ob.modelLastCompletion i.model) = (s.dev.now : Nat)
        ∧ d.reg (Ob.modelInferences i.model) = wrapTy (keyTy (Ob.modelInferences i.model)) (s.dev.reg (Ob.modelInferences i.model) + 1)))

/-- R222, R223: canaries and weight scans. -/
def Obligations.ModelCheckCommandsRun : Prop :=
  (∀ (s : State) (m : Fin 32),
    (((s.dev.model m).canaryLast = 2 ∧ ((s.dev.model m).canaryDue = true ∨ s.dev.bound m = true)
          ∧ (s.dev.model m).canaryAt + 100000000 ≤ s.dev.ext)
        ∨ ((s.dev.model m).canaryLast ≠ 2 ∧ ((s.dev.model m).canaryDue = true
          ∨ (s.dev.bound m = true ∧ (s.dev.model m).canaryLast = 0))) →
      (s.dev.model m).canary = none → s.dev.reg (Ob.modelPackageState m) = 2 →
      Runs (.canaryRequest m) s fun d => d.model m
        = { s.dev.model m with canary := some s.dev.ext, canaryRun := false, canaryDue := false, records := 0 })
    ∧ (∀ t, (s.dev.model m).canary = some t → t + s.dev.nat Ob.canaryTimeout * 1000000 ≤ s.dev.ext →
      Runs (.canaryTimeout m) s fun d => d.model m
        = { s.dev.model m with canary := none, canaryRun := false, canaryLast := 2, canaryAt := s.dev.ext })
    ∧ (∀ found, s.dev.bound m = true → s.dev.reg (Ob.modelPackageState m) = 2 → s.dev.quiesced Isl.cup = false →
      Runs (.weightScanBlock m found) s fun d =>
        let i := (s.dev.model m).scanNext
        let p := (s.dev.model m).pkg
        (d.model m).scanNext = (if (i + 1) * 65536 < (pkgWeights p).length then i + 1 else 0)
          ∧ ((pkgWeights p).length ≤ (i + 1) * 65536 → (d.model m).scanStart = s.dev.ext ∧ (d.model m).scanLate = false)
          ∧ (crc32c (slice (pkgWeights p) (65536 * i) 65536) ≠ leAt p (leAt p 56 4 + 4 * i) 4 → (d.model m).scanBad = true))
    ∧ (s.dev.bound m = true → (s.dev.model m).scanStart + s.dev.nat Ob.weightScanPeriod * 1000000 ≤ s.dev.ext →
      Runs (.weightScanOverdue m) s fun d => d.model m = { s.dev.model m with scanLate := true } ∧ s.dev.KeepsRegs d []))
  ∧ (∀ (s : State) (e : Fin 8) (i : Infer) (fault : Option (List Bytes)),
    (s.dev.ten.running.find? fun i => i.engine == (e : Nat) && i.canary) = some i →
    Runs (.canaryComplete e fault) s fun d =>
      let outs := (Dev.outputsOf i.pkg (canaryInputs i.pkg) fault).1
      d.ten.running = s.dev.ten.running.erase i
        ∧ if (s.dev.model i.model).canary = some i.seq ∧ (s.dev.model i.model).canaryRun = true then
            (d.model i.model).canary = none
              ∧ (d.model i.model).canaryLast = if ((List.range (pkgOutputs i.pkg)).all fun j =>
                    crc32c (outs.getD j []) == leAt i.pkg (leAt i.pkg 52 4 + 16 + 4 * j) 4)
                  && decide (s.dev.ext ≤ i.seq + s.dev.nat Ob.canaryTimeout * 1000000) then 1 else 2
          else d.model i.model = s.dev.model i.model)

/-- R217, R219-R221, R226, R232: the fallback path, the cupper and the channels. -/
def Obligations.ChannelCommandsRun : Prop :=
  (∀ (s : State) (k : Nat), k = (s.dev.ext - s.dev.nat Ob.fbkPointWait * 1000) / s.dev.fbkNs → s.dev.running = true →
    s.dev.quiesced Isl.fbk = false → s.dev.safe.cycle ≠ some k →
    Runs .fallbackEvaluate s fun d => d.safe.cycle = some k
      ∧ ∀ n, n < 8 → s.dev.nat (Ob.chanState n) ≠ 0 → d.reg (Ob.chanLastDecision n) = (k * s.dev.fbkNs % span48 : Nat))
  ∧ (∀ (s : State) (kind : Fin 2), Runs (.lockstepMismatch kind) s fun d => d.reg Ob.cupperState = 2
    ∧ d.reg Ob.lockstepFaults = wrapTy (keyTy Ob.lockstepFaults) (s.dev.reg Ob.lockstepFaults + 1)
    ∧ d.pins.safeA = false ∧ d.pins.safeB = false
    ∧ ∀ n, n < 8 → s.dev.nat (Ob.chanState n) ≠ 0 → d.reg (Ob.chanState n) = 1)
  ∧ (∀ (s : State) (d1 d2 : Bool), s.dev.reg Ob.cupperState = 2 →
    Runs (.cupResetDone d1 d2) s fun d => d.reg Ob.cupperState = if d1 && d2 && !s.dev.safe.miss then 1 else 3)
  ∧ (∀ (k : Fin 8) (v : Bytes),
    SetRuns (fun hd cond => .channelEnable hd cond k v) {} (0x3610 + k) 1 v (fun d _ n d' =>
      d'.reg (Ob.chanEnable k) = n
        ∧ (n = 0 → d'.reg (Ob.chanState k) = 0 ∧ d'.chan k = {})
        ∧ (n ≠ 0 → d.reg (Ob.chanState k) = 0 → d'.reg (Ob.chanState k) = 1 ∨ d'.reg (Ob.chanState k) = 2))
    ∧ SetRuns (fun hd cond => .policyWrite hd cond k v)
      { state := fun d _ _ => needState (!d.flag (Ob.chanEnable k) && !d.flag Ob.provisionalActive) } (0x3610 + k) 2 v
      (fun d _ n d' => d'.reg (Ob.chanPolicy k) = n ∧ d.KeepsRegs d' [Ob.chanPolicy k])
    ∧ SetRuns (fun hd cond => .channelRestart hd cond k) { state := fun d _ _ => needState (d.reg (Ob.chanState k) == 3) }
      (0x3610 + k) 8 [1]
      (fun d _ _ d' => d'.reg (Ob.chanState k) = (if (d.chan k).last = 1 then 4 else 5) ∧ d.KeepsRegs d' [Ob.chanState k]))
  ∧ BlockRuns .fieldSetWrite (fun k => fieldSetObj (k / 256 % 16)) (fun _ _ b data d' =>
    d'.blob (Ob.fieldSet (b.key / 256 % 16)) = data ∧ d'.reg (Ob.fieldSetValid (b.key / 256 % 16)) = 1
      ∧ d'.reg (Ob.fieldSetCrc (b.key / 256 % 16)) = (leAt data 304 4 : Nat))

/-- R228-R231: the SAFE outputs, their feedback and error injection. -/
def Obligations.SafeOutputCommandsRun : Prop :=
  (∀ (s : State) (out : Fin 2),
    (s.dev.pairOn = true → s.dev.safe.pulse = none →
      Runs (.safeTestPulse out true) s fun d => d.safe.pulse = some (out : Nat)
        ∧ d.pins.safeA = decide (out ≠ 0) ∧ d.pins.safeB = decide (out ≠ 1))
    ∧ (s.dev.pairOn = true → s.dev.safe.pulse = some (out : Nat) →
      Runs (.safeTestPulse out false) s fun d => d.safe.pulse = none ∧ d.pins.safeA = true ∧ d.pins.safeB = true)
    ∧ (∀ level, Runs (.safeFeedbackEdge out level) s fun d => d.fbLevel out = level
      ∧ (level = false → s.dev.outLevel out = true → s.dev.safe.pulse = some (1 - (out : Nat)) →
        d.reg Ob.safeOutputState = 2 ∧ d.pins.safeA = false ∧ d.pins.safeB = false))
    ∧ (s.dev.tl.running = true → s.dev.nat Ob.bootPhase ≠ 6 → s.dev.safe.injecting = false →
      s.dev.fbLevel out ≠ s.dev.outLevel out → s.dev.reg Ob.safeOutputState ≠ 2 →
      s.dev.edgeOld out (s.dev.nat Ob.feedbackDelay * 1000) = true →
      s.dev.edgeOld (2 + out) (s.dev.nat Ob.feedbackDelay * 1000) = true →
      Runs (.feedbackDelayExpiry out) s fun d => d.reg Ob.safeOutputState = 2 ∧ d.pins.safeA = false ∧ d.pins.safeB = false
        ∧ d.reg Ob.safeFaults = wrapTy (keyTy Ob.safeFaults) (s.dev.reg Ob.safeFaults + 1)))
  ∧ SetRuns .safeReset { state := fun d _ _ => needState (d.latched && !d.safe.fbA && !d.safe.fbB) } 0x3600 7 [1]
    (fun _ _ _ d' => d'.reg Ob.safeOutputState ≠ 2)
  ∧ (∀ (s : State) (detected : Nat), s.dev.nat Ob.bootPhase = 6 ∨ s.dev.safe.injecting = true → s.dev.nat Ob.activeBank ≤ 0xFF →
    Runs (.injectionDone detected) s fun d =>
      let r : Nat := detected % 16384 ||| if s.dev.dies = [] then 4 else 0
      d.reg Ob.injectResult = r ∧ d.safe.injecting = false ∧ d.reg Ob.cupperState = (if r = 16383 then 1 else 3)
      ∧ (s.dev.nat Ob.bootPhase = 6 → d.reg Ob.bootPhase = 7))
  ∧ SetRuns .injectRerun { state := fun d _ _ => needState d.noChannel } 0x3600 4 [1]
    (fun _ _ _ d' => d'.safe.injecting = true ∧ d'.reg Ob.cupperState = 0 ∧ d'.pins.safeA = false ∧ d'.pins.safeB = false)

/-- R235-R238, R242, R245: the solver's structures and batches. -/
def Obligations.SolverCommandsRun : Prop :=
  BlockRuns .structureDescriptorWrite (fun k => structObj (k / 256 - 0x3840)) (fun _ _ b data d' =>
    let n := b.key / 256 - 0x3840
    n < 64 → d'.blob (Ob.structDescriptor n) = data
      ∧ ((d'.reg (Ob.structState n) = 1 ∧ d'.reg (Ob.structLoadError n) = 0 ∧ sdFault data = 0 ∧ (d'.struct n).desc = data)
        ∨ (d'.reg (Ob.structState n) = 3 ∧ d'.reg (Ob.structLoadError n) ≠ 0)))
  ∧ (∀ (s : State) (n : Nat) (it : Item) (e : Dev),
    let x := s.dev.flipAll (((List.range 64).filter fun n => s.dev.flipNow (0x3840 + n) none).map fun n => 0x3840 + n) none
    let q := x.nat (Ob.structRequestQueue n)
    s.dev.solFree = true → x.solFree = true → x.nextRequest = some n → x.readQueue q = some (it, e) →
    Runs .solverBatchStart s fun d =>
      let r := ((e.when (e.holdsGen q) fun d => d.genDec it).bump (Ob.structRequests n)).readItem it
      let req := r.1.data
      d.reg (Ob.structLastSubject n) = (rqSubject req : Nat)
        ∧ d.reg (Ob.structRequests n) = wrapTy (keyTy (Ob.structRequests n)) (x.reg (Ob.structRequests n) + 1)
        ∧ if r.2.requestStatus n r.1 req = 0 then
            (∃ t, d.sol.batch = some t ∧ t.s = n ∧ t.req = req ∧ t.at_ = s.dev.now ∧ t.result = x.nat (Ob.structResultQueue n))
              ∧ d.reg (Ob.structSolutionSeq n) = ((x.nat (Ob.structSolutionSeq n) + 1) % 4294967296 : Nat)
          else d.sol.batch = none
            ∧ d.reg (Ob.structRequestsRefused n) = wrapTy (keyTy (Ob.structRequestsRefused n)) (x.reg (Ob.structRequestsRefused n) + 1))
  ∧ (∀ (s : State) (t : Batch), s.dev.sol.batch = some t → t.s < 64 → s.dev.quiesced Isl.sol = false →
    Runs .solverBatchEnd s fun d => d.sol.batch = none ∧ d.reg (Ob.structLastCompletion t.s) = (s.dev.now : Nat)
      ∧ d.reg (Ob.structSolutionSeq t.s) = ((s.dev.nat (Ob.structSolutionSeq t.s) + 1) % 4294967296 : Nat)
      ∧ d.reg Ob.batchesRun = wrapTy (keyTy Ob.batchesRun) (s.dev.reg Ob.batchesRun + 1))

/-- R320, R323-R326, R328: heartbeats, paths and the frames the ports answer, discard or drop. -/
def Obligations.PathCommandsRun : Prop :=
  (∀ s : State, s.dev.ready = true → s.dev.net.hbIdx < s.dev.ext / 1000000 →
    Runs .heartbeatSend s fun d => d.net.hbIdx = s.dev.ext / 1000000
      ∧ ∀ n, n < 16 → s.dev.flag (Ob.peerEnable n) = true → (d.peer n).txSeq = ((s.dev.peer n).txSeq + 1) % 4294967296
        ∧ ∀ p, p < 2 → s.dev.portUp p = true → s.dev.synBusy (p + 5) = false →
          .frame p .heartbeat (s.dev.addressed [(n : Int), s.dev.reg (if p = 0 then Ob.peerIpA n else Ob.peerIpB n), 51732])
            (s.dev.heartbeat n p) false ∈ d.out)
  ∧ (∀ (s : State) (port : Fin 2) (ip : Nat) (b : Bytes) (found : Found), s.dev.ready = true → s.dev.portUp port = true →
    (s.dev.peerOf ip = none → Runs (.heartbeatReceived port ip b found) s fun d => d.net = s.dev.net
      ∧ d.reg Ob.hbUnknown = wrapTy (keyTy Ob.hbUnknown) (s.dev.reg Ob.hbUnknown + 1))
    ∧ (∀ n, s.dev.peerOf ip = some n → found.outcome = .bad ∨ s.dev.heartbeatOk n port ip b = false →
      Runs (.heartbeatReceived port ip b found) s fun d => d.net = s.dev.net)
    ∧ (∀ n, s.dev.peerOf ip = some n → found.outcome ≠ .bad → s.dev.heartbeatOk n port ip b = true →
      (∀ g ∈ ((s.dev.peer n).path port).got.head?, g.1 < leAt b 16 4) →
      Runs (.heartbeatReceived port ip b found) s fun d =>
        let r := (s.dev.peer n).path port
        let run := if (r.got.head?.map fun g => g.1) = some (leAt b 16 4 - 1) ∧ 0 < leAt b 16 4 then r.run + 1 else 1
        ((d.peer n).path port).got.head? = some (leAt b 16 4, s.dev.ext) ∧ (d.peer n).lastAt = s.dev.ext
          ∧ d.reg (Ob.peerLastHbStamp n) = (s.dev.stampIn (Isl.eta + port) : Nat)
          ∧ (s.dev.reg (pathKey n port) = 1 ∨ s.dev.reg (pathKey n port) = 3 → s.dev.nat (Ob.peerRestoreCount n) ≤ run →
            d.reg (pathKey n port) = 2)))
  ∧ (∀ (s : State) (n : Fin 16) (path : Fin 2) (seq : Nat),
    (((s.dev.peer n).path (1 - path)).got.any fun g => g.1 == seq && decide (500000 ≤ s.dev.ago g.2)) = true →
    ((s.dev.peer n).path path).got.any (fun g => g.1 == seq) = false →
    s.dev.reg (pathKey n path) ≠ 0 → s.dev.reg (pathKey n path) ≠ 4 → (∀ m ∈ ((s.dev.peer n).path path).missed, m < seq) →
    Runs (.heartbeatMissingCheck n path seq) s fun d =>
      let r := (s.dev.peer n).path path
      let run := if r.missed = some (seq - 1) ∧ 0 < seq then r.missRun + 1 else 1
      ((d.peer n).path path).missed = some seq
        ∧ (3 ≤ run → s.dev.reg (pathKey n path) = 1 ∨ s.dev.reg (pathKey n path) = 2 → d.reg (pathKey n path) = 3))
  ∧ (∀ (s : State) (n : Fin 16), s.dev.portUp 0 = true → s.dev.portUp 1 = true →
    3500000 ≤ s.dev.ago (s.dev.peer n).lastAt →
    (∀ p, p < 2 → 1 ≤ s.dev.reg (pathKey n p) ∧ s.dev.reg (pathKey n p) ≤ 3) →
    Runs (.partnerSilenceTimeout n) s fun d => d.reg (pathKey n 0) = 4 ∧ d.reg (pathKey n 1) = 4 ∧ d.reg (Ob.peerState n) = 2)
  ∧ (∀ (s : State) (port : Fin 2) (up : Bool), s.dev.reg (Ob.ethLinkState port) ≠ (if up then 1 else 0) →
    s.dev.quiesced (Isl.eta + port) = false → s.dev.nat Ob.bootPhase ≠ 9 →
    Runs (.portLinkChange port up) s fun d => d.reg (Ob.ethLinkState port) = (if up then 1 else 0)
      ∧ (up = false → ∀ n, n < 16 → s.dev.reg (pathKey n port) ≠ 0 → d.reg (pathKey n port) = 3))
  ∧ (∀ (s : State) (port : Fin 2) (mac seq lan : Nat), s.dev.portUp port = true → s.dev.ready = true →
    Runs (.duplicateFrameReceived port mac (some (seq, lan)) false) s fun d =>
      (∃ x ∈ d.net.sources, x.mac = mac ∧ x.last = s.dev.ext ∧ ∃ e ∈ x.seen, e.1 = seq)
        ∧ d.reg Ob.duplicatesDiscarded = (if (s.dev.duplicateDiscard mac seq).2 then s.dev.reg Ob.duplicatesDiscarded
            else wrapTy (keyTy Ob.duplicatesDiscarded) (s.dev.reg Ob.duplicatesDiscarded + 1))
        ∧ (lan ≠ 10 + (port : Nat) → d.reg Ob.wrongLan = wrapTy (keyTy Ob.wrongLan) (s.dev.reg Ob.wrongLan + 1)))
  ∧ (∀ (s : State) (port : Fin 2) (echo : Bool) (ip target : Nat) (b : Bytes), s.dev.portUp port = true → s.dev.ready = true →
    target = s.dev.nat Ob.deviceIp → s.dev.synBusy (port + 5) = false →
    Runs (.arpIcmpEchoRequest port echo ip target b) s fun d =>
      .frame port (if echo then .icmpEchoReply else .arpReply)
        (s.dev.addressed [(ip : Int), s.dev.reg Ob.deviceIp, s.dev.reg Ob.deviceMac]) (if echo then b else []) false ∈ d.out)
  ∧ (∀ (s : State) (port : Fin 2) (len : Option Nat), s.dev.portUp port = true →
    Runs (.pauseOrOversizeFrame port len) s fun d => s.dev.KeepsRegs d []
      ∧ ((∀ n, len = some n → s.dev.nat (Ob.ethMaxFrame port) < n) →
        d.reg (Ob.ethFramesDropped port) = wrapTy (keyTy (Ob.ethFramesDropped port)) (s.dev.reg (Ob.ethFramesDropped port) + 1)))

/-- R329-R333: traffic classes. -/
def Obligations.ClassCommandsRun : Prop :=
  (∀ (s : State) (k : Fin 8),
    ((s.dev.cls k).hold = true → s.dev.nat (Ob.clsHoldTime k) * 1000000 ≤ s.dev.ago (s.dev.cls k).suspectAt →
      Runs (.holdTimeExpiry k) s fun d => d.cls k = { s.dev.cls k with hold := false } ∧ s.dev.KeepsRegs d [])
    ∧ (s.dev.ready = true → s.dev.reg (Ob.clsStandbyHandling k) = 1 → s.dev.standby k = true →
      (s.dev.cls k).swapIdx < s.dev.swapIndex k → (k : Nat) * 125000000 ≤ s.dev.ext →
      Runs (.swapTest k) s fun d =>
        let new := 1 - (s.dev.nat (Ob.clsActivePath k) - 1)
        (d.cls k).swapIdx = s.dev.swapIndex k
          ∧ if s.dev.reg (pathKey (s.dev.nat (Ob.clsPartner k)) new) = 2 then
              d.reg (Ob.clsActivePath k) = (new + 1 : Nat) ∧ d.reg (Ob.clsState k) = 2 ∧ (d.cls k).hold = false
                ∧ ∃ w, (d.cls k).swap = some w ∧ w.at_ = s.dev.ext ∧ w.left = s.dev.nat (Ob.clsActivePath k) - 1 ∧ w.sent = 0
            else s.dev.KeepsRegs d [])
    ∧ (∀ w, (s.dev.cls k).swap = some w → s.dev.nat (Ob.clsSwapVerifyTime k) * 1000000 ≤ s.dev.ago w.at_ →
      Runs (.swapVerifyExpiry k) s fun d => (d.cls k).swap = none
        ∧ if w.sent = 0 then
            d.reg (Ob.clsSwapUnverified k) = wrapTy (keyTy (Ob.clsSwapUnverified k)) (s.dev.reg (Ob.clsSwapUnverified k) + 1)
          else if (kvGet (s.dev.peer (s.dev.nat (Ob.clsPartner k))).told (2 * (k : Nat) + (1 - w.left))).getD 0 = w.base then
            d.reg (Ob.clsActivePath k) = (w.left + 1 : Nat)
              ∧ d.reg (Ob.clsHiddenFaults k) = wrapTy (keyTy (Ob.clsHiddenFaults k)) (s.dev.reg (Ob.clsHiddenFaults k) + 1)
          else s.dev.KeepsRegs d [Ob.clsState k]))
  ∧ (∀ (k : Fin 8) (v : Bytes), SetRuns (fun hd cond => .forceSwitch hd cond k v)
    { state := fun d _ n => needState (d.standby k && d.reg (pathKey (d.nat (Ob.clsPartner k)) (n.toNat - 1)) == 2) }
    (0x5820 + k) 12 v fun d _ n d' =>
      if d.reg (Ob.clsActivePath k) = n then d.KeepsRegs d' []
      else d'.reg (Ob.clsActivePath k) = (n.toNat - 1 + 1 : Nat) ∧ d'.reg (Ob.clsState k) = 0 ∧ (d'.cls k).swap = none
        ∧ d'.reg (Ob.clsLastSwitchStamp k) = (d.stampIn (Isl.eta + (n.toNat - 1)) : Nat))
  ∧ (∀ (s : State) (port : Fin 2), Runs (.serdesRecalDue port) s fun d =>
    if s.dev.reg (Ob.synthState (5 - port)) = 1 then (port : Nat) ∈ d.tu.recalWait ∧ s.dev.KeepsRegs d []
    else d.reg (Ob.synthState (4 + port)) = 1 ∧ s.dev.KeepsRegs d [Ob.synthState (4 + port)])

/-- R247, R249, R251, R252, R256-R258: the ports, their blocks, starts and stops, and the serial ports' clocks. -/
def Obligations.AudioPortCommandsRun : Prop :=
  (∀ (s : State) (p : Fin 32),
    (∀ stamp ratio, s.dev.flag (Ob.portEnable p) = true → s.dev.quiesced Isl.apt = false →
      Runs (.portBlockStamp p stamp ratio) s fun d =>
        (d.port p).last = some stamp ∧ (d.port p).seq = ((s.dev.port p).seq + 1) % 4294967296 ∧ (d.port p).missing = false
          ∧ (d.port p).bad = false ∧ (d.port p).slip = false ∧ (d.port p).realigned = false
          ∧ (s.dev.hasInput p = true → (s.dev.port p).missing = true ∨ s.dev.portStateNow p ≠ 2 →
            d.reg (Ob.portBlocksMissing p) = wrapTy (keyTy (Ob.portBlocksMissing p)) (s.dev.reg (Ob.portBlocksMissing p) + 1)))
    ∧ (s.dev.reg (Ob.portConverterState p) = 1 → s.dev.reg (Ob.portState p) = 2 →
      Runs (.converterSettled p) s fun d => d.reg (Ob.portConverterState p) = 2 ∧ s.dev.KeepsRegs d [Ob.portConverterState p])
    ∧ (∀ measured, s.dev.listening p = true → s.dev.converted p = true →
      Runs (.portRateMismatch p measured) s fun d => d.reg (Ob.portMeasuredRate p) = (measured : Nat)
        ∧ if measured < s.dev.nat (Ob.portRate p) * 990 ∨ s.dev.nat (Ob.portRate p) * 1010 < measured then
            d.reg (Ob.portState p) = 3 ∧ (s.dev.reg (Ob.portState p) ≠ 3 → (d.port p).missing = true)
          else d.reg (Ob.portState p) = if s.dev.reg (Ob.portState p) = 3 then 2 else s.dev.reg (Ob.portState p)))
  ∧ (∀ p : Fin 32,
    (∀ v, SetRuns (fun hd cond => .portEnable hd cond p v) (portConds p) (0x4010 + p) 1 v fun d _ n d' =>
      d'.reg (Ob.portEnable p) = n
        ∧ if d.reg (Ob.portEnable p) = n then d.KeepsRegs d' []
          else if n = 0 then d'.reg (Ob.portState p) = 0 ∧ d'.reg (Ob.portOutputStatus p) = d.stoppedStatus p
          else (d'.reg (Ob.portState p) = 1 ∨ d'.reg (Ob.portState p) = 2)
            ∧ d'.reg (Ob.portConverterState p) = if d.converted p then 1 else 0)
    ∧ SetRuns (fun hd cond => .outputStart hd cond p) (outputConds p) (0x4010 + p) 10 [1] (fun d _ _ d' =>
      (d'.port p).startAt = some (if d.nat (Ob.portOutputStartStamp p) ≠ 0 && after (d.nat (Ob.portOutputStartStamp p)) d.now
        then d.nat (Ob.portOutputStartStamp p) else d.now))
    ∧ SetRuns (fun hd cond => .outputStop hd cond p) {} (0x4010 + p) 11 [1] (fun d _ _ d' =>
      (d'.port p).startAt = none ∧ d'.reg (Ob.portOutputStatus p) = d.stoppedStatus p
        ∧ d.KeepsRegs d' [Ob.portOutputStatus p]))
  ∧ (∀ (s : State) (p : Fin 8), s.dev.listening p = true → s.dev.isTarget p = true →
    Runs (.serialWsSlip p) s (fun d => (d.port p).slip = true ∧ (d.port p).slipped = true
      ∧ d.reg (Ob.portViolations p) = wrapTy (keyTy (Ob.portViolations p)) (s.dev.reg (Ob.portViolations p) + 1))
    ∧ ((s.dev.port p).slipped = true ∨ s.dev.reg (Ob.portState p) = 1 →
      Runs (.serialRelock p) s fun d => d.reg (Ob.portState p) = 2 ∧ d.reg (Ob.portConverterState p) = 1
        ∧ (d.port p).slipped = false ∧ s.dev.KeepsRegs d [Ob.portState p, Ob.portConverterState p])
    ∧ (s.dev.reg (Ob.portState p) ≠ 1 →
      Runs (.serialClockAbsent p) s fun d => d.reg (Ob.portState p) = 1 ∧ (d.port p).missing = true
        ∧ s.dev.KeepsRegs d [Ob.portState p]))

/-- R254-R258: what biphase ports and AES67 streams receive and send. -/
def Obligations.AudioStreamCommandsRun : Prop :=
  (∀ (s : State) (port : Fin 4), s.dev.listening (8 + (port : Nat)) = true →
    (s.dev.reg (Ob.portState (8 + port)) ≠ 1 →
      (∀ coded parityOk validity, Runs (.biphaseFrame port coded parityOk validity) s fun d =>
        if coded then (parityOk = false → (d.port (8 + port)).bad = true)
            ∧ (validity = true → s.dev.reg (Ob.portValidityPolicy (8 + port)) = 1 → (d.port (8 + port)).missing = true)
        else (d.port (8 + port)).missing = true
          ∧ d.reg (Ob.portViolations (8 + port))
            = wrapTy (keyTy (Ob.portViolations (8 + port))) (s.dev.reg (Ob.portViolations (8 + port)) + 1))
      ∧ (∀ status user, status.length = 24 → user.length = 48 →
        Runs (.channelStatusBlock port status user) s fun d => d.blob (Ob.portRxUserData (8 + port)) = user
          ∧ if bit (leAt status 0 1) 0 && leAt status 23 1 != crcc (status.take 23) % 256
            then d.blob (Ob.portRxChannelStatus (8 + port)) = s.dev.blob (Ob.portRxChannelStatus (8 + port))
              ∧ d.reg (Ob.portCrccErrors (8 + port)) = wrapTy (keyTy (Ob.portCrccErrors (8 + port))) (s.dev.reg (Ob.portCrccErrors (8 + port)) + 1)
            else d.blob (Ob.portRxChannelStatus (8 + port)) = status)
      ∧ Runs (.biphaseUnlock port) s (fun d => d.reg (Ob.portState (8 + port)) = 1 ∧ (d.port (8 + port)).missing = true))
    ∧ (s.dev.reg (Ob.portState (8 + port)) = 1 → ∀ offset, Runs (.biphaseReceiverLock port offset) s fun d =>
      d.reg (Ob.portState (8 + port)) = 2 ∧ d.reg (Ob.portConverterState (8 + port)) = 1
        ∧ ((port : Nat) = 0 → s.dev.reg (Ob.refState 5) = 1 → offset.natAbs ≤ s.dev.nat (Ob.refAcceptWindow 5) * 1000 →
          d.reg (Ob.refState 5) = 2 ∧ d.reg (Ob.refMeasuredOffset 5) = offset)))
  ∧ (∀ (s : State) (eth : Fin 2) (stream : Fin 16) (h : RtpHead) (b : Bytes) (found : Found), s.dev.ready = true →
    s.dev.portUp eth = true → s.dev.listening (16 + (stream : Nat)) = true →
    s.dev.portQuarantined (16 + (stream : Nat)) = false →
    Runs (.rtpPacketReceived eth stream h b found) s fun d =>
      let p := 16 + (stream : Nat)
      if h.version ≠ 2 ∨ h.payloadType ≠ s.dev.nat (Ob.portPayloadType p) ∨ b.length ≠ s.dev.packetBytes p then
        d.reg (Ob.portViolations p) = wrapTy (keyTy (Ob.portViolations p)) (s.dev.reg (Ob.portViolations p) + 1)
          ∧ (d.port p).buf = (s.dev.port p).buf
      else if s.dev.rtpLate p (s.dev.rtpMedia p h.stamp) then
        d.reg (Ob.portLatePackets p) = wrapTy (keyTy (Ob.portLatePackets p)) (s.dev.reg (Ob.portLatePackets p) + 1)
      else (d.port p).buf
        = { first := s.dev.rtpMedia p h.stamp, count := s.dev.packetSamples p, bad := decide (found.outcome = .bad) }
          :: (s.dev.port p).buf.filter fun x =>
            decide (s.dev.rtpNow p - s.dev.reg (Ob.portRtpOffset p) < x.first + x.count + 9600))
  ∧ (∀ (s : State) (stream : Fin 16), s.dev.flag (Ob.portEnable (16 + stream)) = true →
    (s.dev.hasOutput (16 + stream) = true → s.dev.reg (Ob.portOutputStatus (16 + stream)) = 2 → s.dev.quiesced Isl.apt = false →
      ∀ first found, Runs (.rtpPacketTransmit stream first found) s fun d =>
        (d.port (16 + stream)).txSeq = ((s.dev.port (16 + stream)).txSeq + 1) % 65536)
    ∧ ((s.dev.port (16 + stream)).offsetGen ≠ s.dev.nat Ob.offsetGeneration →
      Runs (.aes67Realign stream) s fun d => (d.port (16 + stream)).realigned = true
        ∧ (d.port (16 + stream)).offsetGen = s.dev.nat Ob.offsetGeneration ∧ s.dev.KeepsRegs d []))

/-- R251, R264, R266, R268-R271: blocks, host audio, tones, voices, control values and coefficient banks. -/
def Obligations.MixCommandsRun : Prop :=
  (∀ (s : State) (m : Fin 3) (b : DomIn), s.dev.domStateNow m = 2 → s.dev.isl Isl.apt = 0 → s.dev.ready = true →
    Runs (.domainBlock m b) s fun d => (d.dom m).last = some b.stamp
      ∧ (d.dom m).span = ((s.dev.dom m).last.map fun t => (stampDiff b.stamp t).toNat)
      ∧ (d.dom m).count = (s.dev.dom m).count + 32
      ∧ d.reg (Ob.domBlockSeq m) = wrapTy (keyTy (Ob.domBlockSeq m)) (s.dev.reg (Ob.domBlockSeq m) + 1))
  ∧ (∀ (s : State) (x : Fin 384) (it : Item) (e : Dev), s.dev.reg (Ob.stripSourceKind x) = 2 → s.dev.flag (Ob.stripEnable x) = true →
    s.dev.laneUp x = true → s.dev.quiesced Isl.mix = false → s.dev.quiesced Isl.qmg = false →
    s.dev.readQueue (s.dev.nat (Ob.stripSourceSelect x)) = some (it, e) →
    Runs (.hostAudioBlock x) s fun d =>
      let q := s.dev.nat (Ob.stripSourceSelect x)
      let b := ((e.when (e.holdsGen q) fun d => d.genDec it).readItem it).1.data
      let (num, den) := s.dev.domSpan (s.dev.nat (Ob.stripDomain x)) 34
      if leAt b 8 1 > 1 ∨ leAt b 6 2 = 0 ∨ 1024 < leAt b 6 2 ∨ b.length ≠ 16 + leAt b 6 2 * (2 + 2 * leAt b 8 1) then
        d.mix = s.dev.mix
      else if leAt b 0 6 ≠ 0 ∧ stampDiff (leAt b 0 6) it.completion * den < num then
        d.mix = s.dev.mix ∧ d.reg (Ob.stripLateBlocks x) = wrapTy (keyTy (Ob.stripLateBlocks x)) (s.dev.reg (Ob.stripLateBlocks x) + 1)
      else kvGet d.mix.play (playKey x q) = some ((kvGet s.dev.mix.play (playKey x q)).getD []
        ++ [{ start := if leAt b 0 6 = 0 then none else some (leAt b 0 6),
              left := (List.range (leAt b 6 2)).map fun i =>
                if leAt b 8 1 = 0 then signed 16 (leAt b (16 + 2 * i) 2) * 65536 else signed 32 (leAt b (16 + 4 * i) 4) }]))
  ∧ (∀ (s : State) (k : Fin 8) (t : Tone), kvGet s.dev.mix.tones k = some t → s.dev.nat (Ob.toneOnTime k) ≠ 0 →
    s.dev.flag (Ob.toneEnable k) = true → s.dev.quiesced Isl.mix = false →
    (∀ at_, at_ = stampAdd t.at_ ((if t.on then s.dev.nat (Ob.toneOnTime k) else s.dev.nat (Ob.toneOffTime k)) * 1000000 : Nat) →
      atOrAfter s.dev.now at_ = true →
      Runs (.toneCadenceTransition k) s fun d => kvGet d.mix.tones k = some { t with on := !t.on, at_ := at_ }
        ∧ d.mix.ramps.length = s.dev.mix.ramps.length + 1 ∧ s.dev.KeepsRegs d []))
  ∧ (∀ k : Fin 4,
    SetRuns (fun hd cond => .voicePlay hd cond k) (playConds k) (0x4758 + k) 7 [1] (fun d _ _ d' =>
      let m := d.nat (Ob.voiceDomain k)
      let p := d.nat (Ob.voicePlayStamp k)
      let t := if d.reg (Ob.voiceState k) = 0 && p ≠ 0 && after p d.now then p else d.now
      d'.voice k = { startAt := some (d.sampleStamp m (d.sampleAt m t)), first := d.sampleNo m (d.sampleAt m t),
                     len := d.nat (Ob.voiceClipLength k), addr := d.nat (Ob.voiceClipAddress k), wide := d.flag (Ob.voiceClipFormat k) }
        ∧ (t = d.now → d'.reg (Ob.voiceState k) = 1))
    ∧ SetRuns (fun hd cond => .voiceStop hd cond k) {} (0x4758 + k) 8 [1] (fun d _ _ d' =>
      d.KeepsRegs d' [] ∧ if d.reg (Ob.voiceState k) = 0 then d'.voice k = {}
        else (d'.voice k).fade.isSome = true ∧ d'.mix.ramps.length = d.mix.ramps.length + 1))
  ∧ (∀ (s : State) (k : Fin 4) (t : Nat), (s.dev.voice k).startAt = some t → (s.dev.voice k).done = false →
    s.dev.reg (Ob.voiceState k) = 1 →
    (∀ end_, (let (num, den) := s.dev.domSpan (s.dev.nat (Ob.voiceDomain k)) (s.dev.voice k).len
        end_ = stampAdd t (roundDiv num den)) → atOrAfter s.dev.now end_ = true →
      Runs (.voiceClipEnd k) s fun d =>
        if s.dev.flag (Ob.voiceLoop k) then
          d.voice k = { s.dev.voice k with startAt := some end_, first := (s.dev.voice k).first + (s.dev.voice k).len }
        else d.voice k = { s.dev.voice k with done := true } ∧ d.reg (Ob.voiceState k) = 0))
  ∧ (∀ (s : State) (c : Fin 16) (it : Item) (e : Dev), s.dev.nat (Ob.bindControlQueue c) ≠ 0xFFFF → s.dev.quiesced Isl.mix = false →
    s.dev.quiesced Isl.qmg = false → s.dev.readQueue (s.dev.nat (Ob.bindControlQueue c)) = some (it, e) →
    Runs (.controlItem c) s fun d =>
      let k := s.dev.nat (Ob.bindTarget c)
      ((s.dev.nat (Ob.bindMaxAge c) * 1000 : Nat) < stampDiff it.completion it.subject →
        d.reg (Ob.bindDiscarded c) = wrapTy (keyTy (Ob.bindDiscarded c)) (s.dev.reg (Ob.bindDiscarded c) + 1) ∧ d.mix = s.dev.mix)
      ∧ ∀ v, stampDiff it.completion it.subject ≤ (s.dev.nat (Ob.bindMaxAge c) * 1000 : Nat) →
        (∀ t ∈ kvGet s.dev.mix.applied c, after t it.subject = false) → bindTargetOk k = true →
        s.dev.unitAbsent (k / 256) (k % 256) = false →
        (s.dev.controlValue c ((e.when (e.holdsGen (s.dev.nat (Ob.bindControlQueue c))) fun d => d.genDec it).readItem it).1.data).bind
          (s.dev.controlApplies c k) = some v →
        kvGet d.mix.applied c = some it.subject
          ∧ (kvGet s.dev.mix.poured k = none → mixKind k ≠ some 2 → d.reg k = v
            ∧ d.reg (Ob.bindApplied c) = wrapTy (keyTy (Ob.bindApplied c)) (s.dev.reg (Ob.bindApplied c) + 1)))
  ∧ BlockRuns .bfBankWrite bankObj (fun e _ b data d' => d'.blob b.key = data ∧ d'.mix = e.mix)

/-- R280, R281, R285, R287: Start, Stop, FaultClear, SafeValue and the end of settling of the analog channels. -/
def Obligations.AnalogCommandsRun : Prop :=
  (∀ ch : Fin 12,
    SetRuns (fun hd cond => .analogStart hd cond ch) (anaStartConds ch) (anaIndex ch) (if (ch : Nat) < 4 then 3 else 2) [1]
      (fun d _ _ d' =>
        if (ch : Nat) < 4 ∧ d.dacWaits ch = true then d.KeepsRegs d' []
        else if (ch : Nat) < 4 ∧ d.synBusy 4 = true then
          d'.isHeld (.dac ch) = true ∧ d'.reg (Ob.dacStatus ch) = 1 ∧ d.KeepsRegs d' [Ob.dacStatus ch]
        else d'.reg (anaState ch) = 1
          ∧ kvGet d'.ana.settleAt ch = some (if (ch : Nat) < 4 then d.ext else d.carrierStart)
          ∧ (d.safe.injecting = false → d'.analogCode ch = d.drivenCode ch)
          ∧ ((ch : Nat) < 4 → d'.reg (Ob.dacStatus ch) = 2)
          ∧ d.KeepsRegs d' (anaState ch :: if (ch : Nat) < 4 then [Ob.dacStatus ch] else []))
    ∧ SetRuns (fun hd cond => .analogStop hd cond ch) {} (anaIndex ch) (if (ch : Nat) < 4 then 4 else 3) [1] (fun d _ _ d' =>
      if d.dacWaits ch = true then d'.dacWaits ch = false ∧ d'.reg (Ob.dacStatus ch) = 4 ∧ d.KeepsRegs d' [Ob.dacStatus ch]
      else if d.reg (anaState ch) = 1 ∨ d.reg (anaState ch) = 2 then
        d'.reg (anaState ch) = 0 ∧ d'.analogCode ch = (if d.flag Ob.safeRecordValid then d.flashVal (safeKey ch) else 0)
          ∧ ((ch : Nat) < 4 → d'.reg (Ob.dacStatus ch) = 0)
      else d.KeepsRegs d' [] ∧ d'.analogOut = d.analogOut)
    ∧ SetRuns (fun hd cond => .faultClear hd cond ch) { state := fun d _ _ => needState (d.reg (anaState ch) == 3) } (anaIndex ch) 0x13 [1]
      (fun d _ _ d' => d'.reg (anaState ch) = 0 ∧ d.KeepsRegs d' [anaState ch] ∧ d'.analogOut = d.analogOut)
    ∧ (∀ v, SetRuns (fun hd cond => .safeValueWrite hd cond ch v) {} (anaIndex ch) (if (ch : Nat) < 4 then 6 else 4) v
      (fun d _ n d' => d'.reg (safeKey ch) = n ∧ d.KeepsRegs d' [safeKey ch] ∧ d'.analogOut = d.analogOut
        ∧ ∃ c, d'.dict.commits.getLast? = some c ∧ c.vals = [(safeKey ch, n)])))
  ∧ (∀ (s : State) (ch : Fin 12),
    (s.dev.reg (anaState ch) = 1 → s.dev.nat (anaKey ch 0x10) * 1000000 ≤ s.dev.ago ((kvGet s.dev.ana.settleAt ch).getD 0) →
      Runs (.settleTimeExpiry ch) s fun d => d.reg (anaState ch) = 2 ∧ kvGet d.ana.settleAt ch = none
        ∧ s.dev.KeepsRegs d [anaState ch] ∧ d.analogOut = s.dev.analogOut)
    ∧ (s.dev.reg (anaState ch) ≠ 1 ∨ s.dev.ago ((kvGet s.dev.ana.settleAt ch).getD 0) < s.dev.nat (anaKey ch 0x10) * 1000000 →
      Runs (.settleTimeExpiry ch) s fun d => d.ana = s.dev.ana ∧ s.dev.KeepsRegs d [] ∧ d.analogOut = s.dev.analogOut))

/-- R282-R286: a read-back window sets the means, judges each channel in RUN and the four rails. The expected means of a DAC fed
by a route are free values within its codes (log 37). -/
def Obligations.ReadbackCommandsRun : Prop :=
  ∀ (s : State) (means devs : List Nat) (rails : List Bool), s.dev.windowDue = true →
    let idx := s.dev.ext / (Nat.max 1 (s.dev.nat Ob.readbackWindow) * 1000)
    let x := s.dev.onAna fun a => { a with winIdx := idx }
    Runs (.readbackWindowEnd means devs rails) s (fun d => d.ana.winIdx = idx
      ∧ (∀ i, i < 16 → d.reg (Ob.adcMean i) = (means.getD i 0 : Nat))
      ∧ (∀ i, i < 4 → rails.getD i true = true → 2 ≤ (kvGet s.dev.ana.railIn (12 + i)).getD 0 → 12 + i ∉ d.ana.railBad)
      ∧ (∀ i, i < 4 → rails.getD i true = false → 2 ≤ (kvGet s.dev.ana.railOut (12 + i)).getD 0 → 12 + i ∉ s.dev.ana.railBad →
        12 + i ∈ d.ana.railBad ∧ ∀ ch, ch < 12 → d.reg (anaState ch) = 0 ∨ d.reg (anaState ch) = 3
          ∨ d.reg (anaState ch) = s.dev.reg (anaState ch) ∧ s.dev.reg (anaState ch) ≠ 1 ∧ s.dev.reg (anaState ch) ≠ 2)
      ∧ ∀ (ch : Nat) (e1 : Int) (e2 : Option Int), ch < 12 → s.dev.reg (anaState ch) = 2 → s.dev.safe.injecting = false →
        x.expected ch = some (e1, e2) →
        let m1 := means.getD (s.dev.monInput ch) 0
        let fails : Prop := (s.dev.tolerance ch : Int) < ((m1 - e1).natAbs : Int)
          ∨ ∃ e, e2 = some e ∧ (s.dev.tolerance ch : Int) < ((devs.getD (s.dev.monInput ch) 0 - e).natAbs : Int)
        let n := (kvGet s.dev.ana.fails ch).getD 0 + 1
        (fails → s.dev.nat (anaKey ch 0x11) ≤ n → d.reg (anaState ch) = 3
          ∧ d.analogCode ch = (if s.dev.flag Ob.safeRecordValid then s.dev.flashVal (safeKey ch) else 0)
          ∧ d.reg (anaKey ch 0x15) = wrapTy (keyTy (anaKey ch 0x15)) (s.dev.reg (anaKey ch 0x15) + 1))
        ∧ (fails → n < s.dev.nat (anaKey ch 0x11) → kvGet d.ana.fails ch = some n)
        ∧ (¬ fails → kvGet d.ana.fails ch = none))

/-- R288-R291: the beacon receivers. -/
def Obligations.BeaconCommandsRun : Prop :=
  ∀ (s : State) (b : Fin 2), s.dev.beaconOn b = true →
    (s.dev.reg (Ob.beaconState b) = 1 ∨ s.dev.reg (Ob.beaconState b) = 2 →
      (∀ start frame amplitude ambient, (∀ t ∈ kvGet s.dev.ana.resyncAt b, t ≤ s.dev.extAt start) → bits frame 31 24 = 0xD4 →
        Runs (.beaconFrame b start frame amplitude ambient) s fun d =>
          d.reg (Ob.beaconLastFrameStamp b) = (start : Nat) ∧ d.reg (Ob.beaconState b) = 1
            ∧ d.reg (Ob.beaconAmbientNow b) = (ambient % 65536 : Nat)
            ∧ if beaconCrc (bits frame 23 8) = bits frame 7 0
              then d.reg (Ob.beaconFramesGood b) = wrapTy (keyTy (Ob.beaconFramesGood b)) (s.dev.reg (Ob.beaconFramesGood b) + 1)
              else d.reg (Ob.beaconFramesBad b) = wrapTy (keyTy (Ob.beaconFramesBad b)) (s.dev.reg (Ob.beaconFramesBad b) + 1))
      ∧ (∀ inFrame, Runs (.beaconViolation b inFrame) s fun d => d.reg (Ob.beaconState b) = 4
        ∧ d.reg (Ob.beaconViolationAborts b) = if inFrame
            then wrapTy (keyTy (Ob.beaconViolationAborts b)) (s.dev.reg (Ob.beaconViolationAborts b) + 1)
            else s.dev.reg (Ob.beaconViolationAborts b)))
    ∧ (∀ onset ambient inFrame, s.dev.reg (Ob.beaconState b) ≠ 3 →
      Runs (.beaconFlood b onset ambient inFrame) s fun d => d.reg (Ob.beaconState b) = 3
        ∧ d.reg (Ob.beaconAmbientNow b) = (ambient % 65536 : Nat)
        ∧ s.dev.KeepsRegs d [Ob.beaconState b, Ob.beaconAmbientNow b, Ob.beaconFloodAborts b])
    ∧ (s.dev.reg (Ob.beaconState b) = 3 → Runs (.beaconFloodEnd b) s fun d => d.reg (Ob.beaconState b) = 4
      ∧ s.dev.KeepsRegs d [Ob.beaconState b])
    ∧ (s.dev.reg (Ob.beaconState b) = 4 → 2000000 ≤ s.dev.ago ((kvGet s.dev.ana.cleanFrom b).getD 0) →
      Runs (.beaconResync b) s fun d => d.reg (Ob.beaconState b) = 1
      ∧ kvGet d.ana.resyncAt b = some s.dev.ext ∧ s.dev.KeepsRegs d [Ob.beaconState b])

/-- R304-R308, R312-R317: queues and their rings. -/
def Obligations.QueueCommandsRun : Prop :=
  (∀ (s : State) (q : Fin 4096) (it : Item) (found : Found) (e : Dev), s.dev.quiesced Isl.qmg = false →
    e = s.dev.handover (if it.payKind = 1 then 8 else s.dev.recordPoint q) 15 it.srcKind it.srcNum found →
    (∀ x f, e.slotPolicy (it.flag found.outcome) = (some x, f) → s.dev.qreg Ob.qEnable q ≠ 0 →
      e.fullFor q (e.q q).items x = false →
      Runs (.itemEnqueue q it found) s fun d => (d.q q).items = (e.q q).items ++ [{ x with completion := s.dev.stampIn Isl.qmg }]
        ∧ d.reg (inst Ob.qEnqueued q) = wrapTy (keyTy (inst Ob.qEnqueued q)) (e.reg (inst Ob.qEnqueued q) + 1))
    ∧ (∀ x f, e.slotPolicy (it.flag found.outcome) = (some x, f) → s.dev.qreg Ob.qEnable q = 0 →
      Runs (.itemEnqueue q it found) s fun d => (d.q q).items = (e.q q).items
        ∧ d.reg (inst Ob.qDropped q) = wrapTy (keyTy (inst Ob.qDropped q)) (e.reg (inst Ob.qDropped q) + 1))
    ∧ (∀ f, e.slotPolicy (it.flag found.outcome) = (none, f) →
      Runs (.itemEnqueue q it found) s fun d => d.queues = e.queues
        ∧ d.reg (Ob.slotItemsDropped it.srcNum) = wrapTy (keyTy (Ob.slotItemsDropped it.srcNum)) (e.reg (Ob.slotItemsDropped it.srcNum) + 1)))
  ∧ (∀ (s : State) (q : Fin 4096) (p : Nat) (it : Item) (e : Dev) (record payload dma : Found), s.dev.ringOwner q 1 = some p →
    ring32 (s.dev.q q).prod (s.dev.q q).cons < s.dev.qreg Ob.qRingSlots q → s.dev.dequeue q = some (it, e) →
    Runs (.deliverySlotWrite q record payload dma) s fun d =>
      (d.q q).prod = (if record.outcome = .bad then (s.dev.q q).prod else ((s.dev.q q).prod + 1) % 4294967296)
        ∧ (d.q q).cons = (s.dev.q q).cons)
  ∧ (∀ (s : State) (fn : Fin 4) (q : Fin 4096) (p v : Nat), s.dev.BarMay fn p → s.dev.quiesced Isl.qmg = false →
    s.dev.ownPage p q = true →
    (s.dev.qreg Ob.qRole q = 1 → Runs (.deliveryConsWrite fn q v) s fun d =>
      (d.q q).cons = (if consOk (s.dev.q q) (v % 4294967296) then v % 4294967296 else (s.dev.q q).cons)
        ∧ (d.q q).prod = (s.dev.q q).prod)
    ∧ (s.dev.qreg Ob.qRole q = 2 → Runs (.submissionDoorbell fn q v) s fun d =>
      (d.q q).prod = (if prodOk (s.dev.q q) (s.dev.qreg Ob.qRingSlots q) (v % 4294967296) then v % 4294967296 else (s.dev.q q).prod)
        ∧ (d.q q).cons = (s.dev.q q).cons))
  ∧ (∀ (s : State) (q : Fin 4096) (p : Nat) (slot : Bytes) (dram : Found), s.dev.ringOwner q 2 = some p →
    (s.dev.q q).prod ≠ (s.dev.q q).cons → s.dev.quarantinedId (partnerId 1 p) = false →
    Runs (.submissionFetch q slot dram) s fun d =>
      let slot := if s.dev.nat (Ob.partAttachKind p) = 1
        then memRead s.dev.mem (s.dev.slotAddr p q (s.dev.q q).cons) (s.dev.qreg Ob.qSlotSize q) else slot
      if s.dev.slotBad p q slot = false ∧ s.dev.fullFor q (s.dev.q q).items (slotItem slot p (s.dev.stampIn Isl.qmg)) = true
      then d.q q = s.dev.q q else (d.q q).cons = ((s.dev.q q).cons + 1) % 4294967296 ∧ (d.q q).prod = (s.dev.q q).prod)
  ∧ (∀ (s : State) (q : Fin 4096) (p : Nat), s.dev.ringOwner q (s.dev.qreg Ob.qRole q) = some p → s.dev.nat (Ob.partAttachKind p) = 1 →
    (s.dev.qreg Ob.qRole q = 1 → Runs (.virekRingPoll q) s fun d =>
      let v := leNat (memRead s.dev.mem (s.dev.ringBase p q + 4) 4)
      (d.q q).cons = if consOk (s.dev.q q) v then v else (s.dev.q q).cons)
    ∧ (s.dev.qreg Ob.qRole q = 2 → Runs (.virekRingPoll q) s fun d =>
      let v := leNat (memRead s.dev.mem (s.dev.ringBase p q) 4)
      (d.q q).prod = if prodOk (s.dev.q q) (s.dev.qreg Ob.qRingSlots q) v then v else (s.dev.q q).prod))
  ∧ (∀ (s : State) (q : Fin 4096), s.dev.quiesced Isl.qmg = false → s.dev.qreg Ob.qStaleTime q ≠ 0 → (s.dev.q q).items ≠ [] →
    (s.dev.q q).stale = false → s.dev.qreg Ob.qStaleTime q * 1000 ≤ s.dev.ago (s.dev.q q).since →
    Runs (.staleTimeExpiry q) s fun d => (d.q q).stale = true
      ∧ d.reg (inst Ob.qStaleNotices q) = wrapTy (keyTy (inst Ob.qStaleNotices q)) (s.dev.reg (inst Ob.qStaleNotices q) + 1))
  ∧ SetRuns .queueEnable queueEnableConds 0x5002 2 [1] (fun d se _ d' => d'.qreg Ob.qEnable (d.selQueue se.id) = 1)
  ∧ SetRuns .queueDisable queueEnableConds 0x5002 2 [0] (fun d se _ d' => d'.qreg Ob.qEnable (d.selQueue se.id) = 0
      ∧ (d.qreg Ob.qEnable (d.selQueue se.id) ≠ 0 → (d'.q (d.selQueue se.id)).items = []))

/-- R299-R301, R303: the mailbox page, BAR0 and BAR2. -/
def Obligations.HostPortCommandsRun : Prop :=
  (∀ (s : State) (fn : Fin 4) (p v : Nat), s.dev.BarMay fn p →
    Runs (.mailboxDoorbell fn 0x18 v) s (fun d => d.mailbox p =
      if ring32 v (s.dev.mailbox p).reqCons ≤ (s.dev.mailbox p).slots
          ∧ ring32 (s.dev.mailbox p).reqProd (s.dev.mailbox p).reqCons ≤ ring32 v (s.dev.mailbox p).reqCons
      then { s.dev.mailbox p with reqProd := v, reqCons := v } else s.dev.mailbox p)
    ∧ Runs (.mailboxDoorbell fn 0 v) s (fun d => d.mailbox p = { s.dev.mailbox p with reqBase := v })
    ∧ Runs (.mailboxDoorbell fn 8 v) s (fun d => d.mailbox p = { s.dev.mailbox p with ansBase := v })
    ∧ Runs (.ansConsWrite fn v) s (fun d => (d.mailbox p).ansCons =
      if ring32 v (s.dev.mailbox p).ansCons ≤ ring32 (s.dev.mailbox p).ansProd (s.dev.mailbox p).ansCons then v % 4294967296
      else (s.dev.mailbox p).ansCons)
    ∧ (∀ off len, barShape off len = false ∨ s.dev.barOutside p off = true →
      Runs (.bar0InvalidAccess fn off len true) s fun d => d.mem = s.dev.mem ∧ d.fences = s.dev.fences ∧ d.mbox = s.dev.mbox)
    ∧ (∀ off len data poisoned, Runs (.bar2Access fn off len (some data) poisoned) s fun d =>
      d.mem = if s.dev.inDramWindow p (s.dev.nat (Ob.partApertureBase p) + off) data.length [5]
        then memWrite s.dev.mem (s.dev.nat (Ob.partApertureBase p) + off) data else s.dev.mem))
  ∧ (∀ (s : State) (fn : Fin 4) (p off : Nat), s.dev.pins.perst = true → s.dev.partOf (.mailbox fn) = some p →
    s.dev.serving = true →
    (∀ wide, barShape off (if wide then 8 else 4) = true → s.dev.barOutside p off = false →
      Runs (.bar0HighLatchRead fn off wide) s fun d =>
        if wide then .barRead fn (s.dev.barValue fn p off) ∈ d.out
        else if wideReg off then .barRead fn (s.dev.barValue fn p off % 4294967296) ∈ d.out
          ∧ kvGet d.barLatch fn = some (off, s.dev.barValue fn p off / 4294967296)
        else ∀ lo h, kvGet s.dev.barLatch fn = some (lo, h) → off = lo + 4 → wideReg lo = true →
          .barRead fn h ∈ d.out ∧ kvGet d.barLatch fn = none)
    ∧ (∀ len, barShape off len = false ∨ s.dev.barOutside p off = true →
      Runs (.bar0InvalidAccess fn off len false) s fun d => .barRead fn 0 ∈ d.out)
    ∧ (∀ len poisoned, Runs (.bar2Access fn off len none poisoned) s fun d =>
      let a := s.dev.nat (Ob.partApertureBase p) + off
      d.mem = s.dev.mem
        ∧ .barBytes fn (if (s.dev.inDramWindow p a len [4] || s.dev.published p a len) && !poisoned then memRead s.dev.mem a len
            else List.replicate len 255) ∈ d.out))

/-- R336-R338, R340, R341, R345-R349: the packets of Virek peers. -/
def Obligations.VirekPacketsRun : Prop :=
  (∀ (s : State) (h : VirekHdr) (data : Bytes), s.dev.VirekMay h.port h.srcIp h.srcPort →
    (data.length ≠ 24 ∨ h.length ≠ 24 → Runs (.virekConnect h data) s fun d => d.virek = s.dev.virek
      ∧ d.reg Ob.virekBadPackets = wrapTy (keyTy Ob.virekBadPackets) (s.dev.reg Ob.virekBadPackets + 1))
    ∧ (data.length = 24 → h.length = 24 → s.dev.quiesced Isl.ctl = false →
      Runs (.virekConnect h data) s fun d =>
        let p := leAt data 0 1
        if s.dev.connectAuth h data = true ∧ (s.dev.virek.conns.filter fun e => e.2.part == p).length < s.dev.nat (Ob.vpMaxConnections p) then
          ∀ slot, ((List.range 256).find? fun i => (s.dev.conn i).isNone) = some slot →
            ∃ c, d.conn slot = some c ∧ c.id = slot + 256 * s.dev.epoch slot ∧ c.part = p ∧ c.ip = h.srcIp ∧ c.port = h.srcPort
              ∧ c.granted = Nat.max 65536 (Nat.min (leAt data 4 4) (s.dev.nat (Ob.vpMaxWindow p))) ∧ c.credit = leAt data 8 4
        else d.virek = s.dev.virek))
  ∧ (∀ (s : State) (port : Fin 2) (ip srcPort op : Nat), s.dev.VirekMay port ip srcPort →
    Runs (.virekPacketInvalid port ip srcPort op) s fun d => d.virek = s.dev.virek
      ∧ d.reg Ob.virekBadPackets = wrapTy (keyTy Ob.virekBadPackets) (s.dev.reg Ob.virekBadPackets + 1))
  ∧ (∀ (s : State) (h : VirekHdr) (c : Conn), s.dev.VirekArrives h c →
    Runs (.virekAck h) s (fun d => ∃ c', d.conn (h.conn % 256) = some c' ∧ c'.credit = h.credit ∧ c'.lastRx = s.dev.ext
      ∧ (0 < psnDiff h.ack c.txAck → psnDiff h.ack c.txPsn ≤ 0 → c'.txAck = h.ack))
    ∧ Runs (.virekPing h) s (fun d => ∃ c', d.conn (h.conn % 256) = some c' ∧ c'.credit = h.credit ∧ c'.lastRx = s.dev.ext)
    ∧ Runs (.virekNak h) s (fun d => ∃ c', d.conn (h.conn % 256) = some c' ∧ c'.credit = h.credit ∧ c'.lastRx = s.dev.ext
      ∧ (h.status = 1 → c.state ≠ 3 → psnDiff h.ack c.txAck ≤ 0 → c.sent ≠ [] → c'.retries = c.retries + 1))
    ∧ (psnDiff h.psn c.rxExp = 0 →
      Runs (.virekDisconnect h) s (fun d => d.conn (h.conn % 256) = none
        ∧ d.epoch (h.conn % 256) = (s.dev.epoch (h.conn % 256) + 1) % 256)
      ∧ Runs (.virekQuiesce h) s (fun d => ∃ c', d.conn (h.conn % 256) = some c' ∧ c'.state = 3
        ∧ c'.rxExp = (c.rxExp + 1) % 4294967296
        ∧ c'.until_ = s.dev.ext + Nat.min h.length (s.dev.nat Ob.virekQuiesceHoldMax) * 1000000)
      ∧ (∀ w bad, s.dev.VirekPasses h c 0x10 w → Runs (.virekRead h bad) s fun d =>
        (∃ c', d.conn (h.conn % 256) = some c' ∧ c'.rxExp = (c.rxExp + 1) % 4294967296)
          ∧ d.reg (Ob.winOps w) = wrapTy (keyTy (Ob.winOps w)) (s.dev.reg (Ob.winOps w) + 1))
      ∧ (∀ w, s.dev.VirekPasses h c 0x14 w → Runs (.virekFenceAdd h) s fun d =>
        (∃ c', d.conn (h.conn % 256) = some c' ∧ c'.rxExp = (c.rxExp + 1) % 4294967296)
          ∧ d.reg (Ob.winOps w) = wrapTy (keyTy (Ob.winOps w)) (s.dev.reg (Ob.winOps w) + 1)
          ∧ (c.pend = [] → (d.fence h.fence).value = Nat.min ((s.dev.fence h.fence).value + h.value) 18446744073709551615))
      ∧ (∀ w data (found : Found), data.length = h.length → data.length ≤ s.dev.segmentSize → found.outcome ≠ .bad →
        found.outcome ≠ .unproven →
        (s.dev.VirekPasses h c 0x12 w → Runs (.virekWrite h data found) s fun d =>
          ∃ c', d.conn (h.conn % 256) = some c' ∧ c'.rxExp = (c.rxExp + 1) % 4294967296
            ∧ c'.pend = c.pend ++ [{ addr := (s.dev.winSpan w).1 + h.offset, data := data }])
        ∧ (s.dev.VirekPasses h c 0x13 w → Runs (.virekWriteFence h data found) s fun d =>
          ∃ c', d.conn (h.conn % 256) = some c' ∧ c'.rxExp = (c.rxExp + 1) % 4294967296
            ∧ c'.pend = c.pend ++ [{ addr := (s.dev.winSpan w).1 + h.offset, data := data,
                                     fence := if h.last then some (h.fence, h.value) else none }]))))

/-- R340, R341, R343, R344, R346-R348: the timers of connections, their end, and windows. -/
def Obligations.VirekCommandsRun : Prop :=
  (∀ (s : State) (slot : Fin 256) (c : Conn), s.dev.conn slot = some c →
    (∀ w ws, c.pend = w :: ws → s.dev.quiesced Isl.drc = false → (w.fence.isSome = true → s.dev.quiesced Isl.tmg = false) →
      Runs (.virekWriteCommitted slot) s fun d => d.conn slot = some { c with pend := ws }
        ∧ (w.fence = none → d.mem = memWrite s.dev.mem w.addr w.data)
        ∧ (∀ f v, w.fence = some (f, v) → (s.dev.fence f).value < v → (d.fence f).value = v))
    ∧ (∀ t, c.ackSince = some t → s.dev.nat Ob.virekAckDelay * 1000 ≤ s.dev.ago t →
      Runs (.virekAckDelayExpiry slot) s fun d => d.conn slot = some { c with ackCount := 0, ackSince := none })
    ∧ (c.state ≠ 3 → c.sent ≠ [] → c.rto * 1000 ≤ s.dev.ago c.rtoAt →
      Runs (.virekRtoExpiry slot) s fun d =>
        if s.dev.nat Ob.virekRetryLimit ≤ c.retries then d.conn slot = none
        else ∃ c', d.conn slot = some c' ∧ c'.retries = c.retries + 1 ∧ c'.rto = Nat.min (2 * c.rto) (s.dev.nat Ob.virekRtoMax)
          ∧ c'.rtoAt = s.dev.ext ∧ c'.sent = c.sent)
    ∧ (c.state ≠ 3 → s.dev.nat Ob.virekRetryLimit ≤ c.retries
        ∨ s.dev.nat Ob.virekPeerTimeout * 1000000 ≤ s.dev.ago c.lastRx →
      Runs (.virekPeerTimeout slot) s fun d => d.conn slot = none ∧ d.epoch slot = (s.dev.epoch slot + 1) % 256)
    ∧ (∀ t, c.state = 1 → c.stallSince = some t → s.dev.nat Ob.virekCreditStallTime * 1000000 ≤ s.dev.ago t →
      Runs (.virekCreditStall slot) s fun d => d.conn slot = some { c with state := 2, pingAt := s.dev.ext })
    ∧ (c.state = 2 → 1000000 ≤ s.dev.ago c.pingAt →
      Runs (.virekStallPing slot) s fun d => d.conn slot = some { c with pingAt := s.dev.ext, ackCount := 0, ackSince := none })
    ∧ (c.state = 3 → c.until_ ≤ s.dev.ext →
      Runs (.virekQuiesceHoldExpiry slot) s fun d => d.conn slot = none))
  ∧ SetRuns .connectionClose connCloseConds 0x5A21 15 [1] (fun d se _ d' => d'.conn (d.selConn se.id) = none)
  ∧ (∀ w : Fin 64,
    SetRuns (fun hd cond => .windowRegister hd cond w) (registerConds w) (0x5A40 + w) 8 [1] (fun _ _ _ d' =>
      d'.reg (Ob.winState w) = 1 ∧ d'.reg (Ob.winKey w) ≠ 0)
    ∧ SetRuns (fun hd cond => .windowRevoke hd cond w) {} (0x5A40 + w) 9 [1] (fun d _ _ d' =>
      d'.reg (Ob.winState w) = 2
        ∧ (d.reg (Ob.winState w) = 1 → d'.virek.grace.head? = some (d.nat (Ob.winKey w), d.ext))))

/-- R373, R376, R377, R379-R383: the power states and the power cap. -/
def Obligations.PowerStateCommandsRun : Prop :=
  (∀ (s : State) (st : Fin 5) (taken : Nat), s.dev.ready = true → s.dev.pow.exiting = false →
    (∀ i, i < 25 → s.dev.isl (i + 1) < 2 ∨ 4 < s.dev.isl (i + 1)) →
    taken ≤ entryNs st → s.dev.deepest taken = st → s.dev.nat Ob.powerState < st →
    Runs (.powerStateEntry st taken) s fun d => d.reg Ob.powerState = (st : Nat) ∧ d.reg Ob.lastStateChange = (s.dev.now : Nat)
      ∧ ∀ i ∈ stops st, s.dev.isl i = 0 → d.isl i = 1)
  ∧ (∀ (s : State) (island : Fin 25), s.dev.isl ((island : Nat) + 1) = 1 → s.dev.pow.exiting = false →
    Runs (.demandWake island) s fun d => d.reg Ob.demandWakes = wrapTy (keyTy Ob.demandWakes) (s.dev.reg Ob.demandWakes + 1)
      ∧ (s.dev.nat Ob.powerState ≠ 0 → d.pow.exiting = true) ∧ s.dev.KeepsRegs d [Ob.demandWakes])
  ∧ (∀ (s : State) (t : Nat), s.dev.nextDeadline = some t → s.dev.nat Ob.powerState ≠ 0 → s.dev.pow.exiting = false →
    stampDiff t s.dev.now ≤ (exitNs (s.dev.nat Ob.powerState) : Int) →
    Runs .earlyWake s fun d => d.reg Ob.earlyWakes = wrapTy (keyTy Ob.earlyWakes) (s.dev.reg Ob.earlyWakes + 1)
      ∧ d.pow.exiting = true ∧ s.dev.KeepsRegs d [Ob.earlyWakes])
  ∧ (∀ s : State, s.dev.pow.exiting = true →
    Runs .powerStateExitDone s fun d => d.reg Ob.powerState = 0 ∧ d.pow.exiting = false
      ∧ d.reg Ob.lastStateChange = (s.dev.now : Nat) ∧ ∀ i, i < 25 →
        d.isl (i + 1) = if s.dev.isl (i + 1) = 1 then 0 else s.dev.isl (i + 1))
  ∧ (∀ v, SetRuns (fun hd cond => .wakeToleranceWrite hd cond none v) {} 0x1400 2 v fun d _ n d' =>
    d'.reg Ob.powerStateLimit = n ∧ d.KeepsRegs d' [Ob.powerStateLimit]
      ∧ (n.toNat < d.nat Ob.powerState → d'.pow.exiting = true))
  ∧ (∀ (p : Fin 8) (v : Bytes), SetRuns (fun hd cond => .wakeToleranceWrite hd cond (some p) v) {} (0x1401 + p) 1 v fun d _ n d' =>
    d'.reg (Ob.wakeTolerance p) = n ∧ d.KeepsRegs d' [Ob.wakeTolerance p])
  ∧ (∀ (s : State) (avg : Nat), Runs (.powerCapWindow avg) s fun d =>
    let b := s.dev.nat Ob.engineBudget
    d.reg Ob.inputPower = (Nat.min avg 4294967295 : Nat) ∧ s.dev.KeepsRegs d [Ob.inputPower, Ob.engineBudget]
      ∧ (1000 * s.dev.nat Ob.powerCap < avg → d.pow.under = 0 ∧ (1 < b → d.reg Ob.engineBudget = (b - 1 : Nat))
        ∧ (b ≤ 1 → d.reg Ob.engineBudget = s.dev.reg Ob.engineBudget))
      ∧ (avg + 2000 ≤ 1000 * s.dev.nat Ob.powerCap → s.dev.pow.under < 9 → d.pow.under = s.dev.pow.under + 1
        ∧ d.reg Ob.engineBudget = s.dev.reg Ob.engineBudget)
      ∧ (avg + 2000 ≤ 1000 * s.dev.nat Ob.powerCap → 9 ≤ s.dev.pow.under → d.pow.under = 0
        ∧ d.nat Ob.engineBudget = if b < (if s.dev.pow.hot then Nat.min 2 (s.dev.nat Ob.enginesInUseCount)
            else s.dev.nat Ob.enginesInUseCount) then b + 1 else b))

/-- R384-R386, R390, R12, R14: temperatures, the thermal trip and the links of the compute dies. -/
def Obligations.HeatCommandsRun : Prop :=
  (∀ (s : State) (io : Int) (dies : List Int), s.dev.nat Ob.bootPhase ≠ 0 →
    (1150 ≤ io → Runs (.temperatureSample io dies) s fun d => d.reg Ob.bootPhase = 0 ∧ d.pow.tripped = true
      ∧ d.pins.safeA = false ∧ d.pins.safeB = false)
    ∧ (io < 1150 → Runs (.temperatureSample io dies) s fun d => d.reg (Ob.thermTemperature 0) = io
      ∧ (s.dev.pow.hot = false → 1050 ≤ io → d.pow.hot = true
        ∧ d.reg Ob.engineBudget = (Nat.min 2 (s.dev.nat Ob.engineBudget) : Nat))
      ∧ (s.dev.pow.hot = true → d.pow.hot = decide (1020 ≤ io))
      ∧ ∀ die ∈ s.dev.dies, ∀ t, dies[die]? = some t → d.reg (Ob.thermTemperature (1 + die)) = t
        ∧ d.nat (Ob.thermThrottleLevel (1 + die)) = throttle (s.dev.nat (Ob.thermThrottleLevel (1 + die))) t))
  ∧ (∀ (s : State) (io : Int), s.dev.pow.tripped = true → io < 950 →
    Runs (.thermalTripCooled io) s fun d => d.pow.tripped = false ∧ s.dev.KeepsRegs d [Ob.bootPhase, Ob.bootCause]
      ∧ if s.dev.pins.vin = 2 then d.reg Ob.bootPhase = 1 ∧ d.reg Ob.bootCause = 7 else s.dev.KeepsRegs d [])
  ∧ (∀ (s : State) (link : Fin 8) (die replays : Nat), (link : Nat) = die → die < 4 → s.dev.reg (Ob.dieLinkState die) = 1 →
    (∀ ok, replays < 8 → Runs (.linkTransferError link replays ok) s fun d =>
      d.reg (Ob.dieLinkReplays die) = wrapTy (keyTy (Ob.dieLinkReplays die)) (s.dev.reg (Ob.dieLinkReplays die) + replays)
        ∧ s.dev.KeepsRegs d [Ob.dieLinkReplays die])
    ∧ (8 ≤ replays → Runs (.linkTransferError link replays true) s fun d =>
      d.reg (Ob.dieLinkRetrains die) = wrapTy (keyTy (Ob.dieLinkRetrains die)) (s.dev.reg (Ob.dieLinkRetrains die) + 1)
        ∧ s.dev.KeepsRegs d [Ob.dieLinkReplays die, Ob.dieLinkRetrains die])
    ∧ (8 ≤ replays → die ∈ s.dev.dies ∨ s.dev.discovering die = true → Runs (.linkTransferError link replays false) s fun d =>
      d.reg (Ob.dieStatus (die + 1)) = 2 ∧ d.reg (Ob.dieDropCause (die + 1)) = 1
        ∧ d.reg (Ob.dieLinkState die) = 0 ∧ d.isl (Isl.ten + die) = 6 ∧ d.isl (Isl.dck + die) = 6
        ∧ ∀ j ∈ s.dev.ringsOf die, d.reg (Ob.ringLinkState j) = 0))
  ∧ (∀ (s : State) (link : Fin 8) (j replays : Nat), (link : Nat) = 4 + j → s.dev.reg (Ob.ringLinkState j) = 1 →
    (replays < 8 → ∀ ok, Runs (.linkTransferError link replays ok) s fun d => s.dev.KeepsRegs d [])
    ∧ Runs (.linkTransferError link replays true) s (fun d => s.dev.KeepsRegs d [])
    ∧ (8 ≤ replays → Runs (.linkTransferError link replays false) s fun d =>
      d.reg (Ob.ringLinkState j) = (if (s.dev.ringEnd j).isNone then 2 else 0) ∧ s.dev.KeepsRegs d [Ob.ringLinkState j]))

/-- R63, R132, R393-R396: quiesce fences, island control, island faults and the live update. -/
def Obligations.IslandCommandsRun : Prop :=
  (∀ (s : State) (island : Fin 25), 2 ≤ s.dev.nat Ob.bootPhase →
    Runs (.islandWatchdogExpiry island) s fun d => s.dev.IslandFaults ((island : Nat) + 1) d)
  ∧ (∀ (s : State) (k c i : Nat), 2 ≤ s.dev.nat Ob.bootPhase → s.dev.flag Ob.rootLocked = true → k ≤ 26 →
    i = (if k = 26 then Isl.cup else k) →
    (deviates (k, c) = true → k = 0 → Runs (.clockMonitorWindow [(k, c)]) s fun d => s.dev.IslandFaults Isl.fio d)
    ∧ (deviates (k, c) = true → k ≠ 0 → s.dev.isl i = 0 → Runs (.clockMonitorWindow [(k, c)]) s fun d => s.dev.IslandFaults i d
      ∧ (i ≠ Isl.fio → i ≠ Isl.pci → (i = Isl.mix → s.dev.mix.filters = []) → d.reg (Ob.islandClockStatus (i - 1)) = 2))
    ∧ (deviates (k, c) = false ∨ k ≠ 0 ∧ s.dev.isl i ≠ 0 →
      Runs (.clockMonitorWindow [(k, c)]) s fun d => s.dev.KeepsRegs d []))
  ∧ (∀ island : Fin 25,
    SetRuns (fun hd cond => .islandReset hd cond island) {} (0x7F01 + island) 1 [1] (fun d _ _ d' =>
      let i := (island : Nat) + 1
      (d.isl i ≤ 1 → kvGet d'.islCause i = some 1 ∧ ((i = Isl.mix → d.mix.filters = []) → d'.isl i = 2))
        ∧ (d.isl i = 5 → d'.isl i = 3
          ∧ d'.reg (Ob.islResets island) = wrapTy (keyTy (Ob.islResets island)) (d.reg (Ob.islResets island) + 1)))
    ∧ SetRuns (fun hd cond => .islandHold hd cond island) {} (0x7F01 + island) 1 [2] (fun d _ _ d' =>
      let i := (island : Nat) + 1
      d.isl i ≤ 1 → kvGet d'.islCause i = some 4 ∧ ((i = Isl.mix → d.mix.filters = []) → d'.isl i = 2)))
  ∧ (∀ (s : State) (island : Fin 25) (c : Nat), s.dev.isl ((island : Nat) + 1) = 2 → (kvGet s.dev.islCause ((island : Nat) + 1)).getD 1 = c →
    (c ≠ 5 ∨ (island : Nat) + 1 < Isl.ten → Runs (.quiesceBoundaryEmpty island) s fun d =>
      d.isl ((island : Nat) + 1) = (if c = 3 then 4 else if 4 ≤ c then 5 else 3)
        ∧ (c < 4 → d.reg (Ob.islLastResetCause island) = (c : Nat)
          ∧ d.reg (Ob.islResets island) = wrapTy (keyTy (Ob.islResets island)) (s.dev.reg (Ob.islResets island) + 1)))
    ∧ (c = 5 → Isl.ten ≤ (island : Nat) + 1 → ((island : Nat) + 1 - Isl.ten) % 4 ∈ s.dev.dies →
      Runs (.quiesceBoundaryEmpty island) s fun d => d.isl ((island : Nat) + 1) = 6
        ∧ d.reg (Ob.dieStatus (((island : Nat) + 1 - Isl.ten) % 4 + 1)) = 2))
  ∧ (∀ (s : State) (island : Fin 25) (i : Nat), i = (island : Nat) + 1 → s.dev.isl i = 3 ∨ s.dev.isl i = 4 →
    (i = Isl.cup → s.dev.reg Ob.cupperState ≠ 2) → (i = Isl.sol → s.dev.sol.batch = none) →
    (s.dev.isl i = 4 → ∀ x ∈ s.dev.pow.live, x ≠ 0 ∧ (x = Isl.mix → i = Isl.mix)) →
    Runs (.islandReturn island) s fun d => d.isl i = 0
      ∧ d.reg (Ob.islIncarnation island) = ((s.dev.nat (Ob.islIncarnation island) + 1) % 256 : Nat)
      ∧ d.reg (Ob.islLastReturnStamp island) = (s.dev.now : Nat))
  ∧ (∀ (s : State) (island : Fin 25) (inc : Nat), Runs (.staleReplyReceived island inc) s fun d =>
    d.reg (Ob.islStaleDiscarded island) = (if s.dev.nat (Ob.islIncarnation island) = inc then s.dev.reg (Ob.islStaleDiscarded island)
        else wrapTy (keyTy (Ob.islStaleDiscarded island)) (s.dev.reg (Ob.islStaleDiscarded island) + 1))
      ∧ s.dev.KeepsRegs d [Ob.islStaleDiscarded island])
  ∧ SetRuns .updateActivateLive activateConds 0x7010 7 [3] (fun d _ _ d' =>
    d'.boot = { d.boot with current := d.inactiveBank, trial := none, trialRunning := false }
      ∧ d'.pow.live = ((Isl.mix :: d.dies.map fun die => Isl.ten + die).filter fun i => decide (d.isl i ≤ 1))
      ∧ (d.mix.filters = [] → d'.reg Ob.activeBank = (d.inactiveBank : Nat) ∧ d'.reg Ob.updateState = 5
        ∧ d'.reg Ob.updateOwner = 0xFF ∧ d'.reg (Ob.bankState d.inactiveBank) = 4))

/-- R414: the fields of the JTAG IDCODE, and the rule's own case. -/
def Obligations.JtagIdcodeFields : Prop :=
  (∀ d : Dev, d.idcode.extractLsb' 28 4 = BitVec.ofNat 4 (d.nat Ob.ioDieStepping)
    ∧ d.idcode.extractLsb' 12 16 = BitVec.ofNat 16 (d.nat Ob.productCode) ∧ d.idcode.extractLsb' 0 12 = 0x58F#12)
  ∧ (∀ d : Dev, d.nat Ob.ioDieStepping = 3 → d.nat Ob.productCode = 0x4832 → d.idcode = 0x3483258F#32)
end

