-- ==== Sys2Proof/Laws/Assoc.lean ====
section
/-! SUPPORT. Sparse tables: reading after a write, and the canonical form. -/
namespace Sys2Proof.Machine

variable {α : Type}

@[simp] theorem kvGet_kvDel (m : Assoc α) (k j : Nat) : kvGet (kvDel m k) j = if j = k then none else kvGet m j := by
  induction m with
  | nil => simp [kvDel, kvGet]
  | cons c m ih =>
    by_cases hk : k = c.1 <;> by_cases hj : j = c.1 <;> simp_all [kvDel, kvGet]
    · intro h; exact absurd h.symm hk

theorem kvGet_kvIns (m : Assoc α) (k : Nat) (v : α) (h : kvGet m k = none) (j : Nat) :
    kvGet (kvIns m k v) j = if j = k then some v else kvGet m j := by
  induction m with
  | nil => simp [kvIns, kvGet]
  | cons c m ih =>
    simp only [kvGet] at h
    split at h
    · cases h
    · simp only [kvIns]
      split
      · simp [kvGet]
      · by_cases hj : j = c.1
        · subst hj; simp [kvGet]; intro hc; simp_all
        · simp [kvGet, hj, ih h]

@[simp] theorem kvGet_kvPut (m : Assoc α) (k : Nat) (v : α) (j : Nat) :
    kvGet (kvPut m k v) j = if j = k then some v else kvGet m j := by
  rw [kvPut, kvGet_kvIns _ _ _ (by simp)]
  split <;> simp_all

/-- Every key of a table is above `b`. -/
def kvAbove (m : Assoc α) (b : Nat) : Prop := ∀ c ∈ m, b < c.1

theorem kvSorted_cons (c : Nat × α) (m : Assoc α) : kvSorted (c :: m) = true ↔ kvAbove m c.1 ∧ kvSorted m = true := by
  induction m generalizing c with
  | nil => simp [kvSorted, kvAbove]
  | cons e m ih =>
    simp only [kvSorted, Bool.and_eq_true, decide_eq_true_eq]
    constructor
    · rintro ⟨h, hs⟩
      have := (ih e).1 hs
      refine ⟨?_, hs⟩
      intro x hx
      rcases List.mem_cons.1 hx with rfl | hx
      · exact h
      · exact Nat.lt_trans h (this.1 x hx)
    · rintro ⟨h, hs⟩
      exact ⟨h e (by simp), hs⟩

theorem mem_kvDel {m : Assoc α} {k : Nat} {c : Nat × α} (h : c ∈ kvDel m k) : c ∈ m := by
  induction m with
  | nil => simp [kvDel] at h
  | cons e m ih =>
    simp only [kvDel] at h
    split at h
    · exact List.mem_cons_of_mem _ (ih h)
    · rcases List.mem_cons.1 h with rfl | h
      · simp
      · exact List.mem_cons_of_mem _ (ih h)

theorem mem_kvIns {m : Assoc α} {k : Nat} {v : α} {c : Nat × α} (h : c ∈ kvIns m k v) : c = (k, v) ∨ c ∈ m := by
  induction m with
  | nil => simpa [kvIns] using h
  | cons e m ih =>
    simp only [kvIns] at h
    split at h
    · simpa using h
    · rcases List.mem_cons.1 h with rfl | h
      · simp
      · rcases ih h with h | h
        · exact .inl h
        · exact .inr (List.mem_cons_of_mem _ h)

theorem mem_kvPut {m : Assoc α} {k : Nat} {v : α} {c : Nat × α} (h : c ∈ kvPut m k v) : c = (k, v) ∨ c ∈ m :=
  (mem_kvIns h).imp id mem_kvDel

theorem kvSorted_kvDel {m : Assoc α} (h : kvSorted m = true) (k : Nat) : kvSorted (kvDel m k) = true := by
  induction m with
  | nil => rfl
  | cons e m ih =>
    have ⟨ha, hs⟩ := (kvSorted_cons _ _).1 h
    simp only [kvDel]
    split
    · exact ih hs
    · exact (kvSorted_cons _ _).2 ⟨fun c hc => ha c (mem_kvDel hc), ih hs⟩

theorem kvSorted_kvIns {m : Assoc α} (h : kvSorted m = true) (k : Nat) (v : α) (hk : kvGet m k = none) :
    kvSorted (kvIns m k v) = true := by
  induction m with
  | nil => rfl
  | cons e m ih =>
    have ⟨ha, hs⟩ := (kvSorted_cons _ _).1 h
    simp only [kvGet] at hk
    split at hk
    · cases hk
    · simp only [kvIns]
      split
      · next hlt =>
        refine (kvSorted_cons _ _).2 ⟨?_, h⟩
        intro c hc
        rcases List.mem_cons.1 hc with rfl | hc
        · exact hlt
        · exact Nat.lt_trans hlt (ha c hc)
      · next hne hle =>
        refine (kvSorted_cons _ _).2 ⟨?_, ih hs hk⟩
        intro c hc
        rcases mem_kvIns hc with rfl | hc
        · show e.1 < k
          omega
        · exact ha c hc

/-- A write keeps the canonical form of a table. -/
theorem kvSorted_kvPut {m : Assoc α} (h : kvSorted m = true) (k : Nat) (v : α) : kvSorted (kvPut m k v) = true :=
  kvSorted_kvIns (kvSorted_kvDel h k) k v (by simp)

end Sys2Proof.Machine
end

