-- ==== Sys2Proof/Laws/Memory.lean ====
section
/-! SUPPORT. DRAM: reading after a write, and the canonical form that every write keeps. -/
namespace Sys2Proof.Machine

@[simp] theorem memByte_memPut (m : List Host.Cell) (a : Nat) (b : Byte) (x : Nat) :
    memByte (memPut m a b) x = if x = a then b else memByte m x := by
  unfold memByte memPut
  by_cases hb : b = memDefault <;> by_cases hx : x = a <;> simp [hb, hx]

theorem memByte_memWrite_outside (m : List Host.Cell) (a : Nat) (bs : Bytes) (x : Nat)
    (h : x < a ∨ a + bs.length ≤ x) : memByte (memWrite m a bs) x = memByte m x := by
  induction bs generalizing m a with
  | nil => rfl
  | cons b bs ih =>
    simp only [List.length_cons] at h
    rw [memWrite, ih _ _ (by omega), memByte_memPut, if_neg (by omega)]

theorem memByte_memWrite_inside (m : List Host.Cell) (a : Nat) (bs : Bytes) (i : Nat) (h : i < bs.length) :
    memByte (memWrite m a bs) (a + i) = bs[i] := by
  induction bs generalizing m a i with
  | nil => simp at h
  | cons b bs ih =>
    cases i with
    | zero => rw [memWrite, Nat.add_zero, memByte_memWrite_outside _ _ _ _ (by omega)]; simp
    | succ i =>
      have := ih (memPut m a b) (a + 1) i (by simpa using h)
      simpa [memWrite, Nat.add_comm, Nat.add_left_comm, Nat.add_assoc] using this

theorem Memory.wf_iff (m : List Host.Cell) :
    Memory.wf m = true ↔ kvSorted m = true ∧ ∀ c ∈ m, c.2 ≠ memDefault := by
  simp [Memory.wf]

theorem Memory.wf_memPut {m : List Host.Cell} (h : Memory.wf m = true) (a : Nat) (b : Byte) :
    Memory.wf (memPut m a b) = true := by
  rw [Memory.wf_iff] at *
  unfold memPut
  split
  · exact ⟨kvSorted_kvDel h.1 a, fun c hc => h.2 c (mem_kvDel hc)⟩
  · next hb =>
    refine ⟨kvSorted_kvPut h.1 a b, fun c hc => ?_⟩
    rcases mem_kvPut hc with rfl | hc
    · exact hb
    · exact h.2 c hc

/-- Every write keeps the canonical form of DRAM. -/
theorem Memory.wf_memWrite {m : List Host.Cell} (h : Memory.wf m = true) (a : Nat) (bs : Bytes) :
    Memory.wf (memWrite m a bs) = true := by
  induction bs generalizing m a with
  | nil => exact h
  | cons b bs ih => exact ih (Memory.wf_memPut h a b) (a + 1)

theorem Memory.wf_reset : Memory.wf State.reset.dev.mem = true := rfl

end Sys2Proof.Machine
end

