-- ==== Sys2Proof/Laws/Within.lean ====
section
/-! SUPPORT. What a change of the device leaves alone, as a relation between two devices that composes: parts of the state
that a mask does not name are equal, and the canonical forms of the registers and of DRAM are kept. -/
namespace Sys2Proof.Machine

/-- `d'` differs from `d` at most in the parts that the mask names (bit n for line n below) and in what no line names, and
its registers and its DRAM are canonical where those of `d` are. -/
structure Within (M : Nat) (d d' : Dev) : Prop where
  mem : Nat.testBit M 0 = false → d'.mem = d.mem
  tl : Nat.testBit M 1 = false → d'.tl = d.tl
  servo : Nat.testBit M 2 = false → d'.servo = d.servo
  fences : Nat.testBit M 3 = false → d'.fences = d.fences
  waits : Nat.testBit M 4 = false → d'.waits = d.waits
  banks : Nat.testBit M 5 = false → d'.banks = d.banks
  flash : Nat.testBit M 6 = false → d'.flash = d.flash ∧ d'.flashBlobs = d.flashBlobs
  boot : Nat.testBit M 7 = false → d'.boot = d.boot
  analogOut : Nat.testBit M 8 = false → d'.analogOut = d.analogOut
  tu : Nat.testBit M 9 = false → d'.tu = d.tu
  slots : Nat.testBit M 10 = false → d'.slots = d.slots
  encs : Nat.testBit M 11 = false → d'.encs = d.encs
  fus : Nat.testBit M 12 = false → d'.fus = d.fus
  ten : Nat.testBit M 13 = false → d'.ten = d.ten
  sol : Nat.testBit M 14 = false → d'.sol = d.sol
  net : Nat.testBit M 15 = false → d'.net = d.net
  aud : Nat.testBit M 16 = false → d'.aud = d.aud
  mix : Nat.testBit M 17 = false → d'.mix = d.mix
  ana : Nat.testBit M 18 = false → d'.ana = d.ana
  virek : Nat.testBit M 19 = false → d'.virek = d.virek
  pours : Nat.testBit M 20 = false → d'.pours = d.pours
  dict : Nat.testBit M 21 = false → d'.dict = d.dict
  mbox : Nat.testBit M 22 = false → d'.mbox = d.mbox
  blobs : Nat.testBit M 23 = false → d'.blobs = d.blobs
  pow : Nat.testBit M 24 = false → d'.pow = d.pow
  partners : Nat.testBit M 25 = false → d'.partners = d.partners
  regsWf : Regs.wf d.regs = true → Regs.wf d'.regs = true
  memWf : Memory.wf d.mem = true → Memory.wf d'.mem = true

/-- `N` names every part that `M` names. -/
def Sub (M N : Nat) : Prop := M &&& N = M

theorem Sub.bit {M N : Nat} (h : Sub M N) {i : Nat} (hi : Nat.testBit N i = false) : Nat.testBit M i = false := by
  rw [← h, Nat.testBit_and, hi, Bool.and_false]

theorem Sub.trans {A B C : Nat} (h : Sub A B) (k : Sub B C) : Sub A C := by
  unfold Sub at *
  rw [← h, Nat.and_assoc, k]

theorem Sub.testBit {A M : Nat} {i : Nat} (h : Sub A M) (k : Nat.testBit A i = true) : Nat.testBit M i = true := by
  cases hb : Nat.testBit M i
  · rw [h.bit hb] at k
    cases k
  · rfl

theorem Sub.zero {M : Nat} : Sub 0 M := Nat.zero_and M

theorem Within.refl {M : Nat} (d : Dev) : Within M d d := by
  constructor <;> simp

theorem Within.trans {M : Nat} {a b c : Dev} (h : Within M a b) (k : Within M b c) : Within M a c := by
  constructor
  case flash => exact fun x => ⟨(k.flash x).1.trans (h.flash x).1, (k.flash x).2.trans (h.flash x).2⟩
  case regsWf => exact fun x => k.regsWf (h.regsWf x)
  case memWf => exact fun x => k.memWf (h.memWf x)
  all_goals intro x
  · exact (k.mem x).trans (h.mem x)
  · exact (k.tl x).trans (h.tl x)
  · exact (k.servo x).trans (h.servo x)
  · exact (k.fences x).trans (h.fences x)
  · exact (k.waits x).trans (h.waits x)
  · exact (k.banks x).trans (h.banks x)
  · exact (k.boot x).trans (h.boot x)
  · exact (k.analogOut x).trans (h.analogOut x)
  · exact (k.tu x).trans (h.tu x)
  · exact (k.slots x).trans (h.slots x)
  · exact (k.encs x).trans (h.encs x)
  · exact (k.fus x).trans (h.fus x)
  · exact (k.ten x).trans (h.ten x)
  · exact (k.sol x).trans (h.sol x)
  · exact (k.net x).trans (h.net x)
  · exact (k.aud x).trans (h.aud x)
  · exact (k.mix x).trans (h.mix x)
  · exact (k.ana x).trans (h.ana x)
  · exact (k.virek x).trans (h.virek x)
  · exact (k.pours x).trans (h.pours x)
  · exact (k.dict x).trans (h.dict x)
  · exact (k.mbox x).trans (h.mbox x)
  · exact (k.blobs x).trans (h.blobs x)
  · exact (k.pow x).trans (h.pow x)
  · exact (k.partners x).trans (h.partners x)

theorem Within.mono {M N : Nat} {a b : Dev} (h : Within M a b) (c : Sub M N) : Within N a b := by
  constructor
  case regsWf => exact h.regsWf
  case memWf => exact h.memWf
  all_goals intro x
  · exact h.mem (c.bit x)
  · exact h.tl (c.bit x)
  · exact h.servo (c.bit x)
  · exact h.fences (c.bit x)
  · exact h.waits (c.bit x)
  · exact h.banks (c.bit x)
  · exact h.flash (c.bit x)
  · exact h.boot (c.bit x)
  · exact h.analogOut (c.bit x)
  · exact h.tu (c.bit x)
  · exact h.slots (c.bit x)
  · exact h.encs (c.bit x)
  · exact h.fus (c.bit x)
  · exact h.ten (c.bit x)
  · exact h.sol (c.bit x)
  · exact h.net (c.bit x)
  · exact h.aud (c.bit x)
  · exact h.mix (c.bit x)
  · exact h.ana (c.bit x)
  · exact h.virek (c.bit x)
  · exact h.pours (c.bit x)
  · exact h.dict (c.bit x)
  · exact h.mbox (c.bit x)
  · exact h.blobs (c.bit x)
  · exact h.pow (c.bit x)
  · exact h.partners (c.bit x)

theorem Within.step {M N : Nat} {a b c : Dev} (h : Within N a b) (k : Within M b c) (hM : Sub M N) : Within N a c :=
  h.trans (k.mono hM)

theorem Within.ite {M : Nat} {a b c : Dev} {p : Prop} [Decidable p] (h : Within M a b) (k : Within M a c) :
    Within M a (if p then b else c) := by
  split
  · exact h
  · exact k

theorem Within.each {M : Nat} {α : Type} {a d : Dev} (h : Within M a d) {l : List α} {f : Dev → α → Dev}
    (k : ∀ d x, Within M d (f d x)) : Within M a (d.each l f) := by
  unfold Dev.each
  induction l generalizing d with
  | nil => exact h
  | cons x l ih => exact ih (h.trans (k d x))

theorem Within.when {M : Nat} {a d : Dev} (h : Within M a d) {b : Bool} {f : Dev → Dev} (k : ∀ d, Within M d (f d)) :
    Within M a (d.when b f) := by
  unfold Dev.when
  exact .ite (h.trans (k d)) h

theorem Within.foldl {M : Nat} {α β : Type} {a : Dev} {r : β × Dev} (h : Within M a r.2) {l : List α}
    {f : β × Dev → α → β × Dev} (k : ∀ r x, Within M r.2 (f r x).2) : Within M a (l.foldl f r).2 := by
  induction l generalizing r with
  | nil => exact h
  | cons x l ih => exact ih (h.trans (k r x))

section Fields
variable {M : Nat} {a d : Dev}

theorem Within.blobs_set {x} (hM : Nat.testBit M 23 = true) (h : Within M a d) : Within M a { d with blobs := x } :=
  h.trans (by constructor <;> simp [hM])
theorem Within.vers_set {x} (h : Within M a d) : Within M a { d with vers := x } :=
  h.trans (by constructor <;> simp)
theorem Within.flash_set {x} (hM : Nat.testBit M 6 = true) (h : Within M a d) : Within M a { d with flash := x } :=
  h.trans (by constructor <;> simp [hM])
theorem Within.flashBlobs_set {x} (hM : Nat.testBit M 6 = true) (h : Within M a d) : Within M a { d with flashBlobs := x } :=
  h.trans (by constructor <;> simp [hM])
theorem Within.out_set {x} (h : Within M a d) : Within M a { d with out := x } :=
  h.trans (by constructor <;> simp)
theorem Within.fresh_set {x} (h : Within M a d) : Within M a { d with fresh := x } :=
  h.trans (by constructor <;> simp)
theorem Within.log_set {x} (h : Within M a d) : Within M a { d with log := x } :=
  h.trans (by constructor <;> simp)
theorem Within.partners_set {x} (hM : Nat.testBit M 25 = true) (h : Within M a d) : Within M a { d with partners := x } :=
  h.trans (by constructor <;> simp [hM])
theorem Within.tl_set {x} (hM : Nat.testBit M 1 = true) (h : Within M a d) : Within M a { d with tl := x } :=
  h.trans (by constructor <;> simp [hM])
theorem Within.servo_set {x} (hM : Nat.testBit M 2 = true) (h : Within M a d) : Within M a { d with servo := x } :=
  h.trans (by constructor <;> simp [hM])
theorem Within.fences_set {x} (hM : Nat.testBit M 3 = true) (h : Within M a d) : Within M a { d with fences := x } :=
  h.trans (by constructor <;> simp [hM])
theorem Within.waits_set {x} (hM : Nat.testBit M 4 = true) (h : Within M a d) : Within M a { d with waits := x } :=
  h.trans (by constructor <;> simp [hM])
theorem Within.dict_set {x} (hM : Nat.testBit M 21 = true) (h : Within M a d) : Within M a { d with dict := x } :=
  h.trans (by constructor <;> simp [hM])
theorem Within.mbox_set {x} (hM : Nat.testBit M 22 = true) (h : Within M a d) : Within M a { d with mbox := x } :=
  h.trans (by constructor <;> simp [hM])
theorem Within.queues_set {x} (h : Within M a d) : Within M a { d with queues := x } :=
  h.trans (by constructor <;> simp)
theorem Within.genReserved_set {x} (h : Within M a d) : Within M a { d with genReserved := x } :=
  h.trans (by constructor <;> simp)
theorem Within.handAt_set {x} (h : Within M a d) : Within M a { d with handAt := x } :=
  h.trans (by constructor <;> simp)
theorem Within.startWindow_set {x} (h : Within M a d) : Within M a { d with startWindow := x } :=
  h.trans (by constructor <;> simp)
theorem Within.latches_set {x} (h : Within M a d) : Within M a { d with latches := x } :=
  h.trans (by constructor <;> simp)
theorem Within.phaseLatches_set {x} (h : Within M a d) : Within M a { d with phaseLatches := x } :=
  h.trans (by constructor <;> simp)
theorem Within.seqs_set {x} (h : Within M a d) : Within M a { d with seqs := x } :=
  h.trans (by constructor <;> simp)
theorem Within.books_set {x} (h : Within M a d) : Within M a { d with books := x } :=
  h.trans (by constructor <;> simp)
theorem Within.barHandle_set {x} (h : Within M a d) : Within M a { d with barHandle := x } :=
  h.trans (by constructor <;> simp)
theorem Within.barTarget_set {x} (h : Within M a d) : Within M a { d with barTarget := x } :=
  h.trans (by constructor <;> simp)
theorem Within.barLatch_set {x} (h : Within M a d) : Within M a { d with barLatch := x } :=
  h.trans (by constructor <;> simp)
theorem Within.barEra_set {x} (h : Within M a d) : Within M a { d with barEra := x } :=
  h.trans (by constructor <;> simp)
theorem Within.pins_set {x} (h : Within M a d) : Within M a { d with pins := x } :=
  h.trans (by constructor <;> simp)
theorem Within.boot_set {x} (hM : Nat.testBit M 7 = true) (h : Within M a d) : Within M a { d with boot := x } :=
  h.trans (by constructor <;> simp [hM])
theorem Within.banks_set {x} (hM : Nat.testBit M 5 = true) (h : Within M a d) : Within M a { d with banks := x } :=
  h.trans (by constructor <;> simp [hM])
theorem Within.tu_set {x} (hM : Nat.testBit M 9 = true) (h : Within M a d) : Within M a { d with tu := x } :=
  h.trans (by constructor <;> simp [hM])
theorem Within.analogOut_set {x} (hM : Nat.testBit M 8 = true) (h : Within M a d) : Within M a { d with analogOut := x } :=
  h.trans (by constructor <;> simp [hM])
theorem Within.slots_set {x} (hM : Nat.testBit M 10 = true) (h : Within M a d) : Within M a { d with slots := x } :=
  h.trans (by constructor <;> simp [hM])
theorem Within.encs_set {x} (hM : Nat.testBit M 11 = true) (h : Within M a d) : Within M a { d with encs := x } :=
  h.trans (by constructor <;> simp [hM])
theorem Within.stage_set {x} (h : Within M a d) : Within M a { d with stage := x } :=
  h.trans (by constructor <;> simp)
theorem Within.csiPend_set {x} (h : Within M a d) : Within M a { d with csiPend := x } :=
  h.trans (by constructor <;> simp)
theorem Within.fus_set {x} (hM : Nat.testBit M 12 = true) (h : Within M a d) : Within M a { d with fus := x } :=
  h.trans (by constructor <;> simp [hM])
theorem Within.ten_set {x} (hM : Nat.testBit M 13 = true) (h : Within M a d) : Within M a { d with ten := x } :=
  h.trans (by constructor <;> simp [hM])
theorem Within.safe_set {x} (h : Within M a d) : Within M a { d with safe := x } :=
  h.trans (by constructor <;> simp)
theorem Within.sol_set {x} (hM : Nat.testBit M 14 = true) (h : Within M a d) : Within M a { d with sol := x } :=
  h.trans (by constructor <;> simp [hM])
theorem Within.net_set {x} (hM : Nat.testBit M 15 = true) (h : Within M a d) : Within M a { d with net := x } :=
  h.trans (by constructor <;> simp [hM])
theorem Within.aud_set {x} (hM : Nat.testBit M 16 = true) (h : Within M a d) : Within M a { d with aud := x } :=
  h.trans (by constructor <;> simp [hM])
theorem Within.mix_set {x} (hM : Nat.testBit M 17 = true) (h : Within M a d) : Within M a { d with mix := x } :=
  h.trans (by constructor <;> simp [hM])
theorem Within.ana_set {x} (hM : Nat.testBit M 18 = true) (h : Within M a d) : Within M a { d with ana := x } :=
  h.trans (by constructor <;> simp [hM])
theorem Within.virek_set {x} (hM : Nat.testBit M 19 = true) (h : Within M a d) : Within M a { d with virek := x } :=
  h.trans (by constructor <;> simp [hM])
theorem Within.islCause_set {x} (h : Within M a d) : Within M a { d with islCause := x } :=
  h.trans (by constructor <;> simp)
theorem Within.islAt_set {x} (h : Within M a d) : Within M a { d with islAt := x } :=
  h.trans (by constructor <;> simp)
theorem Within.pours_set {x} (hM : Nat.testBit M 20 = true) (h : Within M a d) : Within M a { d with pours := x } :=
  h.trans (by constructor <;> simp [hM])
theorem Within.pow_set {x} (hM : Nat.testBit M 24 = true) (h : Within M a d) : Within M a { d with pow := x } :=
  h.trans (by constructor <;> simp [hM])

end Fields

end Sys2Proof.Machine
end

