-- ==== Sys2Proof/Laws/Ops.lean ====
section
/-! SUPPORT. Reading a register after a change of one, and what each named operation leaves alone. -/
namespace Sys2Proof.Machine

@[simp] theorem Dev.reg_set (d : Dev) (k j : Nat) (v : Int) : (d.set k v).reg j = if j = k then v else d.reg j := by
  unfold Dev.reg Dev.set
  by_cases hv : v = objDefault k <;> by_cases hj : j = k <;> simp [hv, hj]

@[simp] theorem Dev.reg_setN (d : Dev) (k j : Nat) (v : Nat) : (d.setN k v).reg j = if j = k then (v : Int) else d.reg j :=
  d.reg_set k j v

@[simp] theorem Dev.reg_setB (d : Dev) (k j : Nat) (b : Bool) :
    (d.setB k b).reg j = if j = k then (if b then 1 else 0) else d.reg j :=
  d.reg_set k j _

theorem Regs.wf_iff (m : Assoc Int) : Regs.wf m = true ↔ kvSorted m = true ∧ ∀ c ∈ m, c.2 ≠ objDefault c.1 := by
  simp [Regs.wf]

theorem Regs.wf_set {d : Dev} (h : Regs.wf d.regs = true) (k : Nat) (v : Int) : Regs.wf (d.set k v).regs = true := by
  rw [Regs.wf_iff] at *
  unfold Dev.set
  dsimp only
  split
  · exact ⟨kvSorted_kvDel h.1 k, fun c hc => h.2 c (mem_kvDel hc)⟩
  · next hv =>
    refine ⟨kvSorted_kvPut h.1 k v, fun c hc => ?_⟩
    rcases mem_kvPut hc with rfl | hc
    · exact hv
    · exact h.2 c hc

theorem Dev.set_within {M : Nat} {a d : Dev} (h : Within M a d) (k : Nat) (v : Int) : Within M a (d.set k v) := by
  refine h.trans ?_
  constructor
  case regsWf => exact fun x => Regs.wf_set x k v
  all_goals simp [Dev.set]

theorem Dev.memWrite_within {M : Nat} {a d : Dev} (hM : Nat.testBit M 0 = true) (h : Within M a d) (x : Nat) (bs : Bytes) :
    Within M a (d.memWrite x bs) := by
  refine h.trans ?_
  constructor
  case memWf => exact fun w => Memory.wf_memWrite w x bs
  all_goals simp [Dev.memWrite, hM]

end Sys2Proof.Machine
end

