-- ==== Sys2Proof/Laws/OpsFrame.lean ====
section
/-! SUPPORT. What the operations of Machine/Ops.lean leave alone. -/
namespace Sys2Proof.Machine

theorem Dev.setN_within {M : Nat} {d₀ d : Dev} (hM : Sub 0 M) (hW : Within M d₀ d) (k : Nat) (v : Nat) :
    Within M d₀ (d.setN k v) := by
  refine hW.step ?_ hM
  clear hW hM
  unfold Dev.setN
  repeat' first | (with_reducible first | assumption | exact .refl _ | apply Dev.set_within) | exact rfl

theorem Dev.setB_within {M : Nat} {d₀ d : Dev} (hM : Sub 0 M) (hW : Within M d₀ d) (k : Nat) (b : Bool) :
    Within M d₀ (d.setB k b) := by
  refine hW.step ?_ hM
  clear hW hM
  unfold Dev.setB
  repeat' first | (with_reducible first | assumption | exact .refl _ | apply Dev.set_within | apply Within.ite) | exact rfl

theorem Dev.bumpBy_within {M : Nat} {d₀ d : Dev} (hM : Sub 0 M) (hW : Within M d₀ d) (k : Nat) (n : Nat) :
    Within M d₀ (d.bumpBy k n) := by
  refine hW.step ?_ hM
  clear hW hM
  unfold Dev.bumpBy
  repeat' first | (with_reducible first | assumption | exact .refl _ | apply Dev.set_within) | exact rfl

theorem Dev.bump_within {M : Nat} {d₀ d : Dev} (hM : Sub 0 M) (hW : Within M d₀ d) (k : Nat) :
    Within M d₀ (d.bump k) := by
  refine hW.step ?_ hM
  clear hW hM
  unfold Dev.bump
  repeat' first | (with_reducible first | assumption | exact .refl _ | apply Dev.bumpBy_within) | exact rfl

theorem Dev.drop_within {M : Nat} {d₀ d : Dev} (hM : Sub 0 M) (hW : Within M d₀ d) (k : Nat) :
    Within M d₀ (d.drop k) := by
  refine hW.step ?_ hM
  clear hW hM
  unfold Dev.drop
  repeat' first | (with_reducible first | assumption | exact .refl _ | apply Dev.set_within | apply Within.ite) | exact rfl

theorem Dev.setBlob_within {M : Nat} {d₀ d : Dev} (hM : Sub 8388608 M) (hW : Within M d₀ d) (k : Nat) (b : Bytes) :
    Within M d₀ (d.setBlob k b) := by
  refine hW.step ?_ hM
  clear hW hM
  unfold Dev.setBlob
  repeat' first | (with_reducible first | assumption | exact .refl _ | apply Within.ite) | with_reducible apply Within.blobs_set | exact rfl

theorem Dev.bumpVer_within {M : Nat} {d₀ d : Dev} (hM : Sub 0 M) (hW : Within M d₀ d) (k : Nat) :
    Within M d₀ (d.bumpVer k) := by
  refine hW.step ?_ hM
  clear hW hM
  unfold Dev.bumpVer
  repeat' first | (with_reducible first | assumption | exact .refl _ | apply Within.ite) | with_reducible apply Within.vers_set | exact rfl

theorem Dev.send_within {M : Nat} {d₀ d : Dev} (hM : Sub 0 M) (hW : Within M d₀ d) (o : Output) :
    Within M d₀ (d.send o) := by
  refine hW.step ?_ hM
  clear hW hM
  unfold Dev.send
  repeat' first | (with_reducible first | assumption | exact .refl _) | with_reducible apply Within.out_set | exact rfl

theorem Dev.drawn_within {M : Nat} {d₀ d : Dev} (hM : Sub 0 M) (hW : Within M d₀ d) :
    Within M d₀ (d.drawn) := by
  refine hW.step ?_ hM
  clear hW hM
  unfold Dev.drawn
  repeat' first | (with_reducible first | assumption | exact .refl _) | with_reducible apply Within.fresh_set | exact rfl

end Sys2Proof.Machine
end

