-- ==== Sys2Proof/Laws/SafePairFrame.lean ====
section
/-! SUPPORT. What the operations of Machine/SafePair.lean leave alone. -/
namespace Sys2Proof.Machine

theorem Dev.onPins_within {M : Nat} {d₀ d : Dev} (hM : Sub 0 M) (hW : Within M d₀ d) (f : Pins → Pins) :
    Within M d₀ (d.onPins f) := by
  refine hW.step ?_ hM
  clear hW hM
  unfold Dev.onPins
  repeat' first | (with_reducible first | assumption | exact .refl _) | with_reducible apply Within.pins_set | exact rfl

theorem Dev.drivePin_within {M : Nat} {d₀ d : Dev} (hM : Sub 0 M) (hW : Within M d₀ d) (pin : Nat) (level : Bool) :
    Within M d₀ (d.drivePin pin level) := by
  refine hW.step ?_ hM
  clear hW hM
  unfold Dev.drivePin
  repeat' first | (with_reducible first | assumption | exact .refl _ | apply Dev.onPins_within | apply Dev.send_within | apply Within.ite) | exact rfl

theorem Dev.onSafe_within {M : Nat} {d₀ d : Dev} (hM : Sub 0 M) (hW : Within M d₀ d) (f : Safe → Safe) :
    Within M d₀ (d.onSafe f) := by
  refine hW.step ?_ hM
  clear hW hM
  unfold Dev.onSafe
  repeat' first | (with_reducible first | assumption | exact .refl _) | with_reducible apply Within.safe_set | exact rfl

theorem Dev.driveSafe_within {M : Nat} {d₀ d : Dev} (hM : Sub 0 M) (hW : Within M d₀ d) (pin : Nat) (level : Bool) :
    Within M d₀ (d.driveSafe pin level) := by
  refine hW.step ?_ hM
  clear hW hM
  unfold Dev.driveSafe
  repeat' first | (with_reducible first | assumption | exact .refl _ | apply Dev.drivePin_within | apply Dev.onSafe_within | apply Within.ite) | exact rfl

theorem Dev.refreshSafe_within {M : Nat} {d₀ d : Dev} (hM : Sub 0 M) (hW : Within M d₀ d) :
    Within M d₀ (d.refreshSafe) := by
  refine hW.step ?_ hM
  clear hW hM
  unfold Dev.refreshSafe
  repeat' first | (with_reducible first | assumption | exact .refl _ | apply Dev.driveSafe_within | apply Dev.onSafe_within | apply Dev.setB_within | apply Within.ite) | extract_lets | exact rfl

theorem Dev.observe_within {M : Nat} {d₀ d : Dev} (hM : Sub 0 M) (hW : Within M d₀ d) (d0 : Dev) :
    Within M d₀ (d0.observe d) := by
  refine hW.step ?_ hM
  clear hW hM
  unfold Dev.observe
  repeat' first | (with_reducible first | assumption | exact .refl _ | apply Within.ite) | extract_lets | with_reducible apply Within.books_set | exact rfl

theorem Dev.settle_within {M : Nat} {d₀ d : Dev} (hM : Sub 0 M) (hW : Within M d₀ d) (d0 : Dev) :
    Within M d₀ (d0.settle d) := by
  refine hW.step ?_ hM
  clear hW hM
  unfold Dev.settle
  repeat' first | (with_reducible first | assumption | exact .refl _ | apply Dev.observe_within | apply Dev.refreshSafe_within) | exact rfl

theorem onDev_within {M : Nat} {f : Dev → Dev} {s t : State} (h : onDev f s = .next t) (k : ∀ d, Within M d (f d)) :
    Within M s.dev t.dev := by
  obtain rfl := Host.Outcome.next.inj h
  exact Dev.settle_within .zero (k _) _

end Sys2Proof.Machine
end

