-- ==== Sys2Proof/Laws/QueueCoreFrame.lean ====
section
/-! SUPPORT. What the operations of Machine/QueueCore.lean leave alone. -/
namespace Sys2Proof.Machine

theorem Dev.setQ_within {M : Nat} {d₀ d : Dev} (hM : Sub 0 M) (hW : Within M d₀ d) (q : Nat) (r : QueueRt) :
    Within M d₀ (d.setQ q r) := by
  refine hW.step ?_ hM
  clear hW hM
  unfold Dev.setQ
  repeat' first | (with_reducible first | assumption | exact .refl _ | apply Within.ite) | with_reducible apply Within.queues_set | exact rfl

theorem Dev.refreshAlive_within {M : Nat} {d₀ d : Dev} (hM : Sub 0 M) (hW : Within M d₀ d) :
    Within M d₀ (d.refreshAlive) := by
  refine hW.step ?_ hM
  clear hW hM
  unfold Dev.refreshAlive
  repeat' first | (with_reducible first | assumption | exact .refl _ | apply Dev.setN_within) | exact rfl

theorem Dev.setCopies_within {M : Nat} {d₀ d : Dev} (hM : Sub 0 M) (hW : Within M d₀ d) (it : Item) (n : Nat) :
    Within M d₀ (d.setCopies it n) := by
  refine hW.step ?_ hM
  clear hW hM
  unfold Dev.setCopies
  repeat' first | (with_reducible first | assumption | exact .refl _ | apply Within.ite) | with_reducible apply Within.books_set | exact rfl

theorem Dev.genInc_within {M : Nat} {d₀ d : Dev} (hM : Sub 0 M) (hW : Within M d₀ d) (it : Item) :
    Within M d₀ (d.genInc it) := by
  refine hW.step ?_ hM
  clear hW hM
  unfold Dev.genInc
  repeat' first | (with_reducible first | assumption | exact .refl _ | apply Dev.bump_within | apply Dev.refreshAlive_within | apply Dev.setCopies_within | apply Within.ite) | extract_lets | exact rfl

theorem Dev.genDec_within {M : Nat} {d₀ d : Dev} (hM : Sub 0 M) (hW : Within M d₀ d) (it : Item) :
    Within M d₀ (d.genDec it) := by
  refine hW.step ?_ hM
  clear hW hM
  unfold Dev.genDec
  repeat' first | (with_reducible first | assumption | exact .refl _ | apply Dev.drop_within | apply Dev.refreshAlive_within | apply Dev.setCopies_within | apply Within.ite) | extract_lets | exact rfl

theorem Dev.refreshQ_within {M : Nat} {d₀ d : Dev} (hM : Sub 0 M) (hW : Within M d₀ d) (q : Nat) :
    Within M d₀ (d.refreshQ q) := by
  refine hW.step ?_ hM
  clear hW hM
  unfold Dev.refreshQ
  repeat' first | (with_reducible first | assumption | exact .refl _ | apply Dev.setN_within | split) | extract_lets | exact rfl

theorem Dev.takeCells_within {M : Nat} {d₀ d : Dev} (hM : Sub 0 M) (hW : Within M d₀ d) (n : Nat) :
    Within M d₀ (d.takeCells n) := by
  refine hW.step ?_ hM
  clear hW hM
  unfold Dev.takeCells
  repeat' first | (with_reducible first | assumption | exact .refl _ | apply Dev.setN_within) | extract_lets | exact rfl

theorem Dev.giveCells_within {M : Nat} {d₀ d : Dev} (hM : Sub 0 M) (hW : Within M d₀ d) (n : Nat) :
    Within M d₀ (d.giveCells n) := by
  refine hW.step ?_ hM
  clear hW hM
  unfold Dev.giveCells
  repeat' first | (with_reducible first | assumption | exact .refl _ | apply Dev.setN_within) | exact rfl

theorem Dev.unqueue_within {M : Nat} {d₀ d : Dev} (hM : Sub 0 M) (hW : Within M d₀ d) (q : Nat) (it : Item) :
    Within M d₀ (d.unqueue q it) := by
  refine hW.step ?_ hM
  clear hW hM
  unfold Dev.unqueue
  repeat' first | (with_reducible first | assumption | exact .refl _ | apply Dev.giveCells_within | apply Dev.setQ_within) | extract_lets | exact rfl

theorem Dev.countDrop_within {M : Nat} {d₀ d : Dev} (hM : Sub 0 M) (hW : Within M d₀ d) (q : Nat) (it : Item) :
    Within M d₀ (d.countDrop q it) := by
  refine hW.step ?_ hM
  clear hW hM
  unfold Dev.countDrop
  repeat' first | (with_reducible first | assumption | exact .refl _ | apply Dev.bump_within | apply Dev.genDec_within | (apply Within.when ?_ (fun d => ?_))) | exact rfl

theorem Dev.admitItem_within {M : Nat} {d₀ d : Dev} (hM : Sub 0 M) (hW : Within M d₀ d) (q : Nat) (it : Item) :
    Within M d₀ (d.admitItem q it) := by
  refine hW.step ?_ hM
  clear hW hM
  unfold Dev.admitItem
  repeat' first | (with_reducible first | assumption | exact .refl _ | apply Dev.bump_within | apply Dev.setQ_within | apply Dev.takeCells_within | apply Within.ite) | extract_lets | exact rfl

theorem Dev.makeRoom_within (d : Dev) (q : Nat) (it : Item) (fuel n : Nat) : Within 0 d (d.makeRoom q it fuel n).1 := by
  induction fuel generalizing d n with
  | zero => exact .refl _
  | succ fuel ih =>
    rw [Dev.makeRoom]
    split
    · exact Dev.admitItem_within .zero (.refl _) _ _
    · split
      · exact .refl _
      · split
        · exact .refl _
        · exact (Dev.countDrop_within .zero (Dev.unqueue_within .zero (.refl _) _ _) _ _).trans (ih _ _)

theorem Dev.absentReply_within {M : Nat} {d₀ d : Dev} (hM : Sub 0 M) (hW : Within M d₀ d) (i : Nat) :
    Within M d₀ (d.absentReply i) := Within.ite (Dev.bump_within hM hW _) hW

theorem Dev.absentDrop_within {M : Nat} {d₀ d : Dev} (hM : Sub 0 M) (hW : Within M d₀ d) (it : Item) :
    Within M d₀ (d.absentDrop it) := Within.when hW fun _ => Dev.bump_within hM (.refl _) _

theorem Dev.enqueueCore_within {M : Nat} {a d : Dev} (hM : Sub 0 M) (h : Within M a d) (q : Nat) (it : Item) :
    Within M a (d.enqueueCore q it).dev := by
  refine h.step ?_ hM
  clear h hM
  unfold Dev.enqueueCore
  split
  · exact Dev.absentReply_within (d := d) .zero (.refl _) Isl.qmg
  · split
    · exact Dev.refreshQ_within .zero (Dev.bump_within .zero (.refl _) _) _
    · dsimp only
      apply Dev.refreshQ_within .zero
      have k := Dev.makeRoom_within (d.when (d.holdsGen q) fun d => d.genInc it) q it
      have g : Within 0 d (d.when (d.holdsGen q) fun d => d.genInc it) :=
        .when (.refl _) fun d => Dev.genInc_within .zero (.refl _) _
      split
      · exact g.trans (k _ _)
      · exact Dev.countDrop_within .zero (g.trans (k _ _)) _ _

theorem Dev.dequeue_of {M : Nat} {a d e : Dev} {q : Nat} {it : Item} (hM : Sub 0 M) (h : Within M a d)
    (k : d.dequeue q = some (it, e)) : Within M a e := by
  unfold Dev.dequeue at k
  split at k
  · cases k
  · simp only [Option.some.injEq, Prod.mk.injEq] at k
    obtain ⟨-, rfl⟩ := k
    exact Dev.refreshQ_within hM (Dev.setQ_within hM (Dev.unqueue_within hM h _ _) _ _) _

theorem Dev.readQueue_of {M : Nat} {a d e : Dev} {q : Nat} {it : Item} (hM : Sub 0 M) (h : Within M a d)
    (k : d.readQueue q = some (it, e)) : Within M a e := by
  unfold Dev.readQueue at k
  split at k
  · cases k
  · exact Dev.dequeue_of hM h k

end Sys2Proof.Machine
end

