-- ==== Sys2Proof/Laws/LogFrame.lean ====
section
/-! SUPPORT. What the operations of Machine/Log.lean leave alone. -/
namespace Sys2Proof.Machine

theorem Dev.logRing_within {M : Nat} {d₀ d : Dev} (hM : Sub 0 M) (hW : Within M d₀ d) (ev : Ev) :
    Within M d₀ (d.logRing ev) := by
  refine hW.step ?_ hM
  clear hW hM
  unfold Dev.logRing
  repeat' first | (with_reducible first | assumption | exact .refl _ | apply Dev.bump_within | apply Dev.nextSeq_within | apply Dev.setN_within | (apply Within.when ?_ (fun d => ?_)) | apply Within.ite) | extract_lets | with_reducible apply Within.log_set | exact rfl

theorem Dev.postEvent_within {M : Nat} {d₀ d : Dev} (hM : Sub 0 M) (hW : Within M d₀ d) (p : Nat) (it : Item) :
    Within M d₀ (d.postEvent p it) := by
  refine hW.step ?_ hM
  clear hW hM
  unfold Dev.postEvent
  repeat' first | (with_reducible first | assumption | exact .refl _ | apply Dev.bumpBy_within | apply Within.ite) | apply Dev.enqueueCore_within | extract_lets | exact rfl

theorem Dev.event_within {M : Nat} {d₀ d : Dev} (hM : Sub 0 M) (hW : Within M d₀ d) (ev : Ev) :
    Within M d₀ (d.event ev) := by
  refine hW.step ?_ hM
  clear hW hM
  unfold Dev.event
  repeat' first | (with_reducible first | assumption | exact .refl _ | apply Dev.logRing_within | apply Dev.postEvent_within | (apply Within.each ?_ (fun d x => ?_)) | (apply Within.when ?_ (fun d => ?_))) | extract_lets | exact rfl

theorem Dev.enqueue_within {M : Nat} {d₀ d : Dev} (hM : Sub 0 M) (hW : Within M d₀ d) (q : Nat) (it : Item) :
    Within M d₀ (d.enqueue q it) := by
  refine hW.step ?_ hM
  clear hW hM
  unfold Dev.enqueue
  repeat' first | (with_reducible first | assumption | exact .refl _ | apply Dev.event_within | apply Dev.setQ_within | (apply Within.when ?_ (fun d => ?_)) | apply Within.ite | split) | apply Dev.enqueueCore_within | extract_lets | exact rfl

theorem Dev.judgeLate_snd {M : Nat} {d₀ d : Dev} (hM : Sub 0 M) (h : Within M d₀ d) (it : Item) (late : Bool) :
    Within M d₀ (d.judgeLate it late).2 := by
  refine h.step ?_ hM
  clear h hM
  unfold Dev.judgeLate
  try dsimp only
  repeat' split
  repeat' first | (with_reducible first | assumption | exact .refl _ | apply Dev.event_within | apply Within.ite) | exact rfl

theorem Dev.judgeLate_of {M : Nat} {d₀ d e : Dev} {it : Item} {late : Bool} {a₀ : Item} (hM : Sub 0 M) (h : Within M d₀ d)
    (hx : d.judgeLate it late = (a₀, e)) : Within M d₀ e := by
  have g := Dev.judgeLate_snd hM h it late
  rwa [hx] at g

theorem Dev.peerEntry_of {M : Nat} {a d e : Dev} {ip port : Nat} {r : Option Nat} (hM : Sub 33554432 M) (h : Within M a d)
    (k : d.peerEntry ip port = (r, e)) : Within M a e := by
  refine h.step ?_ hM
  clear h hM
  unfold Dev.peerEntry at k
  dsimp only at k
  repeat' split at k
  all_goals
    obtain ⟨-, rfl⟩ := Prod.mk.inj k
    first | exact .refl _ | exact Within.partners_set rfl (.refl _)

theorem Dev.whoId_of {M : Nat} {a d e : Dev} {w : Who} {r : Option Nat} (hM : Sub 33554432 M) (h : Within M a d)
    (k : d.whoId w = (r, e)) : Within M a e := by
  unfold Dev.whoId at k
  split at k
  · split at k
    · obtain ⟨-, rfl⟩ := Prod.mk.inj k
      exact h
    · obtain ⟨-, rfl⟩ := Prod.mk.inj k
      exact h.step (Within.partners_set rfl (.refl _)) hM
  · exact Dev.peerEntry_of hM h k

theorem Dev.onPartner_within {M : Nat} {d₀ d : Dev} (hM : Sub 33554432 M) (hW : Within M d₀ d) (id : Nat) (f : Partner → Partner) :
    Within M d₀ (d.onPartner id f) := by
  refine hW.step ?_ hM
  clear hW hM
  unfold Dev.onPartner
  repeat' first | (with_reducible first | assumption | exact .refl _ | apply Within.ite) | with_reducible apply Within.partners_set | exact rfl

theorem Dev.partViol_within {M : Nat} {d₀ d : Dev} (hM : Sub 0 M) (hW : Within M d₀ d) (id : Nat) :
    Within M d₀ (d.partViol id) := by
  refine hW.step ?_ hM
  clear hW hM
  unfold Dev.partViol
  repeat' first | (with_reducible first | assumption | exact .refl _ | apply Dev.bump_within | apply Within.ite) | exact rfl

theorem Dev.violate_within {M : Nat} {d₀ d : Dev} (hM : Sub 33554432 M) (hW : Within M d₀ d) (who : Who) (mk : Nat → Ev) :
    Within M d₀ (d.violate who mk) := by
  refine hW.step ?_ hM
  clear hW hM
  unfold Dev.violate
  repeat' first | (with_reducible first | assumption | exact .refl _ | apply Dev.bump_within | apply Dev.event_within | apply Dev.onPartner_within | apply Dev.partViol_within | apply Within.ite | split) | refine Dev.whoId_of rfl ?_ (by assumption) | extract_lets | exact rfl

theorem Dev.quarantineDrop_within {M : Nat} {d₀ d : Dev} (hM : Sub 33554432 M) (hW : Within M d₀ d) (id : Nat) :
    Within M d₀ (d.quarantineDrop id) := by
  refine hW.step ?_ hM
  clear hW hM
  unfold Dev.quarantineDrop
  repeat' first | (with_reducible first | assumption | exact .refl _ | apply Dev.onPartner_within) | exact rfl

theorem Dev.quarantineEnd_within {M : Nat} {d₀ d : Dev} (hM : Sub 33554432 M) (hW : Within M d₀ d) (id : Nat) :
    Within M d₀ (d.quarantineEnd id) := by
  refine hW.step ?_ hM
  clear hW hM
  unfold Dev.quarantineEnd
  repeat' first | (with_reducible first | assumption | exact .refl _ | apply Dev.drop_within | apply Dev.event_within | apply Dev.onPartner_within | apply Within.ite | split) | extract_lets | exact rfl

theorem Dev.pointEvent_within {M : Nat} {d₀ d : Dev} (hM : Sub 0 M) (hW : Within M d₀ d) (point : Nat) (slot : Nat) (ev : Ev) :
    Within M d₀ (d.pointEvent point slot ev) := by
  refine hW.step ?_ hM
  clear hW hM
  unfold Dev.pointEvent
  repeat' first | (with_reducible first | assumption | exact .refl _ | apply Dev.event_within | apply Within.ite | split) | extract_lets | with_reducible apply Within.handAt_set | exact rfl

theorem Dev.handover_within {M : Nat} {d₀ d : Dev} (hM : Sub 0 M) (hW : Within M d₀ d) (point : Nat) (iface : Nat) (src : Nat) (num : Nat) (f : Found) :
    Within M d₀ (d.handover point iface src num f) := by
  refine hW.step ?_ hM
  clear hW hM
  unfold Dev.handover
  repeat' first | (with_reducible first | assumption | exact .refl _ | apply Dev.bump_within | apply Dev.bumpBy_within | apply Dev.pointEvent_within | (apply Within.when ?_ (fun d => ?_)) | apply Within.ite | split) | extract_lets | exact rfl

theorem Dev.countFcs_within {M : Nat} {d₀ d : Dev} (hM : Sub 0 M) (hW : Within M d₀ d) (port : Nat) (f : Found) :
    Within M d₀ (d.countFcs port f) := by
  refine hW.step ?_ hM
  clear hW hM
  unfold Dev.countFcs
  repeat' first | (with_reducible first | assumption | exact .refl _ | apply Dev.bump_within | (apply Within.when ?_ (fun d => ?_))) | exact rfl

theorem Dev.recordCheck_of {M : Nat} {a d e : Dev} {point q : Nat} {it : Item} {f : Found} {r : Option Item} (hM : Sub 0 M)
    (h : Within M a d) (k : d.recordCheck point q it f = (r, e)) : Within M a e := by
  refine h.step ?_ hM
  clear h hM
  unfold Dev.recordCheck at k
  split at k
  all_goals
    obtain ⟨-, rfl⟩ := Prod.mk.inj k
    repeat' first | (with_reducible first | exact .refl _ | apply Dev.handover_within | apply Dev.pointEvent_within | apply Dev.bump_within | apply Dev.bumpBy_within | apply Within.when ?_ (fun d => ?_)) | exact rfl

end Sys2Proof.Machine
end

