-- ==== Sys2Proof/Laws/FramesFrame.lean ====
section
/-! SUPPORT. What the operations of Machine/Frames.lean leave alone. -/
namespace Sys2Proof.Machine

theorem Dev.onTu_within {M : Nat} {d₀ d : Dev} (hM : Sub 512 M) (hW : Within M d₀ d) (f : Tu → Tu) :
    Within M d₀ (d.onTu f) := by
  refine hW.step ?_ hM
  clear hW hM
  unfold Dev.onTu
  repeat' first | (with_reducible first | assumption | exact .refl _) | with_reducible apply Within.tu_set | exact rfl

theorem Dev.hold_within {M : Nat} {d₀ d : Dev} (hM : Sub 512 M) (hW : Within M d₀ d) (syn : Nat) (cmd : HeldCmd) :
    Within M d₀ (d.hold syn cmd) := by
  refine hW.step ?_ hM
  clear hW hM
  unfold Dev.hold
  repeat' first | (with_reducible first | assumption | exact .refl _ | apply Dev.bump_within | apply Dev.event_within | apply Dev.onTu_within) | exact rfl

theorem Dev.unhold_within {M : Nat} {d₀ d : Dev} (hM : Sub 512 M) (hW : Within M d₀ d) (c : HeldCmd) :
    Within M d₀ (d.unhold c) := by
  refine hW.step ?_ hM
  clear hW hM
  unfold Dev.unhold
  repeat' first | (with_reducible first | assumption | exact .refl _ | apply Dev.onTu_within) | exact rfl

theorem Dev.ethOut_within {M : Nat} {d₀ d : Dev} (hM : Sub 512 M) (hW : Within M d₀ d) (port : Nat) (o : Output) :
    Within M d₀ (d.ethOut port o) := by
  refine hW.step ?_ hM
  clear hW hM
  unfold Dev.ethOut
  repeat' first | (with_reducible first | assumption | exact .refl _ | apply Dev.bump_within | apply Dev.hold_within | apply Dev.send_within | apply Within.ite) | exact rfl

theorem Dev.ethSend_within {M : Nat} {d₀ d : Dev} (hM : Sub 512 M) (hW : Within M d₀ d) (port : Nat) (kind : FrameKind) (fields : List Int) (payload : Bytes) :
    Within M d₀ (d.ethSend port kind fields payload) := by
  refine hW.step ?_ hM
  clear hW hM
  unfold Dev.ethSend
  repeat' first | (with_reducible first | assumption | exact .refl _ | apply Dev.ethOut_within) | exact rfl

end Sys2Proof.Machine
end

