-- ==== Sys2Proof/Laws/ConnsFrame.lean ====
section
/-! SUPPORT. What the operations of Machine/Conns.lean leave alone. -/
namespace Sys2Proof.Machine

theorem Dev.onVirek_within {M : Nat} {d₀ d : Dev} (hM : Sub 524288 M) (hW : Within M d₀ d) (f : Virek → Virek) :
    Within M d₀ (d.onVirek f) := by
  refine hW.step ?_ hM
  clear hW hM
  unfold Dev.onVirek
  repeat' first | (with_reducible first | assumption | exact .refl _) | with_reducible apply Within.virek_set | exact rfl

theorem Dev.onConn_within {M : Nat} {d₀ d : Dev} (hM : Sub 524288 M) (hW : Within M d₀ d) (slot : Nat) (f : Conn → Conn) :
    Within M d₀ (d.onConn slot f) := by
  refine hW.step ?_ hM
  clear hW hM
  unfold Dev.onConn
  repeat' first | (with_reducible first | assumption | exact .refl _ | apply Dev.onVirek_within | split) | exact rfl

theorem Dev.virekEvent_within {M : Nat} {d₀ d : Dev} (hM : Sub 0 M) (hW : Within M d₀ d) (p : Nat) (ev : Ev) :
    Within M d₀ (d.virekEvent p ev) := by
  refine hW.step ?_ hM
  clear hW hM
  unfold Dev.virekEvent
  repeat' first | (with_reducible first | assumption | exact .refl _ | apply Dev.event_within | apply Dev.postEvent_within | (apply Within.when ?_ (fun d => ?_))) | extract_lets | exact rfl

theorem Dev.closeConn_within {M : Nat} {d₀ d : Dev} (hM : Sub 524288 M) (hW : Within M d₀ d) (slot : Nat) (cause : CloseCause) :
    Within M d₀ (d.closeConn slot cause) := by
  refine hW.step ?_ hM
  clear hW hM
  unfold Dev.closeConn
  repeat' first | (with_reducible first | assumption | exact .refl _ | apply Dev.drop_within | apply Dev.onVirek_within | apply Dev.virekEvent_within | split) | extract_lets | exact rfl

theorem Dev.closeConns_within {M : Nat} {d₀ d : Dev} (hM : Sub 524288 M) (hW : Within M d₀ d) (cause : CloseCause) (f : Conn → Bool) :
    Within M d₀ (d.closeConns cause f) := by
  refine hW.step ?_ hM
  clear hW hM
  unfold Dev.closeConns
  repeat' first | (with_reducible first | assumption | exact .refl _ | apply Dev.closeConn_within | (apply Within.each ?_ (fun d x => ?_))) | exact rfl

theorem Dev.connNotice_within {M : Nat} {d₀ d : Dev} (hM : Sub 0 M) (hW : Within M d₀ d) (k : Nat) (code : Nat) (d2 : Int) :
    Within M d₀ (d.connNotice k code d2) := by
  refine hW.step ?_ hM
  clear hW hM
  unfold Dev.connNotice
  repeat' first | (with_reducible first | assumption | exact .refl _ | apply Dev.virekEvent_within | (apply Within.each ?_ (fun d x => ?_))) | exact rfl

end Sys2Proof.Machine
end

