-- ==== Sys2Proof/Laws/ServiceFrame.lean ====
section
/-! SUPPORT. What the operations of Machine/Service.lean leave alone. -/
namespace Sys2Proof.Machine

theorem Dev.onSession_within {M : Nat} {d₀ d : Dev} (hM : Sub 2097152 M) (hW : Within M d₀ d) (sid : Nat) (f : Session → Session) :
    Within M d₀ (d.onSession sid f) := by
  refine hW.step ?_ hM
  clear hW hM
  unfold Dev.onSession
  repeat' first | (with_reducible first | assumption | exact .refl _ | apply Within.ite) | with_reducible apply Within.dict_set | exact rfl

theorem Dev.post_within {M : Nat} {d₀ d : Dev} (hM : Sub 4194816 M) (hW : Within M d₀ d) (c : Carrier) (port : Nat) (o : Output) :
    Within M d₀ (d.post c port o) := by
  refine hW.step ?_ hM
  clear hW hM
  unfold Dev.post
  repeat' first | (with_reducible first | assumption | exact .refl _ | apply Dev.ethOut_within | apply Dev.send_within | apply Within.ite | split) | extract_lets | with_reducible apply Within.mbox_set | exact rfl

theorem Dev.plainAnswer_within {M : Nat} {d₀ d : Dev} (hM : Sub 4194816 M) (hW : Within M d₀ d) (hd : Hdr) (a : Ans) :
    Within M d₀ (d.plainAnswer hd a) := by
  refine hW.step ?_ hM
  clear hW hM
  unfold Dev.plainAnswer
  repeat' first | (with_reducible first | assumption | exact .refl _ | apply Dev.post_within) | exact rfl

theorem Dev.endSession_within {M : Nat} {d₀ d : Dev} (hM : Sub 2097152 M) (hW : Within M d₀ d) (sid : Nat) (cause : EndCause) :
    Within M d₀ (d.endSession sid cause) := by
  refine hW.step ?_ hM
  clear hW hM
  unfold Dev.endSession
  repeat' first | (with_reducible first | assumption | exact .refl _ | apply Dev.drop_within | apply Dev.event_within | (apply Within.each ?_ (fun d x => ?_)) | split) | extract_lets | with_reducible apply Within.dict_set | exact rfl

theorem Dev.sessionAnswer_within {M : Nat} {d₀ d : Dev} (hM : Sub 6291968 M) (hW : Within M d₀ d) (se : Session) (tag : Nat) (op : Nat) (seg : Nat) (more : Bool) (a : Ans) :
    Within M d₀ (d.sessionAnswer se tag op seg more a) := by
  refine hW.step ?_ hM
  clear hW hM
  unfold Dev.sessionAnswer
  repeat' first | (with_reducible first | assumption | exact .refl _ | apply Dev.endSession_within | apply Dev.onSession_within | apply Dev.post_within | apply Within.ite | split) | extract_lets | exact rfl

theorem Dev.sendSegments_within {M : Nat} {d₀ d : Dev} (hM : Sub 6291968 M) (h : Within M d₀ d) (se : Session) (tag op : Nat)
    (a : Ans) (i : Nat) (l : List Bytes) : Within M d₀ (d.sendSegments se tag op a i l) := by
  induction l generalizing d i with
  | nil => exact h
  | cons b l ih => exact ih (Dev.sessionAnswer_within hM h _ _ _ _ _ _) (i + 1)

theorem Dev.answerAll_within {M : Nat} {d₀ d : Dev} (hM : Sub 6291968 M) (hW : Within M d₀ d) (se : Session) (tag : Nat) (op : Nat) (a : Ans) :
    Within M d₀ (d.answerAll se tag op a) := by
  refine hW.step ?_ hM
  clear hW hM
  unfold Dev.answerAll
  repeat' first | (with_reducible first | assumption | exact .refl _ | apply Dev.sessionAnswer_within | apply Within.ite) | apply Dev.sendSegments_within | exact rfl

theorem Dev.endSessions_within {M : Nat} {d₀ d : Dev} (hM : Sub 2097152 M) (hW : Within M d₀ d) (cause : EndCause) (f : Session → Bool) :
    Within M d₀ (d.endSessions cause f) := by
  refine hW.step ?_ hM
  clear hW hM
  unfold Dev.endSessions
  repeat' first | (with_reducible first | assumption | exact .refl _ | apply Dev.endSession_within | (apply Within.each ?_ (fun d x => ?_))) | exact rfl

theorem Dev.complete_within {M : Nat} {d₀ d : Dev} (hM : Sub 6291968 M) (hW : Within M d₀ d) (sid : Nat) (tag : Nat) (op : Nat) (payload : Bytes) (seq : Nat) (a : Ans) :
    Within M d₀ (d.complete sid tag op payload seq a) := by
  refine hW.step ?_ hM
  clear hW hM
  unfold Dev.complete
  repeat' first | (with_reducible first | assumption | exact .refl _ | apply Dev.absentReply_within | (apply Within.when ?_ (fun d => ?_)) | apply Dev.answerAll_within | apply Dev.onSession_within | apply Within.ite | split) | extract_lets | exact rfl

theorem Dev.ighViolation_within {M : Nat} {d₀ d : Dev} (hM : Sub 33554432 M) (hW : Within M d₀ d) (hd : Hdr) (status : Nat) :
    Within M d₀ (d.ighViolation hd status) := by
  refine hW.step ?_ hM
  clear hW hM
  unfold Dev.ighViolation
  repeat' first | (with_reducible first | assumption | exact .refl _ | apply Dev.bump_within | apply Dev.violate_within | apply Within.ite) | extract_lets | exact rfl

theorem Dev.beforeReady_within {M : Nat} {d₀ d : Dev} (hM : Sub 6291968 M) (hW : Within M d₀ d) (hd : Hdr) (fault : Option Nat) :
    Within M d₀ (d.beforeReady hd fault) := by
  refine hW.step ?_ hM
  clear hW hM
  unfold Dev.beforeReady
  repeat' first | (with_reducible first | assumption | exact .refl _ | apply Dev.bump_within | apply Dev.plainAnswer_within | (apply Within.when ?_ (fun d => ?_)) | apply Within.ite | split) | extract_lets | with_reducible apply Within.dict_set | exact rfl

theorem Dev.carrierStop_of {M : Nat} {d₀ d e : Dev} {hd : Hdr} (h : Within M d₀ d) (k : d.carrierStop hd = some e) :
    Within M d₀ e := by
  unfold Dev.carrierStop at k
  repeat' split at k
  all_goals
    first
    | (cases k; done)
    | (obtain rfl := Option.some.inj k; first | exact h | exact Dev.bump_within .zero h _)

theorem Dev.preCheck_of {M : Nat} {d₀ d e : Dev} {hd : Hdr} {op : Nat} {payload : Bytes} (hM : Sub 39846400 M)
    (h : Within M d₀ d) (k : d.preCheck hd op payload = some e) : Within M d₀ e := by
  refine h.step ?_ hM
  clear h hM
  unfold Dev.preCheck at k
  dsimp only at k
  split at k
  · obtain rfl := Option.some.inj k
    exact Dev.carrierStop_of (.refl _) (by assumption)
  · repeat' split at k
    all_goals
      first
      | (cases k; done)
      | (obtain rfl := Option.some.inj k
         repeat' first
          | (with_reducible first | exact .refl _ | apply Dev.bump_within | apply Within.ite | apply Dev.ighViolation_within | apply Dev.beforeReady_within | apply Dev.plainAnswer_within | apply Dev.quarantineDrop_within)
          | exact rfl)

theorem Dev.countStart_within {M : Nat} {d₀ d : Dev} (hM : Sub 2097152 M) (hW : Within M d₀ d) (c : Carrier) :
    Within M d₀ (d.countStart c) := by
  refine hW.step ?_ hM
  clear hW hM
  unfold Dev.countStart
  repeat' first | (with_reducible first | assumption | exact .refl _ | apply Within.ite) | with_reducible apply Within.dict_set | exact rfl

theorem Dev.peerActive_within {M : Nat} {d₀ d : Dev} (hM : Sub 33554432 M) (hW : Within M d₀ d) (c : Carrier) :
    Within M d₀ (d.peerActive c) := by
  refine hW.step ?_ hM
  clear hW hM
  unfold Dev.peerActive
  repeat' first | (with_reducible first | assumption | exact .refl _ | apply Dev.onPartner_within | split) | exact rfl

theorem Dev.replay_within {M : Nat} {d₀ d : Dev} (hM : Sub 6291968 M) (hW : Within M d₀ d) (se : Session) (c : Cached) :
    Within M d₀ (d.replay se c) := by
  refine hW.step ?_ hM
  clear hW hM
  unfold Dev.replay
  repeat' first | (with_reducible first | assumption | exact .refl _ | apply Dev.answerAll_within) | exact rfl

/-- What of a device an admission can leave: a stop within the session parts, or the session and the device as they go on. -/
theorem Dev.admission_stop {M : Nat} {d₀ d e : Dev} {hd : Hdr} {op : Nat} {payload : Bytes} {multi : Bool}
    (hM : Sub 39846400 M) (h : Within M d₀ d) (k : d.admission hd op payload multi = .stop e) : Within M d₀ e := by
  refine h.step ?_ hM
  clear h hM
  unfold Dev.admission at k
  dsimp only at k
  repeat' split at k
  all_goals
    first
    | (cases k; done)
    | (obtain rfl := Adm.stop.inj k
       repeat' first
        | (with_reducible first | exact .refl _ | apply Dev.plainAnswer_within | apply Dev.ighViolation_within | apply Dev.onSession_within | apply Dev.replay_within | apply Dev.sessionAnswer_within | apply Dev.endSession_within | apply Dev.bump_within | apply Dev.peerActive_within | apply Dev.countStart_within)
        | refine Dev.preCheck_of rfl ?_ (by assumption)
        | exact rfl)

/-- A request that goes on has changed its session alone. -/
theorem Dev.admission_go {M : Nat} {d₀ d e : Dev} {hd : Hdr} {op : Nat} {payload : Bytes} {multi : Bool} {se : Session}
    (hM : Sub 39846400 M) (h : Within M d₀ d) (k : d.admission hd op payload multi = .go e se) : Within M d₀ e := by
  refine h.step ?_ hM
  clear h hM
  unfold Dev.admission at k
  dsimp only at k
  repeat' split at k
  all_goals
    first
    | (cases k; done)
    | (obtain ⟨rfl, -⟩ := Adm.go.inj k
       repeat' first
        | (with_reducible first | exact .refl _ | apply Dev.onSession_within | apply Dev.peerActive_within | apply Dev.countStart_within)
        | exact rfl)

theorem Dev.countCommit_within {M : Nat} {d₀ d : Dev} (hM : Sub 2097152 M) (hW : Within M d₀ d) :
    Within M d₀ (d.countCommit) := by
  refine hW.step ?_ hM
  clear hW hM
  unfold Dev.countCommit
  repeat' first | (with_reducible first | assumption | exact .refl _) | with_reducible apply Within.dict_set | exact rfl

theorem Dev.writeGate_stop {M : Nat} {d₀ d e : Dev} {c : Conds} {hd : Hdr} {cond : Option Nat} {idx sub : Nat} {v : Bytes}
    (hM : Sub 39846400 M) (h : Within M d₀ d) (k : d.writeGate c hd cond idx sub v = .stop e) : Within M d₀ e := by
  refine h.step ?_ hM
  clear h hM
  unfold Dev.writeGate at k
  dsimp only at k
  repeat' split at k
  all_goals
    first
    | (cases k; done)
    | (obtain rfl := Gate.stop.inj k
       repeat' first
        | (with_reducible first | exact .refl _ | apply Dev.complete_within)
        | refine Dev.admission_stop rfl ?_ (by assumption)
        | refine Dev.admission_go rfl ?_ (by assumption)
        | exact rfl)

theorem Dev.writeGate_pass {M : Nat} {d₀ d e : Dev} {c : Conds} {hd : Hdr} {cond : Option Nat} {idx sub : Nat} {v : Bytes}
    {se : Session} {n : Int} (hM : Sub 39846400 M) (h : Within M d₀ d)
    (k : d.writeGate c hd cond idx sub v = .pass e se n) : Within M d₀ e := by
  unfold Dev.writeGate at k
  dsimp only at k
  repeat' split at k
  all_goals
    first
    | (cases k; done)
    | (obtain ⟨rfl, -, -⟩ := Gate.pass.inj k
       exact Dev.admission_go hM h (by assumption))

theorem Dev.finishWrite_within {M : Nat} {d₀ d : Dev} (hM : Sub 6291968 M) (hW : Within M d₀ d) (hd : Hdr) (cond : Option Nat) (idx : Nat) (sub : Nat) (v : Bytes) (se : Session) :
    Within M d₀ (d.finishWrite hd cond idx sub v se) := by
  refine hW.step ?_ hM
  clear hW hM
  unfold Dev.finishWrite
  repeat' first | (with_reducible first | assumption | exact .refl _ | apply Dev.bumpVer_within | apply Dev.complete_within | apply Dev.countCommit_within | apply Dev.onSession_within | apply Within.ite | split) | extract_lets | with_reducible apply Within.dict_set | exact rfl

theorem Dev.writeReq_within {M : Nat} {d₀ d : Dev} {c : Conds} {hd : Hdr} {cond : Option Nat} {idx sub : Nat} {v : Bytes}
    {eff : Session → Int → Dev → Dev} (hM : Sub 39846400 M) (h : Within M d₀ d)
    (k : ∀ se n d, Within M d (eff se n d)) : Within M d₀ (d.writeReq c hd cond idx sub v eff) := by
  unfold Dev.writeReq
  split
  · exact Dev.writeGate_stop hM h (by assumption)
  · have g := Dev.writeGate_pass hM h (by assumption)
    exact (Dev.finishWrite_within (M := M) (d₀ := d₀) (Sub.trans (B := 39846400) rfl hM) (g.trans (k _ _ _)) _ _ _ _ _ _)

theorem Dev.writeStore_within {M : Nat} {d₀ d : Dev} {c : Conds} {hd : Hdr} {cond : Option Nat} {idx sub : Nat} {v : Bytes}
    {eff : Session → Int → Dev → Dev} (hM : Sub 39846400 M) (h : Within M d₀ d)
    (k : ∀ se n d, Within M d (eff se n d)) : Within M d₀ (d.writeStore c hd cond idx sub v eff) :=
  Dev.writeReq_within hM h fun _ _ _ => (Dev.set_within (.refl _) _ _).trans (k _ _ _)

end Sys2Proof.Machine
end

