-- ==== Sys2Proof/Laws/ReferencesFrame.lean ====
section
/-! SUPPORT. What the operations of Machine/References.lean leave alone. -/
namespace Sys2Proof.Machine

theorem Dev.steer_within {M : Nat} {d₀ d : Dev} (hM : Sub 512 M) (hW : Within M d₀ d) (to_ : Int) :
    Within M d₀ (d.steer to_) := by
  refine hW.step ?_ hM
  clear hW hM
  unfold Dev.steer
  repeat' first | (with_reducible first | assumption | exact .refl _ | apply Dev.onTu_within | apply Dev.set_within) | extract_lets | exact rfl

theorem Dev.rebase_within {M : Nat} {d₀ d : Dev} (hM : Sub 512 M) (hW : Within M d₀ d) (v : Int) :
    Within M d₀ (d.rebase v) := by
  refine hW.step ?_ hM
  clear hW hM
  unfold Dev.rebase
  repeat' first | (with_reducible first | assumption | exact .refl _ | apply Dev.onTu_within | apply Dev.set_within) | exact rfl

theorem Dev.closeLocked_within {M : Nat} {d₀ d : Dev} (hM : Sub 512 M) (hW : Within M d₀ d) :
    Within M d₀ (d.closeLocked) := by
  refine hW.step ?_ hM
  clear hW hM
  unfold Dev.closeLocked
  repeat' first | (with_reducible first | assumption | exact .refl _ | apply Dev.onTu_within | split) | exact rfl

theorem Dev.toSelector_within {M : Nat} {d₀ d : Dev} (hM : Sub 512 M) (hW : Within M d₀ d) (st : Int) (code : Nat) :
    Within M d₀ (d.toSelector st code) := by
  refine hW.step ?_ hM
  clear hW hM
  unfold Dev.toSelector
  repeat' first | (with_reducible first | assumption | exact .refl _ | apply Dev.closeLocked_within | apply Dev.event_within | apply Dev.onTu_within | apply Dev.set_within | apply Dev.setN_within | (apply Within.when ?_ (fun d => ?_)) | apply Within.ite) | extract_lets | exact rfl

theorem Dev.toHoldover_within {M : Nat} {d₀ d : Dev} (hM : Sub 512 M) (hW : Within M d₀ d) :
    Within M d₀ (d.toHoldover) := by
  refine hW.step ?_ hM
  clear hW hM
  unfold Dev.toHoldover
  repeat' first | (with_reducible first | assumption | exact .refl _ | apply Dev.event_within | apply Dev.set_within | apply Dev.steer_within | apply Dev.toSelector_within) | extract_lets | exact rfl

theorem Dev.toFreerun_within {M : Nat} {d₀ d : Dev} (hM : Sub 512 M) (hW : Within M d₀ d) :
    Within M d₀ (d.toFreerun) := by
  refine hW.step ?_ hM
  clear hW hM
  unfold Dev.toFreerun
  repeat' first | (with_reducible first | assumption | exact .refl _ | apply Dev.steer_within | apply Dev.toSelector_within) | exact rfl

theorem Dev.acquire_within {M : Nat} {d₀ d : Dev} (hM : Sub 512 M) (hW : Within M d₀ d) (code : Nat) :
    Within M d₀ (d.acquire code) := by
  refine hW.step ?_ hM
  clear hW hM
  unfold Dev.acquire
  repeat' first | (with_reducible first | assumption | exact .refl _ | apply Dev.steer_within | apply Dev.toSelector_within) | exact rfl

theorem Dev.onRef_within {M : Nat} {d₀ d : Dev} (hM : Sub 512 M) (hW : Within M d₀ d) (c : Nat) (f : RefRt → RefRt) :
    Within M d₀ (d.onRef c f) := by
  refine hW.step ?_ hM
  clear hW hM
  unfold Dev.onRef
  repeat' first | (with_reducible first | assumption | exact .refl _ | apply Dev.onTu_within) | exact rfl

theorem Dev.reselect_within {M : Nat} {d₀ d : Dev} (hM : Sub 512 M) (hW : Within M d₀ d) :
    Within M d₀ (d.reselect) := by
  refine hW.step ?_ hM
  clear hW hM
  unfold Dev.reselect
  repeat' first | (with_reducible first | assumption | exact .refl _ | apply Dev.acquire_within | apply Dev.toFreerun_within | apply Dev.toHoldover_within | apply Within.ite | split) | extract_lets | exact rfl

theorem Dev.toRef_within {M : Nat} {d₀ d : Dev} (hM : Sub 512 M) (hW : Within M d₀ d) (code : Nat) (st : Int) :
    Within M d₀ (d.toRef code st) := by
  refine hW.step ?_ hM
  clear hW hM
  unfold Dev.toRef
  repeat' first | (with_reducible first | assumption | exact .refl _ | apply Dev.event_within | apply Dev.onRef_within | apply Dev.set_within | (apply Within.when ?_ (fun d => ?_)) | apply Within.ite) | extract_lets | exact rfl

theorem Dev.ptpRefs_within {M : Nat} {d₀ d : Dev} (hM : Sub 512 M) (hW : Within M d₀ d) :
    Within M d₀ (d.ptpRefs) := by
  refine hW.step ?_ hM
  clear hW hM
  unfold Dev.ptpRefs
  repeat' first | (with_reducible first | assumption | exact .refl _ | apply Dev.reselect_within | apply Dev.toRef_within | (apply Within.each ?_ (fun d x => ?_)) | apply Within.ite) | extract_lets | exact rfl

end Sys2Proof.Machine
end

