-- ==== Sys2Proof/Laws/TimelineFrame.lean ====
section
/-! SUPPORT. What the operations of Machine/Timeline.lean leave alone. -/
namespace Sys2Proof.Machine

theorem Dev.onTl_within {M : Nat} {d₀ d : Dev} (hM : Sub 2 M) (hW : Within M d₀ d) (f : Timeline → Timeline) :
    Within M d₀ (d.onTl f) := by
  refine hW.step ?_ hM
  clear hW hM
  unfold Dev.onTl
  repeat' first | (with_reducible first | assumption | exact .refl _) | with_reducible apply Within.tl_set | exact rfl

theorem Dev.onServo_within {M : Nat} {d₀ d : Dev} (hM : Sub 4 M) (hW : Within M d₀ d) (f : Servo → Servo) :
    Within M d₀ (d.onServo f) := by
  refine hW.step ?_ hM
  clear hW hM
  unfold Dev.onServo
  repeat' first | (with_reducible first | assumption | exact .refl _) | with_reducible apply Within.servo_set | exact rfl

theorem Dev.wrapEra_within {M : Nat} {d₀ d : Dev} (hM : Sub 2 M) (hW : Within M d₀ d) :
    Within M d₀ (d.wrapEra) := by
  refine hW.step ?_ hM
  clear hW hM
  unfold Dev.wrapEra
  repeat' first | (with_reducible first | assumption | exact .refl _ | apply Dev.event_within | apply Dev.onTl_within) | extract_lets | exact rfl

theorem Dev.endSlew_within {M : Nat} {d₀ d : Dev} (hM : Sub 2 M) (hW : Within M d₀ d) :
    Within M d₀ (d.endSlew) := by
  refine hW.step ?_ hM
  clear hW hM
  unfold Dev.endSlew
  repeat' first | (with_reducible first | assumption | exact .refl _ | apply Dev.onTl_within) | exact rfl

theorem Dev.closeTrack_within {M : Nat} {d₀ d : Dev} (hM : Sub 4 M) (hW : Within M d₀ d) :
    Within M d₀ (d.closeTrack) := by
  refine hW.step ?_ hM
  clear hW hM
  unfold Dev.closeTrack
  repeat' first | (with_reducible first | assumption | exact .refl _ | apply Dev.onServo_within | split) | exact rfl

theorem Dev.markTrack_within {M : Nat} {d₀ d : Dev} (hM : Sub 4 M) (hW : Within M d₀ d) :
    Within M d₀ (d.markTrack) := by
  refine hW.step ?_ hM
  clear hW hM
  unfold Dev.markTrack
  repeat' first | (with_reducible first | assumption | exact .refl _ | apply Dev.closeTrack_within | apply Dev.onServo_within | apply Within.ite) | exact rfl

theorem Dev.tick_within {M : Nat} {d₀ d : Dev} (hM : Sub 6 M) (hW : Within M d₀ d) :
    Within M d₀ (d.tick) := by
  refine hW.step ?_ hM
  clear hW hM
  unfold Dev.tick
  repeat' first | (with_reducible first | assumption | exact .refl _ | apply Dev.endSlew_within | apply Dev.markTrack_within | apply Dev.onTl_within | apply Dev.wrapEra_within | (apply Within.when ?_ (fun d => ?_)) | apply Within.ite) | extract_lets | exact rfl

theorem execStampReplicaReload_within {wrong : List (Nat × Int)} {s t : State} (h : execStampReplicaReload wrong s = .next t) :
    Within 2 s.dev t.dev := by
  unfold execStampReplicaReload at h
  refine onDev_within h fun d => ?_
  repeat' first | (with_reducible first | assumption | exact .refl _ | apply Dev.event_within | apply Dev.onTl_within | (apply Within.each ?_ (fun d x => ?_)) | apply Within.ite) | extract_lets | exact rfl

theorem execEraWrap_within {s t : State} (h : execEraWrap s = .next t) :
    Within 6 s.dev t.dev := by
  unfold execEraWrap at h
  refine onDev_within h fun d => ?_
  repeat' first | (with_reducible first | assumption | exact .refl _ | apply Dev.tick_within | apply Within.ite) | exact rfl

theorem Dev.rebound_within {M : Nat} {d₀ d : Dev} (hM : Sub 6 M) (hW : Within M d₀ d) :
    Within M d₀ (d.rebound) := by
  refine hW.step ?_ hM
  clear hW hM
  unfold Dev.rebound
  repeat' first | (with_reducible first | assumption | exact .refl _ | apply Dev.markTrack_within | apply Dev.onTl_within | apply Within.ite) | extract_lets | exact rfl

theorem execSlewBoundWrite_within {hd : Hdr} {cond : Option Nat} {v : Bytes} {s t : State} (h : execSlewBoundWrite hd cond v s = .next t) :
    Within 39846406 s.dev t.dev := by
  unfold execSlewBoundWrite at h
  refine onDev_within h fun d => ?_
  repeat' first | (with_reducible first | assumption | exact .refl _ | apply Dev.rebound_within | refine Dev.writeStore_within ?_ ?_ (fun se n d => ?_)) | exact rfl

theorem Dev.beginSlew_within {M : Nat} {d₀ d : Dev} (hM : Sub 6 M) (hW : Within M d₀ d) (n : Int) :
    Within M d₀ (d.beginSlew n) := by
  refine hW.step ?_ hM
  clear hW hM
  unfold Dev.beginSlew
  repeat' first | (with_reducible first | assumption | exact .refl _ | apply Dev.endSlew_within | apply Dev.onTl_within | apply Dev.rebound_within | apply Within.ite) | extract_lets | exact rfl

theorem execManualSlew_within {hd : Hdr} {cond : Option Nat} {v : Bytes} {s t : State} (h : execManualSlew hd cond v s = .next t) :
    Within 39846406 s.dev t.dev := by
  unfold execManualSlew at h
  refine onDev_within h fun d => ?_
  repeat' first | (with_reducible first | assumption | exact .refl _ | apply Dev.beginSlew_within | refine Dev.writeReq_within ?_ ?_ (fun se n d => ?_)) | exact rfl

theorem execSlewAbsorbed_within {s t : State} (h : execSlewAbsorbed s = .next t) :
    Within 6 s.dev t.dev := by
  unfold execSlewAbsorbed at h
  refine onDev_within h fun d => ?_
  repeat' first | (with_reducible first | assumption | exact .refl _ | apply Dev.tick_within | apply Within.ite) | exact rfl

theorem Dev.holdRate_within {M : Nat} {d₀ d : Dev} (hM : Sub 6 M) (hW : Within M d₀ d) :
    Within M d₀ (d.holdRate) := by
  refine hW.step ?_ hM
  clear hW hM
  unfold Dev.holdRate
  repeat' first | (with_reducible first | assumption | exact .refl _ | apply Dev.closeTrack_within | apply Dev.onTl_within) | extract_lets | exact rfl

theorem Dev.toServo_within {M : Nat} {d₀ d : Dev} (hM : Sub 516 M) (hW : Within M d₀ d) (st : Int) :
    Within M d₀ (d.toServo st) := by
  refine hW.step ?_ hM
  clear hW hM
  unfold Dev.toServo
  repeat' first | (with_reducible first | assumption | exact .refl _ | apply Dev.closeTrack_within | apply Dev.hold_within | apply Dev.onServo_within | apply Dev.ptpRefs_within | apply Dev.set_within | apply Within.ite) | extract_lets | exact rfl

theorem Dev.onPtpPort_within {M : Nat} {d₀ d : Dev} (hM : Sub 4 M) (hW : Within M d₀ d) (port : Nat) (f : PtpPort → PtpPort) :
    Within M d₀ (d.onPtpPort port f) := by
  refine hW.step ?_ hM
  clear hW hM
  unfold Dev.onPtpPort
  repeat' first | (with_reducible first | assumption | exact .refl _ | apply Dev.onServo_within | apply Within.ite) | exact rfl

theorem Dev.refuseJump_within {M : Nat} {d₀ d : Dev} (hM : Sub 518 M) (hW : Within M d₀ d) (θ : Int) :
    Within M d₀ (d.refuseJump θ) := by
  refine hW.step ?_ hM
  clear hW hM
  unfold Dev.refuseJump
  repeat' first | (with_reducible first | assumption | exact .refl _ | apply Dev.bump_within | apply Dev.event_within | apply Dev.holdRate_within | apply Dev.set_within | apply Dev.toServo_within) | extract_lets | exact rfl

theorem Dev.setMaster_within {M : Nat} {d₀ d : Dev} (hM : Sub 4 M) (hW : Within M d₀ d) (m : Master) :
    Within M d₀ (d.setMaster m) := by
  refine hW.step ?_ hM
  clear hW hM
  unfold Dev.setMaster
  repeat' first | (with_reducible first | assumption | exact .refl _ | apply Dev.onServo_within | apply Dev.set_within | apply Within.ite) | extract_lets | exact rfl

theorem Dev.masterChange_within {M : Nat} {d₀ d : Dev} (hM : Sub 516 M) (hW : Within M d₀ d) (m : Master) :
    Within M d₀ (d.masterChange m) := by
  refine hW.step ?_ hM
  clear hW hM
  unfold Dev.masterChange
  repeat' first | (with_reducible first | assumption | exact .refl _ | apply Dev.event_within | apply Dev.hold_within | apply Dev.onServo_within | apply Dev.setMaster_within | apply Dev.setN_within | apply Dev.toServo_within | apply Within.ite) | extract_lets | exact rfl

theorem Dev.masterBack_within {M : Nat} {d₀ d : Dev} (hM : Sub 516 M) (hW : Within M d₀ d) (m : Master) :
    Within M d₀ (d.masterBack m) := by
  refine hW.step ?_ hM
  clear hW hM
  unfold Dev.masterBack
  repeat' first | (with_reducible first | assumption | exact .refl _ | apply Dev.event_within | apply Dev.onServo_within | apply Dev.setMaster_within | apply Dev.toServo_within | apply Within.ite) | extract_lets | exact rfl

theorem Dev.masterLost_within {M : Nat} {d₀ d : Dev} (hM : Sub 518 M) (hW : Within M d₀ d) :
    Within M d₀ (d.masterLost) := by
  refine hW.step ?_ hM
  clear hW hM
  unfold Dev.masterLost
  repeat' first | (with_reducible first | assumption | exact .refl _ | apply Dev.event_within | apply Dev.hold_within | apply Dev.holdRate_within | apply Dev.onServo_within | apply Dev.set_within | apply Dev.toServo_within | apply Within.ite) | extract_lets | exact rfl

theorem Dev.selectMaster_within {M : Nat} {d₀ d : Dev} (hM : Sub 516 M) (hW : Within M d₀ d) (m : Master) :
    Within M d₀ (d.selectMaster m) := by
  refine hW.step ?_ hM
  clear hW hM
  unfold Dev.selectMaster
  repeat' first | (with_reducible first | assumption | exact .refl _ | apply Dev.hold_within | apply Dev.masterBack_within | apply Dev.masterChange_within | apply Dev.setMaster_within | apply Within.ite) | exact rfl

theorem Dev.movePort_within {M : Nat} {d₀ d : Dev} (hM : Sub 518 M) (hW : Within M d₀ d) (port : Nat) :
    Within M d₀ (d.movePort port) := by
  refine hW.step ?_ hM
  clear hW hM
  unfold Dev.movePort
  repeat' first | (with_reducible first | assumption | exact .refl _ | apply Dev.masterLost_within | apply Dev.ptpRefs_within | apply Dev.selectMaster_within | apply Dev.setN_within | split) | extract_lets | exact rfl

theorem Dev.ptpPortCheck_within {M : Nat} {d₀ d : Dev} (hM : Sub 518 M) (hW : Within M d₀ d) (port : Nat) :
    Within M d₀ (d.ptpPortCheck port) := by
  refine hW.step ?_ hM
  clear hW hM
  unfold Dev.ptpPortCheck
  repeat' first | (with_reducible first | assumption | exact .refl _ | apply Dev.movePort_within | apply Dev.onPtpPort_within | (apply Within.when ?_ (fun d => ?_)) | apply Within.ite) | extract_lets | exact rfl

theorem Dev.setSource_within {M : Nat} {d₀ d : Dev} (hM : Sub 518 M) (hW : Within M d₀ d) (src : Int) :
    Within M d₀ (d.setSource src) := by
  refine hW.step ?_ hM
  clear hW hM
  unfold Dev.setSource
  repeat' first | (with_reducible first | assumption | exact .refl _ | apply Dev.movePort_within | apply Dev.onServo_within | apply Dev.setN_within | apply Dev.toServo_within | apply Within.ite) | extract_lets | exact rfl

theorem execPtpSourceWrite_within {hd : Hdr} {cond : Option Nat} {v : Bytes} {s t : State} (h : execPtpSourceWrite hd cond v s = .next t) :
    Within 39846406 s.dev t.dev := by
  unfold execPtpSourceWrite at h
  refine onDev_within h fun d => ?_
  repeat' first | (with_reducible first | assumption | exact .refl _ | apply Dev.setSource_within | refine Dev.writeStore_within ?_ ?_ (fun se n d => ?_)) | exact rfl

theorem Dev.steerTheta_within {M : Nat} {d₀ d : Dev} (hM : Sub 6 M) (hW : Within M d₀ d) (θ : Int) :
    Within M d₀ (d.steerTheta θ) := by
  refine hW.step ?_ hM
  clear hW hM
  unfold Dev.steerTheta
  repeat' first | (with_reducible first | assumption | exact .refl _ | apply Dev.closeTrack_within | apply Dev.drawn_within | apply Dev.onTl_within | apply Dev.set_within) | extract_lets | exact rfl

theorem Dev.followTheta_within {M : Nat} {d₀ d : Dev} (hM : Sub 518 M) (hW : Within M d₀ d) (θ : Int) :
    Within M d₀ (d.followTheta θ) := by
  refine hW.step ?_ hM
  clear hW hM
  unfold Dev.followTheta
  repeat' first | (with_reducible first | assumption | exact .refl _ | apply Dev.event_within | apply Dev.onServo_within | apply Dev.steerTheta_within | apply Dev.toServo_within | apply Within.ite) | extract_lets | exact rfl

theorem Dev.acceptOffset_within {M : Nat} {d₀ d : Dev} (hM : Sub 0 M) (hW : Within M d₀ d) (θ : Int) :
    Within M d₀ (d.acceptOffset θ) := by
  refine hW.step ?_ hM
  clear hW hM
  unfold Dev.acceptOffset
  repeat' first | (with_reducible first | assumption | exact .refl _ | apply Dev.bump_within | apply Dev.event_within | apply Dev.set_within) | extract_lets | exact rfl

theorem Dev.theta_within {M : Nat} {d₀ d : Dev} (hM : Sub 518 M) (hW : Within M d₀ d) (θ : Int) :
    Within M d₀ (d.theta θ) := by
  refine hW.step ?_ hM
  clear hW hM
  unfold Dev.theta
  repeat' first | (with_reducible first | assumption | exact .refl _ | apply Dev.acceptOffset_within | apply Dev.event_within | apply Dev.followTheta_within | apply Dev.onServo_within | apply Dev.refuseJump_within | apply Dev.set_within | apply Dev.steerTheta_within | apply Dev.toServo_within | apply Within.ite | split) | exact rfl

theorem Dev.sendDelayReq_within {M : Nat} {d₀ d : Dev} (hM : Sub 516 M) (hW : Within M d₀ d) (port : Nat) :
    Within M d₀ (d.sendDelayReq port) := by
  refine hW.step ?_ hM
  clear hW hM
  unfold Dev.sendDelayReq
  repeat' first | (with_reducible first | assumption | exact .refl _ | apply Dev.ethSend_within | apply Dev.onPtpPort_within | apply Within.ite) | extract_lets | exact rfl

theorem Dev.ptpIgnored_within {M : Nat} {d₀ d : Dev} (hM : Sub 4 M) (hW : Within M d₀ d) :
    Within M d₀ (d.ptpIgnored) := by
  refine hW.step ?_ hM
  clear hW hM
  unfold Dev.ptpIgnored
  repeat' first | (with_reducible first | assumption | exact .refl _ | apply Dev.onServo_within) | exact rfl

theorem execPtpSyncReceived_within {port : Fin 2} {source : Nat} {domain : Nat} {logInterval : Int} {t1 : Int} {s t : State} (h : execPtpSyncReceived port source domain logInterval t1 s = .next t) :
    Within 518 s.dev t.dev := by
  unfold execPtpSyncReceived at h
  refine onDev_within h fun d => ?_
  repeat' first | (with_reducible first | assumption | exact .refl _ | apply Dev.onServo_within | apply Dev.ptpIgnored_within | apply Dev.sendDelayReq_within | apply Dev.theta_within | apply Within.ite) | extract_lets | exact rfl

theorem execPtpAnnounceReceived_within {port : Fin 2} {domain : Nat} {m : Master} {s t : State} (h : execPtpAnnounceReceived port domain m s = .next t) :
    Within 516 s.dev t.dev := by
  unfold execPtpAnnounceReceived at h
  refine onDev_within h fun d => ?_
  repeat' first | (with_reducible first | assumption | exact .refl _ | apply Dev.onPtpPort_within | apply Dev.ptpIgnored_within | apply Dev.selectMaster_within | apply Within.ite | split) | extract_lets | exact rfl

theorem execAnnounceTimeout_within {port : Fin 2} {s t : State} (h : execAnnounceTimeout port s = .next t) :
    Within 518 s.dev t.dev := by
  unfold execAnnounceTimeout at h
  refine onDev_within h fun d => ?_
  repeat' first | (with_reducible first | assumption | exact .refl _ | apply Dev.masterLost_within | apply Dev.movePort_within | apply Dev.onPtpPort_within | apply Dev.selectMaster_within | apply Within.ite | split) | extract_lets | exact rfl

theorem execSyncLoss_within {s t : State} (h : execSyncLoss s = .next t) :
    Within 518 s.dev t.dev := by
  unfold execSyncLoss at h
  refine onDev_within h fun d => ?_
  repeat' first | (with_reducible first | assumption | exact .refl _ | apply Dev.masterLost_within | apply Within.ite) | exact rfl

theorem execAutoRevert_within {s t : State} (h : execAutoRevert s = .next t) :
    Within 518 s.dev t.dev := by
  unfold execAutoRevert at h
  refine onDev_within h fun d => ?_
  repeat' first | (with_reducible first | assumption | exact .refl _ | apply Dev.movePort_within | apply Within.ite | split) | extract_lets | exact rfl

theorem execGuardResponseAccept_within {hd : Hdr} {cond : Option Nat} {s t : State} (h : execGuardResponseAccept hd cond s = .next t) :
    Within 39846404 s.dev t.dev := by
  unfold execGuardResponseAccept at h
  refine onDev_within h fun d => ?_
  repeat' first | (with_reducible first | assumption | exact .refl _ | apply Dev.acceptOffset_within | apply Dev.toServo_within | refine Dev.writeReq_within ?_ ?_ (fun se n d => ?_)) | exact rfl

theorem execGuardResponseSlew_within {hd : Hdr} {cond : Option Nat} {s t : State} (h : execGuardResponseSlew hd cond s = .next t) :
    Within 39846406 s.dev t.dev := by
  unfold execGuardResponseSlew at h
  refine onDev_within h fun d => ?_
  repeat' first | (with_reducible first | assumption | exact .refl _ | apply Dev.onServo_within | apply Dev.steerTheta_within | apply Dev.toServo_within | refine Dev.writeReq_within ?_ ?_ (fun se n d => ?_)) | exact rfl

theorem execGmPortWrite_within {hd : Hdr} {cond : Option Nat} {v : Bytes} {s t : State} (h : execGmPortWrite hd cond v s = .next t) :
    Within 39846400 s.dev t.dev := by
  unfold execGmPortWrite at h
  refine onDev_within h fun d => ?_
  repeat' first | (with_reducible first | assumption | exact .refl _ | refine Dev.writeStore_within ?_ ?_ (fun se n d => ?_)) | exact rfl

theorem execGmSyncTransmit_within {s t : State} (h : execGmSyncTransmit s = .next t) :
    Within 516 s.dev t.dev := by
  unfold execGmSyncTransmit at h
  refine onDev_within h fun d => ?_
  repeat' first | (with_reducible first | assumption | exact .refl _ | apply Dev.ethSend_within | apply Dev.onServo_within | apply Within.ite) | extract_lets | exact rfl

theorem execGmAnnounceTransmit_within {s t : State} (h : execGmAnnounceTransmit s = .next t) :
    Within 516 s.dev t.dev := by
  unfold execGmAnnounceTransmit at h
  refine onDev_within h fun d => ?_
  repeat' first | (with_reducible first | assumption | exact .refl _ | apply Dev.ethSend_within | apply Dev.onServo_within | apply Within.ite) | extract_lets | exact rfl

theorem execPtpDelayRespReceived_within {port : Fin 2} {domain : Nat} {seq : Nat} {t4 : Int} {turn : Int × Int} {s t : State} (h : execPtpDelayRespReceived port domain seq t4 turn s = .next t) :
    Within 4 s.dev t.dev := by
  unfold execPtpDelayRespReceived at h
  refine onDev_within h fun d => ?_
  repeat' first | (with_reducible first | assumption | exact .refl _ | apply Dev.onPtpPort_within | apply Dev.ptpIgnored_within | apply Dev.set_within | apply Within.ite | split) | extract_lets | exact rfl

theorem execPtpDelayReqReceived_within {port : Fin 2} {domain : Nat} {seq : Nat} {requester : Nat} {peer : Bool} {s t : State} (h : execPtpDelayReqReceived port domain seq requester peer s = .next t) :
    Within 512 s.dev t.dev := by
  unfold execPtpDelayReqReceived at h
  refine onDev_within h fun d => ?_
  repeat' first | (with_reducible first | assumption | exact .refl _ | apply Dev.ethSend_within | apply Within.ite) | exact rfl

end Sys2Proof.Machine
end

