-- ==== Sys2Proof/Laws/FencesFrame.lean ====
section
/-! SUPPORT. What the operations of Machine/Fences.lean leave alone. -/
namespace Sys2Proof.Machine

theorem Dev.setFence_within {M : Nat} {d₀ d : Dev} (hM : Sub 8 M) (hW : Within M d₀ d) (f : Nat) (x : Fence) :
    Within M d₀ (d.setFence f x) := by
  refine hW.step ?_ hM
  clear hW hM
  unfold Dev.setFence
  repeat' first | (with_reducible first | assumption | exact .refl _ | apply Within.ite) | with_reducible apply Within.fences_set | exact rfl

theorem Dev.nextSeq_within {M : Nat} {d₀ d : Dev} (hM : Sub 0 M) (hW : Within M d₀ d) (kind : Nat) (num : Nat) :
    Within M d₀ (d.nextSeq kind num) := by
  refine hW.step ?_ hM
  clear hW hM
  unfold Dev.nextSeq
  repeat' first | (with_reducible first | assumption | exact .refl _) | with_reducible apply Within.seqs_set | exact rfl

theorem Dev.deliverWait_within {M : Nat} {d₀ d : Dev} (hM : Sub 1 M) (hW : Within M d₀ d) (w : Wait) (reset : Bool) :
    Within M d₀ (d.deliverWait w reset) := by
  refine hW.step ?_ hM
  clear hW hM
  unfold Dev.deliverWait
  repeat' first | (with_reducible first | assumption | exact .refl _ | apply Dev.enqueue_within | apply Dev.memWrite_within | apply Dev.nextSeq_within | apply Dev.send_within | (apply Within.when ?_ (fun d => ?_)) | apply Within.ite) | extract_lets | exact rfl

theorem Dev.completeWaits_within {M : Nat} {d₀ d : Dev} (hM : Sub 17 M) (hW : Within M d₀ d) (f : Nat) (reset : Bool) (met : Wait → Bool) :
    Within M d₀ (d.completeWaits f reset met) := by
  refine hW.step ?_ hM
  clear hW hM
  unfold Dev.completeWaits
  repeat' first | (with_reducible first | assumption | exact .refl _ | apply Dev.deliverWait_within | (apply Within.each ?_ (fun d x => ?_))) | extract_lets | with_reducible apply Within.waits_set | exact rfl

theorem Dev.testWaits_within {M : Nat} {d₀ d : Dev} (hM : Sub 17 M) (hW : Within M d₀ d) (f : Nat) :
    Within M d₀ (d.testWaits f) := by
  refine hW.step ?_ hM
  clear hW hM
  unfold Dev.testWaits
  repeat' first | (with_reducible first | assumption | exact .refl _ | apply Dev.completeWaits_within) | exact rfl

theorem Dev.noteLate_within {M : Nat} {d₀ d : Dev} (hM : Sub 0 M) (hW : Within M d₀ d) (f : Nat) :
    Within M d₀ (d.noteLate f) := by
  refine hW.step ?_ hM
  clear hW hM
  unfold Dev.noteLate
  repeat' first | (with_reducible first | assumption | exact .refl _ | apply Dev.bump_within | apply Dev.event_within | (apply Within.when ?_ (fun d => ?_))) | extract_lets | exact rfl

theorem Dev.fenceSignal_within {M : Nat} {d₀ d : Dev} (hM : Sub 25 M) (hW : Within M d₀ d) (f : Nat) (v : Nat) :
    Within M d₀ (d.fenceSignal f v) := by
  refine hW.step ?_ hM
  clear hW hM
  unfold Dev.fenceSignal
  repeat' first | (with_reducible first | assumption | exact .refl _ | apply Dev.noteLate_within | apply Dev.setFence_within | apply Dev.testWaits_within) | exact rfl

theorem Dev.signalFence_within {M : Nat} {d₀ d : Dev} (hM : Sub 27 M) (hW : Within M d₀ d) (f : Nat) (v : Nat) :
    Within M d₀ (d.signalFence f v) := by
  refine hW.step ?_ hM
  clear hW hM
  unfold Dev.signalFence
  repeat' first | (with_reducible first | assumption | exact .refl _ | apply Dev.fenceSignal_within | apply Within.ite) | with_reducible apply Within.tl_set | exact rfl

theorem Dev.tmgReturns_within {M : Nat} {d₀ d : Dev} (hM : Sub 27 M) (hW : Within M d₀ d) :
    Within M d₀ (d.tmgReturns) := by
  refine hW.step ?_ hM
  clear hW hM
  unfold Dev.tmgReturns
  repeat' first | (with_reducible first | assumption | exact .refl _ | apply Dev.fenceSignal_within | (apply Within.each ?_ (fun d x => ?_))) | extract_lets | with_reducible apply Within.tl_set | exact rfl

theorem Dev.fenceAdd_within {M : Nat} {d₀ d : Dev} (hM : Sub 25 M) (hW : Within M d₀ d) (f : Nat) (n : Nat) :
    Within M d₀ (d.fenceAdd f n) := by
  refine hW.step ?_ hM
  clear hW hM
  unfold Dev.fenceAdd
  repeat' first | (with_reducible first | assumption | exact .refl _ | apply Dev.bump_within | apply Dev.event_within | apply Dev.noteLate_within | apply Dev.setFence_within | apply Dev.testWaits_within | (apply Within.when ?_ (fun d => ?_))) | extract_lets | exact rfl

theorem Dev.fenceReset_within {M : Nat} {d₀ d : Dev} (hM : Sub 25 M) (hW : Within M d₀ d) (f : Nat) :
    Within M d₀ (d.fenceReset f) := by
  refine hW.step ?_ hM
  clear hW hM
  unfold Dev.fenceReset
  repeat' first | (with_reducible first | assumption | exact .refl _ | apply Dev.completeWaits_within | apply Dev.event_within | apply Dev.setFence_within | (apply Within.when ?_ (fun d => ?_))) | extract_lets | exact rfl

theorem Dev.fenceDeadline_within {M : Nat} {d₀ d : Dev} (hM : Sub 25 M) (hW : Within M d₀ d) (f : Nat) (deadline : Nat) (enabled : Bool) :
    Within M d₀ (d.fenceDeadline f deadline enabled) := by
  refine hW.step ?_ hM
  clear hW hM
  unfold Dev.fenceDeadline
  repeat' first | (with_reducible first | assumption | exact .refl _ | apply Dev.setFence_within | apply Dev.testWaits_within) | exact rfl

theorem Dev.barViolation_within {M : Nat} {d₀ d : Dev} (hM : Sub 33554432 M) (hW : Within M d₀ d) (fn : Nat) (p : Nat) (off : Nat) :
    Within M d₀ (d.barViolation fn p off) := by
  refine hW.step ?_ hM
  clear hW hM
  unfold Dev.barViolation
  repeat' first | (with_reducible first | assumption | exact .refl _ | apply Dev.violate_within) | exact rfl

theorem Dev.barWrite_of {M : Nat} {d₀ d e : Dev} {fn off : Nat} {r : Option Nat} (hM : Sub 33554432 M) (h : Within M d₀ d)
    (k : d.barWrite fn off = (e, r)) : Within M d₀ e := by
  unfold Dev.barWrite at k
  repeat' split at k
  all_goals obtain ⟨rfl, -⟩ := Prod.mk.inj k
  · exact h
  · exact .when h fun _ => Dev.bump_within .zero (.refl _) _
  · exact h
  · exact Dev.quarantineDrop_within hM h _
  · exact h

theorem Dev.barFence_within {M : Nat} {d₀ d : Dev} {fn f off : Nat} {op : Nat → Dev → Dev} (hM : Sub 33554432 M)
    (h : Within M d₀ d) (k : ∀ p d, Within M d (op p d)) : Within M d₀ (d.barFence fn f off op) := by
  unfold Dev.barFence
  split
  · exact Dev.barWrite_of hM h (by assumption)
  · have g := Dev.barWrite_of hM h (by assumption)
    exact .ite g (.ite (Dev.barViolation_within hM g _ _ _) (g.trans (k _ _)))

theorem execFenceSignal_within {src : FenceSrc} {v : Bytes} {s t : State} (h : execFenceSignal src v s = .next t) :
    Within 39846425 s.dev t.dev := by
  unfold execFenceSignal at h
  refine onDev_within h fun d => ?_
  repeat' first | (with_reducible first | assumption | exact .refl _ | refine Dev.barFence_within ?_ ?_ (fun p d => ?_) | apply Dev.fenceSignal_within | refine Dev.writeReq_within ?_ ?_ (fun se n d => ?_) | split) | exact rfl

theorem execFenceAdd_within {src : FenceSrc} {v : Bytes} {s t : State} (h : execFenceAdd src v s = .next t) :
    Within 39846425 s.dev t.dev := by
  unfold execFenceAdd at h
  refine onDev_within h fun d => ?_
  repeat' first | (with_reducible first | assumption | exact .refl _ | refine Dev.barFence_within ?_ ?_ (fun p d => ?_) | apply Dev.fenceAdd_within | refine Dev.writeReq_within ?_ ?_ (fun se n d => ?_) | split) | exact rfl

theorem execFenceReset_within {src : FenceSrc} {s t : State} (h : execFenceReset src s = .next t) :
    Within 39846425 s.dev t.dev := by
  unfold execFenceReset at h
  refine onDev_within h fun d => ?_
  repeat' first | (with_reducible first | assumption | exact .refl _ | refine Dev.barFence_within ?_ ?_ (fun p d => ?_) | apply Dev.fenceReset_within | refine Dev.writeReq_within ?_ ?_ (fun se n d => ?_) | split) | exact rfl

theorem execFenceSetDeadline_within {src : FenceSrc} {which : Fin 3} {v : Bytes} {s t : State} (h : execFenceSetDeadline src which v s = .next t) :
    Within 39846425 s.dev t.dev := by
  unfold execFenceSetDeadline at h
  refine onDev_within h fun d => ?_
  repeat' first | (with_reducible first | assumption | exact .refl _ | refine Dev.barFence_within ?_ ?_ (fun p d => ?_) | apply Dev.fenceDeadline_within | refine Dev.writeReq_within ?_ ?_ (fun se n d => ?_) | apply Within.ite | split) | exact rfl

theorem execFenceSelectWrite_within {hd : Hdr} {cond : Option Nat} {wait : Bool} {v : Bytes} {s t : State} (h : execFenceSelectWrite hd cond wait v s = .next t) :
    Within 39846400 s.dev t.dev := by
  unfold execFenceSelectWrite at h
  refine onDev_within h fun d => ?_
  repeat' first | (with_reducible first | assumption | exact .refl _ | refine Dev.writeStore_within ?_ ?_ (fun se n d => ?_) | apply Within.ite) | exact rfl

theorem Dev.armWait_within {M : Nat} {d₀ d : Dev} (hM : Sub 17 M) (hW : Within M d₀ d) (w : Wait) :
    Within M d₀ (d.armWait w) := by
  refine hW.step ?_ hM
  clear hW hM
  unfold Dev.armWait
  repeat' first | (with_reducible first | assumption | exact .refl _ | apply Dev.drawn_within | apply Dev.testWaits_within) | with_reducible apply Within.waits_set | exact rfl

theorem execWaitArm_within {src : FenceSrc} {v : Bytes} {s t : State} (h : execWaitArm src v s = .next t) :
    Within 39846417 s.dev t.dev := by
  unfold execWaitArm at h
  refine onDev_within h fun d => ?_
  repeat' first | (with_reducible first | assumption | exact .refl _ | apply Dev.armWait_within | refine Dev.barFence_within ?_ ?_ (fun p d => ?_) | apply Dev.complete_within | apply Dev.event_within | apply Dev.finishWrite_within | apply Dev.setN_within | (apply Within.when ?_ (fun d => ?_)) | apply Within.ite | split) | refine Dev.writeGate_stop rfl ?_ (by assumption) | refine Dev.writeGate_pass rfl ?_ (by assumption) | extract_lets | with_reducible apply Within.barHandle_set | with_reducible apply Within.barTarget_set | exact rfl | (constructor <;> first | (intro _; rfl) | exact id | exact fun _ => ⟨rfl, rfl⟩ | (intro h; exact absurd h (by decide)))

theorem execWaitCancel_within {hd : Hdr} {cond : Option Nat} {v : Bytes} {s t : State} (h : execWaitCancel hd cond v s = .next t) :
    Within 39846416 s.dev t.dev := by
  unfold execWaitCancel at h
  refine onDev_within h fun d => ?_
  repeat' first | (with_reducible first | assumption | exact .refl _ | refine Dev.writeReq_within ?_ ?_ (fun se n d => ?_) | apply Within.ite | split) | with_reducible apply Within.waits_set | exact rfl

theorem execFenceDeadlineTick_within {s t : State} (h : execFenceDeadlineTick s = .next t) :
    Within 19 s.dev t.dev := by
  unfold execFenceDeadlineTick at h
  refine onDev_within h fun d => ?_
  repeat' first | (with_reducible first | assumption | exact .refl _ | apply Dev.noteLate_within | apply Dev.onTl_within | apply Dev.testWaits_within | (apply Within.each ?_ (fun d x => ?_)) | apply Within.ite) | extract_lets | exact rfl

end Sys2Proof.Machine
end

