-- ==== Sys2Proof/Laws/ResetFrame.lean ====
section
/-! SUPPORT. What the operations of Machine/Reset.lean leave alone. -/
namespace Sys2Proof.Machine

theorem Dev.safeOff_within {M : Nat} {d₀ d : Dev} (hM : Sub 0 M) (hW : Within M d₀ d) :
    Within M d₀ (d.safeOff) := by
  refine hW.step ?_ hM
  clear hW hM
  unfold Dev.safeOff
  repeat' first | (with_reducible first | assumption | exact .refl _ | apply Dev.drivePin_within) | exact rfl

theorem Dev.driveAnalog_within {M : Nat} {d₀ d : Dev} (hM : Sub 256 M) (hW : Within M d₀ d) (ch : Nat) (code : Int) :
    Within M d₀ (d.driveAnalog ch code) := by
  refine hW.step ?_ hM
  clear hW hM
  unfold Dev.driveAnalog
  repeat' first | (with_reducible first | assumption | exact .refl _ | apply Dev.send_within | apply Within.ite) | with_reducible apply Within.analogOut_set | exact rfl

theorem Dev.analogSafe_within {M : Nat} {d₀ d : Dev} (hM : Sub 256 M) (hW : Within M d₀ d) (ch : Nat) :
    Within M d₀ (d.analogSafe ch) := by
  refine hW.step ?_ hM
  clear hW hM
  unfold Dev.analogSafe
  repeat' first | (with_reducible first | assumption | exact .refl _ | apply Dev.driveAnalog_within | apply Within.ite) | exact rfl

theorem Dev.allAnalogSafe_within {M : Nat} {d₀ d : Dev} (hM : Sub 256 M) (hW : Within M d₀ d) :
    Within M d₀ (d.allAnalogSafe) := by
  refine hW.step ?_ hM
  clear hW hM
  unfold Dev.allAnalogSafe
  repeat' first | (with_reducible first | assumption | exact .refl _ | apply Dev.analogSafe_within | (apply Within.each ?_ (fun d x => ?_))) | exact rfl

theorem Dev.allAnalogZero_within {M : Nat} {d₀ d : Dev} (hM : Sub 256 M) (hW : Within M d₀ d) :
    Within M d₀ (d.allAnalogZero) := by
  refine hW.step ?_ hM
  clear hW hM
  unfold Dev.allAnalogZero
  repeat' first | (with_reducible first | assumption | exact .refl _ | apply Dev.driveAnalog_within | (apply Within.each ?_ (fun d x => ?_))) | exact rfl

theorem Regs.wf_filter {m : Assoc Int} (h : Regs.wf m = true) (p : Nat × Int → Bool) : Regs.wf (m.filter p) = true := by
  rw [Regs.wf_iff] at *
  refine ⟨?_, fun c hc => h.2 c (List.mem_of_mem_filter hc)⟩
  have hs := h.1
  clear h
  induction m with
  | nil => rfl
  | cons c m ih =>
    have ⟨ha, hm⟩ := (kvSorted_cons _ _).1 hs
    rw [List.filter_cons]
    split
    · exact (kvSorted_cons _ _).2 ⟨fun x hx => ha x (List.mem_of_mem_filter hx), ih hm⟩
    · exact ih hm

theorem Dev.fullReset_within {M : Nat} {d₀ d : Dev} (hM : Sub 67108863 M) (h : Within M d₀ d) (phase cause : Nat) :
    Within M d₀ (d.fullReset phase cause) := by
  refine h.step ?_ hM
  clear h hM
  unfold Dev.fullReset
  refine Dev.setN_within .zero (Dev.setN_within .zero ?_ _ _) _ _
  constructor
  case regsWf => exact fun h => Regs.wf_filter h _
  case memWf => exact fun _ => rfl
  all_goals intro h; exact absurd h (by decide)

theorem Dev.safeRestart_within {M : Nat} {d₀ d : Dev} (hM : Sub 67108863 M) (hW : Within M d₀ d) (ev : Ev) (cause : Nat) :
    Within M d₀ (d.safeRestart ev cause) := by
  refine hW.step ?_ hM
  clear hW hM
  unfold Dev.safeRestart
  repeat' first | (with_reducible first | assumption | exact .refl _ | apply Dev.allAnalogSafe_within | apply Dev.event_within | apply Dev.fullReset_within | apply Dev.safeOff_within) | exact rfl

theorem Dev.plainRestart_within {M : Nat} {d₀ d : Dev} (hM : Sub 67108863 M) (hW : Within M d₀ d) (cause : Nat) :
    Within M d₀ (d.plainRestart cause) := by
  refine hW.step ?_ hM
  clear hW hM
  unfold Dev.plainRestart
  repeat' first | (with_reducible first | assumption | exact .refl _ | apply Dev.allAnalogZero_within | apply Dev.fullReset_within | apply Dev.safeOff_within) | exact rfl

end Sys2Proof.Machine
end

