-- ==== Sys2Proof/Laws/TimingUnitFrame.lean ====
section
/-! SUPPORT. What the operations of Machine/TimingUnit.lean leave alone. -/
namespace Sys2Proof.Machine

theorem execXtalStable_within {s t : State} (h : execXtalStable s = .next t) :
    Within 0 s.dev t.dev := by
  unfold execXtalStable at h
  refine onDev_within h fun d => ?_
  repeat' first | (with_reducible first | assumption | exact .refl _ | apply Dev.setN_within | apply Within.ite) | exact rfl

theorem execRootLock_within {s t : State} (h : execRootLock s = .next t) :
    Within 2 s.dev t.dev := by
  unfold execRootLock at h
  refine onDev_within h fun d => ?_
  repeat' first | (with_reducible first | assumption | exact .refl _ | apply Dev.onTl_within | apply Dev.set_within | apply Dev.setB_within | apply Dev.setN_within | (apply Within.each ?_ (fun d x => ?_)) | apply Within.ite) | extract_lets | exact rfl

theorem execCrystalLoss_within {s t : State} (h : execCrystalLoss s = .next t) :
    Within 67108863 s.dev t.dev := by
  unfold execCrystalLoss at h
  refine onDev_within h fun d => ?_
  repeat' first | (with_reducible first | assumption | exact .refl _ | apply Dev.safeRestart_within | apply Within.ite) | exact rfl

theorem Dev.refEnabled_within {M : Nat} {d₀ d : Dev} (hM : Sub 512 M) (hW : Within M d₀ d) (code : Nat) (on : Bool) :
    Within M d₀ (d.refEnabled code on) := by
  refine hW.step ?_ hM
  clear hW hM
  unfold Dev.refEnabled
  repeat' first | (with_reducible first | assumption | exact .refl _ | apply Dev.reselect_within | apply Dev.toRef_within | apply Within.ite) | exact rfl

theorem execRefEnableWrite_within {hd : Hdr} {cond : Option Nat} {code : Fin 6} {v : Bytes} {s t : State} (h : execRefEnableWrite hd cond code v s = .next t) :
    Within 39846400 s.dev t.dev := by
  unfold execRefEnableWrite at h
  refine onDev_within h fun d => ?_
  repeat' first | (with_reducible first | assumption | exact .refl _ | apply Dev.refEnabled_within | refine Dev.writeStore_within ?_ ?_ (fun se n d => ?_)) | exact rfl

theorem execRefActivityPresent_within {code : Fin 6} {offset : Int} {s t : State} (h : execRefActivityPresent code offset s = .next t) :
    Within 512 s.dev t.dev := by
  unfold execRefActivityPresent at h
  refine onDev_within h fun d => ?_
  repeat' first | (with_reducible first | assumption | exact .refl _ | apply Dev.onRef_within | apply Dev.set_within | apply Dev.toRef_within | apply Within.ite) | extract_lets | exact rfl

theorem execRefQualifyTimeout_within {code : Fin 6} {s t : State} (h : execRefQualifyTimeout code s = .next t) :
    Within 512 s.dev t.dev := by
  unfold execRefQualifyTimeout at h
  refine onDev_within h fun d => ?_
  repeat' first | (with_reducible first | assumption | exact .refl _ | apply Dev.reselect_within | apply Dev.toRef_within | apply Within.ite) | exact rfl

theorem execRefActivityLost_within {code : Fin 6} {s t : State} (h : execRefActivityLost code s = .next t) :
    Within 512 s.dev t.dev := by
  unfold execRefActivityLost at h
  refine onDev_within h fun d => ?_
  repeat' first | (with_reducible first | assumption | exact .refl _ | apply Dev.reselect_within | apply Dev.toRef_within | apply Within.ite) | exact rfl

theorem execPriorityEntryWrite_within {hd : Hdr} {cond : Option Nat} {entry : Fin 6} {v : Bytes} {s t : State} (h : execPriorityEntryWrite hd cond entry v s = .next t) :
    Within 39846400 s.dev t.dev := by
  unfold execPriorityEntryWrite at h
  refine onDev_within h fun d => ?_
  repeat' first | (with_reducible first | assumption | exact .refl _ | apply Dev.reselect_within | refine Dev.writeStore_within ?_ ?_ (fun se n d => ?_)) | exact rfl

theorem execWaitToRestoreExpiry_within {code : Fin 6} {s t : State} (h : execWaitToRestoreExpiry code s = .next t) :
    Within 512 s.dev t.dev := by
  unfold execWaitToRestoreExpiry at h
  refine onDev_within h fun d => ?_
  repeat' first | (with_reducible first | assumption | exact .refl _ | apply Dev.acquire_within | apply Within.ite) | extract_lets | exact rfl

theorem execDpllLock_within {s t : State} (h : execDpllLock s = .next t) :
    Within 512 s.dev t.dev := by
  unfold execDpllLock at h
  refine onDev_within h fun d => ?_
  repeat' first | (with_reducible first | assumption | exact .refl _ | apply Dev.event_within | apply Dev.toSelector_within | apply Within.ite) | extract_lets | exact rfl

theorem Dev.dpllStep_within {M : Nat} {d₀ d : Dev} (hM : Sub 512 M) (hW : Within M d₀ d) :
    Within M d₀ (d.dpllStep) := by
  refine hW.step ?_ hM
  clear hW hM
  unfold Dev.dpllStep
  repeat' first | (with_reducible first | assumption | exact .refl _ | apply Dev.closeLocked_within | apply Dev.drawn_within | apply Dev.onTu_within | apply Dev.set_within | apply Within.ite) | extract_lets | exact rfl

theorem Dev.phaseSeen_within {M : Nat} {d₀ d : Dev} (hM : Sub 512 M) (hW : Within M d₀ d) (error : Int) :
    Within M d₀ (d.phaseSeen error) := by
  refine hW.step ?_ hM
  clear hW hM
  unfold Dev.phaseSeen
  repeat' first | (with_reducible first | assumption | exact .refl _ | apply Dev.onTu_within | apply Within.ite) | exact rfl

theorem execRefPhaseComparison_within {code : Fin 6} {error : Int} {s t : State} (h : execRefPhaseComparison code error s = .next t) :
    Within 512 s.dev t.dev := by
  unfold execRefPhaseComparison at h
  refine onDev_within h fun d => ?_
  repeat' first | (with_reducible first | assumption | exact .refl _ | apply Dev.bump_within | apply Dev.dpllStep_within | apply Dev.phaseSeen_within | apply Dev.set_within | apply Dev.setN_within | (apply Within.when ?_ (fun d => ?_))) | extract_lets | exact rfl

theorem Dev.openLoop_within {M : Nat} {d₀ d : Dev} (hM : Sub 512 M) (hW : Within M d₀ d) :
    Within M d₀ (d.openLoop) := by
  refine hW.step ?_ hM
  clear hW hM
  unfold Dev.openLoop
  repeat' first | (with_reducible first | assumption | exact .refl _ | apply Dev.event_within | apply Dev.steer_within | apply Dev.toSelector_within | apply Within.ite) | exact rfl

theorem Dev.closeLoop_within {M : Nat} {d₀ d : Dev} (hM : Sub 512 M) (hW : Within M d₀ d) :
    Within M d₀ (d.closeLoop) := by
  refine hW.step ?_ hM
  clear hW hM
  unfold Dev.closeLoop
  repeat' first | (with_reducible first | assumption | exact .refl _ | apply Dev.acquire_within | apply Dev.event_within | apply Dev.toFreerun_within | apply Dev.toHoldover_within | apply Within.ite | split) | extract_lets | exact rfl

theorem Dev.loopWritten_within {M : Nat} {d₀ d : Dev} (hM : Sub 512 M) (hW : Within M d₀ d) (n : Int) :
    Within M d₀ (d.loopWritten n) := by
  refine hW.step ?_ hM
  clear hW hM
  unfold Dev.loopWritten
  repeat' first | (with_reducible first | assumption | exact .refl _ | apply Dev.closeLoop_within | apply Dev.openLoop_within | apply Within.ite) | exact rfl

theorem execLoopModeOpen_within {hd : Hdr} {cond : Option Nat} {s t : State} (h : execLoopModeOpen hd cond s = .next t) :
    Within 39846400 s.dev t.dev := by
  unfold execLoopModeOpen at h
  refine onDev_within h fun d => ?_
  repeat' first | (with_reducible first | assumption | exact .refl _ | apply Dev.openLoop_within | refine Dev.writeStore_within ?_ ?_ (fun se n d => ?_)) | exact rfl

theorem execLoopModeClose_within {hd : Hdr} {cond : Option Nat} {s t : State} (h : execLoopModeClose hd cond s = .next t) :
    Within 39846400 s.dev t.dev := by
  unfold execLoopModeClose at h
  refine onDev_within h fun d => ?_
  repeat' first | (with_reducible first | assumption | exact .refl _ | apply Dev.closeLoop_within | refine Dev.writeStore_within ?_ ?_ (fun se n d => ?_)) | exact rfl

theorem Dev.offsetWord_within {M : Nat} {d₀ d : Dev} (hM : Sub 512 M) (hW : Within M d₀ d) (n : Int) :
    Within M d₀ (d.offsetWord n) := by
  refine hW.step ?_ hM
  clear hW hM
  unfold Dev.offsetWord
  repeat' first | (with_reducible first | assumption | exact .refl _ | apply Dev.steer_within) | exact rfl

theorem execFreqOffsetWordWrite_within {hd : Hdr} {cond : Option Nat} {v : Bytes} {s t : State} (h : execFreqOffsetWordWrite hd cond v s = .next t) :
    Within 39846400 s.dev t.dev := by
  unfold execFreqOffsetWordWrite at h
  refine onDev_within h fun d => ?_
  repeat' first | (with_reducible first | assumption | exact .refl _ | apply Dev.offsetWord_within | refine Dev.writeStore_within ?_ ?_ (fun se n d => ?_)) | exact rfl

theorem Dev.ppsEdge_within {M : Nat} {d₀ d : Dev} (hM : Sub 512 M) (hW : Within M d₀ d) (e : Nat) :
    Within M d₀ (d.ppsEdge e) := by
  refine hW.step ?_ hM
  clear hW hM
  unfold Dev.ppsEdge
  repeat' first | (with_reducible first | assumption | exact .refl _ | apply Dev.bump_within | apply Dev.event_within | apply Dev.onTu_within | apply Dev.setN_within | apply Within.ite | split) | extract_lets | exact rfl

theorem execPpsInEdge_within {rising : Bool} {s t : State} (h : execPpsInEdge rising s = .next t) :
    Within 512 s.dev t.dev := by
  unfold execPpsInEdge at h
  refine onDev_within h fun d => ?_
  repeat' first | (with_reducible first | assumption | exact .refl _ | apply Dev.ppsEdge_within | apply Within.ite) | exact rfl

theorem Dev.setTrain_within {M : Nat} {d₀ d : Dev} (hM : Sub 512 M) (hW : Within M d₀ d) (i : Nat) (t : Option Train) :
    Within M d₀ (d.setTrain i t) := by
  refine hW.step ?_ hM
  clear hW hM
  unfold Dev.setTrain
  repeat' first | (with_reducible first | assumption | exact .refl _ | apply Dev.onTu_within | split) | exact rfl

theorem Dev.startTrain_within {M : Nat} {d₀ d : Dev} (hM : Sub 512 M) (hW : Within M d₀ d) (i : Nat) :
    Within M d₀ (d.startTrain i) := by
  refine hW.step ?_ hM
  clear hW hM
  unfold Dev.startTrain
  repeat' first | (with_reducible first | assumption | exact .refl _ | apply Dev.set_within | apply Dev.setTrain_within | apply Within.ite) | extract_lets | exact rfl

theorem Dev.retrain_within {M : Nat} {d₀ d : Dev} (hM : Sub 512 M) (hW : Within M d₀ d) (i : Nat) (e : Int) :
    Within M d₀ (d.retrain i e) := by
  refine hW.step ?_ hM
  clear hW hM
  unfold Dev.retrain
  repeat' first | (with_reducible first | assumption | exact .refl _ | apply Dev.setTrain_within | split) | extract_lets | exact rfl

theorem execPulseConfigWrite_within {hd : Hdr} {cond : Option Nat} {out : Fin 13} {field : Fin 6} {v : Bytes} {s t : State} (h : execPulseConfigWrite hd cond out field v s = .next t) :
    Within 39846400 s.dev t.dev := by
  unfold execPulseConfigWrite at h
  refine onDev_within h fun d => ?_
  repeat' first | (with_reducible first | assumption | exact .refl _ | apply Dev.retrain_within | refine Dev.writeStore_within ?_ ?_ (fun se n d => ?_)) | exact rfl

theorem Dev.pulseStarts_within {M : Nat} {d₀ d : Dev} (hM : Sub 512 M) (hW : Within M d₀ d) (i : Nat) :
    Within M d₀ (d.pulseStarts i) := by
  refine hW.step ?_ hM
  clear hW hM
  unfold Dev.pulseStarts
  repeat' first | (with_reducible first | assumption | exact .refl _ | apply Dev.hold_within | apply Dev.set_within | apply Dev.setN_within | apply Dev.startTrain_within | apply Within.ite) | extract_lets | exact rfl

theorem execPulseStart_within {hd : Hdr} {cond : Option Nat} {out : Fin 13} {s t : State} (h : execPulseStart hd cond out s = .next t) :
    Within 39846400 s.dev t.dev := by
  unfold execPulseStart at h
  refine onDev_within h fun d => ?_
  repeat' first | (with_reducible first | assumption | exact .refl _ | apply Dev.pulseStarts_within | refine Dev.writeReq_within ?_ ?_ (fun se n d => ?_)) | exact rfl

theorem Dev.pulseStops_within {M : Nat} {d₀ d : Dev} (hM : Sub 512 M) (hW : Within M d₀ d) (i : Nat) :
    Within M d₀ (d.pulseStops i) := by
  refine hW.step ?_ hM
  clear hW hM
  unfold Dev.pulseStops
  repeat' first | (with_reducible first | assumption | exact .refl _ | apply Dev.set_within | apply Dev.setTrain_within | apply Dev.unhold_within | apply Within.ite | split) | exact rfl

theorem execPulseStop_within {hd : Hdr} {cond : Option Nat} {out : Fin 13} {s t : State} (h : execPulseStop hd cond out s = .next t) :
    Within 39846400 s.dev t.dev := by
  unfold execPulseStop at h
  refine onDev_within h fun d => ?_
  repeat' first | (with_reducible first | assumption | exact .refl _ | apply Dev.pulseStops_within | refine Dev.writeReq_within ?_ ?_ (fun se n d => ?_)) | exact rfl

theorem Dev.dropEdges_within {M : Nat} {d₀ d : Dev} (hM : Sub 0 M) (hW : Within M d₀ d) (i : Nat) (n : Nat) :
    Within M d₀ (d.dropEdges i n) := by
  refine hW.step ?_ hM
  clear hW hM
  unfold Dev.dropEdges
  repeat' first | (with_reducible first | assumption | exact .refl _ | apply Dev.bumpBy_within | apply Dev.event_within) | exact rfl

theorem Dev.edgeLeaves_within {M : Nat} {d₀ d : Dev} (hM : Sub 512 M) (hW : Within M d₀ d) (i : Nat) (t : Train) :
    Within M d₀ (d.edgeLeaves i t) := by
  refine hW.step ?_ hM
  clear hW hM
  unfold Dev.edgeLeaves
  repeat' first | (with_reducible first | assumption | exact .refl _ | apply Dev.bump_within | apply Dev.send_within | apply Dev.set_within | apply Dev.setN_within | apply Dev.setTrain_within | (apply Within.when ?_ (fun d => ?_)) | apply Within.ite | split) | extract_lets | exact rfl

theorem Dev.pulseDue_within {M : Nat} {d₀ d : Dev} (hM : Sub 512 M) (hW : Within M d₀ d) (i : Nat) (t : Train) :
    Within M d₀ (d.pulseDue i t) := by
  refine hW.step ?_ hM
  clear hW hM
  unfold Dev.pulseDue
  repeat' first | (with_reducible first | assumption | exact .refl _ | apply Dev.dropEdges_within | apply Dev.edgeLeaves_within | apply Within.ite | split) | extract_lets | exact rfl

theorem execPulseEdgeDue_within {out : Fin 13} {s t : State} (h : execPulseEdgeDue out s = .next t) :
    Within 512 s.dev t.dev := by
  unfold execPulseEdgeDue at h
  refine onDev_within h fun d => ?_
  repeat' first | (with_reducible first | assumption | exact .refl _ | apply Dev.pulseDue_within | apply Within.ite | split) | exact rfl

theorem execPulseWidthEnd_within {out : Fin 13} {s t : State} (h : execPulseWidthEnd out s = .next t) :
    Within 512 s.dev t.dev := by
  unfold execPulseWidthEnd at h
  refine onDev_within h fun d => ?_
  repeat' first | (with_reducible first | assumption | exact .refl _ | apply Dev.send_within | apply Dev.set_within | apply Dev.setTrain_within | (apply Within.when ?_ (fun d => ?_)) | apply Within.ite | split) | extract_lets | exact rfl

theorem execSynthLockLost_within {syn : Fin 6} {s t : State} (h : execSynthLockLost syn s = .next t) :
    Within 0 s.dev t.dev := by
  unfold execSynthLockLost at h
  refine onDev_within h fun d => ?_
  repeat' first | (with_reducible first | assumption | exact .refl _ | apply Dev.event_within | apply Dev.set_within | apply Within.ite) | exact rfl

end Sys2Proof.Machine
end

