-- ==== Sys2Proof/Laws/DictionaryFrame.lean ====
section
/-! SUPPORT. What the operations of Machine/Dictionary.lean leave alone. -/
namespace Sys2Proof.Machine

theorem Dev.openSession_within {M : Nat} {d₀ d : Dev} (hM : Sub 6291968 M) (hW : Within M d₀ d) (hd : Hdr) (part : Nat) (nh : Bytes) :
    Within M d₀ (d.openSession hd part nh) := by
  refine hW.step ?_ hM
  clear hW hM
  unfold Dev.openSession
  repeat' first | (with_reducible first | assumption | exact .refl _ | apply Dev.bump_within | apply Dev.drawn_within | apply Dev.event_within | apply Dev.sessionAnswer_within) | extract_lets | with_reducible apply Within.dict_set | exact rfl

theorem execHello_within {hd : Hdr} {part : Nat} {nh : Bytes} {s t : State} (h : execHello hd part nh s = .next t) :
    Within 39846400 s.dev t.dev := by
  unfold execHello at h
  refine onDev_within h fun d => ?_
  repeat' first | (with_reducible first | assumption | exact .refl _ | apply Dev.ighViolation_within | apply Dev.openSession_within | apply Dev.plainAnswer_within | apply Within.ite | split) | refine Dev.preCheck_of rfl ?_ (by assumption) | exact rfl

theorem execHelloClose_within {hd : Hdr} {part : Nat} {nh : Bytes} {s t : State} (h : execHelloClose hd part nh s = .next t) :
    Within 39846400 s.dev t.dev := by
  unfold execHelloClose at h
  refine onDev_within h fun d => ?_
  repeat' first | (with_reducible first | assumption | exact .refl _ | apply Dev.complete_within | apply Dev.endSession_within | split) | refine Dev.admission_stop rfl ?_ (by assumption) | refine Dev.admission_go rfl ?_ (by assumption) | extract_lets | exact rfl

theorem execSessionConfirmTimeout_within {sid : Nat} {s t : State} (h : execSessionConfirmTimeout sid s = .next t) :
    Within 2097152 s.dev t.dev := by
  unfold execSessionConfirmTimeout at h
  refine onDev_within h fun d => ?_
  repeat' first | (with_reducible first | assumption | exact .refl _ | apply Dev.endSession_within | apply Within.ite | split) | exact rfl

theorem execSessionIdleTimeout_within {sid : Nat} {s t : State} (h : execSessionIdleTimeout sid s = .next t) :
    Within 2097152 s.dev t.dev := by
  unfold execSessionIdleTimeout at h
  refine onDev_within h fun d => ?_
  repeat' first | (with_reducible first | assumption | exact .refl _ | apply Dev.endSession_within | apply Within.ite | split) | exact rfl

theorem Dev.toFlash_within {M : Nat} {d₀ d : Dev} (hM : Sub 64 M) (hW : Within M d₀ d) (kv : Nat × Int) :
    Within M d₀ (d.toFlash kv) := by
  refine hW.step ?_ hM
  clear hW hM
  unfold Dev.toFlash
  repeat' first | (with_reducible first | assumption | exact .refl _ | apply Within.ite) | with_reducible apply Within.flash_set | exact rfl

theorem Dev.blobToFlash_within {M : Nat} {d₀ d : Dev} (hM : Sub 64 M) (hW : Within M d₀ d) (kv : Nat × Bytes) :
    Within M d₀ (d.blobToFlash kv) := by
  refine hW.step ?_ hM
  clear hW hM
  unfold Dev.blobToFlash
  repeat' first | (with_reducible first | assumption | exact .refl _ | apply Within.ite) | with_reducible apply Within.flashBlobs_set | exact rfl

theorem Dev.anaRest_within {M : Nat} {d₀ d : Dev} (hM : Sub 256 M) (hW : Within M d₀ d) (ch : Nat) (status : Int) :
    Within M d₀ (d.anaRest ch status) := by
  refine hW.step ?_ hM
  clear hW hM
  unfold Dev.anaRest
  repeat' first | (with_reducible first | assumption | exact .refl _ | apply Dev.analogSafe_within | apply Dev.set_within | apply Within.ite) | extract_lets | exact rfl

theorem Dev.safeCommitted_within {M : Nat} {d₀ d : Dev} (hM : Sub 256 M) (hW : Within M d₀ d) (vals : List (Nat × Int)) :
    Within M d₀ (d.safeCommitted vals) := by
  refine hW.step ?_ hM
  clear hW hM
  unfold Dev.safeCommitted
  repeat' first | (with_reducible first | assumption | exact .refl _ | apply Dev.analogSafe_within | apply Dev.setB_within | (apply Within.each ?_ (fun d x => ?_)) | apply Within.ite) | extract_lets | exact rfl

theorem Dev.commitDone_within {M : Nat} {d₀ d : Dev} (hM : Sub 6292288 M) (hW : Within M d₀ d) (c : Commit) :
    Within M d₀ (d.commitDone c) := by
  refine hW.step ?_ hM
  clear hW hM
  unfold Dev.commitDone
  repeat' first | (with_reducible first | assumption | exact .refl _ | apply Dev.blobToFlash_within | apply Dev.bump_within | apply Dev.complete_within | apply Dev.safeCommitted_within | apply Dev.toFlash_within | (apply Within.each ?_ (fun d x => ?_)) | apply Within.ite) | extract_lets | exact rfl

theorem execRwpCommitDone_within {s t : State} (h : execRwpCommitDone s = .next t) :
    Within 6292288 s.dev t.dev := by
  unfold execRwpCommitDone at h
  refine onDev_within h fun d => ?_
  repeat' first | (with_reducible first | assumption | exact .refl _ | apply Dev.commitDone_within | split) | with_reducible apply Within.dict_set | exact rfl

theorem Dev.dropBlock_within {M : Nat} {d₀ d : Dev} (hM : Sub 2097152 M) (hW : Within M d₀ d) (sid : Nat) (tag : Nat) :
    Within M d₀ (d.dropBlock sid tag) := by
  refine hW.step ?_ hM
  clear hW hM
  unfold Dev.dropBlock
  repeat' first | (with_reducible first | assumption | exact .refl _) | with_reducible apply Within.dict_set | exact rfl

theorem Dev.failBlock_within {M : Nat} {d₀ d : Dev} (hM : Sub 6291968 M) (hW : Within M d₀ d) (b : Block) (a : Ans) :
    Within M d₀ (d.failBlock b a) := by
  refine hW.step ?_ hM
  clear hW hM
  unfold Dev.failBlock
  repeat' first | (with_reducible first | assumption | exact .refl _ | apply Dev.complete_within | apply Dev.dropBlock_within | apply Dev.event_within) | extract_lets | exact rfl

/-- What an object's block write leaves alone. -/
structure BlockObj.Keeps (N : Nat) (o : BlockObj) : Prop where
  eff : ∀ se b d, Within N d (o.eff se b d)
  refused : ∀ se r d, Within N d (o.refused se r d)

theorem Dev.writeBlock_within {M : Nat} {d₀ d : Dev} {o : BlockObj} (hM : Sub 6291968 M) (ho : o.Keeps M) (h : Within M d₀ d)
    (se : Session) (b : Block) (data : Bytes) : Within M d₀ (d.writeBlock o se b data) := by
  unfold Dev.writeBlock
  have hD : Sub 2097152 M := Sub.trans (B := 6291968) rfl hM
  have g : Within M d₀ ((o.eff se data (d.dropBlock b.sid b.tag)).bumpVer b.key) :=
    Dev.bumpVer_within .zero ((Dev.dropBlock_within hD h _ _).trans (ho.eff _ _ _)) _
  extract_lets
  apply Within.ite
  · with_reducible apply Within.dict_set
    · exact hD.testBit rfl
    · exact g
  · exact Dev.complete_within hM g _ _ _ _ _ _

theorem Dev.lastSegment_within {M : Nat} {d₀ d : Dev} {o : BlockObj} (hM : Sub 39846400 M) (ho : o.Keeps M)
    (h : Within M d₀ d) (hd : Hdr) (se : Session) (b : Block) : Within M d₀ (d.lastSegment o hd se b) := by
  have hS : Sub 6291968 M := Sub.trans (B := 39846400) rfl hM
  have hV : Sub 33554432 M := Sub.trans (B := 39846400) rfl hM
  unfold Dev.lastSegment
  extract_lets
  apply Within.ite
  · exact Dev.failBlock_within hS (Dev.ighViolation_within hV h _ _) _ _
  · apply Within.ite
    · exact Dev.failBlock_within hS h _ _
    · split
      · exact Dev.failBlock_within hS (h.trans (ho.refused _ _ _)) _ _
      · exact Dev.writeBlock_within hS ho h _ _ _

theorem Dev.takeSegment_within {M : Nat} {d₀ d : Dev} {o : Nat → BlockObj} (hM : Sub 39846400 M) (ho : ∀ k, (o k).Keeps M)
    (h : Within M d₀ d) (hd : Hdr) (se : Session) (b : Block) : Within M d₀ (d.takeSegment o hd se b) := by
  have hS : Sub 6291968 M := Sub.trans (B := 39846400) rfl hM
  have hD : Sub 2097152 M := Sub.trans (B := 39846400) rfl hM
  unfold Dev.takeSegment
  have g : ∀ x, Within M d₀ { d.dropBlock b.sid b.tag with dict := x } := fun x =>
    Within.dict_set (hD.testBit rfl) (Dev.dropBlock_within hD h _ _)
  apply Within.ite
  · exact Dev.sessionAnswer_within hS (g _) _ _ _ _ _ _
  · exact Dev.lastSegment_within hM (ho _) (g _) _ _ _

theorem Dev.firstSegment_within {M : Nat} {d₀ d : Dev} {o : Nat → BlockObj} (hM : Sub 39846400 M) (ho : ∀ k, (o k).Keeps M)
    (h : Within M d₀ d) (hd : Hdr) (se : Session) (payload : Bytes) : Within M d₀ (d.firstSegment o hd se payload) := by
  have hS : Sub 6291968 M := Sub.trans (B := 39846400) rfl hM
  have hV : Sub 33554432 M := Sub.trans (B := 39846400) rfl hM
  have hD : Sub 2097152 M := Sub.trans (B := 39846400) rfl hM
  unfold Dev.firstSegment
  extract_lets
  repeat' first
    | (with_reducible first | exact h | exact hS | exact hV | exact hD | exact hM | apply Within.ite | apply Dev.complete_within | apply Dev.ighViolation_within | apply Dev.takeSegment_within | apply Dev.onSession_within | split)
    | exact ho

theorem Dev.blockFrame_within {M : Nat} {d₀ d : Dev} {o : Nat → BlockObj} (hM : Sub 39846400 M) (ho : ∀ k, (o k).Keeps M)
    (h : Within M d₀ d) (hd : Hdr) (payload : Bytes) : Within M d₀ (d.blockFrame o hd payload) := by
  have hS : Sub 6291968 M := Sub.trans (B := 39846400) rfl hM
  have hV : Sub 33554432 M := Sub.trans (B := 39846400) rfl hM
  unfold Dev.blockFrame
  extract_lets
  repeat' first
    | (with_reducible first | exact h | exact hS | exact hV | exact hM | apply Within.ite | apply Dev.complete_within | apply Dev.ighViolation_within | apply Dev.takeSegment_within | apply Dev.firstSegment_within | apply Dev.sessionAnswer_within | split)
    | refine Dev.admission_stop hM ?_ (by assumption)
    | refine Dev.admission_go hM ?_ (by assumption)
    | exact ho

theorem execBlockGapTimeout_within {sid : Nat} {tag : Nat} {s t : State} (h : execBlockGapTimeout sid tag s = .next t) :
    Within 6291968 s.dev t.dev := by
  unfold execBlockGapTimeout at h
  refine onDev_within h fun d => ?_
  repeat' first | (with_reducible first | assumption | exact .refl _ | apply Dev.failBlock_within | apply Within.ite | split) | exact rfl

theorem keyObj_keeps {M : Nat} (hM : Sub 10485760 M) (k : Nat) : (keyObj k).Keeps M := by
  constructor
  · intro se b d
    refine Within.mono (M := 10485760) ?_ hM
    unfold keyObj
    repeat' first | (with_reducible first | assumption | exact .refl _ | apply Dev.set_within | apply Dev.setBlob_within) | extract_lets | with_reducible apply Within.dict_set | dsimp only | exact rfl
  · intro se r d
    exact .refl _

theorem Dev.endKeyed_within {M : Nat} {d₀ d : Dev} (hM : Sub 2621440 M) (hW : Within M d₀ d) (d0 : Dev) :
    Within M d₀ (d0.endKeyed d) := by
  refine hW.step ?_ hM
  clear hW hM
  unfold Dev.endKeyed
  repeat' first | (with_reducible first | assumption | exact .refl _ | apply Dev.closeConns_within | apply Dev.endSessions_within | (apply Within.each ?_ (fun d x => ?_)) | apply Within.ite) | exact rfl

theorem Dev.keyFrame_within {M : Nat} {d₀ d : Dev} (hM : Sub 48759296 M) (hW : Within M d₀ d) (hd : Hdr) (payload : Bytes) :
    Within M d₀ (d.keyFrame hd payload) := by
  refine hW.step ?_ hM
  clear hW hM
  unfold Dev.keyFrame
  repeat' first | (with_reducible first | assumption | exact .refl _ | apply Dev.blockFrame_within | apply Dev.endKeyed_within) | exact fun _ => keyObj_keeps (by exact rfl) _ | exact rfl

theorem execKeyWrite_within {hd : Hdr} {payload : Bytes} {s t : State} (h : execKeyWrite hd payload s = .next t) :
    Within 48759296 s.dev t.dev := by
  unfold execKeyWrite at h
  refine onDev_within h fun d => ?_
  repeat' first | (with_reducible first | assumption | exact .refl _ | apply Dev.keyFrame_within) | exact rfl

theorem Dev.readGate_stop {M : Nat} {d₀ d e : Dev} {hd : Hdr} {op : Nat} {payload : Bytes} {idx sub : Nat} {own : Option Refuse}
    (hM : Sub 39846400 M) (h : Within M d₀ d) (k : d.readGate hd op payload idx sub own = .stop e) : Within M d₀ e := by
  have hS : Sub 6291968 M := Sub.trans (B := 39846400) rfl hM
  unfold Dev.readGate at k
  dsimp only at k
  repeat' split at k
  all_goals
    first
    | (cases k; done)
    | (obtain rfl := ReadGate.stop.inj k
       repeat' first
        | (with_reducible first | exact h | exact hS | exact hM | apply Dev.complete_within)
        | refine Dev.admission_stop hM ?_ (by assumption)
        | refine Dev.admission_go hM ?_ (by assumption))

theorem Dev.readGate_pass {M : Nat} {d₀ d e : Dev} {hd : Hdr} {op : Nat} {payload : Bytes} {idx sub : Nat} {own : Option Refuse} {se : Session}
    {r : ObjRow} (hM : Sub 39846400 M) (h : Within M d₀ d) (k : d.readGate hd op payload idx sub own = .pass e se r) :
    Within M d₀ e := by
  unfold Dev.readGate at k
  dsimp only at k
  repeat' split at k
  all_goals
    first
    | (cases k; done)
    | (obtain ⟨rfl, -, -⟩ := ReadGate.pass.inj k
       exact Dev.admission_go hM h (by assumption))

theorem execSubscribe_within {hd : Hdr} {idx : Nat} {sub : Nat} {mode : Nat} {interval : Nat} {s t : State} (h : execSubscribe hd idx sub mode interval s = .next t) :
    Within 39846400 s.dev t.dev := by
  unfold execSubscribe at h
  refine onDev_within h fun d => ?_
  repeat' first | (with_reducible first | assumption | exact .refl _ | apply Dev.complete_within | apply Dev.onSession_within | apply Within.ite | split) | refine Dev.readGate_stop rfl ?_ (by assumption) | refine Dev.readGate_pass rfl ?_ (by assumption) | extract_lets | with_reducible apply Within.books_set | with_reducible apply Within.dict_set | exact rfl | (constructor <;> first | (intro _; rfl) | exact id | exact fun _ => ⟨rfl, rfl⟩ | (intro h; exact absurd h (by decide)))

theorem execSubscribeCancel_within {hd : Hdr} {idx : Nat} {sub : Nat} {handle : Nat} {s t : State} (h : execSubscribeCancel hd idx sub handle s = .next t) :
    Within 39846400 s.dev t.dev := by
  unfold execSubscribeCancel at h
  refine onDev_within h fun d => ?_
  repeat' first | (with_reducible first | assumption | exact .refl _ | apply Dev.complete_within | apply Dev.onSession_within | apply Within.ite | split) | refine Dev.readGate_stop rfl ?_ (by assumption) | refine Dev.readGate_pass rfl ?_ (by assumption) | extract_lets | exact rfl

theorem Dev.abortCommit_within {M : Nat} {d₀ d : Dev} (hM : Sub 6291968 M) (hW : Within M d₀ d) (c : Commit) :
    Within M d₀ (d.abortCommit c) := by
  refine hW.step ?_ hM
  clear hW hM
  unfold Dev.abortCommit
  repeat' first | (with_reducible first | assumption | exact .refl _ | apply Dev.complete_within | apply Within.ite) | extract_lets | with_reducible apply Within.dict_set | exact rfl

theorem execAbort_within {hd : Hdr} {tag : Nat} {s t : State} (h : execAbort hd tag s = .next t) :
    Within 39846400 s.dev t.dev := by
  unfold execAbort at h
  refine onDev_within h fun d => ?_
  repeat' first | (with_reducible first | assumption | exact .refl _ | apply Dev.abortCommit_within | apply Dev.complete_within | apply Dev.failBlock_within | split) | refine Dev.admission_stop rfl ?_ (by assumption) | refine Dev.admission_go rfl ?_ (by assumption) | extract_lets | exact rfl

theorem execResultCacheExpiry_within {sid : Nat} {s t : State} (h : execResultCacheExpiry sid s = .next t) :
    Within 2097152 s.dev t.dev := by
  unfold execResultCacheExpiry at h
  refine onDev_within h fun d => ?_
  repeat' first | (with_reducible first | assumption | exact .refl _ | apply Dev.onSession_within) | exact rfl

theorem execRestoreDefaults_within {hd : Hdr} {cond : Option Nat} {v : Bytes} {s t : State} (h : execRestoreDefaults hd cond v s = .next t) :
    Within 39846400 s.dev t.dev := by
  unfold execRestoreDefaults at h
  refine onDev_within h fun d => ?_
  repeat' first | (with_reducible first | assumption | exact .refl _ | refine Dev.writeReq_within ?_ ?_ (fun se n d => ?_)) | with_reducible apply Within.dict_set | exact rfl

theorem Dev.applyCan_within {M : Nat} {d₀ d : Dev} (hM : Sub 0 M) (hW : Within M d₀ d) (ctl : Nat) :
    Within M d₀ (d.applyCan ctl) := by
  refine hW.step ?_ hM
  clear hW hM
  unfold Dev.applyCan
  repeat' first | (with_reducible first | assumption | exact .refl _ | apply Dev.set_within | (apply Within.each ?_ (fun d x => ?_))) | exact rfl

theorem execCanBusOff_within {ctl : Fin 2} {s t : State} (h : execCanBusOff ctl s = .next t) :
    Within 2097152 s.dev t.dev := by
  unfold execCanBusOff at h
  refine onDev_within h fun d => ?_
  repeat' first | (with_reducible first | assumption | exact .refl _ | apply Dev.endSessions_within | apply Dev.event_within | apply Dev.set_within | apply Within.ite) | exact rfl

theorem Dev.restartCan_within {M : Nat} {d₀ d : Dev} (hM : Sub 0 M) (hW : Within M d₀ d) (ctl : Nat) :
    Within M d₀ (d.restartCan ctl) := by
  refine hW.step ?_ hM
  clear hW hM
  unfold Dev.restartCan
  repeat' first | (with_reducible first | assumption | exact .refl _ | apply Dev.applyCan_within | apply Dev.set_within) | exact rfl

theorem execCanRestart_within {hd : Hdr} {cond : Option Nat} {ctl : Fin 2} {s t : State} (h : execCanRestart hd cond ctl s = .next t) :
    Within 39846400 s.dev t.dev := by
  unfold execCanRestart at h
  refine onDev_within h fun d => ?_
  repeat' first | (with_reducible first | assumption | exact .refl _ | apply Dev.endSessions_within | apply Dev.finishWrite_within | apply Dev.restartCan_within | split) | refine Dev.writeGate_stop rfl ?_ (by assumption) | refine Dev.writeGate_pass rfl ?_ (by assumption) | exact rfl

theorem execCanBusOffRecovery_within {ctl : Fin 2} {s t : State} (h : execCanBusOffRecovery ctl s = .next t) :
    Within 0 s.dev t.dev := by
  unfold execCanBusOffRecovery at h
  refine onDev_within h fun d => ?_
  repeat' first | (with_reducible first | assumption | exact .refl _ | apply Dev.set_within | apply Within.ite) | exact rfl

end Sys2Proof.Machine
end

