-- ==== Sys2Proof/Laws/StartupFrame.lean ====
section
/-! SUPPORT. What the operations of Machine/Startup.lean leave alone. -/
namespace Sys2Proof.Machine

theorem onSupply_within {M mv : Nat} {f : Dev → Dev} {s t : State} (h : onSupply mv f s = .next t)
    (k : ∀ d, Within M d (f d)) : Within M s.dev t.dev := by
  unfold onSupply at h
  split at h
  · cases h
  · exact onDev_within h k

theorem execVinAbove3v_within {mv : Nat} {s t : State} (h : execVinAbove3v mv s = .next t) :
    Within 256 s.dev t.dev := by
  unfold execVinAbove3v at h
  refine onSupply_within h fun d => ?_
  repeat' first | (with_reducible first | assumption | exact .refl _ | apply Dev.allAnalogZero_within | apply Dev.onPins_within | apply Dev.safeOff_within | apply Dev.setN_within | apply Within.ite) | exact rfl

theorem execVinValid_within {mv : Nat} {s t : State} (h : execVinValid mv s = .next t) :
    Within 0 s.dev t.dev := by
  unfold execVinValid at h
  refine onSupply_within h fun d => ?_
  repeat' first | (with_reducible first | assumption | exact .refl _ | apply Dev.onPins_within | apply Dev.set_within | apply Dev.setN_within | apply Within.ite) | extract_lets | exact rfl

theorem execBrownout_within {mv : Nat} {slow : Bool} {s t : State} (h : execBrownout mv slow s = .next t) :
    Within 67108863 s.dev t.dev := by
  unfold execBrownout at h
  refine onDev_within h fun d => ?_
  repeat' first | (with_reducible first | assumption | exact .refl _ | apply Dev.allAnalogSafe_within | apply Dev.event_within | apply Dev.fullReset_within | apply Dev.onPins_within | apply Dev.safeOff_within | apply Dev.setN_within | (apply Within.when ?_ (fun d => ?_)) | apply Within.ite) | extract_lets | with_reducible apply Within.pow_set | exact rfl

theorem Dev.setVio_within {M : Nat} {d₀ d : Dev} (hM : Sub 0 M) (hW : Within M d₀ d) (out : Nat) (v : Nat) :
    Within M d₀ (d.setVio out v) := by
  refine hW.step ?_ hM
  clear hW hM
  unfold Dev.setVio
  repeat' first | (with_reducible first | assumption | exact .refl _ | apply Dev.onPins_within | apply Within.ite) | exact rfl

theorem execVioOvercurrent_within {out : Fin 2} {s t : State} (h : execVioOvercurrent out s = .next t) :
    Within 0 s.dev t.dev := by
  unfold execVioOvercurrent at h
  refine onDev_within h fun d => ?_
  repeat' first | (with_reducible first | assumption | exact .refl _ | apply Dev.setVio_within | apply Within.ite) | exact rfl

theorem execVioLimitTimeout_within {out : Fin 2} {s t : State} (h : execVioLimitTimeout out s = .next t) :
    Within 0 s.dev t.dev := by
  unfold execVioLimitTimeout at h
  refine onDev_within h fun d => ?_
  repeat' first | (with_reducible first | assumption | exact .refl _ | apply Dev.event_within | apply Dev.setVio_within | apply Within.ite) | exact rfl

theorem execVioRetry_within {out : Fin 2} {s t : State} (h : execVioRetry out s = .next t) :
    Within 0 s.dev t.dev := by
  unfold execVioRetry at h
  refine onDev_within h fun d => ?_
  repeat' first | (with_reducible first | assumption | exact .refl _ | apply Dev.setVio_within | apply Within.ite) | exact rfl

theorem execSysReset_within {s t : State} (h : execSysReset s = .next t) :
    Within 67108863 s.dev t.dev := by
  unfold execSysReset at h
  refine onDev_within h fun d => ?_
  repeat' first | (with_reducible first | assumption | exact .refl _ | apply Dev.plainRestart_within | apply Within.ite) | exact rfl

theorem execDeviceRestart_within {hd : Hdr} {cond : Option Nat} {v : Bytes} {s t : State} (h : execDeviceRestart hd cond v s = .next t) :
    Within 67108863 s.dev t.dev := by
  unfold execDeviceRestart at h
  refine onDev_within h fun d => ?_
  repeat' first | (with_reducible first | assumption | exact .refl _ | apply Dev.finishWrite_within | apply Dev.plainRestart_within | split) | refine Dev.writeGate_stop rfl ?_ (by assumption) | refine Dev.writeGate_pass rfl ?_ (by assumption) | exact rfl

theorem Dev.defaultSafeRecord_within {M : Nat} {d₀ d : Dev} (hM : Sub 64 M) (hW : Within M d₀ d) :
    Within M d₀ (d.defaultSafeRecord) := by
  refine hW.step ?_ hM
  clear hW hM
  unfold Dev.defaultSafeRecord
  repeat' first | (with_reducible first | assumption | exact .refl _) | with_reducible apply Within.flash_set | exact rfl

theorem execSafeValuesApplied_within {straps : Nat} {crcOk : Bool} {s t : State} (h : execSafeValuesApplied straps crcOk s = .next t) :
    Within 320 s.dev t.dev := by
  unfold execSafeValuesApplied at h
  refine onDev_within h fun d => ?_
  repeat' first | (with_reducible first | assumption | exact .refl _ | apply Dev.allAnalogSafe_within | apply Dev.allAnalogZero_within | apply Dev.bump_within | apply Dev.defaultSafeRecord_within | apply Dev.event_within | apply Dev.onPins_within | apply Dev.set_within | apply Dev.setB_within | (apply Within.when ?_ (fun d => ?_)) | apply Within.ite) | extract_lets | exact rfl

theorem Dev.applyRestore_within {M : Nat} {d₀ d : Dev} (hM : Sub 2097216 M) (hW : Within M d₀ d) :
    Within M d₀ (d.applyRestore) := by
  refine hW.step ?_ hM
  clear hW hM
  unfold Dev.applyRestore
  repeat' first | (with_reducible first | assumption | exact .refl _ | apply Within.ite) | with_reducible apply Within.dict_set | with_reducible apply Within.flash_set | with_reducible apply Within.flashBlobs_set | exact rfl | (constructor <;> first | (intro _; rfl) | exact id | exact fun _ => ⟨rfl, rfl⟩ | (intro h; exact absurd h (by decide)))

theorem Dev.checkWindow_within {M : Nat} {d₀ d : Dev} (hM : Sub 0 M) (hW : Within M d₀ d) (p : Nat) (w : Nat) :
    Within M d₀ (d.checkWindow p w) := by
  refine hW.step ?_ hM
  clear hW hM
  unfold Dev.checkWindow
  repeat' first | (with_reducible first | assumption | exact .refl _ | apply Dev.event_within | apply Dev.setN_within | apply Within.ite) | extract_lets | exact rfl

theorem Dev.restorePersisted_within {M : Nat} {d₀ d : Dev} (hM : Sub 10485824 M) (hW : Within M d₀ d) :
    Within M d₀ (d.restorePersisted) := by
  refine hW.step ?_ hM
  clear hW hM
  unfold Dev.restorePersisted
  repeat' first | (with_reducible first | assumption | exact .refl _ | apply Dev.applyRestore_within | apply Dev.checkWindow_within | apply Dev.set_within | apply Dev.setBlob_within | (apply Within.each ?_ (fun d x => ?_))) | extract_lets | exact rfl

theorem Dev.onBoot_within {M : Nat} {d₀ d : Dev} (hM : Sub 128 M) (hW : Within M d₀ d) (f : Boot → Boot) :
    Within M d₀ (d.onBoot f) := by
  refine hW.step ?_ hM
  clear hW hM
  unfold Dev.onBoot
  repeat' first | (with_reducible first | assumption | exact .refl _) | with_reducible apply Within.boot_set | exact rfl

theorem Dev.toPhase_within {M : Nat} {d₀ d : Dev} (hM : Sub 128 M) (hW : Within M d₀ d) (ph : Int) :
    Within M d₀ (d.toPhase ph) := by
  refine hW.step ?_ hM
  clear hW hM
  unfold Dev.toPhase
  repeat' first | (with_reducible first | assumption | exact .refl _ | apply Dev.onBoot_within | apply Dev.set_within) | exact rfl

theorem Dev.toMaintenance_within {M : Nat} {d₀ d : Dev} (hM : Sub 10486208 M) (hW : Within M d₀ d) (cause : Nat) :
    Within M d₀ (d.toMaintenance cause) := by
  refine hW.step ?_ hM
  clear hW hM
  unfold Dev.toMaintenance
  repeat' first | (with_reducible first | assumption | exact .refl _ | apply Dev.allAnalogSafe_within | apply Dev.applyCan_within | apply Dev.event_within | apply Dev.restorePersisted_within | apply Dev.safeOff_within | apply Dev.set_within | apply Dev.setN_within | apply Dev.toPhase_within | (apply Within.when ?_ (fun d => ?_))) | extract_lets | exact rfl

theorem Dev.leaveBank_within {M : Nat} {d₀ d : Dev} (hM : Sub 10486208 M) (hW : Within M d₀ d) (b : Nat) (cause : Nat) :
    Within M d₀ (d.leaveBank b cause) := by
  refine hW.step ?_ hM
  clear hW hM
  unfold Dev.leaveBank
  repeat' first | (with_reducible first | assumption | exact .refl _ | apply Dev.event_within | apply Dev.onBoot_within | apply Dev.set_within | apply Dev.setN_within | apply Dev.toMaintenance_within | apply Dev.toPhase_within | (apply Within.when ?_ (fun d => ?_)) | apply Within.ite) | extract_lets | exact rfl

theorem Dev.showBank_within {M : Nat} {d₀ d : Dev} (hM : Sub 0 M) (hW : Within M d₀ d) (b : Nat) :
    Within M d₀ (d.showBank b) := by
  refine hW.step ?_ hM
  clear hW hM
  unfold Dev.showBank
  repeat' first | (with_reducible first | assumption | exact .refl _ | apply Dev.setN_within | (apply Within.each ?_ (fun d x => ?_))) | extract_lets | exact rfl

theorem Dev.judgeOther_within {M : Nat} {d₀ d : Dev} (hM : Sub 0 M) (hW : Within M d₀ d) (b : Nat) :
    Within M d₀ (d.judgeOther b) := by
  refine hW.step ?_ hM
  clear hW hM
  unfold Dev.judgeOther
  repeat' first | (with_reducible first | assumption | exact .refl _ | apply Dev.set_within | apply Dev.showBank_within | (apply Within.when ?_ (fun d => ?_)) | apply Within.ite) | extract_lets | exact rfl

theorem execBundleVerified_within {s t : State} (h : execBundleVerified s = .next t) :
    Within 10486208 s.dev t.dev := by
  unfold execBundleVerified at h
  refine onDev_within h fun d => ?_
  repeat' first | (with_reducible first | assumption | exact .refl _ | apply Dev.judgeOther_within | apply Dev.leaveBank_within | apply Dev.onBoot_within | apply Dev.set_within | apply Dev.setN_within | apply Dev.showBank_within | apply Dev.toPhase_within | apply Within.ite) | extract_lets | exact rfl

theorem execManifestCheck_within {s t : State} (h : execManifestCheck s = .next t) :
    Within 10486208 s.dev t.dev := by
  unfold execManifestCheck at h
  refine onDev_within h fun d => ?_
  repeat' first | (with_reducible first | assumption | exact .refl _ | apply Dev.event_within | apply Dev.leaveBank_within | apply Dev.set_within | apply Dev.toPhase_within | (apply Within.each ?_ (fun d x => ?_)) | apply Within.ite | split) | extract_lets | exact rfl

theorem execBootWatchdogExpiry_within {s t : State} (h : execBootWatchdogExpiry s = .next t) :
    Within 67108863 s.dev t.dev := by
  unfold execBootWatchdogExpiry at h
  refine onDev_within h fun d => ?_
  repeat' first | (with_reducible first | assumption | exact .refl _ | apply Dev.event_within | apply Dev.plainRestart_within | apply Dev.setN_within | apply Within.ite) | extract_lets | exact rfl

theorem Dev.refreshMask_within {M : Nat} {d₀ d : Dev} (hM : Sub 0 M) (hW : Within M d₀ d) :
    Within M d₀ (d.refreshMask) := by
  refine hW.step ?_ hM
  clear hW hM
  unfold Dev.refreshMask
  repeat' first | (with_reducible first | assumption | exact .refl _ | apply Dev.setN_within) | exact rfl

theorem Dev.refreshDies_within {M : Nat} {d₀ d : Dev} (hM : Sub 0 M) (hW : Within M d₀ d) :
    Within M d₀ (d.refreshDies) := by
  refine hW.step ?_ hM
  clear hW hM
  unfold Dev.refreshDies
  repeat' first | (with_reducible first | assumption | exact .refl _ | apply Dev.setN_within) | extract_lets | exact rfl

theorem Dev.setRing_within {M : Nat} {d₀ d : Dev} (hM : Sub 0 M) (hW : Within M d₀ d) (j : Nat) (up : Bool) :
    Within M d₀ (d.setRing j up) := by
  refine hW.step ?_ hM
  clear hW hM
  unfold Dev.setRing
  repeat' first | (with_reducible first | assumption | exact .refl _ | apply Dev.set_within | apply Within.ite) | exact rfl

theorem Dev.trainRings_within {M : Nat} {d₀ d : Dev} (hM : Sub 0 M) (hW : Within M d₀ d) (die : Nat) :
    Within M d₀ (d.trainRings die) := by
  refine hW.step ?_ hM
  clear hW hM
  unfold Dev.trainRings
  repeat' first | (with_reducible first | assumption | exact .refl _ | apply Dev.setRing_within | (apply Within.each ?_ (fun d x => ?_))) | exact rfl

theorem Dev.loseDie_within {M : Nat} {d₀ d : Dev} (hM : Sub 0 M) (hW : Within M d₀ d) (die : Nat) (cause : Nat) :
    Within M d₀ (d.loseDie die cause) := by
  refine hW.step ?_ hM
  clear hW hM
  unfold Dev.loseDie
  repeat' first | (with_reducible first | assumption | exact .refl _ | apply Dev.event_within | apply Dev.refreshDies_within | apply Dev.set_within | apply Dev.setN_within | apply Dev.setRing_within | (apply Within.each ?_ (fun d x => ?_)) | apply Within.ite) | extract_lets | exact rfl

theorem execDieLinkTrained_within {die : Fin 4} {s t : State} (h : execDieLinkTrained die s = .next t) :
    Within 0 s.dev t.dev := by
  unfold execDieLinkTrained at h
  refine onDev_within h fun d => ?_
  repeat' first | (with_reducible first | assumption | exact .refl _ | apply Dev.set_within | apply Within.ite) | exact rfl

theorem execDieDescriptorReceived_within {die : Fin 4} {desc : Bytes} {s t : State} (h : execDieDescriptorReceived die desc s = .next t) :
    Within 8388608 s.dev t.dev := by
  unfold execDieDescriptorReceived at h
  refine onDev_within h fun d => ?_
  repeat' first | (with_reducible first | assumption | exact .refl _ | apply Dev.loseDie_within | apply Dev.setBlob_within | apply Dev.setN_within | apply Within.ite) | extract_lets | exact rfl

theorem execDieStartTestDone_within {die : Fin 4} {deckOk : Bool} {failed : Nat} {s t : State} (h : execDieStartTestDone die deckOk failed s = .next t) :
    Within 0 s.dev t.dev := by
  unfold execDieStartTestDone at h
  refine onDev_within h fun d => ?_
  repeat' first | (with_reducible first | assumption | exact .refl _ | apply Dev.loseDie_within | apply Dev.refreshDies_within | apply Dev.set_within | apply Dev.setN_within | apply Dev.trainRings_within | apply Within.ite) | extract_lets | exact rfl

theorem execDieDiscoveryTimeout_within {die : Fin 4} {s t : State} (h : execDieDiscoveryTimeout die s = .next t) :
    Within 0 s.dev t.dev := by
  unfold execDieDiscoveryTimeout at h
  refine onDev_within h fun d => ?_
  repeat' first | (with_reducible first | assumption | exact .refl _ | apply Dev.loseDie_within | apply Within.ite) | exact rfl

theorem execDramChannelTrained_within {ch : Fin 8} {ok : Bool} {s t : State} (h : execDramChannelTrained ch ok s = .next t) :
    Within 128 s.dev t.dev := by
  unfold execDramChannelTrained at h
  refine onDev_within h fun d => ?_
  repeat' first | (with_reducible first | assumption | exact .refl _ | apply Dev.event_within | apply Dev.onBoot_within | apply Dev.set_within | apply Dev.setN_within | apply Within.ite) | extract_lets | exact rfl

theorem Dev.provisional_within {M : Nat} {d₀ d : Dev} (hM : Sub 0 M) (hW : Within M d₀ d) :
    Within M d₀ (d.provisional) := by
  refine hW.step ?_ hM
  clear hW hM
  unfold Dev.provisional
  repeat' first | (with_reducible first | assumption | exact .refl _ | apply Dev.bump_within | apply Dev.event_within | apply Dev.setB_within) | extract_lets | exact rfl

theorem execDiscoveryDone_within {s t : State} (h : execDiscoveryDone s = .next t) :
    Within 10486208 s.dev t.dev := by
  unfold execDiscoveryDone at h
  refine onDev_within h fun d => ?_
  repeat' first | (with_reducible first | assumption | exact .refl _ | apply Dev.provisional_within | apply Dev.refreshDies_within | apply Dev.refreshMask_within | apply Dev.set_within | apply Dev.setN_within | apply Dev.toMaintenance_within | apply Dev.toPhase_within | (apply Within.each ?_ (fun d x => ?_)) | (apply Within.when ?_ (fun d => ?_)) | apply Within.ite) | extract_lets | exact rfl

theorem execStartWindowEnd_within {s t : State} (h : execStartWindowEnd s = .next t) :
    Within 0 s.dev t.dev := by
  unfold execStartWindowEnd at h
  refine onDev_within h fun d => ?_
  repeat' first | (with_reducible first | assumption | exact .refl _ | apply Within.ite) | with_reducible apply Within.startWindow_set | exact rfl

theorem Dev.updateWrite_within {M : Nat} {d₀ d : Dev} (hM : Sub 128 M) (hW : Within M d₀ d) :
    Within M d₀ (d.updateWrite) := by
  refine hW.step ?_ hM
  clear hW hM
  unfold Dev.updateWrite
  repeat' first | (with_reducible first | assumption | exact .refl _ | apply Dev.onBoot_within) | exact rfl

theorem Dev.endClaim_within {M : Nat} {d₀ d : Dev} (hM : Sub 0 M) (hW : Within M d₀ d) :
    Within M d₀ (d.endClaim) := by
  refine hW.step ?_ hM
  clear hW hM
  unfold Dev.endClaim
  repeat' first | (with_reducible first | assumption | exact .refl _ | apply Dev.set_within) | exact rfl

theorem Dev.offsetWritten_within {M : Nat} {d₀ d : Dev} (hM : Sub 128 M) (hW : Within M d₀ d) (part : Nat) :
    Within M d₀ (d.offsetWritten part) := by
  refine hW.step ?_ hM
  clear hW hM
  unfold Dev.offsetWritten
  repeat' first | (with_reducible first | assumption | exact .refl _ | apply Dev.setN_within | apply Dev.updateWrite_within | (apply Within.when ?_ (fun d => ?_))) | exact rfl

theorem execUpdateOffsetWrite_within {hd : Hdr} {cond : Option Nat} {v : Bytes} {s t : State} (h : execUpdateOffsetWrite hd cond v s = .next t) :
    Within 39846528 s.dev t.dev := by
  unfold execUpdateOffsetWrite at h
  refine onDev_within h fun d => ?_
  repeat' first | (with_reducible first | assumption | exact .refl _ | apply Dev.offsetWritten_within | refine Dev.writeStore_within ?_ ?_ (fun se n d => ?_)) | exact rfl

theorem execUpdateLengthWrite_within {hd : Hdr} {cond : Option Nat} {v : Bytes} {s t : State} (h : execUpdateLengthWrite hd cond v s = .next t) :
    Within 39846528 s.dev t.dev := by
  unfold execUpdateLengthWrite at h
  refine onDev_within h fun d => ?_
  repeat' first | (with_reducible first | assumption | exact .refl _ | apply Dev.updateWrite_within | refine Dev.writeStore_within ?_ ?_ (fun se n d => ?_)) | exact rfl

theorem chunkObj_keeps {M : Nat} (hM : Sub 160 M) : (chunkObj).Keeps M := by
  constructor
  · intro se b d
    refine Within.mono (M := 160) ?_ hM
    unfold chunkObj
    repeat' first | (with_reducible first | assumption | exact .refl _ | apply Dev.set_within | apply Dev.updateWrite_within | apply Within.ite) | extract_lets | with_reducible apply Within.banks_set | dsimp only | exact rfl
  · intro se r d
    exact .refl _

theorem execUpdateChunk_within {hd : Hdr} {payload : Bytes} {s t : State} (h : execUpdateChunk hd payload s = .next t) :
    Within 39846560 s.dev t.dev := by
  unfold execUpdateChunk at h
  refine onDev_within h fun d => ?_
  repeat' first | (with_reducible first | assumption | exact .refl _ | apply Dev.blockFrame_within) | exact fun _ => chunkObj_keeps (by exact rfl) | exact rfl

theorem Dev.verifyUpdate_within {M : Nat} {d₀ d : Dev} (hM : Sub 128 M) (hW : Within M d₀ d) :
    Within M d₀ (d.verifyUpdate) := by
  refine hW.step ?_ hM
  clear hW hM
  unfold Dev.verifyUpdate
  repeat' first | (with_reducible first | assumption | exact .refl _ | apply Dev.event_within | apply Dev.onBoot_within | apply Dev.set_within | apply Dev.setN_within | apply Dev.showBank_within | apply Dev.updateWrite_within | (apply Within.when ?_ (fun d => ?_)) | apply Within.ite) | extract_lets | exact rfl

theorem execUpdateVerify_within {hd : Hdr} {cond : Option Nat} {s t : State} (h : execUpdateVerify hd cond s = .next t) :
    Within 39846528 s.dev t.dev := by
  unfold execUpdateVerify at h
  refine onDev_within h fun d => ?_
  repeat' first | (with_reducible first | assumption | exact .refl _ | apply Dev.verifyUpdate_within | refine Dev.writeReq_within ?_ ?_ (fun se n d => ?_)) | exact rfl

theorem execProvisionalConsent_within {hd : Hdr} {cond : Option Nat} {s t : State} (h : execProvisionalConsent hd cond s = .next t) :
    Within 39846528 s.dev t.dev := by
  unfold execProvisionalConsent at h
  refine onDev_within h fun d => ?_
  repeat' first | (with_reducible first | assumption | exact .refl _ | apply Dev.onBoot_within | apply Dev.updateWrite_within | refine Dev.writeReq_within ?_ ?_ (fun se n d => ?_)) | exact rfl

theorem Dev.markTrial_within {M : Nat} {d₀ d : Dev} (hM : Sub 128 M) (hW : Within M d₀ d) :
    Within M d₀ (d.markTrial) := by
  refine hW.step ?_ hM
  clear hW hM
  unfold Dev.markTrial
  repeat' first | (with_reducible first | assumption | exact .refl _ | apply Dev.endClaim_within | apply Dev.onBoot_within | apply Dev.set_within) | extract_lets | exact rfl

theorem execUpdateActivateNextStart_within {hd : Hdr} {cond : Option Nat} {s t : State} (h : execUpdateActivateNextStart hd cond s = .next t) :
    Within 39846528 s.dev t.dev := by
  unfold execUpdateActivateNextStart at h
  refine onDev_within h fun d => ?_
  repeat' first | (with_reducible first | assumption | exact .refl _ | apply Dev.markTrial_within | refine Dev.writeReq_within ?_ ?_ (fun se n d => ?_)) | exact rfl

theorem execUpdateActivateNow_within {hd : Hdr} {cond : Option Nat} {s t : State} (h : execUpdateActivateNow hd cond s = .next t) :
    Within 67108863 s.dev t.dev := by
  unfold execUpdateActivateNow at h
  refine onDev_within h fun d => ?_
  repeat' first | (with_reducible first | assumption | exact .refl _ | apply Dev.finishWrite_within | apply Dev.markTrial_within | apply Dev.plainRestart_within | split) | refine Dev.writeGate_stop rfl ?_ (by assumption) | refine Dev.writeGate_pass rfl ?_ (by assumption) | exact rfl

theorem Dev.commitTrial_within {M : Nat} {d₀ d : Dev} (hM : Sub 128 M) (hW : Within M d₀ d) :
    Within M d₀ (d.commitTrial) := by
  refine hW.step ?_ hM
  clear hW hM
  unfold Dev.commitTrial
  repeat' first | (with_reducible first | assumption | exact .refl _ | apply Dev.event_within | apply Dev.onBoot_within | apply Dev.set_within) | extract_lets | exact rfl

theorem execUpdateCommit_within {hd : Hdr} {cond : Option Nat} {s t : State} (h : execUpdateCommit hd cond s = .next t) :
    Within 39846528 s.dev t.dev := by
  unfold execUpdateCommit at h
  refine onDev_within h fun d => ?_
  repeat' first | (with_reducible first | assumption | exact .refl _ | apply Dev.commitTrial_within | refine Dev.writeReq_within ?_ ?_ (fun se n d => ?_)) | exact rfl

theorem Dev.abortUpdate_within {M : Nat} {d₀ d : Dev} (hM : Sub 32 M) (hW : Within M d₀ d) :
    Within M d₀ (d.abortUpdate) := by
  refine hW.step ?_ hM
  clear hW hM
  unfold Dev.abortUpdate
  repeat' first | (with_reducible first | assumption | exact .refl _ | apply Dev.endClaim_within | apply Dev.set_within | apply Within.ite) | extract_lets | with_reducible apply Within.banks_set | exact rfl

theorem execUpdateAbort_within {hd : Hdr} {cond : Option Nat} {s t : State} (h : execUpdateAbort hd cond s = .next t) :
    Within 39846432 s.dev t.dev := by
  unfold execUpdateAbort at h
  refine onDev_within h fun d => ?_
  repeat' first | (with_reducible first | assumption | exact .refl _ | apply Dev.abortUpdate_within | refine Dev.writeReq_within ?_ ?_ (fun se n d => ?_)) | exact rfl

theorem execUpdateClaimTimeout_within {s t : State} (h : execUpdateClaimTimeout s = .next t) :
    Within 0 s.dev t.dev := by
  unfold execUpdateClaimTimeout at h
  refine onDev_within h fun d => ?_
  repeat' first | (with_reducible first | assumption | exact .refl _ | apply Dev.endClaim_within | apply Dev.set_within | apply Within.ite) | exact rfl

theorem execCommitTimeout_within {s t : State} (h : execCommitTimeout s = .next t) :
    Within 128 s.dev t.dev := by
  unfold execCommitTimeout at h
  refine onDev_within h fun d => ?_
  repeat' first | (with_reducible first | assumption | exact .refl _ | apply Dev.onBoot_within | apply Dev.set_within | apply Within.ite) | exact rfl

theorem Dev.revokeSlot_within {M : Nat} {d₀ d : Dev} (hM : Sub 0 M) (hW : Within M d₀ d) (n : Nat) :
    Within M d₀ (d.revokeSlot n) := by
  refine hW.step ?_ hM
  clear hW hM
  unfold Dev.revokeSlot
  repeat' first | (with_reducible first | assumption | exact .refl _ | apply Dev.setN_within) | exact rfl

theorem execRevokeKeySlot_within {hd : Hdr} {cond : Option Nat} {v : Bytes} {s t : State} (h : execRevokeKeySlot hd cond v s = .next t) :
    Within 39846400 s.dev t.dev := by
  unfold execRevokeKeySlot at h
  refine onDev_within h fun d => ?_
  repeat' first | (with_reducible first | assumption | exact .refl _ | apply Dev.revokeSlot_within | refine Dev.writeReq_within ?_ ?_ (fun se n d => ?_)) | exact rfl

theorem execAdvanceFloor_within {hd : Hdr} {cond : Option Nat} {v : Bytes} {s t : State} (h : execAdvanceFloor hd cond v s = .next t) :
    Within 39846400 s.dev t.dev := by
  unfold execAdvanceFloor at h
  refine onDev_within h fun d => ?_
  repeat' first | (with_reducible first | assumption | exact .refl _ | apply Dev.set_within | refine Dev.writeReq_within ?_ ?_ (fun se n d => ?_)) | exact rfl

theorem execPerstNRelease_within {s t : State} (h : execPerstNRelease s = .next t) :
    Within 0 s.dev t.dev := by
  unfold execPerstNRelease at h
  refine onDev_within h fun d => ?_
  repeat' first | (with_reducible first | assumption | exact .refl _ | apply Dev.onPins_within | apply Within.ite) | exact rfl

end Sys2Proof.Machine
end

