-- ==== Sys2Proof/Laws/IngestFrame.lean ====
section
/-! SUPPORT. What the operations of Machine/Ingest.lean leave alone. -/
namespace Sys2Proof.Machine

theorem Dev.setSlot_within {M : Nat} {d₀ d : Dev} (hM : Sub 1024 M) (hW : Within M d₀ d) (s : Nat) (r : SlotRt) :
    Within M d₀ (d.setSlot s r) := by
  refine hW.step ?_ hM
  clear hW hM
  unfold Dev.setSlot
  repeat' first | (with_reducible first | assumption | exact .refl _ | apply Within.ite) | with_reducible apply Within.slots_set | exact rfl

theorem Dev.onSlot_within {M : Nat} {d₀ d : Dev} (hM : Sub 1024 M) (hW : Within M d₀ d) (s : Nat) (f : SlotRt → SlotRt) :
    Within M d₀ (d.onSlot s f) := by
  refine hW.step ?_ hM
  clear hW hM
  unfold Dev.onSlot
  repeat' first | (with_reducible first | assumption | exact .refl _ | apply Dev.setSlot_within) | exact rfl

theorem Dev.refreshSlot_within {M : Nat} {d₀ d : Dev} (hM : Sub 0 M) (hW : Within M d₀ d) (s : Nat) :
    Within M d₀ (d.refreshSlot s) := by
  refine hW.step ?_ hM
  clear hW hM
  unfold Dev.refreshSlot
  repeat' first | (with_reducible first | assumption | exact .refl _ | apply Dev.set_within | apply Within.ite) | exact rfl

theorem Dev.slotViolation_within {M : Nat} {d₀ d : Dev} (hM : Sub 33554432 M) (hW : Within M d₀ d) (s : Nat) (code : Nat) :
    Within M d₀ (d.slotViolation s code) := by
  refine hW.step ?_ hM
  clear hW hM
  unfold Dev.slotViolation
  repeat' first | (with_reducible first | assumption | exact .refl _ | apply Dev.bump_within | apply Dev.refreshSlot_within | apply Dev.violate_within | apply Within.ite) | extract_lets | exact rfl

theorem Dev.slotEvent_within {M : Nat} {d₀ d : Dev} (hM : Sub 0 M) (hW : Within M d₀ d) (s : Nat) (code : Nat) :
    Within M d₀ (d.slotEvent s code) := by
  refine hW.step ?_ hM
  clear hW hM
  unfold Dev.slotEvent
  repeat' first | (with_reducible first | assumption | exact .refl _ | apply Dev.event_within) | exact rfl

theorem Dev.restartModel_within {M : Nat} {d₀ d : Dev} (hM : Sub 1024 M) (hW : Within M d₀ d) (s : Nat) :
    Within M d₀ (d.restartModel s) := by
  refine hW.step ?_ hM
  clear hW hM
  unfold Dev.restartModel
  repeat' first | (with_reducible first | assumption | exact .refl _ | apply Dev.bump_within | apply Dev.onSlot_within | apply Dev.set_within | apply Dev.slotEvent_within) | extract_lets | exact rfl

theorem Dev.addPair_within {M : Nat} {d₀ d : Dev} (hM : Sub 1024 M) (hW : Within M d₀ d) (s : Nat) (ts : Int) (a : Int) :
    Within M d₀ (d.addPair s ts a) := by
  refine hW.step ?_ hM
  clear hW hM
  unfold Dev.addPair
  repeat' first | (with_reducible first | assumption | exact .refl _ | apply Dev.onSlot_within | apply Within.ite | split) | extract_lets | exact rfl

theorem Dev.stampItem_snd {M : Nat} {d₀ d : Dev} (hM : Sub 1024 M) (h : Within M d₀ d) (s : Nat) (raw : Option Nat) (a : Int) :
    Within M d₀ (d.stampItem s raw a).2.2 := by
  refine h.step ?_ hM
  clear h hM
  unfold Dev.stampItem
  try dsimp only
  repeat' split
  repeat' first | (with_reducible first | assumption | exact .refl _ | apply Dev.addPair_within | apply Dev.onSlot_within | apply Dev.restartModel_within | apply Within.ite | split) | extract_lets | exact rfl

theorem Dev.stampItem_of {M : Nat} {d₀ d e : Dev} {s : Nat} {raw : Option Nat} {a : Int} {a₀ : Int} {b₀ : Bool} (hM : Sub 1024 M) (h : Within M d₀ d)
    (hx : d.stampItem s raw a = (a₀, b₀, e)) : Within M d₀ e := by
  have g := Dev.stampItem_snd hM h s raw a
  rwa [hx] at g

theorem Dev.refit_within {M : Nat} {d₀ d : Dev} (hM : Sub 1024 M) (hW : Within M d₀ d) (s : Nat) :
    Within M d₀ (d.refit s) := by
  refine hW.step ?_ hM
  clear hW hM
  unfold Dev.refit
  repeat' first | (with_reducible first | assumption | exact .refl _ | apply Dev.restartModel_within | apply Dev.set_within | apply Dev.setN_within | apply Within.ite) | extract_lets | exact rfl

theorem execModelWindowEnd_within {slot : Fin 32} {s t : State} (h : execModelWindowEnd slot s = .next t) :
    Within 1024 s.dev t.dev := by
  unfold execModelWindowEnd at h
  refine onDev_within h fun d => ?_
  repeat' first | (with_reducible first | assumption | exact .refl _ | apply Dev.onSlot_within | apply Dev.refit_within | apply Dev.restartModel_within | apply Within.ite | split) | extract_lets | exact rfl

theorem Dev.setStage_within {M : Nat} {d₀ d : Dev} (hM : Sub 0 M) (hW : Within M d₀ d) (k : Nat) (l : List Item) :
    Within M d₀ (d.setStage k l) := by
  refine hW.step ?_ hM
  clear hW hM
  unfold Dev.setStage
  repeat' first | (with_reducible first | assumption | exact .refl _ | apply Within.ite) | with_reducible apply Within.stage_set | exact rfl

theorem Dev.toStage_within {M : Nat} {d₀ d : Dev} (hM : Sub 0 M) (hW : Within M d₀ d) (k : Nat) (it : Item) :
    Within M d₀ (d.toStage k it) := by
  refine hW.step ?_ hM
  clear hW hM
  unfold Dev.toStage
  repeat' first | (with_reducible first | assumption | exact .refl _ | apply Dev.absentReply_within | apply Dev.genInc_within | apply Dev.setStage_within | apply Within.ite) | exact rfl

theorem Dev.withPayload_snd {M : Nat} {d₀ d : Dev} (hM : Sub 0 M) (h : Within M d₀ d) (it : Item) (data : Bytes) :
    Within M d₀ (d.withPayload it data).2 := by
  refine h.step ?_ hM
  clear h hM
  unfold Dev.withPayload
  try dsimp only
  repeat' split
  repeat' first | (with_reducible first | assumption | exact .refl _ | apply Dev.drawn_within | apply Within.ite) | extract_lets | exact rfl

theorem Dev.withPayload_of {M : Nat} {d₀ d e : Dev} {it : Item} {data : Bytes} {a₀ : Item} (hM : Sub 0 M) (h : Within M d₀ d)
    (hx : d.withPayload it data = (a₀, e)) : Within M d₀ e := by
  have g := Dev.withPayload_snd hM h it data
  rwa [hx] at g

theorem Dev.emitItem_within {M : Nat} {d₀ d : Dev} (hM : Sub 0 M) (hW : Within M d₀ d) (q : Nat) (it : Item) (data : Bytes) (late : Bool) :
    Within M d₀ (d.emitItem q it data late) := by
  refine hW.step ?_ hM
  clear hW hM
  unfold Dev.emitItem
  repeat' first | (with_reducible first | assumption | exact .refl _ | apply Dev.absentDrop_within | apply Dev.enqueue_within | apply Dev.judgeLate_snd | apply Dev.nextSeq_within | apply Dev.withPayload_snd) | refine Dev.judgeLate_of (by exact rfl) ?_ (by assumption) | refine Dev.withPayload_of (by exact rfl) ?_ (by assumption) | extract_lets | exact rfl

theorem Dev.slotPolicy_snd {M : Nat} {d₀ d : Dev} (hM : Sub 0 M) (h : Within M d₀ d) (it : Item) :
    Within M d₀ (d.slotPolicy it).2 := by
  refine h.step ?_ hM
  clear h hM
  unfold Dev.slotPolicy
  try dsimp only
  repeat' split
  repeat' first | (with_reducible first | assumption | exact .refl _ | apply Dev.bump_within | apply Within.ite) | exact rfl

theorem Dev.slotPolicy_of {M : Nat} {d₀ d e : Dev} {it : Item} {a₀ : Option Item} (hM : Sub 0 M) (h : Within M d₀ d)
    (hx : d.slotPolicy it = (a₀, e)) : Within M d₀ e := by
  have g := Dev.slotPolicy_snd hM h it
  rwa [hx] at g

theorem Dev.slotDiscard_within {M : Nat} {d₀ d : Dev} (hM : Sub 33554432 M) (hW : Within M d₀ d) (s : Nat) :
    Within M d₀ (d.slotDiscard s) := by
  refine hW.step ?_ hM
  clear hW hM
  unfold Dev.slotDiscard
  repeat' first | (with_reducible first | assumption | exact .refl _ | apply Dev.bump_within | apply Dev.quarantineDrop_within | apply Dev.refreshSlot_within) | exact rfl

theorem Dev.routeItem_within {M : Nat} {d₀ d : Dev} (hM : Sub 1024 M) (hW : Within M d₀ d) (s : Nat) (cfg : SlotCfg) (it : Item) :
    Within M d₀ (d.routeItem s cfg it) := by
  refine hW.step ?_ hM
  clear hW hM
  unfold Dev.routeItem
  repeat' first | (with_reducible first | assumption | exact .refl _ | apply Dev.bump_within | apply Dev.absentDrop_within | apply Dev.enqueue_within | apply Dev.nextSeq_within | apply Dev.onSlot_within | apply Dev.refreshSlot_within | apply Dev.setN_within | apply Dev.toStage_within | (apply Within.each ?_ (fun d x => ?_)) | (apply Within.when ?_ (fun d => ?_)) | apply Within.ite) | extract_lets | exact rfl

theorem Dev.classify_within {M : Nat} {d₀ d : Dev} (hM : Sub 33555456 M) (hW : Within M d₀ d) (s : Nat) (cfg : SlotCfg) (it : Item) (data : Bytes) :
    Within M d₀ (d.classify s cfg it data) := by
  refine hW.step ?_ hM
  clear hW hM
  unfold Dev.classify
  exact .ite (Dev.slotDiscard_within (by exact rfl) (.refl _) _)
    (Dev.routeItem_within (by exact rfl) (Dev.judgeLate_snd .zero (Dev.withPayload_snd .zero (.refl _) _ _) _ _) _ _ _)

theorem Dev.slotStops_within {M : Nat} {d₀ d : Dev} (hM : Sub 1024 M) (hW : Within M d₀ d) (s : Nat) :
    Within M d₀ (d.slotStops s) := by
  refine hW.step ?_ hM
  clear hW hM
  unfold Dev.slotStops
  repeat' first | (with_reducible first | assumption | exact .refl _ | apply Dev.refreshSlot_within | apply Dev.set_within | apply Dev.setN_within | apply Dev.setSlot_within) | extract_lets | exact rfl

theorem Dev.slotBoundary_within {M : Nat} {d₀ d : Dev} (hM : Sub 1024 M) (hW : Within M d₀ d) (s : Nat) :
    Within M d₀ (d.slotBoundary s) := by
  refine hW.step ?_ hM
  clear hW hM
  unfold Dev.slotBoundary
  repeat' first | (with_reducible first | assumption | exact .refl _ | apply Dev.slotStops_within | apply Within.ite) | exact rfl

theorem Dev.missExposure_snd {M : Nat} {d₀ d : Dev} (hM : Sub 0 M) (h : Within M d₀ d) (s : Nat) (f : CsiFrame) :
    Within M d₀ (d.missExposure s f).2 := by
  refine h.step ?_ hM
  clear h hM
  unfold Dev.missExposure
  try dsimp only
  repeat' split
  repeat' first | (with_reducible first | assumption | exact .refl _ | apply Dev.slotEvent_within | apply Within.ite) | exact rfl

theorem Dev.missExposure_of {M : Nat} {d₀ d e : Dev} {s : Nat} {f : CsiFrame} {a₀ : CsiFrame} (hM : Sub 0 M) (h : Within M d₀ d)
    (hx : d.missExposure s f = (a₀, e)) : Within M d₀ e := by
  have g := Dev.missExposure_snd hM h s f
  rwa [hx] at g

theorem Dev.closeFrame_within {M : Nat} {d₀ d : Dev} (hM : Sub 33555456 M) (hW : Within M d₀ d) (s : Nat) :
    Within M d₀ (d.closeFrame s) := by
  refine hW.step ?_ hM
  clear hW hM
  unfold Dev.closeFrame
  repeat' first | (with_reducible first | assumption | exact .refl _ | apply Dev.bump_within | apply Dev.classify_within | apply Dev.missExposure_snd | apply Dev.onSlot_within | apply Dev.slotDiscard_within | apply Dev.slotViolation_within | (apply Within.when ?_ (fun d => ?_)) | apply Within.ite | split) | refine Dev.missExposure_of (by exact rfl) ?_ (by assumption) | extract_lets | exact rfl

theorem Dev.applyLanes_within {M : Nat} {d₀ d : Dev} (hM : Sub 0 M) (hW : Within M d₀ d) (port : Nat) :
    Within M d₀ (d.applyLanes port) := by
  refine hW.step ?_ hM
  clear hW hM
  unfold Dev.applyLanes
  repeat' first | (with_reducible first | assumption | exact .refl _ | apply Dev.setN_within | apply Dev.slotEvent_within | (apply Within.each ?_ (fun d x => ?_)) | split) | extract_lets | with_reducible apply Within.csiPend_set | exact rfl

theorem Dev.csiCut_snd {M : Nat} {d₀ d : Dev} (hM : Sub 33555456 M) (h : Within M d₀ d) (port : Nat) (vc : Nat) :
    Within M d₀ (d.csiCut port vc).2 := by
  refine h.step ?_ hM
  clear h hM
  unfold Dev.csiCut
  try dsimp only
  repeat' split
  repeat' first | (with_reducible first | assumption | exact .refl _ | apply Dev.closeFrame_within | apply Dev.slotBoundary_within | split) | exact rfl

theorem Dev.csiCut_of {M : Nat} {d₀ d e : Dev} {port : Nat} {vc : Nat} {a₀ : Bool} (hM : Sub 33555456 M) (h : Within M d₀ d)
    (hx : d.csiCut port vc = (a₀, e)) : Within M d₀ e := by
  have g := Dev.csiCut_snd hM h port vc
  rwa [hx] at g

theorem Dev.csiFrameStart_within {M : Nat} {d₀ d : Dev} (hM : Sub 1024 M) (hW : Within M d₀ d) (port : Nat) (vc : Nat) (cut : Bool) :
    Within M d₀ (d.csiFrameStart port vc cut) := by
  refine hW.step ?_ hM
  clear hW hM
  unfold Dev.csiFrameStart
  repeat' first | (with_reducible first | assumption | exact .refl _ | apply Dev.applyLanes_within | apply Dev.onSlot_within | apply Within.ite | split) | extract_lets | exact rfl

theorem Dev.refreshLatency_within {M : Nat} {d₀ d : Dev} (hM : Sub 0 M) (hW : Within M d₀ d) (s : Nat) :
    Within M d₀ (d.refreshLatency s) := by
  refine hW.step ?_ hM
  clear hW hM
  unfold Dev.refreshLatency
  repeat' first | (with_reducible first | assumption | exact .refl _ | apply Dev.setN_within) | exact rfl

theorem Dev.csiPacket_snd {M : Nat} {d₀ d : Dev} (hM : Sub 0 M) (h : Within M d₀ d) (i : Nat) (f : CsiFrame) (p : CsiPacket) :
    Within M d₀ (d.csiPacket i f p).2 := by
  refine h.step ?_ hM
  clear h hM
  unfold Dev.csiPacket
  try dsimp only
  repeat' split
  repeat' first | (with_reducible first | assumption | exact .refl _ | apply Dev.handover_within) | extract_lets | exact rfl

theorem Dev.csiPacket_of {M : Nat} {d₀ d e : Dev} {i : Nat} {f : CsiFrame} {p : CsiPacket} {a₀ : CsiFrame} (hM : Sub 0 M) (h : Within M d₀ d)
    (hx : d.csiPacket i f p = (a₀, e)) : Within M d₀ e := by
  have g := Dev.csiPacket_snd hM h i f p
  rwa [hx] at g

theorem execCsiEmbeddedLine_within {port : Fin 6} {vc : Fin 4} {line : CsiPacket} {s t : State} (h : execCsiEmbeddedLine port vc line s = .next t) :
    Within 33555456 s.dev t.dev := by
  unfold execCsiEmbeddedLine at h
  refine onDev_within h fun d => ?_
  repeat' first | (with_reducible first | assumption | exact .refl _ | apply Dev.csiPacket_snd | apply Dev.missExposure_snd | apply Dev.onSlot_within | apply Dev.refreshLatency_within | apply Dev.slotViolation_within | apply Within.ite | split) | refine Dev.csiPacket_of (by exact rfl) ?_ (by assumption) | refine Dev.missExposure_of (by exact rfl) ?_ (by assumption) | extract_lets | exact rfl

theorem Dev.csiUntaken_within {M : Nat} {d₀ d : Dev} (hM : Sub 0 M) (hW : Within M d₀ d) (port : Nat) :
    Within M d₀ (d.csiUntaken port) := by
  refine hW.step ?_ hM
  clear hW hM
  unfold Dev.csiUntaken
  repeat' first | (with_reducible first | assumption | exact .refl _) | with_reducible apply Within.books_set | exact rfl

theorem execCsiLongPacket_within {port : Fin 6} {vc : Fin 4} {dataType : Nat} {headerOk : Bool} {line : Bytes} {found : Found} {s t : State} (h : execCsiLongPacket port vc dataType headerOk line found s = .next t) :
    Within 33555456 s.dev t.dev := by
  unfold execCsiLongPacket at h
  refine onDev_within h fun d => ?_
  repeat' first | (with_reducible first | assumption | exact .refl _ | apply Dev.csiPacket_snd | apply Dev.csiUntaken_within | apply Dev.missExposure_snd | apply Dev.onSlot_within | apply Dev.slotViolation_within | apply Within.ite | split) | refine Dev.csiPacket_of (by exact rfl) ?_ (by assumption) | refine Dev.missExposure_of (by exact rfl) ?_ (by assumption) | extract_lets | exact rfl

theorem execCsiFrameEnd_within {port : Fin 6} {vc : Fin 4} {s t : State} (h : execCsiFrameEnd port vc s = .next t) :
    Within 33555456 s.dev t.dev := by
  unfold execCsiFrameEnd at h
  refine onDev_within h fun d => ?_
  repeat' first | (with_reducible first | assumption | exact .refl _ | apply Dev.closeFrame_within | apply Dev.slotBoundary_within | apply Within.ite | split) | exact rfl

theorem execCsiLaneError_within {port : Fin 6} {lane : Fin 4} {s t : State} (h : execCsiLaneError port lane s = .next t) :
    Within 0 s.dev t.dev := by
  unfold execCsiLaneError at h
  refine onDev_within h fun d => ?_
  repeat' first | (with_reducible first | assumption | exact .refl _ | apply Within.ite | split) | extract_lets | with_reducible apply Within.csiPend_set | exact rfl

theorem Dev.scannerDatagram_within {M : Nat} {d₀ d : Dev} (hM : Sub 33555456 M) (hW : Within M d₀ d) (port : Nat) (srcIp : Nat) (dstPort : Nat) (fragmented : Bool) (payload : Bytes) (found : Found) :
    Within M d₀ (d.scannerDatagram port srcIp dstPort fragmented payload found) := by
  refine hW.step ?_ hM
  clear hW hM
  unfold Dev.scannerDatagram
  repeat' first | (with_reducible first | assumption | exact .refl _ | apply Dev.classify_within | apply Dev.countFcs_within | apply Dev.drop_within | apply Dev.handover_within | apply Dev.onSlot_within | apply Dev.slotDiscard_within | apply Dev.slotViolation_within | apply Dev.stampItem_snd | (apply Within.when ?_ (fun d => ?_)) | apply Within.ite | split) | refine Dev.stampItem_of (by exact rfl) ?_ (by assumption) | extract_lets | exact rfl

theorem Dev.spiSelect_within {M : Nat} {d₀ d : Dev} (hM : Sub 0 M) (hW : Within M d₀ d) (port : Nat) (i : Nat) :
    Within M d₀ (d.spiSelect port i) := by
  refine hW.step ?_ hM
  clear hW hM
  unfold Dev.spiSelect
  repeat' first | (with_reducible first | assumption | exact .refl _ | apply Dev.send_within) | exact rfl

theorem Dev.imuDrdy_within {M : Nat} {d₀ d : Dev} (hM : Sub 33555456 M) (hW : Within M d₀ d) (port : Nat) (rising : Bool) :
    Within M d₀ (d.imuDrdy port rising) := by
  refine hW.step ?_ hM
  clear hW hM
  unfold Dev.imuDrdy
  repeat' first | (with_reducible first | assumption | exact .refl _ | apply Dev.bump_within | apply Dev.onSlot_within | apply Dev.slotDiscard_within | apply Dev.slotViolation_within | apply Dev.spiSelect_within | apply Within.ite | split) | exact rfl

theorem execImuReadDone_within {port : Fin 4} {data : Bytes} {s t : State} (h : execImuReadDone port data s = .next t) :
    Within 33555456 s.dev t.dev := by
  unfold execImuReadDone at h
  refine onDev_within h fun d => ?_
  repeat' first | (with_reducible first | assumption | exact .refl _ | apply Dev.classify_within | apply Dev.handover_within | apply Dev.onSlot_within | apply Dev.slotBoundary_within | apply Dev.slotDiscard_within | apply Dev.slotViolation_within | apply Dev.stampItem_snd | (apply Within.when ?_ (fun d => ?_)) | apply Within.ite | split) | refine Dev.stampItem_of (by exact rfl) ?_ (by assumption) | extract_lets | exact rfl

theorem Dev.setEnc_within {M : Nat} {d₀ d : Dev} (hM : Sub 2048 M) (hW : Within M d₀ d) (c : Nat) (e : EncCh) :
    Within M d₀ (d.setEnc c e) := by
  refine hW.step ?_ hM
  clear hW hM
  unfold Dev.setEnc
  repeat' first | (with_reducible first | assumption | exact .refl _ | apply Within.ite) | with_reducible apply Within.encs_set | exact rfl

theorem Dev.encoderStep_within {M : Nat} {d₀ d : Dev} (hM : Sub 33556480 M) (hW : Within M d₀ d) (ch : Nat) (step : Option Bool) :
    Within M d₀ (d.encoderStep ch step) := by
  refine hW.step ?_ hM
  clear hW hM
  unfold Dev.encoderStep
  repeat' first | (with_reducible first | assumption | exact .refl _ | apply Dev.setEnc_within | apply Dev.slotViolation_within | apply Within.ite | split) | extract_lets | exact rfl

theorem execEncoderZEdge_within {ch : Fin 8} {s t : State} (h : execEncoderZEdge ch s = .next t) :
    Within 2048 s.dev t.dev := by
  unfold execEncoderZEdge at h
  refine onDev_within h fun d => ?_
  repeat' first | (with_reducible first | assumption | exact .refl _ | apply Dev.setEnc_within | apply Within.ite | split) | extract_lets | exact rfl

theorem Dev.encoderPeriod_within {M : Nat} {d₀ d : Dev} (hM : Sub 33557504 M) (hW : Within M d₀ d) (slot : Nat) :
    Within M d₀ (d.encoderPeriod slot) := by
  refine hW.step ?_ hM
  clear hW hM
  unfold Dev.encoderPeriod
  repeat' first | (with_reducible first | assumption | exact .refl _ | apply Dev.classify_within | apply Dev.handover_within | apply Dev.setEnc_within | apply Dev.slotBoundary_within | apply Dev.slotDiscard_within | (apply Within.each ?_ (fun d x => ?_)) | apply Within.ite) | extract_lets | exact rfl

theorem Dev.countCan_within {M : Nat} {d₀ d : Dev} (hM : Sub 0 M) (hW : Within M d₀ d) (ctl : Nat) (bad : Bool) :
    Within M d₀ (d.countCan ctl bad) := by
  refine hW.step ?_ hM
  clear hW hM
  unfold Dev.countCan
  repeat' first | (with_reducible first | assumption | exact .refl _ | apply Within.ite) | extract_lets | with_reducible apply Within.books_set | exact rfl

theorem Dev.canSensor_within {M : Nat} {d₀ d : Dev} (hM : Sub 33555456 M) (hW : Within M d₀ d) (ctl : Nat) (id : Nat) (extended : Bool) (data : Bytes) (found : Found) :
    Within M d₀ (d.canSensor ctl id extended data found) := by
  refine hW.step ?_ hM
  clear hW hM
  unfold Dev.canSensor
  repeat' first | (with_reducible first | assumption | exact .refl _ | apply Dev.classify_within | apply Dev.handover_within | apply Dev.onSlot_within | apply Dev.slotDiscard_within | apply Dev.stampItem_snd | apply Within.ite | split) | refine Dev.stampItem_of (by exact rfl) ?_ (by assumption) | extract_lets | exact rfl

theorem execCanErrorFrame_within {ctl : Fin 2} {passive : Bool} {s t : State} (h : execCanErrorFrame ctl passive s = .next t) :
    Within 0 s.dev t.dev := by
  unfold execCanErrorFrame at h
  refine onDev_within h fun d => ?_
  repeat' first | (with_reducible first | assumption | exact .refl _ | apply Dev.countCan_within | apply Dev.setB_within | apply Within.ite) | exact rfl

theorem execSlotStaleTimeout_within {slot : Fin 32} {s t : State} (h : execSlotStaleTimeout slot s = .next t) :
    Within 1024 s.dev t.dev := by
  unfold execSlotStaleTimeout at h
  refine onDev_within h fun d => ?_
  repeat' first | (with_reducible first | assumption | exact .refl _ | apply Dev.onSlot_within | apply Dev.refreshSlot_within | apply Dev.slotEvent_within | apply Within.ite | split) | exact rfl

theorem Dev.slotEnabled_within {M : Nat} {d₀ d : Dev} (hM : Sub 1024 M) (hW : Within M d₀ d) (s : Nat) (on : Bool) :
    Within M d₀ (d.slotEnabled s on) := by
  refine hW.step ?_ hM
  clear hW hM
  unfold Dev.slotEnabled
  repeat' first | (with_reducible first | assumption | exact .refl _ | apply Dev.onSlot_within | apply Dev.refreshSlot_within | apply Dev.set_within | apply Dev.setN_within | apply Dev.setSlot_within | apply Dev.slotStops_within | (apply Within.each ?_ (fun d x => ?_)) | (apply Within.when ?_ (fun d => ?_)) | apply Within.ite) | extract_lets | with_reducible apply Within.csiPend_set | exact rfl

theorem Dev.maskSelect_within {M : Nat} {d₀ d : Dev} (hM : Sub 0 M) (hW : Within M d₀ d) (s : Nat) :
    Within M d₀ (d.maskSelect s) := by
  refine hW.step ?_ hM
  clear hW hM
  unfold Dev.maskSelect
  repeat' first | (with_reducible first | assumption | exact .refl _ | apply Dev.setN_within) | exact rfl

theorem Dev.maskParams_within {M : Nat} {d₀ d : Dev} (hM : Sub 0 M) (hW : Within M d₀ d) (s : Nat) (ns : List Nat) :
    Within M d₀ (d.maskParams s ns) := by
  refine hW.step ?_ hM
  clear hW hM
  unfold Dev.maskParams
  repeat' first | (with_reducible first | assumption | exact .refl _ | apply Dev.setN_within | (apply Within.each ?_ (fun d x => ?_))) | exact rfl

theorem Dev.slotWritten_within {M : Nat} {d₀ d : Dev} (hM : Sub 1024 M) (hW : Within M d₀ d) (s : Nat) (sub : Nat) :
    Within M d₀ (d.slotWritten s sub) := by
  refine hW.step ?_ hM
  clear hW hM
  unfold Dev.slotWritten
  repeat' first | (with_reducible first | assumption | exact .refl _ | apply Dev.maskParams_within | apply Dev.maskSelect_within | apply Dev.onSlot_within | apply Dev.refreshLatency_within | apply Dev.refreshSlot_within | apply Dev.set_within | apply Dev.slotEnabled_within | apply Within.ite) | extract_lets | exact rfl

end Sys2Proof.Machine
end

