-- ==== Sys2Proof/Laws/FusionFrame.lean ====
section
/-! SUPPORT. What the operations of Machine/Fusion.lean leave alone. -/
namespace Sys2Proof.Machine

theorem Dev.onFus_within {M : Nat} {d₀ d : Dev} (hM : Sub 4096 M) (hW : Within M d₀ d) (f : Fus → Fus) :
    Within M d₀ (d.onFus f) := by
  refine hW.step ?_ hM
  clear hW hM
  unfold Dev.onFus
  repeat' first | (with_reducible first | assumption | exact .refl _) | with_reducible apply Within.fus_set | exact rfl

theorem Dev.onGrid_within {M : Nat} {d₀ d : Dev} (hM : Sub 4096 M) (hW : Within M d₀ d) (g : Nat) (f : GridRt → GridRt) :
    Within M d₀ (d.onGrid g f) := by
  refine hW.step ?_ hM
  clear hW hM
  unfold Dev.onGrid
  repeat' first | (with_reducible first | assumption | exact .refl _ | apply Dev.onFus_within | apply Within.ite) | extract_lets | exact rfl

theorem Dev.consume_within {M : Nat} {d₀ d : Dev} (hM : Sub 0 M) (hW : Within M d₀ d) (k : Nat) (it : Item) :
    Within M d₀ (d.consume k it) := by
  refine hW.step ?_ hM
  clear hW hM
  unfold Dev.consume
  repeat' first | (with_reducible first | assumption | exact .refl _ | apply Dev.genDec_within | apply Dev.setStage_within) | exact rfl

theorem Dev.notePose_within {M : Nat} {d₀ d : Dev} (hM : Sub 4096 M) (hW : Within M d₀ d) (case : Nat) :
    Within M d₀ (d.notePose case) := by
  refine hW.step ?_ hM
  clear hW hM
  unfold Dev.notePose
  repeat' first | (with_reducible first | assumption | exact .refl _ | apply Dev.event_within | apply Dev.onFus_within | apply Dev.set_within | apply Within.ite) | extract_lets | exact rfl

theorem Dev.releaseFrames_within {M : Nat} {d₀ d : Dev} (hM : Sub 4096 M) (hW : Within M d₀ d) :
    Within M d₀ (d.releaseFrames) := by
  refine hW.step ?_ hM
  clear hW hM
  unfold Dev.releaseFrames
  repeat' first | (with_reducible first | assumption | exact .refl _ | apply Dev.notePose_within | apply Dev.setStage_within | (apply Within.each ?_ (fun d x => ?_)) | split) | extract_lets | exact rfl

theorem Dev.resolveBuilds_within {M : Nat} {d₀ d : Dev} (hM : Sub 4096 M) (hW : Within M d₀ d) :
    Within M d₀ (d.resolveBuilds) := by
  refine hW.step ?_ hM
  clear hW hM
  unfold Dev.resolveBuilds
  repeat' first | (with_reducible first | assumption | exact .refl _ | apply Dev.notePose_within | apply Dev.onGrid_within | (apply Within.each ?_ (fun d x => ?_)) | apply Within.ite | split) | extract_lets | exact rfl

theorem execPoseRecord_within {s t : State} (h : execPoseRecord s = .next t) :
    Within 33558528 s.dev t.dev := by
  unfold execPoseRecord at h
  refine onDev_within h fun d => ?_
  repeat' first | (with_reducible first | assumption | exact .refl _ | apply Dev.bump_within | apply Dev.event_within | apply Dev.genDec_within | apply Dev.onFus_within | apply Dev.releaseFrames_within | apply Dev.resolveBuilds_within | apply Dev.set_within | apply Dev.setN_within | apply Dev.violate_within | (apply Within.when ?_ (fun d => ?_)) | apply Within.ite | split) | refine Dev.readQueue_of rfl ?_ (by assumption) | extract_lets | exact rfl

theorem execPoseWaitExpiry_within {s t : State} (h : execPoseWaitExpiry s = .next t) :
    Within 4096 s.dev t.dev := by
  unfold execPoseWaitExpiry at h
  refine onDev_within h fun d => ?_
  repeat' first | (with_reducible first | assumption | exact .refl _ | apply Dev.releaseFrames_within | apply Dev.resolveBuilds_within | apply Within.ite) | exact rfl

theorem Dev.closeGrid_within {M : Nat} {d₀ d : Dev} (hM : Sub 4096 M) (hW : Within M d₀ d) (g : Nat) (t : Nat) :
    Within M d₀ (d.closeGrid g t) := by
  refine hW.step ?_ hM
  clear hW hM
  unfold Dev.closeGrid
  repeat' first | (with_reducible first | assumption | exact .refl _ | apply Dev.bump_within | apply Dev.event_within | apply Dev.onGrid_within | apply Within.ite) | extract_lets | exact rfl

theorem execGridTick_within {s t : State} (h : execGridTick s = .next t) :
    Within 4096 s.dev t.dev := by
  unfold execGridTick at h
  refine onDev_within h fun d => ?_
  repeat' first | (with_reducible first | assumption | exact .refl _ | apply Dev.bump_within | apply Dev.closeGrid_within | apply Dev.consume_within | apply Dev.onFus_within | apply Dev.resolveBuilds_within | (apply Within.each ?_ (fun d x => ?_)) | (apply Within.when ?_ (fun d => ?_)) | apply Within.ite) | extract_lets | exact rfl

theorem Dev.resampleBlock_snd {M : Nat} {d₀ d : Dev} (hM : Sub 4096 M) (h : Within M d₀ d) (i : Nat) (slot : Nat) (t : Nat) :
    Within M d₀ (d.resampleBlock i slot t).2.2 := by
  refine h.step ?_ hM
  clear h hM
  unfold Dev.resampleBlock
  try dsimp only
  repeat' split
  repeat' first | (with_reducible first | assumption | exact .refl _ | apply Dev.onFus_within | apply Within.ite | split) | extract_lets | exact rfl

theorem Dev.resampleBlock_of {M : Nat} {d₀ d e : Dev} {i : Nat} {slot : Nat} {t : Nat} {a₀ : Bytes} {b₀ : Bool} (hM : Sub 4096 M) (h : Within M d₀ d)
    (hx : d.resampleBlock i slot t = (a₀, b₀, e)) : Within M d₀ e := by
  have g := Dev.resampleBlock_snd hM h i slot t
  rwa [hx] at g

theorem Dev.dropSamples_within {M : Nat} {d₀ d : Dev} (hM : Sub 0 M) (hW : Within M d₀ d) (t : Nat) :
    Within M d₀ (d.dropSamples t) := by
  refine hW.step ?_ hM
  clear hW hM
  unfold Dev.dropSamples
  repeat' first | (with_reducible first | assumption | exact .refl _ | apply Dev.consume_within | (apply Within.each ?_ (fun d x => ?_)) | (apply Within.when ?_ (fun d => ?_)) | split) | extract_lets | exact rfl

theorem Dev.inputBlock_snd {M : Nat} {d₀ d : Dev} (hM : Sub 4096 M) (h : Within M d₀ d) (t : Nat) (i : Nat) :
    Within M d₀ (d.inputBlock t i).2 := by
  refine h.step ?_ hM
  clear h hM
  unfold Dev.inputBlock
  try dsimp only
  repeat' split
  repeat' first | (with_reducible first | assumption | exact .refl _ | apply Dev.event_within | apply Dev.onFus_within | apply Dev.resampleBlock_snd | (apply Within.when ?_ (fun d => ?_)) | apply Within.ite | split) | refine Dev.resampleBlock_of (by exact rfl) ?_ (by assumption) | extract_lets | exact rfl

theorem Dev.inputBlock_of {M : Nat} {d₀ d e : Dev} {t : Nat} {i : Nat} {a₀ : Bytes} (hM : Sub 4096 M) (h : Within M d₀ d)
    (hx : d.inputBlock t i = (a₀, e)) : Within M d₀ e := by
  have g := Dev.inputBlock_snd hM h t i
  rwa [hx] at g

theorem Dev.recordBlocks_snd {M : Nat} {d₀ d : Dev} (hM : Sub 4096 M) (h : Within M d₀ d) (t : Nat) (l : List Nat) :
    Within M d₀ (d.recordBlocks t l).2 := by
  induction l generalizing d with
  | nil => exact h
  | cons i l ih => exact ih (Dev.inputBlock_snd hM h _ _)

theorem Dev.recordBlocks_of {M : Nat} {d₀ d e : Dev} {t : Nat} {l : List Nat} {a : Bytes} (hM : Sub 4096 M) (h : Within M d₀ d)
    (k : d.recordBlocks t l = (a, e)) : Within M d₀ e := by
  have g := Dev.recordBlocks_snd hM h t l
  rwa [k] at g

theorem execResampleTickRecord_within {s t : State} (h : execResampleTickRecord s = .next t) :
    Within 4096 s.dev t.dev := by
  unfold execResampleTickRecord at h
  refine onDev_within h fun d => ?_
  repeat' first | (with_reducible first | assumption | exact .refl _ | apply Dev.dropSamples_within | apply Dev.emitItem_within | apply Dev.onFus_within | apply Dev.recordBlocks_snd | apply Within.ite | split) | refine Dev.recordBlocks_of (by exact rfl) ?_ (by assumption) | extract_lets | exact rfl

theorem Dev.storePoint_within {M : Nat} {d₀ d : Dev} (hM : Sub 4096 M) (hW : Within M d₀ d) (g : Nat) (p : Point) :
    Within M d₀ (d.storePoint g p) := by
  refine hW.step ?_ hM
  clear hW hM
  unfold Dev.storePoint
  repeat' first | (with_reducible first | assumption | exact .refl _ | apply Dev.bump_within | apply Dev.onGrid_within | (apply Within.when ?_ (fun d => ?_)) | apply Within.ite | split) | extract_lets | exact rfl

theorem execGridPointItem_within {s t : State} (h : execGridPointItem s = .next t) :
    Within 4096 s.dev t.dev := by
  unfold execGridPointItem at h
  refine onDev_within h fun d => ?_
  repeat' first | (with_reducible first | assumption | exact .refl _ | apply Dev.consume_within | apply Dev.event_within | apply Dev.storePoint_within | (apply Within.each ?_ (fun d x => ?_)) | (apply Within.when ?_ (fun d => ?_)) | apply Within.ite | split) | extract_lets | exact rfl

theorem execPointWaitExpiry_within {grid : Fin 4} {s t : State} (h : execPointWaitExpiry grid s = .next t) :
    Within 4096 s.dev t.dev := by
  unfold execPointWaitExpiry at h
  refine onDev_within h fun d => ?_
  repeat' first | (with_reducible first | assumption | exact .refl _ | apply Dev.onGrid_within | apply Within.ite) | extract_lets | exact rfl

theorem execGridBuildDone_within {grid : Fin 4} {s t : State} (h : execGridBuildDone grid s = .next t) :
    Within 12289 s.dev t.dev := by
  unfold execGridBuildDone at h
  refine onDev_within h fun d => ?_
  repeat' first | (with_reducible first | assumption | exact .refl _ | apply Dev.bumpBy_within | apply Dev.enqueue_within | apply Dev.event_within | apply Dev.judgeLate_snd | apply Dev.memWrite_within | apply Dev.nextSeq_within | apply Dev.onGrid_within | apply Dev.setN_within | apply Dev.toStage_within | (apply Within.when ?_ (fun d => ?_)) | apply Within.ite | split) | refine Dev.judgeLate_of (by exact rfl) ?_ (by assumption) | extract_lets | with_reducible apply Within.safe_set | with_reducible apply Within.ten_set | exact rfl | (constructor <;> first | (intro _; rfl) | exact id | exact fun _ => ⟨rfl, rfl⟩ | (intro h; exact absurd h (by decide)))

theorem Dev.clearGrid_within {M : Nat} {d₀ d : Dev} (hM : Sub 4096 M) (hW : Within M d₀ d) (g : Nat) (t : Nat) (cleared : Bool) :
    Within M d₀ (d.clearGrid g t cleared) := by
  refine hW.step ?_ hM
  clear hW hM
  unfold Dev.clearGrid
  repeat' first | (with_reducible first | assumption | exact .refl _ | apply Dev.onGrid_within) | exact rfl

theorem Dev.gridWritten_within {M : Nat} {d₀ d : Dev} (hM : Sub 4096 M) (hW : Within M d₀ d) (d0 : Dev) (g : Nat) (sub : Nat) (t : Nat) :
    Within M d₀ (d0.gridWritten d g sub t) := by
  refine hW.step ?_ hM
  clear hW hM
  unfold Dev.gridWritten
  repeat' first | (with_reducible first | assumption | exact .refl _ | apply Dev.clearGrid_within | apply Dev.onGrid_within | (apply Within.when ?_ (fun d => ?_)) | apply Within.ite) | extract_lets | exact rfl

theorem Dev.mountChanged_within {M : Nat} {d₀ d : Dev} (hM : Sub 4096 M) (h : Within M d₀ d) (d0 : Dev) (s t : Nat) :
    Within M d₀ (d0.mountChanged d s t) := Dev.onFus_within hM h _

theorem Dev.resamplerWritten_within {M : Nat} {d₀ d : Dev} (hM : Sub 4096 M) (hW : Within M d₀ d) :
    Within M d₀ (d.resamplerWritten) := by
  refine hW.step ?_ hM
  clear hW hM
  unfold Dev.resamplerWritten
  repeat' first | (with_reducible first | assumption | exact .refl _ | apply Dev.onFus_within | apply Within.ite) | exact rfl

theorem Dev.poseQueueWritten_within {M : Nat} {d₀ d : Dev} (hM : Sub 4096 M) (hW : Within M d₀ d) :
    Within M d₀ (d.poseQueueWritten) := by
  refine hW.step ?_ hM
  clear hW hM
  unfold Dev.poseQueueWritten
  repeat' first | (with_reducible first | assumption | exact .refl _ | apply Dev.onFus_within | apply Dev.set_within) | exact rfl

end Sys2Proof.Machine
end

