-- ==== Sys2Proof/Laws/IslandsFrame.lean ====
section
/-! SUPPORT. What the operations of Machine/Islands.lean leave alone. -/
namespace Sys2Proof.Machine

theorem Dev.closeIsland_within {M : Nat} {d₀ d : Dev} (hM : Sub 0 M) (hW : Within M d₀ d) (i : Nat) (cause : Nat) :
    Within M d₀ (d.closeIsland i cause) := by
  refine hW.step ?_ hM
  clear hW hM
  unfold Dev.closeIsland
  repeat' first | (with_reducible first | assumption | exact .refl _ | apply Dev.event_within | apply Dev.set_within) | extract_lets | with_reducible apply Within.islAt_set | with_reducible apply Within.islCause_set | exact rfl | (constructor <;> first | (intro _; rfl) | exact id | exact fun _ => ⟨rfl, rfl⟩ | (intro h; exact absurd h (by decide)))

theorem Dev.emptyIsland_within {M : Nat} {d₀ d : Dev} (hM : Sub 0 M) (hW : Within M d₀ d) (i : Nat) :
    Within M d₀ (d.emptyIsland i) := by
  refine hW.step ?_ hM
  clear hW hM
  unfold Dev.emptyIsland
  repeat' first | (with_reducible first | assumption | exact .refl _ | apply Dev.bump_within | apply Dev.set_within | apply Dev.setN_within | (apply Within.when ?_ (fun d => ?_)) | apply Within.ite) | extract_lets | exact rfl

theorem Dev.noteReturn_within {M : Nat} {d₀ d : Dev} (hM : Sub 1048576 M) (hW : Within M d₀ d) (i : Nat) :
    Within M d₀ (d.noteReturn i) := by
  refine hW.step ?_ hM
  clear hW hM
  unfold Dev.noteReturn
  repeat' first | (with_reducible first | assumption | exact .refl _ | apply Within.ite | split) | extract_lets | with_reducible apply Within.islAt_set | with_reducible apply Within.pours_set | exact rfl | (constructor <;> first | (intro _; rfl) | exact id | exact fun _ => ⟨rfl, rfl⟩ | (intro h; exact absurd h (by decide)))

theorem Dev.returnIsland_within {M : Nat} {d₀ d : Dev} (hM : Sub 1048576 M) (hW : Within M d₀ d) (i : Nat) :
    Within M d₀ (d.returnIsland i) := by
  refine hW.step ?_ hM
  clear hW hM
  unfold Dev.returnIsland
  repeat' first | (with_reducible first | assumption | exact .refl _ | apply Dev.event_within | apply Dev.noteReturn_within | apply Dev.set_within | apply Dev.setN_within) | extract_lets | with_reducible apply Within.islCause_set | exact rfl

end Sys2Proof.Machine
end

