-- ==== Sys2Proof/Laws/PowerCoreFrame.lean ====
section
/-! SUPPORT. What the operations of Machine/PowerCore.lean leave alone. -/
namespace Sys2Proof.Machine

theorem Dev.onPow_within {M : Nat} {d₀ d : Dev} (hM : Sub 16777216 M) (hW : Within M d₀ d) (f : PowRt → PowRt) :
    Within M d₀ (d.onPow f) := by
  refine hW.step ?_ hM
  clear hW hM
  unfold Dev.onPow
  repeat' first | (with_reducible first | assumption | exact .refl _) | with_reducible apply Within.pow_set | exact rfl

theorem Dev.closeResidency_within {M : Nat} {d₀ d : Dev} (hM : Sub 16777216 M) (hW : Within M d₀ d) :
    Within M d₀ (d.closeResidency) := by
  refine hW.step ?_ hM
  clear hW hM
  unfold Dev.closeResidency
  repeat' first | (with_reducible first | assumption | exact .refl _ | apply Dev.onPow_within) | extract_lets | exact rfl

theorem Dev.beginExit_within {M : Nat} {d₀ d : Dev} (hM : Sub 16777216 M) (hW : Within M d₀ d) :
    Within M d₀ (d.beginExit) := by
  refine hW.step ?_ hM
  clear hW hM
  unfold Dev.beginExit
  repeat' first | (with_reducible first | assumption | exact .refl _ | apply Dev.closeResidency_within | apply Dev.onPow_within | apply Within.ite) | exact rfl

theorem Dev.powerCheck_within {M : Nat} {d₀ d : Dev} (hM : Sub 16777216 M) (hW : Within M d₀ d) :
    Within M d₀ (d.powerCheck) := by
  refine hW.step ?_ hM
  clear hW hM
  unfold Dev.powerCheck
  repeat' first | (with_reducible first | assumption | exact .refl _ | apply Dev.beginExit_within | apply Within.ite) | exact rfl

end Sys2Proof.Machine
end

