-- ==== Sys2Proof/Laws/TensorFrame.lean ====
section
/-! SUPPORT. What the operations of Machine/Tensor.lean leave alone. -/
namespace Sys2Proof.Machine

theorem Dev.onTen_within {M : Nat} {d₀ d : Dev} (hM : Sub 8192 M) (hW : Within M d₀ d) (f : Ten → Ten) :
    Within M d₀ (d.onTen f) := by
  refine hW.step ?_ hM
  clear hW hM
  unfold Dev.onTen
  repeat' first | (with_reducible first | assumption | exact .refl _) | with_reducible apply Within.ten_set | exact rfl

theorem Dev.onModel_within {M : Nat} {d₀ d : Dev} (hM : Sub 8192 M) (hW : Within M d₀ d) (m : Nat) (f : ModelRt → ModelRt) :
    Within M d₀ (d.onModel m f) := by
  refine hW.step ?_ hM
  clear hW hM
  unfold Dev.onModel
  repeat' first | (with_reducible first | assumption | exact .refl _ | apply Dev.onTen_within | apply Within.ite) | extract_lets | exact rfl

theorem Dev.setPlaced_within {M : Nat} {d₀ d : Dev} (hM : Sub 0 M) (hW : Within M d₀ d) (m : Nat) (die : Nat) (v : Nat) :
    Within M d₀ (d.setPlaced m die v) := by
  refine hW.step ?_ hM
  clear hW hM
  unfold Dev.setPlaced
  repeat' first | (with_reducible first | assumption | exact .refl _ | apply Dev.setN_within) | extract_lets | exact rfl

theorem Dev.placeOn_within {M : Nat} {d₀ d : Dev} (hM : Sub 0 M) (hW : Within M d₀ d) (m : Nat) (die : Nat) :
    Within M d₀ (d.placeOn m die) := by
  refine hW.step ?_ hM
  clear hW hM
  unfold Dev.placeOn
  repeat' first | (with_reducible first | assumption | exact .refl _ | apply Dev.setN_within | apply Dev.setPlaced_within | apply Within.ite) | extract_lets | exact rfl

theorem Dev.refillDeck_within {M : Nat} {d₀ d : Dev} (hM : Sub 8192 M) (hW : Within M d₀ d) (die : Nat) :
    Within M d₀ (d.refillDeck die) := by
  refine hW.step ?_ hM
  clear hW hM
  unfold Dev.refillDeck
  repeat' first | (with_reducible first | assumption | exact .refl _ | apply Dev.onModel_within | apply Dev.setN_within | (apply Within.each ?_ (fun d x => ?_)) | apply Within.ite) | extract_lets | exact rfl

theorem Dev.freeModel_within {M : Nat} {d₀ d : Dev} (hM : Sub 8192 M) (hW : Within M d₀ d) (m : Nat) :
    Within M d₀ (d.freeModel m) := by
  refine hW.step ?_ hM
  clear hW hM
  unfold Dev.freeModel
  repeat' first | (with_reducible first | assumption | exact .refl _ | apply Dev.onModel_within | apply Dev.refillDeck_within | apply Dev.set_within | apply Dev.setN_within | (apply Within.each ?_ (fun d x => ?_))) | extract_lets | exact rfl

theorem Dev.countResident_within {M : Nat} {d₀ d : Dev} (hM : Sub 0 M) (hW : Within M d₀ d) :
    Within M d₀ (d.countResident) := by
  refine hW.step ?_ hM
  clear hW hM
  unfold Dev.countResident
  repeat' first | (with_reducible first | assumption | exact .refl _ | apply Dev.setN_within) | exact rfl

theorem Dev.canaryDue_within {M : Nat} {d₀ d : Dev} (hM : Sub 8192 M) (hW : Within M d₀ d) (m : Nat) :
    Within M d₀ (d.canaryDue m) := by
  refine hW.step ?_ hM
  clear hW hM
  unfold Dev.canaryDue
  repeat' first | (with_reducible first | assumption | exact .refl _ | apply Dev.onModel_within) | exact rfl

theorem Dev.emitRecord_within {M : Nat} {d₀ d : Dev} (hM : Sub 8192 M) (hW : Within M d₀ d) (m : Nat) (island : Nat) (subject : Nat) (completion : Nat) (flags : Nat) (late : Bool) (head : Bytes) (outs : List Bytes) :
    Within M d₀ (d.emitRecord m island subject completion flags late head outs) := by
  refine hW.step ?_ hM
  clear hW hM
  unfold Dev.emitRecord
  repeat' first | (with_reducible first | assumption | exact .refl _ | apply Dev.canaryDue_within | apply Dev.emitItem_within | apply Dev.onModel_within | (apply Within.when ?_ (fun d => ?_)) | apply Within.ite) | extract_lets | with_reducible apply Within.safe_set | exact rfl

theorem Dev.inferSeq_snd {M : Nat} {d₀ d : Dev} (hM : Sub 8192 M) (h : Within M d₀ d) (m : Nat) :
    Within M d₀ (d.inferSeq m).2 := by
  refine h.step ?_ hM
  clear h hM
  unfold Dev.inferSeq
  try dsimp only
  repeat' split
  repeat' first | (with_reducible first | assumption | exact .refl _ | apply Dev.onModel_within) | exact rfl

theorem Dev.inferSeq_of {M : Nat} {d₀ d e : Dev} {m : Nat} {a₀ : Nat} (hM : Sub 8192 M) (h : Within M d₀ d)
    (hx : d.inferSeq m = (a₀, e)) : Within M d₀ e := by
  have g := Dev.inferSeq_snd hM h m
  rwa [hx] at g

theorem Dev.skipAs_within {M : Nat} {d₀ d : Dev} (hM : Sub 8192 M) (hW : Within M d₀ d) (m : Nat) (seq : Nat) (it : Item) (flags : Nat) :
    Within M d₀ (d.skipAs m seq it flags) := by
  refine hW.step ?_ hM
  clear hW hM
  unfold Dev.skipAs
  repeat' first | (with_reducible first | assumption | exact .refl _ | apply Dev.bump_within | apply Dev.emitRecord_within | apply Dev.event_within | apply Dev.genDec_within) | extract_lets | exact rfl

theorem Dev.skipInference_within {M : Nat} {d₀ d : Dev} (hM : Sub 8192 M) (hW : Within M d₀ d) (m : Nat) (it : Item) (flags : Nat) :
    Within M d₀ (d.skipInference m it flags) := by
  refine hW.step ?_ hM
  clear hW hM
  unfold Dev.skipInference
  repeat' first | (with_reducible first | assumption | exact .refl _ | apply Dev.inferSeq_snd | apply Dev.skipAs_within) | refine Dev.inferSeq_of (by exact rfl) ?_ (by assumption) | extract_lets | exact rfl

theorem Dev.dropAgain_within {M : Nat} {d₀ d : Dev} (hM : Sub 8192 M) (hW : Within M d₀ d) (m : Nat) :
    Within M d₀ (d.dropAgain m) := by
  refine hW.step ?_ hM
  clear hW hM
  unfold Dev.dropAgain
  repeat' first | (with_reducible first | assumption | exact .refl _ | apply Dev.onTen_within | apply Dev.skipAs_within | (apply Within.each ?_ (fun d x => ?_))) | extract_lets | exact rfl

theorem Dev.noEngine_within {M : Nat} {d₀ d : Dev} (hM : Sub 8192 M) (hW : Within M d₀ d) (m : Nat) :
    Within M d₀ (d.noEngine m) := by
  refine hW.step ?_ hM
  clear hW hM
  unfold Dev.noEngine
  repeat' first | (with_reducible first | assumption | exact .refl _ | apply Dev.dropAgain_within | apply Dev.event_within | apply Dev.onModel_within | apply Dev.skipInference_within | (apply Within.each ?_ (fun d x => ?_)) | (apply Within.when ?_ (fun d => ?_))) | extract_lets | exact rfl

theorem Dev.checkEngine_within {M : Nat} {d₀ d : Dev} (hM : Sub 8192 M) (hW : Within M d₀ d) (m : Nat) :
    Within M d₀ (d.checkEngine m) := by
  refine hW.step ?_ hM
  clear hW hM
  unfold Dev.checkEngine
  repeat' first | (with_reducible first | assumption | exact .refl _ | apply Dev.noEngine_within | apply Dev.onModel_within | apply Within.ite) | exact rfl

theorem Dev.startLoad_within {M : Nat} {d₀ d : Dev} (hM : Sub 8192 M) (hW : Within M d₀ d) (m : Nat) (part : Nat) :
    Within M d₀ (d.startLoad m part) := by
  refine hW.step ?_ hM
  clear hW hM
  unfold Dev.startLoad
  repeat' first | (with_reducible first | assumption | exact .refl _ | apply Dev.countResident_within | apply Dev.dropAgain_within | apply Dev.freeModel_within | apply Dev.onModel_within | apply Dev.onTen_within | apply Dev.set_within | (apply Within.when ?_ (fun d => ?_))) | extract_lets | exact rfl

theorem execModelLoad_within {hd : Hdr} {cond : Option Nat} {m : Fin 32} {s t : State} (h : execModelLoad hd cond m s = .next t) :
    Within 39854592 s.dev t.dev := by
  unfold execModelLoad at h
  refine onDev_within h fun d => ?_
  repeat' first | (with_reducible first | assumption | exact .refl _ | apply Dev.startLoad_within | refine Dev.writeReq_within ?_ ?_ (fun se n d => ?_)) | exact rfl

theorem Dev.loadFailed_within {M : Nat} {d₀ d : Dev} (hM : Sub 0 M) (hW : Within M d₀ d) (m : Nat) (code : Nat) :
    Within M d₀ (d.loadFailed m code) := by
  refine hW.step ?_ hM
  clear hW hM
  unfold Dev.loadFailed
  repeat' first | (with_reducible first | assumption | exact .refl _ | apply Dev.event_within | apply Dev.set_within | apply Dev.setN_within) | exact rfl

theorem Dev.becomeResident_within {M : Nat} {d₀ d : Dev} (hM : Sub 8192 M) (hW : Within M d₀ d) (m : Nat) (p : Bytes) :
    Within M d₀ (d.becomeResident m p) := by
  refine hW.step ?_ hM
  clear hW hM
  unfold Dev.becomeResident
  repeat' first | (with_reducible first | assumption | exact .refl _ | apply Dev.canaryDue_within | apply Dev.checkEngine_within | apply Dev.countResident_within | apply Dev.event_within | apply Dev.onModel_within | apply Dev.placeOn_within | apply Dev.set_within | apply Dev.setN_within | (apply Within.each ?_ (fun d x => ?_)) | (apply Within.when ?_ (fun d => ?_))) | extract_lets | exact rfl

theorem Dev.feedChanged_within {M : Nat} {d₀ d : Dev} (hM : Sub 8192 M) (hW : Within M d₀ d) (m : Nat) (from_ : Option (List Item)) :
    Within M d₀ (d.feedChanged m from_) := by
  refine hW.step ?_ hM
  clear hW hM
  unfold Dev.feedChanged
  repeat' first | (with_reducible first | assumption | exact .refl _ | apply Dev.checkEngine_within | apply Dev.event_within | apply Dev.genDec_within | apply Dev.genInc_within | apply Dev.onModel_within | (apply Within.each ?_ (fun d x => ?_)) | (apply Within.when ?_ (fun d => ?_)) | apply Within.ite | split) | extract_lets | exact rfl

theorem Dev.applyEnable_within {M : Nat} {d₀ d : Dev} (hM : Sub 8192 M) (hW : Within M d₀ d) (m : Nat) :
    Within M d₀ (d.applyEnable m) := by
  refine hW.step ?_ hM
  clear hW hM
  unfold Dev.applyEnable
  repeat' first | (with_reducible first | assumption | exact .refl _ | apply Dev.feedChanged_within | apply Dev.onModel_within | apply Dev.set_within | apply Within.ite) | extract_lets | exact rfl

theorem Dev.loadEnds_within {M : Nat} {d₀ d : Dev} (hM : Sub 8192 M) (hW : Within M d₀ d) (m : Nat) (readOk : Bool) :
    Within M d₀ (d.loadEnds m readOk) := by
  refine hW.step ?_ hM
  clear hW hM
  unfold Dev.loadEnds
  repeat' first | (with_reducible first | assumption | exact .refl _ | apply Dev.becomeResident_within | apply Dev.loadFailed_within | apply Within.ite | split) | extract_lets | exact rfl

theorem execModelLoadDone_within {m : Fin 32} {readOk : Bool} {s t : State} (h : execModelLoadDone m readOk s = .next t) :
    Within 8192 s.dev t.dev := by
  unfold execModelLoadDone at h
  refine onDev_within h fun d => ?_
  repeat' first | (with_reducible first | assumption | exact .refl _ | apply Dev.applyEnable_within | apply Dev.loadEnds_within | apply Dev.onTen_within | apply Within.ite) | extract_lets | exact rfl

theorem execDeckCopyDone_within {m : Fin 32} {die : Fin 4} {s t : State} (h : execDeckCopyDone m die s = .next t) :
    Within 8192 s.dev t.dev := by
  unfold execDeckCopyDone at h
  refine onDev_within h fun d => ?_
  repeat' first | (with_reducible first | assumption | exact .refl _ | apply Dev.onModel_within | apply Dev.setPlaced_within | apply Within.ite) | exact rfl

theorem execModelUnload_within {hd : Hdr} {cond : Option Nat} {m : Fin 32} {s t : State} (h : execModelUnload hd cond m s = .next t) :
    Within 39854592 s.dev t.dev := by
  unfold execModelUnload at h
  refine onDev_within h fun d => ?_
  repeat' first | (with_reducible first | assumption | exact .refl _ | apply Dev.onModel_within | refine Dev.writeReq_within ?_ ?_ (fun se n d => ?_)) | exact rfl

theorem execModelUnloadDone_within {m : Fin 32} {s t : State} (h : execModelUnloadDone m s = .next t) :
    Within 8192 s.dev t.dev := by
  unfold execModelUnloadDone at h
  refine onDev_within h fun d => ?_
  repeat' first | (with_reducible first | assumption | exact .refl _ | apply Dev.countResident_within | apply Dev.dropAgain_within | apply Dev.freeModel_within | apply Dev.onModel_within | apply Dev.onTen_within | apply Dev.set_within | apply Within.ite) | extract_lets | exact rfl

theorem Dev.trimReady_within {M : Nat} {d₀ d : Dev} (hM : Sub 8192 M) (hW : Within M d₀ d) (m : Nat) :
    Within M d₀ (d.trimReady m) := by
  refine hW.step ?_ hM
  clear hW hM
  unfold Dev.trimReady
  repeat' first | (with_reducible first | assumption | exact .refl _ | apply Dev.bump_within | apply Dev.drop_within | apply Dev.genDec_within | apply Dev.onModel_within | (apply Within.each ?_ (fun d x => ?_))) | extract_lets | exact rfl

theorem Dev.keepRecent_within {M : Nat} {d₀ d : Dev} (hM : Sub 8192 M) (hW : Within M d₀ d) (src : Nat) (it : Item) :
    Within M d₀ (d.keepRecent src it) := by
  refine hW.step ?_ hM
  clear hW hM
  unfold Dev.keepRecent
  repeat' first | (with_reducible first | assumption | exact .refl _ | apply Dev.onTen_within | split) | extract_lets | exact rfl

theorem Dev.trigger_within {M : Nat} {d₀ d : Dev} (hM : Sub 8192 M) (hW : Within M d₀ d) (src : Nat) (it : Item) :
    Within M d₀ (d.trigger src it) := by
  refine hW.step ?_ hM
  clear hW hM
  unfold Dev.trigger
  repeat' first | (with_reducible first | assumption | exact .refl _ | apply Dev.checkEngine_within | apply Dev.genInc_within | apply Dev.keepRecent_within | apply Dev.onModel_within | apply Dev.trimReady_within | (apply Within.each ?_ (fun d x => ?_)) | (apply Within.when ?_ (fun d => ?_))) | extract_lets | exact rfl

theorem Dev.feedItem_within {M : Nat} {d₀ d : Dev} (hM : Sub 12288 M) (hW : Within M d₀ d) (src : Nat) :
    Within M d₀ (d.feedItem src) := by
  refine hW.step ?_ hM
  clear hW hM
  unfold Dev.feedItem
  repeat' first | (with_reducible first | assumption | exact .refl _ | apply Dev.genDec_within | apply Dev.releaseFrames_within | apply Dev.setStage_within | apply Dev.trigger_within | (apply Within.when ?_ (fun d => ?_)) | apply Within.ite | split) | refine Dev.readQueue_of rfl ?_ (by assumption) | extract_lets | exact rfl

theorem Dev.readItem_snd {M : Nat} {d₀ d : Dev} (hM : Sub 0 M) (h : Within M d₀ d) (it : Item) :
    Within M d₀ (d.readItem it).2 := by
  refine h.step ?_ hM
  clear h hM
  unfold Dev.readItem
  try dsimp only
  repeat' split
  repeat' first | (with_reducible first | assumption | exact .refl _ | apply Dev.handover_within | apply Within.ite) | extract_lets | exact rfl

theorem Dev.readItem_of {M : Nat} {d₀ d e : Dev} {it : Item} {a₀ : Item} (hM : Sub 0 M) (h : Within M d₀ d)
    (hx : d.readItem it = (a₀, e)) : Within M d₀ e := by
  have g := Dev.readItem_snd hM h it
  rwa [hx] at g

theorem Dev.readInputs_snd {M : Nat} {d₀ d : Dev} (hM : Sub 0 M) (h : Within M d₀ d) (l : List (Option Item)) :
    Within M d₀ (d.readInputs l).2 := by
  induction l generalizing d with
  | nil => exact h
  | cons x l ih =>
    cases x with
    | none => exact ih h
    | some it => exact ih (Dev.readItem_snd hM h _)

theorem Dev.readInputs_of {M : Nat} {d₀ d e : Dev} {l a : List (Option Item)} (hM : Sub 0 M) (h : Within M d₀ d)
    (k : d.readInputs l = (a, e)) : Within M d₀ e := by
  have g := Dev.readInputs_snd hM h l
  rwa [k] at g

theorem Dev.gather_snd {M : Nat} {d₀ d : Dev} (hM : Sub 0 M) (h : Within M d₀ d) (m : Nat) (it : Item) :
    Within M d₀ (d.gather m it).2.2 := by
  refine h.step ?_ hM
  clear h hM
  unfold Dev.gather
  try dsimp only
  repeat' split
  repeat' first | (with_reducible first | assumption | exact .refl _ | apply Dev.readInputs_snd | apply Within.ite | split) | refine Dev.readInputs_of (by exact rfl) ?_ (by assumption) | extract_lets | exact rfl

theorem Dev.gather_of {M : Nat} {d₀ d e : Dev} {m : Nat} {it : Item} {a₀ : List (Option Item)} {b₀ : Nat} (hM : Sub 0 M) (h : Within M d₀ d)
    (hx : d.gather m it = (a₀, b₀, e)) : Within M d₀ e := by
  have g := Dev.gather_snd hM h m it
  rwa [hx] at g

theorem Dev.takeReady_within {M : Nat} {d₀ d : Dev} (hM : Sub 8192 M) (hW : Within M d₀ d) (r : Ready) :
    Within M d₀ (d.takeReady r) := by
  refine hW.step ?_ hM
  clear hW hM
  unfold Dev.takeReady
  repeat' first | (with_reducible first | assumption | exact .refl _ | apply Dev.onModel_within | apply Dev.onTen_within | split) | exact rfl

theorem Dev.dispatch_within {M : Nat} {d₀ d : Dev} (hM : Sub 8192 M) (hW : Within M d₀ d) (e : Nat) :
    Within M d₀ (d.dispatch e) := by
  refine hW.step ?_ hM
  clear hW hM
  unfold Dev.dispatch
  repeat' first | (with_reducible first | assumption | exact .refl _ | apply Dev.gather_snd | apply Dev.inferSeq_snd | apply Dev.onModel_within | apply Dev.onTen_within | apply Dev.skipAs_within | apply Dev.takeReady_within | apply Within.ite | split) | refine Dev.gather_of (by exact rfl) ?_ (by assumption) | refine Dev.inferSeq_of (by exact rfl) ?_ (by assumption) | extract_lets | exact rfl

theorem Dev.endRun_within {M : Nat} {d₀ d : Dev} (hM : Sub 8192 M) (hW : Within M d₀ d) (i : Infer) :
    Within M d₀ (d.endRun i) := by
  refine hW.step ?_ hM
  clear hW hM
  unfold Dev.endRun
  repeat' first | (with_reducible first | assumption | exact .refl _ | apply Dev.bump_within | apply Dev.onTen_within | (apply Within.each ?_ (fun d x => ?_))) | extract_lets | exact rfl

theorem execInferenceComplete_within {e : Fin 8} {fault : Option (List Bytes)} {s t : State} (h : execInferenceComplete e fault s = .next t) :
    Within 8192 s.dev t.dev := by
  unfold execInferenceComplete at h
  refine onDev_within h fun d => ?_
  repeat' first | (with_reducible first | assumption | exact .refl _ | apply Dev.bump_within | apply Dev.emitRecord_within | apply Dev.endRun_within | apply Dev.event_within | apply Dev.genDec_within | apply Dev.onModel_within | apply Dev.setN_within | (apply Within.when ?_ (fun d => ?_)) | split) | extract_lets | exact rfl

theorem Dev.abandonDie_within {M : Nat} {d₀ d : Dev} (hM : Sub 8192 M) (hW : Within M d₀ d) (die : Nat) :
    Within M d₀ (d.abandonDie die) := by
  refine hW.step ?_ hM
  clear hW hM
  unfold Dev.abandonDie
  repeat' first | (with_reducible first | assumption | exact .refl _ | apply Dev.checkEngine_within | apply Dev.dropAgain_within | apply Dev.onModel_within | apply Dev.onTen_within | (apply Within.each ?_ (fun d x => ?_)) | (apply Within.when ?_ (fun d => ?_)) | apply Within.ite) | extract_lets | exact rfl

end Sys2Proof.Machine
end

