-- ==== Sys2Proof/Laws/SafetyFrame.lean ====
section
/-! SUPPORT. What the operations of Machine/Safety.lean leave alone. -/
namespace Sys2Proof.Machine

theorem Dev.onChan_within {M : Nat} {d₀ d : Dev} (hM : Sub 0 M) (hW : Within M d₀ d) (k : Nat) (f : Chan → Chan) :
    Within M d₀ (d.onChan k f) := by
  refine hW.step ?_ hM
  clear hW hM
  unfold Dev.onChan
  repeat' first | (with_reducible first | assumption | exact .refl _ | apply Dev.onSafe_within | apply Within.ite) | extract_lets | exact rfl

theorem Dev.chanTo_within {M : Nat} {d₀ d : Dev} (hM : Sub 0 M) (hW : Within M d₀ d) (k : Nat) (st : Nat) :
    Within M d₀ (d.chanTo k st) := by
  refine hW.step ?_ hM
  clear hW hM
  unfold Dev.chanTo
  repeat' first | (with_reducible first | assumption | exact .refl _ | apply Dev.bump_within | apply Dev.event_within | apply Dev.onChan_within | apply Dev.setN_within | apply Within.ite) | extract_lets | exact rfl

theorem Dev.refreshChannels_within {M : Nat} {d₀ d : Dev} (hM : Sub 16777216 M) (hW : Within M d₀ d) :
    Within M d₀ (d.refreshChannels) := by
  refine hW.step ?_ hM
  clear hW hM
  unfold Dev.refreshChannels
  repeat' first | (with_reducible first | assumption | exact .refl _ | apply Dev.chanTo_within | apply Dev.powerCheck_within | apply Dev.refreshSafe_within | (apply Within.each ?_ (fun d x => ?_)) | apply Within.ite) | exact rfl

theorem execCanaryRequest_within {m : Fin 32} {s t : State} (h : execCanaryRequest m s = .next t) :
    Within 8192 s.dev t.dev := by
  unfold execCanaryRequest at h
  refine onDev_within h fun d => ?_
  repeat' first | (with_reducible first | assumption | exact .refl _ | apply Dev.canaryDue_within | apply Dev.onModel_within | apply Within.ite) | extract_lets | exact rfl

theorem Dev.endCanary_within {M : Nat} {d₀ d : Dev} (hM : Sub 8192 M) (hW : Within M d₀ d) (m : Nat) (ok : Bool) :
    Within M d₀ (d.endCanary m ok) := by
  refine hW.step ?_ hM
  clear hW hM
  unfold Dev.endCanary
  repeat' first | (with_reducible first | assumption | exact .refl _ | apply Dev.event_within | apply Dev.onModel_within | apply Within.ite) | extract_lets | exact rfl

theorem execCanaryComplete_within {e : Fin 8} {fault : Option (List Bytes)} {s t : State} (h : execCanaryComplete e fault s = .next t) :
    Within 8192 s.dev t.dev := by
  unfold execCanaryComplete at h
  refine onDev_within h fun d => ?_
  repeat' first | (with_reducible first | assumption | exact .refl _ | apply Dev.bump_within | apply Dev.endCanary_within | apply Dev.endRun_within | (apply Within.when ?_ (fun d => ?_)) | apply Within.ite | split) | extract_lets | exact rfl

theorem execCanaryTimeout_within {m : Fin 32} {s t : State} (h : execCanaryTimeout m s = .next t) :
    Within 8192 s.dev t.dev := by
  unfold execCanaryTimeout at h
  refine onDev_within h fun d => ?_
  repeat' first | (with_reducible first | assumption | exact .refl _ | apply Dev.endCanary_within | apply Within.ite | split) | exact rfl

theorem execWeightScanBlock_within {m : Fin 32} {found : Found} {s t : State} (h : execWeightScanBlock m found s = .next t) :
    Within 8192 s.dev t.dev := by
  unfold execWeightScanBlock at h
  refine onDev_within h fun d => ?_
  repeat' first | (with_reducible first | assumption | exact .refl _ | apply Dev.event_within | apply Dev.handover_within | apply Dev.onModel_within | (apply Within.when ?_ (fun d => ?_)) | apply Within.ite | split) | extract_lets | exact rfl

theorem execWeightScanOverdue_within {m : Fin 32} {s t : State} (h : execWeightScanOverdue m s = .next t) :
    Within 8192 s.dev t.dev := by
  unfold execWeightScanOverdue at h
  refine onDev_within h fun d => ?_
  repeat' first | (with_reducible first | assumption | exact .refl _ | apply Dev.onModel_within | apply Within.ite) | exact rfl

theorem Dev.countFails_within {M : Nat} {d₀ d : Dev} (hM : Sub 0 M) (hW : Within M d₀ d) (k : Nat) (fails : Nat) :
    Within M d₀ (d.countFails k fails) := by
  refine hW.step ?_ hM
  clear hW hM
  unfold Dev.countFails
  repeat' first | (with_reducible first | assumption | exact .refl _ | apply Dev.bump_within | apply Dev.event_within | (apply Within.each ?_ (fun d x => ?_))) | exact rfl

theorem Dev.judge_within {M : Nat} {d₀ d : Dev} (hM : Sub 0 M) (hW : Within M d₀ d) (k : Nat) (c : Nat) (r : CupRec) :
    Within M d₀ (d.judge k c r) := by
  refine hW.step ?_ hM
  clear hW hM
  unfold Dev.judge
  repeat' first | (with_reducible first | assumption | exact .refl _ | apply Dev.countFails_within | apply Dev.onChan_within | apply Within.ite | split) | extract_lets | exact rfl

theorem Dev.takeDecision_within {M : Nat} {d₀ d : Dev} (hM : Sub 0 M) (hW : Within M d₀ d) (k : Nat) (dec : Nat) :
    Within M d₀ (d.takeDecision k dec) := by
  refine hW.step ?_ hM
  clear hW hM
  unfold Dev.takeDecision
  repeat' first | (with_reducible first | assumption | exact .refl _ | apply Dev.chanTo_within | apply Dev.onChan_within | apply Within.ite) | extract_lets | exact rfl

theorem Dev.decideChannel_within {M : Nat} {d₀ d : Dev} (hM : Sub 0 M) (hW : Within M d₀ d) (k : Nat) (c : Nat) (past : Bool) (pts : List (Int × Int × Int)) :
    Within M d₀ (d.decideChannel k c past pts) := by
  refine hW.step ?_ hM
  clear hW hM
  unfold Dev.decideChannel
  repeat' first | (with_reducible first | assumption | exact .refl _ | apply Dev.event_within | apply Dev.judge_within | apply Dev.onChan_within | apply Dev.setB_within | apply Dev.setN_within | apply Dev.takeDecision_within | (apply Within.each ?_ (fun d x => ?_)) | (apply Within.when ?_ (fun d => ?_)) | apply Within.ite | split) | extract_lets | exact rfl

theorem execFallbackEvaluate_within {s t : State} (h : execFallbackEvaluate s = .next t) :
    Within 16777216 s.dev t.dev := by
  unfold execFallbackEvaluate at h
  refine onDev_within h fun d => ?_
  repeat' first | (with_reducible first | assumption | exact .refl _ | apply Dev.bump_within | apply Dev.consume_within | apply Dev.decideChannel_within | apply Dev.onSafe_within | apply Dev.refreshChannels_within | apply Dev.refreshSafe_within | (apply Within.each ?_ (fun d x => ?_)) | (apply Within.when ?_ (fun d => ?_)) | apply Within.ite | split) | extract_lets | exact rfl

theorem Dev.lockstepFault_within {M : Nat} {d₀ d : Dev} (hM : Sub 16777216 M) (hW : Within M d₀ d) (kind : Nat) :
    Within M d₀ (d.lockstepFault kind) := by
  refine hW.step ?_ hM
  clear hW hM
  unfold Dev.lockstepFault
  repeat' first | (with_reducible first | assumption | exact .refl _ | apply Dev.bump_within | apply Dev.closeIsland_within | apply Dev.emptyIsland_within | apply Dev.event_within | apply Dev.refreshChannels_within | apply Dev.set_within) | extract_lets | exact rfl

theorem execLockstepMismatch_within {kind : Fin 2} {s t : State} (h : execLockstepMismatch kind s = .next t) :
    Within 16777216 s.dev t.dev := by
  unfold execLockstepMismatch at h
  refine onDev_within h fun d => ?_
  repeat' first | (with_reducible first | assumption | exact .refl _ | apply Dev.lockstepFault_within) | exact rfl

theorem execCupResetDone_within {detect1 : Bool} {detect2 : Bool} {s t : State} (h : execCupResetDone detect1 detect2 s = .next t) :
    Within 17825792 s.dev t.dev := by
  unfold execCupResetDone at h
  refine onDev_within h fun d => ?_
  repeat' first | (with_reducible first | assumption | exact .refl _ | apply Dev.event_within | apply Dev.onSafe_within | apply Dev.refreshChannels_within | apply Dev.returnIsland_within | apply Dev.set_within | (apply Within.when ?_ (fun d => ?_)) | apply Within.ite) | extract_lets | exact rfl

theorem Dev.bindModel_within {M : Nat} {d₀ d : Dev} (hM : Sub 8192 M) (hW : Within M d₀ d) (m : Nat) :
    Within M d₀ (d.bindModel m) := by
  refine hW.step ?_ hM
  clear hW hM
  unfold Dev.bindModel
  repeat' first | (with_reducible first | assumption | exact .refl _ | apply Dev.onModel_within | apply Within.ite) | exact rfl

theorem Dev.channelEnabled_within {M : Nat} {d₀ d : Dev} (hM : Sub 8192 M) (hW : Within M d₀ d) (k : Nat) (on : Bool) :
    Within M d₀ (d.channelEnabled k on) := by
  refine hW.step ?_ hM
  clear hW hM
  unfold Dev.channelEnabled
  repeat' first | (with_reducible first | assumption | exact .refl _ | apply Dev.bindModel_within | apply Dev.chanTo_within | apply Dev.onChan_within | apply Dev.set_within | apply Within.ite) | extract_lets | exact rfl

theorem execChannelEnable_within {hd : Hdr} {cond : Option Nat} {k : Fin 8} {v : Bytes} {s t : State} (h : execChannelEnable hd cond k v s = .next t) :
    Within 56631808 s.dev t.dev := by
  unfold execChannelEnable at h
  refine onDev_within h fun d => ?_
  repeat' first | (with_reducible first | assumption | exact .refl _ | apply Dev.channelEnabled_within | apply Dev.refreshChannels_within | refine Dev.writeStore_within ?_ ?_ (fun se n d => ?_)) | exact rfl

theorem execChannelRestart_within {hd : Hdr} {cond : Option Nat} {k : Fin 8} {s t : State} (h : execChannelRestart hd cond k s = .next t) :
    Within 39846400 s.dev t.dev := by
  unfold execChannelRestart at h
  refine onDev_within h fun d => ?_
  repeat' first | (with_reducible first | assumption | exact .refl _ | apply Dev.chanTo_within | apply Dev.refreshSafe_within | refine Dev.writeReq_within ?_ ?_ (fun se n d => ?_) | apply Within.ite) | exact rfl

theorem execPolicyWrite_within {hd : Hdr} {cond : Option Nat} {k : Fin 8} {v : Bytes} {s t : State} (h : execPolicyWrite hd cond k v s = .next t) :
    Within 39846400 s.dev t.dev := by
  unfold execPolicyWrite at h
  refine onDev_within h fun d => ?_
  repeat' first | (with_reducible first | assumption | exact .refl _ | refine Dev.writeStore_within ?_ ?_ (fun se n d => ?_)) | exact rfl

theorem Dev.refreshFieldSet_within {M : Nat} {d₀ d : Dev} (hM : Sub 0 M) (hW : Within M d₀ d) (n : Nat) :
    Within M d₀ (d.refreshFieldSet n) := by
  refine hW.step ?_ hM
  clear hW hM
  unfold Dev.refreshFieldSet
  repeat' first | (with_reducible first | assumption | exact .refl _ | apply Dev.setB_within | apply Dev.setN_within) | extract_lets | exact rfl

theorem fieldSetObj_keeps {M : Nat} (hM : Sub 27262976 M) (n : Nat) : (fieldSetObj n).Keeps M := by
  constructor
  · intro se b d
    refine Within.mono (M := 27262976) ?_ hM
    unfold fieldSetObj
    repeat' first | (with_reducible first | assumption | exact .refl _ | apply Dev.countCommit_within | apply Dev.refreshChannels_within | apply Dev.refreshFieldSet_within | apply Dev.setBlob_within) | extract_lets | dsimp only | exact rfl
  · intro se r d
    exact .refl _

theorem execFieldSetWrite_within {hd : Hdr} {payload : Bytes} {s t : State} (h : execFieldSetWrite hd payload s = .next t) :
    Within 65012224 s.dev t.dev := by
  unfold execFieldSetWrite at h
  refine onDev_within h fun d => ?_
  repeat' first | (with_reducible first | assumption | exact .refl _ | apply Dev.blockFrame_within) | exact fun _ => fieldSetObj_keeps (by exact rfl) _ | exact rfl

theorem execSafeTestPulse_within {out : Fin 2} {begin_ : Bool} {s t : State} (h : execSafeTestPulse out begin_ s = .next t) :
    Within 0 s.dev t.dev := by
  unfold execSafeTestPulse at h
  refine onDev_within h fun d => ?_
  repeat' first | (with_reducible first | assumption | exact .refl _ | apply Dev.onSafe_within | apply Dev.refreshSafe_within | apply Within.ite) | exact rfl

theorem Dev.latchSafe_within {M : Nat} {d₀ d : Dev} (hM : Sub 16777216 M) (hW : Within M d₀ d) (out : Nat) (kind : Nat) :
    Within M d₀ (d.latchSafe out kind) := by
  refine hW.step ?_ hM
  clear hW hM
  unfold Dev.latchSafe
  repeat' first | (with_reducible first | assumption | exact .refl _ | apply Dev.bump_within | apply Dev.event_within | apply Dev.refreshChannels_within | apply Dev.set_within | apply Within.ite) | extract_lets | exact rfl

theorem execSafeFeedbackEdge_within {fb : Fin 2} {level : Bool} {s t : State} (h : execSafeFeedbackEdge fb level s = .next t) :
    Within 16777216 s.dev t.dev := by
  unfold execSafeFeedbackEdge at h
  refine onDev_within h fun d => ?_
  repeat' first | (with_reducible first | assumption | exact .refl _ | apply Dev.latchSafe_within | apply Dev.onSafe_within | (apply Within.when ?_ (fun d => ?_)) | apply Within.ite) | extract_lets | exact rfl

theorem execFeedbackDelayExpiry_within {fb : Fin 2} {s t : State} (h : execFeedbackDelayExpiry fb s = .next t) :
    Within 16777216 s.dev t.dev := by
  unfold execFeedbackDelayExpiry at h
  refine onDev_within h fun d => ?_
  repeat' first | (with_reducible first | assumption | exact .refl _ | apply Dev.latchSafe_within | apply Within.ite) | extract_lets | exact rfl

theorem execSafeReset_within {hd : Hdr} {cond : Option Nat} {s t : State} (h : execSafeReset hd cond s = .next t) :
    Within 56623616 s.dev t.dev := by
  unfold execSafeReset at h
  refine onDev_within h fun d => ?_
  repeat' first | (with_reducible first | assumption | exact .refl _ | apply Dev.event_within | apply Dev.refreshChannels_within | apply Dev.set_within | refine Dev.writeReq_within ?_ ?_ (fun se n d => ?_)) | exact rfl

theorem Dev.injected_within {M : Nat} {d₀ d : Dev} (hM : Sub 0 M) (hW : Within M d₀ d) (detected : Nat) :
    Within M d₀ (d.injected detected) := by
  refine hW.step ?_ hM
  clear hW hM
  unfold Dev.injected
  repeat' first | (with_reducible first | assumption | exact .refl _ | apply Dev.event_within | apply Dev.onSafe_within | apply Dev.set_within | apply Dev.setN_within | apply Within.ite) | extract_lets | exact rfl

theorem Dev.beginInjection_within {M : Nat} {d₀ d : Dev} (hM : Sub 16777472 M) (hW : Within M d₀ d) :
    Within M d₀ (d.beginInjection) := by
  refine hW.step ?_ hM
  clear hW hM
  unfold Dev.beginInjection
  repeat' first | (with_reducible first | assumption | exact .refl _ | apply Dev.anaRest_within | apply Dev.onSafe_within | apply Dev.refreshChannels_within | apply Dev.set_within | (apply Within.each ?_ (fun d x => ?_))) | exact rfl

theorem execInjectRerun_within {hd : Hdr} {cond : Option Nat} {s t : State} (h : execInjectRerun hd cond s = .next t) :
    Within 56623872 s.dev t.dev := by
  unfold execInjectRerun at h
  refine onDev_within h fun d => ?_
  repeat' first | (with_reducible first | assumption | exact .refl _ | apply Dev.beginInjection_within | refine Dev.writeReq_within ?_ ?_ (fun se n d => ?_)) | exact rfl

theorem Dev.channelFlipped_within {M : Nat} {d₀ d : Dev} (hM : Sub 8192 M) (hW : Within M d₀ d) (k : Nat) (rebound : Bool) :
    Within M d₀ (d.channelFlipped k rebound) := by
  refine hW.step ?_ hM
  clear hW hM
  unfold Dev.channelFlipped
  repeat' first | (with_reducible first | assumption | exact .refl _ | apply Dev.bindModel_within | apply Dev.onChan_within | apply Within.ite) | exact rfl

end Sys2Proof.Machine
end

