-- ==== Sys2Proof/Laws/SolverFrame.lean ====
section
/-! SUPPORT. What the operations of Machine/Solver.lean leave alone. -/
namespace Sys2Proof.Machine

theorem Dev.onSol_within {M : Nat} {d₀ d : Dev} (hM : Sub 16384 M) (hW : Within M d₀ d) (f : Sol → Sol) :
    Within M d₀ (d.onSol f) := by
  refine hW.step ?_ hM
  clear hW hM
  unfold Dev.onSol
  repeat' first | (with_reducible first | assumption | exact .refl _) | with_reducible apply Within.sol_set | exact rfl

theorem Dev.setStruct_within {M : Nat} {d₀ d : Dev} (hM : Sub 16384 M) (hW : Within M d₀ d) (s : Nat) (r : StructRt) :
    Within M d₀ (d.setStruct s r) := by
  refine hW.step ?_ hM
  clear hW hM
  unfold Dev.setStruct
  repeat' first | (with_reducible first | assumption | exact .refl _ | apply Dev.onSol_within | apply Within.ite) | exact rfl

theorem Dev.setSys_within {M : Nat} {d₀ d : Dev} (hM : Sub 16384 M) (hW : Within M d₀ d) (s : Nat) (j : Nat) (y : SysRt) :
    Within M d₀ (d.setSys s j y) := by
  refine hW.step ?_ hM
  clear hW hM
  unfold Dev.setSys
  repeat' first | (with_reducible first | assumption | exact .refl _ | apply Dev.setStruct_within | apply Within.ite) | extract_lets | exact rfl

theorem Dev.countStructs_within {M : Nat} {d₀ d : Dev} (hM : Sub 0 M) (hW : Within M d₀ d) :
    Within M d₀ (d.countStructs) := by
  refine hW.step ?_ hM
  clear hW hM
  unfold Dev.countStructs
  repeat' first | (with_reducible first | assumption | exact .refl _ | apply Dev.setN_within) | exact rfl

theorem Dev.showSeq_within {M : Nat} {d₀ d : Dev} (hM : Sub 1 M) (hW : Within M d₀ d) (s : Nat) :
    Within M d₀ (d.showSeq s) := by
  refine hW.step ?_ hM
  clear hW hM
  unfold Dev.showSeq
  repeat' first | (with_reducible first | assumption | exact .refl _ | apply Dev.memWrite_within) | exact rfl

theorem Dev.loadStruct_within {M : Nat} {d₀ d : Dev} (hM : Sub 16385 M) (hW : Within M d₀ d) (s : Nat) (b : Bytes) :
    Within M d₀ (d.loadStruct s b) := by
  refine hW.step ?_ hM
  clear hW hM
  unfold Dev.loadStruct
  repeat' first | (with_reducible first | assumption | exact .refl _ | apply Dev.countStructs_within | apply Dev.event_within | apply Dev.memWrite_within | apply Dev.set_within | apply Dev.setN_within | apply Dev.setStruct_within | apply Dev.showSeq_within | (apply Within.each ?_ (fun d x => ?_)) | apply Within.ite) | extract_lets | exact rfl

theorem structObj_keeps {M : Nat} (hM : Sub 10502145 M) (s : Nat) : (structObj s).Keeps M := by
  constructor
  · intro se b d
    refine Within.mono (M := 10502145) ?_ hM
    unfold structObj
    repeat' first | (with_reducible first | assumption | exact .refl _ | apply Dev.countCommit_within | apply Dev.loadStruct_within | apply Dev.setBlob_within) | extract_lets | dsimp only | exact rfl
  · intro se r d
    exact .refl _

theorem execStructureDescriptorWrite_within {hd : Hdr} {payload : Bytes} {s t : State} (h : execStructureDescriptorWrite hd payload s = .next t) :
    Within 48251393 s.dev t.dev := by
  unfold execStructureDescriptorWrite at h
  refine onDev_within h fun d => ?_
  repeat' first | (with_reducible first | assumption | exact .refl _ | apply Dev.blockFrame_within) | exact fun _ => structObj_keeps (by exact rfl) _ | exact rfl

theorem Dev.applyDelta_within {M : Nat} {d₀ d : Dev} (hM : Sub 16384 M) (hW : Within M d₀ d) (s : Nat) (e : Bytes) :
    Within M d₀ (d.applyDelta s e) := by
  refine hW.step ?_ hM
  clear hW hM
  unfold Dev.applyDelta
  repeat' first | (with_reducible first | assumption | exact .refl _ | apply Dev.setSys_within) | exact rfl

theorem Dev.showSolution_within {M : Nat} {d₀ d : Dev} (hM : Sub 1 M) (hW : Within M d₀ d) (s : Nat) (j : Nat) :
    Within M d₀ (d.showSolution s j) := by
  refine hW.step ?_ hM
  clear hW hM
  unfold Dev.showSolution
  repeat' first | (with_reducible first | assumption | exact .refl _ | apply Dev.memWrite_within) | extract_lets | exact rfl

theorem Dev.runSystem_snd {M : Nat} {d₀ d : Dev} (hM : Sub 16385 M) (h : Within M d₀ d) (t : Batch) (k : Nat) (i : Nat) :
    Within M d₀ (d.runSystem t k i).1 := by
  refine h.step ?_ hM
  clear h hM
  unfold Dev.runSystem
  try dsimp only
  repeat' split
  repeat' first | (with_reducible first | assumption | exact .refl _ | apply Dev.setSys_within | apply Dev.showSolution_within | apply Within.ite) | extract_lets | exact rfl

theorem Dev.runSystem_of {M : Nat} {d₀ d e : Dev} {t : Batch} {k : Nat} {i : Nat} {a₀ : Nat} (hM : Sub 16385 M) (h : Within M d₀ d)
    (hx : d.runSystem t k i = (e, a₀)) : Within M d₀ e := by
  have g := Dev.runSystem_snd hM h t k i
  rwa [hx] at g

theorem Dev.runSystems_snd {M : Nat} {d₀ d : Dev} (hM : Sub 16385 M) (h : Within M d₀ d) (t : Batch) (k : Nat) (l : List Nat) :
    Within M d₀ (d.runSystems t k l).1 := by
  induction l generalizing d with
  | nil => exact h
  | cons i l ih => exact ih (Dev.runSystem_snd hM h _ _ _)

theorem Dev.runBatch_snd {M : Nat} {d₀ d : Dev} (hM : Sub 16385 M) (h : Within M d₀ d) (t : Batch) (k : Nat) :
    Within M d₀ (d.runBatch t k).1 := by
  refine h.step ?_ hM
  clear h hM
  unfold Dev.runBatch
  try dsimp only
  repeat' split
  repeat' first | (with_reducible first | assumption | exact .refl _ | apply Dev.runSystems_snd | apply Within.ite) | refine Dev.runSystems_of (by exact rfl) ?_ (by assumption) | exact rfl

theorem Dev.runBatch_of {M : Nat} {d₀ d e : Dev} {t : Batch} {k : Nat} {a₀ : List Nat} (hM : Sub 16385 M) (h : Within M d₀ d)
    (hx : d.runBatch t k = (e, a₀)) : Within M d₀ e := by
  have g := Dev.runBatch_snd hM h t k
  rwa [hx] at g

theorem Dev.sendResult_within {M : Nat} {d₀ d : Dev} (hM : Sub 27 M) (hW : Within M d₀ d) (s : Nat) (q : Nat) (flags : Nat) (req : Bytes) (status : Nat) (owner : Option Nat) (words : List Nat) (late : Bool) :
    Within M d₀ (d.sendResult s q flags req status owner words late) := by
  refine hW.step ?_ hM
  clear hW hM
  unfold Dev.sendResult
  repeat' first | (with_reducible first | assumption | exact .refl _ | apply Dev.emitItem_within | apply Dev.signalFence_within | (apply Within.when ?_ (fun d => ?_)) | split) | extract_lets | exact rfl

theorem Dev.refuseRequest_within {M : Nat} {d₀ d : Dev} (hM : Sub 33554459 M) (hW : Within M d₀ d) (s : Nat) (req : Bytes) (status : Nat) (owner : Option Nat) :
    Within M d₀ (d.refuseRequest s req status owner) := by
  refine hW.step ?_ hM
  clear hW hM
  unfold Dev.refuseRequest
  repeat' first | (with_reducible first | assumption | exact .refl _ | apply Dev.bump_within | apply Dev.event_within | apply Dev.sendResult_within | apply Dev.violate_within | apply Within.ite | split) | extract_lets | exact rfl

theorem Dev.startBatch_within {M : Nat} {d₀ d : Dev} (hM : Sub 33570843 M) (hW : Within M d₀ d) :
    Within M d₀ (d.startBatch) := by
  refine hW.step ?_ hM
  clear hW hM
  unfold Dev.startBatch
  repeat' first | (with_reducible first | assumption | exact .refl _ | apply Dev.applyDelta_within | apply Dev.bump_within | apply Dev.genDec_within | apply Dev.onSol_within | apply Dev.readItem_snd | apply Dev.refuseRequest_within | apply Dev.setN_within | apply Dev.showSeq_within | (apply Within.each ?_ (fun d x => ?_)) | (apply Within.when ?_ (fun d => ?_)) | apply Within.ite | split) | refine Dev.readQueue_of rfl ?_ (by assumption) | refine Dev.readItem_of (by exact rfl) ?_ (by assumption) | extract_lets | exact rfl

theorem Dev.batchPose_snd {M : Nat} {d₀ d : Dev} (hM : Sub 0 M) (h : Within M d₀ d) (t : Batch) (words : List Nat) :
    Within M d₀ (d.batchPose t words).1 := by
  refine h.step ?_ hM
  clear h hM
  unfold Dev.batchPose
  try dsimp only
  repeat' split
  repeat' first | (with_reducible first | assumption | exact .refl _ | apply Dev.emitItem_within | apply Dev.event_within | apply Within.ite | split) | extract_lets | exact rfl

theorem Dev.batchPose_of {M : Nat} {d₀ d e : Dev} {t : Batch} {words : List Nat} {a₀ : Nat} (hM : Sub 0 M) (h : Within M d₀ d)
    (hx : d.batchPose t words = (e, a₀)) : Within M d₀ e := by
  have g := Dev.batchPose_snd hM h t words
  rwa [hx] at g

theorem Dev.endBatch_within {M : Nat} {d₀ d : Dev} (hM : Sub 16411 M) (hW : Within M d₀ d) (t : Batch) (k : Nat) (status : Nat) :
    Within M d₀ (d.endBatch t k status) := by
  refine hW.step ?_ hM
  clear hW hM
  unfold Dev.endBatch
  repeat' first | (with_reducible first | assumption | exact .refl _ | apply Dev.batchPose_snd | apply Dev.bump_within | apply Dev.bumpBy_within | apply Dev.event_within | apply Dev.onSol_within | apply Dev.runBatch_snd | apply Dev.sendResult_within | apply Dev.setN_within | apply Dev.showSeq_within | (apply Within.when ?_ (fun d => ?_))) | refine Dev.batchPose_of (by exact rfl) ?_ (by assumption) | refine Dev.runBatch_of (by exact rfl) ?_ (by assumption) | extract_lets | exact rfl

theorem execSolverBatchEnd_within {s t : State} (h : execSolverBatchEnd s = .next t) :
    Within 16411 s.dev t.dev := by
  unfold execSolverBatchEnd at h
  refine onDev_within h fun d => ?_
  repeat' first | (with_reducible first | assumption | exact .refl _ | apply Dev.endBatch_within | apply Within.ite | split) | exact rfl

theorem Dev.abandonBatch_within {M : Nat} {d₀ d : Dev} (hM : Sub 16411 M) (hW : Within M d₀ d) :
    Within M d₀ (d.abandonBatch) := by
  refine hW.step ?_ hM
  clear hW hM
  unfold Dev.abandonBatch
  repeat' first | (with_reducible first | assumption | exact .refl _ | apply Dev.drawn_within | apply Dev.endBatch_within | apply Dev.event_within | split) | extract_lets | exact rfl

theorem Dev.refactorAll_within {M : Nat} {d₀ d : Dev} (hM : Sub 16384 M) (hW : Within M d₀ d) (s : Nat) :
    Within M d₀ (d.refactorAll s) := by
  refine hW.step ?_ hM
  clear hW hM
  unfold Dev.refactorAll
  repeat' first | (with_reducible first | assumption | exact .refl _ | apply Dev.setStruct_within) | extract_lets | exact rfl

end Sys2Proof.Machine
end

