-- ==== Sys2Proof/Laws/NetworkFrame.lean ====
section
/-! SUPPORT. What the operations of Machine/Network.lean leave alone. -/
namespace Sys2Proof.Machine

theorem Dev.onNet_within {M : Nat} {d₀ d : Dev} (hM : Sub 32768 M) (hW : Within M d₀ d) (f : Net → Net) :
    Within M d₀ (d.onNet f) := by
  refine hW.step ?_ hM
  clear hW hM
  unfold Dev.onNet
  repeat' first | (with_reducible first | assumption | exact .refl _) | with_reducible apply Within.net_set | exact rfl

theorem Dev.setPeer_within {M : Nat} {d₀ d : Dev} (hM : Sub 32768 M) (hW : Within M d₀ d) (n : Nat) (p : NetPartner) :
    Within M d₀ (d.setPeer n p) := by
  refine hW.step ?_ hM
  clear hW hM
  unfold Dev.setPeer
  repeat' first | (with_reducible first | assumption | exact .refl _ | apply Dev.onNet_within | apply Within.ite) | exact rfl

theorem Dev.onCls_within {M : Nat} {d₀ d : Dev} (hM : Sub 32768 M) (hW : Within M d₀ d) (k : Nat) (f : ClassRt → ClassRt) :
    Within M d₀ (d.onCls k f) := by
  refine hW.step ?_ hM
  clear hW hM
  unfold Dev.onCls
  repeat' first | (with_reducible first | assumption | exact .refl _ | apply Dev.onNet_within | apply Within.ite) | exact rfl

theorem Dev.judgePeer_within {M : Nat} {d₀ d : Dev} (hM : Sub 0 M) (hW : Within M d₀ d) (n : Nat) :
    Within M d₀ (d.judgePeer n) := by
  refine hW.step ?_ hM
  clear hW hM
  unfold Dev.judgePeer
  repeat' first | (with_reducible first | assumption | exact .refl _ | apply Dev.event_within | apply Dev.set_within | apply Within.ite) | extract_lets | exact rfl

theorem Dev.moveClass_within {M : Nat} {d₀ d : Dev} (hM : Sub 0 M) (hW : Within M d₀ d) (k : Nat) (path : Nat) :
    Within M d₀ (d.moveClass k path) := by
  refine hW.step ?_ hM
  clear hW hM
  unfold Dev.moveClass
  repeat' first | (with_reducible first | assumption | exact .refl _ | apply Dev.set_within | apply Dev.setN_within) | exact rfl

theorem Dev.classFailed_within {M : Nat} {d₀ d : Dev} (hM : Sub 32768 M) (hW : Within M d₀ d) (k : Nat) (n : Nat) (path : Nat) :
    Within M d₀ (d.classFailed k n path) := by
  refine hW.step ?_ hM
  clear hW hM
  unfold Dev.classFailed
  repeat' first | (with_reducible first | assumption | exact .refl _ | apply Dev.bump_within | apply Dev.connNotice_within | apply Dev.event_within | apply Dev.moveClass_within | apply Dev.onCls_within | apply Dev.set_within | apply Within.ite) | extract_lets | exact rfl

theorem Dev.pathFailed_within {M : Nat} {d₀ d : Dev} (hM : Sub 32768 M) (hW : Within M d₀ d) (n : Nat) (path : Nat) :
    Within M d₀ (d.pathFailed n path) := by
  refine hW.step ?_ hM
  clear hW hM
  unfold Dev.pathFailed
  repeat' first | (with_reducible first | assumption | exact .refl _ | apply Dev.classFailed_within | apply Dev.event_within | apply Dev.judgePeer_within | apply Dev.set_within | (apply Within.each ?_ (fun d x => ?_)) | apply Within.ite) | extract_lets | exact rfl

theorem Dev.pathUp_within {M : Nat} {d₀ d : Dev} (hM : Sub 0 M) (hW : Within M d₀ d) (n : Nat) (path : Nat) :
    Within M d₀ (d.pathUp n path) := by
  refine hW.step ?_ hM
  clear hW hM
  unfold Dev.pathUp
  repeat' first | (with_reducible first | assumption | exact .refl _ | apply Dev.event_within | apply Dev.judgePeer_within | apply Dev.set_within | (apply Within.each ?_ (fun d x => ?_)) | (apply Within.when ?_ (fun d => ?_))) | extract_lets | exact rfl

theorem Dev.portDown_within {M : Nat} {d₀ d : Dev} (hM : Sub 32768 M) (hW : Within M d₀ d) (port : Nat) :
    Within M d₀ (d.portDown port) := by
  refine hW.step ?_ hM
  clear hW hM
  unfold Dev.portDown
  repeat' first | (with_reducible first | assumption | exact .refl _ | apply Dev.setPeer_within | apply Dev.pathFailed_within | (apply Within.each ?_ (fun d x => ?_)) | (apply Within.when ?_ (fun d => ?_))) | exact rfl

theorem Dev.peerEnabled_within {M : Nat} {d₀ d : Dev} (hM : Sub 32768 M) (hW : Within M d₀ d) (n : Nat) :
    Within M d₀ (d.peerEnabled n) := by
  refine hW.step ?_ hM
  clear hW hM
  unfold Dev.peerEnabled
  repeat' first | (with_reducible first | assumption | exact .refl _ | apply Dev.judgePeer_within | apply Dev.pathFailed_within | apply Dev.set_within | apply Dev.setPeer_within | (apply Within.each ?_ (fun d x => ?_)) | (apply Within.when ?_ (fun d => ?_)) | apply Within.ite) | extract_lets | exact rfl

theorem execHeartbeatSend_within {s t : State} (h : execHeartbeatSend s = .next t) :
    Within 33280 s.dev t.dev := by
  unfold execHeartbeatSend at h
  refine onDev_within h fun d => ?_
  repeat' first | (with_reducible first | assumption | exact .refl _ | apply Dev.ethSend_within | apply Dev.onNet_within | apply Dev.setPeer_within | (apply Within.each ?_ (fun d x => ?_)) | apply Within.ite) | extract_lets | exact rfl

theorem Dev.unsuspect_within {M : Nat} {d₀ d : Dev} (hM : Sub 32768 M) (hW : Within M d₀ d) (n : Nat) (path : Nat) :
    Within M d₀ (d.unsuspect n path) := by
  refine hW.step ?_ hM
  clear hW hM
  unfold Dev.unsuspect
  repeat' first | (with_reducible first | assumption | exact .refl _ | apply Dev.onCls_within | apply Dev.set_within | (apply Within.each ?_ (fun d x => ?_)) | (apply Within.when ?_ (fun d => ?_))) | exact rfl

theorem Dev.heartbeatCounts_within {M : Nat} {d₀ d : Dev} (hM : Sub 32768 M) (hW : Within M d₀ d) (n : Nat) (path : Nat) (b : Bytes) :
    Within M d₀ (d.heartbeatCounts n path b) := by
  refine hW.step ?_ hM
  clear hW hM
  unfold Dev.heartbeatCounts
  repeat' first | (with_reducible first | assumption | exact .refl _ | apply Dev.judgePeer_within | apply Dev.pathUp_within | apply Dev.set_within | apply Dev.setN_within | apply Dev.setPeer_within | apply Dev.unsuspect_within | apply Within.ite | split) | extract_lets | exact rfl

theorem execHeartbeatReceived_within {port : Fin 2} {srcIp : Nat} {payload : Bytes} {found : Found} {s t : State} (h : execHeartbeatReceived port srcIp payload found s = .next t) :
    Within 33587200 s.dev t.dev := by
  unfold execHeartbeatReceived at h
  refine onDev_within h fun d => ?_
  repeat' first | (with_reducible first | assumption | exact .refl _ | apply Dev.bump_within | apply Dev.countFcs_within | apply Dev.handover_within | apply Dev.heartbeatCounts_within | apply Dev.violate_within | apply Within.ite | split) | extract_lets | exact rfl

theorem Dev.suspect_within {M : Nat} {d₀ d : Dev} (hM : Sub 32768 M) (hW : Within M d₀ d) (k : Nat) :
    Within M d₀ (d.suspect k) := by
  refine hW.step ?_ hM
  clear hW hM
  unfold Dev.suspect
  repeat' first | (with_reducible first | assumption | exact .refl _ | apply Dev.onCls_within | apply Dev.set_within | apply Within.ite) | exact rfl

theorem execHeartbeatMissingCheck_within {partner : Fin 16} {path : Fin 2} {seq : Nat} {s t : State} (h : execHeartbeatMissingCheck partner path seq s = .next t) :
    Within 32768 s.dev t.dev := by
  unfold execHeartbeatMissingCheck at h
  refine onDev_within h fun d => ?_
  repeat' first | (with_reducible first | assumption | exact .refl _ | apply Dev.bump_within | apply Dev.pathFailed_within | apply Dev.setPeer_within | apply Dev.suspect_within | (apply Within.each ?_ (fun d x => ?_)) | apply Within.ite | split) | extract_lets | exact rfl

theorem execPartnerSilenceTimeout_within {partner : Fin 16} {s t : State} (h : execPartnerSilenceTimeout partner s = .next t) :
    Within 32768 s.dev t.dev := by
  unfold execPartnerSilenceTimeout at h
  refine onDev_within h fun d => ?_
  repeat' first | (with_reducible first | assumption | exact .refl _ | apply Dev.judgePeer_within | apply Dev.set_within | apply Dev.setPeer_within | (apply Within.each ?_ (fun d x => ?_)) | (apply Within.when ?_ (fun d => ?_)) | apply Within.ite) | extract_lets | exact rfl

theorem execPortLinkChange_within {port : Fin 2} {up : Bool} {s t : State} (h : execPortLinkChange port up s = .next t) :
    Within 33286 s.dev t.dev := by
  unfold execPortLinkChange at h
  refine onDev_within h fun d => ?_
  repeat' first | (with_reducible first | assumption | exact .refl _ | apply Dev.event_within | apply Dev.portDown_within | apply Dev.ptpPortCheck_within | apply Dev.set_within | apply Within.ite) | extract_lets | exact rfl

theorem execHoldTimeExpiry_within {k : Fin 8} {s t : State} (h : execHoldTimeExpiry k s = .next t) :
    Within 33280 s.dev t.dev := by
  unfold execHoldTimeExpiry at h
  refine onDev_within h fun d => ?_
  repeat' first | (with_reducible first | assumption | exact .refl _ | apply Dev.hold_within | apply Dev.onCls_within | apply Within.ite) | extract_lets | exact rfl

theorem Dev.duplicateDiscard_snd {M : Nat} {d₀ d : Dev} (hM : Sub 32768 M) (h : Within M d₀ d) (mac : Nat) (seq : Nat) :
    Within M d₀ (d.duplicateDiscard mac seq).1 := by
  refine h.step ?_ hM
  clear h hM
  unfold Dev.duplicateDiscard
  try dsimp only
  repeat' split
  repeat' first | (with_reducible first | assumption | exact .refl _ | apply Dev.bump_within | apply Dev.onNet_within | apply Within.ite) | extract_lets | exact rfl

theorem Dev.duplicateDiscard_of {M : Nat} {d₀ d e : Dev} {mac : Nat} {seq : Nat} {a₀ : Bool} (hM : Sub 32768 M) (h : Within M d₀ d)
    (hx : d.duplicateDiscard mac seq = (e, a₀)) : Within M d₀ e := by
  have g := Dev.duplicateDiscard_snd hM h mac seq
  rwa [hx] at g

theorem execDuplicateFrameReceived_within {port : Fin 2} {mac : Nat} {trailer : Option (Nat × Nat)} {supervision : Bool} {s t : State} (h : execDuplicateFrameReceived port mac trailer supervision s = .next t) :
    Within 32768 s.dev t.dev := by
  unfold execDuplicateFrameReceived at h
  refine onDev_within h fun d => ?_
  repeat' first | (with_reducible first | assumption | exact .refl _ | apply Dev.bump_within | apply Dev.duplicateDiscard_snd | (apply Within.when ?_ (fun d => ?_)) | apply Within.ite | split) | refine Dev.duplicateDiscard_of (by exact rfl) ?_ (by assumption) | extract_lets | exact rfl

theorem execSwapTest_within {k : Fin 8} {s t : State} (h : execSwapTest k s = .next t) :
    Within 32768 s.dev t.dev := by
  unfold execSwapTest at h
  refine onDev_within h fun d => ?_
  repeat' first | (with_reducible first | assumption | exact .refl _ | apply Dev.moveClass_within | apply Dev.onCls_within | apply Dev.set_within | apply Within.ite | split) | extract_lets | exact rfl

theorem execSwapVerifyExpiry_within {k : Fin 8} {s t : State} (h : execSwapVerifyExpiry k s = .next t) :
    Within 32768 s.dev t.dev := by
  unfold execSwapVerifyExpiry at h
  refine onDev_within h fun d => ?_
  repeat' first | (with_reducible first | assumption | exact .refl _ | apply Dev.bump_within | apply Dev.event_within | apply Dev.moveClass_within | apply Dev.onCls_within | apply Dev.set_within | (apply Within.when ?_ (fun d => ?_)) | apply Within.ite | split) | extract_lets | exact rfl

theorem execForceSwitch_within {hd : Hdr} {cond : Option Nat} {k : Fin 8} {v : Bytes} {s t : State} (h : execForceSwitch hd cond k v s = .next t) :
    Within 39879168 s.dev t.dev := by
  unfold execForceSwitch at h
  refine onDev_within h fun d => ?_
  repeat' first | (with_reducible first | assumption | exact .refl _ | apply Dev.moveClass_within | apply Dev.onCls_within | refine Dev.writeReq_within ?_ ?_ (fun se n d => ?_) | apply Within.ite) | exact rfl

theorem Dev.classReceived_within {M : Nat} {d₀ d : Dev} (hM : Sub 32768 M) (hW : Within M d₀ d) (k : Nat) (port : Nat) :
    Within M d₀ (d.classReceived k port) := by
  refine hW.step ?_ hM
  clear hW hM
  unfold Dev.classReceived
  repeat' first | (with_reducible first | assumption | exact .refl _ | apply Dev.onCls_within | apply Dev.setPeer_within | (apply Within.when ?_ (fun d => ?_))) | extract_lets | exact rfl

theorem Dev.egress_within {M : Nat} {d₀ d : Dev} (hM : Sub 512 M) (hW : Within M d₀ d) (port : Nat) (cls : Nat) (iface : Nat) (kind : FrameKind) (fields : List Int) (payload : Bytes) (found : Found) :
    Within M d₀ (d.egress port cls iface kind fields payload found) := by
  refine hW.step ?_ hM
  clear hW hM
  unfold Dev.egress
  repeat' first | (with_reducible first | assumption | exact .refl _ | apply Dev.bump_within | apply Dev.ethOut_within | apply Dev.event_within | apply Dev.handover_within | (apply Within.when ?_ (fun d => ?_))) | extract_lets | exact rfl

theorem Dev.classSend_within {M : Nat} {d₀ d : Dev} (hM : Sub 33280 M) (hW : Within M d₀ d) (k : Nat) (iface : Nat) (kind : FrameKind) (fields : List Int) (payload : Bytes) (found : Found) :
    Within M d₀ (d.classSend k iface kind fields payload found) := by
  refine hW.step ?_ hM
  clear hW hM
  unfold Dev.classSend
  repeat' first | (with_reducible first | assumption | exact .refl _ | apply Dev.bump_within | apply Dev.egress_within | apply Dev.onCls_within | apply Dev.onNet_within | (apply Within.each ?_ (fun d x => ?_)) | (apply Within.when ?_ (fun d => ?_)) | apply Within.ite) | extract_lets | exact rfl

theorem Dev.classWritten_within {M : Nat} {d₀ d : Dev} (hM : Sub 32768 M) (hW : Within M d₀ d) (k : Nat) :
    Within M d₀ (d.classWritten k) := by
  refine hW.step ?_ hM
  clear hW hM
  unfold Dev.classWritten
  repeat' first | (with_reducible first | assumption | exact .refl _ | apply Dev.onCls_within | apply Dev.set_within | apply Within.ite) | extract_lets | exact rfl

theorem execSerdesRecalDue_within {port : Fin 2} {s t : State} (h : execSerdesRecalDue port s = .next t) :
    Within 512 s.dev t.dev := by
  unfold execSerdesRecalDue at h
  refine onDev_within h fun d => ?_
  repeat' first | (with_reducible first | assumption | exact .refl _ | apply Dev.onTu_within | apply Dev.set_within | apply Within.ite) | exact rfl

theorem execArpIcmpEchoRequest_within {port : Fin 2} {echo : Bool} {srcIp : Nat} {targetIp : Nat} {payload : Bytes} {s t : State} (h : execArpIcmpEchoRequest port echo srcIp targetIp payload s = .next t) :
    Within 512 s.dev t.dev := by
  unfold execArpIcmpEchoRequest at h
  refine onDev_within h fun d => ?_
  repeat' first | (with_reducible first | assumption | exact .refl _ | apply Dev.bump_within | apply Dev.ethSend_within | apply Within.ite) | extract_lets | exact rfl

theorem execPauseOrOversizeFrame_within {port : Fin 2} {len : Option Nat} {s t : State} (h : execPauseOrOversizeFrame port len s = .next t) :
    Within 0 s.dev t.dev := by
  unfold execPauseOrOversizeFrame at h
  refine onDev_within h fun d => ?_
  repeat' first | (with_reducible first | assumption | exact .refl _ | apply Dev.bump_within | apply Within.ite | split) | exact rfl

end Sys2Proof.Machine
end

