-- ==== Sys2Proof/Laws/AudioFrame.lean ====
section
/-! SUPPORT. What the operations of Machine/Audio.lean leave alone. -/
namespace Sys2Proof.Machine

theorem Dev.onAudio_within {M : Nat} {d₀ d : Dev} (hM : Sub 65536 M) (hW : Within M d₀ d) (f : Audio → Audio) :
    Within M d₀ (d.onAudio f) := by
  refine hW.step ?_ hM
  clear hW hM
  unfold Dev.onAudio
  repeat' first | (with_reducible first | assumption | exact .refl _) | with_reducible apply Within.aud_set | exact rfl

theorem Dev.onPort_within {M : Nat} {d₀ d : Dev} (hM : Sub 65536 M) (hW : Within M d₀ d) (p : Nat) (f : PortRt → PortRt) :
    Within M d₀ (d.onPort p f) := by
  refine hW.step ?_ hM
  clear hW hM
  unfold Dev.onPort
  repeat' first | (with_reducible first | assumption | exact .refl _ | apply Dev.onAudio_within | apply Within.ite) | exact rfl

theorem Dev.refreshDomains_within {M : Nat} {d₀ d : Dev} (hM : Sub 65536 M) (hW : Within M d₀ d) :
    Within M d₀ (d.refreshDomains) := by
  refine hW.step ?_ hM
  clear hW hM
  unfold Dev.refreshDomains
  repeat' first | (with_reducible first | assumption | exact .refl _ | apply Dev.onAudio_within | apply Dev.set_within | apply Dev.setN_within | (apply Within.each ?_ (fun d x => ?_)) | apply Within.ite | split) | extract_lets | exact rfl

theorem Dev.emitStamp_within {M : Nat} {d₀ d : Dev} (hM : Sub 0 M) (hW : Within M d₀ d) (q : Nat) (src : Nat) (num : Nat) (stamp : Nat) (rec_ : Bytes) :
    Within M d₀ (d.emitStamp q src num stamp rec_) := by
  refine hW.step ?_ hM
  clear hW hM
  unfold Dev.emitStamp
  repeat' first | (with_reducible first | assumption | exact .refl _ | apply Dev.enqueue_within | apply Dev.nextSeq_within | apply Dev.withPayload_snd | apply Within.ite) | refine Dev.withPayload_of (by exact rfl) ?_ (by assumption) | extract_lets | exact rfl

theorem Dev.startOutputs_within {M : Nat} {d₀ d : Dev} (hM : Sub 65536 M) (hW : Within M d₀ d) (m : Nat) (stamp : Nat) :
    Within M d₀ (d.startOutputs m stamp) := by
  refine hW.step ?_ hM
  clear hW hM
  unfold Dev.startOutputs
  repeat' first | (with_reducible first | assumption | exact .refl _ | apply Dev.onPort_within | apply Dev.set_within | (apply Within.each ?_ (fun d x => ?_)) | apply Within.ite | split) | exact rfl

theorem Dev.domainBlock_within {M : Nat} {d₀ d : Dev} (hM : Sub 65536 M) (hW : Within M d₀ d) (m : Nat) (stamp : Nat) :
    Within M d₀ (d.domainBlock m stamp) := by
  refine hW.step ?_ hM
  clear hW hM
  unfold Dev.domainBlock
  repeat' first | (with_reducible first | assumption | exact .refl _ | apply Dev.bump_within | apply Dev.emitStamp_within | apply Dev.onAudio_within | apply Dev.startOutputs_within) | extract_lets | exact rfl

theorem execPortBlockStamp_within {port : Fin 32} {stamp : Nat} {ratio : Int} {s t : State} (h : execPortBlockStamp port stamp ratio s = .next t) :
    Within 65536 s.dev t.dev := by
  unfold execPortBlockStamp at h
  refine onDev_within h fun d => ?_
  repeat' first | (with_reducible first | assumption | exact .refl _ | apply Dev.bump_within | apply Dev.emitStamp_within | apply Dev.onPort_within | apply Dev.setN_within | (apply Within.when ?_ (fun d => ?_)) | apply Within.ite | split) | extract_lets | exact rfl

theorem Dev.portOn_within {M : Nat} {d₀ d : Dev} (hM : Sub 66048 M) (hW : Within M d₀ d) (p : Nat) :
    Within M d₀ (d.portOn p) := by
  refine hW.step ?_ hM
  clear hW hM
  unfold Dev.portOn
  repeat' first | (with_reducible first | assumption | exact .refl _ | apply Dev.ethSend_within | apply Dev.onPort_within | apply Dev.set_within | apply Within.ite) | extract_lets | exact rfl

theorem Dev.portOff_within {M : Nat} {d₀ d : Dev} (hM : Sub 66048 M) (hW : Within M d₀ d) (p : Nat) :
    Within M d₀ (d.portOff p) := by
  refine hW.step ?_ hM
  clear hW hM
  unfold Dev.portOff
  repeat' first | (with_reducible first | assumption | exact .refl _ | apply Dev.onPort_within | apply Dev.set_within | apply Dev.unhold_within) | extract_lets | exact rfl

theorem Dev.portEnabled_within {M : Nat} {d₀ d : Dev} (hM : Sub 66048 M) (hW : Within M d₀ d) (p : Nat) :
    Within M d₀ (d.portEnabled p) := by
  refine hW.step ?_ hM
  clear hW hM
  unfold Dev.portEnabled
  repeat' first | (with_reducible first | assumption | exact .refl _ | apply Dev.portOff_within | apply Dev.portOn_within | apply Within.ite) | exact rfl

theorem execPortEnable_within {hd : Hdr} {cond : Option Nat} {port : Fin 32} {v : Bytes} {s t : State} (h : execPortEnable hd cond port v s = .next t) :
    Within 39911936 s.dev t.dev := by
  unfold execPortEnable at h
  refine onDev_within h fun d => ?_
  repeat' first | (with_reducible first | assumption | exact .refl _ | apply Dev.portEnabled_within | refine Dev.writeStore_within ?_ ?_ (fun se n d => ?_) | apply Within.ite) | exact rfl

theorem execConverterSettled_within {port : Fin 32} {s t : State} (h : execConverterSettled port s = .next t) :
    Within 0 s.dev t.dev := by
  unfold execConverterSettled at h
  refine onDev_within h fun d => ?_
  repeat' first | (with_reducible first | assumption | exact .refl _ | apply Dev.set_within | apply Within.ite) | exact rfl

theorem Dev.outputStarts_within {M : Nat} {d₀ d : Dev} (hM : Sub 66048 M) (hW : Within M d₀ d) (p : Nat) :
    Within M d₀ (d.outputStarts p) := by
  refine hW.step ?_ hM
  clear hW hM
  unfold Dev.outputStarts
  repeat' first | (with_reducible first | assumption | exact .refl _ | apply Dev.hold_within | apply Dev.onPort_within | apply Dev.set_within | apply Within.ite) | extract_lets | exact rfl

theorem execOutputStart_within {hd : Hdr} {cond : Option Nat} {port : Fin 32} {s t : State} (h : execOutputStart hd cond port s = .next t) :
    Within 39911936 s.dev t.dev := by
  unfold execOutputStart at h
  refine onDev_within h fun d => ?_
  repeat' first | (with_reducible first | assumption | exact .refl _ | apply Dev.outputStarts_within | refine Dev.writeReq_within ?_ ?_ (fun se n d => ?_)) | exact rfl

theorem Dev.outputStops_within {M : Nat} {d₀ d : Dev} (hM : Sub 66048 M) (hW : Within M d₀ d) (p : Nat) :
    Within M d₀ (d.outputStops p) := by
  refine hW.step ?_ hM
  clear hW hM
  unfold Dev.outputStops
  repeat' first | (with_reducible first | assumption | exact .refl _ | apply Dev.onPort_within | apply Dev.set_within | apply Dev.unhold_within) | exact rfl

theorem execOutputStop_within {hd : Hdr} {cond : Option Nat} {port : Fin 32} {s t : State} (h : execOutputStop hd cond port s = .next t) :
    Within 39911936 s.dev t.dev := by
  unfold execOutputStop at h
  refine onDev_within h fun d => ?_
  repeat' first | (with_reducible first | assumption | exact .refl _ | apply Dev.outputStops_within | refine Dev.writeReq_within ?_ ?_ (fun se n d => ?_)) | exact rfl

theorem Dev.portViolation_within {M : Nat} {d₀ d : Dev} (hM : Sub 33554432 M) (hW : Within M d₀ d) (p : Nat) (code : Nat) (count : Int) :
    Within M d₀ (d.portViolation p code count) := by
  refine hW.step ?_ hM
  clear hW hM
  unfold Dev.portViolation
  repeat' first | (with_reducible first | assumption | exact .refl _ | apply Dev.bump_within | apply Dev.violate_within) | exact rfl

theorem Dev.portMissing_within {M : Nat} {d₀ d : Dev} (hM : Sub 65536 M) (hW : Within M d₀ d) (p : Nat) :
    Within M d₀ (d.portMissing p) := by
  refine hW.step ?_ hM
  clear hW hM
  unfold Dev.portMissing
  repeat' first | (with_reducible first | assumption | exact .refl _ | apply Dev.onPort_within) | exact rfl

theorem Dev.portRuns_within {M : Nat} {d₀ d : Dev} (hM : Sub 0 M) (hW : Within M d₀ d) (p : Nat) :
    Within M d₀ (d.portRuns p) := by
  refine hW.step ?_ hM
  clear hW hM
  unfold Dev.portRuns
  repeat' first | (with_reducible first | assumption | exact .refl _ | apply Dev.set_within) | exact rfl

theorem execSerialWsSlip_within {port : Fin 8} {s t : State} (h : execSerialWsSlip port s = .next t) :
    Within 33619968 s.dev t.dev := by
  unfold execSerialWsSlip at h
  refine onDev_within h fun d => ?_
  repeat' first | (with_reducible first | assumption | exact .refl _ | apply Dev.onPort_within | apply Dev.portViolation_within | apply Within.ite) | exact rfl

theorem execSerialRelock_within {port : Fin 8} {s t : State} (h : execSerialRelock port s = .next t) :
    Within 65536 s.dev t.dev := by
  unfold execSerialRelock at h
  refine onDev_within h fun d => ?_
  repeat' first | (with_reducible first | assumption | exact .refl _ | apply Dev.onPort_within | apply Dev.portRuns_within | apply Within.ite) | exact rfl

theorem execSerialClockAbsent_within {port : Fin 8} {s t : State} (h : execSerialClockAbsent port s = .next t) :
    Within 65536 s.dev t.dev := by
  unfold execSerialClockAbsent at h
  refine onDev_within h fun d => ?_
  repeat' first | (with_reducible first | assumption | exact .refl _ | apply Dev.event_within | apply Dev.portMissing_within | apply Dev.set_within | apply Within.ite) | exact rfl

theorem execPortRateMismatch_within {port : Fin 32} {measured : Nat} {s t : State} (h : execPortRateMismatch port measured s = .next t) :
    Within 65536 s.dev t.dev := by
  unfold execPortRateMismatch at h
  refine onDev_within h fun d => ?_
  repeat' first | (with_reducible first | assumption | exact .refl _ | apply Dev.event_within | apply Dev.portMissing_within | apply Dev.portRuns_within | apply Dev.set_within | apply Dev.setN_within | (apply Within.when ?_ (fun d => ?_)) | apply Within.ite) | extract_lets | exact rfl

theorem execBiphaseFrame_within {port : Fin 4} {coded : Bool} {parityOk : Bool} {validity : Bool} {s t : State} (h : execBiphaseFrame port coded parityOk validity s = .next t) :
    Within 33619968 s.dev t.dev := by
  unfold execBiphaseFrame at h
  refine onDev_within h fun d => ?_
  repeat' first | (with_reducible first | assumption | exact .refl _ | apply Dev.event_within | apply Dev.handover_within | apply Dev.onPort_within | apply Dev.portMissing_within | apply Dev.portViolation_within | (apply Within.when ?_ (fun d => ?_)) | apply Within.ite) | extract_lets | exact rfl

theorem execChannelStatusBlock_within {port : Fin 4} {status : Bytes} {user : Bytes} {s t : State} (h : execChannelStatusBlock port status user s = .next t) :
    Within 8388608 s.dev t.dev := by
  unfold execChannelStatusBlock at h
  refine onDev_within h fun d => ?_
  repeat' first | (with_reducible first | assumption | exact .refl _ | apply Dev.bump_within | apply Dev.event_within | apply Dev.setBlob_within | apply Within.ite) | extract_lets | exact rfl

theorem execBiphaseUnlock_within {port : Fin 4} {s t : State} (h : execBiphaseUnlock port s = .next t) :
    Within 66048 s.dev t.dev := by
  unfold execBiphaseUnlock at h
  refine onDev_within h fun d => ?_
  repeat' first | (with_reducible first | assumption | exact .refl _ | apply Dev.event_within | apply Dev.portMissing_within | apply Dev.reselect_within | apply Dev.set_within | apply Dev.toRef_within | apply Within.ite) | extract_lets | exact rfl

theorem execBiphaseReceiverLock_within {port : Fin 4} {offset : Int} {s t : State} (h : execBiphaseReceiverLock port offset s = .next t) :
    Within 512 s.dev t.dev := by
  unfold execBiphaseReceiverLock at h
  refine onDev_within h fun d => ?_
  repeat' first | (with_reducible first | assumption | exact .refl _ | apply Dev.portRuns_within | apply Dev.set_within | apply Dev.toRef_within | apply Within.ite) | extract_lets | exact rfl

theorem Dev.rtpTake_within {M : Nat} {d₀ d : Dev} (hM : Sub 65536 M) (hW : Within M d₀ d) (p : Nat) (h : RtpHead) (payload : Bytes) (bad : Bool) :
    Within M d₀ (d.rtpTake p h payload bad) := by
  refine hW.step ?_ hM
  clear hW hM
  unfold Dev.rtpTake
  repeat' first | (with_reducible first | assumption | exact .refl _ | apply Dev.bump_within | apply Dev.event_within | apply Dev.onPort_within | apply Dev.portRuns_within | (apply Within.when ?_ (fun d => ?_)) | apply Within.ite | split) | extract_lets | exact rfl

theorem execRtpPacketReceived_within {eth : Fin 2} {stream : Fin 16} {h : RtpHead} {payload : Bytes} {found : Found} {s t : State} (h : execRtpPacketReceived eth stream h payload found s = .next t) :
    Within 33652736 s.dev t.dev := by
  unfold execRtpPacketReceived at h
  refine onDev_within h fun d => ?_
  repeat' first | (with_reducible first | assumption | exact .refl _ | apply Dev.bump_within | apply Dev.classReceived_within | apply Dev.countFcs_within | apply Dev.handover_within | apply Dev.portViolation_within | apply Dev.quarantineDrop_within | apply Dev.rtpTake_within | apply Within.ite) | extract_lets | exact rfl

theorem Dev.hearChannel_snd {M : Nat} {d₀ d : Dev} (hM : Sub 65536 M) (h : Within M d₀ d) (m : Nat) (p : Nat) (c : Nat) (came : List Int) :
    Within M d₀ (d.hearChannel m p c came).2 := by
  refine h.step ?_ hM
  clear h hM
  unfold Dev.hearChannel
  try dsimp only
  repeat' split
  repeat' first | (with_reducible first | assumption | exact .refl _ | apply Dev.onPort_within | apply Within.ite) | extract_lets | exact rfl

theorem Dev.hearChannel_of {M : Nat} {d₀ d e : Dev} {m : Nat} {p : Nat} {c : Nat} {came : List Int} {a₀ : List Int} (hM : Sub 65536 M) (h : Within M d₀ d)
    (hx : d.hearChannel m p c came = (a₀, e)) : Within M d₀ e := by
  have g := Dev.hearChannel_snd hM h m p c came
  rwa [hx] at g

theorem execRtpPacketTransmit_within {stream : Fin 16} {first : Nat} {found : Found} {s t : State} (h : execRtpPacketTransmit stream first found s = .next t) :
    Within 98816 s.dev t.dev := by
  unfold execRtpPacketTransmit at h
  refine onDev_within h fun d => ?_
  repeat' first | (with_reducible first | assumption | exact .refl _ | apply Dev.classSend_within | apply Dev.drawn_within | apply Dev.onPort_within | apply Within.ite) | extract_lets | exact rfl

theorem execAes67Realign_within {stream : Fin 16} {s t : State} (h : execAes67Realign stream s = .next t) :
    Within 65536 s.dev t.dev := by
  unfold execAes67Realign at h
  refine onDev_within h fun d => ?_
  repeat' first | (with_reducible first | assumption | exact .refl _ | apply Dev.event_within | apply Dev.onPort_within | apply Within.ite) | extract_lets | exact rfl

end Sys2Proof.Machine
end

