-- ==== Sys2Proof/Laws/MixFrame.lean ====
section
/-! SUPPORT. What the operations of Machine/Mix.lean leave alone. -/
namespace Sys2Proof.Machine

theorem Dev.onMix_within {M : Nat} {d₀ d : Dev} (hM : Sub 131072 M) (hW : Within M d₀ d) (f : MixRt → MixRt) :
    Within M d₀ (d.onMix f) := by
  refine hW.step ?_ hM
  clear hW hM
  unfold Dev.onMix
  repeat' first | (with_reducible first | assumption | exact .refl _) | with_reducible apply Within.mix_set | exact rfl

theorem Dev.pushEnv_within {M : Nat} {d₀ d : Dev} (hM : Sub 131072 M) (hW : Within M d₀ d) (key : Nat) (m : Nat) (n : Nat) (len : Nat) (was : Nat → Int) (new : Assoc Int) :
    Within M d₀ (d.pushEnv key m n len was new) := by
  refine hW.step ?_ hM
  clear hW hM
  unfold Dev.pushEnv
  repeat' first | (with_reducible first | assumption | exact .refl _ | apply Dev.onMix_within) | extract_lets | exact rfl

theorem Dev.startRamp_within {M : Nat} {d₀ d : Dev} (hM : Sub 131072 M) (hW : Within M d₀ d) (k : Nat) (m : Nat) (j : Nat) (len : Nat) (pour : Nat) :
    Within M d₀ (d.startRamp k m j len pour) := by
  refine hW.step ?_ hM
  clear hW hM
  unfold Dev.startRamp
  repeat' first | (with_reducible first | assumption | exact .refl _ | apply Dev.onMix_within) | exact rfl

theorem Dev.shift_within {M : Nat} {d₀ d : Dev} (hM : Sub 131072 M) (hW : Within M d₀ d) (d0 : Dev) (k : Nat) (m : Nat) (j : Nat) (len : Nat) :
    Within M d₀ (d0.shift d k m j len) := by
  refine hW.step ?_ hM
  clear hW hM
  unfold Dev.shift
  repeat' first | (with_reducible first | assumption | exact .refl _ | apply Dev.pushEnv_within) | exact rfl

theorem Dev.stepped_within {M : Nat} {d₀ d : Dev} (hM : Sub 131072 M) (hW : Within M d₀ d) (d0 : Dev) (k : Nat) (t : Nat) :
    Within M d₀ (d0.stepped d k t) := by
  refine hW.step ?_ hM
  clear hW hM
  unfold Dev.stepped
  repeat' first | (with_reducible first | assumption | exact .refl _ | apply Dev.shift_within | apply Within.ite) | extract_lets | exact rfl

theorem Dev.setVoice_within {M : Nat} {d₀ d : Dev} (hM : Sub 131072 M) (hW : Within M d₀ d) (k : Nat) (v : Voice) :
    Within M d₀ (d.setVoice k v) := by
  refine hW.step ?_ hM
  clear hW hM
  unfold Dev.setVoice
  repeat' first | (with_reducible first | assumption | exact .refl _ | apply Dev.onMix_within | apply Within.ite) | exact rfl

theorem Dev.startVoices_within {M : Nat} {d₀ d : Dev} (hM : Sub 0 M) (hW : Within M d₀ d) (m : Nat) :
    Within M d₀ (d.startVoices m) := by
  refine hW.step ?_ hM
  clear hW hM
  unfold Dev.startVoices
  repeat' first | (with_reducible first | assumption | exact .refl _ | apply Dev.set_within | (apply Within.each ?_ (fun d x => ?_)) | apply Within.ite | split) | exact rfl

theorem execHostAudioBlock_within {strip : Fin 384} {s t : State} (h : execHostAudioBlock strip s = .next t) :
    Within 33685504 s.dev t.dev := by
  unfold execHostAudioBlock at h
  refine onDev_within h fun d => ?_
  repeat' first | (with_reducible first | assumption | exact .refl _ | apply Dev.bump_within | apply Dev.event_within | apply Dev.genDec_within | apply Dev.onMix_within | apply Dev.play_within | apply Dev.readItem_snd | apply Dev.violate_within | (apply Within.when ?_ (fun d => ?_)) | apply Within.ite | split) | refine Dev.readQueue_of rfl ?_ (by assumption) | refine Dev.readItem_of (by exact rfl) ?_ (by assumption) | extract_lets | exact rfl

theorem Dev.toneWritten_within {M : Nat} {d₀ d : Dev} (hM : Sub 131072 M) (hW : Within M d₀ d) (k : Nat) (sub : Nat) (t : Nat) :
    Within M d₀ (d.toneWritten k sub t) := by
  refine hW.step ?_ hM
  clear hW hM
  unfold Dev.toneWritten
  repeat' first | (with_reducible first | assumption | exact .refl _ | apply Dev.drawn_within | apply Dev.onMix_within | apply Within.ite | split) | extract_lets | exact rfl

theorem execToneCadenceTransition_within {tone : Fin 8} {s t : State} (h : execToneCadenceTransition tone s = .next t) :
    Within 131072 s.dev t.dev := by
  unfold execToneCadenceTransition at h
  refine onDev_within h fun d => ?_
  repeat' first | (with_reducible first | assumption | exact .refl _ | apply Dev.onMix_within | apply Dev.pushEnv_within | apply Dev.startRamp_within | apply Within.ite | split) | extract_lets | exact rfl

theorem Dev.play_within {M : Nat} {d₀ d : Dev} (hM : Sub 131072 M) (hW : Within M d₀ d) (k : Nat) :
    Within M d₀ (d.play k) := by
  refine hW.step ?_ hM
  clear hW hM
  unfold Dev.play
  repeat' first | (with_reducible first | assumption | exact .refl _ | apply Dev.onMix_within | apply Dev.set_within | apply Dev.setVoice_within | apply Within.ite) | extract_lets | exact rfl

theorem execVoicePlay_within {hd : Hdr} {cond : Option Nat} {voice : Fin 4} {s t : State} (h : execVoicePlay hd cond voice s = .next t) :
    Within 39977472 s.dev t.dev := by
  unfold execVoicePlay at h
  refine onDev_within h fun d => ?_
  repeat' first | (with_reducible first | assumption | exact .refl _ | apply Dev.play_within | refine Dev.writeReq_within ?_ ?_ (fun se n d => ?_)) | exact rfl

theorem Dev.stopVoice_within {M : Nat} {d₀ d : Dev} (hM : Sub 131072 M) (hW : Within M d₀ d) (k : Nat) :
    Within M d₀ (d.stopVoice k) := by
  refine hW.step ?_ hM
  clear hW hM
  unfold Dev.stopVoice
  repeat' first | (with_reducible first | assumption | exact .refl _ | apply Dev.pushEnv_within | apply Dev.setVoice_within | apply Dev.startRamp_within | apply Within.ite) | extract_lets | exact rfl

theorem execVoiceStop_within {hd : Hdr} {cond : Option Nat} {voice : Fin 4} {s t : State} (h : execVoiceStop hd cond voice s = .next t) :
    Within 39977472 s.dev t.dev := by
  unfold execVoiceStop at h
  refine onDev_within h fun d => ?_
  repeat' first | (with_reducible first | assumption | exact .refl _ | apply Dev.stopVoice_within | refine Dev.writeReq_within ?_ ?_ (fun se n d => ?_)) | exact rfl

theorem execVoiceClipEnd_within {voice : Fin 4} {s t : State} (h : execVoiceClipEnd voice s = .next t) :
    Within 131072 s.dev t.dev := by
  unfold execVoiceClipEnd at h
  refine onDev_within h fun d => ?_
  repeat' first | (with_reducible first | assumption | exact .refl _ | apply Dev.set_within | apply Dev.setVoice_within | apply Within.ite | split) | extract_lets | exact rfl

theorem Dev.discardControl_within {M : Nat} {d₀ d : Dev} (hM : Sub 0 M) (hW : Within M d₀ d) (c : Nat) :
    Within M d₀ (d.discardControl c) := by
  refine hW.step ?_ hM
  clear hW hM
  unfold Dev.discardControl
  repeat' first | (with_reducible first | assumption | exact .refl _ | apply Dev.bump_within | apply Dev.event_within) | exact rfl

theorem Dev.applyControl_within {M : Nat} {d₀ d : Dev} (hM : Sub 131072 M) (hW : Within M d₀ d) (c : Nat) (k : Nat) (v : Int) (m : Nat) (j : Nat) (len : Nat) :
    Within M d₀ (d.applyControl c k v m j len) := by
  refine hW.step ?_ hM
  clear hW hM
  unfold Dev.applyControl
  repeat' first | (with_reducible first | assumption | exact .refl _ | apply Dev.bump_within | apply Dev.bumpVer_within | apply Dev.onMix_within | apply Dev.set_within | apply Dev.shift_within | apply Dev.startRamp_within) | extract_lets | exact rfl

theorem Dev.steerControl_within {M : Nat} {d₀ d : Dev} (hM : Sub 131072 M) (hW : Within M d₀ d) (c : Nat) (k : Nat) (v : Int) :
    Within M d₀ (d.steerControl c k v) := by
  refine hW.step ?_ hM
  clear hW hM
  unfold Dev.steerControl
  repeat' first | (with_reducible first | assumption | exact .refl _ | apply Dev.applyControl_within | apply Dev.discardControl_within | apply Dev.onMix_within | apply Within.ite) | extract_lets | exact rfl

theorem execControlItem_within {bind : Fin 16} {s t : State} (h : execControlItem bind s = .next t) :
    Within 131072 s.dev t.dev := by
  unfold execControlItem at h
  refine onDev_within h fun d => ?_
  repeat' first | (with_reducible first | assumption | exact .refl _ | apply Dev.discardControl_within | apply Dev.genDec_within | apply Dev.onMix_within | apply Dev.readItem_snd | apply Dev.steerControl_within | (apply Within.when ?_ (fun d => ?_)) | apply Within.ite | split) | refine Dev.readQueue_of rfl ?_ (by assumption) | refine Dev.readItem_of (by exact rfl) ?_ (by assumption) | extract_lets | exact rfl

theorem bankObj_keeps {M : Nat} (hM : Sub 8388608 M) (k : Nat) : (bankObj k).Keeps M := by
  constructor
  · intro se b d
    refine Within.mono (M := 8388608) ?_ hM
    unfold bankObj
    repeat' first | (with_reducible first | assumption | exact .refl _ | apply Dev.drop_within | apply Dev.setBlob_within) | extract_lets | dsimp only | exact rfl
  · intro se r d
    exact .refl _

theorem execBfBankWrite_within {hd : Hdr} {payload : Bytes} {s t : State} (h : execBfBankWrite hd payload s = .next t) :
    Within 48235008 s.dev t.dev := by
  unfold execBfBankWrite at h
  refine onDev_within h fun d => ?_
  repeat' first | (with_reducible first | assumption | exact .refl _ | apply Dev.blockFrame_within) | exact fun _ => bankObj_keeps (by exact rfl) _ | exact rfl

theorem Dev.dropLane_within {M : Nat} {d₀ d : Dev} (hM : Sub 131072 M) (hW : Within M d₀ d) (lane : Nat) :
    Within M d₀ (d.dropLane lane) := by
  refine hW.step ?_ hM
  clear hW hM
  unfold Dev.dropLane
  repeat' first | (with_reducible first | assumption | exact .refl _ | apply Dev.event_within | apply Dev.onMix_within | apply Dev.play_within | apply Dev.setN_within | (apply Within.each ?_ (fun d x => ?_)) | apply Within.ite) | extract_lets | exact rfl

theorem Dev.mixReturns_within {M : Nat} {d₀ d : Dev} (hM : Sub 131072 M) (hW : Within M d₀ d) :
    Within M d₀ (d.mixReturns) := by
  refine hW.step ?_ hM
  clear hW hM
  unfold Dev.mixReturns
  repeat' first | (with_reducible first | assumption | exact .refl _ | apply Dev.onMix_within | apply Dev.pushEnv_within | apply Dev.startRamp_within | (apply Within.each ?_ (fun d x => ?_))) | extract_lets | exact rfl

end Sys2Proof.Machine
end

