-- ==== Sys2Proof/Laws/SignalsFrame.lean ====
section
/-! SUPPORT. What the operations of Machine/Signals.lean leave alone. -/
namespace Sys2Proof.Machine

theorem Dev.setSig_within {M : Nat} {d₀ d : Dev} (hM : Sub 131072 M) (hW : Within M d₀ d) (idx : Nat) (s : Sig) :
    Within M d₀ (d.setSig idx s) := by
  refine hW.step ?_ hM
  clear hW hM
  unfold Dev.setSig
  repeat' first | (with_reducible first | assumption | exact .refl _ | apply Dev.onMix_within) | exact rfl

theorem Dev.bfBlock_within {M : Nat} {d₀ d : Dev} (hM : Sub 131072 M) (hW : Within M d₀ d) (m : Nat) (n0 : Nat) :
    Within M d₀ (d.bfBlock m n0) := by
  refine hW.step ?_ hM
  clear hW hM
  unfold Dev.bfBlock
  repeat' first | (with_reducible first | assumption | exact .refl _ | apply Dev.onMix_within | apply Dev.setSig_within | (apply Within.each ?_ (fun d x => ?_)) | apply Within.ite) | exact rfl

theorem Dev.sourceBlock_snd {M : Nat} {d₀ d : Dev} (hM : Sub 65536 M) (h : Within M d₀ d) (m : Nat) (n0 : Nat) (b : DomIn) (kind : Nat) (sel : Nat) :
    Within M d₀ (d.sourceBlock m n0 b kind sel).2 := by
  refine h.step ?_ hM
  clear h hM
  unfold Dev.sourceBlock
  try dsimp only
  repeat' split
  repeat' first | (with_reducible first | assumption | exact .refl _ | apply Dev.hearChannel_snd | apply Within.ite) | refine Dev.hearChannel_of (by exact rfl) ?_ (by assumption) | extract_lets | exact rfl

theorem Dev.sourceBlock_of {M : Nat} {d₀ d e : Dev} {m : Nat} {n0 : Nat} {b : DomIn} {kind : Nat} {sel : Nat} {a₀ : List Int} (hM : Sub 65536 M) (h : Within M d₀ d)
    (hx : d.sourceBlock m n0 b kind sel = (a₀, e)) : Within M d₀ e := by
  have g := Dev.sourceBlock_snd hM h m n0 b kind sel
  rwa [hx] at g

theorem Dev.playQueue_snd {M : Nat} {d₀ d : Dev} (hM : Sub 131072 M) (h : Within M d₀ d) (m : Nat) (s : Nat) (q : Nat) :
    Within M d₀ (d.playQueue m s q).2 := by
  refine h.step ?_ hM
  clear h hM
  unfold Dev.playQueue
  try dsimp only
  repeat' split
  repeat' first | (with_reducible first | assumption | exact .refl _ | apply Dev.bumpBy_within | apply Dev.event_within | apply Dev.onMix_within | apply Dev.play_within | (apply Within.when ?_ (fun d => ?_)) | apply Within.ite) | extract_lets | exact rfl

theorem Dev.playQueue_of {M : Nat} {d₀ d e : Dev} {m : Nat} {s : Nat} {q : Nat} {a₀ : List Int} (hM : Sub 131072 M) (h : Within M d₀ d)
    (hx : d.playQueue m s q = (a₀, e)) : Within M d₀ e := by
  have g := Dev.playQueue_snd hM h m s q
  rwa [hx] at g

theorem Dev.takeSources_snd {M : Nat} {d₀ d : Dev} (hM : Sub 196608 M) (h : Within M d₀ d) (m : Nat) (n0 : Nat) (b : DomIn) (s : Nat) (got : Assoc (List Int)) :
    Within M d₀ (d.takeSources m n0 b s got).2 := by
  refine h.step ?_ hM
  clear h hM
  unfold Dev.takeSources
  refine Within.foldl (r := (got, d)) (.refl d) fun r x => ?_
  dsimp only
  split
  · exact .refl _
  · dsimp only
    split
    · exact Dev.playQueue_snd (by exact rfl) (.refl _) _ _ _
    · exact Dev.sourceBlock_snd (by exact rfl) (.refl _) _ _ _ _ _

theorem Dev.takeSources_of {M : Nat} {d₀ d e : Dev} {m : Nat} {n0 : Nat} {b : DomIn} {s : Nat} {got a₀ : Assoc (List Int)} (hM : Sub 196608 M)
    (h : Within M d₀ d) (hx : d.takeSources m n0 b s got = (a₀, e)) : Within M d₀ e := by
  have g := Dev.takeSources_snd hM h m n0 b s got
  rwa [hx] at g

theorem Dev.stripBlock_within {M : Nat} {d₀ d : Dev} (hM : Sub 196608 M) (hW : Within M d₀ d) (m : Nat) (n0 : Nat) (b : DomIn) (s : Nat) :
    Within M d₀ (d.stripBlock m n0 b s) := by
  refine hW.step ?_ hM
  clear hW hM
  unfold Dev.stripBlock
  repeat' first | (with_reducible first | assumption | exact .refl _ | apply Dev.setSig_within | apply Dev.takeSources_snd) | refine Dev.takeSources_of (by exact rfl) ?_ (by assumption) | extract_lets | exact rfl

theorem Dev.busBlock_within {M : Nat} {d₀ d : Dev} (hM : Sub 131072 M) (hW : Within M d₀ d) (m : Nat) (n0 : Nat) (b : Nat) :
    Within M d₀ (d.busBlock m n0 b) := by
  refine hW.step ?_ hM
  clear hW hM
  unfold Dev.busBlock
  repeat' first | (with_reducible first | assumption | exact .refl _ | apply Dev.setSig_within) | extract_lets | exact rfl

theorem Dev.routeBlock_within {M : Nat} {d₀ d : Dev} (hM : Sub 131072 M) (hW : Within M d₀ d) (m : Nat) (n0 : Nat) (r : Nat) (stamp : Nat) :
    Within M d₀ (d.routeBlock m n0 r stamp) := by
  refine hW.step ?_ hM
  clear hW hM
  unfold Dev.routeBlock
  repeat' first | (with_reducible first | assumption | exact .refl _ | apply Dev.bumpBy_within | apply Dev.emitItem_within | apply Dev.event_within | apply Dev.setSig_within | (apply Within.when ?_ (fun d => ?_)) | apply Within.ite) | extract_lets | exact rfl

theorem Dev.sendBiphase_within {M : Nat} {d₀ d : Dev} (hM : Sub 65536 M) (hW : Within M d₀ d) (p : Nat) :
    Within M d₀ (d.sendBiphase p) := by
  refine hW.step ?_ hM
  clear hW hM
  unfold Dev.sendBiphase
  repeat' first | (with_reducible first | assumption | exact .refl _ | apply Dev.send_within | apply Dev.onPort_within) | extract_lets | exact rfl

theorem Dev.sendAudio_within {M : Nat} {d₀ d : Dev} (hM : Sub 65536 M) (hW : Within M d₀ d) (m : Nat) :
    Within M d₀ (d.sendAudio m) := by
  refine hW.step ?_ hM
  clear hW hM
  unfold Dev.sendAudio
  repeat' first | (with_reducible first | assumption | exact .refl _ | apply Dev.sendBiphase_within | apply Dev.send_within | (apply Within.when ?_ (fun d => ?_)) | (apply Within.each ?_ (fun d x => ?_)) | apply Within.ite | split) | extract_lets | exact rfl

theorem Dev.portsHeard_within {M : Nat} {d₀ d : Dev} (hM : Sub 65536 M) (hW : Within M d₀ d) (m : Nat) :
    Within M d₀ (d.portsHeard m) := by
  refine hW.step ?_ hM
  clear hW hM
  unfold Dev.portsHeard
  repeat' first | (with_reducible first | assumption | exact .refl _ | apply Dev.onPort_within | (apply Within.each ?_ (fun d x => ?_))) | exact rfl

theorem Dev.mixTidy_within {M : Nat} {d₀ d : Dev} (hM : Sub 131072 M) (hW : Within M d₀ d) (m : Nat) (n0 : Nat) :
    Within M d₀ (d.mixTidy m n0) := by
  refine hW.step ?_ hM
  clear hW hM
  unfold Dev.mixTidy
  repeat' first | (with_reducible first | assumption | exact .refl _ | apply Dev.onMix_within | apply Dev.setVoice_within | (apply Within.each ?_ (fun d x => ?_)) | apply Within.ite | split) | extract_lets | exact rfl

theorem Dev.mixBlock_within {M : Nat} {d₀ d : Dev} (hM : Sub 196608 M) (hW : Within M d₀ d) (m : Nat) (b : DomIn) :
    Within M d₀ (d.mixBlock m b) := by
  refine hW.step ?_ hM
  clear hW hM
  unfold Dev.mixBlock
  repeat' first | (with_reducible first | assumption | exact .refl _ | apply Dev.bfBlock_within | apply Dev.busBlock_within | apply Dev.drawn_within | apply Dev.portsHeard_within | apply Dev.routeBlock_within | apply Dev.startVoices_within | apply Dev.stripBlock_within | (apply Within.each ?_ (fun d x => ?_))) | extract_lets | exact rfl

end Sys2Proof.Machine
end

