-- ==== Sys2Proof/Laws/AnalogFrame.lean ====
section
/-! SUPPORT. What the operations of Machine/Analog.lean leave alone. -/
namespace Sys2Proof.Machine

theorem Dev.onAna_within {M : Nat} {d₀ d : Dev} (hM : Sub 262144 M) (hW : Within M d₀ d) (f : Ana → Ana) :
    Within M d₀ (d.onAna f) := by
  refine hW.step ?_ hM
  clear hW hM
  unfold Dev.onAna
  repeat' first | (with_reducible first | assumption | exact .refl _) | with_reducible apply Within.ana_set | exact rfl

theorem Dev.refreshDac_within {M : Nat} {d₀ d : Dev} (hM : Sub 262144 M) (hW : Within M d₀ d) :
    Within M d₀ (d.refreshDac) := by
  refine hW.step ?_ hM
  clear hW hM
  unfold Dev.refreshDac
  repeat' first | (with_reducible first | assumption | exact .refl _ | apply Dev.onAna_within | apply Dev.set_within | (apply Within.each ?_ (fun d x => ?_)) | apply Within.ite) | extract_lets | exact rfl

theorem Dev.driveReleased_within {M : Nat} {d₀ d : Dev} (hM : Sub 256 M) (hW : Within M d₀ d) (ch : Nat) (code : Int) :
    Within M d₀ (d.driveReleased ch code) := by
  refine hW.step ?_ hM
  clear hW hM
  unfold Dev.driveReleased
  repeat' first | (with_reducible first | assumption | exact .refl _ | apply Dev.driveAnalog_within | apply Within.ite) | exact rfl

theorem Dev.followCode_within {M : Nat} {d₀ d : Dev} (hM : Sub 256 M) (hW : Within M d₀ d) (ch : Nat) :
    Within M d₀ (d.followCode ch) := by
  refine hW.step ?_ hM
  clear hW hM
  unfold Dev.followCode
  repeat' first | (with_reducible first | assumption | exact .refl _ | apply Dev.driveReleased_within) | exact rfl

theorem Dev.beginSettling_within {M : Nat} {d₀ d : Dev} (hM : Sub 262400 M) (hW : Within M d₀ d) (ch : Nat) (at_ : Nat) :
    Within M d₀ (d.beginSettling ch at_) := by
  refine hW.step ?_ hM
  clear hW hM
  unfold Dev.beginSettling
  repeat' first | (with_reducible first | assumption | exact .refl _ | apply Dev.followCode_within | apply Dev.onAna_within | apply Dev.set_within) | extract_lets | exact rfl

theorem Dev.anaStarts_within {M : Nat} {d₀ d : Dev} (hM : Sub 262400 M) (hW : Within M d₀ d) (ch : Nat) :
    Within M d₀ (d.anaStarts ch) := by
  refine hW.step ?_ hM
  clear hW hM
  unfold Dev.anaStarts
  repeat' first | (with_reducible first | assumption | exact .refl _ | apply Dev.beginSettling_within | apply Dev.set_within | apply Within.ite) | exact rfl

theorem Dev.dacLocked_within {M : Nat} {d₀ d : Dev} (hM : Sub 262144 M) (hW : Within M d₀ d) (ch : Nat) :
    Within M d₀ (d.dacLocked ch) := by
  refine hW.step ?_ hM
  clear hW hM
  unfold Dev.dacLocked
  repeat' first | (with_reducible first | assumption | exact .refl _ | apply Dev.onAna_within) | exact rfl

theorem Dev.dacCancel_within {M : Nat} {d₀ d : Dev} (hM : Sub 262656 M) (hW : Within M d₀ d) (ch : Nat) :
    Within M d₀ (d.dacCancel ch) := by
  refine hW.step ?_ hM
  clear hW hM
  unfold Dev.dacCancel
  repeat' first | (with_reducible first | assumption | exact .refl _ | apply Dev.onAna_within | apply Dev.set_within | apply Dev.unhold_within) | exact rfl

theorem Dev.dacBlock_within {M : Nat} {d₀ d : Dev} (hM : Sub 262400 M) (hW : Within M d₀ d) (m : Nat) :
    Within M d₀ (d.dacBlock m) := by
  refine hW.step ?_ hM
  clear hW hM
  unfold Dev.dacBlock
  repeat' first | (with_reducible first | assumption | exact .refl _ | apply Dev.beginSettling_within | apply Dev.driveReleased_within | apply Dev.onAna_within | apply Dev.set_within | (apply Within.each ?_ (fun d x => ?_)) | apply Within.ite | split) | extract_lets | exact rfl

theorem execDomainBlock_within {dom : Fin 3} {b : DomIn} {s t : State} (h : execDomainBlock dom b s = .next t) :
    Within 459008 s.dev t.dev := by
  unfold execDomainBlock at h
  refine onDev_within h fun d => ?_
  repeat' first | (with_reducible first | assumption | exact .refl _ | apply Dev.dacBlock_within | apply Dev.domainBlock_within | apply Dev.mixBlock_within | apply Dev.mixTidy_within | apply Dev.sendAudio_within | (apply Within.when ?_ (fun d => ?_)) | apply Within.ite) | extract_lets | exact rfl

theorem Dev.startChannel_within {M : Nat} {d₀ d : Dev} (hM : Sub 262912 M) (hW : Within M d₀ d) (ch : Nat) :
    Within M d₀ (d.startChannel ch) := by
  refine hW.step ?_ hM
  clear hW hM
  unfold Dev.startChannel
  repeat' first | (with_reducible first | assumption | exact .refl _ | apply Dev.anaStarts_within | apply Dev.hold_within | apply Dev.set_within | apply Within.ite) | exact rfl

theorem execAnalogStart_within {hd : Hdr} {cond : Option Nat} {ch : Fin 12} {s t : State} (h : execAnalogStart hd cond ch s = .next t) :
    Within 40108800 s.dev t.dev := by
  unfold execAnalogStart at h
  refine onDev_within h fun d => ?_
  repeat' first | (with_reducible first | assumption | exact .refl _ | apply Dev.startChannel_within | refine Dev.writeReq_within ?_ ?_ (fun se n d => ?_) | apply Within.ite) | exact rfl

theorem Dev.anaStops_within {M : Nat} {d₀ d : Dev} (hM : Sub 262912 M) (hW : Within M d₀ d) (ch : Nat) :
    Within M d₀ (d.anaStops ch) := by
  refine hW.step ?_ hM
  clear hW hM
  unfold Dev.anaStops
  repeat' first | (with_reducible first | assumption | exact .refl _ | apply Dev.anaRest_within | apply Dev.dacCancel_within | apply Within.ite) | exact rfl

theorem execAnalogStop_within {hd : Hdr} {cond : Option Nat} {ch : Fin 12} {s t : State} (h : execAnalogStop hd cond ch s = .next t) :
    Within 40108800 s.dev t.dev := by
  unfold execAnalogStop at h
  refine onDev_within h fun d => ?_
  repeat' first | (with_reducible first | assumption | exact .refl _ | apply Dev.anaStops_within | refine Dev.writeReq_within ?_ ?_ (fun se n d => ?_) | apply Within.ite) | exact rfl

theorem execSettleTimeExpiry_within {ch : Fin 12} {s t : State} (h : execSettleTimeExpiry ch s = .next t) :
    Within 262144 s.dev t.dev := by
  unfold execSettleTimeExpiry at h
  refine onDev_within h fun d => ?_
  repeat' first | (with_reducible first | assumption | exact .refl _ | apply Dev.onAna_within | apply Dev.set_within | apply Within.ite) | extract_lets | exact rfl

theorem Dev.readbackFault_within {M : Nat} {d₀ d : Dev} (hM : Sub 256 M) (hW : Within M d₀ d) (ch : Nat) (m1 : Nat) :
    Within M d₀ (d.readbackFault ch m1) := by
  refine hW.step ?_ hM
  clear hW hM
  unfold Dev.readbackFault
  repeat' first | (with_reducible first | assumption | exact .refl _ | apply Dev.analogSafe_within | apply Dev.bump_within | apply Dev.event_within | apply Dev.set_within) | extract_lets | exact rfl

theorem Dev.judgeWindow_within {M : Nat} {d₀ d : Dev} (hM : Sub 262400 M) (hW : Within M d₀ d) (means : List Nat) (devs : List Nat) (ch : Nat) :
    Within M d₀ (d.judgeWindow means devs ch) := by
  refine hW.step ?_ hM
  clear hW hM
  unfold Dev.judgeWindow
  repeat' first | (with_reducible first | assumption | exact .refl _ | apply Dev.onAna_within | apply Dev.readbackFault_within | apply Dev.setN_within | apply Within.ite | split) | extract_lets | exact rfl

theorem Dev.judgeRail_within {M : Nat} {d₀ d : Dev} (hM : Sub 262400 M) (hW : Within M d₀ d) (i : Nat) (ok : Bool) :
    Within M d₀ (d.judgeRail i ok) := by
  refine hW.step ?_ hM
  clear hW hM
  unfold Dev.judgeRail
  repeat' first | (with_reducible first | assumption | exact .refl _ | apply Dev.anaRest_within | apply Dev.event_within | apply Dev.onAna_within | (apply Within.each ?_ (fun d x => ?_)) | apply Within.ite) | extract_lets | exact rfl

theorem execReadbackWindowEnd_within {means : List Nat} {devs : List Nat} {rails : List Bool} {s t : State} (h : execReadbackWindowEnd means devs rails s = .next t) :
    Within 262400 s.dev t.dev := by
  unfold execReadbackWindowEnd at h
  refine onDev_within h fun d => ?_
  repeat' first | (with_reducible first | assumption | exact .refl _ | apply Dev.drawn_within | apply Dev.judgeRail_within | apply Dev.judgeWindow_within | apply Dev.onAna_within | apply Dev.setN_within | (apply Within.each ?_ (fun d x => ?_)) | apply Within.ite) | extract_lets | exact rfl

theorem execFaultClear_within {hd : Hdr} {cond : Option Nat} {ch : Fin 12} {s t : State} (h : execFaultClear hd cond ch s = .next t) :
    Within 39846400 s.dev t.dev := by
  unfold execFaultClear at h
  refine onDev_within h fun d => ?_
  repeat' first | (with_reducible first | assumption | exact .refl _ | apply Dev.set_within | refine Dev.writeReq_within ?_ ?_ (fun se n d => ?_)) | exact rfl

theorem execSafeValueWrite_within {hd : Hdr} {cond : Option Nat} {ch : Fin 12} {v : Bytes} {s t : State} (h : execSafeValueWrite hd cond ch v s = .next t) :
    Within 39846400 s.dev t.dev := by
  unfold execSafeValueWrite at h
  refine onDev_within h fun d => ?_
  repeat' first | (with_reducible first | assumption | exact .refl _ | refine Dev.writeStore_within ?_ ?_ (fun se n d => ?_) | apply Within.ite) | exact rfl

theorem execInjectionDone_within {detected : Nat} {s t : State} (h : execInjectionDone detected s = .next t) :
    Within 16777600 s.dev t.dev := by
  unfold execInjectionDone at h
  refine onDev_within h fun d => ?_
  repeat' first | (with_reducible first | assumption | exact .refl _ | apply Dev.followCode_within | apply Dev.injected_within | apply Dev.refreshChannels_within | apply Dev.set_within | apply Dev.toPhase_within | (apply Within.each ?_ (fun d x => ?_)) | apply Within.ite) | extract_lets | exact rfl

theorem Dev.codeChanged_within {M : Nat} {d₀ d : Dev} (hM : Sub 262400 M) (hW : Within M d₀ d) (ch : Nat) :
    Within M d₀ (d.codeChanged ch) := by
  refine hW.step ?_ hM
  clear hW hM
  unfold Dev.codeChanged
  repeat' first | (with_reducible first | assumption | exact .refl _ | apply Dev.beginSettling_within | apply Dev.followCode_within | apply Within.ite) | exact rfl

theorem Dev.setpointChanged_within {M : Nat} {d₀ d : Dev} (hM : Sub 262400 M) (hW : Within M d₀ d) (ch : Nat) :
    Within M d₀ (d.setpointChanged ch) := by
  refine hW.step ?_ hM
  clear hW hM
  unfold Dev.setpointChanged
  repeat' first | (with_reducible first | assumption | exact .refl _ | apply Dev.codeChanged_within | apply Within.ite) | exact rfl

theorem Dev.routeSourceChanged_within {M : Nat} {d₀ d : Dev} (hM : Sub 262400 M) (hW : Within M d₀ d) (r : Nat) :
    Within M d₀ (d.routeSourceChanged r) := by
  refine hW.step ?_ hM
  clear hW hM
  unfold Dev.routeSourceChanged
  repeat' first | (with_reducible first | assumption | exact .refl _ | apply Dev.codeChanged_within | apply Within.ite) | extract_lets | exact rfl

theorem Dev.anaQuiesced_within {M : Nat} {d₀ d : Dev} (hM : Sub 262912 M) (hW : Within M d₀ d) :
    Within M d₀ (d.anaQuiesced) := by
  refine hW.step ?_ hM
  clear hW hM
  unfold Dev.anaQuiesced
  repeat' first | (with_reducible first | assumption | exact .refl _ | apply Dev.anaRest_within | apply Dev.dacCancel_within | (apply Within.each ?_ (fun d x => ?_)) | (apply Within.when ?_ (fun d => ?_))) | extract_lets | exact rfl

theorem Dev.beaconItem_within {M : Nat} {d₀ d : Dev} (hM : Sub 0 M) (hW : Within M d₀ d) (b : Nat) (start : Nat) (bad : Bool) (data : Bytes) :
    Within M d₀ (d.beaconItem b start bad data) := by
  refine hW.step ?_ hM
  clear hW hM
  unfold Dev.beaconItem
  repeat' first | (with_reducible first | assumption | exact .refl _ | apply Dev.emitItem_within) | exact rfl

theorem execBeaconFrame_within {rcv : Fin 2} {start : Nat} {frame : Nat} {amplitude : Nat} {ambient : Nat} {s t : State} (h : execBeaconFrame rcv start frame amplitude ambient s = .next t) :
    Within 0 s.dev t.dev := by
  unfold execBeaconFrame at h
  refine onDev_within h fun d => ?_
  repeat' first | (with_reducible first | assumption | exact .refl _ | apply Dev.beaconItem_within | apply Dev.bump_within | apply Dev.event_within | apply Dev.handover_within | apply Dev.set_within | apply Dev.setN_within | (apply Within.when ?_ (fun d => ?_)) | apply Within.ite | split) | extract_lets | exact rfl

theorem execBeaconFlood_within {rcv : Fin 2} {onset : Nat} {ambient : Nat} {inFrame : Bool} {s t : State} (h : execBeaconFlood rcv onset ambient inFrame s = .next t) :
    Within 0 s.dev t.dev := by
  unfold execBeaconFlood at h
  refine onDev_within h fun d => ?_
  repeat' first | (with_reducible first | assumption | exact .refl _ | apply Dev.bump_within | apply Dev.event_within | apply Dev.set_within | apply Dev.setN_within | (apply Within.when ?_ (fun d => ?_)) | apply Within.ite) | extract_lets | exact rfl

theorem Dev.beaconClean_within {M : Nat} {d₀ d : Dev} (hM : Sub 262144 M) (hW : Within M d₀ d) (b : Nat) :
    Within M d₀ (d.beaconClean b) := by
  refine hW.step ?_ hM
  clear hW hM
  unfold Dev.beaconClean
  repeat' first | (with_reducible first | assumption | exact .refl _ | apply Dev.onAna_within | apply Dev.set_within) | exact rfl

theorem execBeaconFloodEnd_within {rcv : Fin 2} {s t : State} (h : execBeaconFloodEnd rcv s = .next t) :
    Within 262144 s.dev t.dev := by
  unfold execBeaconFloodEnd at h
  refine onDev_within h fun d => ?_
  repeat' first | (with_reducible first | assumption | exact .refl _ | apply Dev.beaconClean_within | apply Dev.event_within | apply Within.ite) | extract_lets | exact rfl

theorem execBeaconViolation_within {rcv : Fin 2} {inFrame : Bool} {s t : State} (h : execBeaconViolation rcv inFrame s = .next t) :
    Within 262144 s.dev t.dev := by
  unfold execBeaconViolation at h
  refine onDev_within h fun d => ?_
  repeat' first | (with_reducible first | assumption | exact .refl _ | apply Dev.beaconClean_within | apply Dev.bump_within | apply Dev.event_within | (apply Within.when ?_ (fun d => ?_)) | apply Within.ite) | extract_lets | exact rfl

theorem execBeaconResync_within {rcv : Fin 2} {s t : State} (h : execBeaconResync rcv s = .next t) :
    Within 262144 s.dev t.dev := by
  unfold execBeaconResync at h
  refine onDev_within h fun d => ?_
  repeat' first | (with_reducible first | assumption | exact .refl _ | apply Dev.onAna_within | apply Dev.set_within | apply Within.ite) | extract_lets | exact rfl

theorem Dev.beaconWritten_within {M : Nat} {d₀ d : Dev} (hM : Sub 262144 M) (hW : Within M d₀ d) (b : Nat) :
    Within M d₀ (d.beaconWritten b) := by
  refine hW.step ?_ hM
  clear hW hM
  unfold Dev.beaconWritten
  repeat' first | (with_reducible first | assumption | exact .refl _ | apply Dev.onAna_within | apply Dev.set_within | apply Within.ite) | exact rfl

end Sys2Proof.Machine
end

