-- ==== Sys2Proof/Laws/Booked.lean ====
section
/-! SUPPORT. Logging, queueing, handovers, answers and the checks of a request move bookkeeping objects alone: every other
register keeps its value. -/
namespace Sys2Proof.Machine

/-- Registers outside the bookkeeping objects are equal. -/
def Booked (d d' : Dev) : Prop := ∀ k, ¬ BookKey k → d'.reg k = d.reg k

theorem Booked.refl (d : Dev) : Booked d d := fun _ _ => rfl

theorem Booked.trans {a b c : Dev} (h : Booked a b) (k : Booked b c) : Booked a c := fun x hx => (k x hx).trans (h x hx)

theorem Booked.set {a d : Dev} {k : Nat} (h : Booked a d) (hk : BookKey k) (v : Int) : Booked a (d.set k v) := fun x hx => by
  rw [Dev.reg_set, if_neg (fun e : x = k => hx (e ▸ hk)), h x hx]

theorem Booked.setN {a d : Dev} {k : Nat} (h : Booked a d) (hk : BookKey k) (v : Nat) : Booked a (d.setN k v) := h.set hk _

theorem Booked.setB {a d : Dev} {k : Nat} (h : Booked a d) (hk : BookKey k) (v : Bool) : Booked a (d.setB k v) := h.set hk _

theorem Booked.bumpBy {a d : Dev} {k : Nat} (h : Booked a d) (hk : BookKey k) (n : Nat) : Booked a (d.bumpBy k n) := h.set hk _

theorem Booked.bump {a d : Dev} {k : Nat} (h : Booked a d) (hk : BookKey k) : Booked a (d.bump k) := h.bumpBy hk 1

theorem Booked.drop {a d : Dev} {k : Nat} (h : Booked a d) (hk : BookKey k) : Booked a (d.drop k) := h.set hk _

theorem Booked.ite {a b c : Dev} {p : Prop} [Decidable p] (h : Booked a b) (k : Booked a c) : Booked a (if p then b else c) := by
  split <;> assumption

theorem Booked.when {a d : Dev} {b : Bool} {f : Dev → Dev} (h : Booked a d) (k : ∀ d, Booked d (f d)) : Booked a (d.when b f) :=
  .ite (h.trans (k d)) h

theorem Booked.each {α : Type} {a d : Dev} {l : List α} {f : Dev → α → Dev} (h : Booked a d) (k : ∀ d x, Booked d (f d x)) :
    Booked a (d.each l f) := by
  unfold Dev.each
  induction l generalizing d with
  | nil => exact h
  | cons x l ih => exact ih (h.trans (k d x))

theorem Dev.bumpVer_booked {d₀ d : Dev} (h : Booked d₀ d) (k : Nat) : Booked d₀ (d.bumpVer k) := h

theorem Booked.queues_set {a d : Dev} {x} (h : Booked a d) : Booked a { d with queues := x } := h

theorem Booked.log_set {a d : Dev} {x} (h : Booked a d) : Booked a { d with log := x } := h

theorem Booked.partners_set {a d : Dev} {x} (h : Booked a d) : Booked a { d with partners := x } := h

theorem Booked.handAt_set {a d : Dev} {x} (h : Booked a d) : Booked a { d with handAt := x } := h

theorem Booked.tu_set {a d : Dev} {x} (h : Booked a d) : Booked a { d with tu := x } := h

theorem Booked.virek_set {a d : Dev} {x} (h : Booked a d) : Booked a { d with virek := x } := h

theorem Booked.dict_set {a d : Dev} {x} (h : Booked a d) : Booked a { d with dict := x } := h

theorem Booked.mbox_set {a d : Dev} {x} (h : Booked a d) : Booked a { d with mbox := x } := h

theorem Booked.out_set {a d : Dev} {x} (h : Booked a d) : Booked a { d with out := x } := h

theorem Dev.setQ_booked {d₀ d : Dev} (hW : Booked d₀ d) (q : Nat) (r : QueueRt) :
    Booked d₀ (d.setQ q r) := by
  unfold Dev.setQ
  repeat' first | (with_reducible first | assumption | exact .refl _ | apply Booked.ite) | with_reducible apply Booked.queues_set | decide | (simp only [BookKey]; omega)

theorem Dev.refreshAlive_booked {d₀ d : Dev} (hW : Booked d₀ d) :
    Booked d₀ (d.refreshAlive) := by
  unfold Dev.refreshAlive
  repeat' first | (with_reducible first | assumption | exact .refl _ | (with_reducible refine Booked.setN ?_ ?_ _)) | decide | (simp only [BookKey, Ob.generationsAlive]; omega)

theorem Dev.setCopies_booked {d₀ d : Dev} (hW : Booked d₀ d) (it : Item) (n : Nat) : Booked d₀ (d.setCopies it n) := hW

theorem Dev.genInc_booked {d₀ d : Dev} (hW : Booked d₀ d) (it : Item) :
    Booked d₀ (d.genInc it) := by
  unfold Dev.genInc
  repeat' first | (with_reducible first | assumption | exact .refl _ | (with_reducible refine Booked.bump ?_ ?_) | apply Dev.refreshAlive_booked | apply Dev.setCopies_booked | apply Booked.ite) | extract_lets | decide | (simp only [BookKey, Ob.genOutstanding]; omega)

theorem Dev.genDec_booked {d₀ d : Dev} (hW : Booked d₀ d) (it : Item) :
    Booked d₀ (d.genDec it) := by
  unfold Dev.genDec
  repeat' first | (with_reducible first | assumption | exact .refl _ | (with_reducible refine Booked.drop ?_ ?_) | apply Dev.refreshAlive_booked | apply Dev.setCopies_booked | apply Booked.ite) | extract_lets | decide | (simp only [BookKey, Ob.genOutstanding]; omega)

theorem Dev.refreshQ_booked {d₀ d : Dev} (hW : Booked d₀ d) (q : Nat) :
    Booked d₀ (d.refreshQ q) := by
  unfold Dev.refreshQ
  repeat' first | (with_reducible first | assumption | exact .refl _ | (with_reducible refine Booked.setN ?_ ?_ _) | split) | extract_lets | decide | (simp only [BookKey, inst, Ob.qCellsHeld, Ob.qDepth, Ob.qOldestStamp]; omega)

theorem Dev.takeCells_booked {d₀ d : Dev} (hW : Booked d₀ d) (n : Nat) :
    Booked d₀ (d.takeCells n) := by
  unfold Dev.takeCells
  repeat' first | (with_reducible first | assumption | exact .refl _ | (with_reducible refine Booked.setN ?_ ?_ _)) | extract_lets | decide | (simp only [BookKey, Ob.carafeFree, Ob.carafeLowWater]; omega)

theorem Dev.giveCells_booked {d₀ d : Dev} (hW : Booked d₀ d) (n : Nat) :
    Booked d₀ (d.giveCells n) := by
  unfold Dev.giveCells
  repeat' first | (with_reducible first | assumption | exact .refl _ | (with_reducible refine Booked.setN ?_ ?_ _)) | decide | (simp only [BookKey, Ob.carafeFree]; omega)

theorem Dev.unqueue_booked {d₀ d : Dev} (hW : Booked d₀ d) (q : Nat) (it : Item) :
    Booked d₀ (d.unqueue q it) := by
  unfold Dev.unqueue
  repeat' first | (with_reducible first | assumption | exact .refl _ | apply Dev.giveCells_booked | apply Dev.setQ_booked) | extract_lets | decide | (simp only [BookKey]; omega)

theorem Dev.countDrop_booked {d₀ d : Dev} (hW : Booked d₀ d) (q : Nat) (it : Item) :
    Booked d₀ (d.countDrop q it) := by
  unfold Dev.countDrop
  repeat' first | (with_reducible first | assumption | exact .refl _ | (with_reducible refine Booked.bump ?_ ?_) | apply Dev.genDec_booked | (apply Booked.when ?_ (fun d => ?_))) | decide | (simp only [BookKey, inst, Ob.qDropped]; omega)

theorem Dev.admitItem_booked {d₀ d : Dev} (hW : Booked d₀ d) (q : Nat) (it : Item) :
    Booked d₀ (d.admitItem q it) := by
  unfold Dev.admitItem
  repeat' first | (with_reducible first | assumption | exact .refl _ | (with_reducible refine Booked.bump ?_ ?_) | apply Dev.setQ_booked | apply Dev.takeCells_booked | apply Booked.ite) | extract_lets | decide | (simp only [BookKey, inst, Ob.qEnqueued]; omega)

theorem Dev.makeRoom_booked (d : Dev) (q : Nat) (it : Item) (fuel n : Nat) : Booked d (d.makeRoom q it fuel n).1 := by
  induction fuel generalizing d n with
  | zero => exact .refl _
  | succ fuel ih =>
    rw [Dev.makeRoom]
    split
    · exact Dev.admitItem_booked (.refl _) _ _
    · split
      · exact .refl _
      · split
        · exact .refl _
        · exact (Dev.countDrop_booked (Dev.unqueue_booked (.refl _) _ _) _ _).trans (ih _ _)

theorem Dev.absentReply_booked {d₀ d : Dev} (hW : Booked d₀ d) (i : Nat) : Booked d₀ (d.absentReply i) := by
  unfold Dev.absentReply
  split
  · refine Booked.bump hW ?_
    simp only [BookKey, Ob.islAbsentReplies]
    omega
  · exact hW

theorem Dev.enqueueCore_booked {a d : Dev} (h : Booked a d) (q : Nat) (it : Item) : Booked a (d.enqueueCore q it).dev := by
  refine h.trans ?_
  clear h
  unfold Dev.enqueueCore
  split
  · exact Dev.absentReply_booked (.refl _) _
  · split
    · exact Dev.refreshQ_booked (.bump (.refl _) (by simp only [BookKey, inst, Ob.qDropped]; omega)) _
    · dsimp only
      apply Dev.refreshQ_booked
      have k := Dev.makeRoom_booked (d.when (d.holdsGen q) fun d => d.genInc it) q it
      have g : Booked d (d.when (d.holdsGen q) fun d => d.genInc it) :=
        .when (.refl _) fun d => Dev.genInc_booked (.refl _) _
      split
      · exact g.trans (k _ _)
      · exact Dev.countDrop_booked (g.trans (k _ _)) _ _

theorem Dev.dequeue_booked {a d e : Dev} {q : Nat} {it : Item} (h : Booked a d)
    (k : d.dequeue q = some (it, e)) : Booked a e := by
  unfold Dev.dequeue at k
  split at k
  · cases k
  · simp only [Option.some.injEq, Prod.mk.injEq] at k
    obtain ⟨-, rfl⟩ := k
    exact Dev.refreshQ_booked (Dev.setQ_booked (Dev.unqueue_booked h _ _) _ _) _

theorem Dev.logRing_booked {d₀ d : Dev} (hW : Booked d₀ d) (ev : Ev) :
    Booked d₀ (d.logRing ev) := by
  unfold Dev.logRing
  repeat' first | (with_reducible first | assumption | exact .refl _ | (with_reducible refine Booked.bump ?_ ?_) | apply Dev.nextSeq_booked | (with_reducible refine Booked.setN ?_ ?_ _) | (apply Booked.when ?_ (fun d => ?_)) | apply Booked.ite) | extract_lets | with_reducible apply Booked.log_set | decide | (simp only [BookKey, Ob.logEntries, Ob.logNewestSeq, Ob.logOverwritten, Ob.mirrorDropped, Ob.mirrorEntries, Ob.mirrorWritten]; omega)

theorem Dev.postEvent_booked {d₀ d : Dev} (hW : Booked d₀ d) (p : Nat) (it : Item) :
    Booked d₀ (d.postEvent p it) := by
  unfold Dev.postEvent
  repeat' first | (with_reducible first | assumption | exact .refl _ | (with_reducible refine Booked.bumpBy ?_ ?_ _) | apply Booked.ite) | apply Dev.enqueueCore_booked | extract_lets | decide | (simp only [BookKey, Ob.eventsLost, Ob.partEventQueue]; omega)

theorem Dev.event_booked {d₀ d : Dev} (hW : Booked d₀ d) (ev : Ev) :
    Booked d₀ (d.event ev) := by
  unfold Dev.event
  repeat' first | (with_reducible first | assumption | exact .refl _ | apply Dev.logRing_booked | apply Dev.postEvent_booked | (apply Booked.each ?_ (fun d x => ?_)) | (apply Booked.when ?_ (fun d => ?_))) | extract_lets | decide | (simp only [BookKey, Ob.partEventRanges]; omega)

theorem Dev.enqueue_booked {d₀ d : Dev} (hW : Booked d₀ d) (q : Nat) (it : Item) :
    Booked d₀ (d.enqueue q it) := by
  unfold Dev.enqueue
  repeat' first | (with_reducible first | assumption | exact .refl _ | apply Dev.event_booked | apply Dev.setQ_booked | (apply Booked.when ?_ (fun d => ?_)) | apply Booked.ite | split) | apply Dev.enqueueCore_booked | extract_lets | decide | (simp only [BookKey]; omega)

theorem Dev.peerEntry_booked {a d e : Dev} {ip port : Nat} {r : Option Nat} (h : Booked a d)
    (k : d.peerEntry ip port = (r, e)) : Booked a e := by
  unfold Dev.peerEntry at k
  dsimp only at k
  repeat' split at k
  all_goals
    obtain ⟨-, rfl⟩ := Prod.mk.inj k
    exact h

theorem Dev.whoId_booked {a d e : Dev} {w : Who} {r : Option Nat} (h : Booked a d) (k : d.whoId w = (r, e)) : Booked a e := by
  unfold Dev.whoId at k
  split at k
  · split at k
    all_goals
      obtain ⟨-, rfl⟩ := Prod.mk.inj k
      exact h
  · exact Dev.peerEntry_booked h k

theorem Dev.onPartner_booked {d₀ d : Dev} (h : Booked d₀ d) (id : Nat) (f : Partner → Partner) :
    Booked d₀ (d.onPartner id f) := h

theorem Dev.partViol_booked {d₀ d : Dev} (hW : Booked d₀ d) (id : Nat) :
    Booked d₀ (d.partViol id) := by
  unfold Dev.partViol
  repeat' first | (with_reducible first | assumption | exact .refl _ | (with_reducible refine Booked.bump ?_ ?_) | apply Booked.ite) | decide | (simp only [BookKey, Ob.partViolations]; omega)

theorem Dev.violate_booked {d₀ d : Dev} (hW : Booked d₀ d) (who : Who) (mk : Nat → Ev) :
    Booked d₀ (d.violate who mk) := by
  unfold Dev.violate
  repeat' first | (with_reducible first | assumption | exact .refl _ | (with_reducible refine Booked.bump ?_ ?_) | apply Dev.event_booked | apply Dev.onPartner_booked | apply Dev.partViol_booked | apply Booked.ite | split) | refine Dev.whoId_booked ?_ (by assumption) | extract_lets | decide | (simp only [BookKey, Ob.partnerTableFull, Ob.partnersQuarantined, Ob.quarantineThreshold, Ob.quarantineTime, Ob.quarantineWindow, Ob.quarantines]; omega)

theorem Dev.quarantineDrop_booked {d₀ d : Dev} (hW : Booked d₀ d) (id : Nat) :
    Booked d₀ (d.quarantineDrop id) := by
  unfold Dev.quarantineDrop
  repeat' first | (with_reducible first | assumption | exact .refl _ | apply Dev.onPartner_booked) | decide | (simp only [BookKey]; omega)

theorem Dev.quarantineEnd_booked {d₀ d : Dev} (hW : Booked d₀ d) (id : Nat) :
    Booked d₀ (d.quarantineEnd id) := by
  unfold Dev.quarantineEnd
  repeat' first | (with_reducible first | assumption | exact .refl _ | (with_reducible refine Booked.drop ?_ ?_) | apply Dev.event_booked | apply Dev.onPartner_booked | apply Booked.ite | split) | extract_lets | decide | (simp only [BookKey, Ob.partnersQuarantined]; omega)

theorem Dev.pointEvent_booked {d₀ d : Dev} (hW : Booked d₀ d) (point : Nat) (slot : Nat) (ev : Ev) :
    Booked d₀ (d.pointEvent point slot ev) := by
  unfold Dev.pointEvent
  repeat' first | (with_reducible first | assumption | exact .refl _ | apply Dev.event_booked | apply Booked.ite | split) | extract_lets | with_reducible apply Booked.handAt_set | decide | (simp only [BookKey]; omega)

theorem Dev.handover_booked {d₀ d : Dev} (hW : Booked d₀ d) (point : Nat) (iface : Nat) (src : Nat) (num : Nat) (f : Found) (hp : point < 16) :
    Booked d₀ (d.handover point iface src num f) := by
  unfold Dev.handover
  repeat' first | (with_reducible first | assumption | exact .refl _ | (with_reducible refine Booked.bump ?_ ?_) | (with_reducible refine Booked.bumpBy ?_ ?_ _) | apply Dev.pointEvent_booked | (apply Booked.when ?_ (fun d => ?_)) | apply Booked.ite | split) | extract_lets | decide | (simp only [BookKey, Ob.pointBadCount, Ob.pointCocOnly, Ob.pointEccCorrected, Ob.pointEccUncorrectable, Ob.pointUnprovenCount]; omega)

theorem Dev.countFcs_booked {d₀ d : Dev} (hW : Booked d₀ d) (port : Nat) (f : Found) :
    Booked d₀ (d.countFcs port f) := by
  unfold Dev.countFcs
  repeat' first | (with_reducible first | assumption | exact .refl _ | (with_reducible refine Booked.bump ?_ ?_) | (apply Booked.when ?_ (fun d => ?_))) | decide | (simp only [BookKey, Ob.ethFcsErrors]; omega)

theorem Dev.recordCheck_booked {a d e : Dev} {point q : Nat} {it : Item} {f : Found} {r : Option Item}
    (h : Booked a d) (hp : point < 16) (k : d.recordCheck point q it f = (r, e)) : Booked a e := by
  unfold Dev.recordCheck at k
  split at k
  all_goals
    obtain ⟨-, rfl⟩ := Prod.mk.inj k
    repeat' first | (with_reducible first | exact h | exact hp | exact .refl _ | apply Dev.handover_booked | apply Dev.pointEvent_booked | (with_reducible refine Booked.bump ?_ ?_) | (with_reducible refine Booked.bumpBy ?_ ?_ _) | apply Booked.when ?_ (fun d => ?_)) | decide | (simp only [BookKey, Ob.pointEccCorrected, Ob.pointEccUncorrectable, Ob.pointBadCount, Ob.recordsDiscarded]; omega)

theorem Dev.send_booked {d₀ d : Dev} (h : Booked d₀ d) (o : Output) : Booked d₀ (d.send o) := h

theorem Dev.onTu_booked {d₀ d : Dev} (h : Booked d₀ d) (f : Tu → Tu) : Booked d₀ (d.onTu f) := h

theorem Dev.onVirek_booked {d₀ d : Dev} (h : Booked d₀ d) (f : Virek → Virek) : Booked d₀ (d.onVirek f) := h

theorem Dev.onSession_booked {d₀ d : Dev} (h : Booked d₀ d) (sid : Nat) (f : Session → Session) :
    Booked d₀ (d.onSession sid f) := h

theorem Dev.hold_booked {d₀ d : Dev} (hW : Booked d₀ d) (syn : Nat) (cmd : HeldCmd) :
    Booked d₀ (d.hold syn cmd) := by
  unfold Dev.hold
  repeat' first | (with_reducible first | assumption | exact .refl _ | (with_reducible refine Booked.bump ?_ ?_) | apply Dev.event_booked | apply Dev.onTu_booked) | decide | (simp only [BookKey, Ob.deferredCount]; omega)

theorem Dev.unhold_booked {d₀ d : Dev} (hW : Booked d₀ d) (c : HeldCmd) :
    Booked d₀ (d.unhold c) := by
  unfold Dev.unhold
  repeat' first | (with_reducible first | assumption | exact .refl _ | apply Dev.onTu_booked) | decide | (simp only [BookKey]; omega)

theorem Dev.ethOut_booked {d₀ d : Dev} (hW : Booked d₀ d) (port : Nat) (o : Output) :
    Booked d₀ (d.ethOut port o) := by
  unfold Dev.ethOut
  repeat' first | (with_reducible first | assumption | exact .refl _ | (with_reducible refine Booked.bump ?_ ?_) | apply Dev.hold_booked | apply Dev.send_booked | apply Booked.ite) | decide | (simp only [BookKey, Ob.ethFramesTx]; omega)

theorem Dev.ethSend_booked {d₀ d : Dev} (hW : Booked d₀ d) (port : Nat) (kind : FrameKind) (fields : List Int) (payload : Bytes) :
    Booked d₀ (d.ethSend port kind fields payload) := by
  unfold Dev.ethSend
  repeat' first | (with_reducible first | assumption | exact .refl _ | apply Dev.ethOut_booked) | decide | (simp only [BookKey]; omega)

theorem Dev.onConn_booked {d₀ d : Dev} (hW : Booked d₀ d) (slot : Nat) (f : Conn → Conn) :
    Booked d₀ (d.onConn slot f) := by
  unfold Dev.onConn
  repeat' first | (with_reducible first | assumption | exact .refl _ | apply Dev.onVirek_booked | split) | decide | (simp only [BookKey]; omega)

theorem Dev.virekEvent_booked {d₀ d : Dev} (hW : Booked d₀ d) (p : Nat) (ev : Ev) :
    Booked d₀ (d.virekEvent p ev) := by
  unfold Dev.virekEvent
  repeat' first | (with_reducible first | assumption | exact .refl _ | apply Dev.event_booked | apply Dev.postEvent_booked | (apply Booked.when ?_ (fun d => ?_))) | extract_lets | decide | (simp only [BookKey, Ob.partEventRanges]; omega)

theorem Dev.closeConn_booked {d₀ d : Dev} (hW : Booked d₀ d) (slot : Nat) (cause : CloseCause) :
    Booked d₀ (d.closeConn slot cause) := by
  unfold Dev.closeConn
  repeat' first | (with_reducible first | assumption | exact .refl _ | (with_reducible refine Booked.drop ?_ ?_) | apply Dev.onVirek_booked | apply Dev.virekEvent_booked | split) | extract_lets | decide | (simp only [BookKey, Ob.virekConnectionsOpen]; omega)

theorem Dev.closeConns_booked {d₀ d : Dev} (hW : Booked d₀ d) (cause : CloseCause) (f : Conn → Bool) :
    Booked d₀ (d.closeConns cause f) := by
  unfold Dev.closeConns
  repeat' first | (with_reducible first | assumption | exact .refl _ | apply Dev.closeConn_booked | (apply Booked.each ?_ (fun d x => ?_))) | decide | (simp only [BookKey]; omega)

theorem Dev.connNotice_booked {d₀ d : Dev} (hW : Booked d₀ d) (k : Nat) (code : Nat) (d2 : Int) :
    Booked d₀ (d.connNotice k code d2) := by
  unfold Dev.connNotice
  repeat' first | (with_reducible first | assumption | exact .refl _ | apply Dev.virekEvent_booked | (apply Booked.each ?_ (fun d x => ?_))) | decide | (simp only [BookKey, Ob.vpVirekClass]; omega)

theorem Dev.post_booked {d₀ d : Dev} (hW : Booked d₀ d) (c : Carrier) (port : Nat) (o : Output) :
    Booked d₀ (d.post c port o) := by
  unfold Dev.post
  repeat' first | (with_reducible first | assumption | exact .refl _ | apply Dev.ethOut_booked | apply Dev.send_booked | apply Booked.ite | split) | extract_lets | with_reducible apply Booked.mbox_set | decide | (simp only [BookKey]; omega)

theorem Dev.plainAnswer_booked {d₀ d : Dev} (hW : Booked d₀ d) (hd : Hdr) (a : Ans) :
    Booked d₀ (d.plainAnswer hd a) := by
  unfold Dev.plainAnswer
  repeat' first | (with_reducible first | assumption | exact .refl _ | apply Dev.post_booked) | decide | (simp only [BookKey]; omega)

theorem Dev.endSession_booked {d₀ d : Dev} (hW : Booked d₀ d) (sid : Nat) (cause : EndCause) :
    Booked d₀ (d.endSession sid cause) := by
  unfold Dev.endSession
  repeat' first | (with_reducible first | assumption | exact .refl _ | (with_reducible refine Booked.drop ?_ ?_) | apply Dev.event_booked | (apply Booked.each ?_ (fun d x => ?_)) | split) | extract_lets | with_reducible apply Booked.dict_set | decide | (simp only [BookKey, Ob.partActiveSessions, Ob.sessionsOpen]; omega)

theorem Dev.sessionAnswer_booked {d₀ d : Dev} (hW : Booked d₀ d) (se : Session) (tag : Nat) (op : Nat) (seg : Nat) (more : Bool) (a : Ans) :
    Booked d₀ (d.sessionAnswer se tag op seg more a) := by
  unfold Dev.sessionAnswer
  repeat' first | (with_reducible first | assumption | exact .refl _ | apply Dev.endSession_booked | apply Dev.onSession_booked | apply Dev.post_booked | apply Booked.ite | split) | extract_lets | decide | (simp only [BookKey]; omega)

theorem Dev.sendSegments_booked {d₀ d : Dev} (h : Booked d₀ d) (se : Session) (tag op : Nat)
    (a : Ans) (i : Nat) (l : List Bytes) : Booked d₀ (d.sendSegments se tag op a i l) := by
  induction l generalizing d i with
  | nil => exact h
  | cons b l ih => exact ih (Dev.sessionAnswer_booked h _ _ _ _ _ _) (i + 1)

theorem Dev.answerAll_booked {d₀ d : Dev} (hW : Booked d₀ d) (se : Session) (tag : Nat) (op : Nat) (a : Ans) :
    Booked d₀ (d.answerAll se tag op a) := by
  unfold Dev.answerAll
  repeat' first | (with_reducible first | assumption | exact .refl _ | apply Dev.sessionAnswer_booked | apply Booked.ite) | apply Dev.sendSegments_booked | decide | (simp only [BookKey]; omega)

theorem Dev.endSessions_booked {d₀ d : Dev} (hW : Booked d₀ d) (cause : EndCause) (f : Session → Bool) :
    Booked d₀ (d.endSessions cause f) := by
  unfold Dev.endSessions
  repeat' first | (with_reducible first | assumption | exact .refl _ | apply Dev.endSession_booked | (apply Booked.each ?_ (fun d x => ?_))) | decide | (simp only [BookKey]; omega)

theorem Dev.complete_booked {d₀ d : Dev} (hW : Booked d₀ d) (sid : Nat) (tag : Nat) (op : Nat) (payload : Bytes) (seq : Nat) (a : Ans) :
    Booked d₀ (d.complete sid tag op payload seq a) := by
  unfold Dev.complete
  repeat' first | (with_reducible first | assumption | exact .refl _ | apply Dev.absentReply_booked | (apply Booked.when ?_ (fun d => ?_)) | apply Dev.answerAll_booked | apply Dev.onSession_booked | apply Booked.ite | split) | extract_lets | decide | (simp only [BookKey]; omega)

theorem Dev.ighViolation_booked {d₀ d : Dev} (hW : Booked d₀ d) (hd : Hdr) (status : Nat) :
    Booked d₀ (d.ighViolation hd status) := by
  unfold Dev.ighViolation
  repeat' first | (with_reducible first | assumption | exact .refl _ | (with_reducible refine Booked.bump ?_ ?_) | apply Dev.violate_booked | apply Booked.ite) | extract_lets | decide | (simp only [BookKey, Ob.authFailures, Ob.malformedFrames, Ob.staleSequences]; omega)

theorem Dev.beforeReady_booked {d₀ d : Dev} (hW : Booked d₀ d) (hd : Hdr) (fault : Option Nat) :
    Booked d₀ (d.beforeReady hd fault) := by
  unfold Dev.beforeReady
  repeat' first | (with_reducible first | assumption | exact .refl _ | (with_reducible refine Booked.bump ?_ ?_) | apply Dev.plainAnswer_booked | (apply Booked.when ?_ (fun d => ?_)) | apply Booked.ite | split) | extract_lets | with_reducible apply Booked.dict_set | decide | (simp only [BookKey, Ob.malformedFrames, Ob.busyBootingSent, Ob.canBeforeReady, Ob.udpBeforeReady]; omega)

theorem Dev.carrierStop_booked {d₀ d e : Dev} {hd : Hdr} (h : Booked d₀ d) (k : d.carrierStop hd = some e) :
    Booked d₀ e := by
  unfold Dev.carrierStop at k
  repeat' split at k
  all_goals
    first
    | (cases k; done)
    | (obtain rfl := Option.some.inj k; first | exact h | exact .bump h (by decide))

theorem Dev.preCheck_booked {d₀ d e : Dev} {hd : Hdr} {op : Nat} {payload : Bytes}
    (h : Booked d₀ d) (k : d.preCheck hd op payload = some e) : Booked d₀ e := by
  unfold Dev.preCheck at k
  dsimp only at k
  split at k
  · obtain rfl := Option.some.inj k
    exact Dev.carrierStop_booked h (by assumption)
  · repeat' split at k
    all_goals
      first
      | (cases k; done)
      | (obtain rfl := Option.some.inj k
         repeat' first
          | (with_reducible first | exact h | refine Booked.bump ?_ ?_ | apply Booked.ite | apply Dev.ighViolation_booked | apply Dev.beforeReady_booked | apply Dev.plainAnswer_booked | apply Dev.quarantineDrop_booked)
          | decide | (simp only [BookKey, Ob.islCtlDropped]; omega))

theorem Dev.countStart_booked {d₀ d : Dev} (hW : Booked d₀ d) (c : Carrier) : Booked d₀ (d.countStart c) := by
  unfold Dev.countStart
  split
  · exact hW
  · exact hW

theorem Dev.peerActive_booked {d₀ d : Dev} (hW : Booked d₀ d) (c : Carrier) : Booked d₀ (d.peerActive c) := by
  unfold Dev.peerActive
  repeat' split
  all_goals first | exact hW | exact Dev.onPartner_booked hW _ _

theorem Dev.replay_booked {d₀ d : Dev} (hW : Booked d₀ d) (se : Session) (c : Cached) :
    Booked d₀ (d.replay se c) := by
  unfold Dev.replay
  repeat' first | (with_reducible first | assumption | exact .refl _ | apply Dev.answerAll_booked) | decide | (simp only [BookKey]; omega)

/-- A stop at the admission moves bookkeeping alone. -/
theorem Dev.admission_stop_booked {d₀ d e : Dev} {hd : Hdr} {op : Nat} {payload : Bytes} {multi : Bool}
    (h : Booked d₀ d) (k : d.admission hd op payload multi = .stop e) : Booked d₀ e := by
  unfold Dev.admission at k
  dsimp only at k
  repeat' split at k
  all_goals
    first
    | (cases k; done)
    | (obtain rfl := Adm.stop.inj k
       repeat' first
        | (with_reducible first | exact h | apply Dev.plainAnswer_booked | apply Dev.ighViolation_booked | apply Dev.onSession_booked | apply Dev.replay_booked | apply Dev.sessionAnswer_booked | apply Dev.endSession_booked | apply Dev.peerActive_booked | apply Dev.countStart_booked | refine Booked.bump ?_ ?_)
        | refine Dev.preCheck_booked ?_ (by assumption)
        | decide)

/-- The devices differ at most in the sessions' part and in the partners. -/
structure Admitted (d d' : Dev) : Prop where
  eq : { d' with dict := d.dict, partners := d.partners } = d

theorem Admitted.onSession {a d : Dev} {sid : Nat} {f : Session → Session} (h : Admitted a d) : Admitted a (d.onSession sid f) :=
  ⟨h.eq⟩

theorem Admitted.peerActive {a d : Dev} {c : Carrier} (h : Admitted a d) : Admitted a (d.peerActive c) := by
  unfold Dev.peerActive
  repeat' split
  all_goals exact ⟨h.eq⟩

theorem Admitted.countStart {a d : Dev} {c : Carrier} (h : Admitted a d) : Admitted a (d.countStart c) := by
  unfold Dev.countStart
  split
  all_goals exact ⟨h.eq⟩

theorem Dev.admission_go_admitted {d e : Dev} {hd : Hdr} {op : Nat} {payload : Bytes} {multi : Bool} {se : Session}
    (k : d.admission hd op payload multi = .go e se) : Admitted d e := by
  unfold Dev.admission at k
  dsimp only at k
  repeat' split at k
  all_goals
    first
    | (cases k; done)
    | (obtain ⟨rfl, -⟩ := Adm.go.inj k
       repeat' first | exact ⟨rfl⟩ | apply Admitted.countStart | apply Admitted.onSession | apply Admitted.peerActive)

/-- A request that goes on has changed the sessions and the partners' activity alone. -/
theorem Dev.admission_go_eq {d e : Dev} {hd : Hdr} {op : Nat} {payload : Bytes} {multi : Bool} {se : Session}
    (k : d.admission hd op payload multi = .go e se) : e = { d with dict := e.dict, partners := e.partners } := by
  rw [← (Dev.admission_go_admitted k).eq]

/-- A request that goes on keeps every register. -/
theorem Dev.admission_go_reg {d e : Dev} {hd : Hdr} {op : Nat} {payload : Bytes} {multi : Bool} {se : Session}
    (k : d.admission hd op payload multi = .go e se) (x : Nat) : e.reg x = d.reg x := by
  rw [Dev.admission_go_eq k]
  rfl

theorem Dev.countCommit_booked {d₀ d : Dev} (hW : Booked d₀ d) :
    Booked d₀ (d.countCommit) := by
  unfold Dev.countCommit
  repeat' first | (with_reducible first | assumption | exact .refl _) | with_reducible apply Booked.dict_set | decide | (simp only [BookKey]; omega)

theorem Dev.writeGate_stop_booked {d₀ d e : Dev} {c : Conds} {hd : Hdr} {cond : Option Nat} {idx sub : Nat} {v : Bytes}
    (h : Booked d₀ d) (k : d.writeGate c hd cond idx sub v = .stop e) : Booked d₀ e := by
  unfold Dev.writeGate at k
  dsimp only at k
  repeat' split at k
  all_goals
    first
    | (cases k; done)
    | (obtain rfl := Gate.stop.inj k
       first
        | exact Dev.admission_stop_booked h (by assumption)
        | exact Dev.complete_booked (fun x hx => (Dev.admission_go_reg (by assumption) x).trans (h x hx)) _ _ _ _ _ _)

/-- A write that passes its checks has changed the sessions and the partners' activity alone. -/
theorem Dev.writeGate_pass_eq {d e : Dev} {c : Conds} {hd : Hdr} {cond : Option Nat} {idx sub : Nat} {v : Bytes} {se : Session}
    {n : Int} (k : d.writeGate c hd cond idx sub v = .pass e se n) : e = { d with dict := e.dict, partners := e.partners } := by
  unfold Dev.writeGate at k
  dsimp only at k
  repeat' split at k
  all_goals
    first
    | (cases k; done)
    | (obtain ⟨rfl, -, -⟩ := Gate.pass.inj k
       exact Dev.admission_go_eq (by assumption))

/-- A write that passes its checks keeps every register until its own effect. -/
theorem Dev.writeGate_pass_reg {d e : Dev} {c : Conds} {hd : Hdr} {cond : Option Nat} {idx sub : Nat} {v : Bytes} {se : Session}
    {n : Int} (k : d.writeGate c hd cond idx sub v = .pass e se n) (x : Nat) : e.reg x = d.reg x := by
  rw [Dev.writeGate_pass_eq k]
  rfl

theorem Dev.finishWrite_booked {d₀ d : Dev} (h : Booked d₀ d) (hd : Hdr) (cond : Option Nat) (idx sub : Nat) (v : Bytes)
    (se : Session) : Booked d₀ (d.finishWrite hd cond idx sub v se) := by
  have g : Booked d₀ (d.bumpVer (idx * 256 + sub)) := Dev.bumpVer_booked h _
  unfold Dev.finishWrite
  dsimp only
  generalize d.bumpVer (idx * 256 + sub) = e at g
  apply Booked.ite
  · exact Booked.dict_set (Dev.onSession_booked (Dev.countCommit_booked g) _ _)
  · exact Dev.complete_booked g _ _ _ _ _ _

theorem Dev.writeReq_pass {d e : Dev} {c : Conds} {hd : Hdr} {cond : Option Nat} {idx sub : Nat} {v : Bytes} {se : Session}
    {n : Int} {eff : Session → Int → Dev → Dev} (k : d.writeGate c hd cond idx sub v = .pass e se n) :
    d.writeReq c hd cond idx sub v eff = (eff se n e).finishWrite hd cond idx sub v se := by
  unfold Dev.writeReq
  rw [k]

theorem Dev.writeStore_pass {d e : Dev} {c : Conds} {hd : Hdr} {cond : Option Nat} {idx sub : Nat} {v : Bytes} {se : Session}
    {n : Int} {eff : Session → Int → Dev → Dev} (k : d.writeGate c hd cond idx sub v = .pass e se n) :
    d.writeStore c hd cond idx sub v eff
      = (eff se n (e.set (e.resolve se.id (idx * 256 + sub)) n)).finishWrite hd cond idx sub v se :=
  Dev.writeReq_pass k

end Sys2Proof.Machine
end

