-- ==== Sys2Proof/Laws/QueuesFrame.lean ====
section
/-! SUPPORT. What the operations of Machine/Queues.lean leave alone. -/
namespace Sys2Proof.Machine

theorem execItemEnqueue_within {q : Fin 4096} {it : Item} {found : Found} {s t : State} (h : execItemEnqueue q it found s = .next t) :
    Within 0 s.dev t.dev := by
  unfold execItemEnqueue at h
  refine onDev_within h fun d => ?_
  repeat' first | (with_reducible first | assumption | exact .refl _ | apply Dev.absentDrop_within | apply Dev.enqueue_within | apply Dev.handover_within | apply Dev.slotPolicy_snd | apply Within.ite | split) | refine Dev.slotPolicy_of (by exact rfl) ?_ (by assumption) | extract_lets | exact rfl

theorem Dev.indexBlock_within {M : Nat} {d₀ d : Dev} (hM : Sub 1 M) (hW : Within M d₀ d) (p : Nat) (q : Nat) (off : Nat) (v : Nat) :
    Within M d₀ (d.indexBlock p q off v) := by
  refine hW.step ?_ hM
  clear hW hM
  unfold Dev.indexBlock
  repeat' first | (with_reducible first | assumption | exact .refl _ | apply Dev.memWrite_within | apply Within.ite) | exact rfl

theorem Dev.notifyVector_within {M : Nat} {d₀ d : Dev} (hM : Sub 0 M) (hW : Within M d₀ d) (q : Nat) :
    Within M d₀ (d.notifyVector q) := by
  refine hW.step ?_ hM
  clear hW hM
  unfold Dev.notifyVector
  repeat' first | (with_reducible first | assumption | exact .refl _ | apply Dev.send_within | (apply Within.when ?_ (fun d => ?_)) | split) | extract_lets | exact rfl

theorem Dev.toSlot_within {M : Nat} {d₀ d : Dev} (hM : Sub 1 M) (hW : Within M d₀ d) (p : Nat) (q : Nat) (it : Item) :
    Within M d₀ (d.toSlot p q it) := by
  refine hW.step ?_ hM
  clear hW hM
  unfold Dev.toSlot
  repeat' first | (with_reducible first | assumption | exact .refl _ | apply Dev.indexBlock_within | apply Dev.memWrite_within | apply Dev.notifyVector_within | apply Dev.send_within | apply Dev.setQ_within | (apply Within.when ?_ (fun d => ?_)) | apply Within.ite) | extract_lets | exact rfl

theorem execDeliverySlotWrite_within {q : Fin 4096} {record : Found} {payload : Found} {dma : Found} {s t : State} (h : execDeliverySlotWrite q record payload dma s = .next t) :
    Within 1 s.dev t.dev := by
  unfold execDeliverySlotWrite at h
  refine onDev_within h fun d => ?_
  repeat' first | (with_reducible first | assumption | exact .refl _ | apply Dev.handover_within | apply Dev.toSlot_within | (apply Within.when ?_ (fun d => ?_)) | apply Within.ite | split) | refine Dev.dequeue_of rfl ?_ (by assumption) | refine Dev.recordCheck_of rfl ?_ (by assumption) | extract_lets | exact rfl

theorem Dev.barQueue_within {M : Nat} {d₀ d : Dev} {fn q off role : Nat} {op : QueueRt → Nat → Dev → Dev}
    (hM : Sub 33554432 M) (h : Within M d₀ d) (k : ∀ r p d, Within M d (op r p d)) :
    Within M d₀ (d.barQueue fn q off role op) := by
  unfold Dev.barQueue
  split
  · exact Dev.barWrite_of hM h (by assumption)
  · have g := Dev.barWrite_of hM h (by assumption)
    exact .ite g (.ite (Dev.barViolation_within hM g _ _ _) (.ite g (g.trans (k _ _ _))))

theorem execDeliveryConsWrite_within {fn : Fin 4} {q : Fin 4096} {v : Nat} {s t : State} (h : execDeliveryConsWrite fn q v s = .next t) :
    Within 33554432 s.dev t.dev := by
  unfold execDeliveryConsWrite at h
  refine onDev_within h fun d => ?_
  repeat' first | (with_reducible first | assumption | exact .refl _ | refine Dev.barQueue_within ?_ ?_ (fun r p d => ?_) | apply Dev.barViolation_within | apply Dev.setQ_within | apply Within.ite) | exact rfl

theorem execSubmissionDoorbell_within {fn : Fin 4} {q : Fin 4096} {v : Nat} {s t : State} (h : execSubmissionDoorbell fn q v s = .next t) :
    Within 33554432 s.dev t.dev := by
  unfold execSubmissionDoorbell at h
  refine onDev_within h fun d => ?_
  repeat' first | (with_reducible first | assumption | exact .refl _ | refine Dev.barQueue_within ?_ ?_ (fun r p d => ?_) | apply Dev.barViolation_within | apply Dev.setQ_within | apply Within.ite) | exact rfl

theorem execSubmissionFetch_within {q : Fin 4096} {slot : Bytes} {dram : Found} {s t : State} (h : execSubmissionFetch q slot dram s = .next t) :
    Within 33554433 s.dev t.dev := by
  unfold execSubmissionFetch at h
  refine onDev_within h fun d => ?_
  repeat' first | (with_reducible first | assumption | exact .refl _ | apply Dev.absentDrop_within | apply Dev.enqueue_within | apply Dev.handover_within | apply Dev.indexBlock_within | apply Dev.setQ_within | apply Dev.violate_within | (apply Within.when ?_ (fun d => ?_)) | apply Within.ite | split) | extract_lets | exact rfl

theorem Dev.pollRing_within {M : Nat} {d₀ d : Dev} (hM : Sub 33554432 M) (hW : Within M d₀ d) (q : Nat) :
    Within M d₀ (d.pollRing q) := by
  refine hW.step ?_ hM
  clear hW hM
  unfold Dev.pollRing
  repeat' first | (with_reducible first | assumption | exact .refl _ | apply Dev.setQ_within | apply Dev.violate_within | apply Within.ite | split) | extract_lets | exact rfl

theorem execVirekRingPoll_within {q : Fin 4096} {s t : State} (h : execVirekRingPoll q s = .next t) :
    Within 33554432 s.dev t.dev := by
  unfold execVirekRingPoll at h
  refine onDev_within h fun d => ?_
  repeat' first | (with_reducible first | assumption | exact .refl _ | apply Dev.pollRing_within) | exact rfl

theorem execStaleTimeExpiry_within {q : Fin 4096} {s t : State} (h : execStaleTimeExpiry q s = .next t) :
    Within 0 s.dev t.dev := by
  unfold execStaleTimeExpiry at h
  refine onDev_within h fun d => ?_
  repeat' first | (with_reducible first | assumption | exact .refl _ | apply Dev.bump_within | apply Dev.event_within | apply Dev.notifyVector_within | apply Dev.postEvent_within | apply Dev.refreshQ_within | apply Dev.setQ_within | (apply Within.when ?_ (fun d => ?_)) | apply Within.ite | split) | extract_lets | exact rfl

theorem Dev.queueOn_within {M : Nat} {d₀ d : Dev} (hM : Sub 0 M) (hW : Within M d₀ d) (q : Nat) :
    Within M d₀ (d.queueOn q) := by
  refine hW.step ?_ hM
  clear hW hM
  unfold Dev.queueOn
  repeat' first | (with_reducible first | assumption | exact .refl _ | apply Dev.bump_within | apply Dev.refreshQ_within | apply Dev.set_within | apply Dev.setN_within | (apply Within.when ?_ (fun d => ?_)) | apply Within.ite) | extract_lets | exact rfl

theorem Dev.discardItems_snd {M : Nat} {d₀ d : Dev} (hM : Sub 0 M) (h : Within M d₀ d) (q : Nat) :
    Within M d₀ (d.discardItems q).2 := by
  refine h.step ?_ hM
  clear h hM
  unfold Dev.discardItems
  try dsimp only
  repeat' split
  repeat' first | (with_reducible first | assumption | exact .refl _ | apply Dev.countDrop_within | apply Dev.refreshQ_within | apply Dev.unqueue_within | (apply Within.each ?_ (fun d x => ?_))) | extract_lets | exact rfl

theorem Dev.discardItems_of {M : Nat} {d₀ d e : Dev} {q : Nat} {a₀ : Nat} (hM : Sub 0 M) (h : Within M d₀ d)
    (hx : d.discardItems q = (a₀, e)) : Within M d₀ e := by
  have g := Dev.discardItems_snd hM h q
  rwa [hx] at g

theorem Dev.queueOff_within {M : Nat} {d₀ d : Dev} (hM : Sub 0 M) (hW : Within M d₀ d) (q : Nat) :
    Within M d₀ (d.queueOff q) := by
  refine hW.step ?_ hM
  clear hW hM
  unfold Dev.queueOff
  repeat' first | (with_reducible first | assumption | exact .refl _ | apply Dev.discardItems_snd | apply Dev.drop_within | apply Dev.refreshQ_within | apply Dev.set_within | apply Dev.setN_within | apply Dev.setQ_within | (apply Within.when ?_ (fun d => ?_)) | apply Within.ite) | refine Dev.discardItems_of (by exact rfl) ?_ (by assumption) | extract_lets | exact rfl

theorem execQueueEnable_within {hd : Hdr} {cond : Option Nat} {s t : State} (h : execQueueEnable hd cond s = .next t) :
    Within 39846400 s.dev t.dev := by
  unfold execQueueEnable at h
  refine onDev_within h fun d => ?_
  repeat' first | (with_reducible first | assumption | exact .refl _ | apply Dev.queueOn_within | refine Dev.writeReq_within ?_ ?_ (fun se n d => ?_)) | exact rfl

theorem execQueueDisable_within {hd : Hdr} {cond : Option Nat} {s t : State} (h : execQueueDisable hd cond s = .next t) :
    Within 39846400 s.dev t.dev := by
  unfold execQueueDisable at h
  refine onDev_within h fun d => ?_
  repeat' first | (with_reducible first | assumption | exact .refl _ | apply Dev.queueOff_within | refine Dev.writeReq_within ?_ ?_ (fun se n d => ?_)) | exact rfl

theorem Dev.discardAll_snd {M : Nat} {d₀ d : Dev} (hM : Sub 0 M) (h : Within M d₀ d) (l : List Nat) :
    Within M d₀ (d.discardAll l).2 := by
  induction l generalizing d with
  | nil => exact h
  | cons q l ih => exact ih (Dev.discardItems_snd hM h _)

theorem Dev.discardAll_of {M : Nat} {d₀ d e : Dev} {l : List Nat} {a : Nat} (hM : Sub 0 M) (h : Within M d₀ d)
    (k : d.discardAll l = (a, e)) : Within M d₀ e := by
  have g := Dev.discardAll_snd hM h l
  rwa [k] at g

theorem Dev.qmgReturns_within {M : Nat} {d₀ d : Dev} (hM : Sub 0 M) (hW : Within M d₀ d) :
    Within M d₀ (d.qmgReturns) := by
  refine hW.step ?_ hM
  clear hW hM
  unfold Dev.qmgReturns
  repeat' first | (with_reducible first | assumption | exact .refl _ | apply Dev.discardAll_snd | apply Dev.event_within) | refine Dev.discardAll_of (by exact rfl) ?_ (by assumption) | extract_lets | exact rfl

theorem Dev.releaseAnswers_within {M : Nat} {d₀ d : Dev} (hM : Sub 4194304 M) (hW : Within M d₀ d) (p : Nat) :
    Within M d₀ (d.releaseAnswers p) := by
  refine hW.step ?_ hM
  clear hW hM
  unfold Dev.releaseAnswers
  repeat' first | (with_reducible first | assumption | exact .refl _ | apply Dev.drop_within | apply Dev.send_within | (apply Within.each ?_ (fun d x => ?_))) | extract_lets | with_reducible apply Within.mbox_set | exact rfl

theorem Dev.mailboxWrite_within {M : Nat} {d₀ d : Dev} (hM : Sub 4194304 M) (hW : Within M d₀ d) (p : Nat) (off : Nat) (v : Nat) :
    Within M d₀ (d.mailboxWrite p off v) := by
  refine hW.step ?_ hM
  clear hW hM
  unfold Dev.mailboxWrite
  repeat' first | (with_reducible first | assumption | exact .refl _ | apply Within.ite) | extract_lets | with_reducible apply Within.mbox_set | exact rfl

theorem execMailboxDoorbell_within {fn : Fin 4} {off : Nat} {v : Nat} {s t : State} (h : execMailboxDoorbell fn off v s = .next t) :
    Within 37748736 s.dev t.dev := by
  unfold execMailboxDoorbell at h
  refine onDev_within h fun d => ?_
  repeat' first | (with_reducible first | assumption | exact .refl _ | apply Dev.barViolation_within | apply Dev.mailboxWrite_within | apply Within.ite | split) | refine Dev.barWrite_of rfl ?_ (by assumption) | extract_lets | exact rfl

theorem execAnsConsWrite_within {fn : Fin 4} {v : Nat} {s t : State} (h : execAnsConsWrite fn v s = .next t) :
    Within 37748736 s.dev t.dev := by
  unfold execAnsConsWrite at h
  refine onDev_within h fun d => ?_
  repeat' first | (with_reducible first | assumption | exact .refl _ | apply Dev.barViolation_within | apply Dev.releaseAnswers_within | apply Within.ite | split) | refine Dev.barWrite_of rfl ?_ (by assumption) | extract_lets | with_reducible apply Within.mbox_set | exact rfl

theorem execBar0HighLatchRead_within {fn : Fin 4} {off : Nat} {wide : Bool} {s t : State} (h : execBar0HighLatchRead fn off wide s = .next t) :
    Within 33554432 s.dev t.dev := by
  unfold execBar0HighLatchRead at h
  refine onDev_within h fun d => ?_
  repeat' first | (with_reducible first | assumption | exact .refl _ | apply Dev.barViolation_within | apply Dev.drawn_within | apply Dev.send_within | (apply Within.when ?_ (fun d => ?_)) | apply Within.ite | split) | extract_lets | with_reducible apply Within.barEra_set | with_reducible apply Within.barLatch_set | exact rfl | (constructor <;> first | (intro _; rfl) | exact id | exact fun _ => ⟨rfl, rfl⟩ | (intro h; exact absurd h (by decide)))

theorem execBar0InvalidAccess_within {fn : Fin 4} {off : Nat} {len : Nat} {write : Bool} {s t : State} (h : execBar0InvalidAccess fn off len write s = .next t) :
    Within 33554432 s.dev t.dev := by
  unfold execBar0InvalidAccess at h
  refine onDev_within h fun d => ?_
  repeat' first | (with_reducible first | assumption | exact .refl _ | apply Dev.barViolation_within | apply Dev.send_within | apply Within.ite | split) | refine Dev.barWrite_of rfl ?_ (by assumption) | exact rfl

theorem execBar2Access_within {fn : Fin 4} {off : Nat} {len : Nat} {w : Option Bytes} {poisoned : Bool} {s t : State} (h : execBar2Access fn off len w poisoned s = .next t) :
    Within 33554433 s.dev t.dev := by
  unfold execBar2Access at h
  refine onDev_within h fun d => ?_
  repeat' first | (with_reducible first | assumption | exact .refl _ | apply Dev.barViolation_within | apply Dev.event_within | apply Dev.memWrite_within | apply Dev.send_within | apply Within.ite | split) | refine Dev.barWrite_of rfl ?_ (by assumption) | extract_lets | exact rfl

end Sys2Proof.Machine
end

