-- ==== Sys2Proof/Laws/VirekFrame.lean ====
section
/-! SUPPORT. What the operations of Machine/Virek.lean leave alone. -/
namespace Sys2Proof.Machine

theorem Dev.virekOut_within {M : Nat} {d₀ d : Dev} (hM : Sub 557568 M) (hW : Within M d₀ d) (slot : Nat) (kind : FrameKind) (op : Nat) (s : VirekData) (fence : Nat) (value : Nat) (payload : Bytes) (found : Found) :
    Within M d₀ (d.virekOut slot kind op s fence value payload found) := by
  refine hW.step ?_ hM
  clear hW hM
  unfold Dev.virekOut
  repeat' first | (with_reducible first | assumption | exact .refl _ | apply Dev.classSend_within | apply Dev.onConn_within | split) | extract_lets | exact rfl

theorem Dev.virekAck_within {M : Nat} {d₀ d : Dev} (hM : Sub 557568 M) (hW : Within M d₀ d) (slot : Nat) :
    Within M d₀ (d.virekAck slot) := by
  refine hW.step ?_ hM
  clear hW hM
  unfold Dev.virekAck
  repeat' first | (with_reducible first | assumption | exact .refl _ | apply Dev.virekOut_within) | exact rfl

theorem Dev.virekNak_within {M : Nat} {d₀ d : Dev} (hM : Sub 557568 M) (hW : Within M d₀ d) (slot : Nat) (status : Nat) (fence : Nat) (tag : Nat) :
    Within M d₀ (d.virekNak slot status fence tag) := by
  refine hW.step ?_ hM
  clear hW hM
  unfold Dev.virekNak
  repeat' first | (with_reducible first | assumption | exact .refl _ | apply Dev.virekOut_within) | exact rfl

theorem Dev.nakBare_within {M : Nat} {d₀ d : Dev} (hM : Sub 557568 M) (hW : Within M d₀ d) (h : VirekHdr) (status : Nat) (fence : Nat) :
    Within M d₀ (d.nakBare h status fence) := by
  refine hW.step ?_ hM
  clear hW hM
  unfold Dev.nakBare
  repeat' first | (with_reducible first | assumption | exact .refl _ | apply Dev.ethSend_within | apply Dev.virekNak_within) | extract_lets | exact rfl

theorem Dev.sendData_within {M : Nat} {d₀ d : Dev} (hM : Sub 557568 M) (hW : Within M d₀ d) (slot : Nat) (s : VirekData) :
    Within M d₀ (d.sendData slot s) := by
  refine hW.step ?_ hM
  clear hW hM
  unfold Dev.sendData
  repeat' first | (with_reducible first | assumption | exact .refl _ | apply Dev.event_within | apply Dev.virekOut_within | (apply Within.when ?_ (fun d => ?_))) | extract_lets | exact rfl

theorem Dev.sendNext_within {M : Nat} {d₀ d : Dev} (hM : Sub 557568 M) (hW : Within M d₀ d) (slot : Nat) (s : VirekData) (jobs : List VirekRead) :
    Within M d₀ (d.sendNext slot s jobs) := by
  refine hW.step ?_ hM
  clear hW hM
  unfold Dev.sendNext
  repeat' first | (with_reducible first | assumption | exact .refl _ | apply Dev.onConn_within | apply Dev.sendData_within | apply Within.ite | split) | extract_lets | exact rfl

theorem Dev.pumpData_within {M : Nat} {d₀ d : Dev} (hM : Sub 557568 M) (h : Within M d₀ d) (slot n : Nat) :
    Within M d₀ (d.pumpData slot n) := by
  induction n generalizing d with
  | zero => exact h
  | succ n ih =>
    unfold Dev.pumpData
    repeat' first | (with_reducible first | exact h | apply Within.ite | split) | exact ih (Dev.sendNext_within hM h _ _ _)

theorem Dev.pump_within {M : Nat} {d₀ d : Dev} (hM : Sub 557568 M) (hW : Within M d₀ d) (slot : Nat) :
    Within M d₀ (d.pump slot) := by
  refine hW.step ?_ hM
  clear hW hM
  unfold Dev.pump
  repeat' first | (with_reducible first | assumption | exact .refl _ | apply Dev.onConn_within | apply Dev.virekEvent_within | apply Within.ite | split) | apply Dev.pumpData_within | extract_lets | exact rfl

theorem Dev.resend_within {M : Nat} {d₀ d : Dev} (hM : Sub 557568 M) (hW : Within M d₀ d) (slot : Nat) :
    Within M d₀ (d.resend slot) := by
  refine hW.step ?_ hM
  clear hW hM
  unfold Dev.resend
  repeat' first | (with_reducible first | assumption | exact .refl _ | apply Dev.onConn_within | apply Dev.sendData_within | (apply Within.each ?_ (fun d x => ?_)) | apply Within.ite | split) | extract_lets | exact rfl

theorem Dev.virekViolation_within {M : Nat} {d₀ d : Dev} (hM : Sub 33554432 M) (hW : Within M d₀ d) (h : VirekHdr) (op : Nat) :
    Within M d₀ (d.virekViolation h op) := by
  refine hW.step ?_ hM
  clear hW hM
  unfold Dev.virekViolation
  repeat' first | (with_reducible first | assumption | exact .refl _ | apply Dev.violate_within) | exact rfl

theorem Dev.virekIntake_snd {M : Nat} {d₀ d : Dev} (hM : Sub 33554432 M) (h : Within M d₀ d) (port : Nat) (srcIp : Nat) (srcPort : Nat) :
    Within M d₀ (d.virekIntake port srcIp srcPort).1 := by
  refine h.step ?_ hM
  clear h hM
  unfold Dev.virekIntake
  try dsimp only
  repeat' split
  repeat' first | (with_reducible first | assumption | exact .refl _ | apply Dev.bump_within | apply Dev.onPartner_within | apply Dev.quarantineDrop_within | apply Within.ite | split) | extract_lets | exact rfl

theorem Dev.virekIntake_of {M : Nat} {d₀ d e : Dev} {port : Nat} {srcIp : Nat} {srcPort : Nat} {a₀ : Bool} (hM : Sub 33554432 M) (h : Within M d₀ d)
    (hx : d.virekIntake port srcIp srcPort = (e, a₀)) : Within M d₀ e := by
  have g := Dev.virekIntake_snd hM h port srcIp srcPort
  rwa [hx] at g

theorem Dev.virekClassRx_within {M : Nat} {d₀ d : Dev} (hM : Sub 32768 M) (hW : Within M d₀ d) (c : Conn) (port : Nat) :
    Within M d₀ (d.virekClassRx c port) := by
  refine hW.step ?_ hM
  clear hW hM
  unfold Dev.virekClassRx
  repeat' first | (with_reducible first | assumption | exact .refl _ | apply Dev.classReceived_within) | exact rfl

theorem Dev.takeAck_within {M : Nat} {d₀ d : Dev} (hM : Sub 524288 M) (hW : Within M d₀ d) (slot : Nat) (h : VirekHdr) :
    Within M d₀ (d.takeAck slot h) := by
  refine hW.step ?_ hM
  clear hW hM
  unfold Dev.takeAck
  repeat' first | (with_reducible first | assumption | exact .refl _ | apply Dev.onConn_within | apply Within.ite) | extract_lets | exact rfl

theorem Dev.onVirekPacket_within {M : Nat} {d₀ d : Dev} {h : VirekHdr} {op : Nat} {f : Nat → Conn → Dev → Dev}
    (hM : Sub 34112000 M) (hd : Within M d₀ d) (k : ∀ slot c d, Within M d (f slot c d)) : Within M d₀ (d.onVirekPacket h op f) := by
  unfold Dev.onVirekPacket
  have g : ∀ {e b}, d.virekIntake h.port h.srcIp h.srcPort = (e, b) → Within M d₀ e := fun x => by
    have y := Dev.virekIntake_snd (Sub.trans (B := 34112000) rfl hM) hd h.port h.srcIp h.srcPort
    rwa [x] at y
  split
  · exact g (by assumption)
  · rename_i e he
    have g := g he
    clear he
    extract_lets
    repeat' first | (with_reducible first | exact g | exact hM | split | apply Within.ite | apply Dev.pump_within | apply Dev.virekAck_within | apply Dev.nakBare_within | apply Dev.bump_within | apply Dev.virekClassRx_within | apply Dev.takeAck_within | apply Dev.resend_within | apply Dev.onConn_within | apply Within.when ?_ (fun d => ?_)) | (refine Within.trans ?_ (k _ _ _)) | exact Sub.trans (B := 34112000) rfl hM | exact .refl _ | extract_lets

theorem Dev.onSequenced_within {M : Nat} {d₀ d : Dev} {h : VirekHdr} {op : Nat} {f : Nat → Conn → Dev → Dev}
    (hM : Sub 34112000 M) (hd : Within M d₀ d) (k : ∀ slot c d, Within M d (f slot c d)) : Within M d₀ (d.onSequenced h op f) := by
  refine Dev.onVirekPacket_within hM hd fun slot c d => ?_
  extract_lets
  repeat' first | (with_reducible first | exact .refl _ | split | apply Within.ite | apply Dev.virekAck_within | apply Dev.virekNak_within | apply Dev.onConn_within | apply Within.when ?_ (fun d => ?_)) | (refine Within.trans ?_ (k _ _ _)) | exact Sub.trans (B := 34112000) rfl hM | extract_lets

theorem Dev.virekOp_within {M : Nat} {d₀ d : Dev} {slot : Nat} {c : Conn} {h : VirekHdr} {op : Nat} {run : Nat → Dev → Dev}
    (hM : Sub 34112000 M) (hd : Within M d₀ d) (k : ∀ w d, Within M d (run w d)) : Within M d₀ (d.virekOp slot c h op run) := by
  unfold Dev.virekOp
  extract_lets
  repeat' first | (with_reducible first | exact hd | exact .refl _ | split | apply Within.ite | apply Dev.virekViolation_within | apply Dev.virekNak_within | apply Dev.violate_within | apply Dev.postEvent_within | apply Dev.absentReply_within | apply Within.when ?_ (fun d => ?_)) | (refine Within.trans ?_ (k _ _)) | exact Sub.trans (B := 34112000) rfl hM | extract_lets

theorem Dev.pollTouched_within {M : Nat} {d₀ d : Dev} (hM : Sub 33554432 M) (hW : Within M d₀ d) (p : Nat) (a : Nat) (len : Nat) :
    Within M d₀ (d.pollTouched p a len) := by
  refine hW.step ?_ hM
  clear hW hM
  unfold Dev.pollTouched
  repeat' first | (with_reducible first | assumption | exact .refl _ | apply Dev.pollRing_within | (apply Within.each ?_ (fun d x => ?_)) | (apply Within.when ?_ (fun d => ?_))) | extract_lets | exact rfl

theorem Dev.virekCommit_within {M : Nat} {d₀ d : Dev} (hM : Sub 34078745 M) (hW : Within M d₀ d) (slot : Nat) :
    Within M d₀ (d.virekCommit slot) := by
  refine hW.step ?_ hM
  clear hW hM
  unfold Dev.virekCommit
  repeat' first | (with_reducible first | assumption | exact .refl _ | apply Dev.fenceSignal_within | apply Dev.memWrite_within | apply Dev.onConn_within | apply Dev.pollTouched_within | apply Within.ite | split) | extract_lets | exact rfl

theorem Dev.commitAll_within {M : Nat} {d₀ d : Dev} (hM : Sub 34078745 M) (hW : Within M d₀ d) (slot : Nat) :
    Within M d₀ (d.commitAll slot) := by
  refine hW.step ?_ hM
  clear hW hM
  unfold Dev.commitAll
  repeat' first | (with_reducible first | assumption | exact .refl _ | apply Dev.virekCommit_within | (apply Within.each ?_ (fun d x => ?_)) | split) | exact rfl

theorem execVirekConnect_within {h : VirekHdr} {data : Bytes} {s t : State} (h : execVirekConnect h data s = .next t) :
    Within 34112000 s.dev t.dev := by
  unfold execVirekConnect at h
  refine onDev_within h fun d => ?_
  repeat' first | (with_reducible first | assumption | exact .refl _ | apply Dev.absentReply_within | apply Dev.bump_within | apply Dev.drawn_within | apply Dev.nakBare_within | apply Dev.onVirek_within | apply Dev.pump_within | apply Dev.virekClassRx_within | apply Dev.virekEvent_within | apply Dev.virekIntake_snd | apply Dev.virekOut_within | apply Dev.virekViolation_within | apply Within.ite | split) | refine Dev.virekIntake_of (by exact rfl) ?_ (by assumption) | extract_lets | exact rfl

theorem Dev.sendDisconnect_within {M : Nat} {d₀ d : Dev} (hM : Sub 557568 M) (hW : Within M d₀ d) (slot : Nat) :
    Within M d₀ (d.sendDisconnect slot) := by
  refine hW.step ?_ hM
  clear hW hM
  unfold Dev.sendDisconnect
  repeat' first | (with_reducible first | assumption | exact .refl _ | apply Dev.virekOut_within | split) | exact rfl

theorem execVirekDisconnect_within {h : VirekHdr} {s t : State} (h : execVirekDisconnect h s = .next t) :
    Within 34112000 s.dev t.dev := by
  unfold execVirekDisconnect at h
  refine onDev_within h fun d => ?_
  repeat' first | (with_reducible first | assumption | exact .refl _ | apply Dev.closeConn_within | refine Dev.onSequenced_within ?_ ?_ (fun slot c d => ?_) | apply Dev.sendDisconnect_within) | exact rfl

theorem execVirekQuiesce_within {h : VirekHdr} {s t : State} (h : execVirekQuiesce h s = .next t) :
    Within 34112000 s.dev t.dev := by
  unfold execVirekQuiesce at h
  refine onDev_within h fun d => ?_
  repeat' first | (with_reducible first | (apply Within.when ?_ (fun d => ?_)) | assumption | exact .refl _ | apply Dev.onConn_within | refine Dev.onSequenced_within ?_ ?_ (fun slot c d => ?_) | apply Dev.virekEvent_within) | extract_lets | exact rfl

theorem execVirekRead_within {h : VirekHdr} {bad : List Nat} {s t : State} (h : execVirekRead h bad s = .next t) :
    Within 34112025 s.dev t.dev := by
  unfold execVirekRead at h
  refine onDev_within h fun d => ?_
  repeat' first | (with_reducible first | assumption | exact .refl _ | apply Dev.bump_within | apply Dev.commitAll_within | apply Dev.onConn_within | refine Dev.onSequenced_within ?_ ?_ (fun slot c d => ?_) | refine Dev.virekOp_within ?_ ?_ (fun w d => ?_)) | exact rfl

theorem Dev.virekWrite_within {M : Nat} {d₀ d : Dev} (hM : Sub 34112000 M) (hW : Within M d₀ d) (h : VirekHdr) (op : Nat) (data : Bytes) (found : Found) :
    Within M d₀ (d.virekWrite h op data found) := by
  refine hW.step ?_ hM
  clear hW hM
  unfold Dev.virekWrite
  repeat' first | (with_reducible first | assumption | exact .refl _ | apply Dev.bump_within | apply Dev.countFcs_within | apply Dev.handover_within | apply Dev.onConn_within | refine Dev.onSequenced_within ?_ ?_ (fun slot c d => ?_) | apply Dev.virekIntake_snd | refine Dev.virekOp_within ?_ ?_ (fun w d => ?_) | apply Dev.virekViolation_within | (apply Within.when ?_ (fun d => ?_)) | apply Within.ite | split) | refine Dev.virekIntake_of (by exact rfl) ?_ (by assumption) | extract_lets | exact rfl

theorem execVirekWrite_within {h : VirekHdr} {data : Bytes} {found : Found} {s t : State} (h : execVirekWrite h data found s = .next t) :
    Within 34112000 s.dev t.dev := by
  unfold execVirekWrite at h
  refine onDev_within h fun d => ?_
  repeat' first | (with_reducible first | assumption | exact .refl _ | apply Dev.virekWrite_within) | exact rfl

theorem execVirekWriteFence_within {h : VirekHdr} {data : Bytes} {found : Found} {s t : State} (h : execVirekWriteFence h data found s = .next t) :
    Within 34112000 s.dev t.dev := by
  unfold execVirekWriteFence at h
  refine onDev_within h fun d => ?_
  repeat' first | (with_reducible first | assumption | exact .refl _ | apply Dev.virekWrite_within) | exact rfl

theorem execVirekFenceAdd_within {h : VirekHdr} {s t : State} (h : execVirekFenceAdd h s = .next t) :
    Within 34112025 s.dev t.dev := by
  unfold execVirekFenceAdd at h
  refine onDev_within h fun d => ?_
  repeat' first | (with_reducible first | assumption | exact .refl _ | apply Dev.bump_within | apply Dev.commitAll_within | apply Dev.fenceAdd_within | refine Dev.onSequenced_within ?_ ?_ (fun slot c d => ?_) | refine Dev.virekOp_within ?_ ?_ (fun w d => ?_)) | exact rfl

theorem execVirekAck_within {h : VirekHdr} {s t : State} (h : execVirekAck h s = .next t) :
    Within 34112000 s.dev t.dev := by
  unfold execVirekAck at h
  refine onDev_within h fun d => ?_
  repeat' first | (with_reducible first | assumption | exact .refl _ | refine Dev.onVirekPacket_within ?_ ?_ (fun slot c d => ?_)) | exact rfl

theorem execVirekNak_within {h : VirekHdr} {s t : State} (h : execVirekNak h s = .next t) :
    Within 34112000 s.dev t.dev := by
  unfold execVirekNak at h
  refine onDev_within h fun d => ?_
  repeat' first | (with_reducible first | assumption | exact .refl _ | refine Dev.onVirekPacket_within ?_ ?_ (fun slot c d => ?_) | apply Dev.resend_within | apply Within.ite | split) | extract_lets | exact rfl

theorem execVirekPing_within {h : VirekHdr} {s t : State} (h : execVirekPing h s = .next t) :
    Within 34112000 s.dev t.dev := by
  unfold execVirekPing at h
  refine onDev_within h fun d => ?_
  repeat' first | (with_reducible first | assumption | exact .refl _ | refine Dev.onVirekPacket_within ?_ ?_ (fun slot c d => ?_)) | exact rfl

theorem execVirekPacketInvalid_within {port : Fin 2} {srcIp : Nat} {srcPort : Nat} {opcode : Nat} {s t : State} (h : execVirekPacketInvalid port srcIp srcPort opcode s = .next t) :
    Within 33554432 s.dev t.dev := by
  unfold execVirekPacketInvalid at h
  refine onDev_within h fun d => ?_
  repeat' first | (with_reducible first | assumption | exact .refl _ | apply Dev.bump_within | apply Dev.virekIntake_snd | apply Dev.virekViolation_within | split) | refine Dev.virekIntake_of (by exact rfl) ?_ (by assumption) | exact rfl

theorem execVirekWriteCommitted_within {slot : Fin 256} {s t : State} (h : execVirekWriteCommitted slot s = .next t) :
    Within 34078745 s.dev t.dev := by
  unfold execVirekWriteCommitted at h
  refine onDev_within h fun d => ?_
  repeat' first | (with_reducible first | assumption | exact .refl _ | apply Dev.virekCommit_within) | exact rfl

theorem execVirekAckDelayExpiry_within {slot : Fin 256} {s t : State} (h : execVirekAckDelayExpiry slot s = .next t) :
    Within 557568 s.dev t.dev := by
  unfold execVirekAckDelayExpiry at h
  refine onDev_within h fun d => ?_
  repeat' first | (with_reducible first | assumption | exact .refl _ | apply Dev.virekAck_within | (apply Within.when ?_ (fun d => ?_)) | split) | exact rfl

theorem Dev.timeoutConn_within {M : Nat} {d₀ d : Dev} (hM : Sub 524288 M) (hW : Within M d₀ d) (slot : Nat) (c : Conn) :
    Within M d₀ (d.timeoutConn slot c) := by
  refine hW.step ?_ hM
  clear hW hM
  unfold Dev.timeoutConn
  repeat' first | (with_reducible first | assumption | exact .refl _ | apply Dev.closeConn_within | apply Dev.virekEvent_within) | exact rfl

theorem execVirekRtoExpiry_within {slot : Fin 256} {s t : State} (h : execVirekRtoExpiry slot s = .next t) :
    Within 557568 s.dev t.dev := by
  unfold execVirekRtoExpiry at h
  refine onDev_within h fun d => ?_
  repeat' first | (with_reducible first | assumption | exact .refl _ | apply Dev.onConn_within | apply Dev.resend_within | apply Dev.timeoutConn_within | apply Within.ite | split) | exact rfl

theorem execVirekPeerTimeout_within {slot : Fin 256} {s t : State} (h : execVirekPeerTimeout slot s = .next t) :
    Within 524288 s.dev t.dev := by
  unfold execVirekPeerTimeout at h
  refine onDev_within h fun d => ?_
  repeat' first | (with_reducible first | assumption | exact .refl _ | apply Dev.timeoutConn_within | apply Within.ite | split) | exact rfl

theorem execVirekCreditStall_within {slot : Fin 256} {s t : State} (h : execVirekCreditStall slot s = .next t) :
    Within 524288 s.dev t.dev := by
  unfold execVirekCreditStall at h
  refine onDev_within h fun d => ?_
  repeat' first | (with_reducible first | assumption | exact .refl _ | apply Dev.onConn_within | apply Dev.virekEvent_within | apply Within.ite | split) | exact rfl

theorem execVirekStallPing_within {slot : Fin 256} {s t : State} (h : execVirekStallPing slot s = .next t) :
    Within 557568 s.dev t.dev := by
  unfold execVirekStallPing at h
  refine onDev_within h fun d => ?_
  repeat' first | (with_reducible first | assumption | exact .refl _ | apply Dev.onConn_within | apply Dev.virekOut_within | apply Within.ite | split) | exact rfl

theorem execVirekQuiesceHoldExpiry_within {slot : Fin 256} {s t : State} (h : execVirekQuiesceHoldExpiry slot s = .next t) :
    Within 524288 s.dev t.dev := by
  unfold execVirekQuiesceHoldExpiry at h
  refine onDev_within h fun d => ?_
  repeat' first | (with_reducible first | assumption | exact .refl _ | apply Dev.closeConn_within | apply Within.ite | split) | exact rfl

theorem Dev.connClosed_within {M : Nat} {d₀ d : Dev} (hM : Sub 557568 M) (hW : Within M d₀ d) (se : Session) :
    Within M d₀ (d.connClosed se) := by
  refine hW.step ?_ hM
  clear hW hM
  unfold Dev.connClosed
  repeat' first | (with_reducible first | assumption | exact .refl _ | apply Dev.closeConn_within | apply Dev.sendDisconnect_within) | exact rfl

theorem execConnectionClose_within {hd : Hdr} {cond : Option Nat} {s t : State} (h : execConnectionClose hd cond s = .next t) :
    Within 40403456 s.dev t.dev := by
  unfold execConnectionClose at h
  refine onDev_within h fun d => ?_
  repeat' first | (with_reducible first | assumption | exact .refl _ | apply Dev.connClosed_within | refine Dev.writeReq_within ?_ ?_ (fun se n d => ?_)) | exact rfl

theorem Dev.windowRegistered_within {M : Nat} {d₀ d : Dev} (hM : Sub 0 M) (hW : Within M d₀ d) (w : Nat) :
    Within M d₀ (d.windowRegistered w) := by
  refine hW.step ?_ hM
  clear hW hM
  unfold Dev.windowRegistered
  repeat' first | (with_reducible first | assumption | exact .refl _ | apply Dev.drawn_within | apply Dev.set_within | apply Dev.setN_within) | exact rfl

theorem execWindowRegister_within {hd : Hdr} {cond : Option Nat} {w : Fin 64} {s t : State} (h : execWindowRegister hd cond w s = .next t) :
    Within 39846400 s.dev t.dev := by
  unfold execWindowRegister at h
  refine onDev_within h fun d => ?_
  repeat' first | (with_reducible first | assumption | exact .refl _ | apply Dev.windowRegistered_within | refine Dev.writeReq_within ?_ ?_ (fun se n d => ?_)) | exact rfl

theorem Dev.windowRevoked_within {M : Nat} {d₀ d : Dev} (hM : Sub 524288 M) (hW : Within M d₀ d) (w : Nat) :
    Within M d₀ (d.windowRevoked w) := by
  refine hW.step ?_ hM
  clear hW hM
  unfold Dev.windowRevoked
  repeat' first | (with_reducible first | assumption | exact .refl _ | apply Dev.onVirek_within | apply Dev.set_within | apply Within.ite) | extract_lets | exact rfl

theorem execWindowRevoke_within {hd : Hdr} {cond : Option Nat} {w : Fin 64} {s t : State} (h : execWindowRevoke hd cond w s = .next t) :
    Within 40370688 s.dev t.dev := by
  unfold execWindowRevoke at h
  refine onDev_within h fun d => ?_
  repeat' first | (with_reducible first | assumption | exact .refl _ | apply Dev.windowRevoked_within | refine Dev.writeReq_within ?_ ?_ (fun se n d => ?_)) | exact rfl

theorem Dev.virekCut_within {M : Nat} {d₀ d : Dev} (hM : Sub 557568 M) (hW : Within M d₀ d) :
    Within M d₀ (d.virekCut) := by
  refine hW.step ?_ hM
  clear hW hM
  unfold Dev.virekCut
  repeat' first | (with_reducible first | assumption | exact .refl _ | apply Dev.drop_within | apply Dev.sendNext_within | (apply Within.each ?_ (fun d x => ?_)) | split) | exact rfl

end Sys2Proof.Machine
end

