-- ==== Sys2Proof/Laws/IntegrityFrame.lean ====
section
/-! SUPPORT. What the operations of Machine/Integrity.lean leave alone. -/
namespace Sys2Proof.Machine

theorem execQuarantineExpiry_within {id : Nat} {s t : State} (h : execQuarantineExpiry id s = .next t) :
    Within 33554432 s.dev t.dev := by
  unfold execQuarantineExpiry at h
  refine onDev_within h fun d => ?_
  repeat' first | (with_reducible first | assumption | exact .refl _ | apply Dev.quarantineEnd_within | apply Within.ite | split) | exact rfl

theorem Dev.release_within {M : Nat} {d₀ d : Dev} (hM : Sub 33554432 M) (hW : Within M d₀ d) (p : Nat) (id : Nat) :
    Within M d₀ (d.release p id) := by
  refine hW.step ?_ hM
  clear hW hM
  unfold Dev.release
  repeat' first | (with_reducible first | assumption | exact .refl _ | apply Dev.event_within | apply Dev.quarantineEnd_within) | exact rfl

theorem execQuarantineRelease_within {hd : Hdr} {cond : Option Nat} {v : Bytes} {s t : State} (h : execQuarantineRelease hd cond v s = .next t) :
    Within 39846400 s.dev t.dev := by
  unfold execQuarantineRelease at h
  refine onDev_within h fun d => ?_
  repeat' first | (with_reducible first | assumption | exact .refl _ | apply Dev.release_within | refine Dev.writeReq_within ?_ ?_ (fun se n d => ?_)) | exact rfl

theorem Dev.logCleared_within {M : Nat} {d₀ d : Dev} (hM : Sub 0 M) (hW : Within M d₀ d) :
    Within M d₀ (d.logCleared) := by
  refine hW.step ?_ hM
  clear hW hM
  unfold Dev.logCleared
  repeat' first | (with_reducible first | assumption | exact .refl _ | apply Dev.set_within) | with_reducible apply Within.log_set | exact rfl

theorem execLogClear_within {hd : Hdr} {cond : Option Nat} {v : Bytes} {s t : State} (h : execLogClear hd cond v s = .next t) :
    Within 39846400 s.dev t.dev := by
  unfold execLogClear at h
  refine onDev_within h fun d => ?_
  repeat' first | (with_reducible first | assumption | exact .refl _ | apply Dev.logCleared_within | refine Dev.writeReq_within ?_ ?_ (fun se n d => ?_)) | exact rfl

theorem Dev.mirrorCleared_within {M : Nat} {d₀ d : Dev} (hM : Sub 0 M) (hW : Within M d₀ d) :
    Within M d₀ (d.mirrorCleared) := by
  refine hW.step ?_ hM
  clear hW hM
  unfold Dev.mirrorCleared
  repeat' first | (with_reducible first | assumption | exact .refl _ | apply Dev.set_within) | with_reducible apply Within.log_set | exact rfl

theorem execMirrorClear_within {hd : Hdr} {cond : Option Nat} {v : Bytes} {s t : State} (h : execMirrorClear hd cond v s = .next t) :
    Within 39846400 s.dev t.dev := by
  unfold execMirrorClear at h
  refine onDev_within h fun d => ?_
  repeat' first | (with_reducible first | assumption | exact .refl _ | apply Dev.mirrorCleared_within | refine Dev.writeReq_within ?_ ?_ (fun se n d => ?_)) | exact rfl

theorem execI2cRead_within {reg : Nat} {len : Nat} {s t : State} (h : execI2cRead reg len s = .next t) :
    Within 0 s.dev t.dev := by
  unfold execI2cRead at h
  refine onDev_within h fun d => ?_
  repeat' first | (with_reducible first | assumption | exact .refl _ | apply Dev.drop_within | apply Dev.send_within | apply Within.ite) | exact rfl

theorem execI2cWrite_within {reg : Nat} {data : Bytes} {s t : State} (h : execI2cWrite reg data s = .next t) :
    Within 0 s.dev t.dev := by
  unfold execI2cWrite at h
  refine onDev_within h fun d => ?_
  repeat' first | (with_reducible first | assumption | exact .refl _ | apply Dev.send_within) | exact rfl

end Sys2Proof.Machine
end

