-- ==== Sys2Proof/Laws/EffectsFrame.lean ====
section
/-! SUPPORT. What the operations of Machine/Effects.lean leave alone. -/
namespace Sys2Proof.Machine

theorem Dev.partWritten_within {M : Nat} {d₀ d : Dev} (hM : Sub 2621440 M) (hW : Within M d₀ d) (p : Nat) (sub : Nat) :
    Within M d₀ (d.partWritten p sub) := by
  refine hW.step ?_ hM
  clear hW hM
  unfold Dev.partWritten
  repeat' first | (with_reducible first | assumption | exact .refl _ | apply Dev.closeConns_within | apply Dev.endSessions_within | (apply Within.when ?_ (fun d => ?_)) | apply Within.ite) | extract_lets | exact rfl

theorem Dev.changed_within {M : Nat} {d₀ d : Dev} (hM : Sub 19920646 M) (hW : Within M d₀ d) (d0 : Dev) (k : Nat) (t : Nat) :
    Within M d₀ (d0.changed d k t) := by
  refine hW.step ?_ hM
  clear hW hM
  unfold Dev.changed
  repeat' first | (with_reducible first | assumption | exact .refl _ | apply Dev.beaconWritten_within | apply Dev.channelFlipped_within | apply Dev.classWritten_within | apply Dev.closeConns_within | apply Dev.feedChanged_within | apply Dev.gridWritten_within | apply Dev.mountChanged_within | apply Dev.onCls_within | apply Dev.onFus_within | apply Dev.partWritten_within | apply Dev.peerEnabled_within | apply Dev.portDown_within | apply Dev.poseQueueWritten_within | apply Dev.ptpPortCheck_within | apply Dev.rebase_within | apply Dev.refactorAll_within | apply Dev.refreshChannels_within | apply Dev.refreshDac_within | apply Dev.refreshDomains_within | apply Dev.resamplerWritten_within | apply Dev.reselect_within | apply Dev.retrain_within | apply Dev.routeSourceChanged_within | apply Dev.setN_within | apply Dev.slotWritten_within | apply Dev.toneWritten_within | apply Dev.trimReady_within | (apply Within.when ?_ (fun d => ?_)) | apply Within.ite) | extract_lets | exact rfl

theorem Dev.written_within {M : Nat} {d₀ d : Dev} (hM : Sub 19920646 M) (hW : Within M d₀ d) (d0 : Dev) (k : Nat) (t : Nat) :
    Within M d₀ (d0.written d k t) := by
  refine hW.step ?_ hM
  clear hW hM
  unfold Dev.written
  repeat' first | (with_reducible first | assumption | exact .refl _ | apply Dev.changed_within | apply Dev.setpointChanged_within | apply Within.ite) | extract_lets | exact rfl

end Sys2Proof.Machine
end

