-- ==== Sys2Proof/Laws/PoursFrame.lean ====
section
/-! SUPPORT. What the operations of Machine/Pours.lean leave alone. -/
namespace Sys2Proof.Machine

theorem Dev.onPours_within {M : Nat} {d₀ d : Dev} (hM : Sub 1048576 M) (hW : Within M d₀ d) (f : Pours → Pours) :
    Within M d₀ (d.onPours f) := by
  refine hW.step ?_ hM
  clear hW hM
  unfold Dev.onPours
  repeat' first | (with_reducible first | assumption | exact .refl _) | with_reducible apply Within.pours_set | exact rfl

theorem Dev.onPour_within {M : Nat} {d₀ d : Dev} (hM : Sub 1048576 M) (hW : Within M d₀ d) (h : Nat) (f : Pour → Pour) :
    Within M d₀ (d.onPour h f) := by
  refine hW.step ?_ hM
  clear hW hM
  unfold Dev.onPour
  repeat' first | (with_reducible first | assumption | exact .refl _ | apply Dev.onPours_within | apply Within.ite) | exact rfl

theorem Dev.refreshHeld_within {M : Nat} {d₀ d : Dev} (hM : Sub 0 M) (hW : Within M d₀ d) :
    Within M d₀ (d.refreshHeld) := by
  refine hW.step ?_ hM
  clear hW hM
  unfold Dev.refreshHeld
  repeat' first | (with_reducible first | assumption | exact .refl _ | apply Dev.refreshAlive_within | apply Dev.setN_within | apply Within.ite) | extract_lets | with_reducible apply Within.genReserved_set | exact rfl

theorem Dev.endPour_within {M : Nat} {d₀ d : Dev} (hM : Sub 1048576 M) (hW : Within M d₀ d) (h : Nat) (st : Nat) (cause : Nat) :
    Within M d₀ (d.endPour h st cause) := by
  refine hW.step ?_ hM
  clear hW hM
  unfold Dev.endPour
  repeat' first | (with_reducible first | assumption | exact .refl _ | apply Dev.onPours_within | apply Dev.refreshHeld_within | split) | exact rfl

theorem Dev.overlay_within {M : Nat} {d₀ d : Dev} (hM : Sub 0 M) (hW : Within M d₀ d) (es : List PourEntry) :
    Within M d₀ (d.overlay es) := by
  refine hW.step ?_ hM
  clear hW hM
  unfold Dev.overlay
  repeat' first | (with_reducible first | assumption | exact .refl _ | apply Dev.set_within | (apply Within.each ?_ (fun d x => ?_))) | exact rfl

theorem Dev.bindingsAfter_within {M : Nat} {d₀ d : Dev} (hM : Sub 0 M) (hW : Within M d₀ d) (t : Nat) (es : List PourEntry) :
    Within M d₀ (d.bindingsAfter t es) := by
  refine hW.step ?_ hM
  clear hW hM
  unfold Dev.bindingsAfter
  repeat' first | (with_reducible first | assumption | exact .refl _ | apply Dev.overlay_within | (apply Within.each ?_ (fun d x => ?_))) | extract_lets | exact rfl

theorem Dev.pourAnswer_within {M : Nat} {d₀ d : Dev} (hM : Sub 6291968 M) (hW : Within M d₀ d) (rq : PourReq) (status : Nat) (detail : Nat) :
    Within M d₀ (d.pourAnswer rq status detail) := by
  refine hW.step ?_ hM
  clear hW hM
  unfold Dev.pourAnswer
  repeat' first | (with_reducible first | assumption | exact .refl _ | apply Dev.complete_within) | exact rfl

theorem Dev.storeScene_within {M : Nat} {d₀ d : Dev} (hM : Sub 10485760 M) (hW : Within M d₀ d) (rq : PourReq) (part : Nat) (n : Nat) (l : List RawEntry) (area : Bytes) :
    Within M d₀ (d.storeScene rq part n l area) := by
  refine hW.step ?_ hM
  clear hW hM
  unfold Dev.storeScene
  repeat' first | (with_reducible first | assumption | exact .refl _ | apply Dev.countCommit_within | apply Dev.onSession_within | apply Dev.set_within | apply Dev.setBlob_within | (apply Within.each ?_ (fun d x => ?_))) | extract_lets | with_reducible apply Within.dict_set | exact rfl

theorem Dev.pourStore_within {M : Nat} {d₀ d : Dev} (hM : Sub 14680576 M) (hW : Within M d₀ d) (se : Session) (rq : PourReq) (h : PourHead) (l : List RawEntry) :
    Within M d₀ (d.pourStore se rq h l) := by
  refine hW.step ?_ hM
  clear hW hM
  unfold Dev.pourStore
  repeat' first | (with_reducible first | assumption | exact .refl _ | apply Dev.pourAnswer_within | apply Dev.storeScene_within | split) | exact rfl

theorem Dev.armed_within {M : Nat} {d₀ d : Dev} (hM : Sub 8192 M) (hW : Within M d₀ d) (es : List PourEntry) :
    Within M d₀ (d.armed es) := by
  refine hW.step ?_ hM
  clear hW hM
  unfold Dev.armed
  repeat' first | (with_reducible first | assumption | exact .refl _ | apply Dev.canaryDue_within | (apply Within.each ?_ (fun d x => ?_)) | (apply Within.when ?_ (fun d => ?_))) | exact rfl

theorem Dev.acceptPour_within {M : Nat} {d₀ d : Dev} (hM : Sub 7348736 M) (hW : Within M d₀ d) (se : Session) (rq : PourReq) (h : PourHead) (l : List (Nat × Bool × Int)) :
    Within M d₀ (d.acceptPour se rq h l) := by
  refine hW.step ?_ hM
  clear hW hM
  unfold Dev.acceptPour
  repeat' first | (with_reducible first | assumption | exact .refl _ | apply Dev.armed_within | apply Dev.onPours_within | apply Dev.overlay_within | apply Dev.pourAnswer_within | apply Dev.refreshHeld_within | (apply Within.when ?_ (fun d => ?_)) | apply Within.ite | split) | extract_lets | exact rfl

theorem Dev.pourDecided_within {M : Nat} {d₀ d : Dev} (hM : Sub 7348736 M) (hW : Within M d₀ d) (se : Session) (rq : PourReq) (h : PourHead) (all : List RawEntry) (f : Option Refuse) :
    Within M d₀ (d.pourDecided se rq h all f) := by
  refine hW.step ?_ hM
  clear hW hM
  unfold Dev.pourDecided
  repeat' first | (with_reducible first | assumption | exact .refl _ | apply Dev.acceptPour_within | apply Dev.pourAnswer_within | split) | exact rfl

theorem Dev.pourEntries_within {M : Nat} {d₀ d : Dev} (hM : Sub 7348736 M) (hW : Within M d₀ d) (se : Session) (rq : PourReq) (h : PourHead) (all : List RawEntry) :
    Within M d₀ (d.pourEntries se rq h all) := by
  refine hW.step ?_ hM
  clear hW hM
  unfold Dev.pourEntries
  repeat' first | (with_reducible first | assumption | exact .refl _ | apply Dev.pourDecided_within) | exact rfl

theorem Dev.pourDescriptor_within {M : Nat} {d₀ d : Dev} (hM : Sub 49291776 M) (hW : Within M d₀ d) (hd : Hdr) (se : Session) (rq : PourReq) (b : Bytes) :
    Within M d₀ (d.pourDescriptor hd se rq b) := by
  refine hW.step ?_ hM
  clear hW hM
  unfold Dev.pourDescriptor
  repeat' first | (with_reducible first | assumption | exact .refl _ | apply Dev.drop_within | apply Dev.ighViolation_within | apply Dev.pourAnswer_within | apply Dev.pourEntries_within | apply Dev.pourStore_within | apply Within.ite | split) | extract_lets | exact rfl

theorem Dev.pourSegment_within {M : Nat} {d₀ d : Dev} (hM : Sub 49291776 M) (hW : Within M d₀ d) (hd : Hdr) (se : Session) (b : Block) :
    Within M d₀ (d.pourSegment hd se b) := by
  refine hW.step ?_ hM
  clear hW hM
  unfold Dev.pourSegment
  repeat' first | (with_reducible first | assumption | exact .refl _ | apply Dev.drop_within | apply Dev.dropBlock_within | apply Dev.failBlock_within | apply Dev.ighViolation_within | apply Dev.pourDescriptor_within | apply Dev.sessionAnswer_within | apply Within.ite) | extract_lets | with_reducible apply Within.dict_set | exact rfl

theorem Dev.pourFrame_within {M : Nat} {d₀ d : Dev} (hM : Sub 49291776 M) (hW : Within M d₀ d) (hd : Hdr) (payload : Bytes) :
    Within M d₀ (d.pourFrame hd payload) := by
  refine hW.step ?_ hM
  clear hW hM
  unfold Dev.pourFrame
  repeat' first | (with_reducible first | assumption | exact .refl _ | apply Dev.drop_within | apply Dev.ighViolation_within | apply Dev.onSession_within | apply Dev.pourAnswer_within | apply Dev.pourDescriptor_within | apply Dev.pourSegment_within | apply Dev.sessionAnswer_within | apply Within.ite | split) | refine Dev.admission_stop rfl ?_ (by assumption) | refine Dev.admission_go rfl ?_ (by assumption) | extract_lets | exact rfl

theorem execPour_within {hd : Hdr} {payload : Bytes} {s t : State} (h : execPour hd payload s = .next t) :
    Within 49291776 s.dev t.dev := by
  unfold execPour at h
  refine onDev_within h fun d => ?_
  repeat' first | (with_reducible first | assumption | exact .refl _ | apply Dev.pourFrame_within) | exact rfl

theorem execPourStore_within {hd : Hdr} {payload : Bytes} {s t : State} (h : execPourStore hd payload s = .next t) :
    Within 49291776 s.dev t.dev := by
  unfold execPourStore at h
  refine onDev_within h fun d => ?_
  repeat' first | (with_reducible first | assumption | exact .refl _ | apply Dev.pourFrame_within) | exact rfl

theorem execPourRecall_within {hd : Hdr} {payload : Bytes} {s t : State} (h : execPourRecall hd payload s = .next t) :
    Within 49291776 s.dev t.dev := by
  unfold execPourRecall at h
  refine onDev_within h fun d => ?_
  repeat' first | (with_reducible first | assumption | exact .refl _ | apply Dev.pourFrame_within) | exact rfl

theorem Dev.applyPour_within {M : Nat} {d₀ d : Dev} (hM : Sub 1048603 M) (hW : Within M d₀ d) (p : Pour) :
    Within M d₀ (d.applyPour p) := by
  refine hW.step ?_ hM
  clear hW hM
  unfold Dev.applyPour
  repeat' first | (with_reducible first | assumption | exact .refl _ | apply Dev.bump_within | apply Dev.endPour_within | apply Dev.event_within | apply Dev.onPour_within | apply Dev.signalFence_within | (apply Within.when ?_ (fun d => ?_)) | split) | extract_lets | exact rfl

theorem Dev.completePours_within {M : Nat} {d₀ d : Dev} (hM : Sub 1048603 M) (hW : Within M d₀ d) :
    Within M d₀ (d.completePours) := by
  refine hW.step ?_ hM
  clear hW hM
  unfold Dev.completePours
  repeat' first | (with_reducible first | assumption | exact .refl _ | apply Dev.applyPour_within | (apply Within.each ?_ (fun d x => ?_)) | apply Within.ite | split) | exact rfl

theorem execPourShadowLoaded_within {handle : Nat} {s t : State} (h : execPourShadowLoaded handle s = .next t) :
    Within 1048603 s.dev t.dev := by
  unfold execPourShadowLoaded at h
  refine onDev_within h fun d => ?_
  repeat' first | (with_reducible first | assumption | exact .refl _ | apply Dev.completePours_within | apply Dev.onPour_within | apply Within.ite | split) | exact rfl

theorem execPourGenerationReserved_within {handle : Nat} {s t : State} (h : execPourGenerationReserved handle s = .next t) :
    Within 1056768 s.dev t.dev := by
  unfold execPourGenerationReserved at h
  refine onDev_within h fun d => ?_
  repeat' first | (with_reducible first | assumption | exact .refl _ | apply Dev.armed_within | apply Dev.onPour_within | apply Dev.refreshHeld_within | apply Within.ite | split) | exact rfl

theorem execPourBacklogTimeout_within {handle : Nat} {s t : State} (h : execPourBacklogTimeout handle s = .next t) :
    Within 1048576 s.dev t.dev := by
  unfold execPourBacklogTimeout at h
  refine onDev_within h fun d => ?_
  repeat' first | (with_reducible first | assumption | exact .refl _ | apply Dev.bump_within | apply Dev.endPour_within | apply Dev.event_within | apply Within.ite | split) | exact rfl

theorem execPourCancel_within {hd : Hdr} {cond : Option Nat} {v : Bytes} {s t : State} (h : execPourCancel hd cond v s = .next t) :
    Within 40894976 s.dev t.dev := by
  unfold execPourCancel at h
  refine onDev_within h fun d => ?_
  repeat' first | (with_reducible first | assumption | exact .refl _ | apply Dev.bump_within | apply Dev.endPour_within | refine Dev.writeReq_within ?_ ?_ (fun se n d => ?_)) | exact rfl

theorem Dev.cancelLost_within {M : Nat} {d₀ d : Dev} (hM : Sub 1048576 M) (hW : Within M d₀ d) (d0 : Dev) :
    Within M d₀ (d0.cancelLost d) := by
  refine hW.step ?_ hM
  clear hW hM
  unfold Dev.cancelLost
  repeat' first | (with_reducible first | assumption | exact .refl _ | apply Dev.bump_within | apply Dev.endPour_within | apply Dev.event_within | (apply Within.each ?_ (fun d x => ?_))) | extract_lets | exact rfl

theorem Dev.commitFlip_within {M : Nat} {d₀ d : Dev} (hM : Sub 3145728 M) (hW : Within M d₀ d) (h : Nat) (uid : Nat) (vals : List (Nat × Int)) :
    Within M d₀ (d.commitFlip h uid vals) := by
  refine hW.step ?_ hM
  clear hW hM
  unfold Dev.commitFlip
  repeat' first | (with_reducible first | assumption | exact .refl _ | apply Dev.countCommit_within | apply Dev.onPour_within | apply Dev.onPours_within | apply Within.ite | split) | extract_lets | exact rfl

theorem Dev.feedFlipped_within {M : Nat} {d₀ d : Dev} (hM : Sub 8192 M) (hW : Within M d₀ d) (d0 : Dev) (es : List PourEntry) :
    Within M d₀ (d0.feedFlipped d es) := by
  refine hW.step ?_ hM
  clear hW hM
  unfold Dev.feedFlipped
  repeat' first | (with_reducible first | assumption | exact .refl _ | apply Dev.feedChanged_within | (apply Within.each ?_ (fun d x => ?_)) | apply Within.ite) | extract_lets | exact rfl

theorem Dev.waitFilters_within {M : Nat} {d₀ d : Dev} (hM : Sub 131072 M) (hW : Within M d₀ d) (h : Nat) (m : Nat) (len : Nat) (es : List PourEntry) :
    Within M d₀ (d.waitFilters h m len es) := by
  refine hW.step ?_ hM
  clear hW hM
  unfold Dev.waitFilters
  repeat' first | (with_reducible first | assumption | exact .refl _ | apply Dev.onMix_within | (apply Within.each ?_ (fun d x => ?_))) | exact rfl

theorem Dev.pouredAt_within {M : Nat} {d₀ d : Dev} (hM : Sub 131072 M) (hW : Within M d₀ d) (k : Nat) (t : Nat) :
    Within M d₀ (d.pouredAt k t) := by
  refine hW.step ?_ hM
  clear hW hM
  unfold Dev.pouredAt
  repeat' first | (with_reducible first | assumption | exact .refl _ | apply Dev.discardControl_within | apply Dev.onMix_within | apply Within.ite | split) | extract_lets | exact rfl

theorem Dev.takeValues_within {M : Nat} {d₀ d : Dev} (hM : Sub 19920646 M) (hW : Within M d₀ d) (d0 : Dev) (p : Pour) (uid : Nat) (t : Nat) (m : Nat) (es : List PourEntry) :
    Within M d₀ (d0.takeValues d p uid t m es) := by
  refine hW.step ?_ hM
  clear hW hM
  unfold Dev.takeValues
  repeat' first | (with_reducible first | assumption | exact .refl _ | apply Dev.bumpVer_within | apply Dev.feedFlipped_within | apply Dev.play_within | apply Dev.pouredAt_within | apply Dev.set_within | apply Dev.shift_within | apply Dev.startRamp_within | apply Dev.stepped_within | apply Dev.written_within | (apply Within.each ?_ (fun d x => ?_)) | (apply Within.when ?_ (fun d => ?_)) | apply Within.ite) | extract_lets | exact rfl

theorem Dev.flipGeneration_within {M : Nat} {d₀ d : Dev} (hM : Sub 1024 M) (hW : Within M d₀ d) (p : Pour) (uid : Nat) :
    Within M d₀ (d.flipGeneration p uid) := by
  refine hW.step ?_ hM
  clear hW hM
  unfold Dev.flipGeneration
  repeat' first | (with_reducible first | assumption | exact .refl _ | apply Dev.onSlot_within | apply Dev.setN_within | (apply Within.each ?_ (fun d x => ?_)) | (apply Within.when ?_ (fun d => ?_)) | apply Within.ite | split) | extract_lets | exact rfl

theorem Dev.flipUnit_within {M : Nat} {d₀ d : Dev} (hM : Sub 20969222 M) (hW : Within M d₀ d) (p : Pour) (x : PourPart) (t : Nat) (engine : Option (Fin 8)) :
    Within M d₀ (d.flipUnit p x t engine) := by
  refine hW.step ?_ hM
  clear hW hM
  unfold Dev.flipUnit
  repeat' first | (with_reducible first | assumption | exact .refl _ | apply Dev.commitFlip_within | apply Dev.flipGeneration_within | apply Dev.onPour_within | apply Dev.refreshHeld_within | apply Dev.takeValues_within | apply Dev.waitFilters_within | apply Within.ite) | extract_lets | exact rfl

theorem Dev.flipUid_within {M : Nat} {d₀ d : Dev} (hM : Sub 20969222 M) (hW : Within M d₀ d) (uid : Nat) (engine : Option (Fin 8)) :
    Within M d₀ (d.flipUid uid engine) := by
  refine hW.step ?_ hM
  clear hW hM
  unfold Dev.flipUid
  repeat' first | (with_reducible first | assumption | exact .refl _ | apply Dev.flipUnit_within | (apply Within.each ?_ (fun d x => ?_)) | apply Within.ite | split) | extract_lets | exact rfl

theorem Dev.flipAll_within {M : Nat} {d₀ d : Dev} (hM : Sub 20969247 M) (hW : Within M d₀ d) (uids : List Nat) (engine : Option (Fin 8)) :
    Within M d₀ (d.flipAll uids engine) := by
  refine hW.step ?_ hM
  clear hW hM
  unfold Dev.flipAll
  repeat' first | (with_reducible first | assumption | exact .refl _ | apply Dev.completePours_within | apply Dev.flipUid_within | (apply Within.each ?_ (fun d x => ?_))) | exact rfl

theorem execPourFlip_within {uid : Nat} {engine : Option (Fin 8)} {s t : State} (h : execPourFlip uid engine s = .next t) :
    Within 20969247 s.dev t.dev := by
  unfold execPourFlip at h
  refine onDev_within h fun d => ?_
  repeat' first | (with_reducible first | assumption | exact .refl _ | apply Dev.flipAll_within | apply Within.ite) | exact rfl

theorem Dev.startFilter_within {M : Nat} {d₀ d : Dev} (hM : Sub 3276800 M) (hW : Within M d₀ d) (w : FilterWait) (j : Nat) :
    Within M d₀ (d.startFilter w j) := by
  refine hW.step ?_ hM
  clear hW hM
  unfold Dev.startFilter
  repeat' first | (with_reducible first | assumption | exact .refl _ | apply Dev.applyControl_within | apply Dev.bumpVer_within | apply Dev.commitFlip_within | apply Dev.onPour_within | apply Dev.pouredAt_within | apply Dev.set_within | apply Dev.shift_within | apply Dev.startRamp_within | (apply Within.each ?_ (fun d x => ?_)) | apply Within.ite | split) | extract_lets | exact rfl

theorem Dev.endFade_within {M : Nat} {d₀ d : Dev} (hM : Sub 131072 M) (hW : Within M d₀ d) (key : Nat) :
    Within M d₀ (d.endFade key) := by
  refine hW.step ?_ hM
  clear hW hM
  unfold Dev.endFade
  repeat' first | (with_reducible first | assumption | exact .refl _ | apply Dev.set_within | apply Dev.setVoice_within | (apply Within.each ?_ (fun d x => ?_))) | exact rfl

theorem execRampEnd_within {key : Nat} {s t : State} (h : execRampEnd key s = .next t) :
    Within 3276827 s.dev t.dev := by
  unfold execRampEnd at h
  refine onDev_within h fun d => ?_
  repeat' first | (with_reducible first | assumption | exact .refl _ | apply Dev.completePours_within | apply Dev.endFade_within | apply Dev.onMix_within | apply Dev.startFilter_within | apply Within.ite | split) | extract_lets | exact rfl

theorem execPourCommitDone_within {handle : Nat} {uid : Nat} {s t : State} (h : execPourCommitDone handle uid s = .next t) :
    Within 1048640 s.dev t.dev := by
  unfold execPourCommitDone at h
  refine onDev_within h fun d => ?_
  repeat' first | (with_reducible first | assumption | exact .refl _ | apply Dev.bump_within | apply Dev.onPours_within | apply Dev.toFlash_within | (apply Within.each ?_ (fun d x => ?_)) | split) | exact rfl

theorem Dev.eraseScene_within {M : Nat} {d₀ d : Dev} (hM : Sub 8388672 M) (hW : Within M d₀ d) (n : Nat) :
    Within M d₀ (d.eraseScene n) := by
  refine hW.step ?_ hM
  clear hW hM
  unfold Dev.eraseScene
  repeat' first | (with_reducible first | assumption | exact .refl _ | apply Dev.blobToFlash_within | apply Dev.set_within | apply Dev.setBlob_within | apply Dev.toFlash_within | (apply Within.each ?_ (fun d x => ?_))) | extract_lets | exact rfl

theorem execSceneErase_within {hd : Hdr} {cond : Option Nat} {scene : Fin 64} {s t : State} (h : execSceneErase hd cond scene s = .next t) :
    Within 48235072 s.dev t.dev := by
  unfold execSceneErase at h
  refine onDev_within h fun d => ?_
  repeat' first | (with_reducible first | assumption | exact .refl _ | apply Dev.eraseScene_within | refine Dev.writeReq_within ?_ ?_ (fun se n d => ?_)) | exact rfl

theorem Dev.refreshPours_within {M : Nat} {d₀ d : Dev} (hM : Sub 1048603 M) (hW : Within M d₀ d) :
    Within M d₀ (d.refreshPours) := by
  refine hW.step ?_ hM
  clear hW hM
  unfold Dev.refreshPours
  repeat' first | (with_reducible first | assumption | exact .refl _ | apply Dev.completePours_within | apply Dev.drawn_within | apply Dev.event_within | apply Dev.onPour_within | (apply Within.each ?_ (fun d x => ?_)) | apply Within.ite) | extract_lets | exact rfl

theorem execMixLaneDrop_within {lane : Fin 4} {s t : State} (h : execMixLaneDrop lane s = .next t) :
    Within 1179675 s.dev t.dev := by
  unfold execMixLaneDrop at h
  refine onDev_within h fun d => ?_
  repeat' first | (with_reducible first | assumption | exact .refl _ | apply Dev.dropLane_within | apply Dev.refreshPours_within) | exact rfl

end Sys2Proof.Machine
end

