-- ==== Sys2Proof/Laws/BoundariesFrame.lean ====
section
/-! SUPPORT. What the operations of Machine/Boundaries.lean leave alone. -/
namespace Sys2Proof.Machine

theorem Dev.flipSlots_within {M : Nat} {d₀ d : Dev} (hM : Sub 20969247 M) (hW : Within M d₀ d) (hit : (Nat → Int) → Nat → Bool) :
    Within M d₀ (d.flipSlots hit) := by
  refine hW.step ?_ hM
  clear hW hM
  unfold Dev.flipSlots
  repeat' first | (with_reducible first | assumption | exact .refl _ | apply Dev.flipAll_within) | exact rfl

theorem execCsiFrameStart_within {port : Fin 6} {vc : Fin 4} {s t : State} (h : execCsiFrameStart port vc s = .next t) :
    Within 54523679 s.dev t.dev := by
  unfold execCsiFrameStart at h
  refine onDev_within h fun d => ?_
  repeat' first | (with_reducible first | assumption | exact .refl _ | apply Dev.csiCut_snd | apply Dev.csiFrameStart_within | apply Dev.flipSlots_within | apply Within.ite) | refine Dev.csiCut_of (by exact rfl) ?_ (by assumption) | extract_lets | exact rfl

theorem execScannerDatagram_within {port : Fin 2} {srcIp : Nat} {dstPort : Nat} {fragmented : Bool} {payload : Bytes} {found : Found} {s t : State} (h : execScannerDatagram port srcIp dstPort fragmented payload found s = .next t) :
    Within 54523679 s.dev t.dev := by
  unfold execScannerDatagram at h
  refine onDev_within h fun d => ?_
  repeat' first | (with_reducible first | assumption | exact .refl _ | apply Dev.bump_within | apply Dev.flipSlots_within | apply Dev.scannerDatagram_within | apply Within.ite) | extract_lets | exact rfl

theorem execImuDrdyEdge_within {port : Fin 4} {rising : Bool} {s t : State} (h : execImuDrdyEdge port rising s = .next t) :
    Within 54523679 s.dev t.dev := by
  unfold execImuDrdyEdge at h
  refine onDev_within h fun d => ?_
  repeat' first | (with_reducible first | assumption | exact .refl _ | apply Dev.flipSlots_within | apply Dev.imuDrdy_within | apply Within.ite) | exact rfl

theorem execEncoderTransition_within {ch : Fin 8} {step : Option Bool} {s t : State} (h : execEncoderTransition ch step s = .next t) :
    Within 54525727 s.dev t.dev := by
  unfold execEncoderTransition at h
  refine onDev_within h fun d => ?_
  repeat' first | (with_reducible first | assumption | exact .refl _ | apply Dev.encoderStep_within | apply Dev.flipSlots_within | apply Within.ite) | exact rfl

theorem execEncoderPeriodEnd_within {slot : Fin 32} {s t : State} (h : execEncoderPeriodEnd slot s = .next t) :
    Within 54525727 s.dev t.dev := by
  unfold execEncoderPeriodEnd at h
  refine onDev_within h fun d => ?_
  repeat' first | (with_reducible first | assumption | exact .refl _ | apply Dev.encoderPeriod_within | apply Dev.flipSlots_within | apply Within.ite) | exact rfl

theorem execCanSensorFrame_within {ctl : Fin 2} {id : Nat} {extended : Bool} {data : Bytes} {found : Found} {s t : State} (h : execCanSensorFrame ctl id extended data found s = .next t) :
    Within 54523679 s.dev t.dev := by
  unfold execCanSensorFrame at h
  refine onDev_within h fun d => ?_
  repeat' first | (with_reducible first | assumption | exact .refl _ | apply Dev.canSensor_within | apply Dev.countCan_within | apply Dev.flipSlots_within | apply Dev.send_within | apply Within.ite) | extract_lets | exact rfl

theorem execInferenceTrigger_within {src : Nat} {s t : State} (h : execInferenceTrigger src s = .next t) :
    Within 20969247 s.dev t.dev := by
  unfold execInferenceTrigger at h
  refine onDev_within h fun d => ?_
  repeat' first | (with_reducible first | assumption | exact .refl _ | apply Dev.feedItem_within | apply Dev.flipAll_within | (apply Within.when ?_ (fun d => ?_))) | exact rfl

theorem execInferenceDispatch_within {e : Fin 8} {s t : State} (h : execInferenceDispatch e s = .next t) :
    Within 20969247 s.dev t.dev := by
  unfold execInferenceDispatch at h
  refine onDev_within h fun d => ?_
  repeat' first | (with_reducible first | assumption | exact .refl _ | apply Dev.dispatch_within | apply Dev.flipAll_within | apply Within.ite | split) | extract_lets | exact rfl

theorem execSolverBatchStart_within {s t : State} (h : execSolverBatchStart s = .next t) :
    Within 54523679 s.dev t.dev := by
  unfold execSolverBatchStart at h
  refine onDev_within h fun d => ?_
  repeat' first | (with_reducible first | assumption | exact .refl _ | apply Dev.flipAll_within | apply Dev.startBatch_within | apply Within.ite) | extract_lets | exact rfl

end Sys2Proof.Machine
end

