-- ==== Sys2Proof/Laws/PowerFrame.lean ====
section
/-! SUPPORT. What the operations of Machine/Power.lean leave alone. -/
namespace Sys2Proof.Machine

theorem Dev.noteBusy_within {M : Nat} {d₀ d : Dev} (hM : Sub 16777216 M) (hW : Within M d₀ d) :
    Within M d₀ (d.noteBusy) := by
  refine hW.step ?_ hM
  clear hW hM
  unfold Dev.noteBusy
  repeat' first | (with_reducible first | assumption | exact .refl _ | apply Dev.onPow_within | apply Within.ite) | exact rfl

theorem Dev.clock_within {M : Nat} {d₀ d : Dev} (hM : Sub 16777222 M) (hW : Within M d₀ d) :
    Within M d₀ (d.clock) := by
  refine hW.step ?_ hM
  clear hW hM
  unfold Dev.clock
  repeat' first | (with_reducible first | assumption | exact .refl _ | apply Dev.noteBusy_within | apply Dev.tick_within) | exact rfl

theorem Dev.routesSilent_within {M : Nat} {d₀ d : Dev} (hM : Sub 256 M) (hW : Within M d₀ d) :
    Within M d₀ (d.routesSilent) := by
  refine hW.step ?_ hM
  clear hW hM
  unfold Dev.routesSilent
  repeat' first | (with_reducible first | assumption | exact .refl _ | apply Dev.driveReleased_within | (apply Within.each ?_ (fun d x => ?_))) | exact rfl

theorem Dev.stopIslands_within {M : Nat} {d₀ d : Dev} (hM : Sub 256 M) (hW : Within M d₀ d) (st : Nat) :
    Within M d₀ (d.stopIslands st) := by
  refine hW.step ?_ hM
  clear hW hM
  unfold Dev.stopIslands
  repeat' first | (with_reducible first | assumption | exact .refl _ | apply Dev.routesSilent_within | apply Dev.set_within | (apply Within.each ?_ (fun d x => ?_)) | (apply Within.when ?_ (fun d => ?_))) | extract_lets | exact rfl

theorem execPowerStateEntry_within {st : Fin 5} {taken : Nat} {s t : State} (h : execPowerStateEntry st taken s = .next t) :
    Within 16777472 s.dev t.dev := by
  unfold execPowerStateEntry at h
  refine onDev_within h fun d => ?_
  repeat' first | (with_reducible first | assumption | exact .refl _ | apply Dev.closeResidency_within | apply Dev.event_within | apply Dev.setN_within | apply Dev.stopIslands_within | apply Within.ite | split) | extract_lets | exact rfl

theorem execDemandWake_within {island : Fin 25} {s t : State} (h : execDemandWake island s = .next t) :
    Within 16777216 s.dev t.dev := by
  unfold execDemandWake at h
  refine onDev_within h fun d => ?_
  repeat' first | (with_reducible first | assumption | exact .refl _ | apply Dev.beginExit_within | apply Dev.bump_within | apply Within.ite) | exact rfl

theorem execEarlyWake_within {s t : State} (h : execEarlyWake s = .next t) :
    Within 16777216 s.dev t.dev := by
  unfold execEarlyWake at h
  refine onDev_within h fun d => ?_
  repeat' first | (with_reducible first | assumption | exact .refl _ | apply Dev.beginExit_within | apply Dev.bump_within | apply Dev.event_within | apply Within.ite | split) | exact rfl

theorem execPowerStateExitDone_within {s t : State} (h : execPowerStateExitDone s = .next t) :
    Within 16777216 s.dev t.dev := by
  unfold execPowerStateExitDone at h
  refine onDev_within h fun d => ?_
  repeat' first | (with_reducible first | assumption | exact .refl _ | apply Dev.closeResidency_within | apply Dev.event_within | apply Dev.onPow_within | apply Dev.set_within | apply Dev.setN_within | (apply Within.each ?_ (fun d x => ?_)) | (apply Within.when ?_ (fun d => ?_)) | apply Within.ite) | extract_lets | exact rfl

theorem execWakeToleranceWrite_within {hd : Hdr} {cond : Option Nat} {part : Option (Fin 8)} {v : Bytes} {s t : State} (h : execWakeToleranceWrite hd cond part v s = .next t) :
    Within 56623616 s.dev t.dev := by
  unfold execWakeToleranceWrite at h
  refine onDev_within h fun d => ?_
  repeat' first | (with_reducible first | assumption | exact .refl _ | apply Dev.powerCheck_within | refine Dev.writeStore_within ?_ ?_ (fun se n d => ?_) | split) | exact rfl

theorem execPowerCapWindow_within {avg : Nat} {s t : State} (h : execPowerCapWindow avg s = .next t) :
    Within 16777216 s.dev t.dev := by
  unfold execPowerCapWindow at h
  refine onDev_within h fun d => ?_
  repeat' first | (with_reducible first | assumption | exact .refl _ | apply Dev.event_within | apply Dev.onPow_within | apply Dev.setN_within | (apply Within.when ?_ (fun d => ?_)) | apply Within.ite | split) | extract_lets | exact rfl

theorem Dev.recordTemp_within {M : Nat} {d₀ d : Dev} (hM : Sub 16777216 M) (hW : Within M d₀ d) (i : Nat) (t : Int) :
    Within M d₀ (d.recordTemp i t) := by
  refine hW.step ?_ hM
  clear hW hM
  unfold Dev.recordTemp
  repeat' first | (with_reducible first | assumption | exact .refl _ | apply Dev.onPow_within | apply Dev.set_within | (apply Within.when ?_ (fun d => ?_)) | apply Within.ite) | extract_lets | exact rfl

theorem Dev.dieTemp_within {M : Nat} {d₀ d : Dev} (hM : Sub 16785408 M) (hW : Within M d₀ d) (die : Nat) (t : Int) :
    Within M d₀ (d.dieTemp die t) := by
  refine hW.step ?_ hM
  clear hW hM
  unfold Dev.dieTemp
  repeat' first | (with_reducible first | assumption | exact .refl _ | apply Dev.abandonDie_within | apply Dev.event_within | apply Dev.recordTemp_within | apply Dev.setN_within | (apply Within.when ?_ (fun d => ?_)) | apply Within.ite) | extract_lets | exact rfl

theorem Dev.ioTemp_within {M : Nat} {d₀ d : Dev} (hM : Sub 16777216 M) (hW : Within M d₀ d) (t : Int) :
    Within M d₀ (d.ioTemp t) := by
  refine hW.step ?_ hM
  clear hW hM
  unfold Dev.ioTemp
  repeat' first | (with_reducible first | assumption | exact .refl _ | apply Dev.event_within | apply Dev.onPow_within | apply Dev.setN_within | apply Within.ite) | extract_lets | exact rfl

theorem Dev.thermalTrip_within {M : Nat} {d₀ d : Dev} (hM : Sub 67108863 M) (hW : Within M d₀ d) (t : Int) :
    Within M d₀ (d.thermalTrip t) := by
  refine hW.step ?_ hM
  clear hW hM
  unfold Dev.thermalTrip
  repeat' first | (with_reducible first | assumption | exact .refl _ | apply Dev.onPow_within | apply Dev.safeRestart_within | apply Dev.set_within) | extract_lets | exact rfl

theorem execTemperatureSample_within {io : Int} {dies : List Int} {s t : State} (h : execTemperatureSample io dies s = .next t) :
    Within 67108863 s.dev t.dev := by
  unfold execTemperatureSample at h
  refine onDev_within h fun d => ?_
  repeat' first | (with_reducible first | assumption | exact .refl _ | apply Dev.dieTemp_within | apply Dev.ioTemp_within | apply Dev.recordTemp_within | apply Dev.thermalTrip_within | (apply Within.each ?_ (fun d x => ?_)) | apply Within.ite | split) | extract_lets | exact rfl

theorem execThermalTripCooled_within {io : Int} {s t : State} (h : execThermalTripCooled io s = .next t) :
    Within 16777216 s.dev t.dev := by
  unfold execThermalTripCooled at h
  refine onDev_within h fun d => ?_
  repeat' first | (with_reducible first | assumption | exact .refl _ | apply Dev.onPow_within | apply Dev.set_within | apply Dev.setN_within | apply Within.ite) | extract_lets | exact rfl

theorem Dev.dropDie_within {M : Nat} {d₀ d : Dev} (hM : Sub 17834011 M) (hW : Within M d₀ d) (die : Nat) (cause : Nat) :
    Within M d₀ (d.dropDie die cause) := by
  refine hW.step ?_ hM
  clear hW hM
  unfold Dev.dropDie
  repeat' first | (with_reducible first | assumption | exact .refl _ | apply Dev.abandonDie_within | apply Dev.loseDie_within | apply Dev.powerCheck_within | apply Dev.refreshMask_within | apply Dev.refreshPours_within | apply Dev.setPlaced_within | (apply Within.each ?_ (fun d x => ?_)) | apply Within.ite) | extract_lets | exact rfl

theorem Dev.linkDown_within {M : Nat} {d₀ d : Dev} (hM : Sub 17834011 M) (hW : Within M d₀ d) (die : Nat) :
    Within M d₀ (d.linkDown die) := by
  refine hW.step ?_ hM
  clear hW hM
  unfold Dev.linkDown
  repeat' first | (with_reducible first | assumption | exact .refl _ | apply Dev.dropDie_within | apply Dev.loseDie_within | apply Dev.set_within | apply Within.ite) | exact rfl

theorem execLinkTransferError_within {link : Fin 8} {replays : Nat} {retrained : Bool} {s t : State} (h : execLinkTransferError link replays retrained s = .next t) :
    Within 17834011 s.dev t.dev := by
  unfold execLinkTransferError at h
  refine onDev_within h fun d => ?_
  repeat' first | (with_reducible first | assumption | exact .refl _ | apply Dev.bump_within | apply Dev.bumpBy_within | apply Dev.event_within | apply Dev.linkDown_within | apply Dev.setRing_within | apply Within.ite) | extract_lets | exact rfl

theorem Dev.mixStops_within {M : Nat} {d₀ d : Dev} (hM : Sub 3277083 M) (hW : Within M d₀ d) :
    Within M d₀ (d.mixStops) := by
  refine hW.step ?_ hM
  clear hW hM
  unfold Dev.mixStops
  repeat' first | (with_reducible first | assumption | exact .refl _ | apply Dev.completePours_within | apply Dev.endFade_within | apply Dev.onMix_within | apply Dev.routesSilent_within | apply Dev.startFilter_within | (apply Within.each ?_ (fun d x => ?_))) | extract_lets | exact rfl

theorem Dev.refreshSlots_within {M : Nat} {d₀ d : Dev} (hM : Sub 0 M) (hW : Within M d₀ d) (i : Nat) :
    Within M d₀ (d.refreshSlots i) := by
  refine hW.step ?_ hM
  clear hW hM
  unfold Dev.refreshSlots
  repeat' first | (with_reducible first | assumption | exact .refl _ | apply Dev.refreshSlot_within | (apply Within.each ?_ (fun d x => ?_))) | exact rfl

theorem Dev.islandStops_within {M : Nat} {d₀ d : Dev} (hM : Sub 20882207 M) (hW : Within M d₀ d) (i : Nat) :
    Within M d₀ (d.islandStops i) := by
  refine hW.step ?_ hM
  clear hW hM
  unfold Dev.islandStops
  repeat' first | (with_reducible first | assumption | exact .refl _ | apply Dev.abandonDie_within | apply Dev.anaQuiesced_within | apply Dev.endSessions_within | apply Dev.mixStops_within | apply Dev.portDown_within | apply Dev.ptpPortCheck_within | apply Dev.refreshChannels_within | apply Dev.refreshSlots_within | apply Dev.set_within | apply Dev.virekCut_within | apply Within.ite) | exact rfl

theorem Dev.anaReturns_within {M : Nat} {d₀ d : Dev} (hM : Sub 262144 M) (hW : Within M d₀ d) :
    Within M d₀ (d.anaReturns) := by
  refine hW.step ?_ hM
  clear hW hM
  unfold Dev.anaReturns
  repeat' first | (with_reducible first | assumption | exact .refl _ | apply Dev.beaconWritten_within | apply Dev.onAna_within | apply Dev.set_within | (apply Within.each ?_ (fun d x => ?_))) | exact rfl

theorem Dev.islandStarts_within {M : Nat} {d₀ d : Dev} (hM : Sub 17186843 M) (hW : Within M d₀ d) (i : Nat) :
    Within M d₀ (d.islandStarts i) := by
  refine hW.step ?_ hM
  clear hW hM
  unfold Dev.islandStarts
  repeat' first | (with_reducible first | assumption | exact .refl _ | apply Dev.abandonBatch_within | apply Dev.anaReturns_within | apply Dev.mixReturns_within | apply Dev.qmgReturns_within | apply Dev.refreshChannels_within | apply Dev.refreshSlots_within | apply Dev.set_within | apply Dev.tmgReturns_within | (apply Within.each ?_ (fun d x => ?_)) | (apply Within.when ?_ (fun d => ?_)) | apply Within.ite) | exact rfl

theorem Dev.quiesce_within {M : Nat} {d₀ d : Dev} (hM : Sub 20882207 M) (hW : Within M d₀ d) (i : Nat) (cause : Nat) :
    Within M d₀ (d.quiesce i cause) := by
  refine hW.step ?_ hM
  clear hW hM
  unfold Dev.quiesce
  repeat' first | (with_reducible first | assumption | exact .refl _ | apply Dev.closeIsland_within | apply Dev.islandStops_within) | exact rfl

theorem Dev.faultIsland_within {M : Nat} {d₀ d : Dev} (hM : Sub 67108863 M) (hW : Within M d₀ d) (i : Nat) :
    Within M d₀ (d.faultIsland i) := by
  refine hW.step ?_ hM
  clear hW hM
  unfold Dev.faultIsland
  repeat' first | (with_reducible first | assumption | exact .refl _ | apply Dev.bump_within | apply Dev.event_within | apply Dev.lockstepFault_within | apply Dev.quiesce_within | apply Dev.refreshChannels_within | apply Dev.safeRestart_within | apply Dev.set_within | (apply Within.when ?_ (fun d => ?_)) | apply Within.ite) | extract_lets | exact rfl

theorem execClockMonitorWindow_within {counts : List (Nat × Nat)} {s t : State} (h : execClockMonitorWindow counts s = .next t) :
    Within 67108863 s.dev t.dev := by
  unfold execClockMonitorWindow at h
  refine onDev_within h fun d => ?_
  repeat' first | (with_reducible first | assumption | exact .refl _ | apply Dev.event_within | apply Dev.faultIsland_within | apply Dev.set_within | (apply Within.each ?_ (fun d x => ?_)) | apply Within.ite) | exact rfl

theorem execIslandWatchdogExpiry_within {island : Fin 25} {s t : State} (h : execIslandWatchdogExpiry island s = .next t) :
    Within 67108863 s.dev t.dev := by
  unfold execIslandWatchdogExpiry at h
  refine onDev_within h fun d => ?_
  repeat' first | (with_reducible first | assumption | exact .refl _ | apply Dev.faultIsland_within | apply Within.ite) | exact rfl

theorem Dev.resetIsland_within {M : Nat} {d₀ d : Dev} (hM : Sub 20882207 M) (hW : Within M d₀ d) (i : Nat) :
    Within M d₀ (d.resetIsland i) := by
  refine hW.step ?_ hM
  clear hW hM
  unfold Dev.resetIsland
  repeat' first | (with_reducible first | assumption | exact .refl _ | apply Dev.emptyIsland_within | apply Dev.quiesce_within | apply Within.ite) | with_reducible apply Within.islCause_set | exact rfl

theorem Dev.holdIsland_within {M : Nat} {d₀ d : Dev} (hM : Sub 20882207 M) (hW : Within M d₀ d) (i : Nat) :
    Within M d₀ (d.holdIsland i) := by
  refine hW.step ?_ hM
  clear hW hM
  unfold Dev.holdIsland
  repeat' first | (with_reducible first | assumption | exact .refl _ | apply Dev.quiesce_within | apply Within.ite) | exact rfl

theorem execIslandReset_within {hd : Hdr} {cond : Option Nat} {island : Fin 25} {s t : State} (h : execIslandReset hd cond island s = .next t) :
    Within 58630943 s.dev t.dev := by
  unfold execIslandReset at h
  refine onDev_within h fun d => ?_
  repeat' first | (with_reducible first | assumption | exact .refl _ | apply Dev.finishWrite_within | apply Dev.resetIsland_within | split) | refine Dev.writeGate_stop rfl ?_ (by assumption) | refine Dev.writeGate_pass rfl ?_ (by assumption) | exact rfl

theorem execIslandHold_within {hd : Hdr} {cond : Option Nat} {island : Fin 25} {s t : State} (h : execIslandHold hd cond island s = .next t) :
    Within 58630943 s.dev t.dev := by
  unfold execIslandHold at h
  refine onDev_within h fun d => ?_
  repeat' first | (with_reducible first | assumption | exact .refl _ | apply Dev.finishWrite_within | apply Dev.holdIsland_within | split) | refine Dev.writeGate_stop rfl ?_ (by assumption) | refine Dev.writeGate_pass rfl ?_ (by assumption) | exact rfl

theorem execQuiesceBoundaryEmpty_within {island : Fin 25} {s t : State} (h : execQuiesceBoundaryEmpty island s = .next t) :
    Within 17834011 s.dev t.dev := by
  unfold execQuiesceBoundaryEmpty at h
  refine onDev_within h fun d => ?_
  repeat' first | (with_reducible first | assumption | exact .refl _ | apply Dev.dropDie_within | apply Dev.emptyIsland_within | (apply Within.when ?_ (fun d => ?_)) | apply Within.ite) | extract_lets | exact rfl

theorem Dev.nextLive_within {M : Nat} {d₀ d : Dev} (hM : Sub 20882207 M) (hW : Within M d₀ d) :
    Within M d₀ (d.nextLive) := by
  refine hW.step ?_ hM
  clear hW hM
  unfold Dev.nextLive
  dsimp only
  repeat' first | (with_reducible first | assumption | exact .refl _ | apply Dev.onPow_within | apply Dev.quiesce_within | split) | extract_lets | exact rfl

theorem execIslandReturn_within {island : Fin 25} {s t : State} (h : execIslandReturn island s = .next t) :
    Within 20898591 s.dev t.dev := by
  unfold execIslandReturn at h
  refine onDev_within h fun d => ?_
  repeat' first | (with_reducible first | assumption | exact .refl _ | apply Dev.islandStarts_within | apply Dev.nextLive_within | apply Dev.onPow_within | apply Dev.returnIsland_within | apply Dev.set_within | (apply Within.when ?_ (fun d => ?_)) | apply Within.ite) | extract_lets | exact rfl

theorem execStaleReplyReceived_within {island : Fin 25} {incarnation : Nat} {s t : State} (h : execStaleReplyReceived island incarnation s = .next t) :
    Within 0 s.dev t.dev := by
  unfold execStaleReplyReceived at h
  refine onDev_within h fun d => ?_
  repeat' first | (with_reducible first | assumption | exact .refl _ | apply Dev.bump_within | apply Within.ite) | exact rfl

theorem Dev.activateLive_within {M : Nat} {d₀ d : Dev} (hM : Sub 20882335 M) (hW : Within M d₀ d) :
    Within M d₀ (d.activateLive) := by
  refine hW.step ?_ hM
  clear hW hM
  unfold Dev.activateLive
  repeat' first | (with_reducible first | assumption | exact .refl _ | apply Dev.endClaim_within | apply Dev.nextLive_within | apply Dev.onBoot_within | apply Dev.onPow_within | apply Dev.powerCheck_within | apply Dev.set_within | apply Dev.setN_within) | extract_lets | exact rfl

theorem execUpdateActivateLive_within {hd : Hdr} {cond : Option Nat} {s t : State} (h : execUpdateActivateLive hd cond s = .next t) :
    Within 58631071 s.dev t.dev := by
  unfold execUpdateActivateLive at h
  refine onDev_within h fun d => ?_
  repeat' first | (with_reducible first | assumption | exact .refl _ | apply Dev.activateLive_within | refine Dev.writeReq_within ?_ ?_ (fun se n d => ?_)) | exact rfl

end Sys2Proof.Machine
end

