-- ==== Sys2Proof/Laws/ReadFrame.lean ====
section
/-! SUPPORT. What the operations of Machine/Read.lean leave alone. -/
namespace Sys2Proof.Machine

theorem Dev.readReq_within {M : Nat} {d₀ d : Dev} {hd : Hdr} {idx sub : Nat} {latch : Session → Dev → Dev}
    (hM : Sub 39846400 M) (h : Within M d₀ d) (k : ∀ se d, Within M d (latch se d)) : Within M d₀ (d.readReq hd idx sub latch) := by
  unfold Dev.readReq
  extract_lets
  split
  · exact Dev.readGate_stop hM h (by assumption)
  · have g := Dev.readGate_pass hM h (by assumption)
    extract_lets
    apply Within.ite <;> exact Dev.complete_within (Sub.trans (B := 39846400) rfl hM) (g.trans (k _ _)) _ _ _ _ _ _

theorem Dev.latchNow_within {M : Nat} {d₀ d : Dev} (hM : Sub 0 M) (hW : Within M d₀ d) (se : Session) :
    Within M d₀ (d.latchNow se) := by
  refine hW.step ?_ hM
  clear hW hM
  unfold Dev.latchNow
  repeat' first | (with_reducible first | assumption | exact .refl _) | with_reducible apply Within.latches_set | exact rfl

theorem Dev.latchPhase_within {M : Nat} {d₀ d : Dev} (hM : Sub 0 M) (hW : Within M d₀ d) (se : Session) :
    Within M d₀ (d.latchPhase se) := by
  refine hW.step ?_ hM
  clear hW hM
  unfold Dev.latchPhase
  repeat' first | (with_reducible first | assumption | exact .refl _) | with_reducible apply Within.phaseLatches_set | exact rfl

theorem execTimelineNowRead_within {hd : Hdr} {s t : State} (h : execTimelineNowRead hd s = .next t) :
    Within 39846400 s.dev t.dev := by
  unfold execTimelineNowRead at h
  refine onDev_within h fun d => ?_
  repeat' first | (with_reducible first | assumption | exact .refl _ | apply Dev.latchNow_within | refine Dev.readReq_within ?_ ?_ (fun se d => ?_)) | exact rfl

theorem execPhaseErrorRead_within {hd : Hdr} {s t : State} (h : execPhaseErrorRead hd s = .next t) :
    Within 39846400 s.dev t.dev := by
  unfold execPhaseErrorRead at h
  refine onDev_within h fun d => ?_
  repeat' first | (with_reducible first | assumption | exact .refl _ | apply Dev.latchPhase_within | refine Dev.readReq_within ?_ ?_ (fun se d => ?_)) | exact rfl

theorem Dev.latchRead_within {M : Nat} {d₀ d : Dev} (hM : Sub 0 M) (hW : Within M d₀ d) (idx : Nat) (sub : Nat) (se : Session) :
    Within M d₀ (d.latchRead idx sub se) := by
  refine hW.step ?_ hM
  clear hW hM
  unfold Dev.latchRead
  repeat' first | (with_reducible first | assumption | exact .refl _ | apply Dev.latchNow_within | apply Dev.latchPhase_within | apply Within.ite) | exact rfl

theorem execRead_within {hd : Hdr} {idx : Nat} {sub : Nat} {s t : State} (h : execRead hd idx sub s = .next t) :
    Within 39846400 s.dev t.dev := by
  unfold execRead at h
  refine onDev_within h fun d => ?_
  repeat' first | (with_reducible first | assumption | exact .refl _ | apply Dev.latchRead_within | refine Dev.readReq_within ?_ ?_ (fun se d => ?_)) | exact rfl

theorem execReadBlock_within {hd : Hdr} {idx : Nat} {sub : Nat} {offset : Nat} {length : Nat} {s t : State} (h : execReadBlock hd idx sub offset length s = .next t) :
    Within 39846400 s.dev t.dev := by
  unfold execReadBlock at h
  refine onDev_within h fun d => ?_
  repeat' first | (with_reducible first | assumption | exact .refl _ | apply Dev.complete_within | apply Dev.drop_within | apply Dev.latchRead_within | apply Within.ite | split) | refine Dev.readGate_stop rfl ?_ (by assumption) | refine Dev.readGate_pass rfl ?_ (by assumption) | extract_lets | exact rfl

theorem Dev.sendNotify_within {M : Nat} {d₀ d : Dev} (hM : Sub 6291968 M) (hW : Within M d₀ d) (se : Session) (x : Subscr) (coalesced : Nat) (changedAt : Nat) :
    Within M d₀ (d.sendNotify se x coalesced changedAt) := by
  refine hW.step ?_ hM
  clear hW hM
  unfold Dev.sendNotify
  repeat' first | (with_reducible first | assumption | exact .refl _ | apply Dev.endSession_within | apply Dev.onSession_within | apply Dev.post_within | apply Within.ite | split) | extract_lets | with_reducible apply Within.books_set | exact rfl

theorem execNotify_within {sid : Nat} {handle : Nat} {changes : Nat} {changedAt : Nat} {s t : State} (h : execNotify sid handle changes changedAt s = .next t) :
    Within 6291968 s.dev t.dev := by
  unfold execNotify at h
  refine onDev_within h fun d => ?_
  repeat' first | (with_reducible first | assumption | exact .refl _ | apply Dev.bumpBy_within | apply Dev.onSession_within | apply Dev.sendNotify_within | apply Within.ite | split) | extract_lets | with_reducible apply Within.books_set | exact rfl

end Sys2Proof.Machine
end

