-- ==== Sys2Proof/Laws/DeferredFrame.lean ====
section
/-! SUPPORT. What the operations of Machine/Deferred.lean leave alone. -/
namespace Sys2Proof.Machine

theorem Dev.delayReqSent_within {M : Nat} {d₀ d : Dev} (hM : Sub 4 M) (h : Within M d₀ d) (port : Nat) (o : Output) :
    Within M d₀ (d.delayReqSent port o) := by
  unfold Dev.delayReqSent
  repeat' first | (with_reducible first | exact h | exact hM | split | apply Dev.onPtpPort_within)

theorem Dev.copyLost_within {M : Nat} {d₀ d : Dev} (hM : Sub 0 M) (h : Within M d₀ d) (o : Output) :
    Within M d₀ (d.copyLost o) := by
  unfold Dev.copyLost
  split
  · exact .when h fun _ => Dev.bump_within .zero (.refl _) _
  · exact h

theorem Dev.startHeld_within {M : Nat} {d₀ d : Dev} (hM : Sub 262660 M) (hW : Within M d₀ d) (h : Held) :
    Within M d₀ (d.startHeld h) := by
  refine hW.step ?_ hM
  clear hW hM
  unfold Dev.startHeld
  repeat' first | (with_reducible first | assumption | exact .refl _ | apply Dev.bump_within | apply Dev.dacLocked_within | apply Dev.send_within | apply Dev.startTrain_within | apply Within.ite | split) | apply Dev.copyLost_within | apply Dev.delayReqSent_within | extract_lets | exact rfl

theorem Dev.releaseHeld_within {M : Nat} {d₀ d : Dev} (hM : Sub 262660 M) (hW : Within M d₀ d) (syn : Nat) :
    Within M d₀ (d.releaseHeld syn) := by
  refine hW.step ?_ hM
  clear hW hM
  unfold Dev.releaseHeld
  repeat' first | (with_reducible first | assumption | exact .refl _ | apply Dev.onTu_within | apply Dev.startHeld_within | (apply Within.each ?_ (fun d x => ?_))) | extract_lets | exact rfl

theorem Dev.nextRecal_within {M : Nat} {d₀ d : Dev} (hM : Sub 512 M) (hW : Within M d₀ d) (port : Nat) :
    Within M d₀ (d.nextRecal port) := by
  refine hW.step ?_ hM
  clear hW hM
  unfold Dev.nextRecal
  repeat' first | (with_reducible first | assumption | exact .refl _ | apply Dev.onTu_within | apply Dev.set_within | apply Within.ite) | exact rfl

theorem execSynthLock_within {syn : Fin 6} {s t : State} (h : execSynthLock syn s = .next t) :
    Within 328196 s.dev t.dev := by
  unfold execSynthLock at h
  refine onDev_within h fun d => ?_
  repeat' first | (with_reducible first | assumption | exact .refl _ | apply Dev.nextRecal_within | apply Dev.refreshDomains_within | apply Dev.releaseHeld_within | apply Dev.set_within | (apply Within.when ?_ (fun d => ?_)) | apply Within.ite) | extract_lets | exact rfl

theorem Dev.timeOutHeld_within {M : Nat} {d₀ d : Dev} (hM : Sub 65536 M) (hW : Within M d₀ d) (h : Held) :
    Within M d₀ (d.timeOutHeld h) := by
  refine hW.step ?_ hM
  clear hW hM
  unfold Dev.timeOutHeld
  repeat' first | (with_reducible first | assumption | exact .refl _ | apply Dev.bump_within | apply Dev.onPort_within | apply Dev.set_within | split) | apply Dev.copyLost_within | exact rfl

theorem execDeferTimeout_within {held : Nat} {s t : State} (h : execDeferTimeout held s = .next t) :
    Within 66048 s.dev t.dev := by
  unfold execDeferTimeout at h
  refine onDev_within h fun d => ?_
  repeat' first | (with_reducible first | assumption | exact .refl _ | apply Dev.bump_within | apply Dev.event_within | apply Dev.onTu_within | apply Dev.timeOutHeld_within | apply Within.ite | split) | extract_lets | exact rfl

end Sys2Proof.Machine
end

