-- ==== Sys2Proof/Laws/FlagsFrame.lean ====
section
/-! SUPPORT. What the operations of Machine/Flags.lean leave alone. -/
namespace Sys2Proof.Machine


end Sys2Proof.Machine
end

