-- ==== Sys2Proof/Laws/Log.lean ====
section
/-! SUPPORT. Queueing changes registers, queues and the books of items alone; logging, violations and handovers change beside them the log, the
partners and the handover times alone. -/
namespace Sys2Proof.Machine

/-- The devices differ at most in registers, queues and books. -/
structure QueueOnly (d d' : Dev) : Prop where
  eq : { d' with regs := d.regs, queues := d.queues, books := d.books } = d

theorem QueueOnly.refl (d : Dev) : QueueOnly d d := ⟨rfl⟩

theorem QueueOnly.trans {a b c : Dev} (h : QueueOnly a b) (k : QueueOnly b c) : QueueOnly a c := ⟨by rw [← h.eq, ← k.eq]⟩

theorem QueueOnly.set {a d : Dev} {k : Nat} {v : Int} (h : QueueOnly a d) : QueueOnly a (d.set k v) := ⟨h.eq⟩

theorem QueueOnly.setN {a d : Dev} {k : Nat} {v : Nat} (h : QueueOnly a d) : QueueOnly a (d.setN k v) := ⟨h.eq⟩

theorem QueueOnly.setB {a d : Dev} {k : Nat} {v : Bool} (h : QueueOnly a d) : QueueOnly a (d.setB k v) := ⟨h.eq⟩

theorem QueueOnly.bumpBy {a d : Dev} {k : Nat} {v : Nat} (h : QueueOnly a d) : QueueOnly a (d.bumpBy k v) := ⟨h.eq⟩

theorem QueueOnly.bump {a d : Dev} {k : Nat} (h : QueueOnly a d) : QueueOnly a (d.bump k) := ⟨h.eq⟩

theorem QueueOnly.drop {a d : Dev} {k : Nat} (h : QueueOnly a d) : QueueOnly a (d.drop k) := ⟨h.eq⟩

theorem QueueOnly.ite {a b c : Dev} {p : Prop} [Decidable p] (h : QueueOnly a b) (k : QueueOnly a c) : QueueOnly a (if p then b else c) := by
  split <;> assumption

theorem QueueOnly.when {a d : Dev} {b : Bool} {f : Dev → Dev} (h : QueueOnly a d) (k : ∀ d, QueueOnly d (f d)) : QueueOnly a (d.when b f) :=
  .ite (h.trans (k d)) h

theorem QueueOnly.each {α : Type} {a d : Dev} {l : List α} {f : Dev → α → Dev} (h : QueueOnly a d) (k : ∀ d x, QueueOnly d (f d x)) :
    QueueOnly a (d.each l f) := by
  unfold Dev.each
  induction l generalizing d with
  | nil => exact h
  | cons x l ih => exact ih (h.trans (k d x))

theorem QueueOnly.queues_set {a d : Dev} {x} (h : QueueOnly a d) : QueueOnly a { d with queues := x } := ⟨h.eq⟩

theorem Dev.refreshAlive_queueOnly {d₀ d : Dev} (hW : QueueOnly d₀ d) :
    QueueOnly d₀ (d.refreshAlive) := by
  unfold Dev.refreshAlive
  repeat' first | (with_reducible first | assumption | exact .refl _ | apply QueueOnly.setN) | with_reducible apply QueueOnly.queues_set

theorem Dev.setCopies_queueOnly {d₀ d : Dev} (hW : QueueOnly d₀ d) (it : Item) (n : Nat) : QueueOnly d₀ (d.setCopies it n) :=
  ⟨hW.eq⟩

theorem Dev.genInc_queueOnly {d₀ d : Dev} (hW : QueueOnly d₀ d) (it : Item) :
    QueueOnly d₀ (d.genInc it) := by
  unfold Dev.genInc
  repeat' first | (with_reducible first | assumption | exact .refl _ | apply QueueOnly.bump | apply Dev.refreshAlive_queueOnly | apply Dev.setCopies_queueOnly | apply QueueOnly.ite) | extract_lets

theorem Dev.genDec_queueOnly {d₀ d : Dev} (hW : QueueOnly d₀ d) (it : Item) :
    QueueOnly d₀ (d.genDec it) := by
  unfold Dev.genDec
  repeat' first | (with_reducible first | assumption | exact .refl _ | apply QueueOnly.drop | apply Dev.refreshAlive_queueOnly | apply Dev.setCopies_queueOnly | apply QueueOnly.ite) | extract_lets

theorem Dev.refreshQ_queueOnly {d₀ d : Dev} (hW : QueueOnly d₀ d) (q : Nat) :
    QueueOnly d₀ (d.refreshQ q) := by
  unfold Dev.refreshQ
  repeat' first | (with_reducible first | assumption | exact .refl _ | apply QueueOnly.setN | split) | extract_lets | with_reducible apply QueueOnly.queues_set

theorem Dev.takeCells_queueOnly {d₀ d : Dev} (hW : QueueOnly d₀ d) (n : Nat) :
    QueueOnly d₀ (d.takeCells n) := by
  unfold Dev.takeCells
  repeat' first | (with_reducible first | assumption | exact .refl _ | apply QueueOnly.setN) | extract_lets | with_reducible apply QueueOnly.queues_set

theorem Dev.giveCells_queueOnly {d₀ d : Dev} (hW : QueueOnly d₀ d) (n : Nat) :
    QueueOnly d₀ (d.giveCells n) := by
  unfold Dev.giveCells
  repeat' first | (with_reducible first | assumption | exact .refl _ | apply QueueOnly.setN) | with_reducible apply QueueOnly.queues_set

theorem Dev.setQ_queueOnly {d₀ d : Dev} (hW : QueueOnly d₀ d) (q : Nat) (r : QueueRt) : QueueOnly d₀ (d.setQ q r) := ⟨hW.eq⟩

theorem Dev.unqueue_queueOnly {d₀ d : Dev} (hW : QueueOnly d₀ d) (q : Nat) (it : Item) :
    QueueOnly d₀ (d.unqueue q it) := by
  unfold Dev.unqueue
  repeat' first | (with_reducible first | assumption | exact .refl _ | apply Dev.giveCells_queueOnly | apply Dev.setQ_queueOnly) | extract_lets | with_reducible apply QueueOnly.queues_set

theorem Dev.countDrop_queueOnly {d₀ d : Dev} (hW : QueueOnly d₀ d) (q : Nat) (it : Item) :
    QueueOnly d₀ (d.countDrop q it) := by
  unfold Dev.countDrop
  repeat' first | (with_reducible first | assumption | exact .refl _ | apply QueueOnly.bump | apply Dev.genDec_queueOnly | (apply QueueOnly.when ?_ (fun d => ?_))) | with_reducible apply QueueOnly.queues_set

theorem Dev.admitItem_queueOnly {d₀ d : Dev} (hW : QueueOnly d₀ d) (q : Nat) (it : Item) :
    QueueOnly d₀ (d.admitItem q it) := by
  unfold Dev.admitItem
  repeat' first | (with_reducible first | assumption | exact .refl _ | apply QueueOnly.bump | apply Dev.setQ_queueOnly | apply Dev.takeCells_queueOnly | apply QueueOnly.ite) | extract_lets | with_reducible apply QueueOnly.queues_set

theorem Dev.makeRoom_queueOnly (d : Dev) (q : Nat) (it : Item) (fuel n : Nat) : QueueOnly d (d.makeRoom q it fuel n).1 := by
  induction fuel generalizing d n with
  | zero => exact .refl _
  | succ fuel ih =>
    rw [Dev.makeRoom]
    split
    · exact Dev.admitItem_queueOnly (.refl _) _ _
    · split
      · exact .refl _
      · split
        · exact .refl _
        · exact (Dev.countDrop_queueOnly (Dev.unqueue_queueOnly (.refl _) _ _) _ _).trans (ih _ _)

theorem Dev.absentReply_queueOnly {a d : Dev} (h : QueueOnly a d) (i : Nat) : QueueOnly a (d.absentReply i) := by
  unfold Dev.absentReply
  exact .ite (.bump h) h

theorem Dev.enqueueCore_queueOnly {a d : Dev} (h : QueueOnly a d) (q : Nat) (it : Item) : QueueOnly a (d.enqueueCore q it).dev := by
  refine h.trans ?_
  clear h
  unfold Dev.enqueueCore
  split
  · exact Dev.absentReply_queueOnly (d := d) (.refl _) Isl.qmg
  · split
    · exact Dev.refreshQ_queueOnly (.bump (.refl _)) _
    · dsimp only
      apply Dev.refreshQ_queueOnly
      have k := Dev.makeRoom_queueOnly (d.when (d.holdsGen q) fun d => d.genInc it) q it
      have g : QueueOnly d (d.when (d.holdsGen q) fun d => d.genInc it) := .when (.refl _) fun d => Dev.genInc_queueOnly (.refl _) _
      split
      · exact g.trans (k _ _)
      · exact Dev.countDrop_queueOnly (g.trans (k _ _)) _ _

theorem Dev.dequeue_queueOnly {a d e : Dev} {q : Nat} {it : Item} (h : QueueOnly a d) (k : d.dequeue q = some (it, e)) : QueueOnly a e := by
  unfold Dev.dequeue at k
  split at k
  · cases k
  · simp only [Option.some.injEq, Prod.mk.injEq] at k
    obtain ⟨-, rfl⟩ := k
    exact Dev.refreshQ_queueOnly (Dev.setQ_queueOnly (Dev.unqueue_queueOnly h _ _) _ _) _

theorem Dev.postEvent_queueOnly {d₀ d : Dev} (hW : QueueOnly d₀ d) (p : Nat) (it : Item) :
    QueueOnly d₀ (d.postEvent p it) := by
  unfold Dev.postEvent
  repeat' first | (with_reducible first | assumption | exact .refl _ | apply QueueOnly.bumpBy | apply QueueOnly.ite) | apply Dev.enqueueCore_queueOnly | extract_lets

/-- The devices differ at most in registers, queues, books, the log, the partners and the handover times. -/
structure LogOnly (d d' : Dev) : Prop where
  eq : { d' with regs := d.regs, queues := d.queues, books := d.books, log := d.log, partners := d.partners,
                 handAt := d.handAt } = d

theorem LogOnly.refl (d : Dev) : LogOnly d d := ⟨rfl⟩

theorem LogOnly.trans {a b c : Dev} (h : LogOnly a b) (k : LogOnly b c) : LogOnly a c := ⟨by rw [← h.eq, ← k.eq]⟩

theorem LogOnly.set {a d : Dev} {k : Nat} {v : Int} (h : LogOnly a d) : LogOnly a (d.set k v) := ⟨h.eq⟩

theorem LogOnly.setN {a d : Dev} {k : Nat} {v : Nat} (h : LogOnly a d) : LogOnly a (d.setN k v) := ⟨h.eq⟩

theorem LogOnly.setB {a d : Dev} {k : Nat} {v : Bool} (h : LogOnly a d) : LogOnly a (d.setB k v) := ⟨h.eq⟩

theorem LogOnly.bumpBy {a d : Dev} {k : Nat} {v : Nat} (h : LogOnly a d) : LogOnly a (d.bumpBy k v) := ⟨h.eq⟩

theorem LogOnly.bump {a d : Dev} {k : Nat} (h : LogOnly a d) : LogOnly a (d.bump k) := ⟨h.eq⟩

theorem LogOnly.drop {a d : Dev} {k : Nat} (h : LogOnly a d) : LogOnly a (d.drop k) := ⟨h.eq⟩

theorem LogOnly.ite {a b c : Dev} {p : Prop} [Decidable p] (h : LogOnly a b) (k : LogOnly a c) : LogOnly a (if p then b else c) := by
  split <;> assumption

theorem LogOnly.when {a d : Dev} {b : Bool} {f : Dev → Dev} (h : LogOnly a d) (k : ∀ d, LogOnly d (f d)) : LogOnly a (d.when b f) :=
  .ite (h.trans (k d)) h

theorem LogOnly.each {α : Type} {a d : Dev} {l : List α} {f : Dev → α → Dev} (h : LogOnly a d) (k : ∀ d x, LogOnly d (f d x)) :
    LogOnly a (d.each l f) := by
  unfold Dev.each
  induction l generalizing d with
  | nil => exact h
  | cons x l ih => exact ih (h.trans (k d x))

theorem LogOnly.queues_set {a d : Dev} {x} (h : LogOnly a d) : LogOnly a { d with queues := x } := ⟨h.eq⟩

theorem LogOnly.log_set {a d : Dev} {x} (h : LogOnly a d) : LogOnly a { d with log := x } := ⟨h.eq⟩

theorem LogOnly.partners_set {a d : Dev} {x} (h : LogOnly a d) : LogOnly a { d with partners := x } := ⟨h.eq⟩

theorem LogOnly.handAt_set {a d : Dev} {x} (h : LogOnly a d) : LogOnly a { d with handAt := x } := ⟨h.eq⟩

theorem QueueOnly.log {a d d' : Dev} (h : LogOnly a d) (k : QueueOnly d d') : LogOnly a d' := ⟨by rw [← h.eq, ← k.eq]⟩

theorem QueueOnly.log_eq {d d' : Dev} (k : QueueOnly d d') : d'.log = d.log := (congrArg Dev.log k.eq :)

theorem Dev.postEvent_logOnly {a d : Dev} (h : LogOnly a d) (p : Nat) (it : Item) : LogOnly a (d.postEvent p it) :=
  (Dev.postEvent_queueOnly (.refl d) p it).log h

theorem Dev.enqueueCore_logOnly {a d : Dev} (h : LogOnly a d) (q : Nat) (it : Item) : LogOnly a (d.enqueueCore q it).dev :=
  (Dev.enqueueCore_queueOnly (.refl d) q it).log h

theorem Dev.setQ_logOnly {a d : Dev} (h : LogOnly a d) (q : Nat) (r : QueueRt) : LogOnly a (d.setQ q r) := ⟨h.eq⟩

theorem Dev.onPartner_logOnly {a d : Dev} (h : LogOnly a d) (id : Nat) (f : Partner → Partner) : LogOnly a (d.onPartner id f) := ⟨h.eq⟩

theorem Dev.peerEntry_logOnly {a d e : Dev} {ip port : Nat} {r : Option Nat} (h : LogOnly a d)
    (k : d.peerEntry ip port = (r, e)) : LogOnly a e := by
  unfold Dev.peerEntry at k
  dsimp only at k
  repeat' split at k
  all_goals
    obtain ⟨-, rfl⟩ := Prod.mk.inj k
    exact ⟨h.eq⟩

theorem Dev.whoId_logOnly {a d e : Dev} {w : Who} {r : Option Nat} (h : LogOnly a d) (k : d.whoId w = (r, e)) : LogOnly a e := by
  unfold Dev.whoId at k
  split at k
  · split at k
    all_goals
      obtain ⟨-, rfl⟩ := Prod.mk.inj k
      exact ⟨h.eq⟩
  · exact Dev.peerEntry_logOnly h k

theorem Dev.logRing_logOnly {d₀ d : Dev} (hW : LogOnly d₀ d) (ev : Ev) :
    LogOnly d₀ (d.logRing ev) := by
  unfold Dev.logRing
  repeat' first | (with_reducible first | assumption | exact .refl _ | apply LogOnly.bump | apply Dev.nextSeq_logOnly | apply LogOnly.setN | (apply LogOnly.when ?_ (fun d => ?_)) | apply LogOnly.ite) | extract_lets | with_reducible apply LogOnly.log_set | with_reducible apply LogOnly.handAt_set

theorem Dev.event_logOnly {d₀ d : Dev} (hW : LogOnly d₀ d) (ev : Ev) :
    LogOnly d₀ (d.event ev) := by
  unfold Dev.event
  repeat' first | (with_reducible first | assumption | exact .refl _ | apply Dev.logRing_logOnly | apply Dev.postEvent_logOnly | (apply LogOnly.each ?_ (fun d x => ?_)) | (apply LogOnly.when ?_ (fun d => ?_))) | extract_lets | with_reducible apply LogOnly.log_set | with_reducible apply LogOnly.handAt_set

theorem Dev.enqueue_logOnly {d₀ d : Dev} (hW : LogOnly d₀ d) (q : Nat) (it : Item) :
    LogOnly d₀ (d.enqueue q it) := by
  unfold Dev.enqueue
  repeat' first | (with_reducible first | assumption | exact .refl _ | apply Dev.event_logOnly | apply Dev.setQ_logOnly | (apply LogOnly.when ?_ (fun d => ?_)) | apply LogOnly.ite | split) | apply Dev.enqueueCore_logOnly | extract_lets | with_reducible apply LogOnly.log_set | with_reducible apply LogOnly.handAt_set

theorem Dev.partViol_logOnly {d₀ d : Dev} (hW : LogOnly d₀ d) (id : Nat) :
    LogOnly d₀ (d.partViol id) := by
  unfold Dev.partViol
  repeat' first | (with_reducible first | assumption | exact .refl _ | apply LogOnly.bump | apply LogOnly.ite) | with_reducible apply LogOnly.log_set | with_reducible apply LogOnly.handAt_set

theorem Dev.violate_logOnly {d₀ d : Dev} (hW : LogOnly d₀ d) (who : Who) (mk : Nat → Ev) :
    LogOnly d₀ (d.violate who mk) := by
  unfold Dev.violate
  repeat' first | (with_reducible first | assumption | exact .refl _ | apply LogOnly.bump | apply Dev.event_logOnly | apply Dev.onPartner_logOnly | apply Dev.partViol_logOnly | apply LogOnly.ite | split) | refine Dev.whoId_logOnly ?_ (by assumption) | extract_lets | with_reducible apply LogOnly.log_set | with_reducible apply LogOnly.handAt_set

theorem Dev.quarantineDrop_logOnly {d₀ d : Dev} (hW : LogOnly d₀ d) (id : Nat) :
    LogOnly d₀ (d.quarantineDrop id) := by
  unfold Dev.quarantineDrop
  repeat' first | (with_reducible first | assumption | exact .refl _ | apply Dev.onPartner_logOnly) | with_reducible apply LogOnly.log_set | with_reducible apply LogOnly.handAt_set

theorem Dev.quarantineEnd_logOnly {d₀ d : Dev} (hW : LogOnly d₀ d) (id : Nat) :
    LogOnly d₀ (d.quarantineEnd id) := by
  unfold Dev.quarantineEnd
  repeat' first | (with_reducible first | assumption | exact .refl _ | apply LogOnly.drop | apply Dev.event_logOnly | apply Dev.onPartner_logOnly | apply LogOnly.ite | split) | extract_lets | with_reducible apply LogOnly.log_set | with_reducible apply LogOnly.handAt_set

theorem Dev.pointEvent_logOnly {d₀ d : Dev} (hW : LogOnly d₀ d) (point : Nat) (slot : Nat) (ev : Ev) :
    LogOnly d₀ (d.pointEvent point slot ev) := by
  unfold Dev.pointEvent
  repeat' first | (with_reducible first | assumption | exact .refl _ | apply Dev.event_logOnly | apply LogOnly.ite | split) | extract_lets | with_reducible apply LogOnly.log_set | with_reducible apply LogOnly.handAt_set

theorem Dev.handover_logOnly {d₀ d : Dev} (hW : LogOnly d₀ d) (point : Nat) (iface : Nat) (src : Nat) (num : Nat) (f : Found) :
    LogOnly d₀ (d.handover point iface src num f) := by
  unfold Dev.handover
  repeat' first | (with_reducible first | assumption | exact .refl _ | apply LogOnly.bump | apply LogOnly.bumpBy | apply Dev.pointEvent_logOnly | (apply LogOnly.when ?_ (fun d => ?_)) | apply LogOnly.ite | split) | extract_lets | with_reducible apply LogOnly.log_set | with_reducible apply LogOnly.handAt_set

theorem Dev.countFcs_logOnly {d₀ d : Dev} (hW : LogOnly d₀ d) (port : Nat) (f : Found) :
    LogOnly d₀ (d.countFcs port f) := by
  unfold Dev.countFcs
  repeat' first | (with_reducible first | assumption | exact .refl _ | apply LogOnly.bump | (apply LogOnly.when ?_ (fun d => ?_))) | with_reducible apply LogOnly.log_set | with_reducible apply LogOnly.handAt_set

/-- An event's entry is the newest of the ring, which keeps 1024 (18_integrity R365). -/
theorem Dev.event_log (d : Dev) (ev : Ev) : (d.event ev).log = (d.logRing ev).log := by
  unfold Dev.event
  dsimp only
  generalize d.logRing ev = e
  generalize List.range 8 = l
  have h : ∀ (l : List Nat) (e : Dev), (e.each l fun d' p => d'.when (bit (d'.nat (Ob.partEventRanges p)) (ev.code / 4096)) fun d' =>
      d'.postEvent p (eventItem d ev)).log = e.log := by
    intro l
    induction l with
    | nil => exact fun _ => rfl
    | cons p l ih =>
      intro e
      have k : QueueOnly e (e.when (bit (e.nat (Ob.partEventRanges p)) (ev.code / 4096)) fun d' => d'.postEvent p (eventItem d ev)) :=
        .when (.refl e) fun d' => Dev.postEvent_queueOnly (.refl d') _ _
      exact (ih _).trans k.log_eq
  exact h l e

theorem Dev.event_ring (d : Dev) (ev : Ev) : (d.event ev).log.ring = (d.entryOf ev :: d.log.ring).take 1024 := by
  rw [Dev.event_log]
  unfold Dev.logRing Dev.when
  dsimp only
  repeat' split
  all_goals rfl

@[simp] theorem Dev.event_fields (d : Dev) (ev : Ev) :
      (d.event ev).vers = d.vers ∧ (d.event ev).out = d.out ∧ (d.event ev).fresh = d.fresh ∧
      (d.event ev).genReserved = d.genReserved ∧ (d.event ev).startWindow = d.startWindow ∧
      (d.event ev).latches = d.latches ∧ (d.event ev).phaseLatches = d.phaseLatches ∧ (d.event ev).seqs = d.seqs ∧
      (d.event ev).barHandle = d.barHandle ∧ (d.event ev).barTarget = d.barTarget ∧
      (d.event ev).barLatch = d.barLatch ∧ (d.event ev).barEra = d.barEra ∧ (d.event ev).pins = d.pins ∧
      (d.event ev).stage = d.stage ∧ (d.event ev).csiPend = d.csiPend ∧ (d.event ev).safe = d.safe ∧
      (d.event ev).islCause = d.islCause ∧ (d.event ev).islAt = d.islAt :=
  have w := Dev.event_logOnly (.refl d) ev
  ⟨(congrArg Dev.vers w.eq :), (congrArg Dev.out w.eq :), (congrArg Dev.fresh w.eq :), (congrArg Dev.genReserved w.eq :), (congrArg Dev.startWindow w.eq :), (congrArg Dev.latches w.eq :), (congrArg Dev.phaseLatches w.eq :), (congrArg Dev.seqs w.eq :), (congrArg Dev.barHandle w.eq :), (congrArg Dev.barTarget w.eq :), (congrArg Dev.barLatch w.eq :), (congrArg Dev.barEra w.eq :), (congrArg Dev.pins w.eq :), (congrArg Dev.stage w.eq :), (congrArg Dev.csiPend w.eq :), (congrArg Dev.safe w.eq :), (congrArg Dev.islCause w.eq :), (congrArg Dev.islAt w.eq :)⟩

@[simp] theorem Dev.postEvent_fields (d : Dev) (p : Nat) (it : Item) :
      (d.postEvent p it).vers = d.vers ∧ (d.postEvent p it).out = d.out ∧ (d.postEvent p it).fresh = d.fresh ∧
      (d.postEvent p it).genReserved = d.genReserved ∧ (d.postEvent p it).startWindow = d.startWindow ∧
      (d.postEvent p it).latches = d.latches ∧ (d.postEvent p it).phaseLatches = d.phaseLatches ∧
      (d.postEvent p it).seqs = d.seqs ∧ (d.postEvent p it).barHandle = d.barHandle ∧
      (d.postEvent p it).barTarget = d.barTarget ∧ (d.postEvent p it).barLatch = d.barLatch ∧
      (d.postEvent p it).barEra = d.barEra ∧ (d.postEvent p it).pins = d.pins ∧ (d.postEvent p it).stage = d.stage ∧
      (d.postEvent p it).csiPend = d.csiPend ∧ (d.postEvent p it).safe = d.safe ∧
      (d.postEvent p it).islCause = d.islCause ∧ (d.postEvent p it).islAt = d.islAt :=
  have w := Dev.postEvent_logOnly (.refl d) p it
  ⟨(congrArg Dev.vers w.eq :), (congrArg Dev.out w.eq :), (congrArg Dev.fresh w.eq :), (congrArg Dev.genReserved w.eq :), (congrArg Dev.startWindow w.eq :), (congrArg Dev.latches w.eq :), (congrArg Dev.phaseLatches w.eq :), (congrArg Dev.seqs w.eq :), (congrArg Dev.barHandle w.eq :), (congrArg Dev.barTarget w.eq :), (congrArg Dev.barLatch w.eq :), (congrArg Dev.barEra w.eq :), (congrArg Dev.pins w.eq :), (congrArg Dev.stage w.eq :), (congrArg Dev.csiPend w.eq :), (congrArg Dev.safe w.eq :), (congrArg Dev.islCause w.eq :), (congrArg Dev.islAt w.eq :)⟩

@[simp] theorem Dev.enqueue_fields (d : Dev) (q : Nat) (it : Item) :
      (d.enqueue q it).vers = d.vers ∧ (d.enqueue q it).out = d.out ∧ (d.enqueue q it).fresh = d.fresh ∧
      (d.enqueue q it).genReserved = d.genReserved ∧ (d.enqueue q it).startWindow = d.startWindow ∧
      (d.enqueue q it).latches = d.latches ∧ (d.enqueue q it).phaseLatches = d.phaseLatches ∧
      (d.enqueue q it).seqs = d.seqs ∧ (d.enqueue q it).barHandle = d.barHandle ∧
      (d.enqueue q it).barTarget = d.barTarget ∧ (d.enqueue q it).barLatch = d.barLatch ∧
      (d.enqueue q it).barEra = d.barEra ∧ (d.enqueue q it).pins = d.pins ∧ (d.enqueue q it).stage = d.stage ∧
      (d.enqueue q it).csiPend = d.csiPend ∧ (d.enqueue q it).safe = d.safe ∧ (d.enqueue q it).islCause = d.islCause ∧
      (d.enqueue q it).islAt = d.islAt :=
  have w := Dev.enqueue_logOnly (.refl d) q it
  ⟨(congrArg Dev.vers w.eq :), (congrArg Dev.out w.eq :), (congrArg Dev.fresh w.eq :), (congrArg Dev.genReserved w.eq :), (congrArg Dev.startWindow w.eq :), (congrArg Dev.latches w.eq :), (congrArg Dev.phaseLatches w.eq :), (congrArg Dev.seqs w.eq :), (congrArg Dev.barHandle w.eq :), (congrArg Dev.barTarget w.eq :), (congrArg Dev.barLatch w.eq :), (congrArg Dev.barEra w.eq :), (congrArg Dev.pins w.eq :), (congrArg Dev.stage w.eq :), (congrArg Dev.csiPend w.eq :), (congrArg Dev.safe w.eq :), (congrArg Dev.islCause w.eq :), (congrArg Dev.islAt w.eq :)⟩

@[simp] theorem Dev.violate_fields (d : Dev) (who : Who) (mk : Nat → Ev) :
      (d.violate who mk).vers = d.vers ∧ (d.violate who mk).out = d.out ∧ (d.violate who mk).fresh = d.fresh ∧
      (d.violate who mk).genReserved = d.genReserved ∧ (d.violate who mk).startWindow = d.startWindow ∧
      (d.violate who mk).latches = d.latches ∧ (d.violate who mk).phaseLatches = d.phaseLatches ∧
      (d.violate who mk).seqs = d.seqs ∧ (d.violate who mk).barHandle = d.barHandle ∧
      (d.violate who mk).barTarget = d.barTarget ∧ (d.violate who mk).barLatch = d.barLatch ∧
      (d.violate who mk).barEra = d.barEra ∧ (d.violate who mk).pins = d.pins ∧ (d.violate who mk).stage = d.stage ∧
      (d.violate who mk).csiPend = d.csiPend ∧ (d.violate who mk).safe = d.safe ∧
      (d.violate who mk).islCause = d.islCause ∧ (d.violate who mk).islAt = d.islAt :=
  have w := Dev.violate_logOnly (.refl d) who mk
  ⟨(congrArg Dev.vers w.eq :), (congrArg Dev.out w.eq :), (congrArg Dev.fresh w.eq :), (congrArg Dev.genReserved w.eq :), (congrArg Dev.startWindow w.eq :), (congrArg Dev.latches w.eq :), (congrArg Dev.phaseLatches w.eq :), (congrArg Dev.seqs w.eq :), (congrArg Dev.barHandle w.eq :), (congrArg Dev.barTarget w.eq :), (congrArg Dev.barLatch w.eq :), (congrArg Dev.barEra w.eq :), (congrArg Dev.pins w.eq :), (congrArg Dev.stage w.eq :), (congrArg Dev.csiPend w.eq :), (congrArg Dev.safe w.eq :), (congrArg Dev.islCause w.eq :), (congrArg Dev.islAt w.eq :)⟩

@[simp] theorem Dev.quarantineDrop_fields (d : Dev) (id : Nat) :
      (d.quarantineDrop id).vers = d.vers ∧ (d.quarantineDrop id).out = d.out ∧
      (d.quarantineDrop id).fresh = d.fresh ∧ (d.quarantineDrop id).genReserved = d.genReserved ∧
      (d.quarantineDrop id).startWindow = d.startWindow ∧ (d.quarantineDrop id).latches = d.latches ∧
      (d.quarantineDrop id).phaseLatches = d.phaseLatches ∧ (d.quarantineDrop id).seqs = d.seqs ∧
      (d.quarantineDrop id).barHandle = d.barHandle ∧ (d.quarantineDrop id).barTarget = d.barTarget ∧
      (d.quarantineDrop id).barLatch = d.barLatch ∧ (d.quarantineDrop id).barEra = d.barEra ∧
      (d.quarantineDrop id).pins = d.pins ∧ (d.quarantineDrop id).stage = d.stage ∧
      (d.quarantineDrop id).csiPend = d.csiPend ∧ (d.quarantineDrop id).safe = d.safe ∧
      (d.quarantineDrop id).islCause = d.islCause ∧ (d.quarantineDrop id).islAt = d.islAt :=
  have w := Dev.quarantineDrop_logOnly (.refl d) id
  ⟨(congrArg Dev.vers w.eq :), (congrArg Dev.out w.eq :), (congrArg Dev.fresh w.eq :), (congrArg Dev.genReserved w.eq :), (congrArg Dev.startWindow w.eq :), (congrArg Dev.latches w.eq :), (congrArg Dev.phaseLatches w.eq :), (congrArg Dev.seqs w.eq :), (congrArg Dev.barHandle w.eq :), (congrArg Dev.barTarget w.eq :), (congrArg Dev.barLatch w.eq :), (congrArg Dev.barEra w.eq :), (congrArg Dev.pins w.eq :), (congrArg Dev.stage w.eq :), (congrArg Dev.csiPend w.eq :), (congrArg Dev.safe w.eq :), (congrArg Dev.islCause w.eq :), (congrArg Dev.islAt w.eq :)⟩

@[simp] theorem Dev.handover_fields (d : Dev) (point iface src num : Nat) (f : Found) :
      (d.handover point iface src num f).vers = d.vers ∧ (d.handover point iface src num f).out = d.out ∧
      (d.handover point iface src num f).fresh = d.fresh ∧
      (d.handover point iface src num f).genReserved = d.genReserved ∧
      (d.handover point iface src num f).startWindow = d.startWindow ∧
      (d.handover point iface src num f).latches = d.latches ∧
      (d.handover point iface src num f).phaseLatches = d.phaseLatches ∧
      (d.handover point iface src num f).seqs = d.seqs ∧ (d.handover point iface src num f).barHandle = d.barHandle ∧
      (d.handover point iface src num f).barTarget = d.barTarget ∧
      (d.handover point iface src num f).barLatch = d.barLatch ∧
      (d.handover point iface src num f).barEra = d.barEra ∧ (d.handover point iface src num f).pins = d.pins ∧
      (d.handover point iface src num f).stage = d.stage ∧ (d.handover point iface src num f).csiPend = d.csiPend ∧
      (d.handover point iface src num f).safe = d.safe ∧ (d.handover point iface src num f).islCause = d.islCause ∧
      (d.handover point iface src num f).islAt = d.islAt :=
  have w := Dev.handover_logOnly (.refl d) point iface src num f
  ⟨(congrArg Dev.vers w.eq :), (congrArg Dev.out w.eq :), (congrArg Dev.fresh w.eq :), (congrArg Dev.genReserved w.eq :), (congrArg Dev.startWindow w.eq :), (congrArg Dev.latches w.eq :), (congrArg Dev.phaseLatches w.eq :), (congrArg Dev.seqs w.eq :), (congrArg Dev.barHandle w.eq :), (congrArg Dev.barTarget w.eq :), (congrArg Dev.barLatch w.eq :), (congrArg Dev.barEra w.eq :), (congrArg Dev.pins w.eq :), (congrArg Dev.stage w.eq :), (congrArg Dev.csiPend w.eq :), (congrArg Dev.safe w.eq :), (congrArg Dev.islCause w.eq :), (congrArg Dev.islAt w.eq :)⟩

@[simp] theorem Dev.countFcs_fields (d : Dev) (port : Nat) (f : Found) :
      (d.countFcs port f).vers = d.vers ∧ (d.countFcs port f).out = d.out ∧ (d.countFcs port f).fresh = d.fresh ∧
      (d.countFcs port f).genReserved = d.genReserved ∧ (d.countFcs port f).startWindow = d.startWindow ∧
      (d.countFcs port f).latches = d.latches ∧ (d.countFcs port f).phaseLatches = d.phaseLatches ∧
      (d.countFcs port f).seqs = d.seqs ∧ (d.countFcs port f).barHandle = d.barHandle ∧
      (d.countFcs port f).barTarget = d.barTarget ∧ (d.countFcs port f).barLatch = d.barLatch ∧
      (d.countFcs port f).barEra = d.barEra ∧ (d.countFcs port f).pins = d.pins ∧
      (d.countFcs port f).stage = d.stage ∧ (d.countFcs port f).csiPend = d.csiPend ∧
      (d.countFcs port f).safe = d.safe ∧ (d.countFcs port f).islCause = d.islCause ∧
      (d.countFcs port f).islAt = d.islAt :=
  have w := Dev.countFcs_logOnly (.refl d) port f
  ⟨(congrArg Dev.vers w.eq :), (congrArg Dev.out w.eq :), (congrArg Dev.fresh w.eq :), (congrArg Dev.genReserved w.eq :), (congrArg Dev.startWindow w.eq :), (congrArg Dev.latches w.eq :), (congrArg Dev.phaseLatches w.eq :), (congrArg Dev.seqs w.eq :), (congrArg Dev.barHandle w.eq :), (congrArg Dev.barTarget w.eq :), (congrArg Dev.barLatch w.eq :), (congrArg Dev.barEra w.eq :), (congrArg Dev.pins w.eq :), (congrArg Dev.stage w.eq :), (congrArg Dev.csiPend w.eq :), (congrArg Dev.safe w.eq :), (congrArg Dev.islCause w.eq :), (congrArg Dev.islAt w.eq :)⟩

end Sys2Proof.Machine
end

