-- ==== Sys2Proof/Laws/State.lean ====
section
/-! SUPPORT. Each update of the device beside each of its fields: what it leaves alone (all true by rfl), and the register
reads after it. One lemma per update holds a clause per field. -/
namespace Sys2Proof.Machine

@[simp] theorem Dev.set_fields (d : Dev) (k : Nat) (v : Int) :
      (d.set k v).blobs = d.blobs ∧ (d.set k v).vers = d.vers ∧ (d.set k v).flash = d.flash ∧
      (d.set k v).flashBlobs = d.flashBlobs ∧ (d.set k v).mem = d.mem ∧ (d.set k v).out = d.out ∧
      (d.set k v).fresh = d.fresh ∧ (d.set k v).log = d.log ∧ (d.set k v).partners = d.partners ∧
      (d.set k v).tl = d.tl ∧ (d.set k v).servo = d.servo ∧ (d.set k v).fences = d.fences ∧
      (d.set k v).waits = d.waits ∧ (d.set k v).dict = d.dict ∧ (d.set k v).mbox = d.mbox ∧
      (d.set k v).queues = d.queues ∧ (d.set k v).genReserved = d.genReserved ∧ (d.set k v).handAt = d.handAt ∧
      (d.set k v).startWindow = d.startWindow ∧ (d.set k v).latches = d.latches ∧
      (d.set k v).phaseLatches = d.phaseLatches ∧ (d.set k v).seqs = d.seqs ∧ (d.set k v).books = d.books ∧ (d.set k v).barHandle = d.barHandle ∧
      (d.set k v).barTarget = d.barTarget ∧ (d.set k v).barLatch = d.barLatch ∧ (d.set k v).barEra = d.barEra ∧
      (d.set k v).pins = d.pins ∧ (d.set k v).boot = d.boot ∧ (d.set k v).banks = d.banks ∧ (d.set k v).tu = d.tu ∧
      (d.set k v).analogOut = d.analogOut ∧ (d.set k v).slots = d.slots ∧ (d.set k v).encs = d.encs ∧
      (d.set k v).stage = d.stage ∧ (d.set k v).csiPend = d.csiPend ∧ (d.set k v).fus = d.fus ∧
      (d.set k v).ten = d.ten ∧ (d.set k v).safe = d.safe ∧ (d.set k v).sol = d.sol ∧ (d.set k v).net = d.net ∧
      (d.set k v).aud = d.aud ∧ (d.set k v).mix = d.mix ∧ (d.set k v).ana = d.ana ∧ (d.set k v).virek = d.virek ∧
      (d.set k v).islCause = d.islCause ∧ (d.set k v).islAt = d.islAt ∧ (d.set k v).pours = d.pours ∧
      (d.set k v).pow = d.pow :=
  ⟨rfl, rfl, rfl, rfl, rfl, rfl, rfl, rfl, rfl, rfl, rfl, rfl, rfl, rfl, rfl, rfl, rfl, rfl, rfl, rfl, rfl, rfl, rfl, rfl, rfl, rfl, rfl, rfl, rfl, rfl, rfl, rfl, rfl, rfl, rfl, rfl, rfl, rfl, rfl, rfl, rfl, rfl, rfl, rfl, rfl, rfl, rfl, rfl, rfl⟩

@[simp] theorem Dev.setN_fields (d : Dev) (k v : Nat) :
      (d.setN k v).blobs = d.blobs ∧ (d.setN k v).vers = d.vers ∧ (d.setN k v).flash = d.flash ∧
      (d.setN k v).flashBlobs = d.flashBlobs ∧ (d.setN k v).mem = d.mem ∧ (d.setN k v).out = d.out ∧
      (d.setN k v).fresh = d.fresh ∧ (d.setN k v).log = d.log ∧ (d.setN k v).partners = d.partners ∧
      (d.setN k v).tl = d.tl ∧ (d.setN k v).servo = d.servo ∧ (d.setN k v).fences = d.fences ∧
      (d.setN k v).waits = d.waits ∧ (d.setN k v).dict = d.dict ∧ (d.setN k v).mbox = d.mbox ∧
      (d.setN k v).queues = d.queues ∧ (d.setN k v).genReserved = d.genReserved ∧ (d.setN k v).handAt = d.handAt ∧
      (d.setN k v).startWindow = d.startWindow ∧ (d.setN k v).latches = d.latches ∧
      (d.setN k v).phaseLatches = d.phaseLatches ∧ (d.setN k v).seqs = d.seqs ∧
      (d.setN k v).books = d.books ∧ (d.setN k v).barHandle = d.barHandle ∧ (d.setN k v).barTarget = d.barTarget ∧
      (d.setN k v).barLatch = d.barLatch ∧ (d.setN k v).barEra = d.barEra ∧ (d.setN k v).pins = d.pins ∧
      (d.setN k v).boot = d.boot ∧ (d.setN k v).banks = d.banks ∧ (d.setN k v).tu = d.tu ∧
      (d.setN k v).analogOut = d.analogOut ∧ (d.setN k v).slots = d.slots ∧ (d.setN k v).encs = d.encs ∧
      (d.setN k v).stage = d.stage ∧ (d.setN k v).csiPend = d.csiPend ∧ (d.setN k v).fus = d.fus ∧
      (d.setN k v).ten = d.ten ∧ (d.setN k v).safe = d.safe ∧ (d.setN k v).sol = d.sol ∧ (d.setN k v).net = d.net ∧
      (d.setN k v).aud = d.aud ∧ (d.setN k v).mix = d.mix ∧ (d.setN k v).ana = d.ana ∧
      (d.setN k v).virek = d.virek ∧ (d.setN k v).islCause = d.islCause ∧ (d.setN k v).islAt = d.islAt ∧
      (d.setN k v).pours = d.pours ∧ (d.setN k v).pow = d.pow :=
  ⟨rfl, rfl, rfl, rfl, rfl, rfl, rfl, rfl, rfl, rfl, rfl, rfl, rfl, rfl, rfl, rfl, rfl, rfl, rfl, rfl, rfl, rfl, rfl, rfl, rfl, rfl, rfl, rfl, rfl, rfl, rfl, rfl, rfl, rfl, rfl, rfl, rfl, rfl, rfl, rfl, rfl, rfl, rfl, rfl, rfl, rfl, rfl, rfl, rfl⟩

@[simp] theorem Dev.setB_fields (d : Dev) (k : Nat) (b : Bool) :
      (d.setB k b).blobs = d.blobs ∧ (d.setB k b).vers = d.vers ∧ (d.setB k b).flash = d.flash ∧
      (d.setB k b).flashBlobs = d.flashBlobs ∧ (d.setB k b).mem = d.mem ∧ (d.setB k b).out = d.out ∧
      (d.setB k b).fresh = d.fresh ∧ (d.setB k b).log = d.log ∧ (d.setB k b).partners = d.partners ∧
      (d.setB k b).tl = d.tl ∧ (d.setB k b).servo = d.servo ∧ (d.setB k b).fences = d.fences ∧
      (d.setB k b).waits = d.waits ∧ (d.setB k b).dict = d.dict ∧ (d.setB k b).mbox = d.mbox ∧
      (d.setB k b).queues = d.queues ∧ (d.setB k b).genReserved = d.genReserved ∧ (d.setB k b).handAt = d.handAt ∧
      (d.setB k b).startWindow = d.startWindow ∧ (d.setB k b).latches = d.latches ∧
      (d.setB k b).phaseLatches = d.phaseLatches ∧ (d.setB k b).seqs = d.seqs ∧
      (d.setB k b).books = d.books ∧ (d.setB k b).barHandle = d.barHandle ∧ (d.setB k b).barTarget = d.barTarget ∧
      (d.setB k b).barLatch = d.barLatch ∧ (d.setB k b).barEra = d.barEra ∧ (d.setB k b).pins = d.pins ∧
      (d.setB k b).boot = d.boot ∧ (d.setB k b).banks = d.banks ∧ (d.setB k b).tu = d.tu ∧
      (d.setB k b).analogOut = d.analogOut ∧ (d.setB k b).slots = d.slots ∧ (d.setB k b).encs = d.encs ∧
      (d.setB k b).stage = d.stage ∧ (d.setB k b).csiPend = d.csiPend ∧ (d.setB k b).fus = d.fus ∧
      (d.setB k b).ten = d.ten ∧ (d.setB k b).safe = d.safe ∧ (d.setB k b).sol = d.sol ∧ (d.setB k b).net = d.net ∧
      (d.setB k b).aud = d.aud ∧ (d.setB k b).mix = d.mix ∧ (d.setB k b).ana = d.ana ∧
      (d.setB k b).virek = d.virek ∧ (d.setB k b).islCause = d.islCause ∧ (d.setB k b).islAt = d.islAt ∧
      (d.setB k b).pours = d.pours ∧ (d.setB k b).pow = d.pow :=
  ⟨rfl, rfl, rfl, rfl, rfl, rfl, rfl, rfl, rfl, rfl, rfl, rfl, rfl, rfl, rfl, rfl, rfl, rfl, rfl, rfl, rfl, rfl, rfl, rfl, rfl, rfl, rfl, rfl, rfl, rfl, rfl, rfl, rfl, rfl, rfl, rfl, rfl, rfl, rfl, rfl, rfl, rfl, rfl, rfl, rfl, rfl, rfl, rfl, rfl⟩

@[simp] theorem Dev.bumpBy_fields (d : Dev) (k n : Nat) :
      (d.bumpBy k n).blobs = d.blobs ∧ (d.bumpBy k n).vers = d.vers ∧ (d.bumpBy k n).flash = d.flash ∧
      (d.bumpBy k n).flashBlobs = d.flashBlobs ∧ (d.bumpBy k n).mem = d.mem ∧ (d.bumpBy k n).out = d.out ∧
      (d.bumpBy k n).fresh = d.fresh ∧ (d.bumpBy k n).log = d.log ∧ (d.bumpBy k n).partners = d.partners ∧
      (d.bumpBy k n).tl = d.tl ∧ (d.bumpBy k n).servo = d.servo ∧ (d.bumpBy k n).fences = d.fences ∧
      (d.bumpBy k n).waits = d.waits ∧ (d.bumpBy k n).dict = d.dict ∧ (d.bumpBy k n).mbox = d.mbox ∧
      (d.bumpBy k n).queues = d.queues ∧ (d.bumpBy k n).genReserved = d.genReserved ∧
      (d.bumpBy k n).handAt = d.handAt ∧ (d.bumpBy k n).startWindow = d.startWindow ∧
      (d.bumpBy k n).latches = d.latches ∧ (d.bumpBy k n).phaseLatches = d.phaseLatches ∧
      (d.bumpBy k n).seqs = d.seqs ∧ (d.bumpBy k n).books = d.books ∧ (d.bumpBy k n).barHandle = d.barHandle ∧
      (d.bumpBy k n).barTarget = d.barTarget ∧ (d.bumpBy k n).barLatch = d.barLatch ∧
      (d.bumpBy k n).barEra = d.barEra ∧ (d.bumpBy k n).pins = d.pins ∧ (d.bumpBy k n).boot = d.boot ∧
      (d.bumpBy k n).banks = d.banks ∧ (d.bumpBy k n).tu = d.tu ∧ (d.bumpBy k n).analogOut = d.analogOut ∧
      (d.bumpBy k n).slots = d.slots ∧ (d.bumpBy k n).encs = d.encs ∧ (d.bumpBy k n).stage = d.stage ∧
      (d.bumpBy k n).csiPend = d.csiPend ∧ (d.bumpBy k n).fus = d.fus ∧ (d.bumpBy k n).ten = d.ten ∧
      (d.bumpBy k n).safe = d.safe ∧ (d.bumpBy k n).sol = d.sol ∧ (d.bumpBy k n).net = d.net ∧
      (d.bumpBy k n).aud = d.aud ∧ (d.bumpBy k n).mix = d.mix ∧ (d.bumpBy k n).ana = d.ana ∧
      (d.bumpBy k n).virek = d.virek ∧ (d.bumpBy k n).islCause = d.islCause ∧ (d.bumpBy k n).islAt = d.islAt ∧
      (d.bumpBy k n).pours = d.pours ∧ (d.bumpBy k n).pow = d.pow :=
  ⟨rfl, rfl, rfl, rfl, rfl, rfl, rfl, rfl, rfl, rfl, rfl, rfl, rfl, rfl, rfl, rfl, rfl, rfl, rfl, rfl, rfl, rfl, rfl, rfl, rfl, rfl, rfl, rfl, rfl, rfl, rfl, rfl, rfl, rfl, rfl, rfl, rfl, rfl, rfl, rfl, rfl, rfl, rfl, rfl, rfl, rfl, rfl, rfl, rfl⟩

@[simp] theorem Dev.bump_fields (d : Dev) (k : Nat) :
      (d.bump k).blobs = d.blobs ∧ (d.bump k).vers = d.vers ∧ (d.bump k).flash = d.flash ∧
      (d.bump k).flashBlobs = d.flashBlobs ∧ (d.bump k).mem = d.mem ∧ (d.bump k).out = d.out ∧
      (d.bump k).fresh = d.fresh ∧ (d.bump k).log = d.log ∧ (d.bump k).partners = d.partners ∧
      (d.bump k).tl = d.tl ∧ (d.bump k).servo = d.servo ∧ (d.bump k).fences = d.fences ∧
      (d.bump k).waits = d.waits ∧ (d.bump k).dict = d.dict ∧ (d.bump k).mbox = d.mbox ∧
      (d.bump k).queues = d.queues ∧ (d.bump k).genReserved = d.genReserved ∧ (d.bump k).handAt = d.handAt ∧
      (d.bump k).startWindow = d.startWindow ∧ (d.bump k).latches = d.latches ∧
      (d.bump k).phaseLatches = d.phaseLatches ∧ (d.bump k).seqs = d.seqs ∧ (d.bump k).books = d.books ∧ (d.bump k).barHandle = d.barHandle ∧
      (d.bump k).barTarget = d.barTarget ∧ (d.bump k).barLatch = d.barLatch ∧ (d.bump k).barEra = d.barEra ∧
      (d.bump k).pins = d.pins ∧ (d.bump k).boot = d.boot ∧ (d.bump k).banks = d.banks ∧ (d.bump k).tu = d.tu ∧
      (d.bump k).analogOut = d.analogOut ∧ (d.bump k).slots = d.slots ∧ (d.bump k).encs = d.encs ∧
      (d.bump k).stage = d.stage ∧ (d.bump k).csiPend = d.csiPend ∧ (d.bump k).fus = d.fus ∧
      (d.bump k).ten = d.ten ∧ (d.bump k).safe = d.safe ∧ (d.bump k).sol = d.sol ∧ (d.bump k).net = d.net ∧
      (d.bump k).aud = d.aud ∧ (d.bump k).mix = d.mix ∧ (d.bump k).ana = d.ana ∧ (d.bump k).virek = d.virek ∧
      (d.bump k).islCause = d.islCause ∧ (d.bump k).islAt = d.islAt ∧ (d.bump k).pours = d.pours ∧
      (d.bump k).pow = d.pow :=
  ⟨rfl, rfl, rfl, rfl, rfl, rfl, rfl, rfl, rfl, rfl, rfl, rfl, rfl, rfl, rfl, rfl, rfl, rfl, rfl, rfl, rfl, rfl, rfl, rfl, rfl, rfl, rfl, rfl, rfl, rfl, rfl, rfl, rfl, rfl, rfl, rfl, rfl, rfl, rfl, rfl, rfl, rfl, rfl, rfl, rfl, rfl, rfl, rfl, rfl⟩

@[simp] theorem Dev.drop_fields (d : Dev) (k : Nat) :
      (d.drop k).blobs = d.blobs ∧ (d.drop k).vers = d.vers ∧ (d.drop k).flash = d.flash ∧
      (d.drop k).flashBlobs = d.flashBlobs ∧ (d.drop k).mem = d.mem ∧ (d.drop k).out = d.out ∧
      (d.drop k).fresh = d.fresh ∧ (d.drop k).log = d.log ∧ (d.drop k).partners = d.partners ∧
      (d.drop k).tl = d.tl ∧ (d.drop k).servo = d.servo ∧ (d.drop k).fences = d.fences ∧
      (d.drop k).waits = d.waits ∧ (d.drop k).dict = d.dict ∧ (d.drop k).mbox = d.mbox ∧
      (d.drop k).queues = d.queues ∧ (d.drop k).genReserved = d.genReserved ∧ (d.drop k).handAt = d.handAt ∧
      (d.drop k).startWindow = d.startWindow ∧ (d.drop k).latches = d.latches ∧
      (d.drop k).phaseLatches = d.phaseLatches ∧ (d.drop k).seqs = d.seqs ∧ (d.drop k).books = d.books ∧ (d.drop k).barHandle = d.barHandle ∧
      (d.drop k).barTarget = d.barTarget ∧ (d.drop k).barLatch = d.barLatch ∧ (d.drop k).barEra = d.barEra ∧
      (d.drop k).pins = d.pins ∧ (d.drop k).boot = d.boot ∧ (d.drop k).banks = d.banks ∧ (d.drop k).tu = d.tu ∧
      (d.drop k).analogOut = d.analogOut ∧ (d.drop k).slots = d.slots ∧ (d.drop k).encs = d.encs ∧
      (d.drop k).stage = d.stage ∧ (d.drop k).csiPend = d.csiPend ∧ (d.drop k).fus = d.fus ∧
      (d.drop k).ten = d.ten ∧ (d.drop k).safe = d.safe ∧ (d.drop k).sol = d.sol ∧ (d.drop k).net = d.net ∧
      (d.drop k).aud = d.aud ∧ (d.drop k).mix = d.mix ∧ (d.drop k).ana = d.ana ∧ (d.drop k).virek = d.virek ∧
      (d.drop k).islCause = d.islCause ∧ (d.drop k).islAt = d.islAt ∧ (d.drop k).pours = d.pours ∧
      (d.drop k).pow = d.pow :=
  ⟨rfl, rfl, rfl, rfl, rfl, rfl, rfl, rfl, rfl, rfl, rfl, rfl, rfl, rfl, rfl, rfl, rfl, rfl, rfl, rfl, rfl, rfl, rfl, rfl, rfl, rfl, rfl, rfl, rfl, rfl, rfl, rfl, rfl, rfl, rfl, rfl, rfl, rfl, rfl, rfl, rfl, rfl, rfl, rfl, rfl, rfl, rfl, rfl, rfl⟩

@[simp] theorem Dev.setBlob_fields (d : Dev) (k : Nat) (b : Bytes) :
      (d.setBlob k b).regs = d.regs ∧ (d.setBlob k b).vers = d.vers ∧ (d.setBlob k b).flash = d.flash ∧
      (d.setBlob k b).flashBlobs = d.flashBlobs ∧ (d.setBlob k b).mem = d.mem ∧ (d.setBlob k b).out = d.out ∧
      (d.setBlob k b).fresh = d.fresh ∧ (d.setBlob k b).log = d.log ∧ (d.setBlob k b).partners = d.partners ∧
      (d.setBlob k b).tl = d.tl ∧ (d.setBlob k b).servo = d.servo ∧ (d.setBlob k b).fences = d.fences ∧
      (d.setBlob k b).waits = d.waits ∧ (d.setBlob k b).dict = d.dict ∧ (d.setBlob k b).mbox = d.mbox ∧
      (d.setBlob k b).queues = d.queues ∧ (d.setBlob k b).genReserved = d.genReserved ∧
      (d.setBlob k b).handAt = d.handAt ∧ (d.setBlob k b).startWindow = d.startWindow ∧
      (d.setBlob k b).latches = d.latches ∧ (d.setBlob k b).phaseLatches = d.phaseLatches ∧
      (d.setBlob k b).seqs = d.seqs ∧ (d.setBlob k b).books = d.books ∧ (d.setBlob k b).barHandle = d.barHandle ∧
      (d.setBlob k b).barTarget = d.barTarget ∧ (d.setBlob k b).barLatch = d.barLatch ∧
      (d.setBlob k b).barEra = d.barEra ∧ (d.setBlob k b).pins = d.pins ∧ (d.setBlob k b).boot = d.boot ∧
      (d.setBlob k b).banks = d.banks ∧ (d.setBlob k b).tu = d.tu ∧ (d.setBlob k b).analogOut = d.analogOut ∧
      (d.setBlob k b).slots = d.slots ∧ (d.setBlob k b).encs = d.encs ∧ (d.setBlob k b).stage = d.stage ∧
      (d.setBlob k b).csiPend = d.csiPend ∧ (d.setBlob k b).fus = d.fus ∧ (d.setBlob k b).ten = d.ten ∧
      (d.setBlob k b).safe = d.safe ∧ (d.setBlob k b).sol = d.sol ∧ (d.setBlob k b).net = d.net ∧
      (d.setBlob k b).aud = d.aud ∧ (d.setBlob k b).mix = d.mix ∧ (d.setBlob k b).ana = d.ana ∧
      (d.setBlob k b).virek = d.virek ∧ (d.setBlob k b).islCause = d.islCause ∧ (d.setBlob k b).islAt = d.islAt ∧
      (d.setBlob k b).pours = d.pours ∧ (d.setBlob k b).pow = d.pow :=
  ⟨rfl, rfl, rfl, rfl, rfl, rfl, rfl, rfl, rfl, rfl, rfl, rfl, rfl, rfl, rfl, rfl, rfl, rfl, rfl, rfl, rfl, rfl, rfl, rfl, rfl, rfl, rfl, rfl, rfl, rfl, rfl, rfl, rfl, rfl, rfl, rfl, rfl, rfl, rfl, rfl, rfl, rfl, rfl, rfl, rfl, rfl, rfl, rfl, rfl⟩

@[simp] theorem Dev.setBlob_reg (d : Dev) (k : Nat) (b : Bytes) (x : Nat) : (d.setBlob k b).reg x = d.reg x := rfl

@[simp] theorem Dev.bumpVer_fields (d : Dev) (k : Nat) :
      (d.bumpVer k).regs = d.regs ∧ (d.bumpVer k).blobs = d.blobs ∧ (d.bumpVer k).flash = d.flash ∧
      (d.bumpVer k).flashBlobs = d.flashBlobs ∧ (d.bumpVer k).mem = d.mem ∧ (d.bumpVer k).out = d.out ∧
      (d.bumpVer k).fresh = d.fresh ∧ (d.bumpVer k).log = d.log ∧ (d.bumpVer k).partners = d.partners ∧
      (d.bumpVer k).tl = d.tl ∧ (d.bumpVer k).servo = d.servo ∧ (d.bumpVer k).fences = d.fences ∧
      (d.bumpVer k).waits = d.waits ∧ (d.bumpVer k).dict = d.dict ∧ (d.bumpVer k).mbox = d.mbox ∧
      (d.bumpVer k).queues = d.queues ∧ (d.bumpVer k).genReserved = d.genReserved ∧
      (d.bumpVer k).handAt = d.handAt ∧ (d.bumpVer k).startWindow = d.startWindow ∧
      (d.bumpVer k).latches = d.latches ∧ (d.bumpVer k).phaseLatches = d.phaseLatches ∧
      (d.bumpVer k).seqs = d.seqs ∧ (d.bumpVer k).books = d.books ∧ (d.bumpVer k).barHandle = d.barHandle ∧ (d.bumpVer k).barTarget = d.barTarget ∧
      (d.bumpVer k).barLatch = d.barLatch ∧ (d.bumpVer k).barEra = d.barEra ∧ (d.bumpVer k).pins = d.pins ∧
      (d.bumpVer k).boot = d.boot ∧ (d.bumpVer k).banks = d.banks ∧ (d.bumpVer k).tu = d.tu ∧
      (d.bumpVer k).analogOut = d.analogOut ∧ (d.bumpVer k).slots = d.slots ∧ (d.bumpVer k).encs = d.encs ∧
      (d.bumpVer k).stage = d.stage ∧ (d.bumpVer k).csiPend = d.csiPend ∧ (d.bumpVer k).fus = d.fus ∧
      (d.bumpVer k).ten = d.ten ∧ (d.bumpVer k).safe = d.safe ∧ (d.bumpVer k).sol = d.sol ∧
      (d.bumpVer k).net = d.net ∧ (d.bumpVer k).aud = d.aud ∧ (d.bumpVer k).mix = d.mix ∧
      (d.bumpVer k).ana = d.ana ∧ (d.bumpVer k).virek = d.virek ∧ (d.bumpVer k).islCause = d.islCause ∧
      (d.bumpVer k).islAt = d.islAt ∧ (d.bumpVer k).pours = d.pours ∧ (d.bumpVer k).pow = d.pow :=
  ⟨rfl, rfl, rfl, rfl, rfl, rfl, rfl, rfl, rfl, rfl, rfl, rfl, rfl, rfl, rfl, rfl, rfl, rfl, rfl, rfl, rfl, rfl, rfl, rfl, rfl, rfl, rfl, rfl, rfl, rfl, rfl, rfl, rfl, rfl, rfl, rfl, rfl, rfl, rfl, rfl, rfl, rfl, rfl, rfl, rfl, rfl, rfl, rfl, rfl⟩

@[simp] theorem Dev.bumpVer_reg (d : Dev) (k : Nat) (x : Nat) : (d.bumpVer k).reg x = d.reg x := rfl

@[simp] theorem Dev.send_fields (d : Dev) (o : Output) :
      (d.send o).regs = d.regs ∧ (d.send o).blobs = d.blobs ∧ (d.send o).vers = d.vers ∧
      (d.send o).flash = d.flash ∧ (d.send o).flashBlobs = d.flashBlobs ∧ (d.send o).mem = d.mem ∧
      (d.send o).fresh = d.fresh ∧ (d.send o).log = d.log ∧ (d.send o).partners = d.partners ∧
      (d.send o).tl = d.tl ∧ (d.send o).servo = d.servo ∧ (d.send o).fences = d.fences ∧
      (d.send o).waits = d.waits ∧ (d.send o).dict = d.dict ∧ (d.send o).mbox = d.mbox ∧
      (d.send o).queues = d.queues ∧ (d.send o).genReserved = d.genReserved ∧ (d.send o).handAt = d.handAt ∧
      (d.send o).startWindow = d.startWindow ∧ (d.send o).latches = d.latches ∧
      (d.send o).phaseLatches = d.phaseLatches ∧ (d.send o).seqs = d.seqs ∧ (d.send o).books = d.books ∧ (d.send o).barHandle = d.barHandle ∧
      (d.send o).barTarget = d.barTarget ∧ (d.send o).barLatch = d.barLatch ∧ (d.send o).barEra = d.barEra ∧
      (d.send o).pins = d.pins ∧ (d.send o).boot = d.boot ∧ (d.send o).banks = d.banks ∧ (d.send o).tu = d.tu ∧
      (d.send o).analogOut = d.analogOut ∧ (d.send o).slots = d.slots ∧ (d.send o).encs = d.encs ∧
      (d.send o).stage = d.stage ∧ (d.send o).csiPend = d.csiPend ∧ (d.send o).fus = d.fus ∧
      (d.send o).ten = d.ten ∧ (d.send o).safe = d.safe ∧ (d.send o).sol = d.sol ∧ (d.send o).net = d.net ∧
      (d.send o).aud = d.aud ∧ (d.send o).mix = d.mix ∧ (d.send o).ana = d.ana ∧ (d.send o).virek = d.virek ∧
      (d.send o).islCause = d.islCause ∧ (d.send o).islAt = d.islAt ∧ (d.send o).pours = d.pours ∧
      (d.send o).pow = d.pow :=
  ⟨rfl, rfl, rfl, rfl, rfl, rfl, rfl, rfl, rfl, rfl, rfl, rfl, rfl, rfl, rfl, rfl, rfl, rfl, rfl, rfl, rfl, rfl, rfl, rfl, rfl, rfl, rfl, rfl, rfl, rfl, rfl, rfl, rfl, rfl, rfl, rfl, rfl, rfl, rfl, rfl, rfl, rfl, rfl, rfl, rfl, rfl, rfl, rfl, rfl⟩

@[simp] theorem Dev.send_reg (d : Dev) (o : Output) (x : Nat) : (d.send o).reg x = d.reg x := rfl

@[simp] theorem Dev.drawn_fields (d : Dev) :
      (d.drawn).regs = d.regs ∧ (d.drawn).blobs = d.blobs ∧ (d.drawn).vers = d.vers ∧ (d.drawn).flash = d.flash ∧
      (d.drawn).flashBlobs = d.flashBlobs ∧ (d.drawn).mem = d.mem ∧ (d.drawn).out = d.out ∧ (d.drawn).log = d.log ∧
      (d.drawn).partners = d.partners ∧ (d.drawn).tl = d.tl ∧ (d.drawn).servo = d.servo ∧
      (d.drawn).fences = d.fences ∧ (d.drawn).waits = d.waits ∧ (d.drawn).dict = d.dict ∧ (d.drawn).mbox = d.mbox ∧
      (d.drawn).queues = d.queues ∧ (d.drawn).genReserved = d.genReserved ∧ (d.drawn).handAt = d.handAt ∧
      (d.drawn).startWindow = d.startWindow ∧ (d.drawn).latches = d.latches ∧
      (d.drawn).phaseLatches = d.phaseLatches ∧ (d.drawn).seqs = d.seqs ∧ (d.drawn).books = d.books ∧ (d.drawn).barHandle = d.barHandle ∧
      (d.drawn).barTarget = d.barTarget ∧ (d.drawn).barLatch = d.barLatch ∧ (d.drawn).barEra = d.barEra ∧
      (d.drawn).pins = d.pins ∧ (d.drawn).boot = d.boot ∧ (d.drawn).banks = d.banks ∧ (d.drawn).tu = d.tu ∧
      (d.drawn).analogOut = d.analogOut ∧ (d.drawn).slots = d.slots ∧ (d.drawn).encs = d.encs ∧
      (d.drawn).stage = d.stage ∧ (d.drawn).csiPend = d.csiPend ∧ (d.drawn).fus = d.fus ∧ (d.drawn).ten = d.ten ∧
      (d.drawn).safe = d.safe ∧ (d.drawn).sol = d.sol ∧ (d.drawn).net = d.net ∧ (d.drawn).aud = d.aud ∧
      (d.drawn).mix = d.mix ∧ (d.drawn).ana = d.ana ∧ (d.drawn).virek = d.virek ∧ (d.drawn).islCause = d.islCause ∧
      (d.drawn).islAt = d.islAt ∧ (d.drawn).pours = d.pours ∧ (d.drawn).pow = d.pow :=
  ⟨rfl, rfl, rfl, rfl, rfl, rfl, rfl, rfl, rfl, rfl, rfl, rfl, rfl, rfl, rfl, rfl, rfl, rfl, rfl, rfl, rfl, rfl, rfl, rfl, rfl, rfl, rfl, rfl, rfl, rfl, rfl, rfl, rfl, rfl, rfl, rfl, rfl, rfl, rfl, rfl, rfl, rfl, rfl, rfl, rfl, rfl, rfl, rfl, rfl⟩

@[simp] theorem Dev.drawn_reg (d : Dev) (x : Nat) : (d.drawn).reg x = d.reg x := rfl

@[simp] theorem Dev.memWrite_fields (d : Dev) (a : Nat) (bs : Bytes) :
      (d.memWrite a bs).regs = d.regs ∧ (d.memWrite a bs).blobs = d.blobs ∧ (d.memWrite a bs).vers = d.vers ∧
      (d.memWrite a bs).flash = d.flash ∧ (d.memWrite a bs).flashBlobs = d.flashBlobs ∧
      (d.memWrite a bs).out = d.out ∧ (d.memWrite a bs).fresh = d.fresh ∧ (d.memWrite a bs).log = d.log ∧
      (d.memWrite a bs).partners = d.partners ∧ (d.memWrite a bs).tl = d.tl ∧ (d.memWrite a bs).servo = d.servo ∧
      (d.memWrite a bs).fences = d.fences ∧ (d.memWrite a bs).waits = d.waits ∧ (d.memWrite a bs).dict = d.dict ∧
      (d.memWrite a bs).mbox = d.mbox ∧ (d.memWrite a bs).queues = d.queues ∧
      (d.memWrite a bs).genReserved = d.genReserved ∧ (d.memWrite a bs).handAt = d.handAt ∧
      (d.memWrite a bs).startWindow = d.startWindow ∧ (d.memWrite a bs).latches = d.latches ∧
      (d.memWrite a bs).phaseLatches = d.phaseLatches ∧ (d.memWrite a bs).seqs = d.seqs ∧
      (d.memWrite a bs).books = d.books ∧ (d.memWrite a bs).barHandle = d.barHandle ∧ (d.memWrite a bs).barTarget = d.barTarget ∧
      (d.memWrite a bs).barLatch = d.barLatch ∧ (d.memWrite a bs).barEra = d.barEra ∧
      (d.memWrite a bs).pins = d.pins ∧ (d.memWrite a bs).boot = d.boot ∧ (d.memWrite a bs).banks = d.banks ∧
      (d.memWrite a bs).tu = d.tu ∧ (d.memWrite a bs).analogOut = d.analogOut ∧ (d.memWrite a bs).slots = d.slots ∧
      (d.memWrite a bs).encs = d.encs ∧ (d.memWrite a bs).stage = d.stage ∧ (d.memWrite a bs).csiPend = d.csiPend ∧
      (d.memWrite a bs).fus = d.fus ∧ (d.memWrite a bs).ten = d.ten ∧ (d.memWrite a bs).safe = d.safe ∧
      (d.memWrite a bs).sol = d.sol ∧ (d.memWrite a bs).net = d.net ∧ (d.memWrite a bs).aud = d.aud ∧
      (d.memWrite a bs).mix = d.mix ∧ (d.memWrite a bs).ana = d.ana ∧ (d.memWrite a bs).virek = d.virek ∧
      (d.memWrite a bs).islCause = d.islCause ∧ (d.memWrite a bs).islAt = d.islAt ∧
      (d.memWrite a bs).pours = d.pours ∧ (d.memWrite a bs).pow = d.pow :=
  ⟨rfl, rfl, rfl, rfl, rfl, rfl, rfl, rfl, rfl, rfl, rfl, rfl, rfl, rfl, rfl, rfl, rfl, rfl, rfl, rfl, rfl, rfl, rfl, rfl, rfl, rfl, rfl, rfl, rfl, rfl, rfl, rfl, rfl, rfl, rfl, rfl, rfl, rfl, rfl, rfl, rfl, rfl, rfl, rfl, rfl, rfl, rfl, rfl, rfl⟩

@[simp] theorem Dev.memWrite_reg (d : Dev) (a : Nat) (bs : Bytes) (x : Nat) : (d.memWrite a bs).reg x = d.reg x := rfl

@[simp] theorem Dev.onPins_fields (d : Dev) (f : Pins → Pins) :
      (d.onPins f).regs = d.regs ∧ (d.onPins f).blobs = d.blobs ∧ (d.onPins f).vers = d.vers ∧
      (d.onPins f).flash = d.flash ∧ (d.onPins f).flashBlobs = d.flashBlobs ∧ (d.onPins f).mem = d.mem ∧
      (d.onPins f).out = d.out ∧ (d.onPins f).fresh = d.fresh ∧ (d.onPins f).log = d.log ∧
      (d.onPins f).partners = d.partners ∧ (d.onPins f).tl = d.tl ∧ (d.onPins f).servo = d.servo ∧
      (d.onPins f).fences = d.fences ∧ (d.onPins f).waits = d.waits ∧ (d.onPins f).dict = d.dict ∧
      (d.onPins f).mbox = d.mbox ∧ (d.onPins f).queues = d.queues ∧ (d.onPins f).genReserved = d.genReserved ∧
      (d.onPins f).handAt = d.handAt ∧ (d.onPins f).startWindow = d.startWindow ∧ (d.onPins f).latches = d.latches ∧
      (d.onPins f).phaseLatches = d.phaseLatches ∧ (d.onPins f).seqs = d.seqs ∧
      (d.onPins f).books = d.books ∧ (d.onPins f).barHandle = d.barHandle ∧ (d.onPins f).barTarget = d.barTarget ∧
      (d.onPins f).barLatch = d.barLatch ∧ (d.onPins f).barEra = d.barEra ∧ (d.onPins f).boot = d.boot ∧
      (d.onPins f).banks = d.banks ∧ (d.onPins f).tu = d.tu ∧ (d.onPins f).analogOut = d.analogOut ∧
      (d.onPins f).slots = d.slots ∧ (d.onPins f).encs = d.encs ∧ (d.onPins f).stage = d.stage ∧
      (d.onPins f).csiPend = d.csiPend ∧ (d.onPins f).fus = d.fus ∧ (d.onPins f).ten = d.ten ∧
      (d.onPins f).safe = d.safe ∧ (d.onPins f).sol = d.sol ∧ (d.onPins f).net = d.net ∧ (d.onPins f).aud = d.aud ∧
      (d.onPins f).mix = d.mix ∧ (d.onPins f).ana = d.ana ∧ (d.onPins f).virek = d.virek ∧
      (d.onPins f).islCause = d.islCause ∧ (d.onPins f).islAt = d.islAt ∧ (d.onPins f).pours = d.pours ∧
      (d.onPins f).pow = d.pow :=
  ⟨rfl, rfl, rfl, rfl, rfl, rfl, rfl, rfl, rfl, rfl, rfl, rfl, rfl, rfl, rfl, rfl, rfl, rfl, rfl, rfl, rfl, rfl, rfl, rfl, rfl, rfl, rfl, rfl, rfl, rfl, rfl, rfl, rfl, rfl, rfl, rfl, rfl, rfl, rfl, rfl, rfl, rfl, rfl, rfl, rfl, rfl, rfl, rfl, rfl⟩

@[simp] theorem Dev.onPins_reg (d : Dev) (f : Pins → Pins) (x : Nat) : (d.onPins f).reg x = d.reg x := rfl

@[simp] theorem Dev.onSafe_fields (d : Dev) (f : Safe → Safe) :
      (d.onSafe f).regs = d.regs ∧ (d.onSafe f).blobs = d.blobs ∧ (d.onSafe f).vers = d.vers ∧
      (d.onSafe f).flash = d.flash ∧ (d.onSafe f).flashBlobs = d.flashBlobs ∧ (d.onSafe f).mem = d.mem ∧
      (d.onSafe f).out = d.out ∧ (d.onSafe f).fresh = d.fresh ∧ (d.onSafe f).log = d.log ∧
      (d.onSafe f).partners = d.partners ∧ (d.onSafe f).tl = d.tl ∧ (d.onSafe f).servo = d.servo ∧
      (d.onSafe f).fences = d.fences ∧ (d.onSafe f).waits = d.waits ∧ (d.onSafe f).dict = d.dict ∧
      (d.onSafe f).mbox = d.mbox ∧ (d.onSafe f).queues = d.queues ∧ (d.onSafe f).genReserved = d.genReserved ∧
      (d.onSafe f).handAt = d.handAt ∧ (d.onSafe f).startWindow = d.startWindow ∧ (d.onSafe f).latches = d.latches ∧
      (d.onSafe f).phaseLatches = d.phaseLatches ∧ (d.onSafe f).seqs = d.seqs ∧
      (d.onSafe f).books = d.books ∧ (d.onSafe f).barHandle = d.barHandle ∧ (d.onSafe f).barTarget = d.barTarget ∧
      (d.onSafe f).barLatch = d.barLatch ∧ (d.onSafe f).barEra = d.barEra ∧ (d.onSafe f).pins = d.pins ∧
      (d.onSafe f).boot = d.boot ∧ (d.onSafe f).banks = d.banks ∧ (d.onSafe f).tu = d.tu ∧
      (d.onSafe f).analogOut = d.analogOut ∧ (d.onSafe f).slots = d.slots ∧ (d.onSafe f).encs = d.encs ∧
      (d.onSafe f).stage = d.stage ∧ (d.onSafe f).csiPend = d.csiPend ∧ (d.onSafe f).fus = d.fus ∧
      (d.onSafe f).ten = d.ten ∧ (d.onSafe f).sol = d.sol ∧ (d.onSafe f).net = d.net ∧ (d.onSafe f).aud = d.aud ∧
      (d.onSafe f).mix = d.mix ∧ (d.onSafe f).ana = d.ana ∧ (d.onSafe f).virek = d.virek ∧
      (d.onSafe f).islCause = d.islCause ∧ (d.onSafe f).islAt = d.islAt ∧ (d.onSafe f).pours = d.pours ∧
      (d.onSafe f).pow = d.pow :=
  ⟨rfl, rfl, rfl, rfl, rfl, rfl, rfl, rfl, rfl, rfl, rfl, rfl, rfl, rfl, rfl, rfl, rfl, rfl, rfl, rfl, rfl, rfl, rfl, rfl, rfl, rfl, rfl, rfl, rfl, rfl, rfl, rfl, rfl, rfl, rfl, rfl, rfl, rfl, rfl, rfl, rfl, rfl, rfl, rfl, rfl, rfl, rfl, rfl, rfl⟩

@[simp] theorem Dev.onSafe_reg (d : Dev) (f : Safe → Safe) (x : Nat) : (d.onSafe f).reg x = d.reg x := rfl

@[simp] theorem Dev.onTu_fields (d : Dev) (f : Tu → Tu) :
      (d.onTu f).regs = d.regs ∧ (d.onTu f).blobs = d.blobs ∧ (d.onTu f).vers = d.vers ∧
      (d.onTu f).flash = d.flash ∧ (d.onTu f).flashBlobs = d.flashBlobs ∧ (d.onTu f).mem = d.mem ∧
      (d.onTu f).out = d.out ∧ (d.onTu f).fresh = d.fresh ∧ (d.onTu f).log = d.log ∧
      (d.onTu f).partners = d.partners ∧ (d.onTu f).tl = d.tl ∧ (d.onTu f).servo = d.servo ∧
      (d.onTu f).fences = d.fences ∧ (d.onTu f).waits = d.waits ∧ (d.onTu f).dict = d.dict ∧
      (d.onTu f).mbox = d.mbox ∧ (d.onTu f).queues = d.queues ∧ (d.onTu f).genReserved = d.genReserved ∧
      (d.onTu f).handAt = d.handAt ∧ (d.onTu f).startWindow = d.startWindow ∧ (d.onTu f).latches = d.latches ∧
      (d.onTu f).phaseLatches = d.phaseLatches ∧ (d.onTu f).seqs = d.seqs ∧ (d.onTu f).books = d.books ∧ (d.onTu f).barHandle = d.barHandle ∧
      (d.onTu f).barTarget = d.barTarget ∧ (d.onTu f).barLatch = d.barLatch ∧ (d.onTu f).barEra = d.barEra ∧
      (d.onTu f).pins = d.pins ∧ (d.onTu f).boot = d.boot ∧ (d.onTu f).banks = d.banks ∧
      (d.onTu f).analogOut = d.analogOut ∧ (d.onTu f).slots = d.slots ∧ (d.onTu f).encs = d.encs ∧
      (d.onTu f).stage = d.stage ∧ (d.onTu f).csiPend = d.csiPend ∧ (d.onTu f).fus = d.fus ∧
      (d.onTu f).ten = d.ten ∧ (d.onTu f).safe = d.safe ∧ (d.onTu f).sol = d.sol ∧ (d.onTu f).net = d.net ∧
      (d.onTu f).aud = d.aud ∧ (d.onTu f).mix = d.mix ∧ (d.onTu f).ana = d.ana ∧ (d.onTu f).virek = d.virek ∧
      (d.onTu f).islCause = d.islCause ∧ (d.onTu f).islAt = d.islAt ∧ (d.onTu f).pours = d.pours ∧
      (d.onTu f).pow = d.pow :=
  ⟨rfl, rfl, rfl, rfl, rfl, rfl, rfl, rfl, rfl, rfl, rfl, rfl, rfl, rfl, rfl, rfl, rfl, rfl, rfl, rfl, rfl, rfl, rfl, rfl, rfl, rfl, rfl, rfl, rfl, rfl, rfl, rfl, rfl, rfl, rfl, rfl, rfl, rfl, rfl, rfl, rfl, rfl, rfl, rfl, rfl, rfl, rfl, rfl, rfl⟩

@[simp] theorem Dev.onTu_reg (d : Dev) (f : Tu → Tu) (x : Nat) : (d.onTu f).reg x = d.reg x := rfl

@[simp] theorem Dev.onTl_fields (d : Dev) (f : Timeline → Timeline) :
      (d.onTl f).regs = d.regs ∧ (d.onTl f).blobs = d.blobs ∧ (d.onTl f).vers = d.vers ∧
      (d.onTl f).flash = d.flash ∧ (d.onTl f).flashBlobs = d.flashBlobs ∧ (d.onTl f).mem = d.mem ∧
      (d.onTl f).out = d.out ∧ (d.onTl f).fresh = d.fresh ∧ (d.onTl f).log = d.log ∧
      (d.onTl f).partners = d.partners ∧ (d.onTl f).servo = d.servo ∧ (d.onTl f).fences = d.fences ∧
      (d.onTl f).waits = d.waits ∧ (d.onTl f).dict = d.dict ∧ (d.onTl f).mbox = d.mbox ∧
      (d.onTl f).queues = d.queues ∧ (d.onTl f).genReserved = d.genReserved ∧ (d.onTl f).handAt = d.handAt ∧
      (d.onTl f).startWindow = d.startWindow ∧ (d.onTl f).latches = d.latches ∧
      (d.onTl f).phaseLatches = d.phaseLatches ∧ (d.onTl f).seqs = d.seqs ∧ (d.onTl f).books = d.books ∧ (d.onTl f).barHandle = d.barHandle ∧
      (d.onTl f).barTarget = d.barTarget ∧ (d.onTl f).barLatch = d.barLatch ∧ (d.onTl f).barEra = d.barEra ∧
      (d.onTl f).pins = d.pins ∧ (d.onTl f).boot = d.boot ∧ (d.onTl f).banks = d.banks ∧ (d.onTl f).tu = d.tu ∧
      (d.onTl f).analogOut = d.analogOut ∧ (d.onTl f).slots = d.slots ∧ (d.onTl f).encs = d.encs ∧
      (d.onTl f).stage = d.stage ∧ (d.onTl f).csiPend = d.csiPend ∧ (d.onTl f).fus = d.fus ∧
      (d.onTl f).ten = d.ten ∧ (d.onTl f).safe = d.safe ∧ (d.onTl f).sol = d.sol ∧ (d.onTl f).net = d.net ∧
      (d.onTl f).aud = d.aud ∧ (d.onTl f).mix = d.mix ∧ (d.onTl f).ana = d.ana ∧ (d.onTl f).virek = d.virek ∧
      (d.onTl f).islCause = d.islCause ∧ (d.onTl f).islAt = d.islAt ∧ (d.onTl f).pours = d.pours ∧
      (d.onTl f).pow = d.pow :=
  ⟨rfl, rfl, rfl, rfl, rfl, rfl, rfl, rfl, rfl, rfl, rfl, rfl, rfl, rfl, rfl, rfl, rfl, rfl, rfl, rfl, rfl, rfl, rfl, rfl, rfl, rfl, rfl, rfl, rfl, rfl, rfl, rfl, rfl, rfl, rfl, rfl, rfl, rfl, rfl, rfl, rfl, rfl, rfl, rfl, rfl, rfl, rfl, rfl, rfl⟩

@[simp] theorem Dev.onTl_reg (d : Dev) (f : Timeline → Timeline) (x : Nat) : (d.onTl f).reg x = d.reg x := rfl

@[simp] theorem Dev.onServo_fields (d : Dev) (f : Servo → Servo) :
      (d.onServo f).regs = d.regs ∧ (d.onServo f).blobs = d.blobs ∧ (d.onServo f).vers = d.vers ∧
      (d.onServo f).flash = d.flash ∧ (d.onServo f).flashBlobs = d.flashBlobs ∧ (d.onServo f).mem = d.mem ∧
      (d.onServo f).out = d.out ∧ (d.onServo f).fresh = d.fresh ∧ (d.onServo f).log = d.log ∧
      (d.onServo f).partners = d.partners ∧ (d.onServo f).tl = d.tl ∧ (d.onServo f).fences = d.fences ∧
      (d.onServo f).waits = d.waits ∧ (d.onServo f).dict = d.dict ∧ (d.onServo f).mbox = d.mbox ∧
      (d.onServo f).queues = d.queues ∧ (d.onServo f).genReserved = d.genReserved ∧
      (d.onServo f).handAt = d.handAt ∧ (d.onServo f).startWindow = d.startWindow ∧
      (d.onServo f).latches = d.latches ∧ (d.onServo f).phaseLatches = d.phaseLatches ∧
      (d.onServo f).seqs = d.seqs ∧ (d.onServo f).books = d.books ∧ (d.onServo f).barHandle = d.barHandle ∧ (d.onServo f).barTarget = d.barTarget ∧
      (d.onServo f).barLatch = d.barLatch ∧ (d.onServo f).barEra = d.barEra ∧ (d.onServo f).pins = d.pins ∧
      (d.onServo f).boot = d.boot ∧ (d.onServo f).banks = d.banks ∧ (d.onServo f).tu = d.tu ∧
      (d.onServo f).analogOut = d.analogOut ∧ (d.onServo f).slots = d.slots ∧ (d.onServo f).encs = d.encs ∧
      (d.onServo f).stage = d.stage ∧ (d.onServo f).csiPend = d.csiPend ∧ (d.onServo f).fus = d.fus ∧
      (d.onServo f).ten = d.ten ∧ (d.onServo f).safe = d.safe ∧ (d.onServo f).sol = d.sol ∧
      (d.onServo f).net = d.net ∧ (d.onServo f).aud = d.aud ∧ (d.onServo f).mix = d.mix ∧
      (d.onServo f).ana = d.ana ∧ (d.onServo f).virek = d.virek ∧ (d.onServo f).islCause = d.islCause ∧
      (d.onServo f).islAt = d.islAt ∧ (d.onServo f).pours = d.pours ∧ (d.onServo f).pow = d.pow :=
  ⟨rfl, rfl, rfl, rfl, rfl, rfl, rfl, rfl, rfl, rfl, rfl, rfl, rfl, rfl, rfl, rfl, rfl, rfl, rfl, rfl, rfl, rfl, rfl, rfl, rfl, rfl, rfl, rfl, rfl, rfl, rfl, rfl, rfl, rfl, rfl, rfl, rfl, rfl, rfl, rfl, rfl, rfl, rfl, rfl, rfl, rfl, rfl, rfl, rfl⟩

@[simp] theorem Dev.onServo_reg (d : Dev) (f : Servo → Servo) (x : Nat) : (d.onServo f).reg x = d.reg x := rfl

@[simp] theorem Dev.onBoot_fields (d : Dev) (f : Boot → Boot) :
      (d.onBoot f).regs = d.regs ∧ (d.onBoot f).blobs = d.blobs ∧ (d.onBoot f).vers = d.vers ∧
      (d.onBoot f).flash = d.flash ∧ (d.onBoot f).flashBlobs = d.flashBlobs ∧ (d.onBoot f).mem = d.mem ∧
      (d.onBoot f).out = d.out ∧ (d.onBoot f).fresh = d.fresh ∧ (d.onBoot f).log = d.log ∧
      (d.onBoot f).partners = d.partners ∧ (d.onBoot f).tl = d.tl ∧ (d.onBoot f).servo = d.servo ∧
      (d.onBoot f).fences = d.fences ∧ (d.onBoot f).waits = d.waits ∧ (d.onBoot f).dict = d.dict ∧
      (d.onBoot f).mbox = d.mbox ∧ (d.onBoot f).queues = d.queues ∧ (d.onBoot f).genReserved = d.genReserved ∧
      (d.onBoot f).handAt = d.handAt ∧ (d.onBoot f).startWindow = d.startWindow ∧ (d.onBoot f).latches = d.latches ∧
      (d.onBoot f).phaseLatches = d.phaseLatches ∧ (d.onBoot f).seqs = d.seqs ∧
      (d.onBoot f).books = d.books ∧ (d.onBoot f).barHandle = d.barHandle ∧ (d.onBoot f).barTarget = d.barTarget ∧
      (d.onBoot f).barLatch = d.barLatch ∧ (d.onBoot f).barEra = d.barEra ∧ (d.onBoot f).pins = d.pins ∧
      (d.onBoot f).banks = d.banks ∧ (d.onBoot f).tu = d.tu ∧ (d.onBoot f).analogOut = d.analogOut ∧
      (d.onBoot f).slots = d.slots ∧ (d.onBoot f).encs = d.encs ∧ (d.onBoot f).stage = d.stage ∧
      (d.onBoot f).csiPend = d.csiPend ∧ (d.onBoot f).fus = d.fus ∧ (d.onBoot f).ten = d.ten ∧
      (d.onBoot f).safe = d.safe ∧ (d.onBoot f).sol = d.sol ∧ (d.onBoot f).net = d.net ∧ (d.onBoot f).aud = d.aud ∧
      (d.onBoot f).mix = d.mix ∧ (d.onBoot f).ana = d.ana ∧ (d.onBoot f).virek = d.virek ∧
      (d.onBoot f).islCause = d.islCause ∧ (d.onBoot f).islAt = d.islAt ∧ (d.onBoot f).pours = d.pours ∧
      (d.onBoot f).pow = d.pow :=
  ⟨rfl, rfl, rfl, rfl, rfl, rfl, rfl, rfl, rfl, rfl, rfl, rfl, rfl, rfl, rfl, rfl, rfl, rfl, rfl, rfl, rfl, rfl, rfl, rfl, rfl, rfl, rfl, rfl, rfl, rfl, rfl, rfl, rfl, rfl, rfl, rfl, rfl, rfl, rfl, rfl, rfl, rfl, rfl, rfl, rfl, rfl, rfl, rfl, rfl⟩

@[simp] theorem Dev.onBoot_reg (d : Dev) (f : Boot → Boot) (x : Nat) : (d.onBoot f).reg x = d.reg x := rfl

@[simp] theorem Dev.setSlot_fields (d : Dev) (s : Nat) (r : SlotRt) :
      (d.setSlot s r).regs = d.regs ∧ (d.setSlot s r).blobs = d.blobs ∧ (d.setSlot s r).vers = d.vers ∧
      (d.setSlot s r).flash = d.flash ∧ (d.setSlot s r).flashBlobs = d.flashBlobs ∧ (d.setSlot s r).mem = d.mem ∧
      (d.setSlot s r).out = d.out ∧ (d.setSlot s r).fresh = d.fresh ∧ (d.setSlot s r).log = d.log ∧
      (d.setSlot s r).partners = d.partners ∧ (d.setSlot s r).tl = d.tl ∧ (d.setSlot s r).servo = d.servo ∧
      (d.setSlot s r).fences = d.fences ∧ (d.setSlot s r).waits = d.waits ∧ (d.setSlot s r).dict = d.dict ∧
      (d.setSlot s r).mbox = d.mbox ∧ (d.setSlot s r).queues = d.queues ∧
      (d.setSlot s r).genReserved = d.genReserved ∧ (d.setSlot s r).handAt = d.handAt ∧
      (d.setSlot s r).startWindow = d.startWindow ∧ (d.setSlot s r).latches = d.latches ∧
      (d.setSlot s r).phaseLatches = d.phaseLatches ∧ (d.setSlot s r).seqs = d.seqs ∧
      (d.setSlot s r).books = d.books ∧ (d.setSlot s r).barHandle = d.barHandle ∧ (d.setSlot s r).barTarget = d.barTarget ∧
      (d.setSlot s r).barLatch = d.barLatch ∧ (d.setSlot s r).barEra = d.barEra ∧ (d.setSlot s r).pins = d.pins ∧
      (d.setSlot s r).boot = d.boot ∧ (d.setSlot s r).banks = d.banks ∧ (d.setSlot s r).tu = d.tu ∧
      (d.setSlot s r).analogOut = d.analogOut ∧ (d.setSlot s r).encs = d.encs ∧ (d.setSlot s r).stage = d.stage ∧
      (d.setSlot s r).csiPend = d.csiPend ∧ (d.setSlot s r).fus = d.fus ∧ (d.setSlot s r).ten = d.ten ∧
      (d.setSlot s r).safe = d.safe ∧ (d.setSlot s r).sol = d.sol ∧ (d.setSlot s r).net = d.net ∧
      (d.setSlot s r).aud = d.aud ∧ (d.setSlot s r).mix = d.mix ∧ (d.setSlot s r).ana = d.ana ∧
      (d.setSlot s r).virek = d.virek ∧ (d.setSlot s r).islCause = d.islCause ∧ (d.setSlot s r).islAt = d.islAt ∧
      (d.setSlot s r).pours = d.pours ∧ (d.setSlot s r).pow = d.pow :=
  ⟨rfl, rfl, rfl, rfl, rfl, rfl, rfl, rfl, rfl, rfl, rfl, rfl, rfl, rfl, rfl, rfl, rfl, rfl, rfl, rfl, rfl, rfl, rfl, rfl, rfl, rfl, rfl, rfl, rfl, rfl, rfl, rfl, rfl, rfl, rfl, rfl, rfl, rfl, rfl, rfl, rfl, rfl, rfl, rfl, rfl, rfl, rfl, rfl, rfl⟩

@[simp] theorem Dev.setSlot_reg (d : Dev) (s : Nat) (r : SlotRt) (x : Nat) : (d.setSlot s r).reg x = d.reg x := rfl

@[simp] theorem Dev.onSlot_fields (d : Dev) (s : Nat) (f : SlotRt → SlotRt) :
      (d.onSlot s f).regs = d.regs ∧ (d.onSlot s f).blobs = d.blobs ∧ (d.onSlot s f).vers = d.vers ∧
      (d.onSlot s f).flash = d.flash ∧ (d.onSlot s f).flashBlobs = d.flashBlobs ∧ (d.onSlot s f).mem = d.mem ∧
      (d.onSlot s f).out = d.out ∧ (d.onSlot s f).fresh = d.fresh ∧ (d.onSlot s f).log = d.log ∧
      (d.onSlot s f).partners = d.partners ∧ (d.onSlot s f).tl = d.tl ∧ (d.onSlot s f).servo = d.servo ∧
      (d.onSlot s f).fences = d.fences ∧ (d.onSlot s f).waits = d.waits ∧ (d.onSlot s f).dict = d.dict ∧
      (d.onSlot s f).mbox = d.mbox ∧ (d.onSlot s f).queues = d.queues ∧ (d.onSlot s f).genReserved = d.genReserved ∧
      (d.onSlot s f).handAt = d.handAt ∧ (d.onSlot s f).startWindow = d.startWindow ∧
      (d.onSlot s f).latches = d.latches ∧ (d.onSlot s f).phaseLatches = d.phaseLatches ∧
      (d.onSlot s f).seqs = d.seqs ∧ (d.onSlot s f).books = d.books ∧ (d.onSlot s f).barHandle = d.barHandle ∧
      (d.onSlot s f).barTarget = d.barTarget ∧ (d.onSlot s f).barLatch = d.barLatch ∧
      (d.onSlot s f).barEra = d.barEra ∧ (d.onSlot s f).pins = d.pins ∧ (d.onSlot s f).boot = d.boot ∧
      (d.onSlot s f).banks = d.banks ∧ (d.onSlot s f).tu = d.tu ∧ (d.onSlot s f).analogOut = d.analogOut ∧
      (d.onSlot s f).encs = d.encs ∧ (d.onSlot s f).stage = d.stage ∧ (d.onSlot s f).csiPend = d.csiPend ∧
      (d.onSlot s f).fus = d.fus ∧ (d.onSlot s f).ten = d.ten ∧ (d.onSlot s f).safe = d.safe ∧
      (d.onSlot s f).sol = d.sol ∧ (d.onSlot s f).net = d.net ∧ (d.onSlot s f).aud = d.aud ∧
      (d.onSlot s f).mix = d.mix ∧ (d.onSlot s f).ana = d.ana ∧ (d.onSlot s f).virek = d.virek ∧
      (d.onSlot s f).islCause = d.islCause ∧ (d.onSlot s f).islAt = d.islAt ∧ (d.onSlot s f).pours = d.pours ∧
      (d.onSlot s f).pow = d.pow :=
  ⟨rfl, rfl, rfl, rfl, rfl, rfl, rfl, rfl, rfl, rfl, rfl, rfl, rfl, rfl, rfl, rfl, rfl, rfl, rfl, rfl, rfl, rfl, rfl, rfl, rfl, rfl, rfl, rfl, rfl, rfl, rfl, rfl, rfl, rfl, rfl, rfl, rfl, rfl, rfl, rfl, rfl, rfl, rfl, rfl, rfl, rfl, rfl, rfl, rfl⟩

@[simp] theorem Dev.onSlot_reg (d : Dev) (s : Nat) (f : SlotRt → SlotRt) (x : Nat) : (d.onSlot s f).reg x = d.reg x := rfl

@[simp] theorem Dev.setEnc_fields (d : Dev) (c : Nat) (e : EncCh) :
      (d.setEnc c e).regs = d.regs ∧ (d.setEnc c e).blobs = d.blobs ∧ (d.setEnc c e).vers = d.vers ∧
      (d.setEnc c e).flash = d.flash ∧ (d.setEnc c e).flashBlobs = d.flashBlobs ∧ (d.setEnc c e).mem = d.mem ∧
      (d.setEnc c e).out = d.out ∧ (d.setEnc c e).fresh = d.fresh ∧ (d.setEnc c e).log = d.log ∧
      (d.setEnc c e).partners = d.partners ∧ (d.setEnc c e).tl = d.tl ∧ (d.setEnc c e).servo = d.servo ∧
      (d.setEnc c e).fences = d.fences ∧ (d.setEnc c e).waits = d.waits ∧ (d.setEnc c e).dict = d.dict ∧
      (d.setEnc c e).mbox = d.mbox ∧ (d.setEnc c e).queues = d.queues ∧ (d.setEnc c e).genReserved = d.genReserved ∧
      (d.setEnc c e).handAt = d.handAt ∧ (d.setEnc c e).startWindow = d.startWindow ∧
      (d.setEnc c e).latches = d.latches ∧ (d.setEnc c e).phaseLatches = d.phaseLatches ∧
      (d.setEnc c e).seqs = d.seqs ∧ (d.setEnc c e).books = d.books ∧ (d.setEnc c e).barHandle = d.barHandle ∧
      (d.setEnc c e).barTarget = d.barTarget ∧ (d.setEnc c e).barLatch = d.barLatch ∧
      (d.setEnc c e).barEra = d.barEra ∧ (d.setEnc c e).pins = d.pins ∧ (d.setEnc c e).boot = d.boot ∧
      (d.setEnc c e).banks = d.banks ∧ (d.setEnc c e).tu = d.tu ∧ (d.setEnc c e).analogOut = d.analogOut ∧
      (d.setEnc c e).slots = d.slots ∧ (d.setEnc c e).stage = d.stage ∧ (d.setEnc c e).csiPend = d.csiPend ∧
      (d.setEnc c e).fus = d.fus ∧ (d.setEnc c e).ten = d.ten ∧ (d.setEnc c e).safe = d.safe ∧
      (d.setEnc c e).sol = d.sol ∧ (d.setEnc c e).net = d.net ∧ (d.setEnc c e).aud = d.aud ∧
      (d.setEnc c e).mix = d.mix ∧ (d.setEnc c e).ana = d.ana ∧ (d.setEnc c e).virek = d.virek ∧
      (d.setEnc c e).islCause = d.islCause ∧ (d.setEnc c e).islAt = d.islAt ∧ (d.setEnc c e).pours = d.pours ∧
      (d.setEnc c e).pow = d.pow :=
  ⟨rfl, rfl, rfl, rfl, rfl, rfl, rfl, rfl, rfl, rfl, rfl, rfl, rfl, rfl, rfl, rfl, rfl, rfl, rfl, rfl, rfl, rfl, rfl, rfl, rfl, rfl, rfl, rfl, rfl, rfl, rfl, rfl, rfl, rfl, rfl, rfl, rfl, rfl, rfl, rfl, rfl, rfl, rfl, rfl, rfl, rfl, rfl, rfl, rfl⟩

@[simp] theorem Dev.setEnc_reg (d : Dev) (c : Nat) (e : EncCh) (x : Nat) : (d.setEnc c e).reg x = d.reg x := rfl

@[simp] theorem Dev.setStage_fields (d : Dev) (k : Nat) (l : List Item) :
      (d.setStage k l).regs = d.regs ∧ (d.setStage k l).blobs = d.blobs ∧ (d.setStage k l).vers = d.vers ∧
      (d.setStage k l).flash = d.flash ∧ (d.setStage k l).flashBlobs = d.flashBlobs ∧ (d.setStage k l).mem = d.mem ∧
      (d.setStage k l).out = d.out ∧ (d.setStage k l).fresh = d.fresh ∧ (d.setStage k l).log = d.log ∧
      (d.setStage k l).partners = d.partners ∧ (d.setStage k l).tl = d.tl ∧ (d.setStage k l).servo = d.servo ∧
      (d.setStage k l).fences = d.fences ∧ (d.setStage k l).waits = d.waits ∧ (d.setStage k l).dict = d.dict ∧
      (d.setStage k l).mbox = d.mbox ∧ (d.setStage k l).queues = d.queues ∧
      (d.setStage k l).genReserved = d.genReserved ∧ (d.setStage k l).handAt = d.handAt ∧
      (d.setStage k l).startWindow = d.startWindow ∧ (d.setStage k l).latches = d.latches ∧
      (d.setStage k l).phaseLatches = d.phaseLatches ∧ (d.setStage k l).seqs = d.seqs ∧
      (d.setStage k l).books = d.books ∧ (d.setStage k l).barHandle = d.barHandle ∧ (d.setStage k l).barTarget = d.barTarget ∧
      (d.setStage k l).barLatch = d.barLatch ∧ (d.setStage k l).barEra = d.barEra ∧ (d.setStage k l).pins = d.pins ∧
      (d.setStage k l).boot = d.boot ∧ (d.setStage k l).banks = d.banks ∧ (d.setStage k l).tu = d.tu ∧
      (d.setStage k l).analogOut = d.analogOut ∧ (d.setStage k l).slots = d.slots ∧ (d.setStage k l).encs = d.encs ∧
      (d.setStage k l).csiPend = d.csiPend ∧ (d.setStage k l).fus = d.fus ∧ (d.setStage k l).ten = d.ten ∧
      (d.setStage k l).safe = d.safe ∧ (d.setStage k l).sol = d.sol ∧ (d.setStage k l).net = d.net ∧
      (d.setStage k l).aud = d.aud ∧ (d.setStage k l).mix = d.mix ∧ (d.setStage k l).ana = d.ana ∧
      (d.setStage k l).virek = d.virek ∧ (d.setStage k l).islCause = d.islCause ∧ (d.setStage k l).islAt = d.islAt ∧
      (d.setStage k l).pours = d.pours ∧ (d.setStage k l).pow = d.pow :=
  ⟨rfl, rfl, rfl, rfl, rfl, rfl, rfl, rfl, rfl, rfl, rfl, rfl, rfl, rfl, rfl, rfl, rfl, rfl, rfl, rfl, rfl, rfl, rfl, rfl, rfl, rfl, rfl, rfl, rfl, rfl, rfl, rfl, rfl, rfl, rfl, rfl, rfl, rfl, rfl, rfl, rfl, rfl, rfl, rfl, rfl, rfl, rfl, rfl, rfl⟩

@[simp] theorem Dev.setStage_reg (d : Dev) (k : Nat) (l : List Item) (x : Nat) : (d.setStage k l).reg x = d.reg x := rfl

@[simp] theorem Dev.onFus_fields (d : Dev) (f : Fus → Fus) :
      (d.onFus f).regs = d.regs ∧ (d.onFus f).blobs = d.blobs ∧ (d.onFus f).vers = d.vers ∧
      (d.onFus f).flash = d.flash ∧ (d.onFus f).flashBlobs = d.flashBlobs ∧ (d.onFus f).mem = d.mem ∧
      (d.onFus f).out = d.out ∧ (d.onFus f).fresh = d.fresh ∧ (d.onFus f).log = d.log ∧
      (d.onFus f).partners = d.partners ∧ (d.onFus f).tl = d.tl ∧ (d.onFus f).servo = d.servo ∧
      (d.onFus f).fences = d.fences ∧ (d.onFus f).waits = d.waits ∧ (d.onFus f).dict = d.dict ∧
      (d.onFus f).mbox = d.mbox ∧ (d.onFus f).queues = d.queues ∧ (d.onFus f).genReserved = d.genReserved ∧
      (d.onFus f).handAt = d.handAt ∧ (d.onFus f).startWindow = d.startWindow ∧ (d.onFus f).latches = d.latches ∧
      (d.onFus f).phaseLatches = d.phaseLatches ∧ (d.onFus f).seqs = d.seqs ∧ (d.onFus f).books = d.books ∧ (d.onFus f).barHandle = d.barHandle ∧
      (d.onFus f).barTarget = d.barTarget ∧ (d.onFus f).barLatch = d.barLatch ∧ (d.onFus f).barEra = d.barEra ∧
      (d.onFus f).pins = d.pins ∧ (d.onFus f).boot = d.boot ∧ (d.onFus f).banks = d.banks ∧ (d.onFus f).tu = d.tu ∧
      (d.onFus f).analogOut = d.analogOut ∧ (d.onFus f).slots = d.slots ∧ (d.onFus f).encs = d.encs ∧
      (d.onFus f).stage = d.stage ∧ (d.onFus f).csiPend = d.csiPend ∧ (d.onFus f).ten = d.ten ∧
      (d.onFus f).safe = d.safe ∧ (d.onFus f).sol = d.sol ∧ (d.onFus f).net = d.net ∧ (d.onFus f).aud = d.aud ∧
      (d.onFus f).mix = d.mix ∧ (d.onFus f).ana = d.ana ∧ (d.onFus f).virek = d.virek ∧
      (d.onFus f).islCause = d.islCause ∧ (d.onFus f).islAt = d.islAt ∧ (d.onFus f).pours = d.pours ∧
      (d.onFus f).pow = d.pow :=
  ⟨rfl, rfl, rfl, rfl, rfl, rfl, rfl, rfl, rfl, rfl, rfl, rfl, rfl, rfl, rfl, rfl, rfl, rfl, rfl, rfl, rfl, rfl, rfl, rfl, rfl, rfl, rfl, rfl, rfl, rfl, rfl, rfl, rfl, rfl, rfl, rfl, rfl, rfl, rfl, rfl, rfl, rfl, rfl, rfl, rfl, rfl, rfl, rfl, rfl⟩

@[simp] theorem Dev.onFus_reg (d : Dev) (f : Fus → Fus) (x : Nat) : (d.onFus f).reg x = d.reg x := rfl

@[simp] theorem Dev.onTen_fields (d : Dev) (f : Ten → Ten) :
      (d.onTen f).regs = d.regs ∧ (d.onTen f).blobs = d.blobs ∧ (d.onTen f).vers = d.vers ∧
      (d.onTen f).flash = d.flash ∧ (d.onTen f).flashBlobs = d.flashBlobs ∧ (d.onTen f).mem = d.mem ∧
      (d.onTen f).out = d.out ∧ (d.onTen f).fresh = d.fresh ∧ (d.onTen f).log = d.log ∧
      (d.onTen f).partners = d.partners ∧ (d.onTen f).tl = d.tl ∧ (d.onTen f).servo = d.servo ∧
      (d.onTen f).fences = d.fences ∧ (d.onTen f).waits = d.waits ∧ (d.onTen f).dict = d.dict ∧
      (d.onTen f).mbox = d.mbox ∧ (d.onTen f).queues = d.queues ∧ (d.onTen f).genReserved = d.genReserved ∧
      (d.onTen f).handAt = d.handAt ∧ (d.onTen f).startWindow = d.startWindow ∧ (d.onTen f).latches = d.latches ∧
      (d.onTen f).phaseLatches = d.phaseLatches ∧ (d.onTen f).seqs = d.seqs ∧ (d.onTen f).books = d.books ∧ (d.onTen f).barHandle = d.barHandle ∧
      (d.onTen f).barTarget = d.barTarget ∧ (d.onTen f).barLatch = d.barLatch ∧ (d.onTen f).barEra = d.barEra ∧
      (d.onTen f).pins = d.pins ∧ (d.onTen f).boot = d.boot ∧ (d.onTen f).banks = d.banks ∧ (d.onTen f).tu = d.tu ∧
      (d.onTen f).analogOut = d.analogOut ∧ (d.onTen f).slots = d.slots ∧ (d.onTen f).encs = d.encs ∧
      (d.onTen f).stage = d.stage ∧ (d.onTen f).csiPend = d.csiPend ∧ (d.onTen f).fus = d.fus ∧
      (d.onTen f).safe = d.safe ∧ (d.onTen f).sol = d.sol ∧ (d.onTen f).net = d.net ∧ (d.onTen f).aud = d.aud ∧
      (d.onTen f).mix = d.mix ∧ (d.onTen f).ana = d.ana ∧ (d.onTen f).virek = d.virek ∧
      (d.onTen f).islCause = d.islCause ∧ (d.onTen f).islAt = d.islAt ∧ (d.onTen f).pours = d.pours ∧
      (d.onTen f).pow = d.pow :=
  ⟨rfl, rfl, rfl, rfl, rfl, rfl, rfl, rfl, rfl, rfl, rfl, rfl, rfl, rfl, rfl, rfl, rfl, rfl, rfl, rfl, rfl, rfl, rfl, rfl, rfl, rfl, rfl, rfl, rfl, rfl, rfl, rfl, rfl, rfl, rfl, rfl, rfl, rfl, rfl, rfl, rfl, rfl, rfl, rfl, rfl, rfl, rfl, rfl, rfl⟩

@[simp] theorem Dev.onTen_reg (d : Dev) (f : Ten → Ten) (x : Nat) : (d.onTen f).reg x = d.reg x := rfl

@[simp] theorem Dev.onModel_fields (d : Dev) (m : Nat) (f : ModelRt → ModelRt) :
      (d.onModel m f).regs = d.regs ∧ (d.onModel m f).blobs = d.blobs ∧ (d.onModel m f).vers = d.vers ∧
      (d.onModel m f).flash = d.flash ∧ (d.onModel m f).flashBlobs = d.flashBlobs ∧ (d.onModel m f).mem = d.mem ∧
      (d.onModel m f).out = d.out ∧ (d.onModel m f).fresh = d.fresh ∧ (d.onModel m f).log = d.log ∧
      (d.onModel m f).partners = d.partners ∧ (d.onModel m f).tl = d.tl ∧ (d.onModel m f).servo = d.servo ∧
      (d.onModel m f).fences = d.fences ∧ (d.onModel m f).waits = d.waits ∧ (d.onModel m f).dict = d.dict ∧
      (d.onModel m f).mbox = d.mbox ∧ (d.onModel m f).queues = d.queues ∧
      (d.onModel m f).genReserved = d.genReserved ∧ (d.onModel m f).handAt = d.handAt ∧
      (d.onModel m f).startWindow = d.startWindow ∧ (d.onModel m f).latches = d.latches ∧
      (d.onModel m f).phaseLatches = d.phaseLatches ∧ (d.onModel m f).seqs = d.seqs ∧
      (d.onModel m f).books = d.books ∧ (d.onModel m f).barHandle = d.barHandle ∧ (d.onModel m f).barTarget = d.barTarget ∧
      (d.onModel m f).barLatch = d.barLatch ∧ (d.onModel m f).barEra = d.barEra ∧ (d.onModel m f).pins = d.pins ∧
      (d.onModel m f).boot = d.boot ∧ (d.onModel m f).banks = d.banks ∧ (d.onModel m f).tu = d.tu ∧
      (d.onModel m f).analogOut = d.analogOut ∧ (d.onModel m f).slots = d.slots ∧ (d.onModel m f).encs = d.encs ∧
      (d.onModel m f).stage = d.stage ∧ (d.onModel m f).csiPend = d.csiPend ∧ (d.onModel m f).fus = d.fus ∧
      (d.onModel m f).safe = d.safe ∧ (d.onModel m f).sol = d.sol ∧ (d.onModel m f).net = d.net ∧
      (d.onModel m f).aud = d.aud ∧ (d.onModel m f).mix = d.mix ∧ (d.onModel m f).ana = d.ana ∧
      (d.onModel m f).virek = d.virek ∧ (d.onModel m f).islCause = d.islCause ∧ (d.onModel m f).islAt = d.islAt ∧
      (d.onModel m f).pours = d.pours ∧ (d.onModel m f).pow = d.pow :=
  ⟨rfl, rfl, rfl, rfl, rfl, rfl, rfl, rfl, rfl, rfl, rfl, rfl, rfl, rfl, rfl, rfl, rfl, rfl, rfl, rfl, rfl, rfl, rfl, rfl, rfl, rfl, rfl, rfl, rfl, rfl, rfl, rfl, rfl, rfl, rfl, rfl, rfl, rfl, rfl, rfl, rfl, rfl, rfl, rfl, rfl, rfl, rfl, rfl, rfl⟩

@[simp] theorem Dev.onModel_reg (d : Dev) (m : Nat) (f : ModelRt → ModelRt) (x : Nat) : (d.onModel m f).reg x = d.reg x := rfl

@[simp] theorem Dev.onSol_fields (d : Dev) (f : Sol → Sol) :
      (d.onSol f).regs = d.regs ∧ (d.onSol f).blobs = d.blobs ∧ (d.onSol f).vers = d.vers ∧
      (d.onSol f).flash = d.flash ∧ (d.onSol f).flashBlobs = d.flashBlobs ∧ (d.onSol f).mem = d.mem ∧
      (d.onSol f).out = d.out ∧ (d.onSol f).fresh = d.fresh ∧ (d.onSol f).log = d.log ∧
      (d.onSol f).partners = d.partners ∧ (d.onSol f).tl = d.tl ∧ (d.onSol f).servo = d.servo ∧
      (d.onSol f).fences = d.fences ∧ (d.onSol f).waits = d.waits ∧ (d.onSol f).dict = d.dict ∧
      (d.onSol f).mbox = d.mbox ∧ (d.onSol f).queues = d.queues ∧ (d.onSol f).genReserved = d.genReserved ∧
      (d.onSol f).handAt = d.handAt ∧ (d.onSol f).startWindow = d.startWindow ∧ (d.onSol f).latches = d.latches ∧
      (d.onSol f).phaseLatches = d.phaseLatches ∧ (d.onSol f).seqs = d.seqs ∧ (d.onSol f).books = d.books ∧ (d.onSol f).barHandle = d.barHandle ∧
      (d.onSol f).barTarget = d.barTarget ∧ (d.onSol f).barLatch = d.barLatch ∧ (d.onSol f).barEra = d.barEra ∧
      (d.onSol f).pins = d.pins ∧ (d.onSol f).boot = d.boot ∧ (d.onSol f).banks = d.banks ∧ (d.onSol f).tu = d.tu ∧
      (d.onSol f).analogOut = d.analogOut ∧ (d.onSol f).slots = d.slots ∧ (d.onSol f).encs = d.encs ∧
      (d.onSol f).stage = d.stage ∧ (d.onSol f).csiPend = d.csiPend ∧ (d.onSol f).fus = d.fus ∧
      (d.onSol f).ten = d.ten ∧ (d.onSol f).safe = d.safe ∧ (d.onSol f).net = d.net ∧ (d.onSol f).aud = d.aud ∧
      (d.onSol f).mix = d.mix ∧ (d.onSol f).ana = d.ana ∧ (d.onSol f).virek = d.virek ∧
      (d.onSol f).islCause = d.islCause ∧ (d.onSol f).islAt = d.islAt ∧ (d.onSol f).pours = d.pours ∧
      (d.onSol f).pow = d.pow :=
  ⟨rfl, rfl, rfl, rfl, rfl, rfl, rfl, rfl, rfl, rfl, rfl, rfl, rfl, rfl, rfl, rfl, rfl, rfl, rfl, rfl, rfl, rfl, rfl, rfl, rfl, rfl, rfl, rfl, rfl, rfl, rfl, rfl, rfl, rfl, rfl, rfl, rfl, rfl, rfl, rfl, rfl, rfl, rfl, rfl, rfl, rfl, rfl, rfl, rfl⟩

@[simp] theorem Dev.onSol_reg (d : Dev) (f : Sol → Sol) (x : Nat) : (d.onSol f).reg x = d.reg x := rfl

@[simp] theorem Dev.onNet_fields (d : Dev) (f : Net → Net) :
      (d.onNet f).regs = d.regs ∧ (d.onNet f).blobs = d.blobs ∧ (d.onNet f).vers = d.vers ∧
      (d.onNet f).flash = d.flash ∧ (d.onNet f).flashBlobs = d.flashBlobs ∧ (d.onNet f).mem = d.mem ∧
      (d.onNet f).out = d.out ∧ (d.onNet f).fresh = d.fresh ∧ (d.onNet f).log = d.log ∧
      (d.onNet f).partners = d.partners ∧ (d.onNet f).tl = d.tl ∧ (d.onNet f).servo = d.servo ∧
      (d.onNet f).fences = d.fences ∧ (d.onNet f).waits = d.waits ∧ (d.onNet f).dict = d.dict ∧
      (d.onNet f).mbox = d.mbox ∧ (d.onNet f).queues = d.queues ∧ (d.onNet f).genReserved = d.genReserved ∧
      (d.onNet f).handAt = d.handAt ∧ (d.onNet f).startWindow = d.startWindow ∧ (d.onNet f).latches = d.latches ∧
      (d.onNet f).phaseLatches = d.phaseLatches ∧ (d.onNet f).seqs = d.seqs ∧ (d.onNet f).books = d.books ∧ (d.onNet f).barHandle = d.barHandle ∧
      (d.onNet f).barTarget = d.barTarget ∧ (d.onNet f).barLatch = d.barLatch ∧ (d.onNet f).barEra = d.barEra ∧
      (d.onNet f).pins = d.pins ∧ (d.onNet f).boot = d.boot ∧ (d.onNet f).banks = d.banks ∧ (d.onNet f).tu = d.tu ∧
      (d.onNet f).analogOut = d.analogOut ∧ (d.onNet f).slots = d.slots ∧ (d.onNet f).encs = d.encs ∧
      (d.onNet f).stage = d.stage ∧ (d.onNet f).csiPend = d.csiPend ∧ (d.onNet f).fus = d.fus ∧
      (d.onNet f).ten = d.ten ∧ (d.onNet f).safe = d.safe ∧ (d.onNet f).sol = d.sol ∧ (d.onNet f).aud = d.aud ∧
      (d.onNet f).mix = d.mix ∧ (d.onNet f).ana = d.ana ∧ (d.onNet f).virek = d.virek ∧
      (d.onNet f).islCause = d.islCause ∧ (d.onNet f).islAt = d.islAt ∧ (d.onNet f).pours = d.pours ∧
      (d.onNet f).pow = d.pow :=
  ⟨rfl, rfl, rfl, rfl, rfl, rfl, rfl, rfl, rfl, rfl, rfl, rfl, rfl, rfl, rfl, rfl, rfl, rfl, rfl, rfl, rfl, rfl, rfl, rfl, rfl, rfl, rfl, rfl, rfl, rfl, rfl, rfl, rfl, rfl, rfl, rfl, rfl, rfl, rfl, rfl, rfl, rfl, rfl, rfl, rfl, rfl, rfl, rfl, rfl⟩

@[simp] theorem Dev.onNet_reg (d : Dev) (f : Net → Net) (x : Nat) : (d.onNet f).reg x = d.reg x := rfl

@[simp] theorem Dev.onAudio_fields (d : Dev) (f : Audio → Audio) :
      (d.onAudio f).regs = d.regs ∧ (d.onAudio f).blobs = d.blobs ∧ (d.onAudio f).vers = d.vers ∧
      (d.onAudio f).flash = d.flash ∧ (d.onAudio f).flashBlobs = d.flashBlobs ∧ (d.onAudio f).mem = d.mem ∧
      (d.onAudio f).out = d.out ∧ (d.onAudio f).fresh = d.fresh ∧ (d.onAudio f).log = d.log ∧
      (d.onAudio f).partners = d.partners ∧ (d.onAudio f).tl = d.tl ∧ (d.onAudio f).servo = d.servo ∧
      (d.onAudio f).fences = d.fences ∧ (d.onAudio f).waits = d.waits ∧ (d.onAudio f).dict = d.dict ∧
      (d.onAudio f).mbox = d.mbox ∧ (d.onAudio f).queues = d.queues ∧ (d.onAudio f).genReserved = d.genReserved ∧
      (d.onAudio f).handAt = d.handAt ∧ (d.onAudio f).startWindow = d.startWindow ∧
      (d.onAudio f).latches = d.latches ∧ (d.onAudio f).phaseLatches = d.phaseLatches ∧
      (d.onAudio f).seqs = d.seqs ∧ (d.onAudio f).books = d.books ∧ (d.onAudio f).barHandle = d.barHandle ∧ (d.onAudio f).barTarget = d.barTarget ∧
      (d.onAudio f).barLatch = d.barLatch ∧ (d.onAudio f).barEra = d.barEra ∧ (d.onAudio f).pins = d.pins ∧
      (d.onAudio f).boot = d.boot ∧ (d.onAudio f).banks = d.banks ∧ (d.onAudio f).tu = d.tu ∧
      (d.onAudio f).analogOut = d.analogOut ∧ (d.onAudio f).slots = d.slots ∧ (d.onAudio f).encs = d.encs ∧
      (d.onAudio f).stage = d.stage ∧ (d.onAudio f).csiPend = d.csiPend ∧ (d.onAudio f).fus = d.fus ∧
      (d.onAudio f).ten = d.ten ∧ (d.onAudio f).safe = d.safe ∧ (d.onAudio f).sol = d.sol ∧
      (d.onAudio f).net = d.net ∧ (d.onAudio f).mix = d.mix ∧ (d.onAudio f).ana = d.ana ∧
      (d.onAudio f).virek = d.virek ∧ (d.onAudio f).islCause = d.islCause ∧ (d.onAudio f).islAt = d.islAt ∧
      (d.onAudio f).pours = d.pours ∧ (d.onAudio f).pow = d.pow :=
  ⟨rfl, rfl, rfl, rfl, rfl, rfl, rfl, rfl, rfl, rfl, rfl, rfl, rfl, rfl, rfl, rfl, rfl, rfl, rfl, rfl, rfl, rfl, rfl, rfl, rfl, rfl, rfl, rfl, rfl, rfl, rfl, rfl, rfl, rfl, rfl, rfl, rfl, rfl, rfl, rfl, rfl, rfl, rfl, rfl, rfl, rfl, rfl, rfl, rfl⟩

@[simp] theorem Dev.onAudio_reg (d : Dev) (f : Audio → Audio) (x : Nat) : (d.onAudio f).reg x = d.reg x := rfl

@[simp] theorem Dev.onPort_fields (d : Dev) (p : Nat) (f : PortRt → PortRt) :
      (d.onPort p f).regs = d.regs ∧ (d.onPort p f).blobs = d.blobs ∧ (d.onPort p f).vers = d.vers ∧
      (d.onPort p f).flash = d.flash ∧ (d.onPort p f).flashBlobs = d.flashBlobs ∧ (d.onPort p f).mem = d.mem ∧
      (d.onPort p f).out = d.out ∧ (d.onPort p f).fresh = d.fresh ∧ (d.onPort p f).log = d.log ∧
      (d.onPort p f).partners = d.partners ∧ (d.onPort p f).tl = d.tl ∧ (d.onPort p f).servo = d.servo ∧
      (d.onPort p f).fences = d.fences ∧ (d.onPort p f).waits = d.waits ∧ (d.onPort p f).dict = d.dict ∧
      (d.onPort p f).mbox = d.mbox ∧ (d.onPort p f).queues = d.queues ∧ (d.onPort p f).genReserved = d.genReserved ∧
      (d.onPort p f).handAt = d.handAt ∧ (d.onPort p f).startWindow = d.startWindow ∧
      (d.onPort p f).latches = d.latches ∧ (d.onPort p f).phaseLatches = d.phaseLatches ∧
      (d.onPort p f).seqs = d.seqs ∧ (d.onPort p f).books = d.books ∧ (d.onPort p f).barHandle = d.barHandle ∧
      (d.onPort p f).barTarget = d.barTarget ∧ (d.onPort p f).barLatch = d.barLatch ∧
      (d.onPort p f).barEra = d.barEra ∧ (d.onPort p f).pins = d.pins ∧ (d.onPort p f).boot = d.boot ∧
      (d.onPort p f).banks = d.banks ∧ (d.onPort p f).tu = d.tu ∧ (d.onPort p f).analogOut = d.analogOut ∧
      (d.onPort p f).slots = d.slots ∧ (d.onPort p f).encs = d.encs ∧ (d.onPort p f).stage = d.stage ∧
      (d.onPort p f).csiPend = d.csiPend ∧ (d.onPort p f).fus = d.fus ∧ (d.onPort p f).ten = d.ten ∧
      (d.onPort p f).safe = d.safe ∧ (d.onPort p f).sol = d.sol ∧ (d.onPort p f).net = d.net ∧
      (d.onPort p f).mix = d.mix ∧ (d.onPort p f).ana = d.ana ∧ (d.onPort p f).virek = d.virek ∧
      (d.onPort p f).islCause = d.islCause ∧ (d.onPort p f).islAt = d.islAt ∧ (d.onPort p f).pours = d.pours ∧
      (d.onPort p f).pow = d.pow :=
  ⟨rfl, rfl, rfl, rfl, rfl, rfl, rfl, rfl, rfl, rfl, rfl, rfl, rfl, rfl, rfl, rfl, rfl, rfl, rfl, rfl, rfl, rfl, rfl, rfl, rfl, rfl, rfl, rfl, rfl, rfl, rfl, rfl, rfl, rfl, rfl, rfl, rfl, rfl, rfl, rfl, rfl, rfl, rfl, rfl, rfl, rfl, rfl, rfl, rfl⟩

@[simp] theorem Dev.onPort_reg (d : Dev) (p : Nat) (f : PortRt → PortRt) (x : Nat) : (d.onPort p f).reg x = d.reg x := rfl

@[simp] theorem Dev.onMix_fields (d : Dev) (f : MixRt → MixRt) :
      (d.onMix f).regs = d.regs ∧ (d.onMix f).blobs = d.blobs ∧ (d.onMix f).vers = d.vers ∧
      (d.onMix f).flash = d.flash ∧ (d.onMix f).flashBlobs = d.flashBlobs ∧ (d.onMix f).mem = d.mem ∧
      (d.onMix f).out = d.out ∧ (d.onMix f).fresh = d.fresh ∧ (d.onMix f).log = d.log ∧
      (d.onMix f).partners = d.partners ∧ (d.onMix f).tl = d.tl ∧ (d.onMix f).servo = d.servo ∧
      (d.onMix f).fences = d.fences ∧ (d.onMix f).waits = d.waits ∧ (d.onMix f).dict = d.dict ∧
      (d.onMix f).mbox = d.mbox ∧ (d.onMix f).queues = d.queues ∧ (d.onMix f).genReserved = d.genReserved ∧
      (d.onMix f).handAt = d.handAt ∧ (d.onMix f).startWindow = d.startWindow ∧ (d.onMix f).latches = d.latches ∧
      (d.onMix f).phaseLatches = d.phaseLatches ∧ (d.onMix f).seqs = d.seqs ∧ (d.onMix f).books = d.books ∧ (d.onMix f).barHandle = d.barHandle ∧
      (d.onMix f).barTarget = d.barTarget ∧ (d.onMix f).barLatch = d.barLatch ∧ (d.onMix f).barEra = d.barEra ∧
      (d.onMix f).pins = d.pins ∧ (d.onMix f).boot = d.boot ∧ (d.onMix f).banks = d.banks ∧ (d.onMix f).tu = d.tu ∧
      (d.onMix f).analogOut = d.analogOut ∧ (d.onMix f).slots = d.slots ∧ (d.onMix f).encs = d.encs ∧
      (d.onMix f).stage = d.stage ∧ (d.onMix f).csiPend = d.csiPend ∧ (d.onMix f).fus = d.fus ∧
      (d.onMix f).ten = d.ten ∧ (d.onMix f).safe = d.safe ∧ (d.onMix f).sol = d.sol ∧ (d.onMix f).net = d.net ∧
      (d.onMix f).aud = d.aud ∧ (d.onMix f).ana = d.ana ∧ (d.onMix f).virek = d.virek ∧
      (d.onMix f).islCause = d.islCause ∧ (d.onMix f).islAt = d.islAt ∧ (d.onMix f).pours = d.pours ∧
      (d.onMix f).pow = d.pow :=
  ⟨rfl, rfl, rfl, rfl, rfl, rfl, rfl, rfl, rfl, rfl, rfl, rfl, rfl, rfl, rfl, rfl, rfl, rfl, rfl, rfl, rfl, rfl, rfl, rfl, rfl, rfl, rfl, rfl, rfl, rfl, rfl, rfl, rfl, rfl, rfl, rfl, rfl, rfl, rfl, rfl, rfl, rfl, rfl, rfl, rfl, rfl, rfl, rfl, rfl⟩

@[simp] theorem Dev.onMix_reg (d : Dev) (f : MixRt → MixRt) (x : Nat) : (d.onMix f).reg x = d.reg x := rfl

@[simp] theorem Dev.onAna_fields (d : Dev) (f : Ana → Ana) :
      (d.onAna f).regs = d.regs ∧ (d.onAna f).blobs = d.blobs ∧ (d.onAna f).vers = d.vers ∧
      (d.onAna f).flash = d.flash ∧ (d.onAna f).flashBlobs = d.flashBlobs ∧ (d.onAna f).mem = d.mem ∧
      (d.onAna f).out = d.out ∧ (d.onAna f).fresh = d.fresh ∧ (d.onAna f).log = d.log ∧
      (d.onAna f).partners = d.partners ∧ (d.onAna f).tl = d.tl ∧ (d.onAna f).servo = d.servo ∧
      (d.onAna f).fences = d.fences ∧ (d.onAna f).waits = d.waits ∧ (d.onAna f).dict = d.dict ∧
      (d.onAna f).mbox = d.mbox ∧ (d.onAna f).queues = d.queues ∧ (d.onAna f).genReserved = d.genReserved ∧
      (d.onAna f).handAt = d.handAt ∧ (d.onAna f).startWindow = d.startWindow ∧ (d.onAna f).latches = d.latches ∧
      (d.onAna f).phaseLatches = d.phaseLatches ∧ (d.onAna f).seqs = d.seqs ∧ (d.onAna f).books = d.books ∧ (d.onAna f).barHandle = d.barHandle ∧
      (d.onAna f).barTarget = d.barTarget ∧ (d.onAna f).barLatch = d.barLatch ∧ (d.onAna f).barEra = d.barEra ∧
      (d.onAna f).pins = d.pins ∧ (d.onAna f).boot = d.boot ∧ (d.onAna f).banks = d.banks ∧ (d.onAna f).tu = d.tu ∧
      (d.onAna f).analogOut = d.analogOut ∧ (d.onAna f).slots = d.slots ∧ (d.onAna f).encs = d.encs ∧
      (d.onAna f).stage = d.stage ∧ (d.onAna f).csiPend = d.csiPend ∧ (d.onAna f).fus = d.fus ∧
      (d.onAna f).ten = d.ten ∧ (d.onAna f).safe = d.safe ∧ (d.onAna f).sol = d.sol ∧ (d.onAna f).net = d.net ∧
      (d.onAna f).aud = d.aud ∧ (d.onAna f).mix = d.mix ∧ (d.onAna f).virek = d.virek ∧
      (d.onAna f).islCause = d.islCause ∧ (d.onAna f).islAt = d.islAt ∧ (d.onAna f).pours = d.pours ∧
      (d.onAna f).pow = d.pow :=
  ⟨rfl, rfl, rfl, rfl, rfl, rfl, rfl, rfl, rfl, rfl, rfl, rfl, rfl, rfl, rfl, rfl, rfl, rfl, rfl, rfl, rfl, rfl, rfl, rfl, rfl, rfl, rfl, rfl, rfl, rfl, rfl, rfl, rfl, rfl, rfl, rfl, rfl, rfl, rfl, rfl, rfl, rfl, rfl, rfl, rfl, rfl, rfl, rfl, rfl⟩

@[simp] theorem Dev.onAna_reg (d : Dev) (f : Ana → Ana) (x : Nat) : (d.onAna f).reg x = d.reg x := rfl

@[simp] theorem Dev.onVirek_fields (d : Dev) (f : Virek → Virek) :
      (d.onVirek f).regs = d.regs ∧ (d.onVirek f).blobs = d.blobs ∧ (d.onVirek f).vers = d.vers ∧
      (d.onVirek f).flash = d.flash ∧ (d.onVirek f).flashBlobs = d.flashBlobs ∧ (d.onVirek f).mem = d.mem ∧
      (d.onVirek f).out = d.out ∧ (d.onVirek f).fresh = d.fresh ∧ (d.onVirek f).log = d.log ∧
      (d.onVirek f).partners = d.partners ∧ (d.onVirek f).tl = d.tl ∧ (d.onVirek f).servo = d.servo ∧
      (d.onVirek f).fences = d.fences ∧ (d.onVirek f).waits = d.waits ∧ (d.onVirek f).dict = d.dict ∧
      (d.onVirek f).mbox = d.mbox ∧ (d.onVirek f).queues = d.queues ∧ (d.onVirek f).genReserved = d.genReserved ∧
      (d.onVirek f).handAt = d.handAt ∧ (d.onVirek f).startWindow = d.startWindow ∧
      (d.onVirek f).latches = d.latches ∧ (d.onVirek f).phaseLatches = d.phaseLatches ∧
      (d.onVirek f).seqs = d.seqs ∧ (d.onVirek f).books = d.books ∧ (d.onVirek f).barHandle = d.barHandle ∧ (d.onVirek f).barTarget = d.barTarget ∧
      (d.onVirek f).barLatch = d.barLatch ∧ (d.onVirek f).barEra = d.barEra ∧ (d.onVirek f).pins = d.pins ∧
      (d.onVirek f).boot = d.boot ∧ (d.onVirek f).banks = d.banks ∧ (d.onVirek f).tu = d.tu ∧
      (d.onVirek f).analogOut = d.analogOut ∧ (d.onVirek f).slots = d.slots ∧ (d.onVirek f).encs = d.encs ∧
      (d.onVirek f).stage = d.stage ∧ (d.onVirek f).csiPend = d.csiPend ∧ (d.onVirek f).fus = d.fus ∧
      (d.onVirek f).ten = d.ten ∧ (d.onVirek f).safe = d.safe ∧ (d.onVirek f).sol = d.sol ∧
      (d.onVirek f).net = d.net ∧ (d.onVirek f).aud = d.aud ∧ (d.onVirek f).mix = d.mix ∧
      (d.onVirek f).ana = d.ana ∧ (d.onVirek f).islCause = d.islCause ∧ (d.onVirek f).islAt = d.islAt ∧
      (d.onVirek f).pours = d.pours ∧ (d.onVirek f).pow = d.pow :=
  ⟨rfl, rfl, rfl, rfl, rfl, rfl, rfl, rfl, rfl, rfl, rfl, rfl, rfl, rfl, rfl, rfl, rfl, rfl, rfl, rfl, rfl, rfl, rfl, rfl, rfl, rfl, rfl, rfl, rfl, rfl, rfl, rfl, rfl, rfl, rfl, rfl, rfl, rfl, rfl, rfl, rfl, rfl, rfl, rfl, rfl, rfl, rfl, rfl, rfl⟩

@[simp] theorem Dev.onVirek_reg (d : Dev) (f : Virek → Virek) (x : Nat) : (d.onVirek f).reg x = d.reg x := rfl

@[simp] theorem Dev.onPours_fields (d : Dev) (f : Pours → Pours) :
      (d.onPours f).regs = d.regs ∧ (d.onPours f).blobs = d.blobs ∧ (d.onPours f).vers = d.vers ∧
      (d.onPours f).flash = d.flash ∧ (d.onPours f).flashBlobs = d.flashBlobs ∧ (d.onPours f).mem = d.mem ∧
      (d.onPours f).out = d.out ∧ (d.onPours f).fresh = d.fresh ∧ (d.onPours f).log = d.log ∧
      (d.onPours f).partners = d.partners ∧ (d.onPours f).tl = d.tl ∧ (d.onPours f).servo = d.servo ∧
      (d.onPours f).fences = d.fences ∧ (d.onPours f).waits = d.waits ∧ (d.onPours f).dict = d.dict ∧
      (d.onPours f).mbox = d.mbox ∧ (d.onPours f).queues = d.queues ∧ (d.onPours f).genReserved = d.genReserved ∧
      (d.onPours f).handAt = d.handAt ∧ (d.onPours f).startWindow = d.startWindow ∧
      (d.onPours f).latches = d.latches ∧ (d.onPours f).phaseLatches = d.phaseLatches ∧
      (d.onPours f).seqs = d.seqs ∧ (d.onPours f).books = d.books ∧ (d.onPours f).barHandle = d.barHandle ∧ (d.onPours f).barTarget = d.barTarget ∧
      (d.onPours f).barLatch = d.barLatch ∧ (d.onPours f).barEra = d.barEra ∧ (d.onPours f).pins = d.pins ∧
      (d.onPours f).boot = d.boot ∧ (d.onPours f).banks = d.banks ∧ (d.onPours f).tu = d.tu ∧
      (d.onPours f).analogOut = d.analogOut ∧ (d.onPours f).slots = d.slots ∧ (d.onPours f).encs = d.encs ∧
      (d.onPours f).stage = d.stage ∧ (d.onPours f).csiPend = d.csiPend ∧ (d.onPours f).fus = d.fus ∧
      (d.onPours f).ten = d.ten ∧ (d.onPours f).safe = d.safe ∧ (d.onPours f).sol = d.sol ∧
      (d.onPours f).net = d.net ∧ (d.onPours f).aud = d.aud ∧ (d.onPours f).mix = d.mix ∧
      (d.onPours f).ana = d.ana ∧ (d.onPours f).virek = d.virek ∧ (d.onPours f).islCause = d.islCause ∧
      (d.onPours f).islAt = d.islAt ∧ (d.onPours f).pow = d.pow :=
  ⟨rfl, rfl, rfl, rfl, rfl, rfl, rfl, rfl, rfl, rfl, rfl, rfl, rfl, rfl, rfl, rfl, rfl, rfl, rfl, rfl, rfl, rfl, rfl, rfl, rfl, rfl, rfl, rfl, rfl, rfl, rfl, rfl, rfl, rfl, rfl, rfl, rfl, rfl, rfl, rfl, rfl, rfl, rfl, rfl, rfl, rfl, rfl, rfl, rfl⟩

@[simp] theorem Dev.onPours_reg (d : Dev) (f : Pours → Pours) (x : Nat) : (d.onPours f).reg x = d.reg x := rfl

@[simp] theorem Dev.onPow_fields (d : Dev) (f : PowRt → PowRt) :
      (d.onPow f).regs = d.regs ∧ (d.onPow f).blobs = d.blobs ∧ (d.onPow f).vers = d.vers ∧
      (d.onPow f).flash = d.flash ∧ (d.onPow f).flashBlobs = d.flashBlobs ∧ (d.onPow f).mem = d.mem ∧
      (d.onPow f).out = d.out ∧ (d.onPow f).fresh = d.fresh ∧ (d.onPow f).log = d.log ∧
      (d.onPow f).partners = d.partners ∧ (d.onPow f).tl = d.tl ∧ (d.onPow f).servo = d.servo ∧
      (d.onPow f).fences = d.fences ∧ (d.onPow f).waits = d.waits ∧ (d.onPow f).dict = d.dict ∧
      (d.onPow f).mbox = d.mbox ∧ (d.onPow f).queues = d.queues ∧ (d.onPow f).genReserved = d.genReserved ∧
      (d.onPow f).handAt = d.handAt ∧ (d.onPow f).startWindow = d.startWindow ∧ (d.onPow f).latches = d.latches ∧
      (d.onPow f).phaseLatches = d.phaseLatches ∧ (d.onPow f).seqs = d.seqs ∧ (d.onPow f).books = d.books ∧ (d.onPow f).barHandle = d.barHandle ∧
      (d.onPow f).barTarget = d.barTarget ∧ (d.onPow f).barLatch = d.barLatch ∧ (d.onPow f).barEra = d.barEra ∧
      (d.onPow f).pins = d.pins ∧ (d.onPow f).boot = d.boot ∧ (d.onPow f).banks = d.banks ∧ (d.onPow f).tu = d.tu ∧
      (d.onPow f).analogOut = d.analogOut ∧ (d.onPow f).slots = d.slots ∧ (d.onPow f).encs = d.encs ∧
      (d.onPow f).stage = d.stage ∧ (d.onPow f).csiPend = d.csiPend ∧ (d.onPow f).fus = d.fus ∧
      (d.onPow f).ten = d.ten ∧ (d.onPow f).safe = d.safe ∧ (d.onPow f).sol = d.sol ∧ (d.onPow f).net = d.net ∧
      (d.onPow f).aud = d.aud ∧ (d.onPow f).mix = d.mix ∧ (d.onPow f).ana = d.ana ∧ (d.onPow f).virek = d.virek ∧
      (d.onPow f).islCause = d.islCause ∧ (d.onPow f).islAt = d.islAt ∧ (d.onPow f).pours = d.pours :=
  ⟨rfl, rfl, rfl, rfl, rfl, rfl, rfl, rfl, rfl, rfl, rfl, rfl, rfl, rfl, rfl, rfl, rfl, rfl, rfl, rfl, rfl, rfl, rfl, rfl, rfl, rfl, rfl, rfl, rfl, rfl, rfl, rfl, rfl, rfl, rfl, rfl, rfl, rfl, rfl, rfl, rfl, rfl, rfl, rfl, rfl, rfl, rfl, rfl, rfl⟩

@[simp] theorem Dev.onPow_reg (d : Dev) (f : PowRt → PowRt) (x : Nat) : (d.onPow f).reg x = d.reg x := rfl

@[simp] theorem Dev.onSession_fields (d : Dev) (sid : Nat) (f : Session → Session) :
      (d.onSession sid f).regs = d.regs ∧ (d.onSession sid f).blobs = d.blobs ∧ (d.onSession sid f).vers = d.vers ∧
      (d.onSession sid f).flash = d.flash ∧ (d.onSession sid f).flashBlobs = d.flashBlobs ∧
      (d.onSession sid f).mem = d.mem ∧ (d.onSession sid f).out = d.out ∧ (d.onSession sid f).fresh = d.fresh ∧
      (d.onSession sid f).log = d.log ∧ (d.onSession sid f).partners = d.partners ∧ (d.onSession sid f).tl = d.tl ∧
      (d.onSession sid f).servo = d.servo ∧ (d.onSession sid f).fences = d.fences ∧
      (d.onSession sid f).waits = d.waits ∧ (d.onSession sid f).mbox = d.mbox ∧
      (d.onSession sid f).queues = d.queues ∧ (d.onSession sid f).genReserved = d.genReserved ∧
      (d.onSession sid f).handAt = d.handAt ∧ (d.onSession sid f).startWindow = d.startWindow ∧
      (d.onSession sid f).latches = d.latches ∧ (d.onSession sid f).phaseLatches = d.phaseLatches ∧
      (d.onSession sid f).seqs = d.seqs ∧ (d.onSession sid f).books = d.books ∧ (d.onSession sid f).barHandle = d.barHandle ∧
      (d.onSession sid f).barTarget = d.barTarget ∧ (d.onSession sid f).barLatch = d.barLatch ∧
      (d.onSession sid f).barEra = d.barEra ∧ (d.onSession sid f).pins = d.pins ∧
      (d.onSession sid f).boot = d.boot ∧ (d.onSession sid f).banks = d.banks ∧ (d.onSession sid f).tu = d.tu ∧
      (d.onSession sid f).analogOut = d.analogOut ∧ (d.onSession sid f).slots = d.slots ∧
      (d.onSession sid f).encs = d.encs ∧ (d.onSession sid f).stage = d.stage ∧
      (d.onSession sid f).csiPend = d.csiPend ∧ (d.onSession sid f).fus = d.fus ∧ (d.onSession sid f).ten = d.ten ∧
      (d.onSession sid f).safe = d.safe ∧ (d.onSession sid f).sol = d.sol ∧ (d.onSession sid f).net = d.net ∧
      (d.onSession sid f).aud = d.aud ∧ (d.onSession sid f).mix = d.mix ∧ (d.onSession sid f).ana = d.ana ∧
      (d.onSession sid f).virek = d.virek ∧ (d.onSession sid f).islCause = d.islCause ∧
      (d.onSession sid f).islAt = d.islAt ∧ (d.onSession sid f).pours = d.pours ∧ (d.onSession sid f).pow = d.pow :=
  ⟨rfl, rfl, rfl, rfl, rfl, rfl, rfl, rfl, rfl, rfl, rfl, rfl, rfl, rfl, rfl, rfl, rfl, rfl, rfl, rfl, rfl, rfl, rfl, rfl, rfl, rfl, rfl, rfl, rfl, rfl, rfl, rfl, rfl, rfl, rfl, rfl, rfl, rfl, rfl, rfl, rfl, rfl, rfl, rfl, rfl, rfl, rfl, rfl, rfl⟩

@[simp] theorem Dev.onSession_reg (d : Dev) (sid : Nat) (f : Session → Session) (x : Nat) : (d.onSession sid f).reg x = d.reg x := rfl

@[simp] theorem Dev.onPartner_fields (d : Dev) (id : Nat) (f : Partner → Partner) :
      (d.onPartner id f).regs = d.regs ∧ (d.onPartner id f).blobs = d.blobs ∧ (d.onPartner id f).vers = d.vers ∧
      (d.onPartner id f).flash = d.flash ∧ (d.onPartner id f).flashBlobs = d.flashBlobs ∧
      (d.onPartner id f).mem = d.mem ∧ (d.onPartner id f).out = d.out ∧ (d.onPartner id f).fresh = d.fresh ∧
      (d.onPartner id f).log = d.log ∧ (d.onPartner id f).tl = d.tl ∧ (d.onPartner id f).servo = d.servo ∧
      (d.onPartner id f).fences = d.fences ∧ (d.onPartner id f).waits = d.waits ∧ (d.onPartner id f).dict = d.dict ∧
      (d.onPartner id f).mbox = d.mbox ∧ (d.onPartner id f).queues = d.queues ∧
      (d.onPartner id f).genReserved = d.genReserved ∧ (d.onPartner id f).handAt = d.handAt ∧
      (d.onPartner id f).startWindow = d.startWindow ∧ (d.onPartner id f).latches = d.latches ∧
      (d.onPartner id f).phaseLatches = d.phaseLatches ∧ (d.onPartner id f).seqs = d.seqs ∧
      (d.onPartner id f).books = d.books ∧ (d.onPartner id f).barHandle = d.barHandle ∧ (d.onPartner id f).barTarget = d.barTarget ∧
      (d.onPartner id f).barLatch = d.barLatch ∧ (d.onPartner id f).barEra = d.barEra ∧
      (d.onPartner id f).pins = d.pins ∧ (d.onPartner id f).boot = d.boot ∧ (d.onPartner id f).banks = d.banks ∧
      (d.onPartner id f).tu = d.tu ∧ (d.onPartner id f).analogOut = d.analogOut ∧
      (d.onPartner id f).slots = d.slots ∧ (d.onPartner id f).encs = d.encs ∧ (d.onPartner id f).stage = d.stage ∧
      (d.onPartner id f).csiPend = d.csiPend ∧ (d.onPartner id f).fus = d.fus ∧ (d.onPartner id f).ten = d.ten ∧
      (d.onPartner id f).safe = d.safe ∧ (d.onPartner id f).sol = d.sol ∧ (d.onPartner id f).net = d.net ∧
      (d.onPartner id f).aud = d.aud ∧ (d.onPartner id f).mix = d.mix ∧ (d.onPartner id f).ana = d.ana ∧
      (d.onPartner id f).virek = d.virek ∧ (d.onPartner id f).islCause = d.islCause ∧
      (d.onPartner id f).islAt = d.islAt ∧ (d.onPartner id f).pours = d.pours ∧ (d.onPartner id f).pow = d.pow :=
  ⟨rfl, rfl, rfl, rfl, rfl, rfl, rfl, rfl, rfl, rfl, rfl, rfl, rfl, rfl, rfl, rfl, rfl, rfl, rfl, rfl, rfl, rfl, rfl, rfl, rfl, rfl, rfl, rfl, rfl, rfl, rfl, rfl, rfl, rfl, rfl, rfl, rfl, rfl, rfl, rfl, rfl, rfl, rfl, rfl, rfl, rfl, rfl, rfl, rfl⟩

@[simp] theorem Dev.onPartner_reg (d : Dev) (id : Nat) (f : Partner → Partner) (x : Nat) : (d.onPartner id f).reg x = d.reg x := rfl

@[simp] theorem Dev.setQ_fields (d : Dev) (q : Nat) (r : QueueRt) :
      (d.setQ q r).regs = d.regs ∧ (d.setQ q r).blobs = d.blobs ∧ (d.setQ q r).vers = d.vers ∧
      (d.setQ q r).flash = d.flash ∧ (d.setQ q r).flashBlobs = d.flashBlobs ∧ (d.setQ q r).mem = d.mem ∧
      (d.setQ q r).out = d.out ∧ (d.setQ q r).fresh = d.fresh ∧ (d.setQ q r).log = d.log ∧
      (d.setQ q r).partners = d.partners ∧ (d.setQ q r).tl = d.tl ∧ (d.setQ q r).servo = d.servo ∧
      (d.setQ q r).fences = d.fences ∧ (d.setQ q r).waits = d.waits ∧ (d.setQ q r).dict = d.dict ∧
      (d.setQ q r).mbox = d.mbox ∧ (d.setQ q r).genReserved = d.genReserved ∧ (d.setQ q r).handAt = d.handAt ∧
      (d.setQ q r).startWindow = d.startWindow ∧ (d.setQ q r).latches = d.latches ∧
      (d.setQ q r).phaseLatches = d.phaseLatches ∧ (d.setQ q r).seqs = d.seqs ∧
      (d.setQ q r).books = d.books ∧ (d.setQ q r).barHandle = d.barHandle ∧ (d.setQ q r).barTarget = d.barTarget ∧
      (d.setQ q r).barLatch = d.barLatch ∧ (d.setQ q r).barEra = d.barEra ∧ (d.setQ q r).pins = d.pins ∧
      (d.setQ q r).boot = d.boot ∧ (d.setQ q r).banks = d.banks ∧ (d.setQ q r).tu = d.tu ∧
      (d.setQ q r).analogOut = d.analogOut ∧ (d.setQ q r).slots = d.slots ∧ (d.setQ q r).encs = d.encs ∧
      (d.setQ q r).stage = d.stage ∧ (d.setQ q r).csiPend = d.csiPend ∧ (d.setQ q r).fus = d.fus ∧
      (d.setQ q r).ten = d.ten ∧ (d.setQ q r).safe = d.safe ∧ (d.setQ q r).sol = d.sol ∧ (d.setQ q r).net = d.net ∧
      (d.setQ q r).aud = d.aud ∧ (d.setQ q r).mix = d.mix ∧ (d.setQ q r).ana = d.ana ∧
      (d.setQ q r).virek = d.virek ∧ (d.setQ q r).islCause = d.islCause ∧ (d.setQ q r).islAt = d.islAt ∧
      (d.setQ q r).pours = d.pours ∧ (d.setQ q r).pow = d.pow :=
  ⟨rfl, rfl, rfl, rfl, rfl, rfl, rfl, rfl, rfl, rfl, rfl, rfl, rfl, rfl, rfl, rfl, rfl, rfl, rfl, rfl, rfl, rfl, rfl, rfl, rfl, rfl, rfl, rfl, rfl, rfl, rfl, rfl, rfl, rfl, rfl, rfl, rfl, rfl, rfl, rfl, rfl, rfl, rfl, rfl, rfl, rfl, rfl, rfl, rfl⟩

@[simp] theorem Dev.setQ_reg (d : Dev) (q : Nat) (r : QueueRt) (x : Nat) : (d.setQ q r).reg x = d.reg x := rfl

@[simp] theorem Dev.onChan_fields (d : Dev) (k : Nat) (f : Chan → Chan) :
      (d.onChan k f).regs = d.regs ∧ (d.onChan k f).blobs = d.blobs ∧ (d.onChan k f).vers = d.vers ∧
      (d.onChan k f).flash = d.flash ∧ (d.onChan k f).flashBlobs = d.flashBlobs ∧ (d.onChan k f).mem = d.mem ∧
      (d.onChan k f).out = d.out ∧ (d.onChan k f).fresh = d.fresh ∧ (d.onChan k f).log = d.log ∧
      (d.onChan k f).partners = d.partners ∧ (d.onChan k f).tl = d.tl ∧ (d.onChan k f).servo = d.servo ∧
      (d.onChan k f).fences = d.fences ∧ (d.onChan k f).waits = d.waits ∧ (d.onChan k f).dict = d.dict ∧
      (d.onChan k f).mbox = d.mbox ∧ (d.onChan k f).queues = d.queues ∧ (d.onChan k f).genReserved = d.genReserved ∧
      (d.onChan k f).handAt = d.handAt ∧ (d.onChan k f).startWindow = d.startWindow ∧
      (d.onChan k f).latches = d.latches ∧ (d.onChan k f).phaseLatches = d.phaseLatches ∧
      (d.onChan k f).seqs = d.seqs ∧ (d.onChan k f).books = d.books ∧ (d.onChan k f).barHandle = d.barHandle ∧
      (d.onChan k f).barTarget = d.barTarget ∧ (d.onChan k f).barLatch = d.barLatch ∧
      (d.onChan k f).barEra = d.barEra ∧ (d.onChan k f).pins = d.pins ∧ (d.onChan k f).boot = d.boot ∧
      (d.onChan k f).banks = d.banks ∧ (d.onChan k f).tu = d.tu ∧ (d.onChan k f).analogOut = d.analogOut ∧
      (d.onChan k f).slots = d.slots ∧ (d.onChan k f).encs = d.encs ∧ (d.onChan k f).stage = d.stage ∧
      (d.onChan k f).csiPend = d.csiPend ∧ (d.onChan k f).fus = d.fus ∧ (d.onChan k f).ten = d.ten ∧
      (d.onChan k f).sol = d.sol ∧ (d.onChan k f).net = d.net ∧ (d.onChan k f).aud = d.aud ∧
      (d.onChan k f).mix = d.mix ∧ (d.onChan k f).ana = d.ana ∧ (d.onChan k f).virek = d.virek ∧
      (d.onChan k f).islCause = d.islCause ∧ (d.onChan k f).islAt = d.islAt ∧ (d.onChan k f).pours = d.pours ∧
      (d.onChan k f).pow = d.pow :=
  ⟨rfl, rfl, rfl, rfl, rfl, rfl, rfl, rfl, rfl, rfl, rfl, rfl, rfl, rfl, rfl, rfl, rfl, rfl, rfl, rfl, rfl, rfl, rfl, rfl, rfl, rfl, rfl, rfl, rfl, rfl, rfl, rfl, rfl, rfl, rfl, rfl, rfl, rfl, rfl, rfl, rfl, rfl, rfl, rfl, rfl, rfl, rfl, rfl, rfl⟩

@[simp] theorem Dev.onChan_reg (d : Dev) (k : Nat) (f : Chan → Chan) (x : Nat) : (d.onChan k f).reg x = d.reg x := rfl

@[simp] theorem Dev.on_own (d : Dev) :
    (∀ f, (d.onPins f).pins = f d.pins) ∧ (∀ f, (d.onSafe f).safe = f d.safe) ∧ (∀ f, (d.onTu f).tu = f d.tu)
      ∧ (∀ f, (d.onTl f).tl = f d.tl) ∧ (∀ f, (d.onServo f).servo = f d.servo) ∧ (∀ f, (d.onBoot f).boot = f d.boot)
      ∧ (∀ f, (d.onFus f).fus = f d.fus) ∧ (∀ f, (d.onTen f).ten = f d.ten) ∧ (∀ f, (d.onSol f).sol = f d.sol)
      ∧ (∀ f, (d.onNet f).net = f d.net) ∧ (∀ f, (d.onAudio f).aud = f d.aud) ∧ (∀ f, (d.onMix f).mix = f d.mix)
      ∧ (∀ f, (d.onAna f).ana = f d.ana) ∧ (∀ f, (d.onVirek f).virek = f d.virek) ∧ (∀ f, (d.onPours f).pours = f d.pours)
      ∧ (∀ f, (d.onPow f).pow = f d.pow) ∧ (∀ o, (d.send o).out = o :: d.out) ∧ d.drawn.fresh = d.fresh + 1 :=
  ⟨fun _ => rfl, fun _ => rfl, fun _ => rfl, fun _ => rfl, fun _ => rfl, fun _ => rfl, fun _ => rfl, fun _ => rfl,
    fun _ => rfl, fun _ => rfl, fun _ => rfl, fun _ => rfl, fun _ => rfl, fun _ => rfl, fun _ => rfl, fun _ => rfl,
    fun _ => rfl, rfl⟩

@[simp] theorem Dev.slot_setSlot (d : Dev) (s : Nat) (r : SlotRt) (x : Nat) :
    (d.setSlot s r).slot x = if x = s then r else d.slot x := by
  unfold Dev.slot Dev.setSlot
  by_cases h : r = {} <;> by_cases hx : x = s <;> simp [h, hx]

@[simp] theorem Dev.reg_bumpBy (d : Dev) (k j n : Nat) :
    (d.bumpBy k n).reg j = if j = k then wrapTy (keyTy k) (d.reg k + n) else d.reg j := d.reg_set k j _

@[simp] theorem Dev.reg_bump (d : Dev) (k j : Nat) :
    (d.bump k).reg j = if j = k then wrapTy (keyTy k) (d.reg k + 1) else d.reg j := d.reg_set k j _

@[simp] theorem Dev.reg_drop (d : Dev) (k j : Nat) :
    (d.drop k).reg j = if j = k then (if d.reg k ≤ 0 then 0 else d.reg k - 1) else d.reg j := d.reg_set k j _

end Sys2Proof.Machine
end

