-- ==== Sys2Proof/Laws/Parts.lean ====
section
/-! SUPPORT. What logging, queueing, handovers, frames, answers and the SAFE pair leave alone, as rewriting rules: the parts
of the device outside their own, and every register outside the bookkeeping objects. -/
namespace Sys2Proof.Machine

@[simp] theorem Dev.refreshQ_parts (d : Dev) (q : Nat) :
      (d.refreshQ q).mem = d.mem ∧ (d.refreshQ q).tl = d.tl ∧ (d.refreshQ q).servo = d.servo ∧
      (d.refreshQ q).fences = d.fences ∧ (d.refreshQ q).waits = d.waits ∧ (d.refreshQ q).banks = d.banks ∧
      (d.refreshQ q).flash = d.flash ∧ (d.refreshQ q).flashBlobs = d.flashBlobs ∧ (d.refreshQ q).boot = d.boot ∧
      (d.refreshQ q).analogOut = d.analogOut ∧ (d.refreshQ q).tu = d.tu ∧ (d.refreshQ q).slots = d.slots ∧
      (d.refreshQ q).encs = d.encs ∧ (d.refreshQ q).fus = d.fus ∧ (d.refreshQ q).ten = d.ten ∧
      (d.refreshQ q).sol = d.sol ∧ (d.refreshQ q).net = d.net ∧ (d.refreshQ q).aud = d.aud ∧
      (d.refreshQ q).mix = d.mix ∧ (d.refreshQ q).ana = d.ana ∧ (d.refreshQ q).virek = d.virek ∧
      (d.refreshQ q).pours = d.pours ∧ (d.refreshQ q).dict = d.dict ∧ (d.refreshQ q).mbox = d.mbox ∧
      (d.refreshQ q).blobs = d.blobs ∧ (d.refreshQ q).pow = d.pow ∧ (d.refreshQ q).partners = d.partners :=
  have w := Dev.refreshQ_within (M := 0) (d := d) rfl (.refl d) _
  ⟨w.mem rfl, w.tl rfl, w.servo rfl, w.fences rfl, w.waits rfl, w.banks rfl, (w.flash rfl).1, (w.flash rfl).2, w.boot rfl, w.analogOut rfl, w.tu rfl, w.slots rfl, w.encs rfl, w.fus rfl, w.ten rfl, w.sol rfl, w.net rfl, w.aud rfl, w.mix rfl, w.ana rfl, w.virek rfl, w.pours rfl, w.dict rfl, w.mbox rfl, w.blobs rfl, w.pow rfl, w.partners rfl⟩

theorem Dev.refreshQ_reg (d : Dev) (q : Nat) {k_ : Nat} (h_ : ¬ BookKey k_) :
    (d.refreshQ q).reg k_ = d.reg k_ :=
  Dev.refreshQ_booked (.refl d) _ k_ h_

@[simp] theorem Dev.unqueue_parts (d : Dev) (q : Nat) (it : Item) :
      (d.unqueue q it).mem = d.mem ∧ (d.unqueue q it).tl = d.tl ∧ (d.unqueue q it).servo = d.servo ∧
      (d.unqueue q it).fences = d.fences ∧ (d.unqueue q it).waits = d.waits ∧ (d.unqueue q it).banks = d.banks ∧
      (d.unqueue q it).flash = d.flash ∧ (d.unqueue q it).flashBlobs = d.flashBlobs ∧ (d.unqueue q it).boot = d.boot ∧
      (d.unqueue q it).analogOut = d.analogOut ∧ (d.unqueue q it).tu = d.tu ∧ (d.unqueue q it).slots = d.slots ∧
      (d.unqueue q it).encs = d.encs ∧ (d.unqueue q it).fus = d.fus ∧ (d.unqueue q it).ten = d.ten ∧
      (d.unqueue q it).sol = d.sol ∧ (d.unqueue q it).net = d.net ∧ (d.unqueue q it).aud = d.aud ∧
      (d.unqueue q it).mix = d.mix ∧ (d.unqueue q it).ana = d.ana ∧ (d.unqueue q it).virek = d.virek ∧
      (d.unqueue q it).pours = d.pours ∧ (d.unqueue q it).dict = d.dict ∧ (d.unqueue q it).mbox = d.mbox ∧
      (d.unqueue q it).blobs = d.blobs ∧ (d.unqueue q it).pow = d.pow ∧ (d.unqueue q it).partners = d.partners :=
  have w := Dev.unqueue_within (M := 0) (d := d) rfl (.refl d) _ _
  ⟨w.mem rfl, w.tl rfl, w.servo rfl, w.fences rfl, w.waits rfl, w.banks rfl, (w.flash rfl).1, (w.flash rfl).2, w.boot rfl, w.analogOut rfl, w.tu rfl, w.slots rfl, w.encs rfl, w.fus rfl, w.ten rfl, w.sol rfl, w.net rfl, w.aud rfl, w.mix rfl, w.ana rfl, w.virek rfl, w.pours rfl, w.dict rfl, w.mbox rfl, w.blobs rfl, w.pow rfl, w.partners rfl⟩

theorem Dev.unqueue_reg (d : Dev) (q : Nat) (it : Item) {k_ : Nat} (h_ : ¬ BookKey k_) :
    (d.unqueue q it).reg k_ = d.reg k_ :=
  Dev.unqueue_booked (.refl d) _ _ k_ h_

@[simp] theorem Dev.countDrop_parts (d : Dev) (q : Nat) (it : Item) :
      (d.countDrop q it).mem = d.mem ∧ (d.countDrop q it).tl = d.tl ∧ (d.countDrop q it).servo = d.servo ∧
      (d.countDrop q it).fences = d.fences ∧ (d.countDrop q it).waits = d.waits ∧ (d.countDrop q it).banks = d.banks ∧
      (d.countDrop q it).flash = d.flash ∧ (d.countDrop q it).flashBlobs = d.flashBlobs ∧
      (d.countDrop q it).boot = d.boot ∧ (d.countDrop q it).analogOut = d.analogOut ∧ (d.countDrop q it).tu = d.tu ∧
      (d.countDrop q it).slots = d.slots ∧ (d.countDrop q it).encs = d.encs ∧ (d.countDrop q it).fus = d.fus ∧
      (d.countDrop q it).ten = d.ten ∧ (d.countDrop q it).sol = d.sol ∧ (d.countDrop q it).net = d.net ∧
      (d.countDrop q it).aud = d.aud ∧ (d.countDrop q it).mix = d.mix ∧ (d.countDrop q it).ana = d.ana ∧
      (d.countDrop q it).virek = d.virek ∧ (d.countDrop q it).pours = d.pours ∧ (d.countDrop q it).dict = d.dict ∧
      (d.countDrop q it).mbox = d.mbox ∧ (d.countDrop q it).blobs = d.blobs ∧ (d.countDrop q it).pow = d.pow ∧
      (d.countDrop q it).partners = d.partners :=
  have w := Dev.countDrop_within (M := 0) (d := d) rfl (.refl d) _ _
  ⟨w.mem rfl, w.tl rfl, w.servo rfl, w.fences rfl, w.waits rfl, w.banks rfl, (w.flash rfl).1, (w.flash rfl).2, w.boot rfl, w.analogOut rfl, w.tu rfl, w.slots rfl, w.encs rfl, w.fus rfl, w.ten rfl, w.sol rfl, w.net rfl, w.aud rfl, w.mix rfl, w.ana rfl, w.virek rfl, w.pours rfl, w.dict rfl, w.mbox rfl, w.blobs rfl, w.pow rfl, w.partners rfl⟩

theorem Dev.countDrop_reg (d : Dev) (q : Nat) (it : Item) {k_ : Nat} (h_ : ¬ BookKey k_) :
    (d.countDrop q it).reg k_ = d.reg k_ :=
  Dev.countDrop_booked (.refl d) _ _ k_ h_

@[simp] theorem Dev.genInc_parts (d : Dev) (it : Item) :
      (d.genInc it).mem = d.mem ∧ (d.genInc it).tl = d.tl ∧ (d.genInc it).servo = d.servo ∧
      (d.genInc it).fences = d.fences ∧ (d.genInc it).waits = d.waits ∧ (d.genInc it).banks = d.banks ∧
      (d.genInc it).flash = d.flash ∧ (d.genInc it).flashBlobs = d.flashBlobs ∧ (d.genInc it).boot = d.boot ∧
      (d.genInc it).analogOut = d.analogOut ∧ (d.genInc it).tu = d.tu ∧ (d.genInc it).slots = d.slots ∧
      (d.genInc it).encs = d.encs ∧ (d.genInc it).fus = d.fus ∧ (d.genInc it).ten = d.ten ∧
      (d.genInc it).sol = d.sol ∧ (d.genInc it).net = d.net ∧ (d.genInc it).aud = d.aud ∧ (d.genInc it).mix = d.mix ∧
      (d.genInc it).ana = d.ana ∧ (d.genInc it).virek = d.virek ∧ (d.genInc it).pours = d.pours ∧
      (d.genInc it).dict = d.dict ∧ (d.genInc it).mbox = d.mbox ∧ (d.genInc it).blobs = d.blobs ∧
      (d.genInc it).pow = d.pow ∧ (d.genInc it).partners = d.partners :=
  have w := Dev.genInc_within (M := 0) (d := d) rfl (.refl d) _
  ⟨w.mem rfl, w.tl rfl, w.servo rfl, w.fences rfl, w.waits rfl, w.banks rfl, (w.flash rfl).1, (w.flash rfl).2, w.boot rfl, w.analogOut rfl, w.tu rfl, w.slots rfl, w.encs rfl, w.fus rfl, w.ten rfl, w.sol rfl, w.net rfl, w.aud rfl, w.mix rfl, w.ana rfl, w.virek rfl, w.pours rfl, w.dict rfl, w.mbox rfl, w.blobs rfl, w.pow rfl, w.partners rfl⟩

theorem Dev.genInc_reg (d : Dev) (it : Item) {k_ : Nat} (h_ : ¬ BookKey k_) :
    (d.genInc it).reg k_ = d.reg k_ :=
  Dev.genInc_booked (.refl d) _ k_ h_

@[simp] theorem Dev.genDec_parts (d : Dev) (it : Item) :
      (d.genDec it).mem = d.mem ∧ (d.genDec it).tl = d.tl ∧ (d.genDec it).servo = d.servo ∧
      (d.genDec it).fences = d.fences ∧ (d.genDec it).waits = d.waits ∧ (d.genDec it).banks = d.banks ∧
      (d.genDec it).flash = d.flash ∧ (d.genDec it).flashBlobs = d.flashBlobs ∧ (d.genDec it).boot = d.boot ∧
      (d.genDec it).analogOut = d.analogOut ∧ (d.genDec it).tu = d.tu ∧ (d.genDec it).slots = d.slots ∧
      (d.genDec it).encs = d.encs ∧ (d.genDec it).fus = d.fus ∧ (d.genDec it).ten = d.ten ∧
      (d.genDec it).sol = d.sol ∧ (d.genDec it).net = d.net ∧ (d.genDec it).aud = d.aud ∧ (d.genDec it).mix = d.mix ∧
      (d.genDec it).ana = d.ana ∧ (d.genDec it).virek = d.virek ∧ (d.genDec it).pours = d.pours ∧
      (d.genDec it).dict = d.dict ∧ (d.genDec it).mbox = d.mbox ∧ (d.genDec it).blobs = d.blobs ∧
      (d.genDec it).pow = d.pow ∧ (d.genDec it).partners = d.partners :=
  have w := Dev.genDec_within (M := 0) (d := d) rfl (.refl d) _
  ⟨w.mem rfl, w.tl rfl, w.servo rfl, w.fences rfl, w.waits rfl, w.banks rfl, (w.flash rfl).1, (w.flash rfl).2, w.boot rfl, w.analogOut rfl, w.tu rfl, w.slots rfl, w.encs rfl, w.fus rfl, w.ten rfl, w.sol rfl, w.net rfl, w.aud rfl, w.mix rfl, w.ana rfl, w.virek rfl, w.pours rfl, w.dict rfl, w.mbox rfl, w.blobs rfl, w.pow rfl, w.partners rfl⟩

theorem Dev.genDec_reg (d : Dev) (it : Item) {k_ : Nat} (h_ : ¬ BookKey k_) :
    (d.genDec it).reg k_ = d.reg k_ :=
  Dev.genDec_booked (.refl d) _ k_ h_

@[simp] theorem Dev.event_parts (d : Dev) (ev : Ev) :
      (d.event ev).mem = d.mem ∧ (d.event ev).tl = d.tl ∧ (d.event ev).servo = d.servo ∧
      (d.event ev).fences = d.fences ∧ (d.event ev).waits = d.waits ∧ (d.event ev).banks = d.banks ∧
      (d.event ev).flash = d.flash ∧ (d.event ev).flashBlobs = d.flashBlobs ∧ (d.event ev).boot = d.boot ∧
      (d.event ev).analogOut = d.analogOut ∧ (d.event ev).tu = d.tu ∧ (d.event ev).slots = d.slots ∧
      (d.event ev).encs = d.encs ∧ (d.event ev).fus = d.fus ∧ (d.event ev).ten = d.ten ∧ (d.event ev).sol = d.sol ∧
      (d.event ev).net = d.net ∧ (d.event ev).aud = d.aud ∧ (d.event ev).mix = d.mix ∧ (d.event ev).ana = d.ana ∧
      (d.event ev).virek = d.virek ∧ (d.event ev).pours = d.pours ∧ (d.event ev).dict = d.dict ∧
      (d.event ev).mbox = d.mbox ∧ (d.event ev).blobs = d.blobs ∧ (d.event ev).pow = d.pow ∧
      (d.event ev).partners = d.partners :=
  have w := Dev.event_within (M := 0) (d := d) rfl (.refl d) _
  ⟨w.mem rfl, w.tl rfl, w.servo rfl, w.fences rfl, w.waits rfl, w.banks rfl, (w.flash rfl).1, (w.flash rfl).2, w.boot rfl, w.analogOut rfl, w.tu rfl, w.slots rfl, w.encs rfl, w.fus rfl, w.ten rfl, w.sol rfl, w.net rfl, w.aud rfl, w.mix rfl, w.ana rfl, w.virek rfl, w.pours rfl, w.dict rfl, w.mbox rfl, w.blobs rfl, w.pow rfl, w.partners rfl⟩

theorem Dev.event_reg (d : Dev) (ev : Ev) {k_ : Nat} (h_ : ¬ BookKey k_) :
    (d.event ev).reg k_ = d.reg k_ :=
  Dev.event_booked (.refl d) _ k_ h_

@[simp] theorem Dev.postEvent_parts (d : Dev) (p : Nat) (it : Item) :
      (d.postEvent p it).mem = d.mem ∧ (d.postEvent p it).tl = d.tl ∧ (d.postEvent p it).servo = d.servo ∧
      (d.postEvent p it).fences = d.fences ∧ (d.postEvent p it).waits = d.waits ∧ (d.postEvent p it).banks = d.banks ∧
      (d.postEvent p it).flash = d.flash ∧ (d.postEvent p it).flashBlobs = d.flashBlobs ∧
      (d.postEvent p it).boot = d.boot ∧ (d.postEvent p it).analogOut = d.analogOut ∧ (d.postEvent p it).tu = d.tu ∧
      (d.postEvent p it).slots = d.slots ∧ (d.postEvent p it).encs = d.encs ∧ (d.postEvent p it).fus = d.fus ∧
      (d.postEvent p it).ten = d.ten ∧ (d.postEvent p it).sol = d.sol ∧ (d.postEvent p it).net = d.net ∧
      (d.postEvent p it).aud = d.aud ∧ (d.postEvent p it).mix = d.mix ∧ (d.postEvent p it).ana = d.ana ∧
      (d.postEvent p it).virek = d.virek ∧ (d.postEvent p it).pours = d.pours ∧ (d.postEvent p it).dict = d.dict ∧
      (d.postEvent p it).mbox = d.mbox ∧ (d.postEvent p it).blobs = d.blobs ∧ (d.postEvent p it).pow = d.pow ∧
      (d.postEvent p it).partners = d.partners :=
  have w := Dev.postEvent_within (M := 0) (d := d) rfl (.refl d) _ _
  ⟨w.mem rfl, w.tl rfl, w.servo rfl, w.fences rfl, w.waits rfl, w.banks rfl, (w.flash rfl).1, (w.flash rfl).2, w.boot rfl, w.analogOut rfl, w.tu rfl, w.slots rfl, w.encs rfl, w.fus rfl, w.ten rfl, w.sol rfl, w.net rfl, w.aud rfl, w.mix rfl, w.ana rfl, w.virek rfl, w.pours rfl, w.dict rfl, w.mbox rfl, w.blobs rfl, w.pow rfl, w.partners rfl⟩

theorem Dev.postEvent_reg (d : Dev) (p : Nat) (it : Item) {k_ : Nat} (h_ : ¬ BookKey k_) :
    (d.postEvent p it).reg k_ = d.reg k_ :=
  Dev.postEvent_booked (.refl d) _ _ k_ h_

@[simp] theorem Dev.enqueue_parts (d : Dev) (q : Nat) (it : Item) :
      (d.enqueue q it).mem = d.mem ∧ (d.enqueue q it).tl = d.tl ∧ (d.enqueue q it).servo = d.servo ∧
      (d.enqueue q it).fences = d.fences ∧ (d.enqueue q it).waits = d.waits ∧ (d.enqueue q it).banks = d.banks ∧
      (d.enqueue q it).flash = d.flash ∧ (d.enqueue q it).flashBlobs = d.flashBlobs ∧ (d.enqueue q it).boot = d.boot ∧
      (d.enqueue q it).analogOut = d.analogOut ∧ (d.enqueue q it).tu = d.tu ∧ (d.enqueue q it).slots = d.slots ∧
      (d.enqueue q it).encs = d.encs ∧ (d.enqueue q it).fus = d.fus ∧ (d.enqueue q it).ten = d.ten ∧
      (d.enqueue q it).sol = d.sol ∧ (d.enqueue q it).net = d.net ∧ (d.enqueue q it).aud = d.aud ∧
      (d.enqueue q it).mix = d.mix ∧ (d.enqueue q it).ana = d.ana ∧ (d.enqueue q it).virek = d.virek ∧
      (d.enqueue q it).pours = d.pours ∧ (d.enqueue q it).dict = d.dict ∧ (d.enqueue q it).mbox = d.mbox ∧
      (d.enqueue q it).blobs = d.blobs ∧ (d.enqueue q it).pow = d.pow ∧ (d.enqueue q it).partners = d.partners :=
  have w := Dev.enqueue_within (M := 0) (d := d) rfl (.refl d) _ _
  ⟨w.mem rfl, w.tl rfl, w.servo rfl, w.fences rfl, w.waits rfl, w.banks rfl, (w.flash rfl).1, (w.flash rfl).2, w.boot rfl, w.analogOut rfl, w.tu rfl, w.slots rfl, w.encs rfl, w.fus rfl, w.ten rfl, w.sol rfl, w.net rfl, w.aud rfl, w.mix rfl, w.ana rfl, w.virek rfl, w.pours rfl, w.dict rfl, w.mbox rfl, w.blobs rfl, w.pow rfl, w.partners rfl⟩

theorem Dev.enqueue_reg (d : Dev) (q : Nat) (it : Item) {k_ : Nat} (h_ : ¬ BookKey k_) :
    (d.enqueue q it).reg k_ = d.reg k_ :=
  Dev.enqueue_booked (.refl d) _ _ k_ h_

@[simp] theorem Dev.violate_parts (d : Dev) (who : Who) (mk : Nat → Ev) :
      (d.violate who mk).mem = d.mem ∧ (d.violate who mk).tl = d.tl ∧ (d.violate who mk).servo = d.servo ∧
      (d.violate who mk).fences = d.fences ∧ (d.violate who mk).waits = d.waits ∧ (d.violate who mk).banks = d.banks ∧
      (d.violate who mk).flash = d.flash ∧ (d.violate who mk).flashBlobs = d.flashBlobs ∧
      (d.violate who mk).boot = d.boot ∧ (d.violate who mk).analogOut = d.analogOut ∧ (d.violate who mk).tu = d.tu ∧
      (d.violate who mk).slots = d.slots ∧ (d.violate who mk).encs = d.encs ∧ (d.violate who mk).fus = d.fus ∧
      (d.violate who mk).ten = d.ten ∧ (d.violate who mk).sol = d.sol ∧ (d.violate who mk).net = d.net ∧
      (d.violate who mk).aud = d.aud ∧ (d.violate who mk).mix = d.mix ∧ (d.violate who mk).ana = d.ana ∧
      (d.violate who mk).virek = d.virek ∧ (d.violate who mk).pours = d.pours ∧ (d.violate who mk).dict = d.dict ∧
      (d.violate who mk).mbox = d.mbox ∧ (d.violate who mk).blobs = d.blobs ∧ (d.violate who mk).pow = d.pow :=
  have w := Dev.violate_within (M := 33554432) (d := d) rfl (.refl d) _ _
  ⟨w.mem rfl, w.tl rfl, w.servo rfl, w.fences rfl, w.waits rfl, w.banks rfl, (w.flash rfl).1, (w.flash rfl).2, w.boot rfl, w.analogOut rfl, w.tu rfl, w.slots rfl, w.encs rfl, w.fus rfl, w.ten rfl, w.sol rfl, w.net rfl, w.aud rfl, w.mix rfl, w.ana rfl, w.virek rfl, w.pours rfl, w.dict rfl, w.mbox rfl, w.blobs rfl, w.pow rfl⟩

theorem Dev.violate_reg (d : Dev) (who : Who) (mk : Nat → Ev) {k_ : Nat} (h_ : ¬ BookKey k_) :
    (d.violate who mk).reg k_ = d.reg k_ :=
  Dev.violate_booked (.refl d) _ _ k_ h_

@[simp] theorem Dev.quarantineDrop_parts (d : Dev) (id : Nat) :
      (d.quarantineDrop id).mem = d.mem ∧ (d.quarantineDrop id).tl = d.tl ∧ (d.quarantineDrop id).servo = d.servo ∧
      (d.quarantineDrop id).fences = d.fences ∧ (d.quarantineDrop id).waits = d.waits ∧
      (d.quarantineDrop id).banks = d.banks ∧ (d.quarantineDrop id).flash = d.flash ∧
      (d.quarantineDrop id).flashBlobs = d.flashBlobs ∧ (d.quarantineDrop id).boot = d.boot ∧
      (d.quarantineDrop id).analogOut = d.analogOut ∧ (d.quarantineDrop id).tu = d.tu ∧
      (d.quarantineDrop id).slots = d.slots ∧ (d.quarantineDrop id).encs = d.encs ∧
      (d.quarantineDrop id).fus = d.fus ∧ (d.quarantineDrop id).ten = d.ten ∧ (d.quarantineDrop id).sol = d.sol ∧
      (d.quarantineDrop id).net = d.net ∧ (d.quarantineDrop id).aud = d.aud ∧ (d.quarantineDrop id).mix = d.mix ∧
      (d.quarantineDrop id).ana = d.ana ∧ (d.quarantineDrop id).virek = d.virek ∧
      (d.quarantineDrop id).pours = d.pours ∧ (d.quarantineDrop id).dict = d.dict ∧
      (d.quarantineDrop id).mbox = d.mbox ∧ (d.quarantineDrop id).blobs = d.blobs ∧ (d.quarantineDrop id).pow = d.pow :=
  have w := Dev.quarantineDrop_within (M := 33554432) (d := d) rfl (.refl d) _
  ⟨w.mem rfl, w.tl rfl, w.servo rfl, w.fences rfl, w.waits rfl, w.banks rfl, (w.flash rfl).1, (w.flash rfl).2, w.boot rfl, w.analogOut rfl, w.tu rfl, w.slots rfl, w.encs rfl, w.fus rfl, w.ten rfl, w.sol rfl, w.net rfl, w.aud rfl, w.mix rfl, w.ana rfl, w.virek rfl, w.pours rfl, w.dict rfl, w.mbox rfl, w.blobs rfl, w.pow rfl⟩

theorem Dev.quarantineDrop_reg (d : Dev) (id : Nat) {k_ : Nat} (h_ : ¬ BookKey k_) :
    (d.quarantineDrop id).reg k_ = d.reg k_ :=
  Dev.quarantineDrop_booked (.refl d) _ k_ h_

@[simp] theorem Dev.quarantineEnd_parts (d : Dev) (id : Nat) :
      (d.quarantineEnd id).mem = d.mem ∧ (d.quarantineEnd id).tl = d.tl ∧ (d.quarantineEnd id).servo = d.servo ∧
      (d.quarantineEnd id).fences = d.fences ∧ (d.quarantineEnd id).waits = d.waits ∧
      (d.quarantineEnd id).banks = d.banks ∧ (d.quarantineEnd id).flash = d.flash ∧
      (d.quarantineEnd id).flashBlobs = d.flashBlobs ∧ (d.quarantineEnd id).boot = d.boot ∧
      (d.quarantineEnd id).analogOut = d.analogOut ∧ (d.quarantineEnd id).tu = d.tu ∧
      (d.quarantineEnd id).slots = d.slots ∧ (d.quarantineEnd id).encs = d.encs ∧ (d.quarantineEnd id).fus = d.fus ∧
      (d.quarantineEnd id).ten = d.ten ∧ (d.quarantineEnd id).sol = d.sol ∧ (d.quarantineEnd id).net = d.net ∧
      (d.quarantineEnd id).aud = d.aud ∧ (d.quarantineEnd id).mix = d.mix ∧ (d.quarantineEnd id).ana = d.ana ∧
      (d.quarantineEnd id).virek = d.virek ∧ (d.quarantineEnd id).pours = d.pours ∧
      (d.quarantineEnd id).dict = d.dict ∧ (d.quarantineEnd id).mbox = d.mbox ∧ (d.quarantineEnd id).blobs = d.blobs ∧
      (d.quarantineEnd id).pow = d.pow :=
  have w := Dev.quarantineEnd_within (M := 33554432) (d := d) rfl (.refl d) _
  ⟨w.mem rfl, w.tl rfl, w.servo rfl, w.fences rfl, w.waits rfl, w.banks rfl, (w.flash rfl).1, (w.flash rfl).2, w.boot rfl, w.analogOut rfl, w.tu rfl, w.slots rfl, w.encs rfl, w.fus rfl, w.ten rfl, w.sol rfl, w.net rfl, w.aud rfl, w.mix rfl, w.ana rfl, w.virek rfl, w.pours rfl, w.dict rfl, w.mbox rfl, w.blobs rfl, w.pow rfl⟩

theorem Dev.quarantineEnd_reg (d : Dev) (id : Nat) {k_ : Nat} (h_ : ¬ BookKey k_) :
    (d.quarantineEnd id).reg k_ = d.reg k_ :=
  Dev.quarantineEnd_booked (.refl d) _ k_ h_

@[simp] theorem Dev.handover_parts (d : Dev) (point : Nat) (iface : Nat) (src : Nat) (num : Nat) (f : Found) :
      (d.handover point iface src num f).mem = d.mem ∧ (d.handover point iface src num f).tl = d.tl ∧
      (d.handover point iface src num f).servo = d.servo ∧ (d.handover point iface src num f).fences = d.fences ∧
      (d.handover point iface src num f).waits = d.waits ∧ (d.handover point iface src num f).banks = d.banks ∧
      (d.handover point iface src num f).flash = d.flash ∧
      (d.handover point iface src num f).flashBlobs = d.flashBlobs ∧
      (d.handover point iface src num f).boot = d.boot ∧ (d.handover point iface src num f).analogOut = d.analogOut ∧
      (d.handover point iface src num f).tu = d.tu ∧ (d.handover point iface src num f).slots = d.slots ∧
      (d.handover point iface src num f).encs = d.encs ∧ (d.handover point iface src num f).fus = d.fus ∧
      (d.handover point iface src num f).ten = d.ten ∧ (d.handover point iface src num f).sol = d.sol ∧
      (d.handover point iface src num f).net = d.net ∧ (d.handover point iface src num f).aud = d.aud ∧
      (d.handover point iface src num f).mix = d.mix ∧ (d.handover point iface src num f).ana = d.ana ∧
      (d.handover point iface src num f).virek = d.virek ∧ (d.handover point iface src num f).pours = d.pours ∧
      (d.handover point iface src num f).dict = d.dict ∧ (d.handover point iface src num f).mbox = d.mbox ∧
      (d.handover point iface src num f).blobs = d.blobs ∧ (d.handover point iface src num f).pow = d.pow ∧
      (d.handover point iface src num f).partners = d.partners :=
  have w := Dev.handover_within (M := 0) (d := d) rfl (.refl d) _ _ _ _ _
  ⟨w.mem rfl, w.tl rfl, w.servo rfl, w.fences rfl, w.waits rfl, w.banks rfl, (w.flash rfl).1, (w.flash rfl).2, w.boot rfl, w.analogOut rfl, w.tu rfl, w.slots rfl, w.encs rfl, w.fus rfl, w.ten rfl, w.sol rfl, w.net rfl, w.aud rfl, w.mix rfl, w.ana rfl, w.virek rfl, w.pours rfl, w.dict rfl, w.mbox rfl, w.blobs rfl, w.pow rfl, w.partners rfl⟩

theorem Dev.handover_reg (d : Dev) (point : Nat) (iface : Nat) (src : Nat) (num : Nat) (f : Found) (hp : point < 16) {k_ : Nat} (h_ : ¬ BookKey k_) :
    (d.handover point iface src num f).reg k_ = d.reg k_ :=
  Dev.handover_booked (.refl d) _ _ _ _ _ hp k_ h_

@[simp] theorem Dev.pointEvent_parts (d : Dev) (point : Nat) (slot : Nat) (ev : Ev) :
      (d.pointEvent point slot ev).mem = d.mem ∧ (d.pointEvent point slot ev).tl = d.tl ∧
      (d.pointEvent point slot ev).servo = d.servo ∧ (d.pointEvent point slot ev).fences = d.fences ∧
      (d.pointEvent point slot ev).waits = d.waits ∧ (d.pointEvent point slot ev).banks = d.banks ∧
      (d.pointEvent point slot ev).flash = d.flash ∧ (d.pointEvent point slot ev).flashBlobs = d.flashBlobs ∧
      (d.pointEvent point slot ev).boot = d.boot ∧ (d.pointEvent point slot ev).analogOut = d.analogOut ∧
      (d.pointEvent point slot ev).tu = d.tu ∧ (d.pointEvent point slot ev).slots = d.slots ∧
      (d.pointEvent point slot ev).encs = d.encs ∧ (d.pointEvent point slot ev).fus = d.fus ∧
      (d.pointEvent point slot ev).ten = d.ten ∧ (d.pointEvent point slot ev).sol = d.sol ∧
      (d.pointEvent point slot ev).net = d.net ∧ (d.pointEvent point slot ev).aud = d.aud ∧
      (d.pointEvent point slot ev).mix = d.mix ∧ (d.pointEvent point slot ev).ana = d.ana ∧
      (d.pointEvent point slot ev).virek = d.virek ∧ (d.pointEvent point slot ev).pours = d.pours ∧
      (d.pointEvent point slot ev).dict = d.dict ∧ (d.pointEvent point slot ev).mbox = d.mbox ∧
      (d.pointEvent point slot ev).blobs = d.blobs ∧ (d.pointEvent point slot ev).pow = d.pow ∧
      (d.pointEvent point slot ev).partners = d.partners :=
  have w := Dev.pointEvent_within (M := 0) (d := d) rfl (.refl d) _ _ _
  ⟨w.mem rfl, w.tl rfl, w.servo rfl, w.fences rfl, w.waits rfl, w.banks rfl, (w.flash rfl).1, (w.flash rfl).2, w.boot rfl, w.analogOut rfl, w.tu rfl, w.slots rfl, w.encs rfl, w.fus rfl, w.ten rfl, w.sol rfl, w.net rfl, w.aud rfl, w.mix rfl, w.ana rfl, w.virek rfl, w.pours rfl, w.dict rfl, w.mbox rfl, w.blobs rfl, w.pow rfl, w.partners rfl⟩

theorem Dev.pointEvent_reg (d : Dev) (point : Nat) (slot : Nat) (ev : Ev) {k_ : Nat} (h_ : ¬ BookKey k_) :
    (d.pointEvent point slot ev).reg k_ = d.reg k_ :=
  Dev.pointEvent_booked (.refl d) _ _ _ k_ h_

@[simp] theorem Dev.countFcs_parts (d : Dev) (port : Nat) (f : Found) :
      (d.countFcs port f).mem = d.mem ∧ (d.countFcs port f).tl = d.tl ∧ (d.countFcs port f).servo = d.servo ∧
      (d.countFcs port f).fences = d.fences ∧ (d.countFcs port f).waits = d.waits ∧
      (d.countFcs port f).banks = d.banks ∧ (d.countFcs port f).flash = d.flash ∧
      (d.countFcs port f).flashBlobs = d.flashBlobs ∧ (d.countFcs port f).boot = d.boot ∧
      (d.countFcs port f).analogOut = d.analogOut ∧ (d.countFcs port f).tu = d.tu ∧
      (d.countFcs port f).slots = d.slots ∧ (d.countFcs port f).encs = d.encs ∧ (d.countFcs port f).fus = d.fus ∧
      (d.countFcs port f).ten = d.ten ∧ (d.countFcs port f).sol = d.sol ∧ (d.countFcs port f).net = d.net ∧
      (d.countFcs port f).aud = d.aud ∧ (d.countFcs port f).mix = d.mix ∧ (d.countFcs port f).ana = d.ana ∧
      (d.countFcs port f).virek = d.virek ∧ (d.countFcs port f).pours = d.pours ∧ (d.countFcs port f).dict = d.dict ∧
      (d.countFcs port f).mbox = d.mbox ∧ (d.countFcs port f).blobs = d.blobs ∧ (d.countFcs port f).pow = d.pow ∧
      (d.countFcs port f).partners = d.partners :=
  have w := Dev.countFcs_within (M := 0) (d := d) rfl (.refl d) _ _
  ⟨w.mem rfl, w.tl rfl, w.servo rfl, w.fences rfl, w.waits rfl, w.banks rfl, (w.flash rfl).1, (w.flash rfl).2, w.boot rfl, w.analogOut rfl, w.tu rfl, w.slots rfl, w.encs rfl, w.fus rfl, w.ten rfl, w.sol rfl, w.net rfl, w.aud rfl, w.mix rfl, w.ana rfl, w.virek rfl, w.pours rfl, w.dict rfl, w.mbox rfl, w.blobs rfl, w.pow rfl, w.partners rfl⟩

theorem Dev.countFcs_reg (d : Dev) (port : Nat) (f : Found) {k_ : Nat} (h_ : ¬ BookKey k_) :
    (d.countFcs port f).reg k_ = d.reg k_ :=
  Dev.countFcs_booked (.refl d) _ _ k_ h_

@[simp] theorem Dev.hold_parts (d : Dev) (syn : Nat) (cmd : HeldCmd) :
      (d.hold syn cmd).mem = d.mem ∧ (d.hold syn cmd).tl = d.tl ∧ (d.hold syn cmd).servo = d.servo ∧
      (d.hold syn cmd).fences = d.fences ∧ (d.hold syn cmd).waits = d.waits ∧ (d.hold syn cmd).banks = d.banks ∧
      (d.hold syn cmd).flash = d.flash ∧ (d.hold syn cmd).flashBlobs = d.flashBlobs ∧ (d.hold syn cmd).boot = d.boot ∧
      (d.hold syn cmd).analogOut = d.analogOut ∧ (d.hold syn cmd).slots = d.slots ∧ (d.hold syn cmd).encs = d.encs ∧
      (d.hold syn cmd).fus = d.fus ∧ (d.hold syn cmd).ten = d.ten ∧ (d.hold syn cmd).sol = d.sol ∧
      (d.hold syn cmd).net = d.net ∧ (d.hold syn cmd).aud = d.aud ∧ (d.hold syn cmd).mix = d.mix ∧
      (d.hold syn cmd).ana = d.ana ∧ (d.hold syn cmd).virek = d.virek ∧ (d.hold syn cmd).pours = d.pours ∧
      (d.hold syn cmd).dict = d.dict ∧ (d.hold syn cmd).mbox = d.mbox ∧ (d.hold syn cmd).blobs = d.blobs ∧
      (d.hold syn cmd).pow = d.pow ∧ (d.hold syn cmd).partners = d.partners :=
  have w := Dev.hold_within (M := 512) (d := d) rfl (.refl d) _ _
  ⟨w.mem rfl, w.tl rfl, w.servo rfl, w.fences rfl, w.waits rfl, w.banks rfl, (w.flash rfl).1, (w.flash rfl).2, w.boot rfl, w.analogOut rfl, w.slots rfl, w.encs rfl, w.fus rfl, w.ten rfl, w.sol rfl, w.net rfl, w.aud rfl, w.mix rfl, w.ana rfl, w.virek rfl, w.pours rfl, w.dict rfl, w.mbox rfl, w.blobs rfl, w.pow rfl, w.partners rfl⟩

theorem Dev.hold_reg (d : Dev) (syn : Nat) (cmd : HeldCmd) {k_ : Nat} (h_ : ¬ BookKey k_) :
    (d.hold syn cmd).reg k_ = d.reg k_ :=
  Dev.hold_booked (.refl d) _ _ k_ h_

@[simp] theorem Dev.ethOut_parts (d : Dev) (port : Nat) (o : Output) :
      (d.ethOut port o).mem = d.mem ∧ (d.ethOut port o).tl = d.tl ∧ (d.ethOut port o).servo = d.servo ∧
      (d.ethOut port o).fences = d.fences ∧ (d.ethOut port o).waits = d.waits ∧ (d.ethOut port o).banks = d.banks ∧
      (d.ethOut port o).flash = d.flash ∧ (d.ethOut port o).flashBlobs = d.flashBlobs ∧
      (d.ethOut port o).boot = d.boot ∧ (d.ethOut port o).analogOut = d.analogOut ∧
      (d.ethOut port o).slots = d.slots ∧ (d.ethOut port o).encs = d.encs ∧ (d.ethOut port o).fus = d.fus ∧
      (d.ethOut port o).ten = d.ten ∧ (d.ethOut port o).sol = d.sol ∧ (d.ethOut port o).net = d.net ∧
      (d.ethOut port o).aud = d.aud ∧ (d.ethOut port o).mix = d.mix ∧ (d.ethOut port o).ana = d.ana ∧
      (d.ethOut port o).virek = d.virek ∧ (d.ethOut port o).pours = d.pours ∧ (d.ethOut port o).dict = d.dict ∧
      (d.ethOut port o).mbox = d.mbox ∧ (d.ethOut port o).blobs = d.blobs ∧ (d.ethOut port o).pow = d.pow ∧
      (d.ethOut port o).partners = d.partners :=
  have w := Dev.ethOut_within (M := 512) (d := d) rfl (.refl d) _ _
  ⟨w.mem rfl, w.tl rfl, w.servo rfl, w.fences rfl, w.waits rfl, w.banks rfl, (w.flash rfl).1, (w.flash rfl).2, w.boot rfl, w.analogOut rfl, w.slots rfl, w.encs rfl, w.fus rfl, w.ten rfl, w.sol rfl, w.net rfl, w.aud rfl, w.mix rfl, w.ana rfl, w.virek rfl, w.pours rfl, w.dict rfl, w.mbox rfl, w.blobs rfl, w.pow rfl, w.partners rfl⟩

theorem Dev.ethOut_reg (d : Dev) (port : Nat) (o : Output) {k_ : Nat} (h_ : ¬ BookKey k_) :
    (d.ethOut port o).reg k_ = d.reg k_ :=
  Dev.ethOut_booked (.refl d) _ _ k_ h_

@[simp] theorem Dev.ethSend_parts (d : Dev) (port : Nat) (kind : FrameKind) (fields : List Int) (payload : Bytes) :
      (d.ethSend port kind fields payload).mem = d.mem ∧ (d.ethSend port kind fields payload).tl = d.tl ∧
      (d.ethSend port kind fields payload).servo = d.servo ∧ (d.ethSend port kind fields payload).fences = d.fences ∧
      (d.ethSend port kind fields payload).waits = d.waits ∧ (d.ethSend port kind fields payload).banks = d.banks ∧
      (d.ethSend port kind fields payload).flash = d.flash ∧
      (d.ethSend port kind fields payload).flashBlobs = d.flashBlobs ∧
      (d.ethSend port kind fields payload).boot = d.boot ∧
      (d.ethSend port kind fields payload).analogOut = d.analogOut ∧
      (d.ethSend port kind fields payload).slots = d.slots ∧ (d.ethSend port kind fields payload).encs = d.encs ∧
      (d.ethSend port kind fields payload).fus = d.fus ∧ (d.ethSend port kind fields payload).ten = d.ten ∧
      (d.ethSend port kind fields payload).sol = d.sol ∧ (d.ethSend port kind fields payload).net = d.net ∧
      (d.ethSend port kind fields payload).aud = d.aud ∧ (d.ethSend port kind fields payload).mix = d.mix ∧
      (d.ethSend port kind fields payload).ana = d.ana ∧ (d.ethSend port kind fields payload).virek = d.virek ∧
      (d.ethSend port kind fields payload).pours = d.pours ∧ (d.ethSend port kind fields payload).dict = d.dict ∧
      (d.ethSend port kind fields payload).mbox = d.mbox ∧ (d.ethSend port kind fields payload).blobs = d.blobs ∧
      (d.ethSend port kind fields payload).pow = d.pow ∧ (d.ethSend port kind fields payload).partners = d.partners :=
  have w := Dev.ethSend_within (M := 512) (d := d) rfl (.refl d) _ _ _ _
  ⟨w.mem rfl, w.tl rfl, w.servo rfl, w.fences rfl, w.waits rfl, w.banks rfl, (w.flash rfl).1, (w.flash rfl).2, w.boot rfl, w.analogOut rfl, w.slots rfl, w.encs rfl, w.fus rfl, w.ten rfl, w.sol rfl, w.net rfl, w.aud rfl, w.mix rfl, w.ana rfl, w.virek rfl, w.pours rfl, w.dict rfl, w.mbox rfl, w.blobs rfl, w.pow rfl, w.partners rfl⟩

theorem Dev.ethSend_reg (d : Dev) (port : Nat) (kind : FrameKind) (fields : List Int) (payload : Bytes) {k_ : Nat} (h_ : ¬ BookKey k_) :
    (d.ethSend port kind fields payload).reg k_ = d.reg k_ :=
  Dev.ethSend_booked (.refl d) _ _ _ _ k_ h_

@[simp] theorem Dev.closeConn_parts (d : Dev) (slot : Nat) (cause : CloseCause) :
      (d.closeConn slot cause).mem = d.mem ∧ (d.closeConn slot cause).tl = d.tl ∧
      (d.closeConn slot cause).servo = d.servo ∧ (d.closeConn slot cause).fences = d.fences ∧
      (d.closeConn slot cause).waits = d.waits ∧ (d.closeConn slot cause).banks = d.banks ∧
      (d.closeConn slot cause).flash = d.flash ∧ (d.closeConn slot cause).flashBlobs = d.flashBlobs ∧
      (d.closeConn slot cause).boot = d.boot ∧ (d.closeConn slot cause).analogOut = d.analogOut ∧
      (d.closeConn slot cause).tu = d.tu ∧ (d.closeConn slot cause).slots = d.slots ∧
      (d.closeConn slot cause).encs = d.encs ∧ (d.closeConn slot cause).fus = d.fus ∧
      (d.closeConn slot cause).ten = d.ten ∧ (d.closeConn slot cause).sol = d.sol ∧
      (d.closeConn slot cause).net = d.net ∧ (d.closeConn slot cause).aud = d.aud ∧
      (d.closeConn slot cause).mix = d.mix ∧ (d.closeConn slot cause).ana = d.ana ∧
      (d.closeConn slot cause).pours = d.pours ∧ (d.closeConn slot cause).dict = d.dict ∧
      (d.closeConn slot cause).mbox = d.mbox ∧ (d.closeConn slot cause).blobs = d.blobs ∧
      (d.closeConn slot cause).pow = d.pow ∧ (d.closeConn slot cause).partners = d.partners :=
  have w := Dev.closeConn_within (M := 524288) (d := d) rfl (.refl d) _ _
  ⟨w.mem rfl, w.tl rfl, w.servo rfl, w.fences rfl, w.waits rfl, w.banks rfl, (w.flash rfl).1, (w.flash rfl).2, w.boot rfl, w.analogOut rfl, w.tu rfl, w.slots rfl, w.encs rfl, w.fus rfl, w.ten rfl, w.sol rfl, w.net rfl, w.aud rfl, w.mix rfl, w.ana rfl, w.pours rfl, w.dict rfl, w.mbox rfl, w.blobs rfl, w.pow rfl, w.partners rfl⟩

theorem Dev.closeConn_reg (d : Dev) (slot : Nat) (cause : CloseCause) {k_ : Nat} (h_ : ¬ BookKey k_) :
    (d.closeConn slot cause).reg k_ = d.reg k_ :=
  Dev.closeConn_booked (.refl d) _ _ k_ h_

@[simp] theorem Dev.closeConns_parts (d : Dev) (cause : CloseCause) (f : Conn → Bool) :
      (d.closeConns cause f).mem = d.mem ∧ (d.closeConns cause f).tl = d.tl ∧ (d.closeConns cause f).servo = d.servo ∧
      (d.closeConns cause f).fences = d.fences ∧ (d.closeConns cause f).waits = d.waits ∧
      (d.closeConns cause f).banks = d.banks ∧ (d.closeConns cause f).flash = d.flash ∧
      (d.closeConns cause f).flashBlobs = d.flashBlobs ∧ (d.closeConns cause f).boot = d.boot ∧
      (d.closeConns cause f).analogOut = d.analogOut ∧ (d.closeConns cause f).tu = d.tu ∧
      (d.closeConns cause f).slots = d.slots ∧ (d.closeConns cause f).encs = d.encs ∧
      (d.closeConns cause f).fus = d.fus ∧ (d.closeConns cause f).ten = d.ten ∧ (d.closeConns cause f).sol = d.sol ∧
      (d.closeConns cause f).net = d.net ∧ (d.closeConns cause f).aud = d.aud ∧ (d.closeConns cause f).mix = d.mix ∧
      (d.closeConns cause f).ana = d.ana ∧ (d.closeConns cause f).pours = d.pours ∧
      (d.closeConns cause f).dict = d.dict ∧ (d.closeConns cause f).mbox = d.mbox ∧
      (d.closeConns cause f).blobs = d.blobs ∧ (d.closeConns cause f).pow = d.pow ∧
      (d.closeConns cause f).partners = d.partners :=
  have w := Dev.closeConns_within (M := 524288) (d := d) rfl (.refl d) _ _
  ⟨w.mem rfl, w.tl rfl, w.servo rfl, w.fences rfl, w.waits rfl, w.banks rfl, (w.flash rfl).1, (w.flash rfl).2, w.boot rfl, w.analogOut rfl, w.tu rfl, w.slots rfl, w.encs rfl, w.fus rfl, w.ten rfl, w.sol rfl, w.net rfl, w.aud rfl, w.mix rfl, w.ana rfl, w.pours rfl, w.dict rfl, w.mbox rfl, w.blobs rfl, w.pow rfl, w.partners rfl⟩

theorem Dev.closeConns_reg (d : Dev) (cause : CloseCause) (f : Conn → Bool) {k_ : Nat} (h_ : ¬ BookKey k_) :
    (d.closeConns cause f).reg k_ = d.reg k_ :=
  Dev.closeConns_booked (.refl d) _ _ k_ h_

@[simp] theorem Dev.connNotice_parts (d : Dev) (k : Nat) (code : Nat) (d2 : Int) :
      (d.connNotice k code d2).mem = d.mem ∧ (d.connNotice k code d2).tl = d.tl ∧
      (d.connNotice k code d2).servo = d.servo ∧ (d.connNotice k code d2).fences = d.fences ∧
      (d.connNotice k code d2).waits = d.waits ∧ (d.connNotice k code d2).banks = d.banks ∧
      (d.connNotice k code d2).flash = d.flash ∧ (d.connNotice k code d2).flashBlobs = d.flashBlobs ∧
      (d.connNotice k code d2).boot = d.boot ∧ (d.connNotice k code d2).analogOut = d.analogOut ∧
      (d.connNotice k code d2).tu = d.tu ∧ (d.connNotice k code d2).slots = d.slots ∧
      (d.connNotice k code d2).encs = d.encs ∧ (d.connNotice k code d2).fus = d.fus ∧
      (d.connNotice k code d2).ten = d.ten ∧ (d.connNotice k code d2).sol = d.sol ∧
      (d.connNotice k code d2).net = d.net ∧ (d.connNotice k code d2).aud = d.aud ∧
      (d.connNotice k code d2).mix = d.mix ∧ (d.connNotice k code d2).ana = d.ana ∧
      (d.connNotice k code d2).virek = d.virek ∧ (d.connNotice k code d2).pours = d.pours ∧
      (d.connNotice k code d2).dict = d.dict ∧ (d.connNotice k code d2).mbox = d.mbox ∧
      (d.connNotice k code d2).blobs = d.blobs ∧ (d.connNotice k code d2).pow = d.pow ∧
      (d.connNotice k code d2).partners = d.partners :=
  have w := Dev.connNotice_within (M := 0) (d := d) rfl (.refl d) _ _ _
  ⟨w.mem rfl, w.tl rfl, w.servo rfl, w.fences rfl, w.waits rfl, w.banks rfl, (w.flash rfl).1, (w.flash rfl).2, w.boot rfl, w.analogOut rfl, w.tu rfl, w.slots rfl, w.encs rfl, w.fus rfl, w.ten rfl, w.sol rfl, w.net rfl, w.aud rfl, w.mix rfl, w.ana rfl, w.virek rfl, w.pours rfl, w.dict rfl, w.mbox rfl, w.blobs rfl, w.pow rfl, w.partners rfl⟩

theorem Dev.connNotice_reg (d : Dev) (k : Nat) (code : Nat) (d2 : Int) {k_ : Nat} (h_ : ¬ BookKey k_) :
    (d.connNotice k code d2).reg k_ = d.reg k_ :=
  Dev.connNotice_booked (.refl d) _ _ _ k_ h_

@[simp] theorem Dev.post_parts (d : Dev) (c : Carrier) (port : Nat) (o : Output) :
      (d.post c port o).mem = d.mem ∧ (d.post c port o).tl = d.tl ∧ (d.post c port o).servo = d.servo ∧
      (d.post c port o).fences = d.fences ∧ (d.post c port o).waits = d.waits ∧ (d.post c port o).banks = d.banks ∧
      (d.post c port o).flash = d.flash ∧ (d.post c port o).flashBlobs = d.flashBlobs ∧
      (d.post c port o).boot = d.boot ∧ (d.post c port o).analogOut = d.analogOut ∧
      (d.post c port o).slots = d.slots ∧ (d.post c port o).encs = d.encs ∧ (d.post c port o).fus = d.fus ∧
      (d.post c port o).ten = d.ten ∧ (d.post c port o).sol = d.sol ∧ (d.post c port o).net = d.net ∧
      (d.post c port o).aud = d.aud ∧ (d.post c port o).mix = d.mix ∧ (d.post c port o).ana = d.ana ∧
      (d.post c port o).virek = d.virek ∧ (d.post c port o).pours = d.pours ∧ (d.post c port o).dict = d.dict ∧
      (d.post c port o).blobs = d.blobs ∧ (d.post c port o).pow = d.pow ∧ (d.post c port o).partners = d.partners :=
  have w := Dev.post_within (M := 4194816) (d := d) rfl (.refl d) _ _ _
  ⟨w.mem rfl, w.tl rfl, w.servo rfl, w.fences rfl, w.waits rfl, w.banks rfl, (w.flash rfl).1, (w.flash rfl).2, w.boot rfl, w.analogOut rfl, w.slots rfl, w.encs rfl, w.fus rfl, w.ten rfl, w.sol rfl, w.net rfl, w.aud rfl, w.mix rfl, w.ana rfl, w.virek rfl, w.pours rfl, w.dict rfl, w.blobs rfl, w.pow rfl, w.partners rfl⟩

theorem Dev.post_reg (d : Dev) (c : Carrier) (port : Nat) (o : Output) {k_ : Nat} (h_ : ¬ BookKey k_) :
    (d.post c port o).reg k_ = d.reg k_ :=
  Dev.post_booked (.refl d) _ _ _ k_ h_

@[simp] theorem Dev.plainAnswer_parts (d : Dev) (hd : Hdr) (a : Ans) :
      (d.plainAnswer hd a).mem = d.mem ∧ (d.plainAnswer hd a).tl = d.tl ∧ (d.plainAnswer hd a).servo = d.servo ∧
      (d.plainAnswer hd a).fences = d.fences ∧ (d.plainAnswer hd a).waits = d.waits ∧
      (d.plainAnswer hd a).banks = d.banks ∧ (d.plainAnswer hd a).flash = d.flash ∧
      (d.plainAnswer hd a).flashBlobs = d.flashBlobs ∧ (d.plainAnswer hd a).boot = d.boot ∧
      (d.plainAnswer hd a).analogOut = d.analogOut ∧ (d.plainAnswer hd a).slots = d.slots ∧
      (d.plainAnswer hd a).encs = d.encs ∧ (d.plainAnswer hd a).fus = d.fus ∧ (d.plainAnswer hd a).ten = d.ten ∧
      (d.plainAnswer hd a).sol = d.sol ∧ (d.plainAnswer hd a).net = d.net ∧ (d.plainAnswer hd a).aud = d.aud ∧
      (d.plainAnswer hd a).mix = d.mix ∧ (d.plainAnswer hd a).ana = d.ana ∧ (d.plainAnswer hd a).virek = d.virek ∧
      (d.plainAnswer hd a).pours = d.pours ∧ (d.plainAnswer hd a).dict = d.dict ∧
      (d.plainAnswer hd a).blobs = d.blobs ∧ (d.plainAnswer hd a).pow = d.pow ∧
      (d.plainAnswer hd a).partners = d.partners :=
  have w := Dev.plainAnswer_within (M := 4194816) (d := d) rfl (.refl d) _ _
  ⟨w.mem rfl, w.tl rfl, w.servo rfl, w.fences rfl, w.waits rfl, w.banks rfl, (w.flash rfl).1, (w.flash rfl).2, w.boot rfl, w.analogOut rfl, w.slots rfl, w.encs rfl, w.fus rfl, w.ten rfl, w.sol rfl, w.net rfl, w.aud rfl, w.mix rfl, w.ana rfl, w.virek rfl, w.pours rfl, w.dict rfl, w.blobs rfl, w.pow rfl, w.partners rfl⟩

theorem Dev.plainAnswer_reg (d : Dev) (hd : Hdr) (a : Ans) {k_ : Nat} (h_ : ¬ BookKey k_) :
    (d.plainAnswer hd a).reg k_ = d.reg k_ :=
  Dev.plainAnswer_booked (.refl d) _ _ k_ h_

@[simp] theorem Dev.endSession_parts (d : Dev) (sid : Nat) (cause : EndCause) :
      (d.endSession sid cause).mem = d.mem ∧ (d.endSession sid cause).tl = d.tl ∧
      (d.endSession sid cause).servo = d.servo ∧ (d.endSession sid cause).fences = d.fences ∧
      (d.endSession sid cause).waits = d.waits ∧ (d.endSession sid cause).banks = d.banks ∧
      (d.endSession sid cause).flash = d.flash ∧ (d.endSession sid cause).flashBlobs = d.flashBlobs ∧
      (d.endSession sid cause).boot = d.boot ∧ (d.endSession sid cause).analogOut = d.analogOut ∧
      (d.endSession sid cause).tu = d.tu ∧ (d.endSession sid cause).slots = d.slots ∧
      (d.endSession sid cause).encs = d.encs ∧ (d.endSession sid cause).fus = d.fus ∧
      (d.endSession sid cause).ten = d.ten ∧ (d.endSession sid cause).sol = d.sol ∧
      (d.endSession sid cause).net = d.net ∧ (d.endSession sid cause).aud = d.aud ∧
      (d.endSession sid cause).mix = d.mix ∧ (d.endSession sid cause).ana = d.ana ∧
      (d.endSession sid cause).virek = d.virek ∧ (d.endSession sid cause).pours = d.pours ∧
      (d.endSession sid cause).mbox = d.mbox ∧ (d.endSession sid cause).blobs = d.blobs ∧
      (d.endSession sid cause).pow = d.pow ∧ (d.endSession sid cause).partners = d.partners :=
  have w := Dev.endSession_within (M := 2097152) (d := d) rfl (.refl d) _ _
  ⟨w.mem rfl, w.tl rfl, w.servo rfl, w.fences rfl, w.waits rfl, w.banks rfl, (w.flash rfl).1, (w.flash rfl).2, w.boot rfl, w.analogOut rfl, w.tu rfl, w.slots rfl, w.encs rfl, w.fus rfl, w.ten rfl, w.sol rfl, w.net rfl, w.aud rfl, w.mix rfl, w.ana rfl, w.virek rfl, w.pours rfl, w.mbox rfl, w.blobs rfl, w.pow rfl, w.partners rfl⟩

theorem Dev.endSession_reg (d : Dev) (sid : Nat) (cause : EndCause) {k_ : Nat} (h_ : ¬ BookKey k_) :
    (d.endSession sid cause).reg k_ = d.reg k_ :=
  Dev.endSession_booked (.refl d) _ _ k_ h_

@[simp] theorem Dev.sessionAnswer_parts (d : Dev) (se : Session) (tag : Nat) (op : Nat) (seg : Nat) (more : Bool) (a : Ans) :
      (d.sessionAnswer se tag op seg more a).mem = d.mem ∧ (d.sessionAnswer se tag op seg more a).tl = d.tl ∧
      (d.sessionAnswer se tag op seg more a).servo = d.servo ∧
      (d.sessionAnswer se tag op seg more a).fences = d.fences ∧
      (d.sessionAnswer se tag op seg more a).waits = d.waits ∧
      (d.sessionAnswer se tag op seg more a).banks = d.banks ∧
      (d.sessionAnswer se tag op seg more a).flash = d.flash ∧
      (d.sessionAnswer se tag op seg more a).flashBlobs = d.flashBlobs ∧
      (d.sessionAnswer se tag op seg more a).boot = d.boot ∧
      (d.sessionAnswer se tag op seg more a).analogOut = d.analogOut ∧
      (d.sessionAnswer se tag op seg more a).slots = d.slots ∧ (d.sessionAnswer se tag op seg more a).encs = d.encs ∧
      (d.sessionAnswer se tag op seg more a).fus = d.fus ∧ (d.sessionAnswer se tag op seg more a).ten = d.ten ∧
      (d.sessionAnswer se tag op seg more a).sol = d.sol ∧ (d.sessionAnswer se tag op seg more a).net = d.net ∧
      (d.sessionAnswer se tag op seg more a).aud = d.aud ∧ (d.sessionAnswer se tag op seg more a).mix = d.mix ∧
      (d.sessionAnswer se tag op seg more a).ana = d.ana ∧ (d.sessionAnswer se tag op seg more a).virek = d.virek ∧
      (d.sessionAnswer se tag op seg more a).pours = d.pours ∧
      (d.sessionAnswer se tag op seg more a).blobs = d.blobs ∧ (d.sessionAnswer se tag op seg more a).pow = d.pow ∧
      (d.sessionAnswer se tag op seg more a).partners = d.partners :=
  have w := Dev.sessionAnswer_within (M := 6291968) (d := d) rfl (.refl d) _ _ _ _ _ _
  ⟨w.mem rfl, w.tl rfl, w.servo rfl, w.fences rfl, w.waits rfl, w.banks rfl, (w.flash rfl).1, (w.flash rfl).2, w.boot rfl, w.analogOut rfl, w.slots rfl, w.encs rfl, w.fus rfl, w.ten rfl, w.sol rfl, w.net rfl, w.aud rfl, w.mix rfl, w.ana rfl, w.virek rfl, w.pours rfl, w.blobs rfl, w.pow rfl, w.partners rfl⟩

theorem Dev.sessionAnswer_reg (d : Dev) (se : Session) (tag : Nat) (op : Nat) (seg : Nat) (more : Bool) (a : Ans) {k_ : Nat} (h_ : ¬ BookKey k_) :
    (d.sessionAnswer se tag op seg more a).reg k_ = d.reg k_ :=
  Dev.sessionAnswer_booked (.refl d) _ _ _ _ _ _ k_ h_

@[simp] theorem Dev.endSessions_parts (d : Dev) (cause : EndCause) (f : Session → Bool) :
      (d.endSessions cause f).mem = d.mem ∧ (d.endSessions cause f).tl = d.tl ∧
      (d.endSessions cause f).servo = d.servo ∧ (d.endSessions cause f).fences = d.fences ∧
      (d.endSessions cause f).waits = d.waits ∧ (d.endSessions cause f).banks = d.banks ∧
      (d.endSessions cause f).flash = d.flash ∧ (d.endSessions cause f).flashBlobs = d.flashBlobs ∧
      (d.endSessions cause f).boot = d.boot ∧ (d.endSessions cause f).analogOut = d.analogOut ∧
      (d.endSessions cause f).tu = d.tu ∧ (d.endSessions cause f).slots = d.slots ∧
      (d.endSessions cause f).encs = d.encs ∧ (d.endSessions cause f).fus = d.fus ∧
      (d.endSessions cause f).ten = d.ten ∧ (d.endSessions cause f).sol = d.sol ∧
      (d.endSessions cause f).net = d.net ∧ (d.endSessions cause f).aud = d.aud ∧
      (d.endSessions cause f).mix = d.mix ∧ (d.endSessions cause f).ana = d.ana ∧
      (d.endSessions cause f).virek = d.virek ∧ (d.endSessions cause f).pours = d.pours ∧
      (d.endSessions cause f).mbox = d.mbox ∧ (d.endSessions cause f).blobs = d.blobs ∧
      (d.endSessions cause f).pow = d.pow ∧ (d.endSessions cause f).partners = d.partners :=
  have w := Dev.endSessions_within (M := 2097152) (d := d) rfl (.refl d) _ _
  ⟨w.mem rfl, w.tl rfl, w.servo rfl, w.fences rfl, w.waits rfl, w.banks rfl, (w.flash rfl).1, (w.flash rfl).2, w.boot rfl, w.analogOut rfl, w.tu rfl, w.slots rfl, w.encs rfl, w.fus rfl, w.ten rfl, w.sol rfl, w.net rfl, w.aud rfl, w.mix rfl, w.ana rfl, w.virek rfl, w.pours rfl, w.mbox rfl, w.blobs rfl, w.pow rfl, w.partners rfl⟩

theorem Dev.endSessions_reg (d : Dev) (cause : EndCause) (f : Session → Bool) {k_ : Nat} (h_ : ¬ BookKey k_) :
    (d.endSessions cause f).reg k_ = d.reg k_ :=
  Dev.endSessions_booked (.refl d) _ _ k_ h_

@[simp] theorem Dev.complete_parts (d : Dev) (sid : Nat) (tag : Nat) (op : Nat) (payload : Bytes) (seq : Nat) (a : Ans) :
      (d.complete sid tag op payload seq a).mem = d.mem ∧ (d.complete sid tag op payload seq a).tl = d.tl ∧
      (d.complete sid tag op payload seq a).servo = d.servo ∧
      (d.complete sid tag op payload seq a).fences = d.fences ∧
      (d.complete sid tag op payload seq a).waits = d.waits ∧ (d.complete sid tag op payload seq a).banks = d.banks ∧
      (d.complete sid tag op payload seq a).flash = d.flash ∧
      (d.complete sid tag op payload seq a).flashBlobs = d.flashBlobs ∧
      (d.complete sid tag op payload seq a).boot = d.boot ∧
      (d.complete sid tag op payload seq a).analogOut = d.analogOut ∧
      (d.complete sid tag op payload seq a).slots = d.slots ∧ (d.complete sid tag op payload seq a).encs = d.encs ∧
      (d.complete sid tag op payload seq a).fus = d.fus ∧ (d.complete sid tag op payload seq a).ten = d.ten ∧
      (d.complete sid tag op payload seq a).sol = d.sol ∧ (d.complete sid tag op payload seq a).net = d.net ∧
      (d.complete sid tag op payload seq a).aud = d.aud ∧ (d.complete sid tag op payload seq a).mix = d.mix ∧
      (d.complete sid tag op payload seq a).ana = d.ana ∧ (d.complete sid tag op payload seq a).virek = d.virek ∧
      (d.complete sid tag op payload seq a).pours = d.pours ∧ (d.complete sid tag op payload seq a).blobs = d.blobs ∧
      (d.complete sid tag op payload seq a).pow = d.pow ∧ (d.complete sid tag op payload seq a).partners = d.partners :=
  have w := Dev.complete_within (M := 6291968) (d := d) rfl (.refl d) _ _ _ _ _ _
  ⟨w.mem rfl, w.tl rfl, w.servo rfl, w.fences rfl, w.waits rfl, w.banks rfl, (w.flash rfl).1, (w.flash rfl).2, w.boot rfl, w.analogOut rfl, w.slots rfl, w.encs rfl, w.fus rfl, w.ten rfl, w.sol rfl, w.net rfl, w.aud rfl, w.mix rfl, w.ana rfl, w.virek rfl, w.pours rfl, w.blobs rfl, w.pow rfl, w.partners rfl⟩

theorem Dev.complete_reg (d : Dev) (sid : Nat) (tag : Nat) (op : Nat) (payload : Bytes) (seq : Nat) (a : Ans) {k_ : Nat} (h_ : ¬ BookKey k_) :
    (d.complete sid tag op payload seq a).reg k_ = d.reg k_ :=
  Dev.complete_booked (.refl d) _ _ _ _ _ _ k_ h_

@[simp] theorem Dev.ighViolation_parts (d : Dev) (hd : Hdr) (status : Nat) :
      (d.ighViolation hd status).mem = d.mem ∧ (d.ighViolation hd status).tl = d.tl ∧
      (d.ighViolation hd status).servo = d.servo ∧ (d.ighViolation hd status).fences = d.fences ∧
      (d.ighViolation hd status).waits = d.waits ∧ (d.ighViolation hd status).banks = d.banks ∧
      (d.ighViolation hd status).flash = d.flash ∧ (d.ighViolation hd status).flashBlobs = d.flashBlobs ∧
      (d.ighViolation hd status).boot = d.boot ∧ (d.ighViolation hd status).analogOut = d.analogOut ∧
      (d.ighViolation hd status).tu = d.tu ∧ (d.ighViolation hd status).slots = d.slots ∧
      (d.ighViolation hd status).encs = d.encs ∧ (d.ighViolation hd status).fus = d.fus ∧
      (d.ighViolation hd status).ten = d.ten ∧ (d.ighViolation hd status).sol = d.sol ∧
      (d.ighViolation hd status).net = d.net ∧ (d.ighViolation hd status).aud = d.aud ∧
      (d.ighViolation hd status).mix = d.mix ∧ (d.ighViolation hd status).ana = d.ana ∧
      (d.ighViolation hd status).virek = d.virek ∧ (d.ighViolation hd status).pours = d.pours ∧
      (d.ighViolation hd status).dict = d.dict ∧ (d.ighViolation hd status).mbox = d.mbox ∧
      (d.ighViolation hd status).blobs = d.blobs ∧ (d.ighViolation hd status).pow = d.pow :=
  have w := Dev.ighViolation_within (M := 33554432) (d := d) rfl (.refl d) _ _
  ⟨w.mem rfl, w.tl rfl, w.servo rfl, w.fences rfl, w.waits rfl, w.banks rfl, (w.flash rfl).1, (w.flash rfl).2, w.boot rfl, w.analogOut rfl, w.tu rfl, w.slots rfl, w.encs rfl, w.fus rfl, w.ten rfl, w.sol rfl, w.net rfl, w.aud rfl, w.mix rfl, w.ana rfl, w.virek rfl, w.pours rfl, w.dict rfl, w.mbox rfl, w.blobs rfl, w.pow rfl⟩

theorem Dev.ighViolation_reg (d : Dev) (hd : Hdr) (status : Nat) {k_ : Nat} (h_ : ¬ BookKey k_) :
    (d.ighViolation hd status).reg k_ = d.reg k_ :=
  Dev.ighViolation_booked (.refl d) _ _ k_ h_

@[simp] theorem Dev.finishWrite_parts (d : Dev) (hd : Hdr) (cond : Option Nat) (idx : Nat) (sub : Nat) (v : Bytes) (se : Session) :
      (d.finishWrite hd cond idx sub v se).mem = d.mem ∧ (d.finishWrite hd cond idx sub v se).tl = d.tl ∧
      (d.finishWrite hd cond idx sub v se).servo = d.servo ∧ (d.finishWrite hd cond idx sub v se).fences = d.fences ∧
      (d.finishWrite hd cond idx sub v se).waits = d.waits ∧ (d.finishWrite hd cond idx sub v se).banks = d.banks ∧
      (d.finishWrite hd cond idx sub v se).flash = d.flash ∧
      (d.finishWrite hd cond idx sub v se).flashBlobs = d.flashBlobs ∧
      (d.finishWrite hd cond idx sub v se).boot = d.boot ∧
      (d.finishWrite hd cond idx sub v se).analogOut = d.analogOut ∧
      (d.finishWrite hd cond idx sub v se).slots = d.slots ∧ (d.finishWrite hd cond idx sub v se).encs = d.encs ∧
      (d.finishWrite hd cond idx sub v se).fus = d.fus ∧ (d.finishWrite hd cond idx sub v se).ten = d.ten ∧
      (d.finishWrite hd cond idx sub v se).sol = d.sol ∧ (d.finishWrite hd cond idx sub v se).net = d.net ∧
      (d.finishWrite hd cond idx sub v se).aud = d.aud ∧ (d.finishWrite hd cond idx sub v se).mix = d.mix ∧
      (d.finishWrite hd cond idx sub v se).ana = d.ana ∧ (d.finishWrite hd cond idx sub v se).virek = d.virek ∧
      (d.finishWrite hd cond idx sub v se).pours = d.pours ∧ (d.finishWrite hd cond idx sub v se).blobs = d.blobs ∧
      (d.finishWrite hd cond idx sub v se).pow = d.pow ∧ (d.finishWrite hd cond idx sub v se).partners = d.partners :=
  have w := Dev.finishWrite_within (M := 6291968) (d := d) rfl (.refl d) _ _ _ _ _ _
  ⟨w.mem rfl, w.tl rfl, w.servo rfl, w.fences rfl, w.waits rfl, w.banks rfl, (w.flash rfl).1, (w.flash rfl).2, w.boot rfl, w.analogOut rfl, w.slots rfl, w.encs rfl, w.fus rfl, w.ten rfl, w.sol rfl, w.net rfl, w.aud rfl, w.mix rfl, w.ana rfl, w.virek rfl, w.pours rfl, w.blobs rfl, w.pow rfl, w.partners rfl⟩

theorem Dev.finishWrite_reg (d : Dev) (hd : Hdr) (cond : Option Nat) (idx : Nat) (sub : Nat) (v : Bytes) (se : Session) {k_ : Nat} (h_ : ¬ BookKey k_) :
    (d.finishWrite hd cond idx sub v se).reg k_ = d.reg k_ :=
  Dev.finishWrite_booked (.refl d) _ _ _ _ _ _ k_ h_

@[simp] theorem Dev.refreshSafe_parts (d : Dev) :
      (d.refreshSafe).mem = d.mem ∧ (d.refreshSafe).tl = d.tl ∧ (d.refreshSafe).servo = d.servo ∧
      (d.refreshSafe).fences = d.fences ∧ (d.refreshSafe).waits = d.waits ∧ (d.refreshSafe).banks = d.banks ∧
      (d.refreshSafe).flash = d.flash ∧ (d.refreshSafe).flashBlobs = d.flashBlobs ∧ (d.refreshSafe).boot = d.boot ∧
      (d.refreshSafe).analogOut = d.analogOut ∧ (d.refreshSafe).tu = d.tu ∧ (d.refreshSafe).slots = d.slots ∧
      (d.refreshSafe).encs = d.encs ∧ (d.refreshSafe).fus = d.fus ∧ (d.refreshSafe).ten = d.ten ∧
      (d.refreshSafe).sol = d.sol ∧ (d.refreshSafe).net = d.net ∧ (d.refreshSafe).aud = d.aud ∧
      (d.refreshSafe).mix = d.mix ∧ (d.refreshSafe).ana = d.ana ∧ (d.refreshSafe).virek = d.virek ∧
      (d.refreshSafe).pours = d.pours ∧ (d.refreshSafe).dict = d.dict ∧ (d.refreshSafe).mbox = d.mbox ∧
      (d.refreshSafe).blobs = d.blobs ∧ (d.refreshSafe).pow = d.pow ∧ (d.refreshSafe).partners = d.partners :=
  have w := Dev.refreshSafe_within (M := 0) (d := d) rfl (.refl d)
  ⟨w.mem rfl, w.tl rfl, w.servo rfl, w.fences rfl, w.waits rfl, w.banks rfl, (w.flash rfl).1, (w.flash rfl).2, w.boot rfl, w.analogOut rfl, w.tu rfl, w.slots rfl, w.encs rfl, w.fus rfl, w.ten rfl, w.sol rfl, w.net rfl, w.aud rfl, w.mix rfl, w.ana rfl, w.virek rfl, w.pours rfl, w.dict rfl, w.mbox rfl, w.blobs rfl, w.pow rfl, w.partners rfl⟩

/-- Driving a pin of the pair changes no register and, of the fields, the pins, the sent list and the safety function. -/
theorem Dev.driveSafe_other (d : Dev) (pin : Nat) (level : Bool) :
    let e := d.driveSafe pin level
    e.regs = d.regs ∧ e.vers = d.vers ∧ e.log = d.log ∧ e.queues = d.queues ∧ e.fresh = d.fresh ∧ e.seqs = d.seqs
      ∧ e.stage = d.stage ∧ e.genReserved = d.genReserved ∧ e.startWindow = d.startWindow ∧ e.latches = d.latches
      ∧ e.phaseLatches = d.phaseLatches ∧ e.csiPend = d.csiPend ∧ e.islCause = d.islCause ∧ e.islAt = d.islAt
      ∧ e.barHandle = d.barHandle ∧ e.barTarget = d.barTarget ∧ e.barLatch = d.barLatch ∧ e.barEra = d.barEra
      ∧ e.handAt = d.handAt := by
  unfold Dev.driveSafe Dev.drivePin
  dsimp only
  refine ⟨?_, ?_, ?_, ?_, ?_, ?_, ?_, ?_, ?_, ?_, ?_, ?_, ?_, ?_, ?_, ?_, ?_, ?_, ?_⟩ <;> (repeat' split) <;> rfl

/-- The device as the pair's pins have been driven, before SafeOutputState follows. -/
def Dev.pairDriven (d : Dev) : Dev :=
  let e := if d.pairOn then d else d.onSafe fun s => { s with pulse := none }
  (e.driveSafe 0 (d.pairOn && e.safe.pulse != some 0)).driveSafe 1 (d.pairOn && e.safe.pulse != some 1)

theorem Dev.refreshSafe_eq (d : Dev) : d.refreshSafe =
    if d.pairDriven.latched then d.pairDriven else d.pairDriven.setB Ob.safeOutputState d.pairOn := rfl

theorem Dev.pairDriven_other (d : Dev) :
    d.pairDriven.regs = d.regs ∧ d.pairDriven.vers = d.vers ∧ d.pairDriven.log = d.log ∧ d.pairDriven.queues = d.queues
      ∧ d.pairDriven.fresh = d.fresh ∧ d.pairDriven.seqs = d.seqs ∧ d.pairDriven.stage = d.stage
      ∧ d.pairDriven.genReserved = d.genReserved ∧ d.pairDriven.startWindow = d.startWindow
      ∧ d.pairDriven.latches = d.latches ∧ d.pairDriven.phaseLatches = d.phaseLatches
      ∧ d.pairDriven.csiPend = d.csiPend ∧ d.pairDriven.islCause = d.islCause ∧ d.pairDriven.islAt = d.islAt
      ∧ d.pairDriven.barHandle = d.barHandle ∧ d.pairDriven.barTarget = d.barTarget
      ∧ d.pairDriven.barLatch = d.barLatch ∧ d.pairDriven.barEra = d.barEra ∧ d.pairDriven.handAt = d.handAt := by
  unfold Dev.pairDriven
  dsimp only
  simp only [Dev.driveSafe_other]
  split <;> simp

/-- The SAFE pair's logic writes one register, SafeOutputState. -/
theorem Dev.refreshSafe_reg (d : Dev) {k : Nat} (h : k ≠ Ob.safeOutputState) : d.refreshSafe.reg k = d.reg k := by
  have r : d.pairDriven.reg k = d.reg k := by unfold Dev.reg; rw [d.pairDriven_other.1]
  rw [Dev.refreshSafe_eq]
  split
  · exact r
  · rw [Dev.reg_setB, if_neg h, r]

/-- The SAFE pair's logic moves the pair's two pins alone among the pins, and of the safety function the pulse and the edges. -/
@[simp] theorem Dev.refreshSafe_other (d : Dev) :
    d.refreshSafe.vers = d.vers ∧ d.refreshSafe.log = d.log ∧ d.refreshSafe.queues = d.queues
      ∧ d.refreshSafe.fresh = d.fresh ∧ d.refreshSafe.seqs = d.seqs ∧ d.refreshSafe.stage = d.stage
      ∧ d.refreshSafe.genReserved = d.genReserved ∧ d.refreshSafe.startWindow = d.startWindow
      ∧ d.refreshSafe.latches = d.latches ∧ d.refreshSafe.phaseLatches = d.phaseLatches
      ∧ d.refreshSafe.csiPend = d.csiPend ∧ d.refreshSafe.islCause = d.islCause ∧ d.refreshSafe.islAt = d.islAt
      ∧ d.refreshSafe.barHandle = d.barHandle ∧ d.refreshSafe.barTarget = d.barTarget
      ∧ d.refreshSafe.barLatch = d.barLatch ∧ d.refreshSafe.barEra = d.barEra ∧ d.refreshSafe.handAt = d.handAt := by
  rw [Dev.refreshSafe_eq]
  split <;> simp [Dev.pairDriven_other d]

/-- Counting the changes of subscribed objects moves the books alone. -/
@[simp] theorem Dev.observe_fields (d0 d : Dev) :
    (d0.observe d).regs = d.regs ∧ (d0.observe d).blobs = d.blobs ∧ (d0.observe d).vers = d.vers ∧
      (d0.observe d).flash = d.flash ∧ (d0.observe d).flashBlobs = d.flashBlobs ∧ (d0.observe d).mem = d.mem ∧
      (d0.observe d).out = d.out ∧ (d0.observe d).fresh = d.fresh ∧ (d0.observe d).log = d.log ∧
      (d0.observe d).partners = d.partners ∧ (d0.observe d).tl = d.tl ∧ (d0.observe d).servo = d.servo ∧
      (d0.observe d).fences = d.fences ∧ (d0.observe d).waits = d.waits ∧ (d0.observe d).dict = d.dict ∧
      (d0.observe d).mbox = d.mbox ∧ (d0.observe d).queues = d.queues ∧ (d0.observe d).genReserved = d.genReserved ∧
      (d0.observe d).handAt = d.handAt ∧ (d0.observe d).startWindow = d.startWindow ∧
      (d0.observe d).latches = d.latches ∧ (d0.observe d).phaseLatches = d.phaseLatches ∧
      (d0.observe d).seqs = d.seqs ∧ (d0.observe d).barHandle = d.barHandle ∧
      (d0.observe d).barTarget = d.barTarget ∧ (d0.observe d).barLatch = d.barLatch ∧
      (d0.observe d).barEra = d.barEra ∧ (d0.observe d).pins = d.pins ∧ (d0.observe d).boot = d.boot ∧
      (d0.observe d).banks = d.banks ∧ (d0.observe d).tu = d.tu ∧ (d0.observe d).analogOut = d.analogOut ∧
      (d0.observe d).slots = d.slots ∧ (d0.observe d).encs = d.encs ∧ (d0.observe d).stage = d.stage ∧
      (d0.observe d).csiPend = d.csiPend ∧ (d0.observe d).fus = d.fus ∧ (d0.observe d).ten = d.ten ∧
      (d0.observe d).safe = d.safe ∧ (d0.observe d).sol = d.sol ∧ (d0.observe d).net = d.net ∧
      (d0.observe d).aud = d.aud ∧ (d0.observe d).mix = d.mix ∧ (d0.observe d).ana = d.ana ∧
      (d0.observe d).virek = d.virek ∧ (d0.observe d).islCause = d.islCause ∧ (d0.observe d).islAt = d.islAt ∧
      (d0.observe d).pours = d.pours ∧ (d0.observe d).pow = d.pow :=
  ⟨rfl, rfl, rfl, rfl, rfl, rfl, rfl, rfl, rfl, rfl, rfl, rfl, rfl, rfl, rfl, rfl, rfl, rfl, rfl, rfl, rfl, rfl, rfl, rfl, rfl, rfl, rfl, rfl, rfl, rfl, rfl, rfl, rfl, rfl, rfl, rfl, rfl, rfl, rfl, rfl, rfl, rfl, rfl, rfl, rfl, rfl, rfl, rfl, rfl⟩

theorem Dev.observe_eq (d0 d : Dev) : { d0.observe d with books := d.books } = d := rfl

@[simp] theorem Dev.observe_reg (d0 d : Dev) (k : Nat) : (d0.observe d).reg k = d.reg k := rfl

/-- What follows every command writes one register, SafeOutputState. -/
theorem Dev.settle_reg (d0 d : Dev) {k : Nat} (h : k ≠ Ob.safeOutputState) : (d0.settle d).reg k = d.reg k :=
  d.refreshSafe_reg h

/-- A command that is a change of the device answers the changed device, settled. -/
theorem Runs.of_onDev {i : Instr} {s : State} {P : Dev → Prop} {f : Dev → Dev} (h : exec i s = onDev f s)
    (k : P (s.dev.settle (f s.dev))) : Runs i s P := ⟨_, h, rfl, k⟩

end Sys2Proof.Machine
end

