-- ==== Sys2Proof/Laws/Service.lean ====
section
/-! SUPPORT. When a request is admitted and a write passes its checks (04_dictionary Table 2), step by step. -/
namespace Sys2Proof.Machine

/-- The device once a request of session `se` has been admitted. -/
def Dev.admitted (d : Dev) (hd : Hdr) (se : Session) : Dev :=
  ((d.peerActive hd.carrier).onSession se.id fun s => { s with ethPort := hd.ethPort }).onSession se.id fun s =>
    s.accept d.ext hd.seq

/-- What notes a partner's activity keeps the instant, the start window and the cached answers that still count. -/
theorem Dev.peerActive_keeps (d : Dev) (c : Carrier) :
    (d.peerActive c).ext = d.ext ∧ (d.peerActive c).startWindow = d.startWindow
      ∧ ∀ l, (d.peerActive c).freshCache l = d.freshCache l := by
  unfold Dev.peerActive
  repeat' split
  all_goals exact ⟨rfl, rfl, fun _ => rfl⟩

/-- A request passes steps 1 to 5 of Table 2 when each of them lets it. -/
theorem Dev.admission_pass {d : Dev} {hd : Hdr} {op : Nat} {payload : Bytes} {se : Session}
    (h₁ : d.preCheck hd op payload = none) (h₂ : d.session hd.session = some se) (h₃ : se.carrier = hd.carrier)
    (h₄ : macOk se hd payload = true) (h₅ : se.freshSeq hd.seq = true)
    (h₆ : hd.seq < 4294967295) (h₇ : (d.freshCache se.cache).find? (fun c => c.tag == hd.tag) = none)
    (h₈ : se.outst.find? (fun o => o.tag == hd.tag) = none) (h₉ : se.outst.length < 16)
    (h₁₀ : d.inStartWindow = false) :
    d.admission hd op payload false = .go (d.admitted hd se) { se with ethPort := hd.ethPort } := by
  have k₃ : (se.carrier ≠ hd.carrier) = False := by simp [h₃]
  have k₅ : { se with ethPort := hd.ethPort }.freshSeq hd.seq = true := h₅
  have k₆ : ¬ hd.seq ≥ 4294967295 := by omega
  have k₉ : ¬ se.outst.length ≥ 16 := by omega
  obtain ⟨w₁, w₂, w₃⟩ := d.peerActive_keeps hd.carrier
  unfold Dev.admission Dev.admitted
  generalize d.peerActive hd.carrier = p at w₁ w₂ w₃
  have k₁₀ : ∀ f g, ((p.onSession se.id f).onSession se.id g).startWindow = false := fun _ _ => w₂.trans h₁₀
  have k₇ : ∀ f, ((p.onSession se.id f).freshCache se.cache).find? (fun c => c.tag == hd.tag) = none := fun f => by
    have h : (p.onSession se.id f).freshCache se.cache = p.freshCache se.cache := rfl
    rw [h, w₃, h₇]
  have k₁₁ : ∀ f, (p.onSession se.id f).ext = d.ext := fun _ => w₁
  simp only [h₁, h₂, k₃, h₄, k₅, h₈, k₆, k₇, k₉, k₁₀, k₁₁, Bool.not_true, Bool.false_eq_true, if_false,
    Bool.false_and, decide_false, Bool.or_self, Dev.inStartWindow, Dev.countStart]

/-- A further segment under its tag passes steps 1 to 5 of Table 2 without the checks on its tag. -/
theorem Dev.admission_pass_more {d : Dev} {hd : Hdr} {op : Nat} {payload : Bytes} {se : Session}
    (h₁ : d.preCheck hd op payload = none) (h₂ : d.session hd.session = some se) (h₃ : se.carrier = hd.carrier)
    (h₄ : macOk se hd payload = true) (h₅ : se.freshSeq hd.seq = true) (h₆ : hd.seq < 4294967295) :
    d.admission hd op payload true = .go (d.admitted hd se) { se with ethPort := hd.ethPort } := by
  have k₃ : (se.carrier ≠ hd.carrier) = False := by simp [h₃]
  have k₅ : { se with ethPort := hd.ethPort }.freshSeq hd.seq = true := h₅
  have k₆ : ¬ hd.seq ≥ 4294967295 := by omega
  obtain ⟨w₁, -, -⟩ := d.peerActive_keeps hd.carrier
  unfold Dev.admission Dev.admitted
  generalize d.peerActive hd.carrier = p at w₁
  have k₁₁ : ∀ f, (p.onSession se.id f).ext = d.ext := fun _ => w₁
  simp only [h₁, h₂, k₃, h₄, k₅, k₆, k₁₁, Bool.not_true, Bool.false_eq_true, if_false, if_true]

/-- A write passes when its request is admitted and no later step of Table 2 refuses it. -/
theorem Dev.writeGate_passes {d e : Dev} {c : Conds} {hd : Hdr} {cond : Option Nat} {idx sub : Nat} {v : Bytes} {se : Session}
    {r : ObjRow} (h₁ : d.admission hd Op.write (writePayload idx sub cond v) false = .go e se)
    (h₂ : e.objFault se idx sub true (c.fence e se) = none) (h₃ : objRow idx sub = some r)
    (h₄ : firstFault [valueFault r (idx * 256 + sub) v, c.range e se (r.masked (decodeTy r.ty v)),
      e.lateFault se r (idx * 256 + sub) cond,
      (if e.unprovisioned (idx * 256 + sub) then some { status := Sc.stateRefused } else none),
      c.state e se (r.masked (decodeTy r.ty v)), e.islandFault idx, (if r.rwp then e.commitFault else none)] = none) :
    d.writeGate c hd cond idx sub v = .pass e se (r.masked (decodeTy r.ty v)) := by
  unfold Dev.writeGate
  simp only [h₁, h₂, h₃, h₄]

end Sys2Proof.Machine
end

