-- ==== Sys2Proof/Laws/WriteFrame.lean ====
section
/-! SUPPORT. What the operations of Machine/Write.lean leave alone. -/
namespace Sys2Proof.Machine

/-- What an action leaves alone. -/
structure Act.Keeps (M : Nat) (a : Act) : Prop where
  eff : ∀ se n d, Within M d (a.eff se n d)
  post : ∀ n d, Within M d (a.post n d)
  refused : ∀ se r d, Within M d (a.refused se r d)

theorem Act.store_keeps {M : Nat} {k : Nat} {c : Conds} {eff : Session → Int → Dev → Dev} (h : ∀ se n d, Within M d (eff se n d)) :
    (Act.store k c eff).Keeps M :=
  ⟨fun se n d => (Dev.set_within (.refl d) (d.resolve se.id k) n).trans (h se n (d.set (d.resolve se.id k) n)), fun _ _ => .refl _, fun _ _ _ => .refl _⟩

theorem Act.act_keeps {M : Nat} {c : Conds} {eff : Session → Int → Dev → Dev} (h : ∀ se n d, Within M d (eff se n d)) :
    (Act.act c eff).Keeps M := ⟨h, fun _ _ => .refl _, fun _ _ _ => .refl _⟩

/-- What an action, where there is one, leaves alone. -/
def OptKeeps (M : Nat) (o : Option Act) : Prop := ∀ a, o = some a → a.Keeps M

theorem OptKeeps.none {M : Nat} : OptKeeps M none := fun _ h => by cases h

theorem OptKeeps.some {M : Nat} {a : Act} (h : a.Keeps M) : OptKeeps M (some a) := fun _ k => Option.some.inj k ▸ h

theorem OptKeeps.ite {M : Nat} {c : Prop} [Decidable c] {x y : Option Act} (hx : OptKeeps M x) (hy : OptKeeps M y) :
    OptKeeps M (if c then x else y) := by split <;> assumption

theorem OptKeeps.or {M N : Nat} {x y : Option Act} (hx : OptKeeps N x) (hM : Sub N M) (hy : OptKeeps M y) :
    OptKeeps M (x <|> y) := by
  cases x with
  | none => exact hy
  | some a => exact OptKeeps.some ⟨fun _ _ _ => ((hx a rfl).eff _ _ _).mono hM, fun _ _ => ((hx a rfl).post _ _).mono hM,
      fun _ _ _ => ((hx a rfl).refused _ _ _).mono hM⟩

theorem actTimeline_keeps {idx sub : Nat} : OptKeeps 518 (actTimeline idx sub) := by
  unfold actTimeline
  repeat' first | with_reducible refine OptKeeps.ite ?_ ?_ | refine OptKeeps.some ?_ | with_reducible exact OptKeeps.none | extract_lets
  all_goals
    first
    | (with_reducible apply Act.store_keeps; intro se n d
       repeat' first | (with_reducible first | exact .refl _ | apply Dev.acceptOffset_within | apply Dev.beginSlew_within | apply Dev.onServo_within | apply Dev.rebound_within | apply Dev.setSource_within | apply Dev.toServo_within | apply Within.ite | split) | extract_lets | exact rfl)
    | (with_reducible apply Act.act_keeps; intro se n d
       repeat' first | (with_reducible first | exact .refl _ | apply Dev.acceptOffset_within | apply Dev.beginSlew_within | apply Dev.onServo_within | apply Dev.rebound_within | apply Dev.setSource_within | apply Dev.toServo_within | apply Within.ite | split) | extract_lets | exact rfl)
    | (constructor
       · intro se n d
         repeat' first | (with_reducible first | exact .refl _ | apply Dev.acceptOffset_within | apply Dev.beginSlew_within | apply Dev.onServo_within | apply Dev.rebound_within | apply Dev.setSource_within | apply Dev.toServo_within | apply Within.ite | split) | extract_lets | exact rfl
       · intro n d
         repeat' first | (with_reducible first | exact .refl _ | apply Dev.acceptOffset_within | apply Dev.beginSlew_within | apply Dev.onServo_within | apply Dev.rebound_within | apply Dev.setSource_within | apply Dev.toServo_within | apply Within.ite | split) | extract_lets | exact rfl
       · intro se r d
         repeat' first | (with_reducible first | exact .refl _ | apply Dev.acceptOffset_within | apply Dev.beginSlew_within | apply Dev.onServo_within | apply Dev.rebound_within | apply Dev.setSource_within | apply Dev.toServo_within | apply Within.ite | split) | extract_lets | exact rfl)

theorem actFence_keeps {idx sub : Nat} {v : Bytes} : OptKeeps 25 (actFence idx sub v) := by
  unfold actFence
  repeat' first | with_reducible refine OptKeeps.ite ?_ ?_ | refine OptKeeps.some ?_ | with_reducible exact OptKeeps.none | extract_lets
  all_goals
    first
    | (with_reducible apply Act.store_keeps; intro se n d
       repeat' first | (with_reducible first | exact .refl _ | apply Dev.armWait_within | apply Dev.event_within | apply Dev.fenceAdd_within | apply Dev.fenceDeadline_within | apply Dev.fenceReset_within | apply Dev.fenceSignal_within | apply Dev.setN_within | (apply Within.when ?_ (fun d => ?_)) | apply Within.ite | split) | extract_lets | with_reducible apply Within.waits_set | exact rfl)
    | (with_reducible apply Act.act_keeps; intro se n d
       repeat' first | (with_reducible first | exact .refl _ | apply Dev.armWait_within | apply Dev.event_within | apply Dev.fenceAdd_within | apply Dev.fenceDeadline_within | apply Dev.fenceReset_within | apply Dev.fenceSignal_within | apply Dev.setN_within | (apply Within.when ?_ (fun d => ?_)) | apply Within.ite | split) | extract_lets | with_reducible apply Within.waits_set | exact rfl)
    | (constructor
       · intro se n d
         repeat' first | (with_reducible first | exact .refl _ | apply Dev.armWait_within | apply Dev.event_within | apply Dev.fenceAdd_within | apply Dev.fenceDeadline_within | apply Dev.fenceReset_within | apply Dev.fenceSignal_within | apply Dev.setN_within | (apply Within.when ?_ (fun d => ?_)) | apply Within.ite | split) | extract_lets | with_reducible apply Within.waits_set | exact rfl
       · intro n d
         repeat' first | (with_reducible first | exact .refl _ | apply Dev.armWait_within | apply Dev.event_within | apply Dev.fenceAdd_within | apply Dev.fenceDeadline_within | apply Dev.fenceReset_within | apply Dev.fenceSignal_within | apply Dev.setN_within | (apply Within.when ?_ (fun d => ?_)) | apply Within.ite | split) | extract_lets | with_reducible apply Within.waits_set | exact rfl
       · intro se r d
         repeat' first | (with_reducible first | exact .refl _ | apply Dev.armWait_within | apply Dev.event_within | apply Dev.fenceAdd_within | apply Dev.fenceDeadline_within | apply Dev.fenceReset_within | apply Dev.fenceSignal_within | apply Dev.setN_within | (apply Within.when ?_ (fun d => ?_)) | apply Within.ite | split) | extract_lets | with_reducible apply Within.waits_set | exact rfl)

theorem actTiming_keeps {idx sub : Nat} : OptKeeps 512 (actTiming idx sub) := by
  unfold actTiming
  repeat' first | with_reducible refine OptKeeps.ite ?_ ?_ | refine OptKeeps.some ?_ | with_reducible exact OptKeeps.none | extract_lets
  all_goals
    first
    | (with_reducible apply Act.store_keeps; intro se n d
       repeat' first | (with_reducible first | exact .refl _ | apply Dev.loopWritten_within | apply Dev.offsetWord_within | apply Dev.pulseStarts_within | apply Dev.pulseStops_within | apply Dev.refEnabled_within | apply Dev.reselect_within | apply Dev.retrain_within | apply Within.ite | split) | extract_lets | exact rfl)
    | (with_reducible apply Act.act_keeps; intro se n d
       repeat' first | (with_reducible first | exact .refl _ | apply Dev.loopWritten_within | apply Dev.offsetWord_within | apply Dev.pulseStarts_within | apply Dev.pulseStops_within | apply Dev.refEnabled_within | apply Dev.reselect_within | apply Dev.retrain_within | apply Within.ite | split) | extract_lets | exact rfl)
    | (constructor
       · intro se n d
         repeat' first | (with_reducible first | exact .refl _ | apply Dev.loopWritten_within | apply Dev.offsetWord_within | apply Dev.pulseStarts_within | apply Dev.pulseStops_within | apply Dev.refEnabled_within | apply Dev.reselect_within | apply Dev.retrain_within | apply Within.ite | split) | extract_lets | exact rfl
       · intro n d
         repeat' first | (with_reducible first | exact .refl _ | apply Dev.loopWritten_within | apply Dev.offsetWord_within | apply Dev.pulseStarts_within | apply Dev.pulseStops_within | apply Dev.refEnabled_within | apply Dev.reselect_within | apply Dev.retrain_within | apply Within.ite | split) | extract_lets | exact rfl
       · intro se r d
         repeat' first | (with_reducible first | exact .refl _ | apply Dev.loopWritten_within | apply Dev.offsetWord_within | apply Dev.pulseStarts_within | apply Dev.pulseStops_within | apply Dev.refEnabled_within | apply Dev.reselect_within | apply Dev.retrain_within | apply Within.ite | split) | extract_lets | exact rfl)

theorem actPour_keeps {idx sub : Nat} : OptKeeps 9437248 (actPour idx sub) := by
  unfold actPour
  repeat' first | with_reducible refine OptKeeps.ite ?_ ?_ | refine OptKeeps.some ?_ | with_reducible exact OptKeeps.none | extract_lets
  all_goals
    first
    | (with_reducible apply Act.store_keeps; intro se n d
       repeat' first | (with_reducible first | exact .refl _ | apply Dev.bump_within | apply Dev.endPour_within | apply Dev.eraseScene_within | apply Within.ite | split) | extract_lets | exact rfl)
    | (with_reducible apply Act.act_keeps; intro se n d
       repeat' first | (with_reducible first | exact .refl _ | apply Dev.bump_within | apply Dev.endPour_within | apply Dev.eraseScene_within | apply Within.ite | split) | extract_lets | exact rfl)
    | (constructor
       · intro se n d
         repeat' first | (with_reducible first | exact .refl _ | apply Dev.bump_within | apply Dev.endPour_within | apply Dev.eraseScene_within | apply Within.ite | split) | extract_lets | exact rfl
       · intro n d
         repeat' first | (with_reducible first | exact .refl _ | apply Dev.bump_within | apply Dev.endPour_within | apply Dev.eraseScene_within | apply Within.ite | split) | extract_lets | exact rfl
       · intro se r d
         repeat' first | (with_reducible first | exact .refl _ | apply Dev.bump_within | apply Dev.endPour_within | apply Dev.eraseScene_within | apply Within.ite | split) | extract_lets | exact rfl)

theorem actUnits_keeps {idx sub : Nat} : OptKeeps 16818432 (actUnits idx sub) := by
  unfold actUnits
  repeat' first | with_reducible refine OptKeeps.ite ?_ ?_ | refine OptKeeps.some ?_ | with_reducible exact OptKeeps.none | extract_lets
  all_goals
    first
    | (with_reducible apply Act.store_keeps; intro se n d
       repeat' first | (with_reducible first | exact .refl _ | apply Dev.beginInjection_within | apply Dev.chanTo_within | apply Dev.channelEnabled_within | apply Dev.event_within | apply Dev.moveClass_within | apply Dev.onCls_within | apply Dev.onModel_within | apply Dev.refreshChannels_within | apply Dev.refreshSafe_within | apply Dev.set_within | apply Dev.startLoad_within | apply Within.ite | split) | extract_lets | exact rfl)
    | (with_reducible apply Act.act_keeps; intro se n d
       repeat' first | (with_reducible first | exact .refl _ | apply Dev.beginInjection_within | apply Dev.chanTo_within | apply Dev.channelEnabled_within | apply Dev.event_within | apply Dev.moveClass_within | apply Dev.onCls_within | apply Dev.onModel_within | apply Dev.refreshChannels_within | apply Dev.refreshSafe_within | apply Dev.set_within | apply Dev.startLoad_within | apply Within.ite | split) | extract_lets | exact rfl)
    | (constructor
       · intro se n d
         repeat' first | (with_reducible first | exact .refl _ | apply Dev.beginInjection_within | apply Dev.chanTo_within | apply Dev.channelEnabled_within | apply Dev.event_within | apply Dev.moveClass_within | apply Dev.onCls_within | apply Dev.onModel_within | apply Dev.refreshChannels_within | apply Dev.refreshSafe_within | apply Dev.set_within | apply Dev.startLoad_within | apply Within.ite | split) | extract_lets | exact rfl
       · intro n d
         repeat' first | (with_reducible first | exact .refl _ | apply Dev.beginInjection_within | apply Dev.chanTo_within | apply Dev.channelEnabled_within | apply Dev.event_within | apply Dev.moveClass_within | apply Dev.onCls_within | apply Dev.onModel_within | apply Dev.refreshChannels_within | apply Dev.refreshSafe_within | apply Dev.set_within | apply Dev.startLoad_within | apply Within.ite | split) | extract_lets | exact rfl
       · intro se r d
         repeat' first | (with_reducible first | exact .refl _ | apply Dev.beginInjection_within | apply Dev.chanTo_within | apply Dev.channelEnabled_within | apply Dev.event_within | apply Dev.moveClass_within | apply Dev.onCls_within | apply Dev.onModel_within | apply Dev.refreshChannels_within | apply Dev.refreshSafe_within | apply Dev.set_within | apply Dev.startLoad_within | apply Within.ite | split) | extract_lets | exact rfl)

theorem actOutputs_keeps {idx sub : Nat} : OptKeeps 459520 (actOutputs idx sub) := by
  unfold actOutputs
  repeat' first | with_reducible refine OptKeeps.ite ?_ ?_ | refine OptKeeps.some ?_ | with_reducible exact OptKeeps.none | extract_lets
  all_goals
    first
    | (with_reducible apply Act.store_keeps; intro se n d
       repeat' first | (with_reducible first | exact .refl _ | apply Dev.anaStops_within | apply Dev.outputStarts_within | apply Dev.outputStops_within | apply Dev.play_within | apply Dev.portEnabled_within | apply Dev.set_within | apply Dev.startChannel_within | apply Dev.stopVoice_within | apply Within.ite | split) | extract_lets | exact rfl)
    | (with_reducible apply Act.act_keeps; intro se n d
       repeat' first | (with_reducible first | exact .refl _ | apply Dev.anaStops_within | apply Dev.outputStarts_within | apply Dev.outputStops_within | apply Dev.play_within | apply Dev.portEnabled_within | apply Dev.set_within | apply Dev.startChannel_within | apply Dev.stopVoice_within | apply Within.ite | split) | extract_lets | exact rfl)
    | (constructor
       · intro se n d
         repeat' first | (with_reducible first | exact .refl _ | apply Dev.anaStops_within | apply Dev.outputStarts_within | apply Dev.outputStops_within | apply Dev.play_within | apply Dev.portEnabled_within | apply Dev.set_within | apply Dev.startChannel_within | apply Dev.stopVoice_within | apply Within.ite | split) | extract_lets | exact rfl
       · intro n d
         repeat' first | (with_reducible first | exact .refl _ | apply Dev.anaStops_within | apply Dev.outputStarts_within | apply Dev.outputStops_within | apply Dev.play_within | apply Dev.portEnabled_within | apply Dev.set_within | apply Dev.startChannel_within | apply Dev.stopVoice_within | apply Within.ite | split) | extract_lets | exact rfl
       · intro se r d
         repeat' first | (with_reducible first | exact .refl _ | apply Dev.anaStops_within | apply Dev.outputStarts_within | apply Dev.outputStops_within | apply Dev.play_within | apply Dev.portEnabled_within | apply Dev.set_within | apply Dev.startChannel_within | apply Dev.stopVoice_within | apply Within.ite | split) | extract_lets | exact rfl)

theorem actHosts_keeps {idx sub : Nat} : OptKeeps 34112000 (actHosts idx sub) := by
  unfold actHosts
  repeat' first | with_reducible refine OptKeeps.ite ?_ ?_ | refine OptKeeps.some ?_ | with_reducible exact OptKeeps.none | extract_lets
  all_goals
    first
    | (with_reducible apply Act.store_keeps; intro se n d
       repeat' first | (with_reducible first | exact .refl _ | apply Dev.connClosed_within | apply Dev.logCleared_within | apply Dev.mirrorCleared_within | apply Dev.queueOff_within | apply Dev.queueOn_within | apply Dev.release_within | apply Dev.windowRegistered_within | apply Dev.windowRevoked_within | apply Within.ite | split) | extract_lets | exact rfl)
    | (with_reducible apply Act.act_keeps; intro se n d
       repeat' first | (with_reducible first | exact .refl _ | apply Dev.connClosed_within | apply Dev.logCleared_within | apply Dev.mirrorCleared_within | apply Dev.queueOff_within | apply Dev.queueOn_within | apply Dev.release_within | apply Dev.windowRegistered_within | apply Dev.windowRevoked_within | apply Within.ite | split) | extract_lets | exact rfl)
    | (constructor
       · intro se n d
         repeat' first | (with_reducible first | exact .refl _ | apply Dev.connClosed_within | apply Dev.logCleared_within | apply Dev.mirrorCleared_within | apply Dev.queueOff_within | apply Dev.queueOn_within | apply Dev.release_within | apply Dev.windowRegistered_within | apply Dev.windowRevoked_within | apply Within.ite | split) | extract_lets | exact rfl
       · intro n d
         repeat' first | (with_reducible first | exact .refl _ | apply Dev.connClosed_within | apply Dev.logCleared_within | apply Dev.mirrorCleared_within | apply Dev.queueOff_within | apply Dev.queueOn_within | apply Dev.release_within | apply Dev.windowRegistered_within | apply Dev.windowRevoked_within | apply Within.ite | split) | extract_lets | exact rfl
       · intro se r d
         repeat' first | (with_reducible first | exact .refl _ | apply Dev.connClosed_within | apply Dev.logCleared_within | apply Dev.mirrorCleared_within | apply Dev.queueOff_within | apply Dev.queueOn_within | apply Dev.release_within | apply Dev.windowRegistered_within | apply Dev.windowRevoked_within | apply Within.ite | split) | extract_lets | exact rfl)

theorem actDevice_keeps {idx sub : Nat} : OptKeeps 67108863 (actDevice idx sub) := by
  unfold actDevice
  repeat' first | with_reducible refine OptKeeps.ite ?_ ?_ | refine OptKeeps.some ?_ | with_reducible exact OptKeeps.none | extract_lets
  all_goals
    first
    | (with_reducible apply Act.store_keeps; intro se n d
       repeat' first | (with_reducible first | exact .refl _ | apply Dev.abortUpdate_within | apply Dev.activateLive_within | apply Dev.commitTrial_within | apply Dev.endSessions_within | apply Dev.holdIsland_within | apply Dev.markTrial_within | apply Dev.offsetWritten_within | apply Dev.onBoot_within | apply Dev.plainRestart_within | apply Dev.powerCheck_within | apply Dev.resetIsland_within | apply Dev.restartCan_within | apply Dev.revokeSlot_within | apply Dev.set_within | apply Dev.updateWrite_within | apply Dev.verifyUpdate_within | apply Within.ite | split) | extract_lets | with_reducible apply Within.dict_set | exact rfl)
    | (with_reducible apply Act.act_keeps; intro se n d
       repeat' first | (with_reducible first | exact .refl _ | apply Dev.abortUpdate_within | apply Dev.activateLive_within | apply Dev.commitTrial_within | apply Dev.endSessions_within | apply Dev.holdIsland_within | apply Dev.markTrial_within | apply Dev.offsetWritten_within | apply Dev.onBoot_within | apply Dev.plainRestart_within | apply Dev.powerCheck_within | apply Dev.resetIsland_within | apply Dev.restartCan_within | apply Dev.revokeSlot_within | apply Dev.set_within | apply Dev.updateWrite_within | apply Dev.verifyUpdate_within | apply Within.ite | split) | extract_lets | with_reducible apply Within.dict_set | exact rfl)
    | (constructor
       · intro se n d
         repeat' first | (with_reducible first | exact .refl _ | apply Dev.abortUpdate_within | apply Dev.activateLive_within | apply Dev.commitTrial_within | apply Dev.endSessions_within | apply Dev.holdIsland_within | apply Dev.markTrial_within | apply Dev.offsetWritten_within | apply Dev.onBoot_within | apply Dev.plainRestart_within | apply Dev.powerCheck_within | apply Dev.resetIsland_within | apply Dev.restartCan_within | apply Dev.revokeSlot_within | apply Dev.set_within | apply Dev.updateWrite_within | apply Dev.verifyUpdate_within | apply Within.ite | split) | extract_lets | with_reducible apply Within.dict_set | exact rfl
       · intro n d
         repeat' first | (with_reducible first | exact .refl _ | apply Dev.abortUpdate_within | apply Dev.activateLive_within | apply Dev.commitTrial_within | apply Dev.endSessions_within | apply Dev.holdIsland_within | apply Dev.markTrial_within | apply Dev.offsetWritten_within | apply Dev.onBoot_within | apply Dev.plainRestart_within | apply Dev.powerCheck_within | apply Dev.resetIsland_within | apply Dev.restartCan_within | apply Dev.revokeSlot_within | apply Dev.set_within | apply Dev.updateWrite_within | apply Dev.verifyUpdate_within | apply Within.ite | split) | extract_lets | with_reducible apply Within.dict_set | exact rfl
       · intro se r d
         repeat' first | (with_reducible first | exact .refl _ | apply Dev.abortUpdate_within | apply Dev.activateLive_within | apply Dev.commitTrial_within | apply Dev.endSessions_within | apply Dev.holdIsland_within | apply Dev.markTrial_within | apply Dev.offsetWritten_within | apply Dev.onBoot_within | apply Dev.plainRestart_within | apply Dev.powerCheck_within | apply Dev.resetIsland_within | apply Dev.restartCan_within | apply Dev.revokeSlot_within | apply Dev.set_within | apply Dev.updateWrite_within | apply Dev.verifyUpdate_within | apply Within.ite | split) | extract_lets | with_reducible apply Within.dict_set | exact rfl)

theorem actPlain_keeps {idx sub : Nat} : (actPlain idx sub).Keeps 20969222 := by
  refine ⟨?_, fun _ _ => .refl _, fun _ _ _ => .refl _⟩
  intro se n d
  unfold actPlain
  repeat' first | (with_reducible first | exact .refl _ | apply Dev.cancelLost_within | apply Dev.powerCheck_within | apply Dev.set_within | apply Dev.stepped_within | apply Dev.written_within | apply Within.ite) | extract_lets | exact rfl

theorem actOf_keeps {idx sub : Nat} {v : Bytes} : (actOf idx sub v).Keeps 67108863 := by
  have h : OptKeeps 67108863 (actTimeline idx sub <|> actFence idx sub v <|> actTiming idx sub <|> actPour idx sub
      <|> actUnits idx sub <|> actOutputs idx sub <|> actHosts idx sub <|> actDevice idx sub) :=
    .or actTimeline_keeps (by exact rfl) (.or actFence_keeps (by exact rfl) (.or actTiming_keeps (by exact rfl)
      (.or actPour_keeps (by exact rfl) (.or actUnits_keeps (by exact rfl) (.or actOutputs_keeps (by exact rfl)
        (.or actHosts_keeps (by exact rfl) actDevice_keeps))))))
  unfold actOf
  generalize (actTimeline idx sub <|> actFence idx sub v <|> actTiming idx sub <|> actPour idx sub
      <|> actUnits idx sub <|> actOutputs idx sub <|> actHosts idx sub <|> actDevice idx sub) = o at h
  cases o with
  | some a => exact h a rfl
  | none =>
    have p : (actPlain idx sub).Keeps 20969222 := actPlain_keeps
    exact ⟨fun _ _ _ => (p.eff _ _ _).mono (by exact rfl), fun _ _ => (p.post _ _).mono (by exact rfl),
      fun _ _ _ => (p.refused _ _ _).mono (by exact rfl)⟩

theorem execWrite_within {hd : Hdr} {idx sub : Nat} {cond : Option Nat} {v : Bytes} {s t : State}
    (h : execWrite hd idx sub cond v s = .next t) : Within 67108863 s.dev t.dev := by
  unfold execWrite at h
  refine onDev_within h fun d => ?_
  extract_lets
  split
  · exact Dev.writeGate_stop (by exact rfl) (.refl _) (by assumption)
  · have g := Dev.writeGate_pass (M := 67108863) (by exact rfl) (.refl _) (by assumption)
    exact (Dev.finishWrite_within (by exact rfl) (g.trans (actOf_keeps.eff _ _ _)) _ _ _ _ _ _).trans (actOf_keeps.post _ _)

theorem numericObj_keeps {k : Nat} : (numericObj k).Keeps 67108863 := by
  constructor
  · intro se b d
    unfold numericObj
    extract_lets
    apply Within.ite
    · exact Dev.countCommit_within (by exact rfl) (actOf_keeps.eff _ _ _)
    · exact actOf_keeps.eff _ _ _
  · intro se r d
    exact actOf_keeps.refused _ _ _

theorem channelObj_keeps {M : Nat} (hM : Sub 10485760 M) (k : Nat) : (channelObj k).Keeps M := by
  constructor
  · intro se b d
    refine Within.mono (M := 10485760) ?_ hM
    unfold channelObj
    repeat' first | (with_reducible first | assumption | exact .refl _ | apply Dev.countCommit_within | apply Dev.setBlob_within) | extract_lets | dsimp only | exact rfl
  · intro se r d
    exact .refl _

theorem BlockObj.Keeps.mono {M N : Nat} {o : BlockObj} (h : o.Keeps M) (hM : Sub M N) : o.Keeps N :=
  ⟨fun _ _ _ => (h.eff _ _ _).mono hM, fun _ _ _ => (h.refused _ _ _).mono hM⟩

theorem blockObjOf_keeps (k : Nat) : (blockObjOf k).Keeps 67108863 := by
  unfold blockObjOf
  extract_lets
  repeat' split
  · exact keyObj_keeps (by exact rfl) _
  · exact chunkObj_keeps (by exact rfl)
  · exact fieldSetObj_keeps (by exact rfl) _
  · exact structObj_keeps (by exact rfl) _
  · exact bankObj_keeps (by exact rfl) _
  · exact channelObj_keeps (by exact rfl) _
  · exact numericObj_keeps

theorem execWriteBlock_within {hd : Hdr} {payload : Bytes} {s t : State} (h : execWriteBlock hd payload s = .next t) :
    Within 67108863 s.dev t.dev := by
  unfold execWriteBlock at h
  refine onDev_within h fun d => ?_
  extract_lets
  have g : Within 67108863 d (d.endKeyed (d.blockFrame blockObjOf hd payload)) :=
    Dev.endKeyed_within (by exact rfl) (Dev.blockFrame_within (by exact rfl) (fun k => blockObjOf_keeps k) (.refl _) _ _) _
  split
  exact .ite g (g.trans (actOf_keeps.post _ _))

end Sys2Proof.Machine
end

