-- ==== Sys2Proof/Laws/StreamsFrame.lean ====
section
/-! SUPPORT. What the operations of Machine/Streams.lean leave alone. -/
namespace Sys2Proof.Machine

theorem Dev.restoreHosts_within {M : Nat} {d₀ d : Dev} (hM : Sub 0 M) (hW : Within M d₀ d) :
    Within M d₀ (d.restoreHosts) := by
  refine hW.step ?_ hM
  clear hW hM
  unfold Dev.restoreHosts
  repeat' first | (with_reducible first | assumption | exact .refl _ | apply Dev.set_within | apply Dev.setN_within | (apply Within.each ?_ (fun d x => ?_)) | (apply Within.when ?_ (fun d => ?_)) | split) | extract_lets | exact rfl

theorem Dev.restoreQueues_within {M : Nat} {d₀ d : Dev} (hM : Sub 0 M) (hW : Within M d₀ d) :
    Within M d₀ (d.restoreQueues) := by
  refine hW.step ?_ hM
  clear hW hM
  unfold Dev.restoreQueues
  repeat' first | (with_reducible first | assumption | exact .refl _ | apply Dev.event_within | apply Dev.queueOn_within | apply Dev.refreshQ_within | apply Dev.set_within | (apply Within.each ?_ (fun d x => ?_)) | apply Within.ite | split) | extract_lets | exact rfl

theorem Dev.startTiming_within {M : Nat} {d₀ d : Dev} (hM : Sub 518 M) (hW : Within M d₀ d) :
    Within M d₀ (d.startTiming) := by
  refine hW.step ?_ hM
  clear hW hM
  unfold Dev.startTiming
  repeat' first | (with_reducible first | assumption | exact .refl _ | apply Dev.rebound_within | apply Dev.refEnabled_within | apply Dev.reselect_within | apply Dev.setSource_within | (apply Within.each ?_ (fun d x => ?_))) | extract_lets | exact rfl

theorem Dev.startSensors_within {M : Nat} {d₀ d : Dev} (hM : Sub 5120 M) (hW : Within M d₀ d) :
    Within M d₀ (d.startSensors) := by
  refine hW.step ?_ hM
  clear hW hM
  unfold Dev.startSensors
  repeat' first | (with_reducible first | assumption | exact .refl _ | apply Dev.gridWritten_within | apply Dev.poseQueueWritten_within | apply Dev.resamplerWritten_within | apply Dev.slotWritten_within | (apply Within.each ?_ (fun d x => ?_))) | extract_lets | exact rfl

theorem Dev.startUnits_within {M : Nat} {d₀ d : Dev} (hM : Sub 24577 M) (hW : Within M d₀ d) :
    Within M d₀ (d.startUnits) := by
  refine hW.step ?_ hM
  clear hW hM
  unfold Dev.startUnits
  repeat' first | (with_reducible first | assumption | exact .refl _ | apply Dev.loadStruct_within | apply Dev.onModel_within | apply Dev.set_within | apply Dev.startLoad_within | (apply Within.each ?_ (fun d x => ?_)) | (apply Within.when ?_ (fun d => ?_))) | extract_lets | exact rfl

theorem Dev.startSafety_within {M : Nat} {d₀ d : Dev} (hM : Sub 16785408 M) (hW : Within M d₀ d) :
    Within M d₀ (d.startSafety) := by
  refine hW.step ?_ hM
  clear hW hM
  unfold Dev.startSafety
  repeat' first | (with_reducible first | assumption | exact .refl _ | apply Dev.channelEnabled_within | apply Dev.refreshChannels_within | apply Dev.refreshFieldSet_within | (apply Within.each ?_ (fun d x => ?_))) | extract_lets | exact rfl

theorem Dev.startNetwork_within {M : Nat} {d₀ d : Dev} (hM : Sub 32768 M) (hW : Within M d₀ d) :
    Within M d₀ (d.startNetwork) := by
  refine hW.step ?_ hM
  clear hW hM
  unfold Dev.startNetwork
  repeat' first | (with_reducible first | assumption | exact .refl _ | apply Dev.classWritten_within | apply Dev.onNet_within | apply Dev.peerEnabled_within | (apply Within.each ?_ (fun d x => ?_))) | extract_lets | exact rfl

theorem Dev.startSsrc_within {M : Nat} {d₀ d : Dev} (hM : Sub 0 M) (hW : Within M d₀ d) (p : Nat) :
    Within M d₀ (d.startSsrc p) := by
  refine hW.step ?_ hM
  clear hW hM
  unfold Dev.startSsrc
  repeat' first | (with_reducible first | assumption | exact .refl _ | apply Dev.drawn_within | apply Dev.setN_within | apply Within.ite) | exact rfl

theorem Dev.startAudio_within {M : Nat} {d₀ d : Dev} (hM : Sub 459264 M) (hW : Within M d₀ d) :
    Within M d₀ (d.startAudio) := by
  refine hW.step ?_ hM
  clear hW hM
  unfold Dev.startAudio
  repeat' first | (with_reducible first | assumption | exact .refl _ | apply Dev.beaconWritten_within | apply Dev.onAna_within | apply Dev.portOn_within | apply Dev.refreshDac_within | apply Dev.refreshDomains_within | apply Dev.startSsrc_within | apply Dev.toneWritten_within | (apply Within.each ?_ (fun d x => ?_))) | extract_lets | exact rfl

theorem Dev.announce_within {M : Nat} {d₀ d : Dev} (hM : Sub 0 M) (hW : Within M d₀ d) (ctl : Nat) :
    Within M d₀ (d.announce ctl) := by
  refine hW.step ?_ hM
  clear hW hM
  unfold Dev.announce
  repeat' first | (with_reducible first | assumption | exact .refl _ | apply Dev.applyCan_within | apply Dev.send_within | (apply Within.when ?_ (fun d => ?_))) | extract_lets | exact rfl

theorem Dev.declareReady_within {M : Nat} {d₀ d : Dev} (hM : Sub 128 M) (hW : Within M d₀ d) :
    Within M d₀ (d.declareReady) := by
  refine hW.step ?_ hM
  clear hW hM
  unfold Dev.declareReady
  repeat' first | (with_reducible first | assumption | exact .refl _ | apply Dev.onBoot_within | apply Dev.setB_within | apply Dev.setN_within) | extract_lets | with_reducible apply Within.startWindow_set | exact rfl

theorem execServiceReady_within {s t : State} (h : execServiceReady s = .next t) :
    Within 27784903 s.dev t.dev := by
  unfold execServiceReady at h
  refine onDev_within h fun d => ?_
  repeat' first | (with_reducible first | assumption | exact .refl _ | apply Dev.announce_within | apply Dev.declareReady_within | apply Dev.event_within | apply Dev.restoreHosts_within | apply Dev.restorePersisted_within | apply Dev.restoreQueues_within | apply Dev.startAudio_within | apply Dev.startNetwork_within | apply Dev.startSafety_within | apply Dev.startSensors_within | apply Dev.startTiming_within | apply Dev.startUnits_within | apply Dev.toPhase_within | apply Within.ite) | extract_lets | exact rfl

end Sys2Proof.Machine
end

