-- ==== Sys2Proof/WellFormed.lean ====
section
/-! DEFINITION. Well-formed commands: every operand within the width the spec gives its field (04_dictionary Table 3,
15_hosts_queues Table 4, 17_virek Table 1; BAR and port numbers by their types). -/
namespace Sys2Proof

open Machine

/-- `n` fits in `w` bits. -/
def under (w n : Nat) : Bool := decide (n < 2 ^ w)

/-- An optional 16-bit value, as the condition of a WRITE. -/
def opt (w : Nat) : Option Nat → Bool
  | none => true
  | some n => under w n

/-- At most `n` bytes. -/
def atMost (n : Nat) (b : Bytes) : Bool := decide (b.length ≤ n)

/-- At most `n` bytes, where there are any. -/
def optShort (n : Nat) : Option Bytes → Bool
  | none => true
  | some b => atMost n b

/-- Every number fits in `w` bits. -/
def allUnder (w : Nat) (l : List Nat) : Bool := l.all (under w)

/-- `v` is a signed number of `w` bits. -/
def within (w : Nat) (v : Int) : Bool := decide (-(2 ^ (w - 1) : Int) ≤ v) && decide (v < (2 ^ (w - 1) : Int))

/-- Every number is a signed number of `w` bits. -/
def allWithin (w : Nat) (l : List Int) : Bool := l.all (within w)

/-- The sequence and LAN identifier of a PRP trailer. -/
def pair16 : Option (Nat × Nat) → Bool
  | none => true
  | some (a, b) => under 16 a && under 16 b

/-- A carrier's numbers exist: two controllers, 8-bit nodes, four functions (04_dictionary Table 5). -/
def Machine.Carrier.wf : Carrier → Bool
  | .can ctl node => under 1 ctl && under 8 node
  | .udp ip port => under 32 ip && under 16 port
  | .mailbox fn => under 2 fn

/-- An Ighovik frame's fields (04_dictionary Table 3). -/
def Machine.Hdr.wf (h : Hdr) : Bool :=
  h.carrier.wf && under 1 h.ethPort && under 4 h.version && under 8 h.opcode && under 16 h.tag && under 32 h.session
    && under 32 h.seq && under 16 h.len && under 16 h.seg && atMost 8 h.mac

/-- What a handover found names a byte of DRAM. -/
def Machine.Found.wf (f : Found) : Bool := under 40 f.eccAddr && under 32 f.eccCorrected

/-- An item record's fields (15_hosts_queues Table 4). -/
def Machine.Item.wf (i : Item) : Bool :=
  under 48 i.subject && under 48 i.completion && under 48 i.aux && under 8 i.srcKind && under 8 i.srcNum && under 2 i.gen
    && under 8 i.ingest && under 8 i.prio && under 8 i.payKind && under 32 i.seq && under 32 i.len && under 64 i.addr
    && under 32 i.payCheck && under 32 i.hostTag && under 8 i.producer

/-- An Announce's data set (02_timeline R40). -/
def Machine.Master.wf (m : Master) : Bool :=
  under 80 m.source && under 64 m.gm && under 8 m.prio1 && under 8 m.clockClass && under 8 m.accuracy && under 16 m.variance
    && under 8 m.prio2 && under 16 m.steps && within 16 m.utc && within 8 m.logAnnounce && under 48 m.stamp
    && m.path.all (under 64 ·)

/-- An RTP header's fields. -/
def Machine.RtpHead.wf (h : RtpHead) : Bool :=
  under 2 h.version && under 7 h.payloadType && under 16 h.seq && under 32 h.stamp && under 32 h.ssrc

/-- A Virek header's fields (17_virek Table 1). -/
def Machine.VirekHdr.wf (h : VirekHdr) : Bool :=
  under 1 h.port && under 32 h.srcIp && under 16 h.srcPort && under 16 h.conn && under 32 h.psn && under 32 h.ack
    && under 32 h.credit && under 32 h.key && under 64 h.offset && under 32 h.length && under 32 h.fence && under 64 h.value
    && under 8 h.status && under 16 h.tag

/-- Where a fence operation comes from: a function and a fence page of its BAR0 (15_hosts_queues Table 1). -/
def Machine.FenceSrc.wf : FenceSrc → Bool
  | .dict hd cond => hd.wf && opt 16 cond
  | .bar0 fn fence => under 2 fn && under 17 fence

/-- Every operand of a command is within its field. -/
def Instr.wf : Instr → Bool
  | .linkTransferError _ replays _ => under 32 replays
  | .stampReplicaReload wrong => wrong.all fun e => under 32 e.1 && within 80 e.2
  | .eraWrap => true
  | .timelineNowRead hd => hd.wf
  | .slewBoundWrite hd cond v => hd.wf && opt 16 cond && atMost 1016 v
  | .manualSlew hd cond v => hd.wf && opt 16 cond && atMost 1016 v
  | .slewAbsorbed => true
  | .ptpSourceWrite hd cond v => hd.wf && opt 16 cond && atMost 1016 v
  | .ptpSyncReceived _ source domain logInterval t1 => under 80 source && under 8 domain && within 32 logInterval && within 80 t1
  | .ptpAnnounceReceived _ domain m => under 8 domain && m.wf
  | .announceTimeout _ => true
  | .syncLoss => true
  | .autoRevert => true
  | .guardResponseAccept hd cond => hd.wf && opt 16 cond
  | .guardResponseSlew hd cond => hd.wf && opt 16 cond
  | .gmPortWrite hd cond v => hd.wf && opt 16 cond && atMost 1016 v
  | .gmSyncTransmit => true
  | .gmAnnounceTransmit => true
  | .fenceSignal src v => src.wf && atMost 1016 v
  | .fenceAdd src v => src.wf && atMost 1016 v
  | .fenceReset src => src.wf
  | .fenceSetDeadline src _ v => src.wf && atMost 1016 v
  | .fenceSelectWrite hd cond _ v => hd.wf && opt 16 cond && atMost 1016 v
  | .waitArm src v => src.wf && atMost 1016 v
  | .waitCancel hd cond v => hd.wf && opt 16 cond && atMost 1016 v
  | .fenceDeadlineTick => true
  | .xtalStable => true
  | .rootLock => true
  | .clockMonitorWindow counts => counts.all fun c => under 5 c.1 && under 32 c.2
  | .crystalLoss => true
  | .refEnableWrite hd cond _ v => hd.wf && opt 16 cond && atMost 1016 v
  | .refActivityPresent _ offset => within 32 offset
  | .refQualifyTimeout _ => true
  | .refActivityLost _ => true
  | .priorityEntryWrite hd cond _ v => hd.wf && opt 16 cond && atMost 1016 v
  | .waitToRestoreExpiry _ => true
  | .dpllLock => true
  | .refPhaseComparison _ error => within 32 error
  | .loopModeOpen hd cond => hd.wf && opt 16 cond
  | .loopModeClose hd cond => hd.wf && opt 16 cond
  | .freqOffsetWordWrite hd cond v => hd.wf && opt 16 cond && atMost 1016 v
  | .phaseErrorRead hd => hd.wf
  | .ppsInEdge _ => true
  | .pulseConfigWrite hd cond _ _ v => hd.wf && opt 16 cond && atMost 1016 v
  | .pulseStart hd cond _ => hd.wf && opt 16 cond
  | .pulseStop hd cond _ => hd.wf && opt 16 cond
  | .pulseEdgeDue _ => true
  | .pulseWidthEnd _ => true
  | .synthLock _ => true
  | .deferTimeout held => under 32 held
  | .synthLockLost _ => true
  | .serdesRecalDue _ => true
  | .hello hd part nh => hd.wf && under 8 part && decide (nh.length = 8)
  | .helloClose hd part nh => hd.wf && under 8 part && decide (nh.length = 8)
  | .sessionConfirmTimeout sid => under 32 sid
  | .sessionIdleTimeout sid => under 32 sid
  | .read hd idx sub => hd.wf && under 16 idx && under 8 sub
  | .write hd idx sub cond v => hd.wf && under 16 idx && under 8 sub && opt 16 cond && atMost 1016 v
  | .rwpCommitDone => true
  | .readBlock hd idx sub offset length => hd.wf && under 16 idx && under 8 sub && under 32 offset && under 32 length
  | .writeBlock hd payload => hd.wf && atMost 65535 payload
  | .blockGapTimeout sid tag => under 32 sid && under 16 tag
  | .subscribe hd idx sub mode interval => hd.wf && under 16 idx && under 8 sub && under 8 mode && under 32 interval
  | .subscribeCancel hd idx sub handle => hd.wf && under 16 idx && under 8 sub && under 32 handle
  | .notify sid handle changes changedAt => under 32 sid && under 32 handle && under 32 changes && under 48 changedAt
  | .abort hd tag => hd.wf && under 16 tag
  | .resultCacheExpiry sid => under 32 sid
  | .restoreDefaults hd cond v => hd.wf && opt 16 cond && atMost 1016 v
  | .keyWrite hd payload => hd.wf && atMost 65535 payload
  | .mailboxDoorbell _ off v => under 24 off && under 32 v
  | .ansConsWrite _ v => under 32 v
  | .canBusOff _ => true
  | .canRestart hd cond _ => hd.wf && opt 16 cond
  | .vinAbove3v mv => under 32 mv
  | .vinValid mv => under 32 mv
  | .brownout mv _ => under 32 mv
  | .vioOvercurrent _ => true
  | .vioLimitTimeout _ => true
  | .vioRetry _ => true
  | .sysReset => true
  | .deviceRestart hd cond v => hd.wf && opt 16 cond && atMost 1016 v
  | .safeValuesApplied straps _ => under 4 straps
  | .bundleVerified => true
  | .manifestCheck => true
  | .bootWatchdogExpiry => true
  | .dieLinkTrained _ => true
  | .dieDescriptorReceived _ desc => atMost 65535 desc
  | .dieStartTestDone _ _ failed => under 2 failed
  | .dieDiscoveryTimeout _ => true
  | .dramChannelTrained _ _ => true
  | .discoveryDone => true
  | .injectionDone detected => under 14 detected
  | .serviceReady => true
  | .startWindowEnd => true
  | .updateOffsetWrite hd cond v => hd.wf && opt 16 cond && atMost 1016 v
  | .updateLengthWrite hd cond v => hd.wf && opt 16 cond && atMost 1016 v
  | .updateChunk hd payload => hd.wf && atMost 65535 payload
  | .updateVerify hd cond => hd.wf && opt 16 cond
  | .provisionalConsent hd cond => hd.wf && opt 16 cond
  | .updateActivateNextStart hd cond => hd.wf && opt 16 cond
  | .updateActivateNow hd cond => hd.wf && opt 16 cond
  | .updateActivateLive hd cond => hd.wf && opt 16 cond
  | .updateCommit hd cond => hd.wf && opt 16 cond
  | .updateAbort hd cond => hd.wf && opt 16 cond
  | .updateClaimTimeout => true
  | .commitTimeout => true
  | .revokeKeySlot hd cond v => hd.wf && opt 16 cond && atMost 1016 v
  | .advanceFloor hd cond v => hd.wf && opt 16 cond && atMost 1016 v
  | .pour hd payload => hd.wf && atMost 65535 payload
  | .pourStore hd payload => hd.wf && atMost 65535 payload
  | .pourRecall hd payload => hd.wf && atMost 65535 payload
  | .pourShadowLoaded handle => under 32 handle
  | .pourGenerationReserved handle => under 32 handle
  | .pourBacklogTimeout handle => under 32 handle
  | .pourCancel hd cond v => hd.wf && opt 16 cond && atMost 1016 v
  | .pourFlip uid _ => under 32 uid
  | .rampEnd key => under 40 key
  | .pourCommitDone handle uid => under 32 handle && under 32 uid
  | .sceneErase hd cond _ => hd.wf && opt 16 cond
  | .csiFrameStart _ _ => true
  | .csiEmbeddedLine _ _ line => line.found.wf && atMost 65535 line.data
  | .csiLongPacket _ _ dataType _ line found => under 6 dataType && atMost 65535 line && found.wf
  | .csiFrameEnd _ _ => true
  | .csiLaneError _ _ => true
  | .scannerDatagram _ srcIp dstPort _ payload found => under 32 srcIp && under 16 dstPort && atMost 65535 payload && found.wf
  | .imuDrdyEdge _ _ => true
  | .imuReadDone _ data => atMost 65535 data
  | .encoderTransition _ _ => true
  | .encoderZEdge _ => true
  | .encoderPeriodEnd _ => true
  | .canSensorFrame _ id _ data found => under 32 id && atMost 65535 data && found.wf
  | .modelWindowEnd _ => true
  | .slotStaleTimeout _ => true
  | .gridTick => true
  | .resampleTickRecord => true
  | .poseRecord => true
  | .poseWaitExpiry => true
  | .gridPointItem => true
  | .pointWaitExpiry _ => true
  | .gridBuildDone _ => true
  | .modelLoad hd cond _ => hd.wf && opt 16 cond
  | .modelLoadDone _ _ => true
  | .deckCopyDone _ _ => true
  | .modelUnload hd cond _ => hd.wf && opt 16 cond
  | .modelUnloadDone _ => true
  | .inferenceTrigger src => under 16 src
  | .inferenceDispatch _ => true
  | .inferenceComplete _ _ => true
  | .canaryComplete _ _ => true
  | .canaryTimeout _ => true
  | .canaryRequest _ => true
  | .weightScanBlock _ found => found.wf
  | .weightScanOverdue _ => true
  | .fallbackEvaluate => true
  | .lockstepMismatch _ => true
  | .cupResetDone _ _ => true
  | .channelEnable hd cond _ v => hd.wf && opt 16 cond && atMost 1016 v
  | .channelRestart hd cond _ => hd.wf && opt 16 cond
  | .policyWrite hd cond _ v => hd.wf && opt 16 cond && atMost 1016 v
  | .fieldSetWrite hd payload => hd.wf && atMost 65535 payload
  | .safeTestPulse _ _ => true
  | .safeFeedbackEdge _ _ => true
  | .feedbackDelayExpiry _ => true
  | .safeReset hd cond => hd.wf && opt 16 cond
  | .injectRerun hd cond => hd.wf && opt 16 cond
  | .structureDescriptorWrite hd payload => hd.wf && atMost 65535 payload
  | .solverBatchStart => true
  | .solverBatchEnd => true
  | .domainBlock _ b => under 48 b.stamp && b.ins.all fun h =>
      decide (h.port < 32) && decide (h.ch < 8) && h.samples.length == 32 && h.samples.all fun v => within 32 v
  | .portBlockStamp _ stamp ratio => under 48 stamp && within 32 ratio
  | .portEnable hd cond _ v => hd.wf && opt 16 cond && atMost 1016 v
  | .converterSettled _ => true
  | .outputStart hd cond _ => hd.wf && opt 16 cond
  | .outputStop hd cond _ => hd.wf && opt 16 cond
  | .serialWsSlip _ => true
  | .serialRelock _ => true
  | .serialClockAbsent _ => true
  | .portRateMismatch _ measured => under 32 measured
  | .biphaseFrame _ _ _ _ => true
  | .channelStatusBlock _ status user => atMost 24 status && atMost 24 user
  | .biphaseUnlock _ => true
  | .rtpPacketReceived _ _ h payload found => h.wf && atMost 65535 payload && found.wf
  | .rtpPacketTransmit _ first found => under 48 first && found.wf
  | .aes67Realign _ => true
  | .hostAudioBlock _ => true
  | .toneCadenceTransition _ => true
  | .voicePlay hd cond _ => hd.wf && opt 16 cond
  | .voiceStop hd cond _ => hd.wf && opt 16 cond
  | .voiceClipEnd _ => true
  | .controlItem _ => true
  | .bfBankWrite hd payload => hd.wf && atMost 65535 payload
  | .mixLaneDrop _ => true
  | .analogStart hd cond _ => hd.wf && opt 16 cond
  | .analogStop hd cond _ => hd.wf && opt 16 cond
  | .settleTimeExpiry _ => true
  | .readbackWindowEnd means devs _ => allUnder 32 means && allUnder 32 devs
  | .faultClear hd cond _ => hd.wf && opt 16 cond
  | .safeValueWrite hd cond _ v => hd.wf && opt 16 cond && atMost 1016 v
  | .beaconFrame _ start frame amplitude ambient => under 48 start && under 64 frame && under 16 amplitude && under 16 ambient
  | .beaconFlood _ onset ambient _ => under 48 onset && under 16 ambient
  | .beaconFloodEnd _ => true
  | .beaconViolation _ _ => true
  | .beaconResync _ => true
  | .itemEnqueue _ it found => it.wf && found.wf
  | .deliverySlotWrite _ record payload dma => record.wf && payload.wf && dma.wf
  | .deliveryConsWrite _ _ v => under 32 v
  | .submissionDoorbell _ _ v => under 32 v
  | .submissionFetch _ slot dram => atMost 65535 slot && dram.wf
  | .bar0HighLatchRead _ off _ => under 24 off
  | .bar0InvalidAccess _ off len _ => under 24 off && under 32 len
  | .bar2Access _ off len w _ => under 30 off && under 32 len && optShort 4096 w
  | .virekRingPoll _ => true
  | .staleTimeExpiry _ => true
  | .queueEnable hd cond => hd.wf && opt 16 cond
  | .queueDisable hd cond => hd.wf && opt 16 cond
  | .heartbeatSend => true
  | .heartbeatReceived _ srcIp payload found => under 32 srcIp && atMost 65535 payload && found.wf
  | .heartbeatMissingCheck _ _ seq => under 32 seq
  | .partnerSilenceTimeout _ => true
  | .portLinkChange _ _ => true
  | .holdTimeExpiry _ => true
  | .duplicateFrameReceived _ mac trailer _ => under 48 mac && pair16 trailer
  | .swapTest _ => true
  | .swapVerifyExpiry _ => true
  | .forceSwitch hd cond _ v => hd.wf && opt 16 cond && atMost 1016 v
  | .virekConnect h data => h.wf && atMost 65535 data
  | .virekDisconnect h => h.wf
  | .virekQuiesce h => h.wf
  | .virekRead h bad => h.wf && allUnder 32 bad
  | .virekWrite h data found => h.wf && atMost 65535 data && found.wf
  | .virekWriteFence h data found => h.wf && atMost 65535 data && found.wf
  | .virekFenceAdd h => h.wf
  | .virekAck h => h.wf
  | .virekNak h => h.wf
  | .virekPing h => h.wf
  | .virekPacketInvalid _ srcIp srcPort opcode => under 32 srcIp && under 16 srcPort && under 8 opcode
  | .virekWriteCommitted _ => true
  | .virekAckDelayExpiry _ => true
  | .virekRtoExpiry _ => true
  | .virekPeerTimeout _ => true
  | .virekCreditStall _ => true
  | .virekStallPing _ => true
  | .virekQuiesceHoldExpiry _ => true
  | .connectionClose hd cond => hd.wf && opt 16 cond
  | .windowRegister hd cond _ => hd.wf && opt 16 cond
  | .windowRevoke hd cond _ => hd.wf && opt 16 cond
  | .quarantineExpiry id => under 16 id
  | .quarantineRelease hd cond v => hd.wf && opt 16 cond && atMost 1016 v
  | .logClear hd cond v => hd.wf && opt 16 cond && atMost 1016 v
  | .mirrorClear hd cond v => hd.wf && opt 16 cond && atMost 1016 v
  | .demandWake _ => true
  | .powerStateEntry _ taken => under 32 taken
  | .earlyWake => true
  | .powerStateExitDone => true
  | .wakeToleranceWrite hd cond _ v => hd.wf && opt 16 cond && atMost 1016 v
  | .powerCapWindow avg => under 32 avg
  | .temperatureSample io dies => within 32 io && allWithin 16 dies
  | .thermalTripCooled io => within 32 io
  | .islandReset hd cond _ => hd.wf && opt 16 cond
  | .islandHold hd cond _ => hd.wf && opt 16 cond
  | .quiesceBoundaryEmpty _ => true
  | .islandReturn _ => true
  | .islandWatchdogExpiry _ => true
  | .staleReplyReceived _ incarnation => under 16 incarnation
  | .i2cRead reg len => under 8 reg && under 16 len
  | .i2cWrite reg data => under 8 reg && atMost 65535 data
  | .canErrorFrame _ _ => true
  | .canBusOffRecovery _ => true
  | .biphaseReceiverLock _ offset => within 32 offset
  | .ptpDelayRespReceived _ domain seq t4 turn => under 8 domain && under 16 seq && within 80 t4 && within 80 turn.1 && within 32 turn.2
  | .ptpDelayReqReceived _ domain seq requester _ => under 8 domain && under 16 seq && under 80 requester
  | .arpIcmpEchoRequest _ _ srcIp targetIp payload => under 32 srcIp && under 32 targetIp && atMost 65535 payload
  | .pauseOrOversizeFrame _ len => opt 16 len
  | .perstNRelease => true

end Sys2Proof
end

