-- ==== Sys2Proof/Tests/Slice0.lean ====
section
/-! SUPPORT. Tests: ill-formed commands that the check refuses, one step on small states, and for each statement states and
operands that meet its hypotheses. -/
namespace Sys2Proof.Tests
open Sys2Proof Sys2Proof.Machine

/-- Registers put into a device. -/
def withRegs (l : List (Nat × Int)) (d : Dev) : Dev := l.foldl (fun (d : Dev) (p : Nat × Int) => d.set p.1 p.2) d

/-- A device in RUN with its supply valid and PERST# released, that serves its dictionary, partition 0 attached to host
function 0, with a session of that partition and some registers. -/
def base (l : List (Nat × Int)) (d : Dev := {}) : Dev :=
  withRegs (l ++ [(Ob.bootPhase, 8), (Ob.serviceReady, 1), (Ob.partEnable 0, 1), (Ob.partAttachKind 0, 0),
      (Ob.partAttachAddress 0, 0), (Ob.partKeyState 0, 1), (Ob.partRoleMask 0, 15)])
    { d with tl := { d.tl with running := true }, pins := { d.pins with perst := true, vin := 2 },
             dict := { d.dict with sessions := [{ id := 1, part := 0, carrier := .mailbox 0, key := [1], confirmed := true,
                                                  hi := 5, accepted := [5], devSeq := 5, opened := 0, lastReq := 0, outst := [], cache := [], subs := [] }] } }

/-- A state with a device and no command waiting. -/
def st (d : Dev) : State := { pending := [], dev := d }

/-- A request of that session, its MAC correct. -/
def rq (op : Nat) (payload : Bytes) (seg : Nat := 0) : Hdr :=
  let h : Hdr := { carrier := .mailbox 0, version := 1, opcode := op, tag := 7, session := 1, seq := 6,
                   len := payload.length, auth := true, more := false, resp := false, seg := seg, mac := [] }
  { h with mac := macOf [1] (h.bytes payload) }

/-- The request of that session that writes `v` to an object. -/
abbrev wreq (idx sub : Nat) (v : Bytes) : Hdr := rq Op.write (writePayload idx sub none v)

/-- What a command leaves, tested; false where it stops. -/
def after (i : Instr) (s : State) (P : Dev → Bool) : Bool :=
  match exec i s with
  | .next t => P t.dev
  | _ => false

/-- Everything that admits a request but its MAC, decided on the state. -/
def admits (d : Dev) (op : Nat) (payload : Bytes) : Bool :=
  match d.session 1 with
  | some se =>
    (d.preCheck (rq op payload) op payload).isNone && decide (se.carrier = .mailbox 0) && decide (se.key = [1])
      && se.freshSeq 6 && ((d.freshCache se.cache).find? fun c => c.tag == 7).isNone && (se.outst.find? fun o => o.tag == 7).isNone
      && decide (se.outst.length < 16) && !d.inStartWindow
  | none => false

/-- A request that `admits` finds good is admitted. -/
theorem admits_go {d : Dev} {op : Nat} {payload : Bytes} {se : Session} (h : admits d op payload = true) (h₂ : d.session 1 = some se) :
    d.admission (rq op payload) op payload false = .go (d.admitted (rq op payload) se) { se with ethPort := 0 } := by
  unfold admits at h
  rw [h₂] at h
  simp only [Bool.and_eq_true, Option.isNone_iff_eq_none, decide_eq_true_eq, Bool.not_eq_true'] at h
  obtain ⟨⟨⟨⟨⟨⟨⟨h₁, h₃⟩, hk⟩, h₅⟩, h₇⟩, h₈⟩, h₉⟩, h₁₀⟩ := h
  have hm : macOk se (rq op payload) payload = true := by
    have : se.key = [1] := hk
    simp [macOk, rq, this, Hdr.bytes]
  exact Dev.admission_pass h₁ h₂ h₃ hm h₅ (by show 6 < 4294967295; decide) h₇ h₈ h₉ h₁₀

/-- What admits a further segment but its MAC, decided on the state. -/
def admitsMore (d : Dev) (seg : Nat) (payload : Bytes) : Bool :=
  match d.session 1 with
  | some se =>
    (d.preCheck (rq Op.writeBlock payload seg) Op.writeBlock payload).isNone && decide (se.carrier = .mailbox 0)
      && decide (se.key = [1]) && se.freshSeq 6
  | none => false

/-- A further segment that `admitsMore` finds good is admitted. -/
theorem admitsMore_go {d : Dev} {seg : Nat} {payload : Bytes} {se : Session} (h : admitsMore d seg payload = true)
    (h₂ : d.session 1 = some se) :
    d.admission (rq Op.writeBlock payload seg) Op.writeBlock payload true
      = .go (d.admitted (rq Op.writeBlock payload seg) se) { se with ethPort := 0 } := by
  unfold admitsMore at h
  rw [h₂] at h
  simp only [Bool.and_eq_true, Option.isNone_iff_eq_none, decide_eq_true_eq] at h
  obtain ⟨⟨⟨h₁, h₃⟩, hk⟩, h₅⟩ := h
  have hm : macOk se (rq Op.writeBlock payload seg) payload = true := by
    have : se.key = [1] := hk
    simp [macOk, rq, this, Hdr.bytes]
  exact Dev.admission_pass_more h₁ h₂ h₃ hm h₅ (by show 6 < 4294967295; decide)

/-- What the last segment of a block write needs but its MAC, decided on the state. -/
def blockPasses (d : Dev) (o : Nat → BlockObj) (seg : Nat) (payload : Bytes) : Bool :=
  match d.session 1, d.blockOp 1 7 Op.writeBlock with
  | some se, some b =>
    let e := d.admitted (rq Op.writeBlock payload seg) se
    let se := { se with ethPort := 0 }
    let n := { b with next := b.next + 1, data := b.data ++ payload, lastSeg := e.now }
    admitsMore d seg payload && decide (seg ≠ 0) && decide (seg = b.next) && decide (se.id = 1)
      && decide ((b.data ++ payload).length = b.total + 4)
      && decide (leNat ((b.data ++ payload).drop b.total) = crc32c ((b.data ++ payload).take b.total))
      && ((e.withBlock n).blockFault (o b.key) se n ((b.data ++ payload).take b.total)).isNone
  | _, _ => false

/-- A last segment that `blockPasses` finds good completes its block write. -/
theorem block_passes {d : Dev} {o : Nat → BlockObj} {seg : Nat} {payload : Bytes} (h : blockPasses d o seg payload = true) :
    ∃ e se b, d.admission (rq Op.writeBlock payload seg) Op.writeBlock payload
        (seg != 0 && (d.blockOp (rq Op.writeBlock payload seg).session (rq Op.writeBlock payload seg).tag Op.writeBlock).isSome)
          = .go e se
      ∧ e.blockOp se.id 7 Op.writeBlock = some b ∧ seg = b.next
      ∧ (b.data ++ payload).length = b.total + 4
      ∧ leNat ((b.data ++ payload).drop b.total) = crc32c ((b.data ++ payload).take b.total)
      ∧ (e.withBlock { b with next := b.next + 1, data := b.data ++ payload, lastSeg := e.now }).blockFault (o b.key) se
        { b with next := b.next + 1, data := b.data ++ payload, lastSeg := e.now } ((b.data ++ payload).take b.total) = none := by
  unfold blockPasses at h
  dsimp only at h
  split at h
  · rename_i se b h₂ hb
    simp only [Bool.and_eq_true, Option.isNone_iff_eq_none, decide_eq_true_eq] at h
    obtain ⟨⟨⟨⟨⟨⟨ha, hs⟩, hn⟩, hi⟩, hl⟩, hc⟩, hf⟩ := h
    refine ⟨d.admitted (rq Op.writeBlock payload seg) se, { se with ethPort := 0 }, b, ?_, ?_, hn, hl, hc, hf⟩
    · have h1 : (seg != 0) = true := by simp [hs]
      have h2 : (d.blockOp (rq Op.writeBlock payload seg).session (rq Op.writeBlock payload seg).tag Op.writeBlock).isSome = true := by
        show (d.blockOp 1 7 Op.writeBlock).isSome = true
        rw [hb]; rfl
      rw [h1, h2]
      exact admitsMore_go ha h₂
    · show d.blockOp se.id 7 Op.writeBlock = some b
      rw [show se.id = 1 from hi, hb]
  · cases h

/-- Everything a write needs but its MAC, decided on the state. -/
def passes (d : Dev) (c : Conds) (idx sub : Nat) (v : Bytes) : Bool :=
  let hd := wreq idx sub v
  match d.session 1, objRow idx sub with
  | some se, some r =>
    let e := d.admitted hd se
    let se := { se with ethPort := 0 }
    let n := r.masked (decodeTy r.ty v)
    admits d Op.write (writePayload idx sub none v)
      && (e.objFault se idx sub true (c.fence e se)).isNone
      && (firstFault [valueFault r (idx * 256 + sub) v, c.range e se n, e.lateFault se r (idx * 256 + sub) none,
        (if e.unprovisioned (idx * 256 + sub) then some { status := Sc.stateRefused } else none), c.state e se n,
        e.islandFault idx, (if r.rwp then e.commitFault else none)]).isNone
  | _, _ => false

/-- A write that `passes` finds good passes its checks. -/
theorem gate_passes {d : Dev} {c : Conds} {idx sub : Nat} {v : Bytes} (h : passes d c idx sub v = true) :
    ∃ e se n, d.writeGate c (wreq idx sub v) none idx sub v = .pass e se n := by
  unfold passes at h
  dsimp only at h
  split at h
  · rename_i se r h₂ hr
    simp only [Bool.and_eq_true, Option.isNone_iff_eq_none] at h
    obtain ⟨⟨ha, ho⟩, hf⟩ := h
    exact ⟨_, _, _, Dev.writeGate_passes (admits_go ha h₂) ho hr hf⟩
  · cases h

/-- Everything an operation that reads an object needs but its MAC, decided on the state. -/
def readPasses (d : Dev) (op : Nat) (payload : Bytes) (idx sub : Nat) : Bool :=
  match d.session 1, objRow idx sub with
  | some se, some _ =>
    let e := d.admitted (rq op payload) se
    admits d op payload
      && (firstFault [e.objFault { se with ethPort := 0 } idx sub false (e.readFence se.id idx sub), none, e.islandFault idx]).isNone
  | _, _ => false

/-- An operation that `readPasses` finds good passes its checks. -/
theorem read_passes {d : Dev} {op : Nat} {payload : Bytes} {idx sub : Nat} (h : readPasses d op payload idx sub = true) :
    ∃ e se r, d.readGate (rq op payload) op payload idx sub = .pass e se r := by
  unfold readPasses at h
  dsimp only at h
  split at h
  · rename_i se r h₂ hr
    simp only [Bool.and_eq_true, Option.isNone_iff_eq_none] at h
    refine ⟨d.admitted (rq op payload) se, { se with ethPort := 0 }, r, ?_⟩
    unfold Dev.readGate
    rw [admits_go h.1 h₂]
    simp only [h.2, hr]
  · cases h

/-- A request with every field in range. -/
def hd0 : Hdr := { carrier := .can 0 0, opcode := 0, tag := 0, session := 0, seq := 0, len := 0, mac := [] }

/-- A request whose version does not fit its four bits. -/
def hdBad : Hdr := { hd0 with version := 16 }

/-- A master's data set with every field in range. -/
def master0 : Master := { source := 0, gm := 0, prio1 := 0, clockClass := 0, accuracy := 0, variance := 0, prio2 := 0, steps := 0, utc := 0, logAnnounce := 0, stamp := 0 }

/-- An RTP header with every field in range. -/
def rtp0 : RtpHead := { payloadType := 0, seq := 0, stamp := 0, ssrc := 0 }

/-- A Virek header with every field in range. -/
def vk0 : VirekHdr := { port := 0, srcIp := 0, srcPort := 0 }

/-- More than `n` bytes. -/
def long (n : Nat) : Bytes := List.replicate (n + 1) 0

theorem atMost_long (n : Nat) : atMost n (long n) = false := by simp [atMost, long]

/-- The check refuses a header with any field out of range. -/
theorem test_hdr_fields :
    ([{ hd0 with carrier := .can 2 0 }, { hd0 with carrier := .can 0 256 }, { hd0 with carrier := .udp 4294967296 0 },
      { hd0 with carrier := .udp 0 65536 }, { hd0 with carrier := .mailbox 4 }, { hd0 with ethPort := 2 }, { hd0 with opcode := 256 },
      { hd0 with tag := 65536 }, { hd0 with session := 4294967296 }, { hd0 with seq := 4294967296 }, { hd0 with len := 65536 },
      { hd0 with seg := 65536 }, { hd0 with mac := List.replicate 9 0 }, hdBad] : List Hdr).all (fun h => !h.wf) = true := by decide

/-- The check refuses an item record with any field out of range. -/
theorem test_item_fields :
    ([{ subject := 281474976710656 }, { completion := 281474976710656 }, { aux := 281474976710656 }, { srcKind := 256 },
      { srcNum := 256 }, { gen := 4 }, { ingest := 256 }, { prio := 256 }, { payKind := 256 }, { seq := 4294967296 },
      { len := 4294967296 }, { addr := 18446744073709551616 }, { payCheck := 4294967296 }, { hostTag := 4294967296 },
      { producer := 256 }] : List Item).all (fun i => !i.wf) = true := by decide

/-- The check refuses a Virek header with any field out of range. -/
theorem test_virek_fields :
    ([{ vk0 with port := 2 }, { vk0 with srcIp := 4294967296 }, { vk0 with srcPort := 65536 }, { vk0 with conn := 65536 },
      { vk0 with psn := 4294967296 }, { vk0 with ack := 4294967296 }, { vk0 with credit := 4294967296 },
      { vk0 with key := 4294967296 }, { vk0 with offset := 18446744073709551616 }, { vk0 with length := 4294967296 },
      { vk0 with fence := 4294967296 }, { vk0 with value := 18446744073709551616 }, { vk0 with status := 256 },
      { vk0 with tag := 65536 }] : List VirekHdr).all (fun h => !h.wf) = true := by decide

/-- The check refuses the other records with a field out of range. -/
theorem test_record_fields :
    ([{ eccAddr := 1099511627776 }, { eccCorrected := 4294967296 }] : List Found).all (fun f => !f.wf) = true
    ∧ ([{ rtp0 with version := 4 }, { rtp0 with payloadType := 128 }, { rtp0 with seq := 65536 }, { rtp0 with stamp := 4294967296 },
      { rtp0 with ssrc := 4294967296 }] : List RtpHead).all (fun h => !h.wf) = true
    ∧ ([{ master0 with source := 2 ^ 80 }, { master0 with gm := 2 ^ 64 }, { master0 with prio1 := 256 },
      { master0 with clockClass := 256 }, { master0 with accuracy := 256 }, { master0 with variance := 65536 },
      { master0 with prio2 := 256 }, { master0 with steps := 65536 }, { master0 with utc := 32768 },
      { master0 with logAnnounce := 128 }, { master0 with stamp := 2 ^ 48 }, { master0 with path := [2 ^ 64] }] : List Master).all (fun m => !m.wf) = true
    ∧ ([.bar0 4 0, .bar0 0 131072, .dict hdBad none, .dict hd0 (some 65536)] : List FenceSrc).all (fun f => !f.wf) = true := by
  decide

/-- Commands with every operand in range are well formed. -/
theorem test_wellformed_1 :
    (
    [.linkTransferError 0 0 false, .stampReplicaReload [], .eraWrap, .timelineNowRead hd0, .slewBoundWrite hd0 none [],
     .manualSlew hd0 none [], .slewAbsorbed, .ptpSourceWrite hd0 none [], .ptpSyncReceived 0 0 0 0 0,
     .ptpAnnounceReceived 0 0 master0, .announceTimeout 0, .syncLoss, .autoRevert, .guardResponseAccept hd0 none,
     .guardResponseSlew hd0 none, .gmPortWrite hd0 none [], .gmSyncTransmit, .gmAnnounceTransmit,
     .fenceSignal (.bar0 0 0) [], .fenceAdd (.bar0 0 0) [], .fenceReset (.bar0 0 0), .fenceSetDeadline (.bar0 0 0) 0 [],
     .fenceSelectWrite hd0 none false [], .waitArm (.bar0 0 0) [], .waitCancel hd0 none [], .fenceDeadlineTick, .xtalStable,
     .rootLock, .clockMonitorWindow [], .crystalLoss, .refEnableWrite hd0 none 0 [], .refActivityPresent 0 0,
     .refQualifyTimeout 0, .refActivityLost 0, .priorityEntryWrite hd0 none 0 [], .waitToRestoreExpiry 0, .dpllLock,
     .refPhaseComparison 0 0, .loopModeOpen hd0 none, .loopModeClose hd0 none, .freqOffsetWordWrite hd0 none [],
     .phaseErrorRead hd0, .ppsInEdge false, .pulseConfigWrite hd0 none 0 0 [], .pulseStart hd0 none 0,
     .pulseStop hd0 none 0, .pulseEdgeDue 0, .pulseWidthEnd 0, .synthLock 0, .deferTimeout 0, .synthLockLost 0,
     .serdesRecalDue 0, .hello hd0 0 (List.replicate 8 0), .helloClose hd0 0 (List.replicate 8 0), .sessionConfirmTimeout 0,
     .sessionIdleTimeout 0, .read hd0 0 0, .write hd0 0 0 none [], .rwpCommitDone, .readBlock hd0 0 0 0 0,
     .writeBlock hd0 [], .blockGapTimeout 0 0, .subscribe hd0 0 0 0 0, .subscribeCancel hd0 0 0 0, .notify 0 0 0 0,
     .abort hd0 0, .resultCacheExpiry 0, .restoreDefaults hd0 none [], .keyWrite hd0 [], .mailboxDoorbell 0 0 0] : List Instr).all Instr.wf = true := by decide

/-- Commands with every operand in range are well formed. -/
theorem test_wellformed_2 :
    (
    [.ansConsWrite 0 0, .canBusOff 0, .canRestart hd0 none 0, .vinAbove3v 0, .vinValid 0, .brownout 0 false,
     .vioOvercurrent 0, .vioLimitTimeout 0, .vioRetry 0, .sysReset, .deviceRestart hd0 none [], .safeValuesApplied 0 false,
     .bundleVerified, .manifestCheck, .bootWatchdogExpiry, .dieLinkTrained 0, .dieDescriptorReceived 0 [],
     .dieStartTestDone 0 false 0, .dieDiscoveryTimeout 0, .dramChannelTrained 0 false, .discoveryDone, .injectionDone 0,
     .serviceReady, .startWindowEnd, .updateOffsetWrite hd0 none [], .updateLengthWrite hd0 none [], .updateChunk hd0 [],
     .updateVerify hd0 none, .provisionalConsent hd0 none, .updateActivateNextStart hd0 none, .updateActivateNow hd0 none,
     .updateActivateLive hd0 none, .updateCommit hd0 none, .updateAbort hd0 none, .updateClaimTimeout, .commitTimeout,
     .revokeKeySlot hd0 none [], .advanceFloor hd0 none [], .pour hd0 [], .pourStore hd0 [], .pourRecall hd0 [],
     .pourShadowLoaded 0, .pourGenerationReserved 0, .pourBacklogTimeout 0, .pourCancel hd0 none [], .pourFlip 0 none,
     .rampEnd 0, .pourCommitDone 0 0, .sceneErase hd0 none 0, .csiFrameStart 0 0, .csiEmbeddedLine 0 0 { data := [] },
     .csiLongPacket 0 0 0 false [] {}, .csiFrameEnd 0 0, .csiLaneError 0 0, .scannerDatagram 0 0 0 false [] {},
     .imuDrdyEdge 0 false, .imuReadDone 0 [], .encoderTransition 0 none, .encoderZEdge 0, .encoderPeriodEnd 0,
     .canSensorFrame 0 0 false [] {}, .modelWindowEnd 0, .slotStaleTimeout 0, .gridTick, .resampleTickRecord, .poseRecord,
     .poseWaitExpiry, .gridPointItem, .pointWaitExpiry 0, .gridBuildDone 0] : List Instr).all Instr.wf = true := by decide

/-- Commands with every operand in range are well formed. -/
theorem test_wellformed_3 :
    (
    [.modelLoad hd0 none 0, .modelLoadDone 0 false, .deckCopyDone 0 0, .modelUnload hd0 none 0, .modelUnloadDone 0,
     .inferenceTrigger 0, .inferenceDispatch 0, .inferenceComplete 0 none, .canaryComplete 0 none, .canaryTimeout 0,
     .canaryRequest 0, .weightScanBlock 0 {}, .weightScanOverdue 0, .fallbackEvaluate, .lockstepMismatch 0,
     .cupResetDone false false, .channelEnable hd0 none 0 [], .channelRestart hd0 none 0, .policyWrite hd0 none 0 [],
     .fieldSetWrite hd0 [], .safeTestPulse 0 false, .safeFeedbackEdge 0 false, .feedbackDelayExpiry 0, .safeReset hd0 none,
     .injectRerun hd0 none, .structureDescriptorWrite hd0 [], .solverBatchStart, .solverBatchEnd, .domainBlock 0 { stamp := 0 },
     .portBlockStamp 0 0 0, .portEnable hd0 none 0 [], .converterSettled 0, .outputStart hd0 none 0, .outputStop hd0 none 0,
     .serialWsSlip 0, .serialRelock 0, .serialClockAbsent 0, .portRateMismatch 0 0, .biphaseFrame 0 false false false,
     .channelStatusBlock 0 [] [], .biphaseUnlock 0, .rtpPacketReceived 0 0 rtp0 [] {}, .rtpPacketTransmit 0 0 {},
     .aes67Realign 0, .hostAudioBlock 0, .toneCadenceTransition 0, .voicePlay hd0 none 0, .voiceStop hd0 none 0,
     .voiceClipEnd 0, .controlItem 0, .bfBankWrite hd0 [], .mixLaneDrop 0, .analogStart hd0 none 0, .analogStop hd0 none 0,
     .settleTimeExpiry 0, .readbackWindowEnd [] [] [], .faultClear hd0 none 0, .safeValueWrite hd0 none 0 [],
     .beaconFrame 0 0 0 0 0, .beaconFlood 0 0 0 false, .beaconFloodEnd 0, .beaconViolation 0 false, .beaconResync 0,
     .itemEnqueue 0 {} {}, .deliverySlotWrite 0 {} {} {}, .deliveryConsWrite 0 0 0, .submissionDoorbell 0 0 0,
     .submissionFetch 0 [] {}, .bar0HighLatchRead 0 0 false, .bar0InvalidAccess 0 0 0 false] : List Instr).all Instr.wf = true := by decide

/-- Commands with every operand in range are well formed. -/
theorem test_wellformed_4 :
    (
    [.bar2Access 0 0 0 none false, .virekRingPoll 0, .staleTimeExpiry 0, .queueEnable hd0 none, .queueDisable hd0 none,
     .heartbeatSend, .heartbeatReceived 0 0 [] {}, .heartbeatMissingCheck 0 0 0, .partnerSilenceTimeout 0,
     .portLinkChange 0 false, .holdTimeExpiry 0, .duplicateFrameReceived 0 0 none false, .swapTest 0, .swapVerifyExpiry 0,
     .forceSwitch hd0 none 0 [], .virekConnect vk0 [], .virekDisconnect vk0, .virekQuiesce vk0, .virekRead vk0 [],
     .virekWrite vk0 [] {}, .virekWriteFence vk0 [] {}, .virekFenceAdd vk0, .virekAck vk0, .virekNak vk0, .virekPing vk0,
     .virekPacketInvalid 0 0 0 0, .virekWriteCommitted 0, .virekAckDelayExpiry 0, .virekRtoExpiry 0, .virekPeerTimeout 0,
     .virekCreditStall 0, .virekStallPing 0, .virekQuiesceHoldExpiry 0, .connectionClose hd0 none,
     .windowRegister hd0 none 0, .windowRevoke hd0 none 0, .quarantineExpiry 0, .quarantineRelease hd0 none [],
     .logClear hd0 none [], .mirrorClear hd0 none [], .powerStateEntry 0 0, .demandWake 0, .earlyWake, .powerStateExitDone,
     .wakeToleranceWrite hd0 none none [], .powerCapWindow 0, .temperatureSample 0 [], .thermalTripCooled 0,
     .islandReset hd0 none 0, .islandHold hd0 none 0, .quiesceBoundaryEmpty 0, .islandReturn 0, .islandWatchdogExpiry 0,
     .staleReplyReceived 0 0, .i2cRead 0 0, .i2cWrite 0 [], .canErrorFrame 0 false, .canBusOffRecovery 0,
     .biphaseReceiverLock 0 0, .ptpDelayRespReceived 0 0 0 0 (0, 0), .ptpDelayReqReceived 0 0 0 0 false,
     .arpIcmpEchoRequest 0 false 0 0 [], .pauseOrOversizeFrame 0 none, .perstNRelease] : List Instr).all Instr.wf = true := by decide

/-- A command with an operand out of range is refused: one for each check. -/
theorem test_illformed_1 :
    (
    [.linkTransferError 0 4294967296 false, .stampReplicaReload [(4294967296, 0)], .stampReplicaReload [(0, 2 ^ 79)], .timelineNowRead hdBad,
     .slewBoundWrite hdBad none [], .slewBoundWrite hd0 (some 65536) [], .manualSlew hdBad none [],
     .manualSlew hd0 (some 65536) [], .ptpSourceWrite hdBad none [], .ptpSourceWrite hd0 (some 65536) [],
     .ptpSyncReceived 0 1208925819614629174706176 0 0 0, .ptpSyncReceived 0 0 256 0 0, .ptpSyncReceived 0 0 0 2147483648 0,
     .ptpSyncReceived 0 0 0 0 604462909807314587353088, .ptpAnnounceReceived 0 256 master0,
     .ptpAnnounceReceived 0 0 { master0 with stamp := 281474976710656 }, .guardResponseAccept hdBad none,
     .guardResponseAccept hd0 (some 65536), .guardResponseSlew hdBad none, .guardResponseSlew hd0 (some 65536),
     .gmPortWrite hdBad none [], .gmPortWrite hd0 (some 65536) [], .fenceSignal (.bar0 4 0) [], .fenceAdd (.bar0 4 0) [],
     .fenceReset (.bar0 4 0), .fenceSetDeadline (.bar0 4 0) 0 [], .fenceSelectWrite hdBad none false [],
     .fenceSelectWrite hd0 (some 65536) false [], .waitArm (.bar0 4 0) [], .waitCancel hdBad none [],
     .waitCancel hd0 (some 65536) [], .clockMonitorWindow [(32, 0)], .clockMonitorWindow [(0, 4294967296)], .refEnableWrite hdBad none 0 [],
     .refEnableWrite hd0 (some 65536) 0 [], .refActivityPresent 0 2147483648, .priorityEntryWrite hdBad none 0 [],
     .priorityEntryWrite hd0 (some 65536) 0 [], .refPhaseComparison 0 2147483648, .loopModeOpen hdBad none,
     .loopModeOpen hd0 (some 65536), .loopModeClose hdBad none, .loopModeClose hd0 (some 65536),
     .freqOffsetWordWrite hdBad none [], .freqOffsetWordWrite hd0 (some 65536) [], .phaseErrorRead hdBad,
     .pulseConfigWrite hdBad none 0 0 [], .pulseConfigWrite hd0 (some 65536) 0 0 [], .pulseStart hdBad none 0,
     .pulseStart hd0 (some 65536) 0, .pulseStop hdBad none 0, .pulseStop hd0 (some 65536) 0, .deferTimeout 4294967296,
     .hello hdBad 0 (List.replicate 8 0), .hello hd0 256 (List.replicate 8 0), .hello hd0 0 [],
     .helloClose hdBad 0 (List.replicate 8 0), .helloClose hd0 256 (List.replicate 8 0), .helloClose hd0 0 [],
     .sessionConfirmTimeout 4294967296, .sessionIdleTimeout 4294967296, .read hdBad 0 0] : List Instr).all (fun i => !i.wf) = true := by decide

/-- A command with an operand out of range is refused: one for each check. -/
theorem test_illformed_2 :
    (
    [.read hd0 65536 0, .read hd0 0 256, .write hdBad 0 0 none [], .write hd0 65536 0 none [], .write hd0 0 256 none [],
     .write hd0 0 0 (some 65536) [], .readBlock hdBad 0 0 0 0, .readBlock hd0 65536 0 0 0, .readBlock hd0 0 256 0 0,
     .readBlock hd0 0 0 4294967296 0, .readBlock hd0 0 0 0 4294967296, .writeBlock hdBad [], .blockGapTimeout 4294967296 0,
     .blockGapTimeout 0 65536, .subscribe hdBad 0 0 0 0, .subscribe hd0 65536 0 0 0, .subscribe hd0 0 256 0 0,
     .subscribe hd0 0 0 256 0, .subscribe hd0 0 0 0 4294967296, .subscribeCancel hdBad 0 0 0,
     .subscribeCancel hd0 65536 0 0, .subscribeCancel hd0 0 256 0, .subscribeCancel hd0 0 0 4294967296,
     .notify 4294967296 0 0 0, .notify 0 4294967296 0 0, .notify 0 0 4294967296 0, .notify 0 0 0 281474976710656,
     .abort hdBad 0, .abort hd0 65536, .resultCacheExpiry 4294967296, .restoreDefaults hdBad none [],
     .restoreDefaults hd0 (some 65536) [], .keyWrite hdBad [], .mailboxDoorbell 0 16777216 0,
     .mailboxDoorbell 0 0 4294967296, .ansConsWrite 0 4294967296, .canRestart hdBad none 0, .canRestart hd0 (some 65536) 0,
     .vinAbove3v 4294967296, .vinValid 4294967296, .brownout 4294967296 false, .deviceRestart hdBad none [],
     .deviceRestart hd0 (some 65536) [], .safeValuesApplied 16 false, .dieStartTestDone 0 false 4, .injectionDone 16384,
     .updateOffsetWrite hdBad none [], .updateOffsetWrite hd0 (some 65536) [], .updateLengthWrite hdBad none [],
     .updateLengthWrite hd0 (some 65536) [], .updateChunk hdBad [], .updateVerify hdBad none,
     .updateVerify hd0 (some 65536), .provisionalConsent hdBad none, .provisionalConsent hd0 (some 65536),
     .updateActivateNextStart hdBad none, .updateActivateNextStart hd0 (some 65536), .updateActivateNow hdBad none,
     .updateActivateNow hd0 (some 65536), .updateActivateLive hdBad none] : List Instr).all (fun i => !i.wf) = true := by decide

/-- A command with an operand out of range is refused: one for each check. -/
theorem test_illformed_3 :
    (
    [.updateActivateLive hd0 (some 65536), .updateCommit hdBad none, .updateCommit hd0 (some 65536),
     .updateAbort hdBad none, .updateAbort hd0 (some 65536), .revokeKeySlot hdBad none [],
     .revokeKeySlot hd0 (some 65536) [], .advanceFloor hdBad none [], .advanceFloor hd0 (some 65536) [], .pour hdBad [],
     .pourStore hdBad [], .pourRecall hdBad [], .pourShadowLoaded 4294967296, .pourGenerationReserved 4294967296,
     .pourBacklogTimeout 4294967296, .pourCancel hdBad none [], .pourCancel hd0 (some 65536) [], .pourFlip 4294967296 none,
     .rampEnd 1099511627776, .pourCommitDone 4294967296 0, .pourCommitDone 0 4294967296, .sceneErase hdBad none 0,
     .sceneErase hd0 (some 65536) 0, .csiEmbeddedLine 0 0 { data := [], found := { eccAddr := 1099511627776 } }, .csiLongPacket 0 0 64 false [] {},
     .csiLongPacket 0 0 0 false [] { eccAddr := 1099511627776 }, .scannerDatagram 0 4294967296 0 false [] {},
     .scannerDatagram 0 0 65536 false [] {}, .scannerDatagram 0 0 0 false [] { eccAddr := 1099511627776 },
     .canSensorFrame 0 4294967296 false [] {}, .canSensorFrame 0 0 false [] { eccAddr := 1099511627776 },
     .modelLoad hdBad none 0, .modelLoad hd0 (some 65536) 0, .modelUnload hdBad none 0, .modelUnload hd0 (some 65536) 0,
     .inferenceTrigger 65536, .weightScanBlock 0 { eccAddr := 1099511627776 }, .channelEnable hdBad none 0 [],
     .channelEnable hd0 (some 65536) 0 [], .channelRestart hdBad none 0, .channelRestart hd0 (some 65536) 0,
     .policyWrite hdBad none 0 [], .policyWrite hd0 (some 65536) 0 [], .fieldSetWrite hdBad [], .safeReset hdBad none,
     .safeReset hd0 (some 65536), .injectRerun hdBad none, .injectRerun hd0 (some 65536),
     .structureDescriptorWrite hdBad [], .domainBlock 0 { stamp := 281474976710656 },
     .domainBlock 0 { stamp := 0, ins := [{ port := 32, ch := 0, samples := List.replicate 32 0 }] },
     .domainBlock 0 { stamp := 0, ins := [{ port := 0, ch := 8, samples := List.replicate 32 0 }] },
     .domainBlock 0 { stamp := 0, ins := [{ port := 0, ch := 0, samples := List.replicate 31 0 }] },
     .domainBlock 0 { stamp := 0, ins := [{ port := 0, ch := 0, samples := List.replicate 32 2147483648 }] }, .portBlockStamp 0 281474976710656 0,
     .portBlockStamp 0 0 2147483648, .portEnable hdBad none 0 [], .portEnable hd0 (some 65536) 0 [],
     .outputStart hdBad none 0, .outputStart hd0 (some 65536) 0, .outputStop hdBad none 0, .outputStop hd0 (some 65536) 0,
     .portRateMismatch 0 4294967296, .rtpPacketReceived 0 0 { rtp0 with payloadType := 128 } [] {},
     .rtpPacketReceived 0 0 rtp0 [] { eccAddr := 1099511627776 }] : List Instr).all (fun i => !i.wf) = true := by decide

/-- A command with an operand out of range is refused: one for each check. -/
theorem test_illformed_4 :
    (
    [.rtpPacketTransmit 0 281474976710656 {}, .rtpPacketTransmit 0 0 { eccAddr := 1099511627776 }, .voicePlay hdBad none 0,
     .voicePlay hd0 (some 65536) 0, .voiceStop hdBad none 0, .voiceStop hd0 (some 65536) 0, .bfBankWrite hdBad [],
     .analogStart hdBad none 0, .analogStart hd0 (some 65536) 0, .analogStop hdBad none 0, .analogStop hd0 (some 65536) 0,
     .readbackWindowEnd [4294967296] [] [], .readbackWindowEnd [] [4294967296] [], .faultClear hdBad none 0,
     .faultClear hd0 (some 65536) 0, .safeValueWrite hdBad none 0 [], .safeValueWrite hd0 (some 65536) 0 [],
     .beaconFrame 0 281474976710656 0 0 0, .beaconFrame 0 0 18446744073709551616 0 0, .beaconFrame 0 0 0 65536 0,
     .beaconFrame 0 0 0 0 65536, .beaconFlood 0 281474976710656 0 false, .beaconFlood 0 0 65536 false,
     .itemEnqueue 0 { gen := 4 } {}, .itemEnqueue 0 {} { eccAddr := 1099511627776 },
     .deliverySlotWrite 0 { eccAddr := 1099511627776 } {} {}, .deliverySlotWrite 0 {} { eccAddr := 1099511627776 } {},
     .deliverySlotWrite 0 {} {} { eccAddr := 1099511627776 }, .deliveryConsWrite 0 0 4294967296,
     .submissionDoorbell 0 0 4294967296, .submissionFetch 0 [] { eccAddr := 1099511627776 },
     .bar0HighLatchRead 0 16777216 false, .bar0InvalidAccess 0 16777216 0 false, .bar0InvalidAccess 0 0 4294967296 false,
     .bar2Access 0 1073741824 0 none false, .bar2Access 0 0 4294967296 none false, .queueEnable hdBad none,
     .queueEnable hd0 (some 65536), .queueDisable hdBad none, .queueDisable hd0 (some 65536),
     .heartbeatReceived 0 4294967296 [] {}, .heartbeatReceived 0 0 [] { eccAddr := 1099511627776 },
     .heartbeatMissingCheck 0 0 4294967296, .duplicateFrameReceived 0 281474976710656 none false,
     .duplicateFrameReceived 0 0 (some (65536, 0)) false, .forceSwitch hdBad none 0 [], .forceSwitch hd0 (some 65536) 0 [],
     .virekConnect { vk0 with port := 2 } [], .virekDisconnect { vk0 with port := 2 }, .virekQuiesce { vk0 with port := 2 },
     .virekRead { vk0 with port := 2 } [], .virekRead vk0 [4294967296], .virekWrite { vk0 with port := 2 } [] {},
     .virekWrite vk0 [] { eccAddr := 1099511627776 }, .virekWriteFence { vk0 with port := 2 } [] {},
     .virekWriteFence vk0 [] { eccAddr := 1099511627776 }, .virekFenceAdd { vk0 with port := 2 },
     .virekAck { vk0 with port := 2 }, .virekNak { vk0 with port := 2 }, .virekPing { vk0 with port := 2 }] : List Instr).all (fun i => !i.wf) = true := by decide

/-- A command with an operand out of range is refused: one for each check. -/
theorem test_illformed_5 :
    (
    [.virekPacketInvalid 0 4294967296 0 0, .virekPacketInvalid 0 0 65536 0, .virekPacketInvalid 0 0 0 256,
     .connectionClose hdBad none, .connectionClose hd0 (some 65536), .windowRegister hdBad none 0,
     .windowRegister hd0 (some 65536) 0, .windowRevoke hdBad none 0, .windowRevoke hd0 (some 65536) 0,
     .quarantineExpiry 65536, .quarantineRelease hdBad none [], .quarantineRelease hd0 (some 65536) [],
     .logClear hdBad none [], .logClear hd0 (some 65536) [], .mirrorClear hdBad none [], .mirrorClear hd0 (some 65536) [],
     .wakeToleranceWrite hdBad none none [], .wakeToleranceWrite hd0 (some 65536) none [], .powerStateEntry 0 4294967296, .powerCapWindow 4294967296,
     .temperatureSample 2147483648 [], .temperatureSample 0 [32768], .thermalTripCooled 2147483648,
     .islandReset hdBad none 0, .islandReset hd0 (some 65536) 0, .islandHold hdBad none 0, .islandHold hd0 (some 65536) 0,
     .staleReplyReceived 0 65536, .i2cRead 256 0, .i2cRead 0 65536, .i2cWrite 256 [], .biphaseReceiverLock 0 2147483648,
     .ptpDelayRespReceived 0 256 0 0 (0, 0), .ptpDelayRespReceived 0 0 65536 0 (0, 0),
     .ptpDelayRespReceived 0 0 0 604462909807314587353088 (0, 0), .ptpDelayRespReceived 0 0 0 0 (604462909807314587353088, 0),
     .ptpDelayRespReceived 0 0 0 0 (0, 2147483648),
     .ptpDelayReqReceived 0 256 0 0 false, .ptpDelayReqReceived 0 0 65536 0 false,
     .ptpDelayReqReceived 0 0 0 1208925819614629174706176 false, .arpIcmpEchoRequest 0 false 4294967296 0 [],
     .arpIcmpEchoRequest 0 false 0 4294967296 [], .pauseOrOversizeFrame 0 (some 65536)] : List Instr).all (fun i => !i.wf) = true := by decide

/-- A command that carries too many bytes is refused. -/
theorem test_too_long_1 :
    (
    [.slewBoundWrite hd0 none (long 1016), .manualSlew hd0 none (long 1016), .ptpSourceWrite hd0 none (long 1016),
     .gmPortWrite hd0 none (long 1016), .fenceSignal (.bar0 0 0) (long 1016), .fenceAdd (.bar0 0 0) (long 1016),
     .fenceSetDeadline (.bar0 0 0) 0 (long 1016), .fenceSelectWrite hd0 none false (long 1016),
     .waitArm (.bar0 0 0) (long 1016), .waitCancel hd0 none (long 1016), .refEnableWrite hd0 none 0 (long 1016),
     .priorityEntryWrite hd0 none 0 (long 1016), .freqOffsetWordWrite hd0 none (long 1016),
     .pulseConfigWrite hd0 none 0 0 (long 1016), .write hd0 0 0 none (long 1016), .writeBlock hd0 (long 65535),
     .restoreDefaults hd0 none (long 1016), .keyWrite hd0 (long 65535), .deviceRestart hd0 none (long 1016),
     .dieDescriptorReceived 0 (long 65535), .updateOffsetWrite hd0 none (long 1016),
     .updateLengthWrite hd0 none (long 1016), .updateChunk hd0 (long 65535), .revokeKeySlot hd0 none (long 1016),
     .advanceFloor hd0 none (long 1016), .pour hd0 (long 65535), .pourStore hd0 (long 65535), .pourRecall hd0 (long 65535),
     .pourCancel hd0 none (long 1016), .csiEmbeddedLine 0 0 { data := long 65535 }] : List Instr).all (fun i => !i.wf) = true := by
  simp [Instr.wf, atMost_long, optShort]

/-- A command that carries too many bytes is refused. -/
theorem test_too_long_2 :
    (
    [.csiLongPacket 0 0 0 false (long 65535) {}, .scannerDatagram 0 0 0 false (long 65535) {}, .imuReadDone 0 (long 65535),
     .canSensorFrame 0 0 false (long 65535) {}, .channelEnable hd0 none 0 (long 1016), .policyWrite hd0 none 0 (long 1016),
     .fieldSetWrite hd0 (long 65535), .structureDescriptorWrite hd0 (long 65535), .portEnable hd0 none 0 (long 1016),
     .channelStatusBlock 0 (long 24) [], .channelStatusBlock 0 [] (long 24), .rtpPacketReceived 0 0 rtp0 (long 65535) {},
     .bfBankWrite hd0 (long 65535), .safeValueWrite hd0 none 0 (long 1016), .submissionFetch 0 (long 65535) {},
     .bar2Access 0 0 0 (some (long 4096)) false, .heartbeatReceived 0 0 (long 65535) {},
     .forceSwitch hd0 none 0 (long 1016), .virekConnect vk0 (long 65535), .virekWrite vk0 (long 65535) {},
     .virekWriteFence vk0 (long 65535) {}, .quarantineRelease hd0 none (long 1016), .logClear hd0 none (long 1016),
     .mirrorClear hd0 none (long 1016), .wakeToleranceWrite hd0 none none (long 1016), .i2cWrite 0 (long 65535),
     .arpIcmpEchoRequest 0 false 0 0 (long 65535)] : List Instr).all (fun i => !i.wf) = true := by
  simp [Instr.wf, atMost_long, optShort]

set_option maxRecDepth 8000 in
theorem wit_TimelineCommandsRun :
    (let s := st (base [] { tl := { ticks := 65536, skew := [(3, 5)] } });
      s.dev.tl.running = true ∧ 65536 ≤ s.dev.tl.ticks ∧ (s.dev.tl.skew.filter fun e => decide (e.2 ≠ 0)) = [(3, 5)]
        ∧ after (.stampReplicaReload [(4, -1)]) s (fun d => d.log.ring.length == 1 && d.tl.skew == [(4, -1)]) = true)
    ∧ (let s := st (base [] { tl := { now := 281474976710655, frac := 4294967295, era := 65535 } });
      s.dev.tl.running = true ∧ 281474976710656 ≤ s.dev.nextCount / 4294967296 ∧ s.dev.tl.slewRem = 0
        ∧ after .eraWrap s (fun d => d.tl.era == 0 && d.tl.now == 4) = true)
    ∧ (let s := st (base [] { tl := { now := 5 } });
      s.dev.tl.running = true ∧ s.dev.nextCount / 4294967296 < 281474976710656
        ∧ after .eraWrap s (fun d => d.tl.era == 0 && d.tl.now == 5) = true)
    ∧ (let s := st (base [] { tl := { slewRem := 1, inc := 0x411AAAAAC } });
      s.dev.tl.running = true ∧ s.dev.tl.slewRem ≠ 0 ∧ slewAfter s.dev.tl.slewRem s.dev.tl.inc = 0
        ∧ after .slewAbsorbed s (fun d => d.tl.inc == nominalInc && d.tl.slewRem == 0) = true)
    ∧ (let s := st (base [] { tl := { slewRem := 2, inc := 0x411AAAAAC } });
      slewAfter s.dev.tl.slewRem s.dev.tl.inc ≠ 0 ∧ after .slewAbsorbed s (fun d => d.tl.slewRem == 2) = true)
    ∧ (∃ e se n, (base []).writeGate {} (wreq 0x2001 1 [1, 0]) none 0x2001 1 [1, 0] = .pass e se n)
    ∧ (∃ e se n, (base []).writeGate { state := fun d _ _ => needState (d.sv = Sv.free || d.sv = Sv.listen) }
        (wreq 0x2001 2 (leBytes 8 9)) none 0x2001 2 (leBytes 8 9) = .pass e se n) :=
  ⟨by decide, by decide, by decide, by decide, by decide, gate_passes (by decide), gate_passes (by decide)⟩

set_option maxRecDepth 8000 in
theorem wit_PtpWritesRun :
    (∃ e se n, (base []).writeGate
      { state := fun d _ n => needState (!(decide (n = 1 ∨ n = 2) && decide (n = d.reg Ob.gmPort))) }
      (wreq 0x2010 1 [1]) none 0x2010 1 [1] = .pass e se n)
    ∧ (∃ e se n, (base [(Ob.servoState, 5)]).writeGate { state := fun d _ _ => needState (d.sv = Sv.refused) }
      (wreq 0x2012 1 [1]) none 0x2012 1 [1] = .pass e se n)
    ∧ (∃ e se n, (base [(Ob.servoState, 5)]).writeGate { state := fun d _ _ => needState (d.sv = Sv.refused) }
      (wreq 0x2012 1 [2]) none 0x2012 1 [2] = .pass e se n)
    ∧ (let d := base [(Ob.servoState, 5), (Ob.refusedOffset, -1000000)];
      d.reg Ob.lockWindow < (d.reg Ob.refusedOffset).natAbs ∧ d.reg Ob.refusedOffset < 0)
    ∧ (∃ e se n, (base []).writeGate
      { state := fun d _ n => needState (!(decide (n ≠ 0) && decide (d.reg Ob.ptpSource ≠ 0) && decide (n = d.reg Ob.activePort))) }
      (wreq 0x2018 1 [2]) none 0x2018 1 [2] = .pass e se n) :=
  ⟨gate_passes (by decide), gate_passes (by decide), gate_passes (by decide), by decide, gate_passes (by decide)⟩

/-- A port that is up. -/
def up (p : Nat) : List (Nat × Int) := [(Ob.ethLinkState p, 1), (Ob.ethEnable p, 1)]

/-- A foreign master. -/
def master7 : Master := { source := 7, gm := 9, prio1 := 1, clockClass := 6, accuracy := 0, variance := 0, prio2 := 0, steps := 0,
                          utc := 37, logAnnounce := 1, stamp := 0 }

set_option maxRecDepth 8000 in
theorem wit_PtpEventsRun :
    (let s := st { base [(Ob.ptpSource, 1), (Ob.activePort, 1), (Ob.servoState, 1)] with servo := { master := some 7 } };
      s.dev.onClient (0 : Fin 2) 0 = true ∧ s.dev.servo.master = some 7
        ∧ after (.ptpSyncReceived 0 7 0 0 1000) s (fun d => d.servo.lastSync == some (1000, 0)) = true)
    ∧ (let s := st (base [(Ob.ptpSource, 1), (Ob.activePort, 1), (Ob.servoState, 1)]);
      s.dev.reg Ob.ptpSource ≠ 0 ∧ s.dev.nat Ob.ptpDomain = 0 ∧ -3 ≤ master7.logAnnounce ∧ master7.logAnnounce ≤ 4
        ∧ (s.dev.reg Ob.ptpProfile = 2 → Config.clockIdentity ∉ master7.path)
        ∧ after (.ptpAnnounceReceived 0 0 master7) s (fun d => d.servo.master == some 7 && d.servo.portA.goodSince == some 0) = true)
    ∧ (let s := st (base [(Ob.ptpSource, 1), (Ob.activePort, 1), (Ob.servoState, 3)]
          { servo := { master := some 7, portA := { masters := [master7], goodSince := some 0 } }, tl := { now := 60000000000 } });
      s.dev.reg Ob.ptpSource ≠ 0 ∧ s.dev.awaited (0 : Fin 2) = some master7 ∧ s.dev.silent master7 = true
        ∧ after (.announceTimeout 0) s (fun d => d.servo.portA.masters.isEmpty && d.sv == 4) = true)
    ∧ (let s := st (base [(Ob.ptpSource, 1), (Ob.activePort, 1), (Ob.servoState, 3)]
          { servo := { master := some 7 }, tl := { now := 60000000000 } });
      s.dev.servo.master.isSome = true
        ∧ s.dev.nat Ob.syncLossCount * logNs s.dev.servo.syncLog ≤ s.dev.ago s.dev.servo.syncAt ∧ after .syncLoss s (fun d => d.sv == 4 && d.servo.master.isNone) = true)
    ∧ (let s := st { base (up 0 ++ [(Ob.ptpSource, 3), (Ob.activePort, 2), (Ob.autoRevertTime, 1)]) with
          servo := { portA := { goodSince := some 0 } }, tl := { running := true, now := 1000000000 } };
      s.dev.reg Ob.ptpSource = 3 ∧ s.dev.reg Ob.activePort = 2 ∧ s.dev.reg Ob.autoRevertTime ≠ 0 ∧ s.dev.reg Ob.gmPort ≠ 1
        ∧ s.dev.portUp 0 = true ∧ s.dev.servo.portA.goodSince = some 0
        ∧ s.dev.nat Ob.autoRevertTime * 1000000000 ≤ s.dev.ago 0
        ∧ after .autoRevert s (fun d => d.reg Ob.activePort == 1) = true)
    ∧ (let s := st (base (up 0 ++ [(Ob.gmPort, 1)]));
      s.dev.reg Ob.gmPort ≠ 0 ∧ s.dev.portUp (s.dev.nat Ob.gmPort - 1) = true ∧ s.dev.ready = true
        ∧ after .gmSyncTransmit s (fun d => d.servo.gmSyncSeq == 1 && d.out.length == 2) = true
        ∧ after .gmAnnounceTransmit s (fun d => d.servo.gmAnnounceSeq == 1 && d.out.length == 1) = true)
    ∧ (let s := st { base [(Ob.ptpSource, 1), (Ob.activePort, 1)] with
          servo := { portA := { delayReqSeq := 4, delayReqAt := some 300 }, lastSync := some (100, 200) } };
      s.dev.onClient (0 : Fin 2) 0 = true ∧ (s.dev.ptpPort 0).delayReqSeq = (3 + 1) % 65536
        ∧ (s.dev.ptpPort 0).delayReqAt = some 300 ∧ s.dev.servo.lastSync = some (100, 200) ∧ s.dev.reg Ob.ptpProfile = 0
        ∧ after (.ptpDelayRespReceived 0 0 3 420 (0, 0)) s (fun d => d.reg Ob.meanPathDelay == 110) = true)
    ∧ (let s := st (base (up 1 ++ [(Ob.gmPort, 2)]));
      s.dev.nat Ob.gmPort = ((1 : Fin 2) : Nat) + 1 ∧ s.dev.nat Ob.gmDomain = 20 ∧ s.dev.ready = true
        ∧ s.dev.portUp 1 = true ∧ s.dev.synBusy 6 = false
        ∧ after (.ptpDelayReqReceived 1 20 3 99 false) s (fun d => d.out.length == 1) = true) :=
  ⟨by decide, by decide, by decide, by decide, by decide, by decide, by decide, by decide⟩

set_option maxRecDepth 8000 in
theorem wit_FenceBarCommandsRun :
      let s := st (base [])
    BarFenceMay s.dev 0 0 5
      ∧ after (.fenceSignal (.bar0 0 5) [7]) s (fun d => (d.fence 5).value == 7) = true
      ∧ after (.fenceAdd (.bar0 0 5) (List.replicate 8 255)) s (fun d => (d.fence 5).value == 18446744073709551615) = true
      ∧ after (.fenceReset (.bar0 0 5)) s (fun d => d.fence 5 == {}) = true
      ∧ after (.fenceSetDeadline (.bar0 0 5) 2 [1, 0, 0, 0, 0, 0, 0, 128]) s
          (fun d => d.fence 5 == { deadline := 1, enabled := true }) = true := by decide

set_option maxRecDepth 8000 in
theorem wit_WaitArm :
    let s := st (base [(inst Ob.qRole 0, 1), (Ob.partQueueCount 0, 1)])
    BarFenceMay s.dev 0 0 5 ∧ s.dev.deliveryOk 0 (leAt [9, 0, 0, 0, 0, 0, 0, 0] 8 8 % 4) (leAt [9, 0, 0, 0, 0, 0, 0, 0] 8 8 / 65536) = true
      ∧ s.dev.waits.length < 16384
      ∧ (s.dev.fence 5).value < leAt [9, 0, 0, 0, 0, 0, 0, 0] 0 8 ∧ (s.dev.fence 5).deadlineMet s.dev.now = false := by decide

set_option maxRecDepth 8000 in
theorem wit_WaitArm_slot : ∃ h, (base [(inst Ob.qRole 0, 1), (Ob.partQueueCount 0, 1)]).freeSlot = some h := by
  exact ⟨_, rfl⟩

set_option maxRecDepth 8000 in
theorem wit_FenceDictionaryCommandsRun :
    (∃ e se n, (base []).writeGate fenceConds (wreq 0x2040 3 (leBytes 8 7)) none 0x2040 3 (leBytes 8 7) = .pass e se n)
    ∧ (∃ e se n, (base []).writeGate fenceConds (wreq 0x2040 4 (leBytes 8 7)) none 0x2040 4 (leBytes 8 7) = .pass e se n)
    ∧ (∃ e se n, (base []).writeGate fenceConds (wreq 0x2040 7 [1]) none 0x2040 7 [1] = .pass e se n)
    ∧ (∃ e se n, (base []).writeGate fenceConds (wreq 0x2040 5 (leBytes 6 7)) none 0x2040 5 (leBytes 6 7) = .pass e se n)
    ∧ (∃ e se n, (base []).writeGate
      { fence := fun _ _ => if (leBytes 4 131071).length = 4 ∧ leNat (leBytes 4 131071) < 131072 then some (leNat (leBytes 4 131071)) else none }
      (wreq 0x2040 1 (leBytes 4 131071)) none 0x2040 1 (leBytes 4 131071) = .pass e se n)
    ∧ (∃ e se n, ({ base [] with waits := [{ handle := 3, fence := 5, target := 1, delivery := 1, dest := 0, part := 0 }] } : Dev).writeGate
      { state := fun d se n => match d.waits.find? fun w => (w.handle : Int) == n with
        | none => some { status := Sc.stateRefused }
        | some w => if w.part = se.part || d.isInt se.part then none else some { status := Sc.notOwner, detail := w.part } }
      (wreq 0x2041 7 (leBytes 2 3)) none 0x2041 7 (leBytes 2 3) = .pass e se n)
    ∧ (let s := st { base [] with fences := [(5, { enabled := true })],
                                  waits := [{ handle := 3, fence := 5, target := 1, delivery := 1, dest := 0, part := 0 }] };
      s.dev.quiesced Isl.tmg = false ∧ s.dev.tl.running = true ∧ s.dev.tl.usDone ≤ s.dev.ext / 1000 ∧ s.dev.dueFences = [5]
        ∧ after .fenceDeadlineTick s (fun d => d.waits.isEmpty && d.tl.usDone == 1 && d.out.length == 1) = true) :=
  ⟨gate_passes (by decide), gate_passes (by decide), gate_passes (by decide), gate_passes (by decide),
    gate_passes (by decide), gate_passes (by decide), by decide⟩

set_option maxRecDepth 8000 in
theorem wit_ClockCommandsRun :
    (let s := st (base []);
      s.dev.nat Ob.bootPhase ≠ 0 ∧ after .xtalStable s (fun d => d.reg Ob.xtalState == 1) = true)
    ∧ (let s := st (withRegs [(Ob.bootPhase, 2), (Ob.xtalState, 1)] {});
      s.dev.reg Ob.xtalState = 1 ∧ s.dev.tl.running = false ∧ s.dev.nat Ob.bootPhase = 2
        ∧ after .rootLock s (fun d => d.tl.running && d.reg Ob.bootPhase == 3 && d.reg (Ob.synthState 3) == 1) = true)
    ∧ (let s := st { base [(Ob.xtalState, 1), (Ob.safeRecordValid, 1)] with flash := [(safeKey 0, 77)] };
      s.dev.reg Ob.xtalState = 1
        ∧ after .crystalLoss s (fun d => d.reg Ob.bootCause == 3 && d.analogCode 0 == 77 && !d.tl.running) = true)
    ∧ (let s := st { base [(Ob.synthState 5, 3)] with tu := { held := [{ syn := 6, at_ := 0, cmd := .pulse 3 }] } };
      (s.dev.reg (Ob.synthState (5 : Fin 6)) = 1 ∨ s.dev.reg (Ob.synthState (5 : Fin 6)) = 3)
        ∧ after (.synthLock 5) s (fun d => d.reg (Ob.synthState 5) == 2 && d.tu.held.isEmpty) = true)
    ∧ (let s := st (base [(Ob.synthState 5, 2)]);
      s.dev.reg (Ob.synthState (5 : Fin 6)) = 2 ∧ after (.synthLockLost 5) s (fun d => d.reg (Ob.synthState 5) == 1) = true)
    ∧ (let h : Held := { syn := 1, at_ := 0, cmd := .pulse 3 };
      let s := st { base [] with tl := { running := true, now := 10000000000 }, tu := { held := [h] } };
      s.dev.tu.held[0]? = some h ∧ s.dev.nat Ob.deferTimeout * 1000000 ≤ s.dev.ago h.at_
        ∧ after (.deferTimeout 0) s (fun d => d.reg (Ob.pulseStatus 3) == 3 && d.reg Ob.deferTimeoutCount == 1) = true) :=
  ⟨by decide, by decide, by decide, by decide, by decide, by decide⟩

set_option maxRecDepth 8000 in
theorem wit_ReferenceCommandsRun :
    (∃ e se n, (base []).writeGate {} (wreq (0x2112 + (5 : Fin 6)) 1 [1]) none (0x2112 + (5 : Fin 6)) 1 [1] = .pass e se n)
    ∧ (let s := st (base [(Ob.refState 4, 1), (Ob.refEnable 4, 1), (Ob.refAcceptWindow 4, 100)]);
      ((4 : Fin 6) : Nat) ≠ 0 ∧ s.dev.reg (Ob.refState (4 : Fin 6)) = 1 ∧ s.dev.refActive (4 : Fin 6) = true
        ∧ (100000 : Int).natAbs ≤ s.dev.nat (Ob.refAcceptWindow (4 : Fin 6)) * 1000
        ∧ after (.refActivityPresent 4 100000) s (fun d => d.reg (Ob.refState 4) == 2) = true)
    ∧ (let s := st (base [(Ob.refState 4, 2), (Ob.refEnable 4, 1)] { tl := { now := 60000000000 } });
      ((4 : Fin 6) : Nat) ≠ 0 ∧ s.dev.reg (Ob.refState (4 : Fin 6)) = 2 ∧ s.dev.refActive (4 : Fin 6) = true
        ∧ (s.dev.refRt (4 : Fin 6)).outSince = none
        ∧ s.dev.nat (Ob.refQualifyTime (4 : Fin 6)) * 1000000000 ≤ s.dev.ago (s.dev.refRt (4 : Fin 6)).goodSince
        ∧ after (.refQualifyTimeout 4) s (fun d => d.reg (Ob.refState 4) == 3) = true)
    ∧ (let s := st (base [(Ob.refState 1, 3)]);
      (s.dev.reg (Ob.refState (1 : Fin 6)) = 2 ∨ s.dev.reg (Ob.refState (1 : Fin 6)) = 3) ∧ s.dev.refLost (1 : Fin 6) = true
        ∧ after (.refActivityLost 1) s (fun d => d.reg (Ob.refState 1) == 1) = true) :=
  ⟨gate_passes (by decide), by decide, by decide, by decide⟩

set_option maxRecDepth 8000 in
theorem wit_SelectorCommandsRun :
    (∃ e se n, (base []).writeGate { state := fun d _ n => needState (d.entryUnique (5 : Fin 6) n) }
      (wreq 0x2111 ((5 : Fin 6) + 1 : Nat) [255]) none 0x2111 ((5 : Fin 6) + 1 : Nat) [255] = .pass e se n)
    ∧ (let s := st (base [(Ob.priorityEntry 0, 1), (Ob.priorityEntry 1, 4), (Ob.selectorState, 2), (Ob.selectedRef, 4), (Ob.refState 1, 3)]
          { tl := { now := 600000000000 } });
      (s.dev.reg Ob.selectorState = 1 ∨ s.dev.reg Ob.selectorState = 2)
        ∧ s.dev.nat Ob.selectedRef ∈ s.dev.listed.1 ∧ s.dev.higher = some ((1 : Fin 6) : Nat)
        ∧ after (.waitToRestoreExpiry 1) s (fun d => d.reg Ob.selectedRef == 1 && d.reg Ob.selectorState == 1) = true)
    ∧ (let s := st (base [(Ob.selectorState, 1), (Ob.selectedRef, 4)]
          { tl := { now := 4000000000 }, tu := { withinCount := 4, withinSince := some 0 } });
      s.dev.reg Ob.selectorState = 1 ∧ s.dev.phaseHeld = true ∧ 0 ≤ s.dev.reg Ob.selectedRef
        ∧ after .dpllLock s (fun d => d.reg Ob.selectorState == 2 && d.reg Ob.selectedRef == 4) = true)
    ∧ (let s := st (base [(Ob.phaseRef, 5)]);
      s.dev.nat Ob.phaseRef = (5 : Fin 6) ∧ after (.refPhaseComparison 5 (-9)) s (fun d => d.reg Ob.phaseError == -9) = true)
    ∧ (∃ e se n, (base []).writeGate {} (wreq 0x2120 1 [1]) none 0x2120 1 [1] = .pass e se n)
    ∧ (∃ e se n, (base [(Ob.selectorState, 4)]).writeGate {} (wreq 0x2120 1 [0]) none 0x2120 1 [0] = .pass e se n)
    ∧ (base [(Ob.selectorState, 4), (Ob.priorityEntry 0, 1), (Ob.refState 1, 3)]).resumed = some 1
    ∧ (base [(Ob.selectorState, 4)]).resumed = none
    ∧ (∃ e se n, (base [(Ob.loopMode, 1)]).writeGate offsetWordConds (wreq 0x2120 2 (leBytes 4 65536)) none 0x2120 2 (leBytes 4 65536)
        = .pass e se n) :=
  ⟨gate_passes (by decide), by decide, by decide, by decide, gate_passes (by decide), gate_passes (by decide), by decide, by decide,
    gate_passes (by decide)⟩

/-- A train of pulses. -/
def train0 : Train := { start := 0, laid := true, left := none }

set_option maxRecDepth 8000 in
theorem wit_PulseCommandsRun :
    (let s := st (base []);
      s.dev.tl.running = true ∧ true = (s.dev.reg Ob.ppsInPolarity == 0) ∧ s.dev.tu.pps = none
        ∧ after (.ppsInEdge true) s (fun d => d.tu.pps == some 0 && d.reg Ob.ppsInInterval == 1000000000) = true)
    ∧ (let s := st { base [] with tl := { running := true, now := 1000000003 }, tu := { pps := some 2 } };
      s.dev.tl.running = true ∧ 999000000 ≤ s.dev.ext - 2 ∧ s.dev.ext - 2 ≤ 1001000000
        ∧ after (.ppsInEdge true) s (fun d => d.reg Ob.ppsInInterval == 1000000001) = true)
    ∧ (let s := st { base [] with tl := { running := true, now := 1400000000 }, tu := { pps := some 2 } };
      1001000000 < s.dev.ext - 2 ∧ s.dev.ext - 2 ≤ 1500000000
        ∧ after (.ppsInEdge true) s (fun d => d.reg Ob.ppsInRejected == 1 && d.tu.pps == some 2) = true)
    ∧ (∃ e se n, (base []).writeGate (pulseConds (12 : Fin 13) (5 : Fin 6)) (wreq (0x2130 + (12 : Fin 13)) ((5 : Fin 6) + 1) (leBytes 4 9)) none
        (0x2130 + (12 : Fin 13)) ((5 : Fin 6) + 1) (leBytes 4 9) = .pass e se n)
    ∧ (∃ e se n, (base []).writeGate (pulseStartConds (0 : Fin 13)) (wreq (0x2130 + (0 : Fin 13)) 8 [1]) none (0x2130 + (0 : Fin 13)) 8 [1] = .pass e se n)
    ∧ (∃ e se n, (base []).writeGate {} (wreq (0x2130 + (0 : Fin 13)) 9 [1]) none (0x2130 + (0 : Fin 13)) 9 [1] = .pass e se n)
    ∧ (let s := st { base [(Ob.synthState 0, 2)] with tu := { trains := [(3, train0)] } };
      s.dev.train (3 : Fin 13) = some train0 ∧ s.dev.coming (3 : Fin 13) train0 = some train0 ∧ train0.stopping = false
        ∧ s.dev.reg (Ob.pulseBase (3 : Fin 13)) = 0 ∧ s.dev.edgeAt (3 : Fin 13) train0 ≤ s.dev.ext
        ∧ s.dev.flipAhead (3 : Fin 13) (s.dev.edgeAt (3 : Fin 13) train0) = false ∧ s.dev.reg (Ob.synthState 0) = 2
        ∧ after (.pulseEdgeDue 3) s (fun d => d.out == [.pulse 3 true 0]) = true)
    ∧ (let t : Train := { train0 with left := some 1 };
      let s := st { base [(Ob.synthState 0, 2)] with tu := { trains := [(3, t)] } };
      s.dev.coming (3 : Fin 13) t = some t
        ∧ after (.pulseEdgeDue 3) s (fun d => d.reg (Ob.pulseStatus 3) == 5) = true)
    ∧ (let t : Train := { train0 with k := 2 };
      let s := st (base [(Ob.synthState 0, 2), (Ob.pulseBase 3, 1), (Ob.pulseRate 3, 3), (Ob.ppsInInterval, 1000000000)]
          { tl := { now := 600000000 }, tu := { trains := [(3, t)], anchors := [(600000000, 1000000000)] } });
      s.dev.coming (3 : Fin 13) t = some t
        ∧ (s.dev.nextAnchor (3 : Fin 13) 0).1 + s.dev.reg (Ob.pulseOffset (3 : Fin 13)) ≤ s.dev.edgeAt (3 : Fin 13) t
        ∧ (s.dev.nextAnchor (3 : Fin 13) 0).1 ≤ s.dev.ext ∧ s.dev.flipAhead (3 : Fin 13) 600000000 = false
        ∧ after (.pulseEdgeDue 3) s (fun d => d.out == [.pulse 3 true 600000000] && d.reg (Ob.pulseEdgesDropped 3) == 1) = true)
    ∧ (let t : Train := { train0 with active := true };
      let s := st (base [] { tl := { now := 10000000 }, tu := { trains := [(3, t)] } });
      s.dev.train (3 : Fin 13) = some t ∧ s.dev.widthOver (3 : Fin 13) t = true
        ∧ after (.pulseWidthEnd 3) s (fun d => d.out == [.pulse 3 false 10000000]) = true) :=
  ⟨by decide, by decide, by decide, gate_passes (by decide), gate_passes (by decide), gate_passes (by decide), by decide,
    by decide, by decide, by decide⟩

set_option maxRecDepth 8000 in
theorem wit_ReadCommandsRun :
    (∃ e se r, (base []).readGate (rq Op.read (readPayload 0x2000 1)) Op.read (readPayload 0x2000 1) 0x2000 1 = .pass e se r)
    ∧ (∃ e se r, (base []).readGate (rq Op.read (readPayload 0x2120 4)) Op.read (readPayload 0x2120 4) 0x2120 4 = .pass e se r)
    ∧ (∃ e se r, (base []).readGate (rq Op.readBlock (readBlockPayload 0x6000 1 0 65536)) Op.readBlock
        (readBlockPayload 0x6000 1 0 65536) 0x6000 1 = .pass e se r)
    ∧ (∃ e se r, (base []).readGate (rq Op.readBlock (readBlockPayload 0x6000 1 0 65537)) Op.readBlock
        (readBlockPayload 0x6000 1 0 65537) 0x6000 1 = .pass e se r) :=
  ⟨read_passes (by decide), read_passes (by decide), read_passes (by decide), read_passes (by decide)⟩

/-- A subscription of that session. -/
def sub0 : Subscr := { handle := 3, key := Ob.refMeasuredOffset 1, mode := 1, interval := 5, changes := 2, sentAt := none, changedAt := 0 }

/-- A session with that subscription. -/
def se0 (x : Subscr) : Session :=
  { id := 1, part := 0, carrier := .mailbox 0, key := [1], confirmed := true, hi := 5, accepted := [5], devSeq := 5, opened := 0,
    lastReq := 0, outst := [], cache := [], subs := [x] }

set_option maxRecDepth 8000 in
theorem wit_Notify :
    (let s := st { base [] with dict := { sessions := [se0 { sub0 with sentAt := some 0 }] } };
      s.dev.session 1 = some (se0 { sub0 with sentAt := some 0 })
        ∧ s.dev.intervalOver { sub0 with sentAt := some 0 } = false)
    ∧ (let s := st { base [] with dict := { sessions := [se0 sub0] } };
      s.dev.session 1 = some (se0 sub0) ∧ ((se0 sub0).subs.find? fun y => y.handle == 3) = some sub0
        ∧ s.dev.intervalOver sub0 = true ∧ s.dev.quiesced Isl.ctl = false
        ∧ after (.notify 1 3 1 9) s (fun d => d.out.length == 2) = true) := by decide

set_option maxRecDepth 8000 in
theorem wit_PlainWriteRuns :
    plainObj 0x2110 2 (leBytes 2 9) = true
    ∧ (∃ e se n, (base []).writeGate (actPlain 0x2110 2).conds (wreq 0x2110 2 (leBytes 2 9)) none 0x2110 2 (leBytes 2 9) = .pass e se n)
    ∧ (∃ r, objRow 0x2110 2 = some r ∧ r.rwp = true) ∧ ¬ BookKey ((base []).resolve 1 (0x2110 * 256 + 2))
    ∧ plainObj 0x2041 3 [2] = true
    ∧ (∃ e se n, (base []).writeGate (actPlain 0x2041 3).conds (wreq 0x2041 3 [2]) none 0x2041 3 [2] = .pass e se n)
    ∧ (∃ r, objRow 0x2041 3 = some r ∧ r.rwp = false) ∧ ¬ BookKey ((base []).resolve 1 (0x2041 * 256 + 3)) :=
  ⟨by decide, gate_passes (by decide), ⟨_, rfl, by decide⟩, by decide, by decide, gate_passes (by decide), ⟨_, rfl, by decide⟩, by decide⟩

/-- A block write whose first segment has come. -/
def block0 (key : Nat) (data : Bytes) (total : Nat) : Block :=
  { sid := 1, part := 0, tag := 7, op := Op.writeBlock, key := key, cond := none, next := 1, total := total, data := data, payload0 := [],
    seq0 := 5, lastSeg := 0 }

/-- A device with that block write. -/
def blockDev (key : Nat) (data : Bytes) (total : Nat) (l : List (Nat × Int) := []) (d : Dev := {}) : Dev :=
  let d := base l d
  { d with dict := { d.dict with blocks := [block0 key data total] } }

set_option maxRecDepth 20000 in
theorem wit_BlockWritesRun :
    blockPasses (blockDev (Ob.partKey 1) (List.replicate 16 5) 16) keyObj 1 (leBytes 4 (crc32c (List.replicate 16 5))) = true
    ∧ blockPasses (blockDev Ob.waitToRestore [9] 2) blockObjOf 1 ([0] ++ leBytes 4 (crc32c [9, 0])) = true := ⟨by decide, by decide⟩

set_option maxRecDepth 8000 in
theorem wit_SessionCommandsRun :
    (∃ se, (base []).session 1 = some se ∧ se.confirmed = true
      ∧ (base [] { tl := { now := 4000000000000 } }).nat Ob.sessionIdleTimeout * 1000000000
          ≤ (base [] { tl := { now := 4000000000000 } }).ago se.lastReq
      ∧ after (.sessionIdleTimeout 1) (st (base [] { tl := { now := 4000000000000 } })) (fun d => d.dict.sessions.isEmpty) = true)
    ∧ (let d := { base [] { tl := { now := 5000000000 } } with dict := { sessions := [{ se0 sub0 with confirmed := false }] } };
      (∃ se, d.session 1 = some se ∧ se.confirmed = false ∧ 5000000000 ≤ d.ago se.opened)
        ∧ after (.sessionConfirmTimeout 1) (st d) (fun d => d.dict.sessions.isEmpty) = true)
    ∧ (∃ e se, (base []).admission (rq Op.hello (helloPayload 0 1 (List.replicate 8 0))) Op.hello (helloPayload 0 1 (List.replicate 8 0))
        false = .go e se) :=
  ⟨⟨_, rfl, by decide, by decide, by decide⟩, ⟨⟨_, rfl, by decide, by decide⟩, by decide⟩,
    ⟨_, _, admits_go (by decide) rfl⟩⟩

set_option maxRecDepth 8000 in
theorem wit_Hello :
    let hd : Hdr := { rq Op.hello (helloPayload 0 0 (List.replicate 8 0)) with session := 0, seq := 0, auth := false, mac := [] }
    let s := st { base [] with dict := {} }
    s.dev.preCheck hd Op.hello (helloPayload 0 0 (List.replicate 8 0)) = none ∧ (List.replicate 8 (0 : Byte)).length = 8
      ∧ s.dev.mayOpen hd.carrier 0 = true ∧ s.dev.atLimit 0 = false ∧ s.dev.session s.dev.newSid = none :=
  ⟨by decide, by decide, by decide, by decide, rfl⟩

/-- A commit in progress. -/
def commit0 : Commit := { vals := [(Ob.waitToRestore, 9)], sid := 1, tag := 7, op := Op.write, payload := [], seq := 5, ver := 1 }

set_option maxRecDepth 8000 in
theorem wit_RequestCommandsRun :
    (let d := base []; let s := st { d with dict := { d.dict with commits := [commit0] } };
      s.dev.dict.commits = commit0 :: []
        ∧ after .rwpCommitDone s (fun d => d.flashVal Ob.waitToRestore == 9 && d.reg Ob.persistCommits == 1) = true)
    ∧ (let d := blockDev Ob.waitToRestore [9] 2 [] { tl := { now := 60000000000 } };
      d.block 1 7 = some (block0 Ob.waitToRestore [9] 2) ∧ d.nat Ob.blockGapTimeout * 1000000 ≤ d.ago (block0 Ob.waitToRestore [9] 2).lastSeg
        ∧ after (.blockGapTimeout 1 7) (st d) (fun d => d.dict.blocks.isEmpty && d.log.ring.length == 1) = true)
    ∧ (∃ e se r, (base []).readGate (rq Op.subscribe (subscribePayload 0x2112 6 1 5)) Op.subscribe (subscribePayload 0x2112 6 1 5) 0x2112 6
        = .pass e se r)
    ∧ (∃ e se r, ({ base [] with dict := { sessions := [{ se0 sub0 with devSeq := 3 }] } } : Dev).readGate
        (rq Op.subscribe (subscribePayload 0x2112 6 0 0 ++ leBytes 2 3)) Op.subscribe
        (subscribePayload 0x2112 6 0 0 ++ leBytes 2 3) 0x2112 6 = .pass e se r)
    ∧ (se0 sub0).subs.any (fun x => x.handle == 3) = true
    ∧ (∃ e se, (base []).admission (rq Op.abort (leBytes 2 7 ++ leBytes 2 0)) Op.abort (leBytes 2 7 ++ leBytes 2 0) false = .go e se)
    ∧ (∃ e se n, (base []).writeGate {} (wreq 0x1001 1 (leBytes 4 54769)) none 0x1001 1 (leBytes 4 54769) = .pass e se n) :=
  ⟨by decide, by decide, read_passes (by decide), read_passes (by decide), by decide, ⟨_, _, admits_go (by decide) rfl⟩,
    gate_passes (by decide)⟩

set_option maxRecDepth 8000 in
theorem wit_CanCommandsRun :
    (let s := st { base [] with dict := { sessions := [{ se0 sub0 with carrier := .can 1 3 }] } };
      s.dev.reg (Ob.canErrorState (1 : Fin 2)) ≠ 2
        ∧ after (.canBusOff 1) s (fun d => d.reg (Ob.canErrorState 1) == 2 && d.dict.sessions.isEmpty) = true)
    ∧ (∃ e se n, (base []).writeGate {} (wreq (0x1210 + (1 : Fin 2)) 9 [1]) none (0x1210 + (1 : Fin 2)) 9 [1] = .pass e se n)
    ∧ (let s := st (base [(Ob.canErrorState 0, 2)]);
      s.dev.reg (Ob.canErrorState (0 : Fin 2)) = 2 ∧ s.dev.reg (canInForce (Ob.canBusOffRecovery (0 : Fin 2))) = 0
        ∧ after (.canBusOffRecovery 0) s (fun d => d.reg (Ob.canErrorState 0) == 0) = true) :=
  ⟨by decide, gate_passes (by decide), by decide⟩

/-- A partner in quarantine until 5. -/
def partner0 : Partner := { id := 0x3001, until_ := some 5 }

set_option maxRecDepth 8000 in
theorem wit_IntegrityCommandsRun :
    (let s := st { base [] with partners := [partner0], tl := { running := true, now := 5 } };
      s.dev.partner 0x3001 = some partner0 ∧ partner0.until_ = some 5 ∧ 5 ≤ s.dev.ext
        ∧ after (.quarantineExpiry 0x3001) s (fun d => !d.quarantinedId 0x3001 && d.log.ring.length == 1) = true)
    ∧ (∃ e se n, ({ base [] with partners := [partner0] } : Dev).writeGate releaseConds (wreq 0x6002 4 (leBytes 2 0x3001)) none 0x6002 4
        (leBytes 2 0x3001) = .pass e se n)
    ∧ (∃ e se n, (base []).writeGate {} (wreq 0x6000 5 (leBytes 4 49642)) none 0x6000 5 (leBytes 4 49642) = .pass e se n)
    ∧ (∃ e se n, (base []).writeGate {} (wreq 0x6001 4 (leBytes 4 49642)) none 0x6001 4 (leBytes 4 49642) = .pass e se n)
    ∧ (let s := st (base []);
      s.dev.ready = true ∧ after (.i2cRead 2 1) s (fun d => d.out == [.i2cData true [8]]) = true
        ∧ after (.i2cWrite 2 [1]) s (fun d => d.out == [.i2cData false []]) = true) :=
  ⟨by decide, gate_passes (by decide), gate_passes (by decide), gate_passes (by decide), by decide⟩

set_option maxRecDepth 8000 in
theorem wit_SupplyCommandsRun :
    (let s := st {};
      s.dev.pins.vin = 0 ∧ s.dev.nat Ob.bootPhase = 0 ∧ s.dev.pow.tripped = false
        ∧ after (.vinAbove3v 3100) s (fun d => d.pins.vin == 1 && d.reg Ob.vinNow == 3100) = true
        ∧ after (.vinValid 20000) s (fun d => d.pins.vin == 2 && d.reg Ob.bootPhase == 1) = true)
    ∧ (let s := st (base []);
      s.dev.nat Ob.bootPhase ≠ 0 ∧ s.dev.pins.vin = 2
        ∧ after (.brownout 6000 true) s (fun d => d.reg Ob.bootCause == 4 && d.log.mirror.length == 1) = true
        ∧ after .sysReset s (fun d => d.reg Ob.bootPhase == 1 && !d.tl.running) = true
        ∧ after .perstNRelease s (fun d => d.pins.perst) = true)
    ∧ (let s := st { base [] with pins := { vio33 := 1 } };
      s.dev.pins.vio (1 : Fin 2) = 1 ∧ after (.vioOvercurrent 1) s (fun d => d.pins.vio33 == 2) = true)
    ∧ (let s := st { base [] with pins := { vio18 := 2 } };
      s.dev.pins.vio (0 : Fin 2) = 2 ∧ after (.vioLimitTimeout 0) s (fun d => d.pins.vio18 == 3 && d.log.ring.length == 1) = true)
    ∧ (let s := st { base [] with pins := { vio18 := 3 } };
      s.dev.pins.vio (0 : Fin 2) = 3 ∧ after (.vioRetry 0) s (fun d => d.pins.vio18 == 1) = true)
    ∧ (∃ e se n, (base []).writeGate {} (wreq 0x7000 8 (leBytes 4 45063)) none 0x7000 8 (leBytes 4 45063) = .pass e se n)
    ∧ (let s := st { withRegs [(Ob.bootPhase, 1)] {} with flash := [(safeKey 1, 9)] };
      s.dev.nat Ob.bootPhase = 1
        ∧ s.dev.dict.restore = false
        ∧ after (.safeValuesApplied 5 true) s (fun d => d.reg Ob.bootPhase == 2 && d.analogCode 1 == 9 && d.pins.vsel == 5) = true)
    ∧ (let s := st { withRegs [(Ob.bootPhase, 1)] {} with flash := [(safeKey 1, 9)], analogOut := [(1, 7)] };
      after (.safeValuesApplied 5 false) s (fun d => d.analogCode 1 == 0 && !d.flag Ob.safeRecordValid) = true) :=
  ⟨by decide, by decide, by decide, by decide, by decide, gate_passes (by decide), by decide, by decide⟩

/-- A device in a phase of start-up. -/
def bootDev (ph : Int) (l : List (Nat × Int)) : Dev := withRegs ((Ob.bootPhase, ph) :: l) {}

set_option maxRecDepth 8000 in
theorem wit_BootCommandsRun :
    (let s := st { bootDev 3 [] with banks := [(0, [])] };
      s.dev.nat Ob.bootPhase = 3 ∧ s.dev.nextBank < 2 ∧ s.dev.nat (Ob.bankTrialAttempts s.dev.nextBank) < s.dev.trialLimit
        ∧ after .bundleVerified s (fun d => d.boot.tried == [0] && d.reg Ob.bankFallbackCause == 8) = true)
    ∧ (let s := st { bootDev 4 [(Ob.activeBank, 0)] with banks := [(0, [])] };
      s.dev.nat Ob.bootPhase = 4 ∧ after .manifestCheck s (fun d => d.boot.tried == [0]) = true)
    ∧ (let s := st { bootDev 4 [(Ob.activeBank, 1)] with tl := { running := true, now := 1000000000 } };
      1000000000 ≤ s.dev.ago s.dev.boot.phaseAt ∧ 3 ≤ s.dev.nat Ob.bootPhase ∧ s.dev.nat Ob.bootPhase ≤ 7 ∧ s.dev.nat Ob.activeBank < 2
        ∧ after .bootWatchdogExpiry s (fun d => d.reg Ob.bootPhase == 1 && d.reg (Ob.bankTrialAttempts 1) == 1) = true)
    ∧ (let s := st { bootDev 5 [(Ob.activeBank, 0), (Ob.computeDiesFitted, 0)] with banks := [(0, [])], boot := { dramTested := 0xFF } };
      s.dev.nat Ob.bootPhase = 5 ∧ s.dev.boot.dramTested = 0xFF ∧ (List.range 4).any s.dev.discovering = false ∧ s.dev.droppedChannels < 4)
    ∧ (bootDev 7 []).nat Ob.bootPhase = 7
    ∧ (let s := st { base [] with startWindow := true, tl := { running := true, now := 1000000000 } };
      1000000000 ≤ s.dev.ago (s.dev.extAt (s.dev.nat Ob.serviceReadyStamp))
        ∧ after .startWindowEnd s (fun d => !d.startWindow) = true) :=
  ⟨by decide, by decide, by decide, by decide, by decide, by decide⟩

set_option maxRecDepth 8000 in
theorem wit_DieCommandsRun :
    (let s := st (bootDev 5 [(Ob.computeDiesFitted, 15)]);
      s.dev.discovering (3 : Fin 4) = true
        ∧ after (.dieLinkTrained 3) s (fun d => d.reg (Ob.dieLinkState 3) == 1) = true
        ∧ after (.dieDiscoveryTimeout 3) s (fun d => d.reg (Ob.dieDropCause 4) == 1 && d.reg (Ob.islState 24) == 6) = true)
    ∧ (let s := st (bootDev 5 [(Ob.computeDiesFitted, 15), (Ob.dieLinkState 3, 1)]);
      s.dev.discovering (3 : Fin 4) = true ∧ s.dev.reg (Ob.dieLinkState (3 : Fin 4)) = 1
        ∧ after (.dieDescriptorReceived 3 []) s (fun d => d.reg (Ob.dieDropCause 4) == 2) = true)
    ∧ (let s := st { bootDev 5 [(Ob.computeDiesFitted, 15)] with blobs := [(Ob.dieDescriptor 1, [1])] };
      s.dev.discovering (0 : Fin 4) = true ∧ s.dev.blob (Ob.dieDescriptor (((0 : Fin 4) : Nat) + 1)) ≠ []
        ∧ after (.dieStartTestDone 0 true 1) s (fun d => d.reg (Ob.dieStatus 1) == 1 && d.reg Ob.enginesInUse == 2) = true
        ∧ after (.dieStartTestDone 0 true 3) s (fun d => d.reg (Ob.dieDropCause 1) == 7) = true)
    ∧ (let s := st (bootDev 5 []);
      s.dev.nat Ob.bootPhase = 5 ∧ bit s.dev.boot.dramTested (7 : Fin 8) = false
        ∧ after (.dramChannelTrained 7 false) s (fun d => d.reg (Ob.dramChannelState 7) == 1 && d.reg Ob.dramChannelsInUse == 127) = true
        ∧ after (.dramChannelTrained 7 true) s (fun d => d.reg (Ob.dramChannelState 7) == 0 && d.boot.dramTested == 128) = true) :=
  ⟨by decide, by decide, by decide, by decide⟩

set_option maxRecDepth 20000 in
theorem wit_UpdateCommandsRun :
    (∃ e se n, (base []).writeGate {} (wreq 0x7010 1 (leBytes 4 65536)) none 0x7010 1 (leBytes 4 65536) = .pass e se n)
    ∧ (∃ e se n, (base []).writeGate {} (wreq 0x7010 3 (leBytes 4 4096)) none 0x7010 3 (leBytes 4 4096) = .pass e se n)
    ∧ blockPasses (blockDev (0x7010 * 256 + 2) [1, 2, 3] 4 [(Ob.updateLength, 4)]) (fun _ => chunkObj) 1
        ([4] ++ leBytes 4 (crc32c [1, 2, 3, 4])) = true
    ∧ (∃ e se n, (base []).writeGate {} (wreq 0x7010 4 [1]) none 0x7010 4 [1] = .pass e se n)
    ∧ (∃ e se n, (base []).writeGate {} (wreq 0x7010 8 [1]) none 0x7010 8 [1] = .pass e se n)
    ∧ (∃ e se n, (base [(Ob.updateState, 3)]).writeGate activateConds (wreq 0x7010 7 [1]) none 0x7010 7 [1] = .pass e se n)
    ∧ (∃ e se n, (base [(Ob.updateState, 3)]).writeGate activateConds (wreq 0x7010 7 [2]) none 0x7010 7 [2] = .pass e se n)
    ∧ (∃ e se n, ({ base [(Ob.activeBank, 1)] with boot := { trialRunning := true } } : Dev).writeGate
        commitConds (wreq 0x7010 9 [1]) none 0x7010 9 [1] = .pass e se n)
    ∧ (base [(Ob.activeBank, 1)]).nat Ob.activeBank < 2
    ∧ (∃ e se n, (base [(Ob.updateOwner, 0)]).writeGate abortConds (wreq 0x7010 12 [1]) none 0x7010 12 [1] = .pass e se n)
    ∧ (let s := st (base [(Ob.updateOwner, 3)] { tl := { now := 60000000000 } });
      s.dev.nat Ob.updateOwner ≠ 0xFF ∧ 60000000000 ≤ s.dev.ago s.dev.boot.updateAt ∧ after .updateClaimTimeout s (fun d => d.reg Ob.updateOwner == 255) = true)
    ∧ (let s := st { base [(Ob.activeBank, 1), (Ob.bankState 1, 3)] with boot := { trial := some 1, trialRunning := true },
                                                                           tl := { running := true, now := 4000000000000 } };
      s.dev.boot.trialRunning = true ∧ s.dev.commitLate = true
        ∧ after .commitTimeout s (fun d => !d.boot.trialRunning && d.boot.trial.isNone && d.reg (Ob.bankState 1) == 1) = true)
    ∧ (∃ e se n, (base [(Ob.keySlotState, 3)]).writeGate revokeConds (wreq 0x7020 3 [1]) none 0x7020 3 [1] = .pass e se n)
    ∧ (∃ e se n, (base []).writeGate floorConds (wreq 0x7020 4 (leBytes 2 0)) none 0x7020 4 (leBytes 2 0) = .pass e se n) :=
  ⟨gate_passes (by decide), gate_passes (by decide), by decide, gate_passes (by decide), gate_passes (by decide), gate_passes (by decide),
    gate_passes (by decide), gate_passes (by decide), by decide, gate_passes (by decide), by decide, by decide, gate_passes (by decide),
    gate_passes (by decide)⟩

/-- A pour descriptor. -/
def pourBytes (flags scene target count : Nat) (area : Bytes) : Bytes :=
  let h := leBytes 4 0x52504E55 ++ leBytes 1 1 ++ leBytes 1 flags ++ leBytes 2 scene ++ leBytes 6 target ++ leBytes 4 0
    ++ leBytes 2 count ++ leBytes 12 0 ++ leBytes 4 area.length ++ leBytes 8 0
  h ++ leBytes 4 (crc32c h) ++ area

/-- Base of pulse output 1 set to 1. -/
def pulseEntry : Bytes := leBytes 2 0x2131 ++ leBytes 1 1 ++ leBytes 1 0 ++ leBytes 2 1 ++ leBytes 2 0 ++ [1, 0, 0, 0]

/-- The entry as read from the descriptor. -/
def pulseRaw : RawEntry := { idx := 0x2131, sub := 1, flags := 0, len := 1, value := [1] }

set_option maxRecDepth 20000 in
theorem wit_PourSubmissionsRun :
    (let b := pourBytes 0 0 9 1 pulseEntry
     let hd := rq Op.pour b
     let se := { se0 sub0 with subs := [], ethPort := 0 };
      PourArrives (base []) hd b ((base []).admitted hd se) se [pulseRaw] ∧ (pourHead b).recall = false ∧ (pourHead b).store = false
        ∧ ((base []).admitted hd se).pourFault se (pourHead b) [pulseRaw] = none)
    ∧ (let b := pourBytes 2 63 9 1 pulseEntry
       let hd := rq Op.pour b
       let se := { se0 sub0 with subs := [], ethPort := 0 };
      PourArrives (base []) hd b ((base []).admitted hd se) se [pulseRaw] ∧ (pourHead b).store = true ∧ (pourHead b).scene ≤ 63
        ∧ ((base []).admitted hd se).storeFault se (pourHead b) [pulseRaw] = none)
    ∧ (let b := pourBytes 1 63 9 0 []
       let d := { base [(Ob.sceneState 63, 1), (Ob.sceneEntries 63, 1), (Ob.sceneOwner 63, 0)] with blobs := [(Ob.sceneContent 63, pulseEntry)] }
       let hd := rq Op.pour b
       let se := { se0 sub0 with subs := [], ethPort := 0 };
      PourArrives d hd b (d.admitted hd se) se [] ∧ (pourHead b).recall = true
        ∧ (d.admitted hd se).pourFault se (pourHead b)
          ((rawEntries ((d.admitted hd se).nat (Ob.sceneEntries 63)) ((d.admitted hd se).blob (Ob.sceneContent 63))).getD []) = none) := by
  refine ⟨⟨⟨admits_go (by decide) (by decide), ?_⟩, ?_, ?_, ?_⟩, ⟨⟨admits_go (by decide) (by decide), ?_⟩, ?_, ?_, ?_⟩,
    ⟨⟨admits_go (by decide) (by decide), ?_⟩, ?_, ?_⟩⟩ <;> decide

/-- A pour. -/
def pour0 (st : Nat) : Pour :=
  { handle := 4, part := 0, target := 0, state := st, gen := some 1, accepted := 0, entries := [], parts := [], ramp := 0, timeout := 1 }

/-- A pour of one value of pulse output 3. -/
def pour1 : Pour :=
  { handle := 4, part := 0, target := 0, state := 2, accepted := 0, loaded := some 0, ramp := 0, timeout := 1,
    entries := [{ key := Ob.pulseRate 3, uid := 0x2133, value := 7 }], parts := [{ uid := 0x2133, island := 1, unit := 3 }] }

set_option maxRecDepth 20000 in
theorem wit_PourProgressRuns :
    (let s := st { base [] with pours := { live := [pour1, { pour0 2 with handle := 5 }] } };
      s.dev.pour 5 = some { pour0 2 with handle := 5 }
        ∧ after (.pourShadowLoaded 5) s (fun d => d.pours.ended.map (fun p => p.state) == [4]) = true)
    ∧ (let s := st { base [] with pours := { live := [pour0 1] } };
      s.dev.pour 4 = some (pour0 1) ∧ (pour0 1).state = 1 ∧ (pour0 1).gen = some 1 ∧ s.dev.genFree 1 = true
        ∧ atOrAfter s.dev.now (pour0 1).target = true
        ∧ after (.pourGenerationReserved 4) s (fun d => d.genReserved == [1]) = true
        ∧ after (.pourBacklogTimeout 4) s (fun d => d.pours.ended.map (fun p => p.state) == [5]) = true)
    ∧ (∃ e se n, ({ base [] with pours := { live := [pour0 1] } } : Dev).writeGate cancelConds (wreq 0x2202 9 (leBytes 2 4)) none 0x2202 9
        (leBytes 2 4) = .pass e se n)
    ∧ (let c : PourCommit := { handle := 4, uid := 7, vals := [(Ob.waitToRestore, 3)] };
      let s := st { base [] with pours := { commits := [c] } };
      (s.dev.pours.commits.find? fun c => c.handle == 4 && c.uid == 7) = some c
        ∧ after (.pourCommitDone 4 7) s (fun d => d.flashVal Ob.waitToRestore == 3 && d.pours.commits.isEmpty) = true)
    ∧ (∃ e se n, (base [(Ob.sceneOwner 63, 0)]).writeGate {} (wreq (0x2240 + (63 : Fin 64)) 6 [1]) none (0x2240 + (63 : Fin 64)) 6 [1]
        = .pass e se n) :=
  ⟨by decide, by decide, gate_passes (by decide), by decide, gate_passes (by decide)⟩

set_option maxRecDepth 20000 in
theorem wit_PourFlipsRun :
    (let s := st { base [] with pours := { live := [pour1] } };
      s.dev.flipAt pour1 { uid := 0x2133, island := 1, unit := 3 } (some 1) = some 0
        ∧ after (.pourFlip 0x2133 none) s (fun d => d.reg (Ob.pulseRate 3) == 7 && d.pours.live.isEmpty) = true)
    ∧ (let s := st { base [] with mix := { ramps := [{ key := 5, start := 0, stop := 0, pour := 0 }] } };
      (s.dev.mix.filters.find? fun w => w.key == 5) = none ∧ after (.rampEnd 5) s (fun d => d.mix.ramps.isEmpty) = true)
    ∧ (let s := st (base []);
      bit (s.dev.nat Ob.lanesInUse) (3 : Fin 4) = true
        ∧ after (.mixLaneDrop 3) s (fun d => d.reg Ob.lanesInUse == 7 && d.reg Ob.stripsInUse == 288) = true) :=
  ⟨by decide, by decide, by decide⟩

/-- Slot 3 bound to virtual channel 1 of CSI-2 port 2. -/
def camRegs : List (Nat × Int) :=
  [(Ob.slotSourceKind 3, 1), (Ob.slotEnable 3, 1), (Ob.slotSourceSelect 3, 18), (Ob.slotLanesInUse 3, 4),
   (Ob.slotKindParam 3 0, 0x2A + 4 * 256 + 65536), (Ob.slotKindParam 3 2, 4 + 2 * 65536), (Ob.slotKindParam 3 5, 1),
   (Ob.slotKindParam 3 6, 9), (Ob.slotKindParam 3 7, 2 + 2 * 65536), (Ob.slotKindParam 3 8, 512), (Ob.slotKindParam 3 3, 1000),
   (Ob.slotIngestLatency 3, 5)]

/-- A frame in progress. -/
def frame0 : CsiFrame := { fs := 5, exposure := 9, cfg := {} }

set_option maxRecDepth 8000 in
theorem wit_CameraCommandsRun :
    (let s := st (base camRegs);
      let c := s.dev.csiCut (2 : Fin 6) (1 : Fin 4);
      let e := c.2.flipSlots (slotHit 1 fun _ sel => sel == ((2 : Fin 6) : Nat) + 16 * (1 : Fin 4));
      s.dev.quiesced Isl.csi = false ∧ s.dev.running = true ∧ kvGet e.csiPend (2 : Fin 6) = none
        ∧ e.csiSlot (2 : Fin 6) (1 : Fin 4) = some 3 ∧ e.nat (Ob.slotLanesInUse 3) ≠ 0
        ∧ after (.csiFrameStart 2 1) s (fun d => ((d.slot 3).frame.map fun f => f.exposure) == some 9) = true)
    ∧ (let s := st { base camRegs with slots := [(3, { frame := some frame0 })] };
      s.dev.quiesced Isl.csi = false ∧ s.dev.csiSlot (2 : Fin 6) (1 : Fin 4) = some 3 ∧ (s.dev.slot 3).frame = some frame0
        ∧ s.dev.kp 3 5 = 1 ∧ frame0.exposed = false ∧ frame0.unmodelled = false ∧ frame0.lines = 0
        ∧ s.dev.kp 3 7 % 65536 + bits (s.dev.kp 3 7) 18 16 ≤ ([0, 0, 1, 2] : Bytes).length
        ∧ after (.csiEmbeddedLine 2 1 { data := [0, 0, 1, 2] }) s (fun d => ((d.slot 3).frame.map fun f => f.exposure) == some 516) = true
        ∧ after (.csiLongPacket 2 1 0x2A true [1, 2, 3, 4] {}) s (fun d => ((d.slot 3).frame.map fun f => f.lines) == some 1) = true
        ∧ after (.csiFrameEnd 2 1) s (fun d => (d.slot 3).frame.isNone && d.reg (Ob.slotItemsTruncated 3) == 1) = true
        ∧ after (.csiFrameStart 2 1) s (fun d => ((d.slot 3).frame.map fun f => f.defect) == some true && d.reg (Ob.slotItemsTruncated 3) == 1) = true)
    ∧ (let s := st (base camRegs);
      (s.dev.slotFor 1 fun j => s.dev.nat (Ob.slotSourceSelect j) % 8 == (2 : Fin 6) && bit (s.dev.kp j 0) 16) = some 3
        ∧ (1 : Nat) = (if ((1 : Fin 4) : Nat) ≥ 2 then 2 else if ((1 : Fin 4) : Nat) = 1 then 1 else 0)
        ∧ 1 < Nat.min (s.dev.nat (Ob.slotLanesInUse 3)) ((kvGet s.dev.csiPend (2 : Fin 6)).getD 4)
        ∧ after (.csiLaneError 2 1) s (fun d => kvGet d.csiPend 2 == some 1) = true)
    ∧ (let s := st (base camRegs { tl := { now := 10000000000 } });
      s.dev.nat (Ob.slotStaleTimeout (3 : Fin 32)) * 1000 ≤ s.dev.ago (s.dev.slot (3 : Fin 32)).lastAt
        ∧ s.dev.running = true ∧ s.dev.nat (Ob.slotSourceKind (3 : Fin 32)) ≠ 0 ∧ s.dev.flag (Ob.slotEnable (3 : Fin 32)) = true
        ∧ (s.dev.slot (3 : Fin 32)).stale = false ∧ s.dev.quiesced (s.dev.slotIsl (3 : Fin 32)) = false
        ∧ s.dev.slotQuarantined (3 : Fin 32) = false
        ∧ after (.slotStaleTimeout 3) s (fun d => d.reg (Ob.slotState 3) == 3) = true) :=
  ⟨by decide, by decide, by decide, by decide⟩

/-- Slot 0 a scanner on port B, slot 1 an SPI sensor on port 2, slot 2 encoder channels 0 and 7, slot 31 a CAN set. -/
def sensorRegs : List (Nat × Int) :=
  [(Ob.slotSourceKind 0, 2), (Ob.slotEnable 0, 1), (Ob.slotSourceSelect 0, 1), (Ob.slotKindParam 0 0, 77), (Ob.slotKindParam 0 1, 2368),
   (Ob.slotKindParam 0 2, 2 + 2 * 65536), (Ob.slotTransitMin 0, 40),
   (Ob.slotSourceKind 1, 3), (Ob.slotEnable 1, 1), (Ob.slotSourceSelect 1, 2), (Ob.slotKindParam 1 0, 262148),
   (Ob.slotKindParam 1 3, 1024), (Ob.slotKindParam 1 4, 30),
   (Ob.slotSourceKind 2, 4), (Ob.slotEnable 2, 1), (Ob.slotSourceSelect 2, 129), (Ob.slotKindParam 2 0, 100000),
   (Ob.slotKindParam 2 2, 0x8080),
   (Ob.slotSourceKind 31, 5), (Ob.slotEnable 31, 1), (Ob.slotSourceSelect 31, 0), (Ob.slotKindParam 31 0, 0x123),
   (Ob.slotKindParam 31 1, 0x7FF), (Ob.slotKindParam 31 2, 65535), (Ob.canEnable 0, 1),
   (Ob.slotIngestLatency 0, 21), (Ob.slotIngestLatency 1, 6), (Ob.slotIngestLatency 2, 5), (Ob.slotIngestLatency 31, 10)]

set_option maxRecDepth 8000 in
theorem wit_SensorCommandsRun :
    (let s := st (base sensorRegs { tl := { running := true, now := 1000 } });
      s.dev.ready = true ∧ s.dev.quiesced (Isl.eta + (1 : Fin 2)) = false
        ∧ (s.dev.slotFor 2 fun j => s.dev.nat (Ob.slotSourceSelect j) % 2 == (1 : Fin 2) && s.dev.kp j 0 == 77
            && s.dev.kp j 1 % 65536 == 2368) = some 0
        ∧ s.dev.slotQuarantined 0 = false ∧ s.dev.kp 0 2 % 65536 + s.dev.kp 0 2 / 65536 ≤ ([1, 2, 3, 4] : Bytes).length
        ∧ s.dev.reg (Ob.slotModelMode 0) = 0
        ∧ after (.scannerDatagram 1 77 2368 false [1, 2, 3, 4] {}) s (fun d => (d.slot 0).lastStamp == some 960) = true)
    ∧ (let s := st (base sensorRegs { tl := { running := true, now := 1000 } });
      s.dev.quiesced Isl.sns = false ∧ s.dev.spiSlot (2 : Fin 4) = some 1 ∧ s.dev.running = true
        ∧ false = !bit (s.dev.kp 1 0) 18 ∧ (s.dev.slot 1).busyAt = none
        ∧ after (.imuDrdyEdge 2 false) s (fun d => (d.slot 1).busyAt == some 1000) = true)
    ∧ (let s := st { base sensorRegs with slots := [(1, { busyAt := some 900 })] };
      (s.dev.slot 1).busyAt = some 900
        ∧ after (.imuDrdyEdge 2 false) s (fun d => (d.slot 1).overrun && d.reg (Ob.slotOverruns 1) == 1) = true
        ∧ after (.imuReadDone 2 [1, 2, 3, 4]) s (fun d => (d.slot 1).lastStamp == some 870) = true)
    ∧ (let s := st (base sensorRegs);
      s.dev.encSlot (7 : Fin 8) = some 2 ∧ bit (s.dev.kp 2 2) (8 + (7 : Fin 8)) = true ∧ (s.dev.enc (7 : Fin 8)).z = none
        ∧ after (.encoderTransition 7 (some true)) s (fun d => (d.enc 7).count == 4294967295) = true
        ∧ after (.encoderTransition 7 none) s (fun d => (d.enc 7).illegal) = true
        ∧ after (.encoderZEdge 7) s (fun d => (d.enc 7).z == some 0) = true)
    ∧ (let s := st { base sensorRegs with encs := [(7, { count := 3, edges := 2 })] };
      s.dev.nat (Ob.slotSourceKind (2 : Fin 32)) = 4 ∧ s.dev.flag (Ob.slotEnable (2 : Fin 32)) = true ∧ s.dev.kp (2 : Fin 32) 0 ≠ 0
        ∧ after (.encoderPeriodEnd 2) s (fun d => d.enc 7 == { count := 3 }) = true)
    ∧ (let s := st (base sensorRegs);
      s.dev.flag (Ob.canEnable (0 : Fin 2)) = true ∧ s.dev.reg (Ob.canErrorState (0 : Fin 2)) ≠ 2
        ∧ (s.dev.slotFor 5 fun j => s.dev.nat (Ob.slotSourceSelect j) % 2 == (0 : Fin 2) && canMatch (s.dev.kp j 0) (s.dev.kp j 1) 0x123 false)
          = some 31
        ∧ after (.canSensorFrame 0 0x123 false [1] { checkOk := false }) s (fun d => d.out.isEmpty) = true
        ∧ after (.canSensorFrame 0 0x123 false [1] {}) s (fun d => d.out.length == 1 && (d.slot 31).lastStamp == some 0) = true
        ∧ after (.canErrorFrame 0 true) s (fun d => d.reg (Ob.canErrorState 0) == 1) = true)
    ∧ (let s := st { base sensorRegs with slots := [(0, { ended := [(1, 2)] })] };
      (s.dev.slot (0 : Fin 32)).ended = (1, 2) :: []
        ∧ after (.modelWindowEnd 0) s (fun d => (d.slot 0).minima == [(1, 2)] && (d.slot 0).ended == []) = true) :=
  ⟨by decide, by decide, by decide, by decide, by decide, by decide, by decide⟩

/-- An item whose data are `n` zeros. -/
def item0 (n : Nat) : Item := { data := List.replicate n 0, len := n }

/-- A grid's build. -/
def build0 : GridBuild :=
  { close := 9, start := 1, cfg := { frame := 0, width := 1, height := 1, cell := 100, bands := [], decay := 0, queue := 0xFFFF },
    extended := false, cleared := false, lateFlag := false, overflow := 0, late := 0, points := [] }

set_option maxRecDepth 8000 in
theorem wit_FusionCommandsRun :
    (let s := st { base [(Ob.poseQueue, 5)] with queues := [(5, { items := [item0 48] })] };
      s.dev.quiesced Isl.fus = false ∧ s.dev.nat Ob.poseQueue ≠ 0xFFFF ∧ (∃ e, s.dev.readQueue (s.dev.nat Ob.poseQueue) = some (item0 48, e))
        ∧ (item0 48).data.length = 48 ∧ s.dev.fus.track = []
        ∧ after .poseRecord s (fun d => d.fus.track.length == 1) = true)
    ∧ (let s := st { base [(Ob.resampleEnable, 1)] with tl := { running := true, now := 20000000 } };
      s.dev.tl.running = true ∧ s.dev.fus.lastTick ≠ some (s.dev.ext / s.dev.tickNs)
        ∧ after .gridTick s (fun d => d.fus.due.length == 1 && d.reg Ob.tickCount == 1) = true)
    ∧ (let s := st { base [] with fus := { due := [5] } };
      s.dev.fus.due = 5 :: [] ∧ s.dev.recordDue 5 = true ∧ after .resampleTickRecord s (fun d => d.fus.recSeq == 1) = true)
    ∧ (let s := st { base [] with stage := [(0, [item0 24])] };
      s.dev.stageItems 0 = item0 24 :: [] ∧ after .gridPointItem s (fun d => (d.stageItems 0).isEmpty) = true)
    ∧ (let s := st { base [] with fus := { grids := [(3, { builds := [build0] })] }, tl := { running := true, now := 100000000 } };
      after .poseWaitExpiry s (fun d => (d.grid 3).builds.all fun b => b.track.isSome) = true
        ∧ after (.pointWaitExpiry 3) s (fun d => (d.grid 3).builds.all fun b => b.pointsDone) = true)
    ∧ (let b := { build0 with pointsDone := true, track := some [] };
       let s := st { base [] with fus := { grids := [(3, { builds := [b], closes := 1 })] } };
      (s.dev.grid (3 : Fin 4)).builds = b :: [] ∧ b.pointsDone = true ∧ b.track.isSome = true) := by
  refine ⟨⟨by decide, by decide, ⟨_, rfl⟩, by decide, by decide, by decide⟩, ?_, ?_, ?_, ?_, ?_⟩ <;> decide

/-- An item of a source. -/
def srcItem (kind num : Nat) : Item := { srcKind := kind, srcNum := num, subject := 100 }

/-- Model 3 resident, enabled on engine 7 and triggered by source 1.5. -/
def modelRegs : List (Nat × Int) :=
  [(Ob.modelEnable 3, 1), (Ob.modelInput 3 0, 0x1005), (Ob.modelPackageState 3, 2), (Ob.modelEngineMask 3, 128),
   (Ob.enginesInUse, 128), (Ob.modelInputDepth 3, 1), (Ob.modelOutputQueue 3, 0xFFFF), (Ob.engineBudget, 8), (Ob.modelBudget 3, 5)]

/-- An inference of model 3 on engine 7. -/
def infer0 (canary : Bool) : Infer :=
  { model := 3, seq := 0, trig := srcItem 1 5, inputs := [], flags := 0, at_ := 0, engine := 7, span := 1, canary := canary }

set_option maxRecDepth 20000 in
theorem wit_TensorCommandsRun :
    (∃ e se n, (base []).writeGate { state := fun d _ _ => needState (d.loadFree 31) } (wreq 0x343F 6 [1]) none 0x343F 6 [1] = .pass e se n)
    ∧ (∃ e se n, (base []).writeGate { state := fun d _ _ => needState (!d.flag (Ob.modelEnable 31)) } (wreq 0x343F 7 [1]) none 0x343F 7 [1]
        = .pass e se n)
    ∧ (let s := st { base [] with ten := { loads := [31] } };
      (s.dev.ten.loads.take 4).contains ((31 : Fin 32) : Nat) = true
        ∧ after (.modelLoadDone 31 false) s (fun d => d.reg (Ob.modelLoadError 31) == 10 && d.ten.loads.isEmpty) = true)
    ∧ (let s := st { base [(Ob.modelPlacement 31, 0x82)] with ten := { models := [(31, { copying := [3] })] } };
      (s.dev.model (31 : Fin 32)).copying.contains ((3 : Fin 4) : Nat) = true
        ∧ after (.deckCopyDone 31 3) s (fun d => d.reg (Ob.modelPlacement 31) == 0x42) = true)
    ∧ (let s := st { base [(Ob.modelPackageState 31, 2)] with ten := { models := [(31, { unloading := true, pkg := [1] })] } };
      (s.dev.model (31 : Fin 32)).unloading = true
        ∧ s.dev.ten.running.any (fun i => i.model == ((31 : Fin 32) : Nat)) = false
        ∧ after (.modelUnloadDone 31) s (fun d => d.reg (Ob.modelPackageState 31) == 0 && d.ten.models.isEmpty) = true)
    ∧ (let s := st { base modelRegs with stage := [(2, [srcItem 1 4, srcItem 1 5])],
                                          ten := { models := [(3, { mask := 128, ready := [srcItem 1 6] })] } };
      s.dev.flipNow (0x10000 + 0x1005) none = false ∧ (0x1005 / 4096 ≠ 3 ∧ ∃ rest, takeFirst (ofSource 0x1005) (s.dev.releaseFrames.stageItems 2) = some (srcItem 1 5, rest))
        ∧ s.dev.flag (Ob.modelEnable 3) = true ∧ s.dev.nat (Ob.modelInput 3 0) = 0x1005 ∧ s.dev.resident 3 = true
        ∧ s.dev.usable 3 ≠ []
        ∧ after (.inferenceTrigger 0x1005) s (fun d => (d.model 3).ready == [srcItem 1 5]) = true)
    ∧ (let s := st { base [] with queues := [(2, { items := [srcItem 3 5] })] };
      0x3002 / 4096 = 3 ∧ ∃ e, s.dev.releaseFrames.readQueue (0x3002 % 4096) = some (srcItem 3 5, e))
    ∧ (let s := st { base modelRegs with ten := { models := [(3, { mask := 128, canary := some 5 })] } };
      s.dev.canaryFor (7 : Fin 8) = some 3 ∧ after (.inferenceDispatch 7) s (fun d => d.ten.running.length == 1) = true)
    ∧ (let s := st { base modelRegs with ten := { models := [(3, { mask := 128, ready := [srcItem 1 5] })] } };
      let x := s.dev.flipAll [0x10000 + s.dev.nat (Ob.modelInput 3 0)] (some (7 : Fin 8));
      s.dev.canaryFor (7 : Fin 8) = none ∧ s.dev.chosen (7 : Fin 8) = some { model := 3, trig := srcItem 1 5 }
        ∧ x.canaryFor (7 : Fin 8) = none ∧ x.chosen (7 : Fin 8) = some { model := 3, trig := srcItem 1 5 }
        ∧ after (.inferenceDispatch 7) s (fun d => d.ten.running.map (fun i => i.trig) == [srcItem 1 5]) = true)
    ∧ (let s := st { base modelRegs with ten := { running := [infer0 false] } };
      (s.dev.ten.running.find? fun i => i.engine == ((7 : Fin 8) : Nat) && !i.canary) = some (infer0 false) ∧ (infer0 false).model < 32
        ∧ (infer0 false).span ≤ 2) :=
  ⟨gate_passes (by decide), gate_passes (by decide), by decide, by decide, by decide, ⟨by decide, ⟨by decide, ⟨_, rfl⟩⟩, by decide⟩,
    ⟨by decide, ⟨_, rfl⟩⟩, by decide, by decide, by decide⟩

/-- Channel 7 bound to model 3, with SafeOutputBit, in a state. -/
def chanRegs (st : Int) : List (Nat × Int) :=
  [(Ob.chanEnable 7, 1), (Ob.chanModel 7, 3), (Ob.chanState 7, st), (Ob.chanSafeOutputBit 7, 1), (Ob.chanFieldSetSelect 7, 15),
   (Ob.cupperState, 1), (Ob.canaryTimeout, 1), (Ob.weightScanPeriod, 1), (Ob.fbkCycle, 1000), (Ob.fbkPointWait, 100)]

set_option maxRecDepth 20000 in
theorem wit_ModelCheckCommandsRun :
    (let s := st { base (modelRegs ++ chanRegs 4) with ten := { models := [(3, { canaryLast := 1, canaryDue := true })] } };
      (s.dev.model (3 : Fin 32)).canaryLast ≠ 2 ∧ (s.dev.model (3 : Fin 32)).canaryDue = true ∧ (s.dev.model (3 : Fin 32)).canary = none ∧ s.dev.reg (Ob.modelPackageState (3 : Fin 32)) = 2
        ∧ after (.canaryRequest 3) s (fun d => (d.model 3).canary == some 0) = true)
    ∧ (let s := st (base (modelRegs ++ chanRegs 4)
          { ten := { models := [(3, { canaryLast := 2, canaryDue := true })] }, tl := { now := 100000000 } });
      (s.dev.model (3 : Fin 32)).canaryAt + 100000000 ≤ s.dev.ext
        ∧ after (.canaryRequest 3) s (fun d => (d.model 3).canary == some 100000000) = true)
    ∧ (let s := st { base (modelRegs ++ chanRegs 4) with ten := { models := [(3, { canary := some 0 })] },
                                                          tl := { running := true, now := 9000000 } };
      (s.dev.model (3 : Fin 32)).canary = some 0 ∧ 0 + s.dev.nat Ob.canaryTimeout * 1000000 ≤ s.dev.ext
        ∧ s.dev.bound (3 : Fin 32) = true ∧ s.dev.quiesced Isl.cup = false
        ∧ (s.dev.model (3 : Fin 32)).scanStart + s.dev.nat Ob.weightScanPeriod * 1000000 ≤ s.dev.ext
        ∧ after (.canaryTimeout 3) s (fun d => (d.model 3).canaryLast == 2) = true
        ∧ after (.weightScanBlock 3 {}) s (fun d => (d.model 3).scanStart == 9000000) = true
        ∧ after (.weightScanOverdue 3) s (fun d => (d.model 3).scanLate) = true)
    ∧ (let s := st { base (modelRegs ++ chanRegs 4) with
          ten := { models := [(3, { canary := some 0, canaryRun := true })], running := [infer0 true] } };
      (s.dev.ten.running.find? fun i => i.engine == ((7 : Fin 8) : Nat) && i.canary) = some (infer0 true)
        ∧ (s.dev.model (infer0 true).model).canary = some (infer0 true).seq ∧ (s.dev.model (infer0 true).model).canaryRun = true) :=
  ⟨by decide, by decide, by decide, by decide⟩

/-- A field set with one field of three vertices. -/
def fieldSet0 : Bytes :=
  let f := [3, 0] ++ leBytes 2 0 ++ leBytes 2 100 ++ [0, 0] ++ List.replicate 12 0 ++ List.replicate 52 0
  let h := leBytes 4 0x44464E55 ++ [1, 1, 1] ++ List.replicate 9 0 ++ f ++ List.replicate 216 0
  h ++ leBytes 4 (crc32c h)

set_option maxRecDepth 20000 in
theorem wit_ChannelCommandsRun :
    (let s := st (base (chanRegs 2) { tl := { running := true, now := 5000000 } });
      4 = (s.dev.ext - s.dev.nat Ob.fbkPointWait * 1000) / s.dev.fbkNs ∧ s.dev.running = true ∧ s.dev.quiesced Isl.fbk = false
        ∧ s.dev.safe.cycle ≠ some 4 ∧ s.dev.nat (Ob.chanState 7) ≠ 0
        ∧ after .fallbackEvaluate s (fun d => d.reg (Ob.chanLastDecision 7) == 4000000) = true)
    ∧ (let s := st (base (chanRegs 4));
      s.dev.nat (Ob.chanState 7) ≠ 0
        ∧ after (.lockstepMismatch 1) s (fun d => d.reg (Ob.chanState 7) == 1 && d.reg Ob.cupperState == 2) = true)
    ∧ (let s := st (base [(Ob.cupperState, 2)]);
      s.dev.reg Ob.cupperState = 2 ∧ after (.cupResetDone true true) s (fun d => d.reg Ob.cupperState == 1) = true
        ∧ after (.cupResetDone true false) s (fun d => d.reg Ob.cupperState == 3) = true)
    ∧ (∃ e se n, (base []).writeGate {} (wreq 0x3617 1 [1]) none 0x3617 1 [1] = .pass e se n)
    ∧ (∃ e se n, (base []).writeGate { state := fun d _ _ => needState (!d.flag (Ob.chanEnable 7) && !d.flag Ob.provisionalActive) }
        (wreq 0x3617 2 [1]) none 0x3617 2 [1] = .pass e se n)
    ∧ (∃ e se n, (base [(Ob.chanState 7, 3)]).writeGate { state := fun d _ _ => needState (d.reg (Ob.chanState 7) == 3) }
        (wreq 0x3617 8 [1]) none 0x3617 8 [1] = .pass e se n)
    ∧ fieldSetOk fieldSet0 = true
    ∧ blockPasses (blockDev (Ob.fieldSet 15) (fieldSet0.take 300) 308) (fun k => fieldSetObj (k / 256 % 16)) 1
        (fieldSet0.drop 300 ++ leBytes 4 (crc32c fieldSet0)) = true :=
  ⟨by decide, by decide, by decide, gate_passes (by decide), gate_passes (by decide), gate_passes (by decide), by decide +kernel, by decide +kernel⟩

/-- Channel 7 alone has SafeOutputBit, and runs. -/
def pairRegs : List (Nat × Int) := chanRegs 4 ++ (List.range 7).map fun k => (Ob.chanSafeOutputBit k, 0)

set_option maxRecDepth 20000 in
theorem wit_SafeOutputCommandsRun :
    (let s := st (base (pairRegs));
      s.dev.pairOn = true ∧ s.dev.safe.pulse = none
        ∧ after (.safeTestPulse 0 true) s (fun d => !d.pins.safeA && d.pins.safeB) = true)
    ∧ (let s := st { base (pairRegs) with safe := { pulse := some 1 } };
      s.dev.pairOn = true ∧ s.dev.safe.pulse = some ((1 : Fin 2) : Nat)
        ∧ after (.safeTestPulse 1 false) s (fun d => d.pins.safeA && d.pins.safeB) = true)
    ∧ (let s := st { base (pairRegs) with safe := { pulse := some 1, fbA := true }, pins := { safeA := true } };
      s.dev.outLevel (0 : Fin 2) = true ∧ s.dev.safe.pulse = some (1 - ((0 : Fin 2) : Nat))
        ∧ after (.safeFeedbackEdge 0 false) s (fun d => d.reg Ob.safeOutputState == 2 && !d.safe.fbA) = true)
    ∧ (let s := st { base (pairRegs) with pins := { safeA := true, safeB := true } };
      s.dev.tl.running = true ∧ s.dev.nat Ob.bootPhase ≠ 6 ∧ s.dev.safe.injecting = false ∧ s.dev.fbLevel (1 : Fin 2) ≠ s.dev.outLevel (1 : Fin 2) ∧ s.dev.reg Ob.safeOutputState ≠ 2
        ∧ s.dev.edgeOld (1 : Fin 2) (s.dev.nat Ob.feedbackDelay * 1000) = true
        ∧ s.dev.edgeOld (2 + (1 : Fin 2)) (s.dev.nat Ob.feedbackDelay * 1000) = true
        ∧ after (.feedbackDelayExpiry 1) s (fun d => d.reg Ob.safeFaults == 1 && !d.pins.safeA) = true)
    ∧ (∃ e se n, (base [(Ob.safeOutputState, 2)]).writeGate { state := fun d _ _ => needState (d.latched && !d.safe.fbA && !d.safe.fbB) }
        (wreq 0x3600 7 [1]) none 0x3600 7 [1] = .pass e se n)
    ∧ (let s := st (bootDev 6 []);
      s.dev.nat Ob.bootPhase = 6 ∧ s.dev.nat Ob.activeBank ≤ 0xFF
        ∧ after (.injectionDone 16379) s (fun d => d.reg Ob.bootPhase == 7 && d.reg Ob.cupperState == 1) = true
        ∧ after (.injectionDone 5) s (fun d => d.reg Ob.injectResult == 5 && d.reg Ob.cupperState == 3) = true)
    ∧ (∃ e se n, (base []).writeGate { state := fun d _ _ => needState d.noChannel } (wreq 0x3600 4 [1]) none 0x3600 4 [1] = .pass e se n) :=
  ⟨by decide, by decide, by decide, by decide, gate_passes (by decide), by decide, gate_passes (by decide)⟩

/-- A batch of no system of structure 63. -/
def batch0 : Batch :=
  { s := 63, req := [], owner := none, floor := 0, lambda := 0, refine := 0, poseSys := 0xFFFF, poseRow := 0, result := 0xFFFF, at_ := 0 }

set_option maxRecDepth 20000 in
theorem wit_SolverCommandsRun :
    blockPasses (blockDev (Ob.structDescriptor 63) (List.replicate 8 1) 9) (fun k => structObj (k / 256 - 0x3840)) 1
        ([1] ++ leBytes 4 (crc32c (List.replicate 9 1))) = true
    ∧ (Ob.structDescriptor 63) / 256 - 0x3840 < 64
    ∧ (let s := st { base [(Ob.structRequestQueue 63, 4)] with queues := [(4, { items := [item0 48] })] };
      let x := s.dev.flipAll (((List.range 64).filter fun n => s.dev.flipNow (0x3840 + n) none).map fun n => 0x3840 + n) none;
      s.dev.solFree = true ∧ x.solFree = true ∧ x.nextRequest = some 63
        ∧ (∃ e, x.readQueue (x.nat (Ob.structRequestQueue 63)) = some (item0 48, e)))
    ∧ (let s := st { base [] with sol := { batch := some batch0 } };
      s.dev.sol.batch = some batch0 ∧ batch0.s < 64 ∧ s.dev.quiesced Isl.sol = false
        ∧ after .solverBatchEnd s (fun d => d.reg (Ob.structSolutionSeq 63) == 1 && d.sol.batch.isNone) = true) :=
  ⟨by decide, by decide, ⟨by decide, by decide, by decide, ⟨_, rfl⟩⟩, by decide⟩

/-- Partner 15 enabled at address 77 on both paths, both ports up. -/
def netRegs (a b : Int) : List (Nat × Int) :=
  [(Ob.peerEnable 15, 1), (Ob.peerIpA 15, 77), (Ob.peerIpB 15, 78), (Ob.peerPathStateA 15, a), (Ob.peerPathStateB 15, b),
   (Ob.peerRestoreCount 15, 1), (Ob.ethLinkState 0, 1), (Ob.ethLinkState 1, 1), (Ob.ethEnable 0, 1), (Ob.ethEnable 1, 1),
   (Ob.synthState 4, 2), (Ob.synthState 5, 2), (Ob.deviceIp, 99), (Ob.peerState 15, 1)]

/-- A heartbeat with sequence 9. -/
def hb0 (path : Nat) : Bytes :=
  let b := leBytes 4 0x42484E55 ++ leBytes 1 1 ++ leBytes 1 path ++ List.replicate 10 0 ++ leBytes 4 9 ++ List.replicate 48 0
  b ++ leBytes 4 (crc32c b)

set_option maxRecDepth 20000 in
theorem wit_PathCommandsRun :
    (let s := st (base (netRegs 1 1) { tl := { running := true, now := 5000000 } });
      s.dev.ready = true ∧ s.dev.net.hbIdx < s.dev.ext / 1000000 ∧ s.dev.flag (Ob.peerEnable 15) = true ∧ s.dev.portUp 0 = true
        ∧ s.dev.portUp 1 = true ∧ s.dev.synBusy 5 = false ∧ s.dev.synBusy 6 = false
        ∧ 3500000 ≤ s.dev.ago (s.dev.peer (15 : Fin 16)).lastAt
        ∧ (∀ p, p < 2 → 1 ≤ s.dev.reg (pathKey (15 : Fin 16) p) ∧ s.dev.reg (pathKey (15 : Fin 16) p) ≤ 3)
        ∧ s.dev.peerOf 5 = none ∧ s.dev.peerOf 78 = some 15
        ∧ s.dev.heartbeatOk 15 (1 : Fin 2) 78 (hb0 1) = true ∧ s.dev.heartbeatOk 15 (1 : Fin 2) 78 [] = false
        ∧ (∀ g ∈ ((s.dev.peer 15).path (1 : Fin 2)).got.head?, g.1 < leAt (hb0 1) 16 4)
        ∧ s.dev.reg (pathKey 15 (1 : Fin 2)) = 1 ∧ s.dev.nat (Ob.peerRestoreCount 15) ≤ 1)
    ∧ (let s := st (base (netRegs 1 1) { tl := { running := true, now := 5000000 } });
      after .heartbeatSend s (fun d => (d.peer 15).txSeq == 1 && d.out.length == 2) = true
        ∧ after (.heartbeatReceived 1 5 [] {}) s (fun d => d.reg Ob.hbUnknown == 1) = true
        ∧ after (.heartbeatReceived 1 78 (hb0 1) {}) s (fun d => d.reg (Ob.peerPathStateB 15) == 2 && (d.peer 15).lastAt == 5000000) = true
        ∧ after (.partnerSilenceTimeout 15) s (fun d => d.reg (Ob.peerState 15) == 2 && d.reg (Ob.peerPathStateB 15) == 4) = true
        ∧ after (.portLinkChange 1 false) s (fun d => d.reg (Ob.peerPathStateB 15) == 3 && d.reg (Ob.peerPathStateA 15) == 1) = true
        ∧ after (.duplicateFrameReceived 1 3 (some (4, 10)) false) s (fun d => d.net.sources.length == 1 && d.reg Ob.wrongLan == 1) = true
        ∧ after (.arpIcmpEchoRequest 0 true 5 99 [1]) s (fun d => d.out.length == 1) = true
        ∧ after (.pauseOrOversizeFrame 1 none) s (fun d => d.reg (Ob.ethFramesDropped 1) == 1) = true)
    ∧ (let s := st { base (netRegs 2 2) with
          net := { partners := [(15, { a := { got := [(9, 0)], run := 1 }, b := { missed := some 8, missRun := 2 } })] },
          tl := { running := true, now := 5000000 } };
      (((s.dev.peer (15 : Fin 16)).path (1 - (1 : Fin 2))).got.any fun g => g.1 == 9 && decide (500000 ≤ s.dev.ago g.2)) = true
        ∧ ((s.dev.peer (15 : Fin 16)).path (1 : Fin 2)).got.any (fun g => g.1 == 9) = false
        ∧ s.dev.reg (pathKey (15 : Fin 16) (1 : Fin 2)) = 2 ∧ (∀ m ∈ ((s.dev.peer (15 : Fin 16)).path (1 : Fin 2)).missed, m < 9)
        ∧ after (.heartbeatMissingCheck 15 1 9) s (fun d => d.reg (Ob.peerPathStateB 15) == 3) = true)
    ∧ (let s := st (base (netRegs 1 1));
      s.dev.reg (Ob.ethLinkState (1 : Fin 2)) ≠ (if false then 1 else 0) ∧ s.dev.quiesced (Isl.eta + (1 : Fin 2)) = false
        ∧ s.dev.nat Ob.bootPhase ≠ 9 ∧ 99 = s.dev.nat Ob.deviceIp ∧ s.dev.synBusy ((0 : Fin 2) + 5) = false) :=
  ⟨by decide, by decide, by decide, by decide⟩

/-- Class 7 in Standby on path A to partner 15. -/
def clsRegs : List (Nat × Int) :=
  [(Ob.clsPartner 7, 15), (Ob.clsActivePath 7, 1), (Ob.clsStandbyHandling 7, 1), (Ob.clsSwapPeriod 7, 1), (Ob.clsMode 7, 0),
   (Ob.clsSwapVerifyTime 7, 3), (Ob.clsHoldTime 7, 3)]

set_option maxRecDepth 20000 in
theorem wit_ClassCommandsRun :
    (let s := st { base (netRegs 2 2 ++ clsRegs) with net := { classes := [(7, { hold := true })] },
                                                       tl := { running := true, now := 5000000000 } };
      (s.dev.cls (7 : Fin 8)).hold = true
        ∧ (s.dev.nat (Ob.clsHoldTime (7 : Fin 8)) * 1000000 : Nat) ≤ stampDiff s.dev.now (s.dev.cls (7 : Fin 8)).suspectAt
        ∧ s.dev.ready = true ∧ s.dev.reg (Ob.clsStandbyHandling (7 : Fin 8)) = 1 ∧ s.dev.standby (7 : Fin 8) = true
        ∧ (s.dev.cls (7 : Fin 8)).swapIdx < s.dev.swapIndex (7 : Fin 8) ∧ ((7 : Fin 8) : Nat) * 125000000 ≤ s.dev.ext
        ∧ after (.holdTimeExpiry 7) s (fun d => !(d.cls 7).hold) = true
        ∧ after (.swapTest 7) s (fun d => d.reg (Ob.clsActivePath 7) == 2 && (d.cls 7).swap.isSome) = true)
    ∧ (let w : Swap := { at_ := 0, left := 1, base := 0, sent := 2 };
       let s := st { base (netRegs 2 2 ++ clsRegs) with net := { classes := [(7, { swap := some w })] },
                                                         tl := { running := true, now := 5000000000 } };
      (s.dev.cls (7 : Fin 8)).swap = some w
        ∧ (s.dev.nat (Ob.clsSwapVerifyTime (7 : Fin 8)) * 1000000 : Nat) ≤ stampDiff s.dev.now w.at_
        ∧ after (.swapVerifyExpiry 7) s (fun d => d.reg (Ob.clsHiddenFaults 7) == 1 && d.reg (Ob.clsActivePath 7) == 2) = true)
    ∧ (∃ e se n, (base (netRegs 2 2 ++ clsRegs)).writeGate
        { state := fun d _ n => needState (d.standby 7 && d.reg (pathKey (d.nat (Ob.clsPartner 7)) (n.toNat - 1)) == 2) }
        (wreq 0x5827 12 [2]) none 0x5827 12 [2] = .pass e se n)
    ∧ after (.serdesRecalDue 1) (st (base [(Ob.synthState 5, 2)])) (fun d => d.reg (Ob.synthState 5) == 1) = true
    ∧ after (.serdesRecalDue 1) (st (base [(Ob.synthState 4, 1)])) (fun d => d.tu.recalWait == [1]) = true :=
  ⟨by decide, by decide, gate_passes (by decide), by decide, by decide⟩

/-- Audio port `p` enabled in both directions, in a state. -/
def portRegs (p : Nat) (state : Int) : List (Nat × Int) :=
  [(Ob.portEnable p, 1), (Ob.portDirection p, 3), (Ob.portState p, state), (Ob.portRole p, 1), (Ob.portRate p, 48000),
   (Ob.ethLinkState 1, 1), (Ob.ethEnable 1, 1), (Ob.portPacketTime p, 1000), (Ob.portChannels p, 1), (Ob.portEncoding p, 0),
   (Ob.portLinkOffset p, 100000)]

set_option maxRecDepth 20000 in
theorem wit_AudioPortCommandsRun :
    (let s := st { base (portRegs 31 2 ++ [(Ob.portConverterState 31, 1), (Ob.portStampQueue 31, 0xFFFF)]) with
          aud := { ports := [(31, { missing := true })] } };
      s.dev.flag (Ob.portEnable (31 : Fin 32)) = true ∧ s.dev.quiesced Isl.apt = false ∧ s.dev.hasInput (31 : Fin 32) = true
        ∧ (s.dev.port (31 : Fin 32)).missing = true ∧ s.dev.reg (Ob.portConverterState (31 : Fin 32)) = 1
        ∧ s.dev.reg (Ob.portState (31 : Fin 32)) = 2
        ∧ after (.portBlockStamp 31 9 0) s (fun d => d.reg (Ob.portBlocksMissing 31) == 1 && (d.port 31).last == some 9) = true
        ∧ after (.converterSettled 31) s (fun d => d.reg (Ob.portConverterState 31) == 2) = true)
    ∧ (let s := st (base (portRegs 7 2));
      s.dev.listening (7 : Fin 32) = true ∧ s.dev.converted (7 : Fin 32) = true
        ∧ after (.portRateMismatch 7 1) s (fun d => d.reg (Ob.portState 7) == 3) = true
        ∧ after (.portRateMismatch 7 48000000) s (fun d => d.reg (Ob.portState 7) == 2) = true
        ∧ s.dev.listening (7 : Fin 8) = true ∧ s.dev.isTarget (7 : Fin 8) = true ∧ s.dev.reg (Ob.portState (7 : Fin 8)) ≠ 1
        ∧ after (.serialWsSlip 7) s (fun d => (d.port 7).slip && d.reg (Ob.portViolations 7) == 1) = true
        ∧ after (.serialClockAbsent 7) s (fun d => d.reg (Ob.portState 7) == 1) = true)
    ∧ (let s := st (base (portRegs 7 1));
      s.dev.listening (7 : Fin 8) = true ∧ s.dev.isTarget (7 : Fin 8) = true ∧ s.dev.reg (Ob.portState (7 : Fin 8)) = 1
        ∧ after (.serialRelock 7) s (fun d => d.reg (Ob.portState 7) == 2) = true)
    ∧ (∃ e se n, (base []).writeGate (portConds 7) (wreq 0x4017 1 [1]) none 0x4017 1 [1] = .pass e se n)
    ∧ (∃ e se n, (base (portRegs 31 2)).writeGate (portConds 31) (wreq 0x402F 1 [0]) none 0x402F 1 [0] = .pass e se n)
    ∧ (∃ e se n, (base (portRegs 31 2)).writeGate (outputConds 31) (wreq 0x402F 10 [1]) none 0x402F 10 [1] = .pass e se n)
    ∧ (∃ e se n, (base []).writeGate {} (wreq 0x402F 11 [1]) none 0x402F 11 [1] = .pass e se n) :=
  ⟨by decide, by decide, by decide, gate_passes (by decide), gate_passes (by decide), gate_passes (by decide), gate_passes (by decide)⟩

set_option maxRecDepth 20000 in
theorem wit_AudioStreamCommandsRun :
    (let s := st (base (portRegs 11 2));
      s.dev.listening (8 + ((3 : Fin 4) : Nat)) = true ∧ s.dev.reg (Ob.portState (8 + (3 : Fin 4))) ≠ 1
        ∧ after (.biphaseFrame 3 false true false) s (fun d => (d.port 11).missing && d.reg (Ob.portViolations 11) == 1) = true
        ∧ after (.biphaseFrame 3 true false false) s (fun d => (d.port 11).bad) = true
        ∧ (List.replicate 24 (0 : Byte)).length = 24 ∧ (List.replicate 48 (0 : Byte)).length = 48
        ∧ after (.channelStatusBlock 3 (List.replicate 24 0) (List.replicate 48 5)) s
            (fun d => d.blob (Ob.portRxUserData 11) == List.replicate 48 5) = true
        ∧ after (.biphaseUnlock 3) s (fun d => d.reg (Ob.portState 11) == 1) = true)
    ∧ (let s := st (base (portRegs 8 1 ++ [(Ob.refState 5, 1), (Ob.refAcceptWindow 5, 1)]));
      s.dev.listening (8 + ((0 : Fin 4) : Nat)) = true ∧ s.dev.reg (Ob.portState (8 + (0 : Fin 4))) = 1
        ∧ after (.biphaseReceiverLock 0 (-1000)) s (fun d => d.reg (Ob.portState 8) == 2 && d.reg (Ob.refState 5) == 2) = true)
    ∧ (let s := st (base (portRegs 31 2));
      s.dev.ready = true ∧ s.dev.portUp (1 : Fin 2) = true ∧ s.dev.listening (16 + ((15 : Fin 16) : Nat)) = true
        ∧ s.dev.portQuarantined 31 = false ∧ s.dev.packetBytes 31 = 96
        ∧ s.dev.rtpLate 31 (s.dev.rtpMedia 31 0) = false
        ∧ after (.rtpPacketReceived 1 15 { version := 1, payloadType := 0, seq := 1, stamp := 0, ssrc := 3 } [] {}) s
            (fun d => d.reg (Ob.portViolations 31) == 1) = true)
    ∧ (let s := st { base (portRegs 31 2 ++ [(Ob.portOutputStatus 31, 2)]) with aud := { ports := [(31, { offsetGen := 5 })] } };
      s.dev.flag (Ob.portEnable (16 + (15 : Fin 16))) = true ∧ s.dev.hasOutput (16 + (15 : Fin 16)) = true
        ∧ s.dev.reg (Ob.portOutputStatus (16 + (15 : Fin 16))) = 2 ∧ s.dev.quiesced Isl.apt = false
        ∧ (s.dev.port (16 + (15 : Fin 16))).offsetGen ≠ s.dev.nat Ob.offsetGeneration
        ∧ after (.rtpPacketTransmit 15 0 {}) s (fun d => (d.port 31).txSeq == 1) = true
        ∧ after (.aes67Realign 15) s (fun d => (d.port 31).realigned) = true) :=
  ⟨by decide, by decide, by decide, by decide⟩

/-- A host audio block of one 16-bit sample. -/
def hostItem : Item := { data := leBytes 6 0 ++ leBytes 2 1 ++ List.replicate 8 0 ++ [1, 2], len := 18 }

/-- A host audio block of no sample. -/
def badHostItem : Item := { data := List.replicate 16 0, len := 16 }

/-- Strip 383 fed by queue 2. -/
def stripRegs : List (Nat × Int) :=
  [(Ob.stripSourceKind 383, 2), (Ob.stripSourceSelect 383, 2), (Ob.stripEnable 383, 1), (Ob.lanesInUse, 15)]

/-- A control item's payload: 5 in one byte. -/
def ctlItem : Item := { data := [5], len := 1, subject := 10, completion := 20 }

/-- Binding 15 to the level of route 63. -/
def bindRegs : List (Nat × Int) :=
  [(Ob.bindControlQueue 15, 2), (Ob.bindTarget 15, 0x473F * 256 + 0x13), (Ob.bindMaxAge 15, 1), (Ob.bindValueFormat 15, 0),
   (Ob.bindValueOffset 15, 0), (Ob.bindScale 15, 100)]

set_option maxRecDepth 20000 in
theorem wit_MixCommandsRun :
    (let s := st (base [(Ob.lanesInUse, 15)]);
      s.dev.domStateNow (0 : Fin 3) = 2 ∧ s.dev.isl Isl.apt = 0 ∧ s.dev.ready = true
        ∧ after (.domainBlock 0 { stamp := 5 }) s (fun d => (d.dom 0).last == some 5 && (d.dom 0).count == 32) = true)
    ∧ (let s := st { base stripRegs with queues := [(2, { items := [hostItem] })] };
      s.dev.reg (Ob.stripSourceKind (383 : Fin 384)) = 2 ∧ s.dev.flag (Ob.stripEnable (383 : Fin 384)) = true
        ∧ s.dev.laneUp (383 : Fin 384) = true ∧ s.dev.quiesced Isl.mix = false ∧ s.dev.quiesced Isl.qmg = false
        ∧ (∃ e, s.dev.readQueue (s.dev.nat (Ob.stripSourceSelect (383 : Fin 384))) = some (hostItem, e))
        ∧ after (.hostAudioBlock 383) s (fun d => d.mix.play == [(playKey 383 2, [{ start := none, left := [33619968] }])]) = true)
    ∧ (let s := st { base stripRegs with queues := [(2, { items := [badHostItem] })] };
      after (.hostAudioBlock 383) s (fun d => d.mix.play.isEmpty && (d.q 2).items.isEmpty) = true)
    ∧ (let s := st { base [(Ob.toneOnTime 7, 1), (Ob.toneOffTime 7, 3), (Ob.toneEnable 7, 1)] with
          mix := { tones := [(7, { on := true, at_ := 0 })] }, tl := { running := true, now := 1000000 } };
      kvGet s.dev.mix.tones (7 : Fin 8) = some { on := true, at_ := 0 } ∧ s.dev.nat (Ob.toneOnTime (7 : Fin 8)) ≠ 0
        ∧ s.dev.flag (Ob.toneEnable (7 : Fin 8)) = true ∧ s.dev.quiesced Isl.mix = false ∧ atOrAfter s.dev.now (stampAdd 0 (1 * 1000000 : Nat)) = true
        ∧ after (.toneCadenceTransition 7) s (fun d => d.mix.tones == [(7, { on := false, at_ := 1000000 })]) = true)
    ∧ (∃ e se n, (base [(Ob.voiceClipLength 3, 4), (Ob.partWindowKind 0 0, 0x32), (Ob.partWindowLength 0 0, 65536)]).writeGate (playConds 3)
        (wreq 0x475B 7 [1]) none 0x475B 7 [1] = .pass e se n)
    ∧ (∃ e se n, (base []).writeGate {} (wreq 0x475B 8 [1]) none 0x475B 8 [1] = .pass e se n)
    ∧ (let s := st { base [(Ob.voiceState 3, 1)] with mix := { voices := [(3, { startAt := some 0, len := 48 })] },
                                                       tl := { running := true, now := 9000000 } };
      (s.dev.voice (3 : Fin 4)).startAt = some 0 ∧ (s.dev.voice (3 : Fin 4)).done = false ∧ s.dev.reg (Ob.voiceState (3 : Fin 4)) = 1
        ∧ after (.voiceClipEnd 3) s (fun d => d.reg (Ob.voiceState 3) == 0 && (d.voice 3).done) = true)
    ∧ (let s := st { base bindRegs with queues := [(2, { items := [ctlItem] })] };
      s.dev.nat (Ob.bindControlQueue (15 : Fin 16)) ≠ 0xFFFF
        ∧ (∃ e, s.dev.readQueue (s.dev.nat (Ob.bindControlQueue (15 : Fin 16))) = some (ctlItem, e))
        ∧ stampDiff ctlItem.completion ctlItem.subject ≤ (s.dev.nat (Ob.bindMaxAge (15 : Fin 16)) * 1000 : Nat)
        ∧ bindTargetOk (s.dev.nat (Ob.bindTarget (15 : Fin 16))) = true ∧ s.dev.unitAbsent 0x473F 0x13 = false
        ∧ (s.dev.controlValue 15 (s.dev.readItem ctlItem).1.data).bind (s.dev.controlApplies 15 (0x473F * 256 + 0x13)) = some 5
        ∧ mixKind (0x473F * 256 + 0x13) ≠ some 2
        ∧ after (.controlItem 15) s (fun d => d.reg (Ob.bindApplied 15) == 1) = true)
    ∧ (let s := st { base bindRegs with queues := [(2, { items := [{ ctlItem with completion := 9999 }] })] };
      after (.controlItem 15) s (fun d => d.reg (Ob.bindDiscarded 15) == 1) = true) :=
  ⟨by decide, ⟨by decide, by decide, by decide, by decide, by decide, ⟨_, rfl⟩, by decide⟩, by decide, by decide, gate_passes (by decide +kernel),
    gate_passes (by decide), by decide,
    ⟨by decide, ⟨_, rfl⟩, by decide, by decide, by decide, by decide, by decide, by decide⟩, by decide⟩

/-- A coefficient bank of zeros, its check last. -/
def bank0 : Bytes := List.replicate 8192 0 ++ leBytes 4 (crc32c (List.replicate 8192 0))

set_option maxRecDepth 20000 in
theorem wit_BfBankWrite :
    blockPasses (blockDev (0x4743 * 256 + 0x3F) (List.replicate 8192 0) 8196) bankObj 1
      (leBytes 4 (crc32c (List.replicate 8192 0)) ++ leBytes 4 (crc32c bank0)) = true := by decide +kernel

/-- Analog channel `ch` in a state, with a valid record of safe values. -/
def anaRegs (ch : Nat) (state : Int) : List (Nat × Int) := [(anaState ch, state), (Ob.safeRecordValid, 1), (Ob.synthState 3, 2)]

set_option maxRecDepth 20000 in
theorem wit_AnalogCommandsRun :
    (∃ e se n, (base (anaRegs 3 0)).writeGate (anaStartConds 3) (wreq (anaIndex 3) 3 [1]) none (anaIndex 3) 3 [1] = .pass e se n)
    ∧ (∃ e se n, (base (anaRegs 11 0)).writeGate (anaStartConds 11) (wreq (anaIndex 11) 2 [1]) none (anaIndex 11) 2 [1] = .pass e se n)
    ∧ (∃ e se n, (base (anaRegs 3 2)).writeGate {} (wreq (anaIndex 3) 4 [1]) none (anaIndex 3) 4 [1] = .pass e se n)
    ∧ (∃ e se n, (base (anaRegs 11 2)).writeGate {} (wreq (anaIndex 11) 3 [1]) none (anaIndex 11) 3 [1] = .pass e se n)
    ∧ (∃ e se n, (base (anaRegs 11 3)).writeGate { state := fun d _ _ => needState (d.reg (anaState 11) == 3) }
        (wreq (anaIndex 11) 0x13 [1]) none (anaIndex 11) 0x13 [1] = .pass e se n)
    ∧ (∃ e se n, (base []).writeGate {} (wreq (anaIndex 3) 6 (leBytes 2 9)) none (anaIndex 3) 6 (leBytes 2 9) = .pass e se n)
    ∧ (∃ e se n, (base []).writeGate {} (wreq (anaIndex 11) 4 (leBytes 2 9)) none (anaIndex 11) 4 (leBytes 2 9) = .pass e se n)
    ∧ (let s := st { base (anaRegs 11 1) with tl := { running := true, now := 90000000000 } };
      s.dev.reg (anaState (11 : Fin 12)) = 1
        ∧ s.dev.nat (anaKey (11 : Fin 12) 0x10) * 1000000 ≤ s.dev.ago ((kvGet s.dev.ana.settleAt (11 : Fin 12)).getD 0)
        ∧ after (.settleTimeExpiry 11) s (fun d => d.reg (anaState 11) == 2) = true)
    ∧ (let s := st (base (anaRegs 11 1));
      s.dev.reg (anaState (11 : Fin 12)) = 1
        ∧ s.dev.ago ((kvGet s.dev.ana.settleAt (11 : Fin 12)).getD 0) < s.dev.nat (anaKey (11 : Fin 12) 0x10) * 1000000
        ∧ after (.settleTimeExpiry 11) s (fun d => d.reg (anaState 11) == 1) = true)
    ∧ (let d := base (anaRegs 3 0); d.dacWaits (3 : Fin 12) = false ∧ d.synBusy 4 = false)
    ∧ (base [(Ob.synthState 3, 1)]).synBusy 4 = true
    ∧ ({ base [] with tu := { held := [{ syn := 4, at_ := 0, cmd := .dac 3 }] } } : Dev).dacWaits (3 : Fin 12) = true :=
  ⟨gate_passes (by decide), gate_passes (by decide), gate_passes (by decide), gate_passes (by decide), gate_passes (by decide),
    gate_passes (by decide), gate_passes (by decide), by decide, by decide, by decide, by decide, by decide⟩

/-- Channel 11 and DAC channel 3 in RUN, channel 11 read back at input 4 + 3 of gain 1, at the end of a window. -/
def windowDev (fails : Assoc Nat) (count : Int) : Dev :=
  base (anaRegs 11 2 ++ [(Ob.pwmMonInput 7, 3), (Ob.pwmMonGain 7, 65536), (Ob.pwmSetpoint 7, 100), (Ob.pwmTolerance 7, 10),
      (anaKey 11 0x11, count), (anaState 3, 1)])
    { tl := { now := 90000000000 }, ana := { fails := fails, railIn := [(15, 2)], railOut := [(14, 2)], railBad := [15] },
      flash := [(safeKey 11, 55)] }

/-- The means of a window, input 7 at `x`. -/
def meansAt (x : Nat) : List Nat := List.replicate 7 0 ++ [x]

set_option maxRecDepth 20000 in
theorem wit_ReadbackCommandsRun :
    (let s := st (windowDev [(11, 1)] 3);
      s.dev.windowDue = true ∧ s.dev.reg (anaState 11) = 2 ∧ s.dev.safe.injecting = false ∧ s.dev.monInput 11 = 7
        ∧ (s.dev.onAna fun a => { a with winIdx := s.dev.ext / (Nat.max 1 (s.dev.nat Ob.readbackWindow) * 1000) }).expected 11 = some (100, none)
        ∧ (10 : Int) < (((meansAt 111).getD 7 0 : Int) - 100).natAbs ∧ ¬ (10 : Int) < (((meansAt 110).getD 7 0 : Int) - 100).natAbs
        ∧ after (.readbackWindowEnd (meansAt 111) [] []) s (fun d => kvGet d.ana.fails 11 == some 2 && d.reg (Ob.adcMean 7) == 111
          && d.reg (anaState 11) == 2 && d.ana.railBad.isEmpty) = true
        ∧ after (.readbackWindowEnd (meansAt 110) [] []) s (fun d => kvGet d.ana.fails 11 == none) = true)
    ∧ (let s := st (windowDev [(11, 2)] 3);
      s.dev.nat (anaKey 11 0x11) ≤ (kvGet s.dev.ana.fails 11).getD 0 + 1
        ∧ after (.readbackWindowEnd (meansAt 89) [] []) s (fun d => d.reg (anaState 11) == 3 && d.analogCode 11 == 55
          && d.reg (anaKey 11 0x15) == 1) = true)
    ∧ (let s := st (windowDev [] 3);
      2 ≤ (kvGet s.dev.ana.railOut (12 + 2)).getD 0 ∧ 12 + 2 ∉ s.dev.ana.railBad ∧ 2 ≤ (kvGet s.dev.ana.railIn (12 + 3)).getD 0
        ∧ after (.readbackWindowEnd (meansAt 100) [] [true, true, false]) s (fun d => d.ana.railBad == [14] && d.reg (anaState 11) == 0
          && d.reg (anaState 3) == 0) = true) :=
  ⟨by decide, by decide, by decide⟩

/-- Beacon receiver 1 enabled, in a state. -/
def beaconRegs (state : Int) : List (Nat × Int) := [(Ob.beaconEnable 1, 1), (Ob.beaconState 1, state), (Ob.beaconQueue 1, 0xFFFF)]

set_option maxRecDepth 20000 in
theorem wit_BeaconCommandsRun :
    (let s := st (base (beaconRegs 2));
      s.dev.beaconOn (1 : Fin 2) = true ∧ s.dev.reg (Ob.beaconState (1 : Fin 2)) = 2
        ∧ (∀ t ∈ kvGet s.dev.ana.resyncAt (1 : Fin 2), t ≤ s.dev.extAt 5) ∧ bits 0xD4000000 31 24 = 0xD4
        ∧ after (.beaconFrame 1 5 0xD4000000 1 2) s (fun d => d.reg (Ob.beaconFramesGood 1) == 1 && d.reg (Ob.beaconState 1) == 1) = true
        ∧ after (.beaconFrame 1 5 0xD4000001 1 2) s (fun d => d.reg (Ob.beaconFramesBad 1) == 1) = true
        ∧ after (.beaconViolation 1 true) s (fun d => d.reg (Ob.beaconViolationAborts 1) == 1 && d.reg (Ob.beaconState 1) == 4) = true
        ∧ after (.beaconFlood 1 3 4 true) s (fun d => d.reg (Ob.beaconFloodAborts 1) == 1 && d.reg (Ob.beaconState 1) == 3) = true)
    ∧ (let s := st (base (beaconRegs 3));
      s.dev.beaconOn (1 : Fin 2) = true ∧ s.dev.reg (Ob.beaconState (1 : Fin 2)) = 3
        ∧ after (.beaconFloodEnd 1) s (fun d => d.reg (Ob.beaconState 1) == 4) = true)
    ∧ (let s := st (base (beaconRegs 4) { tl := { now := 2000000 } });
      s.dev.beaconOn (1 : Fin 2) = true ∧ s.dev.reg (Ob.beaconState (1 : Fin 2)) = 4
        ∧ 2000000 ≤ s.dev.ago ((kvGet s.dev.ana.cleanFrom (1 : Fin 2)).getD 0)
        ∧ after (.beaconResync 1) s (fun d => d.ana.resyncAt == [(1, 2000000)]) = true) :=
  ⟨by decide, by decide, by decide⟩

/-- Queue 5 of partition 0, served by function 0 through a PCIe window, in a role, with a ring of four slots. -/
def queueRegs (role : Int) : List (Nat × Int) :=
  [(inst Ob.qEnable 5, 1), (inst Ob.qRole 5, role), (inst Ob.qRingSlots 5, 4), (inst Ob.qSlotSize 5, 64), (inst Ob.qCapacity 5, 2),
   (inst Ob.qCellLimit 5, 100), (inst Ob.qStaleTime 5, 1), (Ob.partQueueFirst 0, 5), (Ob.partQueueCount 0, 1),
   (inst Ob.qNotifyVector 5, 0xFFFF)]

/-- The same, of a Virek peer. -/
def peerQueue (role : Int) : Dev := (base (queueRegs role)).set (Ob.partAttachKind 0) 1

set_option maxRecDepth 20000 in
theorem wit_QueueCommandsRun :
    (let s := st (base (queueRegs 0));
      s.dev.quiesced Isl.qmg = false ∧ s.dev.qreg Ob.qEnable (5 : Fin 4096) ≠ 0
        ∧ (let e := s.dev.handover (if (item0 3).payKind = 1 then 8 else s.dev.recordPoint (5 : Fin 4096)) 15 (item0 3).srcKind
            (item0 3).srcNum {};
          e.fullFor (5 : Fin 4096) (e.q (5 : Fin 4096)).items ((item0 3).flag (({} : Found).outcome)) = false)
        ∧ s.dev.qreg Ob.qEnable (6 : Fin 4096) = 0
        ∧ after (.itemEnqueue 5 (item0 3) {}) s (fun d => (d.q 5).items.length == 1) = true
        ∧ after (.itemEnqueue 6 (item0 3) {}) s (fun d => d.reg (inst Ob.qDropped 6) == 1) = true)
    ∧ (let s := st { base (queueRegs 1) with queues := [(5, { items := [item0 3], prod := 7, cons := 5 })] };
      s.dev.ringOwner (5 : Fin 4096) 1 = some 0
        ∧ ring32 (s.dev.q (5 : Fin 4096)).prod (s.dev.q (5 : Fin 4096)).cons < s.dev.qreg Ob.qRingSlots (5 : Fin 4096)
        ∧ (∃ e, s.dev.dequeue (5 : Fin 4096) = some (item0 3, e))
        ∧ s.dev.partOf (.mailbox (0 : Fin 4)) = some 0 ∧ s.dev.serving = true ∧ s.dev.quarantinedId (partnerId 1 0) = false
        ∧ s.dev.ownPage 0 (5 : Fin 4096) = true ∧ s.dev.qreg Ob.qRole (5 : Fin 4096) = 1
        ∧ after (.deliverySlotWrite 5 {} {} {}) s (fun d => (d.q 5).prod == 8 && (d.q 5).items.isEmpty) = true
        ∧ after (.deliveryConsWrite 0 5 7) s (fun d => (d.q 5).cons == 7) = true
        ∧ after (.deliveryConsWrite 0 5 8) s (fun d => (d.q 5).cons == 5) = true)
    ∧ (let s := st { base (queueRegs 2) with queues := [(5, { prod := 6, cons := 5 })] };
      s.dev.ringOwner (5 : Fin 4096) 2 = some 0 ∧ (s.dev.q (5 : Fin 4096)).prod ≠ (s.dev.q (5 : Fin 4096)).cons
        ∧ s.dev.qreg Ob.qRole (5 : Fin 4096) = 2
        ∧ after (.submissionDoorbell 0 5 9) s (fun d => (d.q 5).prod == 9) = true
        ∧ after (.submissionDoorbell 0 5 10) s (fun d => (d.q 5).prod == 6) = true
        ∧ after (.submissionFetch 5 (List.replicate 64 0) {}) s (fun d => (d.q 5).cons == 6 && (d.q 5).items.length == 1) = true)
    ∧ (let s := st { peerQueue 1 with queues := [(5, { prod := 7, cons := 5 })], mem := [⟨4, 6⟩] };
      s.dev.ringOwner (5 : Fin 4096) (s.dev.qreg Ob.qRole (5 : Fin 4096)) = some 0 ∧ s.dev.nat (Ob.partAttachKind 0) = 1
        ∧ after (.virekRingPoll 5) s (fun d => (d.q 5).cons == 6) = true)
    ∧ (let s := st { peerQueue 2 with queues := [(5, { prod := 5, cons := 5 })], mem := [⟨0, 6⟩] };
      s.dev.ringOwner (5 : Fin 4096) (s.dev.qreg Ob.qRole (5 : Fin 4096)) = some 0 ∧ s.dev.qreg Ob.qRole (5 : Fin 4096) = 2
        ∧ after (.virekRingPoll 5) s (fun d => (d.q 5).prod == 6) = true)
    ∧ (let s := st { base (queueRegs 0) with queues := [(5, { items := [item0 3] })], tl := { running := true, now := 5000 } };
      s.dev.qreg Ob.qStaleTime (5 : Fin 4096) ≠ 0 ∧ (s.dev.q (5 : Fin 4096)).items ≠ [] ∧ (s.dev.q (5 : Fin 4096)).stale = false
        ∧ (s.dev.qreg Ob.qStaleTime (5 : Fin 4096) * 1000 : Nat) ≤ stampDiff s.dev.now (s.dev.q (5 : Fin 4096)).since
        ∧ after (.staleTimeExpiry 5) s (fun d => (d.q 5).stale) = true)
    ∧ (∃ e se n, (base [(Ob.partQueueFirst 0, 0), (Ob.partQueueCount 0, 9)]).writeGate queueEnableConds (wreq 0x5002 2 [1]) none 0x5002 2 [1]
        = .pass e se n)
    ∧ (∃ e se n, (base [(Ob.partQueueFirst 0, 0), (Ob.partQueueCount 0, 9)]).writeGate queueEnableConds (wreq 0x5002 2 [0]) none 0x5002 2 [0]
        = .pass e se n) :=
  ⟨by decide, ⟨by decide, by decide, ⟨_, rfl⟩, by decide, by decide, by decide, by decide, by decide, by decide, by decide, by decide⟩,
    by decide, by decide, by decide, by decide, gate_passes (by decide), gate_passes (by decide)⟩

/-- A window of partition 0 over all of DRAM's first 64 KB. -/
def winRegs : List (Nat × Int) := [(Ob.partApertureBase 0, 0), (Ob.partWindowKind 0 0, 0x32), (Ob.partWindowLength 0 0, 65536)]

set_option maxRecDepth 20000 in
theorem wit_HostPortCommandsRun :
    (let s := st { base winRegs with mbox := [(0, { slots := 4 })], barLatch := [(0, (0x2000, 9))] };
      s.dev.BarMay (0 : Fin 4) 0
        ∧ after (.mailboxDoorbell 0 0x18 4) s (fun d => (d.mailbox 0).reqProd == 4) = true
        ∧ after (.mailboxDoorbell 0 0x18 5) s (fun d => (d.mailbox 0).reqProd == 0) = true
        ∧ after (.ansConsWrite 0 0) s (fun d => (d.mailbox 0).ansCons == 0) = true
        ∧ barShape 2 4 = false
        ∧ after (.bar2Access 0 6 0 (some [7]) false) s (fun d => d.mem == [⟨6, 7⟩]) = true
        ∧ barShape 0x2000 (if true then 8 else 4) = true ∧ s.dev.barOutside 0 0x2000 = false
        ∧ barShape 0x2004 (if false then 8 else 4) = true ∧ kvGet s.dev.barLatch (0 : Fin 4) = some (0x2000, 9) ∧ wideReg 0x2000 = true
        ∧ after (.bar0HighLatchRead 0 0x2004 false) s (fun d => d.out == [.barRead 0 9] && d.barLatch.isEmpty) = true
        ∧ after (.bar0HighLatchRead 0 0x2000 true) s (fun d => d.out == [.barRead 0 0]) = true
        ∧ after (.bar0InvalidAccess 0 2 4 false) s (fun d => d.out == [.barRead 0 0]) = true
        ∧ after (.bar2Access 0 6 2 none true) s (fun d => d.out == [.barBytes 0 [255, 255]]) = true) := by
  unfold Dev.BarMay; decide

/-- A Virek peer of partition 0 at address 77 with window 63, its connection in slot 4. -/
def virekRegs : List (Nat × Int) :=
  winRegs ++ [(Ob.virekEnable, 1), (Ob.ethLinkState 1, 1), (Ob.ethEnable 1, 1), (Ob.winState 63, 1), (Ob.winKey 63, 9), (Ob.winOwner 63, 0),
    (Ob.winRights 63, 7), (Ob.winLength 63, 1024), (Ob.winFenceCount 63, 2), (Ob.virekAckEvery, 8), (Ob.virekRetryLimit, 3),
    (Ob.virekRtoMax, 100), (Ob.virekQuiesceHoldMax, 5), (Ob.ethMaxFrame 0, 1500), (Ob.ethMaxFrame 1, 1500), (Ob.clsActivePath 0, 2)]

/-- That connection. -/
def conn0 : Conn := { id := 4, part := 0, ip := 77, port := 51730, granted := 65536, credit := 0, rto := 1, rtoAt := 0, lastRx := 0, opened := 0 }

/-- A data packet sent on it. -/
def vdata0 : VirekData := { psn := 0, addr := 0, len := 1, off := 0, key := 9, tag := 0, last := true }

/-- A packet on it. -/
def vhdr0 : VirekHdr := { port := 1, srcIp := 77, srcPort := 51730, conn := 4, key := 9, credit := 5, length := 2 }

/-- A device with it. -/
def vdev (c : Conn) : Dev :=
  { base virekRegs with virek := { conns := [(4, c)] }, tl := { running := true, now := 2000000000 } }

set_option maxRecDepth 20000 in
theorem wit_VirekPacketsRun :
    (let s := st (vdev conn0);
      s.dev.VirekArrives vhdr0 conn0 ∧ s.dev.quiesced Isl.ctl = false ∧ psnDiff vhdr0.psn conn0.rxExp = 0
        ∧ s.dev.VirekPasses vhdr0 conn0 0x10 63 ∧ s.dev.VirekPasses vhdr0 conn0 0x12 63 ∧ s.dev.VirekPasses vhdr0 conn0 0x13 63
        ∧ s.dev.VirekPasses vhdr0 conn0 0x14 63
        ∧ ([1, 2] : Bytes).length = vhdr0.length ∧ ([1, 2] : Bytes).length ≤ s.dev.segmentSize
        ∧ Found.outcome {} ≠ .bad ∧ Found.outcome {} ≠ .unproven)
    ∧ (let s := st (vdev conn0);
      after (.virekConnect vhdr0 []) s (fun d => d.reg Ob.virekBadPackets == 1) = true
        ∧ after (.virekPacketInvalid 1 77 5 9) s (fun d => d.reg Ob.virekBadPackets == 1) = true
        ∧ after (.virekAck vhdr0) s (fun d => ((d.conn 4).map fun c => c.credit) == some 5) = true
        ∧ after (.virekPing vhdr0) s (fun d => ((d.conn 4).map fun c => c.lastRx) == some 2000000000) = true
        ∧ after (.virekDisconnect vhdr0) s (fun d => (d.conn 4).isNone && d.epoch 4 == 1) = true
        ∧ after (.virekQuiesce vhdr0) s (fun d => ((d.conn 4).map fun c => c.state) == some 3) = true
        ∧ after (.virekRead vhdr0 []) s (fun d => ((d.conn 4).map fun c => c.bytesRead) == some 2 && d.reg (Ob.winOps 63) == 1) = true
        ∧ after (.virekFenceAdd { vhdr0 with value := 3 }) s (fun d => (d.fence 0).value == 3) = true
        ∧ after (.virekWrite vhdr0 [1, 2] {}) s (fun d => ((d.conn 4).map fun c => c.pend.length) == some 1) = true
        ∧ after (.virekWriteFence { vhdr0 with last := true } [1, 2] {}) s
            (fun d => ((d.conn 4).map fun c => c.pend.map fun w => w.fence) == some [some (0, 0)]) = true)
    ∧ (let c := { conn0 with sent := [vdata0] };
       let s := st (vdev c);
      s.dev.VirekArrives { vhdr0 with status := 1 } c ∧ c.state ≠ 3 ∧ psnDiff 0 c.txAck ≤ 0 ∧ c.sent ≠ []
        ∧ after (.virekNak { vhdr0 with status := 1 }) s (fun d => ((d.conn 4).map fun c => c.retries) == some 1) = true) := by
  unfold Dev.VirekArrives Dev.VirekMay Dev.VirekPasses
  refine ⟨?_, ?_, ?_⟩ <;> decide

set_option maxRecDepth 20000 in
theorem wit_VirekCommandsRun :
    (let c := { conn0 with pend := [{ addr := 1, data := [7], fence := some (0, 2) }], ackSince := some 0, stallSince := some 0,
                           sent := [vdata0] }
     let s := st (vdev c);
      s.dev.conn (4 : Fin 256) = some c ∧ s.dev.quiesced Isl.drc = false ∧ s.dev.quiesced Isl.tmg = false ∧ (s.dev.fence 0).value < 2
        ∧ (s.dev.nat Ob.virekAckDelay * 1000 : Nat) ≤ stampDiff s.dev.now 0 ∧ c.state ≠ 3 ∧ c.sent ≠ []
        ∧ (c.rto * 1000 : Nat) ≤ stampDiff s.dev.now c.rtoAt
        ∧ (s.dev.nat Ob.virekPeerTimeout * 1000000 : Nat) ≤ stampDiff s.dev.now c.lastRx
        ∧ c.state = 1 ∧ (s.dev.nat Ob.virekCreditStallTime * 1000000 : Nat) ≤ stampDiff s.dev.now 0
        ∧ after (.virekWriteCommitted 4) s (fun d => d.mem == [⟨1, 7⟩] && (d.fence 0).value == 2) = true
        ∧ after (.virekAckDelayExpiry 4) s (fun d => ((d.conn 4).map fun c => c.ackSince) == some none) = true
        ∧ after (.virekRtoExpiry 4) s (fun d => ((d.conn 4).map fun c => (c.retries, c.rto)) == some (1, 2)) = true
        ∧ after (.virekPeerTimeout 4) s (fun d => (d.conn 4).isNone) = true
        ∧ after (.virekCreditStall 4) s (fun d => ((d.conn 4).map fun c => c.state) == some 2) = true)
    ∧ (let c := { conn0 with state := 2 }
       let s := st (vdev c);
      s.dev.conn (4 : Fin 256) = some c ∧ c.state = 2 ∧ 1000000 ≤ stampDiff s.dev.now c.pingAt
        ∧ after (.virekStallPing 4) s (fun d => ((d.conn 4).map fun c => c.pingAt) == some 2000000000) = true)
    ∧ (let c := { conn0 with state := 3 }
       let s := st (vdev c);
      s.dev.conn (4 : Fin 256) = some c ∧ c.state = 3 ∧ c.until_ ≤ s.dev.ext
        ∧ after (.virekQuiesceHoldExpiry 4) s (fun d => (d.conn 4).isNone) = true)
    ∧ (∃ e se n, ({ base [(inst Ob.connSelect 1, 4)] with virek := { conns := [(4, conn0)] } } : Dev).writeGate connCloseConds
        (wreq 0x5A21 15 [1]) none 0x5A21 15 [1] = .pass e se n)
    ∧ (∃ e se n, (base (winRegs ++ [(Ob.winLength 63, 1024), (Ob.winRights 63, 3), (Ob.winOwner 63, 0)])).writeGate (registerConds 63)
        (wreq 0x5A7F 8 [1]) none 0x5A7F 8 [1] = .pass e se n)
    ∧ (∃ e se n, (base []).writeGate {} (wreq 0x5A7F 9 [1]) none 0x5A7F 9 [1] = .pass e se n) :=
  ⟨by decide, by decide, by decide, gate_passes (by decide), gate_passes (by decide), gate_passes (by decide)⟩

set_option maxRecDepth 20000 in
theorem wit_PowerStateCommandsRun :
    (let s := st (base [(Ob.wakeTolerance 0, 20000), (Ob.powerStateLimit, 4), (Ob.capabilityMask, 255)] { tl := { now := 20400000 } });
      s.dev.ready = true ∧ s.dev.pow.exiting = false ∧ (∀ i, i < 25 → s.dev.isl (i + 1) < 2 ∨ 4 < s.dev.isl (i + 1))
        ∧ s.dev.deepest 400000 = ((3 : Fin 5) : Nat) ∧ 400000 ≤ entryNs 3 ∧ s.dev.nat Ob.powerState < 3
        ∧ after (.powerStateEntry 3 400000) s (fun d => d.reg Ob.powerState == 3 && d.isl 18 == 1 && d.isl 25 == 1 && d.isl 5 == 0) = true)
    ∧ (let s := st (base [(Ob.powerState, 1), (Ob.islState 17, 1)]);
      s.dev.isl (((17 : Fin 25) : Nat) + 1) = 1 ∧ s.dev.pow.exiting = false ∧ s.dev.nat Ob.powerState ≠ 0
        ∧ after (.demandWake 17) s (fun d => d.pow.exiting && d.reg Ob.demandWakes == 1) = true)
    ∧ (let s := st { base [(Ob.powerState, 3)] with
          pours := { live := [{ handle := 1, part := 0, target := 3500000, state := 1, accepted := 0, entries := [], parts := [], ramp := 0, timeout := 0 }] } };
      s.dev.nextDeadline = some 3500000 ∧ s.dev.nat Ob.powerState ≠ 0 ∧ s.dev.pow.exiting = false
        ∧ stampDiff 3500000 s.dev.now ≤ (exitNs (s.dev.nat Ob.powerState) : Int)
        ∧ after .earlyWake s (fun d => d.pow.exiting && d.reg Ob.earlyWakes == 1) = true)
    ∧ (let s := st { base [(Ob.powerState, 1), (Ob.islState 17, 1), (Ob.islState 18, 5)] with pow := { exiting := true } };
      s.dev.pow.exiting = true
        ∧ after .powerStateExitDone s (fun d => d.reg Ob.powerState == 0 && d.isl 18 == 0 && d.isl 19 == 5) = true)
    ∧ (∃ e se n, (base []).writeGate {} (wreq 0x1400 2 [0]) none 0x1400 2 [0] = .pass e se n)
    ∧ (∃ e se n, (base []).writeGate {} (wreq (0x1401 + ((7 : Fin 8) : Nat)) 1 (leBytes 4 1000)) none (0x1401 + ((7 : Fin 8) : Nat)) 1
        (leBytes 4 1000) = .pass e se n)
    ∧ (let s := st (base [(Ob.powerCap, 50), (Ob.engineBudget, 2)]);
      1000 * s.dev.nat Ob.powerCap < 50001 ∧ 48000 + 2000 ≤ 1000 * s.dev.nat Ob.powerCap ∧ s.dev.pow.under < 9
        ∧ after (.powerCapWindow 50001) s (fun d => d.reg Ob.engineBudget == 1 && d.reg Ob.inputPower == 50001) = true
        ∧ after (.powerCapWindow 48000) s (fun d => d.pow.under == 1 && d.reg Ob.engineBudget == 2) = true)
    ∧ (let s := st { base [(Ob.powerCap, 50), (Ob.engineBudget, 2), (Ob.enginesInUseCount, 8)] with pow := { under := 9 } };
      9 ≤ s.dev.pow.under ∧ after (.powerCapWindow 48000) s (fun d => d.pow.under == 0 && d.reg Ob.engineBudget == 3) = true) :=
  ⟨by decide, by decide, by decide, by decide, gate_passes (by decide), gate_passes (by decide), by decide, by decide⟩

set_option maxRecDepth 20000 in
theorem wit_HeatCommandsRun :
    (let s := st (base [(Ob.engineBudget, 8), (Ob.computeDiesInUse, 2)]);
      s.dev.nat Ob.bootPhase ≠ 0 ∧ s.dev.pow.hot = false ∧ 1 ∈ s.dev.dies
        ∧ after (.temperatureSample 1150 []) s (fun d => d.reg Ob.bootPhase == 0 && d.pow.tripped) = true
        ∧ after (.temperatureSample 1050 [0, 1000]) s (fun d => d.reg (Ob.thermTemperature 0) == 1050 && d.pow.hot
          && d.reg Ob.engineBudget == 2 && d.reg (Ob.thermTemperature 2) == 1000 && d.reg (Ob.thermThrottleLevel 2) == 2) = true)
    ∧ (let s := st { base [] with pow := { hot := true } };
      s.dev.pow.hot = true ∧ after (.temperatureSample 1019 []) s (fun d => !d.pow.hot) = true
        ∧ after (.temperatureSample 1020 []) s (fun d => d.pow.hot) = true)
    ∧ (let s := st { pow := { tripped := true }, pins := { vin := 2 } };
      s.dev.pow.tripped = true ∧ s.dev.pins.vin = 2
        ∧ after (.thermalTripCooled 949) s (fun d => d.reg Ob.bootCause == 7 && d.reg Ob.bootPhase == 1) = true)
    ∧ after (.thermalTripCooled 949) (st { pow := { tripped := true } }) (fun d => d.reg Ob.bootPhase == 0 && !d.pow.tripped) = true
    ∧ (let s := st (base [(Ob.ringLinkState 0, 1), (Ob.computeDiesInUse, 15), (Ob.computeDiesFitted, 15)]);
      ((4 : Fin 8) : Nat) = 4 + 0 ∧ s.dev.reg (Ob.ringLinkState 0) = 1 ∧ s.dev.ringEnd 0 = some 1
        ∧ after (.linkTransferError 4 8 true) s (fun d => d.reg (Ob.ringLinkState 0) == 1) = true
        ∧ after (.linkTransferError 4 8 false) s (fun d => d.reg (Ob.ringLinkState 0) == 0 && d.reg Ob.computeDiesInUse == 15) = true)
    ∧ (let s := st (base [(Ob.dieLinkState 3, 1), (Ob.computeDiesInUse, 8)]);
      s.dev.reg (Ob.dieLinkState (3 : Fin 4)) = 1 ∧ ((3 : Fin 4) : Nat) ∈ s.dev.dies
        ∧ after (.linkTransferError 3 7 false) s (fun d => d.reg (Ob.dieLinkReplays 3) == 7) = true
        ∧ after (.linkTransferError 3 8 true) s (fun d => d.reg (Ob.dieLinkRetrains 3) == 1 && d.reg (Ob.dieStatus 4) != 2) = true
        ∧ after (.linkTransferError 3 8 false) s (fun d => d.reg (Ob.dieStatus 4) == 2 && d.isl 21 == 6 && d.isl 25 == 6) = true) :=
  ⟨by decide, by decide, by decide, by decide, by decide, by decide⟩

set_option maxRecDepth 20000 in
theorem wit_IslandCommandsRun :
    (let s := st (base [(Ob.rootLocked, 1)]);
      2 ≤ s.dev.nat Ob.bootPhase ∧ s.dev.flag Ob.rootLocked = true ∧ deviates (25, 0) = true ∧ s.dev.isl 25 = 0 ∧ s.dev.isl Isl.mix = 0 ∧ s.dev.mix.filters = []
        ∧ after (.islandWatchdogExpiry 1) s (fun d => d.reg Ob.bootPhase == 1 && d.reg Ob.bootCause == 8) = true
        ∧ after (.islandWatchdogExpiry 24) s (fun d => d.isl 25 == 2 && kvGet d.islCause 25 == some 2) = true
        ∧ after (.clockMonitorWindow [(25, 0)]) s (fun d => d.isl 25 == 2 && d.reg (Ob.islandClockStatus 24) == 2) = true
        ∧ deviates (0, 204800 - 2049) = true ∧ deviates (0, 204800 - 2048) = false
        ∧ after (.clockMonitorWindow [(0, 204800 - 2049)]) s (fun d => d.reg Ob.bootPhase == 1 && d.reg Ob.bootCause == 8) = true
        ∧ after (.clockMonitorWindow [(0, 204800 - 2048)]) s (fun d => d.reg Ob.bootPhase == 8) = true)
    ∧ (let s := st (base [(Ob.islState 24, 1), (Ob.rootLocked, 1)]);
      s.dev.isl 25 ≠ 0 ∧ after (.clockMonitorWindow [(25, 0)]) s (fun d => d.isl 25 == 1) = true)
    ∧ (let s := st (base [(Ob.islLastResetCause 12, 2)] { islAt := [(13, { closed := 0, back := some 0 })] });
      s.dev.quiesced 13 = false ∧ s.dev.faultedAgain 13 = true
        ∧ after (.islandWatchdogExpiry 12) s (fun d => kvGet d.islCause 13 == some 5) = true)
    ∧ (∃ e se n, (base []).writeGate {} (wreq (0x7F01 + ((24 : Fin 25) : Nat)) 1 [1]) none (0x7F01 + ((24 : Fin 25) : Nat)) 1 [1]
        = .pass e se n)
    ∧ (∃ e se n, (base [(Ob.islState 24, 5)]).writeGate {} (wreq (0x7F01 + ((24 : Fin 25) : Nat)) 1 [1]) none
        (0x7F01 + ((24 : Fin 25) : Nat)) 1 [1] = .pass e se n)
    ∧ (∃ e se n, (base []).writeGate {} (wreq (0x7F01 + ((0 : Fin 25) : Nat)) 1 [2]) none (0x7F01 + ((0 : Fin 25) : Nat)) 1 [2]
        = .pass e se n)
    ∧ (let s := st { base [(Ob.islState 13, 2)] with islCause := [(14, 3)] };
      s.dev.isl (((13 : Fin 25) : Nat) + 1) = 2 ∧ (kvGet s.dev.islCause (((13 : Fin 25) : Nat) + 1)).getD 1 = 3
        ∧ after (.quiesceBoundaryEmpty 13) s (fun d => d.isl 14 == 4 && d.reg (Ob.islResets 13) == 1
          && d.reg (Ob.islLastResetCause 13) == 3) = true)
    ∧ (let s := st { base [(Ob.islState 24, 2), (Ob.computeDiesInUse, 8)] with islCause := [(25, 5)] };
      s.dev.isl (((24 : Fin 25) : Nat) + 1) = 2 ∧ (kvGet s.dev.islCause (((24 : Fin 25) : Nat) + 1)).getD 1 = 5
        ∧ (((24 : Fin 25) : Nat) + 1 - Isl.ten) % 4 ∈ s.dev.dies)
    ∧ (let s := st { base [(Ob.islState 17, 4), (Ob.islIncarnation 17, 255)] with pow := { live := [18, 19] } };
      s.dev.isl 18 = 4 ∧ (∀ x ∈ s.dev.pow.live, x ≠ 0 ∧ (x = Isl.mix → 18 = Isl.mix))
        ∧ after (.islandReturn 17) s (fun d => d.isl 18 == 0 && d.reg (Ob.islIncarnation 17) == 0 && d.pow.live == [19]
          && d.isl 19 == 2) = true)
    ∧ after (.staleReplyReceived 4 1) (st (base [])) (fun d => d.reg (Ob.islStaleDiscarded 4) == 1) = true
    ∧ (∃ e se n, ({ base [(Ob.updateState, 3), (Ob.updatePredicted, 0), (Ob.capabilityMask, 255)] with banks := [(0, []), (1, [])] } : Dev).writeGate activateConds (wreq 0x7010 7 [3]) none 0x7010 7 [3]
        = .pass e se n) :=
  ⟨by decide, by decide, by decide, gate_passes (by decide), gate_passes (by decide), gate_passes (by decide), by decide, by decide,
    by decide, by decide, gate_passes (by decide)⟩

theorem wit_StepRunsFrontCommand :
    (let s : State := { pending := [.startWindowEnd, .sysReset], dev := { base [] with startWindow := true, tl := { running := true, now := 1000000000 } } };
      s.pending = .startWindowEnd :: [.sysReset] ∧ (match step s with | .next t => t.pending == [.sysReset] && !t.dev.startWindow | _ => false) = true)
    ∧ (let s := st {}; s.pending = [] ∧ s.dev.tl.running = false) := ⟨⟨rfl, by decide⟩, rfl, rfl⟩

theorem wit_TickCarriesIntoEra :
    let s := st { tl := { running := true, now := 281474976710655, era := 65535 } };
    s.pending = [] ∧ s.dev.tl.running = true ∧ s.dev.tl.now < 281474976710656
      ∧ 281474976710656 ≤ (s.dev.tl.now * 4294967296 + s.dev.tl.frac + s.dev.tl.inc) / 4294967296
      ∧ (s.dev.tl.now * 4294967296 + s.dev.tl.frac + s.dev.tl.inc) / 4294967296 < 2 * 281474976710656
      ∧ (match step s with | .next t => t.dev.tl.now == 3 && t.dev.tl.era == 0 | _ => false) = true := by decide

/-- What the statement about stops says on both sides of the limit. -/
theorem test_overvoltage :
    exec (.vinAbove3v 20001) (st {}) = .fault .absoluteMaximum ∧ after (.vinAbove3v 20000) (st {}) (fun d => d.reg Ob.vinNow == 20000) = true :=
  ⟨rfl, by decide⟩

theorem wit_CommandsLeavePartsAlone :
    (∃ t, exec .startWindowEnd (st {}) = .next t) ∧ (st {}).dev.mayReach .startWindowEnd .dram = false
      ∧ (st {}).dev.mayReach .solverBatchStart .tensor = false
      ∧ Part.banks.reachedBy (.updateChunk (rq Op.writeBlock []) []) = true := ⟨⟨_, rfl⟩, rfl, rfl, rfl⟩

set_option maxRecDepth 20000 in
theorem wit_StoresStayInside :
    (let w : Wait := { handle := 3, fence := 9, target := 5, delivery := 2, dest := 32, part := 1 }
     let s := st { base [(Ob.partEnable 1, 1), (Ob.partAttachKind 1, 1), (Ob.partWindowBase 1 0, 4096), (Ob.partWindowKind 1 0, 2), (Ob.partWindowLength 1 0, 65536), (Ob.partFenceFirst 0, 9),
        (Ob.partFenceCount 0, 1)] with waits := [w] };
      FenceCommand (.fenceSignal (.bar0 0 9) (leBytes 8 5)) ∧ s.dev.Mirrors w 4143 ∧ (∀ x ∈ s.dev.waits, ¬ s.dev.Mirrors x 4144)
        ∧ after (.fenceSignal (.bar0 0 9) (leBytes 8 5)) s (fun d => memByte d.mem 4128 == 5 && d.waits.isEmpty) = true)
    ∧ (let s := st { base (queueRegs 1) with queues := [(5, { items := [item0 3], prod := 7, cons := 5 })] };
      s.dev.ringOwner (5 : Fin 4096) 1 = some 0 ∧ s.dev.nat (Ob.partAttachKind 0) = 0
        ∧ after (.deliverySlotWrite 5 {} {} {}) s (fun d => d.mem.isEmpty) = true)
    ∧ (let s := st { base (queueRegs 2) with queues := [(5, { prod := 6, cons := 5 })] };
      s.dev.ringOwner (5 : Fin 4096) 2 = some 0
        ∧ after (.submissionFetch 5 (List.replicate 64 0) {}) s (fun d => d.mem.isEmpty) = true) :=
  ⟨⟨.signal _ _, ⟨by decide, by decide, by decide, by decide, by decide⟩,
    by intro x hx; rw [show x = _ from List.mem_singleton.mp hx]; exact fun h => absurd h.2.2.2.2 (by decide), by decide⟩,
    ⟨by decide, by decide, by decide⟩, by decide, by decide⟩

theorem wit_StepKeepsCanonicalForms :
    let s : State := { pending := [.startWindowEnd], dev := base [] };
    (∃ t, step s = .next t) ∧ Regs.wf s.dev.regs = true ∧ Memory.wf s.dev.mem = true := ⟨⟨_, rfl⟩, by decide, by decide⟩

/-- An entry that names the era of the timeline. -/
def eraEntry : Bytes := leBytes 2 0x2000 ++ leBytes 1 3 ++ leBytes 1 0 ++ leBytes 2 2 ++ leBytes 2 0 ++ [1, 0, 0, 0]

/-- The entry as read from the descriptor. -/
def eraRaw : RawEntry := { idx := 0x2000, sub := 3, flags := 0, len := 2, value := [1, 0] }

set_option maxRecDepth 20000 in
theorem wit_TimelineObjectsTakeNoPour :
    (objRow 0x2000 3).isSome = true
    ∧ (let b := pourBytes 0 0 9 1 eraEntry
     let hd := rq Op.pour b
     let se := { se0 sub0 with subs := [], ethPort := 0 };
      PourArrives (base []) hd b ((base []).admitted hd se) se [eraRaw] ∧ (pourHead b).recall = false ∧ (pourHead b).store = false
        ∧ 0x2000 ≤ eraRaw.idx ∧ eraRaw.idx ≤ 0x20FF)
    ∧ (let b := pourBytes 1 63 9 0 []
       let d := { base [(Ob.sceneState 63, 1), (Ob.sceneEntries 63, 1), (Ob.sceneOwner 63, 0)] with blobs := [(Ob.sceneContent 63, eraEntry)] }
       let hd := rq Op.pour b
       let se := { se0 sub0 with subs := [], ethPort := 0 };
      PourArrives d hd b (d.admitted hd se) se [] ∧ (pourHead b).recall = true
        ∧ eraRaw ∈ (rawEntries ((d.admitted hd se).nat (Ob.sceneEntries 63)) ((d.admitted hd se).blob (Ob.sceneContent 63))).getD []) := by
  refine ⟨by decide, ⟨⟨admits_go (by decide) (by decide), ?_⟩, ?_, ?_, ?_⟩, ⟨⟨admits_go (by decide) (by decide), ?_⟩, ?_, ?_⟩⟩ <;> decide

set_option maxRecDepth 20000 in
theorem wit_DisabledQueueHoldsNothing :
    (let d : Dev := { base [(Ob.partQueueFirst 0, 0), (Ob.partQueueCount 0, 9), (inst Ob.qEnable 0, 1)] with queues := [(0, { items := [item0 3] })] };
      (∃ e se n, d.writeGate queueEnableConds (wreq 0x5002 2 [0]) none 0x5002 2 [0] = .pass e se n)
        ∧ d.qreg Ob.qEnable (d.selQueue 1) ≠ 0 ∧ (d.q (d.selQueue 1)).items ≠ [])
    ∧ (let s := st (base []);
      s.dev.quiesced Isl.qmg = false ∧ s.dev.qreg Ob.qEnable (6 : Fin 4096) = 0
        ∧ after (.itemEnqueue 6 (item0 3) {}) s (fun d => d.reg (inst Ob.qDropped 6) == 1) = true) :=
  ⟨⟨gate_passes (by decide), by decide, by decide⟩, by decide, by decide, by decide⟩

/-- A device in RUN whose channels all have SafeOutputBit and run, and the SAFE pair on. -/
def pairDev : Dev :=
  { base (((List.range 8).map fun k => (Ob.chanState k, 4)) ++ [(Ob.safeOutputState, 1)]) with
    pins := { safeA := true, safeB := true } }

theorem pairDev_on : pairDev.PairConditions := by
  refine ⟨⟨0, by decide, by decide⟩, ?_, by decide, by decide, by decide⟩
  unfold Dev.channelRuns
  decide

theorem wit_StepKeepsPairLawful :
    (∃ t, step { pending := [.startWindowEnd], dev := pairDev } = .next t ∧ t.dev.pins.safeA = true) ∧ pairDev.PairLawful :=
  ⟨⟨_, rfl, by decide⟩, ⟨fun _ => pairDev_on, fun _ => Or.inl rfl⟩, ⟨fun _ => pairDev_on, fun _ => by decide⟩⟩

/-- The rule's own case of the identity (20_electrical R414). -/
theorem wit_JtagIdcodeFields :
    let d := withRegs [(Ob.ioDieStepping, 3), (Ob.productCode, 0x4832)] {}
    d.nat Ob.ioDieStepping = 3 ∧ d.nat Ob.productCode = 0x4832 ∧ d.idcode = 0x3483258F#32 := by decide

/-- The key of the examples of NIST SP 800-38B, appendix D. -/
def cmacKey : Bytes := beBytes 16 0x2b7e151628aed2a6abf7158809cf4f3c

/-- Examples 1 and 2 of NIST SP 800-38B: the empty message, and one block. -/
theorem test_aes_cmac :
    beNat (aesCmac cmacKey []) = 0xbb1d6929e95937287fa37d129b756746
    ∧ beNat (aesCmac cmacKey (beBytes 16 0x6bc1bee22e409f96e93d7e117393172a)) = 0x070a16b46b4d4144f79bdd9dd04a287c := by decide +kernel

/-- The example "abc" of FIPS 180-4. -/
theorem test_sha256 :
    beNat (sha256 [0x61, 0x62, 0x63]) = 0xba7816bf8f01cfea414140de5dae2223b00361a396177a9cb410ff61f20015ad := by decide +kernel

/-- The worked case of 07_sensor_ingest: IngestLatency 1,659 lines for an exposure of 3,600,000 ns. -/
theorem test_ingest_latency :
    ingestLatency (withRegs [(Ob.slotSourceKind 0, 1), (Ob.slotKindParam 0 3, 30000), (Ob.slotKindParam 0 4, 12000),
      (Ob.slotKindParam 0 5, 1), (Ob.slotKindParam 0 2, 1536 * 65536 + 2048)] {}).reg (some 3600000) 0 = 1659 := by decide

/-- The worked case of 10_cupper_fallback: a point 1,000 mm ahead of the front scanner is at (1450, 0, 300). -/
theorem test_body_point :
    bodyPoint ((withRegs [(Ob.fbkMountX 8, 450000), (Ob.fbkMountZ 8, 300000)] {}).fbkMount 8) (leBytes 4 1000000 ++ List.replicate 20 0)
      = (1450, 0, 300) := by decide +kernel

end Sys2Proof.Tests
end

section
/-! What a command leaves alone, part by part (`Part`): the masks of the Laws against the table of the commands that may reach a
part. -/
namespace Sys2Proof.Machine

/-- The bit that stands for a part in the masks of `Within`. -/
def Part.bit : Part → Nat
  | .dram => 0 | .timeline => 1 | .servo => 2 | .fences => 3 | .waits => 4 | .banks => 5 | .flash => 6 | .boot => 7
  | .analogOut => 8 | .slots => 10 | .encoders => 11 | .fusion => 12 | .tensor => 13 | .solver => 14 | .network => 15
  | .audio => 16 | .mix => 17 | .analog => 18 | .virek => 19 | .pours => 20 | .power => 24

/-- Every part. -/
def Part.all : List Part :=
  [.dram, .timeline, .servo, .fences, .waits, .banks, .flash, .boot, .analogOut, .slots, .encoders, .fusion, .tensor,
    .solver, .network, .audio, .mix, .analog, .virek, .pours, .power]

theorem Part.mem_all (p : Part) : p ∈ Part.all := by cases p <;> decide

/-- A part that a mask does not name is the same. -/
theorem Within.part_same {M : Nat} {d d' : Dev} (h : Within M d d') (p : Part) (hp : Nat.testBit M p.bit = false) :
    p.same d d' := by
  cases p with
  | dram => exact fun a => congrArg (memByte · a) (h.mem hp)
  | timeline => exact h.tl hp
  | servo => exact h.servo hp
  | fences => exact h.fences hp
  | waits => exact h.waits hp
  | banks => exact h.banks hp
  | flash => exact h.flash hp
  | boot => exact h.boot hp
  | analogOut => exact h.analogOut hp
  | slots => exact h.slots hp
  | encoders => exact h.encs hp
  | fusion => exact h.fus hp
  | tensor => exact h.ten hp
  | solver => exact h.sol hp
  | network => exact h.net hp
  | audio => exact h.aud hp
  | mix => exact h.mix hp
  | analog => exact h.ana hp
  | virek => exact h.virek hp
  | pours => exact h.pours hp
  | power => exact h.pow hp

/-- Every part that the mask `M` names is one that `reached` gives. -/
def masks (M : Nat) (reached : Part → Bool) : Bool := Part.all.all fun p => reached p || !Nat.testBit M p.bit

theorem masks_testBit {M : Nat} {reached : Part → Bool} (h : masks M reached = true) {p : Part} (hp : reached p = false) :
    Nat.testBit M p.bit = false := by
  have := List.all_eq_true.1 h p p.mem_all
  simpa [hp] using this

theorem masks_mono {M : Nat} {f g : Part → Bool} (h : masks M f = true) (k : ∀ p, g p = false → f p = false) :
    masks M g = true := by
  refine List.all_eq_true.2 fun p _ => ?_
  cases hg : g p with
  | true => rfl
  | false => simp [masks_testBit h (k p hg)]

/-- A command has changed at most what the tables let it reach in the device before it. -/
def Reaches (i : Instr) (s t : State) : Prop := ∃ M, Within M s.dev t.dev ∧ masks M (s.dev.mayReach i) = true

/-- A command whose flips come first: with no pour held its own mask `N` holds, else the mask `M` with the flips'. -/
theorem reaches_of_flips {i : Instr} {s t : State} {M N : Nat} (hi : flipsFirst i = true)
    (own : s.dev.pours.live = [] → Within N s.dev t.dev) (both : Within M s.dev t.dev)
    (hN : masks N (fun p => p.reachedBy i) = true)
    (hM : masks M (fun p => p.reachedBy i || p.reachedBy (.pourFlip 0 none)) = true) : Reaches i s t := by
  by_cases hl : s.dev.pours.live = []
  · exact ⟨N, own hl, masks_mono hN fun p hp => (Bool.or_eq_false_iff.1 hp).1⟩
  · refine ⟨M, both, masks_mono hM fun p hp => ?_⟩
    simpa [Dev.mayReach, hi, hl] using hp

theorem Dev.each_eq_self {α : Type} {d : Dev} {l : List α} {f : Dev → α → Dev} (h : ∀ x ∈ l, f d x = d) : d.each l f = d := by
  induction l with
  | nil => rfl
  | cons x l ih =>
    show (f d x).each l f = d
    rw [h x (by simp)]
    exact ih fun y hy => h y (by simp [hy])

/-- With no pour held nothing flips. -/
theorem Dev.flipAll_noPours {d : Dev} (h : d.pours.live = []) (l : List Nat) (e : Option (Fin 8)) : d.flipAll l e = d := by
  have hu : ∀ u ∈ l, d.flipUid u e = d := fun u _ => by simp [Dev.flipUid, h, pourOrder, Dev.each]
  unfold Dev.flipAll
  rw [Dev.each_eq_self hu]
  simp [Dev.completePours, h, Dev.each]

theorem Dev.flipSlots_noPours {d : Dev} (h : d.pours.live = []) (hit : (Nat → Int) → Nat → Bool) : d.flipSlots hit = d :=
  Dev.flipAll_noPours h _ _

theorem onDev_within_at {M : Nat} {f : Dev → Dev} {s t : State} (h : onDev f s = .next t) (k : Within M s.dev (f s.dev)) :
    Within M s.dev t.dev := by
  obtain rfl := Host.Outcome.next.inj h
  exact Dev.settle_within .zero k _

theorem execCsiFrameStart_within_noPours {port : Fin 6} {vc : Fin 4} {s t : State} (h : execCsiFrameStart port vc s = .next t)
    (hl : s.dev.pours.live = []) : Within 33555456 s.dev t.dev := by
  refine onDev_within_at h (.ite (.refl _) ?_)
  have hc : Within 33555456 s.dev (s.dev.csiCut port vc).2 := Dev.csiCut_snd (by exact rfl) (.refl _) _ _
  have hp : (s.dev.csiCut port vc).2.pours.live = [] := by rw [hc.pours rfl, hl]
  dsimp only
  rw [Dev.flipSlots_noPours hp]
  exact Dev.csiFrameStart_within (by exact rfl) hc _ _ _

theorem execScannerDatagram_within_noPours {port : Fin 2} {srcIp dstPort : Nat} {fragmented : Bool} {payload : Bytes}
    {found : Found} {s t : State} (h : execScannerDatagram port srcIp dstPort fragmented payload found s = .next t)
    (hl : s.dev.pours.live = []) : Within 33555456 s.dev t.dev := by
  refine onDev_within_at h (.ite (Dev.bump_within (by exact rfl) (.refl _) _) (.ite (.refl _) ?_))
  dsimp only
  rw [Dev.flipSlots_noPours hl]
  exact Dev.scannerDatagram_within (by exact rfl) (.refl _) _ _ _ _ _ _

theorem execImuDrdyEdge_within_noPours {port : Fin 4} {rising : Bool} {s t : State} (h : execImuDrdyEdge port rising s = .next t)
    (hl : s.dev.pours.live = []) : Within 33555456 s.dev t.dev := by
  refine onDev_within_at h (.ite (.refl _) ?_)
  rw [Dev.flipSlots_noPours hl]
  exact Dev.imuDrdy_within (by exact rfl) (.refl _) _ _

theorem execEncoderTransition_within_noPours {ch : Fin 8} {step : Option Bool} {s t : State}
    (h : execEncoderTransition ch step s = .next t) (hl : s.dev.pours.live = []) : Within 33556480 s.dev t.dev := by
  refine onDev_within_at h (.ite (.refl _) ?_)
  rw [Dev.flipSlots_noPours hl]
  exact Dev.encoderStep_within (by exact rfl) (.refl _) _ _

theorem execEncoderPeriodEnd_within_noPours {slot : Fin 32} {s t : State} (h : execEncoderPeriodEnd slot s = .next t)
    (hl : s.dev.pours.live = []) : Within 33557504 s.dev t.dev := by
  refine onDev_within_at h (.ite (.refl _) ?_)
  rw [Dev.flipSlots_noPours hl]
  exact Dev.encoderPeriod_within (by exact rfl) (.refl _) _

theorem execCanSensorFrame_within_noPours {ctl : Fin 2} {id : Nat} {extended : Bool} {data : Bytes} {found : Found}
    {s t : State} (h : execCanSensorFrame ctl id extended data found s = .next t) (hl : s.dev.pours.live = []) :
    Within 33555456 s.dev t.dev := by
  have hc : Within 33555456 s.dev ((s.dev.countCan ctl false).send (.canAck ctl)) :=
    Dev.send_within (by exact rfl) (Dev.countCan_within (by exact rfl) (.refl _) _ _) _
  have hp : ((s.dev.countCan ctl false).send (.canAck ctl)).pours.live = [] := by rw [hc.pours rfl, hl]
  refine onDev_within_at h (.ite (.refl _) (.ite (Dev.countCan_within (by exact rfl) (.refl _) _ _) (.ite hc ?_)))
  rw [Dev.flipSlots_noPours hp]
  exact Dev.canSensor_within (by exact rfl) hc _ _ _ _ _

theorem execInferenceTrigger_within_noPours {src : Nat} {s t : State} (h : execInferenceTrigger src s = .next t)
    (hl : s.dev.pours.live = []) : Within 12288 s.dev t.dev := by
  refine onDev_within_at h (Dev.feedItem_within (by exact rfl) (.ite ?_ (.refl _)) _)
  dsimp only
  rw [Dev.flipAll_noPours hl]
  exact .refl _

theorem execInferenceDispatch_within_noPours {e : Fin 8} {s t : State} (h : execInferenceDispatch e s = .next t)
    (hl : s.dev.pours.live = []) : Within 8192 s.dev t.dev := by
  refine onDev_within_at h (Dev.dispatch_within (by exact rfl) (.ite (.refl _) ?_) _)
  split
  · rw [Dev.flipAll_noPours hl]
    exact .refl _
  · exact .refl _

theorem execSolverBatchStart_within_noPours {s t : State} (h : execSolverBatchStart s = .next t)
    (hl : s.dev.pours.live = []) : Within 33570843 s.dev t.dev := by
  refine onDev_within_at h (.ite (.refl _) ?_)
  dsimp only
  rw [Dev.flipAll_noPours hl]
  exact Dev.startBatch_within (by exact rfl) (.refl _)

/-- Every command reaches at most what the tables give it: its mask in the Laws, held to the table by evaluation. -/
theorem exec_reaches : ∀ (i : Instr) (s t : State), exec i s = .next t → Reaches i s t
  | .linkTransferError .., _, _, h => ⟨_, execLinkTransferError_within h, rfl⟩
  | .stampReplicaReload .., _, _, h => ⟨_, execStampReplicaReload_within h, rfl⟩
  | .eraWrap, _, _, h => ⟨_, execEraWrap_within h, rfl⟩
  | .timelineNowRead .., _, _, h => ⟨_, execTimelineNowRead_within h, rfl⟩
  | .slewBoundWrite .., _, _, h => ⟨_, execSlewBoundWrite_within h, rfl⟩
  | .manualSlew .., _, _, h => ⟨_, execManualSlew_within h, rfl⟩
  | .slewAbsorbed, _, _, h => ⟨_, execSlewAbsorbed_within h, rfl⟩
  | .ptpSourceWrite .., _, _, h => ⟨_, execPtpSourceWrite_within h, rfl⟩
  | .ptpSyncReceived .., _, _, h => ⟨_, execPtpSyncReceived_within h, rfl⟩
  | .ptpAnnounceReceived .., _, _, h => ⟨_, execPtpAnnounceReceived_within h, rfl⟩
  | .announceTimeout .., _, _, h => ⟨_, execAnnounceTimeout_within h, rfl⟩
  | .syncLoss, _, _, h => ⟨_, execSyncLoss_within h, rfl⟩
  | .autoRevert, _, _, h => ⟨_, execAutoRevert_within h, rfl⟩
  | .guardResponseAccept .., _, _, h => ⟨_, execGuardResponseAccept_within h, rfl⟩
  | .guardResponseSlew .., _, _, h => ⟨_, execGuardResponseSlew_within h, rfl⟩
  | .gmPortWrite .., _, _, h => ⟨_, execGmPortWrite_within h, rfl⟩
  | .gmSyncTransmit, _, _, h => ⟨_, execGmSyncTransmit_within h, rfl⟩
  | .gmAnnounceTransmit, _, _, h => ⟨_, execGmAnnounceTransmit_within h, rfl⟩
  | .fenceSignal .., _, _, h => ⟨_, execFenceSignal_within h, rfl⟩
  | .fenceAdd .., _, _, h => ⟨_, execFenceAdd_within h, rfl⟩
  | .fenceReset .., _, _, h => ⟨_, execFenceReset_within h, rfl⟩
  | .fenceSetDeadline .., _, _, h => ⟨_, execFenceSetDeadline_within h, rfl⟩
  | .fenceSelectWrite .., _, _, h => ⟨_, execFenceSelectWrite_within h, rfl⟩
  | .waitArm .., _, _, h => ⟨_, execWaitArm_within h, rfl⟩
  | .waitCancel .., _, _, h => ⟨_, execWaitCancel_within h, rfl⟩
  | .fenceDeadlineTick, _, _, h => ⟨_, execFenceDeadlineTick_within h, rfl⟩
  | .xtalStable, _, _, h => ⟨_, execXtalStable_within h, rfl⟩
  | .rootLock, _, _, h => ⟨_, execRootLock_within h, rfl⟩
  | .clockMonitorWindow .., _, _, h => ⟨_, execClockMonitorWindow_within h, rfl⟩
  | .crystalLoss, _, _, h => ⟨_, execCrystalLoss_within h, rfl⟩
  | .refEnableWrite .., _, _, h => ⟨_, execRefEnableWrite_within h, rfl⟩
  | .refActivityPresent .., _, _, h => ⟨_, execRefActivityPresent_within h, rfl⟩
  | .refQualifyTimeout .., _, _, h => ⟨_, execRefQualifyTimeout_within h, rfl⟩
  | .refActivityLost .., _, _, h => ⟨_, execRefActivityLost_within h, rfl⟩
  | .priorityEntryWrite .., _, _, h => ⟨_, execPriorityEntryWrite_within h, rfl⟩
  | .waitToRestoreExpiry .., _, _, h => ⟨_, execWaitToRestoreExpiry_within h, rfl⟩
  | .dpllLock, _, _, h => ⟨_, execDpllLock_within h, rfl⟩
  | .refPhaseComparison .., _, _, h => ⟨_, execRefPhaseComparison_within h, rfl⟩
  | .loopModeOpen .., _, _, h => ⟨_, execLoopModeOpen_within h, rfl⟩
  | .loopModeClose .., _, _, h => ⟨_, execLoopModeClose_within h, rfl⟩
  | .freqOffsetWordWrite .., _, _, h => ⟨_, execFreqOffsetWordWrite_within h, rfl⟩
  | .phaseErrorRead .., _, _, h => ⟨_, execPhaseErrorRead_within h, rfl⟩
  | .ppsInEdge .., _, _, h => ⟨_, execPpsInEdge_within h, rfl⟩
  | .pulseConfigWrite .., _, _, h => ⟨_, execPulseConfigWrite_within h, rfl⟩
  | .pulseStart .., _, _, h => ⟨_, execPulseStart_within h, rfl⟩
  | .pulseStop .., _, _, h => ⟨_, execPulseStop_within h, rfl⟩
  | .pulseEdgeDue .., _, _, h => ⟨_, execPulseEdgeDue_within h, rfl⟩
  | .pulseWidthEnd .., _, _, h => ⟨_, execPulseWidthEnd_within h, rfl⟩
  | .synthLock .., _, _, h => ⟨_, execSynthLock_within h, rfl⟩
  | .deferTimeout .., _, _, h => ⟨_, execDeferTimeout_within h, rfl⟩
  | .synthLockLost .., _, _, h => ⟨_, execSynthLockLost_within h, rfl⟩
  | .serdesRecalDue .., _, _, h => ⟨_, execSerdesRecalDue_within h, rfl⟩
  | .hello .., _, _, h => ⟨_, execHello_within h, rfl⟩
  | .helloClose .., _, _, h => ⟨_, execHelloClose_within h, rfl⟩
  | .sessionConfirmTimeout .., _, _, h => ⟨_, execSessionConfirmTimeout_within h, rfl⟩
  | .sessionIdleTimeout .., _, _, h => ⟨_, execSessionIdleTimeout_within h, rfl⟩
  | .read .., _, _, h => ⟨_, execRead_within h, rfl⟩
  | .write .., _, _, h => ⟨_, execWrite_within h, rfl⟩
  | .rwpCommitDone, _, _, h => ⟨_, execRwpCommitDone_within h, rfl⟩
  | .readBlock .., _, _, h => ⟨_, execReadBlock_within h, rfl⟩
  | .writeBlock .., _, _, h => ⟨_, execWriteBlock_within h, rfl⟩
  | .blockGapTimeout .., _, _, h => ⟨_, execBlockGapTimeout_within h, rfl⟩
  | .subscribe .., _, _, h => ⟨_, execSubscribe_within h, rfl⟩
  | .subscribeCancel .., _, _, h => ⟨_, execSubscribeCancel_within h, rfl⟩
  | .notify .., _, _, h => ⟨_, execNotify_within h, rfl⟩
  | .abort .., _, _, h => ⟨_, execAbort_within h, rfl⟩
  | .resultCacheExpiry .., _, _, h => ⟨_, execResultCacheExpiry_within h, rfl⟩
  | .restoreDefaults .., _, _, h => ⟨_, execRestoreDefaults_within h, rfl⟩
  | .keyWrite .., _, _, h => ⟨_, execKeyWrite_within h, rfl⟩
  | .mailboxDoorbell .., _, _, h => ⟨_, execMailboxDoorbell_within h, rfl⟩
  | .ansConsWrite .., _, _, h => ⟨_, execAnsConsWrite_within h, rfl⟩
  | .canBusOff .., _, _, h => ⟨_, execCanBusOff_within h, rfl⟩
  | .canRestart .., _, _, h => ⟨_, execCanRestart_within h, rfl⟩
  | .vinAbove3v .., _, _, h => ⟨_, execVinAbove3v_within h, rfl⟩
  | .vinValid .., _, _, h => ⟨_, execVinValid_within h, rfl⟩
  | .brownout .., _, _, h => ⟨_, execBrownout_within h, rfl⟩
  | .vioOvercurrent .., _, _, h => ⟨_, execVioOvercurrent_within h, rfl⟩
  | .vioLimitTimeout .., _, _, h => ⟨_, execVioLimitTimeout_within h, rfl⟩
  | .vioRetry .., _, _, h => ⟨_, execVioRetry_within h, rfl⟩
  | .sysReset, _, _, h => ⟨_, execSysReset_within h, rfl⟩
  | .deviceRestart .., _, _, h => ⟨_, execDeviceRestart_within h, rfl⟩
  | .safeValuesApplied .., _, _, h => ⟨_, execSafeValuesApplied_within h, rfl⟩
  | .bundleVerified, _, _, h => ⟨_, execBundleVerified_within h, rfl⟩
  | .manifestCheck, _, _, h => ⟨_, execManifestCheck_within h, rfl⟩
  | .bootWatchdogExpiry, _, _, h => ⟨_, execBootWatchdogExpiry_within h, rfl⟩
  | .dieLinkTrained .., _, _, h => ⟨_, execDieLinkTrained_within h, rfl⟩
  | .dieDescriptorReceived .., _, _, h => ⟨_, execDieDescriptorReceived_within h, rfl⟩
  | .dieStartTestDone .., _, _, h => ⟨_, execDieStartTestDone_within h, rfl⟩
  | .dieDiscoveryTimeout .., _, _, h => ⟨_, execDieDiscoveryTimeout_within h, rfl⟩
  | .dramChannelTrained .., _, _, h => ⟨_, execDramChannelTrained_within h, rfl⟩
  | .discoveryDone, _, _, h => ⟨_, execDiscoveryDone_within h, rfl⟩
  | .injectionDone .., _, _, h => ⟨_, execInjectionDone_within h, rfl⟩
  | .serviceReady, _, _, h => ⟨_, execServiceReady_within h, rfl⟩
  | .startWindowEnd, _, _, h => ⟨_, execStartWindowEnd_within h, rfl⟩
  | .updateOffsetWrite .., _, _, h => ⟨_, execUpdateOffsetWrite_within h, rfl⟩
  | .updateLengthWrite .., _, _, h => ⟨_, execUpdateLengthWrite_within h, rfl⟩
  | .updateChunk .., _, _, h => ⟨_, execUpdateChunk_within h, rfl⟩
  | .updateVerify .., _, _, h => ⟨_, execUpdateVerify_within h, rfl⟩
  | .provisionalConsent .., _, _, h => ⟨_, execProvisionalConsent_within h, rfl⟩
  | .updateActivateNextStart .., _, _, h => ⟨_, execUpdateActivateNextStart_within h, rfl⟩
  | .updateActivateNow .., _, _, h => ⟨_, execUpdateActivateNow_within h, rfl⟩
  | .updateActivateLive .., _, _, h => ⟨_, execUpdateActivateLive_within h, rfl⟩
  | .updateCommit .., _, _, h => ⟨_, execUpdateCommit_within h, rfl⟩
  | .updateAbort .., _, _, h => ⟨_, execUpdateAbort_within h, rfl⟩
  | .updateClaimTimeout, _, _, h => ⟨_, execUpdateClaimTimeout_within h, rfl⟩
  | .commitTimeout, _, _, h => ⟨_, execCommitTimeout_within h, rfl⟩
  | .revokeKeySlot .., _, _, h => ⟨_, execRevokeKeySlot_within h, rfl⟩
  | .advanceFloor .., _, _, h => ⟨_, execAdvanceFloor_within h, rfl⟩
  | .pour .., _, _, h => ⟨_, execPour_within h, rfl⟩
  | .pourStore .., _, _, h => ⟨_, execPourStore_within h, rfl⟩
  | .pourRecall .., _, _, h => ⟨_, execPourRecall_within h, rfl⟩
  | .pourShadowLoaded .., _, _, h => ⟨_, execPourShadowLoaded_within h, rfl⟩
  | .pourGenerationReserved .., _, _, h => ⟨_, execPourGenerationReserved_within h, rfl⟩
  | .pourBacklogTimeout .., _, _, h => ⟨_, execPourBacklogTimeout_within h, rfl⟩
  | .pourCancel .., _, _, h => ⟨_, execPourCancel_within h, rfl⟩
  | .pourFlip .., _, _, h => ⟨_, execPourFlip_within h, rfl⟩
  | .rampEnd .., _, _, h => ⟨_, execRampEnd_within h, rfl⟩
  | .pourCommitDone .., _, _, h => ⟨_, execPourCommitDone_within h, rfl⟩
  | .sceneErase .., _, _, h => ⟨_, execSceneErase_within h, rfl⟩
  | .csiFrameStart .., _, _, h => reaches_of_flips rfl (fun hl => execCsiFrameStart_within_noPours h hl) (execCsiFrameStart_within h) rfl rfl
  | .csiEmbeddedLine .., _, _, h => ⟨_, execCsiEmbeddedLine_within h, rfl⟩
  | .csiLongPacket .., _, _, h => ⟨_, execCsiLongPacket_within h, rfl⟩
  | .csiFrameEnd .., _, _, h => ⟨_, execCsiFrameEnd_within h, rfl⟩
  | .csiLaneError .., _, _, h => ⟨_, execCsiLaneError_within h, rfl⟩
  | .scannerDatagram .., _, _, h => reaches_of_flips rfl (fun hl => execScannerDatagram_within_noPours h hl) (execScannerDatagram_within h) rfl rfl
  | .imuDrdyEdge .., _, _, h => reaches_of_flips rfl (fun hl => execImuDrdyEdge_within_noPours h hl) (execImuDrdyEdge_within h) rfl rfl
  | .imuReadDone .., _, _, h => ⟨_, execImuReadDone_within h, rfl⟩
  | .encoderTransition .., _, _, h => reaches_of_flips rfl (fun hl => execEncoderTransition_within_noPours h hl) (execEncoderTransition_within h) rfl rfl
  | .encoderZEdge .., _, _, h => ⟨_, execEncoderZEdge_within h, rfl⟩
  | .encoderPeriodEnd .., _, _, h => reaches_of_flips rfl (fun hl => execEncoderPeriodEnd_within_noPours h hl) (execEncoderPeriodEnd_within h) rfl rfl
  | .canSensorFrame .., _, _, h => reaches_of_flips rfl (fun hl => execCanSensorFrame_within_noPours h hl) (execCanSensorFrame_within h) rfl rfl
  | .modelWindowEnd .., _, _, h => ⟨_, execModelWindowEnd_within h, rfl⟩
  | .slotStaleTimeout .., _, _, h => ⟨_, execSlotStaleTimeout_within h, rfl⟩
  | .gridTick, _, _, h => ⟨_, execGridTick_within h, rfl⟩
  | .resampleTickRecord, _, _, h => ⟨_, execResampleTickRecord_within h, rfl⟩
  | .poseRecord, _, _, h => ⟨_, execPoseRecord_within h, rfl⟩
  | .poseWaitExpiry, _, _, h => ⟨_, execPoseWaitExpiry_within h, rfl⟩
  | .gridPointItem, _, _, h => ⟨_, execGridPointItem_within h, rfl⟩
  | .pointWaitExpiry .., _, _, h => ⟨_, execPointWaitExpiry_within h, rfl⟩
  | .gridBuildDone .., _, _, h => ⟨_, execGridBuildDone_within h, rfl⟩
  | .modelLoad .., _, _, h => ⟨_, execModelLoad_within h, rfl⟩
  | .modelLoadDone .., _, _, h => ⟨_, execModelLoadDone_within h, rfl⟩
  | .deckCopyDone .., _, _, h => ⟨_, execDeckCopyDone_within h, rfl⟩
  | .modelUnload .., _, _, h => ⟨_, execModelUnload_within h, rfl⟩
  | .modelUnloadDone .., _, _, h => ⟨_, execModelUnloadDone_within h, rfl⟩
  | .inferenceTrigger .., _, _, h => reaches_of_flips rfl (fun hl => execInferenceTrigger_within_noPours h hl) (execInferenceTrigger_within h) rfl rfl
  | .inferenceDispatch .., _, _, h => reaches_of_flips rfl (fun hl => execInferenceDispatch_within_noPours h hl) (execInferenceDispatch_within h) rfl rfl
  | .inferenceComplete .., _, _, h => ⟨_, execInferenceComplete_within h, rfl⟩
  | .canaryComplete .., _, _, h => ⟨_, execCanaryComplete_within h, rfl⟩
  | .canaryTimeout .., _, _, h => ⟨_, execCanaryTimeout_within h, rfl⟩
  | .canaryRequest .., _, _, h => ⟨_, execCanaryRequest_within h, rfl⟩
  | .weightScanBlock .., _, _, h => ⟨_, execWeightScanBlock_within h, rfl⟩
  | .weightScanOverdue .., _, _, h => ⟨_, execWeightScanOverdue_within h, rfl⟩
  | .fallbackEvaluate, _, _, h => ⟨_, execFallbackEvaluate_within h, rfl⟩
  | .lockstepMismatch .., _, _, h => ⟨_, execLockstepMismatch_within h, rfl⟩
  | .cupResetDone .., _, _, h => ⟨_, execCupResetDone_within h, rfl⟩
  | .channelEnable .., _, _, h => ⟨_, execChannelEnable_within h, rfl⟩
  | .channelRestart .., _, _, h => ⟨_, execChannelRestart_within h, rfl⟩
  | .policyWrite .., _, _, h => ⟨_, execPolicyWrite_within h, rfl⟩
  | .fieldSetWrite .., _, _, h => ⟨_, execFieldSetWrite_within h, rfl⟩
  | .safeTestPulse .., _, _, h => ⟨_, execSafeTestPulse_within h, rfl⟩
  | .safeFeedbackEdge .., _, _, h => ⟨_, execSafeFeedbackEdge_within h, rfl⟩
  | .feedbackDelayExpiry .., _, _, h => ⟨_, execFeedbackDelayExpiry_within h, rfl⟩
  | .safeReset .., _, _, h => ⟨_, execSafeReset_within h, rfl⟩
  | .injectRerun .., _, _, h => ⟨_, execInjectRerun_within h, rfl⟩
  | .structureDescriptorWrite .., _, _, h => ⟨_, execStructureDescriptorWrite_within h, rfl⟩
  | .solverBatchStart .., _, _, h => reaches_of_flips rfl (fun hl => execSolverBatchStart_within_noPours h hl) (execSolverBatchStart_within h) rfl rfl
  | .solverBatchEnd, _, _, h => ⟨_, execSolverBatchEnd_within h, rfl⟩
  | .domainBlock .., _, _, h => ⟨_, execDomainBlock_within h, rfl⟩
  | .portBlockStamp .., _, _, h => ⟨_, execPortBlockStamp_within h, rfl⟩
  | .portEnable .., _, _, h => ⟨_, execPortEnable_within h, rfl⟩
  | .converterSettled .., _, _, h => ⟨_, execConverterSettled_within h, rfl⟩
  | .outputStart .., _, _, h => ⟨_, execOutputStart_within h, rfl⟩
  | .outputStop .., _, _, h => ⟨_, execOutputStop_within h, rfl⟩
  | .serialWsSlip .., _, _, h => ⟨_, execSerialWsSlip_within h, rfl⟩
  | .serialRelock .., _, _, h => ⟨_, execSerialRelock_within h, rfl⟩
  | .serialClockAbsent .., _, _, h => ⟨_, execSerialClockAbsent_within h, rfl⟩
  | .portRateMismatch .., _, _, h => ⟨_, execPortRateMismatch_within h, rfl⟩
  | .biphaseFrame .., _, _, h => ⟨_, execBiphaseFrame_within h, rfl⟩
  | .channelStatusBlock .., _, _, h => ⟨_, execChannelStatusBlock_within h, rfl⟩
  | .biphaseUnlock .., _, _, h => ⟨_, execBiphaseUnlock_within h, rfl⟩
  | .rtpPacketReceived .., _, _, h => ⟨_, execRtpPacketReceived_within h, rfl⟩
  | .rtpPacketTransmit .., _, _, h => ⟨_, execRtpPacketTransmit_within h, rfl⟩
  | .aes67Realign .., _, _, h => ⟨_, execAes67Realign_within h, rfl⟩
  | .hostAudioBlock .., _, _, h => ⟨_, execHostAudioBlock_within h, rfl⟩
  | .toneCadenceTransition .., _, _, h => ⟨_, execToneCadenceTransition_within h, rfl⟩
  | .voicePlay .., _, _, h => ⟨_, execVoicePlay_within h, rfl⟩
  | .voiceStop .., _, _, h => ⟨_, execVoiceStop_within h, rfl⟩
  | .voiceClipEnd .., _, _, h => ⟨_, execVoiceClipEnd_within h, rfl⟩
  | .controlItem .., _, _, h => ⟨_, execControlItem_within h, rfl⟩
  | .bfBankWrite .., _, _, h => ⟨_, execBfBankWrite_within h, rfl⟩
  | .mixLaneDrop .., _, _, h => ⟨_, execMixLaneDrop_within h, rfl⟩
  | .analogStart .., _, _, h => ⟨_, execAnalogStart_within h, rfl⟩
  | .analogStop .., _, _, h => ⟨_, execAnalogStop_within h, rfl⟩
  | .settleTimeExpiry .., _, _, h => ⟨_, execSettleTimeExpiry_within h, rfl⟩
  | .readbackWindowEnd .., _, _, h => ⟨_, execReadbackWindowEnd_within h, rfl⟩
  | .faultClear .., _, _, h => ⟨_, execFaultClear_within h, rfl⟩
  | .safeValueWrite .., _, _, h => ⟨_, execSafeValueWrite_within h, rfl⟩
  | .beaconFrame .., _, _, h => ⟨_, execBeaconFrame_within h, rfl⟩
  | .beaconFlood .., _, _, h => ⟨_, execBeaconFlood_within h, rfl⟩
  | .beaconFloodEnd .., _, _, h => ⟨_, execBeaconFloodEnd_within h, rfl⟩
  | .beaconViolation .., _, _, h => ⟨_, execBeaconViolation_within h, rfl⟩
  | .beaconResync .., _, _, h => ⟨_, execBeaconResync_within h, rfl⟩
  | .itemEnqueue .., _, _, h => ⟨_, execItemEnqueue_within h, rfl⟩
  | .deliverySlotWrite .., _, _, h => ⟨_, execDeliverySlotWrite_within h, rfl⟩
  | .deliveryConsWrite .., _, _, h => ⟨_, execDeliveryConsWrite_within h, rfl⟩
  | .submissionDoorbell .., _, _, h => ⟨_, execSubmissionDoorbell_within h, rfl⟩
  | .submissionFetch .., _, _, h => ⟨_, execSubmissionFetch_within h, rfl⟩
  | .bar0HighLatchRead .., _, _, h => ⟨_, execBar0HighLatchRead_within h, rfl⟩
  | .bar0InvalidAccess .., _, _, h => ⟨_, execBar0InvalidAccess_within h, rfl⟩
  | .bar2Access .., _, _, h => ⟨_, execBar2Access_within h, rfl⟩
  | .virekRingPoll .., _, _, h => ⟨_, execVirekRingPoll_within h, rfl⟩
  | .staleTimeExpiry .., _, _, h => ⟨_, execStaleTimeExpiry_within h, rfl⟩
  | .queueEnable .., _, _, h => ⟨_, execQueueEnable_within h, rfl⟩
  | .queueDisable .., _, _, h => ⟨_, execQueueDisable_within h, rfl⟩
  | .heartbeatSend, _, _, h => ⟨_, execHeartbeatSend_within h, rfl⟩
  | .heartbeatReceived .., _, _, h => ⟨_, execHeartbeatReceived_within h, rfl⟩
  | .heartbeatMissingCheck .., _, _, h => ⟨_, execHeartbeatMissingCheck_within h, rfl⟩
  | .partnerSilenceTimeout .., _, _, h => ⟨_, execPartnerSilenceTimeout_within h, rfl⟩
  | .portLinkChange .., _, _, h => ⟨_, execPortLinkChange_within h, rfl⟩
  | .holdTimeExpiry .., _, _, h => ⟨_, execHoldTimeExpiry_within h, rfl⟩
  | .duplicateFrameReceived .., _, _, h => ⟨_, execDuplicateFrameReceived_within h, rfl⟩
  | .swapTest .., _, _, h => ⟨_, execSwapTest_within h, rfl⟩
  | .swapVerifyExpiry .., _, _, h => ⟨_, execSwapVerifyExpiry_within h, rfl⟩
  | .forceSwitch .., _, _, h => ⟨_, execForceSwitch_within h, rfl⟩
  | .virekConnect .., _, _, h => ⟨_, execVirekConnect_within h, rfl⟩
  | .virekDisconnect .., _, _, h => ⟨_, execVirekDisconnect_within h, rfl⟩
  | .virekQuiesce .., _, _, h => ⟨_, execVirekQuiesce_within h, rfl⟩
  | .virekRead .., _, _, h => ⟨_, execVirekRead_within h, rfl⟩
  | .virekWrite .., _, _, h => ⟨_, execVirekWrite_within h, rfl⟩
  | .virekWriteFence .., _, _, h => ⟨_, execVirekWriteFence_within h, rfl⟩
  | .virekFenceAdd .., _, _, h => ⟨_, execVirekFenceAdd_within h, rfl⟩
  | .virekAck .., _, _, h => ⟨_, execVirekAck_within h, rfl⟩
  | .virekNak .., _, _, h => ⟨_, execVirekNak_within h, rfl⟩
  | .virekPing .., _, _, h => ⟨_, execVirekPing_within h, rfl⟩
  | .virekPacketInvalid .., _, _, h => ⟨_, execVirekPacketInvalid_within h, rfl⟩
  | .virekWriteCommitted .., _, _, h => ⟨_, execVirekWriteCommitted_within h, rfl⟩
  | .virekAckDelayExpiry .., _, _, h => ⟨_, execVirekAckDelayExpiry_within h, rfl⟩
  | .virekRtoExpiry .., _, _, h => ⟨_, execVirekRtoExpiry_within h, rfl⟩
  | .virekPeerTimeout .., _, _, h => ⟨_, execVirekPeerTimeout_within h, rfl⟩
  | .virekCreditStall .., _, _, h => ⟨_, execVirekCreditStall_within h, rfl⟩
  | .virekStallPing .., _, _, h => ⟨_, execVirekStallPing_within h, rfl⟩
  | .virekQuiesceHoldExpiry .., _, _, h => ⟨_, execVirekQuiesceHoldExpiry_within h, rfl⟩
  | .connectionClose .., _, _, h => ⟨_, execConnectionClose_within h, rfl⟩
  | .windowRegister .., _, _, h => ⟨_, execWindowRegister_within h, rfl⟩
  | .windowRevoke .., _, _, h => ⟨_, execWindowRevoke_within h, rfl⟩
  | .quarantineExpiry .., _, _, h => ⟨_, execQuarantineExpiry_within h, rfl⟩
  | .quarantineRelease .., _, _, h => ⟨_, execQuarantineRelease_within h, rfl⟩
  | .logClear .., _, _, h => ⟨_, execLogClear_within h, rfl⟩
  | .mirrorClear .., _, _, h => ⟨_, execMirrorClear_within h, rfl⟩
  | .powerStateEntry .., _, _, h => ⟨_, execPowerStateEntry_within h, rfl⟩
  | .demandWake .., _, _, h => ⟨_, execDemandWake_within h, rfl⟩
  | .earlyWake, _, _, h => ⟨_, execEarlyWake_within h, rfl⟩
  | .powerStateExitDone, _, _, h => ⟨_, execPowerStateExitDone_within h, rfl⟩
  | .wakeToleranceWrite .., _, _, h => ⟨_, execWakeToleranceWrite_within h, rfl⟩
  | .powerCapWindow .., _, _, h => ⟨_, execPowerCapWindow_within h, rfl⟩
  | .temperatureSample .., _, _, h => ⟨_, execTemperatureSample_within h, rfl⟩
  | .thermalTripCooled .., _, _, h => ⟨_, execThermalTripCooled_within h, rfl⟩
  | .islandReset .., _, _, h => ⟨_, execIslandReset_within h, rfl⟩
  | .islandHold .., _, _, h => ⟨_, execIslandHold_within h, rfl⟩
  | .quiesceBoundaryEmpty .., _, _, h => ⟨_, execQuiesceBoundaryEmpty_within h, rfl⟩
  | .islandReturn .., _, _, h => ⟨_, execIslandReturn_within h, rfl⟩
  | .islandWatchdogExpiry .., _, _, h => ⟨_, execIslandWatchdogExpiry_within h, rfl⟩
  | .staleReplyReceived .., _, _, h => ⟨_, execStaleReplyReceived_within h, rfl⟩
  | .i2cRead .., _, _, h => ⟨_, execI2cRead_within h, rfl⟩
  | .i2cWrite .., _, _, h => ⟨_, execI2cWrite_within h, rfl⟩
  | .canErrorFrame .., _, _, h => ⟨_, execCanErrorFrame_within h, rfl⟩
  | .canBusOffRecovery .., _, _, h => ⟨_, execCanBusOffRecovery_within h, rfl⟩
  | .biphaseReceiverLock .., _, _, h => ⟨_, execBiphaseReceiverLock_within h, rfl⟩
  | .ptpDelayRespReceived .., _, _, h => ⟨_, execPtpDelayRespReceived_within h, rfl⟩
  | .ptpDelayReqReceived .., _, _, h => ⟨_, execPtpDelayReqReceived_within h, rfl⟩
  | .arpIcmpEchoRequest .., _, _, h => ⟨_, execArpIcmpEchoRequest_within h, rfl⟩
  | .pauseOrOversizeFrame .., _, _, h => ⟨_, execPauseOrOversizeFrame_within h, rfl⟩
  | .perstNRelease, _, _, h => ⟨_, execPerstNRelease_within h, rfl⟩

/-- Settles O4: each command's mask names only parts that the table gives it, so a part it is not given to reach is the same. -/
theorem commandsLeavePartsAlone : Obligations.CommandsLeavePartsAlone := by
  intro i s t p h hp
  obtain ⟨M, hw, hm⟩ := exec_reaches i s t h
  exact hw.part_same p (masks_testBit hm hp)

end Sys2Proof.Machine
end

section
/-! The tick of the timeline (02_timeline R29, R35, R38), and what its own commands leave. -/
namespace Sys2Proof.Machine

/-- The slew bound is the one register that clamping an increment reads. -/
theorem Dev.clampInc_congr {d e : Dev} (h : e.reg Ob.slewBound = d.reg Ob.slewBound) : e.clampInc = d.clampInc := by
  unfold Dev.clampInc Dev.slewEdge Dev.nat
  rw [h]

@[simp] theorem Dev.closeTrack_reg (d : Dev) (k : Nat) : d.closeTrack.reg k = d.reg k := by
  unfold Dev.closeTrack
  split <;> simp

@[simp] theorem Dev.markTrack_reg (d : Dev) (k : Nat) : d.markTrack.reg k = d.reg k := by
  unfold Dev.markTrack
  split <;> simp

@[simp] theorem Dev.markTrack_tl (d : Dev) : d.markTrack.tl = d.tl :=
  (Dev.markTrack_within (M := 4) (by exact rfl) (.refl d)).tl rfl

@[simp] theorem Dev.wrapEra_tl (d : Dev) : d.wrapEra.tl = { d.tl with era := (d.tl.era + 1) % 65536 } := by
  simp [Dev.wrapEra]

theorem Dev.wrapEra_reg (d : Dev) {k : Nat} (h : ¬ BookKey k) : d.wrapEra.reg k = d.reg k := by
  simp [Dev.wrapEra, Dev.event_reg _ _ h]

@[simp] theorem Dev.endSlew_tl (d : Dev) : d.endSlew.tl = { d.tl with inc := d.clampInc d.tl.base, slewRem := 0 } := rfl

theorem Dev.wrapEra_slewBound (d : Dev) : d.wrapEra.reg Ob.slewBound = d.reg Ob.slewBound := d.wrapEra_reg (by decide)

/-- The end of a manual slew, where it comes, after a change that keeps the bound, the base and the increment. -/
theorem Dev.when_endSlew_tl {d e : Dev} (b : Bool) (hk : e.reg Ob.slewBound = d.reg Ob.slewBound)
    (hb : e.tl.base = d.tl.base) (hi : e.tl.inc = d.tl.inc) (hl : b = true → e.tl.slewRem = 0) :
    (e.when b fun d => d.markTrack.endSlew).tl = { e.tl with inc := if b then d.clampInc d.tl.base else d.tl.inc } := by
  have hc : e.markTrack.clampInc = d.clampInc := Dev.clampInc_congr ((e.markTrack_reg _).trans hk)
  cases b with
  | false => exact congrArg (fun i => { e.tl with inc := i }) hi
  | true =>
    show e.markTrack.endSlew.tl = _
    rw [Dev.endSlew_tl, hc, Dev.markTrack_tl, hb, if_pos rfl, ← hl rfl]

theorem Dev.when_wrapEra_tl (d : Dev) (b : Bool) :
    (d.when b Dev.wrapEra).tl = { d.tl with era := if b then (d.tl.era + 1) % 65536 else d.tl.era } := by
  cases b with
  | false => rfl
  | true => exact d.wrapEra_tl

theorem Dev.when_wrapEra_slewBound (d : Dev) (b : Bool) : (d.when b Dev.wrapEra).reg Ob.slewBound = d.reg Ob.slewBound := by
  cases b with
  | false => rfl
  | true => exact d.wrapEra_slewBound

/-- A tick that counts up to `now` and `frac` and leaves `left` of a manual slew; `wraps` says that the integer part
passes to 0, `ended` that the slew does end. -/
def Dev.counted (d : Dev) (now frac : Nat) (left : Int) (wraps ended : Bool) : Dev :=
  ((d.onTl fun t => { t with now := now, frac := frac, slewRem := left, ticks := t.ticks + 1 }).when wraps Dev.wrapEra).when
    ended fun d => d.markTrack.endSlew

theorem Dev.tick_eq (d : Dev) (h : d.tl.running = true) :
    d.tick = d.counted (d.nextCount / 4294967296 % span48) (d.nextCount % 4294967296)
      (slewAfter d.tl.slewRem d.tl.inc) (decide (span48 ≤ d.nextCount / 4294967296))
      (decide (d.tl.slewRem ≠ 0) && decide (slewAfter d.tl.slewRem d.tl.inc = 0)) :=
  if_neg (by simp [h])

theorem Dev.counted_tl (d : Dev) (now frac : Nat) (left : Int) (wraps ended : Bool) (hl : ended = true → left = 0) :
    (d.counted now frac left wraps ended).tl = { d.tl with
      now := now
      frac := frac
      era := if wraps then (d.tl.era + 1) % 65536 else d.tl.era
      inc := if ended then d.clampInc d.tl.base else d.tl.inc
      slewRem := left
      ticks := d.tl.ticks + 1 } := by
  unfold Dev.counted
  rw [Dev.when_endSlew_tl (d := d)]
  · rw [Dev.when_wrapEra_tl]
    rfl
  · exact Dev.when_wrapEra_slewBound _ _
  · rw [Dev.when_wrapEra_tl]
    rfl
  · rw [Dev.when_wrapEra_tl]
    rfl
  · rw [Dev.when_wrapEra_tl]
    exact hl

/-- The timeline after a tick: the counter and its carry into the era, and the manual slew that the tick may end. -/
theorem Dev.tick_tl (d : Dev) (h : d.tl.running = true) :
    d.tick.tl = { d.tl with
      now := d.nextCount / 4294967296 % span48
      frac := d.nextCount % 4294967296
      era := if decide (span48 ≤ d.nextCount / 4294967296) then (d.tl.era + 1) % 65536 else d.tl.era
      inc := if decide (d.tl.slewRem ≠ 0) && decide (slewAfter d.tl.slewRem d.tl.inc = 0) then d.clampInc d.tl.base
        else d.tl.inc
      slewRem := slewAfter d.tl.slewRem d.tl.inc
      ticks := d.tl.ticks + 1 } := by
  rw [Dev.tick_eq d h]
  exact Dev.counted_tl d _ _ _ _ _ fun hb => of_decide_eq_true (Bool.and_eq_true_iff.1 hb).2

theorem Dev.noteBusy_tl (d : Dev) : d.noteBusy.tl = d.tl :=
  (Dev.noteBusy_within (M := 16777216) (by exact rfl) (.refl d)).tl rfl

@[simp] theorem Dev.settle_tl (d0 d : Dev) : (d0.settle d).tl = d.tl := by simp [Dev.settle]

/-- Settles O2, from the timeline after a tick: `whole` is the counter's integer part before its wrap. -/
theorem tickCarriesIntoEra : Obligations.TickCarriesIntoEra := by
  intro s whole hp hr hnow hw hlt
  have hwhole : s.dev.nextCount / 4294967296 = whole := hw.symm
  have hstep : step s = onDev Dev.clock s := by rw [step, hp]
  refine ⟨_, hstep, ?_⟩
  have htl : (s.dev.settle s.dev.clock).tl = s.dev.tick.tl := by rw [Dev.settle_tl, Dev.clock, Dev.noteBusy_tl]
  refine ⟨fun h => ?_, fun h => ?_, ?_⟩
  · rw [htl, Dev.tick_tl _ hr, hwhole]
    exact ⟨Nat.mod_eq_of_lt h, if_neg (by simpa using h)⟩
  · rw [htl, Dev.tick_tl _ hr, hwhole]
    exact ⟨(Nat.mod_eq_sub_mod h).trans (Nat.mod_eq_of_lt (by omega)), if_pos (by simpa using h)⟩
  · rfl

end Sys2Proof.Machine
end

section
/-! What a write command that passes its checks leaves, in terms of its effect alone (04_dictionary R86, R87). -/
namespace Sys2Proof.Machine

/-- What every step over a list keeps, the whole keeps. -/
theorem Dev.each_keeps {α β : Type} {g : Dev → β} {f : Dev → α → Dev} (h : ∀ d a, g (f d a) = g d) (l : List α)
    (d : Dev) : g (d.each l f) = g d := by
  induction l generalizing d with
  | nil => rfl
  | cons a l ih => exact (ih _).trans (h d a)

/-- The device `d'` after an answered write keeps what the write's effect made of the device, `f`: the timeline, the
servo, the fences, the waits and every register outside the bookkeeping objects. -/
structure Dev.Finished (f d' : Dev) : Prop where
  tl : d'.tl = f.tl
  servo : d'.servo = f.servo
  fences : d'.fences = f.fences
  waits : d'.waits = f.waits
  reg : ∀ k, ¬ BookKey k → k ≠ Ob.safeOutputState → d'.reg k = f.reg k

theorem Dev.settle_finished (d0 f : Dev) : f.Finished (d0.settle f) :=
  have w := Dev.settle_within (M := 0) rfl (.refl f) d0
  ⟨w.tl rfl, w.servo rfl, w.fences rfl, w.waits rfl, fun _ _ h => Dev.settle_reg d0 f h⟩

theorem Dev.finishWrite_finished (f : Dev) (hd : Hdr) (cond : Option Nat) (idx sub : Nat) (v : Bytes) (se : Session) :
    f.Finished (f.finishWrite hd cond idx sub v se) := by
  obtain ⟨-, tl, servo, fences, waits, -⟩ := f.finishWrite_parts hd cond idx sub v se
  exact ⟨tl, servo, fences, waits, fun _ h _ => f.finishWrite_reg hd cond idx sub v se h⟩

theorem Dev.Finished.trans {f g h : Dev} (hfg : f.Finished g) (hgh : g.Finished h) : f.Finished h :=
  ⟨hgh.tl.trans hfg.tl, hgh.servo.trans hfg.servo, hgh.fences.trans hfg.fences,
    hgh.waits.trans hfg.waits, fun k hb hs => (hgh.reg k hb hs).trans (hfg.reg k hb hs)⟩

/-- The device `e` on which a write that passes its checks takes effect. -/
structure Dev.Passed (d e : Dev) : Prop where
  eq : e = { d with dict := e.dict, partners := e.partners }

namespace Dev.Passed
variable {d e : Dev} (h : d.Passed e)
include h

theorem tl : e.tl = d.tl := by rw [h.eq]
theorem servo : e.servo = d.servo := by rw [h.eq]
theorem fences : e.fences = d.fences := by rw [h.eq]
theorem waits : e.waits = d.waits := by rw [h.eq]
theorem reg (k : Nat) : e.reg k = d.reg k := by rw [h.eq]; rfl

end Dev.Passed

theorem Dev.writeGate_passed {d e : Dev} {c : Conds} {hd : Hdr} {cond : Option Nat} {idx sub : Nat} {v : Bytes}
    {se : Session} {n : Int} (h : d.writeGate c hd cond idx sub v = .pass e se n) : d.Passed e :=
  ⟨Dev.writeGate_pass_eq h⟩

/-- A write command by its effect: the device after it has `P` when every device that keeps what the effect made does. -/
theorem SetRuns.of_req {mk : Hdr → Option Nat → Instr} {c : Conds} {idx sub : Nat} {v : Bytes}
    {P : Dev → Session → Int → Dev → Prop} {eff : Session → Int → Dev → Dev}
    (h : ∀ hd cond s, exec (mk hd cond) s = onDev (fun d => d.writeReq c hd cond idx sub v eff) s)
    (k : ∀ d e se n d', d.Passed e → (eff se n e).Finished d' → P d se n d') : SetRuns mk c idx sub v P := by
  intro s hd cond e se n hg
  refine Runs.of_onDev (h hd cond s) (k _ e se n _ (Dev.writeGate_passed hg) ?_)
  rw [Dev.writeReq_pass hg]
  exact (Dev.finishWrite_finished _ _ _ _ _ _ _).trans (Dev.settle_finished _ _)

/-- A write command that stores its value first, in the register its address stands for. -/
theorem SetRuns.of_store {mk : Hdr → Option Nat → Instr} {c : Conds} {idx sub : Nat} {v : Bytes}
    {P : Dev → Session → Int → Dev → Prop} {eff : Session → Int → Dev → Dev}
    (h : ∀ hd cond s, exec (mk hd cond) s = onDev (fun d => d.writeStore c hd cond idx sub v eff) s)
    (k : ∀ d e se n d', d.Passed e → (eff se n (e.set (e.resolve se.id (idx * 256 + sub)) n)).Finished d' → P d se n d') :
    SetRuns mk c idx sub v P :=
  SetRuns.of_req h k

/-- An object that is neither held per session nor a queue's stands for its own register. -/
theorem Dev.resolve_self (d : Dev) (sid : Nat) {k : Nat} (hs : perSession k = false) (hq : k / 256 ≠ 0x5002) :
    d.resolve sid k = k := by
  unfold Dev.resolve
  rw [hs, if_neg (by decide), if_neg hq]

end Sys2Proof.Machine
end

section
/-! The timeline's own commands (02_timeline R31, R35, R37, R38). -/
namespace Sys2Proof.Machine

theorem Dev.slewEdge_congr {d e : Dev} (h : e.reg Ob.slewBound = d.reg Ob.slewBound) : e.slewEdge = d.slewEdge := by
  unfold Dev.slewEdge Dev.nat
  rw [h]

theorem Dev.slewEdge_of_reg {d : Dev} {n : Int} (h : d.reg Ob.slewBound = n) :
    d.slewEdge = nominalInc * n.toNat / 1000000 := by
  unfold Dev.slewEdge Dev.nat
  rw [h]

/-- An increment while `left` of a manual slew remains: at the edge of the bound on its side, else `inc` clamped (R37). -/
def reboundInc (edge inc : Nat) (left : Int) : Nat :=
  if 0 < left then nominalInc + edge
  else if left < 0 then nominalInc - edge
  else Nat.max (nominalInc - edge) (Nat.min inc (nominalInc + edge))

theorem Dev.rebound_tl (d : Dev) : d.rebound.tl = { d.tl with inc := reboundInc d.slewEdge d.tl.inc d.tl.slewRem } := by
  unfold Dev.rebound Dev.onTl Dev.clampInc
  rw [d.markTrack_tl]
  rfl

@[simp] theorem Dev.rebound_reg (d : Dev) (k : Nat) : d.rebound.reg k = d.reg k := d.markTrack_reg k

/-- A manual slew by some amount starts with all of it, at the edge of the bound on its side (R38). -/
theorem Dev.beginSlew_tl (d : Dev) {n : Int} (h : n ≠ 0) :
    (d.beginSlew n).tl.slewRem = n * 4294967296
      ∧ (d.beginSlew n).tl.inc = if 0 < n then nominalInc + d.slewEdge else nominalInc - d.slewEdge := by
  unfold Dev.beginSlew
  rw [if_neg h, Dev.rebound_tl]
  refine ⟨rfl, ?_⟩
  show reboundInc d.slewEdge _ (n * 4294967296) = _
  unfold reboundInc
  by_cases hp : 0 < n
  · rw [if_pos hp, if_pos (by omega)]
  · rw [if_neg hp, if_neg (by omega), if_pos (by omega)]

theorem Dev.each_event_tl {α : Type} (ev : α → Ev) (l : List α) (d : Dev) : (d.each l fun d a => d.event (ev a)).tl = d.tl :=
  Dev.each_keeps (g := Dev.tl) (fun d a => (d.event_parts (ev a)).2.1) l d

@[simp] theorem Dev.settle_log (d0 d : Dev) : (d0.settle d).log = d.log := by simp [Dev.settle]

theorem Dev.event_newest (d : Dev) (ev : Ev) : (d.event ev).log.ring.head? = some (d.entryOf ev) := by
  rw [Dev.event_ring]
  rfl

/-- A reload that is due leaves the deviations that follow, and logs the one replica it corrects (R31). -/
theorem stampReplicaReload_runs {s : State} (wrong : List (Nat × Int)) (hr : s.dev.tl.running = true)
    (ht : 65536 ≤ s.dev.tl.ticks) :
    Runs (.stampReplicaReload wrong) s fun d =>
      d.tl = { s.dev.tl with ticks := 0, skew := wrong.foldl (fun l e => kvPut l e.1 e.2) [] }
      ∧ ∀ i e, (s.dev.tl.skew.filter fun e => decide (e.2 ≠ 0)) = [(i, e)] →
        d.log.ring.head? = some (s.dev.entryOf { code := 0x1007, island := Isl.tmg, d1 := i }) := by
  refine Runs.of_onDev (show execStampReplicaReload wrong s = onDev _ s from rfl) ?_
  have hdue : ¬ (!s.dev.tl.running || decide (s.dev.tl.ticks < 65536)) = true := by simp [hr, ht]
  rw [if_neg hdue, Dev.settle_tl, Dev.settle_log]
  refine ⟨?_, fun i e h => ?_⟩
  · dsimp only [Dev.onTl]
    rw [Dev.each_event_tl]
  · dsimp only [Dev.onTl]
    rw [h]
    exact Dev.event_newest _ _

/-- With no manual slew under way none is left after a tick. -/
theorem slewAfter_zero (inc : Nat) : slewAfter 0 inc = 0 := by
  unfold slewAfter
  exact if_pos (.inl rfl)

theorem eraWrap_runs {s : State} (hr : s.dev.tl.running = true) (hw : 281474976710656 ≤ s.dev.nextCount / 4294967296)
    (h0 : s.dev.tl.slewRem = 0) :
    Runs .eraWrap s fun d => d.tl = { s.dev.tl with
      now := s.dev.nextCount / 4294967296 % 281474976710656, frac := s.dev.nextCount % 4294967296,
      ticks := s.dev.tl.ticks + 1, era := (s.dev.tl.era + 1) % 65536 } := by
  refine Runs.of_onDev (show execEraWrap s = onDev _ s from rfl) ?_
  have hc : (s.dev.tl.running && decide (span48 ≤ s.dev.nextCount / 4294967296)) = true := by
    rw [hr, Bool.true_and, decide_eq_true_eq]
    exact hw
  rw [if_pos hc, Dev.settle_tl, Dev.tick_tl _ hr, if_pos (decide_eq_true hw), h0, slewAfter_zero]
  generalize hcount : s.dev.nextCount = c
  cases htl : s.dev.tl
  simp_all

theorem eraWrap_idle {s : State} (hw : s.dev.nextCount / 4294967296 < 281474976710656) :
    Runs .eraWrap s fun d => d.tl = s.dev.tl := by
  refine Runs.of_onDev (show execEraWrap s = onDev _ s from rfl) ?_
  have hc : ¬ (s.dev.tl.running && decide (span48 ≤ s.dev.nextCount / 4294967296)) = true := by
    rw [Bool.and_eq_true, decide_eq_true_eq]
    exact fun h => Nat.not_le.2 hw h.2
  rw [if_neg hc, Dev.settle_tl]

theorem slewAbsorbed_runs {s : State} (hr : s.dev.tl.running = true) (hn : s.dev.tl.slewRem ≠ 0)
    (h0 : slewAfter s.dev.tl.slewRem s.dev.tl.inc = 0) :
    Runs .slewAbsorbed s fun d => d.tl.inc = s.dev.clampInc s.dev.tl.base ∧ d.tl.slewRem = 0
      ∧ d.tl.now = s.dev.nextCount / 4294967296 % 281474976710656 ∧ d.tl.frac = s.dev.nextCount % 4294967296 := by
  refine Runs.of_onDev (show execSlewAbsorbed s = onDev _ s from rfl) ?_
  have he : (decide (s.dev.tl.slewRem ≠ 0) && decide (slewAfter s.dev.tl.slewRem s.dev.tl.inc = 0)) = true := by
    rw [decide_eq_true hn, decide_eq_true h0, Bool.and_true]
  have hc : (s.dev.tl.running && decide (s.dev.tl.slewRem ≠ 0)
      && decide (slewAfter s.dev.tl.slewRem s.dev.tl.inc = 0)) = true := by rw [Bool.and_assoc, he, hr, Bool.and_true]
  rw [if_pos hc, Dev.settle_tl, Dev.tick_tl _ hr]
  exact ⟨if_pos he, h0, rfl, rfl⟩

theorem slewAbsorbed_idle {s : State} (h : slewAfter s.dev.tl.slewRem s.dev.tl.inc ≠ 0) :
    Runs .slewAbsorbed s fun d => d.tl = s.dev.tl := by
  refine Runs.of_onDev (show execSlewAbsorbed s = onDev _ s from rfl) ?_
  rw [decide_eq_false h, Bool.and_false, if_neg (by decide), Dev.settle_tl]

theorem slewBoundWrite_runs (v : Bytes) : SetRuns (fun hd cond => .slewBoundWrite hd cond v) {} 0x2001 1 v fun d _ n d' =>
    d'.reg Ob.slewBound = n ∧ d'.tl.inc = reboundInc (nominalInc * n.toNat / 1000000) d.tl.inc d.tl.slewRem := by
  refine SetRuns.of_store (fun _ _ _ => rfl) fun d e se n d' he hf => ?_
  have hk : e.resolve se.id (0x2001 * 256 + 1) = Ob.slewBound := e.resolve_self se.id (by decide) (by decide)
  rw [hk] at hf
  have hset : (e.set Ob.slewBound n).reg Ob.slewBound = n := by rw [Dev.reg_set, if_pos rfl]
  refine ⟨?_, ?_⟩
  · rw [hf.reg _ (by decide) (by decide), Dev.rebound_reg, hset]
  · rw [hf.tl, Dev.rebound_tl, Dev.slewEdge_of_reg hset]
    have ht : (e.set Ob.slewBound n).tl = d.tl := he.tl
    rw [ht]

theorem manualSlew_runs (v : Bytes) : SetRuns (fun hd cond => .manualSlew hd cond v)
    { state := fun d _ _ => needState (d.sv = Sv.free || d.sv = Sv.listen) } 0x2001 2 v fun d _ n d' => n ≠ 0 →
    d'.tl.slewRem = n * 4294967296
      ∧ d'.tl.inc = if 0 < n then nominalInc + d.slewEdge else nominalInc - d.slewEdge := by
  refine SetRuns.of_req (fun _ _ _ => rfl) fun d e se n d' he hf hn => ?_
  rw [hf.tl, ← Dev.slewEdge_congr (he.reg _)]
  exact e.beginSlew_tl hn

/-- Settles O13: each of the timeline's own commands by its effect, over the timeline after a tick. -/
theorem timelineCommandsRun : Obligations.TimelineCommandsRun :=
  ⟨fun _ wrong hr ht => stampReplicaReload_runs wrong hr ht, fun _ hr hw h0 => eraWrap_runs hr hw h0,
    fun _ _ hw => eraWrap_idle hw, fun _ hr hn h0 => slewAbsorbed_runs hr hn h0, fun _ h => slewAbsorbed_idle h,
    slewBoundWrite_runs, manualSlew_runs⟩

end Sys2Proof.Machine
end

section
/-! No object of the timeline takes part in a pour (02_timeline R55). -/
namespace Sys2Proof.Machine

theorem firstFault_eq_none {l : List (Option Refuse)} (h : firstFault l = none) {x : Option Refuse} (hx : x ∈ l) :
    x = none := by
  induction l with
  | nil => cases hx
  | cons y l ih =>
    cases y with
    | some r => cases h
    | none =>
      rcases List.mem_cons.1 hx with rfl | hx
      · rfl
      · exact ih h hx

theorem firstEntry_eq_none {f : RawEntry → Option Refuse} {l : List RawEntry} {n : Nat} (h : firstEntry f n l = none)
    {x : RawEntry} (hx : x ∈ l) : f x = none := by
  induction l generalizing n with
  | nil => cases hx
  | cons y l ih =>
    unfold firstEntry at h
    split at h
    · cases h
    · rcases List.mem_cons.1 hx with rfl | hx
      · assumption
      · exact ih h hx

theorem objs20_mark : ∀ r ∈ objs20a ++ objs20b, r.mark = .no := by decide

theorem objRow_mark_timeline {idx sub : Nat} {r : ObjRow} (hlo : 0x2000 ≤ idx) (hhi : idx ≤ 0x20FF)
    (h : objRow idx sub = some r) : r.mark = .no := by
  have hblock : objRows idx = objs20a ++ objs20b := by
    have hx : idx / 256 = 0x20 := by omega
    unfold objRows
    rw [hx]
    rfl
  unfold objRow at h
  rw [hblock] at h
  exact objs20_mark r (List.mem_of_find?_eq_some h)

theorem Dev.recallSafe_timeline (d : Dev) {idx : Nat} (hhi : idx ≤ 0x20FF) : d.recallSafe idx = false := by
  unfold Dev.recallSafe
  rw [if_neg (by omega), if_neg (by omega), if_neg (by omega)]

/-- An entry whose object is not pourable, or not an object, is refused. -/
theorem Dev.entryFault_ne_none {d d1 d2 : Dev} {se : Session} {store : Bool} {x : RawEntry}
    (h : ∀ r, objRow x.idx x.sub = some r → r.mark = .no) : d.entryFault d1 d2 se store x ≠ none := by
  intro hn
  unfold Dev.entryFault at hn
  dsimp only at hn
  split at hn
  · cases hn
  · next r hr =>
    have hm := firstFault_eq_none hn (List.mem_cons_of_mem _ (List.mem_cons_of_mem _ (List.mem_cons_of_mem _ List.mem_cons_self)))
    rw [if_pos (h r hr)] at hm
    cases hm

theorem Dev.pourFault_ne_none {d : Dev} {se : Session} {h : PourHead} {all : List RawEntry} {x : RawEntry} (hx : x ∈ all)
    (hlo : 0x2000 ≤ x.idx) (hhi : x.idx ≤ 0x20FF) : d.pourFault se h all ≠ none := by
  intro hn
  unfold Dev.pourFault at hn
  have he := firstFault_eq_none hn (List.mem_cons_of_mem _ (List.mem_cons_of_mem _ (List.mem_cons_of_mem _ List.mem_cons_self)))
  have hf := firstEntry_eq_none he hx
  have hs : d.skipped h x = false := by
    unfold Dev.skipped
    rw [d.recallSafe_timeline hhi, Bool.and_false]
  rw [hs, if_neg (by decide)] at hf
  exact Dev.entryFault_ne_none (fun _ hr => objRow_mark_timeline hlo hhi hr) hf

@[simp] theorem Dev.settle_pours (d0 d : Dev) : (d0.settle d).pours = d.pours := by simp [Dev.settle]

@[simp] theorem Dev.pourAnswer_pours (d : Dev) (rq : PourReq) (status detail : Nat) :
    (d.pourAnswer rq status detail).pours = d.pours := by simp [Dev.pourAnswer]

/-- Entries with an object of the timeline among them accept no pour. -/
theorem Dev.pourEntries_pours {d : Dev} {se : Session} {rq : PourReq} {h : PourHead} {all : List RawEntry} {x : RawEntry}
    (hx : x ∈ all) (hlo : 0x2000 ≤ x.idx) (hhi : x.idx ≤ 0x20FF) : (d.pourEntries se rq h all).pours = d.pours := by
  unfold Dev.pourEntries
  cases hf : d.pourFault se h all with
  | none => exact absurd hf (Dev.pourFault_ne_none hx hlo hhi)
  | some r => exact d.pourAnswer_pours rq r.status r.detail

theorem Dev.countStart_blocks (d : Dev) (c : Carrier) : (d.countStart c).dict.blocks = d.dict.blocks := by
  unfold Dev.countStart
  split <;> rfl

theorem Dev.peerActive_dict (d : Dev) (c : Carrier) : (d.peerActive c).dict = d.dict := by
  unfold Dev.peerActive
  repeat' split
  all_goals rfl

/-- A request goes on in the session it names, with the block writes as they were. -/
theorem Dev.admission_go_session {d e : Dev} {hd : Hdr} {op : Nat} {payload : Bytes} {multi : Bool} {se : Session}
    (k : d.admission hd op payload multi = .go e se) : se.id = hd.session ∧ e.dict.blocks = d.dict.blocks := by
  have hblocks : ∀ f g, (((d.peerActive hd.carrier).onSession hd.session f).onSession hd.session g).dict.blocks
      = d.dict.blocks := fun _ _ => congrArg (·.blocks) (d.peerActive_dict hd.carrier)
  unfold Dev.admission at k
  dsimp only at k
  split at k
  · cases k
  split at k
  · cases k
  next s hs =>
    have hid : s.id = hd.session := by simpa using List.find?_some hs
    rw [hid] at k
    repeat' split at k
    all_goals
      first
      | (cases k; done)
      | (obtain ⟨rfl, rfl⟩ := Adm.go.inj k
         exact ⟨rfl, by first | exact hblocks _ _ | exact (Dev.countStart_blocks _ _).trans (hblocks _ _)⟩)

/-- A pour that arrives whole is decided on its descriptor. -/
theorem Dev.pourFrame_arrives {d e : Dev} {hd : Hdr} {payload : Bytes} {se : Session} {l : List RawEntry}
    (h : PourArrives d hd payload e se l) (hs : (pourHead payload).store = false) :
    d.pourFrame hd payload = e.pourEntries se { sid := se.id, tag := hd.tag, seq := hd.seq, payload := payload }
      (pourHead payload) (if (pourHead payload).recall then
        (rawEntries (e.nat (Ob.sceneEntries (pourHead payload).scene)) (e.blob (Ob.sceneContent (pourHead payload).scene))).getD []
        else l) := by
  obtain ⟨hgo, hseg, hmore, hblock, hboot, hlen, hmax, hbad, hraw, hok, hprov⟩ := h
  obtain ⟨hid, hblocks⟩ := Dev.admission_go_session hgo
  have hmulti : (d.blockOp hd.session hd.tag Op.pour).isSome = false := by
    have hsame : d.blockOp hd.session hd.tag Op.pour = e.blockOp se.id hd.tag Op.pour := by
      unfold Dev.blockOp Dev.block
      rw [hblocks, hid]
    rw [hsame, hblock, Option.isSome_none]
  unfold Dev.pourFrame
  rw [hmulti, hgo]
  dsimp only
  rw [if_neg hboot, hblock]
  dsimp only
  rw [if_neg (not_not.2 hseg), hmore, Bool.not_false, if_pos rfl]
  unfold Dev.pourDescriptor
  dsimp only
  rw [if_neg (Nat.not_lt.2 hmax), hbad, if_neg Bool.false_ne_true, if_pos hlen, hraw]
  dsimp only
  rw [hok, Bool.not_true, if_neg Bool.false_ne_true, hprov, if_neg Bool.false_ne_true, hs, if_neg Bool.false_ne_true]
  split <;> rfl

theorem PourArrives.pours {d e : Dev} {hd : Hdr} {payload : Bytes} {se : Session} {l : List RawEntry}
    (h : PourArrives d hd payload e se l) : e.pours = d.pours := by rw [Dev.admission_go_eq h.1]

/-- Settles O8: the rows of the timeline are not pourable, so an entry that names one is a fault, and a fault refuses all. -/
theorem timelineObjectsTakeNoPour : Obligations.TimelineObjectsTakeNoPour := by
  refine ⟨fun idx sub r hlo hhi h => objRow_mark_timeline hlo hhi h, fun s hd payload e se l x h hlo hhi => ⟨?_, ?_⟩⟩
  · intro hr hs hx
    refine Runs.of_onDev (show execPour hd payload s = onDev _ s from rfl) ?_
    rw [Dev.settle_pours, Dev.pourFrame_arrives h hs, hr, if_neg Bool.false_ne_true]
    exact (Dev.pourEntries_pours hx hlo hhi).trans h.pours
  · intro hr hx
    have hs : (pourHead payload).store = false := by
      obtain ⟨-, -, -, -, -, -, -, -, -, hok, -⟩ := h
      unfold PourHead.ok at hok
      simp_all
    refine Runs.of_onDev (show execPourRecall hd payload s = onDev _ s from rfl) ?_
    rw [Dev.settle_pours, Dev.pourFrame_arrives h hs, hr, if_pos rfl]
    exact (Dev.pourEntries_pours hx hlo hhi).trans h.pours

end Sys2Proof.Machine
end

section
/-! Fences and waits: what each operation leaves of the fences, the waits and the timeline (02_timeline R48-R53). -/
namespace Sys2Proof.Machine

theorem Dev.fence_congr {d e : Dev} (h : e.fences = d.fences) (f : Nat) : e.fence f = d.fence f := by
  unfold Dev.fence
  rw [h]

@[simp] theorem Dev.setFence_fence (d : Dev) (f : Nat) (x : Fence) : (d.setFence f x).fence f = x := by
  unfold Dev.setFence Dev.fence
  by_cases h : x = {}
  · rw [if_pos h, kvGet_kvDel, if_pos rfl, h]
  · rw [if_neg h, kvGet_kvPut, if_pos rfl]

@[simp] theorem Dev.deliverWait_parts (d : Dev) (w : Wait) (reset : Bool) :
    (d.deliverWait w reset).tl = d.tl ∧ (d.deliverWait w reset).fences = d.fences
      ∧ (d.deliverWait w reset).waits = d.waits :=
  have k := Dev.deliverWait_within (M := 1) (by exact rfl) (.refl d) w reset
  ⟨k.tl rfl, k.fences rfl, k.waits rfl⟩

@[simp] theorem Dev.deliverWait_barHandle (d : Dev) (w : Wait) (reset : Bool) :
    (d.deliverWait w reset).barHandle = d.barHandle := by
  unfold Dev.deliverWait Dev.when
  repeat' split
  all_goals first | rfl | simp [Dev.nextSeq]

@[simp] theorem Dev.completeWaits_fences (d : Dev) (f : Nat) (reset : Bool) (met : Wait → Bool) :
    (d.completeWaits f reset met).fences = d.fences :=
  Dev.each_keeps (g := Dev.fences) (fun d w => (d.deliverWait_parts w reset).2.1) _ _

@[simp] theorem Dev.completeWaits_tl (d : Dev) (f : Nat) (reset : Bool) (met : Wait → Bool) :
    (d.completeWaits f reset met).tl = d.tl :=
  Dev.each_keeps (g := Dev.tl) (fun d w => (d.deliverWait_parts w reset).1) _ _

@[simp] theorem Dev.completeWaits_waits (d : Dev) (f : Nat) (reset : Bool) (met : Wait → Bool) :
    (d.completeWaits f reset met).waits = d.waits.filter fun w => !(w.fence == f && met w) :=
  Dev.each_keeps (g := Dev.waits) (fun d w => (d.deliverWait_parts w reset).2.2) _ _

@[simp] theorem Dev.completeWaits_barHandle (d : Dev) (f : Nat) (reset : Bool) (met : Wait → Bool) :
    (d.completeWaits f reset met).barHandle = d.barHandle :=
  Dev.each_keeps (g := Dev.barHandle) (fun d w => d.deliverWait_barHandle w reset) _ _

@[simp] theorem Dev.testWaits_fences (d : Dev) (f : Nat) : (d.testWaits f).fences = d.fences := d.completeWaits_fences _ _ _

@[simp] theorem Dev.testWaits_tl (d : Dev) (f : Nat) : (d.testWaits f).tl = d.tl := d.completeWaits_tl _ _ _

@[simp] theorem Dev.testWaits_barHandle (d : Dev) (f : Nat) : (d.testWaits f).barHandle = d.barHandle :=
  d.completeWaits_barHandle _ _ _

/-- The waits that stay after a test of fence `f`: those on other fences, and those of which neither condition is met. -/
theorem Dev.mem_testWaits {d : Dev} {f : Nat} {w : Wait} : w ∈ (d.testWaits f).waits ↔
    w ∈ d.waits ∧ (w.fence = f → (d.fence f).valueMet w = false ∧ (d.fence f).deadlineMet d.now = false) := by
  unfold Dev.testWaits
  rw [Dev.completeWaits_waits, List.mem_filter]
  simp [imp_iff_not_or]

@[simp] theorem Dev.noteLate_parts (d : Dev) (f : Nat) :
    (d.noteLate f).tl = d.tl ∧ (d.noteLate f).fences = d.fences ∧ (d.noteLate f).waits = d.waits :=
  have k := Dev.noteLate_within (M := 0) (by exact rfl) (.refl d) f
  ⟨k.tl rfl, k.fences rfl, k.waits rfl⟩

theorem Dev.testWaits_fence (d : Dev) (f g : Nat) : (d.testWaits f).fence g = d.fence g :=
  Dev.fence_congr (d.testWaits_fences f) g

theorem Dev.fenceSignal_fence (d : Dev) (f v : Nat) :
    (d.fenceSignal f v).fence f = { d.fence f with value := Nat.max (d.fence f).value v } :=
  (Dev.testWaits_fence _ _ _).trans (Dev.setFence_fence _ _ _)

theorem Dev.when_event_fences (d : Dev) (b : Bool) (ev : Ev) : (d.when b fun d => d.event ev).fences = d.fences := by
  cases b with
  | false => rfl
  | true => exact (d.event_parts ev).2.2.2.1

theorem Dev.when_bump_event_fences (d : Dev) (b : Bool) (k : Nat) (ev : Ev) :
    (d.when b fun d => (d.bump k).event ev).fences = d.fences := by
  cases b with
  | false => rfl
  | true => exact ((d.bump k).event_parts ev).2.2.2.1

theorem Dev.fenceAdd_fence (d : Dev) (f n : Nat) :
    (d.fenceAdd f n).fence f = { d.fence f with value := Nat.min ((d.fence f).value + n) 18446744073709551615 } := by
  unfold Dev.fenceAdd
  dsimp only
  rw [Dev.testWaits_fence]
  exact (Dev.fence_congr (Dev.when_bump_event_fences _ _ _ _) f).trans (Dev.setFence_fence _ _ _)

theorem Dev.fenceReset_fence (d : Dev) (f : Nat) :
    (d.fenceReset f).fence f = { d.fence f with value := 0, enabled := false } := by
  unfold Dev.fenceReset
  dsimp only
  refine (Dev.fence_congr ?_ f).trans (d.setFence_fence f { d.fence f with value := 0, enabled := false })
  rw [Dev.completeWaits_fences, Dev.when_event_fences]

theorem Dev.fenceReset_waits (d : Dev) (f : Nat) : ∀ w ∈ (d.fenceReset f).waits, w.fence ≠ f := by
  unfold Dev.fenceReset
  dsimp only
  rw [Dev.completeWaits_waits]
  intro w hw
  simpa using (List.mem_filter.1 hw).2

theorem Dev.fenceDeadline_fence (d : Dev) (f deadline : Nat) (enabled : Bool) :
    (d.fenceDeadline f deadline enabled).fence f = { d.fence f with deadline := deadline % span48, enabled := enabled } :=
  (Dev.testWaits_fence _ _ _).trans (Dev.setFence_fence _ _ _)

/-- A wait that is not met when it is armed stays. -/
theorem Dev.mem_armWait {d : Dev} {w : Wait} (hv : (d.fence w.fence).valueMet w = false)
    (hd : (d.fence w.fence).deadlineMet d.now = false) : w ∈ (d.armWait w).waits :=
  Dev.mem_testWaits.2 ⟨List.mem_append_right _ List.mem_cons_self, fun _ => ⟨hv, hd⟩⟩

@[simp] theorem Dev.armWait_barHandle (d : Dev) (w : Wait) : (d.armWait w).barHandle = d.barHandle :=
  Dev.testWaits_barHandle _ _

/-- A BAR0 fence operation within rights, on a device that serves it, is made. -/
theorem Dev.barFence_may {d : Dev} {fn p f : Nat} (h : BarFenceMay d fn p f) (off : Nat) (op : Nat → Dev → Dev) :
    d.barFence fn f off op = op p d := by
  obtain ⟨hperst, hpart, hserve, hquar, hquiet, hright⟩ := h
  have hw : d.barWrite fn (0x800000 + 64 * f + off) = (d, some p) := by
    unfold Dev.barWrite
    simp [hperst, hserve, hpart, hquar]
  unfold Dev.barFence
  rw [hw]
  dsimp only
  rw [hquiet, if_neg Bool.false_ne_true, hright, Bool.not_true, if_neg Bool.false_ne_true]

end Sys2Proof.Machine
end

section
/-! Fence operations through BAR0 and through the dictionary (02_timeline R48-R53). -/
namespace Sys2Proof.Machine

/-- A fence operation of BAR0 by its effect: the device after it has `P` when every device that keeps what it made does. -/
theorem runs_of_barFence {i : Instr} {s : State} {fn p f off : Nat} {op : Nat → Dev → Dev} {P : Dev → Prop}
    (h : BarFenceMay s.dev fn p f) (hi : exec i s = onDev (fun d => d.barFence fn f off op) s)
    (k : P (s.dev.settle (op p s.dev))) : Runs i s P := by
  refine Runs.of_onDev hi ?_
  rw [Dev.barFence_may h]
  exact k

theorem Dev.settle_fence (d0 d : Dev) (f : Nat) : (d0.settle d).fence f = d.fence f :=
  Dev.fence_congr (Dev.settle_finished d0 d).fences f

@[simp] theorem Dev.settle_waits (d0 d : Dev) : (d0.settle d).waits = d.waits := (Dev.settle_finished d0 d).waits

@[simp] theorem Dev.settle_barHandle (d0 d : Dev) : (d0.settle d).barHandle = d.barHandle := by simp [Dev.settle]

theorem fenceSignal_bar0_runs {s : State} {fn p f : Nat} (v : Bytes) (h : BarFenceMay s.dev fn p f) :
    Runs (.fenceSignal (.bar0 fn f) v) s fun d =>
      d.fence f = { s.dev.fence f with value := Nat.max (s.dev.fence f).value (leNat v) } := by
  refine runs_of_barFence h (show execFenceSignal (.bar0 fn f) v s = _ from rfl) ?_
  rw [Dev.settle_fence]
  exact Dev.fenceSignal_fence _ _ _

theorem fenceAdd_bar0_runs {s : State} {fn p f : Nat} (v : Bytes) (h : BarFenceMay s.dev fn p f) :
    Runs (.fenceAdd (.bar0 fn f) v) s fun d => d.fence f = { s.dev.fence f with
      value := Nat.min ((s.dev.fence f).value + leNat v) 18446744073709551615 } := by
  refine runs_of_barFence h (show execFenceAdd (.bar0 fn f) v s = _ from rfl) ?_
  rw [Dev.settle_fence]
  exact Dev.fenceAdd_fence _ _ _

theorem fenceReset_bar0_runs {s : State} {fn p f : Nat} (h : BarFenceMay s.dev fn p f) :
    Runs (.fenceReset (.bar0 fn f)) s fun d =>
      d.fence f = { s.dev.fence f with value := 0, enabled := false } ∧ ∀ w ∈ d.waits, w.fence ≠ f := by
  refine runs_of_barFence h (show execFenceReset (.bar0 fn f) s = _ from rfl) ?_
  rw [Dev.settle_fence, Dev.settle_waits]
  exact ⟨Dev.fenceReset_fence _ _, Dev.fenceReset_waits _ _⟩

theorem fenceSetDeadline_bar0_runs {s : State} {fn p f : Nat} (v : Bytes) (h : BarFenceMay s.dev fn p f) :
    Runs (.fenceSetDeadline (.bar0 fn f) 2 v) s fun d => d.fence f = { s.dev.fence f with
      deadline := leNat v % 281474976710656, enabled := bit (leNat v) 63 } := by
  refine runs_of_barFence h (show execFenceSetDeadline (.bar0 fn f) 2 v s = _ from rfl) ?_
  rw [Dev.settle_fence, Dev.fenceDeadline_fence]
  generalize leNat v = n
  rw [Nat.mod_mod]

theorem waitArm_bar0_runs {s : State} {fn p f h : Nat} (v : Bytes) (hm : BarFenceMay s.dev fn p f)
    (hok : s.dev.deliveryOk p (leAt v 8 8 % 4) (leAt v 8 8 / 65536) = true) (hlen : s.dev.waits.length < 16384)
    (hfree : s.dev.freeSlot = some h) (hv : (s.dev.fence f).value < leAt v 0 8)
    (hd : (s.dev.fence f).deadlineMet s.dev.now = false) :
    Runs (.waitArm (.bar0 fn f) v) s fun d =>
      { handle := h, fence := f, target := leAt v 0 8, delivery := leAt v 8 8 % 4, dest := leAt v 8 8 / 65536, part := p }
        ∈ d.waits ∧ kvGet d.barHandle fn = some h := by
  refine runs_of_barFence hm (show execWaitArm (.bar0 fn f) v s = _ from rfl) ?_
  rw [Dev.settle_waits, Dev.settle_barHandle]
  generalize leAt v 0 8 = target at *
  generalize leAt v 8 8 = word at *
  dsimp only
  have hslot : (if ({ s.dev with barTarget := kvPut s.dev.barTarget fn target } : Dev).deliveryOk p (word % 4) (word / 65536)
      && decide (s.dev.waits.length < 16384) then ({ s.dev with barTarget := kvPut s.dev.barTarget fn target } : Dev).freeSlot
      else none) = some h := (if_pos (Bool.and_eq_true_iff.2 ⟨hok, decide_eq_true hlen⟩)).trans hfree
  rw [hslot]
  refine ⟨Dev.mem_armWait (decide_eq_false (Nat.not_le.2 hv)) hd, ?_⟩
  rw [Dev.armWait_barHandle, kvGet_kvPut, if_pos rfl]

/-- Settles O16: each operation reaches its fence (`Dev.barFence_may`), and its effect is the fence's. -/
theorem fenceBarCommandsRun : Obligations.FenceBarCommandsRun := fun _ _ _ _ v h =>
  ⟨fenceSignal_bar0_runs v h, fenceAdd_bar0_runs v h, fenceReset_bar0_runs h, fenceSetDeadline_bar0_runs v h,
    fun _ hok hlen hfree hv hd => waitArm_bar0_runs v h hok hlen hfree hv hd⟩

theorem Dev.Passed.selFence {d e : Dev} (h : d.Passed e) (sid : Nat) : e.selFence sid = d.selFence sid :=
  congrArg Int.toNat (h.reg _)

/-- A fence operation through the dictionary by its effect on the selected fence. -/
theorem SetRuns.of_fence {mk : Hdr → Option Nat → Instr} {idx sub : Nat} {v : Bytes} {eff : Session → Int → Dev → Dev}
    {new : Fence → Int → Fence}
    (h : ∀ hd cond s, exec (mk hd cond) s = onDev (fun d => d.writeReq fenceConds hd cond idx sub v eff) s)
    (k : ∀ e se n, (eff se n e).fence (e.selFence se.id) = new (e.fence (e.selFence se.id)) n) :
    SetRuns mk fenceConds idx sub v fun d se n d' => d'.fence (d.selFence se.id) = new (d.fence (d.selFence se.id)) n := by
  refine SetRuns.of_req h fun d e se n d' he hf => ?_
  rw [Dev.fence_congr hf.fences, ← he.selFence se.id, k, Dev.fence_congr he.fences]

theorem fenceSignal_dict_runs (v : Bytes) : SetRuns (fun hd cond => .fenceSignal (.dict hd cond) v) fenceConds 0x2040 3 v
    fun d se n d' => d'.fence (d.selFence se.id)
      = { d.fence (d.selFence se.id) with value := Nat.max (d.fence (d.selFence se.id)).value n.toNat } :=
  SetRuns.of_fence (new := fun x n => { x with value := Nat.max x.value n.toNat })
    (fun hd cond s => show execFenceSignal (.dict hd cond) v s = _ from rfl) fun e _ _ => e.fenceSignal_fence _ _

theorem fenceAdd_dict_runs (v : Bytes) : SetRuns (fun hd cond => .fenceAdd (.dict hd cond) v) fenceConds 0x2040 4 v
    fun d se n d' => d'.fence (d.selFence se.id) = { d.fence (d.selFence se.id) with
      value := Nat.min ((d.fence (d.selFence se.id)).value + n.toNat) 18446744073709551615 } :=
  SetRuns.of_fence (new := fun x n => { x with value := Nat.min (x.value + n.toNat) 18446744073709551615 })
    (fun hd cond s => show execFenceAdd (.dict hd cond) v s = _ from rfl) fun e _ _ => e.fenceAdd_fence _ _

theorem fenceReset_dict_runs : SetRuns (fun hd cond => .fenceReset (.dict hd cond)) fenceConds 0x2040 7 [1]
    fun d se _ d' => d'.fence (d.selFence se.id) = { d.fence (d.selFence se.id) with value := 0, enabled := false } :=
  SetRuns.of_fence (new := fun x _ => { x with value := 0, enabled := false })
    (fun hd cond s => show execFenceReset (.dict hd cond) s = _ from rfl) fun e _ _ => e.fenceReset_fence _

theorem fenceSetDeadline_dict_runs (v : Bytes) :
    SetRuns (fun hd cond => .fenceSetDeadline (.dict hd cond) 0 v) fenceConds 0x2040 5 v fun d se n d' =>
      d'.fence (d.selFence se.id) = { d.fence (d.selFence se.id) with deadline := n.toNat % 281474976710656 } :=
  SetRuns.of_fence (new := fun x n => { x with deadline := n.toNat % 281474976710656 })
    (fun hd cond s => show execFenceSetDeadline (.dict hd cond) 0 v s = _ from rfl)
    fun e _ _ => e.fenceDeadline_fence _ _ _

/-- A session's own FenceSelect is neither bookkeeping nor SafeOutputState. -/
theorem fenceSelect_not_book (sid : Nat) :
    ¬ BookKey (inst Ob.fenceSelect sid) ∧ inst Ob.fenceSelect sid ≠ Ob.safeOutputState := by
  unfold BookKey inst Ob.fenceSelect Ob.safeOutputState
  omega

theorem fenceSelectWrite_runs (v : Bytes) : SetRuns (fun hd cond => .fenceSelectWrite hd cond false v)
    { fence := fun _ _ => if v.length = 4 ∧ leNat v < 131072 then some (leNat v) else none } 0x2040 1 v
    fun _ se n d' => d'.reg (inst Ob.fenceSelect se.id) = n := by
  refine SetRuns.of_store (fun hd cond s => show execFenceSelectWrite hd cond false v s = _ from rfl)
    fun d e se n d' he hf => ?_
  have hk : e.resolve se.id (0x2040 * 256 + 1) = inst Ob.fenceSelect se.id := if_pos (by decide)
  obtain ⟨hbook, hsafe⟩ := fenceSelect_not_book se.id
  rw [hf.reg _ hbook hsafe, hk, Dev.reg_set, if_pos rfl]

theorem waitCancel_runs (v : Bytes) : SetRuns (fun hd cond => .waitCancel hd cond v)
    { state := fun d se n => match d.waits.find? fun w => (w.handle : Int) == n with
      | none => some { status := Sc.stateRefused }
      | some w => if w.part = se.part || d.isInt se.part then none else some { status := Sc.notOwner, detail := w.part } }
    0x2041 7 v fun d _ n d' => d'.waits = d.waits.filter fun w => (w.handle : Int) != n := by
  refine SetRuns.of_req (fun hd cond s => show execWaitCancel hd cond v s = _ from rfl) fun d e se n d' he hf => ?_
  rw [hf.waits, ← he.waits]

/-- The tick that tests deadlines, of a microsecond not yet tested and with one fence due (R53). -/
theorem fenceDeadlineTick_runs {s : State} {f : Nat} (hq : s.dev.quiesced Isl.tmg = false) (hr : s.dev.tl.running = true)
    (hu : s.dev.tl.usDone ≤ s.dev.ext / 1000) (hdue : s.dev.dueFences = [f]) :
    Runs .fenceDeadlineTick s fun d => d.fences = s.dev.fences ∧ d.tl.usDone = s.dev.ext / 1000 + 1
      ∧ ∀ w ∈ d.waits, w.fence = f → (s.dev.fence f).valueMet w = false ∧ (s.dev.fence f).deadlineMet s.dev.now = false := by
  refine Runs.of_onDev (show execFenceDeadlineTick s = onDev _ s from rfl) ?_
  have hgo : ¬ (s.dev.quiesced Isl.tmg || !s.dev.tl.running || decide (s.dev.ext / 1000 < s.dev.tl.usDone)) = true := by
    rw [hq, hr, decide_eq_false (Nat.not_lt.2 hu)]
    decide
  rw [if_neg hgo, hdue]
  generalize hd : s.dev.onTl (fun t => { t with usDone := s.dev.ext / 1000 + 1 }) = d
  simp only [Dev.each, List.take_succ_cons, List.take_nil, List.foldl_cons, List.foldl_nil]
  obtain ⟨htl, hfences, -⟩ := d.noteLate_parts f
  obtain ⟨settled_tl, -, settled_fences, settled_waits, -⟩ := s.dev.settle_finished ((d.noteLate f).testWaits f)
  refine ⟨?_, ?_, fun w hw => ?_⟩
  · rw [settled_fences, Dev.testWaits_fences, hfences, ← hd]
    rfl
  · rw [settled_tl, Dev.testWaits_tl, htl, ← hd]
    rfl
  · rw [settled_waits] at hw
    have hmet := (Dev.mem_testWaits.1 hw).2
    have hnow : (d.noteLate f).now = d.now := congrArg Timeline.now htl
    rw [Dev.fence_congr hfences, hnow, ← hd] at hmet
    exact hmet

/-- Settles O17: the operations on the selected fence through `SetRuns.of_fence`, then selection, cancelling and the tick. -/
theorem fenceDictionaryCommandsRun : Obligations.FenceDictionaryCommandsRun :=
  ⟨fenceSignal_dict_runs, fenceAdd_dict_runs, fenceReset_dict_runs, fenceSetDeadline_dict_runs, fenceSelectWrite_runs,
    waitCancel_runs, fun _ _ hq hr hu hdue => fenceDeadlineTick_runs hq hr hu hdue⟩

end Sys2Proof.Machine
end

section
/-! Why DRAM outside the records of the waits is not left as it was (02_timeline R52): a wait names its partition by an unbounded
number, and for a number past the eight partitions the attachment is read from a register of another object. -/
namespace Sys2Proof.Machine

/-- A device whose one wait names partition 0x4F00. The attachment kind of that partition is read from 0x6000.02, the number
of entries in the event log: 0 (PCIe) before the first entry, 1 (Virek peer) after it. The wait's deadline passed 2 µs ago. -/
def strayWait : Dev :=
  { ((({} : Dev).set (Ob.partWindowKind 0x4F00 0) 2).set (Ob.partWindowLength 0x4F00 0) 16) with
    tl := { running := true, now := 2000 }
    fences := [(0, { deadline := 0, enabled := true })]
    waits := [{ handle := 0, fence := 0, target := 1, delivery := 2, dest := 0, part := 0x4F00 }] }

/-- Before the tick the wait's partition counts as attached by PCIe, so its completion has no record in DRAM. -/
theorem strayWait_not_mirrors (a : Nat) : ∀ w ∈ strayWait.waits, ¬ strayWait.Mirrors w a := by
  have hkind : strayWait.nat (Ob.partAttachKind 0x4F00) = 0 := by decide
  intro w hw
  obtain rfl := List.mem_singleton.1 hw
  rintro ⟨-, -, hattached, -⟩
  exact hattached hkind

/-- The device after the tick that tests deadlines, in the microsecond 2. -/
def strayWaitTicked : Dev :=
  strayWait.settle (((strayWait.onTl fun t => { t with usDone := 3 }).noteLate 0).testWaits 0)

theorem strayWait_tick :
    exec .fenceDeadlineTick { pending := [], dev := strayWait } = .next { pending := [], dev := strayWaitTicked } := rfl

/-- The late deadline is logged first. By that entry the partition counts as a Virek peer, so the record goes to DRAM: its
byte 8 is the first of the stamp 2000 = 0x7D0. -/
theorem strayWaitTicked_record : memByte strayWaitTicked.mem 8 = 0xD0 := by decide +kernel

/-- Refutes O5: the tick stores a record at an address that no wait held before it mirrors to. -/
theorem not_storesStayInside : ¬ Obligations.StoresStayInside := by
  rintro ⟨h, -⟩
  have hsame := h .fenceDeadlineTick { pending := [], dev := strayWait } { pending := [], dev := strayWaitTicked } 8 .tick
    strayWait_tick (strayWait_not_mirrors 8)
  exact absurd (strayWaitTicked_record.symm.trans hsame) (by decide)

end Sys2Proof.Machine
end

section
/-! The PTP client's servo: what entering a state and steering leave alone (02_timeline R42-R45, 03_timing_unit R65-R70). -/
namespace Sys2Proof.Machine

/-- A register that the references and their selector write: an object of 0x2100 to 0x21FF, or bookkeeping. -/
abbrev TimingKey (k : Nat) : Prop := BookKey k ∨ (0x2100 ≤ k / 256 % 65536 ∧ k / 256 % 65536 ≤ 0x21FF)

/-- The registers of `d'` differ from those of `d` at most in the references' and the selector's objects and in bookkeeping. -/
def Timed (d d' : Dev) : Prop := ∀ k, ¬ TimingKey k → d'.reg k = d.reg k

theorem Timed.refl (d : Dev) : Timed d d := fun _ _ => rfl

theorem Timed.trans {a d e : Dev} (h : Timed a d) (k : Timed d e) : Timed a e := fun x hx => (k x hx).trans (h x hx)

theorem Timed.set {a d : Dev} (h : Timed a d) {k : Nat} (hk : TimingKey k) (v : Int) : Timed a (d.set k v) := fun x hx => by
  rw [Dev.reg_set, if_neg (fun e : x = k => hx (e ▸ hk)), h x hx]

theorem Timed.event {a d : Dev} (h : Timed a d) (ev : Ev) : Timed a (d.event ev) := fun x hx =>
  (d.event_reg ev fun hb => hx (.inl hb)).trans (h x hx)

theorem Timed.onTu {a d : Dev} (h : Timed a d) (f : Tu → Tu) : Timed a (d.onTu f) := h

theorem Timed.when {a d : Dev} (h : Timed a d) (b : Bool) {f : Dev → Dev} (hf : Timed a (f d)) : Timed a (d.when b f) := by
  cases b <;> assumption

theorem Timed.closeLocked {a d : Dev} (h : Timed a d) : Timed a d.closeLocked := by
  unfold Dev.closeLocked
  split <;> exact h

theorem Timed.steer {a d : Dev} (h : Timed a d) (v : Int) : Timed a (d.steer v) := (h.set (by decide) _).onTu _

theorem Timed.toSelector {a d : Dev} (h : Timed a d) (st : Int) (code : Nat) : Timed a (d.toSelector st code) := by
  have hset : ∀ f, Timed a (((d.closeLocked.set Ob.selectorState st).setN Ob.selectedRef code).onTu f) := fun _ =>
    ((h.closeLocked.set (by decide) _).set (by decide) _).onTu _
  exact ((hset _).when _ ((hset _).set (by decide) _)).event _

theorem Timed.toHoldover {a d : Dev} (h : Timed a d) : Timed a d.toHoldover :=
  ((((h.set (by decide) _).steer _).toSelector _ _).event _)

theorem Timed.acquire {a d : Dev} (h : Timed a d) (code : Nat) : Timed a (d.acquire code) := (h.steer _).toSelector _ _

theorem Timed.toFreerun {a d : Dev} (h : Timed a d) : Timed a d.toFreerun := (h.steer _).toSelector _ _

theorem Timed.reselect {a d : Dev} (h : Timed a d) : Timed a d.reselect := by
  unfold Dev.reselect
  dsimp only
  repeat' split
  all_goals with_reducible first | exact h | exact h.acquire _ | exact h.toFreerun | exact h.toHoldover

theorem Timed.toRef {a d : Dev} (h : Timed a d) {code : Nat} (hc : TimingKey (Ob.refState code)) (st : Int) :
    Timed a (d.toRef code st) :=
  ((h.set hc st).when _ ((h.set hc st).onTu _)).event _

/-- A reference lost by the servo's leaving TRACK is one of the two PTP ports. -/
theorem Timed.each_toRef {a : Dev} (l : List Nat) (hl : ∀ c ∈ l, c = 2 ∨ c = 3) {d : Dev} (h : Timed a d) :
    Timed a (d.each l fun d c => d.toRef c 1) := by
  induction l generalizing d with
  | nil => exact h
  | cons c l ih =>
    have hc : TimingKey (Ob.refState c) := by
      rcases hl c List.mem_cons_self with rfl | rfl <;> decide
    exact ih (fun x hx => hl x (List.mem_cons_of_mem _ hx)) (h.toRef hc 1)

theorem Timed.ptpRefs {a d : Dev} (h : Timed a d) : Timed a d.ptpRefs := by
  unfold Dev.ptpRefs
  dsimp only
  split
  · exact h
  · refine (Timed.each_toRef _ (fun c hc => ?_) h).reselect
    simpa using (List.mem_filter.1 hc).1

theorem Dev.ptpRefs_reg (d : Dev) {k : Nat} (hk : ¬ TimingKey k) : d.ptpRefs.reg k = d.reg k := (Timed.refl d).ptpRefs k hk

@[simp] theorem Dev.ptpRefs_parts (d : Dev) : d.ptpRefs.tl = d.tl ∧ d.ptpRefs.servo = d.servo :=
  have w := Dev.ptpRefs_within (M := 512) (by exact rfl) (.refl d)
  ⟨w.tl rfl, w.servo rfl⟩

/-- Where the servo's state changes, the interval in TRACK is closed first. -/
theorem Dev.leaveTrack_reg (d : Dev) (b : Bool) (k : Nat) : (if b then d.closeTrack else d).reg k = d.reg k := by
  split
  · exact d.closeTrack_reg k
  · rfl

/-- Entering a state writes the state and the announced time source, and else what the references follow it with. -/
theorem Dev.toServo_reg (d : Dev) (st : Int) {k : Nat} (hk : ¬ TimingKey k) (hs : k ≠ Ob.gmTimeSource) :
    (d.toServo st).reg k = if k = Ob.servoState then st else d.reg k := by
  unfold Dev.toServo
  rw [Dev.ptpRefs_reg _ hk, Dev.reg_set, if_neg hs, Dev.reg_set]
  exact if_congr Iff.rfl rfl (d.leaveTrack_reg _ k)

theorem Dev.toServo_sv (d : Dev) (st : Int) : (d.toServo st).sv = st :=
  (d.toServo_reg st (by decide) (by decide)).trans (if_pos rfl)

end Sys2Proof.Machine
end

section
/-! Writes of the PTP client and grandmaster objects (02_timeline R39, R42-R44, R47). -/
namespace Sys2Proof.Machine

/-- Starting or stopping the client (R39, Table 4). -/
theorem Dev.setSource_zero (d : Dev) : (d.setSource 0).reg Ob.servoState = 0 ∧ (d.setSource 0).reg Ob.activePort = 0
    ∧ (d.setSource 0).reg Ob.ptpSource = d.reg Ob.ptpSource := by
  unfold Dev.setSource
  rw [if_pos rfl]
  generalize he : d.onServo (fun v => { v with master := none }) = e
  have hk : e.reg Ob.ptpSource = d.reg Ob.ptpSource := by rw [← he]; rfl
  refine ⟨?_, ?_, ?_⟩
  · rw [Dev.reg_setN, if_neg (by decide)]
    exact e.toServo_sv Sv.free
  · rw [Dev.reg_setN, if_pos rfl]
    rfl
  · rw [Dev.reg_setN, if_neg (by decide), e.toServo_reg _ (by decide) (by decide), if_neg (by decide), hk]

theorem Dev.setSource_starts (d : Dev) {src : Int} (hs : src ≠ 0) (hf : d.reg Ob.servoState = 0) :
    (d.setSource src).reg Ob.servoState = 1 ∧ (d.setSource src).reg Ob.ptpSource = d.reg Ob.ptpSource := by
  unfold Dev.setSource
  have hfree : d.sv = Sv.free := hf
  rw [if_neg hs]
  dsimp only
  rw [if_pos hfree]
  refine ⟨?_, ?_⟩
  · rw [Dev.reg_setN, if_neg (by decide)]
    exact d.toServo_sv Sv.listen
  · rw [Dev.reg_setN, if_neg (by decide), d.toServo_reg _ (by decide) (by decide), if_neg (by decide)]

theorem ptpSourceWrite_runs (v : Bytes) : SetRuns (fun hd cond => .ptpSourceWrite hd cond v)
    { state := fun d _ n => needState (!(decide (n = 1 ∨ n = 2) && decide (n = d.reg Ob.gmPort))) } 0x2010 1 v fun d _ n d' =>
    (n = 0 → d'.reg Ob.ptpSource = 0 ∧ d'.reg Ob.servoState = 0 ∧ d'.reg Ob.activePort = 0)
    ∧ (n ≠ 0 → d.reg Ob.servoState = 0 → d'.reg Ob.ptpSource = n ∧ d'.reg Ob.servoState = 1) := by
  refine SetRuns.of_store (fun hd cond s => show execPtpSourceWrite hd cond v s = _ from rfl) fun d e se n d' he hf => ?_
  have hk : e.resolve se.id (0x2010 * 256 + 1) = Ob.ptpSource := e.resolve_self se.id (by decide) (by decide)
  rw [hk] at hf
  have hsource : (e.set Ob.ptpSource n).reg Ob.ptpSource = n := by rw [Dev.reg_set, if_pos rfl]
  rw [hf.reg Ob.ptpSource (by decide) (by decide), hf.reg Ob.servoState (by decide) (by decide),
    hf.reg Ob.activePort (by decide) (by decide)]
  refine ⟨fun h => ?_, fun h hfree => ?_⟩
  · subst h
    obtain ⟨hstate, hport, hsrc⟩ := (e.set Ob.ptpSource 0).setSource_zero
    exact ⟨hsrc.trans hsource, hstate, hport⟩
  · have hstate : (e.set Ob.ptpSource n).reg Ob.servoState = 0 := by
      rw [Dev.reg_set, if_neg (by decide), he.reg, hfree]
    obtain ⟨hlisten, hsrc⟩ := Dev.setSource_starts _ h hstate
    exact ⟨hsrc.trans hsource, hlisten⟩

theorem Dev.acceptOffset_published (d : Dev) (θ : Int) :
    (d.acceptOffset θ).reg Ob.publishedOffset = d.reg Ob.publishedOffset + θ := by
  unfold Dev.acceptOffset
  dsimp only
  rw [Dev.event_reg _ _ (by decide), Dev.reg_bump, if_neg (by decide), Dev.reg_set, if_pos rfl]

theorem guardResponseAccept_runs : SetRuns (fun hd cond => .guardResponseAccept hd cond)
    { state := fun d _ _ => needState (d.sv = Sv.refused) } 0x2012 1 [1] fun d _ _ d' =>
    d'.reg Ob.publishedOffset = d.reg Ob.publishedOffset + d.reg Ob.refusedOffset ∧ d'.reg Ob.servoState = 2 := by
  refine SetRuns.of_req (fun hd cond s => show execGuardResponseAccept hd cond s = _ from rfl) fun d e se n d' he hf => ?_
  rw [hf.reg _ (by decide) (by decide), hf.reg _ (by decide) (by decide)]
  refine ⟨?_, (e.acceptOffset _).toServo_sv Sv.slew⟩
  rw [Dev.toServo_reg _ _ (by decide) (by decide), if_neg (by decide), Dev.acceptOffset_published, he.reg, he.reg]

/-- The clamp keeps an increment within the bound (R37). -/
theorem Dev.clampInc_bounds (d : Dev) (inc : Nat) :
    nominalInc - d.slewEdge ≤ d.clampInc inc ∧ d.clampInc inc ≤ nominalInc + d.slewEdge := by
  unfold Dev.clampInc
  generalize nominalInc = m
  generalize d.slewEdge = edge
  exact ⟨Nat.le_max_left _ _, Nat.max_le.2 ⟨by omega, Nat.min_le_right _ _⟩⟩

/-- An increment toward a θ stays within the bound, and outside LockWindow on θ's side of nominal (R42). -/
theorem Dev.toward_bounds (d : Dev) (θ : Int) (inc : Nat) :
    nominalInc - d.slewEdge ≤ d.toward θ inc ∧ d.toward θ inc ≤ nominalInc + d.slewEdge
      ∧ (d.reg Ob.lockWindow < θ.natAbs → (0 < θ → nominalInc ≤ d.toward θ inc) ∧ (θ < 0 → d.toward θ inc ≤ nominalInc)) := by
  obtain ⟨hlo, hhi⟩ := d.clampInc_bounds inc
  unfold Dev.toward
  dsimp only
  generalize d.clampInc inc = c at *
  generalize d.slewEdge = edge at *
  generalize nominalInc = m at *
  by_cases hw : (θ.natAbs : Int) ≤ d.reg Ob.lockWindow
  · rw [if_pos hw]
    exact ⟨hlo, hhi, fun h => absurd hw (not_le.2 h)⟩
  · rw [if_neg hw]
    by_cases hp : 0 < θ
    · rw [if_pos hp]
      exact ⟨hlo.trans (Nat.le_max_left _ _), Nat.max_le.2 ⟨hhi, by omega⟩,
        fun _ => ⟨fun _ => Nat.le_max_right _ _, fun h => by omega⟩⟩
    · rw [if_neg hp]
      exact ⟨Nat.le_min.2 ⟨hlo, by omega⟩, (Nat.min_le_left _ _).trans hhi,
        fun _ => ⟨fun h => absurd h hp, fun _ => Nat.min_le_right _ _⟩⟩

/-- Steering sets the increment toward θ, and of the registers the filtered θ alone (R42). -/
theorem Dev.steerTheta_inc (d : Dev) (θ : Int) : ∃ inc, (d.steerTheta θ).tl.inc = d.closeTrack.toward θ inc := ⟨_, rfl⟩

theorem Dev.steerTheta_reg (d : Dev) (θ : Int) {k : Nat} (h : k ≠ Ob.masterOffset) : (d.steerTheta θ).reg k = d.reg k :=
  ((d.closeTrack.reg_set _ _ _).trans (if_neg h)).trans (d.closeTrack_reg k)

theorem guardResponseSlew_runs : SetRuns (fun hd cond => .guardResponseSlew hd cond)
    { state := fun d _ _ => needState (d.sv = Sv.refused) } 0x2012 1 [2] fun d _ _ d' =>
    d'.reg Ob.publishedOffset = d.reg Ob.publishedOffset ∧ d'.reg Ob.servoState = 2 ∧ d'.servo.suspended = true
      ∧ nominalInc - d.slewEdge ≤ d'.tl.inc ∧ d'.tl.inc ≤ nominalInc + d.slewEdge
      ∧ (d.reg Ob.lockWindow < (d.reg Ob.refusedOffset).natAbs →
        (0 < d.reg Ob.refusedOffset → nominalInc ≤ d'.tl.inc) ∧ (d.reg Ob.refusedOffset < 0 → d'.tl.inc ≤ nominalInc)) := by
  refine SetRuns.of_req (fun _ _ _ => rfl) fun d e se n d' he hf => ?_
  generalize hθ : e.reg Ob.refusedOffset = θ at hf
  have hkeep : ∀ k, ¬ TimingKey k → k ≠ Ob.gmTimeSource → (e.toServo Sv.slew).closeTrack.reg k
      = if k = Ob.servoState then Sv.slew else d.reg k := fun k hk hs => by
    rw [Dev.closeTrack_reg, Dev.toServo_reg _ _ hk hs, he.reg]
  have hedge : (e.toServo Sv.slew).closeTrack.slewEdge = d.slewEdge :=
    Dev.slewEdge_congr ((hkeep _ (by decide) (by decide)).trans (if_neg (by decide)))
  have hwindow : (e.toServo Sv.slew).closeTrack.reg Ob.lockWindow = d.reg Ob.lockWindow :=
    (hkeep _ (by decide) (by decide)).trans (if_neg (by decide))
  have hreg : ∀ k, ¬ TimingKey k → k ≠ Ob.gmTimeSource → k ≠ Ob.masterOffset → k ≠ Ob.safeOutputState →
      d'.reg k = if k = Ob.servoState then Sv.slew else d.reg k := fun k hk hs hm ho => by
    rw [hf.reg k (fun hb => hk (.inl hb)) ho]
    show ((e.toServo Sv.slew).steerTheta θ).reg k = _
    rw [Dev.steerTheta_reg _ θ hm, Dev.toServo_reg _ _ hk hs, he.reg]
  obtain ⟨inc, hinc⟩ := (e.toServo Sv.slew).steerTheta_inc θ
  have hset : d'.tl.inc = (e.toServo Sv.slew).closeTrack.toward θ inc := by
    rw [hf.tl]
    exact hinc
  have hbounds := (e.toServo Sv.slew).closeTrack.toward_bounds θ inc
  rw [hedge, hwindow, ← hset, ← hθ, he.reg] at hbounds
  have hpublished := hreg Ob.publishedOffset (by decide) (by decide) (by decide) (by decide)
  have hstate := hreg Ob.servoState (by decide) (by decide) (by decide) (by decide)
  refine ⟨hpublished.trans (if_neg (by decide)), hstate.trans (if_pos rfl), ?_, hbounds⟩
  rw [hf.servo]
  rfl

theorem gmPortWrite_runs (v : Bytes) : SetRuns (fun hd cond => .gmPortWrite hd cond v)
    { state := fun d _ n => needState (!(decide (n ≠ 0) && decide (d.reg Ob.ptpSource ≠ 0)
      && decide (n = d.reg Ob.activePort))) } 0x2018 1 v fun _ _ n d' => d'.reg Ob.gmPort = n := by
  refine SetRuns.of_store (fun hd cond s => show execGmPortWrite hd cond v s = _ from rfl) fun d e se n d' he hf => ?_
  have hk : e.resolve se.id (0x2018 * 256 + 1) = Ob.gmPort := e.resolve_self se.id (by decide) (by decide)
  rw [hf.reg _ (by decide) (by decide), hk, Dev.reg_set, if_pos rfl]

/-- Settles O14: each write by its effect, over what entering a servo state and steering leave. -/
theorem ptpWritesRun : Obligations.PtpWritesRun :=
  ⟨ptpSourceWrite_runs, guardResponseAccept_runs, guardResponseSlew_runs, gmPortWrite_runs⟩

end Sys2Proof.Machine
end

section
/-! What the PTP client and grandmaster do with frames and instants (02_timeline R39, R40, R42, R47). -/
namespace Sys2Proof.Machine

/-- The client's ports and the one it is on. -/
def Dev.ports (d : Dev) : PtpPort × PtpPort × Int := (d.servo.portA, d.servo.portB, d.reg Ob.activePort)

/-- The client's master, the last Sync from it, and its ports. -/
def Dev.client (d : Dev) : Option Nat × Option (Int × Int) × PtpPort × PtpPort × Int :=
  (d.servo.master, d.servo.lastSync, d.ports)

theorem Dev.ports_of_client {d e : Dev} (h : e.client = d.client) : e.ports = d.ports :=
  congrArg (fun c => c.2.2) h

theorem Dev.lastSync_of_client {d e : Dev} (h : e.client = d.client) : e.servo.lastSync = d.servo.lastSync :=
  congrArg (fun c => c.2.1) h

/-- A port's bookkeeping, whatever port the client is on. -/
theorem Dev.ptpPort_of_pair {d e : Dev} {active : Int} (h : e.ports = (d.servo.portA, d.servo.portB, active)) (port : Nat) :
    e.ptpPort port = d.ptpPort port := by
  have hA : e.servo.portA = d.servo.portA := congrArg (fun c => c.1) h
  have hB : e.servo.portB = d.servo.portB := congrArg (fun c => c.2.1) h
  unfold Dev.ptpPort
  rw [hA, hB]

theorem Dev.ptpPort_of_ports {d e : Dev} (h : e.ports = d.ports) (port : Nat) : e.ptpPort port = d.ptpPort port :=
  Dev.ptpPort_of_pair h port

theorem Dev.client_congr {d e : Dev} (hs : e.servo = d.servo) (hr : e.reg Ob.activePort = d.reg Ob.activePort) :
    e.client = d.client := by
  unfold Dev.client Dev.ports
  rw [hs, hr]

/-! Entering a servo state and steering keep the client. -/

theorem Dev.set_client (d : Dev) {k : Nat} (h : Ob.activePort ≠ k) (v : Int) : (d.set k v).client = d.client :=
  Dev.client_congr rfl (by rw [Dev.reg_set, if_neg h])

theorem Dev.event_client (d : Dev) (ev : Ev) : (d.event ev).client = d.client :=
  Dev.client_congr (d.event_parts ev).2.2.1 (d.event_reg ev (by decide))

theorem Dev.closeTrack_client (d : Dev) : d.closeTrack.client = d.client := by
  unfold Dev.closeTrack
  split <;> rfl

theorem Dev.ptpRefs_client (d : Dev) : d.ptpRefs.client = d.client :=
  Dev.client_congr d.ptpRefs_parts.2 (d.ptpRefs_reg (by decide))

theorem Dev.toServo_client (d : Dev) (st : Int) : (d.toServo st).client = d.client := by
  unfold Dev.toServo
  dsimp only
  rw [Dev.ptpRefs_client, Dev.set_client _ (by decide), Dev.set_client _ (by decide)]
  split
  · exact d.closeTrack_client
  · rfl

theorem Dev.holdRate_client (d : Dev) : d.holdRate.client = d.client := d.closeTrack_client

theorem Dev.refuseJump_client (d : Dev) (θ : Int) : (d.refuseJump θ).client = d.client := by
  unfold Dev.refuseJump
  dsimp only
  rw [Dev.toServo_client, Dev.holdRate_client, Dev.event_client]
  exact (Dev.set_client _ (by decide) _).trans (Dev.set_client _ (by decide) _)

theorem Dev.steerTheta_client (d : Dev) (θ : Int) : (d.steerTheta θ).client = d.client :=
  (d.closeTrack.set_client (by decide) _).trans d.closeTrack_client

theorem Dev.acceptOffset_client (d : Dev) (θ : Int) : (d.acceptOffset θ).client = d.client := by
  unfold Dev.acceptOffset
  dsimp only
  rw [Dev.event_client]
  exact (Dev.set_client _ (by decide) _).trans (Dev.set_client _ (by decide) _)

theorem Dev.followTheta_client (d : Dev) (θ : Int) : (d.followTheta θ).client = d.client := by
  refine Eq.trans ?_ (d.steerTheta_client θ)
  unfold Dev.followTheta
  dsimp only
  generalize d.steerTheta θ = e
  repeat' split
  · exact (Dev.event_client _ _).trans (e.toServo_client Sv.track)
  · rfl
  · rfl
  · rfl
  · exact Dev.toServo_client _ Sv.slew
  · rfl

theorem Dev.theta_client (d : Dev) (θ : Int) : (d.theta θ).client = d.client := by
  unfold Dev.theta
  repeat' split
  · exact (Dev.toServo_client _ _).trans (d.acceptOffset_client θ)
  · exact d.set_client (by decide) θ
  · exact d.refuseJump_client θ
  · exact (Dev.steerTheta_client _ _).trans (d.toServo_client _)
  · exact d.refuseJump_client θ
  · exact (Dev.steerTheta_client _ _).trans ((Dev.toServo_client _ _).trans (d.event_client _))
  · exact d.refuseJump_client θ
  · exact d.followTheta_client θ
  · rfl

/-! A change of master keeps the ports. -/

theorem Dev.setMaster_ports (d : Dev) (m : Master) : (d.setMaster m).ports = d.ports := by
  unfold Dev.setMaster
  dsimp only
  rw [Dev.ports_of_client (Dev.set_client _ (k := Ob.currentUtcOffset) (by decide) _),
    Dev.ports_of_client (Dev.set_client _ (k := Ob.grandmasterIdentity) (by decide) _)]
  rfl

theorem Dev.masterChange_ports (d : Dev) (m : Master) : (d.masterChange m).ports = d.ports := by
  have hnamed : ∀ ev, (((d.setMaster m).setN Ob.lastMasterChange d.now).event ev).ports = d.ports := fun ev =>
    (Dev.ports_of_client ((Dev.event_client _ ev).trans (Dev.set_client _ (by decide) _))).trans (d.setMaster_ports m)
  refine Eq.trans ?_ (hnamed { code := 0x1001, island := Isl.tmg, d1 := m.gm % 4294967296 })
  unfold Dev.masterChange
  dsimp only
  generalize ((d.setMaster m).setN Ob.lastMasterChange _).event _ = e
  repeat' split
  · rfl
  · rfl
  · exact Dev.ports_of_client (e.toServo_client Sv.slew)
  · rfl

theorem Dev.masterBack_ports (d : Dev) (m : Master) : (d.masterBack m).ports = d.ports := by
  refine Eq.trans ?_ (d.setMaster_ports m)
  unfold Dev.masterBack
  dsimp only
  split
  · rfl
  · exact Dev.ports_of_client ((Dev.toServo_client _ _).trans (Dev.event_client _ _))

/-- The loss of the master keeps the ports and the last Sync, leaves no master, and holds the servo (R40, R42). -/
theorem Dev.masterLost_client (d : Dev) : d.masterLost.client = (none, d.servo.lastSync, d.ports) := by
  have hnone : (d.onServo fun v => { v with master := none }).client = (none, d.servo.lastSync, d.ports) := rfl
  refine Eq.trans ?_ hnone
  unfold Dev.masterLost
  dsimp only
  generalize (d.onServo fun v => { v with master := none }) = e
  split
  · rw [Dev.event_client, Dev.toServo_client, Dev.holdRate_client]
    split
    · exact e.set_client (by decide) 0
    · rfl
  · rfl

theorem Dev.masterLost_ports (d : Dev) : d.masterLost.ports = d.ports := congrArg (fun c => c.2.2) d.masterLost_client

theorem Dev.masterLost_sv (d : Dev) (h : d.sv = Sv.slew ∨ d.sv = Sv.track ∨ d.sv = Sv.refused) : d.masterLost.sv = Sv.hold := by
  unfold Dev.masterLost
  dsimp only
  generalize he : d.onServo (fun v => { v with master := none }) = e
  have hsv : e.sv = d.sv := by
    rw [← he]
    rfl
  have hc : (decide (e.sv = Sv.slew) || decide (e.sv = Sv.track) || decide (e.sv = Sv.refused)) = true := by
    rw [hsv]
    simpa [or_assoc] using h
  rw [if_pos hc]
  exact (Dev.event_reg _ _ (by decide)).trans (Dev.toServo_sv _ _)

theorem Dev.selectMaster_ports (d : Dev) (m : Master) : (d.selectMaster m).ports = d.ports := by
  unfold Dev.selectMaster
  repeat' split
  · exact d.masterBack_ports m
  · exact d.setMaster_ports m
  · exact d.setMaster_ports m
  · exact d.masterChange_ports m

theorem Dev.movePort_ports (d : Dev) (port : Nat) : (d.movePort port).ports = (d.servo.portA, d.servo.portB, (port : Int)) := by
  have hmoved : (d.setN Ob.activePort port).ptpRefs.ports = (d.servo.portA, d.servo.portB, (port : Int)) := by
    rw [Dev.ports_of_client (Dev.ptpRefs_client _)]
    unfold Dev.ports
    rw [Dev.reg_setN, if_pos rfl]
    rfl
  unfold Dev.movePort
  dsimp only
  split
  · exact (Dev.selectMaster_ports _ _).trans hmoved
  · exact (Dev.masterLost_ports _).trans hmoved

/-! The client's commands. -/

theorem Dev.settle_servo (d0 d : Dev) : (d0.settle d).servo = d.servo := (d0.settle_finished d).servo

theorem Dev.settle_ports (d0 d : Dev) : (d0.settle d).ports = d.ports :=
  Dev.ports_of_client (Dev.client_congr (d0.settle_servo d) (Dev.settle_reg d0 d (by decide)))

@[simp] theorem Dev.ethSend_servo (d : Dev) (port : Nat) (kind : FrameKind) (fields : List Int) (payload : Bytes) :
    (d.ethSend port kind fields payload).servo = d.servo :=
  (Dev.ethSend_within (M := 512) (by exact rfl) (.refl d) port kind fields payload).servo rfl

theorem Dev.onPtpPort_lastSync (d : Dev) (port : Nat) (f : PtpPort → PtpPort) :
    (d.onPtpPort port f).servo.lastSync = d.servo.lastSync := by
  unfold Dev.onPtpPort
  show Servo.lastSync (if port = 0 then _ else _) = _
  split <;> rfl

theorem Dev.onPtpPort_self (d : Dev) (port : Nat) (f : PtpPort → PtpPort) :
    (d.onPtpPort port f).ptpPort port = f (d.ptpPort port) := by
  unfold Dev.onPtpPort Dev.ptpPort
  by_cases h : port = 0
  · rw [if_pos h, if_pos h]
    simp only [Dev.onServo, if_pos h]
  · rw [if_neg h, if_neg h]
    simp only [Dev.onServo, if_neg h]

theorem Dev.sendDelayReq_lastSync (d : Dev) (port : Nat) : (d.sendDelayReq port).servo.lastSync = d.servo.lastSync := by
  unfold Dev.sendDelayReq
  dsimp only
  rw [Dev.ethSend_servo, Dev.onPtpPort_lastSync]

theorem ptpSyncReceived_runs {s : State} {port : Fin 2} {source domain : Nat} {logInterval t1 : Int}
    (hc : s.dev.onClient port domain = true) (hm : s.dev.servo.master = some source) (hlo : -7 ≤ logInterval)
    (hhi : logInterval ≤ 1) : Runs (.ptpSyncReceived port source domain logInterval t1) s fun d =>
      d.servo.lastSync = some (t1, s.dev.netTime) := by
  refine Runs.of_onDev (show execPtpSyncReceived port source domain logInterval t1 s = onDev _ s from rfl) ?_
  have hours : ¬ (!(s.dev.onClient port domain && decide (s.dev.servo.master = some source))) = true := by
    rw [hc, decide_eq_true hm]
    decide
  have hin : ¬ (!decide (-7 ≤ logInterval ∧ logInterval ≤ 1)) = true := by
    rw [decide_eq_true ⟨hlo, hhi⟩]
    decide
  rw [if_neg hours, if_neg hin]
  dsimp only
  rw [Dev.settle_servo, Dev.sendDelayReq_lastSync, Dev.lastSync_of_client (Dev.theta_client _ _)]
  rfl

theorem ptpAnnounceReceived_runs {s : State} {port : Fin 2} {domain : Nat} {m : Master} (hs : s.dev.reg Ob.ptpSource ≠ 0)
    (hd : s.dev.nat Ob.ptpDomain = domain) (hlo : -3 ≤ m.logAnnounce) (hhi : m.logAnnounce ≤ 4)
    (hp : s.dev.reg Ob.ptpProfile = 2 → Config.clockIdentity ∉ m.path) :
    Runs (.ptpAnnounceReceived port domain m) s fun d =>
      (d.ptpPort port).goodSince = some ((s.dev.ptpPort port).goodSince.getD s.dev.ext) := by
  refine Runs.of_onDev (show execPtpAnnounceReceived port domain m s = onDev _ s from rfl) ?_
  have hvalid : ¬ (decide (s.dev.reg Ob.ptpSource = 0) || decide (s.dev.nat Ob.ptpDomain ≠ domain)
      || (s.dev.reg Ob.ptpProfile == 2 && m.path.contains Config.clockIdentity)) = true := by
    simpa [hs, hd] using hp
  have hin : ¬ (!decide (-3 ≤ m.logAnnounce ∧ m.logAnnounce ≤ 4)) = true := by
    rw [decide_eq_true ⟨hlo, hhi⟩]
    decide
  rw [if_neg hvalid, if_neg hin]
  rw [Dev.ptpPort_of_ports (Dev.settle_ports _ _)]
  generalize he : s.dev.onPtpPort port (fun p =>
    { p.learn { m with stamp := s.dev.ext } with goodSince := some (p.goodSince.getD s.dev.ext) }) = e
  have hgood : (e.ptpPort port).goodSince = some ((s.dev.ptpPort port).goodSince.getD s.dev.ext) := by
    rw [← he, Dev.onPtpPort_self]
  dsimp only
  split
  · split
    · rw [Dev.ptpPort_of_ports (Dev.selectMaster_ports _ _), hgood]
    · exact hgood
  · exact hgood

theorem announceTimeout_runs {s : State} {port : Fin 2} (hs : s.dev.reg Ob.ptpSource ≠ 0)
    (ha : ∀ m ∈ s.dev.awaited port, s.dev.silent m = true) :
    Runs (.announceTimeout port) s fun d => (d.ptpPort port).goodSince = none
      ∧ ∀ m ∈ (d.ptpPort port).masters, s.dev.silent m = false := by
  refine Runs.of_onDev (show execAnnounceTimeout port s = onDev _ s from rfl) ?_
  have hdue : ¬ (decide (s.dev.reg Ob.ptpSource = 0)
      || (match s.dev.awaited port with | some m => !s.dev.silent m | none => false)) = true := by
    cases hw : s.dev.awaited port with
    | none => simp [hs]
    | some m => simp [hs, ha m hw]
  rw [Dev.ptpPort_of_ports (Dev.settle_ports _ _)]
  erw [if_neg hdue]
  generalize he : s.dev.onPtpPort port (fun p => { p with
    goodSince := none, masters := p.masters.filter fun m => !s.dev.silent m }) = e
  have hleft : (e.ptpPort port).goodSince = none ∧ ∀ m ∈ (e.ptpPort port).masters, s.dev.silent m = false := by
    rw [← he, Dev.onPtpPort_self]
    exact ⟨rfl, fun m hm => by simpa using (List.mem_filter.1 hm).2⟩
  dsimp only
  split
  · exact hleft
  split
  · rw [show (e.movePort 2).ptpPort port = e.ptpPort port from Dev.ptpPort_of_pair (e.movePort_ports 2) port]
    exact hleft
  split
  · rw [Dev.ptpPort_of_ports ((Dev.selectMaster_ports _ _).trans e.masterLost_ports)]
    exact hleft
  · rw [Dev.ptpPort_of_ports e.masterLost_ports]
    exact hleft

theorem syncLoss_runs {s : State} (hm : s.dev.servo.master.isSome = true)
    (ht : s.dev.nat Ob.syncLossCount * logNs s.dev.servo.syncLog ≤ s.dev.ago s.dev.servo.syncAt) :
    Runs .syncLoss s fun d => d.servo.master = none
      ∧ (s.dev.sv = Sv.slew ∨ s.dev.sv = Sv.track ∨ s.dev.sv = Sv.refused → d.sv = Sv.hold) := by
  refine Runs.of_onDev (show execSyncLoss s = onDev _ s from rfl) ?_
  have hdue : ¬ (s.dev.servo.master.isNone
      || decide (s.dev.ago s.dev.servo.syncAt < s.dev.nat Ob.syncLossCount * logNs s.dev.servo.syncLog)) = true := by
    rw [Option.isNone_eq_false_iff.2 hm]
    simpa using ht
  rw [if_neg hdue, Dev.settle_servo]
  refine ⟨congrArg (fun c => c.1) s.dev.masterLost_client, fun h => ?_⟩
  exact (Dev.settle_reg _ _ (by decide)).trans (s.dev.masterLost_sv h)

theorem autoRevert_runs {s : State} {t : Nat} (hs : s.dev.reg Ob.ptpSource = 3) (hb : s.dev.reg Ob.activePort = 2)
    (hr : s.dev.reg Ob.autoRevertTime ≠ 0) (hg : s.dev.reg Ob.gmPort ≠ 1) (hu : s.dev.portUp 0 = true)
    (ha : s.dev.servo.portA.goodSince = some t) (ht : s.dev.nat Ob.autoRevertTime * 1000000000 ≤ s.dev.ago t) :
    Runs .autoRevert s fun d => d.reg Ob.activePort = 1 := by
  refine Runs.of_onDev (show execAutoRevert s = onDev _ s from rfl) ?_
  have hdue : (decide (s.dev.reg Ob.ptpSource = 3) && decide (s.dev.reg Ob.activePort = 2)
      && decide (s.dev.reg Ob.autoRevertTime ≠ 0) && decide (s.dev.reg Ob.gmPort ≠ 1) && s.dev.portUp 0
      && decide (s.dev.nat Ob.autoRevertTime * 1000000000 ≤ s.dev.ago t)) = true := by
    simp [hs, hb, hr, hg, hu, ht]
  dsimp only
  rw [ha]
  dsimp only
  rw [if_pos hdue, Dev.settle_reg _ _ (by decide)]
  exact congrArg (fun c => c.2.2) (s.dev.movePort_ports 1)

/-- The grandmaster sends on its port while that is up and requests are served (R47). -/
theorem gmSends {d : Dev} (hg : d.reg Ob.gmPort ≠ 0) (hu : d.portUp (d.nat Ob.gmPort - 1) = true) (hr : d.ready = true) :
    ¬ (decide (d.reg Ob.gmPort = 0) || !d.portUp (d.nat Ob.gmPort - 1) || !d.ready) = true := by
  rw [hu, hr, decide_eq_false hg]
  decide

theorem gmSyncTransmit_runs {s : State} (hg : s.dev.reg Ob.gmPort ≠ 0) (hu : s.dev.portUp (s.dev.nat Ob.gmPort - 1) = true)
    (hr : s.dev.ready = true) :
    Runs .gmSyncTransmit s fun d => d.servo.gmSyncSeq = (s.dev.servo.gmSyncSeq + 1) % 65536 := by
  refine Runs.of_onDev (show execGmSyncTransmit s = onDev _ s from rfl) ?_
  rw [if_neg (gmSends hg hu hr), Dev.settle_servo]
  rfl

theorem gmAnnounceTransmit_runs {s : State} (hg : s.dev.reg Ob.gmPort ≠ 0)
    (hu : s.dev.portUp (s.dev.nat Ob.gmPort - 1) = true) (hr : s.dev.ready = true) :
    Runs .gmAnnounceTransmit s fun d => d.servo.gmAnnounceSeq = (s.dev.servo.gmAnnounceSeq + 1) % 65536 := by
  refine Runs.of_onDev (show execGmAnnounceTransmit s = onDev _ s from rfl) ?_
  rw [if_neg (gmSends hg hu hr), Dev.settle_servo]
  rfl

theorem ptpDelayRespReceived_runs {s : State} {port : Fin 2} {domain seq : Nat} {turn : Int × Int} {t4 t3 t1 t2 : Int}
    (hc : s.dev.onClient port domain = true) (hlo : -7 ≤ turn.2) (hhi : turn.2 ≤ 4)
    (hn : (s.dev.ptpPort port).delayReqSeq = (seq + 1) % 65536) (h3 : (s.dev.ptpPort port).delayReqAt = some t3)
    (hl : s.dev.servo.lastSync = some (t1, t2)) (hp : s.dev.reg Ob.ptpProfile = 0) :
    Runs (.ptpDelayRespReceived port domain seq t4 turn) s fun d =>
      d.reg Ob.meanPathDelay = clampInt 0 4294967295 (((t2 - t1) + (t4 - t3)) / 2) := by
  refine Runs.of_onDev (show execPtpDelayRespReceived port domain seq t4 turn s = onDev _ s from rfl) ?_
  have hours : ¬ (!(s.dev.onClient port domain
      && decide ((s.dev.ptpPort port).delayReqSeq = (seq + 1) % 65536))) = true := by
    rw [hc, decide_eq_true hn]
    decide
  have hin : ¬ (!decide (-7 ≤ turn.2 ∧ turn.2 ≤ 4)) = true := by
    rw [decide_eq_true ⟨hlo, hhi⟩]
    decide
  dsimp only
  rw [if_neg hours, if_neg hin, h3]
  dsimp only
  rw [if_neg (not_not.2 hp), hl, Dev.settle_reg _ _ (by decide)]
  exact (Dev.reg_set _ _ _ _).trans (if_pos rfl)

/-- What is sent stays sent after what follows every command. -/
theorem Dev.driveSafe_out {d : Dev} {o : Output} (h : o ∈ d.out) (pin : Nat) (level : Bool) : o ∈ (d.driveSafe pin level).out := by
  unfold Dev.driveSafe Dev.drivePin
  repeat' split
  all_goals first | exact h | exact List.mem_cons_of_mem _ h

theorem Dev.settle_out {d0 d : Dev} {o : Output} (h : o ∈ d.out) : o ∈ (d0.settle d).out := by
  show o ∈ d.refreshSafe.out
  unfold Dev.refreshSafe
  dsimp only
  have hdriven : ∀ e : Dev, o ∈ e.out → ∀ a b, o ∈ ((e.driveSafe 0 a).driveSafe 1 b).out := fun e he a b =>
    Dev.driveSafe_out (Dev.driveSafe_out he 0 a) 1 b
  repeat' split
  all_goals first | exact hdriven d h _ _ | exact hdriven (d.onSafe _) h _ _

theorem ptpDelayReqReceived_runs {s : State} {port : Fin 2} {domain seq requester : Nat} {peer : Bool}
    (hg : s.dev.nat Ob.gmPort = (port : Nat) + 1) (hd : s.dev.nat Ob.gmDomain = domain) (hr : s.dev.ready = true)
    (hu : s.dev.portUp port = true) (hb : s.dev.synBusy (port + 5) = false) :
    Runs (.ptpDelayReqReceived port domain seq requester peer) s fun d =>
      .frame port (if peer then .ptpPdelayResp else .ptpDelayResp) (s.dev.addressed [domain, seq, requester, s.dev.netTime]) []
        false ∈ d.out := by
  refine Runs.of_onDev (show execPtpDelayReqReceived port domain seq requester peer s = onDev _ s from rfl) ?_
  have hours : (decide (s.dev.nat Ob.gmPort = (port : Nat) + 1) && decide (s.dev.nat Ob.gmDomain = domain)
      && s.dev.ready) = true := by
    rw [decide_eq_true hg, decide_eq_true hd, hr]
    decide
  rw [if_pos hours]
  refine Dev.settle_out ?_
  unfold Dev.ethSend Dev.ethOut
  rw [hu, if_neg (by decide), hb, if_neg (by decide)]
  exact List.mem_cons_self

/-- Settles O15: what each frame or instant does, where no change of master or of servo state disturbs what it states. -/
theorem ptpEventsRun : Obligations.PtpEventsRun :=
  ⟨fun _ _ _ _ _ _ hc hm hlo hhi => ptpSyncReceived_runs hc hm hlo hhi,
    fun _ _ _ _ hs hd hlo hhi hp => ptpAnnounceReceived_runs hs hd hlo hhi hp,
    fun _ _ hs ha => announceTimeout_runs hs ha, fun _ hm ht => syncLoss_runs hm ht,
    fun _ _ hs hb hr hg hu ha ht => autoRevert_runs hs hb hr hg hu ha ht,
    fun _ hg hu hr => ⟨gmSyncTransmit_runs hg hu hr, gmAnnounceTransmit_runs hg hu hr⟩,
    fun _ _ _ _ _ _ _ _ _ hc hlo hhi hn h3 hl hp => ptpDelayRespReceived_runs hc hlo hhi hn h3 hl hp,
    fun _ _ _ _ _ _ hg hd hr hu hb => ptpDelayReqReceived_runs hg hd hr hu hb⟩

end Sys2Proof.Machine
end

section
/-! Reads, block reads and NOTIFY: the session's last answer, the latches and the subscriptions (02_timeline R36, 03_timing_unit
R72, 04_dictionary R100-R105). -/
namespace Sys2Proof.Machine

/-! The sessions. -/

theorem Dev.session_congr {d e : Dev} (h : e.dict = d.dict) (sid : Nat) : e.session sid = d.session sid := by
  unfold Dev.session
  rw [h]

theorem Dev.session_id {d : Dev} {sid : Nat} {se : Session} (h : d.session sid = some se) : se.id = sid := by
  simpa using List.find?_some h

/-- A change of a session that keeps its ID changes what that ID finds. -/
theorem Dev.onSession_session (d : Dev) (sid : Nat) {f : Session → Session} (hf : ∀ s, (f s).id = s.id) :
    (d.onSession sid f).session sid = (d.session sid).map f := by
  have hid : ((fun s : Session => s.id == sid) ∘ fun s => if s.id = sid then f s else s) = fun s : Session => s.id == sid := by
    funext s
    by_cases h : s.id = sid
    · simp [h, hf]
    · simp [h]
  show (d.dict.sessions.map _).find? _ = _
  rw [List.find?_map, hid]
  cases h : d.dict.sessions.find? (fun s => s.id == sid) with
  | none => simp [Dev.session, h]
  | some s =>
    have hs : s.id = sid := by simpa using List.find?_some h
    simp [Dev.session, h, hs]

theorem Dev.event_dict (d : Dev) (ev : Ev) : (d.event ev).dict = d.dict :=
  (Dev.event_within (M := 0) (by exact rfl) (.refl d) ev).dict rfl

/-- A session that ends is found no more. -/
theorem Dev.endSession_session (d : Dev) (sid : Nat) (cause : EndCause) : (d.endSession sid cause).session sid = none := by
  unfold Dev.endSession
  split
  · assumption
  · dsimp only
    rw [Dev.session_congr (Dev.event_dict _ _), Dev.session_congr (Dev.each_keeps (g := Dev.dict) (fun d _ => d.event_dict _) _ _)]
    show (d.dict.sessions.filter _).find? _ = none
    rw [List.find?_eq_none]
    intro s hs
    simpa using (List.mem_filter.1 hs).2

/-- The session is found after only if before, and then with the same last answer. -/
def Dev.KeepsAnswer (d d' : Dev) (sid : Nat) : Prop :=
  (d'.session sid).isSome = true → (d.session sid).isSome = true ∧ d'.lastAnswer sid = d.lastAnswer sid

theorem Dev.KeepsAnswer.refl (d : Dev) (sid : Nat) : d.KeepsAnswer d sid := fun h => ⟨h, rfl⟩

theorem Dev.KeepsAnswer.trans {a d e : Dev} {sid : Nat} (h : a.KeepsAnswer d sid) (k : d.KeepsAnswer e sid) :
    a.KeepsAnswer e sid := fun hs => by
  obtain ⟨hd, he⟩ := k hs
  obtain ⟨ha, hda⟩ := h hd
  exact ⟨ha, he.trans hda⟩

theorem Dev.KeepsAnswer.of_ended {d e : Dev} {sid : Nat} (h : e.session sid = none) : d.KeepsAnswer e sid := fun hs => by
  rw [h] at hs
  cases hs

theorem Dev.post_dict (d : Dev) (c : Carrier) (port : Nat) (o : Output) : (d.post c port o).dict = d.dict :=
  (Dev.post_within (M := 4194816) (by exact rfl) (.refl d) c port o).dict rfl

/-- An answer that goes out keeps the last answer of its session, unless it ends it. -/
theorem Dev.sessionAnswer_keepsAnswer (d : Dev) (se : Session) (tag op seg : Nat) (more : Bool) (a : Ans) :
    d.KeepsAnswer (d.sessionAnswer se tag op seg more a) se.id := by
  unfold Dev.sessionAnswer
  split
  · exact .refl d se.id
  · next now hnow =>
    dsimp only
    split
    · exact .of_ended (Dev.endSession_session _ _ _)
    · intro _
      refine ⟨by rw [hnow]; rfl, ?_⟩
      unfold Dev.lastAnswer
      rw [Dev.session_congr (Dev.post_dict _ _ _ _), Dev.onSession_session, hnow]
      · rfl
      · exact fun _ => rfl

theorem Dev.sendSegments_keepsAnswer (se : Session) (tag op : Nat) (a : Ans) (l : List Bytes) (i : Nat) (d : Dev) :
    d.KeepsAnswer (d.sendSegments se tag op a i l) se.id := by
  induction l generalizing i d with
  | nil => exact .refl d se.id
  | cons b l ih => exact (d.sessionAnswer_keepsAnswer se tag op i _ _).trans (ih (i + 1) _)

theorem Dev.answerAll_keepsAnswer (d : Dev) (se : Session) (tag op : Nat) (a : Ans) :
    d.KeepsAnswer (d.answerAll se tag op a) se.id := by
  unfold Dev.answerAll
  split
  · exact Dev.sendSegments_keepsAnswer se tag op a _ 0 d
  · exact d.sessionAnswer_keepsAnswer se tag op 0 false a

/-- A completed request's answer is its session's last, unless the device asks for a retry (R101). -/
theorem Dev.complete_lastAnswer {d : Dev} {sid tag op : Nat} {payload : Bytes} {seq : Nat} {a : Ans} (hb : a.status ≠ Sc.busy)
    (ha : a.status ≠ Sc.absent) (h : ((d.complete sid tag op payload seq a).session sid).isSome = true) :
    (d.complete sid tag op payload seq a).lastAnswer sid = some a := by
  unfold Dev.complete at h ⊢
  cases hs : d.session sid with
  | none =>
    rw [hs] at h
    dsimp only at h
    rw [hs] at h
    cases h
  | some se =>
    rw [hs] at h
    have hid : se.id = sid := Dev.session_id hs
    subst hid
    dsimp only at h ⊢
    obtain ⟨-, hlast⟩ := Dev.answerAll_keepsAnswer _ se tag op a h
    have habsent : (a.status == Sc.absent) = false := beq_eq_false_iff_ne.2 ha
    rw [hlast, habsent]
    unfold Dev.lastAnswer
    rw [Dev.onSession_session]
    · show Option.bind ((d.session se.id).map _) _ = _
      rw [hs]
      simp [hb]
    · exact fun _ => rfl

/-! The latches. -/

/-- What the reads of TimelineNow and of PhaseError latched. -/
def Dev.readLatches (d : Dev) : Assoc (Nat × Nat) × Assoc (Nat × Nat) := (d.latches, d.phaseLatches)

theorem LogOnly.readLatches {d d' : Dev} (h : LogOnly d d') : d'.readLatches = d.readLatches := by
  rw [← h.eq]
  rfl

theorem Dev.event_readLatches (d : Dev) (ev : Ev) : (d.event ev).readLatches = d.readLatches :=
  (Dev.event_logOnly (.refl d) ev).readLatches

theorem Dev.ethOut_readLatches (d : Dev) (port : Nat) (o : Output) : (d.ethOut port o).readLatches = d.readLatches := by
  unfold Dev.ethOut
  repeat' split
  · rfl
  · exact Dev.event_readLatches _ _
  · rfl

theorem Dev.post_readLatches (d : Dev) (c : Carrier) (port : Nat) (o : Output) :
    (d.post c port o).readLatches = d.readLatches := by
  unfold Dev.post
  split
  · exact d.ethOut_readLatches port o
  · dsimp only
    split <;> rfl
  · rfl

theorem Dev.endSession_readLatches (d : Dev) (sid : Nat) (cause : EndCause) :
    (d.endSession sid cause).readLatches = d.readLatches := by
  unfold Dev.endSession
  split
  · rfl
  · dsimp only
    rw [Dev.event_readLatches]
    exact Dev.each_keeps (g := Dev.readLatches) (fun d _ => d.event_readLatches _) _ _

theorem Dev.sessionAnswer_readLatches (d : Dev) (se : Session) (tag op seg : Nat) (more : Bool) (a : Ans) :
    (d.sessionAnswer se tag op seg more a).readLatches = d.readLatches := by
  unfold Dev.sessionAnswer
  split
  · rfl
  · dsimp only
    split
    · exact (Dev.endSession_readLatches _ _ _).trans (Dev.post_readLatches _ _ _ _)
    · exact Dev.post_readLatches _ _ _ _

theorem Dev.sendSegments_readLatches (se : Session) (tag op : Nat) (a : Ans) (l : List Bytes) (i : Nat) (d : Dev) :
    (d.sendSegments se tag op a i l).readLatches = d.readLatches := by
  induction l generalizing i d with
  | nil => rfl
  | cons b l ih => exact (ih (i + 1) _).trans (d.sessionAnswer_readLatches se tag op i _ _)

theorem Dev.complete_readLatches (d : Dev) (sid tag op : Nat) (payload : Bytes) (seq : Nat) (a : Ans) :
    (d.complete sid tag op payload seq a).readLatches = d.readLatches := by
  have habsent : ∀ b, (d.when b fun d => d.absentReply a.detail).readLatches = d.readLatches := fun b => by
    unfold Dev.when Dev.absentReply
    repeat' split
    all_goals rfl
  unfold Dev.complete
  split
  · rfl
  · dsimp only
    refine Eq.trans ?_ (habsent (a.status == Sc.absent))
    unfold Dev.answerAll
    split
    · exact Dev.sendSegments_readLatches _ _ _ _ _ _ _
    · exact Dev.sessionAnswer_readLatches _ _ _ _ _ _ _

theorem Dev.settle_readLatches (d0 d : Dev) : (d0.settle d).readLatches = d.readLatches := by
  simp [Dev.readLatches, Dev.settle]

/-! The commands that read. -/

theorem Dev.settle_dict (d0 d : Dev) : (d0.settle d).dict = d.dict :=
  (Dev.settle_within (M := 0) rfl (.refl d) d0).dict rfl

theorem Dev.settle_lastAnswer (d0 d : Dev) (sid : Nat) : (d0.settle d).lastAnswer sid = d.lastAnswer sid := by
  unfold Dev.lastAnswer
  rw [Dev.session_congr (Dev.settle_dict d0 d)]

/-- A read that passes its checks latches and answers: BLOCK_SIZE where the value is too long, else the value (R100). -/
theorem Dev.readReq_pass {d e : Dev} {hd : Hdr} {idx sub : Nat} {latch : Session → Dev → Dev} {se : Session} {r : ObjRow}
    (h : d.readGate hd Op.read (readPayload idx sub) idx sub = .pass e se r) :
    ∃ a, d.readReq hd idx sub latch = (latch se e).complete se.id hd.tag Op.read (readPayload idx sub) hd.seq a
      ∧ (readTooLong se.carrier r (e.valueBytes se.id r idx sub) = false →
        a = { status := Sc.ok, ver := e.ver (idx * 256 + sub), data := readData r (e.valueBytes se.id r idx sub) }) := by
  unfold Dev.readReq
  dsimp only
  rw [h]
  dsimp only
  cases hl : readTooLong se.carrier r (e.valueBytes se.id r idx sub) with
  | true => exact ⟨_, if_pos rfl, fun h => by cases h⟩
  | false => exact ⟨_, if_neg (by decide), fun _ => rfl⟩

/-- What a completed request left latched, after what follows every command. -/
theorem Dev.settle_complete_readLatches (d0 d : Dev) (sid tag op : Nat) (payload : Bytes) (seq : Nat) (a : Ans) :
    (d0.settle (d.complete sid tag op payload seq a)).readLatches = d.readLatches :=
  (Dev.settle_readLatches _ _).trans (d.complete_readLatches sid tag op payload seq a)

theorem timelineNowRead_runs : ReadRuns (fun hd => .timelineNowRead hd) Op.read (readPayload 0x2000 1) 0x2000 1
    fun e se _ d' => kvGet d'.latches se.id = some (e.tl.frac, e.tl.era) := by
  intro s hd e se r hg
  refine Runs.of_onDev (show execTimelineNowRead hd s = onDev _ s from rfl) ?_
  obtain ⟨a, ha, -⟩ := Dev.readReq_pass (latch := Dev.latchNow) hg
  rw [ha]
  have hl : (s.dev.settle _).latches = (Dev.latchNow se e).latches :=
    congrArg (fun l => l.1) (Dev.settle_complete_readLatches s.dev (Dev.latchNow se e) se.id hd.tag Op.read
      (readPayload 0x2000 1) hd.seq a)
  rw [hl]
  exact (kvGet_kvPut _ _ _ _).trans (if_pos rfl)

theorem phaseErrorRead_runs : ReadRuns (fun hd => .phaseErrorRead hd) Op.read (readPayload 0x2120 4) 0x2120 4
    fun e se _ d' => kvGet d'.phaseLatches se.id = some (e.nat Ob.phaseStamp, e.nat Ob.phaseSeq) := by
  intro s hd e se r hg
  refine Runs.of_onDev (show execPhaseErrorRead hd s = onDev _ s from rfl) ?_
  obtain ⟨a, ha, -⟩ := Dev.readReq_pass (latch := Dev.latchPhase) hg
  rw [ha]
  have hl : (s.dev.settle _).phaseLatches = (Dev.latchPhase se e).phaseLatches :=
    congrArg (fun l => l.2) (Dev.settle_complete_readLatches s.dev (Dev.latchPhase se e) se.id hd.tag Op.read
      (readPayload 0x2120 4) hd.seq a)
  rw [hl]
  exact (kvGet_kvPut _ _ _ _).trans (if_pos rfl)

/-- A read's answer is its session's last, also after what follows every command. -/
theorem Dev.settle_complete_lastAnswer {d0 d : Dev} {sid tag op : Nat} {payload : Bytes} {seq : Nat} {a : Ans}
    (hst : a.status = Sc.ok ∨ a.status = Sc.blockSize)
    (h : ((d0.settle (d.complete sid tag op payload seq a)).session sid).isSome = true) :
    (d0.settle (d.complete sid tag op payload seq a)).lastAnswer sid = some a := by
  rw [Dev.session_congr (Dev.settle_dict _ _)] at h
  rw [Dev.settle_lastAnswer]
  have hkept : a.status ≠ Sc.busy ∧ a.status ≠ Sc.absent := by
    rcases hst with hst | hst <;> rw [hst] <;> decide
  exact Dev.complete_lastAnswer hkept.1 hkept.2 h

theorem read_runs (idx sub : Nat) : ReadRuns (fun hd => .read hd idx sub) Op.read (readPayload idx sub) idx sub fun e se r d' =>
    readTooLong se.carrier r (e.valueBytes se.id r idx sub) = false → (d'.session se.id).isSome = true →
      d'.lastAnswer se.id = some { status := Sc.ok, ver := e.ver (idx * 256 + sub),
                                   data := readData r (e.valueBytes se.id r idx sub) } := by
  intro s hd e se r hg
  refine Runs.of_onDev (show execRead hd idx sub s = onDev _ s from rfl) fun hl hs => ?_
  obtain ⟨a, ha, hok⟩ := Dev.readReq_pass (latch := Dev.latchRead idx sub) hg
  rw [ha] at hs ⊢
  rw [hok hl] at hs ⊢
  exact Dev.settle_complete_lastAnswer (.inl rfl) hs

theorem readBlock_runs (idx sub offset length : Nat) : ReadRuns (fun hd => .readBlock hd idx sub offset length) Op.readBlock
    (readBlockPayload idx sub offset length) idx sub fun e se r d' => (d'.session se.id).isSome = true →
    (65536 < length → d'.lastAnswer se.id = some { status := Sc.blockSize, ver := e.ver (idx * 256 + sub), detail := 65536 })
    ∧ (length ≤ 65536 → offset ≤ (e.valueBytes se.id r idx sub).length →
      d'.lastAnswer se.id = some { status := Sc.ok, ver := e.ver (idx * 256 + sub),
                                   data := ((e.valueBytes se.id r idx sub).drop offset).take length }) := by
  intro s hd e se r hg
  refine Runs.of_onDev (show execReadBlock hd idx sub offset length s = onDev _ s from rfl) ?_
  dsimp only
  rw [hg]
  dsimp only
  by_cases hlen : 65536 < length
  · rw [if_pos hlen]
    exact fun hs => ⟨fun _ => Dev.settle_complete_lastAnswer (.inr rfl) hs, fun h => absurd hlen (Nat.not_lt.2 h)⟩
  · rw [if_neg hlen]
    refine fun hs => ⟨fun h => absurd h hlen, fun _ hoff => ?_⟩
    rw [if_neg (Nat.not_lt.2 hoff)] at hs ⊢
    exact Dev.settle_complete_lastAnswer (.inl rfl) hs

/-! NOTIFY. -/

theorem Subscr.handle_of_find {l : List Subscr} {handle : Nat} {x : Subscr} (h : l.find? (fun y => y.handle == handle) = some x) :
    x.handle = handle := by simpa using List.find?_some h

/-- Changes merged into a subscription go to the one of its handle. -/
theorem execNotify_merges {s : State} {sid handle changes changedAt : Nat} {se : Session} {x : Subscr}
    (hs : s.dev.session sid = some se) (hx : (se.subs.find? fun y => y.handle == handle) = some x)
    (hi : s.dev.intervalOver x = false) :
    Runs (.notify sid handle changes changedAt) s fun d => ∀ t, d.session sid = some t → t.devSeq = se.devSeq
      ∧ ∀ y ∈ t.subs, y.handle = handle → y.changes = (s.dev.changesOf se x changes changedAt).1 := by
  refine Runs.of_onDev (show execNotify sid handle changes changedAt s = onDev _ s from rfl) fun t ht => ?_
  rw [hs] at ht
  dsimp only at ht
  rw [hx] at ht
  dsimp only at ht
  rw [hi, Bool.not_false, Bool.or_true, Bool.true_or, if_pos rfl, Dev.session_congr (Dev.settle_dict _ _),
    Dev.onSession_session] at ht
  · have hsession : ∀ b, ({ s.dev with books := b } : Dev).session sid = some se := fun _ => hs
    rw [hsession] at ht
    obtain rfl := Option.some.inj ht
    refine ⟨rfl, fun y hy hh => ?_⟩
    obtain ⟨z, -, rfl⟩ := List.mem_map.1 hy
    by_cases hz : z.handle = handle
    · rw [if_pos hz]
    · rw [if_neg hz] at hh
      exact absurd hh hz
  · exact fun _ => rfl

/-- A notification that goes out takes the next device sequence and all changes of its subscription. -/
theorem Dev.sendNotify_session {d : Dev} {se t : Session} {x : Subscr} {coalesced changedAt : Nat}
    (hs : d.session se.id = some se) (ht : (d.sendNotify se x coalesced changedAt).session se.id = some t) :
    t.devSeq = se.devSeq + 1 ∧ ∀ y ∈ t.subs, y.handle = x.handle → y.changes = 0 ∧ y.sentAt = some d.ext := by
  unfold Dev.sendNotify at ht
  dsimp only at ht
  split at ht
  · rw [Dev.endSession_session] at ht
    cases ht
  · rw [Dev.session_congr (Dev.post_dict _ _ _ _), Dev.onSession_session] at ht
    · have hsession : ∀ b, ({ d with books := b } : Dev).session se.id = some se := fun _ => hs
      rw [hsession] at ht
      obtain rfl := Option.some.inj ht
      refine ⟨rfl, fun y hy hh => ?_⟩
      obtain ⟨z, -, rfl⟩ := List.mem_map.1 hy
      by_cases hz : z.handle = x.handle
      · rw [if_pos hz]
        exact ⟨rfl, rfl⟩
      · rw [if_neg hz] at hh
        exact absurd hh hz
    · exact fun _ => rfl

theorem execNotify_sends {s : State} {sid handle changes changedAt : Nat} {se : Session} {x : Subscr}
    (hs : s.dev.session sid = some se) (hx : (se.subs.find? fun y => y.handle == handle) = some x)
    (hi : s.dev.intervalOver x = true) (hq : s.dev.quiesced Isl.ctl = false)
    (hn : 0 < (s.dev.changesOf se x changes changedAt).1) :
    Runs (.notify sid handle changes changedAt) s fun d => ∀ t, d.session sid = some t → t.devSeq = se.devSeq + 1
      ∧ ∀ y ∈ t.subs, y.handle = handle → y.changes = 0 ∧ y.sentAt = some s.dev.ext := by
  refine Runs.of_onDev (show execNotify sid handle changes changedAt s = onDev _ s from rfl) fun t ht => ?_
  have hgo : ¬ (s.dev.quiesced Isl.ctl || !s.dev.intervalOver x
      || (x.mode == 1 && (s.dev.changesOf se x changes changedAt).1 == 0)) = true := by
    rw [hq, hi, beq_eq_false_iff_ne.2 hn.ne']
    simp
  rw [hs] at ht
  dsimp only at ht
  rw [hx] at ht
  dsimp only at ht
  rw [if_neg hgo, Dev.session_congr (Dev.settle_dict _ _)] at ht
  obtain rfl := Dev.session_id hs
  obtain rfl := Subscr.handle_of_find hx
  exact Dev.sendNotify_session (d := s.dev.bumpBy Ob.notifyCoalesced ((s.dev.changesOf se x changes changedAt).1 - 1)) hs ht

/-- Settles O22: the latches and the last answer survive the answer's way out, and a notification its subscription's changes. -/
theorem readCommandsRun : Obligations.ReadCommandsRun := by
  refine ⟨timelineNowRead_runs, phaseErrorRead_runs, read_runs, readBlock_runs,
    fun s sid handle changes changedAt se x hs hx => ?_⟩
  cases hi : s.dev.intervalOver x with
  | false =>
    obtain ⟨t, hrun, hpending, h⟩ := execNotify_merges (changes := changes) (changedAt := changedAt) hs hx hi
    exact ⟨t, hrun, hpending, fun _ => h, fun h => by cases h⟩
  | true =>
    by_cases hgo : s.dev.quiesced Isl.ctl = false ∧ 0 < (s.dev.changesOf se x changes changedAt).1
    · obtain ⟨hq, hn⟩ := hgo
      obtain ⟨t, hrun, hpending, h⟩ := execNotify_sends hs hx hi hq hn
      exact ⟨t, hrun, hpending, fun h => (by cases h), fun _ _ _ => h⟩
    · exact Runs.of_onDev (show execNotify sid handle changes changedAt s = onDev _ s from rfl)
        ⟨fun h => (by cases h), fun _ hq hn => absurd ⟨hq, hn⟩ hgo⟩

end Sys2Proof.Machine
end

section
/-! Why the lock of an audio synthesiser does not always read 2 (03_timing_unit Table 6, R80-R83): the lock of SYN-AUD0 or
SYN-AUD1 also brings the domains and the synthesisers in line (08_audio R248), and that step turns off a synthesiser which a
domain no longer uses. -/
namespace Sys2Proof.Machine

/-- A device whose SYN-AUD0 settles (SynthState 1) for the 44.1 kHz family, while no domain is clocked from it. -/
def unusedSynth : Dev :=
  { (({} : Dev).set (Ob.synthState 1) 1) with aud := { fam := [(1, 44)] } }

/-- The device after SYN-AUD0 has locked. -/
def unusedSynthLocked : Dev :=
  unusedSynth.settle ((unusedSynth.set (Ob.synthState 1) 2).releaseHeld 2).refreshDomains

theorem unusedSynth_synthLock :
    exec (.synthLock 1) { pending := [], dev := unusedSynth } = .next { pending := [], dev := unusedSynthLocked } := rfl

/-- The synthesiser reads OFF, not LOCKED. -/
theorem unusedSynthLocked_off : unusedSynthLocked.reg (Ob.synthState 1) = 0 := by decide +kernel

/-- Refutes O18: the lock of a synthesiser that no domain uses any more leaves its SynthState at 0. -/
theorem not_clockCommandsRun : ¬ Obligations.ClockCommandsRun := by
  rintro ⟨-, -, -, hlock, -⟩
  obtain ⟨t, ht, -, hlocked, -⟩ := hlock { pending := [], dev := unusedSynth } 1 (.inl (by decide))
  obtain rfl := Host.Outcome.next.inj (unusedSynth_synthLock.symm.trans ht)
  exact absurd (unusedSynthLocked_off.symm.trans hlocked) (by decide)

end Sys2Proof.Machine
end

section
/-! The registers that the references and their selector write, entry by entry (03_timing_unit R59, R65-R71). -/
namespace Sys2Proof.Machine

/-- A register that entering a state of the selector may write, bookkeeping included. -/
abbrev SelectorKey (k : Nat) : Prop :=
  BookKey k ∨ k ∈ [Ob.rootFreqOffset, Ob.selectorState, Ob.selectedRef, Ob.lastSwitchStamp, Ob.holdoverValue]

@[simp] theorem Dev.closeLocked_reg (d : Dev) (k : Nat) : d.closeLocked.reg k = d.reg k := by
  unfold Dev.closeLocked
  split <;> rfl

theorem Dev.steer_reg (d : Dev) (v : Int) (k : Nat) :
    (d.steer v).reg k = if k = Ob.rootFreqOffset then d.corrNow else d.reg k :=
  d.reg_set _ _ _

/-- The stamp of the last switch, where the selected code differs from the one before (R71). -/
theorem Dev.toSelector_reg (d : Dev) (st : Int) (code : Nat) {k : Nat} (hk : ¬ BookKey k) :
    (d.toSelector st code).reg k =
      if d.nat Ob.selectedRef ≠ code ∧ k = Ob.lastSwitchStamp then (d.now : Int)
      else if k = Ob.selectedRef then (code : Int) else if k = Ob.selectorState then st else d.reg k := by
  have hnow : ∀ x y u, (((d.closeLocked.set Ob.selectorState x).setN Ob.selectedRef y).onTu u).now = d.now := fun _ _ _ => by
    unfold Dev.closeLocked
    split <;> rfl
  have hset : ∀ u, (((d.closeLocked.set Ob.selectorState st).setN Ob.selectedRef code).onTu u).reg k
      = if k = Ob.selectedRef then (code : Int) else if k = Ob.selectorState then st else d.reg k := fun u => by
    show ((d.closeLocked.set Ob.selectorState st).setN Ob.selectedRef code).reg k = _
    rw [Dev.reg_setN, Dev.reg_set, Dev.closeLocked_reg]
  unfold Dev.toSelector Dev.when
  dsimp only
  rw [Dev.event_reg _ _ hk]
  by_cases hsame : d.nat Ob.selectedRef = code
  · have hno : ¬ (d.nat Ob.selectedRef ≠ code ∧ k = Ob.lastSwitchStamp) := fun h => h.1 hsame
    rw [if_neg (show ¬ decide (d.nat Ob.selectedRef ≠ code) = true by simpa using hsame), if_neg hno]
    exact hset _
  · rw [if_pos (show decide (d.nat Ob.selectedRef ≠ code) = true from decide_eq_true hsame), Dev.reg_setN, hnow, hset]
    exact if_congr ⟨fun h => ⟨hsame, h⟩, fun h => h.2⟩ rfl rfl

theorem Dev.toSelector_other (d : Dev) (st : Int) (code : Nat) {k : Nat} (hk : ¬ SelectorKey k) :
    (d.toSelector st code).reg k = d.reg k := by
  obtain ⟨hbook, hlist⟩ := not_or.1 hk
  simp only [List.mem_cons, not_or] at hlist
  obtain ⟨-, hstate, hsel, hswitch, -⟩ := hlist
  rw [d.toSelector_reg st code hbook, if_neg fun h => hswitch h.2, if_neg hsel, if_neg hstate]

theorem Dev.toSelector_state (d : Dev) (st : Int) (code : Nat) :
    (d.toSelector st code).reg Ob.selectorState = st ∧ (d.toSelector st code).reg Ob.selectedRef = (code : Int) := by
  rw [d.toSelector_reg _ _ (by decide), d.toSelector_reg _ _ (by decide)]
  refine ⟨?_, ?_⟩
  · rw [if_neg fun h => absurd h.2 (by decide), if_neg (by decide), if_pos rfl]
  · rw [if_neg fun h => absurd h.2 (by decide), if_pos rfl]

theorem Dev.steer_other (d : Dev) (v : Int) {k : Nat} (hk : ¬ SelectorKey k) : (d.steer v).reg k = d.reg k := by
  have hoffset : k ≠ Ob.rootFreqOffset := fun h => hk (.inr (by rw [h]; decide))
  rw [Dev.steer_reg, if_neg hoffset]

theorem Dev.acquire_other (d : Dev) (code : Nat) {k : Nat} (hk : ¬ SelectorKey k) : (d.acquire code).reg k = d.reg k :=
  (Dev.toSelector_other _ _ _ hk).trans (d.steer_other _ hk)

theorem Dev.toFreerun_other (d : Dev) {k : Nat} (hk : ¬ SelectorKey k) : d.toFreerun.reg k = d.reg k :=
  (Dev.toSelector_other _ _ _ hk).trans (d.steer_other _ hk)

theorem Dev.toHoldover_other (d : Dev) {k : Nat} (hk : ¬ SelectorKey k) : d.toHoldover.reg k = d.reg k := by
  have hvalue : k ≠ Ob.holdoverValue := fun h => hk (.inr (by rw [h]; decide))
  unfold Dev.toHoldover
  dsimp only
  rw [Dev.event_reg _ _ fun h => hk (.inl h), Dev.toSelector_other _ _ _ hk, Dev.steer_other _ _ hk, Dev.reg_set, if_neg hvalue]

/-- Evaluating the selection again writes the selector's own registers alone. -/
theorem Dev.reselect_other (d : Dev) {k : Nat} (hk : ¬ SelectorKey k) : d.reselect.reg k = d.reg k := by
  unfold Dev.reselect
  dsimp only
  repeat' split
  all_goals with_reducible first | rfl | exact d.acquire_other _ hk | exact d.toFreerun_other hk | exact d.toHoldover_other hk

theorem Dev.toRef_reg (d : Dev) (code : Nat) (st : Int) {k : Nat} (hk : ¬ BookKey k) :
    (d.toRef code st).reg k = if k = Ob.refState code then st else d.reg k := by
  unfold Dev.toRef
  dsimp only
  rw [Dev.event_reg _ _ hk, ← Dev.reg_set]
  unfold Dev.when
  split <;> rfl

end Sys2Proof.Machine
end

section
/-! The references: each change of state of 03_timing_unit Table 3 (R65). -/
namespace Sys2Proof.Machine

/-- The objects of a reference are neither the selector's nor bookkeeping nor SafeOutputState, and they differ. -/
theorem refState_not_selector (code : Fin 6) :
    ¬ SelectorKey (Ob.refState code) ∧ Ob.refState code ≠ Ob.safeOutputState := by
  revert code
  decide

theorem refEnable_not_selector (code : Fin 6) :
    ¬ SelectorKey (Ob.refEnable code) ∧ Ob.refEnable code ≠ Ob.safeOutputState := by
  revert code
  decide

theorem refEnable_own (code : Fin 6) : perSession (Ob.refEnable code) = false ∧ Ob.refEnable code / 256 ≠ 0x5002 := by
  revert code
  decide

theorem refMeasuredOffset_not_book (code : Fin 6) :
    ¬ BookKey (Ob.refMeasuredOffset code) ∧ Ob.refMeasuredOffset code ≠ Ob.safeOutputState := by
  revert code
  decide

theorem Dev.toRef_state (d : Dev) (code : Fin 6) (st : Int) : (d.toRef code st).reg (Ob.refState code) = st := by
  obtain ⟨hsel, -⟩ := refState_not_selector code
  rw [d.toRef_reg code st fun h => hsel (.inl h), if_pos rfl]

theorem Dev.toRef_reselect_state (d : Dev) (code : Fin 6) (st : Int) :
    (d.toRef code st).reselect.reg (Ob.refState code) = st :=
  (Dev.reselect_other _ (refState_not_selector code).1).trans (d.toRef_state code st)

/-- Enable writes, of the references' objects, the state of its own reference. -/
theorem Dev.refEnabled_other (d : Dev) (code : Nat) (on : Bool) {k : Nat} (hk : ¬ SelectorKey k) (hs : k ≠ Ob.refState code) :
    (d.refEnabled code on).reg k = d.reg k := by
  have hto : ∀ st, (d.toRef code st).reg k = d.reg k := fun st => by
    rw [d.toRef_reg code st fun h => hk (.inl h), if_neg hs]
  unfold Dev.refEnabled
  split
  · rfl
  split
  · rw [Dev.reselect_other _ hk]
    split
    · rfl
    · exact hto _
  split
  · rw [Dev.reselect_other _ hk, hto]
  · rfl

/-- The state after Enable takes effect, of a reference other than XTAL. -/
theorem Dev.refEnabled_state (d : Dev) (code : Fin 6) (on : Bool) (h : (code : Nat) ≠ 0) :
    (d.refEnabled code on).reg (Ob.refState code) =
      if on then (if d.reg (Ob.refState code) = 0 then 1 else d.reg (Ob.refState code)) else 0 := by
  unfold Dev.refEnabled
  rw [if_neg h]
  cases on with
  | false =>
    rw [if_pos (show (!false) = true by decide), if_neg (show ¬ false = true by decide),
      Dev.reselect_other _ (refState_not_selector code).1]
    split
    · assumption
    · exact d.toRef_state code 0
  | true =>
    rw [if_neg (show ¬ (!true) = true by decide), if_pos rfl]
    split
    · exact d.toRef_reselect_state code 1
    · rfl

theorem refEnableWrite_runs (code : Fin 6) (v : Bytes) :
    SetRuns (fun hd cond => .refEnableWrite hd cond code v) {} (0x2112 + code) 1 v fun d _ n d' =>
      d'.reg (Ob.refEnable code) = n
        ∧ ((code : Nat) ≠ 0 → n = 0 → d'.reg (Ob.refState code) = 0)
        ∧ ((code : Nat) ≠ 0 → n ≠ 0 → d.reg (Ob.refState code) = 0 → d'.reg (Ob.refState code) = 1)
        ∧ ((code : Nat) ≠ 0 → n ≠ 0 → d.reg (Ob.refState code) ≠ 0 → d'.reg (Ob.refState code) = d.reg (Ob.refState code)) := by
  refine SetRuns.of_store (fun hd cond s => show execRefEnableWrite hd cond code v s = _ from rfl) fun d e se n d' he hf => ?_
  have hkey : (0x2112 + (code : Nat)) * 256 + 1 = Ob.refEnable code := by
    unfold Ob.refEnable
    omega
  have hself : e.resolve se.id ((0x2112 + (code : Nat)) * 256 + 1) = Ob.refEnable code := by
    rw [hkey]
    exact e.resolve_self se.id (refEnable_own code).1 (refEnable_own code).2
  obtain ⟨hstate, hstateSafe⟩ := refState_not_selector code
  obtain ⟨henable, henableSafe⟩ := refEnable_not_selector code
  have hdiff : Ob.refEnable code ≠ Ob.refState code := by
    unfold Ob.refEnable Ob.refState
    omega
  rw [hself] at hf
  have hbefore : (e.set (Ob.refEnable code) n).reg (Ob.refState code) = d.reg (Ob.refState code) := by
    rw [Dev.reg_set, if_neg hdiff.symm, he.reg]
  rw [hf.reg _ (fun h => henable (.inl h)) henableSafe, hf.reg _ (fun h => hstate (.inl h)) hstateSafe,
    Dev.refEnabled_other _ _ _ henable hdiff, Dev.reg_set, if_pos rfl]
  refine ⟨rfl, fun hc hn => ?_, fun hc hn hoff => ?_, fun hc hn hon => ?_⟩
  all_goals rw [Dev.refEnabled_state _ _ _ hc, hbefore]
  · rw [hn]
    rfl
  · rw [if_pos (by simpa using hn), if_pos hoff]
  · rw [if_pos (by simpa using hn), if_neg hon]

theorem refActivityPresent_runs {s : State} {code : Fin 6} {offset : Int} (hc : (code : Nat) ≠ 0)
    (hst : s.dev.reg (Ob.refState code) = 1) (ha : s.dev.refActive code = true)
    (hin : offset.natAbs ≤ s.dev.nat (Ob.refAcceptWindow code) * 1000) :
    Runs (.refActivityPresent code offset) s fun d => d.reg (Ob.refState code) = 2 ∧ d.reg (Ob.refMeasuredOffset code) = offset
      ∧ s.dev.KeepsRegs d [Ob.refState code, Ob.refMeasuredOffset code] := by
  refine Runs.of_onDev (show execRefActivityPresent code offset s = onDev _ s from rfl) ?_
  have hgo : ¬ (decide ((code : Nat) = 0) || s.dev.reg (Ob.refState code) == 0 || !s.dev.refActive code) = true := by
    simp [hc, hst, ha]
  simp only [if_neg hgo, if_pos hst, decide_eq_true hin, if_pos]
  have hreg : ∀ k, ¬ BookKey k → k ≠ Ob.safeOutputState →
      (s.dev.settle ((s.dev.set (Ob.refMeasuredOffset code) offset).toRef code 2)).reg k
        = if k = Ob.refState code then 2 else if k = Ob.refMeasuredOffset code then offset else s.dev.reg k :=
    fun k hb hs => by rw [Dev.settle_reg _ _ hs, Dev.toRef_reg _ _ _ hb, Dev.reg_set]
  obtain ⟨hstate, hstateSafe⟩ := refState_not_selector code
  obtain ⟨hoffset, hoffsetSafe⟩ := refMeasuredOffset_not_book code
  refine ⟨?_, ?_, fun k hb hs hk => ?_⟩
  · rw [hreg _ (fun h => hstate (.inl h)) hstateSafe, if_pos rfl]
  · rw [hreg _ hoffset hoffsetSafe, if_neg (by unfold Ob.refMeasuredOffset Ob.refState; omega), if_pos rfl]
  · simp only [List.mem_cons, List.not_mem_nil, or_false, not_or] at hk
    rw [hreg k hb hs, if_neg hk.1, if_neg hk.2]

theorem refQualifyTimeout_runs {s : State} {code : Fin 6} (hc : (code : Nat) ≠ 0) (hst : s.dev.reg (Ob.refState code) = 2)
    (ha : s.dev.refActive code = true) (hout : (s.dev.refRt code).outSince = none)
    (htime : s.dev.nat (Ob.refQualifyTime code) * 1000000000 ≤ s.dev.ago (s.dev.refRt code).goodSince) :
    Runs (.refQualifyTimeout code) s fun d => d.reg (Ob.refState code) = 3 := by
  refine Runs.of_onDev (show execRefQualifyTimeout code s = onDev _ s from rfl) ?_
  rw [if_pos (by simp [hc, hst, ha, hout, htime]), Dev.settle_reg _ _ (refState_not_selector code).2]
  exact Dev.toRef_reselect_state _ _ _

theorem refActivityLost_runs {s : State} {code : Fin 6} (hc : (code : Nat) ≠ 0)
    (hst : s.dev.reg (Ob.refState code) = 2 ∨ s.dev.reg (Ob.refState code) = 3) (hl : s.dev.refLost code = true) :
    Runs (.refActivityLost code) s fun d => d.reg (Ob.refState code) = 1 := by
  refine Runs.of_onDev (show execRefActivityLost code s = onDev _ s from rfl) ?_
  rw [if_pos (by simpa [hc, hl] using hst), Dev.settle_reg _ _ (refState_not_selector code).2]
  exact Dev.toRef_reselect_state _ _ _

/-- Settles O19: each command by the change of state that it makes; the selection that follows writes the selector's own
registers alone (`Dev.reselect_other`). -/
theorem referenceCommandsRun : Obligations.ReferenceCommandsRun := fun code =>
  ⟨refEnableWrite_runs code, fun _ _ hc hst ha hin => refActivityPresent_runs hc hst ha hin,
    fun _ hc hst ha hout htime => refQualifyTimeout_runs hc hst ha hout htime,
    fun _ hc hst hl => refActivityLost_runs hc hst hl⟩

end Sys2Proof.Machine
end

section
/-! Why closing the loop does not always resume what the state before it says (03_timing_unit R73, Table 5): a priority entry is
an unbounded number in the model's state, and the state of the reference that a large entry names is read from a register of
another object. -/
namespace Sys2Proof.Machine

/-- A session of partition 0. -/
def strayRefSession : Session :=
  { id := 1, part := 0, carrier := .mailbox 0, key := [1], confirmed := true, hi := 5, accepted := [5], devSeq := 5, opened := 0,
    lastReq := 0, outst := [], cache := [], subs := [] }

/-- An entry of the event log. -/
def oldEntry : LogEntry :=
  { stamp := 0, island := 1, iface := 0, partner := 0, code := 0x1021, d1 := 0, d2 := 0, d3 := 0, seq := 0, mirrored := false,
    violation := false, summary := false }

/-- A device in OPEN whose one priority entry names reference 16110. The state of that reference is read from 0x6000.02, the
number of entries in the event log: 2 before the loop closes, which is not VALID, and 3, VALID, once event 0x1024 is logged. -/
def strayReference : Dev :=
  { ([(Ob.bootPhase, 8), (Ob.serviceReady, 1), (Ob.partEnable 0, 1), (Ob.partKeyState 0, 1), (Ob.partRoleMask 0, 15),
      (Ob.logEntries, 2), (Ob.loopMode, 1), (Ob.selectorState, 4), (Ob.priorityEntry 0, 16110)].foldl
      (fun (d : Dev) p => d.set p.1 p.2) {} : Dev) with
    tl := { running := true }, pins := { perst := true, vin := 2 }, log := { ring := [oldEntry, oldEntry] },
    dict := { sessions := [strayRefSession] } }

/-- The request of that session that closes the loop. -/
def strayClose : Hdr :=
  let payload := writePayload 0x2120 1 none [0]
  let hd : Hdr := { carrier := .mailbox 0, opcode := Op.write, tag := 7, session := 1, seq := 6, len := payload.length, mac := [] }
  { hd with mac := macOf strayRefSession.key (hd.bytes payload) }

/-- The device after that request. -/
def strayClosed : Dev :=
  strayReference.settle (strayReference.writeStore {} strayClose none 0x2120 1 [0] fun _ _ d => d.closeLoop)

/-- The checks of a write let it pass. -/
def Gate.passes : Gate → Bool
  | .stop _ => false
  | .pass _ _ _ => true

theorem Gate.exists_of_passes {g : Gate} (h : g.passes = true) : ∃ e se n, g = .pass e se n := by
  cases g with
  | stop d => cases h
  | pass e se n => exact ⟨e, se, n, rfl⟩

theorem strayClose_passes : (strayReference.writeGate {} strayClose none 0x2120 1 [0]).passes = true := by decide +kernel

theorem strayReference_closes :
    exec (.loopModeClose strayClose none) { pending := [], dev := strayReference } = .next { pending := [], dev := strayClosed } :=
  rfl

/-- By the state before, no reference is there to resume, and XTAL is not listed: HOLDOVER follows. -/
theorem strayReference_resumes_none :
    strayReference.reg Ob.selectorState = 4 ∧ strayReference.resumed = none ∧ strayReference.listed.2 = false := by decide +kernel

/-- The loop closes into ACQUIRE. -/
theorem strayClosed_acquires : strayClosed.reg Ob.selectorState = 1 := by decide +kernel

/-- Refutes O20: logging that the loop closes makes the stray reference VALID, so it is acquired. -/
theorem not_selectorCommandsRun : ¬ Obligations.SelectorCommandsRun := by
  rintro ⟨-, -, -, -, -, hclose, -⟩
  obtain ⟨e, se, n, hpass⟩ := Gate.exists_of_passes strayClose_passes
  obtain ⟨t, ht, -, -, -, hnone⟩ := hclose { pending := [], dev := strayReference } strayClose none e se n hpass
  obtain rfl := Host.Outcome.next.inj (strayReference_closes.symm.trans ht)
  obtain ⟨hopen, hresumed, hxtal⟩ := strayReference_resumes_none
  have hstate := hnone hopen hresumed
  rw [hxtal] at hstate
  exact absurd (strayClosed_acquires.symm.trans hstate) (by decide)

end Sys2Proof.Machine
end

section
/-! What an answered write leaves alone beside the registers and the parts that `Dev.Finished` names: the timing unit but for
answers that wait for a port's SerDes, the running bank, the supplies and the islands' causes (04_dictionary R86, R87). -/
namespace Sys2Proof.Machine

/-- The device `d'` after an answer: of these parts only the list of held commands has grown, by frames. -/
structure Dev.Answered (d d' : Dev) : Prop where
  tu : ∃ l : List Held, d'.tu = { d.tu with held := d.tu.held ++ l } ∧ ∀ h ∈ l, ∃ o, h.cmd = .frame o
  boot : d'.boot = d.boot
  pow : d'.pow = d.pow
  islCause : d'.islCause = d.islCause

theorem Dev.Answered.of_same {d d' : Dev} (htu : d'.tu = d.tu) (hboot : d'.boot = d.boot) (hpow : d'.pow = d.pow)
    (hcause : d'.islCause = d.islCause) : d.Answered d' where
  tu := ⟨[], by rw [htu, List.append_nil], fun _ h => absurd h List.not_mem_nil⟩
  boot := hboot
  pow := hpow
  islCause := hcause

theorem Dev.Answered.refl (d : Dev) : d.Answered d := .of_same rfl rfl rfl rfl

theorem Dev.Answered.trans {a b c : Dev} (h : a.Answered b) (k : b.Answered c) : a.Answered c := by
  obtain ⟨⟨l, hl, hframes⟩, hboot, hpow, hcause⟩ := h
  obtain ⟨⟨m, hm, kframes⟩, kboot, kpow, kcause⟩ := k
  refine ⟨⟨l ++ m, by rw [hm, hl, List.append_assoc], fun x hx => ?_⟩, kboot.trans hboot, kpow.trans hpow, kcause.trans hcause⟩
  exact (List.mem_append.1 hx).elim (hframes x) (kframes x)

theorem Dev.Answered.ite {d a b : Dev} {p : Prop} [Decidable p] (h : d.Answered a) (k : d.Answered b) :
    d.Answered (if p then a else b) := by
  split <;> assumption

namespace Dev.Answered
variable {d d' : Dev} (h : d.Answered d')
include h

theorem corrTo : d'.tu.corrTo = d.tu.corrTo := by
  obtain ⟨l, hl, -⟩ := h.tu
  rw [hl]

theorem train (i : Nat) : d'.train i = d.train i := by
  obtain ⟨l, hl, -⟩ := h.tu
  unfold Dev.train
  rw [hl]

/-- The command that is held to start a pulse output is no frame. -/
theorem isHeld_pulse (i : Nat) : d'.isHeld (.pulse i) = d.isHeld (.pulse i) := by
  obtain ⟨l, hl, hframes⟩ := h.tu
  have hnone : (l.any fun x => decide (x.cmd = .pulse i)) = false := by
    rw [List.any_eq_false]
    intro x hx
    obtain ⟨o, ho⟩ := hframes x hx
    simp [ho]
  unfold Dev.isHeld
  rw [hl]
  show ((d.tu.held ++ l).any fun x => decide (x.cmd = .pulse i)) = _
  rw [List.any_append, hnone, Bool.or_false]

end Dev.Answered

theorem Dev.event_answered (d : Dev) (ev : Ev) : d.Answered (d.event ev) := by
  have w := Dev.event_within (M := 0) (by exact rfl) (.refl d) ev
  exact .of_same (w.tu rfl) (w.boot rfl) (w.pow rfl) (by simp)

theorem Dev.each_answered {α : Type} {f : Dev → α → Dev} (h : ∀ (d : Dev) a, d.Answered (f d a)) (l : List α) (d : Dev) :
    d.Answered (d.each l f) := by
  induction l generalizing d with
  | nil => exact .refl d
  | cons a l ih => exact (h d a).trans (ih _)

theorem Dev.hold_answered (d : Dev) (syn : Nat) (o : Output) : d.Answered (d.hold syn (.frame o)) := by
  refine Dev.Answered.trans ?_ (Dev.event_answered _ _)
  refine ⟨⟨[{ syn := syn, at_ := d.ext, cmd := .frame o }], rfl, fun h hh => ?_⟩, rfl, rfl, rfl⟩
  rw [List.mem_singleton.1 hh]
  exact ⟨o, rfl⟩

theorem Dev.ethOut_answered (d : Dev) (port : Nat) (o : Output) : d.Answered (d.ethOut port o) := by
  unfold Dev.ethOut
  split
  · exact .refl d
  split
  · exact d.hold_answered _ _
  · exact .of_same rfl rfl rfl rfl

theorem Dev.post_answered (d : Dev) (c : Carrier) (port : Nat) (o : Output) : d.Answered (d.post c port o) := by
  cases c with
  | udp ip p => exact d.ethOut_answered port o
  | can ctl node => exact .of_same rfl rfl rfl rfl
  | mailbox fn =>
    unfold Dev.post
    dsimp only
    split <;> exact .of_same rfl rfl rfl rfl

theorem Dev.endSession_answered (d : Dev) (sid : Nat) (cause : EndCause) : d.Answered (d.endSession sid cause) := by
  unfold Dev.endSession
  split
  · exact .refl d
  · refine Dev.Answered.trans ?_ (Dev.event_answered _ _)
    refine Dev.Answered.trans ?_ (Dev.each_answered (fun d _ => d.event_answered _) _ _)
    exact .of_same rfl rfl rfl rfl

theorem Dev.sessionAnswer_answered (d : Dev) (se : Session) (tag op seg : Nat) (more : Bool) (a : Ans) :
    d.Answered (d.sessionAnswer se tag op seg more a) := by
  unfold Dev.sessionAnswer
  split
  · exact .refl d
  · have hpost : ∀ f o, d.Answered ((d.onSession se.id f).post se.carrier se.ethPort o) := fun f _ =>
      (show d.Answered (d.onSession se.id f) from .of_same rfl rfl rfl rfl).trans (Dev.post_answered _ _ _ _)
    dsimp only
    split
    · exact (hpost _ _).trans (Dev.endSession_answered _ _ _)
    · exact hpost _ _

theorem Dev.sendSegments_answered (d : Dev) (se : Session) (tag op : Nat) (a : Ans) (i : Nat) (l : List Bytes) :
    d.Answered (d.sendSegments se tag op a i l) := by
  induction l generalizing d i with
  | nil => exact .refl d
  | cons b l ih => exact (d.sessionAnswer_answered _ _ _ _ _ _).trans (ih _ _)

theorem Dev.answerAll_answered (d : Dev) (se : Session) (tag op : Nat) (a : Ans) : d.Answered (d.answerAll se tag op a) := by
  unfold Dev.answerAll
  split
  · exact d.sendSegments_answered _ _ _ _ _ _
  · exact d.sessionAnswer_answered _ _ _ _ _ _

theorem Dev.absentReply_answered (d : Dev) (i : Nat) : d.Answered (d.absentReply i) := by
  unfold Dev.absentReply
  split <;> exact .of_same rfl rfl rfl rfl

theorem Dev.complete_answered (d : Dev) (sid tag op : Nat) (payload : Bytes) (seq : Nat) (a : Ans) :
    d.Answered (d.complete sid tag op payload seq a) := by
  have hsession : ∀ f, d.Answered ((d.when (a.status == Sc.absent) fun d => d.absentReply a.detail).onSession sid f) := fun f => by
    refine Dev.Answered.trans (b := d.when (a.status == Sc.absent) fun d => d.absentReply a.detail) ?_ (.of_same rfl rfl rfl rfl)
    unfold Dev.when
    split
    · exact d.absentReply_answered _
    · exact .refl d
  unfold Dev.complete
  split
  · exact .refl d
  · exact (hsession _).trans (Dev.answerAll_answered _ _ _ _ _)

theorem Dev.finishWrite_answered (d : Dev) (hd : Hdr) (cond : Option Nat) (idx sub : Nat) (v : Bytes) (se : Session) :
    d.Answered (d.finishWrite hd cond idx sub v se) := by
  unfold Dev.finishWrite
  dsimp only
  apply Dev.Answered.ite
  · exact .of_same rfl rfl rfl rfl
  · refine Dev.Answered.trans (b := d.bumpVer (idx * 256 + sub)) (.of_same rfl rfl rfl rfl) ?_
    exact Dev.complete_answered _ _ _ _ _ _ _

theorem Dev.settle_answered (d0 d : Dev) : d.Answered (d0.settle d) := by
  have w := Dev.settle_within (M := 0) rfl (.refl d) d0
  exact .of_same (w.tu rfl) (w.boot rfl) (w.pow rfl) (by simp [Dev.settle])

/-- The value that a write hands on is the one its bytes stand for, reserved bits cleared. -/
theorem Dev.writeGate_value {d e : Dev} {c : Conds} {hd : Hdr} {cond : Option Nat} {idx sub : Nat} {v : Bytes} {se : Session}
    {n : Int} (h : d.writeGate c hd cond idx sub v = .pass e se n) :
    ∃ r, objRow idx sub = some r ∧ n = r.masked (decodeTy r.ty v) := by
  unfold Dev.writeGate at h
  dsimp only at h
  split at h
  · cases h
  split at h
  · cases h
  split at h
  · cases h
  next r hr =>
    split at h
    · cases h
    · obtain ⟨-, -, rfl⟩ := Gate.pass.inj h
      exact ⟨r, hr, rfl⟩

/-- A write command by its effect, where the value written or what an answer leaves of the timing unit matters. -/
theorem SetRuns.of_pass {mk : Hdr → Option Nat → Instr} {c : Conds} {idx sub : Nat} {v : Bytes}
    {P : Dev → Session → Int → Dev → Prop} {eff : Session → Int → Dev → Dev}
    (h : ∀ hd cond s, exec (mk hd cond) s = onDev (fun d => d.writeReq c hd cond idx sub v eff) s)
    (k : ∀ d e se n d', d.Passed e → (∃ r, objRow idx sub = some r ∧ n = r.masked (decodeTy r.ty v)) →
      (eff se n e).Finished d' → (eff se n e).Answered d' → P d se n d') : SetRuns mk c idx sub v P := by
  intro s hd cond e se n hg
  refine Runs.of_onDev (h hd cond s) (k _ e se n _ (Dev.writeGate_passed hg) (Dev.writeGate_value hg) ?_ ?_)
  · rw [Dev.writeReq_pass hg]
    exact (Dev.finishWrite_finished _ _ _ _ _ _ _).trans (Dev.settle_finished _ _)
  · rw [Dev.writeReq_pass hg]
    exact (Dev.finishWrite_answered _ _ _ _ _ _ _).trans (Dev.settle_answered _ _)

end Sys2Proof.Machine
end

section
/-! PPS_IN (03_timing_unit R74). -/
namespace Sys2Proof.Machine

theorem Dev.settle_tu (d0 d : Dev) : (d0.settle d).tu = d.tu :=
  (Dev.settle_within (M := 0) rfl (.refl d) d0).tu rfl

theorem Dev.event_tu (d : Dev) (ev : Ev) : (d.event ev).tu = d.tu :=
  (Dev.event_within (M := 0) (by exact rfl) (.refl d) ev).tu rfl

/-- An accepted edge becomes the last one, and its interval is read (R74). -/
def Dev.ppsTaken (d : Dev) (e l : Nat) : Dev :=
  ((d.onTu fun t => { t with pps := some e, anchors := ((e + l, l) :: t.anchors).take 4 }).setN Ob.ppsInLastEdge (e % span48)).setN
    Ob.ppsInInterval l

/-- What an edge does, by its interval to the last accepted one. -/
theorem Dev.ppsEdge_eq (d : Dev) (e : Nat) : d.ppsEdge e =
    match d.tu.pps with
    | none => d.ppsTaken e 1000000000
    | some p =>
      if 1500000000 < e - p then d.ppsTaken e 1000000000
      else if 999000000 ≤ e - p ∧ e - p ≤ 1001000000 then d.ppsTaken e (e - p)
      else (d.bump Ob.ppsInRejected).event { code := 0x1025, island := Isl.tmg, d1 := Nat.min (e - p) 4294967295 } := rfl

theorem Dev.ppsTaken_reads (d0 d : Dev) (e l : Nat) :
    (d0.settle (d.ppsTaken e l)).tu.pps = some e ∧ (d0.settle (d.ppsTaken e l)).reg Ob.ppsInLastEdge = (e % span48 : Nat)
      ∧ (d0.settle (d.ppsTaken e l)).reg Ob.ppsInInterval = (l : Nat) := by
  rw [Dev.settle_tu, Dev.settle_reg _ _ (by decide), Dev.settle_reg _ _ (by decide)]
  unfold Dev.ppsTaken
  rw [Dev.reg_setN, if_neg (by decide), Dev.reg_setN, if_pos rfl, Dev.reg_setN, if_pos rfl]
  exact ⟨rfl, rfl, rfl⟩

theorem ppsInEdge_runs {s : State} {rising : Bool} (hr : s.dev.tl.running = true)
    (hp : rising = (s.dev.reg Ob.ppsInPolarity == 0)) :
    Runs (.ppsInEdge rising) s fun d =>
      (s.dev.tu.pps = none → d.tu.pps = some s.dev.ext ∧ d.reg Ob.ppsInLastEdge = (s.dev.ext % span48 : Nat)
        ∧ d.reg Ob.ppsInInterval = 1000000000)
      ∧ (∀ p, s.dev.tu.pps = some p → 999000000 ≤ s.dev.ext - p → s.dev.ext - p ≤ 1001000000 →
        d.tu.pps = some s.dev.ext ∧ d.reg Ob.ppsInInterval = (s.dev.ext - p : Nat))
      ∧ (∀ p, s.dev.tu.pps = some p → s.dev.ext - p < 999000000 ∨ 1001000000 < s.dev.ext - p ∧ s.dev.ext - p ≤ 1500000000 →
        d.tu.pps = some p ∧ d.reg Ob.ppsInRejected = wrapTy (keyTy Ob.ppsInRejected) (s.dev.reg Ob.ppsInRejected + 1)) := by
  refine Runs.of_onDev (show execPpsInEdge rising s = onDev _ s from rfl) ?_
  rw [if_pos (by rw [hr, decide_eq_true hp, Bool.true_and]), Dev.ppsEdge_eq]
  refine ⟨fun h => ?_, fun p h hlo hhi => ?_, fun p h hout => ?_⟩
  · simp only [h]
    exact Dev.ppsTaken_reads _ _ _ _
  · simp only [h]
    rw [if_neg (by omega), if_pos ⟨hlo, hhi⟩]
    obtain ⟨hpps, -, hinterval⟩ := Dev.ppsTaken_reads s.dev s.dev s.dev.ext (s.dev.ext - p)
    exact ⟨hpps, hinterval⟩
  · simp only [h]
    rw [if_neg (by omega), if_neg (by omega), Dev.settle_tu, Dev.event_tu,
      Dev.settle_reg _ _ (by decide), Dev.event_reg _ _ (by decide), Dev.reg_bump, if_pos rfl]
    exact ⟨h, rfl⟩

end Sys2Proof.Machine
end

section
/-! The pulse outputs: what a train, its configuration and its edges leave of the registers (03_timing_unit R75-R78). -/
namespace Sys2Proof.Machine

/-- An object of a pulse output is neither bookkeeping nor SafeOutputState. -/
theorem pulseObj_plain {out : Fin 13} {k : Nat} (h : k / 256 = 0x2130 + out) : ¬ BookKey k ∧ k ≠ Ob.safeOutputState := by
  unfold BookKey Ob.safeOutputState
  omega

theorem pulseConfig_own (out : Fin 13) (field : Fin 6) :
    perSession (Ob.pulseBase out + field) = false ∧ (Ob.pulseBase out + field) / 256 ≠ 0x5002 := by
  revert out field
  decide

theorem Dev.train_congr {d d' : Dev} (h : d'.tu = d.tu) (i : Nat) : d'.train i = d.train i := by
  unfold Dev.train
  rw [h]

@[simp] theorem Dev.set_train (d : Dev) (k : Nat) (v : Int) (i : Nat) : (d.set k v).train i = d.train i := rfl

@[simp] theorem Dev.set_isHeld (d : Dev) (k : Nat) (v : Int) (cmd : HeldCmd) : (d.set k v).isHeld cmd = d.isHeld cmd := rfl

@[simp] theorem Dev.setTrain_train (d : Dev) (i : Nat) (t : Option Train) : (d.setTrain i t).train i = t := by
  cases t with
  | none => exact (kvGet_kvDel _ _ _).trans (if_pos rfl)
  | some t => exact (kvGet_kvPut _ _ _ _).trans (if_pos rfl)

@[simp] theorem Dev.setTrain_reg (d : Dev) (i : Nat) (t : Option Train) (k : Nat) : (d.setTrain i t).reg k = d.reg k := rfl

/-- Laying a train again writes no register. -/
@[simp] theorem Dev.retrain_reg (d : Dev) (i : Nat) (e : Int) (k : Nat) : (d.retrain i e).reg k = d.reg k := by
  unfold Dev.retrain
  split <;> rfl

theorem pulseConfigWrite_runs (out : Fin 13) (field : Fin 6) (v : Bytes) :
    SetRuns (fun hd cond => .pulseConfigWrite hd cond out field v) (pulseConds out field) (0x2130 + out) (field + 1) v
      fun d _ n d' => d'.reg (Ob.pulseBase out + field) = n ∧ d.KeepsRegs d' [Ob.pulseBase out + field] := by
  refine SetRuns.of_store (fun hd cond s => show execPulseConfigWrite hd cond out field v s = _ from rfl)
    fun d e se n d' he hf => ?_
  have hkey : (0x2130 + (out : Nat)) * 256 + (field + 1) = Ob.pulseBase out + field := by
    unfold Ob.pulseBase
    omega
  have hself : e.resolve se.id ((0x2130 + (out : Nat)) * 256 + (field + 1)) = Ob.pulseBase out + field := by
    rw [hkey]
    exact e.resolve_self se.id (pulseConfig_own out field).1 (pulseConfig_own out field).2
  obtain ⟨hbook, hsafe⟩ := pulseObj_plain (out := out) (k := Ob.pulseBase out + field) (by unfold Ob.pulseBase; omega)
  rw [hself] at hf
  have hreg : ∀ k, ¬ BookKey k → k ≠ Ob.safeOutputState →
      d'.reg k = if k = Ob.pulseBase out + field then n else d.reg k := fun k hb hs => by
    rw [hf.reg k hb hs, Dev.retrain_reg, Dev.reg_set, he.reg]
  refine ⟨(hreg _ hbook hsafe).trans (if_pos rfl), fun k hb hs hk => (hreg k hb hs).trans (if_neg ?_)⟩
  exact fun h => hk (h ▸ List.mem_singleton_self _)

theorem Dev.clearedStart_reg (d : Dev) {out : Fin 13} {k : Nat} (h : k ≠ Ob.pulseActualStart out) :
    (d.setN (Ob.pulseActualStart out) 0).reg k = d.reg k := (d.reg_setN _ _ _).trans (if_neg h)

theorem Dev.startTrain_reg (d : Dev) (i k : Nat) : (d.startTrain i).reg k = if k = Ob.pulseStatus i then 2 else d.reg k :=
  (Dev.reg_set _ _ _ _).trans (if_congr Iff.rfl rfl (d.setTrain_reg _ _ _))

theorem Dev.startTrain_isSome (d : Dev) (i : Nat) : ((d.startTrain i).train i).isSome = true := by
  unfold Dev.startTrain
  dsimp only
  rw [Dev.set_train, Dev.setTrain_train]
  rfl

theorem Dev.hold_tu (d : Dev) (syn : Nat) (cmd : HeldCmd) :
    (d.hold syn cmd).tu = { d.tu with held := d.tu.held ++ [{ syn := syn, at_ := d.ext, cmd := cmd }] } :=
  Dev.event_tu _ _

theorem Dev.hold_isHeld (d : Dev) (syn : Nat) (cmd : HeldCmd) : (d.hold syn cmd).isHeld cmd = true := by
  unfold Dev.isHeld
  rw [Dev.hold_tu]
  simp

theorem Dev.unhold_isHeld (d : Dev) (cmd : HeldCmd) : (d.unhold cmd).isHeld cmd = false := by
  unfold Dev.isHeld Dev.unhold Dev.onTu
  simp

theorem Dev.isHeld_congr {d e : Dev} (h : e.tu = d.tu) (cmd : HeldCmd) : e.isHeld cmd = d.isHeld cmd := by
  unfold Dev.isHeld
  rw [h]

theorem Dev.Passed.tu {d e : Dev} (h : d.Passed e) : e.tu = d.tu := by rw [h.eq]

theorem pulseStart_runs (out : Fin 13) :
    SetRuns (fun hd cond => .pulseStart hd cond out) (pulseStartConds out) (0x2130 + out) 8 [1] fun d _ _ d' =>
      d'.reg (Ob.pulseActualStart out) = 0
        ∧ if d.synBusy 1 then d'.reg (Ob.pulseStatus out) = 1 ∧ d'.isHeld (.pulse out) = true
          else d'.reg (Ob.pulseStatus out) = 2 ∧ (d'.train out).isSome = true := by
  refine SetRuns.of_pass (fun hd cond s => show execPulseStart hd cond out s = _ from rfl) fun d e se n d' he _ hf ha => ?_
  obtain ⟨startBook, startSafe⟩ := pulseObj_plain (out := out) (k := Ob.pulseActualStart out) (by unfold Ob.pulseActualStart; omega)
  obtain ⟨statusBook, statusSafe⟩ := pulseObj_plain (out := out) (k := Ob.pulseStatus out) (by unfold Ob.pulseStatus; omega)
  have hdiff : Ob.pulseActualStart out ≠ Ob.pulseStatus out := by
    unfold Ob.pulseActualStart Ob.pulseStatus
    omega
  rw [hf.reg _ startBook startSafe, hf.reg _ statusBook statusSafe, ha.isHeld_pulse, ha.train]
  have hbusy : (e.setN (Ob.pulseActualStart out) 0).synBusy 1 = d.synBusy 1 := by
    unfold Dev.synBusy
    rw [e.clearedStart_reg (by unfold Ob.synthState Ob.pulseActualStart; omega), he.reg]
  have hclear : (e.setN (Ob.pulseActualStart out) 0).reg (Ob.pulseActualStart out) = 0 := (Dev.reg_setN _ _ _ _).trans (if_pos rfl)
  unfold Dev.pulseStarts
  dsimp only
  rw [hbusy]
  by_cases hb : d.synBusy 1 = true
  · simp only [if_pos hb]
    refine ⟨?_, ?_, Dev.hold_isHeld _ _ _⟩
    · rw [Dev.hold_reg _ _ _ startBook, Dev.reg_set, if_neg hdiff, hclear]
    · rw [Dev.hold_reg _ _ _ statusBook, Dev.reg_set, if_pos rfl]
  · simp only [if_neg hb]
    refine ⟨?_, ?_, Dev.startTrain_isSome _ _⟩
    · rw [Dev.startTrain_reg, if_neg hdiff, hclear]
    · rw [Dev.startTrain_reg, if_pos rfl]

theorem pulseStop_runs (out : Fin 13) :
    SetRuns (fun hd cond => .pulseStop hd cond out) {} (0x2130 + out) 9 [1] fun d _ _ d' =>
      if d.isHeld (.pulse out) then d'.reg (Ob.pulseStatus out) = 4 ∧ d'.isHeld (.pulse out) = false
      else ∀ t, d.train out = some t →
        if t.active then d'.train out = some { t with stopping := true }
        else d'.train out = none ∧ d'.reg (Ob.pulseStatus out) = 0 := by
  refine SetRuns.of_pass (fun hd cond s => show execPulseStop hd cond out s = _ from rfl) fun d e se n d' he _ hf ha => ?_
  obtain ⟨statusBook, statusSafe⟩ := pulseObj_plain (out := out) (k := Ob.pulseStatus out) (by unfold Ob.pulseStatus; omega)
  rw [hf.reg _ statusBook statusSafe, ha.isHeld_pulse, ha.train]
  unfold Dev.pulseStops
  rw [Dev.isHeld_congr he.tu, Dev.train_congr he.tu]
  by_cases hh : d.isHeld (.pulse out) = true
  · simp only [if_pos hh]
    refine ⟨?_, ?_⟩
    · rw [Dev.reg_set, if_pos rfl]
    · rw [Dev.set_isHeld, Dev.unhold_isHeld]
  · simp only [if_neg hh]
    intro t ht
    simp only [ht]
    by_cases hactive : t.active = true
    · simp only [if_pos hactive, Dev.setTrain_train]
    · simp only [if_neg hactive]
      refine ⟨?_, ?_⟩
      · rw [Dev.set_train, Dev.setTrain_train]
      · rw [Dev.reg_set, if_pos rfl]

end Sys2Proof.Machine
end

section
/-! The edges of a train (03_timing_unit R75, R77, R78). -/
namespace Sys2Proof.Machine

/-- A train once the edge at hand has left on device `d`. -/
def Train.advanced (x : Train) (d : Dev) : Train :=
  { x with k := x.k + 1, emitted := x.emitted + 1, active := true, since := d.fine, last := some d.ext }

/-- The device as the edge is on the pin, before the train moves on. -/
def Dev.edgeSent (d : Dev) (i : Nat) (x : Train) : Dev :=
  (d.send (.pulse i (d.activeLevel i) d.now)).when (x.emitted == 0) fun d => d.setN (Ob.pulseActualStart i) d.now

/-- While SYN-PULSE is locked an edge leaves, and the last of Count ends the train. -/
theorem Dev.edgeLeaves_eq (d : Dev) (i : Nat) (x : Train) (h : d.reg (Ob.synthState 0) = 2) :
    d.edgeLeaves i x = match x.left with
      | none => (d.edgeSent i x).setTrain i (some (x.advanced d))
      | some n =>
        if n ≤ 1 then ((d.edgeSent i x).setTrain i (some { x.advanced d with left := some 0, stopping := true })).set (Ob.pulseStatus i) 5
        else (d.edgeSent i x).setTrain i (some { x.advanced d with left := some (n - 1) }) := by
  have hfine : ∀ b v, (((d.send v).when b fun d => d.setN (Ob.pulseActualStart i) d.now).fine = d.fine)
      ∧ ((d.send v).when b fun d => d.setN (Ob.pulseActualStart i) d.now).ext = d.ext := fun b _ => by
    cases b <;> exact ⟨rfl, rfl⟩
  unfold Dev.edgeLeaves
  rw [h, if_neg (by decide)]
  dsimp only
  rw [(hfine _ _).1, (hfine _ _).2]
  rfl

theorem Dev.edgeLeaves_endless (d : Dev) (i : Nat) (x : Train) (h : d.reg (Ob.synthState 0) = 2) (hleft : x.left = none) :
    d.edgeLeaves i x = (d.edgeSent i x).setTrain i (some (x.advanced d)) := by
  rw [d.edgeLeaves_eq i x h, hleft]

theorem Dev.edgeLeaves_last (d : Dev) (i : Nat) (x : Train) (h : d.reg (Ob.synthState 0) = 2) {n : Nat} (hleft : x.left = some n)
    (hn : n ≤ 1) : d.edgeLeaves i x =
      ((d.edgeSent i x).setTrain i (some { x.advanced d with left := some 0, stopping := true })).set (Ob.pulseStatus i) 5 := by
  rw [d.edgeLeaves_eq i x h, hleft]
  exact if_pos hn

theorem Dev.edgeSent_out (d : Dev) (i : Nat) (x : Train) : .pulse i (d.activeLevel i) d.now ∈ (d.edgeSent i x).out := by
  unfold Dev.edgeSent
  cases x.emitted == 0 <;> exact List.mem_cons_self

theorem Dev.edgeSent_reg (d : Dev) (i : Nat) (x : Train) {k : Nat} (h : k ≠ Ob.pulseActualStart i) :
    (d.edgeSent i x).reg k = d.reg k := by
  unfold Dev.edgeSent Dev.when
  split
  · rw [Dev.reg_setN, if_neg h]
    rfl
  · rfl

/-- An edge that leaves drives the pin. -/
theorem Dev.edgeLeaves_out (d : Dev) (i : Nat) (x : Train) (h : d.reg (Ob.synthState 0) = 2) :
    .pulse i (d.activeLevel i) d.now ∈ (d.edgeLeaves i x).out := by
  rw [d.edgeLeaves_eq i x h]
  repeat' split
  all_goals exact d.edgeSent_out i x

theorem Dev.edgeLeaves_reg (d : Dev) (i : Nat) (x : Train) (h : d.reg (Ob.synthState 0) = 2) {k : Nat}
    (hstart : k ≠ Ob.pulseActualStart i) (hstatus : k ≠ Ob.pulseStatus i) : (d.edgeLeaves i x).reg k = d.reg k := by
  rw [d.edgeLeaves_eq i x h]
  repeat' split
  · exact d.edgeSent_reg i x hstart
  · rw [Dev.reg_set, if_neg hstatus]
    exact d.edgeSent_reg i x hstart
  · exact d.edgeSent_reg i x hstart

/-- An edge that is due leaves when no anchor has overtaken it (R75). -/
theorem Dev.pulseDue_leaves {d : Dev} {i : Nat} {t x : Train} {e ahead : Int} (hx : d.coming i t = some x)
    (he : e = d.edgeAt i x) (ha : ahead = (d.nextAnchor i x.anchor).1 + d.reg (Ob.pulseOffset i))
    (hf : d.flipAhead i (min e ahead) = false) (hdue : e ≤ d.ext) (hbase : d.reg (Ob.pulseBase i) = 0 ∨ e < ahead) :
    d.pulseDue i t = d.edgeLeaves i x := by
  have hover : ¬ (decide (d.reg (Ob.pulseBase i) = 1) && decide (ahead ≤ e ∧ ahead ≤ d.ext)) = true := by
    simp only [Bool.and_eq_true, decide_eq_true_eq]
    rintro ⟨hone, hle, -⟩
    omega
  unfold Dev.pulseDue
  rw [hx]
  dsimp only
  rw [← he, ← ha, hf, if_neg Bool.false_ne_true, if_neg hover, if_neg (not_lt.2 hdue)]

/-- The edges that the next anchor of PPS_IN has overtaken are dropped, and the first of that anchor leaves (R78). -/
theorem Dev.pulseDue_drops {d : Dev} {i : Nat} {t x : Train} {e ahead : Int} (hx : d.coming i t = some x)
    (he : e = d.edgeAt i x) (ha : ahead = (d.nextAnchor i x.anchor).1 + d.reg (Ob.pulseOffset i))
    (hf : d.flipAhead i (min e ahead) = false) (hbase : d.reg (Ob.pulseBase i) = 1) (hover : ahead ≤ e) (hdue : ahead ≤ d.ext) :
    d.pulseDue i t = (d.dropEdges i (d.nat (Ob.pulseRate i) - x.k)).edgeLeaves i
      { x with anchor := (d.nextAnchor i x.anchor).1, len := (d.nextAnchor i x.anchor).2, k := 0 } := by
  unfold Dev.pulseDue
  rw [hx]
  dsimp only
  rw [← he, ← ha, hf, if_neg Bool.false_ne_true, decide_eq_true hbase, decide_eq_true ⟨hover, hdue⟩, if_pos (by decide)]

theorem Dev.dropEdges_reg (d : Dev) (i n : Nat) {k : Nat} (h : ¬ BookKey k) :
    (d.dropEdges i n).reg k = if k = Ob.pulseEdgesDropped i then
      wrapTy (keyTy (Ob.pulseEdgesDropped i)) (d.reg (Ob.pulseEdgesDropped i) + n) else d.reg k := by
  unfold Dev.dropEdges
  rw [Dev.event_reg _ _ h, Dev.reg_bumpBy]

theorem Dev.dropEdges_now (d : Dev) (i n : Nat) : (d.dropEdges i n).now = d.now := by
  unfold Dev.dropEdges Dev.now
  rw [(Dev.event_within (M := 0) (by exact rfl) (.refl _) _).tl rfl]
  rfl

theorem pulseEdgeDue_leaves {s : State} {out : Fin 13} {t x : Train} {e ahead : Int} (ht : s.dev.train out = some t)
    (hgo : t.stopping = false) (hx : s.dev.coming out t = some x) (he : e = s.dev.edgeAt out x)
    (ha : ahead = (s.dev.nextAnchor out x.anchor).1 + s.dev.reg (Ob.pulseOffset out))
    (hf : s.dev.flipAhead out (min e ahead) = false) (hsyn : s.dev.reg (Ob.synthState 0) = 2) (hdue : e ≤ s.dev.ext)
    (hbase : s.dev.reg (Ob.pulseBase out) = 0 ∨ e < ahead) :
    Runs (.pulseEdgeDue out) s fun d => .pulse out (s.dev.activeLevel out) s.dev.now ∈ d.out
      ∧ (x.left = none → d.train out = some { x with
        k := x.k + 1, emitted := x.emitted + 1, active := true, since := s.dev.fine, last := some s.dev.ext })
      ∧ (∀ n, x.left = some n → n ≤ 1 → d.reg (Ob.pulseStatus out) = 5) := by
  refine Runs.of_onDev (show execPulseEdgeDue out s = onDev _ s from rfl) ?_
  obtain ⟨-, statusSafe⟩ := pulseObj_plain (out := out) (k := Ob.pulseStatus out) (by unfold Ob.pulseStatus; omega)
  simp only [ht, hgo, if_neg Bool.false_ne_true]
  rw [Dev.pulseDue_leaves hx he ha hf hdue hbase]
  refine ⟨Dev.settle_out (s.dev.edgeLeaves_out out x hsyn), fun hleft => ?_, fun n hleft hn => ?_⟩
  · rw [Dev.train_congr (Dev.settle_tu _ _), s.dev.edgeLeaves_endless out x hsyn hleft]
    exact Dev.setTrain_train _ _ _
  · rw [Dev.settle_reg _ _ statusSafe, s.dev.edgeLeaves_last out x hsyn hleft hn, Dev.reg_set, if_pos rfl]

theorem pulseEdgeDue_drops {s : State} {out : Fin 13} {t x : Train} {e ahead : Int} (ht : s.dev.train out = some t)
    (hgo : t.stopping = false) (hx : s.dev.coming out t = some x) (he : e = s.dev.edgeAt out x)
    (ha : ahead = (s.dev.nextAnchor out x.anchor).1 + s.dev.reg (Ob.pulseOffset out))
    (hf : s.dev.flipAhead out (min e ahead) = false) (hsyn : s.dev.reg (Ob.synthState 0) = 2)
    (hbase : s.dev.reg (Ob.pulseBase out) = 1) (hover : ahead ≤ e) (hdue : ahead ≤ s.dev.ext) :
    Runs (.pulseEdgeDue out) s fun d => .pulse out (s.dev.activeLevel out) s.dev.now ∈ d.out
      ∧ d.reg (Ob.pulseEdgesDropped out) = wrapTy (keyTy (Ob.pulseEdgesDropped out))
        (s.dev.reg (Ob.pulseEdgesDropped out) + (s.dev.nat (Ob.pulseRate out) - x.k : Nat)) := by
  refine Runs.of_onDev (show execPulseEdgeDue out s = onDev _ s from rfl) ?_
  simp only [ht, hgo, if_neg Bool.false_ne_true]
  rw [Dev.pulseDue_drops hx he ha hf hbase hover hdue]
  generalize s.dev.nat (Ob.pulseRate out) - x.k = n
  generalize ({ x with anchor := _, len := _, k := 0 } : Train) = y
  have hkeep : ∀ k, ¬ BookKey k → k ≠ Ob.pulseEdgesDropped out → (s.dev.dropEdges out n).reg k = s.dev.reg k :=
    fun k hb hk => (s.dev.dropEdges_reg out n hb).trans (if_neg hk)
  have hsyn' : (s.dev.dropEdges out n).reg (Ob.synthState 0) = 2 :=
    (hkeep _ (by decide) (by unfold Ob.synthState Ob.pulseEdgesDropped; omega)).trans hsyn
  obtain ⟨polarityBook, -⟩ := pulseObj_plain (out := out) (k := Ob.pulsePolarity out) (by unfold Ob.pulsePolarity; omega)
  obtain ⟨droppedBook, droppedSafe⟩ :=
    pulseObj_plain (out := out) (k := Ob.pulseEdgesDropped out) (by unfold Ob.pulseEdgesDropped; omega)
  have hlevel : (s.dev.dropEdges out n).activeLevel out = s.dev.activeLevel out := by
    unfold Dev.activeLevel
    rw [hkeep _ polarityBook (by unfold Ob.pulsePolarity Ob.pulseEdgesDropped; omega)]
  refine ⟨Dev.settle_out ?_, ?_⟩
  · rw [← hlevel, ← s.dev.dropEdges_now out n]
    exact Dev.edgeLeaves_out _ _ _ hsyn'
  · rw [Dev.settle_reg _ _ droppedSafe, Dev.edgeLeaves_reg _ _ _ hsyn' (by unfold Ob.pulseEdgesDropped Ob.pulseActualStart; omega)
      (by unfold Ob.pulseEdgesDropped Ob.pulseStatus; omega), Dev.dropEdges_reg _ _ _ droppedBook, if_pos rfl]

theorem pulseWidthEnd_runs {s : State} {out : Fin 13} {t : Train} (ht : s.dev.train out = some t) (hactive : t.active = true)
    (hover : s.dev.widthOver out t = true) :
    Runs (.pulseWidthEnd out) s fun d => .pulse out (!s.dev.activeLevel out) s.dev.now ∈ d.out
      ∧ d.train out = if t.stopping then none else some { t with active := false } := by
  refine Runs.of_onDev (show execPulseWidthEnd out s = onDev _ s from rfl) ?_
  simp only [ht, hactive, hover, Bool.and_self, if_pos]
  rw [Dev.train_congr (Dev.settle_tu _ _)]
  by_cases hstop : t.stopping = true
  · simp only [if_pos hstop]
    have hnone := Dev.setTrain_train (s.dev.send (.pulse out (!s.dev.activeLevel out) s.dev.now)) out none
    cases t.left != some 0 <;> exact ⟨Dev.settle_out List.mem_cons_self, hnone⟩
  · simp only [if_neg hstop]
    exact ⟨Dev.settle_out List.mem_cons_self, Dev.setTrain_train _ _ _⟩

/-- Settles O21: PPS_IN by the interval of an edge, and each command of a pulse output by its effect on the train. -/
theorem pulseCommandsRun : Obligations.PulseCommandsRun :=
  ⟨fun _ _ hr hp => ppsInEdge_runs hr hp, fun out =>
    ⟨pulseConfigWrite_runs out, pulseStart_runs out, pulseStop_runs out,
      fun _ _ _ _ _ ht hgo hx he ha hf hsyn =>
        ⟨pulseEdgeDue_leaves ht hgo hx he ha hf hsyn, pulseEdgeDue_drops ht hgo hx he ha hf hsyn⟩,
      fun _ _ ht hactive hover => pulseWidthEnd_runs ht hactive hover⟩⟩

end Sys2Proof.Machine
end

section
/-! What the work of one unit leaves alone of the islands' own record: their registers, causes of quiesce and clock status, the
firmware banks, and the live update under way (19_power_dies R393-R396, 05_start_up R132). -/
namespace Sys2Proof.Machine

/-- An object of the islands' record: a state, incarnation, reset count, last cause or return stamp of an island, a clock's
status, the cupper's state, a die's status, or an object of the firmware banks and of their update. -/
abbrev IslandObj (k : Nat) : Prop :=
  (0x7F01 ≤ k / 256 ∧ k / 256 ≤ 0x7F19 ∧ ((2 ≤ k % 256 ∧ k % 256 ≤ 5) ∨ k % 256 = 8))
    ∨ k / 256 = 0x2102 ∨ k = 0x360001 ∨ (0x7F20 ≤ k / 256 ∧ k / 256 ≤ 0x7F24 ∧ k % 256 = 2)
    ∨ k / 256 = 0x7000 ∨ k / 256 = 0x7002 ∨ k / 256 = 0x7003 ∨ k / 256 = 0x7010

theorem IslandObj.not_book {k : Nat} (h : IslandObj k) : ¬ BookKey k := by
  unfold IslandObj at h
  unfold BookKey
  omega

/-- The causes of quiesce and the islands that a live update has still to replace are as they were. -/
structure Steady (d d' : Dev) : Prop where
  islCause : d'.islCause = d.islCause
  live : d'.pow.live = d.pow.live

/-- The islands' record is as it was. -/
structure Spares (d d' : Dev) : Prop extends Steady d d' where
  reg : ∀ k, IslandObj k → d'.reg k = d.reg k

theorem Steady.refl (d : Dev) : Steady d d := ⟨rfl, rfl⟩

theorem Steady.trans {a d e : Dev} (h : Steady a d) (k : Steady d e) : Steady a e :=
  ⟨k.islCause.trans h.islCause, k.live.trans h.live⟩

theorem Steady.each {α : Type} {a d : Dev} {f : Dev → α → Dev} {l : List α} (h : Steady a d)
    (hf : ∀ d x, Steady a d → Steady a (f d x)) : Steady a (d.each l f) := by
  induction l generalizing d with
  | nil => exact h
  | cons x l ih => exact ih (hf d x h)

theorem Dev.genDec_islCause (d : Dev) (it : Item) : (d.genDec it).islCause = d.islCause := by
  unfold Dev.genDec
  repeat' split
  all_goals rfl

namespace Spares

theorem refl (d : Dev) : Spares d d := ⟨.refl d, fun _ _ => rfl⟩

theorem trans {a d e : Dev} (h : Spares a d) (k : Spares d e) : Spares a e :=
  ⟨h.toSteady.trans k.toSteady, fun x hx => (k.reg x hx).trans (h.reg x hx)⟩

theorem of_booked {d d' : Dev} (hr : Booked d d') (hc : d'.islCause = d.islCause) (hp : d'.pow = d.pow) : Spares d d' :=
  ⟨⟨hc, congrArg PowRt.live hp⟩, fun k hk => hr k hk.not_book⟩

variable {a d e : Dev}

/-- A change of other parts of the device. -/
theorem keep (h : Spares a d) (hr : e.regs = d.regs) (hc : e.islCause = d.islCause) (hp : e.pow.live = d.pow.live) :
    Spares a e :=
  h.trans ⟨⟨hc, hp⟩, fun k _ => by unfold Dev.reg; rw [hr]⟩

theorem set (h : Spares a d) {k : Nat} (hk : ¬ IslandObj k) (v : Int) : Spares a (d.set k v) :=
  h.trans ⟨⟨rfl, rfl⟩, fun x hx => by rw [Dev.reg_set, if_neg fun e : x = k => hk (e ▸ hx)]⟩

theorem setN (h : Spares a d) {k : Nat} (hk : ¬ IslandObj k) (v : Nat) : Spares a (d.setN k v) := h.set hk _

theorem bump (h : Spares a d) {k : Nat} (hk : ¬ IslandObj k) : Spares a (d.bump k) := h.set hk _

theorem ite {p : Prop} [Decidable p] (h : Spares a d) (k : Spares a e) : Spares a (if p then d else e) := by
  split <;> assumption

theorem when {b : Bool} {f : Dev → Dev} (h : Spares a d) (hf : Spares a d → Spares a (f d)) : Spares a (d.when b f) :=
  (hf h).ite h

theorem each {α : Type} {f : Dev → α → Dev} {l : List α} (h : Spares a d)
    (hf : ∀ d, ∀ x ∈ l, Spares a d → Spares a (f d x)) : Spares a (d.each l f) := by
  induction l generalizing d with
  | nil => exact h
  | cons x l ih =>
    exact ih (hf d x List.mem_cons_self h) fun d y hy => hf d y (List.mem_cons_of_mem _ hy)

theorem event (h : Spares a d) (ev : Ev) : Spares a (d.event ev) :=
  h.trans (.of_booked (Dev.event_booked (.refl d) ev) (d.event_answered ev).islCause (d.event_answered ev).pow)

theorem postEvent (h : Spares a d) (p : Nat) (it : Item) : Spares a (d.postEvent p it) :=
  h.trans (.of_booked (Dev.postEvent_booked (.refl d) p it) (by simp)
    ((Dev.postEvent_within (M := 0) (by exact rfl) (.refl d) p it).pow rfl))

theorem enqueue (h : Spares a d) (q : Nat) (it : Item) : Spares a (d.enqueue q it) :=
  h.trans (.of_booked (Dev.enqueue_booked (.refl d) q it) (by simp)
    ((Dev.enqueue_within (M := 0) (by exact rfl) (.refl d) q it).pow rfl))

theorem handover (h : Spares a d) {point : Nat} (hp : point < 16) (iface src num : Nat) (f : Found) :
    Spares a (d.handover point iface src num f) :=
  h.trans (.of_booked (Dev.handover_booked (.refl d) point iface src num f hp) (by simp)
    ((Dev.handover_within (M := 0) (by exact rfl) (.refl d) point iface src num f).pow rfl))

theorem ethOut (h : Spares a d) (port : Nat) (o : Output) : Spares a (d.ethOut port o) :=
  h.trans (.of_booked (Dev.ethOut_booked (.refl d) port o) (d.ethOut_answered port o).islCause (d.ethOut_answered port o).pow)

theorem genDec (h : Spares a d) (it : Item) : Spares a (d.genDec it) :=
  h.trans (.of_booked (Dev.genDec_booked (.refl d) it) (d.genDec_islCause it)
    ((Dev.genDec_within (M := 0) (by exact rfl) (.refl d) it).pow rfl))

theorem refreshAlive (h : Spares a d) : Spares a d.refreshAlive := h.setN (by decide) _

theorem endSession (h : Spares a d) (sid : Nat) (cause : EndCause) : Spares a (d.endSession sid cause) :=
  h.trans (.of_booked (Dev.endSession_booked (.refl d) sid cause) (d.endSession_answered sid cause).islCause
    (d.endSession_answered sid cause).pow)

theorem endSessions (h : Spares a d) (cause : EndCause) (f : Session → Bool) : Spares a (d.endSessions cause f) :=
  h.each fun _ _ _ h => h.endSession _ _

theorem powerCheck (h : Spares a d) : Spares a d.powerCheck := by
  unfold Dev.powerCheck Dev.beginExit
  split
  · exact h
  split
  · exact h
  · exact h.keep rfl rfl rfl

end Spares

/-- What every command does around its effect leaves the islands' record alone. -/
theorem Spares.settle {a d : Dev} (h : Spares a d) (d0 : Dev) : Spares a (d0.settle d) := by
  refine h.trans ⟨⟨(Dev.settle_answered d0 d).islCause, congrArg PowRt.live (Dev.settle_answered d0 d).pow⟩, fun k hk => ?_⟩
  refine Dev.settle_reg d0 d fun hs => ?_
  rw [hs] at hk
  exact absurd hk (by decide)

end Sys2Proof.Machine
end

section
/-! The tensor engines, the safety channels and the sensor slots: what stops and starts with their islands. -/
namespace Sys2Proof.Machine
namespace Spares

variable {a d : Dev}

theorem withPayload (h : Spares a d) (it : Item) (data : Bytes) : Spares a (d.withPayload it data).2 := by
  unfold Dev.withPayload
  dsimp only
  repeat' split
  all_goals exact h.keep rfl rfl rfl

theorem judgeLate (h : Spares a d) (it : Item) (late : Bool) : Spares a (d.judgeLate it late).2 := by
  unfold Dev.judgeLate
  split
  · exact h.event _
  · exact h

theorem emitItem (h : Spares a d) (q : Nat) (it : Item) (data : Bytes) (late : Bool) : Spares a (d.emitItem q it data late) := by
  have hlate := (h.withPayload (d.derived it) data).judgeLate (d.withPayload (d.derived it) data).1 late
  exact (hlate.keep (e := Dev.nextSeq _ it.srcKind it.srcNum) rfl rfl rfl).enqueue _ _

theorem onModel (h : Spares a d) (m : Nat) (f : ModelRt → ModelRt) : Spares a (d.onModel m f) := h.keep rfl rfl rfl

theorem canaryDue (h : Spares a d) (m : Nat) : Spares a (d.canaryDue m) := h.onModel m _

theorem emitRecord (h : Spares a d) (m island subject completion flags : Nat) (late : Bool) (head : Bytes) (outs : List Bytes) :
    Spares a (d.emitRecord m island subject completion flags late head outs) := by
  unfold Dev.emitRecord
  dsimp only
  generalize hq : d.when _ _ = e
  have he : Spares a e := hq ▸ h.when fun h => h.emitItem _ _ _ _
  split
  · refine Spares.when ?_ fun h => h.canaryDue m
    refine Spares.onModel ?_ m _
    exact he.keep rfl rfl rfl
  · exact he

theorem skipAs (h : Spares a d) {m : Nat} (hm : m < 32) (seq : Nat) (it : Item) (flags : Nat) :
    Spares a (d.skipAs m seq it flags) := by
  have hk : ¬ IslandObj (Ob.modelSkipped m) := by
    unfold IslandObj Ob.modelSkipped
    omega
  exact (((h.bump hk).emitRecord _ _ _ _ _ _ _ _).genDec _).event _

theorem dropAgain (h : Spares a d) {m : Nat} (hm : m < 32) : Spares a (d.dropAgain m) :=
  (h.keep (e := d.onTen _) rfl rfl rfl).each fun _ _ _ h => h.skipAs hm _ _ _

theorem noEngine (h : Spares a d) {m : Nat} (hm : m < 32) : Spares a (d.noEngine m) := by
  have hnoted : ∀ b : Bool, Spares a (d.when b fun d => (d.onModel m fun r => { r with noEngine := true }).event
      { code := 0x3075, d1 := m }) := fun b => h.when fun h => (h.onModel m _).event _
  refine Spares.each (((hnoted _).dropAgain hm).onModel m _) fun d it _ h => ?_
  exact (h.onModel m _).skipAs hm _ _ _

theorem checkEngine (h : Spares a d) {m : Nat} (hm : m < 32) : Spares a (d.checkEngine m) := by
  unfold Dev.checkEngine
  split
  · exact h
  split
  · exact h.noEngine hm
  · exact h.onModel m _

theorem abandonDie (h : Spares a d) (die : Nat) : Spares a (d.abandonDie die) := by
  unfold Dev.abandonDie
  dsimp only
  refine Spares.each ?_ fun d m hm h => ?_
  · refine (h.keep (e := d.onTen _) rfl rfl rfl).each fun d i _ h => ?_
    split
    · exact h.onModel _ _
    · exact h.keep rfl rfl rfl
  · have hm := List.mem_range.1 hm
    exact (h.when fun h => h.dropAgain hm).checkEngine hm

theorem chanTo (h : Spares a d) {k : Nat} (hk : k < 8) (st : Nat) : Spares a (d.chanTo k st) := by
  have hstate : ¬ IslandObj (Ob.chanState k) := by
    unfold IslandObj Ob.chanState
    omega
  have hstops : ¬ IslandObj (Ob.chanStops k) := by
    unfold IslandObj Ob.chanStops
    omega
  have hset : ∀ f, Spares a ((d.setN (Ob.chanState k) st).onChan k f) := fun _ => (h.setN hstate st).keep rfl rfl rfl
  unfold Dev.chanTo
  split
  · exact h
  dsimp only
  split
  · exact ((hset _).bump hstops).event _
  split
  · exact (hset _).event _
  · exact hset _

theorem refreshSafe (h : Spares a d) : Spares a d.refreshSafe := by
  have w := Dev.refreshSafe_within (M := 0) rfl (.refl d)
  refine h.trans ⟨⟨d.refreshSafe_other.2.2.2.2.2.2.2.2.2.2.2.1, congrArg PowRt.live (w.pow rfl)⟩, fun k hk => ?_⟩
  exact d.refreshSafe_reg fun hs => absurd (hs ▸ hk) (by decide)

theorem refreshChannels (h : Spares a d) : Spares a d.refreshChannels := by
  refine (Spares.refreshSafe (h.each fun d k hk h => ?_)).powerCheck
  have hk := List.mem_range.1 hk
  exact h.ite ((h.chanTo hk 1).ite ((h.chanTo hk 2).ite h))

theorem refreshSlot (h : Spares a d) {s : Nat} (hs : s < 32) : Spares a (d.refreshSlot s) :=
  h.set (by unfold IslandObj Ob.slotState; omega) _

theorem refreshSlots (h : Spares a d) (i : Nat) : Spares a (d.refreshSlots i) :=
  h.each fun _ _ hs h => h.refreshSlot (List.mem_range.1 (List.mem_filter.1 hs).1)

end Spares
end Sys2Proof.Machine
end

section
/-! The references, the servo and the ports: what a port that goes down sets off (02_timeline R39-R47, 03_timing_unit R65-R71,
16_network_paths R326-R329). -/
namespace Sys2Proof.Machine
namespace Spares

variable {a d : Dev}

theorem closeLocked (h : Spares a d) : Spares a d.closeLocked := by
  unfold Dev.closeLocked
  split
  · exact h
  · exact h.keep rfl rfl rfl

theorem steer (h : Spares a d) (v : Int) : Spares a (d.steer v) := (h.set (k := Ob.rootFreqOffset) (by decide) _).keep rfl rfl rfl

theorem toSelector (h : Spares a d) (st : Int) (code : Nat) : Spares a (d.toSelector st code) := by
  have hset : ∀ f, Spares a (((d.closeLocked.set Ob.selectorState st).setN Ob.selectedRef code).onTu f) := fun _ =>
    ((h.closeLocked.set (by decide) _).setN (by decide) _).keep rfl rfl rfl
  exact ((hset _).when fun h => h.setN (by decide) _).event _

theorem toHoldover (h : Spares a d) : Spares a d.toHoldover := (((h.set (by decide) _).steer _).toSelector _ _).event _

theorem acquire (h : Spares a d) (code : Nat) : Spares a (d.acquire code) := (h.steer _).toSelector _ _

theorem toFreerun (h : Spares a d) : Spares a d.toFreerun := (h.steer _).toSelector _ _

theorem reselect (h : Spares a d) : Spares a d.reselect := by
  unfold Dev.reselect
  dsimp only
  repeat' split
  all_goals with_reducible first | exact h | exact h.acquire _ | exact h.toFreerun | exact h.toHoldover

theorem toRef (h : Spares a d) {code : Nat} (hc : code = 2 ∨ code = 3) (st : Int) : Spares a (d.toRef code st) := by
  have hk : ¬ IslandObj (Ob.refState code) := by
    rcases hc with rfl | rfl <;> decide
  exact ((h.set hk st).when fun h => h.keep rfl rfl rfl).event _

theorem ptpRefs (h : Spares a d) : Spares a d.ptpRefs := by
  unfold Dev.ptpRefs
  dsimp only
  split
  · exact h
  · exact Spares.reselect (h.each fun d c hc h => h.toRef (by simpa using (List.mem_filter.1 hc).1) 1)

theorem closeTrack (h : Spares a d) : Spares a d.closeTrack := by
  unfold Dev.closeTrack
  split
  · exact h
  · exact h.keep rfl rfl rfl

theorem toServo (h : Spares a d) (st : Int) : Spares a (d.toServo st) := by
  unfold Dev.toServo
  dsimp only
  have hclosed : Spares a (if d.sv = Sv.track && st ≠ Sv.track then d.closeTrack else d) := h.closeTrack.ite h
  refine Spares.ptpRefs (Spares.set (Spares.set ?_ (by decide) _) (by decide) _)
  exact hclosed.keep rfl rfl rfl

theorem holdRate (h : Spares a d) : Spares a d.holdRate := h.closeTrack.keep rfl rfl rfl

theorem onServo (h : Spares a d) (f : Servo → Servo) : Spares a (d.onServo f) := h.keep rfl rfl rfl

theorem setMaster (h : Spares a d) (m : Master) : Spares a (d.setMaster m) :=
  ((h.onServo _).set (by decide) _).set (by decide) _

theorem masterChange (h : Spares a d) (m : Master) : Spares a (d.masterChange m) := by
  have hnew : Spares a (((d.setMaster m).setN Ob.lastMasterChange (d.setMaster m).now).event
      { code := 0x1001, island := Isl.tmg, d1 := m.gm % 4294967296 }) := ((h.setMaster m).setN (by decide) _).event _
  exact (hnew.onServo _).ite (Spares.ite (Spares.ite (hnew.onServo _) (hnew.toServo _)) hnew)

theorem masterBack (h : Spares a d) (m : Master) : Spares a (d.masterBack m) :=
  ((h.setMaster m).onServo _).ite (((h.setMaster m).event _).toServo _)

theorem masterLost (h : Spares a d) : Spares a d.masterLost := by
  unfold Dev.masterLost
  dsimp only
  generalize hd : d.onServo _ = e
  have he : Spares a e := hd ▸ h.onServo _
  have hrefused : Spares a (if e.sv = Sv.refused then e.set Ob.refusedOffset 0 else e) := (he.set (by decide) _).ite he
  exact ((hrefused.holdRate.toServo _).event _).ite he

theorem selectMaster (h : Spares a d) (m : Master) : Spares a (d.selectMaster m) :=
  ((h.masterBack m).ite (h.setMaster m)).ite ((h.setMaster m).ite (h.masterChange m))

theorem movePort (h : Spares a d) (port : Nat) : Spares a (d.movePort port) := by
  have hmoved : Spares a (d.setN Ob.activePort port).ptpRefs := (h.setN (by decide) _).ptpRefs
  unfold Dev.movePort
  dsimp only
  split
  · exact hmoved.selectMaster _
  · exact hmoved.masterLost

theorem ptpPortCheck (h : Spares a d) (port : Nat) : Spares a (d.ptpPortCheck port) := by
  unfold Dev.ptpPortCheck
  split
  · exact h
  · exact Spares.when (h.onServo _) fun h => h.movePort 2

theorem virekEvent (h : Spares a d) (p : Nat) (ev : Ev) : Spares a (d.virekEvent p ev) := by
  unfold Dev.virekEvent
  exact (h.event ev).when fun h => h.postEvent _ _

theorem connNotice (h : Spares a d) (k code : Nat) (d2 : Int) : Spares a (d.connNotice k code d2) :=
  h.each fun _ _ _ h => h.virekEvent _ _

/-- The objects of a partner's paths and of a traffic class. -/
theorem pathKey_not_island {n : Nat} (hn : n < 16) (path : Nat) : ¬ IslandObj (pathKey n path) := by
  unfold pathKey IslandObj Ob.peerPathStateA Ob.peerPathStateB
  split <;> omega

theorem judgePeer (h : Spares a d) {n : Nat} (hn : n < 16) : Spares a (d.judgePeer n) := by
  have hk : ¬ IslandObj (Ob.peerState n) := by
    unfold IslandObj Ob.peerState
    omega
  exact ((h.set hk _).event _).ite (((h.set hk _).event _).ite h)

theorem moveClass (h : Spares a d) {k : Nat} (hk : k < 8) (path : Nat) : Spares a (d.moveClass k path) := by
  have hkeys : ¬ IslandObj (Ob.clsActivePath k) ∧ ¬ IslandObj (Ob.clsLastSwitchStamp k) ∧ ¬ IslandObj (Ob.clsState k) := by
    unfold IslandObj Ob.clsActivePath Ob.clsLastSwitchStamp Ob.clsState
    omega
  exact ((h.setN hkeys.1 _).setN hkeys.2.1 _).set hkeys.2.2 _

theorem classFailed (h : Spares a d) {k : Nat} (hk : k < 8) (n path : Nat) : Spares a (d.classFailed k n path) := by
  have hcls : ∀ f, Spares a (d.onCls k f) := fun _ => h.keep rfl rfl rfl
  have hstate : ¬ IslandObj (Ob.clsState k) ∧ ¬ IslandObj (Ob.clsSwitchOvers k) := by
    unfold IslandObj Ob.clsState Ob.clsSwitchOvers
    omega
  exact (((((hcls _).moveClass hk _).bump hstate.2).event _).connNotice _ _ _).ite (((hcls _).set hstate.1 _).connNotice _ _ _)

theorem pathFailed (h : Spares a d) {n : Nat} (hn : n < 16) (path : Nat) : Spares a (d.pathFailed n path) := by
  unfold Dev.pathFailed
  split
  · exact h
  · refine Spares.judgePeer (Spares.each ((h.set (pathKey_not_island hn path) _).event _) fun d k hk h => ?_) hn
    exact h.classFailed (List.mem_range.1 (List.mem_filter.1 hk).1) n path

theorem portDown (h : Spares a d) (port : Nat) : Spares a (d.portDown port) := by
  unfold Dev.portDown
  refine h.each fun d n hn h => h.when fun h => ?_
  refine Spares.pathFailed ?_ (List.mem_range.1 hn) port
  exact h.keep rfl rfl rfl

end Spares
end Sys2Proof.Machine
end

section
/-! Fences, pours and MIX, the analog outputs, Virek and the queues: what else stops and starts with an island. -/
namespace Sys2Proof.Machine
namespace Spares

variable {a d : Dev}

theorem deliverWait (h : Spares a d) (w : Wait) (reset : Bool) : Spares a (d.deliverWait w reset) := by
  unfold Dev.deliverWait
  dsimp only
  split
  · refine Spares.enqueue ?_ _ _
    exact h.keep rfl rfl rfl
  split
  · refine h.when fun h => ?_
    exact h.keep rfl rfl rfl
  split
  · exact h
  split
  · exact h.keep rfl rfl rfl
  · exact h.keep rfl rfl rfl

theorem completeWaits (h : Spares a d) (f : Nat) (reset : Bool) (met : Wait → Bool) : Spares a (d.completeWaits f reset met) := by
  unfold Dev.completeWaits
  refine Spares.each ?_ fun _ _ _ h => h.deliverWait _ _
  exact h.keep rfl rfl rfl

theorem noteLate (h : Spares a d) (f : Nat) : Spares a (d.noteLate f) := by
  unfold Dev.noteLate
  exact h.when fun h => (h.bump (by decide)).event _

theorem fenceSignal (h : Spares a d) (f v : Nat) : Spares a (d.fenceSignal f v) := by
  refine Spares.completeWaits ?_ _ _ _
  exact (h.noteLate f).keep rfl rfl rfl

theorem signalFence (h : Spares a d) (f v : Nat) : Spares a (d.signalFence f v) := by
  unfold Dev.signalFence
  split
  · exact h.keep rfl rfl rfl
  · exact h.fenceSignal f v

theorem tmgReturns (h : Spares a d) : Spares a d.tmgReturns := by
  unfold Dev.tmgReturns
  refine Spares.each ?_ fun _ _ _ h => h.fenceSignal _ _
  exact h.keep rfl rfl rfl

theorem onPour (h : Spares a d) (n : Nat) (f : Pour → Pour) : Spares a (d.onPour n f) := h.keep rfl rfl rfl

theorem refreshHeld (h : Spares a d) : Spares a d.refreshHeld := by
  refine Spares.refreshAlive (Spares.setN ?_ (by decide) _)
  exact h.keep rfl rfl rfl

theorem endPour (h : Spares a d) (n st cause : Nat) : Spares a (d.endPour n st cause) := by
  unfold Dev.endPour
  split
  · exact h
  · refine Spares.refreshHeld ?_
    exact h.keep rfl rfl rfl

theorem applyPour (h : Spares a d) (p : Pour) : Spares a (d.applyPour p) := by
  unfold Dev.applyPour
  dsimp only
  refine Spares.when (Spares.bump ?_ (by decide)) fun h => (h.bump (by decide)).event _
  split
  · exact ((h.onPour _ _).endPour _ _ _).signalFence _ _
  · exact (h.onPour _ _).endPour _ _ _

theorem completePours (h : Spares a d) : Spares a d.completePours := by
  refine h.each fun d n _ h => ?_
  split
  · exact h
  · exact (h.applyPour _).ite h

theorem refreshPours (h : Spares a d) : Spares a d.refreshPours := by
  unfold Dev.refreshPours
  refine Spares.completePours (h.each fun d p _ h => h.each fun d x _ h => ?_)
  refine Spares.event (Spares.onPour ?_ _ _) _
  exact h.keep rfl rfl rfl

theorem driveAnalog (h : Spares a d) (ch : Nat) (code : Int) : Spares a (d.driveAnalog ch code) := by
  unfold Dev.driveAnalog
  split
  · exact h
  · exact h.keep rfl rfl rfl

theorem analogSafe (h : Spares a d) (ch : Nat) : Spares a (d.analogSafe ch) := h.driveAnalog ch _

theorem driveReleased (h : Spares a d) (ch : Nat) (code : Int) : Spares a (d.driveReleased ch code) := (h.driveAnalog ch code).ite h

theorem routesSilent (h : Spares a d) : Spares a d.routesSilent := h.each fun _ _ _ h => h.driveReleased _ _

theorem endFade (h : Spares a d) (key : Nat) : Spares a (d.endFade key) := by
  refine h.each fun d k hk h => ?_
  have hk := List.mem_range.1 (List.mem_filter.1 hk).1
  refine Spares.set ?_ (by unfold IslandObj Ob.voiceState; omega) _
  exact h.keep rfl rfl rfl

theorem mixReturns (h : Spares a d) : Spares a d.mixReturns := by
  unfold Dev.mixReturns
  refine Spares.each (h.keep rfl rfl rfl) fun d r _ h => ?_
  exact h.keep rfl rfl rfl

theorem anaRest (h : Spares a d) {ch : Nat} (hch : ch < 12) (status : Int) : Spares a (d.anaRest ch status) := by
  have hstate : ¬ IslandObj (anaState ch) := by
    unfold anaState IslandObj Ob.dacChannelState Ob.pwmChannelState
    split <;> omega
  have hstatus : ¬ IslandObj (Ob.dacStatus ch) := by
    unfold IslandObj Ob.dacStatus
    omega
  exact ((((h.set hstate _).analogSafe ch).set hstatus _).ite ((h.set hstate _).analogSafe ch)).ite h

theorem dacCancel (h : Spares a d) {ch : Nat} (hch : ch < 4) : Spares a (d.dacCancel ch) := by
  refine Spares.set ?_ (by unfold IslandObj Ob.dacStatus; omega) _
  exact h.keep rfl rfl rfl

theorem anaQuiesced (h : Spares a d) : Spares a d.anaQuiesced := by
  refine Spares.each (h.each fun _ _ hch h => h.anaRest (List.mem_range.1 hch) 4) fun d ch hch h => ?_
  exact h.when fun h => h.dacCancel (List.mem_range.1 hch)

theorem beaconWritten (h : Spares a d) {b : Nat} (hb : b < 2) : Spares a (d.beaconWritten b) :=
  (h.set (k := Ob.beaconState b) (by unfold IslandObj Ob.beaconState; omega) _).keep rfl rfl rfl

theorem anaReturns (h : Spares a d) : Spares a d.anaReturns :=
  (h.set (by decide) _).each fun _ _ hb h => h.beaconWritten (List.mem_range.1 hb)

theorem egress (h : Spares a d) (port cls iface : Nat) (kind : FrameKind) (fields : List Int) (payload : Bytes) (found : Found) :
    Spares a (d.egress port cls iface kind fields payload found) :=
  Spares.ethOut ((h.when fun h => h.handover (by decide) _ _ _ _).when fun h => (h.bump (by decide)).event _) _ _

theorem classSend (h : Spares a d) (k iface : Nat) (kind : FrameKind) (fields : List Int) (payload : Bytes) (found : Found) :
    Spares a (d.classSend k iface kind fields payload found) := by
  unfold Dev.classSend
  dsimp only
  split
  · exact Spares.egress (h.when fun h => h.keep rfl rfl rfl) _ _ _ _ _ _ _
  · refine Spares.each (h.keep rfl rfl rfl) fun d port _ h => ?_
    exact (h.egress _ _ _ _ _ _ _).ite (h.bump (by decide))

theorem onConn (h : Spares a d) (slot : Nat) (f : Conn → Conn) : Spares a (d.onConn slot f) := by
  unfold Dev.onConn
  split
  · exact h
  · exact h.keep rfl rfl rfl

theorem virekOut (h : Spares a d) (slot : Nat) (kind : FrameKind) (op : Nat) (s : VirekData) (fence value : Nat) (payload : Bytes)
    (found : Found) : Spares a (d.virekOut slot kind op s fence value payload found) := by
  unfold Dev.virekOut
  split
  · exact h
  · exact (h.onConn slot _).classSend _ _ _ _ _ _

theorem sendNext (h : Spares a d) (slot : Nat) (s : VirekData) (jobs : List VirekRead) : Spares a (d.sendNext slot s jobs) := by
  unfold Dev.sendNext
  dsimp only
  split
  · exact h.onConn slot _
  · exact (h.onConn slot _).ite (((h.onConn slot _).when fun h => h.event _).virekOut _ _ _ _ _ _ _ _)

theorem virekCut (h : Spares a d) : Spares a d.virekCut := by
  refine h.each fun d e _ h => h.each fun d j _ h => ?_
  split
  · exact h
  · exact h.sendNext _ _ _

/-- A queue's objects, of whatever queue, are none of the islands'. -/
theorem queueObj_not_island {k : Nat} (hk : k / 256 = 0x5002) (q : Nat) : ¬ IslandObj (inst k q) := fun h => h.not_book (by
  unfold BookKey inst
  omega)

theorem refreshQ (h : Spares a d) (q : Nat) : Spares a (d.refreshQ q) := by
  unfold Dev.refreshQ
  dsimp only
  exact ((h.setN (queueObj_not_island (by decide) q) _).setN (queueObj_not_island (by decide) q) _).setN
    (queueObj_not_island (by decide) q) _

theorem unqueue (h : Spares a d) (q : Nat) (it : Item) : Spares a (d.unqueue q it) :=
  (h.setN (k := Ob.carafeFree) (by decide) _).keep rfl rfl rfl

theorem countDrop (h : Spares a d) (q : Nat) (it : Item) : Spares a (d.countDrop q it) := by
  unfold Dev.countDrop
  exact Spares.when (h.bump (queueObj_not_island (by decide) q)) fun h => h.genDec it

theorem discardItems (h : Spares a d) (q : Nat) : Spares a (d.discardItems q).2 :=
  Spares.refreshQ (h.each fun _ it _ h => (h.unqueue q it).countDrop q it) q

theorem discardAll (h : Spares a d) (l : List Nat) : Spares a (d.discardAll l).2 := by
  induction l generalizing d with
  | nil => exact h
  | cons q l ih => exact ih (h.discardItems q)

theorem qmgReturns (h : Spares a d) : Spares a d.qmgReturns := (h.discardAll _).event _

end Spares
end Sys2Proof.Machine
end

section
/-! Quiesce fences: what closing, emptying and opening an island's boundary writes (19_power_dies R393-R396). -/
namespace Sys2Proof.Machine

theorem Dev.closeIsland_reg (d : Dev) (i cause : Nat) {k : Nat} (hk : ¬ BookKey k) :
    (d.closeIsland i cause).reg k = if k = Ob.islState (i - 1) then 2 else d.reg k :=
  (Dev.event_reg _ _ hk).trans (Dev.reg_set _ _ _ _)

theorem Dev.closeIsland_islCause (d : Dev) (i cause : Nat) : (d.closeIsland i cause).islCause = kvPut d.islCause i cause :=
  (Dev.event_answered _ _).islCause

theorem Dev.closeIsland_pow (d : Dev) (i cause : Nat) : (d.closeIsland i cause).pow = d.pow := (Dev.event_answered _ _).pow

theorem Dev.event_mix (d : Dev) (ev : Ev) : (d.event ev).mix = d.mix :=
  (Dev.event_within (M := 0) (by exact rfl) (.refl d) ev).mix rfl

theorem Dev.closeIsland_mix (d : Dev) (i cause : Nat) : (d.closeIsland i cause).mix = d.mix := Dev.event_mix _ _

/-- The island leaves its quiesce for reset, update or hold, as its cause says. -/
theorem Dev.emptyIsland_state (d : Dev) (i : Nat) : (d.emptyIsland i).reg (Ob.islState (i - 1)) =
    if (kvGet d.islCause i).getD 1 = 3 then 4 else if 4 ≤ (kvGet d.islCause i).getD 1 then 5 else 3 := by
  unfold Dev.emptyIsland Dev.when
  dsimp only
  generalize (kvGet d.islCause i).getD 1 = c
  have hdiff : Ob.islState (i - 1) ≠ Ob.islLastResetCause (i - 1) ∧ Ob.islState (i - 1) ≠ Ob.islResets (i - 1) := by
    unfold Ob.islState Ob.islLastResetCause Ob.islResets
    omega
  by_cases hc : decide (c < 4) = true
  · rw [if_pos hc, Dev.reg_setN, if_neg hdiff.1, Dev.reg_bump, if_neg hdiff.2, Dev.reg_set, if_pos rfl]
  · rw [if_neg hc, Dev.reg_set, if_pos rfl]

/-- A reset is counted, with its cause. -/
theorem Dev.emptyIsland_counts (d : Dev) (i : Nat) {c : Nat} (hcause : (kvGet d.islCause i).getD 1 = c) (hc : c < 4) :
    (d.emptyIsland i).reg (Ob.islLastResetCause (i - 1)) = (c : Nat)
      ∧ (d.emptyIsland i).reg (Ob.islResets (i - 1)) = wrapTy (keyTy (Ob.islResets (i - 1))) (d.reg (Ob.islResets (i - 1)) + 1) := by
  unfold Dev.emptyIsland Dev.when
  dsimp only
  have hdiff : Ob.islResets (i - 1) ≠ Ob.islLastResetCause (i - 1) ∧ Ob.islResets (i - 1) ≠ Ob.islState (i - 1) := by
    unfold Ob.islState Ob.islLastResetCause Ob.islResets
    omega
  rw [hcause, if_pos (decide_eq_true hc), Dev.reg_setN, if_pos rfl, Dev.reg_setN, if_neg hdiff.1, Dev.reg_bump, if_pos rfl,
    Dev.reg_set, if_neg hdiff.2]
  exact ⟨rfl, rfl⟩

theorem Dev.emptyIsland_other (d : Dev) (i : Nat) {k : Nat} (hs : k ≠ Ob.islState (i - 1)) (hr : k ≠ Ob.islResets (i - 1))
    (hc : k ≠ Ob.islLastResetCause (i - 1)) : (d.emptyIsland i).reg k = d.reg k := by
  unfold Dev.emptyIsland Dev.when
  dsimp only
  split
  · rw [Dev.reg_setN, if_neg hc, Dev.reg_bump, if_neg hr, Dev.reg_set, if_neg hs]
  · rw [Dev.reg_set, if_neg hs]

theorem Dev.emptyIsland_steady (d : Dev) (i : Nat) : Steady d (d.emptyIsland i) := by
  unfold Dev.emptyIsland Dev.when
  dsimp only
  split <;> exact ⟨rfl, rfl⟩

theorem Dev.noteReturn_reg (d : Dev) (i k : Nat) : (d.noteReturn i).reg k = d.reg k := rfl

/-- The return of an island: the state, the incarnation and the stamp. -/
theorem Dev.returnIsland_reg (d : Dev) (i : Nat) {k : Nat} (hk : ¬ BookKey k) :
    (d.returnIsland i).reg k = if k = Ob.islLastReturnStamp (i - 1) then (d.now : Int)
      else if k = Ob.islState (i - 1) then 0
      else if k = Ob.islIncarnation (i - 1) then ((d.nat (Ob.islIncarnation (i - 1)) + 1) % 256 : Nat) else d.reg k := by
  unfold Dev.returnIsland
  dsimp only
  rw [Dev.event_reg _ _ hk, Dev.reg_setN, Dev.noteReturn_reg]
  refine if_congr Iff.rfl rfl ?_
  show ((d.setN (Ob.islIncarnation (i - 1)) _).set (Ob.islState (i - 1)) 0).reg k = _
  rw [Dev.reg_set, Dev.reg_setN]

theorem Dev.returnIsland_sol (d : Dev) (i : Nat) : (d.returnIsland i).sol = d.sol :=
  (Dev.event_within (M := 0) (by exact rfl) (.refl _) _).sol rfl

theorem Dev.returnIsland_pow (d : Dev) (i : Nat) : (d.returnIsland i).pow = d.pow := (Dev.event_answered _ _).pow

end Sys2Proof.Machine
end

section
/-! What an island's own work leaves alone when its boundary closes or opens. A filter change that waited in MIX may set any
object, so MIX leaves the registers of the islands' record alone where no filter change waits. -/
namespace Sys2Proof.Machine

theorem Steady.event {a d : Dev} (h : Steady a d) (ev : Ev) : Steady a (d.event ev) := h.trans ((Spares.refl d).event ev).toSteady

theorem Steady.keep {a d e : Dev} (h : Steady a d) (hc : e.islCause = d.islCause) (hp : e.pow.live = d.pow.live) : Steady a e :=
  h.trans ⟨hc, hp⟩

theorem Steady.pouredAt {a d : Dev} (h : Steady a d) (k t : Nat) : Steady a (d.pouredAt k t) := by
  unfold Dev.pouredAt
  dsimp only
  split
  · split
    · refine Steady.event ?_ _
      exact h.keep rfl rfl
    · exact h.keep rfl rfl
  · exact h.keep rfl rfl

theorem Steady.commitFlip {a d : Dev} (h : Steady a d) (n uid : Nat) (vals : List (Nat × Int)) :
    Steady a (d.commitFlip n uid vals) := by
  unfold Dev.commitFlip
  dsimp only
  split
  · exact h
  · split
    · split <;> exact h.keep rfl rfl
    · exact h.keep rfl rfl

theorem Steady.onPour {a d : Dev} (h : Steady a d) (n : Nat) (f : Pour → Pour) : Steady a (d.onPour n f) := h.keep rfl rfl

theorem Steady.startFilter {a d : Dev} (h : Steady a d) (w : FilterWait) (j : Nat) : Steady a (d.startFilter w j) := by
  unfold Dev.startFilter
  dsimp only
  split
  · exact h.keep rfl rfl
  · refine Steady.commitFlip (Steady.onPour (Steady.each ?_ fun d _ h => h.pouredAt _ _) _ _) _ _ _
    have hvals : Steady a (d.each w.vals fun d kv => (d.set kv.1 kv.2).bumpVer kv.1) := h.each fun _ _ h => h.keep rfl rfl
    exact hvals.keep rfl rfl

theorem Steady.mixStops {a d : Dev} (h : Steady a d) : Steady a d.mixStops := by
  unfold Dev.mixStops
  dsimp only
  generalize hd : Dev.each (d.onMix _) _ _ = e
  have he : Steady a e := by
    rw [← hd]
    refine Steady.each ?_ fun d w h => h.startFilter w _
    exact h.keep rfl rfl
  refine he.trans (Spares.toSteady ?_)
  refine Spares.routesSilent (Spares.completePours (Spares.each ?_ fun _ _ _ h => h.endFade _))
  exact (Spares.refl e).keep rfl rfl rfl

namespace Spares
variable {a d : Dev}

theorem mixStops (h : Spares a d) (hf : d.mix.filters = []) : Spares a d.mixStops := by
  unfold Dev.mixStops
  dsimp only
  rw [hf]
  refine Spares.routesSilent (Spares.completePours (Spares.each ?_ fun _ _ _ h => h.endFade _))
  exact h.keep rfl rfl rfl

theorem ethLink (h : Spares a d) {i : Nat} (hi : i = Isl.eta ∨ i = Isl.etb) (v : Int) :
    Spares a (d.set (Ob.ethLinkState (i - Isl.eta)) v) := by
  refine h.set ?_ v
  rcases hi with rfl | rfl <;> decide

theorem islandStops (h : Spares a d) (i : Nat) (hf : i = Isl.mix → d.mix.filters = []) : Spares a (d.islandStops i) := by
  unfold Dev.islandStops
  split
  · exact h.endSessions _ _
  split
  · exact h.abandonDie _
  split
  next hi => exact h.mixStops (hf hi)
  split
  · exact h.anaQuiesced
  split
  next hi => exact (((h.ethLink hi 2).portDown _).ptpPortCheck _).refreshSlots _
  split
  · exact h.virekCut
  split
  · exact h.refreshSlots _
  split
  · exact h.refreshChannels
  · exact h

theorem islandStarts (h : Spares a d) (i : Nat) (hs : i = Isl.sol → d.sol.batch = none) : Spares a (d.islandStarts i) := by
  unfold Dev.islandStarts
  split
  · exact h.tmgReturns
  split
  · exact h.anaReturns
  split
  next hi =>
    unfold Dev.abandonBatch
    rw [hs hi]
    exact h
  split
  · exact h.mixReturns
  split
  · exact h.qmgReturns
  split
  · refine h.each fun d y hy h => h.when fun h => h.set ?_ 1
    simp only [List.mem_cons, List.not_mem_nil, or_false] at hy
    rcases hy with rfl | rfl <;> decide
  split
  next hi => exact (h.ethLink hi 0).refreshSlots _
  split
  · exact h.refreshSlots _
  split
  · exact h.refreshChannels
  · exact h

end Spares

theorem Steady.islandStops {a d : Dev} (h : Steady a d) (i : Nat) : Steady a (d.islandStops i) := by
  by_cases hi : i = Isl.mix
  · subst hi
    exact h.mixStops
  · exact h.trans ((Spares.refl d).islandStops i fun h => absurd h hi).toSteady

theorem Dev.quiesce_islCause (d : Dev) (i cause : Nat) : (d.quiesce i cause).islCause = kvPut d.islCause i cause :=
  ((Steady.refl _).islandStops i).islCause.trans (d.closeIsland_islCause i cause)

theorem Dev.quiesce_live (d : Dev) (i cause : Nat) : (d.quiesce i cause).pow.live = d.pow.live :=
  ((Steady.refl _).islandStops i).live.trans (congrArg PowRt.live (d.closeIsland_pow i cause))

/-- A quiesce writes, of the islands' record, the island's state. -/
theorem Dev.quiesce_reg (d : Dev) (i cause : Nat) (hf : i = Isl.mix → d.mix.filters = []) {k : Nat} (hk : IslandObj k) :
    (d.quiesce i cause).reg k = if k = Ob.islState (i - 1) then 2 else d.reg k := by
  have hstops : Spares (d.closeIsland i cause) (d.quiesce i cause) := (Spares.refl _).islandStops i fun hi => by
    rw [d.closeIsland_mix i cause, hf hi]
  exact (hstops.reg k hk).trans (d.closeIsland_reg i cause hk.not_book)

/-- The live update goes on with the islands that run or are stopped. -/
theorem Dev.nextLive_live (d : Dev) : d.nextLive.pow.live = d.pow.live.filter fun i => decide (d.isl i ≤ 1) := by
  unfold Dev.nextLive
  dsimp only
  split
  · rfl
  · exact Dev.quiesce_live _ _ _

/-- Replacing the next island writes, of the islands' record, the state of one of those that the update has still to replace. -/
theorem Dev.nextLive_reg (d : Dev) (hf : Isl.mix ∈ d.pow.live → d.mix.filters = []) {k : Nat} (hk : IslandObj k)
    (hlive : ∀ x ∈ d.pow.live, k ≠ Ob.islState (x - 1)) : d.nextLive.reg k = d.reg k := by
  unfold Dev.nextLive
  dsimp only
  split
  · rfl
  next x l hl =>
    have hx : x ∈ d.pow.live := (List.mem_filter.1 (hl ▸ List.mem_cons_self)).1
    exact (Dev.quiesce_reg (d.onPow _) x 3 (fun hi => hf (hi ▸ hx)) hk).trans (if_neg (hlive x hx))

end Sys2Proof.Machine
end

section
/-! Island faults (19_power_dies R396, 10_cupper_fallback R220): a restart, a quiesce, or the cupper's reset at once. -/
namespace Sys2Proof.Machine

/-- While the pair may not be on, both pins of it are off once a command is done. -/
theorem Dev.settle_pins_off {d : Dev} (h : d.pairOn = false) (d0 : Dev) :
    (d0.settle d).pins.safeA = false ∧ (d0.settle d).pins.safeB = false := by
  have hdriven : ∀ e : Dev, ((e.driveSafe 0 false).driveSafe 1 false).pins.safeA = false
      ∧ ((e.driveSafe 0 false).driveSafe 1 false).pins.safeB = false := fun e => by
    unfold Dev.driveSafe Dev.drivePin
    cases ha : e.pins.safeA <;> cases hb : e.pins.safeB <;> simp [ha, hb, Dev.onSafe, Dev.onPins, Dev.send]
  have hpair : d.pairDriven.pins.safeA = false ∧ d.pairDriven.pins.safeB = false := by
    unfold Dev.pairDriven
    rw [h]
    exact hdriven _
  show d.refreshSafe.pins.safeA = false ∧ d.refreshSafe.pins.safeB = false
  rw [Dev.refreshSafe_eq]
  split <;> exact hpair

/-- A restart that drives the outputs to their safe values: start-up begins again in SUPPLY, and the pair is off. -/
theorem Dev.safeRestart_restarts (d0 d : Dev) (ev : Ev) (cause : Nat) :
    (d0.settle (d.safeRestart ev cause)).reg Ob.bootPhase = 1 ∧ (d0.settle (d.safeRestart ev cause)).reg Ob.bootCause = (cause : Nat)
      ∧ (d0.settle (d.safeRestart ev cause)).pins.safeA = false ∧ (d0.settle (d.safeRestart ev cause)).pins.safeB = false := by
  have hphase : (d.safeRestart ev cause).reg Ob.bootPhase = 1 := by
    unfold Dev.safeRestart Dev.fullReset
    rw [Dev.reg_setN, if_neg (by decide), Dev.reg_setN, if_pos rfl]
    rfl
  have hcause : (d.safeRestart ev cause).reg Ob.bootCause = (cause : Nat) := by
    unfold Dev.safeRestart Dev.fullReset
    rw [Dev.reg_setN, if_pos rfl]
  have hoff : (d.safeRestart ev cause).pairOn = false := by
    unfold Dev.pairOn Dev.running Dev.nat
    rw [hphase]
    rfl
  rw [Dev.settle_reg _ _ (by decide), Dev.settle_reg _ _ (by decide)]
  exact ⟨hphase, hcause, Dev.settle_pins_off hoff d0⟩

theorem Dev.isl_congr {d e : Dev} (h : ∀ k, IslandObj k → e.reg k = d.reg k) {i : Nat} (hi : 1 ≤ i ∧ i ≤ 25) : e.isl i = d.isl i :=
  h _ (by unfold IslandObj Ob.islState; omega)

theorem islState_island {i : Nat} (hi : 1 ≤ i ∧ i ≤ 25) : IslandObj (Ob.islState (i - 1)) := by
  unfold IslandObj Ob.islState
  omega

theorem clockStatus_island {i : Nat} (hi : 1 ≤ i ∧ i ≤ 25) : IslandObj (Ob.islandClockStatus (i - 1)) := by
  unfold IslandObj Ob.islandClockStatus
  omega

/-- What a quiesce for `cause` leaves of the islands' record: the cause, the state `st`, and every clock's status. -/
structure Dev.Quiesced (d : Dev) (i cause : Nat) (st : Int) (d' : Dev) : Prop where
  islCause : kvGet d'.islCause i = some cause
  isl : (i = Isl.mix → d.mix.filters = []) → d'.isl i = st
  clock : (i = Isl.mix → d.mix.filters = []) → ∀ n, n < 25 → d'.reg (Ob.islandClockStatus n) = d.reg (Ob.islandClockStatus n)

theorem Dev.Quiesced.trans {d e f : Dev} {i cause : Nat} {st : Int} (h : d.Quiesced i cause st e) (k : Spares e f)
    (hi : 1 ≤ i ∧ i ≤ 25) : d.Quiesced i cause st f where
  islCause := by rw [k.islCause, h.islCause]
  isl hf := (Dev.isl_congr k.reg hi).trans (h.isl hf)
  clock hf n hn := (k.reg _ (by unfold IslandObj Ob.islandClockStatus; omega)).trans (h.clock hf n hn)

theorem Dev.quiesce_quiesced (d : Dev) {i : Nat} (hi : 1 ≤ i ∧ i ≤ 25) (cause : Nat) : d.Quiesced i cause 2 (d.quiesce i cause) where
  islCause := by rw [d.quiesce_islCause, kvGet_kvPut, if_pos rfl]
  isl hf := (d.quiesce_reg i cause hf (islState_island hi)).trans (if_pos rfl)
  clock hf n hn := (d.quiesce_reg i cause hf (by unfold IslandObj Ob.islandClockStatus; omega)).trans
    (if_neg (by unfold Ob.islandClockStatus Ob.islState; omega))

theorem clockStatus_differs (n i : Nat) (hn : n < 25) : Ob.islandClockStatus n ≠ Ob.cupperState
    ∧ Ob.islandClockStatus n ≠ Ob.islState i ∧ Ob.islandClockStatus n ≠ Ob.islResets i
    ∧ Ob.islandClockStatus n ≠ Ob.islLastResetCause i := by
  unfold Ob.islandClockStatus Ob.cupperState Ob.islState Ob.islResets Ob.islLastResetCause
  omega

/-- A fault of the cupper is logged and counted, and CupperState reads FAULT. -/
def Dev.cupperFaults (d : Dev) (ev : Ev) : Dev := ((d.event ev).bump Ob.lockstepFaults).set Ob.cupperState 2

theorem Dev.cupperFaults_reg (d : Dev) (ev : Ev) {k : Nat} (hk : IslandObj k) :
    (d.cupperFaults ev).reg k = if k = Ob.cupperState then 2 else d.reg k := by
  have hcount : k ≠ Ob.lockstepFaults := fun h => absurd (h ▸ hk) (by decide)
  unfold Dev.cupperFaults
  rw [Dev.reg_set, Dev.reg_bump, if_neg hcount, Dev.event_reg _ _ hk.not_book]

theorem Dev.cupperFaults_islCause (d : Dev) (ev : Ev) : (d.cupperFaults ev).islCause = d.islCause := (d.event_answered ev).islCause

theorem Dev.Quiesced.cupperFaults {d e : Dev} {i cause : Nat} {st : Int} (h : d.Quiesced i cause st e) (hi : 1 ≤ i ∧ i ≤ 25)
    (ev : Ev) : d.Quiesced i cause st (e.cupperFaults ev) where
  islCause := by rw [e.cupperFaults_islCause, h.islCause]
  isl hf := ((e.cupperFaults_reg ev (islState_island hi)).trans (if_neg (by unfold Ob.islState Ob.cupperState; omega))).trans
    (h.isl hf)
  clock hf n hn := ((e.cupperFaults_reg ev (by unfold IslandObj Ob.islandClockStatus; omega)).trans
    (if_neg (clockStatus_differs n 0 hn).1)).trans (h.clock hf n hn)

/-- The cupper's island closes and goes into reset in one step. -/
theorem Dev.cupperResets_quiesced (d : Dev) :
    d.Quiesced Isl.cup 2 3 ((d.closeIsland Isl.cup 2).emptyIsland Isl.cup)
      ∧ ((d.closeIsland Isl.cup 2).emptyIsland Isl.cup).reg Ob.cupperState = d.reg Ob.cupperState := by
  have hcause : kvGet (d.closeIsland Isl.cup 2).islCause Isl.cup = some 2 := by
    rw [d.closeIsland_islCause, kvGet_kvPut, if_pos rfl]
  have hother : ∀ k, IslandObj k → k ≠ Ob.islState (Isl.cup - 1) → k ≠ Ob.islResets (Isl.cup - 1) →
      k ≠ Ob.islLastResetCause (Isl.cup - 1) → ((d.closeIsland Isl.cup 2).emptyIsland Isl.cup).reg k = d.reg k :=
    fun k hk hs hr hl => by rw [Dev.emptyIsland_other _ _ hs hr hl, d.closeIsland_reg _ _ hk.not_book, if_neg hs]
  refine ⟨⟨?_, fun _ => ?_, fun _ n hn => ?_⟩, hother _ (by decide) (by decide) (by decide) (by decide)⟩
  · rw [(Dev.emptyIsland_steady _ _).islCause, hcause]
  · refine (Dev.emptyIsland_state _ Isl.cup).trans ?_
    rw [hcause]
    rfl
  · obtain ⟨-, hstate, hresets, hlast⟩ := clockStatus_differs n (Isl.cup - 1) hn
    exact hother _ (by unfold IslandObj Ob.islandClockStatus; omega) hstate hresets hlast

/-- The cupper's first fault: it is reset at once. -/
theorem Dev.lockstepFault_quiesced (d : Dev) (kind : Nat) :
    d.Quiesced Isl.cup 2 3 (d.lockstepFault kind) ∧ (d.lockstepFault kind).reg Ob.cupperState = 2 := by
  unfold Dev.lockstepFault
  generalize ({ code := 0x7001, island := Isl.cup, d1 := kind, mirror := true } : Ev) = ev
  have heq : (((((d.event ev).bump Ob.lockstepFaults).set Ob.cupperState 2).closeIsland Isl.cup 2).emptyIsland Isl.cup).refreshChannels
      = (((d.cupperFaults ev).closeIsland Isl.cup 2).emptyIsland Isl.cup).refreshChannels := rfl
  rw [heq]
  obtain ⟨hquiet, hstate⟩ := (d.cupperFaults ev).cupperResets_quiesced
  have hchannels := (Spares.refl (((d.cupperFaults ev).closeIsland Isl.cup 2).emptyIsland Isl.cup)).refreshChannels
  refine ⟨Dev.Quiesced.trans ⟨hquiet.islCause, fun _ => hquiet.isl fun h => absurd h (by decide), fun _ n hn => ?_⟩ hchannels
    (by decide), ?_⟩
  · rw [hquiet.clock (fun h => absurd h (by decide)) n hn, d.cupperFaults_reg ev (by unfold IslandObj Ob.islandClockStatus; omega),
      if_neg (clockStatus_differs n 0 hn).1]
  · rw [hchannels.reg _ (by decide), hstate, d.cupperFaults_reg ev (by decide), if_pos rfl]

/-- A second fault within a second: the island is to be held. -/
theorem Dev.event_quiesce_quiesced (d : Dev) {i : Nat} (hi : 1 ≤ i ∧ i ≤ 25) (ev : Ev) (cause : Nat) :
    d.Quiesced i cause 2 ((d.event ev).quiesce i cause) := by
  have h := (d.event ev).quiesce_quiesced hi cause
  have hmix := d.event_mix ev
  refine ⟨h.islCause, fun hf => h.isl (by rwa [hmix]), fun hf n hn => (h.clock (by rwa [hmix]) n hn).trans ?_⟩
  exact ((Spares.refl d).event ev).reg _ (by unfold IslandObj Ob.islandClockStatus; omega)

/-- The first fault of an island: it resets once, the cupper at once. -/
theorem Dev.faultIsland_first {d : Dev} {i : Nat} (hroot : ¬ (i = Isl.fio ∨ i = Isl.pci)) (hq : d.quiesced i = false)
    (hagain : d.faultedAgain i = false) : d.faultIsland i = if i = Isl.cup then d.lockstepFault 1 else d.quiesce i 2 := by
  unfold Dev.faultIsland
  rw [if_neg hroot, hq, if_neg Bool.false_ne_true, hagain, if_neg Bool.false_ne_true]

/-- The second fault of an island: it is to be held. -/
theorem Dev.faultIsland_again {d : Dev} {i : Nat} (hroot : ¬ (i = Isl.fio ∨ i = Isl.pci)) (hq : d.quiesced i = false)
    (hagain : d.faultedAgain i = true) :
    d.faultIsland i = ((d.event { code := 0x8042, island := i, d1 := i, mirror := true }).quiesce i 5).when (i == Isl.cup)
      fun d => (d.cupperFaults { code := 0x7001, island := Isl.cup, d1 := 1, mirror := true }).refreshChannels := by
  unfold Dev.faultIsland
  rw [if_neg hroot, hq, if_neg Bool.false_ne_true, if_pos hagain]
  rfl

theorem Dev.when_true (d : Dev) (f : Dev → Dev) : d.when true f = f d := rfl

theorem Dev.when_false (d : Dev) (f : Dev → Dev) : d.when false f = d := rfl

/-- A fault of an island that is not quiesced, FIO and PCI apart. -/
theorem Dev.faultIsland_quiesced {d : Dev} {i : Nat} (hi : 1 ≤ i ∧ i ≤ 25) (hroot : ¬ (i = Isl.fio ∨ i = Isl.pci))
    (hq : d.quiesced i = false) :
    d.Quiesced i (if d.faultedAgain i = true then 5 else 2) (if i = Isl.cup ∧ d.faultedAgain i = false then 3 else 2) (d.faultIsland i)
      ∧ (i = Isl.cup → (d.faultIsland i).reg Ob.cupperState = 2) := by
  cases hagain : d.faultedAgain i with
  | true =>
    rw [Dev.faultIsland_again hroot hq hagain, if_pos rfl, if_neg fun h => absurd h.2 (by decide)]
    have hheld := d.event_quiesce_quiesced hi { code := 0x8042, island := i, d1 := i, mirror := true } 5
    generalize (d.event { code := 0x8042, island := i, d1 := i, mirror := true }).quiesce i 5 = e at hheld ⊢
    generalize ({ code := 0x7001, island := Isl.cup, d1 := 1, mirror := true } : Ev) = ev
    by_cases hc : i = Isl.cup
    · rw [beq_iff_eq.2 hc, Dev.when_true]
      have hchannels := (Spares.refl (e.cupperFaults ev)).refreshChannels
      exact ⟨(hheld.cupperFaults hi ev).trans hchannels hi, fun _ =>
        (hchannels.reg _ (by decide)).trans ((e.cupperFaults_reg ev (by decide)).trans (if_pos rfl))⟩
    · rw [beq_false_of_ne hc, Dev.when_false]
      exact ⟨hheld, fun h => absurd h hc⟩
  | false =>
    rw [Dev.faultIsland_first hroot hq hagain, if_neg Bool.false_ne_true]
    by_cases hc : i = Isl.cup
    · subst hc
      rw [if_pos rfl, if_pos ⟨rfl, rfl⟩]
      exact ⟨(d.lockstepFault_quiesced 1).1, fun _ => (d.lockstepFault_quiesced 1).2⟩
    · rw [if_neg hc, if_neg fun h => hc h.1]
      exact ⟨d.quiesce_quiesced hi 2, fun h => absurd h hc⟩

/-- The fault of an island, on a device `e` that differs from `d` in nothing that decides what follows. -/
theorem Dev.faultIsland_faults {d e : Dev} {i : Nat} (hi : 1 ≤ i ∧ i ≤ 25) (hq : d.quiesced i = false → e.quiesced i = false)
    (ha : e.faultedAgain i = d.faultedAgain i) (hm : e.mix = d.mix) (hself : d.quiesced i = true → e = d) (d0 : Dev) :
    d.IslandFaults i (d0.settle (e.faultIsland i)) := by
  unfold Dev.IslandFaults
  by_cases hroot : i = Isl.fio ∨ i = Isl.pci
  · rw [if_pos hroot]
    unfold Dev.faultIsland
    rw [if_pos hroot]
    exact Dev.safeRestart_restarts _ _ _ 8
  · rw [if_neg hroot]
    cases hquiet : d.quiesced i with
    | true =>
      rw [if_pos rfl, hself hquiet]
      unfold Dev.faultIsland
      rw [if_neg hroot, hquiet, if_pos rfl]
      exact fun k _ hs _ => Dev.settle_reg d0 d hs
    | false =>
      rw [if_neg Bool.false_ne_true]
      obtain ⟨hquiesced, hcupper⟩ := Dev.faultIsland_quiesced hi hroot (hq hquiet)
      obtain ⟨hcause, hisl, -⟩ := hquiesced.trans (Spares.settle (Spares.refl _) d0) hi
      rw [ha] at hcause hisl
      rw [hm] at hisl
      exact ⟨hcause, hisl, fun hc => (Dev.settle_reg _ _ (by decide)).trans (hcupper hc)⟩

theorem islandWatchdogExpiry_runs {s : State} (island : Fin 25) (hb : 2 ≤ s.dev.nat Ob.bootPhase) :
    Runs (.islandWatchdogExpiry island) s fun d => s.dev.IslandFaults ((island : Nat) + 1) d := by
  refine Runs.of_onDev (show execIslandWatchdogExpiry island s = onDev _ s from rfl) ?_
  rw [if_neg (by omega)]
  exact Dev.faultIsland_faults (by omega) id rfl rfl (fun _ => rfl) _

end Sys2Proof.Machine
end

section
/-! The clock monitor (03_timing_unit R63). -/
namespace Sys2Proof.Machine

/-- The clock of island `i` fails: its status, and 0x102A. -/
def Dev.clockFails (d : Dev) (i : Nat) : Dev :=
  (d.set (Ob.islandClockStatus (i - 1)) 2).event { code := 0x102A, island := Isl.tmg, d1 := i }

theorem Dev.clockFails_reg (d : Dev) (i : Nat) {k : Nat} (hk : ¬ BookKey k) :
    (d.clockFails i).reg k = if k = Ob.islandClockStatus (i - 1) then 2 else d.reg k :=
  (Dev.event_reg _ _ hk).trans (Dev.reg_set _ _ _ _)

theorem Dev.clockFails_isl (d : Dev) {i : Nat} (hi : 1 ≤ i ∧ i ≤ 25) : (d.clockFails i).isl i = d.isl i :=
  (d.clockFails_reg i (islState_island hi).not_book).trans
    (if_neg (by unfold Ob.islState Ob.islandClockStatus; omega))

theorem Dev.clockFails_mix (d : Dev) (i : Nat) : (d.clockFails i).mix = d.mix := Dev.event_mix _ _

theorem Dev.clockFails_faultedAgain (d : Dev) {i : Nat} (hi : 1 ≤ i ∧ i ≤ 25) :
    (d.clockFails i).faultedAgain i = d.faultedAgain i := by
  have hcause : (d.clockFails i).reg (Ob.islLastResetCause (i - 1)) = d.reg (Ob.islLastResetCause (i - 1)) :=
    (d.clockFails_reg i (IslandObj.not_book (by unfold IslandObj Ob.islLastResetCause; omega))).trans
      (if_neg (by unfold Ob.islLastResetCause Ob.islandClockStatus; omega))
  have htimes : (d.clockFails i).islAt = d.islAt := by
    unfold Dev.clockFails
    simp
  have htl : (d.clockFails i).tl = d.tl := (Dev.event_within (M := 0) (by exact rfl) (.refl _) _).tl rfl
  unfold Dev.faultedAgain Dev.nat Dev.ago Dev.ext
  rw [hcause, htimes, htl]

/-- What the clock monitor does with a clock whose count is outside 1 %. -/
def Dev.clockFault (d : Dev) (i : Nat) : Dev :=
  if d.nat Ob.bootPhase < 2 || !d.flag Ob.rootLocked then d
  else if i = 0 then (d.event { code := 0x102A, island := Isl.tmg }).faultIsland Isl.fio
  else if d.isl i != 0 then d
  else (d.clockFails i).faultIsland i

theorem execClockMonitorWindow_deviates {k c : Nat} (hk : k ≤ 26) (hd : deviates (k, c) = true) (s : State) :
    exec (.clockMonitorWindow [(k, c)]) s = onDev (fun d => d.clockFault (if k = 26 then Isl.cup else k)) s := by
  show execClockMonitorWindow [(k, c)] s = _
  unfold execClockMonitorWindow
  rw [List.filter_cons_of_pos (by simp [hk, hd])]
  rfl

theorem execClockMonitorWindow_agrees {k c : Nat} (hd : deviates (k, c) = false) (s : State) :
    exec (.clockMonitorWindow [(k, c)]) s = onDev (fun d => d) s := by
  show execClockMonitorWindow [(k, c)] s = _
  unfold execClockMonitorWindow
  rw [List.filter_cons_of_neg (by simp [hd])]
  rfl

/-- A command that changes nothing of the device settles it, and no register moves. -/
theorem Runs.of_idle {i : Instr} {s : State} {f : Dev → Dev} (h : exec i s = onDev f s) (hf : f s.dev = s.dev) :
    Runs i s fun d => s.dev.KeepsRegs d [] :=
  Runs.of_onDev h (by rw [hf]; exact fun k _ hs _ => Dev.settle_reg _ _ hs)

theorem Dev.clockFault_root {d : Dev} (hb : 2 ≤ d.nat Ob.bootPhase) (hl : d.flag Ob.rootLocked = true) :
    d.clockFault 0 = (d.event { code := 0x102A, island := Isl.tmg }).safeRestart { code := 0x8043, d1 := (Isl.fio : Nat) } 8 := by
  unfold Dev.clockFault Dev.faultIsland
  rw [if_neg (by rw [hl, decide_eq_false (Nat.not_lt.2 hb)]; decide), if_pos rfl, if_pos (.inl rfl)]

theorem Dev.clockFault_running {d : Dev} {i : Nat} (hi : i ≠ 0) (hrun : d.isl i = 0) (hb : 2 ≤ d.nat Ob.bootPhase)
    (hl : d.flag Ob.rootLocked = true) : d.clockFault i = (d.clockFails i).faultIsland i := by
  unfold Dev.clockFault
  rw [if_neg (by rw [hl, decide_eq_false (Nat.not_lt.2 hb)]; decide), if_neg hi, hrun]
  rfl

/-- An island that a power state or a quiesce has stopped is passed over (log 119). -/
theorem Dev.clockFault_stopped {d : Dev} {i : Nat} (hi : i ≠ 0) (hstop : d.isl i ≠ 0) : d.clockFault i = d := by
  unfold Dev.clockFault
  rw [if_neg hi, if_pos (bne_iff_ne.2 hstop), ite_self]

/-- A fault of the root's clock is one of FIO. -/
theorem clockMonitorWindow_root {s : State} {c : Nat} (hd : deviates (0, c) = true) (hb : 2 ≤ s.dev.nat Ob.bootPhase)
    (hl : s.dev.flag Ob.rootLocked = true) : Runs (.clockMonitorWindow [(0, c)]) s fun d => s.dev.IslandFaults Isl.fio d := by
  refine Runs.of_onDev (execClockMonitorWindow_deviates (by omega) hd s) ?_
  rw [if_neg (by decide), Dev.clockFault_root hb hl]
  exact Dev.safeRestart_restarts _ _ _ 8

/-- A fault of the clock of an island that runs. -/
theorem clockMonitorWindow_faults {s : State} {k c i : Nat} (hk : k ≤ 26) (hi : i = if k = 26 then Isl.cup else k)
    (hd : deviates (k, c) = true) (hk0 : k ≠ 0) (hrun : s.dev.isl i = 0) (hb : 2 ≤ s.dev.nat Ob.bootPhase)
    (hl : s.dev.flag Ob.rootLocked = true) :
    Runs (.clockMonitorWindow [(k, c)]) s fun d => s.dev.IslandFaults i d
      ∧ (i ≠ Isl.fio → i ≠ Isl.pci → (i = Isl.mix → s.dev.mix.filters = []) → d.reg (Ob.islandClockStatus (i - 1)) = 2) := by
  have hrange : 1 ≤ i ∧ i ≤ 25 := by
    rw [hi]
    split
    · decide
    · omega
  refine Runs.of_onDev (execClockMonitorWindow_deviates hk hd s) ?_
  rw [← hi]
  have hquiet : s.dev.quiesced i = false := by
    unfold Dev.quiesced
    rw [hrun]
    rfl
  have hstill : (s.dev.clockFails i).quiesced i = false := by
    unfold Dev.quiesced
    rw [s.dev.clockFails_isl hrange, hrun]
    rfl
  rw [Dev.clockFault_running (by omega) hrun hb hl]
  refine ⟨Dev.faultIsland_faults hrange (fun _ => hstill) (s.dev.clockFails_faultedAgain hrange) (s.dev.clockFails_mix i)
    (fun h => absurd (h.symm.trans hquiet) (by decide)) _, fun hfio hpci hf => ?_⟩
  have hfault := (Dev.faultIsland_quiesced hrange (fun h => h.elim hfio hpci) hstill).1
  have hstatus : ¬ BookKey (Ob.islandClockStatus (i - 1)) := (clockStatus_island hrange).not_book
  rw [Dev.settle_reg _ _ (by unfold Ob.islandClockStatus Ob.safeOutputState; omega),
    hfault.clock (fun h => by rw [s.dev.clockFails_mix i, hf h]) (i - 1) (by omega), s.dev.clockFails_reg i hstatus, if_pos rfl]

/-- A count within 1 %, or of an island that is not to run, changes nothing. -/
theorem clockMonitorWindow_idle {s : State} {k c i : Nat} (hk : k ≤ 26) (hi : i = if k = 26 then Isl.cup else k)
    (h : deviates (k, c) = false ∨ k ≠ 0 ∧ s.dev.isl i ≠ 0) :
    Runs (.clockMonitorWindow [(k, c)]) s fun d => s.dev.KeepsRegs d [] := by
  cases hd : deviates (k, c) with
  | false => exact Runs.of_idle (execClockMonitorWindow_agrees hd s) rfl
  | true =>
    obtain ⟨hk0, hstop⟩ := h.resolve_left (by rw [hd]; decide)
    refine Runs.of_idle (execClockMonitorWindow_deviates hk hd s) ?_
    have hi0 : i ≠ 0 := by
      rw [hi]
      split
      · decide
      · exact hk0
    rw [← hi, Dev.clockFault_stopped hi0 hstop]

end Sys2Proof.Machine
end

section
/-! Island control and the quiesce fences (19_power_dies R393-R395). -/
namespace Sys2Proof.Machine

/-- Stale replies are counted (R394). -/
theorem staleReplyReceived_runs (s : State) (island : Fin 25) (inc : Nat) :
    Runs (.staleReplyReceived island inc) s fun d =>
      d.reg (Ob.islStaleDiscarded island) = (if s.dev.nat (Ob.islIncarnation island) = inc then s.dev.reg (Ob.islStaleDiscarded island)
          else wrapTy (keyTy (Ob.islStaleDiscarded island)) (s.dev.reg (Ob.islStaleDiscarded island) + 1))
        ∧ s.dev.KeepsRegs d [Ob.islStaleDiscarded island] := by
  refine Runs.of_onDev (show execStaleReplyReceived island inc s = onDev _ s from rfl) ?_
  have hsafe : Ob.islStaleDiscarded island ≠ Ob.safeOutputState := by
    unfold Ob.islStaleDiscarded Ob.safeOutputState
    omega
  by_cases h : s.dev.nat (Ob.islIncarnation island) = inc
  · rw [if_pos h, if_pos h]
    exact ⟨Dev.settle_reg _ _ hsafe, fun k _ hs _ => Dev.settle_reg _ _ hs⟩
  · rw [if_neg h, if_neg h]
    refine ⟨?_, fun k _ hs hn => ?_⟩
    · rw [Dev.settle_reg _ _ hsafe, Dev.reg_bump, if_pos rfl]
    · rw [Dev.settle_reg _ _ hs, Dev.reg_bump, if_neg fun e => hn (List.mem_singleton.2 e)]

end Sys2Proof.Machine
end

section
/-! Island control and the empty boundary (19_power_dies R390, R393, R395). -/
namespace Sys2Proof.Machine

/-- The islands on the device that has answered a control write that passed its checks. -/
structure Dev.Controlled (d f : Dev) : Prop where
  reg : ∀ k, ¬ BookKey k → f.reg k = d.reg k
  mix : f.mix = d.mix

theorem Dev.Controlled.of_answer {d e : Dev} (h : d.Passed e) (hd : Hdr) (cond : Option Nat) (idx sub : Nat) (v : Bytes)
    (se : Session) : d.Controlled (e.finishWrite hd cond idx sub v se) where
  reg k hk := (e.finishWrite_reg hd cond idx sub v se hk).trans (h.reg k)
  mix := ((Dev.finishWrite_within (M := 6291968) (by exact rfl) (.refl e) hd cond idx sub v se).mix rfl).trans (by rw [h.eq])

/-- A write of an island's control is answered before it takes effect. -/
theorem SetRuns.of_control {mk : Hdr → Option Nat → Instr} {c : Conds} {idx sub : Nat} {v : Bytes}
    {P : Dev → Session → Int → Dev → Prop} {eff : Dev → Dev}
    (h : ∀ hd cond s e se n, s.dev.writeGate c hd cond idx sub v = .pass e se n →
      exec (mk hd cond) s = onDev (fun _ => eff (e.finishWrite hd cond idx sub v se)) s)
    (k : ∀ (d : Dev) se n f (d0 : Dev), d.Controlled f → P d se n (d0.settle (eff f))) : SetRuns mk c idx sub v P := by
  intro s hd cond e se n hg
  exact Runs.of_onDev (h hd cond s e se n hg) (k _ se n _ _ (.of_answer (Dev.writeGate_passed hg) _ _ _ _ _ _))

theorem execIslandReset_pass {hd : Hdr} {cond : Option Nat} {island : Fin 25} {s : State} {e : Dev} {se : Session} {n : Int}
    (h : s.dev.writeGate {} hd cond (0x7F01 + island) 1 [1] = .pass e se n) :
    exec (.islandReset hd cond island) s
      = onDev (fun _ => (e.finishWrite hd cond (0x7F01 + island) 1 [1] se).resetIsland ((island : Nat) + 1)) s := by
  show execIslandReset hd cond island s = _
  unfold execIslandReset onDev
  dsimp only
  rw [h]

theorem execIslandHold_pass {hd : Hdr} {cond : Option Nat} {island : Fin 25} {s : State} {e : Dev} {se : Session} {n : Int}
    (h : s.dev.writeGate {} hd cond (0x7F01 + island) 1 [2] = .pass e se n) :
    exec (.islandHold hd cond island) s
      = onDev (fun _ => (e.finishWrite hd cond (0x7F01 + island) 1 [2] se).holdIsland ((island : Nat) + 1)) s := by
  show execIslandHold hd cond island s = _
  unfold execIslandHold onDev
  dsimp only
  rw [h]

theorem Dev.Controlled.isl {d f : Dev} (h : d.Controlled f) {i : Nat} (hi : 1 ≤ i ∧ i ≤ 25) : f.isl i = d.isl i :=
  h.reg _ (islState_island hi).not_book

/-- A control write that quiesces an island. -/
theorem Dev.Controlled.quiesces {d f : Dev} (h : d.Controlled f) {i : Nat} (hi : 1 ≤ i ∧ i ≤ 25) (cause : Nat) (d0 : Dev) :
    kvGet (d0.settle (f.quiesce i cause)).islCause i = some cause
      ∧ ((i = Isl.mix → d.mix.filters = []) → (d0.settle (f.quiesce i cause)).isl i = 2) := by
  obtain ⟨hcause, hisl, -⟩ := (f.quiesce_quiesced hi cause).trans (Spares.settle (Spares.refl _) d0) hi
  exact ⟨hcause, fun hf => hisl (by rwa [h.mix])⟩

/-- The device with control as the cause of island `i`'s quiesce. -/
def Dev.causedByControl (d : Dev) (i : Nat) : Dev := { d with islCause := kvPut d.islCause i 1 }

theorem Dev.causedByControl_reg (d : Dev) (i k : Nat) : (d.causedByControl i).reg k = d.reg k := rfl

theorem Dev.causedByControl_cause (d : Dev) (i : Nat) : (kvGet (d.causedByControl i).islCause i).getD 1 = 1 := by
  show (kvGet (kvPut d.islCause i 1) i).getD 1 = 1
  rw [kvGet_kvPut, if_pos rfl]
  rfl

theorem Dev.resetIsland_held {d : Dev} {i : Nat} (h : d.isl i = 5) :
    d.resetIsland i = (d.causedByControl i).emptyIsland i := if_pos h

theorem Dev.resetIsland_open {d : Dev} {i : Nat} (h : d.isl i ≤ 1) : d.resetIsland i = d.quiesce i 1 :=
  (if_neg (by omega)).trans (if_pos h)

theorem islandReset_runs (island : Fin 25) :
    SetRuns (fun hd cond => .islandReset hd cond island) {} (0x7F01 + island) 1 [1] fun d _ _ d' =>
      let i := (island : Nat) + 1
      (d.isl i ≤ 1 → kvGet d'.islCause i = some 1 ∧ ((i = Isl.mix → d.mix.filters = []) → d'.isl i = 2))
        ∧ (d.isl i = 5 → d'.isl i = 3
          ∧ d'.reg (Ob.islResets island) = wrapTy (keyTy (Ob.islResets island)) (d.reg (Ob.islResets island) + 1)) := by
  refine SetRuns.of_control (eff := fun f => f.resetIsland ((island : Nat) + 1))
    (fun hd cond s e se n hg => execIslandReset_pass hg) fun d se n f d0 hf => ?_
  have hi : 1 ≤ (island : Nat) + 1 ∧ (island : Nat) + 1 ≤ 25 := by omega
  refine ⟨fun hopen => ?_, fun hheld => ?_⟩
  · rw [Dev.resetIsland_open (by rwa [hf.isl hi])]
    exact hf.quiesces hi 1 d0
  · rw [Dev.resetIsland_held (by rwa [hf.isl hi])]
    obtain ⟨-, hcount⟩ := Dev.emptyIsland_counts _ _ (f.causedByControl_cause ((island : Nat) + 1)) (by decide)
    refine ⟨(Dev.settle_reg _ _ (by unfold Ob.islState Ob.safeOutputState; omega)).trans ?_, ?_⟩
    · rw [Dev.emptyIsland_state, Dev.causedByControl_cause]
      rfl
    · rw [Dev.settle_reg _ _ (by unfold Ob.islResets Ob.safeOutputState; omega)]
      refine hcount.trans ?_
      rw [Dev.causedByControl_reg, hf.reg _ (IslandObj.not_book (by unfold IslandObj Ob.islResets; omega))]
      rfl

theorem islandHold_runs (island : Fin 25) :
    SetRuns (fun hd cond => .islandHold hd cond island) {} (0x7F01 + island) 1 [2] fun d _ _ d' =>
      let i := (island : Nat) + 1
      d.isl i ≤ 1 → kvGet d'.islCause i = some 4 ∧ ((i = Isl.mix → d.mix.filters = []) → d'.isl i = 2) := by
  refine SetRuns.of_control (eff := fun f => f.holdIsland ((island : Nat) + 1))
    (fun hd cond s e se n hg => execIslandHold_pass hg) fun d se n f d0 hf => ?_
  have hi : 1 ≤ (island : Nat) + 1 ∧ (island : Nat) + 1 ≤ 25 := by omega
  intro i hopen
  have hhold : f.holdIsland i = f.quiesce i 4 := if_pos (by rwa [hf.isl hi])
  rw [hhold]
  exact hf.quiesces hi 4 d0

/-- The effective counts that follow the dies in use are no part of the islands' record. -/
theorem Spares.refreshDies {a d : Dev} (h : Spares a d) : Spares a d.refreshDies := by
  unfold Dev.refreshDies
  refine Spares.setN (Spares.setN (Spares.setN (Spares.setN (Spares.setN h ?_ _) ?_ _) ?_ _) ?_ _) ?_ _ <;> decide

theorem Spares.setRing {a d : Dev} (h : Spares a d) {j : Nat} (hj : j < 4) (up : Bool) : Spares a (d.setRing j up) :=
  h.set (by unfold IslandObj Ob.ringLinkState; omega) _

theorem Dev.ringsOf_lt {d : Dev} {die j : Nat} (h : j ∈ d.ringsOf die) : j < 4 := List.mem_range.1 (List.mem_filter.1 h).1

/-- The rings and the counts that a lost die takes with it. -/
theorem Dev.ringsDown_spares (d : Dev) (die : Nat) (ev : Ev) :
    Spares d ((d.each (d.ringsOf die) fun d j => d.setRing j false).refreshDies.event ev) :=
  Spares.event (Spares.refreshDies (Spares.each (Spares.refl d) fun _ _ hj h => h.setRing (Dev.ringsOf_lt hj) false)) ev

/-- A lost die shows so, and its two islands read ABSENT. -/
theorem Dev.loseDie_islands (d : Dev) {die : Nat} (hdie : die < 4) (cause : Nat) :
    (d.loseDie die cause).reg (Ob.dieStatus (die + 1)) = 2
      ∧ (d.loseDie die cause).reg (Ob.islState (17 + die)) = 6 ∧ (d.loseDie die cause).reg (Ob.islState (21 + die)) = 6 := by
  unfold Dev.loseDie
  dsimp only
  generalize ((d.setN Ob.computeDiesInUse _).setN (Ob.dieDropCause (die + 1)) cause) = d1
  have hspare := ((((d1.set (Ob.dieStatus (die + 1)) 2).set (Ob.dieLinkState die) 0).set (Ob.islState (17 + die)) 6).set
    (Ob.islState (21 + die)) 6).ringsDown_spares die { code := 0x8030, d1 := die, d2 := cause }
  refine ⟨?_, ?_, ?_⟩
  · rw [hspare.reg _ (by unfold IslandObj Ob.dieStatus; omega), Dev.reg_set, if_neg (by unfold Ob.dieStatus Ob.islState; omega),
      Dev.reg_set, if_neg (by unfold Ob.dieStatus Ob.islState; omega), Dev.reg_set,
      if_neg (by unfold Ob.dieStatus Ob.dieLinkState; omega), Dev.reg_set, if_pos rfl]
  · rw [hspare.reg _ (by unfold IslandObj Ob.islState; omega), Dev.reg_set, if_neg (by unfold Ob.islState; omega),
      Dev.reg_set, if_pos rfl]
  · rw [hspare.reg _ (by unfold IslandObj Ob.islState; omega), Dev.reg_set, if_pos rfl]

theorem Spares.setPlaced {a d : Dev} (h : Spares a d) {m : Nat} (hm : m < 32) (die v : Nat) : Spares a (d.setPlaced m die v) :=
  h.setN (by unfold IslandObj Ob.modelPlacement; omega) _

/-- A die in use that is dropped. -/
theorem Dev.dropDie_islands {d : Dev} {die : Nat} (hdie : die < 4) (huse : die ∈ d.dies) (cause : Nat) :
    (d.dropDie die cause).reg (Ob.dieStatus (die + 1)) = 2
      ∧ (d.dropDie die cause).reg (Ob.islState (17 + die)) = 6 ∧ (d.dropDie die cause).reg (Ob.islState (21 + die)) = 6 := by
  have hspare : Spares (d.loseDie die cause) (d.dropDie die cause) := by
    unfold Dev.dropDie
    rw [if_neg (by simp [huse])]
    refine Spares.powerCheck (Spares.refreshPours (Spares.each (Spares.abandonDie ?_ die) fun d m hm h =>
      h.setPlaced (List.mem_range.1 hm) _ _))
    exact (Spares.refl _).setN (by decide) _
  obtain ⟨hstatus, hten, hdck⟩ := d.loseDie_islands hdie cause
  exact ⟨(hspare.reg _ (by unfold IslandObj Ob.dieStatus; omega)).trans hstatus,
    (hspare.reg _ (by unfold IslandObj Ob.islState; omega)).trans hten,
    (hspare.reg _ (by unfold IslandObj Ob.islState; omega)).trans hdck⟩

theorem Dev.emptyIsland_dies (d : Dev) (i : Nat) : (d.emptyIsland i).dies = d.dies := by
  unfold Dev.dies Dev.nat
  rw [d.emptyIsland_other i] <;> unfold Ob.computeDiesInUse
  · unfold Ob.islState
    omega
  · unfold Ob.islResets
    omega
  · unfold Ob.islLastResetCause
    omega

/-- The boundary of an island that quiesces is empty. -/
theorem quiesceBoundaryEmpty_empties {s : State} {island : Fin 25} {c : Nat} (hq : s.dev.isl ((island : Nat) + 1) = 2)
    (hc : (kvGet s.dev.islCause ((island : Nat) + 1)).getD 1 = c) (h : c ≠ 5 ∨ (island : Nat) + 1 < Isl.ten) :
    Runs (.quiesceBoundaryEmpty island) s fun d =>
      d.isl ((island : Nat) + 1) = (if c = 3 then 4 else if 4 ≤ c then 5 else 3)
        ∧ (c < 4 → d.reg (Ob.islLastResetCause island) = (c : Nat)
          ∧ d.reg (Ob.islResets island) = wrapTy (keyTy (Ob.islResets island)) (s.dev.reg (Ob.islResets island) + 1)) := by
  refine Runs.of_onDev (show execQuiesceBoundaryEmpty island s = onDev _ s from rfl) ?_
  have hkeep : (c == 5 && decide (Isl.ten ≤ (island : Nat) + 1)) = false := by
    rw [Bool.and_eq_false_iff, beq_eq_false_iff_ne, decide_eq_false_iff_not]
    exact h.imp id Nat.not_le.2
  dsimp only
  rw [if_neg (not_not.2 hq), hc, hkeep, Dev.when_false]
  refine ⟨(Dev.settle_reg _ _ (by unfold Ob.islState Ob.safeOutputState; omega)).trans ?_, fun hlt => ?_⟩
  · rw [Dev.emptyIsland_state, hc]
  · rw [Dev.settle_reg _ _ (by unfold Ob.islLastResetCause Ob.safeOutputState; omega),
      Dev.settle_reg _ _ (by unfold Ob.islResets Ob.safeOutputState; omega)]
    exact Dev.emptyIsland_counts _ _ hc hlt

/-- The empty boundary of a TEN or DCK held after a repeated fault. -/
theorem quiesceBoundaryEmpty_dropsDie {s : State} {island : Fin 25} (hq : s.dev.isl ((island : Nat) + 1) = 2)
    (hc : (kvGet s.dev.islCause ((island : Nat) + 1)).getD 1 = 5) (h : Isl.ten ≤ (island : Nat) + 1)
    (huse : ((island : Nat) + 1 - Isl.ten) % 4 ∈ s.dev.dies) :
    Runs (.quiesceBoundaryEmpty island) s fun d => d.isl ((island : Nat) + 1) = 6
      ∧ d.reg (Ob.dieStatus (((island : Nat) + 1 - Isl.ten) % 4 + 1)) = 2 := by
  refine Runs.of_onDev (show execQuiesceBoundaryEmpty island s = onDev _ s from rfl) ?_
  have hdrop : ((5 : Nat) == 5 && decide (Isl.ten ≤ (island : Nat) + 1)) = true := by
    rw [decide_eq_true h]
    rfl
  dsimp only
  rw [if_neg (not_not.2 hq), hc, hdrop, Dev.when_true]
  obtain ⟨hstatus, hten, hdck⟩ := Dev.dropDie_islands (Nat.mod_lt _ (by decide))
    ((Dev.emptyIsland_dies s.dev ((island : Nat) + 1)).symm ▸ huse) (Config.heldDropCause % 256)
  refine ⟨(Dev.settle_reg _ _ (by unfold Ob.islState Ob.safeOutputState; omega)).trans ?_,
    (Dev.settle_reg _ _ (by unfold Ob.dieStatus Ob.safeOutputState; omega)).trans hstatus⟩
  have hwhich : (island : Nat) + 1 - 1 = 17 + ((island : Nat) + 1 - Isl.ten) % 4
      ∨ (island : Nat) + 1 - 1 = 21 + ((island : Nat) + 1 - Isl.ten) % 4 := by
    have := island.isLt
    unfold Isl.ten at h ⊢
    omega
  rcases hwhich with hw | hw
  · rw [hw]
    exact hten
  · rw [hw]
    exact hdck

end Sys2Proof.Machine
end

section
/-! The return of an island, and the live update (19_power_dies R393, 05_start_up R132). -/
namespace Sys2Proof.Machine

/-- The device on which a returned island starts its own work: its boundary is open and its clock shows no fault. -/
def Dev.returned (d : Dev) (i : Nat) : Dev := (d.returnIsland i).set (Ob.islandClockStatus (i - 1)) 0

/-- The return of an island that resets or updates; after an update the next island of it follows. -/
theorem execIslandReturn_eq (island : Fin 25) (s : State) {i : Nat} (hi : i = (island : Nat) + 1)
    (hst : s.dev.isl i = 3 ∨ s.dev.isl i = 4) (hcup : i = Isl.cup → s.dev.reg Ob.cupperState ≠ 2) :
    exec (.islandReturn island) s = onDev (fun d => ((d.returned i).islandStarts i).when (d.isl i == 4) fun d =>
      (d.onPow fun p => { p with live := p.live.filter fun x => x != i }).nextLive) s := by
  subst hi
  show execIslandReturn island s = _
  unfold execIslandReturn onDev
  dsimp only
  rw [if_neg fun h => h.elim (fun h => hst.elim h.1 h.2) fun h => hcup h.1 h.2]
  rfl

/-- What a returned island's registers read. -/
structure Dev.Returns (d : Dev) (i : Nat) (d' : Dev) : Prop where
  isl : d'.isl i = 0
  incarnation : d'.reg (Ob.islIncarnation (i - 1)) = ((d.nat (Ob.islIncarnation (i - 1)) + 1) % 256 : Nat)
  stamp : d'.reg (Ob.islLastReturnStamp (i - 1)) = (d.now : Nat)

theorem Dev.returned_reg (d : Dev) (i : Nat) {k : Nat} (hk : IslandObj k) (h : k ≠ Ob.islandClockStatus (i - 1)) :
    (d.returned i).reg k = if k = Ob.islLastReturnStamp (i - 1) then (d.now : Int)
      else if k = Ob.islState (i - 1) then 0
      else if k = Ob.islIncarnation (i - 1) then ((d.nat (Ob.islIncarnation (i - 1)) + 1) % 256 : Nat) else d.reg k := by
  unfold Dev.returned
  rw [Dev.reg_set, if_neg h, Dev.returnIsland_reg _ _ hk.not_book]

theorem Dev.returned_returns (d : Dev) {i : Nat} (hi : 1 ≤ i ∧ i ≤ 25) : d.Returns i (d.returned i) where
  isl := by
    refine (d.returned_reg i (islState_island hi) ?_).trans ?_
    · unfold Ob.islState Ob.islandClockStatus
      omega
    · rw [if_neg (by unfold Ob.islState Ob.islLastReturnStamp; omega), if_pos rfl]
  incarnation := by
    rw [d.returned_reg i (by unfold IslandObj Ob.islIncarnation; omega) (by unfold Ob.islIncarnation Ob.islandClockStatus; omega),
      if_neg (by unfold Ob.islIncarnation Ob.islLastReturnStamp; omega), if_neg (by unfold Ob.islIncarnation Ob.islState; omega),
      if_pos rfl]
  stamp := by
    rw [d.returned_reg i (by unfold IslandObj Ob.islLastReturnStamp; omega)
      (by unfold Ob.islLastReturnStamp Ob.islandClockStatus; omega), if_pos rfl]

/-- Work that writes, of the islands' record, states of other islands alone. -/
theorem Dev.Returns.of_other {d e f : Dev} {i : Nat} (h : d.Returns i e) (hi : 1 ≤ i ∧ i ≤ 25) {l : List Nat}
    (hl : ∀ x ∈ l, x ≠ 0 ∧ x ≠ i)
    (k : ∀ k, IslandObj k → (∀ x ∈ l, k ≠ Ob.islState (x - 1)) → f.reg k = e.reg k) : d.Returns i f where
  isl := (k _ (islState_island hi) fun x hx => by
    have hdiff := hl x hx
    unfold Ob.islState
    omega).trans h.isl
  incarnation := (k _ (by unfold IslandObj Ob.islIncarnation; omega) fun x _ => by
    unfold Ob.islState Ob.islIncarnation
    omega).trans h.incarnation
  stamp := (k _ (by unfold IslandObj Ob.islLastReturnStamp; omega) fun x _ => by
    unfold Ob.islState Ob.islLastReturnStamp
    omega).trans h.stamp

theorem Dev.Returns.trans {d e f : Dev} {i : Nat} (h : d.Returns i e) (hi : 1 ≤ i ∧ i ≤ 25) (k : Spares e f) : d.Returns i f :=
  h.of_other hi (l := []) (fun _ h => absurd h List.not_mem_nil) fun x hx _ => k.reg x hx

theorem islandReturn_runs {s : State} {island : Fin 25} {i : Nat} (hi : i = (island : Nat) + 1)
    (hst : s.dev.isl i = 3 ∨ s.dev.isl i = 4) (hcup : i = Isl.cup → s.dev.reg Ob.cupperState ≠ 2)
    (hsol : i = Isl.sol → s.dev.sol.batch = none)
    (hlive : s.dev.isl i = 4 → ∀ x ∈ s.dev.pow.live, x ≠ 0 ∧ (x = Isl.mix → i = Isl.mix)) :
    Runs (.islandReturn island) s fun d => d.isl i = 0
      ∧ d.reg (Ob.islIncarnation island) = ((s.dev.nat (Ob.islIncarnation island) + 1) % 256 : Nat)
      ∧ d.reg (Ob.islLastReturnStamp island) = (s.dev.now : Nat) := by
  have hrange : 1 ≤ i ∧ i ≤ 25 := by omega
  refine Runs.of_onDev (execIslandReturn_eq island s hi hst hcup) ?_
  have hstarts : Spares (s.dev.returned i) ((s.dev.returned i).islandStarts i) := (Spares.refl _).islandStarts i fun h =>
    (congrArg Sol.batch (s.dev.returnIsland_sol i)).trans (hsol h)
  have hback := (s.dev.returned_returns hrange).trans hrange hstarts
  have hpow : ((s.dev.returned i).islandStarts i).pow.live = s.dev.pow.live :=
    hstarts.live.trans (congrArg PowRt.live (s.dev.returnIsland_pow i))
  generalize (s.dev.returned i).islandStarts i = e at hback hpow
  have hdone : s.dev.Returns i (s.dev.settle (e.when (s.dev.isl i == 4) fun d =>
      (d.onPow fun p => { p with live := p.live.filter fun x => x != i }).nextLive)) := by
    refine Dev.Returns.trans ?_ hrange (Spares.settle (Spares.refl _) _)
    cases hup : (s.dev.isl i == 4) with
    | false => exact hback
    | true =>
      have hothers : ∀ x ∈ e.pow.live.filter (fun x => x != i), x ≠ 0 ∧ x ≠ i ∧ (x = Isl.mix → i = Isl.mix) := fun x hx => by
        obtain ⟨hx, hne⟩ := List.mem_filter.1 hx
        obtain ⟨h0, hm⟩ := hlive (beq_iff_eq.1 hup) x (hpow ▸ hx)
        exact ⟨h0, bne_iff_ne.1 hne, hm⟩
      refine hback.of_other hrange (fun x hx => ⟨(hothers x hx).1, (hothers x hx).2.1⟩) fun k hk hl =>
        (Dev.nextLive_reg _ (fun hx => ?_) hk hl).trans rfl
      obtain ⟨-, hne, hm⟩ := hothers _ hx
      exact absurd (hm rfl).symm hne
  subst hi
  exact ⟨hdone.isl, hdone.incarnation, hdone.stamp⟩

theorem Dev.inactiveBank_le (d : Dev) : d.inactiveBank ≤ 1 := by
  unfold Dev.inactiveBank
  split
  · omega
  split <;> omega

/-- The verified bank in use, before the islands of the update are replaced. -/
def Dev.bankLive (d : Dev) : Dev :=
  let b := d.inactiveBank
  let d := d.onBoot fun x => { x with current := b, trial := none, trialRunning := false }
  let d := ((d.set (Ob.bankState b) 4).set (Ob.bankState (1 - b)) 1).setN Ob.activeBank b
  (d.set Ob.updateState 5).endClaim

/-- The islands that a live update replaces, where they run or are stopped. -/
def Dev.updated (d : Dev) : List Nat := Isl.mix :: d.dies.map fun die => Isl.ten + die

theorem Dev.activateLive_eq (d : Dev) :
    d.activateLive = (d.bankLive.onPow fun p => { p with live := d.bankLive.updated }).nextLive.powerCheck := rfl

theorem Dev.bankLive_reg (d : Dev) (k : Nat) :
    d.bankLive.reg k = if k = Ob.updateOwner then 0xFF else if k = Ob.updateState then 5
      else if k = Ob.activeBank then (d.inactiveBank : Int) else if k = Ob.bankState (1 - d.inactiveBank) then 1
      else if k = Ob.bankState d.inactiveBank then 4 else d.reg k := by
  unfold Dev.bankLive Dev.endClaim
  dsimp only
  rw [Dev.reg_set, Dev.reg_set, Dev.reg_setN, Dev.reg_set, Dev.reg_set]
  rfl

/-- The objects of the bank, its update and its states that no island has. -/
theorem Dev.bankLive_keeps (d : Dev) {k : Nat} (h : k < Ob.activeBank ∨ 0x7F0000 ≤ k) : d.bankLive.reg k = d.reg k := by
  have hb := d.inactiveBank_le
  unfold Ob.activeBank at h
  rw [d.bankLive_reg, if_neg (by unfold Ob.updateOwner; omega), if_neg (by unfold Ob.updateState; omega),
    if_neg (by unfold Ob.activeBank; omega), if_neg (by unfold Ob.bankState; omega), if_neg (by unfold Ob.bankState; omega)]

theorem Dev.bankLive_isl (d : Dev) (i : Nat) : d.bankLive.isl i = d.isl i :=
  d.bankLive_keeps (by unfold Ob.islState; omega)

theorem Dev.bankLive_updated (d : Dev) : d.bankLive.updated = d.updated := by
  unfold Dev.updated Dev.dies Dev.nat
  rw [d.bankLive_keeps (.inl (by decide))]

theorem Dev.activateLive_live (d : Dev) : d.activateLive.pow.live = d.updated.filter fun i => decide (d.isl i ≤ 1) := by
  rw [d.activateLive_eq, (Spares.powerCheck (Spares.refl _)).live, Dev.nextLive_live]
  show d.bankLive.updated.filter (fun i => decide (d.bankLive.isl i ≤ 1)) = _
  rw [d.bankLive_updated]
  simp only [d.bankLive_isl]

theorem Dev.activateLive_boot (d : Dev) :
    d.activateLive.boot = { d.boot with current := d.inactiveBank, trial := none, trialRunning := false } := by
  rw [d.activateLive_eq]
  have hpower := (Dev.powerCheck_within (M := 16777216) (by exact rfl)
    (.refl (d.bankLive.onPow fun p => { p with live := d.bankLive.updated }).nextLive)).boot rfl
  have hnext := (Dev.nextLive_within (M := 20882207) (by exact rfl)
    (.refl (d.bankLive.onPow fun p => { p with live := d.bankLive.updated }))).boot rfl
  exact (hpower.trans hnext).trans rfl

/-- The registers of the banks and of their update, which no island's state is, are not touched by the islands' replacement. -/
theorem Dev.activateLive_reg (d : Dev) (hf : d.mix.filters = []) {k : Nat} (hk : IslandObj k) (h : k < 0x7F0000) :
    d.activateLive.reg k = d.bankLive.reg k := by
  rw [d.activateLive_eq, (Spares.powerCheck (Spares.refl _)).reg k hk]
  exact Dev.nextLive_reg (d.bankLive.onPow fun p => { p with live := d.bankLive.updated }) (fun _ => hf) hk fun x _ => by
    unfold Ob.islState
    omega

theorem Dev.Passed.inactiveBank {d e : Dev} (h : d.Passed e) : e.inactiveBank = d.inactiveBank := by
  rw [h.eq]
  rfl

theorem Dev.Passed.updated {d e : Dev} (h : d.Passed e) : e.updated = d.updated := by
  rw [h.eq]
  rfl

theorem updateActivateLive_runs : SetRuns .updateActivateLive activateConds 0x7010 7 [3] fun d _ _ d' =>
    d'.boot = { d.boot with current := d.inactiveBank, trial := none, trialRunning := false }
      ∧ d'.pow.live = ((Isl.mix :: d.dies.map fun die => Isl.ten + die).filter fun i => decide (d.isl i ≤ 1))
      ∧ (d.mix.filters = [] → d'.reg Ob.activeBank = (d.inactiveBank : Nat) ∧ d'.reg Ob.updateState = 5
        ∧ d'.reg Ob.updateOwner = 0xFF ∧ d'.reg (Ob.bankState d.inactiveBank) = 4) := by
  refine SetRuns.of_pass (eff := fun _ _ d => d.activateLive) (fun hd cond s => show execUpdateActivateLive hd cond s = _ from rfl)
    fun d e se n d' he _ hf ha => ?_
  have hb := d.inactiveBank_le
  have hisl : ∀ i, e.isl i = d.isl i := fun i => he.reg _
  refine ⟨?_, ?_, fun hfilters => ?_⟩
  · rw [ha.boot, e.activateLive_boot, he.inactiveBank, he.eq]
  · rw [ha.pow, e.activateLive_live, he.updated]
    simp only [hisl]
    rfl
  · have hreg : ∀ k, IslandObj k → k < 0x7F0000 → d'.reg k = e.bankLive.reg k := fun k hk hlt =>
      (hf.reg k hk.not_book fun h => absurd (h ▸ hk) (by decide)).trans
        (e.activateLive_reg (by rw [he.eq]; exact hfilters) hk hlt)
    refine ⟨?_, ?_, ?_, ?_⟩
    · rw [hreg _ (by decide) (by decide), e.bankLive_reg, if_neg (by decide), if_neg (by decide), if_pos rfl, he.inactiveBank]
    · rw [hreg _ (by decide) (by decide), e.bankLive_reg, if_neg (by decide), if_pos rfl]
    · rw [hreg _ (by decide) (by decide), e.bankLive_reg, if_pos rfl]
    · rw [hreg _ (by unfold IslandObj Ob.bankState; omega) (by unfold Ob.bankState; omega), e.bankLive_reg, he.inactiveBank,
        if_neg (by unfold Ob.bankState Ob.updateOwner; omega), if_neg (by unfold Ob.bankState Ob.updateState; omega),
        if_neg (by unfold Ob.bankState Ob.activeBank; omega), if_neg (by unfold Ob.bankState; omega), if_pos rfl]

/-- Settles O58, command by command: what a fault, a control write, the empty boundary, the return and the live update write of
the islands' record, and that the work of every other unit spares it. -/
theorem islandCommandsRun : Obligations.IslandCommandsRun :=
  ⟨fun _ island hb => islandWatchdogExpiry_runs island hb,
    fun _ _ _ _ hb hl hk hi => ⟨fun hd hk0 => by subst hk0; exact clockMonitorWindow_root hd hb hl,
      fun hd hk0 hrun => clockMonitorWindow_faults hk hi hd hk0 hrun hb hl, fun h => clockMonitorWindow_idle hk hi h⟩,
    fun island => ⟨islandReset_runs island, islandHold_runs island⟩,
    fun _ _ _ hq hc => ⟨fun h => quiesceBoundaryEmpty_empties hq hc h,
      fun h5 hten huse => quiesceBoundaryEmpty_dropsDie hq (hc.trans h5) hten huse⟩,
    fun _ _ _ hi hst hcup hsol hlive => islandReturn_runs hi hst hcup hsol hlive,
    staleReplyReceived_runs, updateActivateLive_runs⟩

end Sys2Proof.Machine
end

section
/-! One step runs the front command, and a WRITE of an object with a command of its own is that command (04_dictionary R90, R102). -/
namespace Sys2Proof.Machine

/-- Settles O1: both cases by the definition of a step; a tick of a timeline that stands still is no change. -/
theorem stepRunsFrontCommand : Obligations.StepRunsFrontCommand := by
  refine ⟨fun s c rest h => by rw [step, h], fun s h => ?_⟩
  have hstep : step s = onDev Dev.clock s := by rw [step, h]
  refine ⟨_, hstep, h, fun hr => ?_⟩
  have htick : s.dev.tick = s.dev := if_pos (by simp [hr])
  calc (s.dev.settle s.dev.clock).tl
    _ = s.dev.clock.tl := Dev.settle_tl _ _
    _ = s.dev.tick.tl := Dev.noteBusy_tl _
    _ = s.dev.tl := by rw [htick]

variable {hd : Hdr} {cond : Option Nat} {v : Bytes} {s : State} {idx sub : Nat}

/-- A WRITE whose action stores its value, as a write request. -/
theorem exec_write_of_store {c : Conds} {eff : Session → Int → Dev → Dev}
    (h : actOf idx sub v = Act.store (idx * 256 + sub) c eff) :
    exec (.write hd idx sub cond v) s = onDev (fun d => d.writeStore c hd cond idx sub v eff) s := by
  show onDev (fun d => match d.writeGate (actOf idx sub v).conds hd cond idx sub v with
    | .stop d => d
    | .pass d se n => (actOf idx sub v).post n (((actOf idx sub v).eff se n d).finishWrite hd cond idx sub v se)) s = _
  rw [h]
  rfl

/-- A WRITE whose action leaves its value unstored, as a write request. -/
theorem exec_write_of_act {c : Conds} {eff : Session → Int → Dev → Dev} (h : actOf idx sub v = Act.act c eff) :
    exec (.write hd idx sub cond v) s = onDev (fun d => d.writeReq c hd cond idx sub v eff) s := by
  show onDev (fun d => match d.writeGate (actOf idx sub v).conds hd cond idx sub v with
    | .stop d => d
    | .pass d se n => (actOf idx sub v).post n (((actOf idx sub v).eff se n d).finishWrite hd cond idx sub v se)) s = _
  rw [h]
  rfl

/-- The timing unit's objects lie above those of the timeline and of the fences. -/
theorem actOf_of_timing {a : Act} (hi : 0x2041 < idx) (ha : actTiming idx sub = some a) : actOf idx sub v = a := by
  have htimeline : actTimeline idx sub = none := by
    unfold actTimeline
    rw [if_neg (by omega), if_neg (by omega), if_neg (by omega), if_neg (by omega), if_neg (by omega)]
  have hfence : actFence idx sub v = none := by
    unfold actFence
    rw [if_neg (by omega), if_neg (by omega), if_neg (by omega), if_neg (by omega)]
  unfold actOf
  rw [htimeline, hfence, ha]
  rfl

theorem actOf_refEnable (code : Fin 6) : actOf (0x2112 + code) 1 v
    = Act.store ((0x2112 + code) * 256 + 1) {} fun _ n d => d.refEnabled code (n != 0) := by
  refine actOf_of_timing (by omega) ?_
  unfold actTiming
  rw [if_neg (by omega), if_pos (by omega), Nat.add_sub_cancel_left]

theorem actOf_pulseConfig (out : Fin 13) (field : Fin 6) : actOf (0x2130 + out) (field + 1) v
    = Act.store ((0x2130 + out) * 256 + (field + 1)) (pulseConds out field) fun _ _ d => d.retrain out d.ext := by
  refine actOf_of_timing (by omega) ?_
  unfold actTiming
  rw [if_neg (by omega), if_neg (by omega), if_neg (by omega), if_neg (by omega), if_pos (by omega)]
  dsimp only
  rw [if_pos (by omega), Nat.add_sub_cancel_left, Nat.add_sub_cancel]

/-- Settles O24: each address by the action it has in the table of writes, which is the effect of the command. -/
theorem writeIsTheObjectsCommand : Obligations.WriteIsTheObjectsCommand := fun _ _ _ _ =>
  ⟨exec_write_of_store rfl, exec_write_of_store rfl, exec_write_of_store rfl, exec_write_of_act rfl, exec_write_of_act rfl,
    exec_write_of_act rfl, fun _ => exec_write_of_store rfl, fun code => exec_write_of_store (actOf_refEnable code),
    exec_write_of_store rfl, fun out field => exec_write_of_store (actOf_pulseConfig out field), exec_write_of_act rfl,
    exec_write_of_act rfl, exec_write_of_act rfl, exec_write_of_act rfl⟩

end Sys2Proof.Machine
end

section
/-! What answers, and sessions that end, leave of the dictionary service: the sessions that go on, the block writes, the commits
and the versions (04_dictionary R86, R97, R101, R103). -/
namespace Sys2Proof.Machine

/-- Session `t` is `s` at a later time: only its device sequence, its outstanding requests and its kept answers have moved. -/
def Session.Continues (s t : Session) : Prop :=
  { t with devSeq := s.devSeq, outst := s.outst, cache := s.cache } = s

theorem Session.Continues.refl (s : Session) : s.Continues s := rfl

namespace Session.Continues
variable {s t u : Session} (h : s.Continues t)
include h

theorem id : t.id = s.id := (congrArg Session.id h :)
theorem part : t.part = s.part := (congrArg Session.part h :)
theorem carrier : t.carrier = s.carrier := (congrArg Session.carrier h :)
theorem subs : t.subs = s.subs := (congrArg Session.subs h :)

theorem trans (k : t.Continues u) : s.Continues u := by
  unfold Session.Continues at *
  rw [← h, ← k]

end Session.Continues

/-- Sessions of `d'` are sessions of `d` that have gone on, and no block write has begun. -/
structure Dev.Outlives (d d' : Dev) : Prop where
  session : ∀ sid t, d'.session sid = some t → ∃ s, d.session sid = some s ∧ s.Continues t
  mem : ∀ t ∈ d'.dict.sessions, ∃ s ∈ d.dict.sessions, s.Continues t
  blocks : d'.dict.blocks ⊆ d.dict.blocks

/-- From `d` to `d'` answers have gone out and sessions have ended: of the dictionary service nothing else has changed, and
every version is as it was. -/
structure Dev.OnlyAnswers (d d' : Dev) : Prop extends d.Outlives d' where
  rest : { d'.dict with sessions := d.dict.sessions, blocks := d.dict.blocks } = d.dict
  vers : d'.vers = d.vers

namespace Dev.OnlyAnswers
variable {a d e : Dev}

theorem of_same (hdict : e.dict = d.dict) (hvers : e.vers = d.vers) : d.OnlyAnswers e where
  session := fun sid t h => ⟨t, by rw [← Dev.session_congr hdict]; exact h, .refl t⟩
  mem := fun t h => ⟨t, hdict ▸ h, .refl t⟩
  blocks := by rw [hdict]; exact List.Subset.refl _
  rest := by rw [hdict]
  vers := hvers

theorem refl (d : Dev) : d.OnlyAnswers d := .of_same rfl rfl

theorem trans (h : a.OnlyAnswers d) (k : d.OnlyAnswers e) : a.OnlyAnswers e where
  session := fun sid u hu => by
    obtain ⟨t, ht, htu⟩ := k.session sid u hu
    obtain ⟨s, hs, hst⟩ := h.session sid t ht
    exact ⟨s, hs, hst.trans htu⟩
  mem := fun u hu => by
    obtain ⟨t, ht, htu⟩ := k.mem u hu
    obtain ⟨s, hs, hst⟩ := h.mem t ht
    exact ⟨s, hs, hst.trans htu⟩
  blocks := List.Subset.trans k.blocks h.blocks
  rest := by rw [← h.rest, ← k.rest]
  vers := k.vers.trans h.vers

theorem each {α : Type} {f : Dev → α → Dev} (hf : ∀ (d : Dev) x, d.OnlyAnswers (f d x)) (l : List α) (d : Dev) :
    d.OnlyAnswers (d.each l f) := by
  induction l generalizing d with
  | nil => exact .refl d
  | cons x l ih => exact (hf d x).trans (ih _)

/-- What a session becomes is told by its device sequence, its outstanding requests and its kept answers. -/
theorem onSession (d : Dev) (sid : Nat) {f : Session → Session} (hf : ∀ s : Session, s.Continues (f s)) :
    d.OnlyAnswers (d.onSession sid f) where
  session := fun x t h => by
    have hmap : (d.onSession sid f).dict.sessions = d.dict.sessions.map fun s => if s.id = sid then f s else s := rfl
    have hid : ((fun s : Session => s.id == x) ∘ fun s => if s.id = sid then f s else s) = fun s : Session => s.id == x := by
      funext s
      show (((if s.id = sid then f s else s).id) == x) = _
      split
      · rw [(hf s).id]
      · rfl
    unfold Dev.session at h
    rw [hmap, List.find?_map, hid] at h
    obtain ⟨s, hs, rfl⟩ := Option.map_eq_some_iff.1 h
    refine ⟨s, hs, ?_⟩
    split
    · exact hf s
    · exact .refl s
  mem := fun t h => by
    obtain ⟨s, hs, rfl⟩ := List.mem_map.1 h
    refine ⟨s, hs, ?_⟩
    split
    · exact hf s
    · exact .refl s
  blocks := List.Subset.refl _
  rest := rfl
  vers := rfl

variable (h : d.OnlyAnswers e)
include h

theorem commits : e.dict.commits = d.dict.commits := (congrArg Dict.commits h.rest :)
theorem restore : e.dict.restore = d.dict.restore := (congrArg Dict.restore h.rest :)
theorem usedIds : e.dict.usedIds = d.dict.usedIds := (congrArg Dict.usedIds h.rest :)
theorem nextHandle : e.dict.nextHandle = d.dict.nextHandle := (congrArg Dict.nextHandle h.rest :)
theorem ver (k : Nat) : e.ver k = d.ver k := by unfold Dev.ver; rw [h.vers]

end Dev.OnlyAnswers

/-- A block write that has ended stays ended. -/
theorem Dev.block_none_of_subset {d e : Dev} (h : e.dict.blocks ⊆ d.dict.blocks) {sid tag : Nat} (hb : d.block sid tag = none) :
    e.block sid tag = none :=
  List.find?_eq_none.2 fun x hx => List.find?_eq_none.1 hb x (h hx)

theorem Dev.dropBlock_block (d : Dev) (sid tag : Nat) : (d.dropBlock sid tag).block sid tag = none := by
  refine List.find?_eq_none.2 fun x hx => ?_
  exact Bool.eq_false_iff.1 (Bool.not_eq_true' _ ▸ (List.mem_filter.1 hx).2)

theorem Dev.block_sid_tag {d : Dev} {sid tag : Nat} {b : Block} (h : d.block sid tag = some b) : b.sid = sid ∧ b.tag = tag := by
  simpa using List.find?_some h

theorem Dev.event_onlyAnswers (d : Dev) (ev : Ev) : d.OnlyAnswers (d.event ev) := .of_same (d.event_dict ev) (by simp)

/-- The sessions that a session's end leaves. -/
theorem Dev.endSession_sessions (d : Dev) (sid : Nat) (cause : EndCause) :
    (d.endSession sid cause).dict.sessions = d.dict.sessions.filter fun s => s.id != sid := by
  unfold Dev.endSession
  split
  · next hnone =>
    refine (List.filter_eq_self.2 fun s hs => ?_).symm
    simpa using List.find?_eq_none.1 hnone s hs
  · dsimp only
    rw [Dev.event_dict, Dev.each_keeps (g := Dev.dict) fun d _ => d.event_dict _]
    rfl

theorem Dev.endSession_onlyAnswers (d : Dev) (sid : Nat) (cause : EndCause) : d.OnlyAnswers (d.endSession sid cause) where
  session := fun x t h => by
    refine ⟨t, ?_, .refl t⟩
    unfold Dev.session at h ⊢
    rw [Dev.endSession_sessions, List.find?_filter] at h
    have hx : x ≠ sid := by
      have ht := List.find?_some h
      rintro rfl
      simp at ht
    rw [← h]
    congr 1
    funext s
    by_cases hs : s.id = x
    · simp [hs, hx]
    · simp [hs]
  mem := fun t h => by
    rw [Dev.endSession_sessions] at h
    exact ⟨t, (List.mem_filter.1 h).1, .refl t⟩
  blocks := by
    unfold Dev.endSession
    split
    · exact List.Subset.refl _
    · dsimp only
      rw [Dev.event_dict, Dev.each_keeps (g := Dev.dict) fun d _ => d.event_dict _]
      exact List.filter_subset_self _
  rest := by
    unfold Dev.endSession
    split
    · rfl
    · dsimp only
      rw [Dev.event_dict, Dev.each_keeps (g := Dev.dict) fun d _ => d.event_dict _]
      rfl
  vers := by
    unfold Dev.endSession
    split
    · rfl
    · dsimp only
      rw [(Dev.event_onlyAnswers _ _).vers, Dev.each_keeps (g := Dev.vers) fun d _ => (d.event_onlyAnswers _).vers]
      rfl

theorem Dev.endSessions_onlyAnswers (d : Dev) (cause : EndCause) (f : Session → Bool) :
    d.OnlyAnswers (d.endSessions cause f) := .each (fun d _ => d.endSession_onlyAnswers _ _) _ d

/-- No session that meets the test is left. -/
theorem Dev.endSessions_gone (d : Dev) (cause : EndCause) (f : Session → Bool) :
    ∀ x ∈ (d.endSessions cause f).dict.sessions, f x = false := by
  have hleft : ∀ (l : List Nat) (d : Dev), ∀ x ∈ (d.each l fun d sid => d.endSession sid cause).dict.sessions,
      x ∈ d.dict.sessions ∧ x.id ∉ l := fun l => by
    induction l with
    | nil => exact fun d x hx => ⟨hx, List.not_mem_nil⟩
    | cons sid l ih =>
      intro d x hx
      obtain ⟨hmem, hnot⟩ := ih _ x hx
      rw [Dev.endSession_sessions] at hmem
      obtain ⟨hmem, hne⟩ := List.mem_filter.1 hmem
      exact ⟨hmem, by simpa [hnot] using hne⟩
  intro x hx
  obtain ⟨hmem, hnot⟩ := hleft _ d x hx
  refine Bool.eq_false_iff.2 fun hf => hnot ?_
  exact List.mem_map.2 ⟨x, List.mem_filter.2 ⟨hmem, hf⟩, rfl⟩

theorem Dev.ethOut_vers (d : Dev) (port : Nat) (o : Output) : (d.ethOut port o).vers = d.vers := by
  unfold Dev.ethOut Dev.hold
  repeat' split
  · rfl
  · exact (Dev.event_onlyAnswers _ _).vers
  · rfl

theorem Dev.post_onlyAnswers (d : Dev) (c : Carrier) (port : Nat) (o : Output) : d.OnlyAnswers (d.post c port o) := by
  refine .of_same (d.post_dict c port o) ?_
  unfold Dev.post
  split
  · exact d.ethOut_vers port o
  · dsimp only
    split <;> rfl
  · rfl

theorem Dev.sessionAnswer_onlyAnswers (d : Dev) (se : Session) (tag op seg : Nat) (more : Bool) (a : Ans) :
    d.OnlyAnswers (d.sessionAnswer se tag op seg more a) := by
  unfold Dev.sessionAnswer
  split
  · exact .refl d
  · next now _ =>
    have hseq : d.OnlyAnswers (d.onSession se.id fun s => { s with devSeq := now.devSeq + 1 }) := .onSession d se.id fun _ => rfl
    dsimp only
    generalize d.onSession se.id _ = e at hseq
    split
    · exact (hseq.trans (e.post_onlyAnswers _ _ _)).trans (Dev.endSession_onlyAnswers _ _ _)
    · exact hseq.trans (e.post_onlyAnswers _ _ _)

theorem Dev.sendSegments_onlyAnswers (se : Session) (tag op : Nat) (a : Ans) (l : List Bytes) (i : Nat) (d : Dev) :
    d.OnlyAnswers (d.sendSegments se tag op a i l) := by
  induction l generalizing i d with
  | nil => exact .refl d
  | cons b l ih => exact (d.sessionAnswer_onlyAnswers _ _ _ _ _ _).trans (ih (i + 1) _)

theorem Dev.answerAll_onlyAnswers (d : Dev) (se : Session) (tag op : Nat) (a : Ans) :
    d.OnlyAnswers (d.answerAll se tag op a) := by
  unfold Dev.answerAll
  split
  · exact Dev.sendSegments_onlyAnswers _ _ _ _ _ _ _
  · exact d.sessionAnswer_onlyAnswers _ _ _ _ _ _

theorem Dev.absentReply_onlyAnswers (d : Dev) (i : Nat) : d.OnlyAnswers (d.absentReply i) := by
  unfold Dev.absentReply
  split <;> exact .of_same rfl rfl

theorem Dev.complete_onlyAnswers (d : Dev) (sid tag op : Nat) (payload : Bytes) (seq : Nat) (a : Ans) :
    d.OnlyAnswers (d.complete sid tag op payload seq a) := by
  have habsent : ∀ b, d.OnlyAnswers (d.when b fun d => d.absentReply a.detail) := fun b => by
    cases b
    · exact .refl d
    · exact d.absentReply_onlyAnswers _
  unfold Dev.complete
  split
  · exact .refl d
  · dsimp only
    refine ((habsent (a.status == Sc.absent)).trans (.onSession _ sid ?_)).trans (Dev.answerAll_onlyAnswers _ _ _ _ _)
    exact fun _ => rfl

theorem Dev.settle_onlyAnswers (d0 d : Dev) : d.OnlyAnswers (d0.settle d) := by
  refine .of_same (Dev.settle_dict d0 d) ?_
  unfold Dev.settle
  simp

end Sys2Proof.Machine
end

section
/-! HELLO, HELLO_CLOSE, the session timers and the result cache (04_dictionary R96, R97, R101). -/
namespace Sys2Proof.Machine

theorem Dev.newSid_ne_zero (d : Dev) : d.newSid ≠ 0 := by
  unfold Dev.newSid
  dsimp only
  split
  · next h => exact h.1
  · cases hf : (List.range (d.dict.usedIds.length + 2)).find? fun n => n != 0 && !d.dict.usedIds.contains n with
    | none => decide
    | some n =>
      have hn := List.find?_some hf
      simp only [Bool.and_eq_true, bne_iff_ne] at hn
      exact hn.1

/-- An answer that does not spend the last device sequence leaves its session with the next. -/
theorem Dev.sessionAnswer_session {d : Dev} {se : Session} {tag op seg : Nat} {more : Bool} {a : Ans}
    (hs : d.session se.id = some se) (hseq : se.devSeq + 1 < 4294967295) :
    (d.sessionAnswer se tag op seg more a).session se.id = some { se with devSeq := se.devSeq + 1 } := by
  unfold Dev.sessionAnswer
  rw [hs]
  dsimp only
  rw [if_neg (Nat.not_le.2 hseq), Dev.session_congr (Dev.post_dict _ _ _ _), Dev.onSession_session, hs]
  · rfl
  · exact fun _ => rfl

/-- The session that a HELLO opens, before its answer. -/
def Dev.newSession (d : Dev) (hd : Hdr) (part : Nat) (nh : Bytes) : Session :=
  { id := d.newSid, part := part, carrier := hd.carrier, key := sessionKey (d.keyOf part) nh d.newNonce, confirmed := false,
    hi := 0, accepted := [], devSeq := 0, opened := d.ext, lastReq := d.ext, outst := [], cache := [], subs := [],
    ethPort := hd.ethPort }

/-- A HELLO adds its session, whose first answer goes out. -/
theorem Dev.openSession_adds {d : Dev} {hd : Hdr} {part : Nat} {nh : Bytes} (hfree : d.session d.newSid = none) :
    (d.openSession hd part nh).session d.newSid = some { d.newSession hd part nh with devSeq := 1 }
      ∧ d.newSid ∈ (d.openSession hd part nh).dict.usedIds := by
  let f : Dev := { d.drawn with dict := { d.dict with
    sessions := d.dict.sessions ++ [d.newSession hd part nh], usedIds := d.newSid :: d.dict.usedIds } }
  let g : Dev := (f.bump Ob.sessionsOpen).bump (Ob.partActiveSessions (part % 8))
  have hg : g.session d.newSid = some (d.newSession hd part nh) := by
    show (d.dict.sessions ++ [d.newSession hd part nh]).find? (fun s => s.id == d.newSid) = _
    rw [List.find?_append, show d.dict.sessions.find? (fun s => s.id == d.newSid) = none from hfree]
    simp [Dev.newSession]
  have hopen : ∃ a ev, d.openSession hd part nh
      = (g.sessionAnswer (d.newSession hd part nh) hd.tag Op.hello 0 false a).event ev := ⟨_, _, rfl⟩
  obtain ⟨a, ev, hopen⟩ := hopen
  rw [hopen]
  refine ⟨?_, ?_⟩
  · rw [Dev.session_congr (Dev.event_dict _ _)]
    exact Dev.sessionAnswer_session (se := d.newSession hd part nh) hg (show 0 + 1 < 4294967295 by decide)
  · rw [Dev.event_dict, (g.sessionAnswer_onlyAnswers _ _ _ _ _ _).usedIds]
    exact List.mem_cons_self

theorem hello_runs {s : State} {hd : Hdr} {part : Nat} {nh : Bytes}
    (hpre : s.dev.preCheck hd Op.hello (helloPayload part 0 nh) = none) (hlen : nh.length = 8)
    (hmay : s.dev.mayOpen hd.carrier part = true) (hlimit : s.dev.atLimit part = false)
    (hfree : s.dev.session s.dev.newSid = none) :
    Runs (.hello hd part nh) s fun d => s.dev.newSid ≠ 0 ∧ s.dev.newSid ∈ d.dict.usedIds
      ∧ ∃ x, d.session s.dev.newSid = some x ∧ x.part = part ∧ x.carrier = hd.carrier ∧ x.confirmed = false ∧ x.devSeq = 1
        ∧ x.key = sessionKey (s.dev.keyOf part) nh s.dev.newNonce := by
  refine Runs.of_onDev (show execHello hd part nh s = onDev _ s from rfl) ?_
  rw [hpre]
  dsimp only
  rw [if_neg (not_not.2 hlen), hmay, hlimit]
  obtain ⟨hsession, hused⟩ := Dev.openSession_adds (hd := hd) (part := part) (nh := nh) hfree
  refine ⟨s.dev.newSid_ne_zero, ?_, _, (Dev.session_congr (Dev.settle_dict _ _) _).trans hsession, rfl, rfl, rfl, rfl, rfl⟩
  rw [Dev.settle_dict]
  exact hused

theorem helloClose_runs {s : State} {hd : Hdr} {part : Nat} {nh : Bytes} {e : Dev} {se : Session}
    (hgo : s.dev.admission hd Op.hello (helloPayload part 1 nh) false = .go e se) :
    Runs (.helloClose hd part nh) s fun d => d.session se.id = none := by
  refine Runs.of_onDev (show execHelloClose hd part nh s = onDev _ s from rfl) ?_
  dsimp only
  rw [hgo, Dev.session_congr (Dev.settle_dict _ _)]
  exact Dev.endSession_session _ _ _

theorem sessionConfirmTimeout_runs {s : State} {sid : Nat} {se : Session} (hs : s.dev.session sid = some se)
    (hc : se.confirmed = false) (ht : 5000000000 ≤ s.dev.ago se.opened) :
    Runs (.sessionConfirmTimeout sid) s fun d => d.session sid = none := by
  refine Runs.of_onDev (show execSessionConfirmTimeout sid s = onDev _ s from rfl) ?_
  rw [hs, Dev.session_congr (Dev.settle_dict _ _)]
  dsimp only
  rw [if_neg (by simp [hc, ht])]
  exact Dev.endSession_session _ _ _

theorem sessionIdleTimeout_runs {s : State} {sid : Nat} {se : Session} (hs : s.dev.session sid = some se)
    (hc : se.confirmed = true) (ht : s.dev.nat Ob.sessionIdleTimeout * 1000000000 ≤ s.dev.ago se.lastReq) :
    Runs (.sessionIdleTimeout sid) s fun d => d.session sid = none := by
  refine Runs.of_onDev (show execSessionIdleTimeout sid s = onDev _ s from rfl) ?_
  rw [hs, Dev.session_congr (Dev.settle_dict _ _)]
  dsimp only
  rw [if_pos (by simp [hc, ht])]
  exact Dev.endSession_session _ _ _

theorem resultCacheExpiry_runs {s : State} {sid : Nat} {se : Session} (hs : s.dev.session sid = some se) :
    Runs (.resultCacheExpiry sid) s fun d => ∀ x, d.session sid = some x →
      x.cache = s.dev.freshCache se.cache ∧ x.outst = se.outst ∧ x.subs = se.subs := by
  refine Runs.of_onDev (show execResultCacheExpiry sid s = onDev _ s from rfl) fun x hx => ?_
  rw [Dev.session_congr (Dev.settle_dict _ _), Dev.onSession_session, hs] at hx
  · obtain rfl := Option.some.inj hx
    exact ⟨rfl, rfl, rfl⟩
  · exact fun _ => rfl

/-- Settles O26: a HELLO adds its session, and closing or a timer that has run out leaves none under the ID. -/
theorem sessionCommandsRun : Obligations.SessionCommandsRun :=
  ⟨fun _ _ _ _ hpre hlen hmay hlimit hfree => hello_runs hpre hlen hmay hlimit hfree, fun _ _ _ _ _ _ hgo => helloClose_runs hgo,
    fun _ _ _ hs hc ht => sessionConfirmTimeout_runs hs hc ht, fun _ _ _ hs hc ht => sessionIdleTimeout_runs hs hc ht,
    fun _ _ _ hs => resultCacheExpiry_runs hs⟩

end Sys2Proof.Machine
end

section
/-! The CAN controllers (04_dictionary R107): bus-off, restart and recovery. -/
namespace Sys2Proof.Machine

/-- The objects of CAN controller `ctl` keep no books. -/
theorem canObj_not_book {ctl k : Nat} (hctl : ctl < 2) (h : k / 256 % 65536 = 0x1210 + ctl) : ¬ BookKey k := by
  unfold BookKey
  omega

/-- Settings come into force as they are written: no copy in force is itself a setting written. -/
theorem Dev.each_inForce {l : List Nat} {k : Nat} (hk : k < 16777216) (d : Dev) :
    (d.each l fun d k => d.set (canInForce k) (d.reg k)).reg (canInForce k)
      = if k ∈ l then d.reg k else d.reg (canInForce k) := by
  induction l generalizing d with
  | nil => rfl
  | cons j l ih =>
    have hwritten : (d.set (canInForce j) (d.reg j)).reg k = d.reg k := by
      rw [Dev.reg_set, if_neg (by unfold canInForce inst; omega)]
    have hforce : canInForce k = canInForce j ↔ k = j := Nat.add_right_cancel_iff
    refine (ih _).trans ?_
    rw [hwritten, Dev.reg_set]
    simp only [hforce, List.mem_cons]
    by_cases hj : k = j
    · simp [hj]
    · simp [hj]

/-- The bit rates and the recovery lie in their controller's index. -/
theorem canSetting_index {ctl k : Nat}
    (hk : k ∈ [Ob.canNominalBitRate ctl, Ob.canDataBitRate ctl, Ob.canBusOffRecovery ctl]) : k / 256 = 0x1210 + ctl := by
  simp only [List.mem_cons, List.not_mem_nil, or_false, Ob.canNominalBitRate, Ob.canDataBitRate, Ob.canBusOffRecovery] at hk
  omega

theorem Dev.restartCan_inForce (d : Dev) {ctl k : Nat} (hctl : ctl < 2)
    (hk : k ∈ [Ob.canNominalBitRate ctl, Ob.canDataBitRate ctl, Ob.canBusOffRecovery ctl]) :
    (d.restartCan ctl).reg (canInForce k) = d.reg k := by
  have hcan := canSetting_index hk
  have happlied : (d.applyCan ctl).reg (canInForce k) = d.reg k := by
    refine (Dev.each_inForce (by omega) d).trans (if_pos ?_)
    simp only [List.mem_cons, List.not_mem_nil, or_false] at hk ⊢
    tauto
  rw [Dev.restartCan, Dev.reg_set, if_neg, happlied]
  unfold canInForce inst Ob.canErrorState
  omega

theorem Ob.canErrorState_plain (ctl : Fin 2) :
    Ob.canErrorState ctl / 256 % 65536 = 0x1210 + ctl ∧ Ob.canErrorState ctl ≠ Ob.safeOutputState := by
  unfold Ob.canErrorState Ob.safeOutputState
  omega

theorem canBusOff_runs {ctl : Fin 2} {s : State} (h : s.dev.reg (Ob.canErrorState ctl) ≠ 2) :
    Runs (.canBusOff ctl) s fun d => d.reg (Ob.canErrorState ctl) = 2 ∧ (∀ x ∈ d.dict.sessions, x.onCan ctl = false)
      ∧ s.dev.KeepsRegs d [Ob.canErrorState ctl] := by
  refine Runs.of_onDev (show execCanBusOff ctl s = onDev _ s from rfl) ?_
  rw [if_neg h]
  have hreg : ∀ k, ¬ BookKey k → k ≠ Ob.safeOutputState → (s.dev.settle
      (((s.dev.set (Ob.canErrorState ctl) 2).endSessions .canBusOff fun se => se.onCan ctl).event
        { code := 0x2008, island := Isl.ctl, iface := 1, d1 := (ctl : Nat) })).reg k
      = if k = Ob.canErrorState ctl then 2 else s.dev.reg k := fun k hb hs => by
    rw [Dev.settle_reg _ _ hs, Dev.event_reg _ _ hb, Dev.endSessions_reg _ _ _ hb, Dev.reg_set]
  refine ⟨?_, ?_, fun k hb hs hk => ?_⟩
  · rw [hreg _ (canObj_not_book ctl.isLt (Ob.canErrorState_plain ctl).1) (Ob.canErrorState_plain ctl).2, if_pos rfl]
  · rw [Dev.settle_dict, Dev.event_dict]
    exact Dev.endSessions_gone _ _ _
  · rw [hreg k hb hs, if_neg (by simpa using hk)]

theorem canRestart_runs (ctl : Fin 2) : SetRuns (fun hd cond => .canRestart hd cond ctl) {} (0x1210 + ctl) 9 [1] fun d _ _ d' =>
    d'.reg (Ob.canErrorState ctl) = 0 ∧ (∀ x ∈ d'.dict.sessions, x.onCan ctl = false)
      ∧ (∀ k ∈ [Ob.canNominalBitRate ctl, Ob.canDataBitRate ctl, Ob.canBusOffRecovery ctl], d'.reg (canInForce k) = d.reg k) := by
  intro s hd cond e se n hg
  refine Runs.of_onDev (show execCanRestart hd cond ctl s = onDev _ s from rfl) ?_
  rw [hg]
  dsimp only
  have hreg : ∀ k : Nat, k / 256 % 65536 = 0x1210 + (ctl : Nat) → (s.dev.settle (((e.restartCan ctl).finishWrite hd cond (0x1210 + ctl) 9 [1]
      se).endSessions .canRestart fun se => se.onCan ctl)).reg k = (e.restartCan ctl).reg k := fun k hk => by
    have hb : ¬ BookKey k := canObj_not_book ctl.isLt hk
    rw [Dev.settle_reg _ _ (by unfold Ob.safeOutputState; omega), Dev.endSessions_reg _ _ _ hb, Dev.finishWrite_reg _ _ _ _ _ _ _ hb]
  refine ⟨?_, ?_, fun k hk => ?_⟩
  · rw [hreg _ (Ob.canErrorState_plain ctl).1]
    exact (Dev.reg_set _ _ _ _).trans (if_pos rfl)
  · rw [Dev.settle_dict]
    exact Dev.endSessions_gone _ _ _
  · have hkey : canInForce k / 256 % 65536 = 0x1210 + (ctl : Nat) := by
      have hcan := canSetting_index hk
      unfold canInForce inst
      omega
    rw [hreg _ hkey, Dev.restartCan_inForce e ctl.isLt hk, (Dev.writeGate_passed hg).reg]

theorem canBusOffRecovery_runs {ctl : Fin 2} {s : State} (h : s.dev.reg (Ob.canErrorState ctl) = 2)
    (ha : s.dev.reg (canInForce (Ob.canBusOffRecovery ctl)) = 0) :
    Runs (.canBusOffRecovery ctl) s fun d => d.reg (Ob.canErrorState ctl) = 0 ∧ s.dev.KeepsRegs d [Ob.canErrorState ctl] := by
  refine Runs.of_onDev (show execCanBusOffRecovery ctl s = onDev _ s from rfl) ?_
  rw [if_pos (by simp [h, ha])]
  refine ⟨?_, fun k _ hs hk => ?_⟩
  · rw [Dev.settle_reg _ _ (Ob.canErrorState_plain ctl).2, Dev.reg_set, if_pos rfl]
  · rw [Dev.settle_reg _ _ hs, Dev.reg_set, if_neg (by simpa using hk)]

/-- Settles O28: each command by what it sets, which no answer or end of a session touches. -/
theorem canCommandsRun : Obligations.CanCommandsRun := fun ctl =>
  ⟨fun _ h => canBusOff_runs h, canRestart_runs ctl, fun _ h ha => canBusOffRecovery_runs h ha⟩

end Sys2Proof.Machine
end

section
/-! Commits, block timeouts, subscriptions, ABORT and RestoreDefaults (04_dictionary R87, R103, R105, R106, R416). -/
namespace Sys2Proof.Machine

/-! Commits. -/

theorem Dev.toFlash_flashVal (d : Dev) (k : Nat) (v : Int) : (d.toFlash (k, v)).flashVal k = v := by
  unfold Dev.toFlash Dev.flashVal
  by_cases hv : v = objDefault k <;> simp [hv]

theorem Dev.driveAnalog_reg (d : Dev) (ch : Nat) (code : Int) (k : Nat) : (d.driveAnalog ch code).reg k = d.reg k := by
  unfold Dev.driveAnalog
  split <;> rfl

theorem Dev.analogSafe_reg (d : Dev) (ch k : Nat) : (d.analogSafe ch).reg k = d.reg k := d.driveAnalog_reg ch _ k

theorem Dev.safeCommitted_reg (d : Dev) (vals : List (Nat × Int)) {k : Nat} (hk : k ≠ Ob.safeRecordValid) :
    (d.safeCommitted vals).reg k = d.reg k := by
  unfold Dev.safeCommitted
  split
  · rfl
  · refine (Dev.each_keeps (g := fun d => d.reg k) (fun d ch => ?_) _ _).trans ?_
    · split
      · rfl
      · exact d.analogSafe_reg ch k
    · rw [Dev.reg_setB, if_neg hk]

/-- What a commit leaves before its request is answered. -/
def Dev.committed (d : Dev) (c : Commit) : Dev :=
  (((d.each c.vals Dev.toFlash).each c.blobs Dev.blobToFlash).bump Ob.persistCommits).safeCommitted c.vals

theorem Dev.commitDone_eq (d : Dev) (c : Commit) : d.commitDone c = if c.sid = 0 then d.committed c
    else (d.committed c).complete c.sid c.tag c.op c.payload c.seq { status := Sc.ok, ver := c.ver, detail := c.detail } := rfl

theorem Dev.committed_keeps (d : Dev) (c : Commit) : (d.committed c).dict = d.dict
    ∧ (d.committed c).reg Ob.persistCommits = wrapTy (keyTy Ob.persistCommits) (d.reg Ob.persistCommits + 1) := by
  have hflash : ∀ {β : Type} (g : Dev → β), (∀ d x, g (Dev.toFlash d x) = g d) → (∀ d x, g (Dev.blobToFlash d x) = g d) →
      g ((d.each c.vals Dev.toFlash).each c.blobs Dev.blobToFlash) = g d := fun g hv hb =>
    (Dev.each_keeps hb _ _).trans (Dev.each_keeps hv _ _)
  refine ⟨?_, ?_⟩
  · unfold Dev.committed
    rw [(Dev.safeCommitted_within (M := 256) (by exact rfl) (.refl _) _).dict rfl]
    exact hflash Dev.dict (fun _ _ => rfl) fun _ _ => rfl
  · unfold Dev.committed
    rw [Dev.safeCommitted_reg _ _ (by decide), Dev.reg_bump, if_pos rfl, hflash (fun d => d.reg Ob.persistCommits) (fun _ _ => rfl)
      fun _ _ => rfl]

theorem Dev.committed_flashVal (d : Dev) {c : Commit} {k : Nat} {v : Int} (hc : c.vals = [(k, v)]) :
    (d.committed c).flashVal k = v := by
  have hflash : (d.committed c).flash = (d.toFlash (k, v)).flash := by
    unfold Dev.committed
    rw [((Dev.safeCommitted_within (M := 256) (by exact rfl) (.refl _) _).flash rfl).1, hc]
    exact Dev.each_keeps (g := Dev.flash) (f := Dev.blobToFlash) (fun _ _ => rfl) _ _
  refine Eq.trans ?_ (d.toFlash_flashVal k v)
  unfold Dev.flashVal
  rw [hflash]

theorem rwpCommitDone_runs {s : State} {c : Commit} {cs : List Commit} (h : s.dev.dict.commits = c :: cs) :
    Runs .rwpCommitDone s fun d => d.dict.commits = cs
      ∧ d.reg Ob.persistCommits = wrapTy (keyTy Ob.persistCommits) (s.dev.reg Ob.persistCommits + 1)
      ∧ (∀ k v, c.vals = [(k, v)] → d.flashVal k = v)
      ∧ ((d.session c.sid).isSome = true → c.sid ≠ 0 →
        d.lastAnswer c.sid = some { status := Sc.ok, ver := c.ver, detail := c.detail }) := by
  refine Runs.of_onDev (show execRwpCommitDone s = onDev _ s from rfl) ?_
  rw [h]
  dsimp only
  generalize hf : ({ s.dev with dict := { s.dev.dict with commits := cs } } : Dev) = f
  have hanswers : (f.committed c).OnlyAnswers (f.commitDone c) := by
    rw [Dev.commitDone_eq]
    split
    · exact .refl _
    · exact Dev.complete_onlyAnswers _ _ _ _ _ _ _
  have hreg : ∀ k, ¬ BookKey k → (f.commitDone c).reg k = (f.committed c).reg k := fun k hk => by
    rw [Dev.commitDone_eq]
    split
    · rfl
    · exact Dev.complete_reg _ _ _ _ _ _ _ hk
  have hflash : (f.commitDone c).flash = (f.committed c).flash := by
    rw [Dev.commitDone_eq]
    split
    · rfl
    · simp
  obtain ⟨hdict, hcount⟩ := f.committed_keeps c
  refine ⟨?_, ?_, fun k v hc => ?_, fun hs hsid => ?_⟩
  · rw [Dev.settle_dict, hanswers.commits, hdict, ← hf]
  · rw [Dev.settle_reg _ _ (by decide), hreg _ (by decide), hcount, ← hf]
    rfl
  · refine Eq.trans ?_ (f.committed_flashVal hc)
    unfold Dev.flashVal
    rw [← hflash]
    simp [Dev.settle]
  · rw [Dev.commitDone_eq, if_neg hsid] at hs ⊢
    exact Dev.settle_complete_lastAnswer (.inl rfl) hs

/-! Block writes. -/

/-- A block write that fails is gone, whatever its answer. -/
theorem Dev.failBlock_block (d : Dev) (b : Block) (a : Ans) : (d.failBlock b a).block b.sid b.tag = none :=
  Dev.block_none_of_subset (Dev.complete_onlyAnswers _ _ _ _ _ _ _).blocks
    (Dev.block_none_of_subset (Dev.event_onlyAnswers _ _).blocks (d.dropBlock_block b.sid b.tag))

theorem Dev.settle_block (d0 d : Dev) (sid tag : Nat) : (d0.settle d).block sid tag = d.block sid tag := by
  unfold Dev.block
  rw [Dev.settle_dict]

theorem blockGapTimeout_runs {s : State} {sid tag : Nat} {b : Block} (hb : s.dev.block sid tag = some b)
    (ht : s.dev.nat Ob.blockGapTimeout * 1000000 ≤ s.dev.ago b.lastSeg) :
    Runs (.blockGapTimeout sid tag) s fun d => d.block sid tag = none
      ∧ ((d.session sid).isSome = true → d.lastAnswer sid = some { status := Sc.blockTimeout, ver := s.dev.ver b.key }) := by
  refine Runs.of_onDev (show execBlockGapTimeout sid tag s = onDev _ s from rfl) ?_
  rw [hb]
  dsimp only
  rw [if_neg (Nat.not_lt.2 ht)]
  obtain ⟨rfl, rfl⟩ := Dev.block_sid_tag hb
  refine ⟨by rw [Dev.settle_block, Dev.failBlock_block], fun hs => ?_⟩
  rw [Dev.session_congr (Dev.settle_dict _ _)] at hs
  rw [Dev.settle_lastAnswer]
  exact Dev.complete_lastAnswer (show Sc.blockTimeout ≠ Sc.busy by decide) (show Sc.blockTimeout ≠ Sc.absent by decide) hs

/-! Subscriptions. -/

/-- A completed request leaves the subscriptions of every session. -/
theorem Dev.settle_complete_subs {d0 d : Dev} {sid tag op : Nat} {payload : Bytes} {seq : Nat} {a : Ans} {x : Session} {n : Nat}
    (h : (d0.settle (d.complete sid tag op payload seq a)).session n = some x) :
    ∃ y, d.session n = some y ∧ x.subs = y.subs := by
  rw [Dev.session_congr (Dev.settle_dict _ _)] at h
  obtain ⟨y, hy, hxy⟩ := (d.complete_onlyAnswers sid tag op payload seq a).session n x h
  exact ⟨y, hy, hxy.subs⟩

/-- A subscription added to a session is one of its subscriptions. -/
theorem Dev.mem_subs_of_added {d d' : Dev} {sid : Nat} {w : Subscr} {y : Session}
    (hd : d'.dict.sessions = (d.onSession sid fun s => { s with subs := s.subs ++ [w] }).dict.sessions)
    (hy : d'.session sid = some y) : w ∈ y.subs := by
  unfold Dev.session at hy
  rw [hd] at hy
  obtain ⟨z, -, rfl⟩ := Option.map_eq_some_iff.1 
    ((d.onSession_session sid (f := fun s => { s with subs := s.subs ++ [w] }) fun _ => rfl).symm.trans hy)
  exact List.mem_append_right z.subs (List.mem_singleton.2 rfl)

theorem subscribe_runs {idx sub mode interval : Nat} (hmode : mode = 1 ∨ mode = 2) (hlo : 1 ≤ interval) (hhi : interval ≤ 60000) :
    ReadRuns (fun hd => .subscribe hd idx sub mode interval) Op.subscribe (subscribePayload idx sub mode interval) idx sub
      fun e se _ d' => se.subs.length < 64 → e.subsCount < 512 → ∀ x, d'.session se.id = some x →
        (∃ y ∈ x.subs, y.handle = e.dict.nextHandle ∧ y.key = idx * 256 + sub ∧ y.mode = mode ∧ y.interval = interval)
        ∧ d'.lastAnswer se.id = some { status := Sc.ok, ver := e.ver (idx * 256 + sub), detail := e.dict.nextHandle } := by
  intro s hd e se r hg
  refine Runs.of_onDev (show execSubscribe hd idx sub mode interval s = onDev _ s from rfl) fun hsubs hcount x hx => ?_
  have hgood : (!(mode == 1 || mode == 2) || interval == 0 || decide (60000 < interval)) = false := by
    rcases hmode with rfl | rfl <;> simp <;> omega
  dsimp only at hx ⊢
  rw [hgood, if_neg (by decide), hg] at hx ⊢
  dsimp only at hx ⊢
  rw [if_neg (Nat.not_le.2 hsubs), if_neg (Nat.not_le.2 hcount)] at hx ⊢
  refine ⟨?_, Dev.settle_complete_lastAnswer (.inl rfl) (by rw [hx]; rfl)⟩
  obtain ⟨y, hy, hxy⟩ := Dev.settle_complete_subs hx
  exact ⟨_, hxy ▸ Dev.mem_subs_of_added (d := e) rfl hy, rfl, rfl, rfl, rfl⟩

theorem subscribeCancel_runs (idx sub handle : Nat) : ReadRuns (fun hd => .subscribeCancel hd idx sub handle) Op.subscribe
    (subscribePayload idx sub 0 0 ++ leBytes 2 handle) idx sub
    fun _ se _ d' => (se.subs.any fun x => x.handle == handle) = true → ∀ x, d'.session se.id = some x →
      ∀ y ∈ x.subs, y.handle ≠ handle := by
  intro s hd e se r hg
  refine Runs.of_onDev (show execSubscribeCancel hd idx sub handle s = onDev _ s from rfl) fun hany x hx => ?_
  dsimp only at hx
  rw [hg] at hx
  dsimp only at hx
  rw [if_pos hany] at hx
  obtain ⟨y, hy, hxy⟩ := Dev.settle_complete_subs hx
  rw [Dev.onSession_session] at hy
  · obtain ⟨z, -, rfl⟩ := Option.map_eq_some_iff.1 hy
    intro t ht
    rw [hxy] at ht
    simpa using (List.mem_filter.1 ht).2
  · exact fun _ => rfl

/-! ABORT. -/

theorem Dev.abortCommit_blocks (d : Dev) (c : Commit) : (d.abortCommit c).dict.blocks ⊆ d.dict.blocks := by
  unfold Dev.abortCommit
  exact (Dev.complete_onlyAnswers _ _ _ _ _ _ _).blocks

theorem abort_runs {s : State} {hd : Hdr} {tag : Nat} {e : Dev} {se : Session}
    (hgo : s.dev.admission hd Op.abort (leBytes 2 tag ++ leBytes 2 0) false = .go e se) :
    Runs (.abort hd tag) s fun d => d.block se.id tag = none
      ∧ ((d.session se.id).isSome = true → d.lastAnswer se.id = some
          { status := Sc.ok, detail := if (e.block se.id tag).isSome || (e.commitOf se.id tag).isSome then 1 else 0 }) := by
  refine Runs.of_onDev (show execAbort hd tag s = onDev _ s from rfl) ?_
  dsimp only
  rw [hgo]
  dsimp only
  have hdone : ∀ (f : Dev) n, f.block se.id tag = none →
      ∀ d, d = s.dev.settle (f.complete se.id hd.tag Op.abort (leBytes 2 tag ++ leBytes 2 0) hd.seq { status := Sc.ok, detail := n }) →
      d.block se.id tag = none ∧ ((d.session se.id).isSome = true → d.lastAnswer se.id = some { status := Sc.ok, detail := n }) :=
    fun f n hb d hd => by
      subst hd
      refine ⟨?_, Dev.settle_complete_lastAnswer (.inl rfl)⟩
      rw [Dev.settle_block]
      exact Dev.block_none_of_subset (Dev.complete_onlyAnswers _ _ _ _ _ _ _).blocks hb
  cases hb : e.block se.id tag with
  | some b =>
    obtain ⟨hsid, htag⟩ := Dev.block_sid_tag hb
    refine hdone _ 1 ?_ _ rfl
    rw [← hsid, ← htag]
    exact e.failBlock_block b _
  | none =>
    cases hc : e.commitOf se.id tag with
    | some c =>
      have hgone : (e.abortCommit c).block se.id tag = none := Dev.block_none_of_subset (e.abortCommit_blocks c) hb
      exact hdone _ 1 hgone _ rfl
    | none => exact hdone e 0 hb _ rfl

/-! RestoreDefaults. -/

theorem Dev.finishWrite_of_rw (f : Dev) (hd : Hdr) (cond : Option Nat) {idx sub : Nat} (v : Bytes) (se : Session) {r : ObjRow}
    (hr : objRow idx sub = some r) (hrw : r.rwp = false) :
    f.finishWrite hd cond idx sub v se = (f.bumpVer (idx * 256 + sub)).complete se.id hd.tag Op.write
      (writePayload idx sub cond v) hd.seq { status := Sc.ok, ver := (f.bumpVer (idx * 256 + sub)).ver (idx * 256 + sub) } := by
  simp only [Dev.finishWrite, hr, hrw, Bool.false_eq_true, if_false]

theorem restoreDefaults_runs (v : Bytes) : SetRuns (fun hd cond => .restoreDefaults hd cond v) {} 0x1001 1 v fun d _ _ d' =>
    d'.dict.restore = true ∧ d.KeepsRegs d' [] := by
  intro s hd cond e se n hg
  refine Runs.of_onDev (show execRestoreDefaults hd cond v s = onDev _ s from rfl) ?_
  rw [Dev.writeReq_pass hg]
  refine ⟨?_, fun k hk hs _ => ?_⟩
  · obtain ⟨r, hr, hrw⟩ : ∃ r, objRow 0x1001 1 = some r ∧ r.rwp = false := ⟨_, rfl, rfl⟩
    rw [Dev.settle_dict, Dev.finishWrite_of_rw _ _ _ _ _ hr hrw, (Dev.complete_onlyAnswers _ _ _ _ _ _ _).restore]
    rfl
  · exact (((Dev.finishWrite_finished _ hd cond _ _ v se).trans (Dev.settle_finished _ _)).reg k hk hs).trans
      ((Dev.writeGate_passed hg).reg k)

/-- Settles O27. -/
theorem requestCommandsRun : Obligations.RequestCommandsRun :=
  ⟨fun _ _ _ => rwpCommitDone_runs, fun _ _ _ _ => blockGapTimeout_runs, fun _ _ _ _ => subscribe_runs, subscribeCancel_runs,
    fun _ _ _ _ _ => abort_runs, restoreDefaults_runs⟩

end Sys2Proof.Machine
end

section
/-! The last segment of a block write (04_dictionary R92, R97, R103): what no effect of a write does to the open blocks. -/
namespace Sys2Proof.Machine

/-- From `d` to `d'` no block write is opened or changed. -/
def Dev.NoNewBlock (d d' : Dev) : Prop := d'.dict.blocks ⊆ d.dict.blocks

namespace Dev.NoNewBlock
variable {a b c d d' : Dev}

theorem refl (d : Dev) : d.NoNewBlock d := List.Subset.refl _

theorem trans (h : a.NoNewBlock b) (k : b.NoNewBlock c) : a.NoNewBlock c := List.Subset.trans k h

theorem of_eq (h : d'.dict.blocks = d.dict.blocks) : d.NoNewBlock d' := by
  unfold Dev.NoNewBlock
  rw [h]
  exact List.Subset.refl _

/-- A change that leaves the dictionary's part of the state alone. -/
theorem of_within {M : Nat} (h : Within M d d') (hM : M.testBit 21 = false) : d.NoNewBlock d' :=
  of_eq (congrArg Dict.blocks (h.dict hM))

theorem of_answers (h : d.OnlyAnswers d') : d.NoNewBlock d' := h.blocks

theorem ite {p : Prop} [Decidable p] (h : a.NoNewBlock b) (k : a.NoNewBlock c) : a.NoNewBlock (if p then b else c) := by
  split
  · exact h
  · exact k

theorem when {x : Bool} {f : Dev → Dev} (h : d.NoNewBlock (f d)) : d.NoNewBlock (d.when x f) := ite h (refl d)

theorem each {α : Type} {f : Dev → α → Dev} (h : ∀ (d : Dev) x, d.NoNewBlock (f d x)) (l : List α) (d : Dev) :
    d.NoNewBlock (d.each l f) := by
  unfold Dev.each
  induction l generalizing d with
  | nil => exact refl d
  | cons x l ih => exact (h d x).trans (ih _)

theorem block (h : d.NoNewBlock d') {sid tag : Nat} (hb : d.block sid tag = none) : d'.block sid tag = none :=
  Dev.block_none_of_subset h hb

end Dev.NoNewBlock

theorem Dev.endSessions_noNewBlock (d : Dev) (cause : EndCause) (f : Session → Bool) : d.NoNewBlock (d.endSessions cause f) :=
  .of_answers (d.endSessions_onlyAnswers cause f)

theorem Dev.fullReset_noNewBlock (d : Dev) (phase cause : Nat) : d.NoNewBlock (d.fullReset phase cause) :=
  List.nil_subset _

theorem Dev.plainRestart_noNewBlock (d : Dev) (cause : Nat) : d.NoNewBlock (d.plainRestart cause) := List.nil_subset _

/-! MIX is the one island whose quiesce commits something: filter changes that waited. -/

theorem Dev.commitFlip_noNewBlock (d : Dev) (h uid : Nat) (vals : List (Nat × Int)) : d.NoNewBlock (d.commitFlip h uid vals) := by
  have hcount : d.NoNewBlock (match d.pour h with
      | some p => if p.counted then d else d.countCommit.onPour h fun p => { p with counted := true }
      | none => d) := by
    split
    · exact .ite (.refl d) (.of_eq rfl)
    · exact .refl d
  unfold Dev.commitFlip
  exact .ite (.refl d) hcount

theorem Dev.startFilter_noNewBlock (d : Dev) (w : FilterWait) (j : Nat) : d.NoNewBlock (d.startFilter w j) := by
  unfold Dev.startFilter
  split
  · exact .of_within (M := 131072) (Dev.applyControl_within (by exact rfl) (.refl d) _ _ _ _ _ _) rfl
  · refine .trans (.of_within (M := 1179648) ?_ rfl) (Dev.commitFlip_noNewBlock _ _ _ _)
    refine Dev.onPour_within (by exact rfl) (Within.each (Dev.startRamp_within (by exact rfl) (Dev.shift_within (by exact rfl) (Within.each (.refl d) ?_) ..) ..) ?_) _ _
    · exact fun d x => Dev.bumpVer_within (by exact rfl) (Dev.set_within (.refl d) _ _) _
    · exact fun d x => Dev.pouredAt_within (by exact rfl) (.refl d) _ _

theorem Dev.mixStops_noNewBlock (d : Dev) : d.NoNewBlock d.mixStops := by
  have hfilters : ∀ (x : Dev) (l : List FilterWait), x.NoNewBlock (x.each l fun d w => d.startFilter w (d.sampleAt w.dom d.now)) :=
    fun x l => .each (fun d w => d.startFilter_noNewBlock w (d.sampleAt w.dom d.now)) l x
  have hrest : ∀ (x : Dev) (f : MixRt → MixRt) (l : List Nat),
      x.NoNewBlock ((x.onMix f).each l Dev.endFade).completePours.routesSilent := fun x f l =>
    .of_within (M := 1179931) (Dev.routesSilent_within (by exact rfl) (Dev.completePours_within (by exact rfl)
      (Within.each (Dev.onMix_within (by exact rfl) (.refl x) f) fun d k => Dev.endFade_within (by exact rfl) (.refl d) k))) rfl
  have hmix : ∀ f : MixRt → MixRt, d.NoNewBlock (d.onMix f) := fun _ => .of_eq rfl
  unfold Dev.mixStops
  exact ((hmix _).trans (hfilters _ _)).trans (hrest _ _ _)

theorem Dev.islandStops_noNewBlock (d : Dev) (i : Nat) : d.NoNewBlock (d.islandStops i) := by
  have hrest : ∀ {x : Dev}, Within 65011711 d x → d.NoNewBlock x := fun h => .of_within h rfl
  unfold Dev.islandStops
  refine .ite (d.endSessions_noNewBlock _ _) (.ite (hrest ?_) (.ite d.mixStops_noNewBlock (hrest ?_)))
  · exact Dev.abandonDie_within (by exact rfl) (.refl d) _
  · refine .ite (Dev.anaQuiesced_within (by exact rfl) (.refl d)) (.ite ?_ (.ite (Dev.virekCut_within (by exact rfl) (.refl d)) (.ite ?_ (.ite ?_ (.refl d)))))
    · exact Dev.refreshSlots_within (by exact rfl)
        (Dev.ptpPortCheck_within (by exact rfl) (Dev.portDown_within (by exact rfl) (Dev.set_within (.refl d) _ _) _) _) _
    · exact Dev.refreshSlots_within (by exact rfl) (.refl d) _
    · exact Dev.refreshChannels_within (by exact rfl) (.refl d)

theorem Dev.quiesce_noNewBlock (d : Dev) (i cause : Nat) : d.NoNewBlock (d.quiesce i cause) :=
  .trans (.of_within (M := 0) (Dev.closeIsland_within (by exact rfl) (.refl d) i cause) rfl) (Dev.islandStops_noNewBlock _ i)

theorem Dev.nextLive_noNewBlock (d : Dev) : d.NoNewBlock d.nextLive := by
  have hpow : ∀ f : PowRt → PowRt, d.NoNewBlock (d.onPow f) := fun _ => .of_eq rfl
  unfold Dev.nextLive
  dsimp only
  split
  · exact hpow _
  · exact (hpow _).trans (Dev.quiesce_noNewBlock _ _ _)

theorem Dev.activateLive_noNewBlock (d : Dev) : d.NoNewBlock d.activateLive := by
  have hlive : ∀ x : Dev, x.NoNewBlock x.nextLive.powerCheck := fun x =>
    x.nextLive_noNewBlock.trans (.of_within (M := 16777216) (Dev.powerCheck_within (by exact rfl) (.refl _)) rfl)
  unfold Dev.activateLive
  refine .trans ?_ (hlive _)
  refine .of_within (M := 16777344) (Dev.onPow_within (by exact rfl) (Dev.endClaim_within (by exact rfl) (Dev.set_within ?_ _ _)) _) rfl
  exact Dev.setN_within (by exact rfl) (Dev.set_within (Dev.set_within (Dev.onBoot_within (by exact rfl) (.refl d) _) _ _) _ _) _ _

theorem Dev.resetIsland_noNewBlock (d : Dev) (i : Nat) : d.NoNewBlock (d.resetIsland i) := by
  unfold Dev.resetIsland
  have hempty : ∀ x : Dev, x.NoNewBlock (x.emptyIsland i) := fun x =>
    .of_within (M := 0) (Dev.emptyIsland_within (by exact rfl) (.refl x) i) rfl
  exact .ite (hempty { d with islCause := kvPut d.islCause i 1 }) (.ite (d.quiesce_noNewBlock i 1) (.refl d))

theorem Dev.holdIsland_noNewBlock (d : Dev) (i : Nat) : d.NoNewBlock (d.holdIsland i) := by
  unfold Dev.holdIsland
  exact .ite (d.quiesce_noNewBlock i 4) (.refl d)

/-! What follows a plain write. -/

theorem Dev.partWritten_noNewBlock (d : Dev) (p sub : Nat) : d.NoNewBlock (d.partWritten p sub) := by
  unfold Dev.partWritten
  refine .ite ?_ (.refl d)
  exact (d.endSessions_noNewBlock _ _).trans (.when (.of_within (M := 524288) (Dev.closeConns_within (by exact rfl) (.refl _) _ _) rfl))

theorem Dev.changed_noNewBlock (d0 d : Dev) (k t : Nat) : d.NoNewBlock (d0.changed d k t) := by
  unfold Dev.changed
  dsimp only
  refine .ite (d.partWritten_noNewBlock _ _) (.of_within (M := 17823494) ?_ rfl)
  repeat' first
    | (with_reducible first
        | exact .refl _ | apply Dev.beaconWritten_within | apply Dev.channelFlipped_within
        | apply Dev.classWritten_within | apply Dev.closeConns_within | apply Dev.feedChanged_within | apply Dev.gridWritten_within
        | apply Dev.mountChanged_within | apply Dev.onCls_within | apply Dev.onFus_within | apply Dev.peerEnabled_within
        | apply Dev.portDown_within | apply Dev.poseQueueWritten_within | apply Dev.ptpPortCheck_within | apply Dev.rebase_within
        | apply Dev.refactorAll_within | apply Dev.refreshChannels_within | apply Dev.refreshDac_within
        | apply Dev.refreshDomains_within | apply Dev.resamplerWritten_within | apply Dev.reselect_within | apply Dev.retrain_within
        | apply Dev.routeSourceChanged_within | apply Dev.setN_within | apply Dev.slotWritten_within | apply Dev.toneWritten_within
        | apply Dev.trimReady_within | (apply Within.when ?_ fun d => ?_) | apply Within.ite)
    | exact rfl

theorem Dev.written_noNewBlock (d0 d : Dev) (k t : Nat) : d.NoNewBlock (d0.written d k t) := by
  have hset : ∀ ch, d.NoNewBlock (d.setpointChanged ch) := fun ch =>
    .of_within (M := 262400) (Dev.setpointChanged_within (by exact rfl) (.refl d) ch) rfl
  unfold Dev.written
  exact .ite (hset _) (.ite (hset _) (.ite (d0.changed_noNewBlock d k t) (.ite (.refl d) (d0.changed_noNewBlock d k t))))

/-! The effects of the writes and what follows their answers. -/

/-- An action neither opens nor changes a block write. -/
structure Act.NoNewBlock (a : Act) : Prop where
  eff : ∀ se n (d : Dev), d.NoNewBlock (a.eff se n d)
  post : ∀ n (d : Dev), d.NoNewBlock (a.post n d)

theorem Act.Keeps.noNewBlock {M : Nat} {a : Act} (h : a.Keeps M) (hM : M.testBit 21 = false) : a.NoNewBlock :=
  ⟨fun _ _ _ => .of_within (h.eff _ _ _) hM, fun _ _ => .of_within (h.post _ _) hM⟩

theorem actPlain_noNewBlock (idx sub : Nat) : (actPlain idx sub).NoNewBlock := by
  refine ⟨fun se n d => ?_, fun _ d => .refl d⟩
  have hset : d.NoNewBlock (d.set (d.resolve se.id (idx * 256 + sub)) n) := .of_eq rfl
  have hstep : ∀ (d0 x : Dev) k t, x.NoNewBlock (d0.stepped x k t) := fun d0 x k t =>
    .of_within (M := 131072) (Dev.stepped_within (by exact rfl) (.refl x) d0 k t) rfl
  have hlost : ∀ (d0 x : Dev), x.NoNewBlock (d0.cancelLost x).powerCheck := fun d0 x =>
    .of_within (M := 17825792) (Dev.powerCheck_within (by exact rfl) (Dev.cancelLost_within (by exact rfl) (.refl x) d0)) rfl
  exact ((hset.trans (d.written_noNewBlock _ _ _)).trans (hstep _ _ _ _)).trans (hlost _ _)

/-- An action, where there is one, neither opens nor changes a block write. -/
def OptNoNewBlock (o : Option Act) : Prop := ∀ a, o = some a → a.NoNewBlock

theorem OptNoNewBlock.none : OptNoNewBlock none := fun _ h => by cases h

theorem OptNoNewBlock.some {a : Act} (h : a.NoNewBlock) : OptNoNewBlock (some a) := fun _ k => Option.some.inj k ▸ h

theorem OptNoNewBlock.ite {p : Prop} [Decidable p] {x y : Option Act} (hx : OptNoNewBlock x) (hy : OptNoNewBlock y) :
    OptNoNewBlock (if p then x else y) := by
  split
  · exact hx
  · exact hy

theorem OptNoNewBlock.or {x y : Option Act} (hx : OptNoNewBlock x) (hy : OptNoNewBlock y) : OptNoNewBlock (x <|> y) := by
  cases x with
  | none => exact hy
  | some a => exact .some (hx a rfl)

theorem OptKeeps.noNewBlock {M : Nat} {o : Option Act} (h : OptKeeps M o) (hM : M.testBit 21 = false) : OptNoNewBlock o :=
  fun a ha => (h a ha).noNewBlock hM

/-- The effect and the follow-up of an action of this chapter that leaves the dictionary's part alone. -/
theorem Act.noNewBlock_of_within {a : Act} (he : ∀ se n d, Within 65011711 d (a.eff se n d))
    (hp : ∀ n d, Within 65011711 d (a.post n d)) : a.NoNewBlock :=
  ⟨fun _ _ _ => .of_within (he _ _ _) rfl, fun _ _ => .of_within (hp _ _) rfl⟩

theorem actDevice_noNewBlock (idx sub : Nat) : OptNoNewBlock (actDevice idx sub) := by
  have hpost : ∀ (n : Int) (d : Dev), Within 65011711 d d := fun _ d => .refl d
  unfold actDevice
  dsimp only
  refine .ite (.some ⟨fun _ _ _ => .of_eq rfl, fun _ d => .refl d⟩) (.ite (.some ⟨fun _ _ d => ?_, fun _ d => ?_⟩)
    (.ite (.some (Act.noNewBlock_of_within (fun _ _ d => ?_) hpost)) (.ite (.some ⟨fun _ _ d => .refl d, fun _ d => ?_⟩)
    (.ite (.ite (.some (Act.noNewBlock_of_within (fun _ _ d => ?_) hpost)) (.ite (.some (Act.noNewBlock_of_within (fun _ _ d => ?_) hpost))
      (.ite (.some (Act.noNewBlock_of_within (fun _ _ d => ?_) hpost)) (.ite (.some ⟨fun _ n d => ?_, fun n d => ?_⟩)
      (.ite (.some (Act.noNewBlock_of_within (fun _ _ d => ?_) hpost)) (.ite (.some (Act.noNewBlock_of_within (fun _ _ d => ?_) hpost))
      (.ite (.some (Act.noNewBlock_of_within (fun _ _ d => ?_) hpost)) .none)))))))
    (.ite (.some (Act.noNewBlock_of_within (fun _ _ d => ?_) hpost)) (.ite (.some (Act.noNewBlock_of_within (fun _ _ d => ?_) hpost))
    (.ite (.some ⟨fun _ _ d => .refl d, fun n d => ?_⟩) .none)))))))
  · exact .of_within (M := 0) (Dev.restartCan_within (by exact rfl) (.refl d) _) rfl
  · exact d.endSessions_noNewBlock _ _
  · exact Dev.powerCheck_within (by exact rfl) (Dev.set_within (.refl d) _ _)
  · exact d.plainRestart_noNewBlock 2
  · exact Dev.offsetWritten_within (by exact rfl) (Dev.set_within (.refl d) _ _) _
  · exact Dev.updateWrite_within (by exact rfl) (Dev.set_within (.refl d) _ _)
  · exact Dev.verifyUpdate_within (by exact rfl) (.refl d)
  · exact .ite d.activateLive_noNewBlock (.of_within (M := 128) (Dev.markTrial_within (by exact rfl) (.refl d)) rfl)
  · exact .ite (d.plainRestart_noNewBlock 6) (.refl d)
  · exact Dev.onBoot_within (M := 65011711) (by exact rfl) (Dev.updateWrite_within (by exact rfl) (.refl d)) fun b => { b with consent := true }
  · exact Dev.commitTrial_within (by exact rfl) (.refl d)
  · exact Dev.abortUpdate_within (by exact rfl) (.refl d)
  · exact Dev.revokeSlot_within (by exact rfl) (.refl d) _
  · exact Dev.set_within (.refl d) _ _
  · exact .ite (d.resetIsland_noNewBlock _) (d.holdIsland_noNewBlock _)

theorem actOf_noNewBlock (idx sub : Nat) (v : Bytes) : (actOf idx sub v).NoNewBlock := by
  have h : OptNoNewBlock (actTimeline idx sub <|> actFence idx sub v <|> actTiming idx sub <|> actPour idx sub
      <|> actUnits idx sub <|> actOutputs idx sub <|> actHosts idx sub <|> actDevice idx sub) :=
    .or (actTimeline_keeps.noNewBlock rfl) (.or (actFence_keeps.noNewBlock rfl) (.or (actTiming_keeps.noNewBlock rfl)
      (.or (actPour_keeps.noNewBlock rfl) (.or (actUnits_keeps.noNewBlock rfl) (.or (actOutputs_keeps.noNewBlock rfl)
        (.or (actHosts_keeps.noNewBlock rfl) (actDevice_noNewBlock idx sub)))))))
  unfold actOf
  generalize (actTimeline idx sub <|> actFence idx sub v <|> actTiming idx sub <|> actPour idx sub
      <|> actUnits idx sub <|> actOutputs idx sub <|> actHosts idx sub <|> actDevice idx sub) = o at h
  cases o with
  | some a => exact h a rfl
  | none => exact actPlain_noNewBlock idx sub

/-! The objects of block writes. -/

theorem BlockObj.Keeps.noNewBlock {M : Nat} {o : BlockObj} (h : o.Keeps M) (hM : M.testBit 21 = false) (se : Session)
    (v : Bytes) (d : Dev) : d.NoNewBlock (o.eff se v d) := .of_within (h.eff se v d) hM

theorem keyObj_eff (k : Nat) (se : Session) (v : Bytes) (d : Dev) : (keyObj k).eff se v d
    = let e := (d.setBlob k v).set (Ob.partKeyState (k / 256 - 0x1100)) 1
      { e with dict := { e.dict with commits := e.dict.commits ++ [{ blobs := [(k, v)] }] } } := by
  unfold keyObj
  rfl

theorem keyObj_noNewBlock (k : Nat) (se : Session) (v : Bytes) (d : Dev) : d.NoNewBlock ((keyObj k).eff se v d) :=
  .of_eq (by simp [keyObj_eff])

theorem channelObj_noNewBlock (k : Nat) (se : Session) (v : Bytes) (d : Dev) : d.NoNewBlock ((channelObj k).eff se v d) := by
  unfold channelObj
  dsimp only
  exact .of_eq rfl

theorem fieldSetObj_noNewBlock (n : Nat) (se : Session) (v : Bytes) (d : Dev) : d.NoNewBlock ((fieldSetObj n).eff se v d) := by
  have hset : d.NoNewBlock ((d.setBlob (Ob.fieldSet n) v).refreshFieldSet n) :=
    .of_within (M := 8388608) (Dev.refreshFieldSet_within (by exact rfl) (Dev.setBlob_within (by exact rfl) (.refl d) _ _) n) rfl
  have hcount : ∀ x : Dev, x.NoNewBlock x.countCommit := fun _ => .of_eq rfl
  have hchannels : ∀ x : Dev, x.NoNewBlock x.refreshChannels := fun x =>
    .of_within (M := 16777216) (Dev.refreshChannels_within (by exact rfl) (.refl x)) rfl
  unfold fieldSetObj
  dsimp only
  exact (hset.trans (hcount _)).trans (hchannels _)

theorem structObj_noNewBlock (i : Nat) (se : Session) (v : Bytes) (d : Dev) : d.NoNewBlock ((structObj i).eff se v d) := by
  have hload : d.NoNewBlock ((d.setBlob (Ob.structDescriptor i) v).loadStruct i v) :=
    .of_within (M := 8404993) (Dev.loadStruct_within (by exact rfl) (Dev.setBlob_within (by exact rfl) (.refl d) _ _) i v) rfl
  have hcount : ∀ x : Dev, x.NoNewBlock x.countCommit := fun _ => .of_eq rfl
  unfold structObj
  dsimp only
  exact hload.trans (hcount _)

theorem numericObj_noNewBlock (k : Nat) (se : Session) (v : Bytes) (d : Dev) : d.NoNewBlock ((numericObj k).eff se v d) := by
  have hcount : ∀ x : Dev, x.NoNewBlock x.countCommit := fun _ => .of_eq rfl
  have hact : ∀ n, d.NoNewBlock ((actOf (k / 256) (k % 256) v).eff se n d) := fun n => (actOf_noNewBlock _ _ v).eff se n d
  unfold numericObj
  dsimp only
  exact .ite ((hact _).trans (hcount _)) (hact _)

theorem blockObjOf_noNewBlock (k : Nat) (se : Session) (v : Bytes) (d : Dev) : d.NoNewBlock ((blockObjOf k).eff se v d) := by
  unfold blockObjOf
  dsimp only
  repeat' split
  · exact keyObj_noNewBlock k se v d
  · exact (chunkObj_keeps (M := 160) (by exact rfl)).noNewBlock rfl se v d
  · exact fieldSetObj_noNewBlock _ se v d
  · exact structObj_noNewBlock _ se v d
  · exact (bankObj_keeps (M := 8388608) (by exact rfl) _).noNewBlock rfl se v d
  · exact channelObj_noNewBlock k se v d
  · exact numericObj_noNewBlock k se v d

/-! The frame that completes a block write. -/

/-- Block write `b` with its next segment, which came at `at_`. -/
def Block.taken (b : Block) (payload : Bytes) (at_ : Nat) : Block :=
  { b with next := b.next + 1, data := b.data ++ payload, lastSeg := at_ }

theorem Dev.blockOp_block {d : Dev} {sid tag op : Nat} {b : Block} (h : d.blockOp sid tag op = some b) :
    d.block sid tag = some b := by
  obtain ⟨hb, -⟩ := Option.filter_eq_some_iff.1 h
  exact hb

theorem Dev.writeBlock_block {d : Dev} {o : BlockObj} {se : Session} {b : Block} {data : Bytes}
    (ho : ∀ x : Dev, x.NoNewBlock (o.eff se data x)) : (d.writeBlock o se b data).block b.sid b.tag = none := by
  have hver : ∀ x : Dev, x.NoNewBlock (x.bumpVer b.key) := fun _ => .of_eq rfl
  have heff := ((ho _).trans (hver _)).block (d.dropBlock_block b.sid b.tag)
  unfold Dev.writeBlock
  dsimp only
  split
  · exact heff
  · exact Dev.NoNewBlock.block (.of_answers (Dev.complete_onlyAnswers _ _ _ _ _ _ _)) heff

theorem Dev.lastSegment_writes {d : Dev} {o : BlockObj} {hd : Hdr} {se : Session} {b : Block} (hlen : b.data.length = b.total + 4)
    (hcrc : leNat (b.data.drop b.total) = crc32c (b.data.take b.total))
    (hfault : d.blockFault o se b (b.data.take b.total) = none) :
    d.lastSegment o hd se b = d.writeBlock o se b (b.data.take b.total) := by
  have hn : b.data.length - 4 = b.total := by omega
  unfold Dev.lastSegment
  dsimp only
  rw [hn, if_neg (by omega), if_neg (by simp [hcrc]), hfault]

/-- The last segment of a block write that passes its checks writes the block. -/
theorem Dev.blockFrame_writes {d e : Dev} {o : Nat → BlockObj} {hd : Hdr} {payload : Bytes} {se : Session} {b : Block}
    (hadm : d.admission hd Op.writeBlock payload (d.blockOp hd.session hd.tag Op.writeBlock).isSome = .go e se)
    (hop : e.blockOp se.id hd.tag Op.writeBlock = some b) (hseg : hd.seg = b.next) (hmore : hd.more = false)
    (hlen : (b.data ++ payload).length = b.total + 4)
    (hcrc : leNat ((b.data ++ payload).drop b.total) = crc32c ((b.data ++ payload).take b.total))
    (hfault : (e.withBlock (b.taken payload e.ext)).blockFault (o b.key) se (b.taken payload e.ext)
      ((b.data ++ payload).take b.total) = none) :
    d.blockFrame o hd payload = (e.withBlock (b.taken payload e.ext)).writeBlock (o b.key) se (b.taken payload e.ext)
      ((b.data ++ payload).take b.total) := by
  have htake : e.takeSegment o hd se (b.taken payload e.ext)
      = (e.withBlock (b.taken payload e.ext)).lastSegment (o b.key) hd se (b.taken payload e.ext) := by
    unfold Dev.takeSegment
    rw [hmore]
    rfl
  unfold Dev.blockFrame
  dsimp only
  rw [hadm]
  dsimp only
  rw [hop]
  dsimp only
  rw [if_pos hseg]
  exact htake.trans (Dev.lastSegment_writes hlen hcrc hfault)

/-! Writing a key ends the sessions of its partition. -/

theorem Dev.closeConns_dict (d : Dev) (cause : CloseCause) (f : Conn → Bool) : (d.closeConns cause f).dict = d.dict :=
  (Dev.closeConns_within (M := 524288) (by exact rfl) (.refl d) cause f).dict rfl

@[simp] theorem Dev.when_vers (d : Dev) (b : Bool) {f : Dev → Dev} (h : ∀ x : Dev, (f x).vers = x.vers) : (d.when b f).vers = d.vers := by
  unfold Dev.when
  split
  · exact h d
  · rfl

@[simp] theorem Dev.virekEvent_vers (d : Dev) (p : Nat) (ev : Ev) : (d.virekEvent p ev).vers = d.vers :=
  (Dev.when_vers _ _ fun x => by simp).trans (by simp)

theorem Dev.closeConn_vers (d : Dev) (slot : Nat) (cause : CloseCause) : (d.closeConn slot cause).vers = d.vers := by
  unfold Dev.closeConn
  split
  · rfl
  · exact Dev.virekEvent_vers _ _ _

@[simp] theorem Dev.closeConns_vers (d : Dev) (cause : CloseCause) (f : Conn → Bool) : (d.closeConns cause f).vers = d.vers :=
  Dev.each_keeps (fun d _ => d.closeConn_vers _ cause) _ d

/-- What the end of a partition's sessions after a change of its key does. -/
def Dev.endPart (d0 d : Dev) (p : Nat) : Dev :=
  if d0.blob (Ob.partKey p) = d.blob (Ob.partKey p) && d0.ver (Ob.partKey p) = d.ver (Ob.partKey p) then d
  else (d.endSessions .key fun s => s.part == p).closeConns .partition fun c => c.part == p

theorem Dev.endKeyed_eq (d0 d : Dev) : d0.endKeyed d = d.each (List.range 8) d0.endPart := rfl

theorem Dev.endPart_onlyAnswers (d0 d : Dev) (p : Nat) : d.OnlyAnswers (d0.endPart d p) := by
  unfold Dev.endPart
  split
  · exact .refl d
  · exact (d.endSessions_onlyAnswers _ _).trans (.of_same (Dev.closeConns_dict _ _ _) (Dev.closeConns_vers _ _ _))

theorem Dev.endKeyed_onlyAnswers (d0 d : Dev) : d.OnlyAnswers (d0.endKeyed d) := by
  rw [Dev.endKeyed_eq]
  exact .each (fun d p => d0.endPart_onlyAnswers d p) _ d

theorem Dev.endPart_gone {d0 d : Dev} {p : Nat} (hv : d0.ver (Ob.partKey p) ≠ d.ver (Ob.partKey p)) :
    ∀ x ∈ (d0.endPart d p).dict.sessions, x.part ≠ p := by
  unfold Dev.endPart
  rw [if_neg (by simp [hv]), Dev.closeConns_dict]
  exact fun x hx => by simpa using Dev.endSessions_gone _ _ _ x hx

/-- A key whose version has changed leaves its partition no session. -/
theorem Dev.endKeyed_gone {d0 d : Dev} {p : Nat} (hp : p < 8) (hv : d0.ver (Ob.partKey p) ≠ d.ver (Ob.partKey p)) :
    ∀ x ∈ (d0.endKeyed d).dict.sessions, x.part ≠ p := by
  have hleft : ∀ (l : List Nat) (d : Dev), p ∈ l → d0.ver (Ob.partKey p) ≠ d.ver (Ob.partKey p) →
      ∀ x ∈ (d.each l d0.endPart).dict.sessions, x.part ≠ p := fun l => by
    induction l with
    | nil => exact fun d hl => absurd hl List.not_mem_nil
    | cons q l ih =>
      intro d hl hv x hx
      have hstep := d0.endPart_onlyAnswers d q
      rcases List.mem_cons.1 hl with rfl | hl
      · obtain ⟨y, hy, hyx⟩ := (Dev.OnlyAnswers.each (fun d q => d0.endPart_onlyAnswers d q) l (d0.endPart d p)).mem x hx
        rw [hyx.part]
        exact Dev.endPart_gone hv y hy
      · exact ih _ hl (by rwa [hstep.ver]) x hx
  rw [Dev.endKeyed_eq]
  exact hleft _ d (List.mem_range.2 hp) hv

theorem Dev.endPart_reg (d0 d : Dev) (p : Nat) {k : Nat} (hk : ¬ BookKey k) : (d0.endPart d p).reg k = d.reg k := by
  unfold Dev.endPart
  split
  · rfl
  · rw [Dev.closeConns_reg _ _ _ hk, Dev.endSessions_reg _ _ _ hk]

theorem Dev.endKeyed_reg (d0 d : Dev) {k : Nat} (hk : ¬ BookKey k) : (d0.endKeyed d).reg k = d.reg k :=
  Dev.each_keeps (g := fun d => d.reg k) (fun d p => d0.endPart_reg d p hk) _ d

theorem Dev.endKeyed_blob (d0 d : Dev) (k : Nat) : (d0.endKeyed d).blob k = d.blob k := by
  unfold Dev.blob
  rw [(Dev.endKeyed_within (M := 2621440) (by exact rfl) (.refl d) d0).blobs rfl]

/-! A version counts modulo 65,536. -/

theorem Dev.ver_bumpVer (d : Dev) (k : Nat) : (d.bumpVer k).ver k = (d.ver k + 1) % 65536 := by
  unfold Dev.bumpVer Dev.ver
  by_cases h : (d.ver k + 1) % 65536 = 0 <;> unfold Dev.ver at h <;> simp [h]

theorem keyObj_vers (k : Nat) (se : Session) (v : Bytes) (d : Dev) : ((keyObj k).eff se v d).vers = d.vers := by
  simp [keyObj_eff]

theorem Dev.setBlob_blob (d : Dev) (k : Nat) (v : Bytes) : (d.setBlob k v).blob k = v := by
  unfold Dev.setBlob Dev.blob
  by_cases h : v = [] <;> simp [h]

theorem keyObj_blob (k : Nat) (se : Session) (v : Bytes) (d : Dev) : ((keyObj k).eff se v d).blob k = v := by
  have hblobs : ((keyObj k).eff se v d).blobs = (d.setBlob k v).blobs := by simp [keyObj_eff]
  refine Eq.trans ?_ (d.setBlob_blob k v)
  unfold Dev.blob
  rw [hblobs]

theorem keyObj_partKeyState (p : Nat) (se : Session) (v : Bytes) (d : Dev) :
    ((keyObj (Ob.partKey p)).eff se v d).reg (Ob.partKeyState p) = 1 := by
  have hp : Ob.partKey p / 256 - 0x1100 = p := by unfold Ob.partKey; omega
  have hset : ∀ (x : Dev) a, (x.set a 1).reg a = 1 := fun x a => by rw [Dev.reg_set, if_pos rfl]
  rw [keyObj_eff, hp]
  exact hset _ _

/-! The two commands. -/

theorem writeBlock_runs : BlockRuns (fun hd payload => .writeBlock hd payload) blockObjOf
    fun _ _ b _ d' => d'.block b.sid b.tag = none := by
  intro s hd payload e se b hadm hop hseg hmore hlen hcrc hfault
  have hframe := Dev.blockFrame_writes (o := blockObjOf) hadm hop hseg hmore hlen hcrc hfault
  have hgone : ∀ x, x = s.dev.blockFrame blockObjOf hd payload → (s.dev.endKeyed x).block b.sid b.tag = none := fun x hx => by
    subst hx
    rw [hframe]
    exact (Dev.NoNewBlock.of_answers (Dev.endKeyed_onlyAnswers _ _)).block (Dev.writeBlock_block fun y => blockObjOf_noNewBlock _ se _ y)
  refine Runs.of_onDev (show execWriteBlock hd payload s = onDev _ s from rfl) ?_
  dsimp only
  rw [Dev.settle_block]
  split
  · exact hgone _ rfl
  · exact Dev.NoNewBlock.block ((actOf_noNewBlock _ _ _).post _ _) (hgone _ rfl)

theorem Dev.complete_blob (d : Dev) (sid tag op : Nat) (payload : Bytes) (seq : Nat) (a : Ans) (k : Nat) :
    (d.complete sid tag op payload seq a).blob k = d.blob k := by
  unfold Dev.blob
  simp

theorem Dev.settle_blob (d0 d : Dev) (k : Nat) : (d0.settle d).blob k = d.blob k := by
  unfold Dev.blob
  simp [Dev.settle]

/-- What a key written as a block leaves, before the sessions of its partition end. -/
theorem Dev.writeBlock_key {d : Dev} {se : Session} {b : Block} {data : Bytes} {p : Nat} (hb : b.key = Ob.partKey p) (hp : p < 8) :
    (d.writeBlock (keyObj (Ob.partKey p)) se b data).blob (Ob.partKey p) = data
      ∧ (d.writeBlock (keyObj (Ob.partKey p)) se b data).reg (Ob.partKeyState p) = 1
      ∧ (d.writeBlock (keyObj (Ob.partKey p)) se b data).ver (Ob.partKey p) = (d.ver (Ob.partKey p) + 1) % 65536 := by
  have hbook : ¬ BookKey (Ob.partKeyState p) := by unfold BookKey Ob.partKeyState; omega
  have hdefer : (keyObj (Ob.partKey p)).defer = false := rfl
  unfold Dev.writeBlock
  dsimp only
  rw [hdefer, if_neg (by decide), hb]
  generalize hx : (keyObj (Ob.partKey p)).eff se data (d.dropBlock b.sid b.tag) = x
  have hblob : x.blob (Ob.partKey p) = data := hx ▸ keyObj_blob _ _ _ _
  have hreg : x.reg (Ob.partKeyState p) = 1 := hx ▸ keyObj_partKeyState _ _ _ _
  have hver : x.ver (Ob.partKey p) = d.ver (Ob.partKey p) := by
    unfold Dev.ver
    rw [← hx, keyObj_vers]
    rfl
  refine ⟨?_, ?_, ?_⟩
  · rw [Dev.complete_blob]
    exact hblob
  · rw [Dev.complete_reg _ _ _ _ _ _ _ hbook, Dev.bumpVer_reg, hreg]
  · rw [(Dev.complete_onlyAnswers _ _ _ _ _ _ _).ver, Dev.ver_bumpVer, hver]

theorem keyWrite_runs : BlockRuns (fun hd payload => .keyWrite hd payload) keyObj fun e _ b data d' => ∀ p, p < 8 →
    b.key = Ob.partKey p → d'.blob (Ob.partKey p) = data ∧ d'.reg (Ob.partKeyState p) = 1
      ∧ d'.ver (Ob.partKey p) = (e.ver (Ob.partKey p) + 1) % 65536
      ∧ d'.block b.sid b.tag = none ∧ ∀ x ∈ d'.dict.sessions, x.part ≠ p := by
  intro s hd payload e se b hadm hop hseg hmore hlen hcrc hfault
  have hframe := Dev.blockFrame_writes (o := keyObj) hadm hop hseg hmore hlen hcrc hfault
  refine Runs.of_onDev (show execKeyWrite hd payload s = onDev _ s from rfl) fun p hp hb => ?_
  have hbook : ¬ BookKey (Ob.partKeyState p) := by unfold BookKey Ob.partKeyState; omega
  have hsafe : Ob.partKeyState p ≠ Ob.safeOutputState := by unfold Ob.partKeyState Ob.safeOutputState; omega
  have hwrite := Dev.writeBlock_key (d := e.withBlock (b.taken payload e.ext)) (se := se) (b := b.taken payload e.ext)
    (data := (b.data ++ payload).take b.total) hb hp
  have hgone := Dev.writeBlock_block (d := e.withBlock (b.taken payload e.ext)) (se := se) (b := b.taken payload e.ext)
    (data := (b.data ++ payload).take b.total) fun x => keyObj_noNewBlock (Ob.partKey p) se _ x
  unfold Dev.keyFrame
  rw [hb] at hframe
  rw [← hframe] at hwrite hgone
  obtain ⟨hblob, hreg, hver⟩ := hwrite
  have hended := s.dev.endKeyed_onlyAnswers (s.dev.blockFrame keyObj hd payload)
  have hsame : e.ver (Ob.partKey p) = s.dev.ver (Ob.partKey p) := by rw [Dev.admission_go_eq hadm]; rfl
  have hnext : (s.dev.blockFrame keyObj hd payload).ver (Ob.partKey p) = (e.ver (Ob.partKey p) + 1) % 65536 := hver
  have hnew : s.dev.ver (Ob.partKey p) ≠ (s.dev.blockFrame keyObj hd payload).ver (Ob.partKey p) := by omega
  refine ⟨?_, ?_, ?_, ?_, ?_⟩
  · rw [Dev.settle_blob, Dev.endKeyed_blob, hblob]
  · rw [Dev.settle_reg _ _ hsafe, Dev.endKeyed_reg _ _ hbook, hreg]
  · rw [(Dev.settle_onlyAnswers _ _).ver, hended.ver, hnext]
  · rw [Dev.settle_block]
    exact Dev.NoNewBlock.block (.of_answers hended) hgone
  · rw [Dev.settle_dict]
    exact Dev.endKeyed_gone hp hnew

/-- Settles O25. -/
theorem blockWritesRun : Obligations.BlockWritesRun := ⟨writeBlock_runs, keyWrite_runs⟩

end Sys2Proof.Machine
end

section
/-! A plain WRITE (04_dictionary R86, R87, R90): nothing that follows a write changes a version. -/
namespace Sys2Proof.Machine

@[simp] theorem Dev.each_vers {α : Type} {f : Dev → α → Dev} (h : ∀ d a, (f d a).vers = d.vers) (l : List α) (d : Dev) :
    (d.each l f).vers = d.vers := Dev.each_keeps h l d

@[simp] theorem Dev.beaconWritten_vers (d : Dev) (b : Nat) : (d.beaconWritten b).vers = d.vers := by
  simp [Dev.beaconWritten]

@[simp] theorem Dev.bindModel_vers (d : Dev) (m : Nat) : (d.bindModel m).vers = d.vers := by
  simp [Dev.bindModel, apply_ite Dev.vers]

@[simp] theorem Dev.channelFlipped_vers (d : Dev) (k : Nat) (rebound : Bool) : (d.channelFlipped k rebound).vers = d.vers := by
  simp [Dev.channelFlipped, apply_ite Dev.vers]

@[simp] theorem Dev.onCls_vers (d : Dev) (k : Nat) (f : ClassRt → ClassRt) : (d.onCls k f).vers = d.vers := by
  simp [Dev.onCls]

@[simp] theorem Dev.classWritten_vers (d : Dev) (k : Nat) : (d.classWritten k).vers = d.vers := by
  simp [Dev.classWritten]

@[simp] theorem Dev.canaryDue_vers (d : Dev) (m : Nat) : (d.canaryDue m).vers = d.vers := by
  simp [Dev.canaryDue]

@[simp] theorem Dev.judgeLate_vers (d : Dev) (it : Item) (late : Bool) : (d.judgeLate it late).2.vers = d.vers := by
  unfold Dev.judgeLate
  split <;> simp

@[simp] theorem Dev.nextSeq_vers (d : Dev) (kind num : Nat) : (d.nextSeq kind num).vers = d.vers := by
  simp [Dev.nextSeq]

@[simp] theorem Dev.withPayload_vers (d : Dev) (it : Item) (data : Bytes) : (d.withPayload it data).2.vers = d.vers := by
  unfold Dev.withPayload
  dsimp only
  repeat' split
  all_goals rfl

@[simp] theorem Dev.emitItem_vers (d : Dev) (q : Nat) (it : Item) (data : Bytes) (late : Bool) :
    (d.emitItem q it data late).vers = d.vers := by
  simp [Dev.emitItem]

@[simp] theorem Dev.emitRecord_vers (d : Dev) (m island subject completion flags : Nat) (late : Bool) (head : Bytes) (outs : List Bytes) :
    (d.emitRecord m island subject completion flags late head outs).vers = d.vers := by
  unfold Dev.emitRecord
  dsimp only
  split
  · exact (Dev.when_vers _ _ fun x => x.canaryDue_vers m).trans (Dev.when_vers _ _ fun x => x.emitItem_vers _ _ _ _)
  · exact Dev.when_vers _ _ fun x => x.emitItem_vers _ _ _ _

@[simp] theorem Dev.refreshAlive_vers (d : Dev) : (d.refreshAlive).vers = d.vers := by
  simp [Dev.refreshAlive]

@[simp] theorem Dev.setCopies_vers (d : Dev) (it : Item) (n : Nat) : (d.setCopies it n).vers = d.vers := by
  simp [Dev.setCopies]

@[simp] theorem Dev.genDec_vers (d : Dev) (it : Item) : (d.genDec it).vers = d.vers := by
  simp [Dev.genDec, apply_ite Dev.vers]

@[simp] theorem Dev.skipAs_vers (d : Dev) (m seq : Nat) (it : Item) (flags : Nat) : (d.skipAs m seq it flags).vers = d.vers := by
  simp [Dev.skipAs]

@[simp] theorem Dev.dropAgain_vers (d : Dev) (m : Nat) : (d.dropAgain m).vers = d.vers := by
  simp [Dev.dropAgain]

@[simp] theorem Dev.inferSeq_vers (d : Dev) (m : Nat) : (d.inferSeq m).2.vers = d.vers := by
  simp [Dev.inferSeq]

@[simp] theorem Dev.skipInference_vers (d : Dev) (m : Nat) (it : Item) (flags : Nat) :
    (d.skipInference m it flags).vers = d.vers := by
  simp [Dev.skipInference]

@[simp] theorem Dev.noEngine_vers (d : Dev) (m : Nat) : (d.noEngine m).vers = d.vers := by
  simp [Dev.noEngine]

@[simp] theorem Dev.checkEngine_vers (d : Dev) (m : Nat) : (d.checkEngine m).vers = d.vers := by
  simp [Dev.checkEngine, apply_ite Dev.vers]

@[simp] theorem Dev.genInc_vers (d : Dev) (it : Item) : (d.genInc it).vers = d.vers := by
  simp [Dev.genInc, apply_ite Dev.vers]

@[simp] theorem Dev.feedChanged_vers (d : Dev) (m : Nat) (from_ : Option (List Item)) : (d.feedChanged m from_).vers = d.vers := by
  simp [Dev.feedChanged, apply_ite Dev.vers]

@[simp] theorem Dev.onGrid_vers (d : Dev) (g : Nat) (f : GridRt → GridRt) : (d.onGrid g f).vers = d.vers := by
  simp [Dev.onGrid]

@[simp] theorem Dev.clearGrid_vers (d : Dev) (g t : Nat) (cleared : Bool) : (d.clearGrid g t cleared).vers = d.vers := by
  simp [Dev.clearGrid]

@[simp] theorem Dev.gridWritten_vers (d0 d : Dev) (g sub t : Nat) : (d0.gridWritten d g sub t).vers = d.vers := by
  simp [Dev.gridWritten, apply_ite Dev.vers]

@[simp] theorem Dev.mountChanged_vers (d0 d : Dev) (s t : Nat) : (d0.mountChanged d s t).vers = d.vers := by
  simp [Dev.mountChanged]

@[simp] theorem Dev.endSessions_vers (d : Dev) (cause : EndCause) (f : Session → Bool) : (d.endSessions cause f).vers = d.vers :=
  (d.endSessions_onlyAnswers cause f).vers

@[simp] theorem Dev.partWritten_vers (d : Dev) (p sub : Nat) : (d.partWritten p sub).vers = d.vers := by
  simp [Dev.partWritten, apply_ite Dev.vers]

@[simp] theorem Dev.judgePeer_vers (d : Dev) (n : Nat) : (d.judgePeer n).vers = d.vers := by
  simp [Dev.judgePeer, apply_ite Dev.vers]

@[simp] theorem Dev.connNotice_vers (d : Dev) (k code : Nat) (d2 : Int) : (d.connNotice k code d2).vers = d.vers := by
  simp [Dev.connNotice]

@[simp] theorem Dev.moveClass_vers (d : Dev) (k path : Nat) : (d.moveClass k path).vers = d.vers := by
  simp [Dev.moveClass]

@[simp] theorem Dev.classFailed_vers (d : Dev) (k n path : Nat) : (d.classFailed k n path).vers = d.vers := by
  simp [Dev.classFailed, apply_ite Dev.vers]

@[simp] theorem Dev.pathFailed_vers (d : Dev) (n path : Nat) : (d.pathFailed n path).vers = d.vers := by
  simp [Dev.pathFailed, apply_ite Dev.vers]

@[simp] theorem Dev.setPeer_vers (d : Dev) (n : Nat) (p : NetPartner) : (d.setPeer n p).vers = d.vers := by
  simp [Dev.setPeer]

@[simp] theorem Dev.peerEnabled_vers (d : Dev) (n : Nat) : (d.peerEnabled n).vers = d.vers := by
  simp [Dev.peerEnabled, apply_ite Dev.vers]

@[simp] theorem Dev.portDown_vers (d : Dev) (port : Nat) : (d.portDown port).vers = d.vers := by
  simp [Dev.portDown]

@[simp] theorem Dev.poseQueueWritten_vers (d : Dev) : (d.poseQueueWritten).vers = d.vers := by
  simp [Dev.poseQueueWritten]

@[simp] theorem Dev.hold_vers (d : Dev) (syn : Nat) (cmd : HeldCmd) : (d.hold syn cmd).vers = d.vers := by
  simp [Dev.hold]

@[simp] theorem Dev.closeTrack_vers (d : Dev) : (d.closeTrack).vers = d.vers := by
  unfold Dev.closeTrack
  split <;> rfl

@[simp] theorem Dev.holdRate_vers (d : Dev) : (d.holdRate).vers = d.vers := by
  simp [Dev.holdRate]

@[simp] theorem Dev.steer_vers (d : Dev) (to_ : Int) : (d.steer to_).vers = d.vers := by
  simp [Dev.steer]

@[simp] theorem Dev.closeLocked_vers (d : Dev) : (d.closeLocked).vers = d.vers := by
  unfold Dev.closeLocked
  split <;> rfl

@[simp] theorem Dev.toSelector_vers (d : Dev) (st : Int) (code : Nat) : (d.toSelector st code).vers = d.vers := by
  simp [Dev.toSelector]

@[simp] theorem Dev.acquire_vers (d : Dev) (code : Nat) : (d.acquire code).vers = d.vers := by
  simp [Dev.acquire]

@[simp] theorem Dev.toFreerun_vers (d : Dev) : (d.toFreerun).vers = d.vers := by
  simp [Dev.toFreerun]

@[simp] theorem Dev.toHoldover_vers (d : Dev) : (d.toHoldover).vers = d.vers := by
  simp [Dev.toHoldover]

@[simp] theorem Dev.reselect_vers (d : Dev) : (d.reselect).vers = d.vers := by
  unfold Dev.reselect
  dsimp only
  repeat' split
  all_goals simp

@[simp] theorem Dev.onRef_vers (d : Dev) (c : Nat) (f : RefRt → RefRt) : (d.onRef c f).vers = d.vers := by
  simp [Dev.onRef]

@[simp] theorem Dev.toRef_vers (d : Dev) (code : Nat) (st : Int) :
    (d.toRef code st).vers = d.vers := by
  simp [Dev.toRef]

@[simp] theorem Dev.ptpRefs_vers (d : Dev) : (d.ptpRefs).vers = d.vers := by
  simp [Dev.ptpRefs, apply_ite Dev.vers]

@[simp] theorem Dev.toServo_vers (d : Dev) (st : Int) : (d.toServo st).vers = d.vers := by
  simp [Dev.toServo, apply_ite Dev.vers]

@[simp] theorem Dev.masterLost_vers (d : Dev) : (d.masterLost).vers = d.vers := by
  simp [Dev.masterLost, apply_ite Dev.vers]

@[simp] theorem Dev.setMaster_vers (d : Dev) (m : Master) : (d.setMaster m).vers = d.vers := by
  simp [Dev.setMaster]

@[simp] theorem Dev.masterBack_vers (d : Dev) (m : Master) : (d.masterBack m).vers = d.vers := by
  simp [Dev.masterBack, apply_ite Dev.vers]

@[simp] theorem Dev.masterChange_vers (d : Dev) (m : Master) : (d.masterChange m).vers = d.vers := by
  simp [Dev.masterChange, apply_ite Dev.vers]

@[simp] theorem Dev.selectMaster_vers (d : Dev) (m : Master) : (d.selectMaster m).vers = d.vers := by
  simp [Dev.selectMaster, apply_ite Dev.vers]

@[simp] theorem Dev.movePort_vers (d : Dev) (port : Nat) : (d.movePort port).vers = d.vers := by
  unfold Dev.movePort
  dsimp only
  split <;> simp

@[simp] theorem Dev.onPtpPort_vers (d : Dev) (port : Nat) (f : PtpPort → PtpPort) : (d.onPtpPort port f).vers = d.vers := by
  simp [Dev.onPtpPort]

@[simp] theorem Dev.ptpPortCheck_vers (d : Dev) (port : Nat) : (d.ptpPortCheck port).vers = d.vers := by
  simp [Dev.ptpPortCheck, apply_ite Dev.vers]

@[simp] theorem Dev.rebase_vers (d : Dev) (v : Int) : (d.rebase v).vers = d.vers := by
  simp [Dev.rebase]

@[simp] theorem Dev.setStruct_vers (d : Dev) (s : Nat) (r : StructRt) : (d.setStruct s r).vers = d.vers := by
  simp [Dev.setStruct]

@[simp] theorem Dev.refactorAll_vers (d : Dev) (s : Nat) : (d.refactorAll s).vers = d.vers := by
  simp [Dev.refactorAll]

@[simp] theorem Dev.chanTo_vers (d : Dev) (k st : Nat) : (d.chanTo k st).vers = d.vers := by
  simp [Dev.chanTo, apply_ite Dev.vers]

@[simp] theorem Dev.closeResidency_vers (d : Dev) : (d.closeResidency).vers = d.vers := by
  simp [Dev.closeResidency]

@[simp] theorem Dev.beginExit_vers (d : Dev) : (d.beginExit).vers = d.vers := by
  simp [Dev.beginExit, apply_ite Dev.vers]

@[simp] theorem Dev.powerCheck_vers (d : Dev) : (d.powerCheck).vers = d.vers := by
  simp [Dev.powerCheck, apply_ite Dev.vers]

@[simp] theorem Dev.drivePin_vers (d : Dev) (pin : Nat) (level : Bool) : (d.drivePin pin level).vers = d.vers := by
  simp [Dev.drivePin, apply_ite Dev.vers]

@[simp] theorem Dev.driveSafe_vers (d : Dev) (pin : Nat) (level : Bool) : (d.driveSafe pin level).vers = d.vers := by
  simp [Dev.driveSafe, apply_ite Dev.vers]

@[simp] theorem Dev.refreshSafe_vers (d : Dev) : (d.refreshSafe).vers = d.vers := by
  simp [Dev.refreshSafe, apply_ite Dev.vers]

@[simp] theorem Dev.refreshChannels_vers (d : Dev) : (d.refreshChannels).vers = d.vers := by
  simp [Dev.refreshChannels, apply_ite Dev.vers]

@[simp] theorem Dev.refreshDac_vers (d : Dev) : (d.refreshDac).vers = d.vers := by
  simp [Dev.refreshDac, apply_ite Dev.vers]

@[simp] theorem Dev.refreshDomains_vers (d : Dev) : (d.refreshDomains).vers = d.vers := by
  simp [Dev.refreshDomains, apply_ite Dev.vers]

@[simp] theorem Dev.resamplerWritten_vers (d : Dev) : (d.resamplerWritten).vers = d.vers := by
  simp [Dev.resamplerWritten, apply_ite Dev.vers]

@[simp] theorem Dev.setTrain_vers (d : Dev) (i : Nat) (t : Option Train) : (d.setTrain i t).vers = d.vers := by
  simp [Dev.setTrain]

@[simp] theorem Dev.retrain_vers (d : Dev) (i : Nat) (e : Int) : (d.retrain i e).vers = d.vers := by
  unfold Dev.retrain
  split <;> rfl

@[simp] theorem Dev.driveAnalog_vers (d : Dev) (ch : Nat) (code : Int) : (d.driveAnalog ch code).vers = d.vers := by
  simp [Dev.driveAnalog, apply_ite Dev.vers]

@[simp] theorem Dev.driveReleased_vers (d : Dev) (ch : Nat) (code : Int) : (d.driveReleased ch code).vers = d.vers := by
  simp [Dev.driveReleased, apply_ite Dev.vers]

@[simp] theorem Dev.followCode_vers (d : Dev) (ch : Nat) : (d.followCode ch).vers = d.vers := by
  simp [Dev.followCode]

@[simp] theorem Dev.beginSettling_vers (d : Dev) (ch at_ : Nat) : (d.beginSettling ch at_).vers = d.vers := by
  simp [Dev.beginSettling]

@[simp] theorem Dev.codeChanged_vers (d : Dev) (ch : Nat) : (d.codeChanged ch).vers = d.vers := by
  simp [Dev.codeChanged, apply_ite Dev.vers]

@[simp] theorem Dev.routeSourceChanged_vers (d : Dev) (r : Nat) : (d.routeSourceChanged r).vers = d.vers := by
  simp [Dev.routeSourceChanged, apply_ite Dev.vers]

@[simp] theorem Dev.maskParams_vers (d : Dev) (s : Nat) (ns : List Nat) : (d.maskParams s ns).vers = d.vers := by
  simp [Dev.maskParams]

@[simp] theorem Dev.maskSelect_vers (d : Dev) (s : Nat) : (d.maskSelect s).vers = d.vers := by
  simp [Dev.maskSelect]

@[simp] theorem Dev.refreshLatency_vers (d : Dev) (s : Nat) : (d.refreshLatency s).vers = d.vers := by
  simp [Dev.refreshLatency]

@[simp] theorem Dev.refreshSlot_vers (d : Dev) (s : Nat) : (d.refreshSlot s).vers = d.vers := by
  simp [Dev.refreshSlot]

@[simp] theorem Dev.slotStops_vers (d : Dev) (s : Nat) : (d.slotStops s).vers = d.vers := by
  simp [Dev.slotStops]

@[simp] theorem Dev.slotEnabled_vers (d : Dev) (s : Nat) (on : Bool) : (d.slotEnabled s on).vers = d.vers := by
  simp [Dev.slotEnabled, apply_ite Dev.vers]

@[simp] theorem Dev.slotWritten_vers (d : Dev) (s sub : Nat) : (d.slotWritten s sub).vers = d.vers := by
  simp [Dev.slotWritten, apply_ite Dev.vers]

@[simp] theorem Dev.toneWritten_vers (d : Dev) (k : Nat) (sub t : Nat) : (d.toneWritten k sub t).vers = d.vers := by
  unfold Dev.toneWritten
  dsimp only
  repeat' split
  all_goals rfl

@[simp] theorem Dev.trimReady_vers (d : Dev) (m : Nat) : (d.trimReady m).vers = d.vers := by
  simp [Dev.trimReady]

@[simp] theorem Dev.setpointChanged_vers (d : Dev) (ch : Nat) : (d.setpointChanged ch).vers = d.vers := by
  simp [Dev.setpointChanged, apply_ite Dev.vers]

@[simp] theorem Dev.pushEnv_vers (d : Dev) (key m n len : Nat) (was : Nat → Int) (new : Assoc Int) :
    (d.pushEnv key m n len was new).vers = d.vers := by
  simp [Dev.pushEnv]

@[simp] theorem Dev.shift_vers (d0 d : Dev) (k : Nat) (m j len : Nat) : (d0.shift d k m j len).vers = d.vers := by
  simp [Dev.shift]

@[simp] theorem Dev.stepped_vers (d0 d : Dev) (k : Nat) (t : Nat) : (d0.stepped d k t).vers = d.vers := by
  simp [Dev.stepped, apply_ite Dev.vers]

@[simp] theorem Dev.refreshHeld_vers (d : Dev) : (d.refreshHeld).vers = d.vers := by
  simp [Dev.refreshHeld]

@[simp] theorem Dev.endPour_vers (d : Dev) (h st cause : Nat) : (d.endPour h st cause).vers = d.vers := by
  unfold Dev.endPour
  split <;> simp

@[simp] theorem Dev.cancelLost_vers (d0 d : Dev) : (d0.cancelLost d).vers = d.vers := by
  simp [Dev.cancelLost]

theorem Dev.ite_vers {p : Prop} [Decidable p] {a b d : Dev} (ha : a.vers = d.vers) (hb : b.vers = d.vers) :
    (if p then a else b).vers = d.vers := by
  split
  · exact ha
  · exact hb

@[simp] theorem Dev.changed_vers (d0 d : Dev) (k t : Nat) : (d0.changed d k t).vers = d.vers := by
  unfold Dev.changed
  dsimp only
  repeat' with_reducible refine Dev.ite_vers ?_ ?_
  all_goals simp

@[simp] theorem Dev.written_vers (d0 d : Dev) (k t : Nat) : (d0.written d k t).vers = d.vers := by
  unfold Dev.written
  dsimp only
  repeat' with_reducible refine Dev.ite_vers ?_ ?_
  all_goals simp

theorem actPlain_vers (idx sub : Nat) (se : Session) (n : Int) (d : Dev) : ((actPlain idx sub).eff se n d).vers = d.vers := by
  simp [actPlain]

end Sys2Proof.Machine
end

section
/-! A plain WRITE (04_dictionary R86, R87, R90): the registers it touches, and its answer. -/
namespace Sys2Proof.Machine

/-! What follows a write leaves every register alone but those of the pours' bookkeeping. -/

theorem Dev.stepped_reg (d0 d : Dev) (k t x : Nat) : (d0.stepped d k t).reg x = d.reg x := by
  unfold Dev.stepped
  dsimp only
  split <;> rfl

theorem Dev.powerCheck_reg (d : Dev) (x : Nat) : d.powerCheck.reg x = d.reg x := by
  unfold Dev.powerCheck Dev.beginExit
  split
  · rfl
  · split <;> rfl

/-- The registers that the cancelling of a pour may change. -/
abbrev CancelKey (k : Nat) : Prop := BookKey k ∨ k = Ob.poursHeld ∨ k = Ob.poursCancelled

theorem Dev.endPour_other (d : Dev) (h st cause : Nat) {k : Nat} (hk : ¬ CancelKey k) : (d.endPour h st cause).reg k = d.reg k := by
  obtain ⟨hbook, hheld, -⟩ := not_or.1 hk |>.imp_right not_or.1
  have halive : k ≠ Ob.generationsAlive := fun h => hbook (h ▸ by decide)
  unfold Dev.endPour
  split
  · rfl
  · unfold Dev.refreshHeld Dev.refreshAlive Dev.setN
    rw [Dev.reg_set, if_neg halive, Dev.reg_set, if_neg hheld]
    rfl

theorem Dev.cancelLost_other (d0 d : Dev) {k : Nat} (hk : ¬ CancelKey k) : (d0.cancelLost d).reg k = d.reg k := by
  obtain ⟨hbook, -, hcancelled⟩ := not_or.1 hk |>.imp_right not_or.1
  refine Dev.each_keeps (g := fun d => d.reg k) (fun d p => ?_) _ d
  rw [Dev.event_reg _ _ hbook, Dev.reg_bump, if_neg hcancelled, Dev.endPour_other _ _ _ _ hk]

/-! A write below 0x3000 keeps its value, and one of a queue's object keeps the queue selected. -/

theorem Dev.partWritten_reg (d : Dev) (p sub : Nat) {k : Nat} (hk : ¬ BookKey k) : (d.partWritten p sub).reg k = d.reg k := by
  unfold Dev.partWritten Dev.when
  dsimp only
  split
  · split
    · rw [Dev.closeConns_reg _ _ _ hk, Dev.endSessions_reg _ _ _ hk]
    · exact Dev.endSessions_reg _ _ _ hk
  · rfl

theorem Dev.ite_reg {p : Prop} [Decidable p] {a b d : Dev} {k : Nat} (ha : p → a.reg k = d.reg k) (hb : ¬ p → b.reg k = d.reg k) :
    (if p then a else b).reg k = d.reg k := by
  split
  · exact ha ‹_›
  · exact hb ‹_›

/-- Of what follows a change below 0x3000 nothing changes the object again. -/
theorem Dev.changed_own (d0 d : Dev) {k : Nat} (t : Nat) (hk : ¬ BookKey k) (hidx : idxOf k < 0x3000) :
    (d0.changed d k t).reg k = d.reg k := by
  have hslope : k = Ob.freqSlopeLimit → (d.rebase d0.corrNow).reg k = d.reg k := fun h => by
    unfold Dev.rebase
    subst h
    exact (Dev.reg_set _ _ _ _).trans (if_neg (by decide))
  have hmode : k = Ob.selectorMode → d.reselect.reg k = d.reg k := fun h => d.reselect_other (h ▸ by decide)
  have hqueue : k ≠ Ob.poseQueue := fun h => absurd (h ▸ hidx) (by decide)
  have hresample : k ≠ Ob.resampleEnable := fun h => absurd (h ▸ hidx) (by decide)
  have hvirek : k ≠ Ob.virekEnable := fun h => absurd (h ▸ hidx) (by decide)
  have hranges : k ≠ Ob.mirrorRanges := fun h => absurd (h ▸ hidx) (by decide)
  unfold Dev.changed
  dsimp only
  rw [if_neg hqueue, if_neg hresample, if_neg hvirek, if_neg hranges]
  refine Dev.ite_reg (fun _ => d.partWritten_reg _ _ hk) fun _ => Dev.ite_reg (fun _ => d.retrain_reg _ _ _) fun _ =>
    Dev.ite_reg hslope fun _ => Dev.ite_reg hmode fun _ => ?_
  repeat' refine Dev.ite_reg (fun h => absurd h ?_) fun _ => ?_
  all_goals omega

/-- A change of a queue's object has no consequence of its own. -/
theorem Dev.changed_queueObj (d0 d : Dev) {k : Nat} (t : Nat) (hidx : idxOf k = 0x5002) : d0.changed d k t = d := by
  have hne : ∀ q, idxOf q ≠ 0x5002 → k ≠ q := fun q hq h => hq (h ▸ hidx)
  unfold Dev.changed
  dsimp only
  rw [hidx, if_neg (hne Ob.freqSlopeLimit (by decide)), if_neg (hne Ob.selectorMode (by decide)),
    if_neg (hne Ob.poseQueue (by decide)), if_neg (hne Ob.resampleEnable (by decide)), if_neg (hne Ob.virekEnable (by decide)),
    if_neg (hne Ob.mirrorRanges (by decide))]
  simp

/-! The dictionary's rows: a subindex is one byte, and no write reaches what the device counts itself. -/

theorem objRows_sub_le (idx : Nat) : ∀ r ∈ objRows idx, r.s1 ≤ 255 := by
  have hall : ((objRows idx).all fun r => Nat.ble r.s1 255) = true := by
    unfold objRows
    split <;> rfl
  exact fun r hr => Nat.le_of_ble_eq_true (List.all_eq_true.1 hall r hr)

theorem objRow_sub_le {idx sub : Nat} {r : ObjRow} (h : objRow idx sub = some r) : sub ≤ 255 := by
  have hfits := List.find?_some h
  simp only [Bool.and_eq_true, Nat.ble_eq] at hfits
  exact hfits.2.trans (objRows_sub_le idx r (List.mem_of_find?_eq_some h))

theorem Dev.objFault_grants {d : Dev} {se : Session} {idx sub : Nat} {fence : Option Nat} {r : ObjRow}
    (h : d.objFault se idx sub true fence = none) (hr : objRow idx sub = some r) : r.acc.grants (d.roles se.part) Acc.writes = true := by
  unfold Dev.objFault at h
  rw [hr] at h
  dsimp only at h
  by_contra hno
  rw [Bool.not_eq_true] at hno
  simp only [hno, Bool.not_false, if_true] at h
  repeat' split at h
  all_goals cases h

/-- A write that passes its checks has a row that lets some role write it. -/
theorem Dev.writeGate_grants {d e : Dev} {c : Conds} {hd : Hdr} {cond : Option Nat} {idx sub : Nat} {v : Bytes} {se : Session}
    {n : Int} (h : d.writeGate c hd cond idx sub v = .pass e se n) :
    ∃ r, objRow idx sub = some r ∧ r.acc.grants (e.roles se.part) Acc.writes = true := by
  unfold Dev.writeGate at h
  dsimp only at h
  split at h
  · cases h
  split at h
  · cases h
  next hobj =>
    split at h
    · cases h
    next r hr =>
      split at h
      · cases h
      · obtain ⟨rfl, rfl, -⟩ := Gate.pass.inj h
        exact ⟨r, hr, Dev.objFault_grants hobj hr⟩

theorem aRo_grants (roles : Nat) : aRo.grants roles Acc.writes = false := by
  simp [Access.grants, Acc.writes]

theorem objRow_poursHeld : ∀ r, objRow 0x2200 3 = some r → r.acc = aRo := by
  rintro r ⟨⟩
  rfl

theorem objRow_poursCancelled : ∀ r, objRow 0x2200 7 = some r → r.acc = aRo := by
  rintro r ⟨⟩
  rfl

/-! The register an address stands for. -/

theorem Dev.resolve_cases (d : Dev) (sid k : Nat) : d.resolve sid k = k ∨ ∃ i, d.resolve sid k = inst k i := by
  unfold Dev.resolve
  split
  · exact .inr ⟨_, rfl⟩
  · split
    · exact .inr ⟨_, rfl⟩
    · exact .inl rfl

/-- Instances of an object keep its index and its subindex. -/
theorem Dev.resolve_address (d : Dev) (sid : Nat) {idx sub : Nat} (hidx : idx < 65536) (hsub : sub ≤ 255) :
    idxOf (d.resolve sid (idx * 256 + sub)) = idx ∧ d.resolve sid (idx * 256 + sub) % 256 = sub := by
  unfold idxOf
  rcases d.resolve_cases sid (idx * 256 + sub) with h | ⟨i, h⟩
  · rw [h]
    omega
  · rw [h]
    unfold inst
    omega

/-- An object that some role may write is none that the device counts itself. -/
theorem Dev.resolve_ne_counts (d : Dev) (sid : Nat) {idx sub roles : Nat} {r : ObjRow} (hidx : idx < 65536)
    (hr : objRow idx sub = some r) (hgrants : r.acc.grants roles Acc.writes = true) :
    d.resolve sid (idx * 256 + sub) ≠ Ob.poursHeld ∧ d.resolve sid (idx * 256 + sub) ≠ Ob.poursCancelled := by
  have hwritable : r.acc ≠ aRo := fun h => by simp [h, aRo_grants] at hgrants
  obtain ⟨haddr, hmod⟩ := d.resolve_address sid hidx (objRow_sub_le hr)
  refine ⟨fun h => hwritable ?_, fun h => hwritable ?_⟩
  · rw [h] at haddr hmod
    exact objRow_poursHeld r (by rw [← hr, ← haddr, ← hmod]; rfl)
  · rw [h] at haddr hmod
    exact objRow_poursCancelled r (by rw [← hr, ← haddr, ← hmod]; rfl)

theorem Dev.Passed.resolve {d e : Dev} (h : d.Passed e) (sid k : Nat) : e.resolve sid k = d.resolve sid k := by
  unfold Dev.resolve Dev.selQueue Dev.nat
  rw [h.reg]

/-! The effect of a plain write. -/

theorem actOf_of_plain {idx sub : Nat} {v : Bytes} (h : plainObj idx sub v = true) : actOf idx sub v = actPlain idx sub := by
  unfold actOf
  rw [Option.isNone_iff_eq_none.1 h]
  rfl

theorem Dev.written_own (d0 d : Dev) {k : Nat} (t : Nat) (hk : ¬ BookKey k) (hidx : idxOf k < 0x3000) :
    (d0.written d k t).reg k = d.reg k := by
  unfold Dev.written
  dsimp only
  rw [if_neg (by omega), if_neg (by omega)]
  exact Dev.ite_reg (fun _ => d0.changed_own d t hk hidx) fun _ => Dev.ite_reg (fun _ => rfl) fun _ => d0.changed_own d t hk hidx

theorem Dev.written_queueObj (d0 d : Dev) {k : Nat} (t : Nat) (hidx : idxOf k = 0x5002) : d0.written d k t = d := by
  unfold Dev.written
  dsimp only
  rw [if_neg (by omega), if_neg (by omega), d0.changed_queueObj d t hidx, ite_self, ite_self]

/-- Cancelled pours aside, a plain write does what its object's change does. -/
theorem actPlain_reg {idx sub : Nat} (se : Session) (n : Int) (d : Dev) {k : Nat} (hk : ¬ CancelKey k) :
    ((actPlain idx sub).eff se n d).reg k
      = (d.written (d.set (d.resolve se.id (idx * 256 + sub)) n) (d.resolve se.id (idx * 256 + sub)) d.now).reg k := by
  unfold actPlain
  dsimp only
  rw [Dev.powerCheck_reg, Dev.cancelLost_other _ _ hk, Dev.stepped_reg]

/-- Below 0x3000 the object keeps what was written. -/
theorem actPlain_own {idx sub : Nat} (se : Session) (n : Int) (d : Dev) (hidx : idx < 0x3000) (hsub : sub ≤ 255)
    (hk : ¬ CancelKey (d.resolve se.id (idx * 256 + sub))) :
    ((actPlain idx sub).eff se n d).reg (d.resolve se.id (idx * 256 + sub)) = n := by
  obtain ⟨haddr, -⟩ := d.resolve_address se.id (idx := idx) (by omega) hsub
  rw [actPlain_reg se n d hk, Dev.written_own _ _ _ (fun h => hk (.inl h)) (by omega), Dev.reg_set, if_pos rfl]

/-- A plain write does not move the address written: the selection of a queue is an object of its own. -/
theorem actPlain_resolve {idx sub : Nat} (se : Session) (n : Int) (d : Dev) (hsub : sub ≤ 255) :
    ((actPlain idx sub).eff se n d).resolve se.id (idx * 256 + sub) = d.resolve se.id (idx * 256 + sub) := by
  have hqueue : idx = 0x5002 → ((actPlain idx sub).eff se n d).reg (inst Ob.queueSelect se.id) = d.reg (inst Ob.queueSelect se.id) := by
    intro hidx
    obtain ⟨haddr, -⟩ := d.resolve_address se.id (idx := idx) (by omega) hsub
    have hother : inst Ob.queueSelect se.id ≠ d.resolve se.id (idx * 256 + sub) := fun h => by
      rw [← h] at haddr
      unfold idxOf inst Ob.queueSelect at haddr
      omega
    have hkey : ¬ CancelKey (inst Ob.queueSelect se.id) := by
      unfold CancelKey BookKey inst Ob.queueSelect Ob.poursHeld Ob.poursCancelled
      omega
    rw [actPlain_reg se n d hkey, Dev.written_queueObj _ _ _ (haddr.trans hidx), Dev.reg_set, if_neg hother]
  unfold Dev.resolve
  split
  · rfl
  · split
    · unfold Dev.selQueue Dev.nat
      rw [hqueue (by omega)]
    · rfl

/-! The answer. -/

theorem Dev.finishWrite_ver (f : Dev) (hd : Hdr) (cond : Option Nat) {idx sub : Nat} (v : Bytes) (se : Session) {r : ObjRow}
    (hr : objRow idx sub = some r) (k : Nat) :
    (f.finishWrite hd cond idx sub v se).ver k = (f.bumpVer (idx * 256 + sub)).ver k := by
  simp only [Dev.finishWrite, hr]
  split
  · rfl
  · exact (Dev.complete_onlyAnswers _ _ _ _ _ _ _).ver k

/-- An RWP write waits for its commit, which carries its object and its version. -/
theorem Dev.finishWrite_of_rwp (f : Dev) (hd : Hdr) (cond : Option Nat) {idx sub : Nat} (v : Bytes) (se : Session) {r : ObjRow}
    (hr : objRow idx sub = some r) (hrwp : r.rwp = true) :
    ∃ c ∈ (f.finishWrite hd cond idx sub v se).dict.commits, c.sid = se.id
      ∧ c.vals.map (fun x => x.1) = [f.resolve se.id (idx * 256 + sub)]
      ∧ c.ver = (f.bumpVer (idx * 256 + sub)).ver (idx * 256 + sub) := by
  simp only [Dev.finishWrite, hr, hrwp, if_true]
  exact ⟨_, List.mem_append_right _ (List.mem_singleton.2 rfl), rfl, rfl, rfl⟩

theorem plainWrite_runs {idx sub : Nat} {v : Bytes} (hplain : plainObj idx sub v = true) :
    SetRuns (fun hd cond => .write hd idx sub cond v) (actPlain idx sub).conds idx sub v fun d se n d' =>
      d'.ver (idx * 256 + sub) = (d.ver (idx * 256 + sub) + 1) % 65536
      ∧ (idx < 0x3000 → ¬ BookKey (d.resolve se.id (idx * 256 + sub)) → d'.reg (d.resolve se.id (idx * 256 + sub)) = n)
      ∧ ((∃ r, objRow idx sub = some r ∧ r.rwp = false) → (d'.session se.id).isSome = true →
        d'.lastAnswer se.id = some { status := Sc.ok, ver := (d.ver (idx * 256 + sub) + 1) % 65536 })
      ∧ ((∃ r, objRow idx sub = some r ∧ r.rwp = true) → ∃ c, c ∈ d'.dict.commits ∧ c.sid = se.id
        ∧ c.vals.map (fun x => x.1) = [d.resolve se.id (idx * 256 + sub)] ∧ c.ver = (d.ver (idx * 256 + sub) + 1) % 65536) := by
  intro s hd cond e se n hg
  have hpassed := Dev.writeGate_passed hg
  obtain ⟨r, hr, hgrants⟩ := Dev.writeGate_grants hg
  have hsub := objRow_sub_le hr
  refine Runs.of_onDev (show execWrite hd idx sub cond v s = onDev _ s from rfl) ?_
  dsimp only
  rw [actOf_of_plain hplain, hg]
  dsimp only
  generalize hf : (actPlain idx sub).eff se n e = f
  have hpost : ∀ x, (actPlain idx sub).post n x = x := fun _ => rfl
  have hver : (f.bumpVer (idx * 256 + sub)).ver (idx * 256 + sub) = (s.dev.ver (idx * 256 + sub) + 1) % 65536 := by
    have hsame : f.ver (idx * 256 + sub) = s.dev.ver (idx * 256 + sub) := by
      unfold Dev.ver
      rw [← hf, actPlain_vers, hpassed.eq]
    rw [Dev.ver_bumpVer, hsame]
  rw [hpost, ← hpassed.resolve se.id]
  refine ⟨?_, fun hidx hbook => ?_, fun ⟨r', hr', hrw⟩ hs => ?_, fun ⟨r', hr', hrwp⟩ => ?_⟩
  · rw [(Dev.settle_onlyAnswers _ _).ver, Dev.finishWrite_ver _ _ _ _ _ hr, hver]
  · have hkey : ¬ CancelKey (e.resolve se.id (idx * 256 + sub)) :=
      not_or.2 ⟨hbook, not_or.2 (e.resolve_ne_counts se.id (by omega) hr hgrants)⟩
    have hsafe : e.resolve se.id (idx * 256 + sub) ≠ Ob.safeOutputState := fun h => by
      obtain ⟨haddr, -⟩ := e.resolve_address se.id (idx := idx) (by omega) hsub
      rw [h, show idxOf Ob.safeOutputState = 0x3600 from rfl] at haddr
      omega
    rw [((Dev.finishWrite_finished f hd cond idx sub v se).trans (Dev.settle_finished _ _)).reg _ hbook hsafe, ← hf,
      actPlain_own se n e hidx hsub hkey]
  · rw [Dev.finishWrite_of_rw _ _ _ _ _ hr' hrw] at hs ⊢
    rw [← hver]
    exact Dev.settle_complete_lastAnswer (.inl rfl) hs
  · obtain ⟨c, hc, hsid, hvals, hcver⟩ := Dev.finishWrite_of_rwp f hd cond v se hr' hrwp
    refine ⟨c, by rwa [Dev.settle_dict], hsid, ?_, hcver.trans hver⟩
    rw [hvals, ← hf, actPlain_resolve se n e hsub]

/-- Settles O23. -/
theorem plainWriteRuns : Obligations.PlainWriteRuns := fun _ _ _ => plainWrite_runs

end Sys2Proof.Machine
end

section
/-! The supply's own operations (05_start_up R114-R119): what driving the analog outputs, a reset and a restart leave. -/
namespace Sys2Proof.Machine

/-! What follows every command moves, of the pins, the SAFE pair alone. -/

theorem Dev.drivePin_pins (d : Dev) (pin : Nat) (level : Bool) : (d.drivePin pin level).pins
    = if pin = 0 then { d.pins with safeA := level } else { d.pins with safeB := level } := by
  unfold Dev.drivePin
  by_cases hp : pin = 0
  · rw [if_pos hp, if_pos hp]
    split
    · next h => rw [← h]
    · rfl
  · rw [if_neg hp, if_neg hp]
    split
    · next h => rw [← h]
    · rfl

theorem Dev.driveSafe_pins (d : Dev) (pin : Nat) (level : Bool) :
    ∃ a b, (d.driveSafe pin level).pins = { d.pins with safeA := a, safeB := b } := by
  unfold Dev.driveSafe
  by_cases hsame : (if pin = 0 then d.pins.safeA else d.pins.safeB) = level
  · rw [if_pos hsame]
    exact ⟨d.pins.safeA, d.pins.safeB, rfl⟩
  · rw [if_neg hsame]
    show ∃ a b, (d.drivePin pin level).pins = _
    rw [Dev.drivePin_pins]
    by_cases hp : pin = 0
    · exact ⟨level, d.pins.safeB, if_pos hp⟩
    · exact ⟨d.pins.safeA, level, if_neg hp⟩

theorem Dev.settle_pins (d0 d : Dev) : ∃ a b, (d0.settle d).pins = { d.pins with safeA := a, safeB := b } := by
  have hdriven : ∃ a b, d.pairDriven.pins = { d.pins with safeA := a, safeB := b } := by
    unfold Dev.pairDriven
    extract_lets e
    have hsame : e.pins = d.pins := by
      show (if d.pairOn then d else d.onSafe _).pins = d.pins
      split <;> rfl
    obtain ⟨a, b, h⟩ := e.driveSafe_pins 0 (d.pairOn && e.safe.pulse != some 0)
    obtain ⟨a', b', h'⟩ := (e.driveSafe 0 (d.pairOn && e.safe.pulse != some 0)).driveSafe_pins 1 (d.pairOn && e.safe.pulse != some 1)
    exact ⟨a', b', by rw [h', h, hsame]⟩
  show ∃ a b, d.refreshSafe.pins = _
  rw [Dev.refreshSafe_eq]
  split <;> exact hdriven

@[simp] theorem Dev.settle_pins_other (d0 d : Dev) :
    (d0.settle d).pins.vin = d.pins.vin ∧ (d0.settle d).pins.vio18 = d.pins.vio18 ∧ (d0.settle d).pins.vio33 = d.pins.vio33
      ∧ (d0.settle d).pins.perst = d.pins.perst ∧ (d0.settle d).pins.vsel = d.pins.vsel := by
  obtain ⟨a, b, h⟩ := d0.settle_pins d
  rw [h]
  exact ⟨rfl, rfl, rfl, rfl, rfl⟩

theorem Dev.settle_vio (d0 d : Dev) (out : Nat) : (d0.settle d).pins.vio out = d.pins.vio out := by
  obtain ⟨a, b, h⟩ := d0.settle_pins d
  rw [h]
  rfl

theorem Dev.analogCode_congr {d e : Dev} (h : e.analogOut = d.analogOut) (ch : Nat) : e.analogCode ch = d.analogCode ch := by
  unfold Dev.analogCode
  rw [h]

theorem Dev.settle_analogCode (d0 d : Dev) (ch : Nat) : (d0.settle d).analogCode ch = d.analogCode ch :=
  Dev.analogCode_congr ((Dev.settle_within (M := 0) rfl (.refl d) d0).analogOut rfl) ch

theorem Dev.event_pins (d : Dev) (ev : Ev) : (d.event ev).pins = d.pins := by simp

theorem Dev.event_analogCode (d : Dev) (ev : Ev) (ch : Nat) : (d.event ev).analogCode ch = d.analogCode ch :=
  Dev.analogCode_congr (by simp) ch

theorem Dev.settle_boot (d0 d : Dev) : (d0.settle d).boot = d.boot := (Dev.settle_answered d0 d).boot

/-- Outside RUN the pair may not be on. -/
theorem Dev.pairOn_of_phase {d : Dev} (h : d.nat Ob.bootPhase ≠ 8) : d.pairOn = false := by
  have hrun : d.running = false := by simpa [Dev.running] using h
  simp [Dev.pairOn, hrun]

theorem Dev.flag_congr {d e : Dev} {k : Nat} (h : e.reg k = d.reg k) : e.flag k = d.flag k := by
  unfold Dev.flag
  rw [h]

theorem Dev.nat_congr {d e : Dev} {k : Nat} (h : e.reg k = d.reg k) : e.nat k = d.nat k := by
  unfold Dev.nat
  rw [h]

theorem Dev.nat_of_reg {d : Dev} {k n : Nat} (h : d.reg k = n) : d.nat k = n := by
  unfold Dev.nat
  rw [h, Int.toNat_natCast]

/-! The analog outputs. -/

theorem Dev.driveAnalog_code (d : Dev) (ch : Nat) (code : Int) (x : Nat) :
    (d.driveAnalog ch code).analogCode x = if x = ch then code else d.analogCode x := by
  unfold Dev.driveAnalog
  split
  · next h => split <;> simp_all
  · show (kvGet (if code = 0 then kvDel d.analogOut ch else kvPut d.analogOut ch code) x).getD 0 = _
    by_cases hc : code = 0 <;> by_cases hx : x = ch <;> simp [hc, hx, Dev.analogCode]

/-- Driving an analog output moves the outputs alone. -/
theorem Dev.driveAnalog_eq (d : Dev) (ch : Nat) (code : Int) :
    ∃ a o, d.driveAnalog ch code = { d with analogOut := a, out := o } := by
  unfold Dev.driveAnalog
  split
  · exact ⟨d.analogOut, d.out, rfl⟩
  · exact ⟨_, _, rfl⟩

/-- The code of an output's safe value: what flash holds while the record is valid, else zero (R119). -/
def Dev.safeCode (d : Dev) (ch : Nat) : Int := if d.flag Ob.safeRecordValid then d.flashVal (safeKey ch) else 0

theorem Dev.each_analog {f : Dev → Nat → Int} (hf : ∀ d a o, f { d with analogOut := a, out := o } = f d) (l : List Nat) (d : Dev) :
    (∃ a o, d.each l (fun d ch => d.driveAnalog ch (f d ch)) = { d with analogOut := a, out := o })
      ∧ ∀ x, (d.each l fun d ch => d.driveAnalog ch (f d ch)).analogCode x = if x ∈ l then f d x else d.analogCode x := by
  induction l generalizing d with
  | nil => exact ⟨⟨d.analogOut, d.out, rfl⟩, fun _ => rfl⟩
  | cons ch l ih =>
    obtain ⟨a, o, hone⟩ := d.driveAnalog_eq ch (f d ch)
    obtain ⟨⟨a', o', hall⟩, hcode⟩ := ih (d.driveAnalog ch (f d ch))
    refine ⟨⟨a', o', hall.trans (by rw [hone])⟩, fun x => (hcode x).trans ?_⟩
    have hsame : f (d.driveAnalog ch (f d ch)) = f d := by rw [hone, hf]
    rw [hsame, Dev.driveAnalog_code]
    by_cases hx : x = ch <;> simp [hx]

theorem Dev.allAnalogSafe_eq (d : Dev) : ∃ a o, d.allAnalogSafe = { d with analogOut := a, out := o } :=
  (Dev.each_analog (f := Dev.safeCode) (fun _ _ _ => rfl) _ d).1

@[simp] theorem Dev.allAnalogSafe_parts (d : Dev) :
    d.allAnalogSafe.pins = d.pins ∧ d.allAnalogSafe.boot = d.boot ∧ d.allAnalogSafe.flash = d.flash
      ∧ d.allAnalogSafe.dict = d.dict ∧ d.allAnalogSafe.pow = d.pow ∧ ∀ k, d.allAnalogSafe.reg k = d.reg k := by
  obtain ⟨a, o, h⟩ := d.allAnalogSafe_eq
  rw [h]
  exact ⟨rfl, rfl, rfl, rfl, rfl, fun _ => rfl⟩

theorem Dev.allAnalogSafe_code (d : Dev) {ch : Nat} (h : ch < 12) : d.allAnalogSafe.analogCode ch = d.safeCode ch :=
  ((Dev.each_analog (f := Dev.safeCode) (fun _ _ _ => rfl) _ d).2 ch).trans (if_pos (List.mem_range.2 h))

theorem Dev.allAnalogZero_eq (d : Dev) : ∃ a o, d.allAnalogZero = { d with analogOut := a, out := o } :=
  (Dev.each_analog (f := fun _ _ => 0) (fun _ _ _ => rfl) _ d).1

@[simp] theorem Dev.allAnalogZero_parts (d : Dev) :
    d.allAnalogZero.pins = d.pins ∧ d.allAnalogZero.boot = d.boot ∧ d.allAnalogZero.flash = d.flash
      ∧ d.allAnalogZero.dict = d.dict ∧ d.allAnalogZero.pow = d.pow ∧ ∀ k, d.allAnalogZero.reg k = d.reg k := by
  obtain ⟨a, o, h⟩ := d.allAnalogZero_eq
  rw [h]
  exact ⟨rfl, rfl, rfl, rfl, rfl, fun _ => rfl⟩

theorem Dev.allAnalogZero_code (d : Dev) {ch : Nat} (h : ch < 12) : d.allAnalogZero.analogCode ch = 0 :=
  ((Dev.each_analog (f := fun _ _ => 0) (fun _ _ _ => rfl) _ d).2 ch).trans (if_pos (List.mem_range.2 h))

/-- Driving a pin of the pair moves the pins and the outputs sent alone. -/
theorem Dev.drivePin_eq (d : Dev) (pin : Nat) (level : Bool) :
    ∃ o, d.drivePin pin level = { d with pins := (d.drivePin pin level).pins, out := o } := by
  unfold Dev.drivePin
  generalize (if pin = 0 then d.pins.safeA else d.pins.safeB) = was
  split
  · exact ⟨d.out, rfl⟩
  · exact ⟨_, rfl⟩

theorem Dev.safeOff_eq (d : Dev) : ∃ o, d.safeOff = { d with pins := { d.pins with safeA := false, safeB := false }, out := o } := by
  unfold Dev.safeOff
  obtain ⟨o, h⟩ := d.drivePin_eq 0 false
  obtain ⟨o', h'⟩ := (d.drivePin 0 false).drivePin_eq 1 false
  refine ⟨o', h'.trans ?_⟩
  rw [Dev.drivePin_pins, if_neg (by decide), Dev.drivePin_pins, if_pos rfl, h]

@[simp] theorem Dev.safeOff_parts (d : Dev) :
    d.safeOff.pins = { d.pins with safeA := false, safeB := false } ∧ d.safeOff.boot = d.boot ∧ d.safeOff.flash = d.flash
      ∧ d.safeOff.dict = d.dict ∧ d.safeOff.pow = d.pow ∧ ∀ k, d.safeOff.reg k = d.reg k := by
  obtain ⟨o, h⟩ := d.safeOff_eq
  rw [h]
  exact ⟨rfl, rfl, rfl, rfl, rfl, fun _ => rfl⟩

/-! Resets (R117): a full reset keeps what flash and the retained registers hold; a plain restart also puts the outputs at zero. -/

theorem kvGet_filter_key {α : Type} (m : Assoc α) (p : Nat → Bool) (k : Nat) :
    kvGet (m.filter fun c => p c.1) k = if p k then kvGet m k else none := by
  induction m with
  | nil => simp [kvGet]
  | cons c m ih =>
    by_cases hc : p c.1 <;> by_cases hk : k = c.1 <;> simp_all [kvGet]

theorem Dev.fullReset_reg (d : Dev) (phase cause k : Nat) : (d.fullReset phase cause).reg k
    = if k = Ob.bootCause then (cause : Int) else if k = Ob.bootPhase then (phase : Int)
      else if survivesReset k then d.reg k else objDefault k := by
  unfold Dev.fullReset
  rw [Dev.reg_setN, Dev.reg_setN]
  refine if_congr Iff.rfl rfl (if_congr Iff.rfl rfl ?_)
  unfold Dev.reg
  dsimp only
  rw [kvGet_filter_key]
  cases survivesReset k <;> rfl

/-- What a full reset leaves beside the registers. -/
theorem Dev.fullReset_parts (d : Dev) (phase cause : Nat) :
    (d.fullReset phase cause).tl = {} ∧ (d.fullReset phase cause).boot = { current := d.boot.current, trial := d.boot.trial }
      ∧ (d.fullReset phase cause).analogOut = d.analogOut ∧ (d.fullReset phase cause).flash = d.flash
      ∧ (d.fullReset phase cause).pins = { d.pins with safeApplied := false } := ⟨rfl, rfl, rfl, rfl, rfl⟩

theorem Dev.plainRestart_eq (d : Dev) (cause : Nat) :
    ∃ a o, d.plainRestart cause = ({ d with pins := { d.pins with safeA := false, safeB := false }, analogOut := a, out := o } : Dev).fullReset 1 cause
      ∧ ∀ ch, ch < 12 → (kvGet a ch).getD 0 = 0 := by
  obtain ⟨o, hoff⟩ := d.safeOff_eq
  obtain ⟨a, o', hzero⟩ := d.safeOff.allAnalogZero_eq
  refine ⟨a, o', ?_, fun ch hch => ?_⟩
  · unfold Dev.plainRestart
    rw [hzero, hoff]
  · have hcode := d.safeOff.allAnalogZero_code hch
    rw [hzero] at hcode
    exact hcode

/-- Start-up begins again: phase SUPPLY with its cause, the timeline stopped, the outputs at zero and the pair off. -/
structure Dev.Restarts (d : Dev) (cause : Nat) (d' : Dev) : Prop where
  phase : d'.reg Ob.bootPhase = 1
  cause : d'.reg Ob.bootCause = (cause : Nat)
  kept : ∀ k, survivesReset k = true → d'.reg k = d.reg k
  tl : d'.tl = {}
  boot : d'.boot = { current := d.boot.current, trial := d.boot.trial }
  analog : ∀ ch, ch < 12 → d'.analogCode ch = 0
  safeA : d'.pins.safeA = false
  safeB : d'.pins.safeB = false

theorem Dev.plainRestart_restarts (d0 d : Dev) (cause : Nat) : d.Restarts cause (d0.settle (d.plainRestart cause)) := by
  obtain ⟨a, o, heq, hzero⟩ := d.plainRestart_eq cause
  have hreg : ∀ k, (d.plainRestart cause).reg k = if k = Ob.bootCause then (cause : Int) else if k = Ob.bootPhase then 1
      else if survivesReset k then d.reg k else objDefault k := fun k => by
    rw [heq, Dev.fullReset_reg]
    rfl
  have hphase : (d.plainRestart cause).reg Ob.bootPhase = 1 := (hreg _).trans rfl
  have hoff : (d.plainRestart cause).pairOn = false := by
    refine Dev.pairOn_of_phase ?_
    unfold Dev.nat
    rw [hphase]
    decide
  obtain ⟨hA, hB⟩ := Dev.settle_pins_off hoff d0
  refine ⟨?_, ?_, fun k hk => ?_, ?_, ?_, fun ch hch => ?_, hA, hB⟩
  · rw [Dev.settle_reg _ _ (by decide), hphase]
  · rw [Dev.settle_reg _ _ (by decide), hreg, if_pos rfl]
  · have hne : ∀ x, survivesReset x = false → k ≠ x := fun x hx e => by rw [e, hx] at hk; cases hk
    rw [Dev.settle_reg _ _ (hne _ (by decide)), hreg, if_neg (hne _ (by decide)), if_neg (hne _ (by decide)), if_pos hk]
  · rw [Dev.settle_tl, heq, (Dev.fullReset_parts _ _ _).1]
  · rw [Dev.settle_boot, heq, (Dev.fullReset_parts _ _ _).2.1]
  · rw [Dev.settle_analogCode, heq]
    exact hzero ch hch

/-- A write that is answered and then restarts the device, on which its effect `f` is done first. -/
theorem SetRuns.of_restart {mk : Hdr → Option Nat → Instr} {c : Conds} {idx sub cause : Nat} {v : Bytes}
    {P : Dev → Session → Int → Dev → Prop} {f : Dev → Dev}
    (h : ∀ hd cond s e se n, s.dev.writeGate c hd cond idx sub v = .pass e se n →
      exec (mk hd cond) s = onDev (fun _ => ((f e).finishWrite hd cond idx sub v se).plainRestart cause) s)
    (k : ∀ (d e : Dev) se n d', d.Passed e → (f e).Answered d' → ∀ d'', d'.Restarts cause d'' → P d se n d'') :
    SetRuns mk c idx sub v P := by
  intro s hd cond e se n hg
  exact Runs.of_onDev (h hd cond s e se n hg) (k _ e se n _ (Dev.writeGate_passed hg) (Dev.finishWrite_answered _ _ _ _ _ _ _)
    _ (Dev.plainRestart_restarts _ _ _))

end Sys2Proof.Machine
end

section
/-! The supply commands (05_start_up R114-R119, R122; 20_electrical R400). -/
namespace Sys2Proof.Machine

/-- Up to 20,000 mV a supply command is a change of the device. -/
theorem onSupply_eq {mv : Nat} (h : mv ≤ 20000) (f : Dev → Dev) (s : State) : onSupply mv f s = onDev f s :=
  if_neg (by simpa [overstress] using h)

/-- Beyond it the model stops with a fault (R400, log 132). -/
theorem onSupply_fault {mv : Nat} (h : 20000 < mv) (f : Dev → Dev) (s : State) : onSupply mv f s = .fault .absoluteMaximum :=
  if_pos (by simpa [overstress] using h)

/-- The device as VIN passes 3 V (R115). -/
def Dev.vinRises (d : Dev) (mv : Nat) : Dev :=
  ((d.onPins fun p => { p with vin := 1 }).safeOff.allAnalogZero).setN Ob.vinNow (Nat.min mv 65535)

theorem exec_vinAbove3v {s : State} {mv : Nat} (hmv : mv ≤ 20000) (hvin : s.dev.pins.vin = 0) :
    exec (.vinAbove3v mv) s = onDev (fun _ => s.dev.vinRises mv) s := by
  refine (onSupply_eq hmv _ s).trans ?_
  unfold onDev
  dsimp only
  rw [if_pos hvin]
  rfl

theorem vinAbove3v_runs {s : State} {mv : Nat} (hmv : mv ≤ 20000) (hvin : s.dev.pins.vin = 0) (hphase : s.dev.nat Ob.bootPhase = 0) :
    Runs (.vinAbove3v mv) s fun d => d.pins.vin = 1 ∧ d.pins.safeA = false ∧ d.pins.safeB = false ∧ d.reg Ob.vinNow = mv
      ∧ ∀ ch, ch < 12 → d.analogCode ch = 0 := by
  refine Runs.of_onDev (f := fun _ => s.dev.vinRises mv) (exec_vinAbove3v hmv hvin) ?_
  have hreg : (s.dev.vinRises mv).reg Ob.bootPhase = s.dev.reg Ob.bootPhase := by simp [Dev.vinRises]
  have hoff : (s.dev.vinRises mv).pairOn = false :=
    Dev.pairOn_of_phase (by rw [Dev.nat_congr hreg, hphase]; decide)
  have hmin : Nat.min mv 65535 = mv := Nat.min_eq_left (by omega)
  obtain ⟨hA, hB⟩ := Dev.settle_pins_off hoff s.dev
  refine ⟨?_, hA, hB, ?_, fun ch hch => ?_⟩
  · simp [Dev.vinRises]
  · rw [Dev.settle_reg _ _ (by decide)]
    simp [Dev.vinRises, hmin]
  · have hzero : (s.dev.vinRises mv).analogCode ch = (s.dev.onPins fun p => { p with vin := 1 }).safeOff.allAnalogZero.analogCode ch :=
      Dev.analogCode_congr (by simp [Dev.vinRises]) ch
    rw [Dev.settle_analogCode, hzero, Dev.allAnalogZero_code _ hch]

/-- Start-up leaves OFF for SUPPLY, unless a thermal trip holds the device, and the VIO outputs come up (R114, R116). -/
theorem vinValid_runs {s : State} {mv : Nat} (hmv : mv ≤ 20000) (hphase : s.dev.nat Ob.bootPhase = 0) (hvin : s.dev.pins.vin ≠ 2)
    (htrip : s.dev.pow.tripped = false) :
    Runs (.vinValid mv) s fun d => d.reg Ob.bootPhase = 1 ∧ d.reg Ob.bootCause = (if s.dev.reg Ob.bootCause = 4 then 4 else 0)
      ∧ d.pins.vin = 2 ∧ d.pins.vio18 = 1 ∧ d.pins.vio33 = 1 := by
  refine Runs.of_onDev (onSupply_eq hmv _ s) ?_
  have hstart : (s.dev.nat Ob.bootPhase = 0 && s.dev.pins.vin != 2) = true := by simp [hphase, hvin]
  rw [if_pos hstart]
  dsimp only
  rw [if_neg (by simp [htrip])]
  refine ⟨?_, ?_, ?_, ?_, ?_⟩
  · rw [Dev.settle_reg _ _ (by decide), Dev.reg_set, if_pos rfl]
  · have hcause : ((s.dev.onPins fun p => { p with vin := 2, vio18 := 1, vio33 := 1 }).setN Ob.vinNow (Nat.min mv 65535)).reg Ob.bootCause
        = s.dev.reg Ob.bootCause := (Dev.reg_setN _ _ _ _).trans (if_neg (by decide))
    rw [Dev.settle_reg _ _ (by decide), Dev.reg_set, if_neg (by decide), Dev.reg_set, if_pos rfl, hcause]
  all_goals simp

/-- The device as VIN has dropped out, before its full reset: the pair is off, the outputs at their safe values (R118). -/
def Dev.browning (d : Dev) (mv : Nat) (slow : Bool) : Dev :=
  d.safeOff.allAnalogSafe.when slow fun d => d.event { code := 0x8010, d1 := mv, mirror := true }

/-- The device a brownout leaves. -/
def Dev.brownedOut (d : Dev) (mv : Nat) (slow : Bool) : Dev :=
  let tripped := (d.browning mv slow).pow.tripped
  let d := ((d.browning mv slow).fullReset 0 4).setN Ob.vinNow (Nat.min mv 65535)
  let d := d.onPins fun p => { p with vin := if 3000 < mv then 1 else 0, vio18 := 0, vio33 := 0, perst := false }
  { d with pow := { d.pow with tripped := tripped } }

theorem Dev.brownedOut_reg (d : Dev) (mv : Nat) (slow : Bool) (k : Nat) : (d.brownedOut mv slow).reg k
    = if k = Ob.vinNow then ((Nat.min mv 65535 : Nat) : Int) else ((d.browning mv slow).fullReset 0 4).reg k :=
  Dev.reg_setN _ _ _ _

theorem Dev.browning_analogCode (d : Dev) (mv : Nat) (slow : Bool) {ch : Nat} (h : ch < 12) :
    (d.browning mv slow).analogCode ch = d.safeCode ch := by
  have hcode : (d.browning mv slow).analogCode ch = d.safeOff.allAnalogSafe.analogCode ch := by
    unfold Dev.browning Dev.when
    split
    · exact Dev.event_analogCode _ _ _
    · rfl
  rw [hcode, Dev.allAnalogSafe_code _ h]
  obtain ⟨o, hoff⟩ := d.safeOff_eq
  rw [hoff]
  rfl

theorem exec_brownout {s : State} {mv : Nat} {slow : Bool} (hvin : s.dev.pins.vin = 2) :
    exec (.brownout mv slow) s = onDev (fun _ => s.dev.brownedOut mv slow) s := by
  show execBrownout mv slow s = _
  unfold execBrownout onDev
  dsimp only
  rw [if_neg (not_not.2 hvin)]
  rfl

theorem brownout_runs {s : State} {mv : Nat} {slow : Bool} (hvin : s.dev.pins.vin = 2) :
    Runs (.brownout mv slow) s fun d => d.reg Ob.bootPhase = 0 ∧ d.reg Ob.bootCause = 4 ∧ d.pins.safeA = false ∧ d.pins.safeB = false
      ∧ d.pins.vio18 = 0 ∧ d.pins.vio33 = 0
      ∧ ∀ ch, ch < 12 → d.analogCode ch = if s.dev.flag Ob.safeRecordValid then s.dev.flashVal (safeKey ch) else 0 := by
  refine Runs.of_onDev (f := fun _ => s.dev.brownedOut mv slow) (exec_brownout hvin) ?_
  have hphase : (s.dev.brownedOut mv slow).reg Ob.bootPhase = 0 := by
    rw [Dev.brownedOut_reg, if_neg (by decide), Dev.fullReset_reg, if_neg (by decide), if_pos rfl]
    rfl
  have hcause : (s.dev.brownedOut mv slow).reg Ob.bootCause = 4 := by
    rw [Dev.brownedOut_reg, if_neg (by decide), Dev.fullReset_reg, if_pos rfl]
    rfl
  have hoff : (s.dev.brownedOut mv slow).pairOn = false :=
    Dev.pairOn_of_phase (by unfold Dev.nat; rw [hphase]; decide)
  obtain ⟨hA, hB⟩ := Dev.settle_pins_off hoff s.dev
  refine ⟨?_, ?_, hA, hB, ?_, ?_, fun ch hch => ?_⟩
  · rw [Dev.settle_reg _ _ (by decide), hphase]
  · rw [Dev.settle_reg _ _ (by decide), hcause]
  · rw [(s.dev.settle_pins_other _).2.1]
    rfl
  · rw [(s.dev.settle_pins_other _).2.2.1]
    rfl
  · rw [Dev.settle_analogCode]
    exact s.dev.browning_analogCode mv slow hch

/-! The VIO outputs (R116). -/

theorem Dev.setVio_vio (d : Dev) (out : Fin 2) (v : Nat) : (d.setVio out v).pins.vio out = v := by
  unfold Dev.setVio Pins.vio
  by_cases h : (out : Nat) = 0 <;> simp [h]

theorem vioOvercurrent_runs {s : State} {out : Fin 2} (h : s.dev.pins.vio out = 1) :
    Runs (.vioOvercurrent out) s fun d => d.pins.vio out = 2 ∧ s.dev.KeepsRegs d [] := by
  refine Runs.of_onDev (show execVioOvercurrent out s = onDev _ s from rfl) ?_
  rw [if_pos h]
  exact ⟨(Dev.settle_vio _ _ _).trans (Dev.setVio_vio _ _ _), fun _ _ hs _ => Dev.settle_reg _ _ hs⟩

theorem vioLimitTimeout_runs {s : State} {out : Fin 2} (h : s.dev.pins.vio out = 2) :
    Runs (.vioLimitTimeout out) s fun d => d.pins.vio out = 3
      ∧ d.log.ring.head? = some (s.dev.entryOf { code := 0x8011, d1 := (out : Nat) }) := by
  refine Runs.of_onDev (show execVioLimitTimeout out s = onDev _ s from rfl) ?_
  rw [if_pos h]
  refine ⟨?_, ?_⟩
  · rw [Dev.settle_vio, Dev.event_pins, Dev.setVio_vio]
  · rw [Dev.settle_log]
    exact Dev.event_newest _ _

theorem vioRetry_runs {s : State} {out : Fin 2} (h : s.dev.pins.vio out = 3) :
    Runs (.vioRetry out) s fun d => d.pins.vio out = 1 ∧ s.dev.KeepsRegs d [] := by
  refine Runs.of_onDev (show execVioRetry out s = onDev _ s from rfl) ?_
  rw [if_pos h]
  exact ⟨(Dev.settle_vio _ _ _).trans (Dev.setVio_vio _ _ _), fun _ _ hs _ => Dev.settle_reg _ _ hs⟩

/-! The resets (R117). -/

theorem sysReset_runs {s : State} (h : s.dev.nat Ob.bootPhase ≠ 0) :
    Runs .sysReset s fun d => d.reg Ob.bootPhase = 1 ∧ d.reg Ob.bootCause = 1 ∧ d.tl = {} ∧ ∀ ch, ch < 12 → d.analogCode ch = 0 := by
  refine Runs.of_onDev (show execSysReset s = onDev _ s from rfl) ?_
  rw [if_neg h]
  have r := s.dev.plainRestart_restarts s.dev 1
  exact ⟨r.phase, r.cause, r.tl, r.analog⟩

theorem execDeviceRestart_pass {hd : Hdr} {cond : Option Nat} {v : Bytes} {s : State} {e : Dev} {se : Session} {n : Int}
    (h : s.dev.writeGate {} hd cond 0x7000 8 v = .pass e se n) :
    exec (.deviceRestart hd cond v) s = onDev (fun _ => (e.finishWrite hd cond 0x7000 8 v se).plainRestart 2) s := by
  show execDeviceRestart hd cond v s = _
  unfold execDeviceRestart onDev
  dsimp only
  rw [h]

theorem deviceRestart_runs (v : Bytes) : SetRuns (fun hd cond => .deviceRestart hd cond v) {} 0x7000 8 v fun _ _ _ d' =>
    d'.reg Ob.bootPhase = 1 ∧ d'.reg Ob.bootCause = 2 ∧ d'.tl = {} ∧ d'.pins.safeA = false ∧ d'.pins.safeB = false :=
  SetRuns.of_restart (f := id) (fun _ _ _ _ _ _ h => execDeviceRestart_pass h) fun _ _ _ _ _ _ _ _ r =>
    ⟨r.phase, r.cause, r.tl, r.safeA, r.safeB⟩

/-! The safe values (R119). -/

/-- The device as the straps and the safe-value record have been read, before the outputs follow. -/
def Dev.safeRead (d : Dev) (straps : Nat) (ok : Bool) : Dev :=
  ((((d.when d.dict.restore Dev.defaultSafeRecord).onPins fun p => { p with vsel := straps % 16, safeApplied := true }).setB
    Ob.safeRecordValid ok).bump Ob.bootCount).set Ob.bootPhase 2

/-- The outputs follow the record, or are put at zero with 0x9010. -/
def Dev.safeDriven (d : Dev) (straps : Nat) (ok : Bool) : Dev :=
  if ok then (d.safeRead straps ok).allAnalogSafe else (d.safeRead straps ok).allAnalogZero.event { code := 0x9010 }

theorem Dev.safeDriven_reg (d : Dev) (straps : Nat) (ok : Bool) {k : Nat} (hk : ¬ BookKey k) :
    (d.safeDriven straps ok).reg k = (d.safeRead straps ok).reg k := by
  unfold Dev.safeDriven
  split
  · simp
  · simp [Dev.event_reg _ _ hk]

theorem Dev.safeDriven_pins (d : Dev) (straps : Nat) (ok : Bool) : (d.safeDriven straps ok).pins = (d.safeRead straps ok).pins := by
  unfold Dev.safeDriven
  split
  · simp
  · simp

theorem Dev.safeRead_phase (d : Dev) (straps : Nat) (ok : Bool) : (d.safeRead straps ok).reg Ob.bootPhase = 2 :=
  (Dev.reg_set _ _ _ _).trans (if_pos rfl)

theorem Dev.safeRead_valid (d : Dev) (straps : Nat) (ok : Bool) : (d.safeRead straps ok).flag Ob.safeRecordValid = ok := by
  have h : (d.safeRead straps ok).reg Ob.safeRecordValid = if ok then 1 else 0 := by
    unfold Dev.safeRead
    rw [Dev.reg_set, if_neg (by decide), Dev.reg_bump, if_neg (by decide), Dev.reg_setB, if_pos rfl]
  unfold Dev.flag
  rw [h]
  cases ok <;> rfl

/-- With no RestoreDefaults recorded the record in flash is the one applied. -/
theorem Dev.safeRead_safeCode {d : Dev} (hr : d.dict.restore = false) (straps ch : Nat) :
    (d.safeRead straps true).safeCode ch = d.flashVal (safeKey ch) := by
  unfold Dev.safeCode
  rw [Dev.safeRead_valid, if_pos rfl]
  unfold Dev.safeRead
  rw [hr]
  rfl

theorem exec_safeValuesApplied {s : State} (straps : Nat) (crcOk : Bool) (hphase : s.dev.nat Ob.bootPhase = 1) :
    exec (.safeValuesApplied straps crcOk) s = onDev (fun _ => s.dev.safeDriven straps (crcOk || s.dev.dict.restore)) s := by
  show execSafeValuesApplied straps crcOk s = _
  unfold execSafeValuesApplied onDev
  dsimp only
  rw [if_pos hphase]
  rfl

theorem safeValuesApplied_runs {s : State} {straps : Nat} {crcOk : Bool} (hphase : s.dev.nat Ob.bootPhase = 1) :
    Runs (.safeValuesApplied straps crcOk) s fun d => d.reg Ob.bootPhase = 2 ∧ d.pins.vsel = straps % 16
      ∧ d.flag Ob.safeRecordValid = (crcOk || s.dev.dict.restore)
      ∧ (crcOk = true → s.dev.dict.restore = false → ∀ ch, ch < 12 → d.analogCode ch = s.dev.flashVal (safeKey ch))
      ∧ (crcOk = false → s.dev.dict.restore = false → ∀ ch, ch < 12 → d.analogCode ch = 0) := by
  refine Runs.of_onDev (exec_safeValuesApplied straps crcOk hphase) ⟨?_, ?_, ?_, fun hc hr ch hch => ?_, fun hc hr ch hch => ?_⟩
  · rw [Dev.settle_reg _ _ (by decide), Dev.safeDriven_reg _ _ _ (by decide), Dev.safeRead_phase]
  · rw [(s.dev.settle_pins_other _).2.2.2.2, Dev.safeDriven_pins]
    simp [Dev.safeRead]
  · refine (Dev.flag_congr ?_).trans (s.dev.safeRead_valid straps (crcOk || s.dev.dict.restore))
    rw [Dev.settle_reg _ _ (by decide), Dev.safeDriven_reg _ _ _ (by decide)]
  · rw [Dev.settle_analogCode, hc, Bool.true_or, Dev.safeDriven, if_pos rfl, Dev.allAnalogSafe_code _ hch, Dev.safeRead_safeCode hr]
  · rw [Dev.settle_analogCode, hc, hr, Dev.safeDriven, if_neg (by decide), Dev.event_analogCode, Dev.allAnalogZero_code _ hch]

theorem perstNRelease_runs {s : State} (h : s.dev.nat Ob.bootPhase ≠ 0) :
    Runs .perstNRelease s fun d => d.pins.perst = true ∧ s.dev.KeepsRegs d [] := by
  refine Runs.of_onDev (show execPerstNRelease s = onDev _ s from rfl) ?_
  rw [if_neg h]
  exact ⟨(s.dev.settle_pins_other _).2.2.2.1, fun _ _ hs _ => Dev.settle_reg _ _ hs⟩

/-- Settles O30, command by command. -/
theorem supplyCommandsRun : Obligations.SupplyCommandsRun :=
  ⟨fun _ _ hmv hvin hphase => vinAbove3v_runs hmv hvin hphase,
    fun _ _ hmv hphase hvin htrip => vinValid_runs hmv hphase hvin htrip,
    fun s _ hmv => ⟨onSupply_fault hmv _ s, onSupply_fault hmv _ s⟩,
    fun _ _ _ hvin => brownout_runs hvin,
    fun _ _ => ⟨vioOvercurrent_runs, vioLimitTimeout_runs, vioRetry_runs⟩,
    fun _ h => sysReset_runs h, deviceRestart_runs, fun _ _ _ h => safeValuesApplied_runs h, fun _ h => perstNRelease_runs h⟩

end Sys2Proof.Machine
end

section
/-! What the units' own start leaves alone: the phase and ServiceReady, which start-up has set before them (05_start_up R118,
R137). The timeline and the references, the sensor slots and the grids. -/
namespace Sys2Proof.Machine

/-- The objects that the phase and ServiceReady stand among: those of the start (0x7000) and of the identity (0x1000). -/
abbrev ServeKey (k : Nat) : Prop := k / 256 = 0x7000 ∨ k / 256 = 0x1000

theorem ServeKey.not_book {k : Nat} (h : ServeKey k) : ¬ BookKey k := by
  unfold ServeKey at h
  unfold BookKey
  omega

theorem SelectorKey.timing {k : Nat} (h : SelectorKey k) : TimingKey k := by
  rcases h with hb | hm
  · exact .inl hb
  · simp only [List.mem_cons, List.not_mem_nil, or_false] at hm
    rcases hm with rfl | rfl | rfl | rfl | rfl <;> decide

/-- What the references and their selector write is none of them. -/
theorem ServeKey.not_timing {k : Nat} (h : ServeKey k) : ¬ TimingKey k := by
  have hb := h.not_book
  unfold ServeKey at h
  unfold TimingKey
  omega

/-- The phase and ServiceReady, with the objects they stand among, are as they were. -/
def Serves (d d' : Dev) : Prop := ∀ k, ServeKey k → d'.reg k = d.reg k

namespace Serves

theorem refl (d : Dev) : Serves d d := fun _ _ => rfl

variable {a d e : Dev}

theorem trans (h : Serves a d) (k : Serves d e) : Serves a e := fun x hx => (k x hx).trans (h x hx)

theorem of_booked (h : Serves a d) (k : Booked d e) : Serves a e := h.trans fun x hx => k x hx.not_book

theorem of_timed (h : Serves a d) (k : Timed d e) : Serves a e := h.trans fun x hx => k x hx.not_timing

/-- A change of other parts of the device. -/
theorem keep (h : Serves a d) (hr : e.regs = d.regs) : Serves a e := h.trans fun k _ => by
  unfold Dev.reg
  rw [hr]

theorem set (h : Serves a d) {k : Nat} (hk : ¬ ServeKey k) (v : Int) : Serves a (d.set k v) :=
  h.trans fun x hx => by rw [Dev.reg_set, if_neg fun e : x = k => hk (e ▸ hx)]

theorem setN (h : Serves a d) {k : Nat} (hk : ¬ ServeKey k) (v : Nat) : Serves a (d.setN k v) := h.set hk _

theorem bump (h : Serves a d) {k : Nat} (hk : ¬ ServeKey k) : Serves a (d.bump k) := h.set hk _

theorem ite {p : Prop} [Decidable p] (h : Serves a d) (k : Serves a e) : Serves a (if p then d else e) := by
  split <;> assumption

theorem when {b : Bool} {f : Dev → Dev} (h : Serves a d) (hf : Serves a d → Serves a (f d)) : Serves a (d.when b f) :=
  (hf h).ite h

theorem each {α : Type} {f : Dev → α → Dev} {l : List α} (h : Serves a d)
    (hf : ∀ d, ∀ x ∈ l, Serves a d → Serves a (f d x)) : Serves a (d.each l f) := by
  induction l generalizing d with
  | nil => exact h
  | cons x l ih =>
    exact ih (hf d x List.mem_cons_self h) fun d y hy => hf d y (List.mem_cons_of_mem _ hy)

theorem event (h : Serves a d) (ev : Ev) : Serves a (d.event ev) := h.of_booked (Dev.event_booked (.refl d) ev)

/-! The timeline and the references. -/

theorem toServo (h : Serves a d) (st : Int) : Serves a (d.toServo st) := h.trans fun k hk => by
  have hne : k ≠ Ob.gmTimeSource ∧ k ≠ Ob.servoState := by
    unfold ServeKey at hk
    unfold Ob.gmTimeSource Ob.servoState
    omega
  rw [Dev.toServo_reg d st hk.not_timing hne.1, if_neg hne.2]

theorem holdRate (h : Serves a d) : Serves a d.holdRate := h.trans fun k _ => d.closeTrack_reg k

theorem onServo (h : Serves a d) (f : Servo → Servo) : Serves a (d.onServo f) := h.keep rfl

theorem setMaster (h : Serves a d) (m : Master) : Serves a (d.setMaster m) := ((h.onServo _).set (by decide) _).set (by decide) _

theorem masterChange (h : Serves a d) (m : Master) : Serves a (d.masterChange m) := by
  have hnew : Serves a (((d.setMaster m).setN Ob.lastMasterChange (d.setMaster m).now).event
      { code := 0x1001, island := Isl.tmg, d1 := m.gm % 4294967296 }) := ((h.setMaster m).setN (by decide) _).event _
  exact (hnew.onServo _).ite (((hnew.onServo _).ite (hnew.toServo _)).ite hnew)

theorem masterBack (h : Serves a d) (m : Master) : Serves a (d.masterBack m) :=
  ((h.setMaster m).onServo _).ite (((h.setMaster m).event _).toServo _)

theorem masterLost (h : Serves a d) : Serves a d.masterLost := by
  have hnone : Serves a (d.onServo fun v => { v with master := none }) := h.onServo _
  exact (Serves.event (((hnone.set (by decide) _).ite hnone).holdRate.toServo _) _).ite hnone

theorem selectMaster (h : Serves a d) (m : Master) : Serves a (d.selectMaster m) :=
  ((h.masterBack m).ite (h.setMaster m)).ite ((h.setMaster m).ite (h.masterChange m))

theorem movePort (h : Serves a d) (port : Nat) : Serves a (d.movePort port) := by
  have hmoved : Serves a (d.setN Ob.activePort port).ptpRefs := (h.setN (by decide) _).of_timed (Timed.refl _).ptpRefs
  unfold Dev.movePort
  dsimp only
  split
  · exact hmoved.selectMaster _
  · exact hmoved.masterLost

theorem setSource (h : Serves a d) (src : Int) : Serves a (d.setSource src) :=
  (((h.onServo _).toServo _).setN (by decide) _).ite (((h.toServo _).setN (by decide) _).ite (h.ite (h.movePort _)))

theorem refEnabled (h : Serves a d) {code : Nat} (hc : code < 6) (on : Bool) : Serves a (d.refEnabled code on) := h.trans fun k hk => by
  have hne : k ≠ Ob.refState code := by
    unfold ServeKey at hk
    unfold Ob.refState
    omega
  exact d.refEnabled_other code on (fun hs => hk.not_timing hs.timing) hne

theorem startTiming (h : Serves a d) : Serves a d.startTiming := by
  have hbound : Serves a d.rebound := h.trans fun k _ => d.rebound_reg k
  unfold Dev.startTiming
  extract_lets e1 e2
  have hrefs : Serves a e2 := hbound.each fun _ c hc h => h.refEnabled (by simp at hc; omega) _
  exact (hrefs.setSource _).of_timed (Timed.refl _).reselect

/-! The sensor slots and the grids. -/

theorem slotObj {s : Nat} (hs : s < 32) : ¬ ServeKey (Ob.slotState s) ∧ ¬ ServeKey (Ob.slotModelState s)
    ∧ ¬ ServeKey (Ob.slotLanesInUse s) ∧ ¬ ServeKey (Ob.slotIngestLatency s) := by
  unfold ServeKey Ob.slotState Ob.slotModelState Ob.slotLanesInUse Ob.slotIngestLatency
  omega

theorem slotStops (h : Serves a d) {s : Nat} (hs : s < 32) : Serves a (d.slotStops s) := by
  obtain ⟨hstate, hmodel, hlanes, -⟩ := slotObj hs
  exact ((Serves.set (h.keep (e := d.setSlot s _) rfl) hmodel _).setN hlanes _).set hstate _

theorem slotEnabled (h : Serves a d) {s : Nat} (hs : s < 32) (on : Bool) : Serves a (d.slotEnabled s on) := by
  obtain ⟨hstate, hmodel, hlanes, -⟩ := slotObj hs
  unfold Dev.slotEnabled
  extract_lets r kind port d1 d2 d3 d4
  split
  · have h3 : Serves a d3 := Serves.setN (Serves.set (h.keep (e := d1) rfl) hmodel _) hlanes _
    have h4 : Serves a d4 := h3.when fun h => Serves.each (h.keep rfl) fun d x hx h =>
      h.setN (slotObj (List.mem_range.1 (List.mem_filter.1 hx).1)).2.2.1 _
    exact h4.set hstate _
  · exact (Serves.set (h.keep (e := d.onSlot s _) rfl) hstate _).ite (h.slotStops hs)

/-- A slot follows its Enable. -/
theorem slotWritten_enable (h : Serves a d) {s : Nat} (hs : s < 32) : Serves a (d.slotWritten s 3) := by
  obtain ⟨hstate, -, -, hlatency⟩ := slotObj hs
  exact Serves.set (Serves.slotEnabled (h.setN hlatency _) hs _) hstate _

theorem gridWritten (h : Serves a d) (d0 : Dev) (g sub t : Nat) : Serves a (d0.gridWritten d g sub t) := by
  unfold Dev.gridWritten
  extract_lets e
  have he : Serves a e := h.when fun h => h.keep rfl
  split
  · split <;> exact he.keep rfl
  · split
    · exact he.keep rfl
    · exact he

theorem poseQueueWritten (h : Serves a d) : Serves a d.poseQueueWritten := Serves.set (h.keep (e := d.onFus _) rfl) (by decide) _

theorem resamplerWritten (h : Serves a d) : Serves a d.resamplerWritten := h.ite (h.keep rfl)

theorem startSensors (h : Serves a d) : Serves a d.startSensors := by
  unfold Dev.startSensors
  extract_lets e1 e2
  have hslots : Serves a e1 := h.each fun _ _ hs h => h.slotWritten_enable (List.mem_range.1 hs)
  exact hslots.poseQueueWritten.resamplerWritten.each fun _ _ _ h => h.gridWritten _ _ _ _

end Serves

end Sys2Proof.Machine
end

section
/-! The rest of the units' start (05_start_up R118): the structures and models, the network, the audio ports and the safety
channels, and SERVICE_READY, which sets the phase before them. -/
namespace Sys2Proof.Machine
namespace Serves

variable {a d e : Dev}

/-! Structures and models. -/

theorem withPayload (h : Serves a d) (it : Item) (data : Bytes) : Serves a (d.withPayload it data).2 := by
  unfold Dev.withPayload
  dsimp only
  repeat' split
  all_goals exact h.keep rfl

theorem judgeLate (h : Serves a d) (it : Item) (late : Bool) : Serves a (d.judgeLate it late).2 := by
  unfold Dev.judgeLate
  split
  · exact h.event _
  · exact h

theorem emitItem (h : Serves a d) (q : Nat) (it : Item) (data : Bytes) (late : Bool) : Serves a (d.emitItem q it data late) := by
  have hlate := (h.withPayload (d.derived it) data).judgeLate (d.withPayload (d.derived it) data).1 late
  exact (hlate.keep (e := Dev.nextSeq _ it.srcKind it.srcNum) rfl).of_booked (Dev.enqueue_booked (.refl _) _ _)

/-! A unit's own state holds no objects. -/

theorem onNet (h : Serves a d) (f : Net → Net) : Serves a (d.onNet f) := h.keep rfl

theorem onTen (h : Serves a d) (f : Ten → Ten) : Serves a (d.onTen f) := h.keep rfl

theorem onSol (h : Serves a d) (f : Sol → Sol) : Serves a (d.onSol f) := h.keep rfl

theorem onAna (h : Serves a d) (f : Ana → Ana) : Serves a (d.onAna f) := h.keep rfl

theorem send (h : Serves a d) (o : Output) : Serves a (d.send o) := h.keep rfl

theorem memWrite (h : Serves a d) (x : Nat) (b : Bytes) : Serves a (d.memWrite x b) := h.keep rfl

theorem setStruct (h : Serves a d) (s : Nat) (r : StructRt) : Serves a (d.setStruct s r) := h.onSol _

theorem setPeer (h : Serves a d) (n : Nat) (p : NetPartner) : Serves a (d.setPeer n p) := h.onNet _

theorem onCls (h : Serves a d) (k : Nat) (f : ClassRt → ClassRt) : Serves a (d.onCls k f) := h.onNet _

theorem onModel (h : Serves a d) (m : Nat) (f : ModelRt → ModelRt) : Serves a (d.onModel m f) := h.keep rfl

theorem emitRecord (h : Serves a d) (m island subject completion flags : Nat) (late : Bool) (head : Bytes) (outs : List Bytes) :
    Serves a (d.emitRecord m island subject completion flags late head outs) := by
  unfold Dev.emitRecord
  extract_lets q e r safe counted n due shown
  have he : Serves a e := h.when fun h => h.emitItem _ _ _ _
  have hcounted : Serves a counted := he.keep rfl
  exact ((hcounted.onModel m _).when fun h => h.onModel m _).ite he

theorem skipAs (h : Serves a d) {m : Nat} (hm : m < 32) (seq : Nat) (it : Item) (flags : Nat) :
    Serves a (d.skipAs m seq it flags) := by
  have hk : ¬ ServeKey (Ob.modelSkipped m) := by
    unfold ServeKey Ob.modelSkipped
    omega
  exact (((h.bump hk).emitRecord _ _ _ _ _ _ _ _).of_booked (Dev.genDec_booked (.refl _) _)).event _

theorem dropAgain (h : Serves a d) {m : Nat} (hm : m < 32) : Serves a (d.dropAgain m) :=
  (h.onTen _).each fun _ _ _ h => h.skipAs hm _ _ _

theorem deckWeightFree_obj {die : Nat} (h : die < 4) : ¬ ServeKey (Ob.deckWeightFree die) := by
  unfold ServeKey Ob.deckWeightFree
  omega

theorem refillDeck (h : Serves a d) {die : Nat} (hd : die < 4) : Serves a (d.refillDeck die) :=
  h.each fun _ m _ h => ((h.setN (deckWeightFree_obj hd) _).onModel m _).ite h

theorem freeModel (h : Serves a d) {m : Nat} (hm : m < 32) : Serves a (d.freeModel m) := by
  have hk : ¬ ServeKey (Ob.modelPlacement m) := by
    unfold ServeKey Ob.modelPlacement
    omega
  unfold Dev.freeModel
  extract_lets r n held e1 e2 e3
  have hlt : ∀ die ∈ held, die < 4 := fun die hdie => List.mem_range.1 (List.mem_filter.1 hdie).1
  have h1 : Serves a e1 := h.each fun _ die hdie h => h.setN (deckWeightFree_obj (hlt die hdie)) _
  have h3 : Serves a e3 := Serves.onModel (Serves.set (h1.setN (by decide) _) hk _) m _
  exact h3.each fun _ die hdie h => h.refillDeck (hlt die hdie)

theorem countResident (h : Serves a d) : Serves a d.countResident := h.setN (by decide) _

theorem startLoad (h : Serves a d) {m : Nat} (hm : m < 32) (part : Nat) : Serves a (d.startLoad m part) := by
  have hk : ¬ ServeKey (Ob.modelPackageState m) := by
    unfold ServeKey Ob.modelPackageState
    omega
  unfold Dev.startLoad
  extract_lets freed loading
  have hfreed : Serves a freed := (h.dropAgain hm).when fun h => h.freeModel hm
  have hloading : Serves a loading := (hfreed.set hk 1).onModel m _
  exact (hloading.onTen _).countResident

theorem countStructs (h : Serves a d) : Serves a d.countStructs := h.setN (by decide) _

theorem loadStruct (h : Serves a d) {s : Nat} (hs : s < 64) (b : Bytes) : Serves a (d.loadStruct s b) := by
  have hkeys : ¬ ServeKey (Ob.structLoadError s) ∧ ¬ ServeKey (Ob.structState s) ∧ ¬ ServeKey (Ob.structFactorFormat s)
      ∧ ¬ ServeKey (Ob.structStateBase s) ∧ ∀ k < 16, ¬ ServeKey (Ob.structClassFormat s k) := by
    unfold ServeKey Ob.structLoadError Ob.structState Ob.structFactorFormat Ob.structStateBase Ob.structClassFormat
    exact ⟨by omega, by omega, by omega, by omega, fun _ _ => by omega⟩
  obtain ⟨herror, hstate, hfactor, hbase, hclass⟩ := hkeys
  unfold Dev.loadStruct
  extract_lets old e1 f f' e2 e3 e4 e5 e6
  have h1 : Serves a e1 := h.ite ((h.setN (by decide) _).setStruct s _)
  have h2 : Serves a e2 := h1.setN herror _
  split
  · exact (h2.set hstate _).countStructs.event _
  · have h3 : Serves a e3 := (h2.setN (by decide) _).setStruct s _
    have h4 : Serves a e4 := (h3.setN hfactor _).each fun _ k hk h => h.setN (hclass k (List.mem_range.1 hk)) _
    have h5 : Serves a e5 := (h4.set hstate _).setN hbase _
    have h6 : Serves a e6 := h5.memWrite _ _
    exact (h6.memWrite _ _).countStructs.event _

theorem startUnits (h : Serves a d) : Serves a d.startUnits := by
  unfold Dev.startUnits
  extract_lets e1
  have h1 : Serves a e1 := h.each fun _ s hs h => h.when fun h => h.loadStruct (List.mem_range.1 hs) _
  refine h1.each fun _ m hm h => ?_
  have hm : m < 32 := List.mem_range.1 (List.mem_filter.1 hm).1
  have hk : ¬ ServeKey (Ob.modelEnable m) := by
    unfold ServeKey Ob.modelEnable
    omega
  exact ((h.set hk _).onModel m _).startLoad hm _

/-! The network. -/

theorem pathKey_obj {n : Nat} (hn : n < 16) (path : Nat) : ¬ ServeKey (pathKey n path) := by
  unfold pathKey ServeKey Ob.peerPathStateA Ob.peerPathStateB
  split <;> omega

theorem peerState_obj {n : Nat} (hn : n < 16) : ¬ ServeKey (Ob.peerState n) := by
  unfold ServeKey Ob.peerState
  omega

theorem judgePeer (h : Serves a d) {n : Nat} (hn : n < 16) : Serves a (d.judgePeer n) :=
  ((h.set (peerState_obj hn) _).event _).ite (((h.set (peerState_obj hn) _).event _).ite h)

theorem class_obj {k : Nat} (hk : k < 8) : ¬ ServeKey (Ob.clsActivePath k) ∧ ¬ ServeKey (Ob.clsLastSwitchStamp k)
    ∧ ¬ ServeKey (Ob.clsState k) ∧ ¬ ServeKey (Ob.clsSwitchOvers k) := by
  unfold ServeKey Ob.clsActivePath Ob.clsLastSwitchStamp Ob.clsState Ob.clsSwitchOvers
  omega

theorem connNotice (h : Serves a d) (k code : Nat) (d2 : Int) : Serves a (d.connNotice k code d2) :=
  h.of_booked (Dev.connNotice_booked (.refl d) k code d2)

theorem classFailed (h : Serves a d) {k : Nat} (hk : k < 8) (n path : Nat) : Serves a (d.classFailed k n path) := by
  obtain ⟨hpath, hstamp, hstate, hovers⟩ := class_obj hk
  have hcls : ∀ f, Serves a (d.onCls k f) := h.onCls k
  have hmoved : ∀ f p, Serves a ((d.onCls k f).moveClass k p) := fun f p =>
    (((hcls f).setN hpath _).setN hstamp _).set hstate _
  exact ((((hmoved _ _).bump hovers).event _).connNotice _ _ _).ite (((hcls _).set hstate _).connNotice _ _ _)

theorem pathFailed (h : Serves a d) {n : Nat} (hn : n < 16) (path : Nat) : Serves a (d.pathFailed n path) := by
  refine h.ite (Serves.judgePeer (Serves.each ((h.set (pathKey_obj hn path) _).event _) fun _ k hk h => ?_) hn)
  exact h.classFailed (List.mem_range.1 (List.mem_filter.1 hk).1) n path

theorem peerEnabled (h : Serves a d) {n : Nat} (hn : n < 16) : Serves a (d.peerEnabled n) := by
  have hpaths : ∀ v, Serves a ((d.set (Ob.peerPathStateA n) v).set (Ob.peerPathStateB n) v) := fun _ =>
    (h.set (pathKey_obj hn 0) _).set (pathKey_obj hn 1) _
  unfold Dev.peerEnabled
  split
  · split
    · extract_lets e1 p e2
      have h2 : Serves a e2 := Serves.judgePeer ((hpaths 1).setPeer n _) hn
      exact h2.each fun d p _ h => h.when (f := fun d => d.pathFailed n p) fun h => h.pathFailed hn p
    · exact h
  · exact ((hpaths 0).set (peerState_obj hn) 0).setPeer n _

theorem classWritten (h : Serves a d) {k : Nat} (hk : k < 8) : Serves a (d.classWritten k) := by
  obtain ⟨hpath, -, hstate, -⟩ := class_obj hk
  have hset := (h.set hpath (if d.standby k then d.reg (Ob.clsPreferredPath k) else 3)).set hstate 0
  exact hset.onCls k _

theorem startNetwork (h : Serves a d) : Serves a d.startNetwork := by
  unfold Dev.startNetwork
  extract_lets e1 e2
  have h1 : Serves a e1 := h.onNet _
  have h2 : Serves a e2 := h1.each fun _ n hn h => h.peerEnabled (List.mem_range.1 (List.mem_filter.1 hn).1)
  exact h2.each fun _ k hk h => h.classWritten (List.mem_range.1 hk)

/-! Domains, audio ports, tones, DAC clocks and beacons. -/

theorem port_obj {p : Nat} (hp : p < 32) : ¬ ServeKey (Ob.portState p) ∧ ¬ ServeKey (Ob.portConverterState p)
    ∧ ¬ ServeKey (Ob.portSsrc p) := by
  unfold ServeKey Ob.portState Ob.portConverterState Ob.portSsrc
  omega

theorem refreshDomains (h : Serves a d) : Serves a d.refreshDomains := by
  unfold Dev.refreshDomains
  extract_lets e1 e2 e3 e4
  have h1 : Serves a e1 := h.each fun _ y hy h => by
    have hk : ¬ ServeKey (Ob.synthState y) := by
      simp only [List.mem_cons, List.not_mem_nil, or_false] at hy
      unfold ServeKey Ob.synthState
      omega
    extract_lets fam
    exact h.ite (Serves.set (h.keep (e := Dev.onAudio _ _) rfl) hk _)
  have h2 : Serves a e2 := h1.each fun _ m hm h => by
    have hk : ¬ ServeKey (Ob.domState m) := by
      have hlt := List.mem_range.1 hm
      unfold ServeKey Ob.domState
      omega
    exact h.setN hk _
  have h3 : Serves a e3 := h2.setN (by decide) _
  have h4 : Serves a e4 := h3.each fun _ _ _ h => h.keep rfl
  exact h4.each fun _ p hp h => (h.set (port_obj (List.mem_range.1 hp)).1 _).ite h

theorem startSsrc (h : Serves a d) {p : Nat} (hp : p < 32) : Serves a (d.startSsrc p) :=
  h.ite ((h.setN (port_obj hp).2.2 _).keep rfl)

theorem portOn (h : Serves a d) {p : Nat} (hp : p < 32) : Serves a (d.portOn p) := by
  obtain ⟨hstate, hconv, -⟩ := port_obj hp
  have hsend : ∀ {d : Dev} (_ : Serves a d) (e a' : Nat), Serves a (d.ethSend e .igmpJoin [(a' : Int)] []) := fun h _ _ =>
    h.of_booked (Dev.ethSend_booked (.refl _) _ _ _ _)
  unfold Dev.portOn
  extract_lets run e1 e2 e3 adr k join
  have h3 : Serves a e3 := Serves.keep ((h.set hstate _).set hconv _) rfl
  split
  · exact (hsend h3 _ _).ite (hsend (hsend h3 _ _) _ _)
  · exact h3

theorem toneWritten (h : Serves a d) (k sub t : Nat) : Serves a (d.toneWritten k sub t) := by
  unfold Dev.toneWritten
  dsimp only
  repeat' split
  all_goals exact h

theorem refreshDac (h : Serves a d) : Serves a d.refreshDac := by
  have hk : ¬ ServeKey (Ob.synthState 3) := by decide
  exact h.each fun d _ _ h => h.ite ((h.onAna _).set hk _)

theorem beaconWritten (h : Serves a d) {b : Nat} (hb : b < 2) : Serves a (d.beaconWritten b) := by
  have hk : ¬ ServeKey (Ob.beaconState b) := by
    unfold ServeKey Ob.beaconState
    omega
  exact (h.set hk _).keep rfl

theorem startAudio (h : Serves a d) : Serves a d.startAudio := by
  unfold Dev.startAudio
  extract_lets e1 e2 e3 e4 e5
  have h2 : Serves a e2 := h.refreshDomains.each fun _ p hp h => h.startSsrc (by
    obtain ⟨i, hi, rfl⟩ := List.mem_map.1 hp
    have := List.mem_range.1 hi
    omega)
  have h3 : Serves a e3 := h2.each fun _ p hp h => h.portOn (List.mem_range.1 (List.mem_filter.1 hp).1)
  have h4 : Serves a e4 := h3.each fun _ k _ h => h.toneWritten k _ _
  have h5 : Serves a e5 := h4.onAna _
  exact h5.refreshDac.each fun _ b hb h => h.beaconWritten (List.mem_range.1 hb)

/-! The safety channels. -/

theorem chanTo (h : Serves a d) {k : Nat} (hk : k < 8) (st : Nat) : Serves a (d.chanTo k st) := by
  have hkeys : ¬ ServeKey (Ob.chanState k) ∧ ¬ ServeKey (Ob.chanStops k) := by
    unfold ServeKey Ob.chanState Ob.chanStops
    omega
  unfold Dev.chanTo
  extract_lets e1 e2
  have h2 : Serves a e2 := (h.setN hkeys.1 _).keep rfl
  exact h.ite (((h2.bump hkeys.2).event _).ite ((h2.event _).ite h2))

theorem refreshChannels (h : Serves a d) : Serves a d.refreshChannels := by
  unfold Dev.refreshChannels
  have hchans : Serves a (d.each (List.range 8) fun d k =>
      if d.nat (Ob.chanState k) = 0 then d
      else if d.holdCause k then d.chanTo k 1
      else if d.nat (Ob.chanState k) = 1 then d.chanTo k 2 else d) := h.each fun _ k hk h =>
    h.ite ((h.chanTo (List.mem_range.1 hk) 1).ite ((h.chanTo (List.mem_range.1 hk) 2).ite h))
  refine hchans.trans fun k hk => ?_
  have hne : k ≠ Ob.safeOutputState := by
    unfold ServeKey at hk
    unfold Ob.safeOutputState
    omega
  rw [Dev.powerCheck_reg, Dev.refreshSafe_reg _ hne]

theorem bindModel (h : Serves a d) (m : Nat) : Serves a (d.bindModel m) := (h.onModel m _).ite h

/-- A channel leaves OFF. -/
theorem channelEnabled_on (h : Serves a d) {k : Nat} (hk : k < 8) : Serves a (d.channelEnabled k true) :=
  (Serves.chanTo (Serves.bindModel (h.keep (e := d.onChan k _) rfl) _) hk 1).ite h

theorem refreshFieldSet (h : Serves a d) {n : Nat} (hn : n < 16) : Serves a (d.refreshFieldSet n) := by
  have hkeys : ¬ ServeKey (Ob.fieldSetValid n) ∧ ¬ ServeKey (Ob.fieldSetCrc n) := by
    unfold ServeKey Ob.fieldSetValid Ob.fieldSetCrc
    omega
  exact (h.set hkeys.1 _).setN hkeys.2 _

theorem startSafety (h : Serves a d) : Serves a d.startSafety := by
  unfold Dev.startSafety
  extract_lets e1 e2
  have h1 : Serves a e1 := h.each fun _ n hn h => h.refreshFieldSet (List.mem_range.1 hn)
  have h2 : Serves a e2 := h1.each fun _ k hk h => h.channelEnabled_on (List.mem_range.1 (List.mem_filter.1 hk).1)
  exact h2.refreshChannels

theorem applyCan (h : Serves a d) (ctl : Nat) : Serves a (d.applyCan ctl) := h.each fun _ k _ h => by
  have hne : ¬ ServeKey (canInForce k) := by
    unfold ServeKey canInForce inst
    omega
  exact h.set hne _

theorem announce (h : Serves a d) (ctl : Nat) : Serves a (d.announce ctl) :=
  (h.applyCan ctl).when fun h => h.send _

end Serves

theorem Dev.declareReady_serviceReady (d : Dev) : d.declareReady.reg Ob.serviceReady = 1 := by
  have hwin : d.declareReady.regs = ((d.setB Ob.serviceReady true).setN Ob.serviceReadyStamp d.now).regs := rfl
  have hreg : d.declareReady.reg Ob.serviceReady = ((d.setB Ob.serviceReady true).setN Ob.serviceReadyStamp d.now).reg Ob.serviceReady := by
    unfold Dev.reg
    rw [hwin]
  rw [hreg, Dev.reg_setN, if_neg (by decide), Dev.reg_setB, if_pos rfl, if_pos rfl]

theorem Dev.toPhase_reg (d : Dev) (ph : Int) (k : Nat) : (d.toPhase ph).reg k = if k = Ob.bootPhase then ph else d.reg k :=
  Dev.reg_set _ _ _ _
/-- The device once its persisted objects stand again: it serves, in phase RUN. -/
def Dev.declared (d : Dev) : Dev := d.restorePersisted.restoreHosts.restoreQueues.declareReady.toPhase 8

theorem Dev.declared_reg (d : Dev) : d.declared.reg Ob.bootPhase = 8 ∧ d.declared.reg Ob.serviceReady = 1 := by
  unfold Dev.declared
  rw [Dev.toPhase_reg, Dev.toPhase_reg, if_pos rfl, if_neg (by decide), Dev.declareReady_serviceReady]
  exact ⟨rfl, rfl⟩

/-- The device as the units start, with the announcements. -/
def Dev.unitsStarted (d : Dev) : Dev :=
  let d := d.startTiming.startSensors.startUnits.startNetwork.startAudio.startSafety
  ((d.announce 0).announce 1).event { code := 0x9009, d1 := d.reg Ob.outcome }

theorem Dev.unitsStarted_serves (d : Dev) : Serves d d.unitsStarted := by
  unfold Dev.unitsStarted
  extract_lets e
  have he : Serves d e := (Serves.refl d).startTiming.startSensors.startUnits.startNetwork.startAudio.startSafety
  exact ((he.announce 0).announce 1).event _

theorem exec_serviceReady {s : State} (h : s.dev.nat Ob.bootPhase = 7) :
    exec .serviceReady s = onDev (fun _ => s.dev.declared.unitsStarted) s := by
  show execServiceReady s = _
  unfold execServiceReady onDev
  dsimp only
  rw [if_pos h]
  rfl

theorem serviceReady_runs {s : State} (h : s.dev.nat Ob.bootPhase = 7) :
    Runs .serviceReady s fun d => d.reg Ob.bootPhase = 8 ∧ d.reg Ob.serviceReady = 1 := by
  obtain ⟨hphase, hready⟩ := s.dev.declared_reg
  refine Runs.of_onDev (exec_serviceReady h) ⟨?_, ?_⟩
  · rw [Dev.settle_reg _ _ (by decide), s.dev.declared.unitsStarted_serves _ (by decide), hphase]
  · rw [Dev.settle_reg _ _ (by decide), s.dev.declared.unitsStarted_serves _ (by decide), hready]

end Sys2Proof.Machine
end

section
/-! What the bank operations of start-up leave (05_start_up R125-R127). -/
namespace Sys2Proof.Machine

theorem Dev.each_keeps_of_mem {α β : Type} {g : Dev → β} {f : Dev → α → Dev} {l : List α}
    (h : ∀ d, ∀ a ∈ l, g (f d a) = g d) (d : Dev) : g (d.each l f) = g d := by
  induction l generalizing d with
  | nil => rfl
  | cons a l ih => exact (ih (fun d x hx => h d x (List.mem_cons_of_mem _ hx)) _).trans (h d a List.mem_cons_self)

/-- A bank's objects: those of 0x7002, at the bank's own index. -/
abbrev BankKey (b k : Nat) : Prop := k / 256 = 0x7002 + b

theorem Dev.showBank_reg (d : Dev) {b k : Nat} (hk : ¬ BankKey b k) : (d.showBank b).reg k = d.reg k := by
  unfold BankKey at hk
  unfold Dev.showBank
  extract_lets bk shown
  have hshown : shown.reg k = d.reg k := by
    unfold shown
    rw [Dev.reg_setN, if_neg (by unfold Ob.bankSecurityVersion; omega), Dev.reg_setN, if_neg (by unfold Ob.bankBundleVersion; omega)]
  refine (Dev.each_keeps_of_mem (g := fun d => d.reg k) (fun d i hi => ?_) shown).trans hshown
  have hlt := List.mem_range.1 hi
  exact (Dev.reg_setN _ _ _ _).trans (if_neg (by unfold Ob.bankImageVersion; omega))

theorem Dev.judgeOther_reg (d : Dev) {b k : Nat} (hk : ¬ BankKey b k) : (d.judgeOther b).reg k = d.reg k := by
  have hne : k ≠ Ob.bankState b := by
    unfold BankKey at hk
    unfold Ob.bankState
    omega
  unfold Dev.judgeOther
  split
  · rfl
  · rw [Dev.reg_set, if_neg hne]
    unfold Dev.when
    split
    · exact d.showBank_reg hk
    · rfl

theorem Dev.showBank_boot (d : Dev) (b : Nat) : (d.showBank b).boot = d.boot :=
  (Dev.showBank_within (M := 0) (by exact rfl) (.refl d) b).boot rfl

theorem Dev.restorePersisted_boot (d : Dev) : d.restorePersisted.boot = d.boot :=
  (Dev.restorePersisted_within (M := 10485824) (by exact rfl) (.refl d)).boot rfl

theorem Dev.applyCan_boot (d : Dev) (ctl : Nat) : (d.applyCan ctl).boot = d.boot :=
  (Dev.applyCan_within (M := 0) (by exact rfl) (.refl d) ctl).boot rfl

theorem Dev.event_boot (d : Dev) (ev : Ev) : (d.event ev).boot = d.boot := by simp

/-- MAINTENANCE begins its phase; the rest of the boot state stays. -/
theorem Dev.toMaintenance_boot (d : Dev) (cause : Nat) : (d.toMaintenance cause).boot = (d.toPhase 9).boot := by
  unfold Dev.toMaintenance
  extract_lets maint shown restored quiet
  have hmaint : maint.boot = (d.toPhase 9).boot := by simp [maint]
  have hshown : shown.boot = maint.boot := by
    unfold shown Dev.when
    split <;> simp
  have hrestored : restored.boot = shown.boot := by simp [restored, Dev.restorePersisted_boot]
  have hquiet : quiet.boot = restored.boot := by simp [quiet, Dev.applyCan_boot]
  rw [Dev.event_boot, hquiet, hrestored, hshown, hmaint]

/-- The device as a bank has been put aside, before start-up goes on from what is left (R126). -/
def Dev.bankLeft (d : Dev) (b cause : Nat) : Dev :=
  let d := d.onBoot fun x => { x with tried := b :: x.tried, leftCause := (b, cause) :: x.leftCause }
  let d := (d.setN Ob.bankFallbackCause cause).event { code := 0x9001, d1 := b, d2 := cause }
  let d := d.set (Ob.bankState b) (if cause = 8 then 0 else if cause = 6 then 1 else 2)
  d.when (cause == 6 && decide (d.boot.trial = some b)) fun d =>
    (d.onBoot fun x => { x with trial := none }).event { code := 0x9006, d1 := b }

/-- The bank tried is marked; with both tried the device goes to MAINTENANCE, else to the next bank. -/
theorem Dev.leaveBank_eq (d : Dev) (b cause : Nat) : d.leaveBank b cause
    = let d := d.bankLeft b cause
      if d.boot.tried.contains 0 && d.boot.tried.contains 1 then
        d.toMaintenance (if d.leftFor 0 = 6 ∧ d.leftFor 1 = 6 then 2 else 1)
      else d.toPhase 3 := rfl

theorem Dev.bankLeft_tried (d : Dev) (b cause : Nat) : (d.bankLeft b cause).boot.tried = b :: d.boot.tried := by
  unfold Dev.bankLeft
  extract_lets marked shown left
  have hleft : left.boot.tried = b :: d.boot.tried := by simp [left, shown, marked, Dev.onBoot]
  unfold Dev.when
  split
  · rw [Dev.event_boot]
    exact hleft
  · exact hleft

theorem Dev.leaveBank_tried (d : Dev) (b cause : Nat) : (d.leaveBank b cause).boot.tried = b :: d.boot.tried := by
  rw [Dev.leaveBank_eq]
  dsimp only
  split
  · rw [Dev.toMaintenance_boot]
    exact d.bankLeft_tried b cause
  · exact d.bankLeft_tried b cause

/-- What the state of a bank put aside reads (0x7002.01). -/
def leftState (cause : Nat) : Int := if cause = 8 then 0 else if cause = 6 then 1 else 2

/-- The first bank put aside leaves the device at its next bank, with every object but the log's, the bank's state, the fallback's
cause and the phase as it was. -/
theorem Dev.leaveBank_reg {d : Dev} (ht : d.boot.tried = []) {b cause k : Nat} (hb : ¬ BookKey k)
    (hc : k ≠ Ob.bankFallbackCause) (hp : k ≠ Ob.bootPhase) (h6 : cause ≠ 6) :
    (d.leaveBank b cause).reg k = if k = Ob.bankState b then leftState cause else d.reg k := by
  have hone : ((d.bankLeft b cause).boot.tried.contains 0 && (d.bankLeft b cause).boot.tried.contains 1) = false := by
    rw [Dev.bankLeft_tried, ht]
    by_cases h0 : b = 0
    · subst h0
      rfl
    · simp [Ne.symm h0]
  have hleft : (d.bankLeft b cause).reg k = if k = Ob.bankState b then leftState cause else d.reg k := by
    unfold Dev.bankLeft Dev.when
    dsimp only
    rw [if_neg (by simp [h6]), Dev.reg_set, Dev.event_reg _ _ hb, Dev.reg_setN, if_neg hc]
    rfl
  rw [Dev.leaveBank_eq]
  dsimp only
  rw [hone, if_neg (by decide), Dev.toPhase_reg, if_neg hp, hleft]

end Sys2Proof.Machine
end

section
/-! The phases of start-up (05_start_up R120, R125, R126, R128, R133, R136). -/
namespace Sys2Proof.Machine

theorem Dev.settle_startWindow (d0 d : Dev) : (d0.settle d).startWindow = d.startWindow := by simp [Dev.settle]

theorem startWindowEnd_runs {s : State} (h : 1000000000 ≤ s.dev.ago (s.dev.extAt (s.dev.nat Ob.serviceReadyStamp))) :
    Runs .startWindowEnd s fun d => d.startWindow = false ∧ s.dev.KeepsRegs d [] := by
  refine Runs.of_onDev (show execStartWindowEnd s = onDev _ s from rfl) ?_
  rw [decide_eq_true h, Bool.and_true]
  by_cases hw : s.dev.startWindow = true
  · rw [if_pos hw]
    exact ⟨Dev.settle_startWindow _ _, fun _ _ hs _ => Dev.settle_reg _ _ hs⟩
  · rw [if_neg hw]
    exact ⟨(Dev.settle_startWindow _ _).trans (eq_false_of_ne_true hw), fun _ _ hs _ => Dev.settle_reg _ _ hs⟩

/-! The watchdog (R120). -/

/-- The bank whose phase ran out of time. -/
def Dev.overdueBank (d : Dev) : Nat := if d.nat Ob.bootPhase = 3 then d.nextBank else d.nat Ob.activeBank

/-- The device as the watchdog's restart begins: the entry written, an attempt counted. -/
def Dev.overdue (d : Dev) : Dev :=
  let b := d.overdueBank
  let d := d.event { code := 0x9002, d1 := d.nat Ob.bootPhase }
  d.setN (Ob.bankTrialAttempts b) (Nat.min 7 (d.nat (Ob.bankTrialAttempts b) + 1))

theorem Dev.overdue_attempts {d : Dev} (hb : ¬ BookKey (Ob.bankTrialAttempts d.overdueBank)) :
    d.overdue.reg (Ob.bankTrialAttempts d.overdueBank) = (Nat.min 7 (d.nat (Ob.bankTrialAttempts d.overdueBank) + 1) : Nat) := by
  have hnat : ∀ ev, (d.event ev).nat (Ob.bankTrialAttempts d.overdueBank) = d.nat (Ob.bankTrialAttempts d.overdueBank) :=
    fun ev => Dev.nat_congr (d.event_reg ev hb)
  unfold Dev.overdue
  dsimp only
  rw [Dev.reg_setN, if_pos rfl, hnat]

theorem exec_bootWatchdogExpiry {s : State} (h3 : 3 ≤ s.dev.nat Ob.bootPhase) (h7 : s.dev.nat Ob.bootPhase ≤ 7)
    (ht : 1000000000 ≤ s.dev.ago s.dev.boot.phaseAt) :
    exec .bootWatchdogExpiry s = onDev (fun _ => s.dev.overdue.plainRestart 5) s := by
  show execBootWatchdogExpiry s = _
  unfold execBootWatchdogExpiry onDev
  dsimp only
  rw [if_pos ⟨h3, h7, ht⟩]
  rfl

theorem bankTrialAttempts_kept {b : Nat} (hb : b < 2) : survivesReset (Ob.bankTrialAttempts b) = true ∧ ¬ BookKey (Ob.bankTrialAttempts b) := by
  interval_cases b <;> decide

theorem bootWatchdogExpiry_runs {s : State} (h3 : 3 ≤ s.dev.nat Ob.bootPhase) (h7 : s.dev.nat Ob.bootPhase ≤ 7)
    (ht : 1000000000 ≤ s.dev.ago s.dev.boot.phaseAt) :
    Runs .bootWatchdogExpiry s fun d => d.reg Ob.bootPhase = 1 ∧ d.reg Ob.bootCause = 5
      ∧ (4 ≤ s.dev.nat Ob.bootPhase → s.dev.nat Ob.activeBank < 2 → d.reg (Ob.bankTrialAttempts (s.dev.nat Ob.activeBank))
          = (Nat.min 7 (s.dev.nat (Ob.bankTrialAttempts (s.dev.nat Ob.activeBank)) + 1) : Nat)) := by
  have r := s.dev.plainRestart_restarts s.dev.overdue 5
  refine Runs.of_onDev (exec_bootWatchdogExpiry h3 h7 ht) ⟨r.phase, r.cause, fun h4 hb => ?_⟩
  obtain ⟨hkept, hbook⟩ := bankTrialAttempts_kept hb
  have hbank : s.dev.overdueBank = s.dev.nat Ob.activeBank := if_neg (by omega)
  rw [r.kept _ hkept, ← hbank, Dev.overdue_attempts (hbank ▸ hbook)]

/-! The bank check (R125, R126). -/

/-- The device with the bank that passed its checks active (R126). -/
def Dev.bankAccepted (d : Dev) (b : Nat) : Dev :=
  let d := (d.showBank b).setN Ob.activeBank b
  let d := d.set (Ob.bankState b) (if d.boot.trial = some b then 3 else 4)
  ((d.judgeOther (1 - b)).setN Ob.bootAttempts (d.nat (Ob.bankTrialAttempts b))).toPhase 4

theorem Dev.bankAccepted_reg (d : Dev) {b : Nat} (hb : b < 2) :
    (d.bankAccepted b).reg Ob.activeBank = (b : Nat) ∧ (d.bankAccepted b).reg Ob.bootPhase = 4
      ∧ (d.bankAccepted b).reg (Ob.bankState b) = if d.boot.trial = some b then 3 else 4 := by
  have hkeys : ¬ BankKey (1 - b) Ob.activeBank ∧ ¬ BankKey (1 - b) (Ob.bankState b) ∧ Ob.activeBank ≠ Ob.bankState b
      ∧ Ob.bankState b ≠ Ob.bootAttempts ∧ Ob.bankState b ≠ Ob.bootPhase := by
    interval_cases b <;> decide
  obtain ⟨hactive, hstate, hother, hattempts, hphase⟩ := hkeys
  unfold Dev.bankAccepted
  dsimp only
  refine ⟨?_, ?_, ?_⟩
  · rw [Dev.toPhase_reg, if_neg (by decide), Dev.reg_setN, if_neg (by decide), Dev.judgeOther_reg _ hactive, Dev.reg_set,
      if_neg hother, Dev.reg_setN, if_pos rfl]
  · rw [Dev.toPhase_reg, if_pos rfl]
  · have htrial : ((d.showBank b).setN Ob.activeBank b).boot = d.boot := d.showBank_boot b
    rw [Dev.toPhase_reg, if_neg hphase, Dev.reg_setN, if_neg hattempts, Dev.judgeOther_reg _ hstate, Dev.reg_set, if_pos rfl, htrial]

/-- The device as the signed patch has been read. -/
def Dev.patchRead (d : Dev) : Dev := d.onBoot fun x => { x with patched := patchOk }

theorem exec_bundleVerified {s : State} (hphase : s.dev.nat Ob.bootPhase = 3)
    (ht : s.dev.nat (Ob.bankTrialAttempts s.dev.nextBank) < s.dev.trialLimit) :
    exec .bundleVerified s = onDev (fun _ =>
      if s.dev.bankFault (s.dev.bank s.dev.nextBank) ≠ 0 then
        s.dev.patchRead.leaveBank s.dev.nextBank (s.dev.bankFault (s.dev.bank s.dev.nextBank))
      else s.dev.patchRead.bankAccepted s.dev.nextBank) s := by
  have hlimit : ¬ s.dev.patchRead.trialLimit ≤ s.dev.patchRead.nat (Ob.bankTrialAttempts s.dev.patchRead.nextBank) := Nat.not_le.2 ht
  show execBundleVerified s = _
  unfold execBundleVerified onDev
  dsimp only
  rw [if_pos hphase]
  exact congrArg (fun d => Host.Outcome.next { s with dev := s.dev.settle d }) (if_neg hlimit)

theorem bundleVerified_runs {s : State} (hphase : s.dev.nat Ob.bootPhase = 3) (hb : s.dev.nextBank < 2)
    (ht : s.dev.nat (Ob.bankTrialAttempts s.dev.nextBank) < s.dev.trialLimit) :
    Runs .bundleVerified s fun d =>
      if s.dev.bankFault (s.dev.bank s.dev.nextBank) = 0 then
        d.reg Ob.activeBank = (s.dev.nextBank : Nat) ∧ d.reg Ob.bootPhase = 4
          ∧ d.reg (Ob.bankState s.dev.nextBank) = if s.dev.boot.trial = some s.dev.nextBank then 3 else 4
      else d.boot.tried = s.dev.nextBank :: s.dev.boot.tried := by
  refine Runs.of_onDev (exec_bundleVerified hphase ht) ?_
  by_cases hf : s.dev.bankFault (s.dev.bank s.dev.nextBank) = 0
  · have hsafe : Ob.bankState s.dev.nextBank ≠ Ob.safeOutputState := by
      unfold Ob.bankState Ob.safeOutputState
      omega
    obtain ⟨hactive, hphase', hstate⟩ := s.dev.patchRead.bankAccepted_reg hb
    rw [if_pos hf, if_neg (not_not.2 hf)]
    refine ⟨?_, ?_, ?_⟩
    · rw [Dev.settle_reg _ _ (by decide), hactive]
    · rw [Dev.settle_reg _ _ (by decide), hphase']
    · rw [Dev.settle_reg _ _ hsafe, hstate]
      rfl
  · rw [if_neg hf, if_pos hf, Dev.settle_boot, Dev.leaveBank_tried]
    rfl

end Sys2Proof.Machine
end

section
/-! The manifests' check (05_start_up R128). -/
namespace Sys2Proof.Machine

/-- The device as a pair that differs has been shown and logged. -/
def Dev.pairRefused (d : Dev) (n : Nat) : Dev := (d.set (Ob.pairStatus (n - 1)) 2).event { code := 0x9003, d1 := n }

/-- The device as every pair that differs has been. -/
def Dev.pairsRefused (d : Dev) (bad : List Nat) : Dev := d.each bad Dev.pairRefused

theorem Dev.pairRefused_boot (d : Dev) (n : Nat) : (d.pairRefused n).boot = d.boot := by
  unfold Dev.pairRefused
  rw [Dev.event_boot]
  simp

theorem Dev.pairsRefused_boot (d : Dev) (bad : List Nat) : (d.pairsRefused bad).boot = d.boot :=
  Dev.each_keeps Dev.pairRefused_boot bad d

theorem Dev.pairRefused_reg (d : Dev) (n : Nat) {k : Nat} (hk : ¬ BookKey k) :
    (d.pairRefused n).reg k = if k = Ob.pairStatus (n - 1) then 2 else d.reg k := by
  unfold Dev.pairRefused
  rw [Dev.event_reg _ _ hk, Dev.reg_set]

theorem Dev.pairsRefused_keeps {k : Nat} (hk : ¬ BookKey k) (bad : List Nat) {d : Dev} (h : d.reg k = 2) :
    (d.pairsRefused bad).reg k = 2 := by
  induction bad generalizing d with
  | nil => exact h
  | cons n bad ih =>
    refine ih (d := d.pairRefused n) ?_
    rw [Dev.pairRefused_reg _ _ hk, h, ite_self]

theorem pairStatus_not_book {n : Nat} (h : n ≤ 7) : ¬ BookKey (Ob.pairStatus n) := by
  unfold BookKey Ob.pairStatus
  omega

theorem Dev.pairsRefused_reg {bad : List Nat} (hbad : ∀ n ∈ bad, n ≤ 7) (d : Dev) :
    ∀ n ∈ bad, (d.pairsRefused bad).reg (Ob.pairStatus (n - 1)) = 2 := by
  induction bad generalizing d with
  | nil => exact fun n hn => absurd hn List.not_mem_nil
  | cons x bad ih =>
    intro n hn
    rcases List.mem_cons.1 hn with rfl | hn
    · have hk : ¬ BookKey (Ob.pairStatus (n - 1)) := pairStatus_not_book (by have := hbad n List.mem_cons_self; omega)
      refine Dev.pairsRefused_keeps (d := d.pairRefused n) hk bad ?_
      rw [Dev.pairRefused_reg _ _ hk, if_pos rfl]
    · exact ih (fun n hn => hbad n (List.mem_cons_of_mem _ hn)) _ n hn

/-- Without pair 8 the pairs are 1 to 7. -/
theorem Dev.majorsFault_le {d : Dev} {bk : Bytes} {n : Nat} (h : n ∈ d.majorsFault bk false) : n ≤ 7 := by
  unfold Dev.majorsFault at h
  rw [Bool.false_and, if_neg (by decide), List.append_nil] at h
  obtain ⟨i, hi, rfl⟩ := List.mem_map.1 (List.mem_filter.1 h).1
  have := List.mem_range.1 hi
  omega

theorem exec_manifestCheck_agree {s : State} (hphase : s.dev.nat Ob.bootPhase = 4)
    (h : s.dev.majorsFault (s.dev.bank (s.dev.nat Ob.activeBank)) false = []) :
    exec .manifestCheck s = onDev (fun _ => s.dev.toPhase 5) s := by
  show execManifestCheck s = _
  unfold execManifestCheck onDev
  dsimp only
  rw [if_pos hphase, h]

theorem exec_manifestCheck_differ {s : State} {n : Nat} {l : List Nat} (hphase : s.dev.nat Ob.bootPhase = 4)
    (h : s.dev.majorsFault (s.dev.bank (s.dev.nat Ob.activeBank)) false = n :: l) :
    exec .manifestCheck s = onDev (fun _ => (s.dev.pairsRefused (n :: l)).leaveBank (s.dev.nat Ob.activeBank) 5) s := by
  show execManifestCheck s = _
  unfold execManifestCheck onDev
  dsimp only
  rw [if_pos hphase, h]
  rfl

/-- A bank left for its majors leaves every differing pair reading 2. -/
theorem Dev.refusedBank_reg {d : Dev} (ht : d.boot.tried = []) {bad : List Nat} (hbad : ∀ n ∈ bad, n ≤ 7) (b : Nat) :
    ∀ n ∈ bad, ((d.pairsRefused bad).leaveBank b 5).reg (Ob.pairStatus (n - 1)) = 2 := by
  intro n hn
  have hle := hbad n hn
  have hne : Ob.pairStatus (n - 1) ≠ Ob.bankFallbackCause ∧ Ob.pairStatus (n - 1) ≠ Ob.bootPhase := by
    unfold Ob.pairStatus Ob.bankFallbackCause Ob.bootPhase
    omega
  rw [Dev.leaveBank_reg (by rw [Dev.pairsRefused_boot, ht]) (pairStatus_not_book (by omega)) hne.1 hne.2 (by decide),
    Dev.pairsRefused_reg hbad d n hn]
  exact ite_self _

theorem manifestCheck_runs {s : State} (hphase : s.dev.nat Ob.bootPhase = 4) :
    Runs .manifestCheck s fun d =>
      match s.dev.majorsFault (s.dev.bank (s.dev.nat Ob.activeBank)) false with
      | [] => d.reg Ob.bootPhase = 5 ∧ s.dev.KeepsRegs d [Ob.bootPhase]
      | bad => d.boot.tried = s.dev.nat Ob.activeBank :: s.dev.boot.tried
        ∧ (s.dev.boot.tried = [] → ∀ n ∈ bad, d.reg (Ob.pairStatus (n - 1)) = 2) := by
  have hbad : ∀ n ∈ s.dev.majorsFault (s.dev.bank (s.dev.nat Ob.activeBank)) false, n ≤ 7 := fun _ => Dev.majorsFault_le
  generalize hm : s.dev.majorsFault (s.dev.bank (s.dev.nat Ob.activeBank)) false = bad at hbad ⊢
  cases bad with
  | nil =>
    refine Runs.of_onDev (exec_manifestCheck_agree hphase hm) ⟨?_, fun k _ hs hk => ?_⟩
    · rw [Dev.settle_reg _ _ (by decide), Dev.toPhase_reg, if_pos rfl]
    · rw [Dev.settle_reg _ _ hs, Dev.toPhase_reg, if_neg (by simpa using hk)]
  | cons n l =>
    refine Runs.of_onDev (exec_manifestCheck_differ hphase hm) ⟨?_, fun ht x hx => ?_⟩
    · rw [Dev.settle_boot, Dev.leaveBank_tried, Dev.pairsRefused_boot]
    · have hle := hbad x hx
      rw [Dev.settle_reg _ _ (by unfold Ob.pairStatus Ob.safeOutputState; omega), Dev.refusedBank_reg ht hbad _ x hx]

end Sys2Proof.Machine
end

section
/-! The end of discovery (05_start_up R133, R136). -/
namespace Sys2Proof.Machine

/-- The registers that the untested pairs and the dropped channels are found from. -/
abbrev FitKey (k : Nat) : Prop := k = Ob.ioDieStepping ∨ k = Ob.computeDiesInUse ∨ 0x7F40 ≤ k / 256

/-- The dies in use, their descriptors, the I/O die's stepping and the channels are as they were. -/
structure SameFit (d e : Dev) : Prop where
  blobs : e.blobs = d.blobs
  reg : ∀ k, FitKey k → e.reg k = d.reg k

namespace SameFit

variable {a d e : Dev}

theorem refl (d : Dev) : SameFit d d := ⟨rfl, fun _ _ => rfl⟩

theorem set (h : SameFit a d) {k : Nat} (hk : ¬ FitKey k) (v : Int) : SameFit a (d.set k v) where
  blobs := h.blobs
  reg x hx := by rw [Dev.reg_set, if_neg fun e : x = k => hk (e ▸ hx), h.reg x hx]

theorem setN (h : SameFit a d) {k : Nat} (hk : ¬ FitKey k) (v : Nat) : SameFit a (d.setN k v) := h.set hk _

theorem ite {p : Prop} [Decidable p] (h : SameFit a d) (k : SameFit a e) : SameFit a (if p then d else e) := by
  split <;> assumption

theorem when {b : Bool} {f : Dev → Dev} (h : SameFit a d) (hf : SameFit a (f d)) : SameFit a (d.when b f) := hf.ite h

theorem each {α : Type} {f : Dev → α → Dev} {l : List α} (h : SameFit a d)
    (hf : ∀ d, ∀ x ∈ l, SameFit a d → SameFit a (f d x)) : SameFit a (d.each l f) := by
  induction l generalizing d with
  | nil => exact h
  | cons x l ih =>
    exact ih (hf d x List.mem_cons_self h) fun d y hy => hf d y (List.mem_cons_of_mem _ hy)

theorem refreshDies (h : SameFit a d) : SameFit a d.refreshDies := by
  unfold Dev.refreshDies
  extract_lets es e1 e2 e3
  have h1 : SameFit a e1 := (h.setN (by decide) _).setN (by decide) _
  have h3 : SameFit a e3 := (h1.setN (by decide) _).setN (by decide) _
  exact h3.setN (by decide) _

theorem dies (h : SameFit a d) : d.dies = a.dies := by
  unfold Dev.dies
  rw [Dev.nat_congr (h.reg _ (.inr (.inl rfl)))]

theorem dieStep (h : SameFit a d) (die : Nat) : d.dieStep die = a.dieStep die := by
  unfold Dev.dieStep Dev.blob
  rw [h.blobs]

theorem pairTested (h : SameFit a d) (bk : Bytes) (n : Nat) : d.pairTested bk n = a.pairTested bk n := by
  unfold Dev.pairTested
  rw [Dev.nat_congr (h.reg _ (.inl rfl)), h.dies, funext h.dieStep]

theorem untested (h : SameFit a d) (bk : Bytes) : d.untested bk = a.untested bk := by
  unfold Dev.untested
  rw [funext (h.pairTested bk)]

theorem droppedChannels (h : SameFit a d) : d.droppedChannels = a.droppedChannels := by
  have hreg : ∀ c, d.reg (Ob.dramChannelState c) = a.reg (Ob.dramChannelState c) := fun c =>
    h.reg _ (.inr (.inr (by unfold Ob.dramChannelState; omega)))
  unfold Dev.droppedChannels
  simp only [hreg]

end SameFit

/-- The device as discovery has shown the rings, the dies out of use and the pairs. -/
def Dev.discovered (d : Dev) (bk : Bytes) : Dev :=
  let d := d.each (List.range 4) fun d die =>
    let d := d.when (d.ringEnd die).isNone fun d => d.set (Ob.ringLinkState die) 2
    if d.dies.contains die then d else (d.set (Ob.islState (17 + die)) 6).set (Ob.islState (21 + die)) 6
  let d := d.refreshMask
  d.each (List.range 8) fun d i =>
    d.set (Ob.pairStatus i) (if i = 7 ∧ d.dies = [] then 3 else if d.pairTested bk (i + 1) then 0 else 1)

theorem Dev.discovered_sameFit (d : Dev) (bk : Bytes) : SameFit d (d.discovered bk) := by
  unfold Dev.discovered
  extract_lets e1 e2
  have h1 : SameFit d e1 := (SameFit.refl d).each fun d' die hdie h => by
    have hlt := List.mem_range.1 hdie
    have hring : ¬ FitKey (Ob.ringLinkState die) ∧ ¬ FitKey (Ob.islState (17 + die)) ∧ ¬ FitKey (Ob.islState (21 + die)) := by
      interval_cases die <;> decide
    obtain ⟨hring, hlow, hhigh⟩ := hring
    extract_lets e
    have he : SameFit d e := h.when (h.set hring 2)
    exact he.ite ((he.set hlow 6).set hhigh 6)
  have h2 : SameFit d e2 := h1.setN (by decide) _
  exact h2.each fun d' i hi h => by
    have hlt := List.mem_range.1 hi
    have hk : ¬ FitKey (Ob.pairStatus i) := by interval_cases i <;> decide
    exact h.set hk _

/-- The outcome: MAINTENANCE for want of channels, else FULL or PROVISIONAL by the untested pairs (R133, R136). -/
def Dev.judged (d : Dev) : Dev :=
  if 4 ≤ d.droppedChannels then d.toMaintenance 3
  else if d.nat Ob.untestedPairs = 0 then (d.set Ob.outcome 0).toPhase 6
  else ((d.set Ob.outcome 1).toPhase 6).provisional

theorem Dev.provisional_reg (d : Dev) {k : Nat} (hb : ¬ BookKey k) (ha : k ≠ Ob.provisionalActive) (hc : k ≠ Ob.provisionalCount) :
    d.provisional.reg k = d.reg k := by
  unfold Dev.provisional
  dsimp only
  rw [Dev.event_reg _ _ hb, Dev.reg_bump, if_neg hc, Dev.reg_setB, if_neg ha]

theorem Dev.judged_reg {d : Dev} (h : d.droppedChannels < 4) :
    d.judged.reg Ob.bootPhase = 6 ∧ d.judged.reg Ob.untestedPairs = d.reg Ob.untestedPairs
      ∧ d.judged.reg Ob.outcome = if d.nat Ob.untestedPairs = 0 then 0 else 1 := by
  unfold Dev.judged
  rw [if_neg (Nat.not_le.2 h)]
  split
  · simp [Dev.toPhase_reg]
  · have hkeeps : ∀ k ∈ [Ob.bootPhase, Ob.untestedPairs, Ob.outcome], ∀ d : Dev, d.provisional.reg k = d.reg k := fun k hk d => by
      simp only [List.mem_cons, List.not_mem_nil, or_false] at hk
      rcases hk with rfl | rfl | rfl <;> exact d.provisional_reg (by decide) (by decide) (by decide)
    rw [hkeeps _ (by simp), hkeeps _ (by simp), hkeeps _ (by simp)]
    simp [Dev.toPhase_reg]

/-- The device as the untested pairs of a bundle are shown. -/
def Dev.pairsShown (d : Dev) (bk : Bytes) : Dev :=
  (d.discovered bk).refreshDies.setN Ob.untestedPairs ((d.discovered bk).untested bk)

theorem Dev.pairsShown_sameFit (d : Dev) (bk : Bytes) : SameFit d (d.pairsShown bk) :=
  (d.discovered_sameFit bk).refreshDies.setN (by decide) _

theorem Dev.pairsShown_untested (d : Dev) (bk : Bytes) : (d.pairsShown bk).reg Ob.untestedPairs = (d.untested bk : Nat) := by
  unfold Dev.pairsShown
  rw [Dev.reg_setN, if_pos rfl, (d.discovered_sameFit bk).untested]

theorem exec_discoveryDone {s : State} (hphase : s.dev.nat Ob.bootPhase = 5)
    (hdisc : (List.range 4).any s.dev.discovering = false) (hdram : s.dev.boot.dramTested = 0xFF) :
    exec .discoveryDone s = onDev (fun _ => (s.dev.pairsShown (s.dev.bank (s.dev.nat Ob.activeBank))).judged) s := by
  have hgo : ¬ (s.dev.nat Ob.bootPhase ≠ 5 || (List.range 4).any s.dev.discovering || s.dev.boot.dramTested != 0xFF) = true := by
    simp [hphase, hdisc, hdram]
  show execDiscoveryDone s = _
  unfold execDiscoveryDone onDev
  dsimp only
  rw [if_neg hgo]
  rfl

theorem discoveryDone_runs {s : State} (hphase : s.dev.nat Ob.bootPhase = 5)
    (hdisc : (List.range 4).any s.dev.discovering = false) (hdram : s.dev.boot.dramTested = 0xFF) :
    Runs .discoveryDone s fun d => s.dev.droppedChannels < 4 →
      d.reg Ob.bootPhase = 6 ∧ d.reg Ob.untestedPairs = (s.dev.untested (s.dev.bank (s.dev.nat Ob.activeBank)) : Nat)
        ∧ d.reg Ob.outcome = if s.dev.untested (s.dev.bank (s.dev.nat Ob.activeBank)) = 0 then 0 else 1 := by
  refine Runs.of_onDev (exec_discoveryDone hphase hdisc hdram) fun hdrop => ?_
  generalize s.dev.bank (s.dev.nat Ob.activeBank) = bk
  have huntested := s.dev.pairsShown_untested bk
  have hnat : (s.dev.pairsShown bk).nat Ob.untestedPairs = s.dev.untested bk := Dev.nat_of_reg huntested
  obtain ⟨hsix, hpairs, houtcome⟩ := Dev.judged_reg ((s.dev.pairsShown_sameFit bk).droppedChannels.trans_lt hdrop)
  refine ⟨?_, ?_, ?_⟩
  · rw [Dev.settle_reg _ _ (by decide), hsix]
  · rw [Dev.settle_reg _ _ (by decide), hpairs, huntested]
  · rw [Dev.settle_reg _ _ (by decide), houtcome, hnat]

/-- Settles O31, phase by phase. -/
theorem bootCommandsRun : Obligations.BootCommandsRun :=
  ⟨fun _ hphase hb ht => bundleVerified_runs hphase hb ht, fun _ hphase => manifestCheck_runs hphase,
    fun _ h3 h7 ht => bootWatchdogExpiry_runs h3 h7 ht, fun _ hphase hdisc hdram => discoveryDone_runs hphase hdisc hdram,
    fun _ hphase => serviceReady_runs hphase, fun _ h => startWindowEnd_runs h⟩

end Sys2Proof.Machine
end

section
/-! What an answer leaves of a firmware update, and the update's own operations (05_start_up R131-R134). -/
namespace Sys2Proof.Machine

/-- What an operation left of the banks, the boot state and the registers stands once it has been answered. -/
structure Dev.UpdateStands (f d' : Dev) : Prop where
  banks : d'.banks = f.banks
  boot : d'.boot = f.boot
  reg : ∀ k, ¬ BookKey k → k ≠ Ob.safeOutputState → d'.reg k = f.reg k

theorem Dev.UpdateStands.of_within {M : Nat} {f d' : Dev} (h : Within M f d') (hbanks : Nat.testBit M 5 = false)
    (hboot : Nat.testBit M 7 = false) (hreg : ∀ k, ¬ BookKey k → k ≠ Ob.safeOutputState → d'.reg k = f.reg k) : f.UpdateStands d' :=
  ⟨h.banks hbanks, h.boot hboot, hreg⟩

theorem Dev.UpdateStands.trans {f g h : Dev} (hfg : f.UpdateStands g) (hgh : g.UpdateStands h) : f.UpdateStands h :=
  ⟨hgh.banks.trans hfg.banks, hgh.boot.trans hfg.boot, fun k hb hs => (hgh.reg k hb hs).trans (hfg.reg k hb hs)⟩

theorem Dev.settle_updateStands (d0 f : Dev) : f.UpdateStands (d0.settle f) :=
  .of_within (M := 0) (Dev.settle_within (by exact rfl) (.refl f) d0) rfl rfl fun _ _ hs => Dev.settle_reg d0 f hs

theorem Dev.finishWrite_updateStands (f : Dev) (hd : Hdr) (cond : Option Nat) (idx sub : Nat) (v : Bytes) (se : Session) :
    f.UpdateStands (f.finishWrite hd cond idx sub v se) :=
  .of_within (M := 6291968) (Dev.finishWrite_within (by exact rfl) (.refl f) hd cond idx sub v se) rfl rfl fun _ hb _ =>
    f.finishWrite_reg hd cond idx sub v se hb

theorem Dev.complete_updateStands (f : Dev) (sid tag op : Nat) (payload : Bytes) (seq : Nat) (a : Ans) :
    f.UpdateStands (f.complete sid tag op payload seq a) :=
  .of_within (M := 6291968) (Dev.complete_within (by exact rfl) (.refl f) sid tag op payload seq a) rfl rfl fun _ hb _ =>
    f.complete_reg sid tag op payload seq a hb

/-- A write command by its effect, where what it leaves of the update matters. -/
theorem SetRuns.of_update {mk : Hdr → Option Nat → Instr} {c : Conds} {idx sub : Nat} {v : Bytes}
    {P : Dev → Session → Int → Dev → Prop} {eff : Session → Int → Dev → Dev}
    (h : ∀ hd cond s, exec (mk hd cond) s = onDev (fun d => d.writeReq c hd cond idx sub v eff) s)
    (k : ∀ d e se n d', d.Passed e → (eff se n e).UpdateStands d' → P d se n d') : SetRuns mk c idx sub v P := by
  intro s hd cond e se n hg
  refine Runs.of_onDev (h hd cond s) (k _ e se n _ (Dev.writeGate_passed hg) ?_)
  rw [Dev.writeReq_pass hg]
  exact (Dev.finishWrite_updateStands _ _ _ _ _ _ _).trans (Dev.settle_updateStands _ _)

/-! What a write that passes its checks leaves. -/

namespace Dev.Passed
variable {d e : Dev} (h : d.Passed e)
include h

theorem boot : e.boot = d.boot := by rw [h.eq]
theorem banks : e.banks = d.banks := by rw [h.eq]
theorem ext : e.ext = d.ext := by rw [h.eq]; rfl
theorem nat (k : Nat) : e.nat k = d.nat k := Dev.nat_congr (h.reg k)

theorem bank (b : Nat) : e.bank b = d.bank b := by
  unfold Dev.bank
  rw [h.banks]

end Dev.Passed

/-! The claim (R131). -/

theorem Dev.endClaim_reg (d : Dev) (k : Nat) : d.endClaim.reg k = if k = Ob.updateOwner then 0xFF else d.reg k := Dev.reg_set _ _ _ _

theorem Dev.updateWrite_reg (d : Dev) (k : Nat) : d.updateWrite.reg k = d.reg k := rfl

theorem Dev.offsetWritten_reg (d : Dev) (part k : Nat) : (d.offsetWritten part).reg k
    = if k = Ob.updateOwner ∧ d.nat Ob.updateOwner = 0xFF then (part : Int) else d.reg k := by
  unfold Dev.offsetWritten Dev.when
  by_cases hfree : d.nat Ob.updateOwner = 0xFF
  · rw [if_pos (by simp [hfree]), Dev.reg_setN]
    simp [hfree, Dev.updateWrite_reg]
  · rw [if_neg (by simp [hfree]), if_neg fun h => hfree h.2, Dev.updateWrite_reg]

theorem Dev.offsetWritten_boot (d : Dev) (part : Nat) : (d.offsetWritten part).boot = { d.boot with updateAt := d.ext } := by
  unfold Dev.offsetWritten Dev.when
  split <;> simp [Dev.updateWrite, Dev.onBoot]

theorem updateOffsetWrite_runs (v : Bytes) : SetRuns (fun hd cond => .updateOffsetWrite hd cond v) {} 0x7010 1 v fun d se n d' =>
    d'.reg Ob.updateOffset = n ∧ d'.reg Ob.updateOwner = (if d.nat Ob.updateOwner = 0xFF then (se.part : Int) else d.reg Ob.updateOwner)
      ∧ d'.boot.updateAt = d.ext := by
  refine SetRuns.of_update (eff := fun se n d => (d.set (d.resolve se.id (0x7010 * 256 + 1)) n).offsetWritten se.part)
    (fun hd cond s => show execUpdateOffsetWrite hd cond v s = _ from rfl) fun d e se n d' he hf => ?_
  have hkey : e.resolve se.id (0x7010 * 256 + 1) = Ob.updateOffset := Dev.resolve_self _ _ (by decide) (by decide)
  beta_reduce at hf
  rw [hkey] at hf
  have howner : (e.set Ob.updateOffset n).reg Ob.updateOwner = d.reg Ob.updateOwner := by
    rw [Dev.reg_set, if_neg (by decide), he.reg]
  refine ⟨?_, ?_, ?_⟩
  · rw [hf.reg _ (by decide) (by decide), Dev.offsetWritten_reg, if_neg (by simp), Dev.reg_set, if_pos rfl]
  · rw [hf.reg _ (by decide) (by decide), Dev.offsetWritten_reg, Dev.nat_congr howner, howner]
    simp
  · rw [hf.boot, Dev.offsetWritten_boot]
    exact he.ext

theorem updateLengthWrite_runs (v : Bytes) : SetRuns (fun hd cond => .updateLengthWrite hd cond v) {} 0x7010 3 v fun d _ n d' =>
    d'.reg Ob.updateLength = n ∧ d'.boot.updateAt = d.ext ∧ d.KeepsRegs d' [Ob.updateLength] := by
  refine SetRuns.of_update (eff := fun se n d => (d.set (d.resolve se.id (0x7010 * 256 + 3)) n).updateWrite)
    (fun hd cond s => show execUpdateLengthWrite hd cond v s = _ from rfl) fun d e se n d' he hf => ?_
  have hkey : e.resolve se.id (0x7010 * 256 + 3) = Ob.updateLength := Dev.resolve_self _ _ (by decide) (by decide)
  beta_reduce at hf
  rw [hkey] at hf
  refine ⟨?_, ?_, fun k hb hs hk => ?_⟩
  · rw [hf.reg _ (by decide) (by decide), Dev.updateWrite_reg, Dev.reg_set, if_pos rfl]
  · rw [hf.boot]
    exact he.ext
  · rw [hf.reg _ hb hs, Dev.updateWrite_reg, Dev.reg_set, if_neg (by simpa using hk), he.reg]

theorem updateClaimTimeout_runs {s : State} (howner : s.dev.nat Ob.updateOwner ≠ 0xFF) (ht : 60000000000 ≤ s.dev.ago s.dev.boot.updateAt) :
    Runs .updateClaimTimeout s fun d => d.reg Ob.updateOwner = 0xFF
      ∧ d.reg Ob.updateState = 0 ∧ s.dev.KeepsRegs d [Ob.updateOwner, Ob.updateState] := by
  have hdue : ¬ (s.dev.nat Ob.updateOwner = 0xFF || decide (s.dev.ago s.dev.boot.updateAt < 60000000000)) = true := by
    simp [howner, ht]
  have hreg : ∀ k, (s.dev.endClaim.set Ob.updateState 0).reg k
      = if k = Ob.updateState then 0 else if k = Ob.updateOwner then 0xFF else s.dev.reg k := fun k => by
    rw [Dev.reg_set, Dev.endClaim_reg]
  refine Runs.of_onDev (show execUpdateClaimTimeout s = onDev _ s from rfl) ?_
  rw [if_neg hdue]
  refine ⟨?_, ?_, fun k _ hs hk => ?_⟩
  · rw [Dev.settle_reg _ _ (by decide), hreg, if_neg (by decide), if_pos rfl]
  · rw [Dev.settle_reg _ _ (by decide), hreg, if_pos rfl]
  · simp only [List.mem_cons, List.not_mem_nil, or_false, not_or] at hk
    rw [Dev.settle_reg _ _ hs, hreg, if_neg hk.2, if_neg hk.1]

/-! Abort, which overwrites the inactive bank's first bytes (R131, log 26), and the chunks (R132). -/

theorem bankState_not_book (b : Nat) (hb : b ≤ 1) : ¬ BookKey (Ob.bankState b) ∧ Ob.bankState b ≠ Ob.safeOutputState := by
  interval_cases b <;> decide

theorem Dev.abortUpdate_eq {d : Dev} (h : d.nat Ob.updateOwner ≠ 0xFF) : d.abortUpdate
    = ((({ d with banks := kvPut d.banks d.inactiveBank (bankWrite (d.bank d.inactiveBank) 0 [0, 0, 0, 0]) } : Dev).set
      (Ob.bankState d.inactiveBank) 2).set Ob.updateState 0).endClaim := if_neg h

theorem updateAbort_runs : SetRuns (fun hd cond => .updateAbort hd cond) abortConds 0x7010 12 [1] (fun d _ _ d' =>
    d.nat Ob.updateOwner ≠ 0xFF → d'.reg Ob.updateOwner = 0xFF ∧ d'.reg Ob.updateState = 0 ∧ d'.reg (Ob.bankState d.inactiveBank) = 2
      ∧ kvGet d'.banks d.inactiveBank = some (bankWrite (d.bank d.inactiveBank) 0 [0, 0, 0, 0])) := by
  refine SetRuns.of_update (eff := fun _ _ d => d.abortUpdate) (fun hd cond s => show execUpdateAbort hd cond s = _ from rfl)
    fun d e se n d' he hf howned => ?_
  have hb := d.inactiveBank_le
  obtain ⟨hbook, hsafe⟩ := bankState_not_book _ hb
  beta_reduce at hf
  rw [Dev.abortUpdate_eq (by rwa [he.nat]), he.inactiveBank, he.bank, he.banks] at hf
  refine ⟨?_, ?_, ?_, ?_⟩
  · rw [hf.reg _ (by decide) (by decide), Dev.endClaim_reg, if_pos rfl]
  · rw [hf.reg _ (by decide) (by decide), Dev.endClaim_reg, if_neg (by decide), Dev.reg_set, if_pos rfl]
  · rw [hf.reg _ hbook hsafe, Dev.endClaim_reg, if_neg (by unfold Ob.bankState Ob.updateOwner; omega), Dev.reg_set,
      if_neg (by unfold Ob.bankState Ob.updateState; omega), Dev.reg_set, if_pos rfl]
  · have hbanks : d'.banks = kvPut d.banks d.inactiveBank (bankWrite (d.bank d.inactiveBank) 0 [0, 0, 0, 0]) := hf.banks
    rw [hbanks, kvGet_kvPut, if_pos rfl]

/-- A block write that is not deferred leaves what its object's effect made. -/
theorem Dev.writeBlock_updateStands (d : Dev) {o : BlockObj} (ho : o.defer = false) (se : Session) (b : Block) (data : Bytes) :
    (o.eff se data (d.dropBlock b.sid b.tag)).UpdateStands (d.writeBlock o se b data) := by
  have hver : ∀ x : Dev, x.UpdateStands (x.bumpVer b.key) := fun x => ⟨rfl, rfl, fun _ _ _ => Dev.bumpVer_reg _ _ _⟩
  unfold Dev.writeBlock
  dsimp only
  rw [ho, if_neg (by decide)]
  exact (hver _).trans (Dev.complete_updateStands _ _ _ _ _ _ _)

/-- What a chunk leaves of the bank it is written to: an update begins at offset 0 with none of it. -/
def Dev.chunkBank (d : Dev) (data : Bytes) : Bytes :=
  bankWrite (if d.nat Ob.updateOffset = 0 then [] else d.bank d.inactiveBank) (d.nat Ob.updateOffset) data

theorem chunkObj_eff (se : Session) (data : Bytes) (d : Dev) : chunkObj.eff se data d
    = (({ d.updateWrite with banks := kvPut d.banks d.inactiveBank (d.chunkBank data) } : Dev).set
      Ob.updateState 1).set (Ob.bankState d.inactiveBank) 2 := rfl

theorem chunkObj_banks (se : Session) (data : Bytes) (d : Dev) :
    kvGet (chunkObj.eff se data d).banks d.inactiveBank = some (d.chunkBank data) :=
  (kvGet_kvPut _ _ _ _).trans (if_pos rfl)

theorem chunkObj_reg (se : Session) (data : Bytes) (d : Dev) : (chunkObj.eff se data d).reg Ob.updateState = 1
    ∧ (chunkObj.eff se data d).reg (Ob.bankState d.inactiveBank) = 2 := by
  have hb := d.inactiveBank_le
  rw [chunkObj_eff, Dev.reg_set, if_neg (by unfold Ob.bankState Ob.updateState; omega), Dev.reg_set, if_pos rfl, Dev.reg_set, if_pos rfl]
  exact ⟨rfl, rfl⟩

theorem updateChunk_runs : BlockRuns (fun hd payload => .updateChunk hd payload) (fun _ => chunkObj) (fun e _ _ data d' =>
    kvGet d'.banks e.inactiveBank = some (bankWrite (if e.nat Ob.updateOffset = 0 then [] else e.bank e.inactiveBank)
        (e.nat Ob.updateOffset) data)
      ∧ d'.reg Ob.updateState = 1 ∧ d'.reg (Ob.bankState e.inactiveBank) = 2) := by
  intro s hd payload e se b hadm hop hseg hmore hlen hcrc hfault
  have hframe := Dev.blockFrame_writes (o := fun _ => chunkObj) hadm hop hseg hmore hlen hcrc hfault
  generalize hx : (e.withBlock (b.taken payload e.ext)).dropBlock b.sid b.tag = x
  generalize hdata : (b.data ++ payload).take b.total = data at hframe ⊢
  have hstands : (chunkObj.eff se data x).UpdateStands (s.dev.settle (s.dev.blockFrame (fun _ => chunkObj) hd payload)) := by
    rw [hframe, ← hx]
    exact (Dev.writeBlock_updateStands _ rfl se (b.taken payload e.ext) data).trans (Dev.settle_updateStands _ _)
  have hbank : x.inactiveBank = e.inactiveBank ∧ x.chunkBank data = e.chunkBank data := hx ▸ ⟨rfl, rfl⟩
  obtain ⟨hbook, hsafe⟩ := bankState_not_book _ x.inactiveBank_le
  obtain ⟨hstate, hinvalid⟩ := chunkObj_reg se data x
  have hbanks := chunkObj_banks se data x
  rw [← hstands.banks, hbank.1, hbank.2] at hbanks
  refine Runs.of_onDev (show execUpdateChunk hd payload s = onDev _ s from rfl) ⟨hbanks, ?_, ?_⟩
  · rw [hstands.reg _ (by decide) (by decide), hstate]
  · rw [← hbank.1, hstands.reg _ hbook hsafe, hinvalid]

end Sys2Proof.Machine
end

section
/-! Verify, activation, commit and the key slots (05_start_up R132-R134). -/
namespace Sys2Proof.Machine

/-! Verify and consent (R132). -/

/-- The first fault that verify finds, the majors (5) last, pair 8's among them (log 82). -/
def Dev.bankVerdict (d : Dev) : Nat :=
  if d.bankFault (d.bank d.inactiveBank) = 0 ∧ d.majorsFault (d.bank d.inactiveBank) true ≠ [] then 5
  else d.bankFault (d.bank d.inactiveBank)

/-- What verify predicts of a start from the bank. -/
def Dev.prediction (d : Dev) : Int := if d.bankVerdict ≠ 0 then 2 else if d.untested (d.bank d.inactiveBank) = 0 then 0 else 1

/-- What verify writes is its verdict, its prediction, its state and what is shown of the bank. -/
theorem Dev.verifyUpdate_reg (d : Dev) {k : Nat} (hk : k / 256 = 0x7010) : d.verifyUpdate.reg k
    = if k = Ob.updateState then (if d.bankVerdict = 0 then 3 else 4) else if k = Ob.updatePredicted then d.prediction
      else if k = Ob.updateError then (d.bankVerdict : Int) else d.reg k := by
  have hbook : ¬ BookKey k := by
    unfold BookKey
    omega
  have hbank : ∀ x : Dev, ¬ BankKey x.inactiveBank k ∧ k ≠ Ob.bankState x.inactiveBank := fun x => by
    have := x.inactiveBank_le
    unfold BankKey Ob.bankState
    omega
  unfold Dev.verifyUpdate
  extract_lets e bk c c' pred judged shown
  have hjudged : judged.reg k = if k = Ob.updateState then (if d.bankVerdict = 0 then 3 else 4)
      else if k = Ob.updatePredicted then d.prediction else if k = Ob.updateError then (d.bankVerdict : Int) else d.reg k := by
    unfold judged
    rw [Dev.reg_set, Dev.reg_set, Dev.reg_setN]
    rfl
  have hshown : shown.reg k = judged.reg k := (Dev.reg_set _ _ _ _).trans (if_neg (hbank _).2)
  rw [Dev.event_reg _ _ hbook, ← hjudged, ← hshown]
  unfold Dev.when
  split
  · exact shown.showBank_reg (hbank _).1
  · rfl

theorem Dev.Passed.bankVerdict {d e : Dev} (h : d.Passed e) : e.bankVerdict = d.bankVerdict := by
  rw [h.eq]
  rfl

theorem Dev.Passed.prediction {d e : Dev} (h : d.Passed e) : e.prediction = d.prediction := by
  rw [h.eq]
  rfl

theorem updateVerify_runs : SetRuns (fun hd cond => .updateVerify hd cond) {} 0x7010 4 [1] (fun d _ _ d' =>
    let bk := d.bank d.inactiveBank
    (d.bankFault bk ≠ 0 → d'.reg Ob.updateState = 4 ∧ d'.reg Ob.updateError = (d.bankFault bk : Nat) ∧ d'.reg Ob.updatePredicted = 2)
      ∧ (d.bankFault bk = 0 → d.majorsFault bk true ≠ [] →
        d'.reg Ob.updateState = 4 ∧ d'.reg Ob.updateError = 5 ∧ d'.reg Ob.updatePredicted = 2)
      ∧ (d.bankFault bk = 0 → d.majorsFault bk true = [] → d'.reg Ob.updateState = 3 ∧ d'.reg Ob.updateError = 0
        ∧ d'.reg Ob.updatePredicted = if d.untested bk = 0 then 0 else 1)) := by
  refine SetRuns.of_update (eff := fun _ _ d => d.verifyUpdate) (fun hd cond s => show execUpdateVerify hd cond s = _ from rfl)
    fun d e se n d' he hf => ?_
  have hstate : d'.reg Ob.updateState = if d.bankVerdict = 0 then 3 else 4 := by
    rw [hf.reg _ (by decide) (by decide), Dev.verifyUpdate_reg _ (by decide), if_pos rfl, he.bankVerdict]
  have herror : d'.reg Ob.updateError = (d.bankVerdict : Nat) := by
    rw [hf.reg _ (by decide) (by decide), Dev.verifyUpdate_reg _ (by decide), if_neg (by decide), if_neg (by decide), if_pos rfl, he.bankVerdict]
  have hpredicted : d'.reg Ob.updatePredicted = d.prediction := by
    rw [hf.reg _ (by decide) (by decide), Dev.verifyUpdate_reg _ (by decide), if_neg (by decide), if_pos rfl, he.prediction]
  rw [hstate, herror, hpredicted]
  refine ⟨fun hfault => ?_, fun hgood hmajors => ?_, fun hgood hmajors => ?_⟩
  · have hv : d.bankVerdict = d.bankFault (d.bank d.inactiveBank) := if_neg fun h => hfault h.1
    rw [Dev.prediction, hv, if_neg hfault, if_pos hfault]
    exact ⟨rfl, rfl, rfl⟩
  · have hv : d.bankVerdict = 5 := if_pos ⟨hgood, hmajors⟩
    rw [Dev.prediction, hv]
    exact ⟨rfl, rfl, rfl⟩
  · have hv : d.bankVerdict = 0 := (if_neg fun h => h.2 hmajors).trans hgood
    rw [Dev.prediction, hv]
    exact ⟨rfl, rfl, rfl⟩

theorem provisionalConsent_runs : SetRuns (fun hd cond => .provisionalConsent hd cond) {} 0x7010 8 [1] (fun d _ _ d' =>
    d'.boot = { d.boot with consent := true, updateAt := d.ext }) := by
  refine SetRuns.of_update (eff := fun _ _ d => d.updateWrite.onBoot fun b => { b with consent := true })
    (fun hd cond s => show execProvisionalConsent hd cond s = _ from rfl) fun d e se n d' he hf => ?_
  rw [hf.boot, ← he.boot, ← he.ext]
  rfl

/-! Activation (R133). -/

theorem Dev.markTrial_boot (d : Dev) : d.markTrial.boot = { d.boot with trial := some d.inactiveBank } := rfl

theorem Dev.markTrial_reg (d : Dev) : d.markTrial.reg (Ob.bankState d.inactiveBank) = 3 ∧ d.markTrial.reg Ob.updateState = 5
    ∧ d.markTrial.reg Ob.updateOwner = 0xFF := by
  have hb := d.inactiveBank_le
  have hreg : ∀ k, d.markTrial.reg k = if k = Ob.updateOwner then 0xFF else if k = Ob.updateState then 5
      else if k = Ob.bankTrialAttempts d.inactiveBank then 0 else if k = Ob.bankState d.inactiveBank then 3 else d.reg k := fun k => by
    unfold Dev.markTrial
    dsimp only
    rw [Dev.endClaim_reg, Dev.reg_set, Dev.reg_set, Dev.reg_set, Dev.onBoot_reg]
  refine ⟨?_, ?_, ?_⟩
  · rw [hreg, if_neg (by unfold Ob.bankState Ob.updateOwner; omega), if_neg (by unfold Ob.bankState Ob.updateState; omega),
      if_neg (by unfold Ob.bankState Ob.bankTrialAttempts; omega), if_pos rfl]
  · rw [hreg, if_neg (by decide), if_pos rfl]
  · rw [hreg, if_pos rfl]

theorem updateActivateNextStart_runs : SetRuns (fun hd cond => .updateActivateNextStart hd cond) activateConds 0x7010 7 [1]
    (fun d _ _ d' => d'.boot = { d.boot with trial := some d.inactiveBank } ∧ d'.reg (Ob.bankState d.inactiveBank) = 3
      ∧ d'.reg Ob.updateState = 5 ∧ d'.reg Ob.updateOwner = 0xFF) := by
  refine SetRuns.of_update (eff := fun _ _ d => d.markTrial) (fun hd cond s => show execUpdateActivateNextStart hd cond s = _ from rfl)
    fun d e se n d' he hf => ?_
  obtain ⟨hbook, hsafe⟩ := bankState_not_book _ d.inactiveBank_le
  obtain ⟨htrial, hstate, howner⟩ := e.markTrial_reg
  rw [he.inactiveBank] at htrial
  refine ⟨?_, ?_, ?_, ?_⟩
  · rw [hf.boot, e.markTrial_boot, he.boot, he.inactiveBank]
  · rw [hf.reg _ hbook hsafe, htrial]
  · rw [hf.reg _ (by decide) (by decide), hstate]
  · rw [hf.reg _ (by decide) (by decide), howner]

theorem execUpdateActivateNow_pass {hd : Hdr} {cond : Option Nat} {s : State} {e : Dev} {se : Session} {n : Int}
    (h : s.dev.writeGate activateConds hd cond 0x7010 7 [2] = .pass e se n) :
    exec (.updateActivateNow hd cond) s = onDev (fun _ => (e.markTrial.finishWrite hd cond 0x7010 7 [2] se).plainRestart 6) s := by
  show execUpdateActivateNow hd cond s = _
  unfold execUpdateActivateNow onDev
  dsimp only
  rw [h]

theorem updateActivateNow_runs : SetRuns (fun hd cond => .updateActivateNow hd cond) activateConds 0x7010 7 [2] (fun d _ _ d' =>
    d'.boot.trial = some d.inactiveBank ∧ d'.reg Ob.bootPhase = 1 ∧ d'.reg Ob.bootCause = 6) := by
  refine SetRuns.of_restart (f := Dev.markTrial) (fun _ _ _ _ _ _ h => execUpdateActivateNow_pass h) fun d e _ _ d' he ha d'' r =>
    ⟨?_, r.phase, r.cause⟩
  rw [r.boot, ha.boot, e.markTrial_boot, he.inactiveBank]

/-! Commit and its timeout (R133). -/

theorem Dev.commitTrial_boot (d : Dev) :
    d.commitTrial.boot = { d.boot with current := d.nat Ob.activeBank, trial := none, trialRunning := false } := by
  unfold Dev.commitTrial
  dsimp only
  rw [Dev.event_boot]
  rfl

theorem Dev.commitTrial_reg {d : Dev} {b : Nat} (hb : d.nat Ob.activeBank = b) (h : b < 2) :
    d.commitTrial.reg (Ob.bankState b) = 4 ∧ d.commitTrial.reg (Ob.bankState (1 - b)) = 1 := by
  have hbook : ∀ x ≤ 1, ¬ BookKey (Ob.bankState x) := fun x hx => (bankState_not_book x hx).1
  have hne : Ob.bankState b ≠ Ob.bankState (1 - b) := by
    unfold Ob.bankState
    omega
  unfold Dev.commitTrial
  dsimp only
  rw [hb]
  refine ⟨?_, ?_⟩
  · rw [Dev.event_reg _ _ (hbook b (by omega)), Dev.reg_set, if_neg hne, Dev.reg_set, if_pos rfl]
  · rw [Dev.event_reg _ _ (hbook (1 - b) (by omega)), Dev.reg_set, if_pos rfl]

theorem updateCommit_runs : SetRuns (fun hd cond => .updateCommit hd cond) commitConds 0x7010 9 [1] (fun d _ _ d' =>
    d'.boot = { d.boot with current := d.nat Ob.activeBank, trial := none, trialRunning := false }
      ∧ (d.nat Ob.activeBank < 2 →
        d'.reg (Ob.bankState (d.nat Ob.activeBank)) = 4 ∧ d'.reg (Ob.bankState (1 - d.nat Ob.activeBank)) = 1)) := by
  refine SetRuns.of_update (eff := fun _ _ d => d.commitTrial) (fun hd cond s => show execUpdateCommit hd cond s = _ from rfl)
    fun d e se n d' he hf => ⟨?_, fun hb => ?_⟩
  · rw [hf.boot, e.commitTrial_boot, he.boot, he.nat]
  · obtain ⟨hactive, hother⟩ := Dev.commitTrial_reg (he.nat Ob.activeBank) hb
    generalize d.nat Ob.activeBank = b at *
    obtain ⟨hbook, hsafe⟩ := bankState_not_book b (by omega)
    obtain ⟨hbook', hsafe'⟩ := bankState_not_book (1 - b) (by omega)
    exact ⟨(hf.reg _ hbook hsafe).trans hactive, (hf.reg _ hbook' hsafe').trans hother⟩

theorem commitTimeout_runs {s : State} (htrial : s.dev.boot.trialRunning = true) (hlate : s.dev.commitLate = true) :
    Runs .commitTimeout s fun d => d.boot = { s.dev.boot with trial := none, trialRunning := false }
      ∧ d.reg (Ob.bankState (s.dev.nat Ob.activeBank)) = 1 := by
  have hsafe : ∀ b, Ob.bankState b ≠ Ob.safeOutputState := fun b => by
    unfold Ob.bankState Ob.safeOutputState
    omega
  refine Runs.of_onDev (show execCommitTimeout s = onDev _ s from rfl) ?_
  rw [if_pos (by rw [htrial, hlate]; rfl)]
  refine ⟨(Dev.settle_boot _ _).trans rfl, ?_⟩
  rw [Dev.settle_reg _ _ (hsafe _), Dev.reg_set, if_pos rfl]

/-! The key slots and the floor (R134). -/

theorem revokeKeySlot_runs (v : Bytes) : SetRuns (fun hd cond => .revokeKeySlot hd cond v) revokeConds 0x7020 3 v fun d _ n d' =>
    d'.reg Ob.keySlotState = (d.nat Ob.keySlotState ||| 2 ^ (4 + n.toNat) : Nat) ∧ d.KeepsRegs d' [Ob.keySlotState] := by
  refine SetRuns.of_update (eff := fun _ n d => d.revokeSlot n.toNat) (fun hd cond s => show execRevokeKeySlot hd cond v s = _ from rfl)
    fun d e se n d' he hf => ⟨?_, fun k hb hs hk => ?_⟩
  · rw [hf.reg _ (by decide) (by decide), Dev.revokeSlot, Dev.reg_setN, if_pos rfl, he.nat]
  · rw [hf.reg _ hb hs, Dev.revokeSlot, Dev.reg_setN, if_neg (by simpa using hk), he.reg]

theorem advanceFloor_runs (v : Bytes) : SetRuns (fun hd cond => .advanceFloor hd cond v) floorConds 0x7020 4 v fun d _ n d' =>
    d'.reg Ob.securityVersionFloor = n ∧ d.KeepsRegs d' [Ob.securityVersionFloor] := by
  refine SetRuns.of_update (eff := fun _ n d => d.set Ob.securityVersionFloor n)
    (fun hd cond s => show execAdvanceFloor hd cond v s = _ from rfl) fun d e se n d' he hf => ⟨?_, fun k hb hs hk => ?_⟩
  · rw [hf.reg _ (by decide) (by decide), Dev.reg_set, if_pos rfl]
  · rw [hf.reg _ hb hs, Dev.reg_set, if_neg (by simpa using hk), he.reg]

/-- Settles O33, command by command. -/
theorem updateCommandsRun : Obligations.UpdateCommandsRun :=
  ⟨updateOffsetWrite_runs, updateLengthWrite_runs, updateChunk_runs, updateVerify_runs, provisionalConsent_runs,
    updateActivateNextStart_runs, updateActivateNow_runs, updateCommit_runs, updateAbort_runs,
    fun _ howner ht => updateClaimTimeout_runs howner ht, fun _ htrial hlate => commitTimeout_runs htrial hlate,
    revokeKeySlot_runs, advanceFloor_runs⟩

end Sys2Proof.Machine
end

section
/-! The pours held, and what ending them leaves (06_pours Table 4, R142, R148). -/
namespace Sys2Proof.Machine

/-! The pour a handle names. -/

theorem Dev.pour_congr {d e : Dev} (h : e.pours = d.pours) (n : Nat) : e.pour n = d.pour n := by
  unfold Dev.pour
  rw [h]

theorem Dev.pour_handle {d : Dev} {n : Nat} {p : Pour} (h : d.pour n = some p) : p.handle = n := by
  simpa using List.find?_some h

theorem Dev.onPour_pour (d : Dev) (m n : Nat) {f : Pour → Pour} (hf : ∀ p, (f p).handle = p.handle) :
    (d.onPour m f).pour n = (d.pour n).map fun p => if p.handle = m then f p else p := by
  have hsame : ((fun p : Pour => p.handle == n) ∘ fun p => if p.handle = m then f p else p) = fun p : Pour => p.handle == n := by
    funext p
    by_cases h : p.handle = m <;> simp [h, hf]
  show (d.pours.live.map _).find? _ = _
  rw [List.find?_map, hsame]
  rfl

/-- A change of the pour that a handle names. -/
theorem Dev.onPour_pour_self {d : Dev} {n : Nat} {p : Pour} {f : Pour → Pour} (hf : ∀ p, (f p).handle = p.handle)
    (h : d.pour n = some p) : (d.onPour n f).pour n = some (f p) := by
  rw [d.onPour_pour n n hf, h, Option.map_some, if_pos (Dev.pour_handle h)]

/-! What leaves the pours as they are. -/

@[simp] theorem Dev.refreshHeld_pours (d : Dev) : d.refreshHeld.pours = d.pours :=
  (Dev.refreshHeld_within (M := 0) (by exact rfl) (.refl d)).pours rfl

@[simp] theorem Dev.event_pours (d : Dev) (ev : Ev) : (d.event ev).pours = d.pours :=
  (Dev.event_within (M := 0) (by exact rfl) (.refl d) ev).pours rfl

@[simp] theorem Dev.signalFence_pours (d : Dev) (f v : Nat) : (d.signalFence f v).pours = d.pours :=
  (Dev.signalFence_within (M := 27) (by exact rfl) (.refl d) f v).pours rfl

@[simp] theorem Dev.armed_pours (d : Dev) (es : List PourEntry) : (d.armed es).pours = d.pours :=
  (Dev.armed_within (M := 8192) (by exact rfl) (.refl d) es).pours rfl

@[simp] theorem Dev.finishWrite_pours (d : Dev) (hd : Hdr) (cond : Option Nat) (idx sub : Nat) (v : Bytes) (se : Session) :
    (d.finishWrite hd cond idx sub v se).pours = d.pours :=
  (Dev.finishWrite_within (M := 6291968) (by exact rfl) (.refl d) hd cond idx sub v se).pours rfl

theorem Dev.Passed.pours {d e : Dev} (h : d.Passed e) : e.pours = d.pours := by rw [h.eq]

/-! The end of a pour. -/

theorem Dev.endPour_pours {d : Dev} {n : Nat} {p : Pour} (st cause : Nat) (h : d.pour n = some p) :
    (d.endPour n st cause).pours = { d.pours with
      live := d.pours.live.filter fun q => q.handle != n,
      ended := ({ p with state := st, cause := cause } :: d.pours.ended).take 256 } := by
  unfold Dev.endPour
  rw [h]
  exact Dev.refreshHeld_pours _

theorem Dev.endPour_pour_self (d : Dev) (n st cause : Nat) : (d.endPour n st cause).pour n = none := by
  cases h : d.pour n with
  | none => simp [Dev.endPour, h]
  | some p =>
    unfold Dev.pour
    rw [Dev.endPour_pours st cause h, List.find?_filter, List.find?_eq_none]
    simp

theorem Dev.endPour_pour_other (d : Dev) {n m : Nat} (st cause : Nat) (hm : m ≠ n) : (d.endPour n st cause).pour m = d.pour m := by
  cases h : d.pour n with
  | none => simp [Dev.endPour, h]
  | some p =>
    unfold Dev.pour
    rw [Dev.endPour_pours st cause h, List.find?_filter]
    congr 1
    funext q
    by_cases hq : q.handle = m <;> simp [hq, hm]

theorem Dev.endPour_ended {d : Dev} {n : Nat} {p : Pour} (st cause : Nat) (h : d.pour n = some p) :
    (d.endPour n st cause).pours.ended.head? = some { p with state := st, cause := cause } := by
  rw [Dev.endPour_pours st cause h]
  rfl

/-- A pour that is applied ends with the stamp at which it was. -/
theorem Dev.applyPour_pours (d : Dev) (p : Pour) :
    ∃ t, (d.applyPour p).pours = ((d.onPour p.handle fun q => { q with applied := t }).endPour p.handle 4 0).pours := by
  have hwhen : ∀ (e : Dev) (b : Bool), (e.when b fun d => (d.bump Ob.poursLate).event
      { code := 0x0101, island := Isl.ctl, d1 := p.handle }).pours = e.pours := fun e b => by
    cases b
    · rfl
    · exact Dev.event_pours _ _
  unfold Dev.applyPour
  dsimp only
  cases p.signal with
  | none => exact ⟨_, hwhen _ _⟩
  | some x => exact ⟨_, (hwhen _ _).trans (Dev.signalFence_pours _ _ _)⟩

/-- Applying a pour takes it away and leaves the others. -/
theorem Dev.applyPour_pour (d : Dev) (p : Pour) (n : Nat) : (d.applyPour p).pour n = if n = p.handle then none else d.pour n := by
  obtain ⟨t, ht⟩ := d.applyPour_pours p
  rw [Dev.pour_congr ht]
  split
  · next h => rw [h, Dev.endPour_pour_self]
  · next h =>
    rw [Dev.endPour_pour_other _ _ _ h, Dev.onPour_pour (f := fun q => { q with applied := t }) _ _ _ fun _ => rfl]
    cases hp : d.pour n with
    | none => rfl
    | some q => rw [Option.map_some, if_neg (by rwa [Dev.pour_handle hp])]

/-- A pour still held once the finished ones have ended was held before, as it is. -/
theorem Dev.completePours_pour {d : Dev} {n : Nat} {p : Pour} (h : d.completePours.pour n = some p) : d.pour n = some p := by
  unfold Dev.completePours at h
  generalize d.pours.live.map (fun p => p.handle) = l at h
  induction l generalizing d with
  | nil => exact h
  | cons m l ih =>
    have hnext := ih h
    revert hnext
    dsimp only
    split
    · exact id
    · split
      · rw [Dev.applyPour_pour]
        split
        · exact fun h => nomatch h
        · exact id
      · exact id

/-! The registers and the versions that ending pours leaves. -/

/-- The value an object holds, and every version. -/
def Dev.valVers (d : Dev) (k : Nat) : Int × Assoc Nat := (d.reg k, d.vers)

theorem Dev.valVers_ver {d e : Dev} {k : Nat} (h : e.valVers k = d.valVers k) : e.reg k = d.reg k ∧ e.ver k = d.ver k := by
  obtain ⟨hreg, hvers⟩ := Prod.mk.inj h
  refine ⟨hreg, ?_⟩
  unfold Dev.ver
  rw [hvers]

/-- The registers that the end of a pour may change: the bookkeeping, the counts of pours, and the count of late deadlines, for
the fence that a pour signals. -/
abbrev EndKey (k : Nat) : Prop := CancelKey k ∨ k = Ob.poursApplied ∨ k = Ob.poursLate ∨ k = Ob.deadlineLateCount

theorem EndKey.not_iff {k : Nat} : ¬ EndKey k ↔ ¬ CancelKey k ∧ k ≠ Ob.poursApplied ∧ k ≠ Ob.poursLate ∧ k ≠ Ob.deadlineLateCount :=
  not_or.trans (and_congr_right' (not_or.trans (and_congr_right' not_or)))

section Ending
variable (d : Dev) {k : Nat}

theorem Dev.set_valVers {j : Nat} (v : Int) (h : k ≠ j) : (d.set j v).valVers k = d.valVers k :=
  Prod.ext ((Dev.reg_set d j k v).trans (if_neg h)) rfl

theorem Dev.event_valVers (ev : Ev) (hk : ¬ BookKey k) : (d.event ev).valVers k = d.valVers k :=
  Prod.ext (Dev.event_reg d ev hk) (by simp [Dev.valVers])

theorem Dev.when_valVers {b : Bool} {f : Dev → Dev} (h : ∀ d : Dev, (f d).valVers k = d.valVers k) : (d.when b f).valVers k = d.valVers k := by
  cases b
  · rfl
  · exact h d

theorem Dev.deliverWait_valVers (w : Wait) (reset : Bool) (hk : ¬ BookKey k) : (d.deliverWait w reset).valVers k = d.valVers k := by
  unfold Dev.deliverWait
  dsimp only
  split
  · exact Prod.ext (Dev.enqueue_booked (.refl _) _ _ k hk) (by simp [Dev.valVers])
  split
  · exact Dev.when_valVers d fun _ => rfl
  split
  · rfl
  split <;> rfl

theorem Dev.fenceSignal_valVers (f v : Nat) (hk : ¬ BookKey k) (hlate : k ≠ Ob.deadlineLateCount) :
    (d.fenceSignal f v).valVers k = d.valVers k := by
  have hnote : (d.noteLate f).valVers k = d.valVers k := Dev.when_valVers d fun d =>
    (Dev.event_valVers _ _ hk).trans (Dev.set_valVers d _ hlate)
  exact (Dev.each_keeps (g := fun d => d.valVers k) (fun d w => d.deliverWait_valVers w false hk) _ _).trans hnote

theorem Dev.signalFence_valVers (f v : Nat) (hk : ¬ BookKey k) (hlate : k ≠ Ob.deadlineLateCount) :
    (d.signalFence f v).valVers k = d.valVers k := by
  unfold Dev.signalFence
  split
  · rfl
  · exact d.fenceSignal_valVers f v hk hlate

theorem Dev.endPour_valVers (n st cause : Nat) (hk : ¬ CancelKey k) : (d.endPour n st cause).valVers k = d.valVers k :=
  Prod.ext (Dev.endPour_other d n st cause hk) (Dev.endPour_vers d n st cause)

theorem Dev.applyPour_valVers (p : Pour) (hk : ¬ EndKey k) : (d.applyPour p).valVers k = d.valVers k := by
  obtain ⟨hcancel, happlied, hlate, hdeadline⟩ := EndKey.not_iff.1 hk
  have hbook : ¬ BookKey k := fun h => hcancel (.inl h)
  have hended : ∀ t, ((d.onPour p.handle fun q => { q with applied := t }).endPour p.handle 4 0).valVers k = d.valVers k :=
    fun _ => Dev.endPour_valVers _ _ _ _ hcancel
  unfold Dev.applyPour
  dsimp only
  refine (Dev.when_valVers _ fun d => (Dev.event_valVers _ _ hbook).trans (Dev.set_valVers d _ hlate)).trans ?_
  refine (Dev.set_valVers _ _ happlied).trans ?_
  split
  · exact (Dev.signalFence_valVers _ _ _ hbook hdeadline).trans (hended _)
  · exact hended _

theorem Dev.completePours_valVers (hk : ¬ EndKey k) : d.completePours.valVers k = d.valVers k := by
  refine Dev.each_keeps (g := fun d => d.valVers k) (fun d n => ?_) _ d
  split
  · rfl
  · split
    · exact d.applyPour_valVers _ hk
    · rfl

theorem Dev.refreshPours_valVers (hk : ¬ EndKey k) : d.refreshPours.valVers k = d.valVers k := by
  have hbook : ¬ BookKey k := fun h => (EndKey.not_iff.1 hk).1 (.inl h)
  unfold Dev.refreshPours
  rw [Dev.completePours_valVers _ hk]
  refine Dev.each_keeps (g := fun d => d.valVers k) (fun d p => ?_) _ d
  refine Dev.each_keeps (g := fun d => d.valVers k) (fun d x => ?_) _ d
  rw [Dev.event_valVers _ _ hbook]
  rfl

theorem Dev.settle_valVers (d0 : Dev) (hk : k ≠ Ob.safeOutputState) : (d0.settle d).valVers k = d.valVers k :=
  Prod.ext (Dev.settle_reg d0 d hk) (Dev.settle_onlyAnswers d0 d).vers

end Ending

end Sys2Proof.Machine
end

section
/-! A pour, a STORE and a recall that arrive whole (06_pours R138-R143, R151, R154-R156). -/
namespace Sys2Proof.Machine

/-! No check of a pour answers ABSENT, which an answer to a request may not keep (04_dictionary R101). -/

/-- A check refuses with another status than ABSENT, if at all. -/
def NeverAbsent (o : Option Refuse) : Prop := ∀ r, o = some r → r.status ≠ Sc.absent

theorem NeverAbsent.none : NeverAbsent none := fun _ h => nomatch h

theorem NeverAbsent.some {r : Refuse} (h : r.status ≠ Sc.absent) : NeverAbsent (some r) := fun _ hr => Option.some.inj hr ▸ h

theorem NeverAbsent.ite {p : Prop} [Decidable p] {a b : Option Refuse} (ha : NeverAbsent a) (hb : NeverAbsent b) :
    NeverAbsent (if p then a else b) := by
  split <;> assumption

theorem NeverAbsent.needRange (b : Bool) : NeverAbsent (needRange b) := .ite .none (.some (by decide))

theorem NeverAbsent.firstFault {l : List (Option Refuse)} (h : ∀ o ∈ l, NeverAbsent o) : NeverAbsent (firstFault l) := by
  induction l with
  | nil => exact .none
  | cons o l ih =>
    cases o with
    | none => exact ih fun o ho => h o (List.mem_cons_of_mem _ ho)
    | some r => exact h _ List.mem_cons_self

theorem NeverAbsent.firstEntry {f : RawEntry → Option Refuse} (h : ∀ x, NeverAbsent (f x)) (l : List RawEntry) (n : Nat) :
    NeverAbsent (firstEntry f n l) := by
  induction l generalizing n with
  | nil => exact .none
  | cons x l ih =>
    unfold Machine.firstEntry
    split
    · next r hr => exact .some (h x r hr)
    · exact ih _

theorem Dev.objFault_neverAbsent (d : Dev) (se : Session) (idx sub : Nat) (write : Bool) (fence : Option Nat) :
    NeverAbsent (d.objFault se idx sub write fence) := by
  intro r hr
  unfold Dev.objFault at hr
  repeat' split at hr
  all_goals cases hr
  all_goals (dsimp only; decide)

theorem valueFault_neverAbsent (r : ObjRow) (k : Nat) (v : Bytes) : NeverAbsent (valueFault r k v) :=
  .ite (.some (by decide)) (.ite (.some (by decide)) (.ite (.some (by decide)) .none))

theorem Dev.rangeFault_neverAbsent (d : Dev) (pour : Bool) (se : Session) (k : Nat) : NeverAbsent (d.rangeFault pour se k) :=
  .ite (.some (by decide)) (.ite (.needRange _) (.ite (.needRange _) (.needRange _)))

theorem Dev.entryFault_neverAbsent (d d1 d2 : Dev) (se : Session) (store : Bool) (x : RawEntry) :
    NeverAbsent (d.entryFault d1 d2 se store x) := by
  unfold Dev.entryFault
  dsimp only
  split
  · exact .some (by decide)
  · next r _ =>
    refine .firstFault fun o ho => ?_
    simp only [List.mem_cons, List.not_mem_nil, or_false] at ho
    rcases ho with rfl | rfl | rfl | rfl | rfl
    · exact d.objFault_neverAbsent _ _ _ _ _
    · exact .ite (.ite .none (.some (by decide))) (.ite .none (valueFault_neverAbsent _ _ _))
    · exact Dev.rangeFault_neverAbsent _ _ _ _
    · exact .ite (.some (by decide)) .none
    · exact .ite (.some (by decide)) .none

theorem Dev.pourFault_neverAbsent (d : Dev) (se : Session) (h : PourHead) (all : List RawEntry) :
    NeverAbsent (d.pourFault se h all) := by
  refine .firstFault fun o ho => ?_
  simp only [List.mem_cons, List.not_mem_nil, or_false] at ho
  rcases ho with rfl | rfl | rfl | rfl | rfl
  · exact .ite (.some (by decide)) .none
  · exact .ite .none (.ite .none (.some (by decide)))
  · exact .ite (.some (by decide)) .none
  · exact .firstEntry (fun x => .ite .none (d.entryFault_neverAbsent _ _ _ _ _)) _ _
  · exact .ite (.some (by decide)) .none

/-! The decision on a pour's or a recall's entries. -/

theorem Dev.pourEntries_refuses {d : Dev} {se : Session} {rq : PourReq} {h : PourHead} {all : List RawEntry} {r : Refuse}
    (hf : d.pourFault se h all = some r) : d.pourEntries se rq h all = d.pourAnswer rq r.status r.detail := by
  unfold Dev.pourEntries
  rw [hf]
  rfl

theorem Dev.pourEntries_accepts {d : Dev} {se : Session} {rq : PourReq} {h : PourHead} {all : List RawEntry}
    (hf : d.pourFault se h all = none) : d.pourEntries se rq h all = d.acceptPour se rq h
      ((all.filter fun x => !d.skipped h x).map fun x => (x.key, bit x.flags 0, d.entryValue x)) := by
  unfold Dev.pourEntries
  rw [hf]
  rfl

/-- An accepted pour stands at the end of those held (R141-R143, R151). -/
theorem Dev.acceptPour_live (d : Dev) (se : Session) (rq : PourReq) (h : PourHead) (l : List (Nat × Bool × Int)) :
    ∃ p, (d.acceptPour se rq h l).pours.live = d.pours.live ++ [p] ∧ p.handle = d.newHandle ∧ p.part = se.part
      ∧ p.target = h.target ∧ (p.state = 1 ∨ p.state = 2)
      ∧ p.entries.map (fun x => (x.key, x.value)) = l.map fun x => (x.1, x.2.2) := by
  have harmed : ∀ (e : Dev) b (es : List PourEntry), (e.when b fun d => d.armed es).pours = e.pours := fun e b es => by
    cases b
    · rfl
    · exact e.armed_pours es
  unfold Dev.acceptPour
  dsimp only
  rw [Dev.pourAnswer_pours, harmed, Dev.refreshHeld_pours]
  refine ⟨_, rfl, rfl, rfl, rfl, ?_, ?_⟩
  · exact (ite_eq_or_eq _ _ _)
  · simp only [List.map_map]
    rfl

theorem Dev.acceptPour_lastAnswer {d0 d : Dev} {se : Session} {rq : PourReq} {h : PourHead} {l : List (Nat × Bool × Int)}
    (hs : ((d0.settle (d.acceptPour se rq h l)).session rq.sid).isSome = true) :
    (d0.settle (d.acceptPour se rq h l)).lastAnswer rq.sid = some { status := Sc.ok, detail := d.newHandle } :=
  Dev.settle_complete_lastAnswer (.inl rfl) hs

theorem Dev.pourAnswer_lastAnswer {d0 d : Dev} {rq : PourReq} {status detail : Nat} (hb : status ≠ Sc.busy) (ha : status ≠ Sc.absent)
    (hs : ((d0.settle (d.pourAnswer rq status detail)).session rq.sid).isSome = true) :
    (d0.settle (d.pourAnswer rq status detail)).lastAnswer rq.sid = some { status := status, detail := detail } := by
  rw [Dev.session_congr (Dev.settle_dict _ _)] at hs
  rw [Dev.settle_lastAnswer]
  exact Dev.complete_lastAnswer hb ha hs

/-- A pour that is no recall leaves no entry out. -/
theorem Dev.skipped_of_pour {d : Dev} {h : PourHead} (hr : h.recall = false) (l : List RawEntry) :
    (l.filter fun x => !d.skipped h x) = l := by
  simp [Dev.skipped, hr]

theorem pour_runs {s : State} {hd : Hdr} {payload : Bytes} {e : Dev} {se : Session} {l : List RawEntry}
    (h : PourArrives s.dev hd payload e se l) (hr : (pourHead payload).recall = false) (hs : (pourHead payload).store = false) :
    Runs (.pour hd payload) s fun d =>
      (∀ r, e.pourFault se (pourHead payload) l = some r → d.pours.live = s.dev.pours.live
        ∧ ((d.session se.id).isSome = true → r.status ≠ Sc.busy →
          d.lastAnswer se.id = some { status := r.status, detail := r.detail }))
      ∧ (e.pourFault se (pourHead payload) l = none → ∃ p, d.pours.live = s.dev.pours.live ++ [p] ∧ p.handle = e.newHandle
        ∧ p.part = se.part ∧ p.target = (pourHead payload).target ∧ (p.state = 1 ∨ p.state = 2)
        ∧ p.entries.map (fun x => (x.key, x.value)) = l.map (fun x => (x.key, e.entryValue x))
        ∧ ((d.session se.id).isSome = true → d.lastAnswer se.id = some { status := Sc.ok, detail := e.newHandle })) := by
  refine Runs.of_onDev (show execPour hd payload s = onDev _ s from rfl) ?_
  rw [Dev.pourFrame_arrives h hs, hr, if_neg Bool.false_ne_true, Dev.settle_pours]
  refine ⟨fun r hf => ?_, fun hf => ?_⟩
  · rw [Dev.pourEntries_refuses hf]
    refine ⟨by rw [Dev.pourAnswer_pours, h.pours], fun hsome hbusy => ?_⟩
    exact Dev.pourAnswer_lastAnswer hbusy (e.pourFault_neverAbsent _ _ _ r hf) hsome
  · rw [Dev.pourEntries_accepts hf, Dev.skipped_of_pour hr]
    obtain ⟨p, hlive, hhandle, hpart, htarget, hstate, hentries⟩ := e.acceptPour_live se
      { sid := se.id, tag := hd.tag, seq := hd.seq, payload := payload } (pourHead payload)
      (l.map fun x => (x.key, bit x.flags 0, e.entryValue x))
    refine ⟨p, by rw [hlive, h.pours], hhandle, hpart, htarget, hstate, ?_, fun hsome => Dev.acceptPour_lastAnswer hsome⟩
    rw [hentries, List.map_map]
    rfl

theorem PourArrives.not_store_of_recall {d e : Dev} {hd : Hdr} {payload : Bytes} {se : Session} {l : List RawEntry}
    (h : PourArrives d hd payload e se l) (hr : (pourHead payload).recall = true) : (pourHead payload).store = false := by
  obtain ⟨-, -, -, -, -, -, -, -, -, hok, -⟩ := h
  unfold PourHead.ok at hok
  simp_all

theorem pourRecall_runs {s : State} {hd : Hdr} {payload : Bytes} {e : Dev} {se : Session} {l : List RawEntry}
    (h : PourArrives s.dev hd payload e se l) (hr : (pourHead payload).recall = true) :
    Runs (.pourRecall hd payload) s fun d =>
      let all := (rawEntries (e.nat (Ob.sceneEntries (pourHead payload).scene)) (e.blob (Ob.sceneContent (pourHead payload).scene))).getD []
      e.pourFault se (pourHead payload) all = none → ∃ p, d.pours.live = s.dev.pours.live ++ [p] ∧ p.handle = e.newHandle
        ∧ p.entries.map (fun x => (x.key, x.value))
          = (all.filter fun x => !e.skipped (pourHead payload) x).map (fun x => (x.key, e.entryValue x)) := by
  refine Runs.of_onDev (show execPourRecall hd payload s = onDev _ s from rfl) fun hf => ?_
  rw [Dev.pourFrame_arrives h (h.not_store_of_recall hr), hr, if_pos rfl, Dev.settle_pours, Dev.pourEntries_accepts hf]
  obtain ⟨p, hlive, hhandle, -, -, -, hentries⟩ := e.acceptPour_live se
    { sid := se.id, tag := hd.tag, seq := hd.seq, payload := payload } (pourHead payload) _
  refine ⟨p, by rw [hlive, h.pours], hhandle, ?_⟩
  rw [hentries, List.map_map]
  rfl

/-! STORE. -/

/-- A STORE that arrives whole is decided on its descriptor. -/
theorem Dev.pourFrame_stores {d e : Dev} {hd : Hdr} {payload : Bytes} {se : Session} {l : List RawEntry}
    (h : PourArrives d hd payload e se l) (hs : (pourHead payload).store = true) :
    d.pourFrame hd payload = e.pourStore se { sid := se.id, tag := hd.tag, seq := hd.seq, payload := payload } (pourHead payload) l := by
  obtain ⟨hgo, hseg, hmore, hblock, hboot, hlen, hmax, hbad, hraw, hok, hprov⟩ := h
  obtain ⟨hid, hblocks⟩ := Dev.admission_go_session hgo
  have hmulti : (d.blockOp hd.session hd.tag Op.pour).isSome = false := by
    have hsame : d.blockOp hd.session hd.tag Op.pour = e.blockOp se.id hd.tag Op.pour := by
      unfold Dev.blockOp Dev.block
      rw [hblocks, hid]
    rw [hsame, hblock, Option.isSome_none]
  have hfits : ¬ 65536 < 48 + (pourHead payload).area := by omega
  simp [Dev.pourFrame, Dev.pourDescriptor, hmulti, hgo, hboot, hblock, hseg, hmore, hfits, hbad, hlen, hraw, hok, hprov, hs]

/-- The objects a scene holds beside its content, once they are set. -/
theorem Dev.each_sceneVals_reg (d : Dev) (n state owner entries stamp : Nat) :
    (d.each (sceneVals n state owner entries stamp) fun d kv => d.set kv.1 kv.2).reg (Ob.sceneState n) = state
      ∧ (d.each (sceneVals n state owner entries stamp) fun d kv => d.set kv.1 kv.2).reg (Ob.sceneOwner n) = owner
      ∧ (d.each (sceneVals n state owner entries stamp) fun d kv => d.set kv.1 kv.2).reg (Ob.sceneEntries n) = entries
      ∧ (d.each (sceneVals n state owner entries stamp) fun d kv => d.set kv.1 kv.2).reg (Ob.sceneStoredStamp n) = stamp := by
  simp [sceneVals, Dev.each, Ob.sceneState, Ob.sceneOwner, Ob.sceneEntries, Ob.sceneStoredStamp]

/-- A scene's objects are none of the bookkeeping. -/
theorem sceneObj_plain {n k : Nat} (hn : n ≤ 63) (hk : k / 256 = 0x2240 + n) : ¬ BookKey k ∧ k ≠ Ob.safeOutputState := by
  unfold BookKey Ob.safeOutputState
  omega

theorem sceneObj_idx (n : Nat) : Ob.sceneState n / 256 = 0x2240 + n ∧ Ob.sceneOwner n / 256 = 0x2240 + n
    ∧ Ob.sceneEntries n / 256 = 0x2240 + n ∧ Ob.sceneStoredStamp n / 256 = 0x2240 + n := by
  unfold Ob.sceneState Ob.sceneOwner Ob.sceneEntries Ob.sceneStoredStamp
  omega

theorem Dev.storeScene_pours (d : Dev) (rq : PourReq) (part n : Nat) (l : List RawEntry) (area : Bytes) :
    (d.storeScene rq part n l area).pours = d.pours :=
  (Dev.storeScene_within (M := 10485760) (by exact rfl) (.refl d) rq part n l area).pours rfl

theorem pourStore_runs {s : State} {hd : Hdr} {payload : Bytes} {e : Dev} {se : Session} {l : List RawEntry}
    (h : PourArrives s.dev hd payload e se l) (hs : (pourHead payload).store = true) (hn : (pourHead payload).scene ≤ 63) :
    Runs (.pourStore hd payload) s fun d => e.storeFault se (pourHead payload) l = none →
      d.reg (Ob.sceneState (pourHead payload).scene) = 1 ∧ d.reg (Ob.sceneOwner (pourHead payload).scene) = (se.part : Nat)
        ∧ d.reg (Ob.sceneEntries (pourHead payload).scene) = (l.length : Nat)
        ∧ d.reg (Ob.sceneStoredStamp (pourHead payload).scene) = (s.dev.now : Nat)
        ∧ d.blob (Ob.sceneContent (pourHead payload).scene) = e.sceneArea l ∧ d.pours = s.dev.pours := by
  refine Runs.of_onDev (show execPourStore hd payload s = onDev _ s from rfl) fun hf => ?_
  have hnow : e.now = s.dev.now := by rw [Dev.admission_go_eq h.1]; rfl
  rw [Dev.pourFrame_stores h hs]
  unfold Dev.pourStore
  rw [hf]
  dsimp only
  generalize (pourHead payload).scene = n at hn
  obtain ⟨hstate, howner, hentries, hstamp⟩ := e.each_sceneVals_reg n 1 se.part l.length e.now
  obtain ⟨kstate, kowner, kentries, kstamp⟩ := sceneObj_idx n
  refine ⟨?_, ?_, ?_, ?_, ?_, ?_⟩
  · exact (Dev.settle_reg _ _ (sceneObj_plain hn kstate).2).trans hstate
  · exact (Dev.settle_reg _ _ (sceneObj_plain hn kowner).2).trans howner
  · exact (Dev.settle_reg _ _ (sceneObj_plain hn kentries).2).trans hentries
  · exact (Dev.settle_reg _ _ (sceneObj_plain hn kstamp).2).trans (hstamp.trans (by rw [hnow]))
  · rw [Dev.settle_blob]
    exact Dev.setBlob_blob _ _ _
  · rw [Dev.settle_pours, Dev.storeScene_pours, h.pours]

/-- Settles O34: the frame is decided on its descriptor (`Dev.pourFrame_arrives`, `Dev.pourFrame_stores`), and what it decides is what
the pours hold. -/
theorem pourSubmissionsRun : Obligations.PourSubmissionsRun := fun _ _ _ _ _ _ h =>
  ⟨fun hr hs => pour_runs h hr hs, fun hs hn => pourStore_runs h hs hn, fun hr => pourRecall_runs h hr⟩

end Sys2Proof.Machine
end

section
/-! What moves a held pour on, or ends it before its flips; commits of flipped values; SceneErase (06_pours R141-R143, R151,
R155, R415). -/
namespace Sys2Proof.Machine

/-! A pour's way to its flips (Table 4). -/

theorem pourShadowLoaded_runs {s : State} {n : Nat} {p : Pour} (hp : s.dev.pour n = some p) (hstate : p.state = 2)
    (hloaded : p.loaded = none) :
    Runs (.pourShadowLoaded n) s fun d => ∀ q, d.pour n = some q → q = { p with loaded := some s.dev.now } := by
  refine Runs.of_onDev (show execPourShadowLoaded n s = onDev _ s from rfl) fun q hq => ?_
  rw [hp] at hq
  dsimp only at hq
  rw [if_pos (by simp [hstate, hloaded]), Dev.pour_congr (Dev.settle_pours _ _)] at hq
  have hset := Dev.onPour_pour_self (f := fun p => { p with loaded := some s.dev.now }) (fun _ => rfl) hp
  exact Option.some.inj ((Dev.completePours_pour hq).symm.trans hset)

@[simp] theorem Dev.armed_genReserved (d : Dev) (es : List PourEntry) : (d.armed es).genReserved = d.genReserved := by
  refine Dev.each_keeps (g := Dev.genReserved) (fun d e => ?_) es d
  unfold Dev.when
  split <;> rfl

/-- A pour held past its backlog has its generation reserved (R151). -/
theorem Dev.mem_genReserved {d : Dev} {n g : Nat} {p : Pour} (hp : d.pour n = some p) (hstate : p.state ≠ 1) (hg : p.gen = some g) :
    g ∈ d.refreshHeld.genReserved :=
  List.mem_filterMap.2 ⟨p, List.mem_of_find?_eq_some hp, (if_neg hstate).trans hg⟩

theorem pourGenerationReserved_runs {s : State} {n g : Nat} {p : Pour} (hp : s.dev.pour n = some p) (hstate : p.state = 1)
    (hg : p.gen = some g) (hfree : s.dev.genFree g = true) :
    Runs (.pourGenerationReserved n) s fun d => d.pour n = some { p with state := 2 } ∧ g ∈ d.genReserved := by
  have hset := Dev.onPour_pour_self (f := fun p => { p with state := 2 }) (fun _ => rfl) hp
  refine Runs.of_onDev (show execPourGenerationReserved n s = onDev _ s from rfl) ?_
  rw [hp]
  dsimp only
  rw [hg]
  dsimp only
  rw [if_pos (by simp [hstate, hfree])]
  refine ⟨?_, ?_⟩
  · rw [Dev.pour_congr (Dev.settle_pours _ _), Dev.pour_congr (Dev.armed_pours _ _), Dev.pour_congr (Dev.refreshHeld_pours _), hset, hg]
  · have hmem := Dev.mem_genReserved hset (show (2 : Nat) ≠ 1 by decide) hg
    simpa [Dev.settle] using hmem

theorem pourBacklogTimeout_runs {s : State} {n : Nat} {p : Pour} (hp : s.dev.pour n = some p) (hstate : p.state = 1)
    (hdue : atOrAfter s.dev.now (stampAdd p.accepted (p.timeout * 1000000 : Nat)) = true ∨ atOrAfter s.dev.now p.target = true) :
    Runs (.pourBacklogTimeout n) s fun d => d.pour n = none
      ∧ d.pours.ended.head? = some { p with state := 5, cause := Sc.pourBacklog } := by
  refine Runs.of_onDev (show execPourBacklogTimeout n s = onDev _ s from rfl) ?_
  rw [hp]
  dsimp only
  rw [if_pos (by simp only [hstate, decide_true, Bool.true_and, Bool.or_eq_true]; exact hdue)]
  have hpours : ∀ e : Dev, (s.dev.settle ((e.bump Ob.poursBacklogged).event
      { code := 0x0102, island := Isl.ctl, d1 := n, d2 := (p.gen.getD 0 : Nat) })).pours = e.pours := fun e => by
    rw [Dev.settle_pours, Dev.event_pours]
    rfl
  refine ⟨?_, ?_⟩
  · rw [Dev.pour_congr (hpours _), Dev.endPour_pour_self]
  · rw [hpours, Dev.endPour_ended _ _ hp]

/-! Writes that change the pours or a byte object. -/

/-- A write command by its effect, where what it leaves of the pours and of byte objects matters. -/
theorem SetRuns.of_pours {mk : Hdr → Option Nat → Instr} {c : Conds} {idx sub : Nat} {v : Bytes}
    {P : Dev → Session → Int → Dev → Prop} {eff : Session → Int → Dev → Dev}
    (h : ∀ hd cond s, exec (mk hd cond) s = onDev (fun d => d.writeReq c hd cond idx sub v eff) s)
    (k : ∀ d e se n d', d.Passed e → (eff se n e).Finished d' → d'.pours = (eff se n e).pours →
      (∀ b, d'.blob b = (eff se n e).blob b) → P d se n d') : SetRuns mk c idx sub v P := by
  intro s hd cond e se n hg
  refine Runs.of_onDev (h hd cond s) (k _ e se n _ (Dev.writeGate_passed hg) ?_ ?_ fun b => ?_)
  · rw [Dev.writeReq_pass hg]
    exact (Dev.finishWrite_finished _ _ _ _ _ _ _).trans (Dev.settle_finished _ _)
  · rw [Dev.writeReq_pass hg, Dev.settle_pours, Dev.finishWrite_pours]
  · rw [Dev.writeReq_pass hg, Dev.settle_blob]
    unfold Dev.blob
    rw [(Dev.finishWrite_within (M := 6291968) (by exact rfl) (.refl _) hd cond idx sub v se).blobs rfl]

theorem pourCancel_runs (v : Bytes) : SetRuns (fun hd cond => .pourCancel hd cond v) cancelConds 0x2202 9 v fun d _ n d' =>
    ∀ p, d.pour n.toNat = some p → d'.pour n.toNat = none ∧ d'.pours.ended.head? = some { p with state := 6, cause := 0 } := by
  refine SetRuns.of_pours (eff := fun _ n d => (d.endPour n.toNat 6 0).bump Ob.poursCancelled)
    (fun hd cond s => show execPourCancel hd cond v s = _ from rfl) fun d e se n d' he _ hpours _ p hp => ?_
  have hpe : e.pour n.toNat = some p := (Dev.pour_congr he.pours _).trans hp
  have hsame : d'.pours = (e.endPour n.toNat 6 0).pours := hpours
  exact ⟨(Dev.pour_congr hsame _).trans (Dev.endPour_pour_self _ _ _ _), by rw [hsame, Dev.endPour_ended _ _ hpe]⟩

theorem Dev.eraseScene_pours (d : Dev) (n : Nat) : (d.eraseScene n).pours = d.pours :=
  (Dev.each_keeps (g := Dev.pours) (f := Dev.toFlash) (fun _ _ => rfl) _ _).trans
    (Dev.each_keeps (g := Dev.pours) (f := fun d (kv : Nat × Int) => d.set kv.1 kv.2) (fun _ _ => rfl) _ d)

theorem Dev.eraseScene_blob (d : Dev) (n : Nat) : (d.eraseScene n).blob (Ob.sceneContent n) = [] :=
  (Dev.each_keeps (g := fun d => d.blob (Ob.sceneContent n)) (f := Dev.toFlash) (fun _ _ => rfl) _ _).trans (Dev.setBlob_blob _ _ _)

theorem Dev.eraseScene_reg (d : Dev) (n k : Nat) :
    (d.eraseScene n).reg k = (d.each (sceneVals n 0 0xFF 0 0) fun d kv => d.set kv.1 kv.2).reg k :=
  Dev.each_keeps (g := fun d => d.reg k) (f := Dev.toFlash) (fun _ _ => rfl) _ _

theorem sceneErase_runs (scene : Fin 64) : SetRuns (fun hd cond => .sceneErase hd cond scene) {} (0x2240 + scene) 6 [1] fun d _ _ d' =>
    d'.reg (Ob.sceneState scene) = 0 ∧ d'.reg (Ob.sceneOwner scene) = 0xFF ∧ d'.reg (Ob.sceneEntries scene) = 0
      ∧ d'.blob (Ob.sceneContent scene) = [] ∧ d'.pours = d.pours := by
  refine SetRuns.of_pours (eff := fun _ _ d => d.eraseScene scene) (fun hd cond s => show execSceneErase hd cond scene s = _ from rfl)
    fun d e se n d' he hf hpours hblob => ?_
  obtain ⟨hstate, howner, hentries, -⟩ := e.each_sceneVals_reg scene 0 0xFF 0 0
  obtain ⟨kstate, kowner, kentries, -⟩ := sceneObj_idx scene
  have hreg : ∀ k, k / 256 = 0x2240 + (scene : Nat) → d'.reg k = (e.eraseScene scene).reg k := fun k hk => by
    obtain ⟨hbook, hsafe⟩ := sceneObj_plain (by omega) hk
    exact hf.reg k hbook hsafe
  refine ⟨?_, ?_, ?_, ?_, ?_⟩
  · rw [hreg _ kstate, Dev.eraseScene_reg]
    exact hstate
  · rw [hreg _ kowner, Dev.eraseScene_reg]
    exact howner
  · rw [hreg _ kentries, Dev.eraseScene_reg]
    exact hentries
  · rw [hblob, Dev.eraseScene_blob]
  · rw [hpours, Dev.eraseScene_pours, he.pours]

/-! The commit of what a pour has flipped (R415). -/

theorem pourCommitDone_runs {s : State} {n uid : Nat} {c : PourCommit}
    (hc : (s.dev.pours.commits.find? fun c => c.handle == n && c.uid == uid) = some c) :
    Runs (.pourCommitDone n uid) s fun d => d.pours.commits = s.dev.pours.commits.erase c
      ∧ d.reg Ob.persistCommits = wrapTy (keyTy Ob.persistCommits) (s.dev.reg Ob.persistCommits + 1)
      ∧ ∀ k v, c.vals = [(k, v)] → d.flashVal k = v := by
  refine Runs.of_onDev (show execPourCommitDone n uid s = onDev _ s from rfl) ?_
  rw [hc]
  dsimp only
  have hkeeps : ∀ {β : Type} (g : Dev → β) (e : Dev), (∀ d x, g (Dev.toFlash d x) = g d) → g (e.each c.vals Dev.toFlash) = g e :=
    fun g e h => Dev.each_keeps h _ e
  refine ⟨?_, ?_, fun k v hv => ?_⟩
  · rw [Dev.settle_pours]
    exact congrArg Pours.commits (hkeeps Dev.pours _ fun _ _ => rfl)
  · rw [Dev.settle_reg _ _ (by decide), Dev.reg_bump, if_pos rfl, hkeeps (fun d => d.reg Ob.persistCommits) _ fun _ _ => rfl]
    rfl
  · have hflash : ∀ e : Dev, (s.dev.settle e).flashVal k = e.flashVal k := fun e => by
      unfold Dev.flashVal
      rw [((Dev.settle_within (M := 0) (by exact rfl) (.refl e) s.dev).flash rfl).1]
    rw [hflash, hv]
    exact Dev.toFlash_flashVal _ k v

/-- Settles O35, command by command. -/
theorem pourProgressRuns : Obligations.PourProgressRuns :=
  ⟨fun _ _ _ hp hstate hloaded => pourShadowLoaded_runs hp hstate hloaded,
    fun _ _ _ _ hp hstate hg hfree => pourGenerationReserved_runs hp hstate hg hfree,
    fun _ _ _ hp hstate hdue => pourBacklogTimeout_runs hp hstate hdue, pourCancel_runs,
    fun _ _ _ _ hc => pourCommitDone_runs hc, sceneErase_runs⟩

end Sys2Proof.Machine
end

section
/-! A flip of a pulse output, the end of ramps, and the drop of a mix lane (06_pours R146-R150, 13_mix_engine R275). -/
namespace Sys2Proof.Machine

/-! The flip of a unit by a pour of one value. -/

theorem mixKind_below {k : Nat} (h : k / 256 < 0x4400) : mixKind k = none := by
  unfold mixKind
  dsimp only
  rw [if_neg (by omega), if_neg (by omega), if_neg (by omega), if_neg (by omega), if_neg (by omega)]

theorem rampsAt_below (d : Dev) {en : PourEntry} (h : en.key / 256 < 0x4400) : rampsAt d en = false := by
  unfold rampsAt
  rw [mixKind_below h]

theorem Dev.filterWaits_below (d : Dev) (t : Nat) {en : PourEntry} (h : en.key / 256 < 0x4400) : d.filterWaits t en = false := by
  unfold Dev.filterWaits
  rw [mixKind_below h]
  rfl

/-- One object outside MIX takes its value as a write's would, and its version rises. -/
theorem Dev.takeValues_below {d0 d : Dev} {p : Pour} {uid t m : Nat} {en : PourEntry} (h : en.key / 256 < 0x4400)
    (huid : uid < 0x10000) :
    d0.takeValues d p uid t m [en] = d0.written ((d.set en.key en.value).bumpVer en.key) en.key t := by
  have hplay : ¬ 0x4758 ≤ en.key / 256 := by omega
  have hfeed : ¬ 0x10000 ≤ uid := by omega
  simp [Dev.takeValues, Dev.each, Dev.when, hplay, hfeed, rampsAt_below d0 h, mixKind_below h, firsts]

theorem Dev.flipGeneration_none (d : Dev) {p : Pour} (h : p.gen = none) (uid : Nat) : d.flipGeneration p uid = d := by
  unfold Dev.flipGeneration
  rw [h]

/-- The entry of the report for the flip of a unit that is no feed. -/
def flipReport (x : PourPart) (t flags rampEnd : Nat) : PourRep :=
  { uid := x.uid, island := x.island, unit := x.unit, flags := flags, flip := t, rampEnd := rampEnd }

/-- The pour once it has flipped at a unit. -/
def Pour.flipped (x : PourPart) (rep : PourRep) (p : Pour) : Pour :=
  { p with state := 3, parts := p.parts.filter fun y => y.uid != x.uid, report := (p.report ++ [rep]).take 128 }

/-- The flip of a pour's only value, outside MIX and no generation's: it is taken, the pour moves on, and it is committed. -/
theorem Dev.flipUnit_single {d : Dev} {p : Pour} {x : PourPart} {en : PourEntry} (t : Nat) (engine : Option (Fin 8))
    (hentries : p.entries = [en]) (huid : en.uid = x.uid) (hidx : en.key / 256 < 0x4400) (hunit : x.uid < 0x10000)
    (hgen : p.gen = none) :
    ∃ flags rampEnd vals, d.flipUnit p x t engine
      = (((d.written ((d.set en.key en.value).bumpVer en.key) en.key t).onPour p.handle
          (Pour.flipped x (flipReport x t flags rampEnd))).refreshHeld).commitFlip p.handle x.uid vals := by
  have hfeed : ¬ 0x10000 ≤ x.uid := by omega
  have hes : lastStand (p.entries.filter fun e => e.uid == x.uid) = [en] := by
    simp [hentries, huid, lastStand]
  unfold Dev.flipUnit
  dsimp only
  rw [hes, if_neg hfeed, d.flipGeneration_none hgen]
  simp only [List.filter_cons, List.filter_nil, d.filterWaits_below t hidx, Bool.not_false, if_true, Bool.false_eq_true, if_false]
  rw [Dev.takeValues_below hidx hunit]
  exact ⟨_, _, _, rfl⟩

theorem Dev.commitFlip_valVers (d : Dev) (n uid : Nat) (vals : List (Nat × Int)) (k : Nat) :
    (d.commitFlip n uid vals).valVers k = d.valVers k := by
  unfold Dev.commitFlip
  dsimp only
  repeat' split
  all_goals rfl

/-- A commit of flipped values marks its pour alone. -/
theorem Dev.commitFlip_single {d : Dev} {q : Pour} (h : d.pours.live = [q]) (uid : Nat) (vals : List (Nat × Int)) :
    ∃ b, (d.commitFlip q.handle uid vals).pours.live = [{ q with counted := b }] := by
  unfold Dev.commitFlip
  dsimp only
  repeat' split
  · exact ⟨q.counted, h⟩
  · exact ⟨q.counted, h⟩
  · refine ⟨true, ?_⟩
    show (d.pours.live.map _) = _
    rw [h]
    simp
  · exact ⟨q.counted, h⟩

theorem Dev.refreshHeld_valVers (d : Dev) {k : Nat} (hk : ¬ CancelKey k) : d.refreshHeld.valVers k = d.valVers k := by
  obtain ⟨hbook, hheld, -⟩ := not_or.1 hk |>.imp_right not_or.1
  have halive : k ≠ Ob.generationsAlive := fun h => hbook (h ▸ by decide)
  exact (Dev.set_valVers _ _ halive).trans (Dev.set_valVers _ _ hheld)

/-- The pulse outputs' objects are none that the flips and ends of pours count. -/
theorem pulseKey_plain {k : Nat} (hlo : 0x2130 ≤ k / 256) (hhi : k / 256 ≤ 0x213C) : ¬ EndKey k ∧ k ≠ Ob.safeOutputState := by
  unfold EndKey CancelKey BookKey Ob.poursHeld Ob.poursCancelled Ob.poursApplied Ob.poursLate Ob.deadlineLateCount
    Ob.safeOutputState
  omega

/-- Once what is finished has ended, the only pour held is still readable, with its report. -/
theorem Dev.completePours_single {d : Dev} {q : Pour} (h : d.pours.live = [q]) :
    ∃ r, d.completePours.pourAny q.handle = some r ∧ r.parts = q.parts ∧ r.report = q.report := by
  have hq : d.pour q.handle = some q := by simp [Dev.pour, h]
  unfold Dev.completePours
  rw [h]
  show ∃ r, Dev.pourAny (match d.pour q.handle with | none => d | some p => _) q.handle = some r ∧ _
  rw [hq]
  dsimp only
  split
  · obtain ⟨t, ht⟩ := d.applyPour_pours q
    have hset := Dev.onPour_pour_self (f := fun p => { p with applied := t }) (fun _ => rfl) hq
    rw [Dev.endPour_pours _ _ hset] at ht
    refine ⟨{ q with applied := t, state := 4, cause := 0 }, ?_, rfl, rfl⟩
    unfold Dev.pourAny
    rw [ht]
    simp [Dev.onPour, Dev.onPours, h]
  · exact ⟨q, by simp [Dev.pourAny, h], rfl, rfl⟩

/-- A unit that is no feed flips the only pour held where it is due. -/
theorem Dev.flipUid_single {d : Dev} {p : Pour} {x : PourPart} {t : Nat} (engine : Option (Fin 8)) (hlive : d.pours.live = [p])
    (hparts : p.parts = [x]) (hstate : p.state ≠ 1) (hunit : x.uid < 0x10000) (hflip : d.flipAt p x (some x.island) = some t) :
    d.flipUid x.uid engine = d.flipUnit p x t engine := by
  have hfeed : ¬ 0x10000 ≤ x.uid := by omega
  have hp : d.pour p.handle = some p := by simp [Dev.pour, hlive]
  simp [Dev.flipUid, hlive, pourOrder, insertPour, Dev.each, hstate, hparts, PourPart.at, hp, hfeed, hflip]

theorem Dev.flipNow_pulse (d : Dev) {uid : Nat} (hlo : 0x2130 ≤ uid) (hhi : uid ≤ 0x213C) (engine : Option (Fin 8)) :
    d.flipNow uid engine = true := by
  unfold Dev.flipNow
  rw [if_neg (by omega), if_neg (by omega), if_neg (by omega)]

/-- A pulse output's object that a pour sets: its value, its version and the pours, whatever its change sets off. -/
theorem Dev.written_pulse (d : Dev) {k : Nat} (v : Int) (t : Nat) (hlo : 0x2130 ≤ k / 256) (hhi : k / 256 ≤ 0x213C) :
    (d.written ((d.set k v).bumpVer k) k t).reg k = v ∧ (d.written ((d.set k v).bumpVer k) k t).ver k = (d.ver k + 1) % 65536
      ∧ (d.written ((d.set k v).bumpVer k) k t).pours = d.pours := by
  have hbook : ¬ BookKey k := fun h => (EndKey.not_iff.1 (pulseKey_plain hlo hhi).1).1 (.inl h)
  have hidx : idxOf k < 0x3000 := by unfold idxOf; omega
  refine ⟨?_, ?_, ?_⟩
  · rw [Dev.written_own _ _ _ hbook hidx, Dev.bumpVer_reg, Dev.reg_set, if_pos rfl]
  · have hvers : (d.written ((d.set k v).bumpVer k) k t).ver k = ((d.set k v).bumpVer k).ver k := by
      unfold Dev.ver
      rw [Dev.written_vers]
    exact hvers.trans (Dev.ver_bumpVer _ _)
  · exact (Dev.written_within (M := 19920646) (by exact rfl) (.refl _) d k t).pours rfl

theorem pourFlip_runs {s : State} {p : Pour} {x : PourPart} {en : PourEntry} {t : Nat} (hlive : s.dev.pours.live = [p])
    (hparts : p.parts = [x]) (hentries : p.entries = [en]) (hlo : 0x2130 ≤ x.uid) (hhi : x.uid ≤ 0x213C) (huid : en.uid = x.uid)
    (hkey : en.key / 256 = x.uid) (hstate : p.state = 2) (hgen : p.gen = none) (hreport : p.report = [])
    (hflip : s.dev.flipAt p x (some x.island) = some t) :
    Runs (.pourFlip x.uid none) s fun d => d.reg en.key = en.value ∧ d.ver en.key = (s.dev.ver en.key + 1) % 65536
      ∧ ∃ q, d.pourAny p.handle = some q ∧ q.parts = [] ∧ q.report.map (fun r => (r.uid, r.island, r.unit, r.flip))
        = [(x.uid, x.island, x.unit, t)] := by
  obtain ⟨hend, hsafe⟩ := pulseKey_plain (k := en.key) (by omega) (by omega)
  obtain ⟨hreg, hver, hpours⟩ := s.dev.written_pulse (k := en.key) en.value t (by omega) (by omega)
  obtain ⟨flags, rampEnd, vals, hunit⟩ := Dev.flipUnit_single (d := s.dev) t none hentries huid (by omega) (by omega) hgen
  rw [← Dev.flipUid_single none hlive hparts (by omega) (by omega) hflip] at hunit
  generalize s.dev.written ((s.dev.set en.key en.value).bumpVer en.key) en.key t = e at hreg hver hpours hunit
  generalize hrep : flipReport x t flags rampEnd = rep at hunit
  have hheld : ((e.onPour p.handle (Pour.flipped x rep)).refreshHeld).pours.live = [p.flipped x rep] := by
    rw [Dev.refreshHeld_pours]
    show e.pours.live.map _ = _
    rw [hpours, hlive]
    simp
  obtain ⟨b, hflipped⟩ := Dev.commitFlip_single hheld x.uid vals
  obtain ⟨q, hq, hqparts, hqreport⟩ := Dev.completePours_single hflipped
  have hsame : (s.dev.settle (s.dev.flipAll [x.uid] none)).valVers en.key = e.valVers en.key := by
    rw [Dev.settle_valVers _ _ hsafe]
    refine (Dev.completePours_valVers _ hend).trans ?_
    show (s.dev.flipUid x.uid none).valVers en.key = _
    rw [hunit, Dev.commitFlip_valVers, Dev.refreshHeld_valVers _ (EndKey.not_iff.1 hend).1]
    rfl
  obtain ⟨hsameReg, hsameVer⟩ := Dev.valVers_ver hsame
  refine Runs.of_onDev (show execPourFlip x.uid none s = onDev _ s from rfl) ?_
  rw [if_pos (s.dev.flipNow_pulse hlo hhi none)]
  refine ⟨hsameReg.trans hreg, hsameVer.trans hver, q, ?_, ?_, ?_⟩
  · unfold Dev.pourAny
    rw [Dev.settle_pours]
    show (Dev.completePours (s.dev.flipUid x.uid none)).pourAny p.handle = _
    rw [hunit]
    exact hq
  · rw [hqparts]
    simp [Pour.flipped, hparts]
  · rw [hqreport, ← hrep]
    simp [Pour.flipped, hreport, flipReport]

/-! The end of ramps (R149, R150). -/

theorem Dev.completePours_mix (d : Dev) : d.completePours.mix = d.mix :=
  (Dev.completePours_within (M := 1048603) (by exact rfl) (.refl d)).mix rfl

theorem Dev.endFade_mix (d : Dev) (key : Nat) :
    (d.endFade key).mix.ramps = d.mix.ramps ∧ (d.endFade key).mix.filters = d.mix.filters := by
  refine Prod.mk.inj ?_
  unfold Dev.endFade
  refine Dev.each_keeps (g := fun d : Dev => (d.mix.ramps, d.mix.filters)) (fun d k => ?_) _ d
  rfl

theorem rampEnd_runs {s : State} {key : Nat} (hwait : (s.dev.mix.filters.find? fun w => w.key == key) = none) :
    Runs (.rampEnd key) s fun d =>
      d.mix.ramps = s.dev.mix.ramps.filter fun y => !(y.key == key && atOrAfter s.dev.now y.stop) := by
  have hsettle : ∀ e : Dev, (s.dev.settle e).mix = e.mix := fun e =>
    (Dev.settle_within (M := 0) (by exact rfl) (.refl e) s.dev).mix rfl
  refine Runs.of_onDev (show execRampEnd key s = onDev _ s from rfl) ?_
  rw [hsettle]
  dsimp only
  split
  · next hpast =>
    refine (List.filter_eq_self.2 fun y hy => ?_).symm
    rw [Bool.not_eq_true', Bool.eq_false_iff]
    exact List.filter_eq_nil_iff.1 hpast y hy
  · obtain ⟨hramps, hfilters⟩ := Dev.endFade_mix (s.dev.onMix fun x => { x with ramps := x.ramps.filter fun y =>
      !(y.key == key && atOrAfter s.dev.now y.stop) }) key
    rw [hfilters]
    rw [show (s.dev.onMix _).mix.filters = s.dev.mix.filters from rfl, hwait]
    dsimp only
    rw [Dev.completePours_mix, hramps]
    rfl

/-! The drop of a mix lane (R275). -/

theorem bit_sub_two_pow {v n : Nat} (h : bit v n = true) : bit (v - 2 ^ n) n = false := by
  have hdiv : (v - 2 ^ n) / 2 ^ n = v / 2 ^ n - 1 := by simpa using Nat.sub_mul_div v (2 ^ n) 1
  simp only [bit, beq_iff_eq, beq_eq_false_iff_ne] at h ⊢
  omega

/-- The lanes and the strips in use once a lane in use is dropped. -/
theorem Dev.dropLane_reg {d : Dev} {lane k : Nat} (h : bit (d.nat Ob.lanesInUse) lane = true) (hk : ¬ BookKey k) :
    (d.dropLane lane).reg k = ((d.setN Ob.lanesInUse (d.nat Ob.lanesInUse - 2 ^ lane)).setN Ob.stripsInUse
      (d.nat Ob.stripsInUse - 96)).reg k := by
  unfold Dev.dropLane
  rw [h, Bool.not_true, if_neg Bool.false_ne_true]
  dsimp only
  refine (Dev.each_keeps (g := fun d => d.reg k) (fun d j => ?_) _ _).trans (Dev.event_reg _ _ hk)
  split
  · exact Dev.each_keeps (g := fun d => d.reg k) (fun d _ => Dev.event_reg _ _ hk) _ d
  · rfl

theorem mixLaneDrop_runs {s : State} {lane : Fin 4} (hlane : bit (s.dev.nat Ob.lanesInUse) lane = true) :
    Runs (.mixLaneDrop lane) s fun d => bit (d.nat Ob.lanesInUse) lane = false
      ∧ d.nat Ob.stripsInUse = s.dev.nat Ob.stripsInUse - 96 := by
  refine Runs.of_onDev (show execMixLaneDrop lane s = onDev _ s from rfl) ?_
  have hreg : ∀ k, ¬ EndKey k → k ≠ Ob.safeOutputState → (s.dev.settle ((s.dev.dropLane lane).refreshPours)).reg k
      = ((s.dev.setN Ob.lanesInUse (s.dev.nat Ob.lanesInUse - 2 ^ (lane : Nat))).setN Ob.stripsInUse
        (s.dev.nat Ob.stripsInUse - 96)).reg k := fun k hk hs => by
    rw [Dev.settle_reg _ _ hs, (Dev.valVers_ver (Dev.refreshPours_valVers _ hk)).1]
    exact Dev.dropLane_reg hlane fun h => (EndKey.not_iff.1 hk).1 (.inl h)
  have hlanes : (s.dev.settle ((s.dev.dropLane lane).refreshPours)).nat Ob.lanesInUse = s.dev.nat Ob.lanesInUse - 2 ^ (lane : Nat) := by
    rw [Dev.nat_congr (hreg _ (by decide) (by decide))]
    simp [Dev.nat]
  have hstrips : (s.dev.settle ((s.dev.dropLane lane).refreshPours)).nat Ob.stripsInUse = s.dev.nat Ob.stripsInUse - 96 := by
    rw [Dev.nat_congr (hreg _ (by decide) (by decide))]
    simp [Dev.nat]
  exact ⟨by rw [hlanes]; exact bit_sub_two_pow hlane, hstrips⟩

/-- Settles O36: the end of the pours that a flip, a ramp or a lane finishes moves nothing but its own counts
(`Dev.completePours_valVers`). -/
theorem pourFlipsRun : Obligations.PourFlipsRun :=
  ⟨fun _ _ _ _ _ hlive hparts hentries hlo hhi huid hkey hstate hgen hreport hflip =>
      pourFlip_runs hlive hparts hentries hlo hhi huid hkey hstate hgen hreport hflip,
    fun _ _ hwait => rampEnd_runs hwait, fun _ _ hlane => mixLaneDrop_runs hlane⟩

end Sys2Proof.Machine
end

section
/-! The stream slots: what their operations leave of a slot's run-time state, and the way of an item to its paths
(07_sensor_ingest R159, R161, R180, R181). -/
namespace Sys2Proof.Machine

/-! The run-time state of a slot. -/

@[simp] theorem Dev.slot_onSlot (d : Dev) (s : Nat) (f : SlotRt → SlotRt) (j : Nat) :
    (d.onSlot s f).slot j = if j = s then f (d.slot s) else d.slot j := Dev.slot_setSlot _ _ _ _

theorem Dev.slot_congr {d e : Dev} (h : e.slots = d.slots) (j : Nat) : e.slot j = d.slot j := by
  unfold Dev.slot
  rw [h]

theorem Dev.settle_slots (d0 d : Dev) : (d0.settle d).slots = d.slots :=
  (Dev.settle_within (M := 0) rfl (.refl d) d0).slots rfl

theorem Dev.settle_slot (d0 d : Dev) (j : Nat) : (d0.settle d).slot j = d.slot j := Dev.slot_congr (Dev.settle_slots d0 d) j

theorem Dev.when_slots {f : Dev → Dev} (h : ∀ d, (f d).slots = d.slots) (b : Bool) (d : Dev) : (d.when b f).slots = d.slots := by
  unfold Dev.when
  split
  · exact h d
  · rfl

/-- An object of slot `s` is no bookkeeping object and not SafeOutputState. -/
theorem slotKey_plain {s k : Nat} (hs : s < 32) (hk : k / 256 = 0x3000 + s) : ¬ BookKey k ∧ k ≠ Ob.safeOutputState := by
  unfold BookKey Ob.safeOutputState
  omega

theorem kindParam_idx {s n : Nat} (hn : n ≤ 11) : Ob.slotKindParam s n / 256 = 0x3000 + s := by
  unfold Ob.slotKindParam
  omega

/-- The settings of a slot, where bookkeeping alone has moved. -/
theorem Dev.kp_booked {d e : Dev} {i n : Nat} (h : Booked d e) (hi : i < 32) (hn : n ≤ 11) : e.kp i n = d.kp i n :=
  Dev.nat_congr (h _ (slotKey_plain hi (kindParam_idx hn)).1)

theorem Dev.refreshSlot_reg (d : Dev) (s : Nat) {k : Nat} (hk : k ≠ Ob.slotState s) : (d.refreshSlot s).reg k = d.reg k := by
  unfold Dev.refreshSlot
  rw [Dev.reg_set, if_neg hk]

/-- What a slot found for a source is. -/
theorem Dev.slotFor_spec {d : Dev} {kind i : Nat} {f : Nat → Bool} (h : d.slotFor kind f = some i) :
    i < 32 ∧ d.nat (Ob.slotSourceKind i) = kind ∧ d.slotOn i = true ∧ f i = true := by
  have hmem := List.mem_range.1 (List.mem_of_find?_eq_some h)
  have hall := List.find?_some h
  simp only [Bool.and_eq_true, beq_iff_eq] at hall
  obtain ⟨⟨hkind, hon⟩, hf⟩ := hall
  exact ⟨hmem, hkind, hon, hf⟩

/-! Handovers, events and violations leave the slots, and of the registers all but their own counts. -/

theorem Dev.handover_slots (d : Dev) (point iface src num : Nat) (f : Found) : (d.handover point iface src num f).slots = d.slots :=
  (Dev.handover_within (M := 0) rfl (.refl d) point iface src num f).slots rfl

theorem Dev.event_slots (d : Dev) (ev : Ev) : (d.event ev).slots = d.slots :=
  (Dev.event_within (M := 0) rfl (.refl d) ev).slots rfl

theorem Dev.slotEvent_slots (d : Dev) (s code : Nat) : (d.slotEvent s code).slots = d.slots := d.event_slots _

theorem Dev.slotEvent_reg (d : Dev) (s code : Nat) {k : Nat} (hk : ¬ BookKey k) : (d.slotEvent s code).reg k = d.reg k :=
  d.event_reg _ hk

theorem Dev.slotViolation_slots (d : Dev) (s code : Nat) : (d.slotViolation s code).slots = d.slots :=
  (Dev.slotViolation_within (M := 33554432) rfl (.refl d) s code).slots rfl

theorem Dev.slotDiscard_slots (d : Dev) (s : Nat) : (d.slotDiscard s).slots = d.slots :=
  (Dev.slotDiscard_within (M := 33554432) rfl (.refl d) s).slots rfl

/-- A slot has had an item: it is not stale, and the item came now. -/
def SlotRt.fed (now : Nat) (r : SlotRt) : SlotRt := { r with stale := false, lastAt := now }

theorem Dev.onSlot_slots_congr {d e : Dev} (h : e.slots = d.slots) (s : Nat) (f : SlotRt → SlotRt) :
    (e.onSlot s f).slots = (d.onSlot s f).slots := by
  unfold Dev.onSlot Dev.setSlot
  rw [Dev.slot_congr h, h]

/-- An item on its way to its paths feeds its slot, and leaves the slots otherwise. -/
theorem Dev.routeItem_slots (d : Dev) (s : Nat) (cfg : SlotCfg) (it : Item) :
    (d.routeItem s cfg it).slots = (d.onSlot s (SlotRt.fed d.ext)).slots := by
  unfold Dev.routeItem
  extract_lets d1 d2 d3 d4
  have h2 : Within 0 d d2 := .when (.when (Dev.setN_within .zero (Dev.bump_within .zero (Dev.nextSeq_within .zero (.refl d) _ _) _) _ _)
    fun d => Dev.bump_within .zero (.refl d) _) fun d => Dev.bump_within .zero (.refl d) _
  have h4 : Within 0 d3 d4 := .each (.refl d3) fun d k => .when (.refl d) fun d => Dev.toStage_within .zero (.refl d) _ _
  have hext : d2.ext = d.ext := by
    unfold Dev.ext
    rw [h2.tl rfl]
  have hfed : d3.slots = (d.onSlot s (SlotRt.fed d.ext)).slots := by
    rw [← hext]
    exact Dev.onSlot_slots_congr (h2.slots rfl) s (SlotRt.fed d2.ext)
  split
  · exact hfed
  · exact ((Within.when h4 fun d => Dev.enqueue_within .zero (Dev.absentDrop_within .zero (.refl d) _) _ _).slots rfl).trans hfed

theorem Dev.routeItem_slots_of_within {d e : Dev} (h : Within 0 d e) (s : Nat) (cfg : SlotCfg) (it : Item) :
    (e.routeItem s cfg it).slots = (d.onSlot s (SlotRt.fed d.ext)).slots := by
  have hext : e.ext = d.ext := by
    unfold Dev.ext
    rw [h.tl rfl]
  rw [Dev.routeItem_slots, hext]
  exact Dev.onSlot_slots_congr (h.slots rfl) s _

/-- The item of a slot as it is judged, and the device with the log of its lateness. -/
def Dev.slotJudged (d : Dev) (s : Nat) (cfg : SlotCfg) (it : Item) (data : Bytes) : Item × Dev :=
  let p := d.withPayload { it with srcKind := 1, srcNum := s, prio := 3, seq := d.seqOf 1 s, gen := (d.slot s).gen,
                                   genValid := true, producer := d.slotIsl s, entry := cfg } data
  p.2.judgeLate p.1 (decide ((d.ingestBound s : Int) < stampDiff d.now it.subject))

theorem Dev.classify_eq (d : Dev) (s : Nat) (cfg : SlotCfg) (it : Item) (data : Bytes) : d.classify s cfg it data
    = if d.slotQuarantined s then d.slotDiscard s else (d.slotJudged s cfg it data).2.routeItem s cfg (d.slotJudged s cfg it data).1 := rfl

theorem Dev.slotJudged_within (d : Dev) (s : Nat) (cfg : SlotCfg) (it : Item) (data : Bytes) : Within 0 d (d.slotJudged s cfg it data).2 :=
  Dev.judgeLate_snd .zero (Dev.withPayload_snd .zero (.refl d) _ _) _ _

/-- A classified item is discarded, or feeds its slot. -/
theorem Dev.classify_slots (d : Dev) (s : Nat) (cfg : SlotCfg) (it : Item) (data : Bytes) :
    (d.classify s cfg it data).slots = d.slots ∨ (d.classify s cfg it data).slots = (d.onSlot s (SlotRt.fed d.ext)).slots := by
  rw [Dev.classify_eq]
  split
  · exact .inl (d.slotDiscard_slots s)
  · exact .inr (Dev.routeItem_slots_of_within (d.slotJudged_within s cfg it data) s cfg _)

/-- What an item's coming does not move of a slot stands once one is classified. -/
theorem Dev.classify_slot {β : Type} {g : SlotRt → β} (hg : ∀ now r, g (SlotRt.fed now r) = g r) (d : Dev) (s : Nat) (cfg : SlotCfg)
    (it : Item) (data : Bytes) (j : Nat) : g ((d.classify s cfg it data).slot j) = g (d.slot j) := by
  rcases d.classify_slots s cfg it data with h | h
  · rw [Dev.slot_congr h]
  · rw [Dev.slot_congr h, Dev.slot_onSlot]
    split
    · next hj => rw [hg, hj]
    · rfl

theorem Dev.slotStops_slot (d : Dev) (s : Nat) : (d.slotStops s).slot s = { gen := (d.slot s).gen } :=
  (d.slot_setSlot s _ s).trans (if_pos rfl)

/-- What a stopped slot has at rest stands past the slot's flip boundary, if it was at rest before. -/
theorem Dev.slotBoundary_slot {β : Type} {g : SlotRt → β} {d : Dev} {s : Nat} {x : β} (hrest : ∀ n, g { gen := n } = x)
    (h : g (d.slot s) = x) : g ((d.slotBoundary s).slot s) = x := by
  unfold Dev.slotBoundary
  split
  · rw [Dev.slotStops_slot, hrest]
  · exact h

end Sys2Proof.Machine
end

section
/-! CSI-2 frames, the lanes of a camera's port, and staleness (07_sensor_ingest R168-R171, R181). -/
namespace Sys2Proof.Machine

theorem Dev.refreshLatency_slot (d : Dev) (s j : Nat) : (d.refreshLatency s).slot j = d.slot j := rfl

/-- A frame that should have carried its exposure and did not is at most marked, and the event leaves the slots and the settings. -/
theorem Dev.missExposure_spec (d : Dev) (s : Nat) (f : CsiFrame) :
    (∃ u, (d.missExposure s f).1 = { f with unmodelled := u }) ∧ (d.missExposure s f).2.slots = d.slots
      ∧ Booked d (d.missExposure s f).2 := by
  unfold Dev.missExposure
  split
  · exact ⟨⟨true, rfl⟩, d.event_slots _, Dev.event_booked (.refl d) _⟩
  · exact ⟨⟨f.unmodelled, rfl⟩, rfl, .refl d⟩

/-- A frame marked as a check of its packets tells (R180). -/
def CsiFrame.marked (f : CsiFrame) (o : Integ) : CsiFrame :=
  { f with bad := f.bad || decide (o = .bad), unproven := f.unproven || decide (o = .unproven) }

/-- A packet marks its frame, and its handover leaves the slots and the settings. -/
theorem Dev.csiPacket_spec (d : Dev) (i : Nat) (f : CsiFrame) (p : CsiPacket) :
    (d.csiPacket i f p).1 = f.marked ({ p.found with hasCoc := false } : Found).outcome
      ∧ (d.csiPacket i f p).2.slots = d.slots ∧ Booked d (d.csiPacket i f p).2 :=
  ⟨rfl, d.handover_slots _ _ _ _ _, Dev.handover_booked (.refl d) _ _ _ _ _ (by decide)⟩

theorem Dev.closeFrame_frame (d : Dev) (s : Nat) : ((d.closeFrame s).slot s).frame = none := by
  unfold Dev.closeFrame
  split
  · assumption
  · split
    · rw [Dev.slot_congr (Dev.slotDiscard_slots _ s), Dev.slot_onSlot, if_pos rfl]
    · next f _ _ =>
      generalize d.missExposure s f = m
      obtain ⟨f', d1⟩ := m
      have hcount : ∀ b e, (Dev.when e b fun d => (d.bump (Ob.slotItemsTruncated s)).slotViolation s 0x3020).slots = e.slots :=
        fun b e => Dev.when_slots (f := fun d => (d.bump (Ob.slotItemsTruncated s)).slotViolation s 0x3020)
          (fun d => Dev.slotViolation_slots _ _ _) b e
      dsimp only
      rw [Dev.classify_slot (g := SlotRt.frame) fun _ _ => rfl, Dev.slot_congr (hcount _ _), Dev.slot_onSlot, if_pos rfl]

theorem csiFrameEnd_runs {s : State} {port : Fin 6} {vc : Fin 4} {i : Nat} (hquiet : s.dev.quiesced Isl.csi = false)
    (hslot : s.dev.csiSlot port vc = some i) : Runs (.csiFrameEnd port vc) s fun d => (d.slot i).frame = none := by
  refine Runs.of_onDev (show execCsiFrameEnd port vc s = onDev _ s from rfl) ?_
  rw [hquiet, hslot, Dev.settle_slot]
  exact Dev.slotBoundary_slot (g := SlotRt.frame) (fun _ => rfl) (Dev.closeFrame_frame _ _)

theorem Dev.csiCut_of_slot {d : Dev} {port vc j : Nat} (h : d.csiSlot port vc = some j) :
    (d.csiCut port vc).1 = (d.slot j).frame.isSome := by
  unfold Dev.csiCut
  rw [h]

theorem Dev.csiFrameStart_frame {d : Dev} {port vc i : Nat} (cut : Bool) (hpend : kvGet d.csiPend port = none)
    (hslot : d.csiSlot port vc = some i) (hlanes : d.nat (Ob.slotLanesInUse i) ≠ 0) :
    ((d.csiFrameStart port vc cut).slot i).frame
      = some { fs := d.stampIn Isl.csi, exposure := d.kp i 6, defect := cut, cfg := d.slotCfg i } := by
  obtain ⟨-, -, hon, -⟩ := Dev.slotFor_spec hslot
  have hlanes' : d.applyLanes port = d := by
    unfold Dev.applyLanes
    rw [hpend]
  unfold Dev.csiFrameStart
  rw [hlanes']
  dsimp only
  rw [hslot]
  simp [hlanes, hon]

theorem csiFrameStart_runs {s : State} {port : Fin 6} {vc : Fin 4} {c : Bool × Dev} {e : Dev} {i : Nat} (hrun : s.dev.running = true)
    (hquiet : s.dev.quiesced Isl.csi = false) (hcut : c = s.dev.csiCut port vc)
    (hflip : e = c.2.flipSlots (slotHit 1 fun _ sel => sel == (port : Nat) + 16 * vc)) (hpend : kvGet e.csiPend port = none)
    (hslot : e.csiSlot port vc = some i) (hlanes : e.nat (Ob.slotLanesInUse i) ≠ 0) :
    Runs (.csiFrameStart port vc) s fun d =>
      (d.slot i).frame = some { fs := e.stampIn Isl.csi, exposure := e.kp i 6, defect := c.1, cfg := e.slotCfg i }
        ∧ ∀ j, s.dev.csiSlot port vc = some j → c.1 = (s.dev.slot j).frame.isSome := by
  refine Runs.of_onDev (show execCsiFrameStart port vc s = onDev _ s from rfl) ⟨?_, fun j hj => hcut ▸ Dev.csiCut_of_slot hj⟩
  rw [hrun, hquiet, ← hcut]
  dsimp only
  rw [← hflip, Dev.settle_slot]
  exact Dev.csiFrameStart_frame c.1 hpend hslot hlanes

theorem csiEmbeddedLine_runs {s : State} {port : Fin 6} {vc : Fin 4} {i : Nat} {f : CsiFrame} {line : CsiPacket}
    (hquiet : s.dev.quiesced Isl.csi = false) (hslot : s.dev.csiSlot port vc = some i) (hframe : (s.dev.slot i).frame = some f)
    (hheader : line.headerOk = true) (hcarries : s.dev.kp i 5 = 1) (hexposed : f.exposed = false) (hmodelled : f.unmodelled = false)
    (hlines : f.lines = 0) (hfield : s.dev.kp i 7 % 65536 + bits (s.dev.kp i 7) 18 16 ≤ line.data.length) :
    Runs (.csiEmbeddedLine port vc line) s fun d =>
      let x := fieldAt line.data (s.dev.kp i 7 % 65536) (bits (s.dev.kp i 7) 18 16) (!bit (s.dev.kp i 7) 20)
      let r : Found := { line.found with hasCoc := false }
      (d.slot i).frame = some { f with exposed := true, exposure := (roundDiv (x * s.dev.kp i 8 : Nat) 256).toNat,
                                       bad := f.bad || decide (r.outcome = .bad),
                                       unproven := f.unproven || decide (r.outcome = .unproven) } := by
  obtain ⟨hi, -⟩ := Dev.slotFor_spec hslot
  obtain ⟨hpacket, -, hbooked⟩ := s.dev.csiPacket_spec i f line
  refine Runs.of_onDev (show execCsiEmbeddedLine port vc line s = onDev _ s from rfl) ?_
  rw [hquiet, hslot, Dev.settle_slot]
  dsimp only
  rw [hheader, hframe]
  dsimp only
  generalize s.dev.csiPacket i f line = m at hpacket hbooked
  obtain ⟨g, d⟩ := m
  obtain rfl : g = f.marked _ := hpacket
  have hkp : ∀ n ≤ 11, d.kp i n = s.dev.kp i n := fun n hn => Dev.kp_booked hbooked hi hn
  rw [hkp 5 (by decide), hkp 7 (by decide), hkp 8 (by decide), if_neg (by decide), if_neg (by decide),
    if_neg (by simp [CsiFrame.marked, hcarries, hexposed, hmodelled, hlines]), if_pos hfield]
  rw [Dev.refreshLatency_slot, Dev.slot_onSlot, if_pos rfl]
  rfl

theorem csiLongPacket_runs {s : State} {port : Fin 6} {vc : Fin 4} {i : Nat} {f : CsiFrame} (hquiet : s.dev.quiesced Isl.csi = false)
    (hslot : s.dev.csiSlot port vc = some i) (hframe : (s.dev.slot i).frame = some f) (line : Bytes) (found : Found) :
    Runs (.csiLongPacket port vc (s.dev.kp i 0 % 64) true line found) s fun d =>
      ∃ g, (d.slot i).frame = some g ∧ g.fs = f.fs ∧ g.lines = f.lines + 1
        ∧ g.data = if f.lines < bits (s.dev.kp i 2) 31 16 then f.data ++ line else f.data := by
  obtain ⟨hi, -⟩ := Dev.slotFor_spec hslot
  obtain ⟨⟨u, hmiss⟩, -, hmissed⟩ := s.dev.missExposure_spec i f
  refine Runs.of_onDev (show execCsiLongPacket port vc (s.dev.kp i 0 % 64) true line found s = onDev _ s from rfl) ?_
  rw [hquiet, hslot, Dev.settle_slot]
  dsimp only
  rw [hframe]
  dsimp only
  generalize s.dev.missExposure i f = m at hmiss hmissed
  obtain ⟨f', d⟩ := m
  obtain rfl : f' = { f with unmodelled := u } := hmiss
  obtain ⟨hpacket, -, hbooked⟩ := d.csiPacket_spec i { f with unmodelled := u } { found, data := line }
  dsimp only
  generalize d.csiPacket i { f with unmodelled := u } { found, data := line } = m at hpacket hbooked
  obtain ⟨g, e⟩ := m
  obtain rfl : g = CsiFrame.marked _ _ := hpacket
  have hkp : e.kp i 2 = s.dev.kp i 2 := Dev.kp_booked (hmissed.trans hbooked) hi (by decide)
  rw [if_neg (by decide), if_neg (by decide), if_neg fun h => h rfl, Dev.slot_onSlot, if_pos rfl]
  refine ⟨_, rfl, rfl, rfl, ?_⟩
  simp [CsiFrame.marked, hkp]

/-! A lane's errors and staleness (R171, R181). -/

theorem csiLaneError_runs {s : State} {port : Fin 6} {lane : Fin 4} {i n : Nat}
    (hn : n = (if (lane : Nat) ≥ 2 then 2 else if (lane : Nat) = 1 then 1 else 0))
    (hslot : (s.dev.slotFor 1 fun j => s.dev.nat (Ob.slotSourceSelect j) % 8 == port && bit (s.dev.kp j 0) 16) = some i)
    (hless : n < Nat.min (s.dev.nat (Ob.slotLanesInUse i)) ((kvGet s.dev.csiPend port).getD 4)) :
    Runs (.csiLaneError port lane) s fun d => kvGet d.csiPend port = some n ∧ s.dev.KeepsRegs d [] := by
  refine Runs.of_onDev (show execCsiLaneError port lane s = onDev _ s from rfl) ?_
  dsimp only
  rw [hslot]
  dsimp only
  rw [← hn, if_pos hless]
  exact ⟨by simp [Dev.settle], fun k _ hk _ => Dev.settle_reg _ _ hk⟩

/-- SlotState of a slot that works, is neither quiesced nor in quarantine, and has gone stale (Table 5). -/
theorem Dev.refreshSlot_stale {d : Dev} {s : Nat} (hkind : d.nat (Ob.slotSourceKind s) ≠ 0) (hquiet : d.quiesced (d.slotIsl s) = false)
    (hfree : d.slotQuarantined s = false) (hon : d.slotOn s = true) (hstale : (d.slot s).stale = true) :
    (d.refreshSlot s).reg (Ob.slotState s) = 3 := by
  have hkind' : d.reg (Ob.slotSourceKind s) ≠ 0 := fun h => hkind (by unfold Dev.nat; rw [h]; rfl)
  unfold Dev.refreshSlot
  rw [Dev.reg_set, if_pos rfl, if_neg hkind', hquiet, hfree, hon, hstale]
  rfl

theorem slotStaleTimeout_runs {s : State} {slot : Fin 32} (hrun : s.dev.running = true)
    (hkind : s.dev.nat (Ob.slotSourceKind slot) ≠ 0) (henable : s.dev.flag (Ob.slotEnable slot) = true)
    (hfresh : (s.dev.slot slot).stale = false) (hquiet : s.dev.quiesced (s.dev.slotIsl slot) = false)
    (hfree : s.dev.slotQuarantined slot = false)
    (hlate : s.dev.nat (Ob.slotStaleTimeout slot) * 1000 ≤ s.dev.ago (s.dev.slot slot).lastAt) :
    Runs (.slotStaleTimeout slot) s fun d => (d.slot slot).stale = true ∧ d.reg (Ob.slotState slot) = 3
      ∧ s.dev.KeepsRegs d [Ob.slotState slot] := by
  have hkey : Ob.slotState slot / 256 = 0x3000 + slot := by unfold Ob.slotState; omega
  obtain ⟨hbook, hsafe⟩ := slotKey_plain slot.isLt hkey
  have hdue : ¬ (!s.dev.running || s.dev.nat (Ob.slotSourceKind slot) == 0 || !s.dev.flag (Ob.slotEnable slot)
      || (s.dev.slot slot).stale || decide (s.dev.ago (s.dev.slot slot).lastAt < s.dev.nat (Ob.slotStaleTimeout slot) * 1000)) = true := by
    simp [hrun, hkind, henable, hfresh, hlate]
  refine Runs.of_onDev (show execSlotStaleTimeout slot s = onDev _ s from rfl) ?_
  rw [if_neg hdue]
  generalize hgone : (s.dev.onSlot slot fun r => { r with stale := true }) = d
  have hstale : (d.slot slot).stale = true := by rw [← hgone, Dev.slot_onSlot, if_pos rfl]
  have hreg : ∀ k, d.reg k = s.dev.reg k := fun k => by rw [← hgone, Dev.onSlot_reg]
  refine ⟨?_, ?_, fun k hk hs hne => ?_⟩
  · rw [Dev.settle_slot, Dev.slot_congr (Dev.slotEvent_slots _ _ _)]
    exact hstale
  · rw [Dev.settle_reg _ _ hsafe, Dev.slotEvent_reg _ _ _ hbook]
    refine Dev.refreshSlot_stale ?_ ?_ ?_ ?_ hstale
    all_goals rw [← hgone]
    · exact hkind
    · exact hquiet
    · exact hfree
    · exact (congrArg (· || _) henable).trans (Bool.true_or _)
  · rw [Dev.settle_reg _ _ hs, Dev.slotEvent_reg _ _ _ hk, Dev.refreshSlot_reg _ _ fun h => hne (List.mem_singleton.2 h), hreg]

/-- Settles O37: what the events of a camera do to its slot's frame, which an item on its way to its paths leaves alone
(`Dev.classify_slot`). -/
theorem cameraCommandsRun : Obligations.CameraCommandsRun :=
  ⟨fun _ _ _ _ _ _ hrun hquiet hcut hflip hpend hslot hlanes => csiFrameStart_runs hrun hquiet hcut hflip hpend hslot hlanes,
    fun _ _ _ _ _ hquiet hslot hframe =>
      ⟨fun _ hheader hcarries hexposed hmodelled hlines hfield =>
          csiEmbeddedLine_runs hquiet hslot hframe hheader hcarries hexposed hmodelled hlines hfield,
        fun line found => csiLongPacket_runs hquiet hslot hframe line found, csiFrameEnd_runs hquiet hslot⟩,
    fun _ _ _ _ _ hn hslot hless => csiLaneError_runs hn hslot hless,
    fun _ _ hrun hkind henable hfresh hquiet hfree hlate =>
      slotStaleTimeout_runs hrun hkind henable hfresh hquiet hfree hlate⟩

end Sys2Proof.Machine
end

section
/-! What is sent stays sent, past the flips due at an event and past an item's way: most changes of the device send nothing, and
those that send add to what was sent. -/
namespace Sys2Proof.Machine

@[simp] theorem Dev.when_out (d : Dev) (b : Bool) {f : Dev → Dev} (h : ∀ x : Dev, (f x).out = x.out) : (d.when b f).out = d.out := by
  unfold Dev.when
  split
  · exact h d
  · rfl

@[simp] theorem Dev.each_out {α : Type} {f : Dev → α → Dev} (h : ∀ d a, (f d a).out = d.out) (l : List α) (d : Dev) :
    (d.each l f).out = d.out := Dev.each_keeps h l d

/-! Queues, copies and records send nothing. -/

@[simp] theorem Dev.refreshAlive_out (d : Dev) : d.refreshAlive.out = d.out := by
  simp [Dev.refreshAlive]

@[simp] theorem Dev.setCopies_out (d : Dev) (it : Item) (n : Nat) : (d.setCopies it n).out = d.out := by
  simp [Dev.setCopies]

@[simp] theorem Dev.genInc_out (d : Dev) (it : Item) : (d.genInc it).out = d.out := by
  simp [Dev.genInc, apply_ite Dev.out]

@[simp] theorem Dev.genDec_out (d : Dev) (it : Item) : (d.genDec it).out = d.out := by
  simp [Dev.genDec, apply_ite Dev.out]

@[simp] theorem Dev.nextSeq_out (d : Dev) (kind num : Nat) : (d.nextSeq kind num).out = d.out := by
  simp [Dev.nextSeq]

@[simp] theorem Dev.withPayload_out (d : Dev) (it : Item) (data : Bytes) : (d.withPayload it data).2.out = d.out := by
  unfold Dev.withPayload
  dsimp only
  repeat' split
  all_goals rfl

@[simp] theorem Dev.judgeLate_out (d : Dev) (it : Item) (late : Bool) : (d.judgeLate it late).2.out = d.out := by
  unfold Dev.judgeLate
  split <;> simp

@[simp] theorem Dev.emitItem_out (d : Dev) (q : Nat) (it : Item) (data : Bytes) (late : Bool) :
    (d.emitItem q it data late).out = d.out := by
  simp [Dev.emitItem]

@[simp] theorem Dev.canaryDue_out (d : Dev) (m : Nat) : (d.canaryDue m).out = d.out := by
  simp [Dev.canaryDue]

@[simp] theorem Dev.emitRecord_out (d : Dev) (m island subject completion flags : Nat) (late : Bool) (head : Bytes) (outs : List Bytes) :
    (d.emitRecord m island subject completion flags late head outs).out = d.out := by
  unfold Dev.emitRecord
  dsimp only
  split
  · exact (Dev.when_out _ _ fun x => x.canaryDue_out m).trans (Dev.when_out _ _ fun x => x.emitItem_out _ _ _ _)
  · exact Dev.when_out _ _ fun x => x.emitItem_out _ _ _ _

/-! Feeds and models send nothing. -/

@[simp] theorem Dev.skipAs_out (d : Dev) (m seq : Nat) (it : Item) (flags : Nat) : (d.skipAs m seq it flags).out = d.out := by
  simp [Dev.skipAs]

@[simp] theorem Dev.feedChanged_out (d : Dev) (m : Nat) (from_ : Option (List Item)) : (d.feedChanged m from_).out = d.out := by
  simp [Dev.feedChanged, Dev.checkEngine, Dev.noEngine, Dev.dropAgain, Dev.skipInference, Dev.inferSeq, apply_ite Dev.out]

@[simp] theorem Dev.trimReady_out (d : Dev) (m : Nat) : (d.trimReady m).out = d.out := by
  simp [Dev.trimReady]

@[simp] theorem Dev.channelFlipped_out (d : Dev) (k : Nat) (rebound : Bool) : (d.channelFlipped k rebound).out = d.out := by
  simp [Dev.channelFlipped, Dev.bindModel, apply_ite Dev.out]

@[simp] theorem Dev.feedFlipped_out (d0 d : Dev) (es : List PourEntry) : (d0.feedFlipped d es).out = d.out := by
  simp [Dev.feedFlipped]

/-! Sessions and connections send nothing. -/

@[simp] theorem Dev.virekEvent_out (d : Dev) (p : Nat) (ev : Ev) : (d.virekEvent p ev).out = d.out :=
  (Dev.when_out _ _ fun x => by simp).trans (by simp)

theorem Dev.closeConn_out (d : Dev) (slot : Nat) (cause : CloseCause) : (d.closeConn slot cause).out = d.out := by
  unfold Dev.closeConn
  split
  · rfl
  · exact Dev.virekEvent_out _ _ _

@[simp] theorem Dev.closeConns_out (d : Dev) (cause : CloseCause) (f : Conn → Bool) : (d.closeConns cause f).out = d.out :=
  Dev.each_keeps (fun d _ => d.closeConn_out _ cause) _ d

@[simp] theorem Dev.endSession_out (d : Dev) (sid : Nat) (cause : EndCause) : (d.endSession sid cause).out = d.out := by
  unfold Dev.endSession
  split <;> simp

@[simp] theorem Dev.endSessions_out (d : Dev) (cause : EndCause) (f : Session → Bool) : (d.endSessions cause f).out = d.out :=
  Dev.each_keeps (fun d sid => d.endSession_out sid cause) _ d

@[simp] theorem Dev.partWritten_out (d : Dev) (p sub : Nat) : (d.partWritten p sub).out = d.out := by
  simp [Dev.partWritten, apply_ite Dev.out]

/-! Network classes and peers send nothing. -/

@[simp] theorem Dev.onCls_out (d : Dev) (k : Nat) (f : ClassRt → ClassRt) : (d.onCls k f).out = d.out := by
  simp [Dev.onCls]

@[simp] theorem Dev.classWritten_out (d : Dev) (k : Nat) : (d.classWritten k).out = d.out := by
  simp [Dev.classWritten]

@[simp] theorem Dev.judgePeer_out (d : Dev) (n : Nat) : (d.judgePeer n).out = d.out := by
  simp [Dev.judgePeer, apply_ite Dev.out]

@[simp] theorem Dev.pathFailed_out (d : Dev) (n path : Nat) : (d.pathFailed n path).out = d.out := by
  simp [Dev.pathFailed, Dev.classFailed, Dev.connNotice, Dev.moveClass, apply_ite Dev.out]

@[simp] theorem Dev.setPeer_out (d : Dev) (n : Nat) (p : NetPartner) : (d.setPeer n p).out = d.out := by
  simp [Dev.setPeer]

@[simp] theorem Dev.peerEnabled_out (d : Dev) (n : Nat) : (d.peerEnabled n).out = d.out := by
  simp [Dev.peerEnabled, apply_ite Dev.out]

@[simp] theorem Dev.portDown_out (d : Dev) (port : Nat) : (d.portDown port).out = d.out := by
  simp [Dev.portDown]

/-! The timing unit and PTP send nothing. -/

@[simp] theorem Dev.setTrain_out (d : Dev) (i : Nat) (t : Option Train) : (d.setTrain i t).out = d.out := by
  simp [Dev.setTrain]

@[simp] theorem Dev.retrain_out (d : Dev) (i : Nat) (e : Int) : (d.retrain i e).out = d.out := by
  unfold Dev.retrain
  split <;> rfl

@[simp] theorem Dev.rebase_out (d : Dev) (v : Int) : (d.rebase v).out = d.out := by
  simp [Dev.rebase]

@[simp] theorem Dev.steer_out (d : Dev) (to_ : Int) : (d.steer to_).out = d.out := by
  simp [Dev.steer]

@[simp] theorem Dev.closeLocked_out (d : Dev) : d.closeLocked.out = d.out := by
  unfold Dev.closeLocked
  split <;> rfl

@[simp] theorem Dev.toSelector_out (d : Dev) (st : Int) (code : Nat) : (d.toSelector st code).out = d.out := by
  simp [Dev.toSelector]

@[simp] theorem Dev.acquire_out (d : Dev) (code : Nat) : (d.acquire code).out = d.out := by
  simp [Dev.acquire]

@[simp] theorem Dev.toFreerun_out (d : Dev) : d.toFreerun.out = d.out := by
  simp [Dev.toFreerun]

@[simp] theorem Dev.toHoldover_out (d : Dev) : d.toHoldover.out = d.out := by
  simp [Dev.toHoldover]

@[simp] theorem Dev.reselect_out (d : Dev) : d.reselect.out = d.out := by
  unfold Dev.reselect
  dsimp only
  repeat' split
  all_goals simp

@[simp] theorem Dev.ptpRefs_out (d : Dev) : d.ptpRefs.out = d.out := by
  simp [Dev.ptpRefs, Dev.toRef, Dev.onRef, apply_ite Dev.out]

@[simp] theorem Dev.closeTrack_out (d : Dev) : d.closeTrack.out = d.out := by
  unfold Dev.closeTrack
  split <;> rfl

@[simp] theorem Dev.toServo_out (d : Dev) (st : Int) : (d.toServo st).out = d.out := by
  simp [Dev.toServo, apply_ite Dev.out]

@[simp] theorem Dev.setMaster_out (d : Dev) (m : Master) : (d.setMaster m).out = d.out := by
  simp [Dev.setMaster]

@[simp] theorem Dev.masterLost_out (d : Dev) : d.masterLost.out = d.out := by
  simp [Dev.masterLost, Dev.holdRate, apply_ite Dev.out]

@[simp] theorem Dev.selectMaster_out (d : Dev) (m : Master) : (d.selectMaster m).out = d.out := by
  simp [Dev.selectMaster, Dev.masterChange, Dev.masterBack, apply_ite Dev.out]

@[simp] theorem Dev.movePort_out (d : Dev) (port : Nat) : (d.movePort port).out = d.out := by
  unfold Dev.movePort
  dsimp only
  split <;> simp

@[simp] theorem Dev.ptpPortCheck_out (d : Dev) (port : Nat) : (d.ptpPortCheck port).out = d.out := by
  simp [Dev.ptpPortCheck, Dev.onPtpPort, apply_ite Dev.out]

/-! Power and the safety channels send nothing. -/

@[simp] theorem Dev.chanTo_out (d : Dev) (k st : Nat) : (d.chanTo k st).out = d.out := by
  simp [Dev.chanTo, apply_ite Dev.out]

@[simp] theorem Dev.powerCheck_out (d : Dev) : d.powerCheck.out = d.out := by
  simp [Dev.powerCheck, Dev.beginExit, Dev.closeResidency, apply_ite Dev.out]

/-! Slots send nothing. -/

@[simp] theorem Dev.maskParams_out (d : Dev) (s : Nat) (ns : List Nat) : (d.maskParams s ns).out = d.out := by
  simp [Dev.maskParams]

@[simp] theorem Dev.maskSelect_out (d : Dev) (s : Nat) : (d.maskSelect s).out = d.out := by
  simp [Dev.maskSelect]

@[simp] theorem Dev.refreshLatency_out (d : Dev) (s : Nat) : (d.refreshLatency s).out = d.out := by
  simp [Dev.refreshLatency]

@[simp] theorem Dev.refreshSlot_out (d : Dev) (s : Nat) : (d.refreshSlot s).out = d.out := by
  simp [Dev.refreshSlot]

@[simp] theorem Dev.slotWritten_out (d : Dev) (s sub : Nat) : (d.slotWritten s sub).out = d.out := by
  simp [Dev.slotWritten, Dev.slotEnabled, Dev.slotStops, apply_ite Dev.out]

/-! Poses, the resampler, the grids and the solver send nothing. -/

@[simp] theorem Dev.poseQueueWritten_out (d : Dev) : d.poseQueueWritten.out = d.out := by
  simp [Dev.poseQueueWritten]

@[simp] theorem Dev.resamplerWritten_out (d : Dev) : d.resamplerWritten.out = d.out := by
  simp [Dev.resamplerWritten, apply_ite Dev.out]

@[simp] theorem Dev.onGrid_out (d : Dev) (g : Nat) (f : GridRt → GridRt) : (d.onGrid g f).out = d.out := by
  simp [Dev.onGrid]

@[simp] theorem Dev.gridWritten_out (d0 d : Dev) (g sub t : Nat) : (d0.gridWritten d g sub t).out = d.out := by
  simp [Dev.gridWritten, Dev.clearGrid, apply_ite Dev.out]

@[simp] theorem Dev.mountChanged_out (d0 d : Dev) (s t : Nat) : (d0.mountChanged d s t).out = d.out := by
  simp [Dev.mountChanged]

@[simp] theorem Dev.refactorAll_out (d : Dev) (s : Nat) : (d.refactorAll s).out = d.out := by
  simp [Dev.refactorAll, Dev.setStruct]

/-! Audio, analog outputs and beacons send nothing. -/

@[simp] theorem Dev.refreshDac_out (d : Dev) : d.refreshDac.out = d.out := by
  simp [Dev.refreshDac, apply_ite Dev.out]

@[simp] theorem Dev.refreshDomains_out (d : Dev) : d.refreshDomains.out = d.out := by
  simp [Dev.refreshDomains, apply_ite Dev.out]

@[simp] theorem Dev.toneWritten_out (d : Dev) (k : Nat) (sub t : Nat) : (d.toneWritten k sub t).out = d.out := by
  unfold Dev.toneWritten
  dsimp only
  repeat' split
  all_goals rfl

@[simp] theorem Dev.beaconWritten_out (d : Dev) (b : Nat) : (d.beaconWritten b).out = d.out := by
  simp [Dev.beaconWritten]

@[simp] theorem Dev.play_out (d : Dev) (k : Nat) : (d.play k).out = d.out := by
  simp [Dev.play, Dev.setVoice, apply_ite Dev.out]

@[simp] theorem Dev.shift_out (d0 d : Dev) (k : Nat) (m j len : Nat) : (d0.shift d k m j len).out = d.out := by
  simp [Dev.shift, Dev.pushEnv]

@[simp] theorem Dev.stepped_out (d0 d : Dev) (k : Nat) (t : Nat) : (d0.stepped d k t).out = d.out := by
  simp [Dev.stepped, apply_ite Dev.out]

@[simp] theorem Dev.pouredAt_out (d : Dev) (k t : Nat) : (d.pouredAt k t).out = d.out := by
  unfold Dev.pouredAt Dev.discardControl
  dsimp only
  repeat' split
  all_goals simp

/-! Pours and fences send nothing. -/

@[simp] theorem Dev.refreshHeld_out (d : Dev) : d.refreshHeld.out = d.out := by
  simp [Dev.refreshHeld]

@[simp] theorem Dev.endPour_out (d : Dev) (h st cause : Nat) : (d.endPour h st cause).out = d.out := by
  unfold Dev.endPour
  split <;> simp

@[simp] theorem Dev.flipGeneration_out (d : Dev) (p : Pour) (uid : Nat) : (d.flipGeneration p uid).out = d.out := by
  unfold Dev.flipGeneration
  split
  · rfl
  · simp [apply_ite Dev.out]

@[simp] theorem Dev.commitFlip_out (d : Dev) (h uid : Nat) (vals : List (Nat × Int)) : (d.commitFlip h uid vals).out = d.out := by
  unfold Dev.commitFlip Dev.countCommit Dev.onPour
  dsimp only
  repeat' split
  all_goals simp

@[simp] theorem Dev.noteLate_out (d : Dev) (f : Nat) : (d.noteLate f).out = d.out := by
  simp [Dev.noteLate]

/-! An item of a slot sends nothing on its way. -/

@[simp] theorem Dev.stampItem_out (d : Dev) (s : Nat) (raw : Option Nat) (a : Int) : (d.stampItem s raw a).2.2.out = d.out := by
  unfold Dev.stampItem Dev.restartModel Dev.slotEvent Dev.addPair
  dsimp only
  repeat' split
  all_goals simp

theorem Dev.toStage_out (d : Dev) (k : Nat) (it : Item) : (d.toStage k it).out = d.out := by
  simp [Dev.toStage, Dev.absentReply, apply_ite Dev.out]

theorem Dev.routeItem_out (d : Dev) (s : Nat) (cfg : SlotCfg) (it : Item) : (d.routeItem s cfg it).out = d.out := by
  simp [Dev.routeItem, Dev.toStage_out, Dev.absentDrop, apply_ite Dev.out]

@[simp] theorem Dev.slotDiscard_out (d : Dev) (s : Nat) : (d.slotDiscard s).out = d.out := by
  simp [Dev.slotDiscard]

@[simp] theorem Dev.classify_out (d : Dev) (s : Nat) (cfg : SlotCfg) (it : Item) (data : Bytes) :
    (d.classify s cfg it data).out = d.out := by
  rw [Dev.classify_eq]
  split
  · simp
  · rw [Dev.routeItem_out, Dev.slotJudged]
    simp

@[simp] theorem Dev.canSensor_out (d : Dev) (ctl id : Nat) (ext : Bool) (data : Bytes) (found : Found) :
    (d.canSensor ctl id ext data found).out = d.out := by
  unfold Dev.canSensor
  split
  · rfl
  · split <;> simp

/-! What is sent stays sent, past each change that may send. -/

variable {o : Output} {d : Dev}

theorem Dev.ite_sent {p : Prop} [Decidable p] {a b : Dev} (ha : o ∈ a.out) (hb : o ∈ b.out) : o ∈ (if p then a else b).out := by
  split
  · exact ha
  · exact hb

theorem Dev.when_sent {f : Dev → Dev} (h : o ∈ d.out) (hf : ∀ x : Dev, o ∈ x.out → o ∈ (f x).out) (b : Bool) :
    o ∈ (d.when b f).out := Dev.ite_sent (hf d h) h

theorem Dev.each_sent {α : Type} {f : Dev → α → Dev} (hf : ∀ (x : Dev) a, o ∈ x.out → o ∈ (f x a).out) (l : List α) :
    ∀ {d : Dev}, o ∈ d.out → o ∈ (d.each l f).out := by
  induction l with
  | nil => exact id
  | cons a l ih => exact fun h => ih (hf _ a h)

@[simp] theorem Dev.send_sent (h : o ∈ d.out) (x : Output) : o ∈ (d.send x).out := List.mem_cons_of_mem _ h

theorem Dev.deliverWait_sent (h : o ∈ d.out) (w : Wait) (reset : Bool) : o ∈ (d.deliverWait w reset).out := by
  unfold Dev.deliverWait
  dsimp only
  repeat' with_reducible refine Dev.ite_sent ?_ ?_
  · simpa using h
  · exact Dev.when_sent h (fun x hx => Dev.send_sent hx _) _
  all_goals simp [h]

theorem Dev.completeWaits_sent (h : o ∈ d.out) (f : Nat) (reset : Bool) (met : Wait → Bool) :
    o ∈ (d.completeWaits f reset met).out := Dev.each_sent (fun _ w hx => Dev.deliverWait_sent hx w reset) _ h

@[simp] theorem Dev.signalFence_sent (h : o ∈ d.out) (f v : Nat) : o ∈ (d.signalFence f v).out := by
  have hnote : o ∈ (d.noteLate f).out := by simpa using h
  exact Dev.ite_sent h (Dev.completeWaits_sent (d := (d.noteLate f).setFence f _) hnote f false _)

theorem Dev.applyPour_sent (h : o ∈ d.out) (p : Pour) : o ∈ (d.applyPour p).out := by
  unfold Dev.applyPour
  dsimp only
  refine Dev.when_sent ?_ (fun x hx => by simpa using hx) _
  split <;> simp [Dev.onPour, h]

theorem Dev.completePours_sent (h : o ∈ d.out) : o ∈ d.completePours.out := by
  refine Dev.each_sent (fun x n hx => ?_) _ h
  split
  · exact hx
  · exact Dev.ite_sent (Dev.applyPour_sent hx _) hx

theorem Dev.followCode_sent (h : o ∈ d.out) (ch : Nat) : o ∈ (d.followCode ch).out :=
  Dev.ite_sent (Dev.ite_sent h (Dev.send_sent h _)) h

theorem Dev.codeChanged_sent (h : o ∈ d.out) (ch : Nat) : o ∈ (d.codeChanged ch).out :=
  Dev.ite_sent (Dev.followCode_sent (by simpa using h) ch) (Dev.followCode_sent h ch)

@[simp] theorem Dev.setpointChanged_sent (h : o ∈ d.out) (ch : Nat) : o ∈ (d.setpointChanged ch).out :=
  Dev.ite_sent h (Dev.codeChanged_sent h ch)

@[simp] theorem Dev.routeSourceChanged_sent (h : o ∈ d.out) (r : Nat) : o ∈ (d.routeSourceChanged r).out :=
  Dev.ite_sent (Dev.codeChanged_sent h _) h

theorem Dev.refreshSafe_sent (h : o ∈ d.out) : o ∈ d.refreshSafe.out := by
  simpa [Dev.settle] using Dev.settle_out (d0 := d) h

@[simp] theorem Dev.refreshChannels_sent (h : o ∈ d.out) : o ∈ d.refreshChannels.out := by
  unfold Dev.refreshChannels
  rw [Dev.powerCheck_out]
  exact Dev.refreshSafe_sent (by simpa [apply_ite Dev.out] using h)

theorem Dev.changed_sent (h : o ∈ d.out) (d0 : Dev) (k t : Nat) : o ∈ (d0.changed d k t).out := by
  unfold Dev.changed
  dsimp only
  repeat' with_reducible refine Dev.ite_sent ?_ ?_
  all_goals simp [h]

theorem Dev.written_sent (h : o ∈ d.out) (d0 : Dev) (k t : Nat) : o ∈ (d0.written d k t).out := by
  unfold Dev.written
  dsimp only
  repeat' with_reducible refine Dev.ite_sent ?_ ?_
  all_goals simp [h, Dev.changed_sent]

theorem Dev.takeValues_sent (h : o ∈ d.out) (d0 : Dev) (p : Pour) (uid t m : Nat) (es : List PourEntry) :
    o ∈ (d0.takeValues d p uid t m es).out := by
  unfold Dev.takeValues
  simp only [Dev.each_out, Dev.stepped_out, Dev.pouredAt_out, Dev.startRamp, Dev.onMix_fields, Dev.shift_out, implies_true, Dev.when_out,
    Dev.feedFlipped_out]
  refine Dev.each_sent (fun x e hx => ?_) _ (by simpa [apply_ite Dev.out] using h)
  repeat' with_reducible refine Dev.ite_sent ?_ ?_
  · simpa using hx
  · exact hx
  · exact hx
  · exact Dev.written_sent hx _ _ _

@[simp] theorem Dev.flipUnit_sent (h : o ∈ d.out) (p : Pour) (x : PourPart) (t : Nat) (engine : Option (Fin 8)) :
    o ∈ (d.flipUnit p x t engine).out := by
  unfold Dev.flipUnit
  simp [Dev.waitFilters, Dev.onPour, Dev.takeValues_sent, h]

theorem Dev.flipUid_sent (h : o ∈ d.out) (uid : Nat) (engine : Option (Fin 8)) : o ∈ (d.flipUid uid engine).out := by
  refine Dev.each_sent (fun x p hx => ?_) _ h
  dsimp only
  repeat' split
  all_goals simp [hx]

theorem Dev.flipSlots_sent (h : o ∈ d.out) (hit : (Nat → Int) → Nat → Bool) : o ∈ (d.flipSlots hit).out :=
  Dev.completePours_sent (Dev.each_sent (fun _ uid hx => Dev.flipUid_sent hx uid none) _ h)

end Sys2Proof.Machine
end

section
/-! Scanners, SPI sensors, encoders, CAN sensors and the sensor clock model: what their events leave (07_sensor_ingest R162-R165,
R172-R179). -/
namespace Sys2Proof.Machine

/-! The stamp of an item by its arrival (R162). -/

/-- With ModelMode 0 an item is stamped by its arrival, and nothing of the model moves. -/
theorem Dev.stampItem_arrival {d : Dev} {s : Nat} (h : d.reg (Ob.slotModelMode s) = 0) (raw : Option Nat) (a : Int) :
    d.stampItem s raw a = (a - (if d.nat (Ob.slotSourceKind s) = 2 then d.reg (Ob.slotTransitMin s) else 0), false, d) := by
  unfold Dev.stampItem
  cases raw with
  | none => simp [h]
  | some raw => simp [h]

theorem Dev.replica_congr {d e : Dev} (h : e.tl = d.tl) (i : Nat) : e.replica i = d.replica i := by
  unfold Dev.replica Dev.fine Dev.ext
  rw [h]

/-- A slot's item passes its handover: the clock and the slot's settings stand. -/
structure SlotPassed (i : Nat) (d e : Dev) : Prop where
  tl : e.tl = d.tl
  slots : e.slots = d.slots
  reg : ∀ k, k / 256 = 0x3000 + i → k ≠ Ob.slotState i → k ≠ Ob.slotViolations i → e.reg k = d.reg k

theorem SlotPassed.of_booked {i : Nat} {d e : Dev} (hi : i < 32) (h : Booked d e) (w : Within 0 d e) : SlotPassed i d e :=
  ⟨w.tl rfl, w.slots rfl, fun k hk _ _ => h k (slotKey_plain hi hk).1⟩

theorem SlotPassed.trans {i : Nat} {a d e : Dev} (h : SlotPassed i a d) (k : SlotPassed i d e) : SlotPassed i a e :=
  ⟨k.tl.trans h.tl, k.slots.trans h.slots, fun x hx hs hv => (k.reg x hx hs hv).trans (h.reg x hx hs hv)⟩

theorem SlotPassed.refl (i : Nat) (d : Dev) : SlotPassed i d d := ⟨rfl, rfl, fun _ _ _ _ => rfl⟩

theorem Dev.handover_slotPassed (d : Dev) {i : Nat} (hi : i < 32) {point : Nat} (hp : point < 16) (iface src num : Nat) (f : Found) :
    SlotPassed i d (d.handover point iface src num f) :=
  .of_booked hi (Dev.handover_booked (.refl d) _ _ _ _ _ hp) (Dev.handover_within .zero (.refl d) _ _ _ _ _)

theorem Dev.slotViolation_reg (d : Dev) (s code : Nat) {k : Nat} (hk : k / 256 = 0x3000 + s) (hs : s < 32) (hstate : k ≠ Ob.slotState s)
    (hcount : k ≠ Ob.slotViolations s) : (d.slotViolation s code).reg k = d.reg k := by
  unfold Dev.slotViolation
  split
  · rfl
  · dsimp only
    rw [Dev.refreshSlot_reg _ _ hstate, Dev.violate_reg _ _ _ (slotKey_plain hs hk).1, Dev.reg_bump, if_neg hcount]

theorem Dev.slotViolation_slotPassed (d : Dev) {i : Nat} (hi : i < 32) (code : Nat) : SlotPassed i d (d.slotViolation i code) :=
  ⟨(Dev.slotViolation_within (M := 33554432) rfl (.refl d) i code).tl rfl, d.slotViolation_slots i code,
    fun _ hk hs hv => d.slotViolation_reg i code hk hi hs hv⟩

theorem SlotPassed.when {i : Nat} {d : Dev} {f : Dev → Dev} (h : ∀ d, SlotPassed i d (f d)) (b : Bool) :
    SlotPassed i d (d.when b f) := by
  unfold Dev.when
  split
  · exact h d
  · exact .refl i d

/-- The settings of the slot's source, once its item is past its handover. -/
theorem SlotPassed.kp {i n : Nat} {d e : Dev} (h : SlotPassed i d e) (hn : n ≤ 11) : e.kp i n = d.kp i n := by
  have hparam : Ob.slotKindParam i n = (0x3000 + i) * 256 + (Ob.slotKindParam i n % 256) := by
    have := kindParam_idx (s := i) hn
    omega
  exact Dev.nat_congr (h.reg _ (kindParam_idx hn) (by unfold Ob.slotKindParam Ob.slotState; omega)
    (by unfold Ob.slotKindParam Ob.slotViolations; omega))

/-- An item stamped by its arrival once its handover is past. -/
theorem SlotPassed.stampItem {i : Nat} {d e : Dev} (h : SlotPassed i d e) (hmode : d.reg (Ob.slotModelMode i) = 0) (raw : Option Nat)
    (a : Int) : e.stampItem i raw a
      = (a - (if d.nat (Ob.slotSourceKind i) = 2 then d.reg (Ob.slotTransitMin i) else 0), false, e) := by
  have hreg : ∀ k, k / 256 = 0x3000 + i → k ≠ Ob.slotState i → k ≠ Ob.slotViolations i → e.reg k = d.reg k := h.reg
  rw [Dev.stampItem_arrival ((hreg _ (by unfold Ob.slotModelMode; omega) (by unfold Ob.slotModelMode Ob.slotState; omega)
      (by unfold Ob.slotModelMode Ob.slotViolations; omega)).trans hmode),
    Dev.nat_congr (hreg (Ob.slotSourceKind i) (by unfold Ob.slotSourceKind; omega) (by unfold Ob.slotSourceKind Ob.slotState; omega)
      (by unfold Ob.slotSourceKind Ob.slotViolations; omega)),
    hreg (Ob.slotTransitMin i) (by unfold Ob.slotTransitMin; omega) (by unfold Ob.slotTransitMin Ob.slotState; omega)
      (by unfold Ob.slotTransitMin Ob.slotViolations; omega)]

/-! Scanners (R172). -/

theorem Dev.scannerDatagram_lastStamp {d : Dev} {port ip dst i : Nat} {payload : Bytes} (found : Found)
    (hslot : (d.slotFor 2 fun j => d.nat (Ob.slotSourceSelect j) % 2 == port && d.kp j 0 == ip && d.kp j 1 % 65536 == dst) = some i)
    (hfree : d.slotQuarantined i = false) (hlen : d.kp i 2 % 65536 + d.kp i 2 / 65536 ≤ payload.length)
    (hmode : d.reg (Ob.slotModelMode i) = 0) :
    ((d.scannerDatagram port ip dst false payload found).slot i).lastStamp
      = some (((d.replica (Isl.eta + port) : Int) - d.reg (Ob.slotTransitMin i)) % 281474976710656).toNat := by
  obtain ⟨hi, hkind, -⟩ := Dev.slotFor_spec hslot
  unfold Dev.scannerDatagram
  rw [hslot]
  dsimp only
  rw [hfree, if_neg (by decide), if_neg (by simp [hlen])]
  generalize ({ found with hasCoc := false } : Found) = fd
  have hpassed : SlotPassed i d ((d.countFcs port fd).handover 1 6 1 i fd) :=
    (SlotPassed.of_booked hi (Dev.countFcs_booked (.refl d) port fd) (Dev.countFcs_within .zero (.refl d) _ _)).trans
      (Dev.handover_slotPassed _ hi (by decide) _ _ _ _)
  generalize (d.countFcs port fd).handover 1 6 1 i fd = e at hpassed
  rw [hpassed.stampItem hmode, hkind, Dev.replica_congr hpassed.tl, if_pos rfl]
  dsimp only
  rw [Dev.classify_slot (g := SlotRt.lastStamp) fun _ _ => rfl,
    Dev.slot_congr (Dev.when_slots (fun _ => Dev.slotViolation_slots _ _ _) _ _), Dev.slot_onSlot, if_pos rfl]
  rfl

theorem scannerDatagram_runs {s : State} {port : Fin 2} {ip dst : Nat} {payload : Bytes} {found : Found} {e : Dev} {i : Nat}
    (hready : s.dev.ready = true) (hquiet : s.dev.quiesced (Isl.eta + port) = false)
    (hflip : e = s.dev.flipSlots (slotHit 2 fun kp sel => sel % 2 == (port : Nat) && kp 0 == ip && kp 1 % 65536 == dst))
    (hslot : (e.slotFor 2 fun j => e.nat (Ob.slotSourceSelect j) % 2 == port && e.kp j 0 == ip && e.kp j 1 % 65536 == dst) = some i)
    (hfree : e.slotQuarantined i = false) (hlen : e.kp i 2 % 65536 + e.kp i 2 / 65536 ≤ payload.length) :
    Runs (.scannerDatagram port ip dst false payload found) s fun d => e.reg (Ob.slotModelMode i) = 0 →
      (d.slot i).lastStamp = some (((e.replica (Isl.eta + port) : Int) - e.reg (Ob.slotTransitMin i)) % 281474976710656).toNat := by
  refine Runs.of_onDev (show execScannerDatagram port ip dst false payload found s = onDev _ s from rfl) fun hmode => ?_
  rw [hready, hquiet]
  dsimp only
  rw [← hflip, Dev.settle_slot]
  exact Dev.scannerDatagram_lastStamp found hslot hfree hlen hmode

/-! SPI sensors (R175, R176). -/

theorem Dev.spiSelect_slot (d : Dev) (port i j : Nat) : (d.spiSelect port i).slot j = d.slot j := rfl

theorem imuDrdyEdge_runs {s : State} {port : Fin 4} {rising : Bool} {e : Dev} {i : Nat} (hrun : s.dev.running = true)
    (hquiet : s.dev.quiesced Isl.sns = false)
    (hflip : e = s.dev.flipSlots (slotHit 3 fun kp sel => sel % 4 == (port : Nat) && rising != bit (kp 0) 18))
    (hslot : e.spiSlot port = some i) (hedge : rising = !bit (e.kp i 0) 18) :
    Runs (.imuDrdyEdge port rising) s fun d =>
      ((e.slot i).busyAt = none → (d.slot i).busyAt = some (e.replica Isl.sns)
        ∧ .spiRead port (bits (e.kp i 0) 17 16) (e.kp i 0 % 65536)
          ((leBytes 4 (e.kp i 1) ++ leBytes 4 (e.kp i 2)).take (e.kp i 3 % 16)) (bits (e.kp i 3) 14 8) ∈ d.out)
      ∧ (∀ b, (e.slot i).busyAt = some b → e.slotQuarantined i = false → (d.slot i).busyAt = some b ∧ (d.slot i).overrun = true
        ∧ d.reg (Ob.slotOverruns i) = wrapTy (keyTy (Ob.slotOverruns i)) (e.reg (Ob.slotOverruns i) + 1)) := by
  obtain ⟨hi, -⟩ := Dev.slotFor_spec hslot
  have hactive : rising ≠ bit (e.kp i 0) 18 := by rw [hedge]; exact Bool.not_ne_self _
  refine Runs.of_onDev (show execImuDrdyEdge port rising s = onDev _ s from rfl) ?_
  rw [hrun, hquiet, ← hflip, if_neg (by decide)]
  unfold Dev.imuDrdy
  rw [hslot]
  dsimp only
  rw [if_neg hactive]
  refine ⟨fun hbusy => ?_, fun b hbusy hfree => ?_⟩
  · rw [hbusy, Dev.settle_slot, Dev.spiSelect_slot, Dev.slot_onSlot, if_pos rfl]
    exact ⟨rfl, Dev.settle_out List.mem_cons_self⟩
  · have hkey : Ob.slotOverruns i / 256 = 0x3000 + i := by unfold Ob.slotOverruns; omega
    rw [hbusy, hfree, Dev.settle_slot, Dev.settle_reg _ _ (slotKey_plain hi hkey).2]
    dsimp only
    rw [if_neg (by decide), Dev.slot_congr (Dev.slotViolation_slots _ _ _), Dev.slot_onSlot, if_pos rfl,
      Dev.slotViolation_reg _ _ _ hkey hi (by unfold Ob.slotOverruns Ob.slotState; omega)
        (by unfold Ob.slotOverruns Ob.slotViolations; omega), Dev.onSlot_reg, Dev.reg_bump, if_pos rfl]
    exact ⟨hbusy, rfl, rfl⟩

theorem Dev.slotBoundary_running {d : Dev} {s : Nat} (h : (d.slot s).stopping = false) : d.slotBoundary s = d := by
  unfold Dev.slotBoundary
  rw [h, if_neg (by decide)]

/-- A slot whose read is done, with the stamp of its item. -/
def SlotRt.readDone (r : SlotRt) (subject : Nat) : SlotRt := { r with busyAt := none, overrun := false, lastStamp := some subject }

/-- No read is in progress, and none was overrun. -/
def SlotRt.idle (r : SlotRt) : Prop := r.busyAt = none ∧ r.overrun = false

/-- The item of a read that is done, from where its handover left the device. -/
def Dev.spiItem (d : Dev) (i : Nat) (raw : Option Nat) (a : Int) (bad : Bool) (data : Bytes) : Dev :=
  let p := d.stampItem i raw a
  let subject := (p.1 % (span48 : Int)).toNat
  let e := p.2.2.onSlot i fun r => r.readDone subject
  e.classify i (e.slotCfg i) { subject := subject, bad := bad, ingest := p.2.1.toNat + 8 * (p.2.2.slot i).overrun.toNat } data

theorem Dev.spiItem_slot {β : Type} {g : SlotRt → β} (hg : ∀ now r, g (SlotRt.fed now r) = g r) (d : Dev) (i : Nat) (raw : Option Nat)
    (a : Int) (bad : Bool) (data : Bytes) : g ((d.spiItem i raw a bad data).slot i)
      = g (((d.stampItem i raw a).2.2.slot i).readDone ((d.stampItem i raw a).1 % (span48 : Int)).toNat) := by
  unfold Dev.spiItem
  rw [Dev.classify_slot hg, Dev.slot_onSlot, if_pos rfl]

theorem Dev.spiItem_idle (d : Dev) (i : Nat) (raw : Option Nat) (a : Int) (bad : Bool) (data : Bytes) :
    (((d.spiItem i raw a bad data).slotBoundary i).slot i).idle := by
  refine of_eq_true (Dev.slotBoundary_slot (g := SlotRt.idle) (fun _ => eq_true ⟨rfl, rfl⟩) ?_)
  rw [Dev.spiItem_slot (g := SlotRt.idle) fun _ _ => rfl]
  exact eq_true ⟨rfl, rfl⟩

theorem Dev.spiItem_lastStamp {d e : Dev} {i : Nat} (h : SlotPassed i d e) (hkind : d.nat (Ob.slotSourceKind i) = 3)
    (hmode : d.reg (Ob.slotModelMode i) = 0) (hon : (d.slot i).stopping = false) (raw : Option Nat) (a : Int) (bad : Bool)
    (data : Bytes) : (((e.spiItem i raw a bad data).slotBoundary i).slot i).lastStamp = some (a % 281474976710656).toNat := by
  have hstamp : e.stampItem i raw a = (a, false, e) := by
    rw [h.stampItem hmode, hkind, if_neg (by decide), Int.sub_zero]
  have hstay : ((e.spiItem i raw a bad data).slot i).stopping = false := by
    rw [Dev.spiItem_slot (g := SlotRt.stopping) fun _ _ => rfl, hstamp]
    exact (congrArg SlotRt.stopping (Dev.slot_congr h.slots i)).trans hon
  rw [Dev.slotBoundary_running hstay, Dev.spiItem_slot (g := SlotRt.lastStamp) fun _ _ => rfl, hstamp]
  rfl

theorem imuReadDone_runs {s : State} {port : Fin 4} {data : Bytes} {b i : Nat} (hquiet : s.dev.quiesced Isl.sns = false)
    (hslot : s.dev.spiSlot port = some i) (hbusy : (s.dev.slot i).busyAt = some b) :
    Runs (.imuReadDone port data) s fun d => (d.slot i).busyAt = none ∧ (d.slot i).overrun = false
      ∧ (s.dev.reg (Ob.slotModelMode i) = 0 → (s.dev.slot i).stopping = false → s.dev.slotQuarantined i = false →
        (d.slot i).lastStamp = some (((b : Int) - s.dev.kp i 4) % 281474976710656).toNat) := by
  obtain ⟨hi, hkind, -⟩ := Dev.slotFor_spec hslot
  refine Runs.of_onDev (show execImuReadDone port data s = onDev _ s from rfl) ?_
  rw [hquiet, hslot, Dev.settle_slot]
  dsimp only
  rw [hbusy, if_neg (by decide)]
  dsimp only
  split
  · next hbad =>
    have hdone : ∀ {x : Dev}, x.slots = (s.dev.onSlot i fun r => { r with busyAt := none, overrun := false }).slots →
        ((x.slotBoundary i).slot i).idle := fun hx => by
      refine of_eq_true (Dev.slotBoundary_slot (g := SlotRt.idle) (fun _ => eq_true ⟨rfl, rfl⟩) ?_)
      rw [Dev.slot_congr hx, Dev.slot_onSlot, if_pos rfl]
      exact eq_true ⟨rfl, rfl⟩
    have hidle := hdone (Dev.slotDiscard_slots _ i)
    exact ⟨hidle.1, hidle.2, fun _ _ hfree => absurd hbad (by rw [hfree]; decide)⟩
  · generalize (spiCrcOk _ _ _) = ok
    have hpassed : ∀ point, point < 16 → SlotPassed i s.dev
        ((s.dev.handover point 7 1 i { checkOk := ok, hasCoc := false }).when (!ok) fun d => d.slotViolation i 0x3041) :=
      fun point hp => (Dev.handover_slotPassed _ hi hp _ _ _ _).trans (.when (fun d => d.slotViolation_slotPassed hi _) _)
    have hpoint : (if bits (s.dev.kp i 3) 17 16 = 0 then 5 else 4) < 16 := by split <;> decide
    have hat := hpassed _ hpoint
    generalize ((s.dev.handover _ 7 1 i { checkOk := ok, hasCoc := false }).when (!ok) fun d => d.slotViolation i 0x3041) = e at hat
    rw [hat.kp (n := 4) (by decide)]
    exact ⟨(Dev.spiItem_idle e i _ _ _ _).1, (Dev.spiItem_idle e i _ _ _ _).2, fun hmode hon _ =>
      Dev.spiItem_lastStamp hat hkind hmode hon _ _ _ _⟩

/-! Encoders (R177, R178). -/

theorem Dev.enc_setEnc (d : Dev) (c : Nat) (x : EncCh) (j : Nat) : (d.setEnc c x).enc j = if j = c then x else d.enc j := by
  unfold Dev.setEnc Dev.enc
  by_cases hx : x = {} <;> by_cases hj : j = c <;> simp [hx, hj]

theorem Dev.enc_congr {d e : Dev} (h : e.encs = d.encs) (c : Nat) : e.enc c = d.enc c := by
  unfold Dev.enc
  rw [h]

theorem Dev.settle_enc (d0 d : Dev) (c : Nat) : (d0.settle d).enc c = d.enc c :=
  Dev.enc_congr ((Dev.settle_within (M := 0) rfl (.refl d) d0).encs rfl) c

theorem Dev.encoderStep_counts {d : Dev} {ch i : Nat} (hslot : d.encSlot ch = some i) (up : Bool) :
    (d.encoderStep ch (some up)).enc ch = { d.enc ch with
      count := (if up != bit (d.kp i 2) ch then (d.enc ch).count + 1 else (d.enc ch).count + 4294967295) % 4294967296
      last := some (d.replica Isl.sns), edges := ((d.enc ch).edges + 1) % 65536 } := by
  unfold Dev.encoderStep
  rw [hslot]
  exact (d.enc_setEnc _ _ _).trans (if_pos rfl)

theorem Dev.encoderStep_illegal {d : Dev} {ch i : Nat} (hslot : d.encSlot ch = some i) :
    (d.encoderStep ch none).enc ch = { d.enc ch with illegal := true } := by
  unfold Dev.encoderStep
  rw [hslot]
  dsimp only
  rw [Dev.enc_congr ((Dev.slotViolation_within (M := 33554432) rfl (.refl _) _ _).encs rfl), Dev.enc_setEnc, if_pos rfl]

theorem encoderTransition_runs {s : State} {ch : Fin 8} {e : Dev} {step : Option Bool} {x : EncCh} (hrun : s.dev.running = true)
    (hquiet : s.dev.quiesced Isl.sns = false) (hflip : e = s.dev.flipSlots (slotHit 4 fun _ sel => bit sel ch))
    (hstep : (e.encoderStep ch step).enc ch = x) : Runs (.encoderTransition ch step) s fun d => d.enc ch = x := by
  refine Runs.of_onDev (show execEncoderTransition ch step s = onDev _ s from rfl) ?_
  rw [hrun, hquiet, ← hflip, if_neg (by decide), Dev.settle_enc, hstep]

theorem encoderZEdge_runs {s : State} {ch : Fin 8} {i : Nat} (hrun : s.dev.running = true) (hquiet : s.dev.quiesced Isl.sns = false)
    (hslot : s.dev.encSlot ch = some i) (hpolarity : bit (s.dev.kp i 2) (8 + ch) = true) (hfirst : (s.dev.enc ch).z = none) :
    Runs (.encoderZEdge ch) s fun d => d.enc ch = { s.dev.enc ch with z := some (s.dev.enc ch).count } := by
  refine Runs.of_onDev (show execEncoderZEdge ch s = onDev _ s from rfl) ?_
  rw [hrun, hquiet, hslot, if_neg (by decide), Dev.settle_enc]
  dsimp only
  rw [if_pos (by rw [hpolarity, hfirst]; rfl), Dev.enc_setEnc, if_pos rfl]

/-- A channel at the start of a period (R178). -/
def EncCh.cleared (e : EncCh) : EncCh := { e with edges := 0, illegal := false, z := none }

theorem Dev.enc_each_cleared {l : List Nat} {d : Dev} {c : Nat} (hc : c ∈ l) :
    (d.each l fun d c => d.setEnc c (d.enc c).cleared).enc c = (d.enc c).cleared := by
  have hkeep : ∀ (l : List Nat) (d : Dev), (d.each l fun d c => d.setEnc c (d.enc c).cleared).enc c
      = if c ∈ l then (d.enc c).cleared else d.enc c := fun l => by
    induction l with
    | nil => exact fun d => rfl
    | cons a l ih =>
      intro d
      refine (ih _).trans ?_
      rw [Dev.enc_setEnc]
      by_cases ha : c = a <;> by_cases hl : c ∈ l <;> simp [ha, hl, EncCh.cleared]
  rw [hkeep, if_pos hc]

theorem Dev.encoderPeriod_cleared {d : Dev} {slot c : Nat} (hkind : d.nat (Ob.slotSourceKind slot) = 4) (hon : d.slotOn slot = true)
    (hstay : (d.slot slot).stopping = false) (hper : d.kp slot 0 ≠ 0) (hc : c ∈ setBits (d.nat (Ob.slotSourceSelect slot)) 8) :
    (d.encoderPeriod slot).enc c = (d.enc c).cleared := by
  unfold Dev.encoderPeriod
  rw [Dev.slotBoundary_running hstay]
  dsimp only
  rw [if_neg (by simp [hkind, hon, hper])]
  refine Eq.trans (Dev.enc_congr ?_ c) (Dev.enc_each_cleared hc)
  split
  · exact (Dev.slotDiscard_within (M := 33554432) rfl (.refl _) slot).encs rfl
  · exact (Dev.classify_within (M := 33555456) rfl (Dev.handover_within (by exact rfl) (.refl _) _ _ _ _ _) slot _ _ _).encs rfl

theorem encoderPeriodEnd_runs {s : State} {slot : Fin 32} {e : Dev} (hrun : s.dev.running = true)
    (hquiet : s.dev.quiesced Isl.sns = false) (hflip : e = s.dev.flipSlots fun g i => i == (slot : Nat) && g (Ob.slotSourceKind i) == 4)
    (hkind : e.nat (Ob.slotSourceKind slot) = 4) (henable : e.flag (Ob.slotEnable slot) = true)
    (hstay : (e.slot slot).stopping = false) (hper : e.kp slot 0 ≠ 0) :
    Runs (.encoderPeriodEnd slot) s fun d => ∀ c ∈ setBits (e.nat (Ob.slotSourceSelect slot)) 8,
      d.enc c = { e.enc c with edges := 0, illegal := false, z := none } := by
  refine Runs.of_onDev (show execEncoderPeriodEnd slot s = onDev _ s from rfl) fun c hc => ?_
  rw [hrun, hquiet, ← hflip, if_neg (by decide), Dev.settle_enc]
  exact Dev.encoderPeriod_cleared hkind (by unfold Dev.slotOn; rw [henable]; rfl) hstay hper hc

/-! The controllers of CAN sensors (R107, R179). -/

theorem canErrorFrame_runs {s : State} {ctl : Fin 2} (passive : Bool) (hon : s.dev.reg (Ob.canErrorState ctl) ≠ 2) :
    Runs (.canErrorFrame ctl passive) s fun d => d.reg (Ob.canErrorState ctl) = (if passive then 1 else 0)
      ∧ s.dev.KeepsRegs d [Ob.canErrorState ctl] := by
  refine Runs.of_onDev (show execCanErrorFrame ctl passive s = onDev _ s from rfl) ?_
  rw [if_neg hon]
  refine ⟨?_, fun k _ hsafe hk => ?_⟩
  · rw [Dev.settle_reg _ _ (by unfold Ob.canErrorState Ob.safeOutputState; omega)]
    exact (Dev.reg_set _ _ _ _).trans (if_pos rfl)
  · rw [Dev.settle_reg _ _ hsafe]
    exact (Dev.reg_set _ _ _ _).trans (if_neg (by simpa using hk))

theorem canSensorFrame_bad_runs {s : State} {ctl : Fin 2} {id : Nat} {ext : Bool} {data : Bytes} {found : Found}
    (hbad : found.checkOk = false) :
    Runs (.canSensorFrame ctl id ext data found) s fun d => d.slots = s.dev.slots ∧ s.dev.KeepsRegs d [] := by
  refine Runs.of_onDev (show execCanSensorFrame ctl id ext data found s = onDev _ s from rfl) ?_
  rw [hbad, Dev.settle_slots]
  refine ⟨?_, fun k _ hsafe _ => ?_⟩
  · split <;> rfl
  · rw [Dev.settle_reg _ _ hsafe]
    split <;> rfl

theorem Dev.canSensor_lastStamp {d : Dev} {ctl id i : Nat} {ext : Bool} (data : Bytes) (found : Found)
    (hslot : (d.slotFor 5 fun j => d.nat (Ob.slotSourceSelect j) % 2 == ctl && canMatch (d.kp j 0) (d.kp j 1) id ext) = some i)
    (hfree : d.slotQuarantined i = false) (hmode : d.reg (Ob.slotModelMode i) = 0) :
    ((d.canSensor ctl id ext data found).slot i).lastStamp = some (d.replica Isl.sns % 281474976710656) := by
  obtain ⟨hi, hkind, -⟩ := Dev.slotFor_spec hslot
  unfold Dev.canSensor
  rw [hslot]
  dsimp only
  rw [hfree, if_neg (by decide)]
  generalize ({ found with hasCoc := false } : Found) = fd
  have hpassed : SlotPassed i d (d.handover 2 9 1 i fd) := d.handover_slotPassed hi (by decide) _ _ _ _
  generalize d.handover 2 9 1 i fd = e at hpassed
  rw [hpassed.stampItem hmode, hkind, Dev.replica_congr hpassed.tl, if_neg (by decide)]
  dsimp only
  rw [Dev.classify_slot (g := SlotRt.lastStamp) fun _ _ => rfl, Dev.slot_onSlot, if_pos rfl]
  exact congrArg some (by simp only [span48]; omega)

theorem canSensorFrame_good_runs {s : State} {ctl : Fin 2} {id : Nat} {ext : Bool} {data : Bytes} {found : Found}
    (hrun : s.dev.running = true) (henable : s.dev.flag (Ob.canEnable ctl) = true) (hon : s.dev.reg (Ob.canErrorState ctl) ≠ 2)
    (hgood : found.checkOk = true) :
    Runs (.canSensorFrame ctl id ext data found) s fun d => .canAck ctl ∈ d.out
      ∧ ∀ e i, s.dev.quiesced Isl.sns = false →
        e = ((s.dev.countCan ctl false).send (.canAck ctl)).flipSlots
          (slotHit 5 fun kp sel => sel % 2 == (ctl : Nat) && canMatch (kp 0) (kp 1) id ext) →
        (e.slotFor 5 fun j => e.nat (Ob.slotSourceSelect j) % 2 == ctl && canMatch (e.kp j 0) (e.kp j 1) id ext) = some i →
        e.slotQuarantined i = false → e.reg (Ob.slotModelMode i) = 0 →
        (d.slot i).lastStamp = some (e.replica Isl.sns % 281474976710656) := by
  refine Runs.of_onDev (show execCanSensorFrame ctl id ext data found s = onDev _ s from rfl) ?_
  have hquiet : ((s.dev.countCan ctl false).send (.canAck ctl)).quiesced Isl.sns = s.dev.quiesced Isl.sns := rfl
  rw [hrun, henable, hgood, if_neg (by simp [hon]), if_neg (by decide)]
  dsimp only
  rw [hquiet]
  have hsent : .canAck ctl ∈ ((s.dev.countCan ctl false).send (.canAck ctl)).out := List.mem_cons_self
  generalize (s.dev.countCan ctl false).send (.canAck ctl) = d at hsent
  refine ⟨Dev.settle_out (Dev.ite_sent hsent ?_), fun e i hquiet hflip hslot hfree hmode => ?_⟩
  · rw [Dev.canSensor_out]
    exact Dev.flipSlots_sent hsent _
  · rw [Dev.settle_slot, hquiet, if_neg (by decide), ← hflip]
    exact Dev.canSensor_lastStamp data found hslot hfree hmode

/-! The model of a sensor's clock (R163, R164). -/

theorem Dev.restartModel_windows (d : Dev) (s : Nat) :
    ((d.restartModel s).slot s).ended = [] ∧ ((d.restartModel s).slot s).minima = [] := by
  unfold Dev.restartModel
  dsimp only
  rw [Dev.slot_congr (Dev.slotEvent_slots _ _ _)]
  generalize hf : (fun r : SlotRt => { r with prev := none, count := 0, best := none, ended := [], minima := [], badWin := 0 }) = f
  have hslot : ((d.onSlot s f).slot s) = f (d.slot s) := (Dev.slot_onSlot _ _ _ _).trans (if_pos rfl)
  subst hf
  exact ⟨congrArg SlotRt.ended hslot, congrArg SlotRt.minima hslot⟩

/-- A new fit of a model's line leaves its windows, or the model starts anew. -/
theorem Dev.refit_windows (d : Dev) (s : Nat) : (d.refit s).slots = d.slots
    ∨ ((d.refit s).slot s).ended = [] ∧ ((d.refit s).slot s).minima = [] := by
  unfold Dev.refit
  dsimp only
  split
  · exact .inl rfl
  · split
    · exact .inr (d.restartModel_windows s)
    · exact .inl rfl

theorem modelWindowEnd_runs {s : State} {slot : Fin 32} {b : Int × Int} {rest : List (Int × Int)}
    (hended : (s.dev.slot slot).ended = b :: rest) :
    Runs (.modelWindowEnd slot) s fun d =>
      ((d.slot slot).ended = rest ∧ (d.slot slot).minima = (b :: (s.dev.slot slot).minima).take 16)
      ∨ ((d.slot slot).ended = [] ∧ (d.slot slot).minima = []) := by
  refine Runs.of_onDev (show execModelWindowEnd slot s = onDev _ s from rfl) ?_
  dsimp only
  rw [hended, Dev.settle_slot]
  dsimp only
  generalize (s.dev.reg (Ob.slotModelState slot) == 2 && decide ((_ : Int) < _)) = far
  generalize (if far = true then (s.dev.slot slot).badWin + 1 else 0) = bad
  split
  · exact .inr (Dev.restartModel_windows _ _)
  · refine (Dev.refit_windows _ _).imp_left fun h => ?_
    rw [Dev.slot_congr h, Dev.slot_onSlot, if_pos rfl]
    exact ⟨rfl, rfl⟩

/-- Settles O38, a lemma for each of the commands. -/
theorem sensorCommandsRun : Obligations.SensorCommandsRun :=
  ⟨fun _ _ _ _ _ _ _ _ hready hquiet hflip hslot hfree hlen => scannerDatagram_runs hready hquiet hflip hslot hfree hlen,
    fun _ _ _ _ _ hrun hquiet hflip hslot hedge => imuDrdyEdge_runs hrun hquiet hflip hslot hedge,
    fun _ _ _ _ _ hquiet hslot hbusy => imuReadDone_runs hquiet hslot hbusy,
    fun _ _ _ _ hrun hquiet hflip hslot =>
      ⟨fun up => encoderTransition_runs hrun hquiet hflip (Dev.encoderStep_counts hslot up),
        encoderTransition_runs hrun hquiet hflip (Dev.encoderStep_illegal hslot)⟩,
    fun _ _ _ hrun hquiet hslot hpolarity hfirst => encoderZEdge_runs hrun hquiet hslot hpolarity hfirst,
    fun _ _ _ hrun hquiet hflip hkind henable hstay hper => encoderPeriodEnd_runs hrun hquiet hflip hkind henable hstay hper,
    fun _ _ _ _ _ _ =>
      ⟨fun hrun henable hon hgood => canSensorFrame_good_runs hrun henable hon hgood, fun hbad => canSensorFrame_bad_runs hbad⟩,
    fun _ _ passive hon => canErrorFrame_runs passive hon,
    fun _ _ _ _ hended => modelWindowEnd_runs hended⟩

end Sys2Proof.Machine
end

section
/-! Poses and grids: what their operations leave of the timeline, of the ticks, records and track of FUS, and of the objects of
0x3200 (08_fusion_grid R186-R189, R194). -/
namespace Sys2Proof.Machine

/-! The run-time state of a grid. -/

@[simp] theorem Dev.grid_onGrid (d : Dev) (g : Nat) (f : GridRt → GridRt) (j : Nat) :
    (d.onGrid g f).grid j = if j = g then f (d.grid g) else d.grid j := by
  unfold Dev.onGrid
  dsimp only
  generalize f (d.grid g) = r
  unfold Dev.grid Dev.onFus
  by_cases hr : r = {} <;> by_cases hj : j = g <;> simp [hr, hj]

theorem Dev.grid_congr {d e : Dev} (h : e.fus.grids = d.fus.grids) (j : Nat) : e.grid j = d.grid j := by
  unfold Dev.grid
  rw [h]

theorem Dev.settle_fus (d0 d : Dev) : (d0.settle d).fus = d.fus := (Dev.settle_within (M := 0) rfl (.refl d) d0).fus rfl

theorem Dev.settle_grid (d0 d : Dev) (j : Nat) : (d0.settle d).grid j = d.grid j :=
  Dev.grid_congr (congrArg Fus.grids (Dev.settle_fus d0 d)) j

/-- An object of 0x3200-0x32FF is no bookkeeping object and not SafeOutputState. -/
theorem fusionKey_plain {k : Nat} (hk : k / 65536 = 0x32) : ¬ BookKey k ∧ k ≠ Ob.safeOutputState := by
  unfold BookKey Ob.safeOutputState
  omega

/-! Work at the poses and the grids. -/

/-- Work at the poses and the grids moves, of FUS, the grids and the note of an empty track alone, and, of the objects of 0x3200,
PoseState alone; the timeline stands. -/
structure GridWork (d e : Dev) : Prop where
  tl : e.tl = d.tl
  fus : { e.fus with grids := d.fus.grids, emptyNoted := d.fus.emptyNoted } = d.fus
  reg : ∀ k, k / 256 = 0x3200 → k ≠ Ob.poseState → e.reg k = d.reg k

namespace GridWork
variable {a d e : Dev}

theorem refl (d : Dev) : GridWork d d := ⟨rfl, rfl, fun _ _ _ => rfl⟩

theorem trans (h : GridWork a d) (k : GridWork d e) : GridWork a e :=
  ⟨k.tl.trans h.tl, by rw [← h.fus, ← k.fus], fun x hx hp => (k.reg x hx hp).trans (h.reg x hx hp)⟩

theorem track (h : GridWork d e) : e.fus.track = d.fus.track := (congrArg Fus.track h.fus :)

theorem due (h : GridWork d e) : e.fus.due = d.fus.due := (congrArg Fus.due h.fus :)

theorem lastTick (h : GridWork d e) : e.fus.lastTick = d.fus.lastTick := (congrArg Fus.lastTick h.fus :)

theorem of_within (w : Within 0 d e) (h : Booked d e) : GridWork d e :=
  ⟨w.tl rfl, by rw [w.fus rfl], fun k hk _ => h k (fusionKey_plain (by omega)).1⟩

theorem each {α : Type} {f : Dev → α → Dev} (h : ∀ d x, GridWork d (f d x)) (l : List α) (d : Dev) : GridWork d (d.each l f) := by
  induction l generalizing d with
  | nil => exact .refl d
  | cons x l ih => exact (h d x).trans (ih _)

theorem when {f : Dev → Dev} (h : ∀ d, GridWork d (f d)) (b : Bool) (d : Dev) : GridWork d (d.when b f) := by
  unfold Dev.when
  split
  · exact h d
  · exact .refl d

theorem setPoseState (d : Dev) (v : Int) : GridWork d (d.set Ob.poseState v) :=
  ⟨rfl, rfl, fun _ _ hk => (d.reg_set _ _ v).trans (if_neg hk)⟩

theorem event (d : Dev) (ev : Ev) : GridWork d (d.event ev) :=
  .of_within (Dev.event_within .zero (.refl d) ev) (Dev.event_booked (.refl d) ev)

theorem onGrid (d : Dev) (g : Nat) (f : GridRt → GridRt) : GridWork d (d.onGrid g f) := ⟨rfl, rfl, fun _ _ _ => rfl⟩

theorem setStage (d : Dev) (k : Nat) (l : List Item) : GridWork d (d.setStage k l) := ⟨rfl, rfl, fun _ _ _ => rfl⟩

theorem consume (d : Dev) (k : Nat) (it : Item) : GridWork d (d.consume k it) :=
  .of_within (Dev.consume_within .zero (.refl d) k it) (Dev.genDec_booked (d := d.setStage k _) (Booked.refl d) it)

theorem settle (d0 d : Dev) : GridWork d (d0.settle d) :=
  have w := Dev.settle_within (M := 0) rfl (.refl d) d0
  ⟨w.tl rfl, by rw [w.fus rfl], fun _ hk _ => Dev.settle_reg d0 d (fusionKey_plain (by omega)).2⟩

theorem notePose (d : Dev) (case : Nat) : GridWork d (d.notePose case) := by
  unfold Dev.notePose
  dsimp only
  split
  · exact .setPoseState d 2
  · split
    · split
      · exact .refl d
      · exact (GridWork.setPoseState d 3).trans (.event _ _)
    · split
      · exact GridWork.trans (d := d.onFus fun u => { u with emptyNoted := true }) ⟨rfl, rfl, fun _ _ _ => rfl⟩ (.event _ _)
      · exact .refl d

theorem closeGrid (d : Dev) (g t : Nat) : GridWork d (d.closeGrid g t) := by
  unfold Dev.closeGrid
  dsimp only
  split
  · exact .refl d
  · split
    · refine GridWork.trans ?_ (.event _ _)
      exact ⟨rfl, rfl, fun k hk _ => (Dev.reg_bump _ _ _).trans (if_neg (by unfold Ob.gridGridsSkipped; omega))⟩
    · exact .onGrid d g _

theorem releaseFrames (d : Dev) : GridWork d d.releaseFrames := by
  refine .each (fun d it => ?_) _ d
  split
  · exact .refl d
  · exact (GridWork.each (fun d (p : Pose) => .notePose d p.case) _ d).trans ((GridWork.setStage _ _ _).trans (.setStage _ _ _))

end GridWork

theorem Dev.notePose_grids (d : Dev) (case : Nat) : (d.notePose case).fus.grids = d.fus.grids := by
  unfold Dev.notePose
  dsimp only
  repeat' split
  all_goals simp

theorem Dev.releaseFrames_grids (d : Dev) : d.releaseFrames.fus.grids = d.fus.grids := by
  refine Dev.each_keeps (g := fun d => d.fus.grids) (fun d it => ?_) _ d
  split
  · rfl
  · exact (Dev.each_keeps (g := fun d => d.fus.grids) (fun d (p : Pose) => d.notePose_grids p.case) _ d :)

/-! The poses of the closes (R188, R189). -/

/-- PoseWait has passed since the close of a window. -/
def Dev.poseWaitOver (d : Dev) (close : Nat) : Bool := atOrAfter d.now (stampAdd close (d.reg Ob.poseWait * 1000))

theorem GridWork.poseWaitOver {d e : Dev} (h : GridWork d e) (close : Nat) : e.poseWaitOver close = d.poseWaitOver close := by
  unfold Dev.poseWaitOver Dev.now
  rw [h.tl, h.reg _ (by decide) (by decide)]

/-- A build that is `b` keeps the track that resolved it. -/
def GridRt.withTrack (r : GridRt) (b : GridBuild) (track : List PoseRec) : GridRt :=
  { r with builds := r.builds.map fun x => if x = b then { x with track := some track } else x }

/-- What one build of a grid takes from the track. -/
def Dev.resolveBuild (d : Dev) (g : Nat) (b : GridBuild) : Dev :=
  if b.track.isSome then d
  else match d.poseIn d.fus.track (d.poseWaitOver b.close) b.close with
    | none => d
    | some p => (d.notePose p.case).onGrid g fun r => r.withTrack b d.fus.track

theorem Dev.resolveBuilds_eq (d : Dev) :
    d.resolveBuilds = d.each (List.range 4) fun d g => d.each (d.grid g).builds fun d b => d.resolveBuild g b := rfl

/-- Past PoseWait every stamp has its pose, were it a missing one (R188). -/
theorem Dev.poseIn_past (d : Dev) (track : List PoseRec) (s : Nat) : (d.poseIn track true s).isSome = true := by
  unfold Dev.poseIn resolvePose
  cases track with
  | nil => rfl
  | cons n older =>
    dsimp only
    split
    · simp only [Bool.not_true, Bool.false_eq_true, if_false]
      split <;> rfl
    · split <;> rfl

/-- A build is left as it is, where it has its track or PoseWait is not over, or takes the track. -/
theorem Dev.resolveBuild_cases (d : Dev) (g : Nat) (b : GridBuild) :
    (d.resolveBuild g b = d ∧ (d.poseWaitOver b.close = true → b.track.isSome = true))
      ∨ ∃ case, d.resolveBuild g b = (d.notePose case).onGrid g fun r => r.withTrack b d.fus.track := by
  unfold Dev.resolveBuild
  split
  · next htrack => exact .inl ⟨rfl, fun _ => htrack⟩
  · split
    · next hpose =>
      refine .inl ⟨rfl, fun hover => ?_⟩
      have hsome := d.poseIn_past d.fus.track b.close
      rw [hover] at hpose
      rw [hpose] at hsome
      cases hsome
    · exact .inr ⟨_, rfl⟩

theorem GridWork.resolveBuild (d : Dev) (g : Nat) (b : GridBuild) : GridWork d (d.resolveBuild g b) := by
  rcases d.resolveBuild_cases g b with ⟨h, -⟩ | ⟨case, h⟩ <;> rw [h]
  · exact .refl d
  · exact (GridWork.notePose d case).trans (.onGrid _ _ _)

theorem GridWork.resolveBuilds (d : Dev) : GridWork d d.resolveBuilds :=
  .each (fun d g => .each (fun d b => .resolveBuild d g b) _ d) _ d

theorem Dev.resolveBuild_grid_other (d : Dev) {g j : Nat} (hj : j ≠ g) (b : GridBuild) : (d.resolveBuild g b).grid j = d.grid j := by
  rcases d.resolveBuild_cases g b with ⟨h, -⟩ | ⟨case, h⟩ <;> rw [h]
  rw [Dev.grid_onGrid, if_neg hj, Dev.grid_congr (d.notePose_grids case)]

/-- Every build of a grid whose PoseWait is over at `d0` has its track, but for those of `l`. -/
def Dev.ResolvedBut (d0 d : Dev) (g : Nat) (l : List GridBuild) : Prop :=
  ∀ b ∈ (d.grid g).builds, d0.poseWaitOver b.close = true → b.track.isSome = true ∨ b ∈ l

/-- A build taken up is resolved, if its PoseWait is over. -/
theorem Dev.ResolvedBut.step {d0 d : Dev} {g : Nat} {b : GridBuild} {l : List GridBuild} (hwork : GridWork d0 d)
    (h : d0.ResolvedBut d g (b :: l)) : d0.ResolvedBut (d.resolveBuild g b) g l := by
  have hrest : ∀ x ∈ (d.grid g).builds, x ≠ b → d0.poseWaitOver x.close = true → x.track.isSome = true ∨ x ∈ l :=
    fun x hx hne hover => (h x hx hover).imp_right fun hmem => (List.mem_cons.1 hmem).resolve_left hne
  intro x hx hover
  rcases d.resolveBuild_cases g b with ⟨heq, hdone⟩ | ⟨case, heq⟩ <;> rw [heq] at hx
  · by_cases hxb : x = b
    · subst hxb
      exact .inl (hdone ((hwork.poseWaitOver x.close).trans hover))
    · exact hrest x hx hxb hover
  · rw [Dev.grid_onGrid, if_pos rfl, Dev.grid_congr (d.notePose_grids case)] at hx
    obtain ⟨y, hy, rfl⟩ := List.mem_map.1 hx
    by_cases hyb : y = b
    · rw [if_pos hyb]
      exact .inl rfl
    · rw [if_neg hyb] at hover ⊢
      exact hrest y hy hyb hover

theorem Dev.ResolvedBut.each {d0 d : Dev} {g : Nat} {l : List GridBuild} (hwork : GridWork d0 d) (h : d0.ResolvedBut d g l) :
    d0.ResolvedBut (d.each l fun d b => d.resolveBuild g b) g [] := by
  induction l generalizing d with
  | nil => exact h
  | cons b l ih => exact ih (hwork.trans (.resolveBuild d g b)) (h.step hwork)

/-- Grids taken up in turn are resolved, and those resolved before stay so. -/
theorem Dev.each_resolved {d0 d : Dev} {l : List Nat} (hwork : GridWork d0 d) {j : Nat} (h : j ∈ l ∨ d0.ResolvedBut d j []) :
    d0.ResolvedBut (d.each l fun d g => d.each (d.grid g).builds fun d b => d.resolveBuild g b) j [] := by
  induction l generalizing d with
  | nil => exact h.resolve_left List.not_mem_nil
  | cons g l ih =>
    refine ih (hwork.trans (.each (fun d b => .resolveBuild d g b) _ d)) ?_
    by_cases hj : j = g
    · subst hj
      exact .inr (Dev.ResolvedBut.each hwork fun b hb _ => .inr hb)
    · refine h.imp (fun hmem => (List.mem_cons.1 hmem).resolve_left hj) fun hdone => ?_
      have hgrid : (d.each (d.grid g).builds fun d b => d.resolveBuild g b).grid j = d.grid j :=
        Dev.each_keeps (g := fun d => d.grid j) (fun d b => d.resolveBuild_grid_other hj b) _ d
      unfold Dev.ResolvedBut at hdone ⊢
      rw [hgrid]
      exact hdone

/-- Past PoseWait every close of the four grids has its track. -/
theorem Dev.resolveBuilds_resolved (d : Dev) {g : Nat} (hg : g < 4) {b : GridBuild} (hb : b ∈ (d.resolveBuilds.grid g).builds)
    (hover : d.poseWaitOver b.close = true) : b.track.isSome = true :=
  (Dev.each_resolved (.refl d) (.inl (List.mem_range.2 hg)) b hb hover).resolve_right List.not_mem_nil

end Sys2Proof.Machine
end

section
/-! The commands of FUS: ticks, poses, the resampler and the grids (08_fusion_grid R182-R197). -/
namespace Sys2Proof.Machine

/-! Poses (R187, R188). -/

/-- The track takes a record, its newest. -/
def Dev.trackRecord (d : Dev) (data : Bytes) : Dev :=
  ((d.onFus fun u => { u with track := ({ stamp := leAt data 0 6, raw := data } :: u.track).take 256, emptyNoted := false }).setN
    Ob.poseNewest (leAt data 0 6)).set Ob.poseState 1

/-- What the track's taking a record leaves, past the work that it sets off. -/
theorem GridWork.trackRecord {d e : Dev} {data : Bytes} (h : GridWork (d.trackRecord data) e) :
    e.fus.track = ({ stamp := leAt data 0 6, raw := data } :: d.fus.track).take 256 ∧ e.reg Ob.poseNewest = (leAt data 0 6 : Nat) := by
  refine ⟨h.track, (h.reg _ (by decide) (by decide)).trans ?_⟩
  unfold Dev.trackRecord
  rw [Dev.reg_set, if_neg (by decide), Dev.reg_setN, if_pos rfl]

theorem poseRecord_runs {s : State} {it : Item} {e : Dev} (hquiet : s.dev.quiesced Isl.fus = false)
    (hqueue : s.dev.nat Ob.poseQueue ≠ 0xFFFF) (hread : s.dev.readQueue (s.dev.nat Ob.poseQueue) = some (it, e))
    (hlen : it.data.length = 48) (hnewer : ∀ p, s.dev.fus.track.head? = some p → after (leAt it.data 0 6) p.stamp = true) :
    Runs .poseRecord s fun d => d.fus.track = ({ stamp := leAt it.data 0 6, raw := it.data } :: s.dev.fus.track).take 256
      ∧ d.reg Ob.poseNewest = (leAt it.data 0 6 : Nat) := by
  refine Runs.of_onDev (show execPoseRecord s = onDev _ s from rfl) ?_
  dsimp only
  rw [hquiet, if_neg (by simp [hqueue]), hread]
  dsimp only
  generalize hd : (e.when (e.holdsGen (s.dev.nat Ob.poseQueue)) fun d => d.genDec it) = d
  have hfus : d.fus = s.dev.fus := by
    have w : Within 0 s.dev d := hd ▸ .when (Dev.readQueue_of .zero (.refl s.dev) hread) fun d => Dev.genDec_within .zero (.refl d) it
    exact w.fus rfl
  rw [if_pos ?newer, ← hfus]
  · exact GridWork.trackRecord
      ((GridWork.resolveBuilds (d.trackRecord it.data)).trans ((GridWork.releaseFrames _).trans (.settle _ _)))
  case newer =>
    rw [hfus, hlen]
    cases htrack : s.dev.fus.track with
    | nil => rfl
    | cons p l => simpa using hnewer p (by rw [htrack]; rfl)

theorem poseWaitExpiry_runs {s : State} (hquiet : s.dev.quiesced Isl.fus = false) :
    Runs .poseWaitExpiry s fun d => ∀ g, g < 4 → ∀ b ∈ (d.grid g).builds,
      atOrAfter s.dev.now (stampAdd b.close (s.dev.reg Ob.poseWait * 1000)) = true → b.track.isSome = true := by
  refine Runs.of_onDev (show execPoseWaitExpiry s = onDev _ s from rfl) fun g hg b hb hover => ?_
  rw [hquiet, if_neg (by decide), Dev.settle_grid, Dev.grid_congr (Dev.releaseFrames_grids _)] at hb
  exact s.dev.resolveBuilds_resolved hg hb hover

/-! Ticks (R182). -/

/-- A tick is noted and counted. -/
def Dev.tickAdded (d : Dev) : Dev := (d.onFus fun u => { u with lastTick := some (d.ext / d.tickNs) }).bump Ob.tickCount

/-- A tick owes a record where the resampler is enabled. -/
def Dev.tickCounted (d : Dev) : Dev :=
  d.tickAdded.when (d.tickAdded.flag Ob.resampleEnable) fun e =>
    e.onFus fun u => { u with due := u.due ++ [d.ext / d.tickNs * d.tickNs % span48] }

theorem Dev.tickAdded_enable (d : Dev) : d.tickAdded.flag Ob.resampleEnable = d.flag Ob.resampleEnable := by
  unfold Dev.flag Dev.tickAdded
  rw [Dev.reg_bump, if_neg (by decide), Dev.onFus_reg]

/-- What a tick's count leaves, past the work that it sets off. -/
theorem GridWork.tickCounted {d e : Dev} (h : GridWork d.tickCounted e) :
    e.fus.lastTick = some (d.ext / d.tickNs) ∧ e.reg Ob.tickCount = wrapTy (keyTy Ob.tickCount) (d.reg Ob.tickCount + 1)
      ∧ e.fus.due = if d.flag Ob.resampleEnable then d.fus.due ++ [d.ext / d.tickNs * d.tickNs % span48] else d.fus.due := by
  rw [h.lastTick, h.due, h.reg _ (by decide) (by decide)]
  unfold Dev.tickCounted Dev.when
  rw [Dev.tickAdded_enable]
  split <;> exact ⟨rfl, (Dev.reg_bump _ _ _).trans (if_pos rfl), rfl⟩

theorem gridTick_runs {s : State} (hquiet : s.dev.quiesced Isl.fus = false) (hrun : s.dev.tl.running = true)
    (hnew : s.dev.fus.lastTick ≠ some (s.dev.ext / s.dev.tickNs)) :
    Runs .gridTick s fun d => d.fus.lastTick = some (s.dev.ext / s.dev.tickNs)
      ∧ d.reg Ob.tickCount = wrapTy (keyTy Ob.tickCount) (s.dev.reg Ob.tickCount + 1)
      ∧ d.fus.due = if s.dev.flag Ob.resampleEnable
          then s.dev.fus.due ++ [s.dev.ext / s.dev.tickNs * s.dev.tickNs % span48] else s.dev.fus.due := by
  refine Runs.of_onDev (show execGridTick s = onDev _ s from rfl) ?_
  dsimp only
  rw [hrun, hquiet, if_neg (by simp [hnew])]
  have hcloses : ∀ (d : Dev) (k t : Nat), GridWork d (d.each (List.range 4) fun d g =>
      d.when (d.flag (Ob.gridEnable g) && k % Nat.max 1 (d.nat (Ob.gridUpdateTicks g)) == 0) fun d => d.closeGrid g t) :=
    fun d k t => .each (fun d g => .when (fun d => .closeGrid d g t) _ d) _ d
  exact GridWork.tickCounted ((GridWork.each (fun d it => .when (fun d => .consume d 3 it) _ d) _ _).trans
    ((hcloses _ _ _).trans ((GridWork.resolveBuilds _).trans (.settle _ _))))

/-! Tick records (R185, R186). -/

theorem Dev.resampleBlock_recSeq (d : Dev) (i slot t : Nat) : (d.resampleBlock i slot t).2.2.fus.recSeq = d.fus.recSeq := by
  unfold Dev.resampleBlock
  dsimp only
  split <;> rfl

theorem Dev.inputBlock_recSeq (d : Dev) (t i : Nat) : (d.inputBlock t i).2.fus.recSeq = d.fus.recSeq := by
  unfold Dev.inputBlock
  split
  · rfl
  · next slot _ =>
    refine Eq.trans ?_ (d.resampleBlock_recSeq i slot t)
    unfold Dev.when
    dsimp only
    split <;> simp

theorem Dev.recordBlocks_recSeq (d : Dev) (t : Nat) (l : List Nat) : (d.recordBlocks t l).2.fus.recSeq = d.fus.recSeq := by
  induction l generalizing d with
  | nil => rfl
  | cons i l ih => exact (ih _).trans (d.inputBlock_recSeq t i)

theorem resampleTickRecord_runs {s : State} {t : Nat} {rest : List Nat} (hquiet : s.dev.quiesced Isl.fus = false)
    (hdue : s.dev.fus.due = t :: rest) (hready : s.dev.recordDue t = true) :
    Runs .resampleTickRecord s fun d => d.fus.due = rest ∧ d.fus.recSeq = (s.dev.fus.recSeq + 1) % 4294967296 := by
  refine Runs.of_onDev (show execResampleTickRecord s = onDev _ s from rfl) ?_
  dsimp only
  rw [hquiet, if_neg (by decide), hdue]
  dsimp only
  rw [hready, if_neg (by decide), ← s.dev.recordBlocks_recSeq t (List.range 8)]
  generalize s.dev.recordBlocks t (List.range 8) = blocks
  obtain ⟨bytes, d⟩ := blocks
  dsimp only
  have hdrop := Dev.dropSamples_within .zero
    (.refl (M := 0) (d.onFus fun u => { u with due := rest, recSeq := (u.recSeq + 1) % 4294967296 })) t
  rw [Dev.settle_fus]
  split
  · rw [hdrop.fus rfl]
    exact ⟨rfl, rfl⟩
  · rw [(Dev.emitItem_within .zero hdrop _ _ _ _).fus rfl]
    exact ⟨rfl, rfl⟩

/-! Points (R190, R195). -/

theorem Dev.stageItems_congr {d e : Dev} (h : e.stage = d.stage) (k : Nat) : e.stageItems k = d.stageItems k := by
  unfold Dev.stageItems
  rw [h]

@[simp] theorem Dev.stageItems_setStage (d : Dev) (k : Nat) (l : List Item) (j : Nat) :
    (d.setStage k l).stageItems j = if j = k then l else d.stageItems j := by
  unfold Dev.stageItems Dev.setStage
  by_cases hl : l = [] <;> by_cases hj : j = k <;> simp [hl, hj]

theorem Dev.consume_stageItems (d : Dev) (k : Nat) (it : Item) : (d.consume k it).stageItems k = (d.stageItems k).erase it := by
  have hstage : (d.consume k it).stage = (d.setStage k ((d.stageItems k).erase it)).stage :=
    (congrArg Dev.stage (Dev.genDec_queueOnly (.refl (d.setStage k ((d.stageItems k).erase it))) it).eq :)
  rw [Dev.stageItems_congr hstage, Dev.stageItems_setStage, if_pos rfl]

@[simp] theorem Dev.onGrid_stage (d : Dev) (g : Nat) (f : GridRt → GridRt) : (d.onGrid g f).stage = d.stage := by
  simp [Dev.onGrid]

/-- What a step under a condition keeps, the condition keeps. -/
theorem Dev.when_keeps {β : Type} {g : Dev → β} {f : Dev → Dev} (h : ∀ d, g (f d) = g d) (b : Bool) (d : Dev) :
    g (d.when b f) = g d := by
  unfold Dev.when
  split
  · exact h d
  · rfl

theorem Dev.storePoint_stage (d : Dev) (g : Nat) (p : Point) : (d.storePoint g p).stage = d.stage := by
  rw [Dev.storePoint]
  split
  · split <;> simp
  · split
    · extract_lets past b'
      rw [Dev.onGrid_stage]
      exact Dev.when_keeps (g := Dev.stage) (fun d => by simp) past d
    · simp

/-- A scanner item's points at one grid. -/
def Dev.storePoints (d : Dev) (it : Item) (all : List Point) (g : Nat) : Dev :=
  let ps := all.filter fun p => d.gridTakes g it.srcNum p.stamp
  if ps = [] then d
  else
    let was := (d.grid g).late
    let d := d.each ps fun d p => d.storePoint g p
    d.when (decide (was < (d.grid g).late)) fun d =>
      d.event { code := 0x3064, island := Isl.fus, d1 := g, d2 := (d.grid g).late - was }

theorem Dev.storePoints_stageItems (d : Dev) (it : Item) (all : List Point) (g k : Nat) :
    (d.storePoints it all g).stageItems k = d.stageItems k := by
  rw [Dev.storePoints]
  split
  · rfl
  · exact (Dev.when_keeps (g := fun d => d.stageItems k) (fun d => Dev.stageItems_congr (by simp) k) _ _).trans
      (Dev.each_keeps (g := fun d => d.stageItems k) (fun d p => Dev.stageItems_congr (d.storePoint_stage g p) k) _ d)

theorem Dev.settle_stageItems (d0 d : Dev) (k : Nat) : (d0.settle d).stageItems k = d.stageItems k :=
  Dev.stageItems_congr (by simp [Dev.settle]) k

theorem gridPointItem_runs {s : State} {it : Item} {l : List Item} (hquiet : s.dev.quiesced Isl.fus = false)
    (hstage : s.dev.stageItems 0 = it :: l) : Runs .gridPointItem s fun d => d.stageItems 0 = l := by
  have hconsumed : (s.dev.consume 0 it).stageItems 0 = l := by
    rw [Dev.consume_stageItems, hstage, List.erase_cons_head]
  refine Runs.of_onDev (show execGridPointItem s = onDev _ s from rfl) ?_
  rw [Dev.settle_stageItems, hquiet, if_neg (by decide), hstage]
  dsimp only
  split
  · exact hconsumed
  · exact (Dev.each_keeps (g := fun d => d.stageItems 0)
      (fun d g => d.storePoints_stageItems it ((s.dev.consume 0 it).itemPoints it) g 0) _ _).trans hconsumed

theorem pointWaitExpiry_runs {s : State} (hquiet : s.dev.quiesced Isl.fus = false) (g : Fin 4) :
    Runs (.pointWaitExpiry g) s fun d => (d.grid g).builds = (s.dev.grid g).builds.map fun b =>
      if atOrAfter s.dev.now (stampAdd b.close (s.dev.reg (Ob.gridPointWait g) * 1000)) then { b with pointsDone := true } else b := by
  refine Runs.of_onDev (show execPointWaitExpiry g s = onDev _ s from rfl) ?_
  dsimp only
  rw [hquiet, if_neg (by decide), Dev.settle_grid, Dev.grid_onGrid, if_pos rfl]

end Sys2Proof.Machine
end

section
/-! Grid builds: what is written of a build and what is sent of it (08_fusion_grid R194-R196). -/
namespace Sys2Proof.Machine

theorem Dev.judgeLate_booked {d₀ d : Dev} (h : Booked d₀ d) (it : Item) (late : Bool) : Booked d₀ (d.judgeLate it late).2 := by
  unfold Dev.judgeLate
  split
  · exact Dev.event_booked h _
  · exact h

theorem Dev.toStage_booked {d₀ d : Dev} (h : Booked d₀ d) (k : Nat) (it : Item) : Booked d₀ (d.toStage k it) := by
  unfold Dev.toStage
  exact .ite (Dev.absentReply_booked h _) (Dev.genInc_booked h it)

theorem Booked.safe_set {a d : Dev} {x : Safe} (h : Booked a d) : Booked a { d with safe := x } := h

theorem Dev.nextSeq_booked {a d : Dev} (h : Booked a d) (kind num : Nat) : Booked a (d.nextSeq kind num) := h

/-- What is sent of a grid's build, and counted of its points, leaves DRAM and FUS, and of the grid's objects all but those
counts. -/
structure BuildSent (g : Nat) (d e : Dev) : Prop where
  mem : e.mem = d.mem
  fus : e.fus = d.fus
  reg : ∀ k, k / 256 = 0x3220 + g → k ≠ Ob.gridPointsBinned g → k ≠ Ob.gridPointsOutside g → e.reg k = d.reg k

namespace BuildSent
variable {g : Nat} {a d e : Dev}

theorem refl (g : Nat) (d : Dev) : BuildSent g d d := ⟨rfl, rfl, fun _ _ _ _ => rfl⟩

theorem trans (h : BuildSent g a d) (k : BuildSent g d e) : BuildSent g a e :=
  ⟨k.mem.trans h.mem, k.fus.trans h.fus, fun x hx hb ho => (k.reg x hx hb ho).trans (h.reg x hx hb ho)⟩

theorem of_within (hg : g < 4) (w : Within 0 d e) (h : Booked d e) : BuildSent g d e :=
  ⟨w.mem rfl, w.fus rfl, fun k hk _ _ => h k (fusionKey_plain (by omega)).1⟩

theorem when {f : Dev → Dev} (h : ∀ d, BuildSent g d (f d)) (b : Bool) (d : Dev) : BuildSent g d (d.when b f) := by
  unfold Dev.when
  split
  · exact h d
  · exact .refl g d

theorem countBinned (d : Dev) (n : Nat) : BuildSent g d (d.bumpBy (Ob.gridPointsBinned g) n) :=
  ⟨rfl, rfl, fun _ _ hb _ => (d.reg_bumpBy _ _ n).trans (if_neg hb)⟩

theorem countOutside (d : Dev) (n : Nat) : BuildSent g d (d.bumpBy (Ob.gridPointsOutside g) n) :=
  ⟨rfl, rfl, fun _ _ _ ho => (d.reg_bumpBy _ _ n).trans (if_neg ho)⟩

theorem settle (hg : g < 4) (d0 d : Dev) : BuildSent g d (d0.settle d) :=
  have w := Dev.settle_within (M := 0) rfl (.refl d) d0
  ⟨w.mem rfl, w.fus rfl, fun _ hk _ _ => Dev.settle_reg d0 d (fusionKey_plain (by omega)).2⟩

theorem seq (h : BuildSent g d e) : e.reg (Ob.gridSeq g) = d.reg (Ob.gridSeq g) := by
  unfold Ob.gridSeq
  exact h.reg _ (by omega) (by unfold Ob.gridPointsBinned; omega) (by unfold Ob.gridPointsOutside; omega)

theorem lastClose (h : BuildSent g d e) : e.reg (Ob.gridLastClose g) = d.reg (Ob.gridLastClose g) := by
  unfold Ob.gridLastClose
  exact h.reg _ (by omega) (by unfold Ob.gridPointsBinned; omega) (by unfold Ob.gridPointsOutside; omega)

end BuildSent

/-- The bytes of a build's buffer. -/
def Dev.gridBytes (d : Dev) (g : Nat) (b : GridBuild) : Bytes :=
  gridHeader g b (d.buildGrid (d.grid g) b) ((d.nat (Ob.gridSeq g) + 1) % 4294967296) ++ (d.buildGrid (d.grid g) b).cells

/-- Where the oldest build's buffer lies. -/
def Dev.gridAddr (d : Dev) (g : Nat) (b : GridBuild) : Nat := gridBuf g b.cfg ((d.grid g).closes - (d.grid g).builds.length)

/-- A build leaves its grid: its buffer is written, and an item kept for association alone lets go of it. -/
def Dev.buildStored (d : Dev) (g : Nat) (b : GridBuild) (rest : List GridBuild) : Dev :=
  let o := d.buildGrid (d.grid g) b
  let free := { d with ten := { d.ten with recent := d.ten.recent.filter fun x => !gridItemAt (d.gridAddr g b) x.2 } }
  (free.memWrite (d.gridAddr g b) (d.gridBytes g b)).onGrid g fun r => { r with builds := rest, occ := o.occ, ox := o.ox, oy := o.oy }

/-- The grid's objects show the sequence and the close of the build. -/
def Dev.buildWritten (d : Dev) (g : Nat) (b : GridBuild) (rest : List GridBuild) : Dev :=
  ((d.buildStored g b rest).setN (Ob.gridSeq g) ((d.nat (Ob.gridSeq g) + 1) % 4294967296)).setN (Ob.gridLastClose g) b.close

theorem Dev.buildWritten_builds (d : Dev) (g : Nat) (b : GridBuild) (rest : List GridBuild) :
    ((d.buildWritten g b rest).grid g).builds = rest := by
  rw [Dev.grid_congr (d := d.buildStored g b rest) (by simp [Dev.buildWritten]), Dev.buildStored, Dev.grid_onGrid, if_pos rfl]

theorem Dev.buildWritten_lastClose (d : Dev) (g : Nat) (b : GridBuild) (rest : List GridBuild) :
    (d.buildWritten g b rest).reg (Ob.gridLastClose g) = (b.close : Nat) := by
  rw [Dev.buildWritten, Dev.reg_setN, if_pos rfl]

theorem Dev.buildWritten_seq (d : Dev) (g : Nat) (b : GridBuild) (rest : List GridBuild) :
    (d.buildWritten g b rest).reg (Ob.gridSeq g) = ((d.nat (Ob.gridSeq g) + 1) % 4294967296 : Nat) := by
  rw [Dev.buildWritten, Dev.reg_setN, if_neg (by unfold Ob.gridSeq Ob.gridLastClose; omega), Dev.reg_setN, if_pos rfl]

theorem Dev.buildWritten_mem (d : Dev) (g : Nat) (b : GridBuild) (rest : List GridBuild) :
    (d.buildWritten g b rest).mem = Machine.memWrite d.mem (d.gridAddr g b) (d.gridBytes g b) := by
  simp [Dev.buildWritten, Dev.buildStored, Dev.memWrite, Dev.onGrid]

/-- The points of a build are counted, and its item, with the bytes `buf` at `a`, goes to the tensor engines, to the cupper and to
GridQueue. -/
def Dev.sendBuild (d : Dev) (g : Nat) (b : GridBuild) (o : GridOut) (a : Nat) (buf : Bytes) : Dev :=
  let d := (d.bumpBy (Ob.gridPointsBinned g) o.binned).bumpBy (Ob.gridPointsOutside g) o.outside
  let d := d.when (decide (0 < b.overflow)) fun d => d.event { code := 0x3066, island := Isl.fus, d1 := g, d2 := b.overflow }
  let it : Item := { subject := b.close, completion := d.stampIn Isl.fus, srcKind := 2, srcNum := g, volatile := true, payKind := 2,
                     len := buf.length, addr := a, payCheck := crc32c buf, producer := Isl.fus, seq := d.seqOf 2 g }
  let j := d.judgeLate (d.derived it) (decide (d.gridLatency g * d.tickNs < d.ago b.close))
  let d := (j.2.nextSeq 2 g).toStage 2 j.1
  let d := { d with safe := { d.safe with grids := kvPut d.safe.grids g j.1 } }
  d.when (b.cfg.queue != 0xFFFF) fun d => d.enqueue b.cfg.queue j.1

theorem BuildSent.sendBuild {g : Nat} (hg : g < 4) (d : Dev) (b : GridBuild) (o : GridOut) (a : Nat) (buf : Bytes) :
    BuildSent g d (d.sendBuild g b o a buf) := by
  have hsent : ∀ {d e : Dev}, Within 0 d e → Booked d e → BuildSent g d e := fun w h => .of_within hg w h
  unfold Dev.sendBuild
  extract_lets d1 d2 it j d3 safe d4
  have h1 : BuildSent g d d1 := (BuildSent.countBinned d o.binned).trans (.countOutside _ o.outside)
  have h2 : BuildSent g d1 d2 :=
    .when (fun d => hsent (Dev.event_within .zero (.refl d) _) (Dev.event_booked (.refl d) _)) _ d1
  obtain ⟨it', late, hj⟩ : ∃ it' late, j = d2.judgeLate it' late := ⟨_, _, rfl⟩
  have hlate : BuildSent g d2 j.2 := by
    rw [hj]
    exact hsent (Dev.judgeLate_snd .zero (.refl d2) it' late) (Dev.judgeLate_booked (.refl d2) it' late)
  have h3 : BuildSent g d2 d3 := hlate.trans (hsent (Dev.toStage_within .zero (Dev.nextSeq_within .zero (.refl j.2) 2 g) 2 j.1)
    (Dev.toStage_booked (Dev.nextSeq_booked (.refl j.2) 2 g) 2 j.1))
  have h4 : BuildSent g d3 d4 := hsent (.safe_set (.refl d3)) (.safe_set (.refl d3))
  exact (h1.trans h2).trans (h3.trans (h4.trans
    (.when (fun d => hsent (Dev.enqueue_within .zero (.refl d) _ _) (Dev.enqueue_booked (.refl d) _ _)) _ d4)))

/-- The oldest close of a grid whose points and poses are complete is written and sent. -/
def Dev.gridDone (d : Dev) (g : Nat) : Dev :=
  match (d.grid g).builds with
  | [] => d
  | b :: rest =>
    if d.quiesced Isl.fus || !b.pointsDone || b.track.isNone then d
    else (d.buildWritten g b rest).sendBuild g b (d.buildGrid (d.grid g) b) (d.gridAddr g b) (d.gridBytes g b)

theorem Dev.gridDone_eq {d : Dev} {g : Nat} {b : GridBuild} {rest : List GridBuild} (hquiet : d.quiesced Isl.fus = false)
    (hbuilds : (d.grid g).builds = b :: rest) (hpoints : b.pointsDone = true) (hpose : b.track.isSome = true) :
    d.gridDone g = (d.buildWritten g b rest).sendBuild g b (d.buildGrid (d.grid g) b) (d.gridAddr g b) (d.gridBytes g b) := by
  unfold Dev.gridDone
  rw [hbuilds]
  exact if_neg (by simp [hquiet, hpoints, Option.isSome_iff_ne_none.1 hpose])

theorem gridBuildDone_runs {s : State} (hquiet : s.dev.quiesced Isl.fus = false) {g : Fin 4} {b : GridBuild} {rest : List GridBuild}
    (hbuilds : (s.dev.grid g).builds = b :: rest) (hpoints : b.pointsDone = true) (hpose : b.track.isSome = true) :
    Runs (.gridBuildDone g) s fun d => (d.grid g).builds = rest ∧ d.reg (Ob.gridLastClose g) = (b.close : Nat)
      ∧ d.reg (Ob.gridSeq g) = ((s.dev.nat (Ob.gridSeq g) + 1) % 4294967296 : Nat)
      ∧ d.mem = Machine.memWrite s.dev.mem (s.dev.gridAddr g b) (s.dev.gridBytes g b) := by
  refine Runs.of_onDev (show execGridBuildDone g s = onDev (fun d => d.gridDone g) s from rfl) ?_
  rw [Dev.gridDone_eq hquiet hbuilds hpoints hpose]
  have hsent := (BuildSent.sendBuild g.isLt (s.dev.buildWritten g b rest) b (s.dev.buildGrid (s.dev.grid g) b) (s.dev.gridAddr g b)
    (s.dev.gridBytes g b)).trans (.settle g.isLt s.dev _)
  exact ⟨by rw [Dev.grid_congr (congrArg Fus.grids hsent.fus), Dev.buildWritten_builds],
    hsent.lastClose.trans (Dev.buildWritten_lastClose _ _ _ _), hsent.seq.trans (Dev.buildWritten_seq _ _ _ _),
    hsent.mem.trans (Dev.buildWritten_mem _ _ _ _)⟩

/-- Settles O39: what each command of FUS writes stands past the work that it sets off (`GridWork`, `BuildSent`). -/
theorem fusionCommandsRun : Obligations.FusionCommandsRun := fun _ hquiet =>
  ⟨fun _ _ hqueue hread hlen hnewer => poseRecord_runs hquiet hqueue hread hlen hnewer, poseWaitExpiry_runs hquiet,
    fun hrun hnew => gridTick_runs hquiet hrun hnew, fun _ _ hdue hready => resampleTickRecord_runs hquiet hdue hready,
    fun _ _ hstage => gridPointItem_runs hquiet hstage,
    fun g => ⟨pointWaitExpiry_runs hquiet g,
      fun _ _ hbuilds hpoints hpose => gridBuildDone_runs hquiet hbuilds hpoints hpose⟩⟩

end Sys2Proof.Machine
end

section
/-! Work on the feeds of the tensor engines: what queueing, skipping and dropping triggers, and counting them, leave alone
(09_tensor_engines R206, R207, R209, R210, R213). -/
namespace Sys2Proof.Machine

/-! The run-time state of a model. -/

@[simp] theorem Dev.model_onModel (d : Dev) (m : Nat) (f : ModelRt → ModelRt) (j : Nat) :
    (d.onModel m f).model j = if j = m then f (d.model m) else d.model j := by
  unfold Dev.onModel Dev.onTen
  dsimp only
  by_cases hf : f (d.model m) = {} <;> by_cases hj : j = m <;> simp [Dev.model, hj] <;> simp_all [Dev.model]

theorem Dev.model_congr {d e : Dev} (h : e.ten = d.ten) (j : Nat) : e.model j = d.model j := by
  unfold Dev.model
  rw [h]

theorem Dev.settle_ten (d0 d : Dev) : (d0.settle d).ten = d.ten :=
  (Dev.settle_within (M := 0) rfl (.refl d) d0).ten rfl

/-- What a model holds of its package: the package, its engines, the load, the copies and the unload under way. -/
def ModelRt.held (r : ModelRt) : Bytes × Nat × Nat × List Nat × Bool := (r.pkg, r.mask, r.loader, r.copying, r.unloading)

/-! The registers that tensor work moves. -/

theorem Dev.withPayload_booked {a d : Dev} (h : Booked a d) (it : Item) (data : Bytes) : Booked a (d.withPayload it data).2 := by
  unfold Dev.withPayload
  dsimp only
  repeat' split
  all_goals exact h

theorem Dev.emitItem_booked {a d : Dev} (h : Booked a d) (q : Nat) (it : Item) (data : Bytes) (late : Bool) :
    Booked a (d.emitItem q it data late) :=
  Dev.enqueue_booked (Dev.nextSeq_booked (Dev.judgeLate_booked (Dev.withPayload_booked h _ _) _ _) _ _) _ _

/-- The objects that tensor work moves: bookkeeping, PoseState, the free pool and decks and the count of resident packages, the
counts of the engines, and, of a model, Placement, Skipped, Late, InputDropped and MeanRunTime. -/
abbrev TensorKey (k : Nat) : Prop :=
  BookKey k ∨ k = Ob.poseState ∨ (Ob.poolFree ≤ k ∧ k ≤ Ob.modelsResident)
    ∨ (0x3408 ≤ k / 256 ∧ k / 256 ≤ 0x3410 ∧ (k % 256 = 3 ∨ k % 256 = 5))
    ∨ (0x3420 ≤ k / 256 ∧ k / 256 ≤ 0x343F ∧ (k % 256 = 10 ∨ (0x22 ≤ k % 256 ∧ k % 256 ≤ 0x24) ∨ k % 256 = 0x27))

theorem TensorKey.of_model {m k : Nat} (hm : m < 32)
    (hk : k = Ob.modelPlacement m ∨ k = Ob.modelSkipped m ∨ k = Ob.modelLate m ∨ k = Ob.modelInputDropped m
      ∨ k = Ob.modelMeanRunTime m) : TensorKey k := by
  refine .inr (.inr (.inr (.inr ?_)))
  unfold Ob.modelPlacement Ob.modelSkipped Ob.modelLate Ob.modelInputDropped Ob.modelMeanRunTime at hk
  omega

theorem tensorKey_engine {e k : Nat} (he : e ≤ 8) (hk : k = Ob.engineInferencesRun e ∨ k = Ob.engineSaturationCount e) :
    TensorKey k := by
  refine .inr (.inr (.inr (.inl ?_)))
  unfold Ob.engineInferencesRun Ob.engineSaturationCount at hk
  omega

/-- Any other object of a model stands. -/
theorem modelKey_not {m k : Nat} (hm : m < 32) (hk : k / 256 = 0x3420 + m)
    (hsub : k % 256 ≤ 9 ∨ (16 ≤ k % 256 ∧ k % 256 ≤ 0x21) ∨ k % 256 = 0x25 ∨ k % 256 = 0x26) : ¬ TensorKey k := by
  unfold TensorKey BookKey Ob.poseState Ob.poolFree Ob.modelsResident
  omega

/-! The relation. -/

/-- Work on the feeds of the models in `S`: loads, running inferences and what the models hold of their packages are as they
were, as are the objects that no such work moves and the triggers of the other models. -/
structure TensorWork (S : Set Nat) (d e : Dev) : Prop where
  tl : e.tl = d.tl
  loads : e.ten.loads = d.ten.loads
  running : e.ten.running = d.ten.running
  reg : ∀ k, ¬ TensorKey k → e.reg k = d.reg k
  held : ∀ j, (e.model j).held = (d.model j).held
  ready : ∀ j, j ∉ S → (e.model j).ready = (d.model j).ready

namespace TensorWork
variable {S : Set Nat} {a d e : Dev}

theorem refl (d : Dev) : TensorWork S d d := ⟨rfl, rfl, rfl, fun _ _ => rfl, fun _ => rfl, fun _ _ => rfl⟩

theorem trans (h : TensorWork S a d) (k : TensorWork S d e) : TensorWork S a e :=
  ⟨k.tl.trans h.tl, k.loads.trans h.loads, k.running.trans h.running, fun x hx => (k.reg x hx).trans (h.reg x hx),
    fun j => (k.held j).trans (h.held j), fun j hj => (k.ready j hj).trans (h.ready j hj)⟩

theorem ite {p : Prop} [Decidable p] (h : TensorWork S a d) (k : TensorWork S a e) : TensorWork S a (if p then d else e) := by
  split <;> assumption

theorem when {f : Dev → Dev} (h : TensorWork S a d) (hf : ∀ d, TensorWork S d (f d)) (b : Bool) : TensorWork S a (d.when b f) :=
  (h.trans (hf d)).ite h

theorem each {α : Type} {f : Dev → α → Dev} {l : List α} (h : TensorWork S a d) (hf : ∀ d, ∀ x ∈ l, TensorWork S d (f d x)) :
    TensorWork S a (d.each l f) := by
  induction l generalizing d with
  | nil => exact h
  | cons x l ih => exact ih (h.trans (hf d x List.mem_cons_self)) fun d y hy => hf d y (List.mem_cons_of_mem _ hy)

/-- Work that leaves the tensor side, the timeline and the registers but those it may move. -/
theorem of_reg (hten : e.ten = d.ten) (htl : e.tl = d.tl) (hreg : ∀ k, ¬ TensorKey k → e.reg k = d.reg k) : TensorWork S d e :=
  ⟨htl, by rw [hten], by rw [hten], hreg, fun j => by rw [Dev.model_congr hten], fun j _ => by rw [Dev.model_congr hten]⟩

theorem of_booked (w : Within 0 d e) (h : Booked d e) : TensorWork S d e :=
  of_reg (w.ten rfl) (w.tl rfl) fun k hk => h k fun hb => hk (.inl hb)

theorem set (h : TensorWork S a d) {k : Nat} (hk : TensorKey k) (v : Int) : TensorWork S a (d.set k v) :=
  h.trans (of_reg rfl rfl fun x hx => by rw [Dev.reg_set, if_neg fun e : x = k => hx (e ▸ hk)])

theorem setN (h : TensorWork S a d) {k : Nat} (hk : TensorKey k) (v : Nat) : TensorWork S a (d.setN k v) := h.set hk _

theorem bump (h : TensorWork S a d) {k : Nat} (hk : TensorKey k) : TensorWork S a (d.bump k) := h.set hk _

/-- A change of the abandoned inferences and of the items kept for association. -/
theorem onTen (h : TensorWork S a d) (f : Ten → Ten)
    (hf : ∀ t, (f t).models = t.models ∧ (f t).running = t.running ∧ (f t).loads = t.loads := by exact fun _ => ⟨rfl, rfl, rfl⟩) :
    TensorWork S a (d.onTen f) := by
  obtain ⟨hmodels, hrunning, hloads⟩ := hf d.ten
  have hmodel : ∀ j, (d.onTen f).model j = d.model j := fun j => by
    unfold Dev.model Dev.onTen
    rw [hmodels]
  exact h.trans ⟨rfl, hloads, hrunning, fun _ _ => rfl, fun j => by rw [hmodel], fun j _ => by rw [hmodel]⟩

/-- A change of a model in `S` that keeps what it holds of its package. -/
theorem onFeed (h : TensorWork S a d) {m : Nat} (hm : m ∈ S) (f : ModelRt → ModelRt)
    (hheld : ∀ r, (f r).held = r.held := by exact fun _ => rfl) : TensorWork S a (d.onModel m f) := by
  refine h.trans ⟨rfl, rfl, rfl, fun _ _ => rfl, fun j => ?_, fun j hj => ?_⟩
  · rw [Dev.model_onModel]
    split
    · next hjm => rw [hheld, hjm]
    · rfl
  · rw [Dev.model_onModel, if_neg fun hjm : j = m => hj (hjm ▸ hm)]

/-- A change of a model that keeps its triggers too. -/
theorem onModel (h : TensorWork S a d) (m : Nat) (f : ModelRt → ModelRt)
    (hf : ∀ r, (f r).held = r.held ∧ (f r).ready = r.ready := by exact fun _ => ⟨rfl, rfl⟩) : TensorWork S a (d.onModel m f) := by
  refine h.trans ⟨rfl, rfl, rfl, fun _ _ => rfl, fun j => ?_, fun j _ => ?_⟩
  all_goals
    rw [Dev.model_onModel]
    split
  · next hjm => rw [(hf _).1, hjm]
  · rfl
  · next hjm => rw [(hf _).2, hjm]
  · rfl

theorem event (h : TensorWork S a d) (ev : Ev) : TensorWork S a (d.event ev) :=
  h.trans (of_booked (Dev.event_within .zero (.refl d) ev) (Dev.event_booked (.refl d) ev))

theorem genInc (h : TensorWork S a d) (it : Item) : TensorWork S a (d.genInc it) :=
  h.trans (of_booked (Dev.genInc_within .zero (.refl d) it) (Dev.genInc_booked (.refl d) it))

theorem genDec (h : TensorWork S a d) (it : Item) : TensorWork S a (d.genDec it) :=
  h.trans (of_booked (Dev.genDec_within .zero (.refl d) it) (Dev.genDec_booked (.refl d) it))

theorem canaryDue (h : TensorWork S a d) (m : Nat) : TensorWork S a (d.canaryDue m) := h.onModel m _

theorem emitRecord (h : TensorWork S a d) (m island subject completion flags : Nat) (late : Bool) (head : Bytes) (outs : List Bytes) :
    TensorWork S a (d.emitRecord m island subject completion flags late head outs) := by
  unfold Dev.emitRecord
  extract_lets q e r safe counted n due
  have he : TensorWork S a e := h.when (fun d => .of_booked (Dev.emitItem_within .zero (.refl d) _ _ _ _)
    (Dev.emitItem_booked (.refl d) _ _ _ _)) _
  have hcounted : TensorWork S a counted := he.trans (.of_reg rfl rfl fun _ _ => rfl)
  exact ((hcounted.onModel m _).when (fun d => canaryDue (.refl d) m) _).ite he

theorem skipAs (h : TensorWork S a d) {m : Nat} (hm : m < 32) (seq : Nat) (it : Item) (flags : Nat) :
    TensorWork S a (d.skipAs m seq it flags) :=
  (((h.bump (.of_model hm (.inr (.inl rfl)))).emitRecord _ _ _ _ _ _ _ _).genDec _).event _

theorem dropAgain (h : TensorWork S a d) {m : Nat} (hm : m < 32) : TensorWork S a (d.dropAgain m) :=
  (h.onTen _).each fun d _ _ => skipAs (.refl d) hm _ _ _

theorem skipInference (h : TensorWork S a d) {m : Nat} (hm : m < 32) (it : Item) (flags : Nat) :
    TensorWork S a (d.skipInference m it flags) :=
  (h.onModel m _).skipAs hm _ _ _

theorem noEngine (h : TensorWork S a d) {m : Nat} (hm : m < 32) (hS : m ∈ S) : TensorWork S a (d.noEngine m) := by
  unfold Dev.noEngine
  extract_lets noted l
  have hnoted : TensorWork S a noted := h.when (fun d => (onModel (.refl d) m _).event _) _
  exact ((hnoted.dropAgain hm).onFeed hS _).each fun d it _ => skipInference (.refl d) hm it 0

theorem checkEngine (h : TensorWork S a d) {m : Nat} (hm : m < 32) (hS : m ∈ S) : TensorWork S a (d.checkEngine m) :=
  h.ite ((h.noEngine hm hS).ite (h.onModel m _))

theorem trimReady (h : TensorWork S a d) {m : Nat} (hm : m < 32) (hS : m ∈ S) : TensorWork S a (d.trimReady m) := by
  unfold Dev.trimReady
  extract_lets r n dropped
  have hdropped : TensorWork S a dropped := h.each fun d it _ =>
    (genDec (.refl d) it).bump (.of_model hm (.inr (.inr (.inr (.inl rfl)))))
  exact hdropped.onFeed hS _

theorem keepRecent (h : TensorWork S a d) (src : Nat) (it : Item) : TensorWork S a (d.keepRecent src it) := by
  unfold Dev.keepRecent
  exact h.onTen _

theorem countResident (h : TensorWork S a d) : TensorWork S a d.countResident := h.setN (by decide) _

theorem setPlaced (h : TensorWork S a d) {m : Nat} (hm : m < 32) (die v : Nat) : TensorWork S a (d.setPlaced m die v) :=
  h.setN (.of_model hm (.inl rfl)) _

theorem placeOn (h : TensorWork S a d) {m die : Nat} (hm : m < 32) (hdie : die < 4) : TensorWork S a (d.placeOn m die) := by
  have hfree : TensorKey (Ob.deckWeightFree die) := by
    refine .inr (.inr (.inl ?_))
    unfold Ob.deckWeightFree Ob.poolFree Ob.modelsResident
    omega
  exact ((h.setN hfree _).setPlaced hm die 1).ite (h.setPlaced hm die 2)

theorem feedChanged (h : TensorWork S a d) {m : Nat} (hm : m < 32) (hS : m ∈ S) (from_ : Option (List Item)) :
    TensorWork S a (d.feedChanged m from_) := by
  unfold Dev.feedChanged
  extract_lets src e others start fed
  have he : TensorWork S a e := h.each fun d it _ => genDec (.refl d) it
  have hfed : TensorWork S a fed := (he.onFeed hS _).each fun d it _ => genInc (.refl d) it
  exact (he.onFeed hS _).ite ((hfed.when (fun d => event (.refl d) _) _).checkEngine hm hS)

/-! What stands past it. -/

theorem now (h : TensorWork S d e) : e.now = d.now := congrArg Timeline.now h.tl

theorem pkg (h : TensorWork S d e) (j : Nat) : (e.model j).pkg = (d.model j).pkg := congrArg Prod.fst (h.held j)

theorem mask (h : TensorWork S d e) (j : Nat) : (e.model j).mask = (d.model j).mask := congrArg (fun x => x.2.1) (h.held j)

theorem loader (h : TensorWork S d e) (j : Nat) : (e.model j).loader = (d.model j).loader := congrArg (fun x => x.2.2.1) (h.held j)

theorem unloading (h : TensorWork S d e) (j : Nat) : (e.model j).unloading = (d.model j).unloading :=
  congrArg (fun x => x.2.2.2.2) (h.held j)

end TensorWork

end Sys2Proof.Machine
end

section
/-! Loads, copies and unloads of packages (09_tensor_engines R201, R203-R205). -/
namespace Sys2Proof.Machine

theorem modelKey_plain {m k : Nat} (hm : m < 32) (hk : k / 256 = 0x3420 + m) : ¬ BookKey k ∧ k ≠ Ob.safeOutputState := by
  unfold BookKey Ob.safeOutputState
  omega

/-- What an operation left of a model's objects stands once it has been answered and settled. -/
theorem Dev.settle_modelReg (d0 d : Dev) {m k : Nat} (hm : m < 32) (hk : k / 256 = 0x3420 + m) : (d0.settle d).reg k = d.reg k :=
  Dev.settle_reg d0 d (modelKey_plain hm hk).2

theorem Dev.settle_model (d0 d : Dev) (j : Nat) : (d0.settle d).model j = d.model j := Dev.model_congr (Dev.settle_ten d0 d) j

/-- A write command by its effect, where what it leaves of the tensor side matters. -/
theorem SetRuns.of_tensor {mk : Hdr → Option Nat → Instr} {c : Conds} {idx sub : Nat} {v : Bytes}
    {P : Dev → Session → Int → Dev → Prop} {eff : Session → Int → Dev → Dev}
    (h : ∀ hd cond s, exec (mk hd cond) s = onDev (fun d => d.writeReq c hd cond idx sub v eff) s)
    (k : ∀ d e se n d', d.Passed e → (eff se n e).Finished d' → d'.ten = (eff se n e).ten → P d se n d') :
    SetRuns mk c idx sub v P := by
  intro s hd cond e se n hg
  refine Runs.of_onDev (h hd cond s) (k _ e se n _ (Dev.writeGate_passed hg) ?_ ?_)
  · rw [Dev.writeReq_pass hg]
    exact (Dev.finishWrite_finished _ _ _ _ _ _ _).trans (Dev.settle_finished _ _)
  · rw [Dev.writeReq_pass hg, Dev.settle_ten]
    exact (Dev.finishWrite_within (M := 6291968) (by exact rfl) (.refl _) hd cond idx sub v se).ten rfl

theorem Dev.Passed.ten {d e : Dev} (h : d.Passed e) : e.ten = d.ten := by rw [h.eq]

/-! A package's room. -/

/-- The loads asked for, a model's package and whether it is being unloaded. -/
def Dev.room (d : Dev) (j : Nat) : List Nat × Bytes × Bool := (d.ten.loads, (d.model j).pkg, (d.model j).unloading)

/-- A deck that fills up again begins copies alone. -/
theorem Dev.refillDeck_room (d : Dev) (die j : Nat) : (d.refillDeck die).room j = d.room j := by
  refine Dev.each_keeps (g := fun d => d.room j) (fun d m => ?_) _ d
  dsimp only
  split
  · unfold Dev.room
    rw [Dev.model_onModel]
    split
    · next hj => rw [hj]; rfl
    · rfl
  · rfl

/-- A model that gives up its room holds no package and is not being unloaded. -/
theorem Dev.freeModel_room (d : Dev) (m : Nat) : (d.freeModel m).room m = (d.ten.loads, [], false) := by
  unfold Dev.freeModel
  extract_lets r n held given pooled emptied
  have hgiven : given.ten = d.ten := Dev.each_keeps (g := Dev.ten) (fun _ _ => by simp) held d
  have hemptied : emptied.room m = (d.ten.loads, [], false) := by
    unfold Dev.room
    rw [Dev.model_onModel, if_pos rfl, ← hgiven]
    rfl
  exact (Dev.each_keeps (g := fun d => d.room m) (fun d die => d.refillDeck_room die m) held emptied).trans hemptied

theorem Dev.freeModel_loads (d : Dev) (m : Nat) : (d.freeModel m).ten.loads = d.ten.loads := congrArg Prod.fst (d.freeModel_room m)

/-! Load (R203). -/

theorem modelState_not_tensor {m : Nat} (hm : m < 32) : ¬ TensorKey (Ob.modelPackageState m) :=
  modelKey_not hm (by unfold Ob.modelPackageState; omega) (by unfold Ob.modelPackageState; omega)

theorem Dev.startLoad_spec (d : Dev) {m : Nat} (hm : m < 32) (part : Nat) :
    (d.startLoad m part).reg (Ob.modelPackageState m) = 1 ∧ (d.startLoad m part).ten.loads = d.ten.loads ++ [m]
      ∧ ((d.startLoad m part).model m).loader = part := by
  unfold Dev.startLoad
  extract_lets freed loading
  have hfreed : freed.ten.loads = d.ten.loads :=
    (Dev.when_keeps (g := fun d => d.ten.loads) (fun d => d.freeModel_loads m) (d.resident m) (d.dropAgain m)).trans
      (TensorWork.dropAgain (S := ∅) (.refl d) hm).loads
  have hloader : (loading.model m).loader = part := by rw [Dev.model_onModel, if_pos rfl]
  have hcounted := TensorWork.countResident (S := ∅) (.refl (loading.onTen fun t => { t with loads := t.loads ++ [m] }))
  refine ⟨(hcounted.reg _ (modelState_not_tensor hm)).trans ?_, hcounted.loads.trans (congrArg (· ++ [m]) hfreed),
    (hcounted.loader m).trans ?_⟩
  · exact (Dev.reg_set freed _ _ 1).trans (if_pos rfl)
  · exact hloader

theorem modelLoad_runs (m : Fin 32) : SetRuns (fun hd cond => .modelLoad hd cond m)
    { state := fun d _ _ => needState (d.loadFree m) } (0x3420 + m) 6 [1] fun d se _ d' =>
      d'.reg (Ob.modelPackageState m) = 1 ∧ d'.ten.loads = d.ten.loads ++ [(m : Nat)] ∧ (d'.model m).loader = se.part := by
  refine SetRuns.of_tensor (eff := fun se _ d => d.startLoad m se.part) (fun _ _ _ => rfl) fun d e se n d' he hf hten => ?_
  obtain ⟨hstate, hloads, hloader⟩ := e.startLoad_spec m.isLt se.part
  have hplain : ¬ BookKey (Ob.modelPackageState m) ∧ Ob.modelPackageState m ≠ Ob.safeOutputState :=
    modelKey_plain m.isLt (by unfold Ob.modelPackageState; omega)
  exact ⟨(hf.reg _ hplain.1 hplain.2).trans hstate, by rw [hten, hloads, he.ten], by rw [Dev.model_congr hten, hloader]⟩

theorem modelUnload_runs (m : Fin 32) : SetRuns (fun hd cond => .modelUnload hd cond m)
    { state := fun d _ _ => needState (!d.flag (Ob.modelEnable m)) } (0x3420 + m) 7 [1] fun d _ _ d' =>
      (d'.model m).unloading = true ∧ d'.ten.loads = d.ten.loads ∧ d'.ten.running = d.ten.running ∧ d.KeepsRegs d' [] := by
  refine SetRuns.of_tensor (eff := fun _ _ d => d.onModel m fun r => { r with unloading := true }) (fun _ _ _ => rfl)
    fun d e se n d' he hf hten => ⟨?_, ?_, ?_, fun k hb hs _ => (hf.reg k hb hs).trans (he.reg k)⟩
  · rw [Dev.model_congr hten, Dev.model_onModel, if_pos rfl]
  · rw [hten, ← he.ten]
    rfl
  · rw [hten, ← he.ten]
    rfl

/-! The end of a load (R201, R203, R204). -/

/-- The objects that tell how a load of a model ended. -/
theorem loadKey_not_tensor {m k : Nat} (hm : m < 32)
    (hk : k = Ob.modelPackageState m ∨ k = Ob.modelLoadError m ∨ k = Ob.modelPackageVersion m) :
    ¬ TensorKey k ∧ k ≠ Ob.modelEnable m ∧ k / 256 = 0x3420 + m := by
  unfold Ob.modelPackageState Ob.modelLoadError Ob.modelPackageVersion at hk
  have hidx : k / 256 = 0x3420 + m := by omega
  exact ⟨modelKey_not hm hidx (by omega), by unfold Ob.modelEnable; omega, hidx⟩

/-- What tells how a load of model `m` ended is as it was. -/
structure LoadStands (m : Nat) (d e : Dev) : Prop where
  loads : e.ten.loads = d.ten.loads
  pkg : (e.model m).pkg = (d.model m).pkg
  state : e.reg (Ob.modelPackageState m) = d.reg (Ob.modelPackageState m)
  error : e.reg (Ob.modelLoadError m) = d.reg (Ob.modelLoadError m)
  version : e.reg (Ob.modelPackageVersion m) = d.reg (Ob.modelPackageVersion m)

namespace LoadStands
variable {m : Nat} {a d e : Dev}

theorem refl (m : Nat) (d : Dev) : LoadStands m d d := ⟨rfl, rfl, rfl, rfl, rfl⟩

theorem trans (h : LoadStands m a d) (k : LoadStands m d e) : LoadStands m a e :=
  ⟨k.loads.trans h.loads, k.pkg.trans h.pkg, k.state.trans h.state, k.error.trans h.error, k.version.trans h.version⟩

/-- It stands where the registers that tell it do. -/
theorem of_reg (hm : m < 32) (hloads : e.ten.loads = d.ten.loads) (hpkg : (e.model m).pkg = (d.model m).pkg)
    (hreg : ∀ k, ¬ TensorKey k → k ≠ Ob.modelEnable m → k ≠ Ob.safeOutputState → e.reg k = d.reg k) : LoadStands m d e := by
  have hkey : ∀ k, k = Ob.modelPackageState m ∨ k = Ob.modelLoadError m ∨ k = Ob.modelPackageVersion m → e.reg k = d.reg k :=
    fun k hk => by
      obtain ⟨hk, henable, hidx⟩ := loadKey_not_tensor hm hk
      exact hreg k hk henable (modelKey_plain hm hidx).2
  exact ⟨hloads, hpkg, hkey _ (.inl rfl), hkey _ (.inr (.inl rfl)), hkey _ (.inr (.inr rfl))⟩

theorem of_work {S : Set Nat} (hm : m < 32) (h : TensorWork S d e) : LoadStands m d e :=
  .of_reg hm h.loads (h.pkg m) fun k hk _ _ => h.reg k hk

theorem settle (hm : m < 32) (d0 d : Dev) : LoadStands m d (d0.settle d) :=
  .of_reg hm (by rw [Dev.settle_ten]) (by rw [Dev.settle_model]) fun _ _ _ hs => Dev.settle_reg d0 d hs

/-- The persisted Enable of a model applies once its load has ended (R203). -/
theorem applyEnable (hm : m < 32) (d : Dev) : LoadStands m d (d.applyEnable m) := by
  unfold Dev.applyEnable
  split
  · exact .refl m d
  extract_lets e
  have he : LoadStands m d e := .of_work (S := ∅) hm (.onModel (.refl d) m _)
  split
  · have hset : LoadStands m e (e.set (Ob.modelEnable m) 1) := .of_reg hm rfl rfl fun k _ hk _ => by rw [Dev.reg_set, if_neg hk]
    exact (he.trans hset).trans (.of_work hm (.feedChanged (S := {m}) (.refl _) hm rfl none))
  · exact he

end LoadStands

/-- How a load ended in `e`: it has failed, or a package that `d` finds sound is resident. -/
def Dev.LoadEnded (d : Dev) (m : Nat) (e : Dev) : Prop :=
  e.reg (Ob.modelPackageState m) = 3
    ∨ (e.reg (Ob.modelPackageState m) = 2 ∧ e.reg (Ob.modelLoadError m) = 0 ∧ d.loadFault (e.model m).pkg = 0
        ∧ e.reg (Ob.modelPackageVersion m) = (leAt (e.model m).pkg 8 4 : Nat))

theorem LoadStands.ended {m : Nat} {a d e : Dev} (h : LoadStands m d e) (k : a.LoadEnded m d) : a.LoadEnded m e := by
  unfold Dev.LoadEnded
  rw [h.pkg, h.state, h.error, h.version]
  exact k

theorem Dev.loadFailed_spec (d : Dev) {m : Nat} (hm : m < 32) (code : Nat) :
    (d.loadFailed m code).reg (Ob.modelPackageState m) = 3 ∧ (d.loadFailed m code).reg (Ob.modelLoadError m) = (code : Nat)
      ∧ (d.loadFailed m code).ten.loads = d.ten.loads := by
  have h : LoadStands m _ (d.loadFailed m code) := .of_work (S := ∅) hm (.event (.refl _) _)
  refine ⟨h.state.trans ?_, h.error.trans ?_, h.loads⟩
  · rw [Dev.reg_setN, if_neg (by unfold Ob.modelPackageState Ob.modelLoadError; omega), Dev.reg_set, if_pos rfl]
  · rw [Dev.reg_setN, if_pos rfl]

/-- A package that becomes resident shows its version and no error. -/
theorem Dev.becomeResident_ended (d : Dev) {m : Nat} (hm : m < 32) {p : Bytes} (hp : d.loadFault p = 0) :
    d.LoadEnded m (d.becomeResident m p) ∧ (d.becomeResident m p).ten.loads = d.ten.loads := by
  unfold Dev.becomeResident
  extract_lets held shown cleared mine placed counted
  have hplaced : TensorWork {m} cleared placed := .each (.refl _) fun d die hdie =>
    .placeOn (.refl d) hm (List.mem_range.1 (List.mem_filter.1 (List.mem_filter.1 hdie).1).1)
  have hwork : TensorWork {m} cleared ((counted.when (counted.bound m) fun d => d.canaryDue m).checkEngine m) :=
    ((hplaced.countResident.event _).when (fun d => .canaryDue (.refl d) m) _).checkEngine hm rfl
  have hstands := LoadStands.of_work hm hwork
  have hheld : (held.model m).pkg = p := by rw [Dev.model_onModel, if_pos rfl]
  have hpkg : (cleared.model m).pkg = p := hheld
  refine ⟨hstands.ended (.inr ⟨?_, ?_, ?_, ?_⟩), hstands.loads⟩
  · simp [cleared, shown]
  · simp [cleared]
  · rw [hpkg, hp]
  · rw [hpkg]
    simp [cleared, shown]

theorem Dev.loadEnds_unread (d : Dev) {m : Nat} (hm : m < 32) :
    (d.loadEnds m false).reg (Ob.modelPackageState m) = 3 ∧ (d.loadEnds m false).reg (Ob.modelLoadError m) = 10 := by
  obtain ⟨hstate, herror, -⟩ := d.loadFailed_spec hm 10
  exact ⟨hstate, herror⟩

/-- A load ends resident or failed, and no other load is touched. -/
theorem Dev.loadEnds_ended (d : Dev) {m : Nat} (hm : m < 32) (readOk : Bool) :
    d.LoadEnded m (d.loadEnds m readOk) ∧ (d.loadEnds m readOk).ten.loads = d.ten.loads := by
  have hfailed : ∀ code, d.LoadEnded m (d.loadFailed m code) ∧ (d.loadFailed m code).ten.loads = d.ten.loads := fun code => by
    obtain ⟨hstate, -, hloads⟩ := d.loadFailed_spec hm code
    exact ⟨.inl hstate, hloads⟩
  unfold Dev.loadEnds
  split
  · exact hfailed _
  extract_lets n hf
  split
  · exact hfailed _
  split
  · exact hfailed _
  split
  · exact hfailed _
  extract_lets f
  split
  · exact hfailed _
  split
  · exact hfailed _
  · next hfault => exact d.becomeResident_ended hm (by simpa [f] using hfault)

theorem modelLoadDone_runs {s : State} {m : Fin 32} (hload : (s.dev.ten.loads.take 4).contains (m : Nat) = true) (readOk : Bool) :
    Runs (.modelLoadDone m readOk) s fun d => d.ten.loads = s.dev.ten.loads.erase (m : Nat)
      ∧ (readOk = false → d.reg (Ob.modelPackageState m) = 3 ∧ d.reg (Ob.modelLoadError m) = 10)
      ∧ (d.reg (Ob.modelPackageState m) = 3
        ∨ (d.reg (Ob.modelPackageState m) = 2 ∧ d.reg (Ob.modelLoadError m) = 0 ∧ s.dev.loadFault (d.model m).pkg = 0
            ∧ d.reg (Ob.modelPackageVersion m) = (leAt (d.model m).pkg 8 4 : Nat))) := by
  refine Runs.of_onDev (show execModelLoadDone m readOk s = onDev _ s from rfl) ?_
  rw [hload, if_neg (by decide)]
  extract_lets d
  have hm : (m : Nat) < 32 := m.isLt
  obtain ⟨hended, hloads⟩ := d.loadEnds_ended hm readOk
  have hstands : LoadStands m (d.loadEnds m readOk) (s.dev.settle ((d.loadEnds m readOk).applyEnable m)) :=
    (LoadStands.applyEnable hm _).trans (.settle hm _ _)
  refine ⟨hstands.loads.trans hloads, fun hread => ?_, hstands.ended hended⟩
  subst hread
  obtain ⟨hstate, herror⟩ := d.loadEnds_unread hm
  exact ⟨hstands.state.trans hstate, hstands.error.trans herror⟩

/-! Copies to the decks (R204). -/

theorem Dev.setPlaced_model (d : Dev) (m die v j : Nat) : (d.setPlaced m die v).model j = d.model j := rfl

theorem Dev.setPlaced_placed (d : Dev) (m die : Nat) {v : Nat} (hv : v < 4) : (d.setPlaced m die v).placed m die = v := by
  have hpos : 0 < 4 ^ die := Nat.pow_pos (by decide)
  unfold Dev.placed Dev.nat Dev.setPlaced
  rw [Dev.reg_setN, if_pos rfl, Int.toNat_natCast]
  unfold Dev.placed
  generalize d.nat (Ob.modelPlacement m) = p
  have hsplit : p - p / 4 ^ die % 4 * 4 ^ die + v * 4 ^ die = p % 4 ^ die + 4 ^ die * (4 * (p / 4 ^ die / 4) + v) := by
    have hp : p = p % 4 ^ die + 4 ^ die * (4 * (p / 4 ^ die / 4)) + p / 4 ^ die % 4 * 4 ^ die := by
      calc p = p % 4 ^ die + 4 ^ die * (4 * (p / 4 ^ die / 4) + p / 4 ^ die % 4) := by rw [Nat.div_add_mod, Nat.mod_add_div]
        _ = _ := by ring
    rw [Nat.sub_eq_of_eq_add hp]
    ring
  rw [hsplit, Nat.add_mul_div_left _ _ hpos, Nat.div_eq_of_lt (Nat.mod_lt _ hpos)]
  omega

theorem deckCopyDone_runs {s : State} {m : Fin 32} {die : Fin 4} (hcopy : (s.dev.model m).copying.contains (die : Nat) = true) :
    Runs (.deckCopyDone m die) s fun d => (d.model m).copying = (s.dev.model m).copying.erase (die : Nat) ∧ d.placed m die = 1
      ∧ s.dev.KeepsRegs d [Ob.modelPlacement m] := by
  refine Runs.of_onDev (show execDeckCopyDone m die s = onDev _ s from rfl) ?_
  rw [hcopy, if_pos rfl]
  have hplacement : Ob.modelPlacement m ≠ Ob.safeOutputState := by unfold Ob.modelPlacement Ob.safeOutputState; omega
  refine ⟨?_, ?_, fun k _ hs hk => ?_⟩
  · rw [Dev.settle_model, Dev.setPlaced_model, Dev.model_onModel, if_pos rfl]
  · unfold Dev.placed
    rw [Dev.nat_congr (Dev.settle_reg _ _ hplacement)]
    exact Dev.setPlaced_placed _ _ _ (by decide)
  · rw [Dev.settle_reg _ _ hs]
    exact (Dev.reg_setN _ _ _ _).trans (if_neg (by simpa using hk))

/-! The end of an unload (R205). -/

theorem modelUnloadDone_runs {s : State} {m : Fin 32} (hunload : (s.dev.model m).unloading = true)
    (hidle : s.dev.ten.running.any (fun i => i.model == (m : Nat)) = false) :
    Runs (.modelUnloadDone m) s fun d => d.reg (Ob.modelPackageState m) = 0 ∧ d.reg (Ob.modelPackageVersion m) = 0
      ∧ d.ten.loads = s.dev.ten.loads.erase (m : Nat) ∧ (d.model m).pkg = [] ∧ (d.model m).unloading = false := by
  refine Runs.of_onDev (show execModelUnloadDone m s = onDev _ s from rfl) ?_
  rw [hunload, hidle, if_neg (by decide)]
  extract_lets d e
  have hm : (m : Nat) < 32 := m.isLt
  have hroom : e.room m = (s.dev.ten.loads.erase (m : Nat), [], false) := by
    have hagain : (d.dropAgain m).ten.loads = d.ten.loads := (TensorWork.dropAgain (S := ∅) (.refl d) hm).loads
    unfold e
    split
    · rw [Dev.freeModel_room, hagain]
      rfl
    · unfold Dev.room
      rw [Dev.model_onModel, if_pos rfl]
      rfl
  unfold Dev.room at hroom
  simp only [Prod.mk.injEq] at hroom
  obtain ⟨hloads, hpkg, hunloading⟩ := hroom
  have hwork := TensorWork.countResident (S := ∅) (.refl ((e.set (Ob.modelPackageState m) 0).set (Ob.modelPackageVersion m) 0))
  have hstands := (LoadStands.of_work hm hwork).trans (.settle hm s.dev _)
  refine ⟨hstands.state.trans ?_, hstands.version.trans ?_, hstands.loads.trans hloads, hstands.pkg.trans hpkg, ?_⟩
  · rw [Dev.reg_set, if_neg (by unfold Ob.modelPackageState Ob.modelPackageVersion; omega), Dev.reg_set, if_pos rfl]
  · rw [Dev.reg_set, if_pos rfl]
  · rw [Dev.settle_model, hwork.unloading]
    exact hunloading

end Sys2Proof.Machine
end

section
/-! Triggers (09_tensor_engines R206, R207, R212): the item joins the ready queue of each model it feeds. -/
namespace Sys2Proof.Machine

/-! What work on feeds leaves of a model's settings and engines. -/

namespace TensorWork
variable {S : Set Nat} {d e : Dev}

theorem modelReg (h : TensorWork S d e) {m k : Nat} (hm : m < 32) (hk : k / 256 = 0x3420 + m)
    (hsub : k % 256 ≤ 9 ∨ (16 ≤ k % 256 ∧ k % 256 ≤ 0x21)) : e.reg k = d.reg k :=
  h.reg k (modelKey_not hm hk (hsub.imp_right .inl))

theorem enable (h : TensorWork S d e) {m : Nat} (hm : m < 32) : e.reg (Ob.modelEnable m) = d.reg (Ob.modelEnable m) :=
  h.modelReg hm (by unfold Ob.modelEnable; omega) (by unfold Ob.modelEnable; omega)

theorem input (h : TensorWork S d e) {m : Nat} (hm : m < 32) : e.reg (Ob.modelInput m 0) = d.reg (Ob.modelInput m 0) :=
  h.modelReg hm (by unfold Ob.modelInput; omega) (by unfold Ob.modelInput; omega)

theorem inputDepth (h : TensorWork S d e) {m : Nat} (hm : m < 32) :
    e.reg (Ob.modelInputDepth m) = d.reg (Ob.modelInputDepth m) :=
  h.modelReg hm (by unfold Ob.modelInputDepth; omega) (by unfold Ob.modelInputDepth; omega)

theorem resident (h : TensorWork S d e) {m : Nat} (hm : m < 32) : e.resident m = d.resident m := by
  unfold Dev.resident
  rw [h.reg _ (modelState_not_tensor hm)]

theorem engineUp (h : TensorWork S d e) {n : Nat} (hn : n < 8) : e.engineUp n = d.engineUp n := by
  have hthrottle : ¬ TensorKey (Ob.thermThrottleLevel (1 + n / 2)) := by
    unfold TensorKey BookKey Ob.thermThrottleLevel Ob.poseState Ob.poolFree Ob.modelsResident
    omega
  have hisland : ¬ TensorKey (Ob.islState (Isl.ten + n / 2 - 1)) := by
    unfold TensorKey BookKey Ob.islState Isl.ten Ob.poseState Ob.poolFree Ob.modelsResident
    omega
  unfold Dev.engineUp Dev.quiesced Dev.isl Dev.nat
  rw [h.reg _ (by decide), h.reg _ hthrottle, h.reg _ hisland]

theorem usable (h : TensorWork S d e) (m : Nat) : e.usable m = d.usable m := by
  unfold Dev.usable
  rw [h.pkg, h.mask]
  dsimp only
  split
  · refine List.filter_congr fun n hn => ?_
    have hn : n < 7 := by
      simp only [List.mem_cons, List.not_mem_nil, or_false] at hn
      omega
    rw [h.engineUp (by omega), h.engineUp (by omega)]
  · exact List.filter_congr fun n hn => by rw [h.engineUp (List.mem_range.1 hn)]

theorem notePose (d : Dev) (case : Nat) : TensorWork S d (d.notePose case) := by
  have hset : ∀ v, TensorWork S d (d.set Ob.poseState v) := fun v => .set (.refl d) (.inr (.inl rfl)) v
  have hnoted : TensorWork S d (d.onFus fun u => { u with emptyNoted := true }) := .of_reg rfl rfl fun _ _ => rfl
  exact (hset 2).ite ((((refl d).ite ((hset 3).event _))).ite ((hnoted.event _).ite (.refl d)))

theorem releaseFrames (d : Dev) : TensorWork S d d.releaseFrames := by
  refine .each (.refl d) fun d it _ => ?_
  split
  · exact .refl d
  · next ps _ =>
    have hnoted : TensorWork S d (d.each ps fun d p => d.notePose p.case) := .each (.refl d) fun d p _ => .notePose d p.case
    exact hnoted.trans (.of_reg (by simp) (by simp) fun _ _ => by simp)

end TensorWork

theorem Dev.readQueue_booked {a d e : Dev} {q : Nat} {it : Item} (h : Booked a d) (k : d.readQueue q = some (it, e)) : Booked a e := by
  unfold Dev.readQueue at k
  split at k
  · cases k
  · exact Dev.dequeue_booked h k

/-! The models of a feed, in order. -/

/-- A trigger item reaches one model. -/
def Dev.takeTrigger (d : Dev) (m : Nat) (it : Item) : Dev :=
  (((d.genInc it).onModel m fun r => { r with ready := r.ready ++ [it] }).trimReady m).checkEngine m

theorem TensorWork.takeTrigger {S : Set Nat} (d : Dev) {m : Nat} (hm : m < 32) (hS : m ∈ S) (it : Item) :
    TensorWork S d (d.takeTrigger m it) :=
  (((genInc (.refl d) it).onFeed hS _).trimReady hm hS).checkEngine hm hS

/-- Only the newest triggers, as many as InputDepth, stay (R207). -/
theorem Dev.trimReady_ready (d : Dev) (m : Nat) :
    ((d.trimReady m).model m).ready = (d.model m).ready.drop ((d.model m).ready.length - d.nat (Ob.modelInputDepth m)) := by
  unfold Dev.trimReady
  extract_lets r n dropped
  have hten : dropped.ten = d.ten := Dev.each_keeps (g := Dev.ten) (fun _ _ => by simp) _ d
  rw [Dev.model_onModel, if_pos rfl, Dev.model_congr hten]

/-- A model that has a usable engine, or none resident, keeps its triggers. -/
theorem Dev.checkEngine_ready {d : Dev} {m : Nat} (h : d.resident m = true → d.usable m ≠ []) :
    ((d.checkEngine m).model m).ready = (d.model m).ready := by
  unfold Dev.checkEngine
  split
  · rfl
  split
  · next hoff hnone =>
    simp only [Bool.or_eq_true, Bool.not_eq_true', not_or, Bool.not_eq_false] at hoff
    exact absurd hnone (h hoff.2)
  · rw [Dev.model_onModel, if_pos rfl]

theorem Dev.takeTrigger_ready {d : Dev} {m : Nat} (hm : m < 32) (h : d.resident m = true → d.usable m ≠ []) (it : Item) :
    ((d.takeTrigger m it).model m).ready
      = ((d.model m).ready ++ [it]).drop ((d.model m).ready.length + 1 - d.nat (Ob.modelInputDepth m)) := by
  have hcounted : TensorWork ∅ d (d.genInc it) := .genInc (.refl d) it
  have htaken : TensorWork {m} d ((d.genInc it).onModel m fun r => { r with ready := r.ready ++ [it] }) :=
    (TensorWork.genInc (.refl d) it).onFeed (Set.mem_singleton m) _
  have htrimmed := htaken.trimReady hm (Set.mem_singleton m)
  unfold Dev.takeTrigger
  rw [Dev.checkEngine_ready (by rw [htrimmed.resident hm, htrimmed.usable]; exact h), Dev.trimReady_ready,
    Dev.nat_congr (htaken.inputDepth hm), Dev.model_onModel, if_pos rfl]
  dsimp only
  rw [hcounted.ready m (Set.notMem_empty m), List.length_append]
  rfl

/-- Each model of a list that takes a trigger has it, whatever the others do. -/
theorem Dev.each_takeTrigger_ready {l : List Nat} (hl : l.Nodup) (hlt : ∀ j ∈ l, j < 32) {d : Dev} {m : Nat} (hm : m ∈ l)
    (h : d.resident m = true → d.usable m ≠ []) (it : Item) :
    ((d.each l fun d j => d.takeTrigger j it).model m).ready
      = ((d.model m).ready ++ [it]).drop ((d.model m).ready.length + 1 - d.nat (Ob.modelInputDepth m)) := by
  have hothers : ∀ (d : Dev) (l : List Nat), m ∉ l → (∀ j ∈ l, j < 32) →
      TensorWork {m}ᶜ d (d.each l fun d j => d.takeTrigger j it) := fun d l hnot hlt => by
    refine .each (.refl d) fun d j hj => .takeTrigger d (hlt j hj) ?_ it
    exact fun hjm => hnot (Set.mem_singleton_iff.1 hjm ▸ hj)
  obtain ⟨l1, l2, rfl⟩ := List.append_of_mem hm
  obtain ⟨hnot, -⟩ := List.nodup_cons.1 (List.nodup_middle.1 hl)
  rw [List.mem_append, not_or] at hnot
  have hfirst := hothers d l1 hnot.1 fun j hj => hlt j (List.mem_append_left _ hj)
  have hrest := hothers ((d.each l1 fun d j => d.takeTrigger j it).takeTrigger m it) l2 hnot.2 fun j hj =>
    hlt j (List.mem_append_right _ (List.mem_cons_of_mem _ hj))
  have hm : m < 32 := hlt m hm
  have hself : m ∉ ({m}ᶜ : Set Nat) := Set.notMem_compl_iff.2 (Set.mem_singleton m)
  have heach : (d.each (l1 ++ m :: l2) fun d j => d.takeTrigger j it)
      = ((d.each l1 fun d j => d.takeTrigger j it).takeTrigger m it).each l2 fun d j => d.takeTrigger j it := List.foldl_append
  rw [heach, hrest.ready m hself, Dev.takeTrigger_ready hm (by rw [hfirst.resident hm, hfirst.usable]; exact h),
    hfirst.ready m hself, Dev.nat_congr (hfirst.inputDepth hm)]

theorem Dev.trigger_ready {d : Dev} {src m : Nat} (hm : m < 32) (henable : d.flag (Ob.modelEnable m) = true)
    (hinput : d.nat (Ob.modelInput m 0) = src) (h : d.resident m = true → d.usable m ≠ []) (it : Item) :
    ((d.trigger src it).model m).ready
      = ((d.model m).ready ++ [it]).drop ((d.model m).ready.length + 1 - d.nat (Ob.modelInputDepth m)) := by
  unfold Dev.trigger
  extract_lets e
  have he : TensorWork ∅ d e := .when (.refl d) (fun d => .keepRecent (.refl d) src it) _
  have hfeeds : m ∈ e.triggered src := by
    refine List.mem_filter.2 ⟨List.mem_range.2 hm, ?_⟩
    rw [Dev.flag_congr (he.enable hm), Dev.nat_congr (he.input hm), henable, hinput]
    simp
  have hready := Dev.each_takeTrigger_ready (d := e) (m := m) (List.nodup_range.filter _)
    (fun j hj => List.mem_range.1 (List.mem_filter.1 hj).1) hfeeds (by rw [he.resident hm, he.usable]; exact h) it
  rw [he.ready m (Set.notMem_empty m), Dev.nat_congr (he.inputDepth hm)] at hready
  exact hready

/-- The item that the feed of source `src` has waiting. -/
def Dev.Waits (d : Dev) (src : Nat) (it : Item) : Prop :=
  (src / 4096 ≠ 3 ∧ ∃ rest, takeFirst (ofSource src) (d.releaseFrames.stageItems 2) = some (it, rest))
    ∨ (src / 4096 = 3 ∧ ∃ e, d.releaseFrames.readQueue (src % 4096) = some (it, e))

/-- The item that waits reaches its models. -/
theorem Dev.feedItem_spec {d : Dev} {src : Nat} {it : Item} (h : d.Waits src it) :
    ∃ x e, TensorWork ∅ d x ∧ TensorWork ∅ (x.trigger src it) e ∧ d.feedItem src = e := by
  have hreleased : TensorWork ∅ d d.releaseFrames := .releaseFrames d
  unfold Dev.feedItem
  rcases h with ⟨hkind, rest, htake⟩ | ⟨hkind, e, hread⟩
  · rw [if_neg hkind, htake]
    exact ⟨d.releaseFrames.setStage 2 rest, _, hreleased.trans (.of_reg rfl rfl fun _ _ => rfl), .genDec (.refl _) it, rfl⟩
  · rw [if_pos hkind, hread]
    have hdequeue : TensorWork ∅ d.releaseFrames e :=
      .of_booked (Dev.readQueue_of .zero (.refl _) hread) (Dev.readQueue_booked (.refl _) hread)
    exact ⟨e, _, hreleased.trans hdequeue, .when (.refl _) (fun d => .genDec (.refl d) it) _, rfl⟩

theorem inferenceTrigger_runs {s : State} {src : Nat} {it : Item} {x : Dev}
    (hflip : x = (s.dev.when (s.dev.flipNow (0x10000 + src) none) fun d => d.flipAll [0x10000 + src] none))
    (hwaits : x.Waits src it) :
    Runs (.inferenceTrigger src) s fun d => ∀ m, m < 32 → x.flag (Ob.modelEnable m) = true → x.nat (Ob.modelInput m 0) = src →
      (x.resident m = true → x.usable m ≠ []) →
      (d.model m).ready = ((x.model m).ready ++ [it]).drop ((x.model m).ready.length + 1 - x.nat (Ob.modelInputDepth m)) := by
  refine Runs.of_onDev (show execInferenceTrigger src s = onDev _ s from rfl) fun m hm henable hinput hengine => ?_
  rw [← hflip]
  obtain ⟨y, e, hbefore, hafter, heq⟩ := Dev.feedItem_spec hwaits
  rw [heq, Dev.settle_model, hafter.ready m (Set.notMem_empty m),
    Dev.trigger_ready hm (by rw [Dev.flag_congr (hbefore.enable hm), henable]) (by rw [Dev.nat_congr (hbefore.input hm), hinput])
      (by rw [hbefore.resident hm, hbefore.usable]; exact hengine),
    hbefore.ready m (Set.notMem_empty m), Dev.nat_congr (hbefore.inputDepth hm)]

end Sys2Proof.Machine
end

section
/-! Dispatch (09_tensor_engines R208, R209, R211-R213): an engine takes a canary or the ready inference chosen for it. -/
namespace Sys2Proof.Machine

/-! The ready inference that is chosen. -/

/-- What a pass over a list picks, where each step keeps its pick or takes the member, is one of the list. -/
theorem mem_of_foldl_pick {α : Type} {f : Option α → α → Option α} {r : α}
    (hf : ∀ b x, f b x = some r → b = some r ∨ r = x) {l : List α} {b : Option α} (h : l.foldl f b = some r) : b = some r ∨ r ∈ l := by
  induction l generalizing b with
  | nil => exact .inl h
  | cons x l ih =>
    rcases ih h with hb | hl
    · exact (hf b x hb).imp_right fun hr => List.mem_cons.2 (.inl hr)
    · exact .inr (List.mem_cons_of_mem x hl)

theorem Dev.earliest_mem {d : Dev} {r : Ready} (h : d.earliest = some r) : r ∈ d.readyAll := by
  unfold Dev.earliest at h
  refine (List.mem_filter.1 ((mem_of_foldl_pick (fun b x hb => ?_) h).resolve_left nofun)).1
  split at hb
  · exact .inr (Option.some.inj hb).symm
  · split at hb
    · exact .inr (Option.some.inj hb).symm
    · exact .inl hb

theorem Dev.readyAll_model {d : Dev} {r : Ready} (h : r ∈ d.readyAll) : r.model < 32 := by
  obtain ⟨m, hm, hr⟩ := List.mem_flatMap.1 h
  have hmodel : r.model = m := by
    rcases List.mem_append.1 hr with hr | hr
    · obtain ⟨a, -, rfl⟩ := List.mem_map.1 hr
      rfl
    · split at hr
      · obtain ⟨it, -, rfl⟩ := List.mem_map.1 hr
        rfl
      · cases hr
  exact hmodel ▸ List.mem_range.1 hm

theorem Dev.chosen_model {d : Dev} {e : Nat} {r : Ready} (h : d.chosen e = some r) : r.model < 32 := by
  unfold Dev.chosen at h
  split at h
  · next x hx =>
    split at h
    · exact Dev.readyAll_model (Option.some.inj h ▸ Dev.earliest_mem hx)
    · cases h
  · cases h

/-! The inputs as the engine reads them. -/

theorem Dev.readItem_booked {a d : Dev} (h : Booked a d) (it : Item) : Booked a (d.readItem it).2 := by
  unfold Dev.readItem
  split
  · exact Dev.handover_booked h _ _ _ _ _ (by decide)
  · exact h

theorem Dev.readInputs_booked {a d : Dev} (h : Booked a d) (l : List (Option Item)) : Booked a (d.readInputs l).2 := by
  induction l generalizing d with
  | nil => exact h
  | cons x l ih =>
    cases x with
    | none => exact ih h
    | some it => exact ih (Dev.readItem_booked h it)

theorem Dev.gather_keeps (d : Dev) (m : Nat) (it : Item) :
    Booked d (d.gather m it).2.2 ∧ (d.gather m it).2.2.ten = d.ten ∧ (d.gather m it).2.2.tl = d.tl :=
  have w := Dev.gather_snd (M := 0) .zero (.refl d) m it
  ⟨Dev.readInputs_booked (.refl d) _, w.ten rfl, w.tl rfl⟩

/-- Estimated run time and deadline follow the package and the objects of the model. -/
theorem Dev.estimate_congr {d e : Dev} {m : Nat} (hten : e.ten = d.ten) (hreg : ∀ k, k / 256 = 0x3420 + m → e.reg k = d.reg k)
    (die : Nat) : e.estimate m die = d.estimate m die := by
  unfold Dev.estimate Dev.placed
  rw [Dev.model_congr hten, Dev.nat_congr (hreg _ (by unfold Ob.modelMeanRunTime; omega)),
    Dev.nat_congr (hreg _ (by unfold Ob.modelPlacement; omega))]

theorem Dev.deadline_congr {d e : Dev} {m : Nat} (hreg : ∀ k, k / 256 = 0x3420 + m → e.reg k = d.reg k) (it : Item) :
    e.deadline m it = d.deadline m it := by
  unfold Dev.deadline
  rw [hreg _ (by unfold Ob.modelBudget; omega)]

/-! The inference's sequence. -/

/-- A ready inference leaves its list, with its sequence: the one it was abandoned under, or the model's next (R213). -/
def Dev.numbered (d : Dev) (r : Ready) : Nat × Dev :=
  match r.seq with
  | some n => (n, d.takeReady r)
  | none => (d.takeReady r).inferSeq r.model

theorem Dev.numbered_spec (d : Dev) (r : Ready) :
    (d.numbered r).1 = r.seq.getD (d.model r.model).seq ∧ (d.numbered r).2.ten.running = d.ten.running
      ∧ (∀ k, (d.numbered r).2.reg k = d.reg k)
      ∧ (r.seq = none → ((d.numbered r).2.model r.model).ready = (d.model r.model).ready.erase r.trig) := by
  unfold Dev.numbered Dev.takeReady
  cases hseq : r.seq with
  | some n => exact ⟨rfl, rfl, fun _ => rfl, nofun⟩
  | none =>
    have hmodel : (d.onModel r.model fun x => { x with ready := x.ready.erase r.trig }).model r.model
        = { d.model r.model with ready := (d.model r.model).ready.erase r.trig } := by rw [Dev.model_onModel, if_pos rfl]
    refine ⟨(congrArg ModelRt.seq hmodel :), rfl, fun _ => rfl, fun _ => ?_⟩
    unfold Dev.inferSeq
    rw [Dev.model_onModel, if_pos rfl, hmodel]

theorem Dev.emitRecord_booked (d : Dev) (m island subject completion flags : Nat) (late : Bool) (head : Bytes) (outs : List Bytes) :
    Booked d (d.emitRecord m island subject completion flags late head outs) := by
  unfold Dev.emitRecord
  extract_lets q e r safe counted n due
  have he : Booked d e := .when (.refl d) fun d => Dev.emitItem_booked (.refl d) _ _ _ _
  have hcounted : Booked d counted := he
  exact .ite (.when hcounted fun d => .refl d) he

/-- An inference that is skipped is counted. -/
theorem Dev.skipAs_skipped (d : Dev) {m : Nat} (hm : m < 32) (seq : Nat) (it : Item) (flags : Nat) :
    (d.skipAs m seq it flags).reg (Ob.modelSkipped m)
      = wrapTy (keyTy (Ob.modelSkipped m)) (d.reg (Ob.modelSkipped m) + 1) := by
  have hkey : ¬ BookKey (Ob.modelSkipped m) := (modelKey_plain hm (by unfold Ob.modelSkipped; omega)).1
  unfold Dev.skipAs
  extract_lets flags head e
  have he : Booked (d.bump (Ob.modelSkipped m)) e := Dev.genDec_booked (Dev.emitRecord_booked _ _ _ _ _ _ _ _ _) it
  rw [Dev.event_reg _ _ hkey, he _ hkey, Dev.reg_bump, if_pos rfl]

/-! The dispatch. -/

/-- The inference that an engine starts on a ready trigger. -/
def Dev.started (d : Dev) (e : Nat) (r : Ready) (ins : List (Option Item)) (flags seq : Nat) : Infer :=
  { model := r.model, pkg := (d.model r.model).pkg, seq := seq, trig := r.trig, inputs := ins, at_ := d.now, engine := e,
    flags := flags + 128 * (decide (d.placed r.model (e / 2) = 2)).toNat, span := pkgSpan (d.model r.model).pkg, canary := false }

/-- A ready inference that its engine has taken is skipped or starts. -/
def Dev.begun (d : Dev) (e : Nat) (r : Ready) (ins : List (Option Item)) (flags seq : Nat) (skip : Bool) : Dev :=
  if skip then d.skipAs r.model seq r.trig flags
  else d.onTen fun t => { t with running := t.running ++ [d.started e r ins flags seq] }

theorem Dev.dispatch_chosen {d x y : Dev} {e seq flags : Nat} {r : Ready} {ins : List (Option Item)} (hcanary : d.canaryFor e = none)
    (hchosen : d.chosen e = some r) (hgather : d.gather r.model r.trig = (ins, flags, x)) (hnumbered : x.numbered r = (seq, y)) :
    d.dispatch e = y.begun e r ins flags seq (bit flags 6 || (y.flag (Ob.modelSkipLate r.model)
      && after (stampAdd x.now (x.estimate r.model (e / 2))) (x.deadline r.model r.trig))) := by
  unfold Dev.dispatch
  rw [hcanary, hchosen]
  dsimp only
  rw [hgather]
  dsimp only
  obtain rfl : (x.numbered r).1 = seq := congrArg Prod.fst hnumbered
  obtain rfl : (x.numbered r).2 = y := congrArg Prod.snd hnumbered
  rfl

theorem Dev.dispatch_canary {d : Dev} {e m : Nat} (h : d.canaryFor e = some m) :
    ∃ i : Infer, d.dispatch e = (d.onModel m fun r => { r with canaryRun := true }).onTen (fun t => { t with running := t.running ++ [i] })
      ∧ i.model = m ∧ i.engine = e ∧ i.canary = true ∧ i.at_ = d.now := by
  unfold Dev.dispatch
  rw [h]
  exact ⟨_, rfl, rfl, rfl, rfl, rfl⟩

theorem inferenceDispatch_canary_runs {s : State} {e : Fin 8} {m : Nat} (h : s.dev.canaryFor e = some m) :
    Runs (.inferenceDispatch e) s fun d => (d.model m).canaryRun = true
      ∧ ∃ i, d.ten.running = s.dev.ten.running ++ [i] ∧ i.model = m ∧ i.engine = (e : Nat) ∧ i.canary = true ∧ i.at_ = s.dev.now := by
  refine Runs.of_onDev (show execInferenceDispatch e s = onDev _ s from rfl) ?_
  dsimp only
  rw [h, if_pos (by rfl)]
  obtain ⟨i, hdispatch, hi⟩ := Dev.dispatch_canary h
  rw [hdispatch, Dev.settle_model, Dev.settle_ten]
  refine ⟨?_, i, rfl, hi⟩
  exact congrArg ModelRt.canaryRun ((s.dev.model_onModel m (fun r => { r with canaryRun := true }) m).trans (if_pos rfl))

/-- What a taken inference leaves: a skip is counted and nothing more runs, or its engine runs it. -/
theorem Dev.begun_spec (d : Dev) {e : Nat} {r : Ready} (hr : r.model < 32) (ins : List (Option Item)) (flags seq : Nat) (skip : Bool) :
    (∀ j, ((d.begun e r ins flags seq skip).model j).ready = (d.model j).ready)
      ∧ if skip then (d.begun e r ins flags seq skip).ten.running = d.ten.running
          ∧ (d.begun e r ins flags seq skip).reg (Ob.modelSkipped r.model)
            = wrapTy (keyTy (Ob.modelSkipped r.model)) (d.reg (Ob.modelSkipped r.model) + 1)
        else (d.begun e r ins flags seq skip).ten.running = d.ten.running ++ [d.started e r ins flags seq] := by
  unfold Dev.begun
  cases skip with
  | false => exact ⟨fun _ => rfl, rfl⟩
  | true =>
    have hskip : TensorWork ∅ d (d.skipAs r.model seq r.trig flags) := .skipAs (.refl d) hr _ _ _
    exact ⟨fun j => hskip.ready j (Set.notMem_empty j), hskip.running, d.skipAs_skipped hr _ _ _⟩

theorem inferenceDispatch_runs {s : State} {e : Fin 8} {x : Dev} {y r : Ready} (hidle : s.dev.canaryFor e = none)
    (hready : s.dev.chosen e = some y) (hflip : x = s.dev.flipAll [0x10000 + s.dev.nat (Ob.modelInput y.model 0)] (some e))
    (hcanary : x.canaryFor e = none) (hchosen : x.chosen e = some r) :
    Runs (.inferenceDispatch e) s fun d => (r.seq = none → (d.model r.model).ready = (x.model r.model).ready.erase r.trig)
      ∧ if bit (x.gather r.model r.trig).2.1 6 || (x.flag (Ob.modelSkipLate r.model)
            && after (stampAdd x.now (x.estimate r.model ((e : Nat) / 2))) (x.deadline r.model r.trig))
        then d.ten.running = x.ten.running
          ∧ d.reg (Ob.modelSkipped r.model) = wrapTy (keyTy (Ob.modelSkipped r.model)) (x.reg (Ob.modelSkipped r.model) + 1)
        else ∃ i, d.ten.running = x.ten.running ++ [i] ∧ i.model = r.model ∧ i.trig = r.trig
          ∧ i.inputs = (x.gather r.model r.trig).1 ∧ i.engine = (e : Nat) ∧ i.canary = false
          ∧ i.seq = r.seq.getD (x.model r.model).seq := by
  refine Runs.of_onDev (show execInferenceDispatch e s = onDev _ s from rfl) ?_
  dsimp only
  rw [hidle, if_neg (by decide), hready]
  dsimp only
  rw [← hflip]
  have hr : r.model < 32 := Dev.chosen_model hchosen
  obtain ⟨hbooked, hten, htl⟩ := x.gather_keeps r.model r.trig
  obtain ⟨ins, flags, z, hgather⟩ : ∃ ins flags z, x.gather r.model r.trig = (ins, flags, z) := ⟨_, _, _, rfl⟩
  rw [hgather] at hbooked hten htl ⊢
  dsimp only at hbooked hten htl ⊢
  have hreg : ∀ k, k / 256 = 0x3420 + r.model → z.reg k = x.reg k := fun k hk => hbooked k (modelKey_plain hr hk).1
  obtain ⟨hseq, hrunning, hsame, htaken⟩ := z.numbered_spec r
  obtain ⟨seq, w, hnumbered⟩ : ∃ seq w, z.numbered r = (seq, w) := ⟨_, _, rfl⟩
  rw [hnumbered] at hseq hrunning hsame htaken
  dsimp only at hseq hrunning hsame htaken
  rw [Dev.model_congr hten] at hseq htaken
  have hskipLate : w.flag (Ob.modelSkipLate r.model) = x.flag (Ob.modelSkipLate r.model) :=
    Dev.flag_congr ((hsame _).trans (hreg _ (by unfold Ob.modelSkipLate; omega)))
  have hskipped : Ob.modelSkipped r.model / 256 = 0x3420 + r.model := by unfold Ob.modelSkipped; omega
  have hnow : z.now = x.now := congrArg Timeline.now htl
  rw [Dev.dispatch_chosen hcanary hchosen hgather hnumbered, hskipLate, hnow, Dev.estimate_congr hten hreg, Dev.deadline_congr hreg,
    Dev.settle_model, Dev.settle_ten, Dev.settle_modelReg _ _ hr hskipped]
  generalize (bit flags 6 || _) = skip
  obtain ⟨hkept, hend⟩ := w.begun_spec (e := e) hr ins flags seq skip
  refine ⟨fun hnone => (hkept _).trans (htaken hnone), ?_⟩
  cases skip with
  | true =>
    obtain ⟨hstill, hcounted⟩ := hend
    exact ⟨by rw [hstill, hrunning, hten], by rw [hcounted, hsame, hreg _ hskipped]⟩
  | false =>
    have hstarted : _ = w.ten.running ++ [w.started e r ins flags seq] := hend
    exact ⟨_, by rw [hstarted, hrunning, hten], rfl, rfl, rfl, rfl, rfl, hseq⟩

end Sys2Proof.Machine
end

section
/-! Results (09_tensor_engines R200, R209, R210): an inference ends on its engine, and its record goes out. -/
namespace Sys2Proof.Machine

/-- A run that has ended frees its engines and counts on each (R200). -/
theorem Dev.endRun_spec (d : Dev) (i : Infer) (hi : i.engine + i.span ≤ 9) :
    (d.endRun i).ten.running = d.ten.running.erase i ∧ (d.endRun i).now = d.now
      ∧ ∀ k, ¬ TensorKey k → (d.endRun i).reg k = d.reg k := by
  unfold Dev.endRun
  extract_lets ended recent e
  have hcounted : TensorWork ∅ e (e.each (List.range i.span) fun d j => d.bump (Ob.engineInferencesRun (i.engine + j))) :=
    .each (.refl e) fun d j hj => .bump (.refl d) (tensorKey_engine (by have := List.mem_range.1 hj; omega) (.inl rfl))
  exact ⟨hcounted.running, hcounted.now, hcounted.reg⟩

/-- The bytes that an inference reads of its inputs; a missing one reads zero (R206). -/
def Infer.bytesIn (i : Infer) : List Bytes :=
  (List.range i.inputs.length).map fun k => match i.inputs.getD k none with
    | some it => it.data
    | none => List.replicate (pkgInLen i.pkg k) 0

/-- A result is counted with its run time, and shown as the model's last. -/
def Dev.resultCounted (d : Dev) (e : Nat) (i : Infer) (sat : Bool) : Dev :=
  let us := (stampDiff d.now i.at_).toNat / 1000
  let d := d.onModel i.model fun r => { r with times := (us :: r.times).take 16 }
  let d := (d.bump (Ob.modelInferences i.model)).when sat fun d => d.bump (Ob.engineSaturationCount e)
  (d.setN (Ob.modelLastSubject i.model) i.trig.subject).setN (Ob.modelLastCompletion i.model) d.now

/-- A late result is logged, and the record goes out; `d0` is the device whose run has just ended. -/
def Dev.resultSent (d d0 : Dev) (i : Infer) (outs : List Bytes) (sat : Bool) : Dev :=
  let m := i.model
  let dl := d0.deadline m i.trig
  let late := after d0.now dl
  let flags := i.flags + d0.unverified + 2 * late.toNat + 8 * sat.toNat
  let head := outHead m i.engine flags outs.length i.seq i.trig.subject (d0.stampIn (Isl.ten + i.engine / 2)) i.at_ (outs.map fun o => o.length)
  let d := (d.setN (Ob.modelMeanRunTime m) (d.meanRun m)).when late fun d =>
    (d.bump (Ob.modelLate m)).event { code := 0x3073, d1 := m, d2 := (stampDiff d.now dl).toNat / 1000 }
  (d.emitRecord m (Isl.ten + i.engine / 2) i.trig.subject d.now flags late head outs).genDec i.trig

theorem execInferenceComplete_found {s : State} {e : Fin 8} {i : Infer}
    (hfind : (s.dev.ten.running.find? fun i => i.engine == (e : Nat) && !i.canary) = some i) (fault : Option (List Bytes)) :
    execInferenceComplete e fault s = onDev (fun d =>
      ((d.endRun i).resultCounted e i (Dev.outputsOf i.pkg i.bytesIn fault).2).resultSent (d.endRun i) i
        (Dev.outputsOf i.pkg i.bytesIn fault).1 (Dev.outputsOf i.pkg i.bytesIn fault).2) s := by
  unfold execInferenceComplete onDev
  beta_reduce
  rw [hfind]
  rfl

theorem Dev.resultCounted_spec (d : Dev) {e : Nat} (he : e < 8) (i : Infer) (hm : i.model < 32) (sat : Bool) :
    (d.resultCounted e i sat).ten.running = d.ten.running
      ∧ (d.resultCounted e i sat).reg (Ob.modelLastSubject i.model) = (i.trig.subject : Nat)
      ∧ (d.resultCounted e i sat).reg (Ob.modelLastCompletion i.model) = (d.now : Nat)
      ∧ (d.resultCounted e i sat).reg (Ob.modelInferences i.model)
        = wrapTy (keyTy (Ob.modelInferences i.model)) (d.reg (Ob.modelInferences i.model) + 1) := by
  unfold Dev.resultCounted
  extract_lets us timed counted
  have hsat : TensorWork ∅ (timed.bump (Ob.modelInferences i.model)) counted :=
    .when (.refl _) (fun d => .bump (.refl d) (tensorKey_engine (by omega) (.inr rfl))) _
  have hcount : counted.reg (Ob.modelInferences i.model)
      = wrapTy (keyTy (Ob.modelInferences i.model)) (d.reg (Ob.modelInferences i.model) + 1) := by
    rw [hsat.reg _ (modelKey_not hm (by unfold Ob.modelInferences; omega) (by unfold Ob.modelInferences; omega)), Dev.reg_bump,
      if_pos rfl]
    rfl
  refine ⟨hsat.running, ?_, ?_, ?_⟩
  · rw [Dev.reg_setN, if_neg (by unfold Ob.modelLastSubject Ob.modelLastCompletion; omega), Dev.reg_setN, if_pos rfl]
  · rw [Dev.reg_setN, if_pos rfl, hsat.now]
    rfl
  · rw [Dev.reg_setN, if_neg (by unfold Ob.modelInferences Ob.modelLastCompletion; omega), Dev.reg_setN,
      if_neg (by unfold Ob.modelInferences Ob.modelLastSubject; omega), hcount]

theorem Dev.resultSent_work (d d0 : Dev) (i : Infer) (hm : i.model < 32) (outs : List Bytes) (sat : Bool) :
    TensorWork ∅ d (d.resultSent d0 i outs sat) := by
  unfold Dev.resultSent
  extract_lets m dl late flags head noted
  have hnoted : TensorWork ∅ d noted := .when (.setN (.refl d) (.of_model hm (.inr (.inr (.inr (.inr rfl))))) _)
    (fun d => .event (.bump (.refl d) (.of_model hm (.inr (.inr (.inl rfl))))) _) _
  exact (hnoted.emitRecord _ _ _ _ _ _ _ _).genDec _

theorem inferenceComplete_runs {s : State} {e : Fin 8} {i : Infer}
    (hfind : (s.dev.ten.running.find? fun i => i.engine == (e : Nat) && !i.canary) = some i) (hm : i.model < 32) (hspan : i.span ≤ 2)
    (fault : Option (List Bytes)) :
    Runs (.inferenceComplete e fault) s fun d => d.ten.running = s.dev.ten.running.erase i
      ∧ d.reg (Ob.modelLastSubject i.model) = (i.trig.subject : Nat) ∧ d.reg (Ob.modelLastCompletion i.model) = (s.dev.now : Nat)
      ∧ d.reg (Ob.modelInferences i.model)
        = wrapTy (keyTy (Ob.modelInferences i.model)) (s.dev.reg (Ob.modelInferences i.model) + 1) := by
  refine Runs.of_onDev (execInferenceComplete_found hfind fault) ?_
  have hengine : i.engine = e := by
    have h := List.find?_some hfind
    simp only [Bool.and_eq_true, beq_iff_eq] at h
    exact h.1
  have hstands : ∀ d0 outs sat (d : Dev) k, k / 256 = 0x3420 + i.model → k % 256 = 0x21 ∨ k % 256 = 0x25 ∨ k % 256 = 0x26 →
      (s.dev.settle (d.resultSent d0 i outs sat)).reg k = d.reg k := fun d0 outs sat d k hk hsub => by
    rw [Dev.settle_modelReg _ _ hm hk]
    exact (d.resultSent_work d0 i hm outs sat).reg k (modelKey_not hm hk (by omega))
  obtain ⟨hended, hnow, hreg⟩ := s.dev.endRun_spec i (by omega)
  obtain ⟨hrunning, hsubject, hcompletion, hcount⟩ :=
    (s.dev.endRun i).resultCounted_spec e.isLt i hm (Dev.outputsOf i.pkg i.bytesIn fault).2
  refine ⟨?_, ?_, ?_, ?_⟩
  · rw [Dev.settle_ten, (Dev.resultSent_work _ _ i hm _ _).running, hrunning, hended]
  · rw [hstands _ _ _ _ _ (by unfold Ob.modelLastSubject; omega) (by unfold Ob.modelLastSubject; omega), hsubject]
  · rw [hstands _ _ _ _ _ (by unfold Ob.modelLastCompletion; omega) (by unfold Ob.modelLastCompletion; omega), hcompletion, hnow]
  · rw [hstands _ _ _ _ _ (by unfold Ob.modelInferences; omega) (by unfold Ob.modelInferences; omega), hcount,
      hreg _ (modelKey_not hm (by unfold Ob.modelInferences; omega) (by unfold Ob.modelInferences; omega))]

/-- Settles O40: each command by what it writes, which stands past the work on the feeds that it sets off (`TensorWork`). -/
theorem tensorCommandsRun : Obligations.TensorCommandsRun :=
  ⟨fun m => ⟨modelLoad_runs m, modelUnload_runs m⟩,
    fun _ _ => ⟨fun hload readOk => modelLoadDone_runs hload readOk, fun _ hcopy => deckCopyDone_runs hcopy,
      fun hunload hidle => modelUnloadDone_runs hunload hidle⟩,
    fun _ _ _ _ hflip hwaits => inferenceTrigger_runs hflip hwaits,
    fun _ _ => ⟨fun _ hcanary => inferenceDispatch_canary_runs hcanary,
      fun _ _ _ hidle hready hflip hcanary hchosen => inferenceDispatch_runs hidle hready hflip hcanary hchosen,
      fun _ hfind hm hspan fault => inferenceComplete_runs hfind hm hspan fault⟩⟩

end Sys2Proof.Machine
end
